-- ==== Sys2Proof/Word.lean ====
section
/-! DEFINITION. The word types of the model and the type of its sparse tables. -/
namespace Sys2Proof

/-- One byte. -/
abbrev Byte := BitVec 8
/-- A 32-bit setup register (R5), and the bit pattern of an FP32 value (R91). -/
abbrev Word := BitVec 32
/-- A 64-bit register pair or descriptor field (R6). -/
abbrev Dword := BitVec 64
/-- A SHA3-512 digest (R64). -/
abbrev Digest := BitVec 512
/-- A sparse table: entries by number, the numbers strictly rising (see Machine/Maps.lean). -/
abbrev NMap (α : Type) := List (Nat × α)

/-- The context number of the PF admin context (Table 11.1, R298). -/
def adminCtx : Nat := 0x3FF

end Sys2Proof
end

