-- ==== Sys2Proof/Machine/Operands.lean ====
section
/-! DEFINITION. The records that commands and events carry (descriptors, images, manifests, packets),
written from the layouts of the spec. A record holds the fields as they stand in the object read.
A buffer that the device reads from host memory
is an Option: none stands for a read that completed with an error (R278). -/
namespace Sys2Proof

/-- A PCI Express function: the PF, the second PF of a bifurcated link, or a VF (R275). -/
inductive Func where
  | pf | pf2 | vf (n : Nat)
  deriving DecidableEq, Repr

/-- Status codes, Table 12.10. -/
inductive Status where
  | complete | declined | cancelled | truncatedHostStall
  | fabricTargetLost | memoryUncorrectable | coolantStop | powerEmergency | jobTornDown | resetAborted
  | malformed | resourceExhausted | epochUnavailable | accessDenied | busy
  deriving DecidableEq, Repr

/-- The descriptor header as it stands on its ring, Table 12.6, with where it was fetched.
rsvd and bodyRsvd say that a reserved header or body bit is set. -/
structure Hdr where
  ctx : Nat := 0
  ring : Nat := 2
  cls : Nat := 2
  addrOnly : Bool := false
  flags : Nat := 0
  irq : Bool := false
  job : Nat := 0
  modelCtx : Nat := 0
  reqId : Nat := 0
  deadline : Nat := 0
  epochSel : Nat := 0
  layerTag : Nat := 0
  opTag : Nat := 0
  rsvd : Bool := false
  bodyRsvd : Bool := false
  deriving DecidableEq, Repr

/-- GENERATE body, Table 12.7. -/
structure GenBody where
  seq : Nat := 0
  promptLen : Nat := 1
  promptAddr : Nat := 0
  maxOutput : Nat := 1
  outRing : Nat := 0
  specWindow : Nat := 0
  stopAddr : Nat := 0
  auxAddr : Nat := 0
  auxBytes : Nat := 0
  deriving DecidableEq, Repr

/-- SCORE body, Table 12.8. -/
structure ScoreBody where
  promptLen : Nat := 1
  promptAddr : Nat := 0
  auxAddr : Nat := 0
  auxBytes : Nat := 0
  resultAddr : Nat := 0
  resultBytes : Nat := 0
  deriving DecidableEq, Repr

/-- One bag of a gather, R171: its row IDs and pooling mode. rsvd: a bit of its bag word beyond
COUNT and MEAN is set. -/
structure Bag where
  ids : List Nat := []
  mean : Bool := false
  rsvd : Bool := false
  deriving DecidableEq, Repr

/-- EMBED_GATHER body, Table 12.8. -/
structure EmbedBody where
  tableId : Nat := 0
  bagCount : Nat := 1
  bagAddr : Nat := 0
  idsAddr : Nat := 0
  resultAddr : Nat := 0
  resultBytes : Nat := 0
  deriving DecidableEq, Repr

/-- Tile descriptor, Table 8.5. -/
structure TileDesc where
  op : Nat := 0
  format : Nat := 0
  srcKind : Nat := 1
  dstKind : Nat := 1
  channel : Nat := 0
  rows : Nat := 1
  cols : Nat := 1
  srcAddr : Nat := 0
  dstAddr : Nat := 0
  srcStride : Nat := 0
  dstStride : Nat := 0
  sigValid : Bool := false
  sigIsland : Nat := 0
  sigCounter : Nat := 0
  sigInc : Nat := 0
  layerId : Nat := 0
  operatorId : Nat := 0
  rsvd : Bool := false
  deriving DecidableEq, Repr

/-- One entry of a reservation's channel list (Table 13.1): CLASS and RESERVE. -/
structure ChanEntry where
  cls : Nat := 0
  reserve : Nat := 0
  rsvd : Bool := false
  deriving DecidableEq, Repr

/-- One remote claim of a reservation (Table 13.1). -/
structure RemoteEntry where
  loc : Nat := 0
  ratio : Nat := 0
  claim : Nat := 0
  rsvd : Bool := false
  deriving DecidableEq, Repr

/-- Reservation record, Table 13.1. chans and remotes hold the used entries (CHANNELS and
REMOTE_COUNT of them); unusedZero says that every unused entry is zero. -/
structure Reservation where
  magicOk : Bool := true
  format : Nat := 1
  hasKv : Bool := false
  flagRsvd : Bool := false
  footprint : Nat := 1
  lcShare : Nat := 0
  lcMem : Nat := 0
  lcXn : Nat := 0
  widen : Nat := 0xFFFF
  serve : Nat := 0
  tFixed : Nat := 0
  tOut : Nat := 0
  channels : Nat := 0
  remoteCount : Nat := 0
  chans : List ChanEntry := []
  remotes : List RemoteEntry := []
  unusedZero : Bool := true
  rsvd : Bool := false
  deriving DecidableEq, Repr

/-- KV geometry record, Table 9.1. -/
structure KvGeom where
  layers : Nat := 1
  headGroups : Nat := 1
  kvFormat : Nat := 3
  kBytes : Nat := 32
  vBytes : Nat := 32
  maxPositions : Nat := 16
  sinkBlocks : Nat := 0
  recentBlocks : Nat := 1
  budgetBlocks : Nat := 0
  ragged : Nat := 0
  boundSlot : Nat := 0xFF
  headChips : List Nat := []
  kvGrant : Nat := 0
  rsvd : Bool := false
  deriving DecidableEq, Repr

/-- Stop block, Table 11.4. lens, tokens and strings are the fields as they stand: eight lengths, the
first TOKEN_COUNT token IDs, the first STRING_COUNT strings; unusedZero says that every unused entry
and every string byte beyond its length is zero. -/
structure StopBlock where
  tokenCount : Nat := 0
  stringCount : Nat := 0
  lens : List Nat := []
  tokens : List Nat := []
  strings : List (List Byte) := []
  unusedZero : Bool := true
  rsvd : Bool := false
  deriving DecidableEq, Repr

/-- Rectangle record, R62. -/
structure Rect where
  x : Int := 0
  y : Int := 0
  w : Nat := 1
  h : Nat := 1
  deriving DecidableEq, Repr

/-- Route entry, R66. -/
structure RouteEntry where
  relX : Int := 0
  relY : Int := 0
  firstPort : Nat := 0
  cls : Nat := 0
  rsvd : Bool := false
  deriving DecidableEq, Repr

/-- Island configuration record, Table 3.5. routes holds the used entries; entries the 64 program
offsets; sfuSlots the table slots its programs name (R139). -/
structure IslRec where
  size : Nat := 1024
  relX : Int := 0
  relY : Int := 0
  cellMode : Nat := 1
  cellFlags : Nat := 0
  banks : Nat := 1
  counters : Nat := 0
  tableMask : Nat := 0
  routes : List RouteEntry := []
  entries : List Nat := []
  sfuSlots : List Nat := []
  rsvd : Bool := false
  deriving DecidableEq, Repr

/-- Layer record, Table 3.6, with the reduction length K and output width N that the layer's program
fixes (R112, R127). -/
structure LayerRec where
  layerId : Nat := 0
  rotSize : Nat := 0
  proofFlags : Nat := 0
  rotSeed : Nat := 0
  proofBase : Nat := 8
  proofMax : Nat := 3
  proofThr : Word := 0
  satThr : Nat := 0xFFFF
  ftzThr : Nat := 0xFFFF
  wlossThr : Nat := 0xFFFF
  experts : Nat := 0
  k : Nat := 0
  overflow : Nat := 0
  probeP : Nat := 0
  moeFlags : Nat := 0
  capacity : Nat := 0
  seeds : List Nat := []
  reduction : Nat := 32
  width : Nat := 32
  /-- The arrival counters, as (island in R65 order, logical counter), on which the layer's expert steps and
  its combine step wait (R158, R164), as its programs fix them. -/
  expertSig : Nat × Nat := (0, 0)
  combineSig : Nat × Nat := (0, 0)
  rsvd : Bool := false
  deriving DecidableEq, Repr

/-- Cost-table entry, Table 3.7: the four coefficients A, B, C, D of each resource. -/
structure CostEntry where
  opcode : Nat := 1
  isl : Nat × Nat × Nat × Nat := (0, 0, 0, 0)
  mem : Nat × Nat × Nat × Nat := (0, 0, 0, 0)
  xn : Nat × Nat × Nat × Nat := (0, 0, 0, 0)
  rsvd : Bool := false
  deriving DecidableEq, Repr

/-- The contents of a table image: a loadable function table (Table 6.4) or a lookup table (R138). -/
inductive TableImage where
  | fn (magicOk : Bool) (spacing symmetry : Nat) (lo hi : Word) (eLo : Int) (binades : Nat)
      (belowSlope belowIntercept aboveSlope aboveIntercept : Word)
      (segs : List (Word × Word × Word)) (rsvd : Bool)
  | lookup (magicOk : Bool) (fmt oor count : Nat) (entries : List Nat) (rsvd : Bool)
  deriving DecidableEq, Repr

/-- Table reference record, Table 3.8, with the initial contents section 7 holds for it. -/
structure TableRef where
  slot : Nat := 0
  kind : Nat := 0
  tableId : Nat := 0
  initOffset : Nat := 0
  initSize : Nat := 16384
  content : Option TableImage := none
  rsvd : Bool := false
  deriving DecidableEq, Repr

/-- Symbol record, R70, with where the image says the tensor stands (R429): (step kind, index of the island in R65
order, island-local address, bytes). -/
structure SymbolRec where
  symbolId : Nat := 0
  layerId : Nat := 0
  operatorId : Nat := 0
  kind : Nat := 0
  format : Nat := 0
  rank : Nat := 0
  nameOffset : Nat := 0
  holds : List (Nat × Nat × Nat × Nat) := []
  rsvd : Bool := false
  deriving DecidableEq, Repr

/-- A plate image as the device reads it: the header (Table 3.3), the section directory, the records
of its sections, and what Sirdoyx finds of its trailer (R64). targets are the arrival-counter targets
of its step kinds (R76): (kind, index of the island in R65 order, counter, target). -/
structure PlateImage where
  magicOk : Bool := true
  format : Nat := 1
  flags : Nat := 0
  size : Nat := 65536
  uuid : Nat := 0
  layoutId : Nat := 0
  longest : Nat := 1
  islandCount : Nat := 1
  rectCount : Nat := 1
  signer : Nat := 3
  rects : List Rect := []
  unusedRectsZero : Bool := true
  layerCount : Nat := 0
  symbolCount : Nat := 0
  costCount : Nat := 1
  tableCount : Nat := 0
  stepKinds : Nat := 1
  sections : List (Nat × Nat) := []
  records : List IslRec := []
  layers : List LayerRec := []
  tables : List TableRef := []
  costs : List CostEntry := []
  symbols : List SymbolRec := []
  targets : List (Nat × Nat × Nat × Nat) := []
  /-- DVA of the return buffer that the image declares in the job's partition (R166). -/
  returns : Nat := 0
  /-- The plate's attention step kinds, each with where firmware writes its length table: (kind, index of the island in R65 order,
  island-local address) (R224; log entry 180). -/
  attn : List (Nat × Nat × Nat) := []
  digest : Digest := 0
  digestOk : Bool := true
  sigOk : Bool := true
  rsvd : Bool := false
  deriving DecidableEq, Repr

/-- Chip table entry of a weight manifest, Table 10.2. -/
structure ChipEntry where
  loc : Nat := 0
  chunks : Nat := 1
  rsvd : Bool := false
  deriving DecidableEq, Repr

/-- Shard record, Table 10.3. -/
structure ShardRec where
  content : Nat := 0
  chip : Nat := 0
  lmode : Nat := 0
  offset : Nat := 0
  size : Nat := 65536
  digest : Digest := 0
  rsvd : Bool := false
  deriving DecidableEq, Repr

/-- Expert placement table, Tables 7.2 and 7.3; entries are the 32-bit words. -/
structure ExpertTable where
  layerId : Nat := 0
  experts : Nat := 0
  sources : Nat := 1
  entries : List Word := []
  rsvd : Bool := false
  deriving DecidableEq, Repr

/-- Embedding table record, Table 7.6; shards hold bits [47:0] of each entry. -/
structure EmbTable where
  tableId : Nat := 0
  format : Nat := 7
  rowBits : Nat := 8
  shardBits : Nat := 0
  rowBytes : Nat := 32
  seed : Nat := 0
  shards : List Nat := []
  rsvd : Bool := false
  deriving DecidableEq, Repr

/-- A weight manifest, R234 and Tables 10.1 to 10.3. -/
structure Manifest where
  magicOk : Bool := true
  format : Nat := 1
  flags : Nat := 0
  size : Nat := 5120
  uuid : Nat := 0
  layoutId : Nat := 0
  signer : Nat := 3
  chipCount : Nat := 1
  expertTables : Nat := 0
  shardCount : Nat := 1
  embTables : Nat := 0
  sections : List (Nat × Nat) := []
  chips : List ChipEntry := []
  shards : List ShardRec := []
  experts : List ExpertTable := []
  embs : List EmbTable := []
  digest : Digest := 0
  digestOk : Bool := true
  sigOk : Bool := true
  rsvd : Bool := false
  deriving DecidableEq, Repr

/-- A detokenisation table, R265. -/
structure DetokImage where
  magicOk : Bool := true
  format : Nat := 1
  size : Nat := 5120
  uuid : Nat := 0
  vocab : Nat := 1
  signer : Nat := 3
  offsets : List Nat := []
  pool : List Byte := []
  digest : Digest := 0
  digestOk : Bool := true
  sigOk : Bool := true
  rsvd : Bool := false
  deriving DecidableEq, Repr

/-- A firmware image header and trailer, R403. -/
structure FwImage where
  magicOk : Bool := true
  svn : Nat := 0
  minSvn : Nat := 0
  build : Nat := 0
  size : Nat := 0
  rsvd : Bool := false
  digest : Digest := 0
  digestOk : Bool := true
  sigOk : Bool := true
  deriving DecidableEq, Repr

/-- An unlock token, Table 17.8. -/
structure UnlockToken where
  magicOk : Bool := true
  format : Nat := 1
  level : Nat := 2
  signer : Nat := 2
  lifetime : Nat := 60
  deviceIdOk : Bool := true
  nonce : Nat := 0
  rsvd : Bool := false
  sigOk : Bool := true
  digest : Digest := 0
  deriving DecidableEq, Repr

/-- COLL_GROUP_CREATE body, Table 15.1, with the member list read from host memory. -/
structure CollGroupBody where
  groupId : Nat := 1
  groupKey : Nat := 0
  members : Nat := 2
  rank : Nat := 0
  memberAddr : Nat := 0
  memberList : Option (List Nat) := none
  mode : Nat := 0
  chunkLog2 : Nat := 16
  depth : Nat := 2
  stagePlate : Nat := 0xFF
  stageOffset : Nat := 0
  stageBytes : Nat := 0
  deriving DecidableEq, Repr

/-- Collective operation body, Table 15.4. -/
structure CollBody where
  type : Nat := 7
  redop : Nat := 0
  nvalues : Nat := 0
  count : Nat := 0
  src : Nat := 0
  dst : Nat := 0
  values : List Dword := []
  sigValid : Bool := false
  sigIsland : Nat := 0
  sigCounter : Nat := 0
  rowLen : Nat := 0
  sigInc : Nat := 0
  rsvd : Bool := false
  deriving DecidableEq, Repr

/-- TENSOR_WATCH body, R429. -/
structure WatchBody where
  symbolId : Nat := 0
  stepKind : Nat := 0
  plate : Nat := 0
  fromSeq : Nat := 0
  bufAddr : Nat := 0
  bufBytes : Nat := 0
  expiry : Nat := 1
  deriving DecidableEq, Repr

/-- What a target chip answers to a migration's checks (Table 11.7). -/
structure MigrateAns where
  gone : Bool := false
  ctxExists : Bool := true
  tag : Nat := 0
  jobOk : Bool := true
  newestEpoch : Nat := 0
  roomOk : Bool := true
  deriving DecidableEq, Repr

/-- EXU record, Table 7.4, with what its packet says: the chip that issued it (src), the chip it goes to (dst), the chip that sent
this leg and its FSEQ and RESEND (R157, R349), TAG and EPOCH (R340, R245); and its payload: an FP32 row, a list of row IDs, or
bytes. gather: a CLOSE belongs to a gather (log entry 168). status: of a DONE, and of a RETURN or POOLED whose row could not be
computed from valid data (R455). -/
structure ExuRec where
  src : Nat := 0
  dst : Nat := 0
  leg : Nat := 0
  fseq : Nat := 0
  resend : Bool := false
  tag : Nat := 0
  epoch : Nat := 0
  choice : Nat := 0
  round : Nat := 0
  toHome : Bool := false
  gather : Bool := false
  lc : Bool := false
  widened : Bool := false
  exhausted : Bool := false
  overflowed : Bool := false
  mean : Bool := false
  layer : Nat := 0
  expert : Nat := 0
  home : Nat := 0
  count : Nat := 0
  exchange : Nat := 0
  slot : Nat := 0
  gen : Nat := 0
  modelCtx : Nat := 0
  row : List Word := []
  ids : List Nat := []
  bytes : List Byte := []
  chosen : List Nat := []
  status : Status := .complete
  deriving DecidableEq, Repr

/-- A Xaene request packet, Table 14.5, with its payload. For a tile of an SP format, mode is the line mode that the mover expects
and codes the scale codes of the payload's lines, in order (log entry 166). -/
structure Pkt where
  src : Nat := 0
  dst : Nat := 0
  vc : Nat := 1
  lc : Bool := false
  resend : Bool := false
  flow : Nat := 0
  fseq : Nat := 0
  length : Nat := 0
  tag : Nat := 0
  modelCtx : Nat := 0
  epoch : Nat := 0
  addr : Nat := 0
  op : Nat := 0
  size : Nat := 0
  payload : List Byte := []
  mode : Option Nat := none
  codes : List Nat := []
  deriving DecidableEq, Repr

/-- Response status, Table 14.9. -/
inductive RespStatus where
  | ok | denied | poison | restoring | malformed | gone
  deriving DecidableEq, Repr

/-- A Xaene response packet (R347); codes are the scale codes of the lines that a READ of an SP region returns (log entry 166). -/
structure RespPkt where
  src : Nat := 0
  flow : Nat := 0
  fseq : Nat := 0
  status : RespStatus := .ok
  payload : List Byte := []
  codes : List Nat := []
  deriving DecidableEq, Repr

/-- A flit, Table 14.2. body: its 244 bytes; crc: the CRC-32 that it carries; fecOk: no FEC codeword of it was uncorrectable
(R332). bodyVc and bodyResp: the VC and the pool of the packet that its bytes belong to. -/
structure FlitRec where
  seq : Nat := 0
  kind : Nat := 0
  ack : Nat := 0
  vc : Nat := 0
  respPool : Bool := false
  credits : Nat := 0
  body : List Byte := []
  crc : Nat := 0
  fecOk : Bool := true
  bodyVc : Nat := 0
  bodyResp : Bool := false
  deriving DecidableEq, Repr

/-- A collective packet: small (board or cross-board values) or one chunk of a bulk ring (R364, R367),
with the operation fields its first packet carries (R362). -/
structure CollPkt where
  src : Nat := 0
  flow : Nat := 0x200
  opNo : Nat := 0
  opcode : Nat := 0x72
  type : Nat := 7
  redop : Nat := 0
  nvalues : Nat := 0
  count : Nat := 0
  stage : Nat := 0
  segment : Nat := 0
  offset : Nat := 0
  values : List Dword := []
  data : List Byte := []
  marks : List Byte := []
  modelCtx : Nat := 0
  lc : Bool := false
  fseq : Nat := 0
  resend : Bool := false
  deriving DecidableEq, Repr

/-- The parameters a JOIN reports (R356, R357). -/
structure JoinParams where
  src : Nat := 0
  groupId : Nat := 1
  members : List Nat := []
  mode : Nat := 0
  chunkLog2 : Nat := 16
  depth : Nat := 2
  flow : Nat := 0x200
  modelCtx : Nat := 0
  fseq : Nat := 0
  deriving DecidableEq, Repr

/-- One dot product that a step program issues to one output lane (R93 to R110): nblk blocks of weights
and activations as they stand in the plate's banks, weight scales in the weight lines, the result
written at out. sparse weights take their 2:4 metadata words at metaAddr (R145). -/
structure DotOp where
  nblk : Nat := 1
  wAddr : Nat := 0
  aAddr : Nat := 0
  wScale : Nat := 0
  aScale : Nat := 0
  metaAddr : Nat := 0
  out : Nat := 0
  outBf16 : Bool := false
  layer : Nat := 0
  rowTile : Nat := 0
  colTile : Nat := 0
  deriving DecidableEq, Repr

/-- A row of a Proof tile (R119, R128, R130): padding; a row of request req of this chip; the row that an expert exchange has accepted
here for a token of another chip; or a row whose mark byte stands at addr of an island of the plate (R369).
Each row computed for another chip is a share of its own (log entry 179). -/
inductive ProofRow where
  | padding | own (req : Nat) | expert (layer exchange home slot choice : Nat) | marked (isl addr : Nat)
  deriving DecidableEq, Repr

/-- An output tile that an island completes (R119 to R126): which row each of its rows is, the tile's narrow FP32 results row by
row at qAddr, the retained BF16 activations at aAddr (K elements a row), the weight elements at wAddr (K a
column; of a SPARSE layer the stored half, with its metadata words at metaAddr) and their scale bytes (INT8: FP32 row scales) at wScale,
column by column. -/
structure ProofOp where
  layer : Nat := 0
  rowTile : Nat := 0
  colTile : Nat := 0
  rows : List ProofRow := []
  cols : Nat := 32
  qAddr : Nat := 0
  aAddr : Nat := 0
  wAddr : Nat := 0
  wScale : Nat := 0
  metaAddr : Nat := 0
  deriving DecidableEq, Repr

/-- The built-in functions of the SFUs, Table 6.2. -/
inductive SfuFn where
  | recip | rsqrt | exp2 | exp | log2 | ln
  deriving DecidableEq, Repr

/-- The activation of an epilogue, stage 3 of Table 6.5. -/
inductive Act where
  | none | relu | clamp (lo hi : Word) | builtin (f : SfuFn) | table (slot : Nat)
  deriving DecidableEq, Repr

/-- An epilogue over n FP32 results (Table 6.5); an absent option is a disabled stage. Where stage 7 quantises, the results are row
number row of an operand whose rows stand stride bytes apart, and last says that no row follows (R149). -/
structure EpiOp where
  src : Nat := 0
  dst : Nat := 0
  n : Nat := 1
  colScale : Option Nat := none
  bias : Option Nat := none
  act : Act := .none
  gate : Bool := false
  residual : Option (Nat × Bool) := none
  outScale : Option Word := none
  convert : Nat := 7
  layer : Nat := 0
  row : Nat := 0
  stride : Nat := 0
  last : Bool := true
  deriving DecidableEq, Repr

/-- The modes of the RMS unit (R142, R144). -/
inductive RmsMode where
  | norm | only | mean
  deriving DecidableEq, Repr

/-- One token a step dispatches to its experts (R160): token ID, position, slot, and where its activation row stands in the
plate's banks: island in R65 order, address, bytes. -/
structure MoeToken where
  token : Nat := 0
  pos : Nat := 0
  slot : Nat := 0
  req : Option Nat := none
  isl : Nat := 0
  addr : Nat := 0
  bytes : Nat := 0
  deriving DecidableEq, Repr

/-- An activation row on its way into the cells (R112, R115, R120): n FP32 values at src, from position first of the layer's reduction
dimension. They are rotated where the layer says so, kept in BF16 at keep where a Proof needs them, and leave at dst in format fmt.
row, stride and last: as in an epilogue. -/
structure ActRow where
  layer : Nat := 0
  fmt : Nat := 2
  src : Nat := 0
  n : Nat := 32
  first : Nat := 0
  dst : Nat := 0
  keep : Option Nat := none
  row : Nat := 0
  stride : Nat := 0
  last : Bool := true
  deriving DecidableEq, Repr

/-- What an attention row reads (R216, R218, R227): score j is that of position first + j of sequence seq of home chip home in a head
group; query is the position that the row computes, heads × layers rows of which make up a step. -/
structure AttnRow where
  home : Nat := 0
  seq : Nat := 0
  group : Nat := 0
  query : Nat := 0
  first : Nat := 0
  deriving DecidableEq, Repr

/-- Rows of the KV range of a sequence (R206, R208): rows from position pos of a layer of a head group, keys or values. -/
structure KvRows where
  seq : Nat := 0
  group : Nat := 0
  layer : Nat := 0
  pos : Nat := 0
  value : Bool := false
  deriving DecidableEq, Repr

/-- An operation that a step program issues (R60, R77). Zormo's encoding is not documented; the model
takes the operations themselves, in the order issued, as the operands of STEP_DISPATCH. Addresses are
island-local addresses in the plate's logical banks. chunks: the chunks of a softmax row as (first element, length), in the order that
the image fixes (R141). rows: which request each row belongs to. cellFault: an uncorrectable error of the cells or of n bytes of
scratchpad at addr, fwd as in a fence; tableFault: one of a table-memory word (Table 19.6). -/
inductive StepOp where
  | dot (isl : Nat) (o : DotOp)
  | activate (isl : Nat) (a : ActRow)
  | tile (isl : Nat) (o : ProofOp)
  | builtin (isl : Nat) (f : SfuFn) (src dst n : Nat)
  | tableEval (isl slot src dst n : Nat)
  | lookup (isl slot dst : Nat) (index : Int)
  | epilogue (isl : Nat) (e : EpiOp)
  | softmax (isl src dst n : Nat) (chunks : List (Nat × Nat))
  | attention (isl src dst width vAddr n : Nat) (chunks : List (Nat × Nat)) (row : AttnRow)
  | rms (isl : Nat) (mode : RmsMode) (src gain dst n : Nat) (eps : Word)
  | skipCheck (isl aBit wBit : Nat)
  | send (isl route src dst n : Nat)
  | signal (isl route ctr inc : Nat)
  | moeDispatch (layer : Nat) (toks : List MoeToken)
  | postTile (d : TileDesc)
  | postKv (d : TileDesc) (read : Bool) (k : KvRows)
  | postGather (table : Nat) (bags : List Bag) (isl ctr inc dst : Nat)
  | postColl (key opcode : Nat) (b : CollBody)
  | postRemote (ty : Nat) (p : Pkt) (isl ctr inc dst : Nat)
  | expertRows (layer exchange queue isl dst : Nat)
  | expertReturn (layer exchange home slot choice isl addr : Nat)
  | expertDone (layer exchange : Nat)
  | rowsOut (isl addr rowBytes : Nat) (rows : List (Option Nat))
  | cellFault (isl addr n : Nat) (fwd : Bool)
  | tableFault (slot : Nat)
  deriving DecidableEq, Repr

/-- What work a queued step does for one request. head: attention for the sequence of another home chip, n positions from first, in
the groups that this chip serves (R226); it is no request of this chip. mode: 0 a prefill or recompute, 1 the last step of one, 2 a
decode, 3 a verify window. -/
inductive WorkKind where
  | prefill (n : Nat) | decode | verify (w : Nat) | recompute (n : Nat) | score (n : Nat) | embed
  | head (home seq first n : Nat) (mode : Nat)
  deriving DecidableEq, Repr

/-- A step firmware queues on a plate (R76): its kind and the requests it serves. -/
structure QStep where
  plate : Nat := 0
  kind : Nat := 0
  work : List (Nat × WorkKind) := []
  deriving DecidableEq, Repr

/-- What a step delivers at its boundary for one request: generated tokens with their SCORE (the next
token last), the accepted window count of a verify step (R228), result bytes of a SCORE, and whether
this was the request's last step; rowWords are slot words or marks folded into its flags. -/
structure StepRes where
  req : Nat := 0
  tokens : List (Nat × Word) := []
  accepted : Nat := 0
  result : List Byte := []
  last : Bool := false
  memBytes : Nat := 0
  xnBytes : Nat := 0
  slots : List Nat := []
  deriving DecidableEq, Repr

/-- The four parameters firmware fits for one field's thermal model (R394), each in the unit of
Config's prediction functions. -/
structure ThermFit where
  cap : Nat := 0
  thetaPc : Nat := 0
  thetaJp : Nat := 0
  tIn : Nat := 0
  tPlate : Nat := 0
  deriving DecidableEq, Repr

/-- What Patina has measured (Table 18.7): of each island named, its degradation D in 0.001 % and the stress-days behind it, in any one
unit; the electromigration charge of each rail in millionths of its rated Q; the thermal cycles of each field; the correctable errors
of each LPDDR6 channel in the last hour; the eye margin of each SerDes lane in mV. -/
structure PatinaSample where
  degr : List (Nat × Nat × Nat) := []
  charge : List Nat := []
  cycles : List Nat := []
  errors : List Nat := []
  eye : List Nat := []
  deriving DecidableEq, Repr

/-- What a failing host read was fetching (R278). -/
inductive HostReadWhat where
  | summary (link : Nat)
  | doorbell (ctx : Nat)
  | descriptor (ctx ring : Nat)
  | reqBuffer (req : Nat)
  | cmdBuffer (h : Hdr)
  | installBuffer (mc shard : Nat)
  deriving DecidableEq, Repr

/-- What a failing host write was writing (R278). -/
inductive HostWriteWhat where
  | record (ctx ring : Nat)
  | reqDest (req : Nat)
  | cmdDest (h : Hdr)
  | other (ctx : Nat)
  deriving DecidableEq, Repr

/-- A data transfer on a Dovetail lane (R38): 64-bit control words, or bytes written at an island-local
address of the destination island in a plate's banks; or passed on through a port. -/
inductive Xfer where
  | write (plate isl addr : Nat) (data : List Byte)
  | forward (plate port : Nat) (bits : List Byte)
  | control (plate : Nat) (word : Dword)
  deriving DecidableEq, Repr

/-- What a calibration sweep of a lane gives (R41, R43): d_min, or a sweep that reached tap 127 with what the port
loopback and forwarding tests of both islands then find. -/
inductive LaneSweep where
  | ok (dMin : Nat)
  | failed (loopHere loopThere fwdHere fwdThere : Bool)
  deriving DecidableEq, Repr

/-- An IEEE 1149.1 instruction or a debug transaction at the TAP (R412, R414). -/
inductive TapOp where
  | idcode | bypass | samplePreload | extest | clamp | highz | dbgRead | dbgFull
  | other (code : Nat)
  /-- Transactions of the debug port: core trace, core registers, sequencer state or configuration records read, n bytes of them; a
  Bureau core halted, released or stepped; device memory, or the scratchpad of an island, read or written. -/
  | readDebug (n : Nat)
  | haltCore | runCore | stepCore
  | readMem (addr n : Nat)
  | writeMem (addr : Nat) (data : List Byte)
  | readScratch (isl addr n : Nat)
  | writeScratch (isl addr : Nat) (data : List Byte)
  deriving DecidableEq, Repr

/-- A unit that failed a self-test or a calibration (R329): an island and whether its forwarding passes, a Dovetail lane
with what the loopbacks and the forwarding tests of both islands find, a subchannel, a SerDes lane. -/
inductive FailedUnit where
  | island (n : Nat) (fwd : Bool)
  | lane (isl port : Nat) (control loopHere loopThere fwdHere fwdThere : Bool)
  | subchannel (n : Nat)
  | serdes (port lane : Nat)
  deriving DecidableEq, Repr

end Sys2Proof
end

