-- ==== Sys2Proof/Syntax.lean ====
section
/-! DEFINITION. The commands and events of the KX-96, one constructor of Instr per row of
spec/opcode_table.json, in the table's order. Every constructor's first operand t is the device time
in ns at which the command or event takes place (log entry 1); h is the descriptor header of a command
fetched from a ring; the other operands are the row's own, or what the outside (host memory, a peer
chip, a sensor, the undocumented plate program) contributes to that step. -/
namespace Sys2Proof

/-- The rows of the table of operations and events. -/
inductive Instr where
  /-- GENERATE (R296). A GENERATE descriptor is fetched from ring 0 or 1; the home chip runs the checks of R491 and writes ACCEPT or DECLINE. -/
  | generate (t : Nat) (h : Hdr) (b : GenBody)
  /-- SCORE (R297). A SCORE request descriptor is fetched; it is checked and admitted or declined like a generate request, without output tokens. -/
  | score (t : Nat) (h : Hdr) (b : ScoreBody)
  /-- EMBED_GATHER (R171). An embed-gather request is fetched; it is admitted or declined, then its bags are dispatched as GATHER records to the owner chips. -/
  | embedGather (t : Nat) (h : Hdr) (b : EmbedBody) (bags : Option (List Bag))
  /-- TILE_MOVE (R187). A host TILE_MOVE command is fetched; its tile descriptor is checked and queued on the job's tile-mover channel. -/
  | tileMove (t : Nat) (h : Hdr) (d : TileDesc)
  /-- EMB_ROW_UPDATE (R173). A row update of an embedding table is fetched and sent as an UPDATE record to the row's owner chip. -/
  | embRowUpdate (t : Nat) (h : Hdr) (table : Nat) (row : Nat) (data : Option (List Byte))
  /-- EMB_GEN_COMMIT (R175). A generation commit of a two-slot embedding table is fetched and sent as COMMIT records to every chip of the model context. -/
  | embGenCommit (t : Nat) (h : Hdr) (table : Nat)
  /-- KV_MIGRATE (R254). A migration of an IDLE sequence to another chip is fetched, checked against Table 11.7, and started as a long operation. -/
  | kvMigrate (t : Nat) (h : Hdr) (seq : Nat) (target : Nat) (targetVf : Nat) (ans : MigrateAns)
  /-- JOB_ADMIT (R308). A job reservation is checked against Table 13.2, remote claims are requested, and the job is admitted or refused. -/
  | jobAdmit (t : Nat) (h : Hdr) (resvAddr : Nat) (resvSize : Nat) (resv : Option Reservation) (kvAddr : Nat) (kv : Option KvGeom)
  /-- JOB_END (R310). The job is set draining: new requests are declined and the job's resources are released when its last plate is removed. -/
  | jobEnd (t : Nat) (h : Hdr)
  /-- JOB_TEARDOWN (R310). The job's plates stop at their next step boundary, its accepted requests complete with JOB_TORN_DOWN, and its resources are released. -/
  | jobTeardown (t : Nat) (h : Hdr)
  /-- PLATE_LOAD (R73). A plate load is fetched, given an operation ID, and its image read begins as a long operation. -/
  | plateLoad (t : Nat) (h : Hdr) (imageAddr : Nat) (imageSize : Nat)
  /-- PLATE_UNLOAD (R75). A plate is checked and set DRAINING; it is removed once no accepted request needs it. -/
  | plateUnload (t : Nat) (h : Hdr) (plate : Nat)
  /-- TABLE_RELOAD (R81). A signed table payload is fetched and written into the back bank of the named table. -/
  | tableReload (t : Nat) (h : Hdr) (table : Nat) (addr : Nat) (size : Nat)
  /-- SEQ_END (R253). An IDLE sequence is ended, passing through ENDING while its KV range is released, or the command is refused. -/
  | seqEnd (t : Nat) (h : Hdr) (seq : Nat)
  /-- MODEL_CREATE (R231). A model context with the given ID and UUID is created on the chip, or the command is refused. -/
  | modelCreate (t : Nat) (h : Hdr) (uuid : Nat)
  /-- MODEL_DESTROY (R233). Every epoch area of the model context on the chip is freed at once, or the command completes with BUSY. -/
  | modelDestroy (t : Nat) (h : Hdr)
  /-- EPOCH_INSTALL (R238). An epoch install is fetched on one chip; the chip starts verifying the manifest and staging its shards. -/
  | epochInstall (t : Nat) (h : Hdr) (installTag : Nat) (coord : Nat) (manifestAddr : Nat) (manifestSize : Nat) (dirAddr : Nat)
  /-- DETOK_LOAD (R265). A signed detokenisation table is verified and installed as a new generation for the model context. -/
  | detokLoad (t : Nat) (h : Hdr) (addr : Nat) (size : Nat) (image : Option DetokImage)
  /-- CTX_CREATE (R279). The context of a VF is created and bound to a tenant partition, or the command is refused. -/
  | ctxCreate (t : Nat) (h : Hdr) (vf : Nat) (part : Nat)
  /-- CTX_DESTROY (R279). A VF context is destroyed, or the command completes with BUSY or MALFORMED_DESCRIPTOR. -/
  | ctxDestroy (t : Nat) (h : Hdr) (vf : Nat)
  /-- PART_CREATE (R487). A tenant partition is created from FREE chunks with its tag and watermarks, and its chunks are zero-filled. -/
  | partCreate (t : Nat) (h : Hdr) (part : Nat) (partTag : Nat) (size : Nat) (low : Nat) (high : Nat)
  /-- PART_RESIZE (R202). A border of a partition or of the model space is moved, starting with the CHECK phase of Table 8.8. -/
  | partResize (t : Nat) (h : Hdr) (target : Nat) (size : Nat) (low : Nat) (high : Nat)
  /-- SELF_TEST (R328). An online or full self-test or calibration is started as a long operation. -/
  | selfTest (t : Nat) (h : Hdr) (scope : Nat) (variant : Nat)
  /-- SCRUB_PASS (R297). A scrub of one partition or of all device memory is started as a long operation. -/
  | scrubPass (t : Nat) (h : Hdr) (part : Nat)
  /-- FW_STAGE (R404). A firmware image is received, verified and written into the named flash slot as a long operation. -/
  | fwStage (t : Nat) (h : Hdr) (addr : Nat) (size : Nat) (slot : Nat) (image : Option FwImage)
  /-- SECURE_ERASE (R327). An erase of a tenant partition is started and waits in QUIESCE until the partition is unused. -/
  | secureErase (t : Nat) (h : Hdr) (part : Nat)
  /-- OP_SUSPEND (R327). A long operation is suspended at its next allowed point, or the command completes with BUSY. -/
  | opSuspend (t : Nat) (h : Hdr) (opId : Nat)
  /-- OP_RESUME (R327). A suspended long operation is continued. -/
  | opResume (t : Nat) (h : Hdr) (opId : Nat)
  /-- OP_CANCEL (R327). A long operation is ended with CANCELLED, leaving the state of Table 13.5, or the command completes with BUSY. -/
  | opCancel (t : Nat) (h : Hdr) (opId : Nat)
  /-- OP_QUERY (R299). The phase code and progress of a long operation are returned in a FINAL record. -/
  | opQuery (t : Nat) (h : Hdr) (opId : Nat)
  /-- REQ_CANCEL (R258). A request of the same context is cancelled at its next step boundary with CANCELLED, or no request is found. -/
  | reqCancel (t : Nat) (h : Hdr) (target : Nat)
  /-- COLL_GROUP_CREATE (R357). A collective group is checked and created, and JOIN is sent to every other member. -/
  | collGroupCreate (t : Nat) (h : Hdr) (b : CollGroupBody)
  /-- COLL_GROUP_DESTROY (R360). The group ends on this chip, its pending operations complete with CANCELLED, and ABANDON is sent to every member. -/
  | collGroupDestroy (t : Nat) (h : Hdr)
  /-- BARRIER (R364). A barrier is entered and its board and cross-board packets are sent on VC0. -/
  | barrier (t : Nat) (h : Hdr) (b : CollBody)
  /-- REDUCE_SMALL (R364). Up to 8 values are entered into a two-stage reduction across the group on VC0. -/
  | reduceSmall (t : Nat) (h : Hdr) (b : CollBody)
  /-- ALL_REDUCE (R366). A ring reduce-scatter followed by a ring all-gather is started on a buffer. -/
  | allReduce (t : Nat) (h : Hdr) (b : CollBody)
  /-- ALL_GATHER (R366). A ring all-gather is started, carrying row marks when ROW_LEN is non-zero. -/
  | allGather (t : Nat) (h : Hdr) (b : CollBody)
  /-- REDUCE_SCATTER (R366). A ring reduce-scatter is started, with each rank receiving its reduced segment. -/
  | reduceScatter (t : Nat) (h : Hdr) (b : CollBody)
  /-- TRACE_SETUP (R426). A context's trace ring is set up, replaced or stopped. -/
  | traceSetup (t : Nat) (h : Hdr) (base : Nat) (sizeLog2 : Nat) (kinds : Nat) (headAddr : Nat)
  /-- COUNTER_FILTER (R422). One filter set of the context is armed and its counters are cleared. -/
  | counterFilter (t : Nat) (h : Hdr) (set : Nat) (layer : Nat) (operator : Nat) (job : Nat)
  /-- LAYER_REPORT (R425). One 64-byte record per layer of each resident plate of the job is written to host memory. -/
  | layerReport (t : Nat) (h : Hdr) (addr : Nat) (bytes : Nat)
  /-- TENSOR_WATCH (R429). A watch on a tensor at a step boundary of a plate is armed. -/
  | tensorWatch (t : Nat) (h : Hdr) (b : WatchBody)
  /-- WATCH_CANCEL (R430). A watch that has not fired completes with CANCELLED. -/
  | watchCancel (t : Nat) (h : Hdr) (target : Nat)
  /-- STOP_BLOCK_RETURN (R264). The stop block read returns from the host and is checked, letting the admission decision proceed. -/
  | stopBlockReturn (t : Nat) (req : Nat) (block : Option StopBlock)
  /-- STOP_BLOCK_TIMEOUT (R317). The stop block has not returned 8 µs after detection, and the LC request is declined with DECLINED. -/
  | stopBlockTimeout (t : Nat) (req : Nat)
  /-- PREFIX_LOOKUP_DONE (R261). The prefix match ends; hit pages are mapped, pages and token-buffer frames allocated, and prefill steps queued. -/
  | prefixLookupDone (t : Nat) (req : Nat) (prompt : Option (List Nat)) (plan : List QStep)
  /-- STEP_DISPATCH (R76). Firmware dispatches a queued step once its counter targets are met, its slot is active and the previous boundary is reached. -/
  | stepDispatch (t : Nat) (plate : Nat) (ops : List StepOp) (plan : List QStep)
  /-- STEP_BOUNDARY (R47). Every island of the plate reports the step done and its transfers are acknowledged; firmware writes the step record. -/
  | stepBoundary (t : Nat) (plate : Nat) (res : List StepRes) (plan : List QStep)
  /-- STEP_WATCHDOG (R78). A step reaches its watchdog limit W; it is aborted and its job torn down. -/
  | stepWatchdog (t : Nat) (plate : Nat)
  /-- DEADLINE_MARGIN_TIMER (R325). At the deadline less 20 µs an unfinished request is completed with its recorded status or truncated. -/
  | deadlineMarginTimer (t : Nat) (req : Nat)
  /-- BE_ALLOCATION_RESUME (R197). Frames are released and a waiting BE allocation is served, letting the request's steps be dispatched. -/
  | beAllocationResume (t : Nat) (part : Nat)
  /-- DOVETAIL_TRANSFER (R38). A transfer arrives on a Dovetail lane, is checked and corrected, and is written or forwarded. -/
  | dovetailTransfer (t : Nat) (isl : Nat) (port : Nat) (control : Bool) (err : Nat) (x : Xfer)
  /-- COUNTER_INCREMENT (R46). A counter-increment transfer arrives and is added to an arrival counter after the data it accounts for. -/
  | counterIncrement (t : Nat) (isl : Nat) (counter : Nat) (inc : Nat)
  /-- DOVETAIL_RECALIBRATION (R42). A lane is recalibrated after a 10 °C move or 60 s, and fails the lane if the sweep reaches tap 127. -/
  | dovetailRecalibration (t : Nat) (isl : Nat) (port : Nat) (control : Bool) (tempMove : Bool) (dMin : Option Nat) (loopHere : Bool) (loopThere : Bool) (fwdHere : Bool) (fwdThere : Bool)
  /-- ISLAND_BRING_UP (R50). Firmware brings an island up through rail, DCO lock, reset release, calibration and self-test. -/
  | islandBringUp (t : Nat) (isl : Nat) (sweeps : List LaneSweep) (passed : Bool) (fwd : Bool)
  /-- ISLAND_BRING_UP_TIMEOUT (R50). A bring-up step exceeds its maximum; the island is fenced and a Coffer record written. -/
  | islandBringUpTimeout (t : Nat) (isl : Nat) (step : Nat) (fwd : Bool)
  /-- FLL_LOCK (R33). The DCO slew ends and FLL_LOCK sets. -/
  | fllLock (t : Nat) (isl : Nat)
  /-- DROOP (R48). The droop detector triggers and the DCO doubles its period. -/
  | droop (t : Nat) (isl : Nat)
  /-- DROOP_RELEASE (R48). The supply has stayed within 25 mV for 50 ns and the DCO returns to its set frequency. -/
  | droopRelease (t : Nat) (isl : Nat) (stretched : Nat)
  /-- PLATE_LOAD_VERIFIED (R74). The image digest and signature are verified, and placement is decided. -/
  | plateLoadVerified (t : Nat) (op : Nat) (image : Option PlateImage)
  /-- ISLAND_CONFIG_ACK (R74). An island acknowledges its configuration write. -/
  | islandConfigAck (t : Nat) (op : Nat) (isl : Nat)
  /-- ISLAND_CONFIG_TIMEOUT (R74). An island fails to acknowledge its configuration in time; it is written again or self-tested and fenced. -/
  | islandConfigTimeout (t : Nat) (op : Nat) (isl : Nat) (passed : Bool) (fwd : Bool)
  /-- PLATE_RESIDENT (R74). Tables are filled, counters cleared and the plate becomes RESIDENT. -/
  | plateResident (t : Nat) (op : Nat)
  /-- PLATE_REMOVAL (R75). A DRAINING plate with no accepted request needing it is removed between steps and its resources released. -/
  | plateRemoval (t : Nat) (plate : Nat)
  /-- RELOAD_PAYLOAD_WRITTEN (R85). The reload payload is in the back bank and is passed to Sirdoyx for verification. -/
  | reloadPayloadWritten (t : Nat) (job : Nat) (table : Nat)
  /-- RELOAD_VERIFIED (R82). The payload is verified, the swap armed and generation g + 1 assigned. -/
  | reloadVerified (t : Nat) (job : Nat) (table : Nat) (payload : TableImage) (digest : Digest) (digestOk : Bool) (sigOk : Bool)
  /-- LINE_CHECK_FAIL (R100). A line read fails its check; it is re-read up to twice and poisoned if both fail. -/
  | lineCheckFail (t : Nat) (line : Nat) (err : Nat) (again : Nat × Nat)
  /-- FRAME_RESTORED (R248). A restored frame is rewritten and tested, and waiting tiles are re-issued. -/
  | frameRestored (t : Nat) (frame : Nat) (testOk : Bool) (data : Option (List Byte))
  /-- RESTORE_FAILED (R248). Every restore attempt fails; the frame stays poisoned and the event is reported to the PF. -/
  | restoreFailed (t : Nat) (frame : Nat)
  /-- RETRAIN_SLICE (R200). A retraining slice takes one subchannel offline for up to 2 µs. -/
  | retrainSlice (t : Nat) (subch : Nat) (last : Bool) (ok : Bool)
  /-- SUBCHANNEL_RETRY (R458). A subchannel that failed retraining is retried; after three failures it is lost, which is fatal. -/
  | subchannelRetry (t : Nat) (subch : Nat) (ok : Bool)
  /-- TILE_PIECE_COMPLETE (R189). A tile piece's destination write is acknowledged and its drawer released. -/
  | tilePieceComplete (t : Nat) (channel : Nat) (data : List Byte) (poisoned : Bool)
  /-- CABINET_DRAWER_GRANT (R192). A waiting consumer takes a freed Cabinet drawer in the order it began to wait. -/
  | cabinetDrawerGrant (t : Nat)
  /-- EVICTION (R196). Free frames fall below LOW and CACHED objects are evicted by age until HIGH is reached. -/
  | eviction (t : Nat) (part : Nat)
  /-- AGE_SAMPLE (R195). Every age period firmware samples each frame's access bit and updates its age. -/
  | ageSample (t : Nat) (accessed : List Nat)
  /-- RECLAIM_RESUME (R204). Frames free and a shrink waiting in RECLAIM resumes. -/
  | reclaimResume (t : Nat) (op : Nat)
  /-- RESIZE_RETAG_DONE (R202). The resize's chunks are retagged and zero-filled and the completion is written. -/
  | resizeRetagDone (t : Nat) (op : Nat)
  /-- FRAME_MIGRATION (R203). A frame is copied on a firmware channel between steps and its mapping rewritten. -/
  | frameMigration (t : Nat) (part : Nat) (frame : Nat)
  /-- INVALIDATION_ACK (R211). A DATU acknowledges an invalidation, allowing a frame to be reused or freed. -/
  | invalidationAck (t : Nat) (datu : Nat) (frame : Nat)
  /-- DROP_GRANT_REQUEST (R221). The home chip grants or refuses a head chip's request to drop a KV object. -/
  | dropGrantRequest (t : Nat) (src : Nat) (seq : Nat) (group : Nat) (page : Nat)
  /-- KV_DROP (R221). On a granted drop the head chip clears the pages to RC = 1 and frees the frames. -/
  | kvDrop (t : Nat) (src : Nat) (seq : Nat) (page : Nat × Nat) (granted : Bool)
  /-- SEQUENCE_PUBLICATION (R212). The home chip publishes a sequence's page-table root and epoch to the head chips. -/
  | sequencePublication (t : Nat) (src : Nat) (ctx : Nat) (seq : Nat) (root : Nat) (modelCtx : Nat) (epoch : Nat)
  /-- MIGRATE_COPY_DONE (R255). The COPY phase of a migration ends and the SWITCH runs. -/
  | migrateCopyDone (t : Nat) (op : Nat) (newHandle : Nat)
  /-- MANIFEST_VERIFIED (R239). Sirdoyx verifies the manifest and the chip allocates its epoch area or waits for room. -/
  | manifestVerified (t : Nat) (op : Nat) (m : Option (Manifest × List Nat))
  /-- AREA_ALLOCATED (R239). A run of free model-space chunks appears and a waiting epoch area is allocated. -/
  | areaAllocated (t : Nat) (op : Nat)
  /-- SHARD_FETCHED (R240). A shard's bytes arrive and its digest is checked, refetching it on failure. -/
  | shardFetched (t : Nat) (mc : Nat) (shard : Nat) (data : Option (List Byte)) (copies : List Nat)
  /-- INSTALL_DEADLINE (R241). The install deadline passes before every PREPARED vote, and the coordinator aborts with EPOCH_UNAVAILABLE. -/
  | installDeadline (t : Nat) (mc : Nat)
  /-- PREPARED (R243). The coordinator receives a PREPARED vote, and sends COMMIT once it holds one from every chip. -/
  | prepared (t : Nat) (mc : Nat) (src : Nat) (installTag : Nat) (digest : Digest) (coord : Nat)
  /-- NO (R243). The coordinator receives a NO vote and sends ABORT with its status. -/
  | no (t : Nat) (mc : Nat) (src : Nat) (status : Status)
  /-- INSTALL_COMMIT (R243). A participant receives COMMIT(e), writes its record and replies COMMITTED. -/
  | installCommit (t : Nat) (mc : Nat) (src : Nat) (epoch : Nat)
  /-- COMMITTED_REPLY (R243). The coordinator receives a COMMITTED reply and, with all in, sends RELEASE and binds the epoch. -/
  | committedReply (t : Nat) (mc : Nat) (src : Nat)
  /-- RELEASE (R243). A participant receives RELEASE, writes RELEASED, acknowledges, binds the epoch and completes. -/
  | release (t : Nat) (mc : Nat) (src : Nat)
  /-- RELEASE_ACK (R243). The coordinator receives a chip's acknowledgement of RELEASE. -/
  | releaseAck (t : Nat) (mc : Nat) (src : Nat)
  /-- ABORT (R243). A participant receives ABORT, writes ABORTED, frees its area and completes with the status. -/
  | abort (t : Nat) (mc : Nat) (src : Nat) (status : Status)
  /-- INSTALL_QUERY_TIMER (R243). A participant hears nothing for 10 ms and asks the coordinator for its state. -/
  | installQueryTimer (t : Nat) (mc : Nat)
  /-- INSTALL_QUERY (R243). The coordinator answers a participant's query with its install state. -/
  | installQuery (t : Nat) (mc : Nat) (src : Nat)
  /-- COMMITTED_REPLY_TIMEOUT (R243). A COMMITTED reply is missing after 100 ms, and the coordinator sends ABORT(RESET_ABORTED). -/
  | committedReplyTimeout (t : Nat) (mc : Nat)
  /-- COORDINATOR_UNREACHABLE (R249). The coordinator is unreachable for 5 s or lost; the install resolves by the reachable chips' records. -/
  | coordinatorUnreachable (t : Nat) (mc : Nat) (anyReleased : Bool)
  /-- EPOCH_DRAINED (R247). A chip's reference count for a superseded epoch reaches zero and it reports to the coordinator. -/
  | epochDrained (t : Nat) (mc : Nat) (epoch : Nat) (src : Nat)
  /-- EPOCH_FREE (R247). A chip told to free a superseded epoch zero-fills its area and returns the chunks. -/
  | epochFree (t : Nat) (mc : Nat) (epoch : Nat)
  /-- DISPATCH (R159). An expert chip accepts a DISPATCH record up to CAPACITY or sends it down the overflow path. -/
  | dispatch (t : Nat) (r : ExuRec)
  /-- CLOSE (R158). A CLOSE arrives; when a round is closed the chip probes or signals its expert steps, and return CLOSEs trigger the combine. -/
  | close (t : Nat) (r : ExuRec)
  /-- RETURN (R166). A RETURN record is added element-wise into the token's return row and its slot word updated. -/
  | exuReturn (t : Nat) (r : ExuRec)
  /-- GATHER (R171). An owner chip pools the listed rows and returns one POOLED record. -/
  | gather (t : Nat) (r : ExuRec)
  /-- POOLED (R171). The home chip adds a POOLED row into the bag and, when all owners answered, finishes MEAN bags. -/
  | pooled (t : Nat) (r : ExuRec)
  /-- GONE (R161). A GONE record reports the serving job absent, and the home chip freezes the job. -/
  | gone (t : Nat) (r : ExuRec)
  /-- UPDATE (R176). The owner chip applies or stages an embedding row update and answers DONE. -/
  | update (t : Nat) (r : ExuRec)
  /-- COMMIT (R176). A chip applies a table generation commit or revert and answers DONE when its gathers drain. -/
  | commit (t : Nat) (r : ExuRec)
  /-- SETTLE (R176). A shard-holding chip copies staged rows into the other slot and answers DONE. -/
  | settle (t : Nat) (r : ExuRec)
  /-- DONE (R176). The issuing chip receives DONE and advances or completes the row update or commit. -/
  | done (t : Nat) (r : ExuRec)
  /-- READ (R346). A remote READ is executed at the owning memory controller and answered. -/
  | read (t : Nat) (p : Pkt)
  /-- WRITE (R346). A remote WRITE is checked against Table 8.4, executed and answered. -/
  | write (t : Nat) (p : Pkt)
  /-- ATOMIC (R346). A remote atomic operation is executed once and the old value or status returned. -/
  | atomic (t : Nat) (p : Pkt)
  /-- RESP (R347). A response arrives and the issuer completes, reissues or fails the operation by its status. -/
  | resp (t : Nat) (p : RespPkt)
  /-- RESTORING_REISSUE (R347). Every 10 µs the issuer reissues a request answered RESTORING. -/
  | restoringReissue (t : Nat) (flow : Nat) (fseq : Nat)
  /-- REMOTE_RESEND (R349). A request unanswered for 10 µs is resent with RESEND on another switch. -/
  | remoteResend (t : Nat) (flow : Nat) (fseq : Nat)
  /-- REMOTE_TIMEOUT (R349). A request unanswered for 20 µs has lost its target; poison is returned and the job frozen. -/
  | remoteTimeout (t : Nat) (flow : Nat) (fseq : Nat)
  /-- FABRIC_FAULT_RESEND (R351). FABRIC_FAULT is resent every 100 ms until acknowledged. -/
  | fabricFaultResend (t : Nat) (index : Nat)
  /-- FABRIC_FAULT_ACK (R351). The fabric manager acknowledges FABRIC_FAULT and resending stops. -/
  | fabricFaultAck (t : Nat) (eid : Nat) (index : Nat)
  /-- CLAIM (R309). A chip receives a remote claim and grants it from the serving job's SERVE or refuses it. -/
  | claim (t : Nat) (src : Nat) (mc : Nat) (amount : Nat)
  /-- CLAIM_ANSWER (R309). The home chip receives a claim grant or refusal and completes or fails JOB_ADMIT. -/
  | claimAnswer (t : Nat) (src : Nat) (job : Nat) (granted : Bool)
  /-- CLAIM_TIMEOUT (R309). No answer to a claim arrives within 5 ms and JOB_ADMIT fails. -/
  | claimTimeout (t : Nat) (job : Nat)
  /-- RESET_NOTICE (R451). A peer announces a reset; dependent jobs are handled as GONE with RESET_ABORTED. -/
  | resetNotice (t : Nat) (src : Nat)
  /-- JOIN (R357). A JOIN arrives; with JOIN from every member the group becomes READY and the create completes. -/
  | join (t : Nat) (p : JoinParams)
  /-- ABANDON (R360). ABANDON arrives and the group's pending and later operations complete with CANCELLED. -/
  | abandon (t : Nat) (groupId : Nat) (src : Nat)
  /-- FAULT (R362). A collective mismatch FAULT arrives and the group enters the FAULT state. -/
  | fault (t : Nat) (groupId : Nat) (src : Nat)
  /-- COLLECTIVE_CHUNK (R367). A bulk or small collective packet arrives, is staged, reduced or forwarded, and may complete the operation. -/
  | collectiveChunk (t : Nat) (groupId : Nat) (p : CollPkt)
  /-- SWITCH_STATE_REPORT (R342). A KS-64 reports a downlink or trunk change and the reachability table is updated. -/
  | switchStateReport (t : Nat) (switch : Nat) (reach : List (Nat × Bool))
  /-- FLIT (R334). A DATA or IDLE flit is received, checked, acknowledged and its credits taken. -/
  | flit (t : Nat) (port : Nat) (f : FlitRec)
  /-- NAK (R334). A NAK arrives and the sender replays from the next SEQ. -/
  | nak (t : Nat) (port : Nat) (ack : Nat)
  /-- TAG (R355). A TAG flit arrives and the block of encrypted flits is verified and delivered. -/
  | tag (t : Nat) (port : Nat) (ok : Bool)
  /-- REPLAY_RETRAIN (R334). A port reaches 8 replays within 1 ms and retrains. -/
  | replayRetrain (t : Nat) (port : Nat)
  /-- FEC_LOCK_LOSS (R336). A port loses FEC lock and retrains. -/
  | fecLockLoss (t : Nat) (port : Nat)
  /-- PORT_TRAINING_DONE (R336). Training ends and the port comes up at full or half width or stays DOWN; routes and capacity are re-evaluated. -/
  | portTrainingDone (t : Nat) (port : Nat) (failed : List Nat) (partner : Nat) (partnerPort : Nat) (encOk : Bool) (partnerEnc : Bool)
  /-- LANE_RETRY (R336). Every 60 s failed lanes are retried and full width restored if they pass. -/
  | laneRetry (t : Nat) (port : Nat) (passed : List Nat)
  /-- LINK_REKEY (R354). Link keys are renegotiated before 24 h pass or the block counter wraps. -/
  | linkRekey (t : Nat) (port : Nat)
  /-- POLL (R287). A doorbell poll begins and reads the summary line and the admin doorbell block. -/
  | poll (t : Nat)
  /-- SUMMARY_READ_RETURN (R287). The summary line read returns and a FetchAdd is issued for each word with bits set. -/
  | summaryReadReturn (t : Nat) (link : Nat) (words : Option (List Dword))
  /-- FETCHADD_COMPLETE (R286). The clearing FetchAdd completes and doorbell block reads are issued, or FULL_SCAN is entered on error. -/
  | fetchaddComplete (t : Nat) (link : Nat) (ok : Bool)
  /-- DOORBELL_BLOCK_READ (R287). A doorbell block read returns TAIL and HEAD values; descriptors are fetched and held records drained. -/
  | doorbellBlockRead (t : Nat) (ctx : Nat) (tails : List Nat) (heads : List Nat)
  /-- HOST_READ_ERROR (R278). A host read completes with an error and the ring, request or command is failed by what it fetched. -/
  | hostReadError (t : Nat) (w : HostReadWhat)
  /-- HOST_WRITE_ERROR (R278). A host write fails and the ring enters the error state or the request completes malformed. -/
  | hostWriteError (t : Nat) (w : HostWriteWhat)
  /-- COAL_TIMER (R303). Unsignalled records have been held for COAL_TIME µs and the ring's MSI-X vector is signalled. -/
  | coalTimer (t : Nat) (ctx : Nat) (ring : Nat)
  /-- PTM_DIALOGUE (R304). A PTM dialogue runs every PERIOD ms and sets or slews device time; three failures clear SYNC. -/
  | ptmDialogue (t : Nat) (ok : Bool) (master : Nat)
  /-- TRACE_DROP (R426). A trace record cannot be written within 100 µs and is dropped and counted. -/
  | traceDrop (t : Nat) (ctx : Nat) (req : Option Nat)
  /-- WATCH_EXPIRY (R430). A watch's EXPIRY runs out and it completes COMPLETE with INFO 0. -/
  | watchExpiry (t : Nat) (ctx : Nat) (reqId : Nat)
  /-- SCHEDULING_WINDOW (R313). A 100 µs window begins and entitlements, background reserve and overruns are set per island. -/
  | schedulingWindow (t : Nat)
  /-- BACKGROUND_INTERVAL (R432). A background activity's interval runs out; it is scheduled, or counted as deferred with an advisory. -/
  | backgroundInterval (t : Nat) (activity : Nat) (finished : Bool) (degr : List (Nat × Nat × Nat)) (charge : List Nat) (cycles : List Nat) (indicators : List Nat × List Nat) (fwd : List Nat)
  /-- GUARD_BAND_LOWER (R384). After 10 minutes without a droop-heavy window the field's guard band is lowered by 5 mV. -/
  | guardBandLower (t : Nat) (field : Nat)
  /-- RAIL_READING (R382). Rail currents and voltages are read, P is updated, and cap control and overshoot integration run. -/
  | railReading (t : Nat) (readings : List (Nat × Option Nat))
  /-- THERMAL_MODEL_UPDATE (R395). Every 10 ms the thermal model is fitted and f_therm set, possibly declaring a thermal emergency. -/
  | thermalModelUpdate (t : Nat) (fits : List ThermFit) (sensors : List Nat)
  /-- SENSOR_105 (R396). A sensor measures 105 °C; the field's DCOs halve their clocks and an emergency follows. -/
  | sensor105 (t : Nat) (field : Nat)
  /-- THERMTRIP (R396). A sensor measures 115 °C; THERMTRIP_N asserts, every clock stops and the Coffer freezes. -/
  | thermtrip (t : Nat)
  /-- THERMTRIP_RELEASE (R482). Every sensor has read below 95 °C for 10 s and the THERMTRIP_N latch is released. -/
  | thermtripRelease (t : Nat)
  /-- IDLE_ENTRY (R373). No job or island-holding operation for 1 ms, and firmware enters IDLE. -/
  | idleEntry (t : Nat)
  /-- STATE_ENTRY (R374). The conditions for a pending SLEEP, DEEP or OFF request hold and the device enters it. -/
  | stateEntry (t : Nat)
  /-- STATE_EXIT (R380). The device returns from SLEEP or DEEP through the steps of Table 16.4 or 16.5. -/
  | stateExit (t : Nat) (step : Nat)
  /-- EXIT_STEP_TIMEOUT (R380). An exit step passes its maximum; it is retried once, then FAULT_N is asserted. -/
  | exitStepTimeout (t : Nat) (step : Nat)
  /-- PWRWARN_N_ASSERT (R389). PWRWARN_N asserts; every island reaches f_floor and the cap becomes the floor. -/
  | pwrwarnNAssert (t : Nat)
  /-- PWRWARN_CLEAR (R389). PWRWARN_N has been deasserted for 10 ms and the floor cap is lifted. -/
  | pwrwarnClear (t : Nat)
  /-- LEASE_EXPIRY (R391). The 2 s lease expires; the rack cap falls to the floor and POWER_EVENT is sent. -/
  | leaseExpiry (t : Nat)
  /-- COOLANT_STOP (R392). COOLANT_OK is deasserted for 20 µs; dispatch stops, clocks stop, jobs are torn down, and the device halts. -/
  | coolantStop (t : Nat)
  /-- CLOCK_STOP_TIMEOUT (R392). Island clocks have not stopped by step 3's maximum, and the AON domain stops them directly. -/
  | clockStopTimeout (t : Nat)
  /-- COMPLETION_WRITE_TIMEOUT (R392). Completions not written within 5 ms of a coolant stop are recorded in the Coffer. -/
  | completionWriteTimeout (t : Nat)
  /-- COOLANT_RESTORED (R393). COOLANT_OK has been asserted for 1 s without a break, allowing a requested RUN. -/
  | coolantRestored (t : Nat)
  /-- BEACON_LOST (R34). BEACON_CLK loss is detected; DCOs hold trim, frequency changes are suspended and an advisory is raised. -/
  | beaconLost (t : Nat)
  /-- BEACON_RETURN (R34). The beacon returns and every FLL re-acquires. -/
  | beaconReturn (t : Nat)
  /-- WAKE_N (R379). WAKE_N is asserted for 1 µs and the device wakes from SLEEP or DEEP or cold-boots from OFF. -/
  | wakeN (t : Nat)
  /-- SIDEBAND_ADDRESS_MATCH (R378). The sideband comparator matches the device address in SLEEP or DEEP and the AON controller wakes. -/
  | sidebandAddressMatch (t : Nat) (addr : Nat) (setStateRun : Bool)
  /-- PME_TURN_OFF (R374). The host sends PME_Turn_Off and the device answers PME_TO_Ack. -/
  | pmeTurnOff (t : Nat)
  /-- SET_CAP (R385). The rack manager sets the rack cap; a fall is enforced and an emergency cap starts an emergency. -/
  | setCap (t : Nat) (eid : Nat) (cap : Nat) (flags : Nat)
  /-- HEARTBEAT (R391). The rack manager grants or renews the 2 s lease. -/
  | heartbeat (t : Nat) (eid : Nat)
  /-- SET_STATE (R374). The rack manager requests a power state by message. -/
  | setState (t : Nat) (eid : Nat) (req : Nat)
  /-- ADVISORY_ACK (R433). An endpoint clears advisory causes and ALERT_N is released when none remain. -/
  | advisoryAck (t : Nat) (eid : Nat) (mask : Nat)
  /-- COFFER_SNAPSHOT (R440). The Coffer freezes and its records are sent as COFFER_DATA and COFFER_SIGNATURE. -/
  | cofferSnapshot (t : Nat) (eid : Nat) (nonce : Nat)
  /-- COFFER_RELEASE (R439). A frozen Coffer is released by message or by TD_COFFER_CTRL.RELEASE and a DROPS record written. -/
  | cofferRelease (t : Nat) (byMessage : Bool) (eid : Nat)
  /-- GET_VERSION (R406). An SPDM GET_VERSION request is answered. -/
  | getVersion (t : Nat)
  /-- GET_CAPABILITIES (R406). An SPDM GET_CAPABILITIES request is answered. -/
  | getCapabilities (t : Nat)
  /-- NEGOTIATE_ALGORITHMS (R406). An SPDM algorithm negotiation is answered. -/
  | negotiateAlgorithms (t : Nat) (hash : Nat) (asym : Nat) (kem : Nat)
  /-- GET_DIGESTS (R406). The certificate digests of slot 0 are returned. -/
  | getDigests (t : Nat)
  /-- GET_CERTIFICATE (R406). The certificate chain of slot 0 is returned. -/
  | getCertificate (t : Nat) (slot : Nat) (offset : Nat) (length : Nat)
  /-- CHALLENGE (R406). An SPDM CHALLENGE is answered with a signature by the identity key. -/
  | challenge (t : Nat) (slot : Nat) (nonce : Nat)
  /-- GET_MEASUREMENTS (R406). The measurements of Table 17.4 are returned as digests. -/
  | getMeasurements (t : Nat) (index : Nat)
  /-- KEY_EXCHANGE (R406). An SPDM key exchange by ML-KEM-1024 opens a secure session. -/
  | keyExchange (t : Nat) (kem : Nat) (session : Nat)
  /-- FINISH (R406). An SPDM FINISH completes the secure session handshake. -/
  | finish (t : Nat) (session : Nat) (ok : Bool)
  /-- END_SESSION (R406). An SPDM secure session is closed. -/
  | endSession (t : Nat) (session : Nat)
  /-- IDE_KM (R408). An IDE_KM message in a secure session programs a selective IDE stream. -/
  | ideKm (t : Nat) (session : Nat) (stream : Nat) (key : Nat)
  /-- GET_NONCE (R415). Sirdoyx returns a fresh 32-byte nonce, replacing the previous one. -/
  | getNonce (t : Nat)
  /-- NONCE_EXPIRY (R415). A nonce reaches 600 s of device time and becomes invalid. -/
  | nonceExpiry (t : Nat)
  /-- UNLOCK (R415). An unlock token is checked by Table 17.9 and, if accepted, sets its debug level. -/
  | unlock (t : Nat) (tok : UnlockToken)
  /-- RELOCK (R411). The debug unlock is dropped and the level returns to NONE, by mailbox command or SY_DEBUG_CTRL.RELOCK. -/
  | relock (t : Nat) (byMailbox : Bool)
  /-- UNLOCK_LIFETIME_END (R416). An unlock's lifetime runs out and the part returns to DEPLOYED with level NONE. -/
  | unlockLifetimeEnd (t : Nat)
  /-- PROVISION (R405). Sirdoyx fuses a seed, derives the identity key and returns a signing request. -/
  | provision (t : Nat) (sigOk : Bool)
  /-- DEPLOY (R411). Owner keys are written and their digests fused, making the part DEPLOYED. -/
  | deploy (t : Nat) (keys : List (Option Digest))
  /-- KEY_ADD (R401). A key is written into an empty owner content slot. -/
  | keyAdd (t : Nat) (slot : Nat) (key : Digest) (nonce : Nat) (sigOk : Bool)
  /-- KEY_REVOKE (R401). The revoke fuse of a key slot is blown. -/
  | keyRevoke (t : Nat) (slot : Nat) (nonce : Nat) (signer : Nat) (sigOk : Bool)
  /-- RETIRE (R411). Jobs are stopped, device memory zero-filled and seed fuses blown; the part becomes RETIRED. -/
  | retire (t : Nat) (nonce : Nat) (signer : Nat) (sigOk : Bool)
  /-- LOG_READ (R407). Up to 64 entries of a measurement log are returned with its wrap flag. -/
  | logRead (t : Nat) (log : Nat) (first : Nat)
  /-- CERT_WRITE (R405). The certificate chain is written to flash on a PROVISIONED part. -/
  | certWrite (t : Nat) (chain : List Byte)
  /-- PF_LEVEL_WRITE (R412). The PF sets debug level NONE or TELEMETRY on a DEPLOYED part. -/
  | pfLevelWrite (t : Nat) (v : Word)
  /-- SETUP_LOCK (R469). Writing LOCK freezes every RWL field until a reset that clears the lock. -/
  | setupLock (t : Nat) (v : Word)
  /-- CONTEXT_ENABLE (R280). Setting ENABLE starts a context fetching and writing, or is refused with CFG_ERR. -/
  | contextEnable (t : Nat) (ctx : Nat)
  /-- CONTEXT_DISABLE (R280). Clearing ENABLE stops fetches at once; QUIESCED sets when no record is owed. -/
  | contextDisable (t : Nat) (ctx : Nat)
  /-- RING_SETUP_WRITE (R280). A ring setup write is taken while ENABLE is clear, or ignored with CFG_ERR. -/
  | ringSetupWrite (t : Nat) (ctx : Nat) (off : Nat) (v : Word)
  /-- CONTEXT_RESET (R443). A context's rings are reset, its accepted requests completed with RESET_ABORTED and ring state cleared. -/
  | contextReset (t : Nat) (ctx : Nat)
  /-- HI_DB_CTRL_WRITE (R293). Polling is enabled or disabled and its mode and period set, or the write is refused with CFG_ERR. -/
  | hiDbCtrlWrite (t : Nat) (v : Word)
  /-- PAIR_LO_WRITE (R6). A write of the _LO half of a pair is held until the _HI write. -/
  | pairLoWrite (t : Nat) (f : Func) (off : Nat) (v : Word)
  /-- PAIR_HI_WRITE (R6). A write of the _HI half applies it together with any held _LO half. -/
  | pairHiWrite (t : Nat) (f : Func) (off : Nat) (v : Word)
  /-- PAIR_LO_READ (R6). A 32-bit read of _LO latches the _HI half. -/
  | pairLoRead (t : Nat) (f : Func) (off : Nat)
  /-- PAIR_HI_READ (R6). A 32-bit read of _HI returns and releases the latched half, or the current half. -/
  | pairHiRead (t : Nat) (f : Func) (off : Nat)
  /-- MISALIGNED_ACCESS (R5). A misaligned register access reads zero or is ignored and completes successfully. -/
  | misalignedAccess (t : Nat) (f : Func) (isWrite : Bool) (off : Nat) (bytes : Nat) (v : Dword)
  /-- REGISTER_WRITE (R8). A write to a register with no row of its own acts by the access types of its fields. -/
  | registerWrite (t : Nat) (f : Func) (off : Nat) (bytes : Nat) (v : Dword)
  /-- REQUEST_RUN (R374). A write of RUN to PW_STATE_REQ withdraws a pending request or starts the exit to RUN. -/
  | requestRun (t : Nat)
  /-- REQUEST_SLEEP (R374). A write of SLEEP to PW_STATE_REQ makes a SLEEP request pending. -/
  | requestSleep (t : Nat)
  /-- REQUEST_DEEP (R374). A write of DEEP to PW_STATE_REQ makes a DEEP request pending. -/
  | requestDeep (t : Nat)
  /-- REQUEST_OFF (R374). A write of OFF to PW_STATE_REQ makes an OFF request pending. -/
  | requestOff (t : Nat)
  /-- PW_CAP_WRITE (R385). The PF cap is set, clamped to the floor if lower, and a fall is enforced. -/
  | pwCapWrite (t : Nat) (v : Word)
  /-- PW_FLOOR_WRITE (R311). The floor power is set, or the write is ignored with CFG_ERR. -/
  | pwFloorWrite (t : Nat) (v : Word)
  /-- PW_PHASE_WRITE (R383). The phase in force is selected and island clocks are recomputed. -/
  | pwPhaseWrite (t : Nat) (v : Word)
  /-- PW_OP_WRITE (R383). A phase's preferred clock is set, or the write is refused with CFG_ERR. -/
  | pwOpWrite (t : Nat) (n : Nat) (v : Word)
  /-- FB_SCHED_CTRL_WRITE (R330). The background reservation is set for the next window, or the write is refused. -/
  | fbSchedCtrlWrite (t : Nat) (v : Word)
  /-- XN_VC_WEIGHT_WRITE (R338). The virtual-channel weights are set, or the write is refused with CFG_ERR. -/
  | xnVcWeightWrite (t : Nat) (v : Word)
  /-- PORT_DISABLE (R341). A Xaene port is held DOWN, or released, and its traffic rerouted. -/
  | portDisable (t : Nat) (port : Nat) (v : Word)
  /-- MM_CAB_HI_RSV_WRITE (R191). The host-interface drawer reserve is set, or the write is refused with RSV_ERR. -/
  | mmCabHiRsvWrite (t : Nat) (v : Word)
  /-- TD_ADDR_ONLY_WRITE (R428). Address-only mode bits are set for VF contexts, ignoring bits of enabled contexts. -/
  | tdAddrOnlyWrite (t : Nat) (n : Nat) (v : Word)
  /-- ADVISORY_CLEAR (R433). The PF clears advisory bits in TD_ADVISORY and ALERT_N is released when none remain. -/
  | advisoryClear (t : Nat) (v : Word)
  /-- BAR2_READ (R276). A PF BAR2 read returns admin-partition bytes, or 0xFF beyond it or in SP lines. -/
  | bar2Read (t : Nat) (off : Nat) (n : Nat)
  /-- BAR2_WRITE (R276). A PF BAR2 write stores admin-partition bytes, or is discarded and counted as an advisory. -/
  | bar2Write (t : Nat) (off : Nat) (data : List Byte)
  /-- VF_FLR (R444). A VF Function Level Reset tears down the VF's jobs, sequences and groups without writing records. -/
  | vfFlr (t : Nat) (vf : Nat)
  /-- VF_ENABLE_CLEAR (R445). Clearing VF Enable resets every VF of the PF as an FLR and destroys their contexts. -/
  | vfEnableClear (t : Nat) (link : Nat)
  /-- HOT_RESET (R446). A hot reset, PF FLR or host link DL_Down destroys every context and job and restarts Bureau firmware. -/
  | hotReset (t : Nat) (cause : Nat)
  /-- WARM_RESET (R448). PERST_N or HI_RESET_CTRL.WARM reloads firmware from flash, retrains memory and zero-fills tenant partitions. -/
  | warmReset (t : Nat) (straps : Nat)
  /-- COLD_RESET (R449). Power-up, exit from OFF or restoration after THERMTRIP boots the whole chip per Table 19.3. -/
  | coldReset (t : Nat) (fromOff : Bool) (straps : Nat)
  /-- BOOT_STEP_TIMEOUT (R449). A cold-boot step passes its maximum; it is retried once, then FAULT_N is asserted. -/
  | bootStepTimeout (t : Nat) (step : Nat)
  /-- SEQUENCE_FAULT (R481). A rail enters its range out of order or late; the device stays in reset with FAULT_N. -/
  | sequenceFault (t : Nat) (rail : Nat)
  /-- AON_SUPPLY_REMOVED (R481). VDD_AON is removed; the device resets, releases every output and loses the Coffer. -/
  | aonSupplyRemoved (t : Nat)
  /-- FATAL_ERROR (R457). A fatal error freezes the Coffer, stops dispatch, aborts accepted requests and reports AER. -/
  | fatalError (t : Nat) (unit : Nat) (hostFailed : Bool)
  /-- QUIESCE_MET (R327). A long operation waiting for quiescence (SECURE_ERASE, full SELF_TEST) finds its condition met and proceeds. -/
  | quiesceMet (t : Nat) (op : Nat)
  /-- VF_ENABLE_SET (R279). Setting VF Enable in the SR-IOV capability makes the VFs enabled, so CTX_CREATE can name them. -/
  | vfEnableSet (t : Nat) (link : Nat) (num : Nat)
  /-- SECURE_ERASE_DONE (R413). The ERASE and VERIFY phases of a SECURE_ERASE end, the completion is written and TENANT_DATA clears when no tenant partition holds data. -/
  | secureEraseDone (t : Nat) (op : Nat)
  /-- SELF_TEST_DONE (R329). An online or full self-test or calibration runs to its end and writes its FINAL with the failed and tested unit counts. -/
  | selfTestDone (t : Nat) (op : Nat) (units : List FailedUnit) (tested : Nat)
  /-- SCRUB_PASS_DONE (R327). A SCRUB_PASS finishes its lines and writes its final completion. -/
  | scrubPassDone (t : Nat) (op : Nat)
  /-- FW_STAGE_DONE (R404). A firmware slot write and its readback finish, and FW_STAGE writes its final completion. -/
  | fwStageDone (t : Nat) (op : Nat)
  /-- TAP_INSTRUCTION (R414). An IEEE 1149.1 instruction or debug transaction arrives at the TAP and is honoured, or the bypass register is selected, by the debug level in force. -/
  | tapInstruction (t : Nat) (op : TapOp)
  /-- CLAIM_RELEASE (R309). A serving chip receives the release of a remote claim and returns the claimed island-µs to its job's unclaimed SERVE. -/
  | claimRelease (t : Nat) (src : Nat) (mc : Nat) (amount : Nat)
  /-- RAIL_SETPOINT_REACHED (R37). A field regulator reports over AVSBus that its new setpoint is reached, and firmware may raise the field's island codes. -/
  | railSetpointReached (t : Nat) (field : Nat)
  deriving DecidableEq, Repr

end Sys2Proof
end

