-- ==== Sys2Proof/Decode.lean ====
section
/-! DEFINITION. The table of operations and events gives no row any bits (its commands are descriptors in
host memory, register writes, packets, pins and timers), so no word spells a command. -/
namespace Sys2Proof

/-- The command that a word spells by the table's bits: none, as the table gives bits to no row. -/
def decodeTableWord (_nbits _w : Nat) : Option Instr := none

end Sys2Proof
end

