-- ==== Sys2Proof/Machine/Maps.lean ====
section
/-! DEFINITION. Sparse tables (NMap) and sparse byte memories in one canonical form, with the operations
on them. A table's keys strictly rise. A memory lists (address, byte) pairs with strictly rising
addresses and lists no zero byte: an unlisted address reads zero (log entry 5). -/
namespace Sys2Proof.Machine

/-- The entry of number k, if the table has one. -/
def mget {α : Type} : NMap α → Nat → Option α
  | [], _ => none
  | (k', v) :: m, k => if k' = k then some v else if k < k' then none else mget m k

/-- The entry of number k, or d. -/
def mgetD {α : Type} (m : NMap α) (k : Nat) (d : α) : α := (mget m k).getD d

/-- The table with v as entry k. -/
def mset {α : Type} : NMap α → Nat → α → NMap α
  | [], k, v => [(k, v)]
  | (k', v') :: m, k, v =>
    if k < k' then (k, v) :: (k', v') :: m
    else if k' = k then (k, v) :: m
    else (k', v') :: mset m k v

/-- The table without entry k. -/
def mdel {α : Type} : NMap α → Nat → NMap α
  | [], _ => []
  | (k', v') :: m, k => if k' = k then m else (k', v') :: mdel m k

/-- The table with entry k changed by f; where there is none, nothing changes. -/
def mmod {α : Type} : NMap α → Nat → (α → α) → NMap α
  | [], _, _ => []
  | (k', v) :: m, k, f => if k' = k then (k', f v) :: m else (k', v) :: mmod m k f

/-- The table with entry k, or d where there is none, changed by f. -/
def mupd {α : Type} (m : NMap α) (k : Nat) (d : α) (f : α → α) : NMap α := mset m k (f (mgetD m k d))

/-- Every entry changed by f. -/
def mmap {α : Type} (m : NMap α) (f : Nat → α → α) : NMap α := m.map (fun e => (e.1, f e.1 e.2))

/-- The entries that p keeps. -/
def mfilter {α : Type} (m : NMap α) (p : Nat → α → Bool) : NMap α := m.filter (fun e => p e.1 e.2)

/-- A table of numbers in which an unlisted entry is zero: entry k plus n. -/
def madd (m : NMap Nat) (k n : Nat) : NMap Nat := mupd m k 0 (· + n)

/-- The keys strictly rise. -/
def mwf {α : Type} : NMap α → Bool
  | [] => true
  | [_] => true
  | (k, _) :: (k', v') :: m => decide (k < k') && mwf ((k', v') :: m)

/-! ## Byte memories -/

/-- The byte at address a. -/
def cread (m : List Host.Cell) (a : Nat) : Byte := mgetD m a 0

/-- The memory with byte v at address a; a zero byte is not listed. -/
def cwrite (m : List Host.Cell) (a : Nat) (v : Byte) : List Host.Cell :=
  if v = 0 then mdel m a else mset m a v

/-- n bytes from address a, the lowest address first. -/
def creads (m : List Host.Cell) (a : Nat) : Nat → List Byte
  | 0 => []
  | n + 1 => cread m a :: creads m (a + 1) n

/-- The memory with the bytes l written from address a upward. -/
def cwrites (m : List Host.Cell) (a : Nat) : List Byte → List Host.Cell
  | [] => m
  | b :: l => cwrites (cwrite m a b) (a + 1) l

/-- The memory with n bytes from address a zeroed. -/
def czero (m : List Host.Cell) (a n : Nat) : List Host.Cell :=
  m.filter (fun e => decide (e.1 < a ∨ a + n ≤ e.1))

/-- Canonical form: addresses strictly rise and no listed byte is zero. -/
def Memory.wf (m : List Host.Cell) : Bool := mwf m && m.all (fun e => decide (e.2 ≠ 0))

/-! ## Bytes and numbers (little-endian, R4) -/

/-- The number that bytes spell, the first the least significant. -/
def leNat : List Byte → Nat
  | [] => 0
  | b :: l => b.toNat + 256 * leNat l

/-- The n low bytes of a number, the least significant first. -/
def leBytes (v : Nat) : Nat → List Byte
  | 0 => []
  | n + 1 => BitVec.ofNat 8 v :: leBytes (v / 256) n

/-- One step of the reflected CRC-32 with generator 0x04C1_1DB7 (Table 14.2). -/
def crcStep (c : Nat) : Nat := if c % 2 = 1 then (c / 2) ^^^ 0xEDB88320 else c / 2

/-- CRC-32 of bytes (Tables 14.2, 18.8). -/
def crc32 (l : List Byte) : Nat :=
  (l.foldl (fun c b => crcStep (crcStep (crcStep (crcStep (crcStep (crcStep (crcStep (crcStep (c ^^^ b.toNat))))))))) 0xFFFFFFFF)
    ^^^ 0xFFFFFFFF

/-- Bits [hi:lo] of a number. -/
def bits (v hi lo : Nat) : Nat := v / 2 ^ lo % 2 ^ (hi + 1 - lo)

/-- Bit n of a number. -/
def bit (v n : Nat) : Bool := v / 2 ^ n % 2 == 1

/-- One or zero. -/
def bnat (b : Bool) : Nat := if b then 1 else 0

/-- A number rounded up to a whole number of units. -/
def ceilDiv (a b : Nat) : Nat := (a + b - 1) / b

/-- Exact base-2 logarithm of a power of two, rounded down else. -/
def log2 (n : Nat) : Nat := Nat.log2 n

/-- n is a power of two. -/
def isPow2 (n : Nat) : Bool := n != 0 && decide (2 ^ Nat.log2 n = n)

/-- Insertion of x into a list sorted by le. -/
def insertBy {α : Type} (le : α → α → Bool) (x : α) : List α → List α
  | [] => [x]
  | y :: l => if le x y then x :: y :: l else y :: insertBy le x l

/-- A stable insertion sort. -/
def sortBy {α : Type} (le : α → α → Bool) : List α → List α
  | [] => []
  | x :: l => insertBy le x (sortBy le l)

/-- The list without repeats, keeping first places. -/
def dedup' {α : Type} [DecidableEq α] : List α → List α
  | [] => []
  | x :: l => x :: (dedup' l).filter (fun y => decide (y ≠ x))

/-- Sum of a list. -/
def sumOf {α : Type} (f : α → Nat) : List α → Nat
  | [] => 0
  | x :: l => f x + sumOf f l

end Sys2Proof.Machine
end

