-- ==== Sys2Proof/Machine/Num.lean ====
section
/-! DEFINITION. Exact arithmetic on the device's number formats (chapter 4): decoding to exact values,
correct rounding, IEEE 754 binary32 operations rounded to nearest even (R132), and the element formats. -/
namespace Sys2Proof.Machine

/-- An exact value: NaN, an infinity, or plus or minus m·2^e. -/
inductive Fv where
  | nan | inf (neg : Bool) | num (neg : Bool) (m : Nat) (e : Int)
  deriving DecidableEq, Repr

/-! ## Rounding -/

/-- n/d times 2^k as a quotient of naturals. -/
def scaleQ (n d : Nat) (k : Int) : Nat × Nat := if 0 ≤ k then (n * 2 ^ k.toNat, d) else (n, d * 2 ^ (-k).toNat)

/-- ⌊log2 (n/d)⌋ of a positive quotient. -/
def flog2 (n d : Nat) : Int :=
  let l : Int := (Nat.log2 n : Int) - Nat.log2 d
  let q := scaleQ n d (-l)
  if q.2 ≤ q.1 then l else l - 1

/-- A quotient rounded to the nearest integer, ties to even. -/
def roundNE (n d : Nat) : Nat :=
  let q := n / d
  let r := n % d
  if d < 2 * r ∨ (2 * r = d ∧ q % 2 = 1) then q + 1 else q

/-- The magnitude bits of n/d·2^e in a binary format of p significant bits whose subnormals are multiples of
2^umin, rounded to nearest even, the exponent range unbounded above. -/
def encMag (p : Nat) (umin : Int) (n d : Nat) (e : Int) : Nat :=
  if n = 0 then 0
  else
    let u := max (flog2 n d + e - ((p : Int) - 1)) umin
    let q := scaleQ n d (e - u)
    (u - umin).toNat * 2 ^ (p - 1) + roundNE q.1 q.2

/-- The canonical quiet NaN of FP32 (R108). -/
def qnan : Word := 0x7FC00000

/-- Plus or minus n/d·2^e in FP32: nearest even, subnormals kept, overflow to infinity (R108, R132). -/
def fp32Q (neg : Bool) (n d : Nat) (e : Int) : Word :=
  BitVec.ofNat 32 (bnat neg * 2 ^ 31 + min (encMag 24 (-149) n d e) 0x7F800000)

/-- An exact value in FP32. -/
def toFp32 : Fv → Word
  | .nan => qnan
  | .inf neg => BitVec.ofNat 32 (bnat neg * 2 ^ 31 + 0x7F800000)
  | .num neg m e => fp32Q neg m 1 e

/-- An exact value in BF16 (16 bits). -/
def toBf16 : Fv → Nat
  | .nan => 0x7FC0
  | .inf neg => bnat neg * 2 ^ 15 + 0x7F80
  | .num neg m e => bnat neg * 2 ^ 15 + min (encMag 8 (-133) m 1 e) 0x7F80

/-! ## Decoding (R87 to R91) -/

/-- The value of an FP32 pattern; subnormals at their full value. -/
def ofFp32 (w : Word) : Fv :=
  let v := w.toNat
  let s := bit v 31
  let x := bits v 30 23
  let f := bits v 22 0
  if x = 255 then (if f = 0 then .inf s else .nan)
  else if x = 0 then .num s f (-149)
  else .num s (2 ^ 23 + f) ((x : Int) - 150)

/-- The value of a BF16 pattern, the upper half of an FP32 one. -/
def ofBf16 (v : Nat) : Fv := ofFp32 (BitVec.ofNat 32 (v * 65536))

/-- The value of a T2 element code (Table 4.2). -/
def ofT2 (c : Nat) : Fv := if c = 1 then .num false 1 0 else if c = 3 then .num true 1 0 else .num false 0 0

/-- The value of an FP4 element code (Table 4.3). -/
def ofFp4 (c : Nat) : Fv :=
  let x := bits c 2 1
  let f := bits c 0 0
  if x = 0 then .num (bit c 3) f (-1) else .num (bit c 3) (2 + f) ((x : Int) - 2)

/-- The value of an E4M3 code (R89). -/
def ofE4m3 (c : Nat) : Fv :=
  let x := bits c 6 3
  let f := bits c 2 0
  if x = 15 ∧ f = 7 then .nan
  else if x = 0 then .num (bit c 7) f (-9)
  else .num (bit c 7) (8 + f) ((x : Int) - 10)

/-- The value of an E5M2 code (R89). -/
def ofE5m2 (c : Nat) : Fv :=
  let x := bits c 6 2
  let f := bits c 1 0
  if x = 31 then (if f = 0 then .inf (bit c 7) else .nan)
  else if x = 0 then .num (bit c 7) f (-16)
  else .num (bit c 7) (4 + f) ((x : Int) - 17)

/-- The signed value of an INT8 byte. -/
def ofInt8 (c : Nat) : Int := if c < 128 then c else (c : Int) - 256

/-- The value of an element code of a format (Table 4.1), scale apart. -/
def ofElem (fmt c : Nat) : Fv :=
  if fmt = 1 then ofT2 c
  else if fmt = 2 then ofFp4 c
  else if fmt = 3 then ofE4m3 c
  else if fmt = 4 then ofE5m2 c
  else if fmt = 5 then .num (decide (ofInt8 c < 0)) (ofInt8 c).natAbs 0
  else if fmt = 6 then ofBf16 c
  else ofFp32 (BitVec.ofNat 32 c)

/-- Bits of an element of a format. -/
def elemBits (fmt : Nat) : Nat :=
  if fmt = 1 then 2 else if fmt = 2 then 4 else if fmt = 6 then 16 else if fmt = 7 ∨ fmt = 9 then 32
  else if fmt = 10 then 64 else 8

/-- The line mode that carries a format (Table 4.7). -/
def modeOfFormat (fmt : Nat) : Nat := if fmt = 1 then 2 else if fmt = 2 then 1 else if fmt = 3 ∨ fmt = 4 then 3 else 0

/-- A zero operand: +0 or −0. -/
def isZeroV : Fv → Bool
  | .num _ m _ => m == 0
  | _ => false

/-! ## Exact operations on values -/

/-- The sign bit of a value. -/
def negV : Fv → Bool
  | .nan => false
  | .inf s => s
  | .num s _ _ => s

/-- A signed integer of a value's significand. -/
def signed (neg : Bool) (m : Nat) : Int := if neg then -(m : Int) else m

/-- Exact sum; IEEE 754 for special values and for the sign of a zero sum. -/
def addV : Fv → Fv → Fv
  | .nan, _ => .nan
  | _, .nan => .nan
  | .inf s, .inf t => if s = t then .inf s else .nan
  | .inf s, .num .. => .inf s
  | .num .., .inf t => .inf t
  | .num s m e, .num t n f =>
    let l := min e f
    let v := signed s (m * 2 ^ (e - l).toNat) + signed t (n * 2 ^ (f - l).toNat)
    if v = 0 then .num (s && t) 0 l else .num (decide (v < 0)) v.natAbs l

/-- Exact product; an infinity times zero is NaN. -/
def mulV : Fv → Fv → Fv
  | .nan, _ => .nan
  | _, .nan => .nan
  | .inf s, .inf t => .inf (s != t)
  | .inf s, .num t n _ => if n = 0 then .nan else .inf (s != t)
  | .num s m _, .inf t => if m = 0 then .nan else .inf (s != t)
  | .num s m e, .num t n f => .num (s != t) (m * n) (e + f)

/-- The value times 2^k. -/
def shiftV (k : Int) : Fv → Fv
  | .num s m e => .num s m (e + k)
  | v => v

/-- The value with its sign turned. -/
def negateV : Fv → Fv
  | .nan => .nan
  | .inf s => .inf !s
  | .num s m e => .num (!s) m e

/-- a is below b; a NaN is below nothing. -/
def ltV : Fv → Fv → Bool
  | .nan, _ => false
  | _, .nan => false
  | .inf s, .inf t => s && !t
  | .inf s, .num .. => s
  | .num .., .inf t => !t
  | .num s m e, .num t n f =>
    let l := min e f
    decide (signed s (m * 2 ^ (e - l).toNat) < signed t (n * 2 ^ (f - l).toNat))

/-! ## FP32 operations (R132) -/

/-- FP32 addition. -/
def fadd (a b : Word) : Word := toFp32 (addV (ofFp32 a) (ofFp32 b))
/-- FP32 subtraction. -/
def fsub (a b : Word) : Word := toFp32 (addV (ofFp32 a) (negateV (ofFp32 b)))
/-- FP32 multiplication. -/
def fmul (a b : Word) : Word := toFp32 (mulV (ofFp32 a) (ofFp32 b))
/-- FP32 division. -/
def fdiv (a b : Word) : Word :=
  match ofFp32 a, ofFp32 b with
  | .nan, _ => qnan
  | _, .nan => qnan
  | .inf _, .inf _ => qnan
  | .inf s, .num t _ _ => toFp32 (.inf (s != t))
  | .num s _ _, .inf t => toFp32 (.num (s != t) 0 0)
  | .num s m e, .num t n f =>
    if n = 0 then (if m = 0 then qnan else toFp32 (.inf (s != t))) else fp32Q (s != t) m n (e - f)
/-- 1/a in FP32 for a number a, used as the weight of R164. -/
def frecipNat (a : Nat) : Word := if a = 0 then 0 else fp32Q false 1 a 0
/-- The larger of two FP32 values. -/
def fmax (a b : Word) : Word := if ltV (ofFp32 a) (ofFp32 b) then b else a
/-- a < b in FP32. -/
def flt (a b : Word) : Bool := ltV (ofFp32 a) (ofFp32 b)
/-- A NaN pattern. -/
def isNan (w : Word) : Bool := ofFp32 w == .nan
/-- A finite pattern. -/
def isFinite (w : Word) : Bool := match ofFp32 w with | .num .. => true | _ => false
/-- An FP32 pattern with its sign turned; a NaN becomes the canonical one. -/
def fneg (w : Word) : Word := toFp32 (negateV (ofFp32 w))
/-- 2^k in FP32. -/
def fpow2 (k : Int) : Word := fp32Q false 1 1 k

/-! ## Lists of elements in bytes -/

/-- n elements of width w bits from a list of bytes, the first at its least significant bits (R96). -/
def unpackElems (w : Nat) (l : List Byte) (n : Nat) : List Nat := (List.range n).map (fun i => leNat l / 2 ^ (w * i) % 2 ^ w)

/-- Elements of width w bits packed into bytes. -/
def packElems (w : Nat) (l : List Nat) : List Byte :=
  leBytes (l.foldr (fun x a => x % 2 ^ w + 2 ^ w * a) 0) (ceilDiv (w * l.length) 8)

/-- FP32 words in a list of bytes. -/
def wordsOf (l : List Byte) : List Word := (unpackElems 32 l (l.length / 4)).map (BitVec.ofNat 32)

/-- The bytes of FP32 words. -/
def bytesOfWords (l : List Word) : List Byte := l.flatMap (fun w => leBytes w.toNat 4)

/-- The integer square root of a number of at most 2k bits: the greatest r with r² ≤ n. -/
def isqrt : Nat → Nat → Nat
  | 0, _ => 0
  | k + 1, n =>
    let b := 2 * isqrt k (n / 4)
    if (b + 1) * (b + 1) ≤ n then b + 1 else b

end Sys2Proof.Machine
end

