-- ==== Sys2Proof/Machine/Cells.lean ====
section
/-! DEFINITION. Lines and their check codes (R95 to R98), block sums and ACC96 (R92 to R108), the INT8 and BF16
modes (R109, R110), and 2:4 sparse weights (R145 to R148). -/
namespace Sys2Proof.Machine

/-! ## Check codes (R97, R98) -/

/-- One bit into a CRC register of w bits with the generator g. -/
def crcBit (w g : Nat) (c : Nat) (b : Bool) : Nat :=
  let top := bit c (w - 1) != b
  let c := c * 2 % 2 ^ w
  if top then c ^^^ g else c

/-- The bits of a byte, most significant first. -/
def byteBits (b : Byte) : List Bool := (List.range 8).map (fun i => bit b.toNat (7 - i))

/-- A CRC of w bits over bytes, most significant bit first, from all ones, without reflection or final XOR. -/
def crcOf (w g : Nat) (l : List Byte) : Nat := (l.flatMap byteBits).foldl (crcBit w g) (2 ^ w - 1)

/-- The 16-bit check of SP_FP4 and SP_T2 lines. -/
def crc16 (l : List Byte) : Nat := crcOf 16 0x1021 l
/-- The 24-bit check of SP_FP8 lines. -/
def crc24 (l : List Byte) : Nat := crcOf 24 0x864CFB l

/-- Number of set bits. -/
def weight (n : Nat) : Nat := ((List.range 64).filter (fun i => bit n i)).length

/-- The columns c_0 to c_63 of the Hsiao code: the 56 bytes of weight three, then the first eight of weight five. -/
def hsiaoCols : List Nat :=
  (List.range 256).filter (fun n => weight n == 3) ++ ((List.range 256).filter (fun n => weight n == 5)).take 8

/-- The check byte of an 8-byte word. -/
def hsiao (v : Nat) : Nat :=
  ((List.range 64).zip hsiaoCols).foldl (fun c e => if bit v e.1 then c ^^^ e.2 else c) 0

/-- What the controller makes of a stored word and check byte. -/
inductive Secded where
  | clean | checkBit | corrected (v : Nat) | uncorrectable
  deriving DecidableEq, Repr

/-- SEC-DED decoding of a word (R98). -/
def secded (v c : Nat) : Secded :=
  let syn := hsiao v ^^^ c
  if syn = 0 then .clean
  else if weight syn = 1 then .checkBit
  else match (List.range 64).find? (fun j => hsiaoCols[j]? == some syn) with
    | some j => .corrected (v ^^^ 2 ^ j)
    | none => .uncorrectable

/-- The metadata word M of a line of a mode, from its 32 data bytes and its scale bytes (Table 4.6). -/
def metaWord (mode : Nat) (data : List Byte) (scales : Nat) : Nat :=
  if mode = 0 then
    hsiao (leNat (data.take 8)) + 256 * hsiao (leNat ((data.drop 8).take 8))
      + 65536 * hsiao (leNat ((data.drop 16).take 8)) + 16777216 * hsiao (leNat ((data.drop 24).take 8))
  else if mode = 3 then scales % 256 + 256 * crc24 (data ++ leBytes scales 1)
  else scales % 65536 + 65536 * crc16 (data ++ leBytes scales 2)

/-! ## Block sums (R92 to R94, Table 4.4, Table 4.8) -/

/-- One formed product's operands: weight element, activation element, activation scale code. -/
structure Pair where
  w : Fv
  a : Fv
  scale : Nat

/-- What a block hands over: the flags it sets, and its sum s·2^e if it has one, with its lossy mark. -/
structure Block where
  nan : Bool := false
  pinf : Bool := false
  ninf : Bool := false
  sum : Option (Int × Int) := none
  lossy : Bool := false
  deriving DecidableEq, Repr

/-- The exponent ⌊log2 |x|⌋ of a non-zero finite value. -/
def expV : Fv → Int
  | .num _ m e => (Nat.log2 m : Int) + e
  | _ => 0

/-- Σ of finite values in units of 2^u, of which every one is a multiple. -/
def unitSum (u : Int) (l : List Fv) : Int :=
  l.foldl (fun t x => match x with
    | .num s m e => t + signed s (scaleQ m 1 (e - u)).1 / ((scaleQ m 1 (e - u)).2 : Int)
    | _ => t) 0

/-- A block sum (R93) with flush depth d and f fraction bits. -/
def blockSum (d f : Nat) (wscale : Nat) (l : List Pair) : Block :=
  let formed := l.filter (fun p => !isZeroV p.w && !isZeroV p.a)
  if formed.isEmpty then {}
  else if wscale = 0xFF ∨ l.any (fun p => p.scale == 0xFF) then { nan := true }
  else
    let xs := formed.map (fun p => shiftV ((p.scale : Int) - 127) (mulV p.w p.a))
    let fin := xs.filter (fun x => match x with | .num .. => true | _ => false)
    let flags : Block := { nan := xs.contains .nan, pinf := xs.contains (.inf false), ninf := xs.contains (.inf true) }
    match fin.map expV with
    | [] => flags
    | e0 :: es =>
      let p := es.foldl max e0
      let u := p - d - f
      { flags with
        sum := some (unitSum u (fin.filter (fun x => decide (p - d ≤ expV x))), u + ((wscale : Int) - 127))
        lossy := fin.any (fun x => decide (expV x < p - d)) }

/-! ## ACC96 (R103, R104, R108) -/

/-- The state of an ACC96 (R103), with the window-loss events it has counted. -/
structure Acc where
  v : Int := 0
  a : Int := 0
  anchored : Bool := false
  sticky : Bool := false
  lossy : Bool := false
  nan : Bool := false
  pinf : Bool := false
  ninf : Bool := false
  events : Nat := 0
  deriving DecidableEq, Repr

/-- An arithmetic right shift. -/
def sar (v : Int) (k : Nat) : Int := v / (2 ^ k : Int)

/-- The low k bits of v are not all zero. -/
def lowBits (v : Int) (k : Nat) : Bool := v % (2 ^ k : Int) != 0

/-- A block (s, e, lossy) is taken in (R104). -/
def takeBlock (s e : Int) (lossy : Bool) (q : Acc) : Acc :=
  let q := { q with lossy := q.lossy || lossy }
  if s = 0 then (if lossy then { q with events := q.events + 1 } else q)
  else
    let m := e + (Nat.log2 s.natAbs : Int)
    let (q, loss) :=
      if !q.anchored then ({ q with a := m - 64, anchored := true }, lossy)
      else if q.a < m - 64 then
        let k := ((m - 64) - q.a).toNat
        ({ q with v := sar q.v k, a := m - 64 }, lossy || lowBits q.v k)
      else (q, lossy)
    let (q, loss) :=
      if q.a ≤ e then ({ q with v := q.v + s * 2 ^ (e - q.a).toNat }, loss)
      else
        let d := (q.a - e).toNat
        ({ q with v := q.v + sar s d }, loss || lowBits s d)
    if loss then { q with sticky := true, events := q.events + 1 } else q

/-- A block with its special-value flags is taken in (R107). -/
def takeFlags (b : Block) (q : Acc) : Acc :=
  let q := { q with nan := q.nan || b.nan, pinf := q.pinf || b.pinf, ninf := q.ninf || b.ninf }
  match b.sum with
  | none => q
  | some (s, e) => takeBlock s e b.lossy q

/-- The magnitude of a held value and its exponent: a set sticky bit is an infinitesimal positive amount (R108). -/
def heldMag (q : Acc) : Nat × Int :=
  if q.sticky then ((q.v * 2 ^ 64 + 1).natAbs, q.a - 64) else (q.v.natAbs, q.a)

/-- The result of an ACC96 as an exact value to be rounded once (R108). -/
def accValue (q : Acc) : Fv :=
  if q.nan || (q.pinf && q.ninf) then .nan
  else if q.pinf then .inf false
  else if q.ninf then .inf true
  else if q.v = 0 then .num false 0 0
  else .num (decide (q.v < 0)) (heldMag q).1 (heldMag q).2

/-! ## Dot products by cell mode -/

/-- Products a block, flush depth and fraction bits of a mode that has blocks (Table 4.4): 0 T2_FP8, 1 FP4_FP4,
2 FP8_FP8 (Table 3.2). -/
def blockParams (mode : Nat) : Nat × Nat × Nat :=
  if mode = 0 then (64, 7, 3) else if mode = 1 then (32, 7, 2) else (32, 35, 6)

/-- INT8_INT8 (R109): the exact integer sum, converted and scaled in three rounded operations. -/
def dotInt8 (ws as : List Int) (actScale wScale : Word) : Word :=
  let t := (List.zipWith (· * ·) ws as).foldl (· + ·) 0
  fmul (fmul (fp32Q (decide (t < 0)) t.natAbs 1 0) actScale) wScale

/-- BF16_BF16 (R110): each product as FP32 forms it, added one at a time. -/
def dotWide (l : List (Fv × Fv)) : Word := l.foldl (fun acc p => fadd acc (toFp32 (mulV p.1 p.2))) 0

/-- The reference of a Proof (R120): products formed exactly, added one at a time into FP32. -/
def dotExact (l : List (Fv × Fv)) : Word := l.foldl (fun acc p => toFp32 (addV (ofFp32 acc) (mulV p.1 p.2))) 0

/-! ## 2:4 sparse weights (R145, R146, R148) -/

/-- The two positions of a metadata nibble, or none where it is invalid (Table 7.1). -/
def nibblePos (n : Nat) : Option (Nat × Nat) :=
  if n = 4 then some (0, 1) else if n = 8 then some (0, 2) else if n = 12 then some (0, 3)
  else if n = 9 then some (1, 2) else if n = 13 then some (1, 3) else if n = 14 then some (2, 3) else none

/-- The four element codes of a group from its nibble and two stored elements; an invalid nibble gives zeros. -/
def groupOf (n x y : Nat) : List Nat :=
  match nibblePos n with
  | none => [0, 0, 0, 0]
  | some (i, j) => (List.range 4).map (fun p => if p = i then x else if p = j then y else 0)

/-- The 32 element codes of a sparse block from its metadata word and 16 stored elements, with the number of
invalid nibbles. -/
def sparseBlock (m : Nat) (stored : List Nat) : List Nat × Nat :=
  ((List.range 8).flatMap (fun g => groupOf (bits m (4 * g + 3) (4 * g)) (stored.getD (2 * g) 0) (stored.getD (2 * g + 1) 0)),
   ((List.range 8).filter (fun g => (nibblePos (bits m (4 * g + 3) (4 * g))).isNone)).length)

end Sys2Proof.Machine
end

