-- ==== Sys2Proof/Machine/Parts.lean ====
section
/-! DEFINITION. The parts of the machine's state, one structure per unit of the spec, as plain data.
Every field's default is its value after reset: the value the spec states, or the value that the log
entry named in INVENTORY.md gives where the spec states none. -/
namespace Sys2Proof.Machine

/-! ## What the device sends out -/

/-- The kind of a completion record, Table 12.9. -/
inductive RecKind where
  | accept | decline | final | event
  deriving DecidableEq, Repr

/-- A completion record as written into host memory, Table 12.9: ctx, ring and n say where (record
number n of that ring). code is the event code of an EVENT. -/
structure CompRec where
  ctx : Nat
  ring : Nat
  n : Nat
  phase : Bool
  kind : RecKind
  reqId : Nat
  status : Status
  code : Nat := 0
  flags : Nat := 0
  info : Nat := 0
  value : Nat := 0
  time : Nat := 0
  deriving DecidableEq, Repr

/-- An output token record, Table 11.5. -/
structure TokRec where
  ctx : Nat
  ring : Nat
  n : Nat := 0
  phase : Bool := true
  token : Nat
  reqLo : Nat
  index : Nat
  last : Bool
  reason : Nat
  score : Word
  deriving DecidableEq, Repr

/-- A step record, Table 3.12. -/
structure StepRec where
  plate : Nat
  kind : Nat
  overrun : Bool
  aborted : Bool
  tgen : Nat
  seq : Nat
  dispatch : Nat
  boundary : Nat
  deriving DecidableEq, Repr

/-- Trace record payloads, Table 18.4. -/
inductive TraceKind where
  | accept (reqId opcode : Nat) (declined : Bool) (status : Status) (deadline : Nat)
  | final (reqId : Nat) (status : Status) (flags records : Nat)
  | step (r : StepRec)
  | swap (table gen plate tgen : Nat)
  | widen (plate rung layer rowTile colTile rows exhausted : Nat)
  | overflow (layer exchange choices sharedOnly : Nat)
  | kvDrop (seq group firstPage pages : Nat)
  | evict (cls frames dva : Nat)
  | watch (reqId symbol bytes seq : Nat)
  | loss (dropped first last : Nat)
  deriving DecidableEq, Repr

/-- EXU record types, Table 7.4. -/
inductive ExuType where
  | dispatch | ret | close | gather | pooled | gone | update | commit | settle | done
  deriving DecidableEq, Repr

/-- Packets and messages to other chips (Tables 10.6, 14.5 and the rules named at their senders). -/
inductive XnMsg where
  | prepared (mc tag : Nat) (digest : Digest) (coord : Nat)
  | no (mc : Nat) (st : Status)
  | commit (mc epoch : Nat)
  | committed (mc : Nat)
  | release (mc : Nat)
  | releaseAck (mc : Nat)
  | abort (mc : Nat) (st : Status)
  | query (mc : Nat)
  | stateAnswer (mc st : Nat)
  | drained (mc epoch : Nat)
  | freeEpoch (mc epoch : Nat)
  | claim (mc amount : Nat)
  | claimAnswer (granted : Bool)
  | claimRelease (mc amount : Nat)
  | join (p : JoinParams)
  | abandon (gid : Nat)
  | fault (gid : Nat)
  | exu (ty : ExuType) (r : ExuRec)
  | coll (gid : Nat) (p : CollPkt)
  | read (p : Pkt)
  | write (p : Pkt)
  | atomic (p : Pkt)
  | resp (p : RespPkt)
  | resetNotice
  | dropRequest (seq group page : Nat)
  | dropGrant (seq group page : Nat) (granted : Bool)
  | publish (ctx seq root mc epoch : Nat)
  | invalidate (frame : Nat)
  | migrate (seq : Nat)
  deriving DecidableEq, Repr

/-- A FABRIC_FAULT message, Table 14.11. -/
structure FabricFault where
  cause : Nat
  lost : Nat
  job : Nat
  mc : Nat
  time : Nat
  completed : Nat
  deriving DecidableEq, Repr

/-- Management messages the device sends (Tables 14.11, 16.9, 18.10; SPDM, R406). -/
inductive Mgmt where
  | fabricFault (sideband : Bool) (f : FabricFault)
  | capLag (e cap time : Nat)
  | powerEvent (cause time : Nat)
  | advisory (cause info time : Nat)
  | cofferData (firstSeq : Nat) (recs : List (List Byte))
  | cofferSignature (firstSeq count cause : Nat) (signed : Bool) (drops freezeTime time : Nat) (sig : Nat)
  | spdm (name : String) (data : List Nat)
  | spdmError
  deriving DecidableEq, Repr

/-- Everything the block sends to the outside, in the order sent (State.out holds it newest first). -/
inductive Output where
  | record (r : CompRec)
  | token (r : TokRec)
  | statusBlock (ctx : Nat) (consumed : List Nat) (eventLoss : Nat) (ringErr : List Nat) (time : Nat)
  | summaryRead (link : Nat)
  | doorbellRead (ctx : Nat)
  | fetchAdd (link word : Nat) (operand : Dword)
  | descFetch (ctx ring n : Nat)
  | hostRead (ctx addr bytes : Nat)
  | hostWrite (ctx addr : Nat) (data : List Byte)
  | msix (ctx vector : Nat)
  | trace (ctx n : Nat) (phase : Bool) (layerTag opTag job time : Nat) (k : TraceKind)
  | layerRecord (ctx addr : Nat) (fields : List Nat)
  | regRead (f : Func) (v : Dword)
  | barRead (data : List Byte)
  | tapRead (data : List Byte)
  | xn (dst vc : Nat) (m : XnMsg)
  | linkSend (port kind seq ack vc : Nat) (respPool : Bool) (credits : Nat)
  | mgmt (m : Mgmt)
  | aer (fatal : Bool)
  | pmeAck
  deriving DecidableEq, Repr

/-! ## Identity and host interface -/

/-- Identity, straps and boot facts (Table 20.5): fixed between cold or warm resets. -/
structure IdBlock where
  /-- VARIANT: 1 OKX-9615-A, 2 OKX-9610-A (R2). -/
  variant : Nat := 1
  bifurcated : Bool := false
  rack : Nat := 0
  board : Nat := 0
  slot : Nat := 0
  fwSlot : Nat := 0
  fwSvn : Nat := 0
  fwBuild : Nat := 0
  deriving DecidableEq, Repr

/-- One MSI-X table entry (R463): the PCI Express layout. -/
structure MsixEntry where
  addr : Dword := 0
  data : Word := 0
  masked : Bool := true
  deriving DecidableEq, Repr

/-- The host interface: HI_ registers (Tables 12.13 to 12.15, 19.8, 19.9, 20.8), the poll in progress
(R287), and the halves held and latched under R6. -/
structure HostIf where
  dbEnable : Bool := false
  fullScan : Bool := false
  period : Nat := 4
  atomicErr : Bool := false
  dbCfgErr : Bool := false
  summaryErr : Bool := false
  periodMiss : Nat := 0
  /-- HI_DB_SUMMARY of link 0 and of link 1 (R288). -/
  summary : Dword := 0
  summary1 : Dword := 0
  adminDb : Dword := 0
  ptmEnable : Bool := false
  sync : Bool := false
  ptmPeriod : Nat := 10
  ptmFails : Nat := 0
  ptmSet : Bool := false
  lastType : Nat := 5
  fatalSeen : Bool := false
  fatalPending : Bool := false
  abandoned : Nat := 0
  lock : Bool := false
  violation : Bool := false
  /-- VF Enable of each PF, as the number of its VFs enabled (NumVFs); 0 is clear. -/
  numVfs0 : Nat := 0
  numVfs1 : Nat := 0
  /-- Size of PF BAR2 as an exponent of 2: 30 to 41, 1 GiB to 2 TiB, as Resizable BAR set it (R2). -/
  bar2Log : Nat := 41
  /-- MSI-X tables and pending bits, by function number × 2,048 + vector. -/
  msix : NMap MsixEntry := []
  msixPending : List Nat := []
  /-- Held _LO halves and latched _HI halves of R6, by pair number. -/
  held : NMap Word := []
  latched : NMap Word := []
  polling : Bool := false
  pollStart : Nat := 0
  /-- A poll is due and waits for the reads of the one before (R287). -/
  pollLate : Bool := false
  /-- Links whose summary line the poll has still to read. -/
  pollLinks : List Nat := []
  /-- The FetchAdds not yet completed: (link × 8 + word, mask). -/
  pollWords : List (Nat × Dword) := []
  /-- The contexts found by the summary lines so far. -/
  pollFound : List Nat := []
  /-- The contexts whose doorbell block the poll has still to read (step 6). -/
  pollCtxs : List Nat := []
  pollFetched : Nat := 0
  /-- Step 7 of the poll is under way: the contexts it fetched from (R287 step 8). -/
  pollGot : Option (List Nat) := none
  deriving DecidableEq, Repr

/-- CX_RING_r_BASE and CX_RING_r_CFG (Table 12.17). -/
structure RingCfg where
  base : Dword := 0
  sizeLog2 : Nat := 0
  vector : Nat := 0
  coalCount : Nat := 0
  coalTime : Nat := 0
  deriving DecidableEq, Repr

/-- A filter set (R422) with its eight counters of Table 18.1. -/
structure Filter where
  armed : Bool := false
  job : Nat := 0xFFFF
  layer : Nat := 0xFFFF
  operator : Nat := 0xFFFF
  counts : NMap Nat := []
  deriving DecidableEq, Repr

/-- A trace ring (R426). -/
structure TraceRing where
  base : Nat
  sizeLog2 : Nat
  kinds : Nat
  headAddr : Nat
  written : Nat := 0
  head : Nat := 0
  dropped : Nat := 0
  dropFirst : Nat := 0
  dropLast : Nat := 0
  lastTime : Nat := 0
  deriving DecidableEq, Repr

/-- A live tensor watch (R429, R430). -/
structure Watch where
  reqId : Nat
  irq : Bool
  job : Nat
  b : WatchBody
  bytes : Nat
  due : Nat
  /-- Tags of the command's header (R422). -/
  layerTag : Nat := 0
  opTag : Nat := 0
  deriving DecidableEq, Repr

/-- A completion record that a context reset holds back until the context is enabled again (R443). -/
structure LateRec where
  reqId : Nat
  irq : Bool
  st : Status
  info : Nat
  value : Nat
  deriving DecidableEq, Repr

/-- A context-table entry with its function's ring setup page (R279 to R285, Tables 12.16, 12.17, 19.7)
and its counter page (Table 18.1). Lists by ring number are sparse: a ring not listed has 0. -/
structure Ctx where
  present : Bool := false
  part : Nat := 0
  enable : Bool := false
  cfgErr : Bool := false
  resetBusy : Bool := false
  dbBlock : Dword := 0
  statusBlock : Dword := 0
  rings : NMap RingCfg := []
  tail : NMap Nat := []
  consumed : NMap Nat := []
  /-- Descriptor reads of rings 0 to 7 issued and not yet returned. -/
  fetching : NMap Nat := []
  written : NMap Nat := []
  head : NMap Nat := []
  /-- RESERVED of rings 8 and 9 (R284): records owed and not yet written. -/
  reserved : NMap Nat := []
  ringErr : List Nat := []
  unsignalled : NMap Nat := []
  unsignalledAt : NMap Nat := []
  eventLoss : Nat := 0
  addrOnly : Bool := false
  /-- Counters of Table 18.1, by offset ÷ 8. -/
  counters : NMap Nat := []
  filters : NMap Filter := []
  trace : Option TraceRing := none
  watches : List Watch := []
  /-- The collective group bound to queue q (ring 4 + q). -/
  queues : NMap Nat := []
  late : List LateRec := []
  deriving DecidableEq, Repr

/-! ## Device memory -/

/-- The command that a later FINAL answers. -/
structure Cmd where
  ctx : Nat := 0
  ring : Nat := 2
  reqId : Nat := 0
  irq : Bool := false
  deriving DecidableEq, Repr

/-- What an object of a partition's pool holds (Table 8.7, R220, R260). -/
inductive ObjKind where
  | reqState (req : Nat) | tokenBuffer (seq : Nat) | pageTable (seq : Nat) | blockState (home seq : Nat)
  | returnBuffer (job : Nat) | kv (home seq group page : Nat) | pfxPage (page group : Nat)
  | level2 (ctx block : Nat)
  | stagedTile (ctx dva : Nat) | treeNodes
  deriving DecidableEq, Repr

/-- The object classes of Table 8.7. -/
inductive ObjClass where
  | held | pinned | cached
  deriving DecidableEq, Repr

/-- An object of a pool: its 64 KiB frames (chip-local frame numbers), class and allocation number (the order of R196's tie
rule). The age of an object is that of its frames (R195), which MemSys.ages holds. wanted: a drop grant has been asked of the
object's home chip (R221). -/
structure PoolObj where
  id : Nat
  kind : ObjKind
  cls : ObjClass
  frames : List Nat
  wanted : Bool := false
  deriving DecidableEq, Repr

/-- A tenant partition, or the admin partition (number 0xFE): its chunks as runs (first, length) in
allocation order, its tag, watermarks and pool (R194 to R197). COMMITTED is derived: committedOf in Machine/Pool.lean. -/
structure Part where
  present : Bool := false
  tag : Nat := 0
  chunks : List (Nat × Nat) := []
  low : Nat := 0
  high : Nat := 0
  objs : List PoolObj := []
  /-- Requests whose best-effort allocation waits, in the order they began to wait: (request, frames). -/
  waiting : List (Nat × Nat) := []
  /-- Admission capacity in chunks while a shrink runs (R202); none otherwise. -/
  target : Option Nat := none
  /-- The partition holds data (R413). -/
  holdsData : Bool := false
  deriving DecidableEq, Repr

/-- A tile descriptor on a channel's queue, with its issuer and how far it has moved. A piece that reads or writes another
chip's memory first sends its READs, then its WRITEs, and lands when every one of them is answered (R189, R347). -/
structure TileJob where
  d : TileDesc
  job : Nat
  posted : Bool
  lc : Bool
  deadline : Nat
  cmd : Cmd
  ctx : Nat
  plate : Nat
  /-- The context whose tables translate DVAs of the KV half (R205, R212). -/
  kv : Nat := 0
  /-- EPOCH of the request served (R245). -/
  epoch : Nat := 0
  doneBytes : Nat := 0
  /-- Poison, or a page that awaits recompute, holds the tile back until the data is there again (R100). -/
  poisoned : Bool := false
  /-- The current piece's reads of other chips have been sent; its writes have. -/
  begun : Bool := false
  sent : Bool := false
  /-- What other chips have answered: bytes by global address, and scale codes by line. -/
  cells : List Host.Cell := []
  codes : NMap Nat := []
  deriving DecidableEq, Repr

/-- A tile-mover channel (Table 8.12): class 0 unassigned, 1 LC, 2 BE, 3 firmware. -/
structure Chan where
  cls : Nat := 0
  job : Nat := 0
  localIdx : Nat := 0
  reserve : Nat := 0
  held : Nat := 0
  queue : List TileJob := []
  deriving DecidableEq, Repr

/-- An entry of a context's page tables (Table 9.2): the level of its table, 1 to 3, and the number of the span it covers, which
is the DVA divided by 2^39, 2^21 or 2^16. -/
structure Leaf where
  ctx : Nat
  level : Nat
  vpn : Nat
  word : Dword
  deriving DecidableEq, Repr

/-- A DATU invalidation that waits for acknowledgements (R211): the frame, the chips still to answer, and the sequence-table
entry that is reused only after it (R230). -/
structure Inval where
  frame : Nat
  waiting : List Nat
  seq : Option Nat := none
  deriving DecidableEq, Repr

/-- Device memory, its owners, the tile movers and the Cabinet (chapter 8). -/
structure MemSys where
  hiRsv : Nat := 0x400
  rsvErr : Bool := false
  agePeriod : Nat := 10
  lastAge : Nat := 0
  chans : NMap Chan := []
  hiHeld : Nat := 0
  /-- Consumers waiting for a drawer, in order: channel number, or 64 for the host interface. -/
  waiters : List Nat := []
  /-- Tenant partitions 0 to 63 and the admin partition 0xFE. -/
  parts : NMap Part := []
  /-- The model space's chunks as runs. -/
  model : List (Nat × Nat) := []
  /-- Capacity of the model space in chunks while a shrink of it runs (R202); none otherwise. -/
  modelTarget : Option Nat := none
  /-- LMODE of chunks, Table 4.5; a chunk not listed is PM. -/
  lmode : NMap Nat := []
  /-- The data bytes of device memory, by chip-local address; an unlisted byte reads zero. -/
  dram : List Host.Cell := []
  /-- The scale bytes M[15:0] of SP lines, by line number; an unlisted line holds scale code 0. -/
  scales : NMap Nat := []
  poisonLines : List Nat := []
  poisonFrames : List Nat := []
  restoring : List Nat := []
  retired : List Nat := []
  leaves : List Leaf := []
  invals : List Inval := []
  nextObj : Nat := 0
  /-- Failed attempts to restore a frame of a weight shard (R248), by frame. -/
  restoreTries : NMap Nat := []
  /-- Ages of frames (R195); a frame not listed has age 0. -/
  ages : NMap Nat := []
  /-- Partial writes that wait for their poisoned line to be restored (R99), byte by byte, oldest first. -/
  heldWrites : List Host.Cell := []
  /-- Per subchannel: (CORRECTED, REREAD, POISONED) of Table 18.18. -/
  subErr : NMap (Nat × Nat × Nat) := []
  /-- Subchannels offline, with the retries made (R458). -/
  offline : NMap Nat := []
  /-- Slices done of the retrain in progress, per subchannel (R200). -/
  slices : NMap Nat := []
  deriving DecidableEq, Repr

/-! ## Islands and plates -/

/-- A Dovetail lane direction in its sending island (R41, R42). -/
structure Lane where
  /-- Taps of the primary and of the shadow line (R41). -/
  tap : Nat := 0
  shadow : Nat := 0
  calTime : Nat := 0
  failed : Bool := false
  corrected : Nat := 0
  deriving DecidableEq, Repr

/-- An island: FB_ISL_STATUS_n (Table 2.3), slots, counters and Patina values. -/
structure Isl where
  state : Nat := 0
  routerOk : Bool := false
  fllLock : Bool := false
  freqCode : Nat := 0
  pendingCode : Option Nat := none
  droopCnt : Nat := 0
  stretched : Bool := false
  halved : Bool := false
  slots : List Nat := []
  active : Option Nat := none
  counters : NMap Nat := []
  ctrOverflow : List Nat := []
  lanes : NMap Lane := []
  wear : Nat := 0
  degr : Nat := 0
  ceHour : Nat := 0
  uncorrected : Nat := 0
  /-- The random stream that samples output tiles (R119): its seed, and the bits drawn since. -/
  seed : Nat := 0
  bitsDrawn : Nat := 0
  /-- Held by a self-test (R328). -/
  testing : Bool := false
  deriving DecidableEq, Repr

/-- A field of the grid: rail, guard bands, floor and thermal clocks (R36, R311, R384, R394). Voltages in
mV, clocks as FREQ_CODE. -/
structure Field where
  railMv : Nat := 700
  setpoint : Nat := 700
  patinaGuard : Nat := 0
  droopGuard : Nat := 0
  lastDroopWindow : Nat := 0
  droopNs : Nat := 0
  /-- A floor code that still binds until every LC request numbered below oldReq is done (R312). -/
  oldFloor : Nat := 0
  oldReq : Nat := 0
  thermCode : Nat := 96
  tj : Nat := 0
  fit : ThermFit := {}
  belowF : Bool := false
  deriving DecidableEq, Repr

/-- An island of a plate: which island, its configuration, and the physical counters assigned. -/
structure PIsl where
  isl : Nat
  mode : Nat
  flags : Nat
  banks : Nat
  /-- The physical banks of the island onto which the plate's logical banks 0, 1, … map (R58). -/
  phys : List Nat := []
  ctrs : List Nat
  mask : Nat
  kinds : List Nat := []
  acked : Bool := false
  retried : Bool := false
  deriving DecidableEq, Repr

/-- Per-layer counters (R106, R117) and the running totals of a layer report (Table 18.3). -/
structure LayerCnt where
  sat : Nat := 0
  ftz : Nat := 0
  r : Nat := 8
  clean : Nat := 0
  proofFailed : Bool := false
  computed : Bool := false
  /-- Window-loss counters of output blocks: ((row tile, column tile), count). -/
  wl : List ((Nat × Nat) × Nat) := []
  satT : Nat := 0
  ftzT : Nat := 0
  wlossT : Nat := 0
  proofs : Nat := 0
  proofFail : Nat := 0
  widenRows : Nat := 0
  exhRows : Nat := 0
  overflow : Nat := 0
  probed : Nat := 0
  sharedOnly : Nat := 0
  metaFault : Nat := 0
  steps : Nat := 0
  /-- A replay of the whole layer (R126): 0 none, 1 its first rung, 2 its tiles are proved again, 3 its BF16 rung, 4 over. -/
  replay : Nat := 0
  /-- The shares that have paid for the rung under way. -/
  paid : List ProofRow := []
  deriving DecidableEq, Repr

/-- The attention mass that a step draws on the blocks of a sequence in a head group (R216): the softmax rows summed so far, and the
sum of their weights by block. -/
structure Mass where
  home : Nat
  seq : Nat
  group : Nat
  rows : Nat := 0
  sums : NMap Word := []
  deriving DecidableEq, Repr

/-- A step that runs on a plate. proof: it is a proof step of the compute step before it (R123). -/
structure Running where
  kind : Nat
  seq : Nat
  dispatch : Nat
  tgen : Nat
  work : List (Nat × WorkKind)
  lc : Bool
  proof : Bool := false
  mass : List Mass := []
  /-- LAYER_ID of the layer being computed (R422); 0xFFFF before the first. -/
  layer : Nat := 0xFFFF
  deriving DecidableEq, Repr

/-- A queued step (R76). -/
structure Queued where
  kind : Nat
  seq : Nat
  at' : Nat
  work : List (Nat × WorkKind)
  proof : Bool := false
  deriving DecidableEq, Repr

/-- An output tile of a compute step, from its completion until the step's Proofs and replays are resolved (R119 to R126). stage: 0 a
Proof above the base rate is to come, 1 it has failed and goes to its first rung, 2 it stands on the FP8 rung and is proved again, 3 it
goes to BF16, 4 it is resolved. -/
structure ProofTile where
  isl : Nat
  o : ProofOp
  sampled : Bool
  stage : Nat := 4
  /-- The comparator keeps the tile's reference (R122). -/
  kept : Bool := false
  /-- The shares whose rows take part. -/
  gs : List ProofRow := []
  /-- The rung to which a replay of the whole layer has taken the tile: 1 FP8, 2 BF16; and whether it has been proved again. -/
  rung : Nat := 0
  again : Bool := false
  deriving DecidableEq, Repr

/-- A resident or loading plate (FB_PLATE_STATUS_n, Table 3.11). -/
structure Plate where
  state : Nat := 0
  job : Nat := 0
  isls : List PIsl := []
  image : PlateImage := {}
  tgen : Nat := 0
  running : Option Running := none
  queue : List Queued := []
  nextSeq : Nat := 0
  layerCnt : NMap LayerCnt := []
  /-- The output tiles of the compute step whose Proofs are not all resolved, and the ns at the floor point already spent on the action
  under way (R123). -/
  tiles : List ProofTile := []
  spent : Nat := 0
  skipped : Nat := 0
  unloads : List Cmd := []
  /-- Slots whose table this plate still reads in the old bank: table IDs not yet swapped. -/
  stage : List Nat := []
  /-- A watch's tensor leaves the banks until then; no step is dispatched before (R430). -/
  holdUntil : Nat := 0
  deriving DecidableEq, Repr

/-- The island grid and its plates (chapters 2, 3 and 13's scheduling registers). -/
structure Fabric where
  isl : NMap Isl := []
  /-- An island that isl does not list: as reset leaves it, then as the last bring-up of all islands left it. -/
  islBase : Isl := {}
  fields : NMap Field := []
  plates : NMap Plate := []
  /-- Scratchpad bytes by island × 2^21 + physical bank × 2^17 + byte of the bank; unlisted reads zero. -/
  scratch : List Host.Cell := []
  /-- Scratchpad bytes marked as poison, by the same keys (R40, R455). -/
  poison : List Nat := []
  beaconOk : Bool := true
  bg : Nat := 30
  bgNext : Nat := 30
  schedCfgErr : Bool := false
  emergency : Bool := false
  admitFault : Nat := 0
  windowStart : Nat := 0
  /-- Entitlement left per (job index, island) key job × 2^11 + island, in ns. -/
  entitle : NMap Nat := []
  /-- Overrun to take from the next entitlement, same keys, in ns. -/
  overrun : NMap Nat := []
  /-- Background time used in this window, in ns: by controller (key k), by island (key 16 + n) (R27). -/
  bgUsed : NMap Nat := []
  /-- Zero bitmap of sub-tiles (R149), the keys listed are all-zero sub-tiles. -/
  zeroBits : List Nat := []
  deriving DecidableEq, Repr

/-! ## Jobs, requests and sequences -/

/-- A reload of a table in progress (R81 to R85). -/
structure Reload where
  cmd : Cmd
  armed : Bool := false
  verifying : Bool := false
  /-- Bound plates that have still to swap. -/
  left : List Nat := []
  deriving DecidableEq, Repr

/-- A table of a job (R68, R80): front bank, back bank, generation, the plates bound with their slots. -/
structure Tbl where
  id : Nat
  kind : Nat
  size : Nat
  gen : Nat := 1
  front : Option TableImage := none
  back : Option TableImage := none
  bound : List (Nat × Nat) := []
  reload : Option Reload := none
  deriving DecidableEq, Repr

/-- A job of the chip (R306 to R310). -/
structure Job where
  present : Bool := false
  /-- JOB_ADMIT accepted and waiting for its remote claims (R309). -/
  pendingAdmit : Bool := false
  cmd : Cmd := {}
  id : Nat := 0
  ctx : Nat := 0
  part : Nat := 0
  mc : Nat := 0
  resv : Reservation := {}
  kv : Option KvGeom := none
  /-- Frames free in this home chip's share of each group's KV_GRANT (R213, R214). -/
  shareFree : NMap Nat := []
  draining : Bool := false
  torn : Bool := false
  ends : List Cmd := []
  teardowns : List Cmd := []
  frozen : Bool := false
  frozenStatus : Status := .fabricTargetLost
  /-- SERVE claimed by jobs homed on other chips: (LOCATION, amount). -/
  claimed : List (Nat × Nat) := []
  /-- Remote claims this job has been granted, and those still asked for. -/
  granted : List Nat := []
  asked : List Nat := []
  askTime : Nat := 0
  tables : List Tbl := []
  /-- Carried overrun of R320 in 1/256,000 island-µs. -/
  overrun : Nat := 0
  /-- What best-effort work has been charged, in 1/256 island-µs (R128). -/
  beCharge : Nat := 0
  /-- Plates of the job whose steps have Proofs or replays to resolve, in the order of their boundaries (R129). -/
  proofs : List Nat := []
  /-- Serving reserve left in this window for rows homed elsewhere (R130), in 1/256 island-µs. -/
  serveReserve : Nat := 0
  /-- Scale of s_I under an emergency and of s_X under lost capacity, as (numerator, denominator). -/
  scaleI : Nat × Nat := (1, 1)
  scaleX : Nat × Nat := (1, 1)
  deriving DecidableEq, Repr

/-- Request states, Table 11.3. -/
inductive ReqState where
  | detected | accepted | prefill | decode | running | finishing | done
  deriving DecidableEq, Repr

/-- The opcodes that are requests (Table 12.8). -/
inductive ReqOp where
  | generate | score | embed
  deriving DecidableEq, Repr

/-- A request tracked by the home chip from detection to its final completion (R257). Island demands
and reserves are in 1/256,000 island-µs, memory and Xaene demands in bytes, remote demands in
1/65,536,000 island-µs. -/
structure Request where
  op : ReqOp
  st : ReqState
  h : Hdr
  detect : Nat
  seq : Nat := 0
  hasSeq : Bool := false
  opensSeq : Bool := false
  gen : GenBody := {}
  emb : EmbedBody := {}
  bags : List Bag := []
  resultAddr : Nat := 0
  resultBytes : Nat := 0
  epoch : Nat := 0
  stops : List Nat := []
  strings : List (List Byte) := []
  tail : List Byte := []
  detok : Option Nat := none
  outIdx : Nat := 0
  delivered : Nat := 0
  pendingTok : Option Nat := none
  held : List TokRec := []
  drawer : Bool := false
  spill : Option TokRec := none
  paused : Bool := false
  flags : Nat := 0
  recorded : Option Status := none
  demI : Nat := 0
  demM : Nat := 0
  demX : Nat := 0
  demR : List Nat := []
  reserve : Nat := 0
  costC : Nat × Nat × Nat := (0, 0, 0)
  framesGroup : NMap Nat := []
  framesHome : Nat := 0
  cancelled : Bool := false
  waitingBe : Bool := false
  bagsLeft : Nat := 0
  bytesOut : Nat := 0
  traceLoss : Bool := false
  endStatus : Option Status := none
  deriving DecidableEq, Repr

/-- A KV page of a sequence: group and page index, whether its entries are dropped (V = 0, RC = 1), the tree page it is mapped
read-only from, if any (R214), and its frames, one per layer, on the chip that serves the group. -/
structure KvPage where
  group : Nat
  page : Nat
  dropped : Bool := false
  shared : Option Nat := none
  frames : List Nat := []
  deriving DecidableEq, Repr

/-- A block-state word (R215). -/
structure BlockState where
  group : Nat
  block : Nat
  score : Nat := 0
  evicted : Bool := false
  deriving DecidableEq, Repr

/-- A sequence-table entry (Table 11.1) with its token buffer, pages and block-state words. st: 0 FREE,
1 ACTIVE, 2 IDLE, 3 ENDING. -/
structure Seq where
  gen : Nat := 1
  st : Nat := 0
  ctx : Nat := 0
  job : Nat := 0
  mc : Nat := 0
  epoch : Nat := 0
  committed : Nat := 0
  valid : Nat := 0
  window : Nat := 0
  tokens : List Nat := []
  tokensDva : Nat := 0
  request : Nat := 0
  pages : List KvPage := []
  blocks : List BlockState := []
  migrating : Bool := false
  cachePfx : Bool := false
  used : Bool := false
  /-- The plate and step kind that last computed positions of its prompt: what firmware recomputes dropped pages with (R222). -/
  fill : Option (Nat × Nat) := none
  deriving DecidableEq, Repr

/-- A node of the prompt tree (R260). page names the tree page holding its block in each group. -/
structure Node where
  id : Nat
  part : Nat
  mc : Nat
  epoch : Nat
  depth : Nat
  key : Nat
  parent : Nat
  tokens : List Nat
  page : Nat
  deriving DecidableEq, Repr

/-- The frames of a tree page in a group that another chip of the board serves (R213, R214). -/
structure FarPage where
  page : Nat
  group : Nat
  chip : Nat
  frames : List Nat
  deriving DecidableEq, Repr

/-- A sequence of another home chip whose root was published to this head chip (R212): what the chip keeps to compute attention for
the groups it serves. pages are those of this chip's groups, blocks their block-state words (R215). -/
structure Pub where
  src : Nat
  ctx : Nat
  seq : Nat
  root : Nat
  mc : Nat
  epoch : Nat
  committed : Nat := 0
  valid : Nat := 0
  window : Nat := 0
  pages : List KvPage := []
  blocks : List BlockState := []
  deriving DecidableEq, Repr

/-- The serving engine and the admission controller (chapters 11 and 13). -/
structure Serving where
  reqs : NMap Request := []
  nextReq : Nat := 1
  seqs : NMap Seq := []
  tree : List Node := []
  nextNode : Nat := 1
  nextPage : Nat := 1
  jobs : NMap Job := []
  /-- Generation last given to each job index (R306). -/
  jobGen : NMap Nat := []
  /-- Sequences of other home chips published to this chip as a head chip. -/
  pubs : List Pub := []
  /-- Frames that tree pages hold on other head chips of the board. -/
  farPages : List FarPage := []
  /-- Pages mapped so far on other head chips of the board: their frames are free values (log entry 165). -/
  farDrawn : Nat := 0
  deriving DecidableEq, Repr

/-! ## Long operations -/

/-- The long operations of Table 13.5 with what each works on. -/
inductive OpKind where
  | plateLoad (job addr size plate : Nat)
  | epochInstall (mc : Nat)
  | partResize (target size low high : Nat) (consent : Bool) (oldSize oldLow oldHigh : Nat)
  | selfTest (scope : Nat) (full : Bool)
  | scrub (part : Nat)
  | fwStage (slot size svn minSvn build : Nat) (digest : Digest)
  | secureErase (part : Nat)
  | kvMigrate (job seq target vf : Nat)
  deriving DecidableEq, Repr

/-- A live long operation: code is its phase code (Table 13.5), held: OP_SUSPEND holds it, waiting: it
waits on a condition. silent: it writes no record (R444). -/
structure LongOp where
  cmd : Cmd
  kind : OpKind
  code : Nat
  held : Bool := false
  waiting : Bool := false
  progress : Nat := 0
  silent : Bool := false
  /-- A context reset has passed since the operation began (R443). -/
  late : Bool := false
  /-- When the island write under way began, for a plate load (R74); when the islands now held were taken, for a self-test (R328). -/
  since : Nat := 0
  /-- Islands that an online self-test has held so far (R328). -/
  tested : List Nat := []
  /-- Chunks that a resize has taken from FREE or out of its target and not yet retagged. -/
  runs : List (Nat × Nat) := []
  deriving DecidableEq, Repr

/-- The live long operations by count (R298). -/
structure Ops where
  live : NMap LongOp := []
  next : Nat := 1
  deriving DecidableEq, Repr

/-! ## Model contexts and epochs -/

/-- A two-slot or single-slot embedding table's update state (R175, R176). -/
structure EmbState where
  table : Nat
  gen : Nat := 0
  /-- Staged rows that this chip owns: (row ID, bytes), the later write of a row standing. -/
  staged : List (Nat × List Byte) := []
  /-- Updates that this chip issued have been staged since its last commit. -/
  issued : Bool := false
  /-- A commit is applied here and not yet settled. -/
  unsettled : Bool := false
  /-- The commit that raised the generation last: its issuing chip and count. -/
  raised : Option (Nat × Nat) := none
  deriving DecidableEq, Repr

/-- A row update or commit that this chip has issued (R176). phase: 0 update, 1 commit, 2 settle,
3 reverting. -/
structure EmbCmd where
  cmd : Cmd
  job : Nat
  mc : Nat
  table : Nat
  exchange : Nat
  epoch : Nat := 0
  phase : Nat
  gen : Nat
  left : List Nat
  /-- Tags of the command's header (R422). -/
  layerTag : Nat := 0xFFFF
  opTag : Nat := 0xFFFF
  deriving DecidableEq, Repr

/-- A commit this chip has applied and not yet answered: the issuing chip, the plates that have still
to apply it, the gathers of the old generation still out (R176). -/
structure EmbAnswer where
  home : Nat
  mc : Nat
  table : Nat
  exchange : Nat
  epoch : Nat := 0
  gen : Nat
  plates : List Nat
  deriving DecidableEq, Repr

/-- A released epoch on the chip. -/
structure Epoch where
  num : Nat
  base : Nat
  chunks : Nat
  layoutId : Nat
  m : Manifest := {}
  refs : Nat := 0
  superseded : Bool := false
  /-- The chip that this chip has told of its drain (R247). -/
  reported : Option Nat := none
  keepSource : Bool := false
  /-- INSTALL_TAG of the install that brought the epoch, and its shard directory where KEEP_SOURCE is set (R248). -/
  tag : Nat := 0
  dir : List Nat := []
  failed : Bool := false
  emb : List EmbState := []
  coord : Nat := 0
  /-- Chips that have reported the epoch drained, kept by the coordinator (R247). -/
  drained : List Nat := []
  deriving DecidableEq, Repr

/-- One shard of an install on this chip (R240). -/
structure ShardSt where
  idx : Nat
  attempts : Nat := 0
  /-- A fetch is under way; none is while the shard waits for a source. -/
  fetching : Bool := false
  verified : Bool := false
  deriving DecidableEq, Repr

/-- The install record (Table 10.4) and the install in progress. st is Table 10.5's STATE. -/
structure Install where
  st : Nat := 0
  installTag : Nat := 0
  coord : Nat := 0
  epoch : Nat := 0
  base : Nat := 0
  chunks : Nat := 0
  time : Nat := 0
  op : Nat := 0
  active : Bool := false
  deadline : Nat := 0
  dirAddr : Nat := 0
  /-- The shard directory as read: one bus address per shard record, zero where this host supplies none (R238). -/
  dir : List Nat := []
  /-- Records of other chips whose copies are known to be verified (R240). -/
  copies : List Nat := []
  manifestSize : Nat := 0
  consent : Bool := false
  keepSource : Bool := false
  m : Option Manifest := none
  shards : List ShardSt := []
  votes : List Nat := []
  /-- Votes received before this chip's manifest is verified: (chip, tag, digest, coordinator), and NO votes. -/
  early : List (Nat × Nat × Digest × Nat) := []
  earlyNo : List (Nat × Status) := []
  replies : List Nat := []
  acks : List Nat := []
  ownNo : Bool := false
  noStatus : Status := .complete
  heard : Nat := 0
  committedAt : Nat := 0
  deriving DecidableEq, Repr

/-- A detokenisation table generation (R265, R266). -/
structure Detok where
  gen : Nat
  image : DetokImage
  deriving DecidableEq, Repr

/-- A model context on the chip (R231). -/
structure Model where
  uuid : Nat
  epochs : List Epoch := []
  install : Install := {}
  detoks : List Detok := []
  nextDetok : Nat := 1
  /-- Device times of requests accepted in the last 600 s (R198), and of the last one. -/
  accepts : List Nat := []
  lastUse : Nat := 0
  deriving DecidableEq, Repr

/-- The model contexts and this chip's embedding commands. -/
structure Models where
  ctxs : NMap Model := []
  embCmds : List EmbCmd := []
  embAnswers : List EmbAnswer := []
  embExchange : NMap Nat := []
  deriving DecidableEq, Repr

/-! ## The Exchange Unit -/

/-- An exchange open at this chip as an expert chip (R158, R159). -/
structure ExpertEx where
  mc : Nat
  layer : Nat
  exchange : Nat
  round : Nat := 0
  /-- CLOSEs held: (round, source, count). -/
  closes : List (Nat × Nat × Nat) := []
  /-- Records received per (round, source). -/
  got : List ((Nat × Nat) × Nat) := []
  /-- Acceptance count per expert. -/
  accepted : NMap Nat := []
  acceptedRecs : List ExuRec := []
  /-- RETURN records sent, per home chip. -/
  returned : NMap Nat := []
  rejects : List ExuRec := []
  closed : Bool := false
  deriving DecidableEq, Repr

/-- A token slot of an exchange at its home chip. Its return row and slot word stand in device memory (R166). -/
structure SlotRow where
  slot : Nat
  /-- Choices accepted by a probe. -/
  probed : Nat := 0
  req : Option Nat := none
  /-- A choice's row came back as poison (R455). -/
  bad : Bool := false
  deriving DecidableEq, Repr

/-- An exchange of this chip as a home chip (R158, R164). -/
structure HomeEx where
  mc : Nat
  job : Nat
  plate : Nat
  layer : Nat
  exchange : Nat
  slots : List SlotRow := []
  /-- Return CLOSEs held: (chip, count); RETURNs received per chip. -/
  closes : List (Nat × Nat) := []
  got : NMap Nat := []
  k : Nat := 1
  mode : Nat := 0
  /-- The DVA of the return buffer, and the width of a row in FP32 values. -/
  base : Nat := 0
  width : Nat := 0
  /-- The expert set. -/
  chips : List Nat := []
  deriving DecidableEq, Repr

/-- A bag of a gather at its home chip (R171). -/
structure BagEx where
  req : Option Nat
  job : Nat
  mc : Nat
  table : Nat
  exchange : Nat
  slot : Nat
  gen : Nat
  owners : List Nat
  mean : Bool
  ids : Nat
  row : List Word
  /-- A row of the bag could not be read (R455), or an ID was out of range (R172). -/
  bad : Option Status := none
  plate : Nat
  isl : Nat := 0
  ctr : Nat := 0
  inc : Nat := 0
  dst : Nat := 0
  deriving DecidableEq, Repr

/-- A gather whose records arrive at this chip as an owner (R158, R171): records answered, and the count of its CLOSE. -/
structure GatherEx where
  mc : Nat
  table : Nat
  exchange : Nat
  src : Nat
  pooled : Nat := 0
  close : Option Nat := none
  deriving DecidableEq, Repr

/-- The EXU (chapter 7). -/
structure Exu where
  expert : List ExpertEx := []
  /-- DISPATCH records, and CLOSEs of a round (true), of a third exchange of a layer (R159). -/
  waiting : List (Bool × ExuRec) := []
  /-- Gathers open here as at an owner. -/
  gathers : List GatherEx := []
  /-- GATHER records that wait for a frame being restored. -/
  stalled : List ExuRec := []
  home : List HomeEx := []
  bags : List BagEx := []
  /-- Next exchange number per layer or table. -/
  nextEx : NMap Nat := []
  deriving DecidableEq, Repr

/-! ## Collectives -/

/-- An operation of a group on this chip (R362, R364, R366). -/
structure CollOp where
  opNo : Nat
  opcode : Nat
  b : CollBody
  cmd : Cmd
  posted : Bool
  lc : Bool
  /-- The posting plate; 64 for an operation of the host. -/
  plate : Nat := 64
  /-- Tags of its activity (R422). -/
  layer : Nat := 0xFFFF
  operator : Nat := 0xFFFF
  /-- Board-stage values by rank, partials by (rack, board). -/
  vals : List (Nat × List Dword) := []
  parts : List (Nat × List Dword) := []
  /-- Bulk segments that stand at this member: (segment, phase, bytes). -/
  segs : List (Nat × Nat × List Byte) := []
  sent : Nat := 0
  answered : Nat := 0
  /-- Chunks received and staged so far (R359, R367). -/
  staged : Nat := 0
  marks : List (Nat × List Byte) := []
  deriving DecidableEq, Repr

/-- A collective group on this chip (R356, R357). st: 0 joining, 1 READY, 2 FAULT, 3 ABANDONED. -/
structure Group where
  id : Nat
  key : Nat
  ctx : Nat
  queue : Nat
  job : Nat
  rank : Nat
  members : List Nat
  mode : Nat
  chunkLog2 : Nat
  depth : Nat
  stagePlate : Nat
  stageOffset : Nat
  stageBytes : Nat
  st : Nat := 0
  joined : List Nat := []
  cmd : Cmd := {}
  nextOp : Nat := 0
  opsPending : List CollOp := []
  deriving DecidableEq, Repr

/-- The collective unit. early holds JOINs and packets of groups not yet created here. -/
structure Coll where
  groups : NMap Group := []
  earlyJoins : List JoinParams := []
  earlyPkts : List (Nat × CollPkt) := []
  deriving DecidableEq, Repr

/-! ## Xaene -/

/-- A packet that waits at a port for credits or replay-buffer room (R335, R337): its VC, whether it is a
response, whether LC work sent it and that work's deadline (R316), its flits, and what is sent. more: others of the
same message follow it (MORE, Table 14.5). -/
structure WaitPkt where
  more : Bool := false
  vc : Nat
  resp : Bool
  lc : Bool
  due : Nat
  flits : Nat
  dst : Nat
  msg : XnMsg
  deriving DecidableEq, Repr

/-- A Xaene port (Tables 14.12, 14.13) with its link state (R333 to R335, R355). st: 0 DOWN,
1 TRAINING, 2 UP. width: 0 none, 1 half, 2 full. -/
structure Port where
  st : Nat := 0
  width : Nat := 0
  enc : Bool := false
  miswire : Bool := false
  laneFail : List Nat := []
  replayCnt : Nat := 0
  disable : Bool := false
  encReq : Bool := false
  txSeq : Nat := 0
  /-- Flits kept for replay: (SEQ, KIND). -/
  txBuf : List (Nat × Nat) := []
  rxNext : Nat := 0
  /-- Credits held per VC (0 to 5) and per response pool (8 to 13). -/
  credits : NMap Nat := []
  /-- Packets not yet started, oldest first. -/
  waitq : List WaitPkt := []
  /-- The weighted round robin of R337: the VC in turn, and the flits it may still send. -/
  rrVc : Nat := 1
  rrLeft : Nat := 0
  replays : List Nat := []
  discarding : Bool := false
  tagFail : Bool := false
  rxBlock : Nat := 0
  /-- Credits of the block not yet verified: VC, and whether the response pool's (R335, R355). -/
  rxOwed : List (Nat × Bool) := []
  keyTime : Nat := 0
  blockCtr : Nat := 0
  peer : Nat := 0
  deriving DecidableEq, Repr

/-- A remote request sent and not yet answered (R349). port: the port by which it left. held: it waits until its flow has moved to
another switch (R345). A request of a tile mover has the offset of its bytes in the piece at dst. -/
structure Remote where
  ty : Nat
  pkt : Pkt
  sentAt : Nat
  resent : Bool := false
  job : Nat
  restoring : Bool := false
  port : Nat := 0
  held : Bool := false
  /-- Where a load's data goes and which counter the posted operation signals: plate, island, counter,
  increment, destination. -/
  plate : Nat := 0
  isl : Nat := 0
  ctr : Nat := 0
  inc : Nat := 0
  dst : Nat := 0
  /-- Tags of its activity (R422). -/
  layer : Nat := 0xFFFF
  operator : Nat := 0xFFFF
  deriving DecidableEq, Repr

/-- An EXU record sent and not yet answered (R349): its type, the chip that this leg goes to, and the job of this chip that it
belongs to. port and held as for a remote request. -/
structure ExuOut where
  ty : ExuType
  pkt : ExuRec
  hop : Nat
  job : Nat
  sentAt : Nat
  resent : Bool := false
  port : Nat := 0
  held : Bool := false
  deriving DecidableEq, Repr

/-- A collective packet sent and not yet answered (R349): its group's GROUP_ID, where it goes and on which VC, the job of this chip
that the group belongs to, and the tags of its activity (R422). port and held as for a remote request. -/
structure CollOut where
  gid : Nat
  pkt : CollPkt
  dst : Nat
  vc : Nat
  job : Nat
  layer : Nat
  operator : Nat
  sentAt : Nat
  resent : Bool := false
  port : Nat := 0
  held : Bool := false
  deriving DecidableEq, Repr

/-- The Xaene block (chapter 14). -/
structure Xaene where
  ports : NMap Port := []
  /-- (switch × 128 + LOCATION) pairs reported unreachable (R342). -/
  unreach : List Nat := []
  w1 : Nat := 0x28
  w2 : Nat := 0x1E
  w3 : Nat := 0x14
  w4 : Nat := 0x08
  w5 : Nat := 0x02
  cfgErr : Bool := false
  lostCnt : Nat := 0
  lateCnt : Nat := 0
  lastLost : Nat := 0
  sidebandFault : Bool := true
  remotes : List Remote := []
  exuOut : List ExuOut := []
  collOut : List CollOut := []
  /-- Answers to requests executed, per ((source × 2^16 + flow) × 2^16 + FSEQ), for the last 32,768 of a flow. -/
  executed : NMap RespPkt := []
  nextFseq : NMap Nat := []
  /-- FABRIC_FAULT messages not yet acknowledged, by index. -/
  faults : NMap FabricFault := []
  nextFault : Nat := 0
  lcFirst : Bool := false
  capacityShort : Bool := false
  deriving DecidableEq, Repr

/-! ## Power -/

/-- Power states of PW_STATE.STATE, Table 16.10, and OFF. -/
inductive PState where
  | run | idle | sleep | deep | entering | exiting | halted | off
  deriving DecidableEq, Repr

/-- The power block (chapter 16). Powers in W, energies in nJ until reported. -/
structure Power where
  st : PState := .run
  target : PState := .run
  /-- A SLEEP, DEEP or OFF request is pending (R374). -/
  pending : Bool := false
  regPg : Bool := true
  oscRdy : Bool := true
  memRdy : Bool := true
  logicRdy : Bool := true
  pwrwarn : Bool := false
  lease : Bool := false
  coolant : Bool := true
  emergency : Bool := false
  capEmergency : Bool := false
  thermEmergency : Bool := false
  anyMatch : Bool := true
  req : Nat := 0
  cap : Nat := 0xAF0
  floor : Nat := 0x640
  ramp : Nat := 0x190
  lcStep : Nat := 0
  rackCap : Nat := 0xC80
  rackEmergency : Bool := false
  op0 : Nat := 0x58
  op1 : Nat := 0x58
  op2 : Nat := 0x58
  op3 : Nat := 0x58
  op4 : Nat := 0
  phase : Nat := 3
  cfgErr : Bool := false
  capClamp : Bool := false
  capLagBit : Bool := false
  thermLimit : Bool := false
  leaseExpired : Bool := false
  capLag : Nat := 0
  tjMax : Nat := 0
  power : Nat := 0
  leaseEnd : Nat := 0
  hadLease : Bool := false
  pwrwarnCap : Bool := false
  /-- Overshoot integration (R387): running, energy in W·50 µs units, cap changed at, last over. -/
  integrating : Bool := false
  overshoot : Nat := 0
  capChanged : Nat := 0
  lastOver : Nat := 0
  /-- Rails: last reading in W and readings missed in a row. -/
  rails : NMap (Nat × Nat) := []
  /-- Duty of the islands' cycles in per mille (R386). -/
  duty : Nat := 1000
  /-- Device time and P of the readings of the last 1 ms, newest first (R388). -/
  history : List (Nat × Nat) := []
  exitStep : Nat := 0
  exitRetried : Bool := false
  exitFrom : PState := .run
  bootStep : Nat := 0
  bootRetried : Bool := false
  pmeOff : Bool := false
  coolantAt : Nat := 0
  coolantOk1s : Bool := true
  stopAt : Nat := 0
  /-- A thermal trip holds the device until a cold reset; tripLatch is THERMTRIP_N's latch (R396, R482). -/
  thermtrip : Bool := false
  tripLatch : Bool := false
  /-- Supplies are back while THERMTRIP_N is latched: a cold reset waits (R482). -/
  coldWaits : Bool := false
  faultN : Bool := false
  resetHeld : Bool := false
  clocksStopped : Bool := false
  lastBusy : Nat := 0
  aonUp : Bool := true
  deriving DecidableEq, Repr

/-! ## Sirdoyx -/

/-- Lifecycle states, Table 17.5. -/
inductive Life where
  | blank | provisioned | deployed | unlocked | retired
  deriving DecidableEq, Repr

/-- A key slot (R399): the key's digest fuses and the revoke fuse. -/
structure KeySlot where
  digest : Option Digest := none
  revoked : Bool := false
  deriving DecidableEq, Repr

/-- A measurement log (R407): the digest, its entries newest first, and the wrap flag. -/
structure MLog where
  digest : Digest := 0
  entries : List (List Nat) := []
  wrapped : Bool := false
  deriving DecidableEq, Repr

/-- A firmware slot of the flash (R403, R404). -/
structure FlashSlot where
  valid : Bool := true
  svn : Nat := 0
  minSvn : Nat := 0
  build : Nat := 0
  digest : Digest := 0
  /-- The image passes stages 3 and 4 of Table 17.2. -/
  bootOk : Bool := true
  deriving DecidableEq, Repr

/-- Sirdoyx (chapter 17). Levels: 0 NONE, 1 TELEMETRY, 2 DEEP, 3 INVASIVE. -/
structure Sec where
  life : Life := .deployed
  level : Nat := 0
  pfLevel : Nat := 0
  unlockEnd : Nat := 0
  tokenDigest : Digest := 0
  /-- A deployed part holds keys in slots 0 to 3 (log entry 22). -/
  slots : NMap KeySlot := [(0, { digest := some 1 }), (1, { digest := some 2 }), (2, { digest := some 3 }), (3, { digest := some 4 })]
  seedFused : Bool := true
  seedBlown : Bool := false
  svnFloor : Nat := 0
  fallback : Bool := false
  nonce : Option Nat := none
  nonceAt : Nat := 0
  fmEid : Nat := 0
  rmEid : Nat := 0
  mboxCmd : Nat := 0
  mboxLen : Nat := 0
  mboxBusy : Bool := false
  mboxDone : Bool := false
  mboxResult : Nat := 0
  /-- SY_MBOX_BUF bytes by offset; unlisted reads zero (log entry: contents undefined at reset). -/
  mboxBuf : List Host.Cell := []
  /-- What the last LOG_READ returned, with the wrap flag (R407); its layout in the buffer is not stated. -/
  logOut : List (List Nat) × Bool := ([], false)
  flashA : FlashSlot := {}
  flashB : FlashSlot := {}
  cert : List Byte := []
  plateLog : MLog := {}
  weightLog : MLog := {}
  tableLog : MLog := {}
  /-- SPDM sessions opening and open. -/
  handshakes : List Nat := []
  sessions : List Nat := []
  ideStreams : NMap Nat := []
  /-- Instruction in force at the TAP. -/
  tapIr : TapOp := .idcode
  haltedCore : Bool := false
  failedBoot : Bool := false
  deriving DecidableEq, Repr

/-! ## Telemetry, Patina and the Coffer -/

/-- The TD block (chapter 18). -/
structure Telem where
  cfgErr : Bool := false
  ctxSel : Nat := 0x3FF
  advisory : List Nat := []
  median : Nat := 0xFFFF
  p10 : Nat := 0xFFFF
  level : Nat := 0
  lowerRuns : Nat := 0
  indicator : Nat := 0
  unit : Nat := 0
  deferrals : NMap Nat := []
  globals : NMap Nat := []
  /-- Patina's indicators: device time and what was measured at the prediction updates of the last 30 days, newest first. -/
  lifeLog : List (Nat × PatinaSample) := []
  /-- Islands named in the Patina flash record (R54). -/
  fences : List Nat := []
  lastRound : NMap Nat := []
  deriving DecidableEq, Repr

/-- The events that the device records in the Coffer. The spec fixes no CODE values (R438): the code of
an event is Config.cofferCode of its name. -/
inductive CofferEvent where
  | drops | fence | fenceLane | bringUpTimeout | laneFailed | configTimeout | testFailed
  | linePoisoned | lineCorrected | frameRetired | restoreFailed | subchannelOffline | subchannelLost
  | plateError | watchdog | jobTornDown | railReading | capEmergency | thermalEmergency | sensor105
  | coolantStop | unwritten | thermtrip | exitTimeout | bootTimeout | sequenceFault | fatal | abandoned
  | loadRefused | imageRefused | keyAdded | keyRevoked | lifecycle | unlock | relock | bootRefused
  | portDown | targetLost | encRefused | wear | beaconLost | pwrwarn | leaseExpiry | supplyLost | erased
  deriving DecidableEq, Repr

/-- A Coffer record, Table 18.8. -/
structure CofferRec where
  time : Nat
  seq : Nat
  source : Nat
  severity : Nat
  ev : CofferEvent
  unit : Nat := 0
  job : Nat := 0
  mc : Nat := 0
  addr : Nat := 0
  deriving DecidableEq, Repr

/-- The Coffer (R438 to R440). recs is newest first, at most 65,536 long. -/
structure Coffer where
  recs : List CofferRec := []
  next : Nat := 0
  frozen : Bool := false
  cause : Nat := 0
  drops : Nat := 0
  freezeTime : Nat := 0
  snapNonce : Option Nat := none
  deriving DecidableEq, Repr

end Sys2Proof.Machine
end

