-- ==== Sys2Proof/Config.lean ====
section
/-! DEFINITION. What an implementation fixes and the spec leaves open: constants without a body, so that
no proof can see a value of one. A statement about them holds for every value. -/
namespace Sys2Proof

/-- The n-th value drawn from the true random number generator, or left to chance (log entry 8). -/
opaque Config.draw : Nat → Nat
/-- The CODE of a Coffer event (R438 leaves the values to Orohel; log entry 9). -/
opaque Config.cofferCode : Machine.CofferEvent → Nat
/-- The DETAIL bytes of Coffer record number n (R438; log entry 9). -/
opaque Config.cofferDetail : Nat → Nat

/-- The BPA of the level-1 table of a context, which firmware holds and publishes (R210, R212); the spec places page
tables in HELD frames without saying which (log entry 18). -/
opaque Config.ctxRoot : Nat → Nat

/-- Bytes of the special-function and lookup table memory: R69 refuses a table that it cannot hold and states no size
(log entry 20). -/
opaque Config.tableMemory : Nat

/-- SHA3-512 of a digest followed by the parts of an entry (R407); log entry 21. -/
opaque Config.sha3 : Digest → List Nat → Digest

/-- The floor frequency code of a field at a guard band (mV), a floor power (W) and a thermal fit (R311): the
voltage-frequency table and the model are the part's own (log entry 23). -/
opaque Config.floorCode : Nat → Nat → Nat → ThermFit → Nat
/-- The highest code that a cap in W allows at a package power in W (R383), log entry 23. -/
opaque Config.capCode : Nat → Nat → Nat
/-- The code of the largest power whose predicted junction stays at or below 95 °C (R395), log entry 23. -/
opaque Config.thermCode : Nat → ThermFit → Nat
/-- The junction temperature in °C that the fitted model predicts for a field at a code (R396), log entry 23. -/
opaque Config.predictTj : Nat → ThermFit → Nat → Nat
/-- The voltage in mV that a field's voltage-frequency table gives a code, without guard band (R36), log entry 23. -/
opaque Config.fieldMv : Nat → Nat → Nat

/-- The duty in per mille at which islands draw a cap in W where they drew a power in W at full duty (R386), log entry 190. -/
opaque Config.dutyFor : Nat → Nat → Nat
/-- The largest rise of P in W that LC steps can cause at once, over the resident jobs: (share, footprint) each (R388),
log entry 23. -/
opaque Config.lcStep : List (Nat × Nat) → Nat

/-- The boot ROM's version, and the digest of the boot configuration block, which R406 measures (log entry 27). -/
opaque Config.romVersion : Nat
/-- See Config.romVersion. -/
opaque Config.bootConfig : Digest

/-- What PW_STATE.TARGET reads while OFF is requested: Table 16.10 gives OFF no code (log entry 29). -/
opaque Config.targetOff : Nat

/-- INFO of a TELEMETRY_ADVISORY, by its cause and the unit concerned: Table 18.10 names the field and no rule fills it (log
entry 32). -/
opaque Config.adviseInfo : Nat → Nat → Nat

/-- Which of the results that R133 allows a part returns for a built-in function at an input: a part returns
the same bits every time (log entry 15). -/
opaque Config.sfuPick : SfuFn → Word → Nat

/-- What a read past a plate's own banks gives, by its address: R58 gives the plate no bank there (log entry 155). -/
opaque Config.strayByte : Nat → Byte
/-- Background island time in ns of one lane calibration (R42): the spec states no duration (log entry 158). -/
opaque Config.calibNs : Nat

/-- Bit n of an island's random stream after it was seeded (R119): on-die entropy, a free value (log entry 8). -/
opaque Config.entropy : Nat → Nat → Bool

/-- The BPA of the table of a level (2 or 3) of a context that covers a span: the spec places tables in HELD frames without
saying which (log entry 18). -/
opaque Config.tableBpa : Nat → Nat → Nat → Nat
/-- SHA3-512 of the bytes of a shard as it travels (R236); log entry 21. -/
opaque Config.digest : List Byte → Digest
/-- The first chunk of the area that another chip gave an install, by model context, INSTALL_TAG and LOCATION: the spec names no
message that reports it (log entry 98). -/
opaque Config.areaBase : Nat → Nat → Nat → Nat
/-- Frame n that another head chip of the board gave a sequence homed here: the spec names no message that reports its number
(log entry 165). -/
opaque Config.headFrame : Nat → Nat

/-- The increment that an attention mass which is no finite number adds to a block's SCORE: R216 states none (log entry 181). -/
opaque Config.massInc : Word → Nat

/-- DVA of the token buffer of a sequence-table entry (Table 11.1): firmware chooses it (log entry 187). -/
opaque Config.tokensDva : Nat → Nat

/-- Nodes of a prefix tree that a 64 KiB frame holds: R259 states no size (log entry 187). -/
opaque Config.nodesPerFrame : Nat

end Sys2Proof
end

