-- ==== Sys2Proof/Machine/State.lean ====
section
/-! DEFINITION. The state of one KX-96 as plain data, its reasons to stop, and the state after reset. -/
namespace Sys2Proof.Machine

/-- Reasons for which the machine would stop with a fault. The spec names none for a command or event of
the table: an access it forbids completes with a status, and an event whose condition does not hold does
nothing. The one constructor is raised by nobody; it is here because the interface names the type. -/
inductive Fault where
  /-- Raised by no meaning (safe: no run stops with it). -/
  | none
  deriving DecidableEq, Repr

/-- Reasons for which a command has no meaning. -/
inductive Refusal where
  /-- Raised by exec's arm of a row that this model gives no meaning yet (safe: the run stops). -/
  | notModelled (mnemonic : String)
  deriving DecidableEq, Repr

/-- The state of the block. Each part's fields, their rules and their reset values stand in
Machine/Parts.lean and in INVENTORY.md. -/
structure State where
  /-- The queue of commands and events that wait, first in, first out. -/
  pending : List Instr := []
  /-- Device time in ns (R304). -/
  time : Nat := 0
  id : IdBlock := {}
  hi : HostIf := {}
  /-- Contexts by number: VFs 0 to 511, adminCtx the PF admin context (R279). -/
  ctxs : NMap Ctx := [(adminCtx, { present := true, part := 0xFE })]
  mem : MemSys := {}
  fab : Fabric := {}
  srv : Serving := {}
  ops : Ops := {}
  mdl : Models := {}
  exu : Exu := {}
  coll : Coll := {}
  xn : Xaene := {}
  pw : Power := {}
  sec : Sec := {}
  td : Telem := {}
  cof : Coffer := {}
  /-- Draws made so far of values the spec leaves to chance or open (Config.free). -/
  draws : Nat := 0
  /-- What the block has sent, newest first. -/
  out : List Output := []
  deriving DecidableEq, Repr

/-- The machine right after a completed cold boot: every part at its reset values (R449, R468), device
time zero (R304), no context, partition, job or model context, nothing sent. -/
def State.reset : State := {}

end Sys2Proof.Machine
end

