-- ==== Sys2Proof/Machine/Ops.lean ====
section
/-! DEFINITION. The shared operations over the state that every family of commands uses: device time, what
is sent, contexts and their counters, traces, interrupts, completion records, the Coffer, advisories. -/
namespace Sys2Proof.Machine

/-! ## Time and outputs -/

/-- Device time moves on to the time of the event and never runs backward (R304, log entry 1). -/
def tick (t : Nat) (s : State) : State := { s with time := max s.time t }

/-- The block sends o. -/
def emit (o : Output) (s : State) : State := { s with out := o :: s.out }

/-- A management message (MCTP) is sent. -/
def sendMgmt (m : Mgmt) (s : State) : State := emit (.mgmt m) s

/-- A count of width w saturates at its all-ones value. -/
def sat (w n : Nat) : Nat := min n (2 ^ w - 1)

/-- The next draw of a value that the spec leaves to chance or open. -/
def drawn (s : State) : Nat := Config.draw s.draws

/-- The state after one draw. -/
def advanceDraw (s : State) : State := { s with draws := s.draws + 1 }

/-! ## Folding a change over a list -/

/-- f applied for each element, from the first to the last. -/
def forEach {α σ : Type} (f : α → σ → σ) : List α → σ → σ
  | [], s => s
  | x :: l, s => forEach f l (f x s)

/-! ## Contexts -/

/-- The entry of context c, or an absent one. -/
def ctxOf (s : State) (c : Nat) : Ctx := mgetD s.ctxs c {}

/-- The context exists (R279). -/
def ctxHere (s : State) (c : Nat) : Bool := (ctxOf s c).present

/-- The context table entry c changed by f. -/
def modCtx (c : Nat) (f : Ctx → Ctx) (s : State) : State := { s with ctxs := mmod s.ctxs c f }

/-- VF contexts present: CX_TABLE_STATUS.COUNT (R445). -/
def ctxCount (s : State) : Nat := (s.ctxs.filter (fun e => e.2.present && e.1 != adminCtx)).length

/-- The function of a context by number: the PF is 0, VF n is n + 1. -/
def fnOf (c : Nat) : Nat := if c = adminCtx then 0 else c + 1

/-! ## Counters (R419 to R423) -/

/-- The activities that a context's page and its filter sets count (Table 18.1). -/
inductive Activity where
  | hostRd | hostWr | lpddrRd | lpddrWr | xnTx | xnRx | scratchIn | islandNs | steps
  deriving DecidableEq, Repr

/-- The page counter of an activity, by offset ÷ 8. STEPS has none. -/
def pageIdx : Activity → Option Nat
  | .hostRd => some 13 | .hostWr => some 14 | .lpddrRd => some 15 | .lpddrWr => some 16
  | .xnTx => some 17 | .xnRx => some 18 | .scratchIn => some 19 | .islandNs => some 20 | .steps => none

/-- The filter counter of an activity. -/
def filterIdx : Activity → Nat
  | .lpddrRd => 0 | .lpddrWr => 1 | .xnTx => 2 | .xnRx => 3 | .scratchIn => 4
  | .hostRd => 5 | .hostWr => 5 | .islandNs => 6 | .steps => 7

/-- Entry k of a table of 64-bit counters plus n, saturating (R419). -/
def bump64 (m : NMap Nat) (k n : Nat) : NMap Nat := if n = 0 then m else mset m k (sat 64 (mgetD m k 0 + n))

/-- Page counter i of context c plus n. -/
def countPage (c i n : Nat) (s : State) : State := modCtx c (fun x => { x with counters := bump64 x.counters i n }) s

/-- The filter counts the activity of these tags (R422); 0xFFFF is the wildcard, in the filter and as the operator of step work. -/
def filterHit (f : Filter) (job layer op : Nat) : Bool :=
  f.armed && (f.job == 0xFFFF || f.job == job) && (f.layer == 0xFFFF || f.layer == layer)
    && (f.operator == 0xFFFF || op == 0xFFFF || f.operator == op)

/-- n units of an activity of context c under the tags given, counted in its page and its filter sets. -/
def activity (c : Nat) (a : Activity) (job layer op n : Nat) (s : State) : State :=
  modCtx c (fun x => { x with
    counters := match pageIdx a with | some i => bump64 x.counters i n | none => x.counters
    filters := mmap x.filters (fun _ f =>
      if filterHit f job layer op then { f with counts := bump64 f.counts (filterIdx a) n } else f) }) s

/-- Global counter i (Table 18.2) plus n. -/
def countGlobal (i n : Nat) (s : State) : State := { s with td := { s.td with globals := bump64 s.td.globals i n } }

/-- n bytes read from host memory for context c. -/
def countHostRd (c job layer op n : Nat) (s : State) : State :=
  countGlobal 62 n (activity c .hostRd job layer op n s)

/-- n bytes written to host memory for context c. -/
def countHostWr (c job layer op n : Nat) (s : State) : State :=
  countGlobal 63 n (activity c .hostWr job layer op n s)

/-- A read of n bytes of host memory is issued for context c. -/
def readHost (c addr n job layer op : Nat) (s : State) : State :=
  emit (.hostRead c addr n) (countHostRd c job layer op n s)

/-- Bytes are written into host memory for context c. -/
def writeHost (c addr : Nat) (data : List Byte) (job layer op : Nat) (s : State) : State :=
  emit (.hostWrite c addr data) (countHostWr c job layer op data.length s)

/-! ## Traces (R426, R427) -/

/-- The kind number of a trace record, Table 18.4. -/
def traceNo : TraceKind → Nat
  | .accept .. => 1 | .final .. => 2 | .step .. => 3 | .swap .. => 4 | .widen .. => 5 | .overflow .. => 6
  | .kvDrop .. => 7 | .evict .. => 8 | .watch .. => 9 | .loss .. => 15

/-- PHASE of record n of a ring of 2^k entries (R282). -/
def phaseOf (n k : Nat) : Bool := n / 2 ^ k % 2 == 0

/-- The requests carry TRACE_LOSS from now on (R426). -/
def markTraceLoss (reqs : List Nat) (s : State) : State :=
  { s with srv := { s.srv with reqs := mmap s.srv.reqs (fun k r => if reqs.contains k then { r with traceLoss := true } else r) } }

/-- An event of the context's trace is dropped and counted. -/
def dropTrace (c : Nat) (reqs : List Nat) (s : State) : State :=
  match (ctxOf s c).trace with
  | none => s
  | some _ =>
    markTraceLoss reqs (countPage c 21 1 (modCtx c (fun x => { x with trace := x.trace.map (fun r =>
      { r with dropped := sat 32 (r.dropped + 1), dropFirst := if r.dropped = 0 then s.time else r.dropFirst,
               dropLast := s.time }) }) s))

/-- A record of the trace ring is full: no entry is free. -/
def traceFull (r : TraceRing) : Bool := decide (2 ^ r.sizeLog2 ≤ r.written - r.head)

/-- One trace record is written at the ring's next entry. -/
def putTrace (c lt ot job : Nat) (k : TraceKind) (s : State) : State :=
  match (ctxOf s c).trace with
  | none => s
  | some r =>
    let ao := (ctxOf s c).addrOnly
    emit (.trace c r.written (phaseOf r.written r.sizeLog2) (if ao then 0 else lt) (if ao then 0 else ot) job s.time k)
      (countHostWr c job lt ot 64 (modCtx c (fun x => { x with trace := x.trace.map (fun q =>
        { q with written := q.written + 1, lastTime := s.time }) }) s))

/-- A LOSS record covers the events dropped since the last record, when the ring has room for it. -/
def putLoss (c : Nat) (s : State) : State :=
  match (ctxOf s c).trace with
  | none => s
  | some r =>
    if r.dropped = 0 || traceFull r then s
    else modCtx c (fun x => { x with trace := x.trace.map (fun q => { q with dropped := 0 }) })
      (putTrace c 0 0 0 (.loss r.dropped r.dropFirst r.dropLast) s)

/-- An event goes to the trace of context c: it is written where its kind is enabled and the ring has room,
and dropped otherwise. reqs are the requests whose event it is. -/
def traceEvent (c lt ot job : Nat) (k : TraceKind) (reqs : List Nat) (s : State) : State :=
  match (ctxOf s c).trace with
  | none => s
  | some r =>
    if !bit r.kinds (traceNo k) then s
    else
      let s := putLoss c s
      match (ctxOf s c).trace with
      | none => s
      | some r => if traceFull r || decide (0 < r.dropped) then dropTrace c reqs s else putTrace c lt ot job k s

/-! ## Interrupts (R303) -/

/-- The MSI-X vector v of context c's function is signalled; a masked vector becomes pending. -/
def signalVector (c v : Nat) (s : State) : State :=
  let key := fnOf c * 2048 + v
  if (mgetD s.hi.msix key {}).masked then
    { s with hi := { s.hi with msixPending := if s.hi.msixPending.contains key then s.hi.msixPending
                                              else key :: s.hi.msixPending } }
  else emit (.msix c v) s

/-- Ring r of context c is signalled: nothing is held unsignalled. -/
def signalRing (c r : Nat) (s : State) : State :=
  signalVector c (mgetD (ctxOf s c).rings r {}).vector (modCtx c (fun x => { x with unsignalled := mdel x.unsignalled r }) s)

/-- A record of ring r was written: the triggers of R303 that act at once. -/
def afterRecord (c r : Nat) (irqFinal : Bool) (s : State) : State :=
  let x := ctxOf s c
  let n := mgetD x.unsignalled r 0
  let cfg := mgetD x.rings r {}
  let s := modCtx c (fun x => { x with
    unsignalled := mset x.unsignalled r (n + 1)
    unsignalledAt := if n = 0 then mset x.unsignalledAt r s.time else x.unsignalledAt }) s
  if irqFinal || (cfg.coalCount != 0 && decide (cfg.coalCount ≤ n + 1)) then signalRing c r s else s

/-! ## Rings -/

/-- The completion ring paired with ring r (Table 12.2). -/
def compRing (r : Nat) : Nat := if r = 0 then 8 else 9

/-- Ring r of the context is present (R281). -/
def ringThere (x : Ctx) (r : Nat) : Bool := (mgetD x.rings r {}).sizeLog2 != 0

/-- Entries of ring r. -/
def ringSize (x : Ctx) (r : Nat) : Nat := 2 ^ (mgetD x.rings r {}).sizeLog2

/-- Room of device-written ring r: 2^s − (WRITTEN + RESERVED − HEAD) (R284). -/
def ringRoom (x : Ctx) (r : Nat) : Nat :=
  ringSize x r + mgetD x.head r 0 - (mgetD x.written r 0 + mgetD x.reserved r 0)

/-- No record is owed on rings 8 and 9: CX_CTRL.QUIESCED (R280). -/
def quiesced (x : Ctx) : Bool := mgetD x.reserved 8 0 == 0 && mgetD x.reserved 9 0 == 0

/-- The status block of the context is written (Table 12.4). -/
def writeStatus (c : Nat) (s : State) : State :=
  let x := ctxOf s c
  emit (.statusBlock c ((List.range 8).map (fun r => mgetD x.consumed r 0 % 2 ^ 32)) x.eventLoss x.ringErr s.time)
    (countHostWr c 0 0 0 64 s)

/-- Ring r enters the error state (R292); the status block shows it. -/
def ringError (c r : Nat) (s : State) : State :=
  if ctxHere s c && !(ctxOf s c).ringErr.contains r then
    writeStatus c (modCtx c (fun x => { x with ringErr := sortBy (fun a b => decide (a ≤ b)) (r :: x.ringErr) }) s)
  else s

/-- Rings 0 to 7 of the context enter the error state (R278). -/
def hostRingsError (c : Nat) (s : State) : State :=
  if ctxHere s c then
    writeStatus c (modCtx c (fun x => { x with
      ringErr := List.range 8 ++ x.ringErr.filter (fun r => decide (8 ≤ r)) }) s)
  else s

/-- The ring state that a context reset clears (R443, Table 19.2). -/
def clearRings (x : Ctx) : Ctx :=
  { x with consumed := [], fetching := [], written := [], head := [], tail := [], reserved := [], ringErr := [],
           unsignalled := [], unsignalledAt := [], eventLoss := 0 }

/-- The number of the pair whose _LO half stands at an offset of a function. -/
def pairKey (fn off : Nat) : Nat := fn * 16777216 + off

/-- The offset of a context's ring setup page in its function's BAR0. -/
def setupBase (ctx : Nat) : Nat := if ctx = adminCtx then 0x10100 else 0x100

/-- The _LO halves held in the ring setup page of a context are discarded (R6). -/
def dropHeld (c : Nat) (s : State) : State :=
  let lo := pairKey (fnOf c) (setupBase c)
  { s with hi := { s.hi with held := mfilter s.hi.held (fun k _ => decide (k < lo ∨ lo + 0x220 ≤ k)) } }

/-- A context reset in progress ends once no record is owed (R443 step 5). -/
def settleReset (c : Nat) (s : State) : State :=
  modCtx c (fun x => if x.resetBusy && quiesced x then { clearRings x with resetBusy := false } else x) s

/-- n records of room reserved in ring r are given back (R284). -/
def releaseRoom (c r n : Nat) (s : State) : State :=
  settleReset c (modCtx c (fun x => { x with reserved := mset x.reserved r (mgetD x.reserved r 0 - n) }) s)

/-! ## Completion records (R299) -/

/-- STATUS codes, Table 12.10. -/
def statusCode : Status → Nat
  | .complete => 0x00 | .declined => 0x01 | .cancelled => 0x02 | .truncatedHostStall => 0x03
  | .fabricTargetLost => 0x10 | .memoryUncorrectable => 0x11 | .coolantStop => 0x12 | .powerEmergency => 0x13
  | .jobTornDown => 0x14 | .resetAborted => 0x15
  | .malformed => 0x20 | .resourceExhausted => 0x21 | .epochUnavailable => 0x22 | .accessDenied => 0x23 | .busy => 0x24

/-- A record is written at the next entry of ring r, unless the ring is absent, or in the error state, which discards
it (R278). -/
def putRec (c r : Nat) (mk : Nat → Bool → CompRec) (irqFinal : Bool) (s : State) : State :=
  let x := ctxOf s c
  if !x.present || !ringThere x r || x.ringErr.contains r then s
  else
    let n := mgetD x.written r 0
    afterRecord c r irqFinal (emit (.record (mk n (phaseOf n (mgetD x.rings r {}).sizeLog2)))
      (countHostWr c 0 0 0 32 (modCtx c (fun x => { x with written := mset x.written r (n + 1) }) s)))

/-- The page counters that a FINAL record raises (Table 18.1). -/
def countFinal (c : Nat) (st : Status) (flags : Nat) (s : State) : State :=
  let k := statusCode st
  let s := if 0x10 ≤ k ∧ k ≤ 0x1F then countPage c 4 1 s else s
  let s := if st = .truncatedHostStall then countPage c 5 1 s else s
  let s := countPage c 6 (bnat (bit flags 0)) s
  let s := countPage c 7 (bnat (bit flags 1)) s
  let s := countPage c 8 (bnat (bit flags 2)) s
  let s := countPage c 9 (bnat (bit flags 3)) s
  let s := countPage c 10 (bnat (bit flags 5)) s
  countPage c 11 (bnat (bit flags 6)) s

/-- An owed record of a descriptor is written and its room released (R284, R299). -/
def owedRec (d : Cmd) (k : RecKind) (st : Status) (flags info value : Nat) (s : State) : State :=
  let s' := putRec d.ctx d.ring (fun n p => {
      ctx := d.ctx, ring := d.ring, n := n, phase := p, kind := k, reqId := d.reqId,
      status := st, flags := flags, info := info, value := value, time := s.time })
      (d.irq && (k == .final || k == .decline)) s
  releaseRoom d.ctx d.ring 1 (if k = .final then countFinal d.ctx st flags s' else s')

/-- The FINAL record of a command. -/
def final (d : Cmd) (st : Status) (info value : Nat) (s : State) : State := owedRec d .final st 0 info value s

/-- An EVENT record on ring 9 (R302): written only with room beyond every reservation, else counted. -/
def eventRec (c code info value : Nat) (s : State) : State :=
  let x := ctxOf s c
  if !x.present then s
  else if ringRoom x 9 = 0 then modCtx c (fun x => { x with eventLoss := sat 16 (x.eventLoss + 1) }) s
  else putRec c 9 (fun n p => {
        ctx := c, ring := 9, n := n, phase := p, kind := .event, reqId := 0, status := .complete,
        code := code, info := info, value := value, time := s.time }) false s

/-! ## Descriptors -/

/-- The command that a descriptor's FINAL answers. -/
def cmdOf (h : Hdr) : Cmd := { ctx := h.ctx, ring := compRing h.ring, reqId := h.reqId, irq := h.irq }

/-- The host interface runs: in RUN, IDLE and HALTED and until an entry completes (R372, R375, R393), unless a thermal
trip or a failed boot holds the device (R396, R449). -/
def hostRuns (s : State) : Bool :=
  (s.pw.st == .run || s.pw.st == .idle || s.pw.st == .halted || s.pw.st == .entering
    || (s.pw.st == .exiting && s.pw.exitFrom == .halted)) && !s.pw.thermtrip && !s.pw.resetHeld && !s.sec.failedBoot && s.pw.aonUp

/-- Registers answer: in every state but DEEP and OFF, unless a trip, a failed boot or a sequence fault holds the device
(log entry 30). -/
def regsAnswer (s : State) : Bool :=
  s.pw.st != .deep && s.pw.st != .off && !s.pw.thermtrip && !s.pw.resetHeld && !s.sec.failedBoot && s.pw.aonUp

/-- A register write by f. -/
def regWrite (t : Nat) (f : State → State) (s : State) : State :=
  let s := tick t s
  if regsAnswer s then f s else s

/-- The device may fetch an entry of ring r of context c: the context is enabled, the ring present, neither it
nor its completion ring in the error state, no fatal error pending, and the paired ring has room for two
records (R280, R284, R292, R278, R457). -/
def mayFetch (s : State) (c r : Nat) : Bool :=
  let x := ctxOf s c
  x.present && x.enable && !x.resetBusy && ringThere x r && !x.ringErr.contains r && !x.ringErr.contains (compRing r)
    && decide (2 ≤ ringRoom x (compRing r)) && !s.hi.fatalPending && decide (r < 8) && hostRuns s

/-- One entry of ring r counts as fetched and reserves room for two records. -/
def countFetch (c r : Nat) (s : State) : State :=
  modCtx c (fun x => { x with
    consumed := madd x.consumed r 1
    reserved := madd x.reserved (compRing r) 2 }) s

/-- A long operation refused before it begins owes one record: its FINAL (R299). -/
def refuseOp (h : Hdr) (st : Status) (s : State) : State :=
  final (cmdOf h) st 0 0 (releaseRoom h.ctx (compRing h.ring) 1 s)

/-! ## The setup lock (R469 to R471) -/

/-- A write-locked field would have changed: VIOLATION sets (R469). -/
def violate (s : State) : State := { s with hi := { s.hi with violation := true } }

/-- A write of a write-locked field by f. A write that its own rule refuses is refused under that rule (R471, log entry 28);
else, while the lock is set, the field stands and a write that would change it sets VIOLATION (R469). -/
def lockedWrite (refused changes : Bool) (f : State → State) (s : State) : State :=
  if refused || !s.hi.lock then f s else if changes then violate s else s

/-! ## The Coffer and advisories (R433, R438, R439) -/

/-- A record is written into the Coffer, or counted while it is frozen. -/
def coffer (source severity : Nat) (ev : CofferEvent) (unit job mc addr : Nat) (s : State) : State :=
  if s.cof.frozen then { s with cof := { s.cof with drops := sat 32 (s.cof.drops + 1) } }
  else { s with cof := { s.cof with
    recs := ({ time := s.time, seq := s.cof.next, source := source, severity := severity, ev := ev, unit := unit,
               job := job, mc := mc, addr := addr } :: s.cof.recs).take 65536
    next := (s.cof.next + 1) % 2 ^ 32 } }

/-- The Coffer freezes, or a cause of higher precedence replaces its cause (Table 18.9). -/
def freezeCoffer (cause : Nat) (s : State) : State :=
  if !s.cof.frozen then { s with cof := { s.cof with frozen := true, cause := cause, freezeTime := s.time } }
  else if s.cof.cause < cause then { s with cof := { s.cof with cause := cause } }
  else s

/-- A frozen Coffer is released: the first record written carries the count of dropped events (R439). -/
def releaseCoffer (s : State) : State :=
  if s.cof.frozen then
    let n := s.cof.drops
    coffer 0 0 .drops 0 0 0 n { s with cof := { s.cof with frozen := false, cause := 0, drops := 0, snapNonce := none } }
  else s

/-- An advisory of a cause is raised for a unit: its bit sets and TELEMETRY_ADVISORY is sent (R433). -/
def advise (cause unit : Nat) (s : State) : State :=
  sendMgmt (.advisory cause (Config.adviseInfo cause unit % 65536) s.time)
    { s with td := { s.td with advisory := if s.td.advisory.contains cause then s.td.advisory else cause :: s.td.advisory } }

end Sys2Proof.Machine
end

