-- ==== Sys2Proof/Machine/Poll.lean ====
section
/-! DEFINITION. The poll of the doorbell engine (R285 to R293, R473), and how a fetched descriptor runs. -/
namespace Sys2Proof.Machine

/-! ## Polls -/

/-- Enabled contexts: VFs ascending, then the admin context (R289). -/
def enabledCtxs (s : State) : List Nat := (s.ctxs.filter (fun e => e.2.present && e.2.enable)).map (·.1)

/-- Links that carry a summary line (R288). -/
def linksOf (s : State) : List Nat := if s.id.bifurcated then [0, 1] else [0]

/-- The context holds output records, or lacks completion room (R287 step 6). -/
def wantsHead (s : State) (c : Nat) : Bool :=
  let x := ctxOf s c
  s.srv.reqs.any (fun e => e.2.h.ctx == c && !(e.2.held ++ e.2.spill.toList).isEmpty) || decide (ringRoom x 8 < 2) || decide (ringRoom x 9 < 2)

/-- Descriptors of ring r that the host has written and the device has not fetched. -/
def waitingDescs (x : Ctx) (r : Nat) : Nat := (mgetD x.tail r 0 + 2 ^ 32 - mgetD x.consumed r 0 % 2 ^ 32) % 2 ^ 32

/-- Up to n descriptors of ring r of context c are fetched, within the poll's 1,024. -/
def fetchRing (c r : Nat) : Nat → State → State
  | 0, s => s
  | n + 1, s =>
    if waitingDescs (ctxOf s c) r = 0 || !mayFetch s c r || decide (1024 ≤ s.hi.pollFetched) then s
    else
      let s := emit (.descFetch c r (mgetD (ctxOf s c).consumed r 0)) s
      let s := modCtx c (fun x => { x with fetching := madd x.fetching r 1 }) (countFetch c r s)
      fetchRing c r n { s with hi := { s.hi with pollFetched := s.hi.pollFetched + 1 } }

/-- Descriptors fetched from a context so far. -/
def consumedSum (s : State) (c : Nat) : Nat := sumOf (fun r => mgetD (ctxOf s c).consumed r 0) (List.range 8)

/-- Step 7: descriptors are fetched in the order of R289. The contexts fetched from are kept for step 8. -/
def fetchAll (s : State) : State :=
  let cs := enabledCtxs s
  let old := cs.map (consumedSum s)
  let s := forEach (fun r s => forEach (fun c s => fetchRing c r 64 s) cs s) [0, 2, 1, 3, 4, 5, 6, 7] s
  let got := ((cs.zip old).filter (fun (e : Nat × Nat) => consumedSum s e.1 != e.2)).map (·.1)
  { s with hi := { s.hi with pollGot := some got } }

/-- A descriptor's read is issued and has not returned. -/
def descsOut (s : State) : Bool := s.ctxs.any (fun e => e.2.fetching.any (fun f => f.2 != 0))

/-- A read of the doorbell block of context c is issued. -/
def readBlock (c : Nat) (s : State) : State := emit (.doorbellRead c) (countHostRd c 0 0 0 128 s)

/-- Doorbell blocks are read (step 6): of the contexts found, of those that want HEAD, in FULL_SCAN of every enabled one.
The admin block was read at step 4. -/
def readBlocks (s : State) : State :=
  let cs := (enabledCtxs s).filter (fun c => c != adminCtx && (s.hi.fullScan || s.hi.pollFound.contains c || wantsHead s c))
  forEach readBlock cs { s with hi := { s.hi with pollFound := [], pollCtxs := s.hi.pollCtxs ++ cs } }

/-- Steps 4 to 6 of a poll begin. With nothing to read, in FULL_SCAN without an enabled context, it is over at once. -/
def startPoll (s : State) : State :=
  let ls := if s.hi.fullScan then [] else linksOf s
  let adm := (enabledCtxs s).filter (· == adminCtx)
  let s := { s with hi := { s.hi with polling := true, pollStart := s.time, pollFetched := 0, pollLinks := ls, pollWords := [],
                                      pollFound := [], pollCtxs := adm, pollGot := none } }
  let s := forEach (fun l s => emit (.summaryRead l) (countGlobal 62 64 s)) ls s
  let s := forEach readBlock adm s
  let s := if s.hi.fullScan then readBlocks s else s
  { s with hi := { s.hi with polling := !s.hi.pollLinks.isEmpty || !s.hi.pollCtxs.isEmpty } }

/-- Step 8: the contexts fetched from get their status block. A poll that waits begins at once (R287). -/
def finishPoll (s : State) : State :=
  let s := forEach (fun c s => if ctxHere s c then writeStatus c s else s) (s.hi.pollGot.getD []) s
  let s := { s with hi := { s.hi with polling := false, pollGot := none } }
  if s.hi.pollLate then
    let s := { s with hi := { s.hi with pollLate := false, periodMiss := sat 16 (s.hi.periodMiss + 1) } }
    if s.hi.dbEnable then startPoll s else s
  else s

/-- Steps 7 and 8 of a poll: descriptors are fetched once every block is read, and the poll ends once every descriptor's
read has returned too (log entry 103). -/
def endPoll (s : State) : State :=
  if s.hi.polling && s.hi.pollLinks.isEmpty && s.hi.pollWords.isEmpty && s.hi.pollCtxs.isEmpty then
    let s := if s.hi.pollGot.isSome then s else fetchAll s
    if descsOut s then s else finishPoll s
  else s

/-! ## Descriptors that have been fetched -/

/-- The read that fetches descriptor h returns: a read issued by a poll, or else one that is counted here
(log entry 3). None where the device would fetch no descriptor from that ring. -/
def fetched (t : Nat) (h : Hdr) (s : State) : Option State :=
  let s := tick t s
  if mgetD (ctxOf s h.ctx).fetching h.ring 0 ≠ 0 then
    some (countHostRd h.ctx h.job h.layerTag h.opTag 128 (modCtx h.ctx (fun x => { x with
      fetching := mset x.fetching h.ring (mgetD x.fetching h.ring 0 - 1) }) s))
  else if mayFetch s h.ctx h.ring then
    some (countHostRd h.ctx h.job h.layerTag h.opTag 128 (countFetch h.ctx h.ring s))
  else none

/-- A command that owes one record runs: f is what it does once its room is settled. Where no such descriptor
can have been fetched, nothing happens (log entry 3). -/
def command (t : Nat) (h : Hdr) (f : State → State) (s : State) : State :=
  match fetched t h s with
  | none => tick t s
  | some s => endPoll (f (releaseRoom h.ctx (compRing h.ring) 1 s))

/-- A command or request that may owe two records runs. -/
def command2 (t : Nat) (h : Hdr) (f : State → State) (s : State) : State :=
  match fetched t h s with
  | none => tick t s
  | some s => endPoll (f s)

end Sys2Proof.Machine
end

