-- ==== Sys2Proof/Machine/Pool.lean ====
section
/-! DEFINITION. Device memory as firmware manages it: chunks and their owners, the frame pools of partitions,
the Cabinet's drawers, the placement of addresses on subchannels, address translation and access checks
(chapters 1, 8 and 9). Where the spec does not say which of several free chunks, frames or channels firmware
takes, the lowest is taken (log entry 7). -/
namespace Sys2Proof.Machine

/-- This chip's LOCATION: rack, board and slot straps (R25, Table 10.2). -/
def ownLoc (s : State) : Nat := s.id.rack * 64 + s.id.board * 8 + s.id.slot

/-! ## Chunks (R19, R182, R183) -/

/-- 2 MiB chunks of installed device memory (R1). -/
def memChunks (s : State) : Nat := if s.id.variant = 2 then 524288 else 786432

/-- Chunks below the firmware region, which is the top 4 GiB (R19). -/
def usableChunks (s : State) : Nat := memChunks s - 2048

/-- The number of chunks of a list of runs. -/
def runLen (l : List (Nat × Nat)) : Nat := sumOf (fun r => r.2) l

/-- Runs sorted by first chunk. -/
def sortRuns (l : List (Nat × Nat)) : List (Nat × Nat) := sortBy (fun a b => decide (a.1 ≤ b.1)) l

/-- Chunks that belong to a partition or the model space, or that a resize holds. -/
def usedRuns (s : State) : List (Nat × Nat) :=
  sortRuns ((s.mem.parts.flatMap (fun p => p.2.chunks)) ++ s.mem.model ++ (s.ops.live.flatMap (fun o => o.2.runs)))

/-- The gaps that sorted runs leave between a and e. -/
def gapsFrom (a e : Nat) : List (Nat × Nat) → List (Nat × Nat)
  | [] => if a < e then [(a, e - a)] else []
  | (b, n) :: l => (if a < b then [(a, b - a)] else []) ++ gapsFrom (max a (b + n)) e l

/-- FREE chunks as runs, lowest first. -/
def freeRuns (s : State) : List (Nat × Nat) := gapsFrom 0 (usableChunks s) (usedRuns s)

/-- The first n chunks of runs. -/
def takeRuns : Nat → List (Nat × Nat) → List (Nat × Nat)
  | _, [] => []
  | n, (b, k) :: l => if n = 0 then [] else if k ≤ n then (b, k) :: takeRuns (n - k) l else [(b, n)]

/-- The runs without their first n chunks. -/
def dropRuns : Nat → List (Nat × Nat) → List (Nat × Nat)
  | _, [] => []
  | n, (b, k) :: l => if n = 0 then (b, k) :: l else if k ≤ n then dropRuns (n - k) l else (b + n, k - n) :: l

/-- Chunk c lies in the runs. -/
def inRuns (c : Nat) (l : List (Nat × Nat)) : Bool := l.any (fun r => decide (r.1 ≤ c ∧ c < r.1 + r.2))

/-- The runs without chunk c. -/
def cutRun (c : Nat) (l : List (Nat × Nat)) : List (Nat × Nat) :=
  l.flatMap (fun r => if r.1 ≤ c ∧ c < r.1 + r.2 then
      (if r.1 < c then [(r.1, c - r.1)] else []) ++ (if c + 1 < r.1 + r.2 then [(c + 1, r.1 + r.2 - c - 1)] else [])
    else [r])

/-- The line mode of a chunk: 0 PM unless an object has set another (Table 4.5). -/
def lmodeOf (s : State) (chunk : Nat) : Nat := mgetD s.mem.lmode chunk 0

/-- Every line of the chunks is written with zero data and scale code 0 in line mode m, and holds no poison
(R183). -/
def zeroChunks (m : Nat) (l : List (Nat × Nat)) (s : State) : State :=
  { s with mem := { s.mem with
      dram := s.mem.dram.filter (fun e => !inRuns (e.1 / 2097152) l)
      scales := s.mem.scales.filter (fun e => !inRuns (e.1 / 65536) l)
      poisonLines := s.mem.poisonLines.filter (fun n => !inRuns (n / 65536) l)
      lmode := (if m = 0 then s.mem.lmode.filter (fun e => !inRuns e.1 l)
                else forEach (fun r q => forEach (fun i q => mset q (r.1 + i) m) (List.range r.2) q) l s.mem.lmode) } }

/-- KIND of a chunk: 0 FREE, 1 FIRMWARE, 2 MODEL, 3 PARTITION (Table 8.3). -/
def chunkKind (s : State) (c : Nat) : Nat :=
  if usableChunks s ≤ c then 1
  else if inRuns c s.mem.model then 2
  else if s.mem.parts.any (fun p => p.2.present && inRuns c p.2.chunks) then 3
  else 0

/-- The epoch area that an install in progress holds: a record in a later state names an area that is the epoch's, or nobody's (R242). -/
def installArea (x : Install) : Option (Nat × Nat) := if x.chunks != 0 && x.st != 4 then some (x.base, x.chunks) else none

/-- OWNER of a chunk: the model context whose epoch area holds it, the tenant tag of its partition, or 0. -/
def chunkOwner (s : State) (c : Nat) : Nat :=
  match s.mem.parts.find? (fun p => p.2.present && inRuns c p.2.chunks) with
  | some p => p.2.tag
  | none =>
    match s.mdl.ctxs.find? (fun m => m.2.epochs.any (fun e => decide (e.base ≤ c ∧ c < e.base + e.chunks))
        || (installArea m.2.install).any (fun r => decide (r.1 ≤ c ∧ c < r.1 + r.2))) with
    | some m => m.1
    | none => 0

/-! ## Placement on subchannels (R181) -/

/-- The subchannel of chip-local address pa: n = 24 × package + 2 × channel + subchannel. -/
def subchannelOf (s : State) (pa : Nat) : Nat :=
  let u := pa / 256
  let x := (u % 128) ^^^ (u / 128 % 128) ^^^ (u / 16384 % 128) ^^^ (u / 2097152 % 128) ^^^ (u / 268435456 % 32)
  let g := u / 128
  let t := if s.id.variant = 2 ∧ 0xC000000000 ≤ pa then g % 2 else g % 3
  24 * (x % 16) + (8 * t + x / 16 % 8)

/-! ## Frame pools (R194 to R197) -/

/-- Partition p, or an absent one. -/
def partOf (s : State) (p : Nat) : Part := mgetD s.mem.parts p {}

/-- Partition p changed by f. -/
def modPart (p : Nat) (f : Part → Part) (s : State) : State :=
  { s with mem := { s.mem with parts := mmod s.mem.parts p f } }

/-- Frames of a partition. -/
def partFrames (p : Part) : Nat := 32 * runLen p.chunks

/-- Frames that objects hold. -/
def objFrames (l : List PoolObj) : Nat := sumOf (fun o => o.frames.length) l

/-- Frames retired for good that lie in the partition (R455). -/
def retiredIn (s : State) (p : Part) : Nat := (s.mem.retired.filter (fun f => inRuns (f / 32) p.chunks)).length

/-- Poisoned frames of the partition that no object holds and that are still to be tested (R455). -/
def poisonFree (s : State) (p : Part) : Nat :=
  (s.mem.poisonFrames.filter (fun f => inRuns (f / 32) p.chunks && !p.objs.any (fun o => o.frames.contains f)
    && !s.mem.retired.contains f)).length

/-- FREE frames of a partition that may be given out. -/
def freeFrames (s : State) (p : Part) : Nat := partFrames p - objFrames p.objs - retiredIn s p - poisonFree s p

/-- Frames of CACHED objects. -/
def cachedFrames (p : Part) : Nat := objFrames (p.objs.filter (fun o => o.cls == .cached))

/-- Frame number i of a list of chunk runs. -/
def nthFrame : List (Nat × Nat) → Nat → Option Nat
  | [], _ => none
  | (b, k) :: l, i => if i < 32 * k then some (32 * b + i) else nthFrame l (i - 32 * k)

/-- The first frames, need of them at most, of those runs that ok admits, looking at fuel frames from number i. -/
def scanFrames (runs : List (Nat × Nat)) (ok : Nat → Bool) : Nat → Nat → Nat → List Nat
  | 0, _, _ => []
  | fuel + 1, i, need =>
    if need = 0 then []
    else match nthFrame runs i with
      | none => []
      | some f => if ok f then f :: scanFrames runs ok fuel (i + 1) (need - 1) else scanFrames runs ok fuel (i + 1) need

/-- Number of a frame of a chip of the board in BPA space (R23). -/
def bpf (slot f : Nat) : Nat := slot * 2 ^ 25 + f % 2 ^ 25

/-- Frames of this chip that still wait for an acknowledgement (R211). -/
def dying (s : State) : List Nat :=
  (s.mem.invals.filter (fun v => v.frame / 2 ^ 25 == s.id.slot)).map (fun v => v.frame % 2 ^ 25)

/-- need FREE frames for line mode m, the lowest first: a chunk holds frames of one line mode only (R183), and a frame is not
reused before its invalidation is acknowledged (R211). None when there are too few. -/
def findFrames (s : State) (p : Part) (m need : Nat) : Option (List Nat) :=
  let used := p.objs.flatMap (·.frames) ++ dying s
  let ok := fun f => !used.contains f && !s.mem.retired.contains f && !s.mem.poisonFrames.contains f
    && (lmodeOf s (f / 32) == m || !used.any (fun g => g / 32 == f / 32))
  let l := scanFrames p.chunks ok (need + 32 * used.length + 32 * s.mem.retired.length + 32 * s.mem.poisonFrames.length) 0 need
  if l.length = need then some l else none

/-- Frames are about to be given to an object of line mode m: a chunk of another line mode is zero-filled in the new one (R183),
and the frames begin at age 0. -/
def readyFrames (m : Nat) (frames : List Nat) (s : State) : State :=
  let stale := dedup' ((frames.map (· / 32)).filter (fun c => lmodeOf s c != m))
  let s := if stale.isEmpty then s else zeroChunks m (stale.map (fun c => (c, 1))) s
  { s with mem := { s.mem with ages := mfilter s.mem.ages (fun f _ => !frames.contains f) } }

/-- An object of the frames is added to the pool. -/
def addObj (pn : Nat) (kind : ObjKind) (cls : ObjClass) (m : Nat) (frames : List Nat) (s : State) : State :=
  let s := readyFrames m frames s
  let s := modPart pn (fun p => { p with
    objs := p.objs ++ [{ id := s.mem.nextObj, kind := kind, cls := cls, frames := frames }] }) s
  { s with mem := { s.mem with nextObj := s.mem.nextObj + 1 } }

/-- An object of the pool grows by frames. -/
def growObj (pn id m : Nat) (frames : List Nat) (s : State) : State :=
  modPart pn (fun p => { p with objs := p.objs.map (fun x => if x.id == id then { x with frames := x.frames ++ frames } else x) })
    (readyFrames m frames s)

/-- The object of a kind in partition pn. -/
def findObj (s : State) (pn : Nat) (kind : ObjKind) : Option PoolObj := (partOf s pn).objs.find? (fun o => o.kind == kind)

/-- Objects of the pool that p picks are freed. -/
def freeObjs (pn : Nat) (p : ObjKind → Bool) (s : State) : State :=
  modPart pn (fun q => { q with objs := q.objs.filter (fun o => !p o.kind) }) s

/-- Objects that p picks take class c. -/
def setClass (pn : Nat) (p : ObjKind → Bool) (c : ObjClass) (s : State) : State :=
  modPart pn (fun q => { q with objs := q.objs.map (fun o => if p o.kind then { o with cls := c } else o) }) s

/-- The job of a KV object of home chip home: of its sequence, or of the model context whose sequence was published. -/
def kvOfJob (s : State) (job home q : Nat) : Bool :=
  if home = ownLoc s then (mgetD s.srv.seqs q {}).job == job
  else s.srv.pubs.any (fun x => x.src == home && x.seq % 65536 == q && x.mc == (mgetD s.srv.jobs job {}).mc)

/-- KV objects of a job on this chip that are PINNED, in frames. -/
def pinnedKv (s : State) (p : Part) (job : Nat) : Nat :=
  objFrames (p.objs.filter (fun o => o.cls == .pinned &&
    (match o.kind with | .kv home q _ _ => kvOfJob s job home q | _ => false)))

/-- This chip serves a head group of the geometry (R213). -/
def isHead (s : State) (g : KvGeom) : Bool := (g.headChips.take g.headGroups).contains s.id.slot

/-- COMMITTED of partition pn: frames that accepted LC requests may still allocate there, and what the
KV grants of its jobs still promise where this chip is a head chip of theirs (R197, R213). -/
def committedOf (s : State) (pn : Nat) : Nat :=
  sumOf (fun e => if e.2.h.cls = 0 ∧ e.2.st ≠ .detected ∧ (ctxOf s e.2.h.ctx).part = pn then e.2.framesHome else 0) s.srv.reqs
  + sumOf (fun e => if e.2.present && e.2.part == pn then
      (match e.2.kv with | some g => if isHead s g then g.kvGrant - pinnedKv s (partOf s pn) e.1 else 0 | none => 0) else 0) s.srv.jobs

/-- The age of an object: the smallest of its frames (R195). -/
def ageOf (s : State) (o : PoolObj) : Nat :=
  match o.frames with
  | [] => 0
  | f :: l => l.foldl (fun a g => min a (mgetD s.mem.ages g 0)) (mgetD s.mem.ages f 0)

/-- The CACHED object that eviction chooses next: the highest age, then the earliest allocated (R196). -/
def evictChoice (s : State) (l : List PoolObj) : Option PoolObj :=
  l.foldl (fun best o => match best with
    | none => if o.cls == .cached then some o else none
    | some b => if o.cls == .cached && (decide (ageOf s b < ageOf s o) || (ageOf s o == ageOf s b && decide (o.id < b.id)))
        then some o else some b)
    none

/-! ## The Cabinet (R191, R192) -/

/-- Channel n: channels 60 to 63 belong to firmware with a reserve of 64 drawers (R186). -/
def chanOf (s : State) (n : Nat) : Chan := mgetD s.mem.chans n (if 60 ≤ n then { cls := 3, reserve := 64 } else {})

/-- Channel n changed by f. -/
def modChan (n : Nat) (f : Chan → Chan) (s : State) : State :=
  { s with mem := { s.mem with chans := mset s.mem.chans n (f (chanOf s n)) } }

/-- Sum of every reserve (R191). -/
def sumReserves (s : State) : Nat := s.mem.hiRsv + sumOf (fun n => (chanOf s n).reserve) (List.range 64)

/-- Free shared drawers (R192). -/
def sharedFree (s : State) : Nat :=
  8192 - sumReserves s - (sumOf (fun n => (chanOf s n).held - (chanOf s n).reserve) (List.range 64) + (s.mem.hiHeld - s.mem.hiRsv))

/-- A consumer that holds held drawers with this reserve may take one now (R192). -/
def mayTake (s : State) (held reserve : Nat) : Bool :=
  decide (held < reserve) || (decide (0 < sharedFree s) && decide (held + 1 ≤ reserve + 512))

/-- The host interface takes a drawer if it may; the Bool says whether it did. -/
def takeHiDrawer (s : State) : Bool × State :=
  if mayTake s s.mem.hiHeld s.mem.hiRsv then (true, { s with mem := { s.mem with hiHeld := s.mem.hiHeld + 1 } })
  else (false, s)

/-- The host interface gives a drawer back. -/
def dropHiDrawer (s : State) : State := { s with mem := { s.mem with hiHeld := s.mem.hiHeld - 1 } }

/-- Channel n takes a drawer for its next piece if it has work and may, and waits in turn otherwise, counted as
a Cabinet wait (Table 18.2). -/
def pumpChan (n : Nat) (s : State) : State :=
  let c := chanOf s n
  let inFlight := c.held
  if c.queue.length ≤ inFlight && inFlight != 0 then s
  else if c.queue.isEmpty then s
  else if s.mem.waiters.contains n then s
  else if mayTake s c.held c.reserve then modChan n (fun c => { c with held := c.held + 1 }) s
  else countGlobal 66 1 { s with mem := { s.mem with waiters := s.mem.waiters ++ [n] } }

/-- Waiting consumer n (64 the host interface) may take a drawer now. -/
def waiterMay (s : State) (n : Nat) : Bool :=
  if n = 64 then mayTake s s.mem.hiHeld s.mem.hiRsv else mayTake s (chanOf s n).held (chanOf s n).reserve

/-- The first waiting consumer that may now take a drawer takes it (R192). -/
def serveWaiter (s : State) : State :=
  match s.mem.waiters.find? (waiterMay s) with
  | none => s
  | some n =>
    let s' := { s with mem := { s.mem with waiters := s.mem.waiters.filter (· != n) } }
    if n = 64 then (takeHiDrawer s').2 else modChan n (fun c => { c with held := c.held + 1 }) s'

/-! ## Address translation (R24, R205, R209, R210) -/

/-- What a translation answers. -/
inductive Walk where
  | addr (bpa : Nat) (lmode : Nat) | fault | recompute
  deriving DecidableEq, Repr

/-- An address whose chip field names this chip is backed by device memory (R26). -/
def backed (s : State) (bpa : Nat) : Bool := decide (bpa % 2 ^ 41 < memChunks s * 2097152)

/-- What every valid entry of a table shows (R210): V set, no reserved bit, and W set for a write. -/
def entryOk (write : Bool) (w : Nat) : Bool :=
  bit w 63 && bits w 55 44 == 0 && bits w 7 0 == 0 && (bit w 60 || !write)

/-- An entry points to a table of the next level, aligned to 2 MiB at level 1 and to 256 bytes at level 2 (R210). -/
def tableEntryOk (level : Nat) (write : Bool) (w : Nat) : Bool :=
  entryOk write w && bits w 62 61 == 0 && bits w 57 56 == 0 && (level != 1 || bits w 20 8 == 0)

/-- An entry maps a page of 2 MiB (big) or 64 KiB, its ADDR aligned (R210). -/
def leafOk (big write : Bool) (w : Nat) : Bool :=
  entryOk write w && bits w 62 61 == (if big then 1 else 2) && (if big then bits w 20 8 == 0 else bits w 15 8 == 0)

/-- The word of an entry of a context's tables; an entry that the state does not list is zero. -/
def entryAt (s : State) (c level vpn : Nat) : Nat :=
  match s.mem.leaves.find? (fun l => l.ctx == c && l.level == level && l.vpn == vpn) with
  | some l => l.word.toNat
  | none => 0

/-- The end of a walk at an entry that maps a page: a local mapping whose line-mode copy disagrees with the chunk's entry is a
translation fault (R184), and so is one that resolves to an unbacked address (R26). -/
def leafWalk (s : State) (big write : Bool) (w off : Nat) : Walk :=
  if !bit w 63 && bit w 58 then .recompute
  else if !leafOk big write w then .fault
  else
    let bpa := bits w 43 8 * 256 + off
    if !backed s bpa then .fault
    else if bpa / 2 ^ 41 = s.id.slot ∧ lmodeOf s (bpa % 2 ^ 41 / 2097152) ≠ bits w 57 56 then .fault
    else .addr bpa (bits w 57 56)

/-- The DATU's walk for a DVA of a context (R24, R210): level 1, level 2, and level 3 where level 2 names a table. -/
def translate (s : State) (c dva : Nat) (write : Bool) : Walk :=
  if 2 ^ 57 ≤ dva then .fault
  else if !tableEntryOk 1 write (entryAt s c 1 (dva / 2 ^ 39)) then .fault
  else
    let w := entryAt s c 2 (dva / 2 ^ 21)
    if bits w 62 61 = 0 ∧ bit w 63 then
      (if !tableEntryOk 2 write w then .fault else leafWalk s false write (entryAt s c 3 (dva / 65536)) (dva % 65536))
    else leafWalk s true write w (dva % 2097152)

/-- The entry that maps a DVA: its level and number. -/
def leafKey (s : State) (c dva : Nat) : Nat × Nat :=
  let w := entryAt s c 2 (dva / 2 ^ 21)
  if bits w 62 61 = 0 ∧ bit w 63 then (3, dva / 65536) else (2, dva / 2 ^ 21)

/-- The chip-local address at which an entry of a table stands, below the table that the entry above it names (R209). -/
def entrySpot (s : State) (l : Leaf) : Option Nat :=
  if l.level = 3 then some (bits (entryAt s l.ctx 2 (l.vpn / 32)) 40 8 * 256 + l.vpn % 32 * 8)
  else if l.level = 2 then some (bits (entryAt s l.ctx 1 (l.vpn / 2 ^ 18)) 40 8 * 256 + l.vpn % 2 ^ 18 * 8)
  else none

/-- The table entry at a chip-local address. -/
def entryHere (s : State) (a : Nat) : Option Leaf := s.mem.leaves.find? (fun l => entrySpot s l == some a)

/-- A word is ORed into a table entry. -/
def orEntry (l : Leaf) (v : Dword) (s : State) : State :=
  { s with mem := { s.mem with leaves := s.mem.leaves.map (fun x =>
      if x.ctx == l.ctx && x.level == l.level && x.vpn == l.vpn then { x with word := x.word ||| v } else x) } }

/-- The access bit of the mapping is set on use (Table 9.2). -/
def touchLeaf (c dva : Nat) (s : State) : State :=
  let k := leafKey s c dva
  { s with mem := { s.mem with leaves := s.mem.leaves.map (fun l =>
      if l.ctx == c && l.level == k.1 && l.vpn == k.2 then { l with word := l.word ||| (1 <<< 59) } else l) } }

/-- The word of a leaf entry that maps a 64 KiB frame. -/
def leafWord (slot frame lmode : Nat) (w : Bool) : Dword :=
  BitVec.ofNat 64 (2 ^ 63 + 2 * 2 ^ 61 + bnat w * 2 ^ 60 + lmode * 2 ^ 56 + (slot * 2 ^ 41 + frame * 65536))

/-- The word of an entry that points to the table of the next level for a span of a context. -/
def tableWord (s : State) (c level vpn : Nat) : Dword :=
  let x := Config.tableBpa (level + 1) c vpn
  let a := if level = 1 then x % memChunks s * 2097152 else x % (memChunks s * 8192) * 256
  BitVec.ofNat 64 (2 ^ 63 + 2 ^ 60 + (s.id.slot * 2 ^ 41 + a))

/-- An entry of a table is set. -/
def setEntry (c level vpn : Nat) (word : Dword) (s : State) : State :=
  { s with mem := { s.mem with
      leaves := s.mem.leaves.filter (fun l => !(l.ctx == c && l.level == level && l.vpn == vpn))
        ++ [{ ctx := c, level := level, vpn := vpn, word := word }] } }

/-- An entry that points to a table exists. -/
def needTable (c level vpn : Nat) (s : State) : State :=
  if bit (entryAt s c level vpn) 63 then s else setEntry c level vpn (tableWord s c level vpn) s

/-- The leaf of a DVA page of 64 KiB is set, and the tables above it are there. -/
def setLeaf (c vpn : Nat) (word : Dword) (s : State) : State :=
  setEntry c 3 vpn word (needTable c 2 (vpn / 32) (needTable c 1 (vpn / 2 ^ 23) s))

/-- The context number under which this head chip keeps the translations that it has cached of another home chip's context
(R212). -/
def headCtx (home c : Nat) : Nat := (home + 1) * 1024 + c

/-- A context or a job of context c may reach a chunk of this chip (Table 8.4): read says which access. -/
def mayReach (s : State) (c : Nat) (chunk : Nat) (write : Bool) : Bool :=
  match chunkKind s chunk with
  | 3 => chunkOwner s chunk == (partOf s (ctxOf s c).part).tag
  | 2 => !write && s.srv.jobs.any (fun j => j.2.present && j.2.ctx == c && j.2.mc == chunkOwner s chunk)
  | _ => false

/-! ## Data of device memory -/

/-- n bytes of device memory from chip-local address a. -/
def readDram (s : State) (a n : Nat) : List Byte := creads s.mem.dram a n

/-- A line is poisoned, by itself or with its frame. -/
def linePoisoned (s : State) (line : Nat) : Bool :=
  s.mem.poisonLines.contains line || s.mem.poisonFrames.contains (line / 2048)

/-- Bytes written into device memory: a line wholly written loses its poison, and older writes that still wait for its restoration come
to nothing where these bytes cover them (R99). -/
def writeDram (a : Nat) (l : List Byte) (s : State) : State :=
  { s with mem := { s.mem with
      dram := cwrites s.mem.dram a l
      heldWrites := s.mem.heldWrites.filter (fun w => !(decide (a ≤ w.1) && decide (w.1 < a + l.length)))
      poisonLines := s.mem.poisonLines.filter (fun n => !(decide (a ≤ 32 * n) && decide (32 * n + 32 ≤ a + l.length))) } }

/-- A data access to device memory is counted: controller, context and filters (Tables 18.1 and 18.2). -/
def countDram (write : Bool) (a n c job layer op : Nat) (s : State) : State :=
  countGlobal ((subchannelOf s a) / 24 + if write then 16 else 0) n
    (activity c (if write then .lpddrWr else .lpddrRd) job layer op n s)

end Sys2Proof.Machine
end

