-- ==== Sys2Proof/Machine/Route.lean ====
section
/-! DEFINITION. Xaene as a sender of packets: routes and the choice of a switch (R341 to R343), credits, the
weighted round robin of the virtual channels and the replay buffer (R334 to R337). -/
namespace Sys2Proof.Machine

/-- KX hash (R152): 64-bit values, a product keeps its low 64 bits. -/
def kxHash (u seed : Nat) : Nat :=
  let x := u ^^^ seed
  let x := x ^^^ (x / 2 ^ 31)
  let x := x * 0xB5A73C19E64D2F07 % 2 ^ 64
  x ^^^ (x / 2 ^ 32)

/-- LOCATION of the chip of this board with a SLOT_ID. -/
def boardLoc (s : State) (slot : Nat) : Nat := ownLoc s / 8 * 8 + slot

/-! ## Ports and routes -/

/-- Port n. -/
def portOf (s : State) (n : Nat) : Port := mgetD s.xn.ports n {}

/-! ## What sent a packet (R316) -/

/-- Plate n, or a FREE one. -/
def plateOf (s : State) (n : Nat) : Plate := mgetD s.fab.plates n {}

/-- The request is latency-critical. -/
def isLc (r : Request) : Bool := r.h.cls == 0

/-- The earliest deadline that the step on plate p serves, for what it posts (R316). -/
def stepDeadline (s : State) (p : Nat) : Nat :=
  match (plateOf s p).running with
  | none => 0
  | some r =>
    match (r.work.filterMap (fun w => mget s.srv.reqs w.1)).filter isLc with
    | [] => 0
    | d :: l => l.foldl (fun m x => min m x.h.deadline) d.h.deadline

/-- The layer that the step on plate p computes (R422). -/
def stepLayer (s : State) (p : Nat) : Nat := match (plateOf s p).running with | some r => r.layer | none => 0xFFFF

/-- Port n changed by f. -/
def modPort (n : Nat) (f : Port → Port) (s : State) : State :=
  { s with xn := { s.xn with ports := mupd s.xn.ports n {} f } }

/-- The port carries traffic. -/
def portUp (s : State) (n : Nat) : Bool := (portOf s n).st == 2

/-- The mesh port to the chip of another SLOT_ID of this board (Table 14.1). -/
def meshPort (s : State) (slot : Nat) : Nat := (slot + 7 - s.id.slot) % 8

/-- Switch indices usable for a destination (R342, R343). -/
def usable (s : State) (dst : Nat) : List Nat :=
  (List.range 8).filter (fun i => portUp s (7 + i) && !s.xn.unreach.contains (i * 128 + dst))

/-- Weight of a switch by the width of the port to it. -/
def switchWeight (s : State) (i : Nat) : Nat := if (portOf s (7 + i)).width = 2 then 2 else 1

/-- The switch at a pick among weighted ones. -/
def pickSwitch (s : State) : List Nat → Nat → Option Nat
  | [], _ => none
  | i :: l, p => if p < switchWeight s i then some i else pickSwitch s l (p - switchWeight s i)

/-- The switch for a packet (R343). -/
def chooseSwitch (s : State) (dst vc flow : Nat) : Option Nat :=
  let us := usable s dst
  let h := kxHash (ownLoc s + dst * 2 ^ 8 + vc * 2 ^ 16 + flow * 2 ^ 20) 0x5841454E50415448
  pickSwitch s us (h / 2 ^ 32 * sumOf (switchWeight s) us / 2 ^ 32)

/-- The port by which a packet leaves (Table 14.6); none where the destination is unrouted. -/
def routePort (s : State) (dst vc flow : Nat) : Option Nat :=
  if dst / 8 = ownLoc s / 8 ∧ portUp s (meshPort s (dst % 8)) then some (meshPort s (dst % 8))
  else (chooseSwitch s dst vc flow).map (fun i => 7 + i)

/-- The destination is this chip or has a usable route. -/
def routed (s : State) (dst : Nat) : Bool :=
  dst == ownLoc s || (dst / 8 == ownLoc s / 8 && portUp s (meshPort s (dst % 8))) || !(usable s dst).isEmpty

/-! ## Sizes and flows -/

/-- Payload bytes of an EXU record. -/
def exuBytes (r : ExuRec) : Nat := 32 + 4 * r.row.length + 8 * r.ids.length + r.bytes.length

/-- Payload bytes of a message. Control messages count 32 (log entry 16). -/
def payloadBytes : XnMsg → Nat
  | .exu _ r => exuBytes r
  | .read _ => 0
  | .write p => p.payload.length
  | .atomic p => p.payload.length
  | .resp p => p.payload.length
  | .coll _ p => p.data.length + p.marks.length + 8 * p.values.length
  | _ => 32

/-- The packets of a message, each by its bytes (R339): a 32-byte header and at most 4,096 bytes of payload. -/
def packetSizes (m : XnMsg) : List Nat :=
  let n := payloadBytes m
  (List.range (max 1 (ceilDiv n 4096))).map (fun k => 32 + min 4096 (n - 4096 * k))

/-- Bytes of the packets of a message. -/
def msgBytes (m : XnMsg) : Nat := (packetSizes m).sum

/-- Flow label of a message (Table 14.7). -/
def msgFlow : XnMsg → Nat
  | .exu _ r => 0x100 + r.exchange % 256
  | .read p => p.flow
  | .write p => p.flow
  | .atomic p => p.flow
  | .resp p => p.flow
  | .coll _ p => p.flow
  | .join p => p.flow
  | .abandon g => 0x200 + g
  | .fault g => 0x200 + g
  | _ => 0x400

/-- The message is a response packet. -/
def isResp : XnMsg → Bool
  | .resp _ => true
  | _ => false

/-- The plate whose step sent an EXU record of this chip's own exchange; 64 where the record answers another chip's. -/
def exuPlate (s : State) (r : ExuRec) : Nat :=
  match s.exu.home.find? (fun e => e.mc == r.modelCtx && e.layer == r.layer && e.exchange == r.exchange) with
  | some e => e.plate
  | none =>
    match s.exu.bags.find? (fun b => b.mc == r.modelCtx && b.table == r.layer && b.exchange == r.exchange) with
    | some b => b.plate
    | none => 64

/-- LAYER and OPERATOR of an EXU record's activity (R422): the layer of an expert exchange; what a step's gather works for; the tags of
the host command that an embedding record or a request's gather serves; nothing but the wildcard for work of another chip's tables. -/
def exuTags (s : State) (ty : ExuType) (r : ExuRec) : Nat × Nat :=
  let layer := (r.layer, 0xFFFF)
  let table :=
    match s.exu.bags.find? (fun b => b.mc == r.modelCtx && b.table == r.layer && b.exchange == r.exchange) with
    | some b =>
      match b.req.bind (fun k => mget s.srv.reqs k) with
      | some q => (q.h.layerTag, q.h.opTag)
      | none => (stepLayer s b.plate, 0xFFFF)
    | none =>
      match s.mdl.embCmds.find? (fun c => c.mc == r.modelCtx && c.table == r.layer && c.exchange == r.exchange) with
      | some c => (c.layerTag, c.opTag)
      | none => (0xFFFF, 0xFFFF)
  match ty with
  | .dispatch => layer
  | .ret => layer
  | .close => if r.gather then table else layer
  | _ => table

/-- The deadline of the request or step that issued a message (R316): that of a tile at the head of its channel, else the earliest of
the step that sent it; where there is none, later than every deadline. -/
def msgDue (s : State) (m : XnMsg) : Nat :=
  let f := msgFlow m
  let d :=
    if f < 0x40 then ((chanOf s f).queue.head?.map (·.deadline)).getD 0
    else if 0x200 ≤ f ∧ f < 0x300 then
      (((mget s.coll.groups (f - 0x200)).bind (·.opsPending.head?)).map (fun o => stepDeadline s o.plate)).getD 0
    else if 0x300 ≤ f ∧ f < 0x340 then stepDeadline s (f - 0x300)
    else match m with
      | .exu _ r => stepDeadline s (exuPlate s r)
      | _ => 0
  if d = 0 then 2 ^ 64 else d

/-! ## Credits and the arbiter -/

/-- Key of a credit count: a VC's own pool, or its response pool. -/
def creditKey (vc : Nat) (resp : Bool) : Nat := if resp then 8 + vc else vc

/-- Credits that a receiver grants when a port comes up (Table 14.3). -/
def fullCredits : NMap Nat :=
  [(0, 48), (1, 496), (2, 496), (3, 240), (4, 240), (5, 48), (8, 16), (9, 16), (10, 16), (11, 16), (12, 16), (13, 16)]

/-- Weight of a VC (Table 14.14). -/
def vcWeight (s : State) (vc : Nat) : Nat :=
  if vc = 1 then s.xn.w1 else if vc = 2 then s.xn.w2 else if vc = 3 then s.xn.w3 else if vc = 4 then s.xn.w4 else s.xn.w5

/-- The packet may start: credits for every flit, room in the replay buffer, for TAG flits too on an encrypted port. A request may use
the VC's own pool only; a response uses the response pool where the own pool does not suffice. -/
def mayStart (p : Port) (w : WaitPkt) : Bool :=
  decide (p.txBuf.length + w.flits + (if p.enc then w.flits / 15 + 2 else 0) ≤ 2048)
    && (decide (w.flits ≤ mgetD p.credits (creditKey w.vc false) 0)
      || (w.resp && decide (w.flits ≤ mgetD p.credits (creditKey w.vc true) 0)))

/-- The first waiting packet of a VC (R316): LC before BE, the earliest deadline first among LC, the oldest among BE. -/
def headOf (p : Port) (vc : Nat) : Option WaitPkt :=
  let q := p.waitq.filter (fun w => w.vc == vc)
  match q.filter (·.lc) with
  | [] => q.head?
  | w :: l => some (l.foldl (fun m x => if x.due < m.due then x else m) w)

/-- A flit leaves port n: it carries in ACK the highest SEQ received in order, and in CREDIT the flits that it returns (Table 14.2). -/
def putFlit (n kind q vc : Nat) (resp : Bool) (k : Nat) (s : State) : State :=
  emit (.linkSend n kind q (((portOf s n).rxNext + 4095) % 4096) vc resp k) (countGlobal (32 + n) 256 s)

/-- A flit of port n takes its place in the block of an encrypted port (R355). One without a number of its own carries the next
number (log entry 188). -/
def newFlit (n kind vc : Nat) (resp : Bool) (k : Nat) (s : State) : State :=
  let q := (portOf s n).txSeq
  let s := modPort n (fun p => { p with blockCtr := p.blockCtr + 1 }) s
  let s := if kind = 0 ∨ kind = 3 then modPort n (fun p => { p with txBuf := p.txBuf ++ [(q, kind)], txSeq := (q + 1) % 4096 }) s else s
  putFlit n kind q vc resp k s

/-- After fifteen flits an encrypted port sends the TAG of the block (R355). -/
def closeBlock (n : Nat) (s : State) : State :=
  let p := portOf s n
  if p.enc && p.blockCtr % 16 == 15 then newFlit n 3 0 false 0 s else s

/-- The flits of a packet take sequence numbers. -/
def sendFlits (n : Nat) : Nat → State → State
  | 0, s => s
  | k + 1, s => sendFlits n k (closeBlock n (newFlit n 0 0 false 0 s))

/-- IDLE flits fill a block when traffic stops (R355). -/
def fillBlock (n : Nat) : Nat → State → State
  | 0, s => s
  | k + 1, s =>
    let p := portOf s n
    if p.st == 2 && p.enc && p.blockCtr % 16 != 0 then fillBlock n k (closeBlock n (newFlit n 1 0 false 0 s)) else s

/-- The buffer of flits that were taken in order is free again: IDLE flits return their credits (R335, log entry 188). -/
def returnCredits (n : Nat) (l : List (Nat × Bool)) (s : State) : State :=
  forEach (fun e s => closeBlock n (newFlit n 1 e.1 e.2 1 s)) l s

/-- A waiting packet of port n is sent; the last of a message hands the message on. -/
def startPkt (n : Nat) (w : WaitPkt) (s : State) : State :=
  let p := portOf s n
  let own := w.flits ≤ mgetD p.credits (creditKey w.vc false) 0
  let k := creditKey w.vc (!decide own)
  let s := modPort n (fun p => { p with
    waitq := p.waitq.erase w
    credits := mset p.credits k (mgetD p.credits k 0 - w.flits) }) s
  sendFlits n w.flits (if w.more then s else emit (.xn w.dst w.vc w.msg) s)

/-- The packet that port n serves next: VC0 first, then VC1 and VC2 where R353 puts them ahead, then the VC in turn while its
weight lasts. -/
def servePort (n : Nat) : Nat → State → State
  | 0, s => s
  | fuel + 1, s =>
    let p := portOf s n
    if p.st != 2 || p.waitq.isEmpty then s
    else
      match (headOf p 0).filter (mayStart p) with
      | some w => servePort n fuel (startPkt n w s)
      | none =>
        let next := fun s => modPort n (fun p =>
          let v := if 5 ≤ p.rrVc then 1 else p.rrVc + 1
          { p with rrVc := v, rrLeft := vcWeight s v }) s
        let first := if s.xn.lcFirst then ((headOf p 1).filter (mayStart p)) <|> ((headOf p 2).filter (mayStart p)) else none
        match first with
        | some w => servePort n fuel (startPkt n w s)
        | none => match headOf p p.rrVc with
          | some w =>
            if mayStart p w && p.rrLeft != 0 then
              servePort n fuel (modPort n (fun p => { p with rrLeft := p.rrLeft - w.flits }) (startPkt n w s))
            else servePort n fuel (next s)
          | none => servePort n fuel (next s)

/-- Every packet that port n may now start is started; then traffic stops. -/
def pumpPort (n : Nat) (s : State) : State :=
  fillBlock n 16 (servePort n (8 * (portOf s n).waitq.length + 8) s)

/-- The packets of a message as they wait at a port, MORE set on every one but the last. -/
def packetsOf (dst vc : Nat) (lc : Bool) (due : Nat) (m : XnMsg) : List WaitPkt :=
  let l := packetSizes m
  ((List.range l.length).zip l).map (fun e => {
    more := decide (e.1 + 1 < l.length), vc := vc, resp := isResp m, lc := lc, due := due, flits := ceilDiv e.2 244, dst := dst, msg := m })

/-- Packets join the queue of a port. -/
def joinPort (n : Nat) (ws : List WaitPkt) (s : State) : State := pumpPort n (modPort n (fun p => { p with waitq := p.waitq ++ ws }) s)

/-- A message with a deadline joins the queue of a port. -/
def sendBy (n dst vc : Nat) (lc : Bool) (due : Nat) (m : XnMsg) (s : State) : State := joinPort n (packetsOf dst vc lc due m) s

/-- A message is sent to a chip; to this chip itself it takes no link; to an unrouted one nothing goes out. -/
def sendXn (dst vc : Nat) (lc : Bool) (m : XnMsg) (s : State) : State :=
  if dst = ownLoc s then emit (.xn dst vc m) s
  else
    match routePort s dst vc (msgFlow m) with
    | none => s
    | some n => sendBy n dst vc lc (msgDue s m) m s

/-- A request is sent again, on another usable switch than before where one exists (R349). -/
def resendXn (old dst vc : Nat) (lc : Bool) (m : XnMsg) (s : State) : State :=
  match (usable s dst).find? (fun i => 7 + i != old) with
  | some i => if old < 7 ∧ portUp s old then sendXn dst vc lc m s else sendBy (7 + i) dst vc lc (msgDue s m) m s
  | none => sendXn dst vc lc m s

/-- A message of a job's work is sent and counted against its context (R420). -/
def sendWork (c job layer op dst vc : Nat) (lc : Bool) (m : XnMsg) (s : State) : State :=
  sendXn dst vc lc m (if dst = ownLoc s then s else activity c .xnTx job layer op (msgBytes m) s)

/-- A record of an exchange leaves: it is counted under its tags. -/
def sendExuWork (c job dst : Nat) (ty : ExuType) (r : ExuRec) (s : State) : State :=
  sendWork c job (exuTags s ty r).1 (exuTags s ty r).2 dst 2 r.lc (.exu ty r) s

/-! ## The order of a flow (R345) -/

/-- A packet of the flow to a chip that left by another port is still unanswered, or others wait for that already: new packets
of the flow wait too. -/
def flowMoves (s : State) (dst flow port : Nat) : Bool :=
  s.xn.remotes.any (fun r => r.pkt.dst == dst && r.pkt.flow == flow && (r.held || (!r.restoring && r.port != port)))
    || s.xn.exuOut.any (fun r => r.hop == dst && msgFlow (.exu r.ty r.pkt) == flow && (r.held || r.port != port))
    || s.xn.collOut.any (fun r => r.dst == dst && r.pkt.flow == flow && (r.held || r.port != port))

/-! ## Legs of an EXU record (R157) -/

/-- The next chip on a record's way to dst: dst itself on this board, else the relay, the chip of its board whose SLOT_ID is this
chip's. -/
def exuHop (s : State) (dst : Nat) : Nat := if dst / 8 = ownLoc s / 8 then dst else dst / 8 * 8 + s.id.slot

/-- A record leaves for its destination, counted for a context and a job; to this chip itself it takes no link (log entry 17).
Where no route leads there nothing goes out: who sends looks first. -/
def sendLeg (c job : Nat) (ty : ExuType) (r : ExuRec) (s : State) : State :=
  let hop := exuHop s r.dst
  if hop = ownLoc s then sendXn hop 2 r.lc (.exu ty { r with leg := ownLoc s }) s
  else
    let flow := msgFlow (.exu ty r)
    match routePort s hop 2 flow with
    | none => s
    | some n =>
      let k := hop * 65536 + flow
      let q := mgetD s.xn.nextFseq k 0
      let r := { r with leg := ownLoc s, fseq := q, resend := false }
      let o : ExuOut := { ty := ty, pkt := r, hop := hop, job := job, sentAt := s.time, port := n, held := flowMoves s hop flow n }
      let s := { s with xn := { s.xn with nextFseq := mset s.xn.nextFseq k ((q + 1) % 65536), exuOut := s.xn.exuOut ++ [o] } }
      if o.held then s else sendExuWork c job hop ty r s

/-- A GONE goes to the home chip of a record (R161). -/
def sendGone (r : ExuRec) (s : State) : State :=
  sendLeg 0 0 .gone { r with src := ownLoc s, dst := r.home, toHome := true, gen := 0, row := [], ids := [], bytes := [], chosen := [] } s

end Sys2Proof.Machine
end

