-- ==== Sys2Proof/Machine/Serve.lean ====
section
/-! DEFINITION. The serving engine's shared operations: jobs and what they occupy, epochs and references to
them, frames of objects and their eviction, the prompt tree, the end of a sequence, output records, and the
end of a request (chapters 9 to 13). -/
namespace Sys2Proof.Machine

/-! ## Jobs and plates -/

/-- Job index of a job ID (R306). -/
def jobIdx (id : Nat) : Nat := id % 16

/-- Job entry of an index, or an absent one. -/
def jobAt (s : State) (i : Nat) : Job := mgetD s.srv.jobs i {}

/-- The job entry i changed by f. -/
def modJob (i : Nat) (f : Job → Job) (s : State) : State :=
  { s with srv := { s.srv with jobs := mmod s.srv.jobs i f } }

/-- The ID names a live job: its index holds one of that generation, admitted (R306, R486). -/
def jobLive (s : State) (id : Nat) : Bool :=
  let j := jobAt s (jobIdx id)
  j.present && !j.pendingAdmit && j.id == id

/-- Plate n changed by f. -/
def modPlate (n : Nat) (f : Plate → Plate) (s : State) : State :=
  { s with fab := { s.fab with plates := mmod s.fab.plates n f } }

/-- Plates of a job that are RESIDENT or DRAINING. -/
def jobPlates (s : State) (i : Nat) : List (Nat × Plate) :=
  s.fab.plates.filter (fun p => p.2.job == i && decide (2 ≤ p.2.state))

/-- The distinct islands that a job's resident plates occupy: F_occ of R319. -/
def jobIslands (s : State) (i : Nat) : List Nat :=
  dedup' ((jobPlates s i).flatMap (fun p => p.2.isls.map (·.isl)))

/-- Opcode number of a request. -/
def reqOpcode : ReqOp → Nat
  | .generate => 1 | .score => 2 | .embed => 3

/-- The plate serves the opcode: its cost table has an entry for it (R67). -/
def servesOp (p : Plate) (op : Nat) : Bool := p.image.costs.any (fun c => c.opcode == op)

/-- Sums of the four coefficients over the matching entries of a job's resident plates (R67). -/
def costSum (s : State) (i op : Nat) (pick : CostEntry → Nat × Nat × Nat × Nat) : Nat × Nat × Nat × Nat :=
  let es := (jobPlates s i).flatMap (fun p => p.2.image.costs.filter (fun c => c.opcode == op))
  (sumOf (fun e => (pick e).1) es, sumOf (fun e => (pick e).2.1) es,
   sumOf (fun e => (pick e).2.2.1) es, sumOf (fun e => (pick e).2.2.2) es)

/-- A + B·n_in + C·n_out + D·n_ctx (R318). -/
def priceOf (c : Nat × Nat × Nat × Nat) (nIn nOut nCtx : Nat) : Nat :=
  c.1 + c.2.1 * nIn + c.2.2.1 * nOut + c.2.2.2 * nCtx

/-- WIDEN of a reservation in 1/1,000: 0xFFFF selects 125 (Table 13.1). -/
def widenOf (r : Reservation) : Nat := if r.widen = 0xFFFF then 125 else r.widen

/-! ## Requests and sequences -/

/-- Request k changed by f. -/
def modReq (k : Nat) (f : Request → Request) (s : State) : State :=
  { s with srv := { s.srv with reqs := mmod s.srv.reqs k f } }

/-- Sequence-table entry i: a FREE entry of generation 1 until it is used (R250). -/
def seqOf (s : State) (i : Nat) : Seq := mgetD s.srv.seqs i {}

/-- Entry i changed by f. -/
def modSeq (i : Nat) (f : Seq → Seq) (s : State) : State :=
  { s with srv := { s.srv with seqs := mmod s.srv.seqs i f } }

/-- Handle of entry i (R250). -/
def seqHandle (s : State) (i : Nat) : Nat := (seqOf s i).gen * 65536 + i

/-- The first index from i up that the test admits. -/
def firstFrom (ok : Nat → Bool) : Nat → Nat → Option Nat
  | 0, _ => none
  | n + 1, i => if ok i then some i else firstFrom ok n (i + 1)

/-- The lowest FREE entry of the 65,536, if any. -/
def freeSeq (s : State) : Option Nat :=
  match firstFrom (fun i => (seqOf s i).st == 0) (s.srv.seqs.length + 1) 0 with
  | some i => if i < 65536 then some i else none
  | none => none

/-- The next generation of a 16-bit counter that skips zero. -/
def nextGen16 (g : Nat) : Nat := if g = 0xFFFF then 1 else g + 1

/-! ## Epochs (R244, R247) -/

/-- Model context mc, if the chip holds it. -/
def modelOf (s : State) (mc : Nat) : Option Model := mget s.mdl.ctxs mc

/-- Model context mc changed by f. -/
def modModel (mc : Nat) (f : Model → Model) (s : State) : State :=
  { s with mdl := { s.mdl with ctxs := mmod s.mdl.ctxs mc f } }

/-- The newest released epoch of a model context on the chip. -/
def newestEpoch (m : Model) : Option Epoch := m.epochs.find? (fun e => !e.superseded)

/-- Epoch n of model context mc changed by f. -/
def modEpoch (mc n : Nat) (f : Epoch → Epoch) (s : State) : State :=
  modModel mc (fun m => { m with epochs := m.epochs.map (fun e => if e.num == n then f e else e) }) s

/-- Epoch n of model context mc, if the chip holds it. -/
def epochOf (s : State) (mc n : Nat) : Option Epoch :=
  match modelOf s mc with
  | some m => m.epochs.find? (fun e => e.num == n)
  | none => none

/-! ## KV geometry (R206, R208, R213) -/

/-- LAYERS_P: the smallest power of two not below LAYERS (R206). -/
def layersP (g : KvGeom) : Nat := if isPow2 g.layers then g.layers else 2 ^ (Nat.log2 g.layers + 1)

/-- T_p: positions of a page (R208). -/
def pagePos (g : KvGeom) : Nat := 16 * (4096 / (g.kBytes + g.vBytes))

/-- Line mode of KV pages: SP_FP8 for FP8 formats, PM for BF16 (R208). -/
def kvMode (g : KvGeom) : Nat := if g.kvFormat = 6 then 0 else 3

/-- MAX_POSITIONS of a job: 2^24 without a KV geometry record (R207). -/
def maxPositions (j : Job) : Nat := match j.kv with | some g => g.maxPositions | none => 2 ^ 24

/-- DVA of page p of layer l of group g of the sequence in entry i (R205, R206). -/
def kvDva (geo : KvGeom) (i g l p : Nat) : Nat :=
  0x0100000000000000 + i * 2 ^ 34 + g * 2 ^ 31 + l * (2 ^ 31 / layersP geo) + p * 65536

/-- Chips of a board other than this one that serve a head group of the geometry (R213). -/
def otherHeads (s : State) (g : KvGeom) : List Nat :=
  dedup' ((g.headChips.take g.headGroups).filter (fun c => c != s.id.slot))

/-- The partition of a context. -/
def ctxPart (s : State) (c : Nat) : Nat := (ctxOf s c).part

/-! ## Mappings and their invalidation (R211) -/

/-- Table entries that f answers none for are removed, the others changed. -/
def editLeaves (f : Leaf → Option Leaf) (s : State) : State :=
  { s with mem := { s.mem with leaves := s.mem.leaves.filterMap f } }

/-- 64 KiB mappings of a context at the DVA pages named are changed by f, or removed where f gives none. -/
def onLeaves (c : Nat) (vpns : List Nat) (f : Leaf → Option Leaf) (s : State) : State :=
  editLeaves (fun l => if l.ctx == c && l.level == 3 && vpns.contains l.vpn then f l else some l) s

/-- The mappings of DVA pages are cleared. -/
def clearLeaves (c : Nat) (vpns : List Nat) (s : State) : State := onLeaves c vpns (fun _ => none) s

/-- The mappings of DVA pages are dropped: V = 0 and RC = 1 (R221). -/
def dropLeaves (c : Nat) (vpns : List Nat) (s : State) : State :=
  onLeaves c vpns (fun l => some { l with word := BitVec.ofNat 64 (2 ^ 58) }) s

/-- Frames, by their BPA frame numbers, are invalidated in this chip's DATUs and in those of the chips named, and are free again
once every one has acknowledged (R211); a sequence-table entry that ends is reused only then (R230). -/
def invalidateFor (seq : Option Nat) (frames chips : List Nat) (s : State) : State :=
  if chips.isEmpty then s
  else
    let s := { s with mem := { s.mem with invals := s.mem.invals ++ frames.map (fun f => { frame := f, waiting := chips, seq := seq }) } }
    forEach (fun f s => forEach (fun c s => sendXn (boardLoc s c) 0 false (.invalidate f) s) chips s) frames s

/-- As invalidateFor, for no entry in particular. -/
def invalidate (frames chips : List Nat) (s : State) : State := invalidateFor none frames chips s

/-- BPA frame numbers of frames of this chip. -/
def ownFrames (s : State) (fs : List Nat) : List Nat := fs.map (bpf s.id.slot)

/-- FREE frames of partition pn that may be given out: those that wait for an acknowledgement are not yet free. -/
def roomOf (s : State) (pn : Nat) : Nat :=
  let p := partOf s pn
  freeFrames s p - ((dying s).filter (fun f => inRuns (f / 32) p.chunks && !p.objs.any (fun o => o.frames.contains f))).length

/-! ## The prompt tree (R259 to R263) -/

/-- A tree page is mapped by some sequence. -/
def pageUsed (s : State) (page : Nat) : Bool :=
  s.srv.seqs.any (fun q => q.2.pages.any (fun k => k.shared == some page)) || s.srv.pubs.any (fun x => x.pages.any (fun k => k.shared == some page))

/-- Nodes of the tree that have lost their parent go too, as often as fuel says. -/
def pruneOrphans : Nat → List Node → List Node
  | 0, t => t
  | fuel + 1, t =>
    let t' := t.filter (fun n => n.depth == 0 || t.any (fun p => p.id == n.parent))
    if t'.length = t.length then t else pruneOrphans fuel t'

/-- Frames that the nodes of the trees of partition pn need (R259). -/
def treeSize (s : State) (pn : Nat) : Nat := ceilDiv (s.srv.tree.filter (fun n => n.part == pn)).length (Config.nodesPerFrame + 1)

/-- Frames of the trees of partition pn that no node needs any more are given back. -/
def trimTree (pn : Nat) (s : State) : State :=
  let n := treeSize s pn
  modPart pn (fun p => { p with objs := p.objs.filterMap (fun o =>
    if o.kind == .treeNodes then (if n = 0 then none else some { o with frames := o.frames.take n }) else some o) }) s

/-- Tree pages of a list that no sequence maps and no node needs any more are freed (R263). -/
def freeLoose (pn : Nat) (pgs : List Nat) (s : State) : State :=
  let gone := (dedup' pgs).filter (fun pg => !s.srv.tree.any (fun n => n.page == pg) && !pageUsed s pg)
  freeObjs pn (fun k => match k with | .pfxPage pg _ => gone.contains pg | _ => false)
    { s with srv := { s.srv with farPages := s.srv.farPages.filter (fun x => !gone.contains x.page) } }

/-- After nodes are removed, their pages and the frames of the tree that nothing needs are freed. -/
def freeTreePages (pn : Nat) (before : List Node) (s : State) : State := trimTree pn (freeLoose pn (before.map (·.page)) s)

/-- The nodes that p picks are removed with every descendant (R263). -/
def removeNodes (pn : Nat) (p : Node → Bool) (s : State) : State :=
  let before := s.srv.tree
  let t := pruneOrphans (before.length + 1) (before.filter (fun n => !(n.part == pn && p n)))
  freeTreePages pn before { s with srv := { s.srv with tree := t } }

/-! ## Frames of objects -/

/-- A step of the sequence is dispatched on some plate. -/
def seqRunning (s : State) (i : Nat) : Bool :=
  let ks := (s.srv.reqs.filter (fun r => r.2.hasSeq && r.2.seq == i)).map (·.1)
  s.fab.plates.any (fun p => match p.2.running with
    | some r => r.work.any (fun w => ks.contains w.1)
    | none => false)

/-- Page p of group g of entry i, if the sequence has it. -/
def pageOf (q : Seq) (g p : Nat) : Option KvPage := q.pages.find? (fun k => k.group == g && k.page == p)

/-- DVA pages of page p of every layer of group g of entry i (R206). -/
def pageVpns (geo : KvGeom) (i g p : Nat) : List Nat := (List.range geo.layers).map (fun l => kvDva geo i g l p / 65536)

/-- The chip (SLOT_ID) that serves a head group (R213). -/
def headOf' (s : State) (geo : KvGeom) (g : Nat) : Nat := geo.headChips.getD g s.id.slot

/-- BPA frame numbers of a page's frames. -/
def pageFrames (s : State) (geo : KvGeom) (k : KvPage) : List Nat := k.frames.map (bpf (headOf' s geo k.group))

/-- A page of entry i goes: its entries are cleared, or dropped where it lies below VALID_LEN and drop asks for it, the mappings
are invalidated in every DATU that may hold them, and its own frames are freed, those of a tree page when nothing else needs it;
block-state words are kept (R211, R221, R228, R263). -/
def losePage (drop : Bool) (i g p : Nat) (s : State) : State :=
  let q := seqOf s i
  match (jobAt s q.job).kv, pageOf q g p with
  | some geo, some k =>
    let drop := drop && decide (p * pagePos geo < q.valid)
    let s := if drop then dropLeaves q.ctx (pageVpns geo i g p) s else clearLeaves q.ctx (pageVpns geo i g p) s
    let s := freeObjs (ctxPart s q.ctx) (fun k => k == .kv (ownLoc s) i g p) s
    let s := modSeq i (fun q => { q with
      pages := if drop then q.pages.map (fun x => if x.group == g && x.page == p then
          { x with dropped := true, shared := none, frames := [] } else x)
        else q.pages.filter (fun x => !(x.group == g && x.page == p)) }) s
    freeLoose (ctxPart s q.ctx) k.shared.toList (invalidate (pageFrames s geo k) (otherHeads s geo) s)
  | _, _ => s

/-! ## Sequences of other home chips (R212, R221) -/

/-- What this head chip keeps of a sequence of another home chip. -/
def pubOf (s : State) (home i : Nat) : Option Pub := s.srv.pubs.find? (fun p => p.src == home && p.seq % 65536 == i)

/-- Published sequence i of a home chip changed by f. -/
def modPub (home i : Nat) (f : Pub → Pub) (s : State) : State :=
  { s with srv := { s.srv with pubs := s.srv.pubs.map (fun p => if p.src == home && p.seq % 65536 == i then f p else p) } }

/-- The job of this chip that serves a published sequence's model context. -/
def pubGeom (s : State) (p : Pub) : Option KvGeom :=
  (s.srv.jobs.filterMap (fun j => if j.2.present && j.2.mc == p.mc then j.2.kv else none)).head?

/-- This head chip asks the home chip for leave to drop a KV object (R221). -/
def askDrop (pn : Nat) (o : PoolObj) (s : State) : State :=
  match o.kind with
  | .kv home i g p =>
    let seq := match pubOf s home i with | some x => x.seq | none => i
    sendXn home 0 false (.dropRequest seq g p)
      (modPart pn (fun q => { q with objs := q.objs.map (fun x => if x.id == o.id then { x with wanted := true } else x) }) s)
  | _ => s

/-- A page of a published sequence goes from this head chip: cached translations and frames (R212, R221). -/
def loseForeign (home i g p : Nat) (s : State) : State :=
  match pubOf s home i with
  | none => s
  | some x =>
    let s := match pubGeom s x with
      | some geo => clearLeaves (headCtx home x.ctx) (pageVpns geo i g p) s
      | none => s
    let pgs := (x.pages.filter (fun k => k.group == g && k.page == p)).filterMap (·.shared)
    forEach (fun pn s => freeLoose pn pgs (freeObjs pn (fun k => k == .kv home i g p) s)) (s.mem.parts.map (·.1))
      (modPub home i (fun x => { x with pages := x.pages.filter (fun k => !(k.group == g && k.page == p)) }) s)

/-- Eviction may choose the object: a KV object whose sequence has no step dispatched (R221), a tree page that
no sequence maps (R263), a staged tile. A KV object whose drop has been asked of its home chip is passed over. -/
def evictable (s : State) (o : PoolObj) : Bool :=
  o.cls == .cached && !o.wanted && (match o.kind with
    | .kv home q _ _ => home != ownLoc s || !seqRunning s q
    | .pfxPage pg _ => !pageUsed s pg
    | _ => true)

/-- Page p of group g of entry i is dropped, or freed at once beyond VALID_LEN (R221, Table 9.3). -/
def dropKv (i g p : Nat) (s : State) : State :=
  let q := seqOf s i
  traceEvent q.ctx 0 0 (jobAt s q.job).id (.kvDrop (seqHandle s i) g p 1) [] (losePage true i g p s)

/-- The object is evicted (R196); a KV object of another home chip only once that chip grants it (R221). -/
def evictObj (pn : Nat) (o : PoolObj) (s : State) : State :=
  match o.kind with
  | .kv home i g p =>
    if home ≠ ownLoc s then askDrop pn o s
    else
      let q := seqOf s i
      let dva := match (jobAt s q.job).kv with | some geo => kvDva geo i g 0 p | none => 0
      dropKv i g p (traceEvent q.ctx 0 0 (jobAt s q.job).id (.evict 2 o.frames.length dva) [] s)
  | .pfxPage pg _ => removeNodes pn (fun n => n.page == pg) s
  | .stagedTile c dva =>
    let s := clearLeaves c [dva / 65536] (freeObjs pn (fun k => k == o.kind) s)
    countPage c 23 1 (eventRec c 1 o.frames.length dva (traceEvent c 0 0 0 (.evict 2 o.frames.length dva) [] s))
  | _ => s

/-- CACHED objects are evicted, highest age first, until target frames are free or none may be chosen (R196). -/
def evictUntil (pn target : Nat) : Nat → State → State
  | 0, s => s
  | fuel + 1, s =>
    if target ≤ roomOf s pn then s
    else match evictChoice s ((partOf s pn).objs.filter (evictable s)) with
      | none => s
      | some o => evictUntil pn target fuel (evictObj pn o s)

/-- n FREE frames for line mode m, CACHED objects making room for as long as there are too few (R197). -/
def makeFrames (pn m n : Nat) : Nat → State → Option (List Nat × State)
  | fuel, s =>
    match findFrames s (partOf s pn) m n with
    | some fs => some (fs, s)
    | none =>
      match fuel, evictChoice s ((partOf s pn).objs.filter (evictable s)) with
      | fuel + 1, some o => makeFrames pn m n fuel (evictObj pn o s)
      | _, _ => none

/-! ## Moving frames (R203) -/

/-- Frame b becomes a copy of frame a: bytes, scale bytes and poison. -/
def copyFrame (a b : Nat) (s : State) : State :=
  let inA := fun x u => decide (a * u ≤ x) && decide (x < (a + 1) * u)
  { s with mem := { s.mem with
      dram := forEach (fun (e : Host.Cell) m => cwrite m (e.1 - a * 65536 + b * 65536) e.2)
        (s.mem.dram.filter (fun e => inA e.1 65536)) (czero s.mem.dram (b * 65536) 65536)
      scales := forEach (fun (e : Nat × Nat) m => mset m (e.1 - a * 2048 + b * 2048) e.2)
        (s.mem.scales.filter (fun e => inA e.1 2048)) (s.mem.scales.filter (fun e => e.1 / 2048 != b))
      poisonLines := s.mem.poisonLines.filter (fun n => n / 2048 != b)
        ++ (s.mem.poisonLines.filter (fun n => inA n 2048)).map (fun n => n - a * 2048 + b * 2048) } }

/-- Mappings of frame a of this chip name frame b instead. -/
def remap (a b : Nat) (s : State) : State :=
  editLeaves (fun l =>
    let w := l.word.toNat
    if bit w 63 && l.level == 3 && bits w 43 41 == s.id.slot && bits w 40 8 * 256 / 65536 == a then
      some { l with word := BitVec.ofNat 64 (w - bits w 40 8 * 256 + b * 65536) } else some l) s

/-- A job of the partition has a step running. -/
def partRunning (s : State) (part : Nat) : Bool :=
  s.fab.plates.any (fun p => p.2.running.isSome && (jobAt s p.2.job).part == part)

/-- Head chips of the board that may hold a mapping of objects of the partition. -/
def partHeads (s : State) (part : Nat) : List Nat :=
  dedup' (s.srv.jobs.flatMap (fun j => if j.2.present && j.2.part == part then (match j.2.kv with | some g => otherHeads s g | none => []) else []))

/-- Frame a of an object of partition pn moves to frame b: it is copied, then its mapping is rewritten and the old one
invalidated (R203, R211). -/
def moveFrame (pn a b : Nat) (s : State) : State :=
  let s := remap a b (copyFrame a b (readyFrames (lmodeOf s (a / 32)) [b] s))
  let put := fun f => if f == a then b else f
  let s := modPart pn (fun p => { p with objs := p.objs.map (fun x => { x with frames := x.frames.map put }) }) s
  let kv := fun (k : KvPage) => { k with frames := k.frames.map put }
  let s := { s with srv := { s.srv with
    seqs := mmap s.srv.seqs (fun _ q => match (jobAt s q.job).kv with
      | some geo => if ctxPart s q.ctx = pn then
          { q with pages := q.pages.map (fun k => if headOf' s geo k.group = s.id.slot then kv k else k) } else q
      | none => q)
    pubs := s.srv.pubs.map (fun x => { x with pages := x.pages.map kv }) } }
  invalidate (ownFrames s [a]) (partHeads s pn) s

/-- Frames of a chunk move to other chunks of its line mode, one for each frame listed. -/
def moveAll (pn : Nat) : List (Nat × Nat) → State → State
  | [], s => s
  | (a, b) :: l, s => moveAll pn l (moveFrame pn a b s)

/-- A chunk of partition pn in a line mode other than m whose frames fit into the other chunks of its mode, with the moves that
empty it: so that frames of mode m may be had where FREE frames lie in chunks of other modes only. -/
def emptiable (s : State) (pn m : Nat) : Option (List (Nat × Nat)) :=
  let p := partOf s pn
  let cs := dedup' ((p.objs.flatMap (·.frames)).map (· / 32))
  (cs.filterMap (fun c =>
    let fs := (p.objs.flatMap (·.frames)).filter (fun f => f / 32 == c)
    if lmodeOf s c = m || fs.any (fun f => s.mem.poisonFrames.contains f) then none
    else (findFrames s { p with chunks := cutRun c p.chunks } (lmodeOf s c) fs.length).map (fun bs => fs.zip bs))).head?

/-- As makeFrames, and for an LC allocation, which never waits (R197), chunks of other line modes are emptied besides, between
steps (R203). -/
def takeFrames (lc : Bool) (pn m n : Nat) (s : State) : Option (List Nat × State) :=
  match makeFrames pn m n (partOf s pn).objs.length s with
  | some r => some r
  | none =>
    if !lc || partRunning s pn then none
    else match emptiable s pn m with
      | some l => makeFrames pn m n (partOf s pn).objs.length (moveAll pn l s)
      | none => none

/-- n more frames for an object of a kind, which is created or grows; CACHED objects make room (R197). None when
partition pn cannot give them. -/
def allocate (lc : Bool) (pn : Nat) (kind : ObjKind) (cls : ObjClass) (m n : Nat) (s : State) : Option State :=
  if n = 0 then some s
  else (takeFrames lc pn m n s).map (fun r => match findObj r.2 pn kind with
    | some o => growObj pn o.id m r.1 r.2
    | none => addObj pn kind cls m r.1 r.2)

/-- Frames that an object holds. -/
def heldBy (s : State) (pn : Nat) (kind : ObjKind) : Nat :=
  match findObj s pn kind with | some o => o.frames.length | none => 0

/-! ## Ending a sequence (R230, R253, R262) -/

/-- The pairs of a block's tokens hashed in turn from x (R260). -/
def hashPairs (x : Nat) : List Nat → Nat
  | a :: b :: l => hashPairs (kxHash (a + b * 2 ^ 32) x) l
  | _ => x

/-- Key of a node at depth 0 from its model context and epoch, and below from its parent's key (R260). -/
def nodeKey (mc epoch : Nat) (parent : Option Node) (toks : List Nat) : Nat :=
  hashPairs (match parent with | some n => n.key | none => kxHash (mc + epoch * 2 ^ 16) 0) toks

/-- The node of tokens toks under the parent given, in the tree of (part, mc) and epoch. -/
def findNode (s : State) (part mc epoch : Nat) (parent : Option Node) (toks : List Nat) : Option Node :=
  s.srv.tree.find? (fun n => n.part == part && n.mc == mc && n.epoch == epoch
    && (match parent with | some p => n.parent == p.id && n.depth == p.depth + 1 | none => n.depth == 0)
    && n.key == nodeKey mc epoch parent toks && n.tokens == toks)

/-- The 16 tokens of block b. -/
def blockToks (toks : List Nat) (b : Nat) : List Nat := (toks.drop (16 * b)).take 16

/-- Block b of a sequence may enter the tree (R262): wholly below COMMITTED_LEN, EVICTED in no group, in no
dropped page. -/
def blockOk (q : Seq) (tp b : Nat) : Bool :=
  decide (16 * b + 16 ≤ q.committed) && !q.blocks.any (fun w => w.block == b && w.evicted)
    && !q.pages.any (fun k => k.page == 16 * b / tp && k.dropped)

/-- Blocks of entry i enter the tree from block b upward; pageOf gives the tree page of each page handed over. -/
def insertBlocks (pn i tp : Nat) (q : Seq) (pageOf : Nat → Nat) : Nat → Nat → Option Node → State → State
  | 0, _, _, s => s
  | fuel + 1, b, parent, s =>
    if !blockOk q tp b then s
    else
      let toks := blockToks q.tokens b
      match findNode s pn q.mc q.epoch parent toks with
      | some n => insertBlocks pn i tp q pageOf fuel (b + 1) (some n) s
      | none =>
        let n : Node := { id := s.srv.nextNode, part := pn, mc := q.mc, epoch := q.epoch, depth := b,
                          key := nodeKey q.mc q.epoch parent toks,
                          parent := (match parent with | some p => p.id | none => 0), tokens := toks,
                          page := pageOf (16 * b / tp) }
        insertBlocks pn i tp q pageOf fuel (b + 1) (some n)
          { s with srv := { s.srv with tree := s.srv.tree ++ [n], nextNode := s.srv.nextNode + 1 } }

/-- The pages of entry i whose blocks the tree now holds pass to it as prefix blocks, those of groups that other chips serve
too. -/
def handPages (pn i base : Nat) (s : State) : State :=
  let held := (s.srv.tree.map (·.page)).filter (fun pg => decide (base ≤ pg))
  let q := seqOf s i
  let far := match (jobAt s q.job).kv with
    | some geo => (q.pages.filter (fun k => headOf' s geo k.group != s.id.slot && k.shared.isNone && held.contains (base + k.page))).map
        (fun k => ({ page := base + k.page, group := k.group, chip := headOf' s geo k.group, frames := k.frames } : FarPage))
    | none => []
  modPart pn (fun p => { p with objs := p.objs.map (fun o => match o.kind with
    | .kv home q g pg => if home == ownLoc s && q == i && held.contains (base + pg) then
        { o with kind := .pfxPage (base + pg) g, cls := .cached } else o
    | _ => o) }) { s with srv := { s.srv with farPages := s.srv.farPages ++ far } }

/-- Blocks of entry i enter the tree where partition pn has HELD frames for its nodes (R259); else nothing changes. -/
def growTree (pn i base : Nat) (g : KvGeom) (s : State) : Option State :=
  let q := seqOf s i
  let s := insertBlocks pn i (pagePos g) q (fun p => match q.pages.find? (fun k => k.page == p) with
      | some k => (match k.shared with | some pg => pg | none => base + p) | none => base + p)
    (q.committed / 16 + 1) 0 none s
  allocate false pn .treeNodes .held 0 (treeSize s pn - heldBy s pn .treeNodes) s

/-- The kept blocks of entry i pass to the prompt tree, and the tree no longer counts the entry as a user (R230 step 1). -/
def keepBlocks (pn i : Nat) (g : KvGeom) (s : State) : State :=
  let q := seqOf s i
  let base := s.srv.nextPage
  let s := if q.cachePfx then (match growTree pn i base g s with | some s => handPages pn i base s | none => s) else s
  { s with srv := { s.srv with nextPage := base + q.committed / pagePos g + 1 } }

/-- The object belongs to entry i: its KV pages, token buffer, page tables and block-state words. -/
def ofSeq (s : State) (i : Nat) (k : ObjKind) : Bool :=
  match k with
  | .kv home j _ _ => home == ownLoc s && j == i
  | .tokenBuffer j => j == i
  | .pageTable j => j == i
  | .blockState home j => home == ownLoc s && j == i
  | _ => false

/-- Sequence entry i ends: its kept blocks pass to the tree, its other mappings and frames are freed, and the entry becomes FREE
once every invalidation of them is acknowledged (R230). -/
def endSeq (i : Nat) (s : State) : State :=
  let q := seqOf s i
  if q.st = 0 ∨ q.st = 3 then s
  else
    let pn := ctxPart s q.ctx
    let s := modSeq i (fun q => { q with st := 3 }) s
    let geo := (jobAt s q.job).kv
    let s := match geo with | none => s | some g => keepBlocks pn i g s
    let lo := (0x0100000000000000 + i * 2 ^ 34) / 2097152
    let s := editLeaves (fun l => if l.ctx == q.ctx &&
        ((l.level == 3 && decide (32 * lo ≤ l.vpn ∧ l.vpn < 32 * lo + 2 ^ 18)) || (l.level == 2 && decide (lo ≤ l.vpn ∧ l.vpn < lo + 2 ^ 13)))
      then none else some l) s
    let s := freeObjs pn (ofSeq s i) s
    let s := modSeq i (fun q => { gen := q.gen, used := true, st := 3 }) s
    let s := match geo with
      | some g => invalidateFor (some i) (q.pages.flatMap (pageFrames s g)) (otherHeads s g) s
      | none => s
    let s := if s.mem.invals.any (fun v => v.seq == some i) then s else modSeq i (fun q => { q with st := 0 }) s
    freeLoose pn (q.pages.filterMap (·.shared)) s

/-! ## Output records (R269 to R273) -/

/-- Device ring of output ring n (Table 12.2). -/
def outRingOf (r : Request) : Nat := 10 + r.gen.outRing

/-- An output token record is written at the next entry of its ring. -/
def putTok (r : TokRec) (s : State) : State :=
  let x := ctxOf s r.ctx
  if !x.present || !ringThere x r.ring || x.ringErr.contains r.ring then s
  else
    let n := mgetD x.written r.ring 0
    let s := modCtx r.ctx (fun x => { x with written := mset x.written r.ring (n + 1) }) s
    let s := countHostWr r.ctx 0 0 0 16 (countPage r.ctx 12 1 s)
    afterRecord r.ctx r.ring false (emit (.token { r with n := n, phase := phaseOf n (mgetD x.rings r.ring {}).sizeLog2 }) s)

/-- The drawer of request k, if it holds one, is given back. -/
def freeDrawer (k : Nat) (s : State) : State :=
  match mget s.srv.reqs k with
  | some r => if r.drawer then dropHiDrawer (modReq k (fun r => { r with drawer := false }) s) else s
  | none => s

/-- Held records of request k are written in INDEX order while its ring has room; the drawer goes with the last
of them, and a paused request resumes once none is held (R271, R272). -/
def drainReq (k : Nat) : Nat → State → State
  | 0, s => s
  | fuel + 1, s =>
    match mget s.srv.reqs k with
    | none => s
    | some r =>
      match r.held ++ r.spill.toList with
      | [] => s
      | t :: _ =>
        if ringRoom (ctxOf s t.ctx) t.ring = 0 then s
        else
          let s := putTok t s
          let s := modReq k (fun r => match r.held with
            | _ :: l => { r with held := l, delivered := r.delivered + 1 }
            | [] => { r with spill := none, delivered := r.delivered + 1 }) s
          let s := match mget s.srv.reqs k with
            | some r => if r.held.isEmpty then
                (let s := freeDrawer k s
                 if r.spill.isNone then modReq k (fun r => { r with paused := false }) s else s) else s
            | none => s
          drainReq k fuel s

/-! ## The end of a request (R257, R299) -/

/-- Whether request flags hold KEEP. -/
def keeps (r : Request) : Bool := r.op == .generate && bit r.h.flags 0

/-- FLAGS of a FINAL record (Table 12.11). -/
def finalFlags (r : Request) : Nat := if r.traceLoss && !bit r.flags 4 then r.flags + 16 else r.flags

/-- A flag of Table 12.11 is set. -/
def setFlag (n : Nat) (r : Request) : Request := { r with flags := if bit r.flags n then r.flags else r.flags + 2 ^ n }

/-- Object of request state: HELD. -/
def reqObj (k : Nat) : ObjKind := .reqState k

/-- The share of each head chip's grant that a request holds is given back to its job (R214). -/
def releaseShare (r : Request) (s : State) : State :=
  modJob (jobIdx r.h.job) (fun j => if j.id == r.h.job then
    { j with shareFree := forEach (fun e m => madd m e.1 e.2) r.framesGroup j.shareFree } else j) s

/-- One reference to the request's epoch is dropped (R244). -/
def unrefEpoch (r : Request) (s : State) : State :=
  modEpoch r.h.modelCtx r.epoch (fun e => { e with refs := e.refs - 1 }) s

/-- The older generation of a detokenisation table goes once no request is bound to it (R266). -/
def freeDetoks (mc : Nat) (s : State) : State :=
  modModel mc (fun m => { m with detoks := m.detoks.filter (fun d => d.gen + 1 == m.nextDetok
    || s.srv.reqs.any (fun r => r.2.h.modelCtx == mc && r.2.detok == some d.gen)) }) s

/-- What becomes of the request's sequence: kept IDLE at its committed length, or ended (R253, R258). -/
def leaveSeq (r : Request) (s : State) : State :=
  if !r.hasSeq then s
  else if keeps r && (seqOf s r.seq).st == 1 then
    setClass (ctxPart s r.h.ctx) (fun k => match k with | .kv home j _ _ => home == ownLoc s && j == r.seq | _ => false) .cached
      (modSeq r.seq (fun q => { q with
        st := 2, request := 0, window := 0, valid := q.committed
        tokens := q.tokens.take q.committed, cachePfx := bit r.h.flags 1 }) s)
  else endSeq r.seq (modSeq r.seq (fun q => { q with
      cachePfx := r.op == .generate && bit r.h.flags 1, valid := q.committed
      tokens := q.tokens.take q.committed }) s)

/-- A request is over: everything it holds is given back (R257, DONE). -/
def dropReq (k : Nat) (r : Request) (s : State) : State :=
  let s := freeDrawer k s
  let s := { s with
    srv := { s.srv with reqs := mdel s.srv.reqs k }
    exu := { s.exu with bags := s.exu.bags.filter (fun b => b.req != some k) } }
  let s := modPart (ctxPart s r.h.ctx) (fun p => { p with waiting := p.waiting.filter (fun w => w.1 != k) }) s
  let s := freeObjs (ctxPart s r.h.ctx) (fun o => o == reqObj k) s
  leaveSeq r (freeDetoks r.h.modelCtx (unrefEpoch r (releaseShare r s)))

/-- INFO of a request's FINAL: output records delivered, or result bytes written (R299). -/
def finalInfo (r : Request) : Nat := if r.op = .generate then r.delivered else r.bytesOut

/-- The final completion of accepted request k is written with a status, and the request is over. silent: the
function may write nothing (R444). -/
def endReq (silent : Bool) (k : Nat) (st : Status) (s : State) : State :=
  match mget s.srv.reqs k with
  | none => s
  | some r =>
    if r.st = .detected then s
    else
      let s := if silent then s else
        traceEvent r.h.ctx r.h.layerTag r.h.opTag r.h.job (.final r.h.reqId st (finalFlags r) (finalInfo r)) []
          (owedRec (cmdOf r.h) .final st (finalFlags r) (finalInfo r) 0 s)
      dropReq k r s

/-- DECLINE of a request not yet accepted; it is forgotten (R299). -/
def declineReq (h : Hdr) (op : ReqOp) (st : Status) (s : State) : State :=
  let s := countPage h.ctx (if h.cls = 0 then 1 else 3) 1 s
  let s := releaseRoom h.ctx (compRing h.ring) 1 (owedRec (cmdOf h) .decline st 0 0 0 s)
  traceEvent h.ctx h.layerTag h.opTag h.job (.accept h.reqId (reqOpcode op) true st h.deadline) [] s

/-- A request waiting for its stop block is declined. -/
def declineWaiting (k : Nat) (st : Status) (s : State) : State :=
  match mget s.srv.reqs k with
  | none => s
  | some r => declineReq r.h r.op st { s with srv := { s.srv with reqs := mdel s.srv.reqs k } }

/-- A request in FINISHING with no held records writes its final completion (Table 11.3). -/
def settleFinishing (k : Nat) (s : State) : State :=
  match mget s.srv.reqs k with
  | some r => if r.st = .finishing && r.held.isEmpty && r.spill.isNone then endReq false k (r.endStatus.getD .complete) s else s
  | none => s

/-- Requests that hold records on ring r of context c, in the order in which freed entries are given out: LC
before BE, the earliest deadline first, then the earliest acceptance (R271). -/
def holders (s : State) (c r : Nat) : List Nat :=
  (sortBy (fun (a b : Nat × Request) => decide (a.2.h.cls < b.2.h.cls) || (a.2.h.cls == b.2.h.cls
      && (decide (a.2.h.deadline < b.2.h.deadline) || (a.2.h.deadline == b.2.h.deadline && decide (a.1 ≤ b.1)))))
    (s.srv.reqs.filter (fun e => e.2.h.ctx == c && outRingOf e.2 == r && !(e.2.held ++ e.2.spill.toList).isEmpty))).map (·.1)

/-- Held records of context c drain into the room its output rings have. -/
def drainCtx (c : Nat) (s : State) : State :=
  forEach (fun r s => forEach (fun k s =>
      let n := match mget s.srv.reqs k with | some q => q.held.length + 1 | none => 0
      settleFinishing k (drainReq k n s)) (holders s c (10 + r)) s) (List.range 8) s

/-- Keys of the requests that p picks. -/
def reqKeys (s : State) (p : Request → Bool) : List Nat := (s.srv.reqs.filter (fun e => p e.2)).map (·.1)

/-- Accepted requests that p picks complete with a status. -/
def endReqs (silent : Bool) (p : Request → Bool) (st : Status) (s : State) : State :=
  forEach (fun k s => endReq silent k st s) (reqKeys s (fun r => r.st ≠ .detected && p r)) s

end Sys2Proof.Machine
end

