-- ==== Sys2Proof/Machine/JobOps.lean ====
section
/-! DEFINITION. Shared operations over long operations, plates, groups and jobs: how each of them ends, how a
job is frozen or torn down (chapters 3, 13, 14, 15). -/
namespace Sys2Proof.Machine

/-! ## Long operations (R298, R299) -/

/-- The 64-bit operation ID of live operation n: issuing context and count. -/
def opIdOf (c n : Nat) : Nat := c * 2 ^ 54 + n

/-- Live operation n changed by f. -/
def modOp (n : Nat) (f : LongOp → LongOp) (s : State) : State :=
  { s with ops := { s.ops with live := mmod s.ops.live n f } }

/-- What an operation has marked is marked no longer: a sequence that migrates (R254), islands under test (R328). -/
def unmark (k : OpKind) (s : State) : State :=
  match k with
  | .kvMigrate _ i _ _ => modSeq i (fun q => { q with migrating := false }) s
  | .selfTest .. => { s with pw := { s.pw with lastBusy := s.time }, fab := { s.fab with isl := mmap s.fab.isl (fun _ x => { x with testing := false }) } }
  | _ => s

/-- Operation n ends with a status; its FINAL carries the operation ID. After a context reset of its context the
record waits until the context is enabled again (R443); for a function under FLR there is none (R444). -/
def endOp (n : Nat) (st : Status) (info : Nat) (s : State) : State :=
  match mget s.ops.live n with
  | none => s
  | some o =>
    let s := { s with ops := { s.ops with live := mdel s.ops.live n } }
    let s := unmark o.kind s
    if o.silent then s
    else if o.late && !(ctxOf s o.cmd.ctx).enable then
      modCtx o.cmd.ctx (fun x => { x with late := x.late ++ [{ reqId := o.cmd.reqId, irq := o.cmd.irq, st := st, info := info,
                                                               value := opIdOf o.cmd.ctx n }] }) s
    else final o.cmd st info (opIdOf o.cmd.ctx n) s

/-- A long operation begins: it takes the next count, and its ACCEPT carries its operation ID. -/
def beginOp (h : Hdr) (kind : OpKind) (code : Nat) (s : State) : State :=
  let n := s.ops.next
  let s := { s with ops := { live := mset s.ops.live n { cmd := cmdOf h, kind := kind, code := code }, next := n + 1 } }
  owedRec (cmdOf h) .accept .complete 0 0 (opIdOf h.ctx n) s

/-- Phases in which OP_SUSPEND takes effect, waiting phases among them (Table 13.5). -/
def maySuspend (code : Nat) : Bool := [0x10, 0x12, 0x20, 0x21, 0x22, 0x31, 0x40, 0x41, 0x50, 0x60, 0x62, 0x70, 0x71, 0x80].contains code

/-- The operation is held: by OP_SUSPEND (R327), or by a power-state request that is pending or has been met (R374). -/
def opHeld (s : State) (o : LongOp) : Bool :=
  o.held || (maySuspend o.code && (s.pw.pending || s.pw.st == .sleep || s.pw.st == .deep || s.pw.st == .exiting))

/-- The LAYER field of a WIDEN or OVERFLOW trace record in the trace of context c: LAYER_ID, or in address-only mode the index in the
layer table of plate p (R428). -/
def shownLayer (s : State) (c p layer : Nat) : Nat :=
  if (ctxOf s c).addrOnly then (plateOf s p).image.layers.findIdx (fun l => l.layerId == layer) else layer

/-- Live operations that p picks. -/
def opsWith (s : State) (p : OpKind → Bool) : List Nat := (s.ops.live.filter (fun o => p o.2.kind)).map (·.1)

/-! ## Collective groups (R360) -/

/-- The operations of a group that are pending complete with a status: a host-issued one writes its FINAL, a
posted one signals no counter. Answers to their chunks are waited for no longer (log entry 146). -/
def endCollOps (silent : Bool) (g : Nat) (st : Status) (s : State) : State :=
  match mget s.coll.groups g with
  | none => s
  | some q =>
    let s := { s with
      coll := { s.coll with groups := mmod s.coll.groups g (fun q => { q with opsPending := [] }) }
      xn := { s.xn with collOut := s.xn.collOut.filter (fun o => o.gid != q.id || decide (o.pkt.stage < 2)) } }
    forEach (fun o s => if o.posted || silent then s else final o.cmd st 0 0 s) q.opsPending s

/-- A create that fails leaves nothing behind (R357). -/
def failCreate (g : Nat) (st : Status) (s : State) : State :=
  match mget s.coll.groups g with
  | none => s
  | some q =>
    final q.cmd st 0 0 (modCtx q.ctx (fun x => { x with queues := mdel x.queues q.queue })
      { s with coll := { s.coll with groups := mdel s.coll.groups g } })

/-- Group g ends on this chip: its pending operations and an unfinished create complete with CANCELLED, the queue
is unbound, and ABANDON goes to every other member. -/
def endGroup (silent : Bool) (g : Nat) (s : State) : State :=
  match mget s.coll.groups g with
  | none => s
  | some q =>
    let s := endCollOps silent g .cancelled s
    let s := if q.st = 0 && !silent then final q.cmd .cancelled 0 0 s else s
    let s := forEach (fun m s => if m = ownLoc s then s else sendXn m 0 false (.abandon q.id) s) q.members s
    modCtx q.ctx (fun x => { x with queues := mdel x.queues q.queue })
      { s with coll := { s.coll with groups := mdel s.coll.groups g } }

/-- Every group of a job ends. -/
def endGroupsOf (silent : Bool) (i : Nat) (s : State) : State :=
  forEach (fun g s => endGroup silent g s) ((s.coll.groups.filter (fun g => g.2.job == i)).map (·.1)) s

/-! ## Tables (R68, R69, R82 to R84) -/

/-- A plate no longer counts for a table: a swap that waits for it no longer does. -/
def unbindTables (plate : Nat) (l : List Tbl) : List Tbl :=
  l.map (fun t => { t with
      bound := t.bound.filter (fun b => b.1 != plate)
      reload := t.reload.map (fun r => { r with left := r.left.filter (fun p => p != plate) }) })

/-- The tables of a job that no plate binds any more are freed (R69). A reload of one whose swap was armed has completed (Table
3.13); one still writing or verifying finds no table (log entry 142). -/
def freeTables (i : Nat) (s : State) : State :=
  let gone := (jobAt s i).tables.filter (fun t => t.bound.isEmpty)
  let s := modJob i (fun j => { j with tables := j.tables.filter (fun t => !t.bound.isEmpty) }) s
  forEach (fun t s => match t.reload with
    | some r => if r.armed then final r.cmd .complete t.gen 0 s else final r.cmd .malformed 0 0 s
    | none => s) gone s

/-- A reload whose swap is armed and applied to every bound plate completes, reporting the generation: the bank
that was front becomes the back bank (R82, R83). -/
def settleReloads (i : Nat) (s : State) : State :=
  let done := (jobAt s i).tables.filter (fun t => match t.reload with | some r => r.armed && r.left.isEmpty | none => false)
  let s := modJob i (fun j => { j with tables := j.tables.map (fun t => match t.reload with
    | some r => if r.armed && r.left.isEmpty then { t with reload := none } else t
    | none => t) }) s
  forEach (fun t s => match t.reload with | some r => final r.cmd .complete t.gen 0 s | none => s) done s

/-- Plate p swaps to the table's back bank: its TGEN rises and a swap event goes to the job's trace (R80, R82). -/
def swapPlate (i p : Nat) (t : Tbl) (s : State) : State :=
  let tgen := (plateOf s p).tgen + 1
  let s := modPlate p (fun q => { q with tgen := tgen % 2 ^ 32, stage := q.stage.filter (fun x => x != t.id) }) s
  let s := modJob i (fun j => { j with tables := j.tables.map (fun x => if x.id == t.id then
    { x with reload := x.reload.map (fun r => { r with left := r.left.filter (fun q => q != p) }) } else x) }) s
  traceEvent (jobAt s i).ctx 0 0 (jobAt s i).id (.swap t.id t.gen p (tgen % 2 ^ 32)) [] s

/-- Armed swaps that wait for plate p apply to it, for it is between steps. -/
def swapAt (p : Nat) (s : State) : State :=
  let i := (plateOf s p).job
  let ts := (jobAt s i).tables.filter (fun t => match t.reload with | some r => r.armed && r.left.contains p | none => false)
  settleReloads i (forEach (fun t s => swapPlate i p t s) ts s)

/-! ## Plates (R75) -/

/-- A job of this chip that serves a model context. -/
def servingJob (s : State) (mc : Nat) : Option Nat :=
  (s.srv.jobs.find? (fun j => j.2.present && !j.2.pendingAdmit && j.2.mc == mc)).map (·.1)

/-! ## Commit answers (R176 step 2) -/

/-- A gather of a generation of a table that this chip issued is still out. -/
def gatherOutstanding (s : State) (mc idx gen : Nat) : Bool :=
  s.exu.bags.any (fun b => b.mc == mc && b.table == idx && b.gen == gen && !b.owners.isEmpty)

/-- A DONE goes to the issuing chip of an update, commit or settle, whose record it answers. -/
def sendDone (r : ExuRec) (st : Status) (s : State) : State :=
  let j := jobAt s ((servingJob s r.modelCtx).getD 0)
  sendLeg j.ctx j.id .done ({
    src := ownLoc s, dst := r.home, home := r.home, tag := (partOf s j.part).tag, epoch := r.epoch, toHome := true, layer := r.layer
    exchange := r.exchange, modelCtx := r.modelCtx, status := st } : ExuRec) s

/-- Commits that this chip has fully applied are answered. -/
def settleAnswers (s : State) : State :=
  let done := fun (a : EmbAnswer) => a.plates.isEmpty && !gatherOutstanding s a.mc a.table a.gen
  let ds := s.mdl.embAnswers.filter done
  forEach (fun a s => sendDone { home := a.home, modelCtx := a.mc, layer := a.table, exchange := a.exchange, epoch := a.epoch } .complete s) ds
    { s with mdl := { s.mdl with embAnswers := s.mdl.embAnswers.filter (fun a => !done a) } }

/-- Plate p is at a step boundary, or goes: the commits that waited for it are applied to it (R175, R176). -/
def leaveCommit (p : Nat) (s : State) : State :=
  settleAnswers { s with mdl := { s.mdl with embAnswers := s.mdl.embAnswers.map (fun a => { a with plates := a.plates.filter (· != p) }) } }

/-- A scratchpad key lies in a bank that the plate owns. -/
def ownsKey (q : Plate) (k : Nat) : Bool :=
  q.isls.any (fun i => i.isl == k / 2 ^ 21 && i.phys.contains (k % 2 ^ 21 / 131072))

/-- Reloads of a job's tables end with JOB_TORN_DOWN (Table 3.13): those whose swap is armed only where armed says so. -/
def endReloads (silent armed : Bool) (i : Nat) (s : State) : State :=
  let ends := fun (t : Tbl) => match t.reload with | some r => armed || !r.armed | none => false
  let rs := ((jobAt s i).tables.filter ends).filterMap (·.reload)
  let s := modJob i (fun j => { j with tables := j.tables.map (fun t => if ends t then { t with reload := none } else t) }) s
  if silent then s else forEach (fun r s => final r.cmd .jobTornDown 0 0 s) rs s

/-- Plate p leaves its islands: slots, banks, counters and table bindings are released. -/
def clearPlate (p : Nat) (s : State) : State :=
  let q := plateOf s p
  let s := { s with fab := { s.fab with
    isl := mmap s.fab.isl (fun k x => match q.isls.find? (fun (i : PIsl) => i.isl == k) with
      | some i => { x with
          state := if x.state = 1 && !s.fab.plates.any (fun e => e.1 != p && decide (2 ≤ e.2.state) && e.2.isls.any (fun y => y.isl == k))
            then 0 else x.state
          slots := x.slots.filter (fun n => n != p)
          active := if x.active == some p then none else x.active
          counters := x.counters.filter (fun c => !i.ctrs.contains c.1)
          ctrOverflow := x.ctrOverflow.filter (fun c => !i.ctrs.contains c) }
      | none => x)
    scratch := s.fab.scratch.filter (fun e => !ownsKey q e.1)
    poison := s.fab.poison.filter (fun k => !ownsKey q k)
    plates := mdel s.fab.plates p } }
  let s := modJob q.job (fun j => { j with tables := unbindTables p j.tables, proofs := j.proofs.filter (· != p) }) s
  leaveCommit p (settleReloads q.job (freeTables q.job s))

/-- Plate p is removed; commands that wait for that complete with a status. -/
def removePlate (silent : Bool) (p : Nat) (st : Status) (s : State) : State :=
  let cs := (plateOf s p).unloads
  let s := clearPlate p s
  if silent then s else forEach (fun c s => final c st 0 0 s) cs s

/-! ## The end of a job (R310) -/

/-- Tile descriptors still queued on a job's channels end; host commands among them complete with a status. -/
def endTiles (silent : Bool) (i : Nat) (st : Status) (s : State) : State :=
  let ns := (List.range 60).filter (fun n => (chanOf s n).cls != 0 && (chanOf s n).job == i)
  let js := ns.flatMap (fun n => (chanOf s n).queue)
  let s := { s with mem := { s.mem with
    chans := s.mem.chans.filter (fun c => !ns.contains c.1)
    waiters := s.mem.waiters.filter (fun n => !ns.contains n) } }
  forEach (fun j s => if j.posted || silent then s else final j.cmd st 0 0 s) js s

/-- Embedding commands of a job end with a status; a commit not yet applied on every chip is abandoned, the
generation staying as it was (Table 7.7). -/
def endEmb (silent : Bool) (i : Nat) (st : Status) (s : State) : State :=
  let es := s.mdl.embCmds.filter (fun e => jobIdx e.job == i)
  let s := { s with mdl := { s.mdl with embCmds := s.mdl.embCmds.filter (fun e => jobIdx e.job != i) } }
  let s := forEach (fun e s =>
    let r : ExuRec := { src := ownLoc s, tag := (partOf s (jobAt s i).part).tag, layer := e.table, home := ownLoc s,
                        exchange := e.exchange, modelCtx := e.mc, gen := (e.gen + 2 ^ 32 - 1) % 2 ^ 32 }
    match epochOf s e.mc e.epoch with
    | some ep => forEach (fun c s => sendLeg (jobAt s i).ctx e.job .commit { r with epoch := ep.num, dst := c.loc } s) ep.m.chips s
    | none => s) (es.filter (fun e => e.phase == 1)) s
  if silent then s else forEach (fun e s => final e.cmd st 0 0 s) es s

/-- Live watches on a job end with CANCELLED when the job ends (log entry 14). -/
def endWatches (silent : Bool) (id : Nat) (s : State) : State :=
  forEach (fun c s =>
    let ws := (ctxOf s c).watches.filter (fun w => w.job == id)
    let s := modCtx c (fun x => { x with watches := x.watches.filter (fun w => w.job != id) }) s
    if silent then s
    else forEach (fun w s => final { ctx := c, ring := 9, reqId := w.reqId, irq := w.irq } .cancelled 0 0 s) ws s)
    (s.ctxs.map (·.1)) s

/-- The serving job of a model context ends: exchanges that are open here are answered with GONE to every home chip that
dispatched to it (R161). -/
def endServing (mc : Nat) (s : State) : State :=
  let open' := s.exu.expert.filter (fun x => x.mc == mc)
  let late := s.exu.waiting.filter (fun e => e.2.modelCtx == mc)
  let from' := open'.flatMap (fun x => (x.acceptedRecs ++ x.rejects).map (fun r => (r.home, x.layer, x.exchange)))
    ++ late.filterMap (fun e => if e.1 then none else some (e.2.home, e.2.layer, e.2.exchange))
  let s := { s with exu := { s.exu with
    expert := s.exu.expert.filter (fun x => x.mc != mc)
    waiting := s.exu.waiting.filter (fun e => e.2.modelCtx != mc) } }
  forEach (fun (g : Nat × Nat × Nat) s =>
    sendGone { home := g.1, layer := g.2.1, exchange := g.2.2, modelCtx := mc } s) (dedup' from') s

/-- What a job holds is released: plates, channels with their reserves, remote claims, KV grant; its sequences and
groups end. -/
def releaseJobParts (silent : Bool) (i : Nat) (st : Status) (s : State) : State :=
  let j := jobAt s i
  let s := forEach (fun p s => removePlate silent p st s) ((s.fab.plates.filter (fun p => p.2.job == i)).map (·.1)) s
  let s := endTiles silent i .jobTornDown s
  let s := endEmb silent i .jobTornDown s
  let s := endWatches silent j.id s
  let s := forEach (fun e s => sendXn e.1.loc 0 false (.claimRelease j.mc e.2) s)
    (j.resv.remotes.zip j.granted) s
  let s := endGroupsOf silent i s
  let s := if s.srv.jobs.any (fun e => e.1 != i && e.2.present && e.2.mc == j.mc) then s else endServing j.mc s
  let s := { s with
    exu := { s.exu with
      home := s.exu.home.filter (fun x => x.job != j.id)
      bags := s.exu.bags.filter (fun b => b.job != j.id) }
    xn := { s.xn with
      remotes := s.xn.remotes.filter (fun r => r.job != j.id)
      exuOut := s.xn.exuOut.filter (fun r => r.job != j.id)
      collOut := s.xn.collOut.filter (fun r => r.job != j.id) } }
  settleAnswers (forEach (fun q s => endSeq q s) ((s.srv.seqs.filter (fun q => q.2.st != 0 && q.2.job == i)).map (·.1)) s)

/-- The job is gone; its JOB_END and JOB_TEARDOWN commands complete. -/
def releaseJob (silent : Bool) (i : Nat) (s : State) : State :=
  let j := jobAt s i
  let s := releaseJobParts silent i (if j.torn then .jobTornDown else .complete) s
  let s := modJob i (fun _ => { id := j.id }) s
  let s := { s with pw := { s.pw with lastBusy := s.time } }
  if silent then s
  else
    let s := forEach (fun c s => final c (if j.torn then .jobTornDown else .complete) 0 0 s) j.ends s
    forEach (fun c s => final c .complete 0 0 s) j.teardowns s

/-- The job has a live PLATE_LOAD. -/
def loading (s : State) (i : Nat) : Bool :=
  s.ops.live.any (fun o => match o.2.kind with | .plateLoad j _ _ _ => j == i | _ => false)

/-- The job has an accepted request, or one still to be decided. -/
def jobBusy (s : State) (i : Nat) : Bool := s.srv.reqs.any (fun r => jobIdx r.2.h.job == i)

/-- A step of the job runs on some plate. -/
def jobRunning (s : State) (i : Nat) : Bool := s.fab.plates.any (fun p => p.2.job == i && p.2.running.isSome)

/-- A torn-down job between steps is released; a draining one once its last plate is removed, no load of it runs
and no request of it is left (R310). silent says that its function may write nothing. -/
def settleJob (silent : Bool) (i : Nat) (s : State) : State :=
  let j := jobAt s i
  if !j.present then s
  else if j.torn then (if jobRunning s i then s else releaseJob silent i s)
  else if j.draining && !s.fab.plates.any (fun p => p.2.job == i) && !loading s i && !jobBusy s i then releaseJob silent i s
  else s

/-- A live PLATE_LOAD of the job ends: a placed plate leaves its islands. -/
def endLoads (i : Nat) (st : Status) (s : State) : State :=
  forEach (fun n s => match mget s.ops.live n with
      | some o => (match o.kind with
        | .plateLoad _ _ _ p => endOp n st 0 (if o.code == 0x10 then s else clearPlate p s)
        | _ => endOp n st 0 s)
      | none => s)
    (opsWith s (fun k => match k with | .plateLoad j _ _ _ => j == i | .kvMigrate j _ _ _ => j == i | _ => false)) s

/-- The job is torn down (R310): its requests complete with a status, its live PLATE_LOAD, KV_MIGRATE and reloads
with JOB_TORN_DOWN, no further step is dispatched, and it is released once its plates are between steps. -/
def teardownJob (silent : Bool) (i : Nat) (st : Status) (s : State) : State :=
  let j := jobAt s i
  if !j.present then s
  else
    let s := modJob i (fun j => { j with torn := true, draining := true }) s
    let s := coffer 0 3 .jobTornDown 0 j.id j.mc 0 s
    let s := forEach (fun k s => declineWaiting k .declined s) (reqKeys s (fun r => r.st == .detected && r.h.job == j.id)) s
    let s := endReqs silent (fun r => r.h.job == j.id) st s
    let s := endLoads i .jobTornDown s
    let s := endReloads silent true i s
    let s := forEach (fun p s => modPlate p (fun q => { q with queue := [] }) s) ((jobPlates s i).map (·.1)) s
    settleJob silent i s

/-! ## Frozen jobs and lost targets (R349 to R351) -/

/-- FABRIC_FAULT goes to the fabric manager, over the sideband too when SIDEBAND_FAULT is set (R351). -/
def sendFault (f : FabricFault) (s : State) : State :=
  let s := sendMgmt (.fabricFault false f) s
  if s.xn.sidebandFault then sendMgmt (.fabricFault true f) s else s

/-- A FABRIC_FAULT is sent and kept until it is acknowledged. -/
def newFault (cause lost job mc done : Nat) (s : State) : State :=
  let f : FabricFault := { cause := cause, lost := lost, job := job, mc := mc, time := s.time, completed := done }
  sendFault f { s with xn := { s.xn with faults := mset s.xn.faults s.xn.nextFault f, nextFault := s.xn.nextFault + 1 } }

/-- Job i is frozen for a lost target at LOCATION lost: its accepted requests complete at once with st, and
FABRIC_FAULT is sent. A job already frozen only counts the loss (R350). -/
def freezeJob (i cause lost : Nat) (st : Status) (s : State) : State :=
  let s := { s with xn := { s.xn with lostCnt := sat 15 (s.xn.lostCnt + 1), lastLost := lost } }
  let j := jobAt s i
  if !j.present || j.frozen then s
  else
    let s := modJob i (fun j => { j with frozen := true, frozenStatus := st }) s
    let n := (reqKeys s (fun r => r.st ≠ .detected && r.h.job == j.id)).length
    let s := coffer 5 3 .targetLost lost j.id j.mc 0 s
    newFault cause lost j.id j.mc n (endReqs false (fun r => r.h.job == j.id) st s)

end Sys2Proof.Machine
end

