-- ==== Sys2Proof/Machine/Check.lean ====
section
/-! DEFINITION. The checks every descriptor passes, in the order of R295: header, function, body, names (R485,
R486), and R14 for requests. A check answers the status that ends the descriptor, or none. -/
namespace Sys2Proof.Machine

/-- What Tables 12.8 and 12.18 fix for an opcode: its rings, whether it is admin-only, the defined FLAGS bits, and
whether it carries JOB and MODEL_CTX. -/
structure OpInfo where
  rings : List Nat
  admin : Bool := false
  flags : Nat := 0
  job : Bool := false
  mc : Bool := false

/-- A request opcode (GENERATE has the flags of R296). -/
def infoReq (flags : Nat) : OpInfo := { rings := [0, 1], flags := flags, job := true, mc := true }
/-- A command on ring 2 without names. -/
def infoCmd : OpInfo := { rings := [2] }
/-- An admin-only command on ring 2. -/
def infoAdmin : OpInfo := { rings := [2], admin := true }
/-- A collective on the communication queues. -/
def infoColl : OpInfo := { rings := [4, 5, 6, 7] }
/-- A telemetry command on ring 3. -/
def infoTd : OpInfo := { rings := [3] }

/-- The first status of a list of checks. -/
def firstOf : List (Option Status) → Option Status
  | [] => none
  | some st :: _ => some st
  | none :: l => firstOf l

/-- A status where a condition holds. -/
def failIf (b : Bool) (st : Status) : Option Status := if b then some st else none

/-- CLASS is LC on ring 0, BE on ring 1, COMMAND on rings 2 to 7; cancel says that the opcode is REQ_CANCEL, which
may stand on ring 0 with CLASS COMMAND. -/
def classOk (h : Hdr) (cancel : Bool) : Bool :=
  (h.ring == 0 && (if cancel then h.cls == 2 else h.cls == 0)) || (h.ring == 1 && h.cls == 1)
    || (decide (2 ≤ h.ring) && h.cls == 2)

/-- DEADLINE is zero exactly on descriptors that are not LC; EPOCH_INSTALL requires it (install). -/
def deadlineOk (h : Hdr) (install : Bool) : Bool :=
  if h.cls = 0 || install then h.deadline != 0 else h.deadline == 0

/-- The context runs in address-only mode only with ADDR_ONLY set, which needs zero tags. -/
def addrOnlyOk (s : State) (h : Hdr) : Bool :=
  if h.addrOnly then h.layerTag == 0 && h.opTag == 0 else !(ctxOf s h.ctx).addrOnly

/-- Check 1 of R295: the header. -/
def headerBad (s : State) (h : Hdr) (i : OpInfo) (cancel install : Bool) : Bool :=
  !i.rings.contains h.ring || !classOk h cancel || !deadlineOk h install || !addrOnlyOk s h
    || (!i.job && h.job != 0) || (!i.mc && h.modelCtx != 0) || h.rsvd
    || (h.flags &&& i.flags) != h.flags || (decide (2 ≤ h.cls) && h.epochSel != 0)

/-- Checks 1 to 3 of R295; badBody says what check 3 finds. -/
def shapeCheck (s : State) (h : Hdr) (i : OpInfo) (badBody : Bool) (cancel install : Bool := false) : Option Status :=
  firstOf [failIf (headerBad s h i cancel install) .malformed,
    failIf (i.admin && h.ctx != adminCtx) .accessDenied,
    failIf (badBody || h.bodyRsvd) .malformed]

/-- A command's JOB names a live job that its own context admitted (R486). -/
def jobCheck (s : State) (h : Hdr) : Option Status :=
  firstOf [failIf (!jobLive s h.job) .malformed,
    failIf ((jobAt s (jobIdx h.job)).ctx != h.ctx) .accessDenied]

/-- A command's MODEL_CTX names a model context that the chip holds (R486). -/
def mcCheck (s : State) (h : Hdr) : Option Status := failIf (modelOf s h.modelCtx).isNone .malformed

/-- While a power-state request is pending, JOB_ADMIT, PLATE_LOAD and long operations complete with BUSY (R374). -/
def powerCheck (s : State) : Option Status := failIf s.pw.pending .busy

/-- The signer slot lies in its kind's range and holds a key that is not revoked (R400). -/
def slotOk (s : State) (n lo hi : Nat) : Bool :=
  decide (lo ≤ n ∧ n ≤ hi) && (match mget s.sec.slots n with | some k => k.digest.isSome && !k.revoked | none => false)

/-- The three stages of R489: the envelope, its signer slot in lo to hi, digest and signature, then the contents. -/
def objectCheck (s : State) (envelope : Bool) (signer lo hi : Nat) (signed : Bool) (contents : Option Status) : Option Status :=
  firstOf [failIf (!envelope) .malformed, failIf (!slotOk s signer lo hi) .accessDenied, failIf (!signed) .accessDenied, contents]

/-- An entry extends a measurement log; the last 65,536 entries are kept (R407). -/
def extendLog (entry : List Nat) (l : MLog) : MLog :=
  { digest := Config.sha3 l.digest entry, entries := (entry :: l.entries).take 65536,
    wrapped := l.wrapped || decide (65536 ≤ l.entries.length) }

/-- A request's job is live, serves the model context named, and lies in the context's partition (R486, R14). -/
def requestNames (s : State) (h : Hdr) : Option Status :=
  let j := jobAt s (jobIdx h.job)
  firstOf [failIf (!jobLive s h.job) .malformed,
    failIf (j.mc != h.modelCtx || j.part != ctxPart s h.ctx) .accessDenied]

/-- AUX_BYTES is at most 256 MiB and zero when AUX_ADDR is zero (Table 12.7). -/
def auxBad (addr bytes : Nat) : Bool := decide (2 ^ 28 < bytes) || (addr == 0 && bytes != 0)

/-- Body of GENERATE (Table 12.7). -/
def genBad (s : State) (h : Hdr) (b : GenBody) : Bool :=
  b.promptLen == 0 || decide (2 ^ 24 < b.promptLen) || b.promptAddr % 4 != 0
    || b.maxOutput == 0 || decide (2 ^ 24 < b.maxOutput) || decide (7 < b.outRing)
    || !ringThere (ctxOf s h.ctx) (10 + b.outRing) || decide (16 < b.specWindow)
    || (if bit h.flags 2 then b.stopAddr % 64 != 0 else b.stopAddr != 0) || auxBad b.auxAddr b.auxBytes

/-- Body of SCORE (Table 12.8). -/
def scoreBad (b : ScoreBody) : Bool :=
  b.promptLen == 0 || decide (2 ^ 24 < b.promptLen) || auxBad b.auxAddr b.auxBytes

/-- The stop block breaks Table 11.4 (R264). -/
def stopBad (b : StopBlock) : Bool :=
  decide (64 < b.tokenCount) || decide (8 < b.stringCount) || b.rsvd || !b.unusedZero
    || b.tokens.length != b.tokenCount || b.strings.length != b.stringCount
    || (b.lens.take b.stringCount).any (fun n => n == 0 || decide (32 < n)) || (b.lens.drop b.stringCount).any (fun n => n != 0)
    || (b.strings.map (·.length)) != b.lens.take b.stringCount

end Sys2Proof.Machine
end

