-- ==== Sys2Proof/Machine/Admit.lean ====
section
/-! DEFINITION. The admission of requests: prices and supply (R318 to R322), the frame tests (R197, R214, R256),
the order of decision (R491), what acceptance does, and the rerun of the supply test (R326, R353). Island demands
are integers in 1/256,000 island-µs, so every comparison is exact. -/
namespace Sys2Proof.Machine

/-! ## What a request would need -/

/-- The numbers of a request that its price takes. -/
structure Ask where
  op : ReqOp
  prompt : Nat
  maxOut : Nat
  window : Nat
  /-- The sequence continued, if any. -/
  seq : Option Nat

/-- Committed length of the sequence a request continues. -/
def askCommitted (s : State) (a : Ask) : Nat := match a.seq with | some i => (seqOf s i).committed | none => 0

/-- Positions of the dropped pages of entry i below its committed length (R222). -/
def droppedPositions (s : State) (i : Nat) : Nat :=
  let q := seqOf s i
  match (jobAt s q.job).kv with
  | none => 0
  | some g => sumOf (fun p => min q.committed ((p + 1) * pagePos g) - p * pagePos g)
      (dedup' ((q.pages.filter (fun k => k.dropped)).map (·.page)))

/-- n_in of R318: the prompt, and for an LC request the dropped positions of its sequence. -/
def askIn (s : State) (lc : Bool) (a : Ask) : Nat :=
  a.prompt + (match a.seq with | some i => if lc then droppedPositions s i else 0 | none => 0)

/-- The bucket bounds in force for a job: the table at BOUND_SLOT of a resident plate (R225). -/
def bucketBounds (s : State) (i : Nat) (g : KvGeom) : List Nat :=
  match (jobAt s i).tables.find? (fun t => t.bound.any (fun b => b.2 == g.boundSlot)) with
  | some t => (match t.front with | some (.lookup _ _ _ _ es _) => es | _ => [])
  | none => []

/-- A context length raised to its bucket's bound in BUCKETS mode (R225). -/
def bucketed (s : State) (i n : Nat) : Nat :=
  match (jobAt s i).kv with
  | some g => if g.ragged = 1 then (match (bucketBounds s i g).find? (fun b => decide (n ≤ b)) with | some b => b | none => n) else n
  | none => n

/-- Context length of the request as submitted: committed length, input and output (R214, R318). -/
def askLen (s : State) (lc : Bool) (a : Ask) : Nat := askCommitted s a + askIn s lc a + a.maxOut

/-- n_ctx of R318: the context length, raised to the bucket's bound where R225 applies. -/
def askCtx (s : State) (i : Nat) (lc : Bool) (a : Ask) : Nat := bucketed s i (askLen s lc a)

/-- F of R214: worst-case frames of one head group. -/
def groupFrames (g : KvGeom) (c w : Nat) : Nat :=
  let pages := ceilDiv (c + w) (pagePos g)
  g.layers * (if g.budgetBlocks = 0 then pages else min pages (g.budgetBlocks + ceilDiv w 16 + 1))

/-- Level-3 page-table frames of a sequence of c + w positions (R214). -/
def tableFrames (g : KvGeom) (c w : Nat) : Nat :=
  ceilDiv (g.headGroups * g.layers * ceilDiv (ceilDiv (c + w) (pagePos g)) 32) 256

/-- Entry that the request uses or would take. -/
def askEntry (s : State) (a : Ask) : Nat := match a.seq with | some i => i | none => (freeSeq s).getD 0

/-- Worst-case frames in the home partition (R256): request state, token buffer, page tables. -/
def homeFrames (s : State) (h : Hdr) (a : Ask) : Nat :=
  let pn := ctxPart s h.ctx
  if a.op = .embed then 1
  else
    let i := askEntry s a
    let n := askCommitted s a + a.prompt + a.maxOut
    let held := fun k => if a.seq.isSome then heldBy s pn k else 0
    1 + (ceilDiv (4 * n) 65536 - held (.tokenBuffer i))
      + (match (jobAt s (jobIdx h.job)).kv with
         | none => 0
         | some g => (tableFrames g (askLen s (h.cls == 0) a) a.window - held (.pageTable i))
             + (if (findObj s pn (.level2 h.ctx (i / 32))).isSome then 0 else 32))

/-- What the request holds of each head chip's share: chip slot and frames (R214). -/
def shareAsk (s : State) (h : Hdr) (a : Ask) : NMap Nat :=
  match a.op, (jobAt s (jobIdx h.job)).kv with
  | .embed, _ => []
  | _, none => []
  | _, some g =>
    let f := groupFrames g (askLen s (h.cls == 0) a) a.window
    forEach (fun c m => madd m c f) (g.headChips.take g.headGroups) []

/-- Frames of a partition beyond the admission capacity that a shrink has set (R202). -/
def beyondTarget (p : Part) : Nat := match p.target with | some n => 32 * (runLen p.chunks - n) | none => 0

/-- The frame tests of R214 and R197. -/
def framesFit (s : State) (h : Hdr) (a : Ask) : Bool :=
  let pn := ctxPart s h.ctx
  let p := partOf s pn
  let free := (jobAt s (jobIdx h.job)).shareFree
  (shareAsk s h a).all (fun e => decide (e.2 ≤ mgetD free e.1 0))
    && decide (homeFrames s h a + committedOf s pn + beyondTarget p ≤ roomOf s pn + cachedFrames p)

/-! ## Supply and the time test (R319, R320) -/

/-- P + 50 µs + 20 µs in ns (R320). -/
def latency (s : State) : Nat := s.hi.period * 250 + 70000

/-- Claimed SERVE of a job (R309). -/
def claimedServe (j : Job) : Nat := sumOf (fun e => e.2) j.claimed

/-- The cumulative demand cum (1/256,000 island-µs) fits the island supply of job j within dt ns: s_I of R319,
scaled in an emergency (R326). -/
def islandFits (s : State) (j : Job) (i cum : Nat) (dt : Int) : Bool :=
  let rate : Int := 99 * ((j.resv.lcShare * (jobIslands s i).length : Int) - 10 * (claimedServe j : Int))
  decide ((cum : Int) * (10 ^ 8 * j.scaleI.2) ≤ (if 0 < rate then rate else 0) * (j.scaleI.1 * 256000) * dt)

/-- Bytes fit a bandwidth of mb MB/s within dt ns. -/
def bytesFit (cum mb num den : Nat) (dt : Int) : Bool := decide ((cum : Int) * (1000 * den) ≤ (mb * num : Int) * dt)

/-- Remote demand (1/65,536,000 island-µs) fits a claim (s_k of R319) within dt ns. -/
def remoteFits (cum claim : Nat) (dt : Int) : Bool := decide ((cum : Int) * 10 ^ 7 ≤ (99 * claim : Int) * 65536000 * dt)

/-- Requests by ascending deadline, ties by detection. -/
def byDeadline (l : List (Nat × Request)) : List (Nat × Request) :=
  sortBy (fun a b => decide (a.2.h.deadline < b.2.h.deadline)
    || (a.2.h.deadline == b.2.h.deadline && (decide (a.2.detect < b.2.detect) || (a.2.detect == b.2.detect && decide (a.1 ≤ b.1))))) l

/-- The cumulative supply test at device time now over requests in deadline order (R320). -/
def supplyOk (s : State) (i : Nat) (now : Nat) : List (Nat × Request) → Nat → Nat → Nat → List Nat → Bool
  | [], _, _, _, _ => true
  | (_, r) :: l, ci, cm, cx, cr =>
    let j := jobAt s i
    let ci := ci + r.demI
    let cm := cm + r.demM
    let cx := cx + r.demX
    let cr := if cr.isEmpty then r.demR else List.zipWith (· + ·) cr r.demR
    let dt : Int := (r.h.deadline : Int) - now - latency s - 100000
    islandFits s j i ci dt && bytesFit cm j.resv.lcMem 1 1 dt && bytesFit cx j.resv.lcXn j.scaleX.1 j.scaleX.2 dt
      && (cr.zip j.resv.remotes).all (fun e => remoteFits e.1 e.2.claim dt)
      && supplyOk s i now l ci cm cx cr

/-- Accepted LC requests of job i without a final completion. -/
def lcOf (s : State) (i : Nat) : List (Nat × Request) :=
  s.srv.reqs.filter (fun e => jobIdx e.2.h.job == i && isLc e.2 && e.2.st != .detected)

/-- Demands of a request (R318). -/
def priced (s : State) (h : Hdr) (a : Ask) (r : Request) : Request :=
  let i := jobIdx h.job
  let j := jobAt s i
  let nIn := askIn s (h.cls == 0) a
  let nCtx := askCtx s i (h.cls == 0) a
  let cost := fun pick => costSum s i (reqOpcode a.op) pick
  let ci := cost (·.isl)
  let cm := cost (·.mem)
  let cx := cost (·.xn)
  let p := priceOf ci nIn a.maxOut nCtx
  let d := p * (1000 + widenOf j.resv)
  { r with
    demI := d
    reserve := p * widenOf j.resv
    demM := 64 * priceOf cm nIn a.maxOut nCtx
    demX := 64 * priceOf cx nIn a.maxOut nCtx
    demR := j.resv.remotes.map (fun e => d * e.ratio)
    costC := (ci.2.2.1, 64 * cm.2.2.1, 64 * cx.2.2.1) }

/-- The time tests of R320 for a priced request: its path, then the cumulative supply. -/
def timeOk (s : State) (i : Nat) (r : Request) (nOut : Nat) : Bool :=
  let j := jobAt s i
  decide (16 * (s.time + latency s + j.resv.tFixed * 1000) + nOut * j.resv.tOut * 1000 ≤ 16 * r.h.deadline)
    && supplyOk s i s.time (byDeadline ((s.srv.nextReq, r) :: lcOf s i)) j.overrun 0 0 []

/-- D_step and 20 µs more from now pass the deadline (R267, R322): the greatest of four times. -/
def marginPassed (s : State) (r : Request) : Bool :=
  let i := jobIdx r.h.job
  let j := jobAt s i
  let slack : Int := (r.h.deadline : Int) - s.time - 20000
  let rate : Int := 99 * ((j.resv.lcShare * (jobIslands s i).length : Int) - 10 * (claimedServe j : Int))
  decide (16 * slack < (j.resv.tOut * 1000 : Int))
    || decide (slack * ((if 0 < rate then rate else 0) * (j.scaleI.1 * 256000))
        < ((r.costC.1 * (1000 + widenOf j.resv) : Nat) : Int) * (10 ^ 8 * j.scaleI.2))
    || decide (slack * j.resv.lcMem < ((r.costC.2.1 * 1000 : Nat) : Int))
    || decide (slack * (j.resv.lcXn * j.scaleX.1) < ((r.costC.2.2 * 1000 * j.scaleX.2 : Nat) : Int))

/-! ## The order of decision (R491) -/

/-- Table 11.2 for a request on handle hd: the first row that applies. -/
def seqCheck (s : State) (h : Hdr) (a : Ask) (hd : Nat) : Option Status :=
  let i := hd % 65536
  let q := seqOf s i
  let j := jobAt s (jobIdx h.job)
  if hd = 0 then
    firstOf [failIf (freeSeq s).isNone .resourceExhausted,
      failIf (decide (maxPositions j < a.prompt + a.maxOut) || a.prompt == 0) .malformed]
  else
    firstOf [failIf (q.st == 0 || q.st == 3 || q.gen != hd / 65536) .malformed,
      failIf (q.ctx != h.ctx) .accessDenied,
      failIf (q.st == 1 || q.migrating) .busy,
      failIf (match modelOf s q.mc with
        | some m => (match newestEpoch m with | some e => e.num != q.epoch | none => true)
        | none => true) .epochUnavailable,
      failIf (decide (maxPositions j < q.committed + a.prompt + a.maxOut) || a.prompt == 0) .malformed]

/-- Every resident plate of the job carries the epoch's LAYOUT_ID (R246). -/
def layoutOk (s : State) (i : Nat) (e : Epoch) : Bool := (jobPlates s i).all (fun p => p.2.image.layoutId == e.layoutId)

/-- The epoch binding of R244, R233, R246 and R248. -/
def epochCheck (s : State) (h : Hdr) : Option Status :=
  match modelOf s h.modelCtx with
  | none => some .epochUnavailable
  | some m =>
    match newestEpoch m with
    | none => some .epochUnavailable
    | some e => failIf ((h.epochSel != 0 && h.epochSel != e.num) || e.failed || !layoutOk s (jobIdx h.job) e) .epochUnavailable

/-- The newest detokenisation table of a model context. -/
def newestDetok (s : State) (mc : Nat) : Option Detok :=
  match modelOf s mc with
  | some m => m.detoks.getLast?
  | none => none

/-- A draining plate serves the request's opcode, so its price includes the plate (R75). -/
def plateDraining (s : State) (i op : Nat) : Bool := (jobPlates s i).any (fun p => p.2.state == 3 && servesOp p.2 op)

/-- What stands in the way of new requests of the job: a coolant stop (R393), a frozen job (R350), a job or plate
that drains (R310, R75). The spec gives these no place in R491; they come before the frame tests (log entry 11). -/
def gateCheck (s : State) (h : Hdr) (op : ReqOp) : Option Status :=
  let i := jobIdx h.job
  let j := jobAt s i
  firstOf [failIf (s.pw.st == .halted) .coolantStop,
    (if j.frozen then some j.frozenStatus else none),
    failIf (j.draining || plateDraining s i (reqOpcode op)) .declined]

/-- Steps 6 and 7 of R491 for request r: frames, then the time test of an LC request. An emergency, lost capacity
and a job without a resident plate decline every LC request (R326, R353, R319). -/
def roomCheck (s : State) (h : Hdr) (a : Ask) (r : Request) : Option Status :=
  firstOf [failIf (!framesFit s h a) .resourceExhausted,
    failIf (h.cls == 0 && (s.fab.emergency || s.xn.capacityShort || (jobPlates s (jobIdx h.job)).isEmpty
      || !timeOk s (jobIdx h.job) (priced s h a r) a.maxOut)) .declined]

/-! ## Acceptance -/

/-- The sequence that an accepted request uses: an entry newly opened, or the one it continues (R250, R257). -/
def takeSeq (h : Hdr) (a : Ask) (epoch : Nat) (s : State) : Nat × State :=
  match a.seq with
  | some i => (i, modSeq i (fun q => { q with st := 1, request := h.reqId }) s)
  | none =>
    let i := (freeSeq s).getD 0
    let q := seqOf s i
    let g := if q.used then nextGen16 q.gen else q.gen
    let q : Seq := { gen := g, st := 1, ctx := h.ctx, job := jobIdx h.job, mc := h.modelCtx, epoch := epoch,
                     request := h.reqId, used := true, tokensDva := Config.tokensDva i }
    (i, { s with srv := { s.srv with seqs := mset s.srv.seqs i q } })

/-- The sequence's KV frames are pinned for an LC request, in the operation that writes its ACCEPT (R220). -/
def pinSeq (h : Hdr) (i : Nat) (s : State) : State :=
  if h.cls = 0 then setClass (ctxPart s h.ctx) (fun k => match k with | .kv home j _ _ => home == ownLoc s && j == i | _ => false) .pinned s else s

/-- The count of accepted requests of the last 600 s and the last use of the model context (R198). -/
def countUse (mc : Nat) (s : State) : State :=
  modModel mc (fun m => { m with
    accepts := s.time :: m.accepts.filter (fun t => decide (s.time ≤ t + 600000000000))
    lastUse := s.time }) s

/-- Request r is accepted: its epoch is bound, its frames and demands are recorded, its sequence is active and
pinned, and ACCEPT is written (R257, R320). -/
def acceptReq (h : Hdr) (a : Ask) (r : Request) (s : State) : State :=
  let k := s.srv.nextReq
  let epoch := match modelOf s h.modelCtx with | some m => (match newestEpoch m with | some e => e.num | none => 0) | none => 0
  let share := shareAsk s h a
  let home := homeFrames s h a
  let r := { priced s h a r with st := .accepted, epoch := epoch, framesGroup := share, framesHome := home }
  let s := countUse h.modelCtx (modEpoch h.modelCtx epoch (fun e => { e with refs := e.refs + 1 }) s)
  let s := modJob (jobIdx h.job) (fun j => { j with shareFree := forEach (fun e m => mset m e.1 (mgetD m e.1 0 - e.2)) share j.shareFree }) s
  let (i, s) := if a.op = .embed then (0, s) else takeSeq h a epoch s
  let r := { r with seq := i, hasSeq := a.op != .embed, opensSeq := a.op != .embed && a.seq.isNone }
  let s := { s with srv := { s.srv with reqs := mset s.srv.reqs k r, nextReq := k + 1 } }
  let s := if a.op = .embed then s else pinSeq h i s
  let s := { s with pw := { s.pw with lastBusy := s.time } }
  let s := owedRec (cmdOf h) .accept .complete 0 (if a.op = .generate then seqHandle s i else 0) 0 s
  let s := countPage h.ctx (if h.cls = 0 then 0 else 2) 1 s
  let s := traceEvent h.ctx h.layerTag h.opTag h.job (.accept h.reqId (reqOpcode a.op) false .complete h.deadline) [k] s
  -- accepted while a reset of its context runs (R443)
  if (ctxOf s h.ctx).resetBusy then endReq false k .resetAborted s else s

/-! ## The rerun of the supply test (R326, R353) -/

/-- The accepted LC request of job i that a rerun removes next: the latest deadline, ties by latest detection. -/
def rerunVictim (s : State) (i : Nat) : Option Nat := ((byDeadline (lcOf s i)).getLast?).map (·.1)

/-- Requests of job i are removed with a status until the supply test passes. -/
def rerunJob (i : Nat) (st : Status) : Nat → State → State
  | 0, s => s
  | fuel + 1, s =>
    if supplyOk s i s.time (byDeadline (lcOf s i)) (jobAt s i).overrun 0 0 [] then s
    else match rerunVictim s i with
      | none => s
      | some k => rerunJob i st fuel (endReq false k st s)

/-- The rerun over every job of the chip. -/
def rerunAll (st : Status) (s : State) : State :=
  forEach (fun i s => rerunJob i st (lcOf s i).length s) ((s.srv.jobs.filter (fun j => j.2.present)).map (·.1)) s

end Sys2Proof.Machine
end

