-- ==== Sys2Proof/Machine/Islands.lean ====
section
/-! DEFINITION. The island grid's shared operations: geometry (R29, R30), service-ring lines (R44, R52), arrival
counters (R46), plate errors (R456), fences (R51 to R54), and the memory of a plate's islands (R58). -/
namespace Sys2Proof.Machine

/-! ## Geometry -/

/-- The ID names an island (R29). -/
def islValid (n : Nat) : Bool := decide (n < 2048) && decide (n / 32 % 16 < 15) && decide (n % 32 < 20)

/-- Field of an island. -/
def fieldOf (n : Nat) : Nat := n / 512
/-- Global column (R30). -/
def gcol (n : Nat) : Nat := n % 32 + 20 * (n / 512 % 2)
/-- Global row (R30). -/
def grow (n : Nat) : Nat := n / 32 % 16 + 15 * (n / 512 / 2)
/-- The island at a global position, if there is one. -/
def islAt (col row : Int) : Option Nat :=
  if 0 ≤ col ∧ col < 40 ∧ 0 ≤ row ∧ row < 30 then
    let c := col.toNat
    let r := row.toNat
    some (((c / 20) + 2 * (r / 15)) * 512 + (r % 15) * 32 + c % 20)
  else none

/-- The neighbour that a Dovetail port faces: 0 N, 1 E, 2 S, 3 W. -/
def neighbour (n port : Nat) : Option Nat :=
  let c : Int := gcol n
  let r : Int := grow n
  if port = 0 then islAt c (r - 1) else if port = 1 then islAt (c + 1) r
  else if port = 2 then islAt c (r + 1) else if port = 3 then islAt (c - 1) r else none

/-- Every island ID. -/
def allIslands : List Nat := (List.range 2048).filter islValid

/-- Island n's state. -/
def islOf (s : State) (n : Nat) : Isl := mgetD s.fab.isl n s.fab.islBase

/-- Island n changed by f. -/
def modIsl (n : Nat) (f : Isl → Isl) (s : State) : State :=
  if islValid n then { s with fab := { s.fab with isl := mupd s.fab.isl n s.fab.islBase f } } else s

/-- Field n's state. -/
def fieldSt (s : State) (n : Nat) : Field := mgetD s.fab.fields n {}

/-- Field n changed by f. -/
def modField (n : Nat) (f : Field → Field) (s : State) : State :=
  { s with fab := { s.fab with fields := mupd s.fab.fields n {} f } }

/-- The island is fenced. -/
def fenced (s : State) (n : Nat) : Bool := (islOf s n).state == 2

/-- The island is brought up and not fenced: STATE is IDLE or ACTIVE (Table 2.4). -/
def islUsable (s : State) (n : Nat) : Bool := decide ((islOf s n).state < 2)

/-- An island once Table 2.2 has run: idle and locked at 1.00 GHz; where the beacon is absent it has not left reset
(R34, R50). -/
def upIsl (beacon : Bool) : Isl :=
  if beacon then { state := 0, routerOk := true, fllLock := true, freqCode := 48 } else { state := 3 }

/-- An island after the bring-up of every island: a fence and what Patina keeps stand (R54, Table 19.2), and the count of
droop triggers since cold boot (Table 2.3). -/
def islAfter (beacon : Bool) (x : Isl) : Isl :=
  let u := upIsl beacon
  { u with
    state := if x.state = 2 then 2 else u.state
    routerOk := if x.state = 2 then x.routerOk else u.routerOk
    fllLock := u.fllLock && x.state != 2
    freqCode := if x.state = 2 then 0 else u.freqCode
    lanes := x.lanes
    wear := x.wear
    degr := x.degr
    ceHour := x.ceHour
    uncorrected := x.uncorrected
    droopCnt := x.droopCnt
    testing := x.testing }

/-- Without the beacon no island leaves reset: FAULT_N asserts and a Coffer record is written (R34). -/
def beaconFault (s : State) : State :=
  if s.fab.beaconOk then s else coffer 2 3 .beaconLost 0 0 0 0 { s with pw := { s.pw with faultN := true } }

/-- Every island is brought up, fences standing (R50, R54). -/
def bringAll (s : State) : State :=
  beaconFault { s with fab := { s.fab with
    isl := mmap s.fab.isl (fun _ x => islAfter s.fab.beaconOk x)
    islBase := upIsl s.fab.beaconOk } }

/-! ## Lines to the service ring -/

/-- The islands from n to the outer row of its field, n first. -/
def lineToRow (n : Nat) : List Nat :=
  let l := n / 32 % 16
  if n / 512 / 2 = 0 then (List.range (l + 1)).map (fun i => n - 32 * i) else (List.range (15 - l)).map (fun i => n + 32 * i)

/-- The islands from n to the outer column of its field, n first. -/
def lineToCol (n : Nat) : List Nat :=
  let l := n % 32
  if n / 512 % 2 = 0 then (List.range (l + 1)).map (fun i => n - i) else (List.range (20 - l)).map (fun i => n + i)

/-- The line by which ring traffic reaches an island: the nearest outer edge, ties to the row (R44). -/
def ringLine (n : Nat) : List Nat :=
  if (lineToRow n).length ≤ (lineToCol n).length then lineToRow n else lineToCol n

/-- The other line (R52). -/
def otherLine (n : Nat) : List Nat :=
  if (lineToRow n).length ≤ (lineToCol n).length then lineToCol n else lineToRow n

/-- Every island of the line before the last forwards. -/
def lineWorks (s : State) (n : Nat) (l : List Nat) : Bool :=
  l.all (fun k => k == n || !fenced s k || (islOf s k).routerOk)

/-- The line in use: the nearest that works (R44, R52). -/
def lineInUse (s : State) (n : Nat) : Option (List Nat) :=
  if lineWorks s n (ringLine n) then some (ringLine n) else if lineWorks s n (otherLine n) then some (otherLine n) else none

/-! ## Plate errors and arrival counters -/

/-- A plate error that tears the owning job down (Table 19.6). -/
def plateFatal (i unit : Nat) (s : State) : State :=
  let j := jobAt s i
  teardownJob false i .jobTornDown (coffer 0 3 .plateError unit j.id j.mc 0 s)

/-- A plate error without further effect on the job. -/
def plateNote (i unit : Nat) (s : State) : State :=
  let j := jobAt s i
  coffer 0 3 .plateError unit j.id j.mc 0 s

/-! ## The background reservation (R27, R28) -/

/-- Ledger key of a memory controller's time. -/
def bgCtl (k : Nat) : Nat := k
/-- Ledger key of an island's time. -/
def bgIsl (n : Nat) : Nat := 16 + n

/-- P has risen by RAMP over the last 1 ms: firmware holds back what would raise it further (R388). -/
def rampFull (s : State) : Bool :=
  (s.pw.history.filter (fun e => decide (s.time ≤ e.1 + 1000000))).any (fun e => decide (e.2 + s.pw.ramp ≤ s.pw.power))

/-- Background work of c ns on a resource still fits in this window's reservation, b per mille of 100 µs, and the ramp limit does not
hold it back (R27, R388). -/
def bgFits (s : State) (key c : Nat) : Bool := !rampFull s && decide (mgetD s.fab.bgUsed key 0 + c ≤ 100 * s.fab.bg)

/-- Background work of c ns is billed to the reservation of a resource. -/
def bgBill (key c : Nat) (s : State) : State :=
  let s := countGlobal (if key < 16 then 65 else 64) c s
  { s with fab := { s.fab with bgUsed := madd s.fab.bgUsed key c } }

/-- The plate that holds physical counter c of island n. -/
def counterOwner (s : State) (n c : Nat) : Option Nat :=
  (s.fab.plates.find? (fun p => p.2.isls.any (fun i => i.isl == n && i.ctrs.contains c))).map (·.1)

/-- Physical counter c of island n rises by inc; it saturates, and an overflow is reported against the owning job
as a plate error (R46). -/
def addCounter (n c inc : Nat) (s : State) : State :=
  let v := mgetD (islOf s n).counters c 0 + inc
  let s := modIsl n (fun x => { x with counters := mset x.counters c (sat 32 v) }) s
  if v < 2 ^ 32 then s
  else
    let s := modIsl n (fun x => { x with ctrOverflow := if x.ctrOverflow.contains c then x.ctrOverflow else c :: x.ctrOverflow }) s
    match counterOwner s n c with
    | some p => plateFatal (plateOf s p).job n s
    | none => s

/-- Logical counter ctr of the plate's island number idx (in R65 order) is signalled. -/
def signalCtr (p idx ctr inc : Nat) (s : State) : State :=
  match (plateOf s p).isls[idx]? with
  | some i => (match i.ctrs[ctr]? with | some c => addCounter i.isl c inc s | none => s)
  | none => s

/-- Value of a logical counter of a plate. -/
def ctrValue (s : State) (p idx ctr : Nat) : Nat :=
  match (plateOf s p).isls[idx]? with
  | some i => (match i.ctrs[ctr]? with | some c => mgetD (islOf s i.isl).counters c 0 | none => 0)
  | none => 0

/-! ## A plate's memory -/

/-- Key of byte a of a plate's banks in its island number idx: the sequencer maps the logical bank onto the physical one
assigned at placement (R58). None beyond the banks that the plate owns. -/
def bankKey (s : State) (p idx a : Nat) : Option Nat :=
  match (plateOf s p).isls[idx]? with
  | some i => (i.phys[a / 131072]?).map (fun b => i.isl * 2 ^ 21 + b * 131072 + a % 131072)
  | none => none

/-- Bytes that the plate's logical banks in an island hold (R58): BANKS of 128 KiB. -/
def bankBytes (s : State) (p idx : Nat) : Nat :=
  match (plateOf s p).isls[idx]? with | some i => i.banks * 131072 | none => 0

/-- Byte a of a plate's banks. Past the plate's banks the sequencer maps nothing: what a program then reads is a free value
(log entry 155). -/
def bankAt (s : State) (p idx a : Nat) : Byte :=
  match bankKey s p idx a with | some k => cread s.fab.scratch k | none => Config.strayByte a

/-- n bytes of a plate's banks from byte a. -/
def readBank (s : State) (p idx a : Nat) : Nat → List Byte
  | 0 => []
  | n + 1 => bankAt s p idx a :: readBank s p idx (a + 1) n

/-- One byte is written into a plate's banks; it is no longer poison. -/
def putBank (p idx a : Nat) (b : Byte) (s : State) : State :=
  match bankKey s p idx a with
  | some k =>
    let l := s.fab.poison.filter (fun x => x != k)
    { s with fab := { s.fab with
      scratch := cwrite s.fab.scratch k b
      poison := l } }
  | none => s

/-- Bytes written in turn from byte a. -/
def putBanks (p idx : Nat) : Nat → List Byte → State → State
  | _, [], s => s
  | a, b :: l, s => putBanks p idx (a + 1) l (putBank p idx a b s)

/-- Bytes written into a plate's banks; a write that does not fit in them changes nothing. -/
def writeBank (p idx a : Nat) (l : List Byte) (s : State) : State :=
  if a + l.length ≤ bankBytes s p idx then putBanks p idx a l s else s

/-- A key added to a list that does not hold it. -/
def addKey (k : Option Nat) (l : List Nat) : List Nat :=
  match k with
  | some k => if l.contains k then l else k :: l
  | none => l

/-- n bytes from byte a of a plate's banks are marked as poison (R40, R455). -/
def poisonBank (p idx a n : Nat) (s : State) : State :=
  let l := (List.range n).foldl (fun l j => addKey (bankKey s p idx (a + j)) l) s.fab.poison
  { s with fab := { s.fab with poison := l } }

/-- Some of n bytes from byte a of a plate's banks carries poison. -/
def bankPoisoned (s : State) (p idx a n : Nat) : Bool :=
  !s.fab.poison.isEmpty && (List.range n).any (fun j => match bankKey s p idx (a + j) with
    | some k => s.fab.poison.contains k
    | none => false)

/-- Bytes landed in a plate's banks by a tile mover or the EXU, counted against its job's context. -/
def landBank (p idx a layer op : Nat) (l : List Byte) (s : State) : State :=
  let j := jobAt s (plateOf s p).job
  writeBank p idx a l (activity j.ctx .scratchIn j.id layer op l.length s)

/-! ## Fences (R51 to R54) -/

/-- One island is fenced: recorded in the Patina record and in the Coffer; a resident plate on it stops and its
job is torn down. -/
def fenceOne (n : Nat) (fwd : Bool) (s : State) : State :=
  if fenced s n then s
  else
    let s := modIsl n (fun x => { x with state := 2, routerOk := fwd, testing := false }) s
    let s := { s with td := { s.td with fences := if s.td.fences.contains n then s.td.fences else n :: s.td.fences } }
    let s := advise 5 n (coffer 3 3 .fence n 0 0 0 s)
    let js := dedup' ((s.fab.plates.filter (fun p => decide (2 ≤ p.2.state) && p.2.isls.any (fun i => i.isl == n))).map (fun p => p.2.job))
    forEach (fun i s => teardownJob false i .jobTornDown s) js s

/-- Islands of a field that no line reaches any more (R52). -/
def cutOff (s : State) (f : Nat) : List Nat :=
  allIslands.filter (fun n => fieldOf n == f && !fenced s n && (lineInUse s n).isNone)

/-- The forwarding of an island already fenced fails: ROUTER_OK clears (R52). -/
def stopForward (n : Nat) (s : State) : State := modIsl n (fun x => { x with routerOk := false }) s

/-- Firmware fences island n; fwd says that its forwarding passes its self-test. Where it fails, islands cut off from both
edges of the field are fenced too (R51, R52). DEDUCED (log entry 156): an island fenced only because no line reaches it keeps
ROUTER_OK, for its own forwarding has not failed. -/
def fence (n : Nat) (fwd : Bool) (s : State) : State :=
  if !islValid n then s
  else
    let s := if fenced s n then (if fwd then s else stopForward n s) else fenceOne n fwd s
    if fwd then s else forEach (fun k s => fenceOne k true s) (cutOff s (fieldOf n)) s

/-- An uncorrectable error in an island's cells or scratchpad; when one recurs the island is fenced (R51; log entry 157). -/
def cellError (n : Nat) (fwd : Bool) (s : State) : State :=
  let s := coffer 3 3 .plateError n 0 0 0 (modIsl n (fun x => { x with uncorrected := x.uncorrected + 1 }) s)
  if 2 ≤ (islOf s n).uncorrected then fence n fwd s else s

end Sys2Proof.Machine
end

