-- ==== Sys2Proof/Machine/Xaene.lean ====
section
/-! DEFINITION. Xaene links and remote operations (chapter 14): the target's part of READ, WRITE and ATOMIC,
responses and lost targets, flits, replay, training, encryption, capacity and the XN_ registers. -/
namespace Sys2Proof.Machine

/-! ## Access to this chip's memory by packets (R340, R346, Table 8.4) -/

/-- A packet of firmware: FLOW in the firmware range. -/
def fwPacket (p : Pkt) : Bool := p.tag == 0 && decide (0x400 ≤ p.flow ∧ p.flow ≤ 0x40F)

/-- Table 8.4 for a packet on a chunk; exu: an embedding-row update. -/
def pktAllowed (s : State) (p : Pkt) (write exu : Bool) (chunk : Nat) : Bool :=
  match chunkKind s chunk with
  | 1 => fwPacket p
  | 2 => if write then fwPacket p || exu else fwPacket p || chunkOwner s chunk == p.modelCtx
  | 3 => chunkOwner s chunk == p.tag
  | _ => false

/-- Chunks that n bytes from a touch. -/
def chunksOf (a n : Nat) : List Nat := dedup' [a / 2097152, (a + (n - 1)) / 2097152]

/-- Lines that n bytes from a touch. -/
def linesOf (a n : Nat) : List Nat := (List.range ((a + (n - 1)) / 32 + 1 - a / 32)).map (fun i => a / 32 + i)

/-- The address names this chip (R25) and lies in its installed memory. -/
def ownAddr (s : State) (gfa : Nat) : Bool := gfa / 2 ^ 41 == ownLoc s && backed s gfa

/-- What the target finds before it carries a request out: the first status that applies, or none. A poisoned
line answers RESTORING while its frame is being restored. -/
def targetCheck (s : State) (p : Pkt) (write exu bad : Bool) (n : Nat) : Option RespStatus :=
  let a := p.addr % 2 ^ 41
  if bad then some .malformed
  else if !ownAddr s p.addr || !backed s (a + n - 1) then some .poison
  else if !(chunksOf a n).all (pktAllowed s p write exu) then some .denied
  else
    let ls := (linesOf a n).filter (linePoisoned s)
    let ls := if write then ls.filter (fun l => !(decide (a ≤ 32 * l) && decide (32 * l + 32 ≤ a + n))) else ls
    if ls.any (fun l => s.mem.restoring.contains (l / 2048)) then some .restoring
    else if ls.isEmpty then none else some .poison

/-- Bytes of a remote operation counted at the controller and against the serving job's context (R420). -/
def countTarget (write : Bool) (p : Pkt) (n : Nat) (s : State) : State :=
  let a := p.addr % 2 ^ 41
  match servingJob s p.modelCtx with
  | some i => countDram write a n (jobAt s i).ctx (jobAt s i).id 0xFFFF 0xFFFF s
  | none => countGlobal ((subchannelOf s a) / 24 + if write then 16 else 0) n s

/-- Key of a request of a flow by its FSEQ. -/
def execKey (p : Pkt) (fseq : Nat) : Nat := (p.src * 65536 + p.flow) * 65536 + fseq

/-- The response to a request, kept so that a resend is answered again without executing (R349). -/
def answer (p : Pkt) (st : RespStatus) (data : List Byte) (codes : List Nat) (s : State) : State :=
  let r : RespPkt := { src := ownLoc s, flow := p.flow, fseq := p.fseq, status := st, payload := data, codes := codes }
  let s := if st = .restoring then s
    else { s with xn := { s.xn with
        executed := mdel (mset s.xn.executed (execKey p p.fseq) r) (execKey p ((p.fseq + 32768) % 65536)) } }
  sendXn p.src p.vc p.lc (.resp r) s

/-- A request whose FSEQ has been executed is answered again; else f carries it out. -/
def once (p : Pkt) (f : State → State) (s : State) : State :=
  match mget s.xn.executed (execKey p p.fseq) with
  | some r => if p.resend then sendXn p.src p.vc p.lc (.resp r) s else f s
  | none => f s

/-- Alignment unit at an address: 4 bytes, or 32 in an SP region (R346). -/
def alignAt (s : State) (gfa : Nat) : Nat := if lmodeOf s (gfa % 2 ^ 41 / 2097152) = 0 then 4 else 32

/-- A tile mover's packet names a line mode that some chunk of its target has not (R101). -/
def modeBad (s : State) (p : Pkt) (n : Nat) : Bool :=
  match p.mode with
  | some m => (chunksOf (p.addr % 2 ^ 41) n).any (fun c => lmodeOf s c != m)
  | none => false

/-- Scale codes of the lines of n bytes from a, where a lies in an SP region. -/
def codesAt (s : State) (a n : Nat) : List Nat :=
  if lmodeOf s (a / 2097152) = 0 then [] else (List.range (n / 32)).map (fun k => mgetD s.mem.scales (a / 32 + k) 0)

/-- Scale codes are written to consecutive lines. -/
def putCodes : Nat → List Nat → State → State
  | _, [], s => s
  | line, c :: l, s => putCodes (line + 1) l { s with mem := { s.mem with
      scales := if c = 0 then mdel s.mem.scales line else mset s.mem.scales line c } }

/-- A READ packet reaches this chip (R346). -/
def readPkt (p : Pkt) (s : State) : State :=
  let n := 2 ^ p.size
  let a := p.addr % 2 ^ 41
  let bad := decide (n < 4) || decide (4096 < n) || p.addr % alignAt s p.addr != 0 || n % alignAt s p.addr != 0 || modeBad s p n
  match targetCheck s p false false bad n with
  | some st => answer p st [] [] s
  | none => answer p .ok (readDram s a n) (codesAt s a n) (countTarget false p n s)

/-- The page of a sequence that a 64 KiB mapping belongs to: entry, group, page (R206). -/
def pageOfLeaf (s : State) (l : Leaf) : Option (Nat × Nat × Nat) :=
  let a := l.vpn * 65536
  let i := a / 2 ^ 34 % 65536
  if l.level ≠ 3 ∨ a / 2 ^ 56 ≠ 1 then none
  else (jobAt s (seqOf s i).job).kv.map (fun g => (i, a / 2 ^ 31 % 8, a % (2 ^ 31 / layersP g) / 65536))

/-- A table entry is written: a page whose entry a head chip's firmware clears is the sequence's no longer (R217). -/
def writeEntry (l : Leaf) (v : Dword) (s : State) : State :=
  if bit v.toNat 63 || bit v.toNat 58 then setEntry l.ctx l.level l.vpn v s
  else
    let s := editLeaves (fun x => if x.ctx == l.ctx && x.level == l.level && x.vpn == l.vpn then none else some x) s
    match pageOfLeaf s l with
    | some (i, g, p) => modSeq i (fun q => { q with pages := q.pages.filter (fun k => !(k.group == g && k.page == p)) }) s
    | none => s

/-- A WRITE packet reaches this chip (R346). -/
def writePkt (p : Pkt) (s : State) : State :=
  let n := p.payload.length
  let a := p.addr % 2 ^ 41
  let bad := n == 0 || decide (4096 < n) || p.length != n || p.addr % alignAt s p.addr != 0 || n % alignAt s p.addr != 0 || modeBad s p n
  match targetCheck s p true false bad n with
  | some st => answer p st [] [] s
  | none =>
    answer p .ok [] [] (match (if n = 8 then entryHere s a else none) with
      | some l => writeEntry l (BitVec.ofNat 64 (leNat p.payload)) s
      | none => writeDram a p.payload (putCodes (a / 32) p.codes (countTarget true p n s)))

/-- Smaller of two FP32 values: −0 below +0, and a NaN on either side gives the canonical NaN (FMIN). -/
def fminAtomic (a b : Word) : Word :=
  if isNan a || isNan b then qnan
  else if isZeroV (ofFp32 a) && isZeroV (ofFp32 b) then (if bit a.toNat 31 then a else b)
  else if flt b a then b else a

/-- Larger of two FP32 values, with the FMIN rules. -/
def fmaxAtomic (a b : Word) : Word :=
  if isNan a || isNan b then qnan
  else if isZeroV (ofFp32 a) && isZeroV (ofFp32 b) then (if bit a.toNat 31 then b else a)
  else if flt a b then b else a

/-- The signed value of an n-byte integer. -/
def signedOf (n v : Nat) : Int := if v < 2 ^ (8 * n - 1) then v else (v : Int) - 2 ^ (8 * n)

/-- The new value of an atomic on operands of n bytes: old value m, operand v, comparand c (Table 14.8). -/
def atomicOp (op n m v c : Nat) : Option Nat :=
  let w := 2 ^ (8 * n)
  let f := fun (g : Word → Word → Word) => if n = 4 then some (g (BitVec.ofNat 32 m) (BitVec.ofNat 32 v)).toNat else none
  if op = 1 then some ((m + v) % w)
  else if op = 2 then some (if signedOf n v < signedOf n m then v else m)
  else if op = 3 then some (if signedOf n m < signedOf n v then v else m)
  else if op = 4 then some v
  else if op = 5 then some (if m = c then v else m)
  else if op = 6 then some (m ||| v)
  else if op = 0x81 then f fadd
  else if op = 0x82 then f fminAtomic
  else if op = 0x83 then f fmaxAtomic
  else none

/-- An ATOMIC packet reaches this chip (R346): the old value is returned, VADD returns status only. An OR by a head chip's DATU sets
a bit of a table entry (R212). -/
def atomicPkt (p : Pkt) (s : State) : State :=
  let a := p.addr % 2 ^ 41
  let pm := lmodeOf s (a / 2097152) == 0
  let entry := if p.op = 6 ∧ p.size = 3 ∧ p.payload.length = 8 then entryHere s a else none
  if let some l := entry then answer p .ok (leBytes l.word.toNat 8) [] (orEntry l (BitVec.ofNat 64 (leNat p.payload)) s)
  else if p.op = 7 then
    let n := p.payload.length
    let bad := n == 0 || n % 4 != 0 || decide (4096 < n) || p.addr % 4 != 0 || !pm || p.size != 2
    match targetCheck s p true false bad n with
    | some st => answer p st [] [] s
    | none =>
      let new := List.zipWith fadd (wordsOf (readDram s a n)) (wordsOf p.payload)
      answer p .ok [] [] (writeDram a (bytesOfWords new) (countTarget true p n s))
  else
    let n := 2 ^ p.size
    let v := leNat (p.payload.take n)
    let c := leNat ((p.payload.drop n).take n)
    let old := readDram s a n
    let bad := (p.size != 2 && p.size != 3) || p.payload.length != (if p.op = 5 then 2 * n else n) || p.addr % n != 0 || !pm
      || (atomicOp p.op n 0 0 0).isNone
    match targetCheck s p true false bad n with
    | some st => answer p st [] [] s
    | none =>
      match atomicOp p.op n (leNat old) v c with
      | none => answer p .malformed [] [] s
      | some m => answer p .ok old [] (writeDram a (leBytes m n) (countTarget true p n s))

/-- READ: as readPkt, once for each FSEQ. -/
def execRead (t : Nat) (p : Pkt) (s : State) : Host.Outcome State Fault Refusal :=
  let s := tick t s
  .next (if p.dst = ownLoc s then once p (readPkt p) s else s)

/-- WRITE: as writePkt, once for each FSEQ. -/
def execWrite (t : Nat) (p : Pkt) (s : State) : Host.Outcome State Fault Refusal :=
  let s := tick t s
  .next (if p.dst = ownLoc s then once p (writePkt p) s else s)

/-- ATOMIC: as atomicPkt, once for each FSEQ, so that no atomic is applied twice. -/
def execAtomic (t : Nat) (p : Pkt) (s : State) : Host.Outcome State Fault Refusal :=
  let s := tick t s
  .next (if p.dst = ownLoc s then once p (atomicPkt p) s else s)

/-! ## The issuer's side (R347, R349) -/

/-- A job meets a lost target (R349, R350). -/
def lostTarget (i cause loc : Nat) (s : State) : State := freezeJob i cause loc .fabricTargetLost s

/-- The message that carries a remote operation. -/
def remoteMsg (r : Remote) (p : Pkt) : XnMsg := if r.ty = 0 then .read p else if r.ty = 1 then .write p else .atomic p

/-- A remote operation is sent for job i, or has lost its target at once where no route leads there (R26); while its flow moves to
another switch it waits (R345). -/
def issueRemote (i : Nat) (r : Remote) (s : State) : State :=
  let dst := r.pkt.addr / 2 ^ 41
  let j := jobAt s i
  match (if dst = ownLoc s then some 15 else routePort s dst r.pkt.vc r.pkt.flow) with
  | none => lostTarget i 1 dst s
  | some n =>
    let k := dst * 65536 + r.pkt.flow
    let q := mgetD s.xn.nextFseq k 0
    let pkt := { r.pkt with src := ownLoc s, dst := dst, fseq := q, tag := (partOf s j.part).tag, modelCtx := j.mc }
    let r := { r with pkt := pkt, sentAt := s.time, job := j.id, port := n, held := flowMoves s dst pkt.flow n }
    let s := { s with xn := { s.xn with nextFseq := mset s.xn.nextFseq k ((q + 1) % 65536), remotes := s.xn.remotes ++ [r] } }
    if r.held then s else sendWork j.ctx j.id r.layer r.operator dst pkt.vc pkt.lc (remoteMsg r pkt) s

/-- Requests of a flow to a chip that waited for it to move go out in order once nothing sent before is unanswered (R345). -/
def releaseFlow (dst flow : Nat) (s : State) : State :=
  let rs := s.xn.remotes.filter (fun r => r.held && r.pkt.dst == dst && r.pkt.flow == flow)
  let xs := s.xn.exuOut.filter (fun r => r.held && r.hop == dst && msgFlow (.exu r.ty r.pkt) == flow)
  let cs := s.xn.collOut.filter (fun r => r.held && r.dst == dst && r.pkt.flow == flow)
  let busy := s.xn.remotes.any (fun r => !r.held && r.pkt.dst == dst && r.pkt.flow == flow)
    || s.xn.exuOut.any (fun r => !r.held && r.hop == dst && msgFlow (.exu r.ty r.pkt) == flow)
    || s.xn.collOut.any (fun r => !r.held && r.dst == dst && r.pkt.flow == flow)
  if busy || (rs.isEmpty && xs.isEmpty && cs.isEmpty) then s
  else
    let port := fun vc => (routePort s dst vc flow).getD 0
    let s := { s with xn := { s.xn with
      remotes := s.xn.remotes.map (fun r => if r.held && r.pkt.dst == dst && r.pkt.flow == flow then
        { r with held := false, sentAt := s.time, port := port r.pkt.vc } else r)
      exuOut := s.xn.exuOut.map (fun r => if r.held && r.hop == dst && msgFlow (.exu r.ty r.pkt) == flow then
        { r with held := false, sentAt := s.time, port := port 2 } else r)
      collOut := s.xn.collOut.map (fun r => if r.held && r.dst == dst && r.pkt.flow == flow then
        { r with held := false, sentAt := s.time, port := port r.vc } else r) } }
    let s := forEach (fun r s =>
      let j := jobAt s (jobIdx r.job)
      sendWork j.ctx j.id r.layer r.operator dst r.pkt.vc r.pkt.lc (remoteMsg r r.pkt) s) rs s
    let s := forEach (fun r s =>
      let j := jobAt s (jobIdx r.job)
      sendExuWork j.ctx j.id dst r.ty r.pkt s) xs s
    forEach (fun r s =>
      let j := jobAt s (jobIdx r.job)
      sendWork j.ctx j.id r.layer r.operator dst r.vc r.pkt.lc (.coll r.gid r.pkt) s) cs s

/-- A response of a flow from src covers a request that was sent: it names its FSEQ, or a later one of a run of writes. -/
def covers (p : RespPkt) (r : Remote) : Bool :=
  !r.held && r.pkt.dst == p.src && r.pkt.flow == p.flow
    && (r.pkt.fseq == p.fseq || ((r.ty == 1 || (r.ty == 2 && r.pkt.op == 7)) && decide ((p.fseq + 65536 - r.pkt.fseq) % 65536 < 32768)))

/-- An answered operation completes: a load's data lands in the plate, and the counter is signalled. -/
def completeRemote (p : RespPkt) (r : Remote) (s : State) : State :=
  let s := if r.ty = 1 then s else landBank r.plate r.isl r.dst r.layer r.operator p.payload s
  if r.inc = 0 then s else signalCtr r.plate r.isl r.ctr r.inc s

/-- What the issuer does with a status (Table 14.9). -/
def settleRemote (p : RespPkt) (r : Remote) (s : State) : State :=
  let i := jobIdx r.job
  match p.status with
  | .ok => completeRemote p r s
  | .denied => plateFatal i r.plate s
  | .poison => plateFatal i r.plate s
  | .malformed => plateFatal i r.plate s
  | .gone => lostTarget i 2 p.src s
  | .restoring => { s with xn := { s.xn with remotes := s.xn.remotes ++ [{ r with restoring := true }] } }

/-- A response that answers nothing is discarded and counted (R349). -/
def lateResp (s : State) : State := { s with xn := { s.xn with lateCnt := sat 8 (s.xn.lateCnt + 1) } }

/-- The requests that a response covers are settled by f; a response to a request that has lost its target is discarded and
counted (R349). Requests of the flow that waited for it go out (R345). -/
def respWith (f : RespPkt → Remote → State → State) (p : RespPkt) (s : State) : State :=
  let rs := s.xn.remotes.filter (covers p)
  if rs.isEmpty then lateResp s
  else
    let s := { s with xn := { s.xn with remotes := s.xn.remotes.filter (fun r => !covers p r) } }
    releaseFlow p.src p.flow (forEach (fun r s =>
      let j := jobAt s (jobIdx r.job)
      f p r (activity j.ctx .xnRx j.id r.layer r.operator (32 + p.payload.length) s)) rs s)

/-- A response to operations that steps have posted. -/
def respRemote (p : RespPkt) (s : State) : State := respWith settleRemote p s

/-- The first request of a flow and FSEQ, waiting for a restoration or not, that was sent at least age ns ago: the flow's targets
count their FSEQ apart. -/
def pickRemote (s : State) (flow fseq age : Nat) (restoring : Bool) : Option Remote :=
  s.xn.remotes.find? (fun r => !r.held && r.pkt.flow == flow && r.pkt.fseq == fseq && r.restoring == restoring
    && decide (r.sentAt + age ≤ s.time))

/-- A request changed by f. -/
def modRemote (r : Remote) (f : Remote → Remote) (s : State) : State :=
  { s with xn := { s.xn with remotes := s.xn.remotes.map (fun x => if x == r then f x else x) } }

/-- RESTORING_REISSUE: 10 µs after it was issued last, a request answered RESTORING is issued again. -/
def execRestoringReissue (t flow fseq : Nat) (s : State) : Host.Outcome State Fault Refusal :=
  let s := tick t s
  match pickRemote s flow fseq 10000 true with
  | some r =>
    let j := jobAt s (jobIdx r.job)
    .next (sendWork j.ctx j.id r.layer r.operator r.pkt.dst r.pkt.vc r.pkt.lc (remoteMsg r r.pkt)
      (modRemote r (fun r => { r with restoring := false, sentAt := s.time, resent := false }) s))
  | none => .next s

/-- An EXU record of a flow and FSEQ that is due to be sent again. -/
def pickExu (s : State) (flow fseq age : Nat) : Option ExuOut :=
  s.xn.exuOut.find? (fun o => !o.held && msgFlow (.exu o.ty o.pkt) == flow && o.pkt.fseq == fseq && decide (o.sentAt + age ≤ s.time))

/-- A collective packet of a flow and FSEQ that is due to be sent again. -/
def pickColl (s : State) (flow fseq age : Nat) : Option CollOut :=
  s.xn.collOut.find? (fun o => !o.held && o.pkt.flow == flow && o.pkt.fseq == fseq && decide (o.sentAt + age ≤ s.time))

/-- REMOTE_RESEND: a request unanswered 10 µs after it was sent goes out again with RESEND set, by another usable switch where one
exists (R349). -/
def execRemoteResend (t flow fseq : Nat) (s : State) : Host.Outcome State Fault Refusal :=
  let s := tick t s
  match pickRemote s flow fseq 10000 false, pickExu s flow fseq 10000, pickColl s flow fseq 10000 with
  | some r, _, _ =>
    if r.resent then .next s
    else
      let j := jobAt s (jobIdx r.job)
      let m := remoteMsg r { r.pkt with resend := true }
      .next (resendXn r.port r.pkt.dst r.pkt.vc r.pkt.lc m
        (activity j.ctx .xnTx j.id r.layer r.operator (msgBytes m) (modRemote r (fun r => { r with resent := true }) s)))
  | none, some o, _ =>
    if o.resent then .next s
    else
      let j := jobAt s (jobIdx o.job)
      let m := XnMsg.exu o.ty { o.pkt with resend := true }
      .next (resendXn o.port o.hop 2 o.pkt.lc m (activity j.ctx .xnTx j.id (exuTags s o.ty o.pkt).1 (exuTags s o.ty o.pkt).2 (msgBytes m)
        { s with xn := { s.xn with exuOut := s.xn.exuOut.map (fun x => if x == o then { x with resent := true } else x) } }))
  | none, none, some o =>
    if o.resent then .next s
    else
      let j := jobAt s (jobIdx o.job)
      let m := XnMsg.coll o.gid { o.pkt with resend := true }
      .next (resendXn o.port o.dst o.vc o.pkt.lc m (activity j.ctx .xnTx j.id o.layer o.operator (msgBytes m)
        { s with xn := { s.xn with collOut := s.xn.collOut.map (fun x => if x == o then { x with resent := true } else x) } }))
  | none, none, none => .next s

/-! ## FABRIC_FAULT (R351) -/

/-- FABRIC_FAULT_RESEND: an unacknowledged message is sent again. -/
def execFabricFaultResend (t index : Nat) (s : State) : Host.Outcome State Fault Refusal :=
  let s := tick t s
  match mget s.xn.faults index with
  | some f => .next (sendFault f s)
  | none => .next s

/-- FABRIC_FAULT_ACK: the fabric manager acknowledges a message. -/
def execFabricFaultAck (t eid index : Nat) (s : State) : Host.Outcome State Fault Refusal :=
  let s := tick t s
  .next (if eid = s.sec.fmEid ∧ eid ≠ 0 then { s with xn := { s.xn with faults := mdel s.xn.faults index } } else s)

/-! ## Capacity (R353) -/

/-- Capacity of a port in 1/32 GB/s: 100 GB/s at full width, half at half width, 15/16 of it encrypted. -/
def portCap (p : Port) : Nat :=
  if p.st != 2 then 0 else (if p.width = 2 then 2 else 1) * (if p.enc then 1500 else 1600)

/-- X in 1/32 GB/s, over the UP ports. -/
def xnCap (s : State) : Nat := sumOf (fun n => portCap (portOf s n)) (List.range 15)

/-- Σ LC_XN of R311 over the jobs of the chip, in MB/s. -/
def xnLoad (s : State) : Nat := sumOf (fun j => if j.2.present then j.2.resv.lcXn else 0) s.srv.jobs

/-- Capacity is evaluated again after a port has changed state (R353): above 0.70 of it LC traffic is served
first; above 0.95 every s_X is scaled, the supply test is rerun and FABRIC_FAULT is sent. -/
def evalCapacity (s : State) : State :=
  let l := xnLoad s * 3200000
  let x := xnCap s * 1000 * (1000 - s.fab.bg)
  let s := { s with xn := { s.xn with lcFirst := decide (70 * x < l) } }
  if l ≤ 95 * x then
    { s with
      xn := { s.xn with capacityShort := false }
      srv := { s.srv with jobs := mmap s.srv.jobs (fun _ j => { j with scaleX := (1, 1) }) } }
  else
    let s := { s with
      xn := { s.xn with capacityShort := true }
      srv := { s.srv with jobs := mmap s.srv.jobs (fun _ j => { j with scaleX := (95 * x, l) }) } }
    let n := s.srv.reqs.length
    let s := rerunAll .fabricTargetLost s
    newFault 3 0xFF 0 0 (n - s.srv.reqs.length) s

/-- Packets waiting at a port that carries none are sent by other routes (R342); what none leads to is lost on the way. -/
def rerouteWaiting (n : Nat) (s : State) : State :=
  let q := (portOf s n).waitq
  forEach (fun w s => match routePort s w.dst w.vc (msgFlow w.msg) with
    | some k => joinPort k [w] s
    | none => s) q (modPort n (fun p => { p with waitq := [] }) s)

/-- Port n stops carrying traffic in state st. -/
def stopPort (n st : Nat) (s : State) : State :=
  evalCapacity (rerouteWaiting n (modPort n (fun p => { p with st := st, width := 0 }) s))

/-- SWITCH_STATE_REPORT: the reachability table takes what a switch reports (R342). -/
def execSwitchStateReport (t switch : Nat) (reach : List (Nat × Bool)) (s : State) : Host.Outcome State Fault Refusal :=
  let s := tick t s
  .next (if 8 ≤ switch then s
    else forEach (fun e s => { s with xn := { s.xn with
      unreach := if e.2 then s.xn.unreach.filter (fun k => k != switch * 128 + e.1)
                 else if s.xn.unreach.contains (switch * 128 + e.1) then s.xn.unreach
                 else (switch * 128 + e.1) :: s.xn.unreach } }) (reach.filter (fun e => decide (e.1 < 128))) s)

/-! ## Flits and replay (R333, R334, R355) -/

/-- The number of flits kept that an ACK covers. -/
def ackCount (buf : List (Nat × Nat)) (ack : Nat) : Nat :=
  match buf with
  | [] => 0
  | e :: _ => let k := (ack + 4096 - e.1) % 4096 + 1; if k ≤ buf.length then k else 0

/-- CREDIT of a received flit: k flits of a pool come back. -/
def takeCredit (n vc : Nat) (respPool : Bool) (k : Nat) (s : State) : State :=
  modPort n (fun p => { p with credits := madd p.credits (creditKey vc respPool) k }) s

/-- ACK of a received flit: covered flits are forgotten, waiting packets start. -/
def takeAck (n ack : Nat) (s : State) : State :=
  pumpPort n (modPort n (fun p => { p with txBuf := p.txBuf.drop (ackCount p.txBuf ack) }) s)

/-- A receiver's error: everything is discarded from here on, and a NAK flit names the last good SEQ. -/
def sendNak (n : Nat) (s : State) : State :=
  if (portOf s n).discarding then s
  else pumpPort n (closeBlock n (newFlit n 2 0 false 0 (modPort n (fun p => { p with discarding := true }) s)))

/-- The sender resends every flit after the last good SEQ, in order; the replay is counted. -/
def replay (n ack : Nat) (s : State) : State :=
  let s := modPort n (fun p => { p with
    txBuf := p.txBuf.drop (ackCount p.txBuf ack)
    replayCnt := sat 16 (p.replayCnt + 1)
    replays := (s.time :: p.replays).filter (fun t => decide (s.time ≤ t + 1000000)) }) s
  let s := forEach (fun e s => putFlit n e.2 e.1 0 false 0 s) (portOf s n).txBuf s
  pumpPort n s

/-- The bytes of a flit that its CRC covers (Table 14.2). -/
def flitBytes (f : FlitRec) : List Byte :=
  leBytes (f.seq % 4096 + 4096 * f.kind) 2 ++ leBytes f.ack 2 ++ leBytes (f.vc % 8 + 8 * f.respPool.toNat + 16 * f.credits) 4 ++ f.body

/-- A flit arrived without an error: its CRC agrees and no FEC codeword was uncorrectable (R332, R334). -/
def flitGood (f : FlitRec) : Bool := f.fecOk && crc32 (flitBytes f) == f.crc

/-- A DATA flit in order is taken. Its buffer is free again at once, on an encrypted port when the tag of its block verifies. -/
def takeFlit (n : Nat) (f : FlitRec) (s : State) : State :=
  let s := modPort n (fun p => { p with rxNext := (p.rxNext + 1) % 4096, discarding := false }) s
  if (portOf s n).enc then modPort n (fun p => { p with rxBlock := p.rxBlock + 1, rxOwed := p.rxOwed ++ [(f.bodyVc, f.bodyResp)] }) s
  else returnCredits n [(f.bodyVc, f.bodyResp)] s

/-- FLIT: a flit arrives on port n. A DATA flit counts in order; an error or a gap starts go-back-N. -/
def execFlit (t port : Nat) (f : FlitRec) (s : State) : Host.Outcome State Fault Refusal :=
  let s := tick t s
  if !portUp s port || decide (15 ≤ port) then .next s
  else
    let s := countGlobal (47 + port) 256 s
    if !flitGood f then .next (sendNak port s)
    else
      let s := takeCredit port f.vc f.respPool f.credits s
      if f.kind = 2 then .next (replay port f.ack s)
      else
        let s := takeAck port f.ack s
        if f.kind != 0 then .next s
        else if f.seq = (portOf s port).rxNext then .next (takeFlit port f s)
        else .next (sendNak port s)

/-- NAK: the partner asks for a replay from the flit after ack. -/
def execNak (t port ack : Nat) (s : State) : Host.Outcome State Fault Refusal :=
  let s := tick t s
  .next (if portUp s port then replay port ack s else s)

/-- TAG: the tag of a block of an encrypted port verifies, or fails as a CRC error does; a second failure of the
same block sets the port DOWN and raises a security event (R355). -/
def execTag (t port : Nat) (ok : Bool) (s : State) : Host.Outcome State Fault Refusal :=
  let s := tick t s
  let p := portOf s port
  if !portUp s port || !p.enc then .next s
  else if ok then
    .next (pumpPort port (returnCredits port p.rxOwed (modPort port (fun p => { p with
      rxNext := (p.rxNext + 1) % 4096, rxBlock := 0, rxOwed := [], tagFail := false, discarding := false }) s)))
  else if p.tagFail then .next (stopPort port 0 (coffer 1 3 .portDown port 0 0 0 s))
  else .next (sendNak port (modPort port (fun p => { p with
    tagFail := true, rxNext := (p.rxNext + 4096 - p.rxBlock) % 4096, rxBlock := 0, rxOwed := [] }) s))

/-- REPLAY_RETRAIN: a port that took 8 replays within 1 ms retrains (R334, R336). -/
def execReplayRetrain (t port : Nat) (s : State) : Host.Outcome State Fault Refusal :=
  let s := tick t s
  let p := portOf s port
  .next (if portUp s port && decide (8 ≤ (p.replays.filter (fun r => decide (s.time ≤ r + 1000000))).length)
    then stopPort port 1 (modPort port (fun p => { p with replays := [] }) s) else s)

/-- FEC_LOCK_LOSS: the port retrains (R336). -/
def execFecLockLoss (t port : Nat) (s : State) : Host.Outcome State Fault Refusal :=
  let s := tick t s
  .next (if portUp s port then stopPort port 1 s else s)

/-! ## Training, encryption and the XN_ registers -/

/-- The partner is the one that Table 14.1 requires. -/
def partnerOk (s : State) (n partner partnerPort : Nat) : Bool :=
  if n < 7 then partner == boardLoc s ((s.id.slot + n + 1) % 8) && partnerPort == 6 - n
  else partner == n - 7 && partnerPort == 8 * s.id.board + s.id.slot

/-- Width that failed lanes leave: pairs {0, 1} and {2, 3}. -/
def widthOf (failed : List Nat) : Nat :=
  (if failed.contains 0 || failed.contains 1 then 0 else 1) + (if failed.contains 2 || failed.contains 3 then 0 else 1)

/-- Port n comes up: its partner grants its buffers, and what waits is sent. Flits not yet acknowledged go out
again. -/
def portComesUp (n width : Nat) (enc : Bool) (s : State) : State :=
  let s := modPort n (fun p => { p with
    st := 2, width := width, enc := enc, miswire := false, credits := fullCredits, discarding := false, tagFail := false
    rxBlock := 0, rxOwed := [], keyTime := s.time, blockCtr := 0, rrVc := 1, rrLeft := vcWeight s 1 }) s
  let s := forEach (fun e s => putFlit n e.2 e.1 0 false 0 s) (portOf s n).txBuf s
  pumpPort n (evalCapacity s)

/-- PORT_TRAINING_DONE: the wiring is checked, failed lanes set the width, and encryption is settled (R331, R336,
R354). -/
def execPortTrainingDone (t port : Nat) (failed : List Nat) (partner partnerPort : Nat) (encOk partnerEnc : Bool)
    (s : State) : Host.Outcome State Fault Refusal :=
  let s := tick t s
  let p := portOf s port
  if decide (15 ≤ port) || p.disable || p.st == 2 then .next s
  else
    let s := modPort port (fun p => { p with laneFail := failed, peer := partner }) s
    if !partnerOk s port partner partnerPort then
      .next (stopPort port 0 (modPort port (fun p => { p with miswire := true }) s))
    else if widthOf failed = 0 then .next (stopPort port 0 (modPort port (fun p => { p with miswire := false }) s))
    else if (p.encReq || partnerEnc) && !encOk then
      .next (stopPort port 0 (coffer 1 3 .encRefused port 0 0 0 (modPort port (fun p => { p with miswire := false }) s)))
    else .next (portComesUp port (widthOf failed) (p.encReq || partnerEnc) s)

/-- LANE_RETRY: the failed lanes of a degraded or DOWN port are retried. A degraded port whose lanes pass takes its full width
back; a DOWN port that a pair can carry leaves DOWN and trains (R336), so that its wiring and its encryption are settled again. -/
def execLaneRetry (t port : Nat) (passed : List Nat) (s : State) : Host.Outcome State Fault Refusal :=
  let s := tick t s
  let p := portOf s port
  let left := p.laneFail.filter (fun l => !passed.contains l)
  if decide (15 ≤ port) || p.laneFail.isEmpty || p.disable || p.miswire || p.st == 1 then .next s
  else
    let s := modPort port (fun p => { p with laneFail := left }) s
    if widthOf left = 0 then .next s
    else if p.st = 2 then .next (pumpPort port (evalCapacity (modPort port (fun p => { p with width := widthOf left }) s)))
    else .next (stopPort port 1 s)

/-- LINK_REKEY: the keys of an encrypted port change, at least every 24 h (R354). -/
def execLinkRekey (t port : Nat) (s : State) : Host.Outcome State Fault Refusal :=
  let s := tick t s
  .next (if (portOf s port).enc then modPort port (fun p => { p with keyTime := s.time, blockCtr := 0 }) s else s)

/-- A write of XN_PORT_CTRL_n: DISABLE holds the port DOWN; ENC_REQ is write-locked (Table 14.13, R469). -/
def writePortCtrl (port : Nat) (v : Word) (s : State) : State :=
  let v := v.toNat
  let p := portOf s port
  let s := lockedWrite false (bit v 30 != p.encReq) (modPort port (fun p => { p with encReq := bit v 30 })) s
  let s := modPort port (fun p => { p with disable := bit v 31 }) s
  if bit v 31 then (if p.st = 0 then s else stopPort port 0 s)
  else if p.disable then modPort port (fun p => { p with st := 1 }) s
  else s

/-- PORT_DISABLE: a write of XN_PORT_CTRL_n, n = 0 to 14. -/
def execPortDisable (t port : Nat) (v : Word) (s : State) : Host.Outcome State Fault Refusal :=
  .next (if port < 15 then regWrite t (writePortCtrl port v) s else tick t s)

/-- A write of XN_VC_WEIGHT (R338, R469): a write that breaks the rule is ignored and sets CFG_ERR. -/
def writeVcWeight (v : Word) (s : State) : State :=
  let v := v.toNat
  let a := bits v 5 0
  let b := bits v 11 6
  let c := bits v 17 12
  let d := bits v 23 18
  let e := bits v 29 24
  let ok := [a, b, c, d, e].all (fun w => decide (1 ≤ w)) && decide (70 * (a + b + c + d + e) ≤ (a + b) * 100)
  lockedWrite (!ok) ([a, b, c, d, e] != [s.xn.w1, s.xn.w2, s.xn.w3, s.xn.w4, s.xn.w5])
    (fun s => if ok then { s with xn := { s.xn with w1 := a, w2 := b, w3 := c, w4 := d, w5 := e } }
              else { s with xn := { s.xn with cfgErr := true } }) s

/-- XN_VC_WEIGHT_WRITE. -/
def execXnVcWeightWrite (t : Nat) (v : Word) (s : State) : Host.Outcome State Fault Refusal :=
  .next (regWrite t (writeVcWeight v) s)

/-- Job i depends on a chip: by a remote claim, by an epoch of its model context, or by a group (R451). -/
def dependsOn (s : State) (i src : Nat) : Bool :=
  let j := jobAt s i
  j.resv.remotes.any (fun r => r.loc == src)
    || (match modelOf s j.mc with | some m => m.epochs.any (fun e => e.m.chips.any (fun c => c.loc == src)) | none => false)
    || s.coll.groups.any (fun g => g.2.members.contains src && g.2.job == i)

/-- RESET_NOTICE: a chip is about to reset. Each job of this chip that depends on it is treated as though it had
answered GONE, its requests completing with RESET_ABORTED (R451); its groups with that chip lose a member (R357, R371). -/
def execResetNotice (t src : Nat) (s : State) : Host.Outcome State Fault Refusal :=
  let s := tick t s
  let js := (s.srv.jobs.filter (fun j => j.2.present && dependsOn s j.1 src)).map (·.1)
  let s := forEach (fun e s => if e.2.st = 0 then failCreate e.1 .fabricTargetLost s else endCollOps false e.1 .fabricTargetLost s)
    (s.coll.groups.filter (fun e => e.2.members.contains src)) s
  .next (forEach (fun i s => freezeJob i 2 src .resetAborted s) js s)

end Sys2Proof.Machine
end

