-- ==== Sys2Proof/Machine/Exu.lean ====
section
/-! DEFINITION. The Exchange Unit (R152 to R177): expert choice and exchanges, gathers and pooling, and row
updates of embedding tables. A record that this chip sends to itself takes no link and arrives as the row of its
type, like any other (log entry 17). -/
namespace Sys2Proof.Machine

/-! ## Experts (R152 to R155, R162) -/

/-- The resident plate that computes a layer for a model context, with the layer's record and its job. -/
def layerOf (s : State) (mc layer : Nat) : Option (Nat × LayerRec × Nat) :=
  (s.fab.plates.filterMap (fun p =>
    if 2 ≤ p.2.state ∧ (jobAt s p.2.job).present ∧ (jobAt s p.2.job).mc = mc then
      (p.2.image.layers.find? (fun l => l.layerId == layer && l.experts != 0)).map (fun l => (p.1, l, p.2.job))
    else none)).head?

/-- The first expert index from e that none of the earlier choices took. -/
def nextFree (experts : Nat) (taken : List Nat) : Nat → Nat → Nat
  | 0, e => e
  | fuel + 1, e => if taken.contains e then nextFree experts taken fuel ((e + 1) % experts) else e

/-- The K experts of a token (R152). -/
def chooseExperts (l : LayerRec) (token pos : Nat) : List Nat :=
  let u := if bit l.moeFlags 0 then token + pos * 2 ^ 32 else token
  (l.seeds.take l.k).foldl (fun es seed =>
    es ++ [nextFree l.experts es l.k (kxHash u seed / 2 ^ 32 * l.experts / 2 ^ 32)]) []

/-- LOCATION of the chip that serves an expert (Table 7.3). -/
def expertLoc (t : ExpertTable) (e : Nat) : Nat := bits (t.entries.getD e 0).toNat 27 21

/-- The expert set of a layer (R155). -/
def expertSet (t : ExpertTable) : List Nat := dedup' (t.entries.map (fun w => bits w.toNat 27 21))

/-- The placement of a layer in an epoch (R154, R155). -/
def placement (s : State) (mc epoch layer : Nat) : Option ExpertTable :=
  match epochOf s mc epoch with
  | some e => e.m.experts.find? (fun x => x.layerId == layer)
  | none => none

/-- Rounds of an exchange (R158). -/
def rounds (l : LayerRec) : Nat := (if l.overflow = 1 then l.probeP else 0) + 1

/-- The weight w of Table 7.5 for a accepted choices. -/
def combineWeight (mode k a : Nat) : Word := if mode = 2 then frecipNat k else frecipNat a

/-- Counters of layer l on plate p changed by f. -/
def modLayer (p l : Nat) (f : LayerCnt → LayerCnt) (s : State) : State :=
  modPlate p (fun q => { q with layerCnt := mupd q.layerCnt l {} f }) s

/-- The issuing command of a DONE or GONE of R176. -/
def embCmdOf (s : State) (r : ExuRec) : Option EmbCmd :=
  s.mdl.embCmds.find? (fun c => c.mc == r.modelCtx && c.table == r.layer && c.exchange == r.exchange)

/-- The commands without that one. -/
def dropEmbCmd (c : EmbCmd) (s : State) : State :=
  { s with mdl := { s.mdl with embCmds := s.mdl.embCmds.filter (fun d => !(d.mc == c.mc && d.table == c.table && d.exchange == c.exchange)) } }

/-- That command changed. -/
def putEmbCmd (c : EmbCmd) (s : State) : State :=
  { s with mdl := { s.mdl with embCmds := s.mdl.embCmds.map (fun d => if d.mc == c.mc && d.table == c.table && d.exchange == c.exchange then c else d) } }

/-- The newest released epoch's number, or 0. -/
def newestNum (s : State) (mc : Nat) : Nat := match (modelOf s mc).bind newestEpoch with | some e => e.num | none => 0

/-- Chips of the model context, by the newest epoch's manifest. -/
def modelChips (s : State) (mc : Nat) : List Nat :=
  match (modelOf s mc).bind newestEpoch with | some e => e.m.chips.map (·.loc) | none => []

/-- A record of R176 from the issuing chip. -/
def embRec (s : State) (c : EmbCmd) (gen : Nat) : ExuRec :=
  { layer := c.table, home := ownLoc s, exchange := c.exchange, gen := gen, epoch := c.epoch, modelCtx := c.mc }

/-- A record has a route to its destination, by its first leg (R157). -/
def reachable (s : State) (dst : Nat) : Bool := routed s (exuHop s dst)

/-- A command of R176 ends with a status. A commit before every DONE of its step 2 reverts on every reachable chip; an update
stages nothing (R176 step 4). A command that reverts already has ended. -/
def undoEmb (c : EmbCmd) (st : Status) (s : State) : State :=
  if c.phase = 3 then s
  else
    let s := final c.cmd st 0 0 s
    if c.phase ≠ 1 then dropEmbCmd c s
    else
      let g := (c.gen + 2 ^ 32 - 1) % 2 ^ 32
      let ds := (modelChips s c.mc).filter (reachable s)
      let j := jobAt s (jobIdx c.job)
      let r := { embRec s c g with src := ownLoc s, tag := (partOf s j.part).tag }
      forEach (fun d s => sendLeg j.ctx j.id .commit { r with dst := d } s) ds (putEmbCmd { c with phase := 3, left := ds } s)

/-- A chip answers nothing any more to a command of R176: one that reverts waits for it no longer, any other ends with
FABRIC_TARGET_LOST. -/
def loseEmb (c : EmbCmd) (src : Nat) (s : State) : State :=
  if c.phase = 3 then
    let left := c.left.filter (fun d => d != src)
    if left.isEmpty then dropEmbCmd c s else putEmbCmd { c with left := left } s
  else undoEmb c .fabricTargetLost s

/-- A record that this chip sent, or passed on, has lost its target (R161, R176, R349). A relay tells the record's home chip by
GONE (log entry 167). -/
def loseExu (i cause : Nat) (ty : ExuType) (r : ExuRec) (s : State) : State :=
  if r.src ≠ ownLoc s then (if r.toHome then s else sendGone r s)
  else match ty with
    | .gone => s
    | .done => s
    | .update | .commit | .settle => (match embCmdOf s r with
        | some c => lostTarget i cause r.dst (loseEmb c r.dst s)
        | none => s)
    | _ => lostTarget i cause r.dst s

/-- A record of job i goes to a chip on VC2, or has lost its target at once where no route leads there (R26). -/
def sendExu (i dst : Nat) (ty : ExuType) (r : ExuRec) (s : State) : State :=
  let j := jobAt s i
  let r := { r with src := ownLoc s, dst := dst, tag := (partOf s j.part).tag, modelCtx := j.mc }
  if reachable s dst then sendLeg j.ctx j.id ty r s else loseExu i 1 ty r s

/-- A record reaches this chip. One that has come before is answered again and not taken again (R349); one for another chip is
passed on across the board mesh, in the order received (R157); else f takes it. -/
def arrive (ty : ExuType) (r : ExuRec) (f : State → State) (s : State) : State :=
  let p : Pkt := { src := r.leg, vc := 2, lc := r.lc, flow := msgFlow (.exu ty r), fseq := r.fseq, resend := r.resend }
  let take := fun s =>
    if r.dst = ownLoc s then f s
    else if reachable s r.dst then sendLeg 0 0 ty r s
    else loseExu 0 1 ty r s
  if r.leg = ownLoc s then take s
  else match mget s.xn.executed (execKey p r.fseq) with
    | some a => if r.resend then sendXn r.leg 2 r.lc (.resp a) s else take (answer p .ok [] [] s)
    | none => take (answer p .ok [] [] s)

/-- A response covers the EXU records of its flow up to its FSEQ (R347); GONE has lost the target. -/
def respExu (p : RespPkt) (s : State) : State :=
  let mine := fun (o : ExuOut) => !o.held && o.hop == p.src && msgFlow (.exu o.ty o.pkt) == p.flow
    && decide ((p.fseq + 65536 - o.pkt.fseq) % 65536 < 32768)
  let os := s.xn.exuOut.filter mine
  if os.isEmpty then lateResp s
  else
    let s := { s with xn := { s.xn with exuOut := s.xn.exuOut.filter (fun o => !mine o) } }
    let s := if p.status = .gone then forEach (fun o s => loseExu (jobIdx o.job) 2 o.ty o.pkt s) os s else s
    releaseFlow p.src p.flow s

/-- The next exchange number of a layer (kind 0) or table (kind 1) at this chip, and the state that has counted it. -/
def nextExchange (kind mc id : Nat) (s : State) : Nat × State :=
  let k := (mc * 2 + kind) * 2 ^ 32 + id
  let n := mgetD s.exu.nextEx k 0
  (n, { s with exu := { s.exu with nextEx := mset s.exu.nextEx k ((n + 1) % 2 ^ 32) } })

/-- The epoch that serves a token: its request's, or the newest (R245). -/
def tokenEpoch (s : State) (mc : Nat) (req : Option Nat) : Nat :=
  match req.bind (mget s.srv.reqs) with
  | some r => r.epoch
  | none => newestNum s mc

/-- The epoch that a plate's running step serves (R245): that of its work, or the newest. -/
def stepEpoch (s : State) (p : Nat) : Nat :=
  let mc := (jobAt s (plateOf s p).job).mc
  match ((plateOf s p).running).bind (·.work.head?) with
  | some (_, .head home q _ _ _) => (match pubOf s home q with | some x => x.epoch | none => newestNum s mc)
  | some (k, _) => tokenEpoch s mc (some k)
  | none => newestNum s mc

/-- The running step of a plate is a latency-critical one. -/
def stepLc (s : State) (p : Nat) : Bool := match (plateOf s p).running with | some r => r.lc | none => false

/-- Every destination of an exchange or gather is reachable; else the job meets a lost target (R161). -/
def reachAll (i : Nat) (l : List Nat) (f : State → State) (s : State) : State :=
  match l.find? (fun d => !reachable s d) with
  | some d => lostTarget i 1 d s
  | none => f s

/-! ## The return buffer (R166) -/

/-- Spans of at most one 64 KiB page that n bytes from a DVA take. -/
def pageSpans (dva n : Nat) : List (Nat × Nat) :=
  (List.range ((dva + n - 1) / 65536 + 1 - dva / 65536)).map (fun k =>
    let a := max dva ((dva / 65536 + k) * 65536)
    (a, min (dva + n) ((dva / 65536 + k + 1) * 65536) - a))

/-- The address in this chip's memory of a DVA that a context may use there (R24, R185). -/
def localOf (s : State) (c dva : Nat) (write : Bool) : Option Nat :=
  match translate s c dva write with
  | .addr bpa _ => if bpa / 2 ^ 41 = s.id.slot ∧ mayReach s c (bpa % 2 ^ 41 / 2097152) write then some (bpa % 2 ^ 41) else none
  | _ => none

/-- The spans of n bytes from a DVA in this chip's memory. -/
def bufSpans (s : State) (c dva n : Nat) : Option (List (Nat × Nat)) :=
  (pageSpans dva n).mapM (fun e => (localOf s c e.1 true).map (fun a => (a, e.2)))

/-- Bytes laid out over spans. -/
def writeSpans : List (Nat × Nat) → List Byte → State → State
  | [], _, s => s
  | (a, n) :: l, d, s => writeSpans l (d.drop n) (writeDram a (d.take n) s)

/-- Bytes of a token slot: the FP32 row, to a multiple of 8 bytes, and the slot word (log entry 143). -/
def slotStride (width : Nat) : Nat := ceilDiv (4 * width) 8 * 8 + 8

/-- What a token slot holds: its row and its slot word. -/
structure SlotVal where
  row : List Word
  word : Nat

/-- A token slot of an exchange's return buffer, where it is mapped, with its spans. -/
def readSlot (s : State) (x : HomeEx) (slot : Nat) : Option (List (Nat × Nat) × SlotVal) :=
  (bufSpans s (jobAt s (jobIdx x.job)).ctx (x.base + slot * slotStride x.width) (slotStride x.width)).map (fun l =>
    let b := l.flatMap (fun e => readDram s e.1 e.2)
    (l, { row := wordsOf (b.take (4 * x.width)), word := leNat (b.drop (slotStride x.width - 8)) }))

/-- A token slot is written. -/
def putSlot (l : List (Nat × Nat)) (width : Nat) (v : SlotVal) (s : State) : State :=
  let b := bytesOfWords v.row
  writeSpans l (b ++ List.replicate (slotStride width - 8 - b.length) 0 ++ leBytes v.word 8) s

/-- Poison stands in the spans. -/
def spansPoisoned (s : State) (l : List (Nat × Nat)) : Bool := l.any (fun e => (linesOf e.1 e.2).any (linePoisoned s))

/-- The home exchange of a record changed by f. -/
def modHome (x : HomeEx) (s : State) : State :=
  { s with exu := { s.exu with home := s.exu.home.map (fun y =>
      if y.mc == x.mc && y.layer == x.layer && y.exchange == x.exchange then x else y) } }

/-! ## Dispatch at the home chip (R158, R160) -/

/-- The DISPATCH records of a token, in the order of its choices: the row comes from the plate's banks; a row that carries poison
says so in its record (R455). -/
def tokenRecs (s : State) (p epoch x : Nat) (l : LayerRec) (t : MoeToken) : List ExuRec :=
  let es := chooseExperts l t.token t.pos
  let st := if bankPoisoned s p t.isl t.addr t.bytes then Status.memoryUncorrectable else .complete
  (es.zip (List.range es.length)).map (fun e => {
    epoch := epoch, choice := e.2, layer := l.layerId, expert := e.1, home := ownLoc s, exchange := x, slot := t.slot
    bytes := readBank s p t.isl t.addr t.bytes, chosen := es, lc := stepLc s p, status := st })

/-- The home EXU dispatches a step's tokens of a layer (R158, R160): the return rows and slot words are cleared; each token's
choices go out in order, tokens in slot order, then a CLOSE of round 0 to every chip of the expert set. A return buffer that is
not mapped is a translation fault of the step. -/
def moeDispatch (p layer : Nat) (toks : List MoeToken) (s : State) : State :=
  let q := plateOf s p
  let i := q.job
  let j := jobAt s i
  let epoch := stepEpoch s p
  match q.image.layers.find? (fun l => l.layerId == layer && l.experts != 0), placement s j.mc epoch layer with
  | some l, some pl =>
    let chips := expertSet pl
    reachAll i chips (fun s =>
      let (x, s) := nextExchange 0 j.mc layer s
      let toks := sortBy (fun a b => decide (a.slot ≤ b.slot)) toks
      let h : HomeEx := {
        mc := j.mc, job := j.id, plate := p, layer := layer, exchange := x, k := l.k, mode := l.overflow, chips := chips
        base := q.image.returns, width := l.width, slots := toks.map (fun t => { slot := t.slot, req := t.req }) }
      if toks.any (fun t => (readSlot s h t.slot).isNone) then plateFatal i p s
      else
        let s := forEach (fun (t : MoeToken) s => match readSlot s h t.slot with
          | some (sp, _) => putSlot sp l.width { row := List.replicate l.width 0, word := 0 } s
          | none => s) toks s
        let s := { s with exu := { s.exu with home := s.exu.home ++ [h] } }
        let lc := stepLc s p
        let recs := toks.flatMap (tokenRecs s p epoch x l)
        let s := forEach (fun r s => sendExu i (expertLoc pl r.expert) .dispatch r s) recs s
        forEach (fun c s => sendExu i c .close ({
          epoch := epoch, layer := layer, exchange := x, home := ownLoc s, lc := lc
          count := (recs.filter (fun r => expertLoc pl r.expert == c)).length } : ExuRec) s) chips s) s
  | _, _ => s

/-! ## The expert chip (R158, R159, R161, R163) -/

/-- The record belongs to the exchange. -/
def sameEx (x : ExpertEx) (r : ExuRec) : Bool := x.mc == r.modelCtx && x.layer == r.layer && x.exchange == r.exchange

/-- Exchanges that match r changed by f. -/
def modExpert (r : ExuRec) (f : ExpertEx → ExpertEx) (s : State) : State :=
  { s with exu := { s.exu with expert := s.exu.expert.map (fun x => if sameEx x r then f x else x) } }

/-- The exchange of a record at this chip. -/
def expertOf (s : State) (r : ExuRec) : Option ExpertEx := s.exu.expert.find? (fun x => sameEx x r)

/-- Exchanges of the layer that have not closed their last round. -/
def openExchanges (s : State) (mc layer : Nat) : Nat :=
  (s.exu.expert.filter (fun x => x.mc == mc && x.layer == layer && !x.closed)).length

/-- The first of fuel candidates from e that is none of the token's chosen experts. -/
def searchProbe (experts : Nat) (chosen : List Nat) : Nat → Nat → Option Nat
  | 0, _ => none
  | fuel + 1, e => if chosen.contains e then searchProbe experts chosen fuel ((e + 1) % experts) else some e

/-- The next candidate of a probe after expert h: the chosen experts are passed over (R163). None where every expert of the layer
is one of them. -/
def nextProbe (experts : Nat) (chosen : List Nat) (h : Nat) : Option Nat :=
  searchProbe experts chosen (chosen.length + 1) ((h + 1) % experts)

/-- Round r of an exchange is closed here: a CLOSE of every sender, and the records their counts promise. -/
def roundClosed (x : ExpertEx) (sources chips : Nat) : Bool :=
  let cs := x.closes.filter (fun c => c.1 == x.round)
  decide ((if x.round = 0 then sources else chips) ≤ cs.length)
    && cs.all (fun c => decide (c.2.2 ≤ ((x.got.find? (fun g => g.1 == (x.round, c.2.1))).map (·.2)).getD 0))

/-- A DISPATCH record is taken into its exchange: accepted while its expert has capacity, else rejected (R159). -/
def takeDispatch (l : LayerRec) (r : ExuRec) (x : ExpertEx) : ExpertEx :=
  let key := (r.round, r.src)
  let n := ((x.got.find? (fun g => g.1 == key)).map (·.2)).getD 0
  let x := { x with got := (key, n + 1) :: x.got.filter (fun g => g.1 != key) }
  let a := mgetD x.accepted r.expert 0
  if a < l.capacity then { x with accepted := mset x.accepted r.expert (sat 16 (a + 1)), acceptedRecs := x.acceptedRecs ++ [r] }
  else { x with rejects := x.rejects ++ [r] }

/-- The probe record of a choice that round n − 1 has rejected. -/
def probeRec (l : LayerRec) (n : Nat) (q : ExuRec) : Option ExuRec :=
  (nextProbe l.experts q.chosen q.expert).map (fun e => { q with expert := e, round := n, overflowed := true })

/-- Rounds of an exchange close as far as they can: probes of rejected choices go out, then CLOSEs of the next
round; after the last round the chip's expert steps may run. -/
def closeRounds (r : ExuRec) : Nat → State → State
  | 0, s => s
  | fuel + 1, s =>
    match expertOf s r, layerOf s r.modelCtx r.layer with
    | some x, some (p, l, i) =>
      match placement s r.modelCtx r.epoch r.layer with
      | none => s
      | some pl =>
        let chips := expertSet pl
        if x.closed || !roundClosed x pl.sources chips.length then s
        else if x.round + 1 < rounds l then
          let ps := (x.rejects.filter (fun q => q.round == x.round)).filterMap (probeRec l (x.round + 1))
          let s := modExpert r (fun x => { x with round := x.round + 1, rejects := x.rejects.filter (fun q => q.round != x.round) }) s
          let s := forEach (fun q s => sendExu i (expertLoc pl q.expert) .dispatch q s) ps s
          let s := forEach (fun c s => sendExu i c .close ({
            epoch := r.epoch, layer := r.layer, exchange := r.exchange, round := x.round + 1, home := ownLoc s, lc := r.lc
            count := (ps.filter (fun q => expertLoc pl q.expert == c)).length } : ExuRec) s) chips s
          closeRounds r fuel s
        else
          signalCtr p l.expertSig.1 l.expertSig.2 1 (modExpert r (fun x => { x with closed := true }) s)
    | _, _ => s

/-- A DISPATCH or CLOSE of a round is taken into its exchange. -/
def takeRec (close : Bool) (l : LayerRec) (r : ExuRec) (x : ExpertEx) : ExpertEx :=
  if close then { x with closes := x.closes ++ [(r.round, r.src, r.count)] } else takeDispatch l r x

/-- A DISPATCH or a CLOSE of a round at this chip: a record of a third exchange of the layer waits for an older one (R159); with
no serving job a DISPATCH is answered with GONE (R161). -/
def expertRec (e : Bool × ExuRec) (s : State) : State :=
  let r := e.2
  match layerOf s r.modelCtx r.layer with
  | none => if e.1 then s else sendGone r s
  | some (_, l, _) =>
    if (expertOf s r).isSome then closeRounds r 5 (modExpert r (takeRec e.1 l r) s)
    else if 2 ≤ openExchanges s r.modelCtx r.layer then { s with exu := { s.exu with waiting := s.exu.waiting ++ [e] } }
    else
      let x : ExpertEx := { mc := r.modelCtx, layer := r.layer, exchange := r.exchange }
      closeRounds r 5 { s with exu := { s.exu with expert := s.exu.expert ++ [takeRec e.1 l r x] } }

/-- Records that waited are taken in turn, as often as fuel says: one that closes an exchange may let others in. -/
def retryFuel : Nat → State → State
  | 0, s => s
  | fuel + 1, s => retryFuel fuel (forEach expertRec s.exu.waiting { s with exu := { s.exu with waiting := [] } })

/-- Records that waited are taken in turn. -/
def retryWaiting (s : State) : State := retryFuel s.exu.waiting.length s

/-- DISPATCH: a token's choice reaches the chip of its expert. -/
def execDispatch (t : Nat) (r : ExuRec) (s : State) : Host.Outcome State Fault Refusal :=
  .next (arrive .dispatch r (fun s => retryWaiting (expertRec (false, r) s)) (tick t s))

/-! ## Returns at the home chip (R164, R166, R168) -/

/-- The record belongs to an exchange of this chip as home. -/
def sameHome (x : HomeEx) (r : ExuRec) : Bool := x.mc == r.modelCtx && x.layer == r.layer && x.exchange == r.exchange

/-- The slot word with a further accepted choice and its marks. -/
def markWord (r : ExuRec) (w : Nat) : Nat :=
  (w / 16 * 16 + (w % 16 + 1) % 16) ||| (bnat r.overflowed * 16 + bnat r.widened * 32 + bnat r.exhausted * 64)

/-- The exchange once a RETURN has come: who sent it, whether a probe was accepted, whether its row is poison. -/
def noteReturn (r : ExuRec) (bad : Bool) (x : HomeEx) : HomeEx :=
  { x with
    got := madd x.got r.src 1
    slots := x.slots.map (fun w => if w.slot == r.slot then { w with probed := w.probed + bnat r.overflowed, bad := w.bad || bad } else w) }

/-- A RETURN is added into its token's row by FP32 adds of the home chip's memory controller, and its marks into the slot word. -/
def addReturn (r : ExuRec) (x : HomeEx) (s : State) : State :=
  if !x.slots.any (fun w => w.slot == r.slot) then modHome (noteReturn r false x) s
  else match readSlot s x r.slot with
    | none => plateFatal (jobIdx x.job) x.plate s
    | some (l, v) =>
      let bad := r.status != .complete || spansPoisoned s l
      let s := modHome (noteReturn r bad x) s
      if bad then s else putSlot l x.width { row := List.zipWith fadd v.row r.row, word := markWord r v.word } s

/-- Every chip of the expert set has closed its return, and the counts are met. -/
def returnsDone (x : HomeEx) : Bool :=
  x.chips.all (fun c => match x.closes.find? (fun e => e.1 == c) with
    | some e => decide (e.2 ≤ mgetD x.got c 0)
    | none => false)

/-- What the return buffer holds for the slots of an exchange; none where a slot is not mapped. -/
def slotVals (s : State) (x : HomeEx) : Option (List (SlotRow × List (Nat × Nat) × SlotVal)) :=
  x.slots.mapM (fun w => (readSlot s x w.slot).map (fun v => (w, v.1, v.2)))

/-- The marks of a token's slot word go to its request's completion flags (R131, R168); a row that is poison ends the request
(R455). -/
def settleSlot (k : Nat) (w : SlotRow) (word : Nat) (s : State) : State :=
  match w.req with
  | none => s
  | some q =>
    let s := modReq q (fun r =>
      let r := if bit word 5 then setFlag 0 r else r
      let r := if bit word 6 then setFlag 1 r else r
      if bit word 4 || decide (word % 16 < k) then setFlag 3 r else r) s
    if w.bad then endReq false q .memoryUncorrectable s else s

/-- The rows are weighted in the return buffer, the requests' flags and the layer's counts set, and the combine step's counter
signalled (R164, R168). -/
def combine (x : HomeEx) (s : State) : State :=
  let s := { s with exu := { s.exu with home := s.exu.home.filter (fun y => !(y.mc == x.mc && y.layer == x.layer && y.exchange == x.exchange)) } }
  let i := jobIdx x.job
  match slotVals s x with
  | none => plateFatal i x.plate s
  | some vs =>
    let s := forEach (fun v s => putSlot v.2.1 x.width { v.2.2 with
      row := v.2.2.row.map (fun a => fmul a (combineWeight x.mode x.k (v.2.2.word % 16))) } s) vs s
    let probed := sumOf (fun w => w.probed) x.slots
    let ovf := probed + sumOf (fun v => x.k - v.2.2.word % 16) vs
    let none' := (vs.filter (fun v => v.2.2.word % 16 == 0)).length
    let s := modLayer x.plate x.layer (fun c => { c with
      overflow := sat 32 (c.overflow + ovf), probed := sat 32 (c.probed + probed), sharedOnly := sat 32 (c.sharedOnly + none') }) s
    let j := jobAt s i
    let s := if ovf = 0 then s else
      traceEvent j.ctx x.layer 0 j.id (.overflow (shownLayer s j.ctx x.plate x.layer) x.exchange ovf none') (x.slots.filterMap (·.req)) s
    let s := forEach (fun v s => settleSlot x.k v.1 v.2.2.word s) vs s
    match (plateOf s x.plate).image.layers.find? (fun l => l.layerId == x.layer) with
    | some l => signalCtr x.plate l.combineSig.1 l.combineSig.2 1 s
    | none => s

/-- The home exchange of r takes it by f, and combines once its returns are done. -/
def atHome (r : ExuRec) (f : HomeEx → State → State) (s : State) : State :=
  match s.exu.home.find? (fun x => sameHome x r) with
  | none => s
  | some x =>
    let s := f x s
    match s.exu.home.find? (fun x => sameHome x r) with
    | some x => if returnsDone x then combine x s else s
    | none => s

/-- RETURN: an expert's result reaches the token's home chip. -/
def execExuReturn (t : Nat) (r : ExuRec) (s : State) : Host.Outcome State Fault Refusal :=
  .next (arrive .ret r (atHome r (addReturn r)) (tick t s))

/-- The job and the plate of a layer's expert exchange at this chip. -/
def exchangeOf (s : State) (p layer exchange : Nat) : Option ExpertEx :=
  let j := jobAt s (plateOf s p).job
  s.exu.expert.find? (fun x => x.mc == j.mc && x.layer == layer && x.exchange == exchange)

/-- The queue of an expert in the placement that a record names (Table 7.3). -/
def queueOf (s : State) (r : ExuRec) : Option Nat :=
  (placement s r.modelCtx r.epoch r.layer).map (fun t => bits (t.entries.getD r.expert 0).toNat 15 8)

/-- The rows of records land one after another from byte a of an island of plate p, a row that is not valid as poison. -/
def landRows (p layer isl : Nat) : Nat → List ExuRec → State → State
  | _, [], s => s
  | a, r :: l, s =>
    let s := landBank p isl a layer 0xFFFF r.bytes s
    landRows p layer isl (a + r.bytes.length) l (if r.status = .complete then s else poisonBank p isl a r.bytes.length s)

/-- A step takes the rows that an exchange has accepted for an expert queue into an island's banks, in the order of acceptance; a
poisoned row lands as poison (R154, R158; log entry 143). -/
def expertRows (p layer exchange queue isl dst : Nat) (s : State) : State :=
  match exchangeOf s p layer exchange with
  | none => s
  | some x =>
    landRows p layer isl dst (x.acceptedRecs.filter (fun r => queueOf s r == some queue)) s

/-- A step's expert returns the row at addr of a plate's banks for an accepted record: the record's OVERFLOWED, and the marks
that R130 has set for it (R168). -/
def expertReturn (p layer exchange home slot choice isl addr : Nat) (s : State) : State :=
  let q := plateOf s p
  match exchangeOf s p layer exchange, q.image.layers.find? (fun l => l.layerId == layer) with
  | some x, some l =>
    match x.acceptedRecs.find? (fun r => r.home == home && r.slot == slot && r.choice == choice) with
    | none => s
    | some r =>
      let n := 4 * l.width
      let bad := r.status != .complete || bankPoisoned s p isl addr n
      let s := modExpert r (fun x => { x with returned := madd x.returned home 1 }) s
      sendExu q.job home .ret { r with
        toHome := true, lc := stepLc s p, round := 0, bytes := [], chosen := [], row := wordsOf (readBank s p isl addr n)
        status := if bad then .memoryUncorrectable else .complete } s
  | _, _ => s

/-- After the expert steps have posted their RETURNs, each home chip gets a return CLOSE with its count, and the exchange is over
here (R158 step 5; log entry 170). -/
def expertDone (p layer exchange : Nat) (s : State) : State :=
  match exchangeOf s p layer exchange with
  | none => s
  | some x =>
    let homes := dedup' ((x.closes.filter (fun c => c.1 == 0)).map (fun c => c.2.1))
    let s := { s with exu := { s.exu with expert := s.exu.expert.filter (fun y => !(y.mc == x.mc && y.layer == layer && y.exchange == exchange)) } }
    let lc := stepLc s p
    let s := forEach (fun h s => sendExu (plateOf s p).job h .close ({
      toHome := true, layer := layer, exchange := exchange, home := h, lc := lc, epoch := stepEpoch s p
      count := mgetD x.returned h 0 } : ExuRec) s) homes s
    retryWaiting s

/-! ## Embedding tables (R169, R170) -/

/-- Row stride of a table (Table 7.6). -/
def rowStride (e : EmbTable) : Nat :=
  if e.rowBytes ≤ 256 then (if isPow2 e.rowBytes then e.rowBytes else 2 ^ (Nat.log2 e.rowBytes + 1)) else ceilDiv e.rowBytes 256 * 256

/-- The table has two slots. -/
def twoSlot (e : EmbTable) : Bool := decide (256 < e.rowBytes)

/-- Elements of a row. -/
def rowElems (e : EmbTable) : Nat := 8 * e.rowBytes / elemBits e.format

/-- Shard and slot of a row (R170). -/
def placeRow (e : EmbTable) (r : Nat) : Nat × Nat :=
  let b := 2 ^ e.rowBits
  let c := ceilDiv e.rowBits 2
  let x := r ^^^ (e.seed % b)
  let x := x ^^^ (x / 2 ^ c)
  let x := x * (0xB5A73C19E64D2F07 % b) % b
  let x := x ^^^ (x / 2 ^ c)
  (x / 2 ^ (e.rowBits - e.shardBits), x % 2 ^ (e.rowBits - e.shardBits))

/-- GFA of row r in slot 0 or 1. -/
def rowAddr (e : EmbTable) (slot r : Nat) : Nat :=
  let p := placeRow e r
  e.shards.getD p.1 0 % 2 ^ 48 + (slot * 2 ^ (e.rowBits - e.shardBits) + p.2) * rowStride e

/-- LOCATION of the chip that owns row r. -/
def rowOwner (e : EmbTable) (r : Nat) : Nat := rowAddr e 0 r / 2 ^ 41

/-- Table number idx of an epoch's manifest. -/
def embTable (s : State) (mc epoch idx : Nat) : Option EmbTable := (epochOf s mc epoch).bind (fun e => e.m.embs[idx]?)

/-- Update state of a table in an epoch. -/
def embState (e : Epoch) (idx : Nat) : EmbState := (e.emb.find? (fun x => x.table == idx)).getD { table := idx }

/-- Update state of a table in a numbered epoch. -/
def embStateAt (s : State) (mc epoch idx : Nat) : EmbState :=
  match epochOf s mc epoch with | some e => embState e idx | none => { table := idx }

/-- Update state of a table of an epoch changed by f. -/
def modEmb (mc epoch idx : Nat) (f : EmbState → EmbState) (s : State) : State :=
  modEpoch mc epoch (fun e => { e with
    emb := if e.emb.any (fun x => x.table == idx) then e.emb.map (fun x => if x.table == idx then f x else x)
           else e.emb ++ [f { table := idx }] }) s

/-- The slot that generation g reads. -/
def genSlot (e : EmbTable) (g : Nat) : Nat := if twoSlot e then g % 2 else 0

/-- The chunks of a stored row are the model context's, in the line mode of the table's format (R182, Table 8.4). -/
def rowReach (s : State) (mc : Nat) (e : EmbTable) (a : Nat) : Bool :=
  (chunksOf a e.rowBytes).all (fun c => chunkKind s c == 2 && chunkOwner s c == mc && lmodeOf s c == modeOfFormat e.format)

/-- Values of a stored row, converted to FP32 at full value (R171): FP8 rows carry a scale in each line. -/
def rowValues (s : State) (e : EmbTable) (a : Nat) : List Word :=
  let cs := unpackElems (elemBits e.format) (readDram s a e.rowBytes) (rowElems e)
  if e.format = 3 ∨ e.format = 4 then
    (cs.zip (List.range cs.length)).map (fun c =>
      let sc := mgetD s.mem.scales ((a + c.2) / 32) 0 % 256
      if sc = 0xFF then qnan else toFp32 (shiftV ((sc : Int) - 127) (ofElem e.format c.1)))
  else cs.map (fun c => toFp32 (ofElem e.format c))

/-! ## Gathers (R171, R172) -/

/-- The generation that gathers of plate p (none: of requests) carry for a table of an epoch (R175): a plate still to apply a
commit uses the one before. -/
def gatherGen (s : State) (mc epoch idx : Nat) (p : Option Nat) : Nat :=
  let g := (embStateAt s mc epoch idx).gen
  match p.bind (fun p => s.mdl.embAnswers.find? (fun a => a.mc == mc && a.epoch == epoch && a.table == idx && a.plates.contains p)) with
  | some a => a.gen
  | none => g

/-- The bags of a gather go out: a GATHER record to each owner with the bag's rows there, in bag order, then a CLOSE
to each owner (R171). -/
def gatherOut (i idx epoch : Nat) (req : Option Nat) (lc : Bool) (e : EmbTable) (bags : List Bag) (mk : Nat → BagEx → BagEx)
    (p : Option Nat) (s : State) : State :=
  let j := jobAt s i
  let owners := dedup' ((bags.flatMap (·.ids)).map (rowOwner e))
  reachAll i owners (fun s =>
    let (x, s) := nextExchange 1 j.mc idx s
    let g := gatherGen s j.mc epoch idx p
    let nb := bags.zip (List.range bags.length)
    let bx := nb.map (fun b => mk b.2 ({
      req := req, job := j.id, mc := j.mc, table := idx, exchange := x, slot := b.2, gen := g
      owners := dedup' (b.1.ids.map (rowOwner e)), mean := b.1.mean, ids := b.1.ids.length
      row := List.replicate (rowElems e) 0, plate := p.getD 64 } : BagEx))
    let s := { s with exu := { s.exu with bags := s.exu.bags ++ bx } }
    let recs := nb.flatMap (fun b => (dedup' (b.1.ids.map (rowOwner e))).map (fun o => (o, ({
      epoch := epoch, lc := lc, mean := b.1.mean, layer := idx, home := ownLoc s, exchange := x, slot := b.2, gen := g
      ids := b.1.ids.filter (fun r => rowOwner e r == o), count := (b.1.ids.filter (fun r => rowOwner e r == o)).length } : ExuRec))))
    let s := forEach (fun r s => sendExu i r.1 .gather r.2 s) recs s
    forEach (fun o s => sendExu i o .close ({
      epoch := epoch, layer := idx, exchange := x, home := ownLoc s, lc := lc, gather := true
      count := (recs.filter (fun r => r.1 == o)).length } : ExuRec) s) owners s) s

/-- A finished bag's row: a MEAN bag is divided by its number of IDs, rounded once. -/
def bagRow (b : BagEx) : List Word :=
  if b.mean && b.ids != 0 then b.row.map (fun v => fdiv v (natFp32' b.ids)) else b.row
where natFp32' (n : Nat) : Word := fp32Q false n 1 0

/-- A request's gather is over once every bag is: its results are written bag by bag and its final completion
follows; a row that could not be read ends it with that status (R171, R455). -/
def finishGather (k : Nat) (s : State) : State :=
  match mget s.srv.reqs k with
  | none => s
  | some r =>
    let bs := s.exu.bags.filter (fun b => b.req == some k)
    if bs.any (fun b => !b.owners.isEmpty) then s
    else
      match (bs.filterMap (·.bad)).head? with
      | some st => endReq false k st s
      | none =>
        let data := ((sortBy (fun a b => decide (a.slot ≤ b.slot)) bs).flatMap (fun b => bytesOfWords (bagRow b))).take r.resultBytes
        let s := if data.isEmpty then s else writeHost r.h.ctx r.resultAddr data r.h.job r.h.layerTag r.h.opTag s
        let s := { s with exu := { s.exu with bags := s.exu.bags.filter (fun b => b.req != some k) } }
        endReq false k (r.endStatus.getD .complete)
          (modReq k (fun r => { r with st := .finishing, bytesOut := data.length, bagsLeft := 0 }) s)

/-- A posted bag is over: its row lands in the plate's banks and the counter is signalled. A row that is poison lands as poison
(R455); one that an owner denied tears the job down (Table 19.6). -/
def finishBag (b : BagEx) (s : State) : State :=
  let s := { s with exu := { s.exu with bags := s.exu.bags.filter (fun c => !(c.mc == b.mc && c.table == b.table && c.exchange == b.exchange && c.slot == b.slot)) } }
  if b.bad == some .accessDenied then plateFatal (jobIdx b.job) b.plate s
  else
    let row := bytesOfWords (bagRow b)
    let s := landBank b.plate b.isl b.dst (stepLayer s b.plate) 0xFFFF row s
    let s := if b.bad.isSome then poisonBank b.plate b.isl b.dst row.length s else s
    if b.inc = 0 then s else signalCtr b.plate b.isl b.ctr b.inc s

/-- The bag a record answers. -/
def sameBag (b : BagEx) (r : ExuRec) : Bool :=
  b.mc == r.modelCtx && b.table == r.layer && b.exchange == r.exchange && b.slot == r.slot

/-- A POOLED row is added into its bag, in arrival order; the bag is over once every owner has answered. -/
def takePooled (r : ExuRec) (s : State) : State :=
  match s.exu.bags.find? (fun b => sameBag b r) with
  | none => s
  | some b =>
    let b := { b with
      row := List.zipWith fadd b.row r.row, owners := b.owners.filter (fun o => o != r.src)
      bad := if r.status = .complete then b.bad else some r.status }
    let s := { s with exu := { s.exu with bags := s.exu.bags.map (fun c => if sameBag c r then b else c) } }
    if !b.owners.isEmpty then s
    else settleAnswers (match b.req with | some k => finishGather k s | none => finishBag b s)

/-- POOLED: an owner's partial row reaches the home chip. -/
def execPooled (t : Nat) (r : ExuRec) (s : State) : Host.Outcome State Fault Refusal :=
  .next (arrive .pooled r (takePooled r) (tick t s))

/-- The gather at an owner that a record belongs to. -/
def sameGather (x : GatherEx) (r : ExuRec) : Bool :=
  x.mc == r.modelCtx && x.table == r.layer && x.exchange == r.exchange && x.src == r.home

/-- That gather changed by f; where none is known yet, f of a new one. Once as many bags are answered as its CLOSE counts, its
return CLOSE goes to the home chip (R158, R171). -/
def modGather (i : Nat) (r : ExuRec) (f : GatherEx → GatherEx) (s : State) : State :=
  let x := f ((s.exu.gathers.find? (fun x => sameGather x r)).getD { mc := r.modelCtx, table := r.layer, exchange := r.exchange, src := r.home })
  let rest := s.exu.gathers.filter (fun x => !sameGather x r)
  if decide ((x.close.getD (x.pooled + 1)) ≤ x.pooled) then
    sendExu i r.home .close { epoch := r.epoch, layer := r.layer, exchange := r.exchange, home := r.home, lc := r.lc
                              toHome := true, gather := true, count := x.pooled } { s with exu := { s.exu with gathers := rest } }
  else { s with exu := { s.exu with gathers := rest ++ [x] } }

/-- The POOLED record that answers a GATHER: the rows pooled in list order, from +0 (R171). -/
def poolRows (s : State) (e : EmbTable) (r : ExuRec) (as : List Nat) : ExuRec :=
  { r with
    toHome := true, gen := 0, ids := [], count := r.ids.length
    row := as.foldl (fun row a => List.zipWith fadd row (rowValues s e a)) (List.replicate (rowElems e) 0)
    status := if as.any (fun a => (linesOf a e.rowBytes).any (linePoisoned s)) then .memoryUncorrectable else .complete }

/-- A GATHER at the owner of its rows; a chip that no longer serves the model context or its epoch answers GONE; rows in a frame
being restored wait for it; rows that Table 8.4 denies are not read (log entry 169). -/
def gatherRec (r : ExuRec) (s : State) : State :=
  match servingJob s r.modelCtx, embTable s r.modelCtx r.epoch r.layer with
  | some i, some e =>
    let as := r.ids.map (fun id => rowAddr e (genSlot e r.gen) id % 2 ^ 41)
    let bad := as.filter (fun a => (linesOf a e.rowBytes).any (linePoisoned s))
    if !as.all (rowReach s r.modelCtx e) then
      modGather i r (fun x => { x with pooled := x.pooled + 1 }) (sendExu i r.home .pooled { r with
        toHome := true, gen := 0, ids := [], count := 0, row := List.replicate (rowElems e) 0, status := .accessDenied } s)
    else if bad.any (fun a => s.mem.restoring.contains (a / 65536)) then { s with exu := { s.exu with stalled := s.exu.stalled ++ [r] } }
    else
      let j := jobAt s i
      let s := forEach (fun a s => countDram false a e.rowBytes j.ctx j.id 0xFFFF 0xFFFF s) as s
      modGather i r (fun x => { x with pooled := x.pooled + 1 }) (sendExu i r.home .pooled (poolRows s e r as) s)
  | _, _ => sendGone r s

/-- GATHER: a bag's rows are asked of their owner. -/
def execGather (t : Nat) (r : ExuRec) (s : State) : Host.Outcome State Fault Refusal :=
  .next (arrive .gather r (gatherRec r) (tick t s))

/-- GATHERs that waited for a frame are tried again. -/
def retryStalled (s : State) : State :=
  let w := s.exu.stalled
  forEach gatherRec w { s with exu := { s.exu with stalled := [] } }

/-- A CLOSE at its destination: of a round at an expert chip, of a return at a home chip (R158), or of a gather (R171); the
return CLOSE of a gather changes nothing, since every bag knows the owners that it waits for. -/
def closeRec (r : ExuRec) (s : State) : State :=
  if r.gather then
    (if r.toHome then s
    else match servingJob s r.modelCtx with
      | some i => modGather i r (fun x => { x with close := some r.count }) s
      | none => s)
  else if r.toHome then atHome r (fun x s => modHome { x with closes := x.closes ++ [(r.src, r.count)] } s) s
  else retryWaiting (expertRec (true, r) s)

/-- CLOSE: as closeRec. -/
def execClose (t : Nat) (r : ExuRec) (s : State) : Host.Outcome State Fault Refusal :=
  .next (arrive .close r (closeRec r) (tick t s))

/-- A step posts a gather (R171, R172): an ID out of range is a plate error, and its bag delivers +0. -/
def postGather (p idx : Nat) (bags : List Bag) (isl ctr inc dst : Nat) (s : State) : State :=
  let i := (plateOf s p).job
  let j := jobAt s i
  let epoch := stepEpoch s p
  match embTable s j.mc epoch idx with
  | none => s
  | some e =>
    let wrong := fun (b : Bag) => b.ids.any (fun r => decide (2 ^ e.rowBits ≤ r))
    let s := forEach (fun _ s => plateNote i p s) (bags.filter wrong) s
    let bags := bags.map (fun b => if wrong b then { b with ids := [] } else b)
    let s := gatherOut i idx epoch none (stepLc s p) e bags
      (fun n b => { b with isl := isl, ctr := ctr, inc := inc, dst := dst + n * 4 * rowElems e }) (some p) s
    forEach finishBag (s.exu.bags.filter (fun b => b.req == none && b.plate == p && b.owners.isEmpty)) s

/-! ## Row updates (R173 to R177) -/

/-- Chips that hold a shard of a table. -/
def shardChips (e : EmbTable) : List Nat := dedup' (e.shards.map (fun a => a % 2 ^ 48 / 2 ^ 41))

/-- The next exchange count of a table's commands at this chip (R176). -/
def nextEmbEx (mc idx : Nat) (s : State) : Nat × State :=
  let k := mc * 2 ^ 16 + idx
  let n := mgetD s.mdl.embExchange k 0
  (n, { s with mdl := { s.mdl with embExchange := mset s.mdl.embExchange k ((n + 1) % 2 ^ 32) } })

/-- A commit of the table is in flight here and not yet settled (R177). -/
def embBusy (s : State) (mc idx : Nat) : Bool :=
  s.mdl.embCmds.any (fun c => c.mc == mc && c.table == idx && c.phase != 0)
    || (embStateAt s mc (newestNum s mc) idx).unsettled

/-- Number of the table of a TABLE_ID in the newest released epoch. -/
def tableIdx (s : State) (mc id : Nat) : Option (Nat × EmbTable) :=
  match (modelOf s mc).bind newestEpoch with
  | some e => ((List.range e.m.embs.length).zip e.m.embs).find? (fun x => x.2.tableId == id)
  | none => none

/-- EMB_ROW_UPDATE and EMB_GEN_COMMIT: a job that does not serve the model context named (R486). -/
def servesCheck (s : State) (h : Hdr) : Option Status := failIf ((jobAt s (jobIdx h.job)).mc != h.modelCtx) .accessDenied

/-- A command of R176 that is under way. -/
def addEmbCmd (c : EmbCmd) (s : State) : State := { s with mdl := { s.mdl with embCmds := s.mdl.embCmds ++ [c] } }

/-- EMB_ROW_UPDATE (R173, R176): an UPDATE goes to the owner of the row. -/
def execEmbRowUpdate (t : Nat) (h : Hdr) (table row : Nat) (data : Option (List Byte)) (s : State) : Host.Outcome State Fault Refusal :=
  .next (command t h (fun s =>
    let bad := firstOf [shapeCheck s h { rings := [2], job := true, mc := true } false, jobCheck s h, servesCheck s h]
    match bad, tableIdx s h.modelCtx table with
    | some st, _ => final (cmdOf h) st 0 0 s
    | none, none => final (cmdOf h) .malformed 0 0 s
    | none, some (idx, e) =>
      if 2 ^ e.rowBits ≤ row then final (cmdOf h) .malformed 0 0 s
      else if twoSlot e && embBusy s h.modelCtx idx then final (cmdOf h) .busy 0 0 s
      else
        let s := countHostRd h.ctx h.job h.layerTag h.opTag e.rowBytes s
        match data with
        | none => final (cmdOf h) .malformed 0 0 s
        | some d =>
          let n := newestNum s h.modelCtx
          let g := (embStateAt s h.modelCtx n idx).gen
          let (x, s) := nextEmbEx h.modelCtx idx s
          let c : EmbCmd := { cmd := cmdOf h, job := h.job, mc := h.modelCtx, table := idx, exchange := x, epoch := n, phase := 0, gen := g, left := [rowOwner e row],
                               layerTag := h.layerTag, opTag := h.opTag }
          sendExu (jobIdx h.job) (rowOwner e row) .update { embRec s c g with ids := [row], bytes := d.take e.rowBytes, count := 1 }
            (addEmbCmd c s)) s)

/-- EMB_GEN_COMMIT (R175, R176): COMMIT with the next generation goes to every chip of the model context. A commit
with nothing staged completes without changing the generation. -/
def execEmbGenCommit (t : Nat) (h : Hdr) (table : Nat) (s : State) : Host.Outcome State Fault Refusal :=
  .next (command t h (fun s =>
    let bad := firstOf [shapeCheck s h { rings := [2], job := true, mc := true } false, jobCheck s h, servesCheck s h]
    match bad, tableIdx s h.modelCtx table with
    | some st, _ => final (cmdOf h) st 0 0 s
    | none, none => final (cmdOf h) .malformed 0 0 s
    | none, some (idx, tb) =>
      let n := newestNum s h.modelCtx
      let st := embStateAt s h.modelCtx n idx
      if embBusy s h.modelCtx idx then final (cmdOf h) .busy 0 0 s
      else if !twoSlot tb || (!st.issued && st.staged.isEmpty) then final (cmdOf h) .complete st.gen 0 s
      else
        let chips := modelChips s h.modelCtx
        let (x, s) := nextEmbEx h.modelCtx idx s
        let c : EmbCmd := { cmd := cmdOf h, job := h.job, mc := h.modelCtx, table := idx, exchange := x, epoch := n, phase := 1
                            gen := (st.gen + 1) % 2 ^ 32, left := chips, layerTag := h.layerTag, opTag := h.opTag }
        reachAll (jobIdx h.job) chips (fun s =>
          forEach (fun d s => sendExu (jobIdx h.job) d .commit (embRec s c c.gen) s) chips (addEmbCmd c s))
          (if chips.all (reachable s) then s else final (cmdOf h) .fabricTargetLost 0 0 s)) s)

/-- An UPDATE at the owner of its row: a single-slot row is written in one operation of the controller (R174), a two-slot
row is staged in the slot of the next generation (R175); while a commit is not settled the answer is BUSY (R177). -/
def updateRec (r : ExuRec) (s : State) : State :=
  match servingJob s r.modelCtx, r.ids, embTable s r.modelCtx r.epoch r.layer with
  | some _, row :: _, some e =>
    let st := embStateAt s r.modelCtx r.epoch r.layer
    let a := rowAddr e (if twoSlot e then (st.gen + 1) % 2 else 0) row % 2 ^ 41
    if twoSlot e && st.unsettled then sendDone r .busy s
    else if !(rowReach s r.modelCtx e a) then sendDone r .accessDenied s
    else
      let s := writeDram a r.bytes s
      let s := if twoSlot e then
          modEmb r.modelCtx r.epoch r.layer (fun x => { x with staged := (row, r.bytes) :: x.staged.filter (fun q => q.1 != row) }) s
        else s
      sendDone r .complete s
  | _, _, _ => sendGone r s

/-- UPDATE: as updateRec. -/
def execUpdate (t : Nat) (r : ExuRec) (s : State) : Host.Outcome State Fault Refusal :=
  .next (arrive .update r (updateRec r) (tick t s))

/-- Plates of the model context that post gathers and have a step under way, but for those that use generation g already. -/
def runningPlates (s : State) (r : ExuRec) : List Nat :=
  let old := (s.mdl.embAnswers.filter (fun a => a.mc == r.modelCtx && a.table == r.layer && a.epoch == r.epoch && a.gen == r.gen)).flatMap (·.plates)
  ((s.fab.plates.filter (fun p => (jobAt s p.2.job).mc == r.modelCtx && p.2.running.isSome)).map (·.1)).filter (fun p => !old.contains p)

/-- Generation r.gen comes into force for a table here: for gathers of requests at once, for each plate with a running step at its
boundary; DONE follows once the three conditions of R176 hold. -/
def applyGen (old : Nat) (u : Bool) (by' : Option (Nat × Nat)) (r : ExuRec) (s : State) : State :=
  let ps := runningPlates s r
  let s := modEmb r.modelCtx r.epoch r.layer (fun x => { x with gen := r.gen, unsettled := u, raised := by' }) s
  let a : EmbAnswer := { home := r.home, mc := r.modelCtx, table := r.layer, exchange := r.exchange, epoch := r.epoch, gen := old, plates := ps }
  settleAnswers { s with mdl := { s.mdl with
    embAnswers := s.mdl.embAnswers.filter (fun b => !(b.home == r.home && b.mc == r.modelCtx && b.table == r.layer && b.exchange == r.exchange)) ++ [a] } }

/-- A COMMIT at a chip of the model context (R176). The next generation is applied, unless another commit of the table is not yet
settled here (R177); GEN below the one in force reverts the commit that has raised it, and no other (log entry 171). A chip that
holds no shard of the table has nothing to settle. -/
def commitRec (r : ExuRec) (s : State) : State :=
  match embTable s r.modelCtx r.epoch r.layer with
  | none => sendGone r s
  | some tb =>
    let st := embStateAt s r.modelCtx r.epoch r.layer
    let me := (r.home, r.exchange)
    if st.gen = r.gen then sendDone r .complete s
    else if (st.gen + 1) % 2 ^ 32 = r.gen then
      (if st.unsettled then sendDone r .busy s
      else applyGen st.gen ((shardChips tb).contains (ownLoc s)) (some me) r s)
    else if st.raised == some me then applyGen st.gen false none r s
    else sendDone r .complete s

/-- COMMIT: as commitRec. -/
def execCommit (t : Nat) (r : ExuRec) (s : State) : Host.Outcome State Fault Refusal :=
  .next (arrive .commit r (commitRec r) (tick t s))

/-- A SETTLE at a chip that holds a shard: the rows staged for the generation in force are copied into the other slot
(R175 step 4). -/
def settleRec (r : ExuRec) (s : State) : State :=
  match embTable s r.modelCtx r.epoch r.layer with
  | some tb =>
    let st := embStateAt s r.modelCtx r.epoch r.layer
    let addr := fun row => rowAddr tb ((st.gen + 1) % 2) row % 2 ^ 41
    if !st.staged.all (fun q => rowReach s r.modelCtx tb (addr q.1)) then sendDone r .accessDenied s
    else
      let s := forEach (fun q s => writeDram (addr q.1) q.2 s) st.staged s
      sendDone r .complete (modEmb r.modelCtx r.epoch r.layer (fun x => { x with staged := [], issued := false, unsettled := false }) s)
  | none => sendGone r s

/-- SETTLE: as settleRec. -/
def execSettle (t : Nat) (r : ExuRec) (s : State) : Host.Outcome State Fault Refusal :=
  .next (arrive .settle r (settleRec r) (tick t s))

/-- Every chip has applied the commit: SETTLE goes to every chip that holds a shard (R176 step 3). -/
def startSettle (c : EmbCmd) (s : State) : State :=
  match embTable s c.mc c.epoch c.table with
  | none => final c.cmd .complete c.gen 0 (dropEmbCmd c s)
  | some tb =>
    let c := { c with phase := 2, left := shardChips tb }
    forEach (fun d s => sendExu (jobIdx c.job) d .settle (embRec s c 0) s) (shardChips tb) (putEmbCmd c s)

/-- A command of R176 has its last DONE of the phase: an update is staged or written, a commit goes on to settle, a settled commit
completes and reports its generation. -/
def nextPhase (c : EmbCmd) (s : State) : State :=
  let mark := fun (f : EmbState → EmbState) => modEmb c.mc c.epoch c.table f s
  if c.phase = 0 then final c.cmd .complete 0 0 (dropEmbCmd c (mark (fun x => { x with issued := true })))
  else if c.phase = 1 then startSettle c s
  else final c.cmd .complete c.gen 0 (dropEmbCmd c (mark (fun x => { x with issued := false, unsettled := false })))

/-- A DONE at the issuing chip (R176). -/
def doneRec (r : ExuRec) (s : State) : State :=
  match embCmdOf s r with
  | none => s
  | some c =>
    let left := c.left.filter (fun d => d != r.src)
    if c.phase = 3 then (if left.isEmpty then dropEmbCmd c s else putEmbCmd { c with left := left } s)
    else if r.status ≠ .complete then undoEmb c r.status s
    else if left.isEmpty then nextPhase c s
    else putEmbCmd { c with left := left } s

/-- DONE: as doneRec. -/
def execDone (t : Nat) (r : ExuRec) (s : State) : Host.Outcome State Fault Refusal :=
  .next (arrive .done r (doneRec r) (tick t s))

/-- A GONE at the home or issuing chip: the chip that answers no longer serves the exchange, an access to a lost target (R161,
R176). -/
def goneRec (r : ExuRec) (s : State) : State :=
  match s.exu.home.find? (fun x => sameHome x r), s.exu.bags.find? (fun b => sameBag b r), embCmdOf s r with
  | some x, _, _ => lostTarget (jobIdx x.job) 2 r.src
      { s with exu := { s.exu with home := s.exu.home.filter (fun y => !sameHome y r) } }
  | none, some b, _ => settleAnswers (lostTarget (jobIdx b.job) 2 r.src
      { s with exu := { s.exu with bags := s.exu.bags.filter (fun c => !sameBag c r) } })
  | none, none, some c => loseEmb c r.src s
  | none, none, none => s

/-- GONE: as goneRec. -/
def execGone (t : Nat) (r : ExuRec) (s : State) : Host.Outcome State Fault Refusal :=
  .next (arrive .gone r (goneRec r) (tick t s))

end Sys2Proof.Machine
end

