-- ==== Sys2Proof/Machine/Requests.lean ====
section
/-! DEFINITION. Requests from their descriptors to their first steps, and what ends them from outside: GENERATE,
SCORE, EMBED_GATHER, REQ_CANCEL, SEQ_END, the stop block, the prefix lookup, the deadline timer, and the frames
that a request's steps need (chapters 9, 11 and 13). -/
namespace Sys2Proof.Machine

/-! ## Frames and mappings of a sequence (R214, R251) -/

/-- The object of a kind grows to total frames; where counted, they leave the request's claim on the home
partition (R197). -/
def growTo (lc : Bool) (k pn : Nat) (kind : ObjKind) (cls : ObjClass) (m total : Nat) (s : State) : Option State :=
  let n := total - heldBy s pn kind
  (allocate lc pn kind cls m n s).map (modReq k (fun r => { r with framesHome := r.framesHome - n }))

/-- Page p of every layer of group g of entry i is mapped to frames of a chip of the board, one per layer. -/
def mapPage (geo : KvGeom) (i g p slot : Nat) (frames : List Nat) (w : Bool) (s : State) : State :=
  forEach (fun e s => setLeaf (seqOf s i).ctx (kvDva geo i g e.1 p / 65536) (leafWord slot e.2 (kvMode geo) w) s)
    ((List.range geo.layers).zip frames) s

/-- Page p of group g of entry i is recorded. -/
def notePage (i : Nat) (k : KvPage) (s : State) : State :=
  modSeq i (fun q => { q with pages := q.pages.filter (fun x => !(x.group == k.group && x.page == k.page)) ++ [k] }) s

/-- Page p of group g of entry i has its frames. -/
def hasPage (s : State) (i g p : Nat) : Bool := match pageOf (seqOf s i) g p with | some k => !k.frames.isEmpty | none => false

/-- Every block of page p of group g of entry i has been evicted, and nothing recomputes them (R217). -/
def pageEvicted (s : State) (i : Nat) (geo : KvGeom) (g p : Nat) : Bool :=
  (List.range (pagePos geo / 16)).all (fun b =>
    (seqOf s i).blocks.any (fun w => w.group == g && w.block == p * (pagePos geo / 16) + b && w.evicted))

/-- The groups of a job with the chip that serves each. -/
def groupChips (geo : KvGeom) : List (Nat × Nat) := (List.range geo.headGroups).zip geo.headChips

/-- Page p of group g of entry i is mapped to frames of its own on the chip that serves the group, and recorded. A page that was
dropped stays marked until it is recomputed (R222). -/
def placePage (i : Nat) (geo : KvGeom) (g chip p : Nat) (frames : List Nat) (s : State) : State :=
  let dropped := match pageOf (seqOf s i) g p with | some k => k.dropped | none => false
  notePage i { group := g, page := p, dropped := dropped, frames := frames } (mapPage geo i g p chip frames true s)

/-- A fresh page p of group g of entry i: its frames stand on the chip that serves the group (R213). Which frames another chip of
the board gives is a free value (log entry 165). -/
def freshPage (pn i : Nat) (geo : KvGeom) (lc : Bool) (g chip p : Nat) (s : State) : Option State :=
  if chip != s.id.slot then
    let frames := (List.range geo.layers).map (fun l => Config.headFrame (s.srv.farDrawn + l) % 2 ^ 25)
    some (placePage i geo g chip p frames { s with srv := { s.srv with farDrawn := s.srv.farDrawn + geo.layers } })
  else
    (allocate lc pn (.kv (ownLoc s) i g p) (if lc then .pinned else .cached) (kvMode geo)
        (geo.layers - heldBy s pn (.kv (ownLoc s) i g p)) s).map (fun s =>
      placePage i geo g chip p (match findObj s pn (.kv (ownLoc s) i g p) with | some o => o.frames | none => []) s)

/-- f in turn over a list, until one of them answers none. -/
def tryEach {α : Type} (f : α → State → Option State) : List α → State → Option State
  | [], s => some s
  | x :: l, s => (f x s).bind (tryEach f l)

/-- Pages [from', to') of every group of entry i that are missing. -/
def freshPages (pn i : Nat) (geo : KvGeom) (lc : Bool) (ps : List Nat) (s : State) : Option State :=
  tryEach (fun e s => if hasPage s i e.1.1 e.2 || pageEvicted s i geo e.1.1 e.2 then some s else freshPage pn i geo lc e.1.1 e.1.2 e.2 s)
    ((groupChips geo).flatMap (fun g => ps.map (fun p => (g, p)))) s

/-- Frames of the block-state words of the groups that this chip serves, for n positions (R215). -/
def wordFrames (s : State) (geo : KvGeom) (n : Nat) : Nat :=
  ceilDiv (4 * ceilDiv n 16 * ((groupChips geo).filter (fun g => g.2 == s.id.slot)).length) 65536

/-- The block-state words of entry i get their HELD frames (R215), which no rule counts at admission: where there is no room, they
get them later (log entry 57). -/
def growWords (lc : Bool) (k pn i n : Nat) (geo : KvGeom) (s : State) : State :=
  (growTo lc k pn (.blockState (ownLoc s) i) .held 0 (wordFrames s geo n) s).getD s

/-- Token IDs of entry i from position n on stand in the frames that its token buffer holds, 4 bytes each (R251). -/
def storeTokens (i n : Nat) (s : State) : State :=
  let l := (seqOf s i).tokens
  match findObj s (ctxPart s (seqOf s i).ctx) (.tokenBuffer i) with
  | none => s
  | some o => forEach (fun e s => match o.frames[e.1 / 16384]? with
      | some f => writeDram (65536 * f + 4 * (e.1 % 16384)) (leBytes e.2 4) s
      | none => s) (((List.range l.length).zip l).drop n) s

/-- Request k has the frames for n positions: token buffer, page tables, block-state words and KV pages. None while they are
short. -/
def ensurePositions (k n : Nat) (s : State) : Option State :=
  match mget s.srv.reqs k with
  | none => some s
  | some r =>
    if !r.hasSeq then some s
    else
      let pn := ctxPart s r.h.ctx
      let lc := isLc r
      let had := heldBy s pn (.tokenBuffer r.seq)
      (growTo lc k pn (.tokenBuffer r.seq) .held 0 (ceilDiv (4 * n) 65536) s).bind (fun s =>
        let s := storeTokens r.seq (16384 * had) s
        match (jobAt s (jobIdx r.h.job)).kv with
        | none => some s
        | some geo =>
          (growTo lc k pn (.level2 r.h.ctx (r.seq / 32)) .held 0 32 s).bind (fun s =>
          (growTo lc k pn (.pageTable r.seq) .held 0 (tableFrames geo n 0) s).bind (fun s =>
            (freshPages pn r.seq geo lc (List.range (ceilDiv n (pagePos geo))) s).map (growWords lc k pn r.seq n geo))))

/-- Frames that request k is still short of for n positions, at least one. -/
def shortOf (k n : Nat) (s : State) : Nat :=
  match mget s.srv.reqs k with
  | none => 1
  | some r => max 1 (match (jobAt s (jobIdx r.h.job)).kv with | some g => groupFrames g n 0 | none => ceilDiv (4 * n) 65536)

/-- Request k gets the frames for n positions, or its steps wait until the allocation can be served: a best-effort request
waits its turn, an LC request for no other, for admission has counted its frames (R197). -/
def ensureOrWait (k n : Nat) (s : State) : State :=
  match ensurePositions k n s with
  | some s => modReq k (fun r => { r with waitingBe := false }) s
  | none =>
    match mget s.srv.reqs k with
    | none => s
    | some r =>
      let s := modReq k (fun r => { r with waitingBe := true }) s
      if isLc r then s
      else modPart (ctxPart s r.h.ctx) (fun p => { p with
          waiting := if p.waiting.any (fun w => w.1 == k) then p.waiting else p.waiting ++ [(k, shortOf k n s)] }) s

/-- Positions that a request's next step needs: its whole prompt while it prefills, then one more. -/
def nextPositions (s : State) (r : Request) : Nat :=
  if r.st = .prefill ∨ r.st = .accepted ∨ r.st = .running then (seqOf s r.seq).tokens.length else (seqOf s r.seq).committed + 1

/-- BE_ALLOCATION_RESUME: allocations that wait are served in the order they began to wait (R197). -/
def resumeWaiting (pn : Nat) : Nat → State → State
  | 0, s => s
  | fuel + 1, s =>
    match (partOf s pn).waiting with
    | [] => s
    | (k, _) :: _ =>
      match mget s.srv.reqs k with
      | none => resumeWaiting pn fuel (modPart pn (fun p => { p with waiting := p.waiting.drop 1 }) s)
      | some r =>
        match ensurePositions k (nextPositions s r) s with
        | none => s
        | some s => resumeWaiting pn fuel (modPart pn (fun p => { p with waiting := p.waiting.drop 1 })
            (modReq k (fun r => { r with waitingBe := false }) s))

/-- BE_ALLOCATION_RESUME (R197). -/
def execBeAllocationResume (t part : Nat) (s : State) : Host.Outcome State Fault Refusal :=
  let s := tick t s
  .next (resumeWaiting part (partOf s part).waiting.length s)

/-! ## Steps that firmware queues (R76) -/

/-- Positions that a work item of a step computes, for the length table (R224): a verify window with the pending token. -/
def workCount (s : State) (w : Nat × WorkKind) : Nat :=
  match w.2 with
  | .prefill n | .score n | .recompute n | .head _ _ _ n _ => n
  | .verify v => v + (match mget s.srv.reqs w.1 with | some r => (if r.pendingTok.isSome then 1 else 0) | none => 0)
  | .decode => 1
  | .embed => 0

/-- The work of an attention step fits its length table: 1 to 1,024 entries of 1 to 65,535 positions, at most 65,536 in all (R224). -/
def tableFits (s : State) (l : List (Nat × WorkKind)) : Bool :=
  decide (1 ≤ l.length ∧ l.length ≤ 1024) && l.all (fun w => decide (1 ≤ workCount s w ∧ workCount s w ≤ 65535))
    && decide (sumOf (workCount s) l ≤ 65536)

/-- The epoch of a work item of a step for job i: that of its request, accepted and of the job, or of the sequence that another home
chip has published for the job's model context. None where it names neither. -/
def workEpoch (s : State) (i : Nat) (w : Nat × WorkKind) : Option Nat :=
  match w.2 with
  | .head home q _ _ _ => (pubOf s home q).bind (fun x => if x.mc = (jobAt s i).mc && (jobAt s i).kv.isSome then some x.epoch else none)
  | _ => (mget s.srv.reqs w.1).bind (fun r => if jobIdx r.h.job = i && r.st != .detected then some r.epoch else none)

/-- The work of a step is of one job and of one epoch (R245). -/
def workOk (s : State) (i : Nat) (l : List (Nat × WorkKind)) : Bool :=
  match l with
  | [] => true
  | w :: _ => (workEpoch s i w).isSome && l.all (fun x => workEpoch s i x == workEpoch s i w)

/-- Firmware queues a step on a plate (R76): on a DRAINING plate only for requests already accepted (R75). -/
def queueStep (q : QStep) (s : State) : State :=
  let p := plateOf s q.plate
  let attn := p.image.attn.any (fun a => a.1 == q.kind) && (match (jobAt s p.job).kv with | some g => g.ragged == 0 | none => false)
  if !(p.state == 2 || (p.state == 3 && !q.work.isEmpty)) || decide (p.image.stepKinds ≤ q.kind)
      || !workOk s p.job q.work || (attn && !tableFits s q.work) then s
  else modPlate q.plate (fun p => { p with
    queue := p.queue ++ [{ kind := q.kind, seq := p.nextSeq, at' := s.time, work := q.work }], nextSeq := (p.nextSeq + 1) % 2 ^ 64 }) s

/-- The steps of a plan are queued in order. -/
def queuePlan (plan : List QStep) (s : State) : State := forEach queueStep plan s

/-! ## Detection and the decision (R491) -/

/-- Body of EMBED_GATHER (Table 12.8). -/
def embedBad (b : EmbedBody) : Bool := b.bagCount == 0 || decide (4096 < b.bagCount)

/-- The root of a sequence just opened is published to the other head chips of its job (R212). -/
def publishSeq (r : Request) (s : State) : State :=
  match (jobAt s (jobIdx r.h.job)).kv with
  | none => s
  | some g =>
    if !r.opensSeq then s
    else forEach (fun c s => sendXn (boardLoc s c) 0 false (.publish r.h.ctx (seqHandle s r.seq) (Config.ctxRoot r.h.ctx)
      r.h.modelCtx r.epoch) s) (otherHeads s g) s

/-- A request just accepted takes its frame of request state, and a sequence it opens is published. -/
def takeReqState (k : Nat) (s : State) : State :=
  match mget s.srv.reqs k with
  | none => s
  | some r => publishSeq r ((growTo (isLc r) k (ctxPart s r.h.ctx) (reqObj k) .held 0 1 s).getD s)

/-- The prompt and the auxiliary input of an accepted request are read. -/
def readPrompt (h : Hdr) (b : GenBody) (s : State) : State :=
  let s := readHost h.ctx b.promptAddr (4 * b.promptLen) h.job h.layerTag h.opTag s
  if b.auxBytes = 0 then s else readHost h.ctx b.auxAddr b.auxBytes h.job h.layerTag h.opTag s

/-- Request of a GENERATE descriptor. -/
def askGen (s : State) (b : GenBody) : Ask :=
  { op := .generate, prompt := b.promptLen, maxOut := b.maxOutput, window := b.specWindow,
    seq := if b.seq = 0 || (seqOf s (b.seq % 65536)).gen != b.seq / 65536 then none else some (b.seq % 65536) }

/-- The device decides a GENERATE whose stop block (none: it names none) has been read, detected at device time d. -/
def decideGen (h : Hdr) (b : GenBody) (stop : Option StopBlock) (d : Nat) (s : State) : State :=
  let a := askGen s b
  let strings := match stop with | some x => x.strings | none => []
  let table := newestDetok s h.modelCtx
  let r : Request := {
    op := .generate, st := .detected, h := h, detect := d, gen := b
    stops := match stop with | some x => x.tokens | none => []
    strings := strings
    detok := if strings.isEmpty then none else table.map (·.gen) }
  match firstOf [seqCheck s h a b.seq, epochCheck s h, failIf (match stop with | some x => stopBad x | none => false) .malformed,
      failIf (!strings.isEmpty && table.isNone) .resourceExhausted, gateCheck s h .generate, roomCheck s h a r] with
  | some st => declineReq h .generate st s
  | none => readPrompt h b (takeReqState s.srv.nextReq (acceptReq h a r s))

/-- GENERATE (R296): the checks of R491 in order; a request with a stop block waits for it. -/
def execGenerate (t : Nat) (h : Hdr) (b : GenBody) (s : State) : Host.Outcome State Fault Refusal :=
  .next (command2 t h (fun s =>
    match firstOf [shapeCheck s h (infoReq 7) (genBad s h b), requestNames s h] with
    | some st => declineReq h .generate st s
    | none =>
      if !bit h.flags 2 then decideGen h b none s.time s
      else
        let s := readHost h.ctx b.stopAddr 576 h.job h.layerTag h.opTag s
        match firstOf [seqCheck s h (askGen s b) b.seq, epochCheck s h] with
        | some st => declineReq h .generate st s
        | none =>
          let r : Request := { op := .generate, st := .detected, h := h, detect := s.time, gen := b }
          { s with srv := { s.srv with reqs := mset s.srv.reqs s.srv.nextReq r, nextReq := s.srv.nextReq + 1 } }) s)

/-- The request waits for its stop block. -/
def awaitsStop (s : State) (k : Nat) : Option Request :=
  match mget s.srv.reqs k with
  | some r => if r.st = .detected then some r else none
  | none => none

/-- STOP_BLOCK_RETURN (R264): the read returns, or faults (none), and the decision goes on. -/
def execStopBlockReturn (t req : Nat) (block : Option StopBlock) (s : State) : Host.Outcome State Fault Refusal :=
  let s := tick t s
  .next (match awaitsStop s req with
    | none => s
    | some r =>
      let s := { s with srv := { s.srv with reqs := mdel s.srv.reqs req } }
      match block with
      | some b => decideGen r.h r.gen (some b) r.detect s
      | none =>
        match firstOf [seqCheck s r.h (askGen s r.gen) r.gen.seq, epochCheck s r.h] with
        | some st => declineReq r.h .generate st s
        | none => declineReq r.h .generate .malformed s)

/-- STOP_BLOCK_TIMEOUT (R317): an LC request whose stop block has not returned 8 µs after its detection. -/
def execStopBlockTimeout (t req : Nat) (s : State) : Host.Outcome State Fault Refusal :=
  let s := tick t s
  .next (match awaitsStop s req with
    | none => s
    | some r => if isLc r && decide (r.detect + 8000 ≤ s.time) then declineWaiting req .declined s else s)

/-- SCORE (Table 12.8): it takes a sequence-table entry for its life. -/
def execScore (t : Nat) (h : Hdr) (b : ScoreBody) (s : State) : Host.Outcome State Fault Refusal :=
  .next (command2 t h (fun s =>
    let a : Ask := { op := .score, prompt := b.promptLen, maxOut := 0, window := 0, seq := none }
    let g : GenBody := { promptLen := b.promptLen, promptAddr := b.promptAddr, auxAddr := b.auxAddr, auxBytes := b.auxBytes, maxOutput := 0 }
    let r : Request := { op := .score, st := .detected, h := h, detect := s.time, gen := g
                         resultAddr := b.resultAddr, resultBytes := b.resultBytes }
    match firstOf [shapeCheck s h (infoReq 0) (scoreBad b), requestNames s h, seqCheck s h a 0, epochCheck s h,
        gateCheck s h .score, roomCheck s h a r] with
    | some st => declineReq h .score st s
    | none => readPrompt h g (takeReqState s.srv.nextReq (acceptReq h a r s))) s)

/-- The bag words of an accepted EMBED_GATHER and its row IDs are read and its records go out (R171). A read that
fails, a set reserved bit of a bag word and a row ID out of range end it (R278, R172). -/
def startGather (k : Nat) (h : Hdr) (b : EmbedBody) (idx : Nat) (e : EmbTable) (bags : Option (List Bag)) (s : State) : State :=
  let s := readHost h.ctx b.bagAddr (8 * b.bagCount) h.job h.layerTag h.opTag s
  match bags, mget s.srv.reqs k with
  | _, none => s
  | none, some _ => endReq false k .malformed s
  | some l, some r =>
    let s := readHost h.ctx b.idsAddr (8 * sumOf (fun x => x.ids.length) l) h.job h.layerTag h.opTag s
    if l.length != b.bagCount || l.any (fun x => x.rsvd || x.ids.any (fun i => decide (2 ^ e.rowBits ≤ i))) then endReq false k .malformed s
    else
      let s := modReq k (fun r => { r with st := .running, bags := l }) s
      finishGather k (gatherOut (jobIdx h.job) idx r.epoch (some k) (h.cls == 0) e l (fun _ x => x) none s)

/-- EMBED_GATHER (R172, Table 12.8). -/
def execEmbedGather (t : Nat) (h : Hdr) (b : EmbedBody) (bags : Option (List Bag)) (s : State) : Host.Outcome State Fault Refusal :=
  .next (command2 t h (fun s =>
    let a : Ask := { op := .embed, prompt := 0, maxOut := 0, window := 0, seq := none }
    let r : Request := { op := .embed, st := .detected, h := h, detect := s.time, emb := b
                         resultAddr := b.resultAddr, resultBytes := b.resultBytes, bagsLeft := b.bagCount }
    match firstOf [shapeCheck s h (infoReq 0) (embedBad b), requestNames s h, epochCheck s h,
        failIf (tableIdx s h.modelCtx b.tableId).isNone .malformed, gateCheck s h .embed, roomCheck s h a r] with
    | some st => declineReq h .embed st s
    | none =>
      let k := s.srv.nextReq
      let s := takeReqState k (acceptReq h a r s)
      match tableIdx s h.modelCtx b.tableId with
      | some (idx, e) => startGather k h b idx e bags s
      | none => s) s)

/-! ## The prefix lookup (R261) -/

/-- Nodes of the request's tree that match its prompt, from depth 0 downward, at most fuel of them. -/
def matchPrefix (s : State) (pn mc epoch : Nat) (toks : List Nat) : Nat → Nat → Option Node → List Node
  | 0, _, _ => []
  | fuel + 1, b, parent =>
    match findNode s pn mc epoch parent (blockToks toks b) with
    | some n => n :: matchPrefix s pn mc epoch toks fuel (b + 1) (some n)
    | none => []

/-- The frames of tree page pg for group g, which chip slot serves. -/
def treeFrames (s : State) (pn pg g slot : Nat) : List Nat :=
  if slot = s.id.slot then (match findObj s pn (.pfxPage pg g) with | some o => o.frames | none => [])
  else match s.srv.farPages.find? (fun x => x.page == pg && x.group == g) with | some x => x.frames | none => []

/-- A whole page p of a hit is mapped read-only into entry i. -/
def sharePage (pn i : Nat) (geo : KvGeom) (pg p : Nat) (s : State) : State :=
  forEach (fun g s =>
    let fs := treeFrames s pn pg g.1 g.2
    notePage i { group := g.1, page := p, shared := some pg, frames := fs } (mapPage geo i g.1 p g.2 fs false s)) (groupChips geo) s

/-- A partly matched last page p is copied into new frames of entry i, in the groups that this chip serves; the other head chips
copy theirs. -/
def copyPage (pn i : Nat) (geo : KvGeom) (lc : Bool) (pg p : Nat) (s : State) : Option State :=
  (freshPages pn i geo lc [p] s).map (fun s =>
    forEach (fun g s =>
      let dst := match findObj s pn (.kv (ownLoc s) i g.1 p) with | some o => o.frames | none => []
      if g.2 = s.id.slot then forEach (fun e s => copyFrame e.1 e.2 s) ((treeFrames s pn pg g.1 g.2).zip dst) s else s)
      (groupChips geo) s)

/-- The hit of m matched nodes is taken: whole pages are mapped, a partial last one is copied, and the positions
count as committed. None while the copy's frames are short: the hit then ends before that page. -/
def takeHit (k i : Nat) (r : Request) (geo : KvGeom) (ns : List Node) (s : State) : State :=
  let pn := ctxPart s r.h.ctx
  let tp := pagePos geo
  let bp := tp / 16
  let full := ns.length / bp
  let pageAt := fun p => (ns.drop (min (ns.length - 1) (p * bp + bp - 1))).head?.map (·.page)
  let s := forEach (fun p s => match pageAt p with | some pg => sharePage pn i geo pg p s | none => s) (List.range full) s
  let (m, s) := if ns.length % bp = 0 then (ns.length, s)
    else match (pageAt full).bind (fun pg => copyPage pn i geo (isLc r) pg full s) with
      | some s => (ns.length, s)
      | none => (full * bp, s)
  if m = 0 then s
  else modReq k (setFlag 5) (modSeq i (fun q => { q with committed := 16 * m, valid := 16 * m }) s)

/-- The prompt of request k joins its sequence and enters its token buffer, and a prefix hit is taken where the sequence is new and
its job has KV. -/
def takePrompt (k : Nat) (r : Request) (toks : List Nat) (s : State) : State :=
  let i := r.seq
  let n := (seqOf s i).committed
  let s := storeTokens i n (modSeq i (fun q => { q with tokens := q.tokens.take q.committed ++ toks }) s)
  match (jobAt s (jobIdx r.h.job)).kv with
  | some geo =>
    if !r.opensSeq then s
    else
      let ns := matchPrefix s (ctxPart s r.h.ctx) r.h.modelCtx r.epoch toks ((toks.length - 1) / 16) 0 none
      if ns.isEmpty then s else takeHit k i r geo ns s
  | none => s

/-- PREFIX_LOOKUP_DONE (R257, R261): the prompt is in and its prefix matched; pages and token-buffer frames are
allocated, and prefill steps queued. A prompt read that fails ends the request (R278). -/
def execPrefixLookupDone (t req : Nat) (prompt : Option (List Nat)) (plan : List QStep) (s : State) : Host.Outcome State Fault Refusal :=
  let s := tick t s
  .next (match mget s.srv.reqs req with
    | none => s
    | some r =>
      if r.st ≠ .accepted || !r.hasSeq then s
      else match prompt with
        | none => endReq false req .malformed s
        | some toks =>
          if toks.length ≠ r.gen.promptLen then s
          else
            let s := takePrompt req r toks s
            let s := modReq req (fun r => { r with st := if r.op = .score then .running else .prefill }) s
            queuePlan plan (ensureOrWait req (seqOf s r.seq).tokens.length s))

/-! ## Ends from outside -/

/-- Request k is served by the step that runs on some plate. -/
def stepServes (s : State) (k : Nat) : Bool :=
  s.fab.plates.any (fun p => match p.2.running with | some r => r.work.any (fun w => w.1 == k) | none => false)

/-- The live request of context c with ID id on which REQ_CANCEL acts: the earliest accepted (R298). -/
def cancelTarget (s : State) (c id : Nat) : Option (Nat × Request) :=
  let l := s.srv.reqs.filter (fun e => e.2.h.ctx == c && e.2.h.reqId == id)
  match l.find? (fun e => e.2.st != .detected) with
  | some e => some e
  | none => l.head?

/-- REQ_CANCEL (R258): dispatching stops at the next step boundary, and the request completes CANCELLED. A request
still waiting for its decision is declined with that status. -/
def execReqCancel (t : Nat) (h : Hdr) (target : Nat) (s : State) : Host.Outcome State Fault Refusal :=
  .next (command t h (fun s =>
    match shapeCheck s h { rings := [0, 2] } false (cancel := true) with
    | some st => final (cmdOf h) st 0 0 s
    | none =>
      match cancelTarget s h.ctx target with
      | none => final (cmdOf h) .complete 0 0 s
      | some (k, r) =>
        let s := if r.st = .detected then declineWaiting k .cancelled s
          else if stepServes s k then modReq k (fun r => { r with cancelled := true }) s
          else endReq false k .cancelled s
        final (cmdOf h) .complete 1 0 s) s)

/-- SEQ_END (R253). -/
def execSeqEnd (t : Nat) (h : Hdr) (seq : Nat) (s : State) : Host.Outcome State Fault Refusal :=
  .next (command t h (fun s =>
    let i := seq % 65536
    let q := seqOf s i
    match firstOf [shapeCheck s h infoCmd false, failIf (q.st == 0 || q.st == 3 || q.gen != seq / 65536) .malformed,
        failIf (q.ctx != h.ctx) .accessDenied, failIf (q.st == 1 || q.migrating) .busy] with
    | some st => final (cmdOf h) st 0 0 s
    | none => final (cmdOf h) .complete 0 0 (endSeq i s)) s)

/-- At the deadline less 20 µs: what an unfinished LC request completes with (R325, R273). -/
def atDeadline (k : Nat) (r : Request) (s : State) : State :=
  if r.st = .detected then declineWaiting k .declined s
  else if r.st = .finishing && !(r.held ++ r.spill.toList).isEmpty then
    endReq false k .truncatedHostStall (modReq k (fun r => { r with held := [], spill := none }) (freeDrawer k s))
  else match r.recorded with
    | some st => endReq false k st s
    | none =>
      if r.op = .generate then endReq false k .complete (modReq k (setFlag 6) s)
      else endReq false k .resourceExhausted { s with fab := { s.fab with admitFault := sat 16 (s.fab.admitFault + 1) } }

/-- DEADLINE_MARGIN_TIMER (R325): it acts once device time has reached the deadline less 20 µs. -/
def execDeadlineMarginTimer (t req : Nat) (s : State) : Host.Outcome State Fault Refusal :=
  let s := tick t s
  .next (match mget s.srv.reqs req with
    | none => s
    | some r => if isLc r && decide (r.h.deadline ≤ s.time + 20000) then atDeadline req r s else s)

end Sys2Proof.Machine
end

