-- ==== Sys2Proof/Machine/Tiles.lean ====
section
/-! DEFINITION. Tile movers (R186 to R190): tile descriptors and their checks, the pieces of a tile, drawers, and
the signal or completion at the end of a tile. -/
namespace Sys2Proof.Machine

/-! ## The shape of a tile (R188, Table 4.7) -/

/-- Elements of a line of an SP format; none for a format of PM lines. -/
def perLine (fmt : Nat) : Option Nat :=
  if fmt = 1 then some 128 else if fmt = 2 then some 64 else if fmt = 3 ∨ fmt = 4 then some 32 else none

/-- Units of a row: lines of an SP format, elements of the others. -/
def rowUnits (d : TileDesc) : Nat := match perLine d.format with | some n => d.cols / n | none => d.cols

/-- Bytes of a unit at an end: an SP line is 32 bytes in device memory and 36, a line image, elsewhere. -/
def unitBytes (fmt kind : Nat) : Nat :=
  match perLine fmt with
  | some _ => if kind = 1 ∨ kind = 2 then 32 else 36
  | none => elemBits fmt / 8

/-- Bytes of a unit as it travels. -/
def wireUnit (fmt : Nat) : Nat := unitBytes fmt 3

/-- Bytes of the tile as it travels. -/
def tileBytes (d : TileDesc) : Nat := d.rows * rowUnits d * wireUnit d.format

/-- Bytes of the piece that begins at byte off: at most 4 KiB of whole units (R189). -/
def pieceBytes (d : TileDesc) (off : Nat) : Nat := min (tileBytes d - off) (4096 / wireUnit d.format * wireUnit d.format)

/-- Address of unit u at an end. -/
def unitAddr (d : TileDesc) (kind addr stride u : Nat) : Nat :=
  addr + u / rowUnits d * stride + u % rowUnits d * unitBytes d.format kind

/-- An end of a device-memory SP tile, or of a PM tile, is misaligned in address or stride. -/
def endMisaligned (d : TileDesc) (kind addr stride : Nat) : Bool :=
  match perLine d.format with
  | some _ => (kind == 1 || kind == 2) && (addr % 32 != 0 || stride % 32 != 0)
  | none => addr % (elemBits d.format / 8) != 0 || stride % (elemBits d.format / 8) != 0

/-- An end's kind is not one that the issuer may use, or its address has bits that must be zero (Table 8.6, R24). -/
def endBad (host : Bool) (kind addr : Nat) : Bool :=
  (if host then !(kind == 1 || kind == 3) else !decide (kind ≤ 2))
    || (kind == 0 && (decide (2 ^ 32 ≤ addr) || !islValid (addr / 2 ^ 21)))
    || (kind == 1 && decide (2 ^ 57 ≤ addr)) || (kind == 2 && decide (2 ^ 48 ≤ addr))

/-- The descriptor is malformed in itself (R188), R101's pairing apart. -/
def tileBad (host : Bool) (d : TileDesc) : Bool :=
  d.rsvd || decide (1 < d.op) || decide (10 < d.format) || decide (7 < d.channel)
    || d.rows == 0 || decide (256 < d.rows) || d.cols == 0 || decide (256 < d.cols)
    || (match perLine d.format with | some n => d.cols % n != 0 | none => false)
    || (if d.op = 1 then d.srcAddr != 0 else endBad host d.srcKind d.srcAddr || endMisaligned d d.srcKind d.srcAddr d.srcStride)
    || endBad host d.dstKind d.dstAddr || endMisaligned d d.dstKind d.dstAddr d.dstStride
    || (decide (1 < d.rows) && decide (d.dstStride < rowUnits d * unitBytes d.format d.dstKind))
    || (host && d.sigValid) || decide (63 < d.sigCounter) || (d.sigValid && (d.sigInc == 0 || !islValid d.sigIsland))

/-! ## Where an end lies -/

/-- Where a unit of an end lies. far: another chip's memory by its GFA, with the line mode of the mapping where there is one.
recompute: a KV page that was dropped and is still to be recomputed (R220). stray: KV at or beyond VALID_LEN, which no step reads
(R229). -/
inductive Place where
  | bank (plate idx a : Nat) | own (a lmode : Nat) | far (gfa : Nat) (lmode : Option Nat) | host (a : Nat)
  | recompute | stray (a : Nat) | none | hole
  deriving DecidableEq, Repr

/-- The plate whose banks an ISLAND end names: the posting plate, or another of its job's on that island. -/
def endPlate (s : State) (plate job isl : Nat) : Option (Nat × Nat) :=
  let at' := fun p => ((plateOf s p).isls.findIdx? (fun i => i.isl == isl)).map (fun k => (p, k))
  match at' plate with
  | some r => if (plateOf s plate).job = job then some r else none
  | none => (((jobPlates s job).map (·.1)).filterMap at').head?

/-- The context whose tables translate a DVA for job i: its own, or for the KV half of the space the context kv whose sequences the
step serves (R205, R212). -/
def dvaCtx (s : State) (i kv a : Nat) : Nat := if 2 ^ 56 ≤ a then kv else (jobAt s i).ctx

/-- The context of the sequences that a plate's running step serves: that of the home chip for a step of another home's sequences
(R212, R226). -/
def stepKv (s : State) (p : Nat) : Nat :=
  match ((plateOf s p).running).bind (·.work.head?) with
  | some (_, .head home q _ _ _) => (match pubOf s home q with | some x => headCtx home x.ctx | none => (jobAt s (plateOf s p).job).ctx)
  | _ => (jobAt s (plateOf s p).job).ctx

/-- The place of address a of an end, for a tile of job i posted by a plate. -/
def placeOf (s : State) (i kv plate kind a : Nat) (write : Bool) : Place :=
  if kind = 0 then (match endPlate s plate i (a / 2 ^ 21) with
    | some (p, k) => .bank p k (a % 2 ^ 21)
    | none => .none)
  else if kind = 1 then (match translate s (dvaCtx s i kv a) a write with
    | .addr bpa m => if bpa / 2 ^ 41 = s.id.slot then .own (bpa % 2 ^ 41) m else .far (boardLoc s (bpa / 2 ^ 41) * 2 ^ 41 + bpa % 2 ^ 41) (some m)
    | .recompute => .recompute
    | .fault => .none)
  else if kind = 2 then
    if a / 2 ^ 41 = ownLoc s then (if backed s a then .own (a % 2 ^ 41) (lmodeOf s (a % 2 ^ 41 / 2097152)) else .hole)
    else .far a none
  else .host a

/-- The entry, group, layer, page and position of a KV address (R205, R206, R208). -/
structure KvAt where
  seq : Nat
  group : Nat
  layer : Nat
  page : Nat
  pos : Nat
  deriving DecidableEq, Repr

/-- Where in the KV layout a DVA of the KV half lies: block slot j of a page begins at j × 16 × TB and holds 16 key rows, then 16
value rows (R208). -/
def kvAt (g : KvGeom) (a : Nat) : KvAt :=
  let o := a % 2 ^ 56
  let span := 2 ^ 31 / layersP g
  let tb := g.kBytes + g.vBytes
  let b := o % 65536 % (16 * tb)
  let row := if b < 16 * g.kBytes then b / g.kBytes else (b - 16 * g.kBytes) / g.vBytes
  let page := o % span / 65536
  { seq := o / 2 ^ 34, group := o % 2 ^ 34 / 2 ^ 31, layer := o % 2 ^ 31 / span, page := page
    pos := page * pagePos g + o % 65536 / (16 * tb) * 16 + row }

/-- VALID_LEN and the pages of a sequence by its translation context and entry: of this chip, or published to it. -/
def kvSeq (s : State) (kv i : Nat) : Nat × List KvPage :=
  if kv < 1024 then let q := mgetD s.srv.seqs i {}; (q.valid, q.pages)
  else match s.srv.pubs.find? (fun p => headCtx p.src p.ctx == kv && p.seq % 65536 == i) with
    | some p => (p.valid, p.pages)
    | none => (0, [])

/-- The place that address a of a source is read from: a KV page still dropped awaits its recompute, and nothing at or beyond
VALID_LEN is read (R222, R229). -/
def readPlace (s : State) (i kv plate kind a : Nat) : Place :=
  match (jobAt s i).kv with
  | some g =>
    if kind = 1 ∧ 2 ^ 56 ≤ a then
      let k := kvAt g a
      let q := kvSeq s kv k.seq
      if q.2.any (fun x => x.group == k.group && x.page == k.page && x.dropped) then .recompute
      else if q.1 ≤ k.pos then .stray a
      else placeOf s i kv plate kind a false
    else placeOf s i kv plate kind a false
  | none => placeOf s i kv plate kind a false

/-- Job i may reach a chunk of this chip (Table 8.4): weights only of the model context it serves, and none from the admin
partition (R21). -/
def jobReach (s : State) (i chunk : Nat) (write : Bool) : Bool :=
  match chunkKind s chunk with
  | 3 => chunkOwner s chunk == (partOf s (jobAt s i).part).tag
  | 2 => !write && (jobAt s i).mc == chunkOwner s chunk && (jobAt s i).part != 0xFE
  | _ => false

/-- What a check of an end finds. -/
inductive EndFault where
  | malformed | denied | lost (loc : Nat)
  deriving DecidableEq, Repr

/-- R101 and R185 for one address of an end. The KV half of the DVA space is closed to host commands (R205). What another chip's
memory holds, that chip checks, packet by packet (log entry 173). -/
def placeFault (s : State) (i kv : Nat) (d : TileDesc) (kind : Nat) (write : Bool) (plate a : Nat) : Option EndFault :=
  if kind = 1 ∧ 2 ^ 56 ≤ a ∧ plate = 64 then some .denied
  else match placeOf s i kv plate kind a write with
    | .none => some (if kind = 0 then .malformed else .denied)
    | .bank p k x => if x + unitBytes d.format 0 ≤ bankBytes s p k then none else some .malformed
    | .own x m =>
      if m ≠ modeOfFormat d.format then some .malformed
      else if jobReach s i (x / 2097152) write then none else some .denied
    | .far g m =>
      if m.getD (modeOfFormat d.format) ≠ modeOfFormat d.format then some .malformed
      else if routed s (g / 2 ^ 41) then none else some (.lost (g / 2 ^ 41))
    | _ => none

/-- The first fault of an end, over the first and the last unit of every row: a mover checks every chunk that the
tile touches before it moves the first byte. -/
def endFault (s : State) (i kv plate : Nat) (d : TileDesc) (kind addr stride : Nat) (write : Bool) : Option EndFault :=
  let us := (List.range d.rows).flatMap (fun r => [r * rowUnits d, r * rowUnits d + (rowUnits d - 1)])
  (us.filterMap (fun u => placeFault s i kv d kind write plate (unitAddr d kind addr stride u))).head?

/-- The first fault of the tile: its source, then its destination. -/
def tileFault (s : State) (i kv plate : Nat) (d : TileDesc) : Option EndFault :=
  match (if d.op = 1 then none else endFault s i kv plate d d.srcKind d.srcAddr d.srcStride false) with
  | some f => some f
  | none => endFault s i kv plate d d.dstKind d.dstAddr d.dstStride true

/-! ## Channels and their tiles -/

/-- The physical channel of a job's local channel. -/
def jobChan (s : State) (i loc : Nat) : Option Nat :=
  (List.range 60).find? (fun n => let c := chanOf s n; (c.cls == 1 || c.cls == 2) && c.job == i && c.localIdx == loc)

/-- The tile that channel n moves: the first that nothing holds back. -/
def headTile (s : State) (n : Nat) : Option TileJob := (chanOf s n).queue.find? (fun j => !j.poisoned)

/-- The first element that p picks is changed by f, or leaves the list where f gives none. -/
def editFirst {α : Type} (p : α → Bool) (f : α → Option α) : List α → List α
  | [] => []
  | x :: l => if p x then (match f x with | some y => y :: l | none => l) else x :: editFirst p f l

/-- The first tile of channel n that nothing holds back is changed, or leaves the queue. -/
def editTile (n : Nat) (f : TileJob → Option TileJob) (s : State) : State :=
  modChan n (fun c => { c with queue := editFirst (fun j => !j.poisoned) f c.queue }) s

/-- A channel gives a drawer back, waiting consumers are served in turn, and then its own next piece. -/
def releaseDrawer (n : Nat) (s : State) : State := pumpChan n (serveWaiter (modChan n (fun c => { c with held := c.held - 1 }) s))

/-- Requests of channel n to other chips that are not yet answered. -/
def chanRemotes (s : State) (n : Nat) : List Remote := s.xn.remotes.filter (fun r => r.pkt.flow == n)

/-- They are given up. -/
def dropRemotes (n : Nat) (s : State) : State :=
  { s with xn := { s.xn with remotes := s.xn.remotes.filter (fun r => r.pkt.flow != n) } }

/-- Channel n's tile leaves it without moving further: a host command completes with a status; f follows for a posted one, whose
counter is not signalled. -/
def failTile (n : Nat) (st : Status) (f : TileJob → State → State) (s : State) : State :=
  match headTile s n with
  | none => s
  | some j =>
    let s := releaseDrawer n (editTile n (fun _ => none) (dropRemotes n s))
    if j.posted then f j s else final j.cmd st 0 0 s

/-- A tile's target is lost (R26, R349): the tile signals no counter, a host command completes with FABRIC_TARGET_LOST, and the job
freezes. -/
def loseTile (n cause loc : Nat) (s : State) : State :=
  match headTile s n with
  | none => s
  | some j => lostTarget j.job cause loc (failTile n .fabricTargetLost (fun _ s => s) s)

/-- A plate error of a tile's own: denied, malformed, or a translation fault (Table 19.6). -/
def denyTile (n : Nat) (st : Status) (s : State) : State := failTile n st (fun j s => plateFatal j.job j.plate s) s

/-- The last piece is acknowledged: a posted tile signals its counter, a host command completes (R189). -/
def endTile (j : TileJob) (s : State) : State :=
  if !j.posted then final j.cmd .complete 0 0 s
  else if !j.d.sigValid then s
  else match endPlate s j.plate j.job j.d.sigIsland with
    | some (p, k) => signalCtr p k j.d.sigCounter j.d.sigInc s
    | none => s

/-! ## The piece at hand -/

/-- The units of the piece that the tile has reached, with their numbers in it. -/
def pieceUnits (j : TileJob) : List (Nat × Nat) :=
  let u := wireUnit j.d.format
  (List.range (pieceBytes j.d j.doneBytes / u)).map (fun k => (k, j.doneBytes / u + k))

/-- Address of unit u at the source, and at the destination. -/
def srcAt (j : TileJob) (u : Nat) : Nat := unitAddr j.d j.d.srcKind j.d.srcAddr j.d.srcStride u
/-- See srcAt. -/
def dstAt (j : TileJob) (u : Nat) : Nat := unitAddr j.d j.d.dstKind j.d.dstAddr j.d.dstStride u

/-- Places of the piece's units at the source; a ZERO reads none. -/
def srcPlaces (s : State) (j : TileJob) : List Place :=
  if j.d.op = 1 then [] else (pieceUnits j).map (fun e => readPlace s j.job j.kv j.plate j.d.srcKind (srcAt j e.2))

/-- Places of the piece's units at the destination. -/
def dstPlaces (s : State) (j : TileJob) : List Place :=
  (pieceUnits j).map (fun e => placeOf s j.job j.kv j.plate j.d.dstKind (dstAt j e.2) true)

/-- Bytes of a unit in device memory. -/
def devUnit (fmt : Nat) : Nat := unitBytes fmt 1

/-- Adjoining spans (address, bytes) joined. -/
def joinSpans : List (Nat × Nat) → List (Nat × Nat)
  | [] => []
  | (a, n) :: r =>
    match joinSpans r with
    | (b, m) :: q => if b ≤ a + n ∧ a ≤ b then (a, max (a + n) (b + m) - a) :: q else (a, n) :: (b, m) :: q
    | [] => [(a, n)]

/-- A span widened to whole 4-byte words, as R346 asks of a packet. -/
def widen (e : Nat × Nat) : Nat × Nat := (e.1 / 4 * 4, (e.1 + e.2 + 3) / 4 * 4 - e.1 / 4 * 4)

/-- Spans of other chips' memory among places. -/
def farSpans (fmt : Nat) (l : List Place) : List (Nat × Nat) :=
  joinSpans (l.filterMap (fun p => match p with | .far g _ => some (widen (g, devUnit fmt)) | _ => none))

/-- What the piece reads of other chips: its far source, and the words that a far destination covers in part, whose other bytes go
back unchanged (log entry 172). -/
def farReads (s : State) (j : TileJob) : List (Nat × Nat) :=
  let cut := joinSpans ((dstPlaces s j).filterMap (fun p => match p with | .far g _ => some (g, devUnit j.d.format) | _ => none))
  farSpans j.d.format (srcPlaces s j)
    ++ cut.flatMap (fun e => (if e.1 % 4 = 0 then [] else [(e.1 / 4 * 4, 4)])
        ++ (if (e.1 + e.2) % 4 = 0 then [] else [((e.1 + e.2) / 4 * 4, 4)]))

/-- A span cut into READs of a power of two of bytes, 4,096 at most: (address, log2). -/
def cutReads : Nat → Nat → Nat → List (Nat × Nat)
  | 0, _, _ => []
  | fuel + 1, a, n => if n < 4 then [] else let k := min 12 (Nat.log2 n); (a, k) :: cutReads fuel (a + 2 ^ k) (n - 2 ^ k)

/-- A request of channel n's tile to another chip (R186, R340): VC1 on an LC channel, VC4 on any other. -/
def chanPkt (s : State) (n : Nat) (j : TileJob) (addr : Nat) : Pkt :=
  let lc := (chanOf s n).cls == 1
  { vc := if lc then 1 else 4, lc := j.lc, flow := n, epoch := j.epoch, addr := addr
    mode := some (modeOfFormat j.d.format) }

/-- Every chip that the piece reaches. -/
def farChips (s : State) (j : TileJob) : List Nat :=
  dedup' ((srcPlaces s j ++ dstPlaces s j).filterMap (fun p => match p with | .far g _ => some (g / 2 ^ 41) | _ => none))

/-- The piece of channel n begins, once it has its drawer: the READs of its far source go out (R189). A chip that no route leads
to any more is a lost target (R26). -/
def beginPiece (n : Nat) (s : State) : State :=
  match headTile s n with
  | none => s
  | some j =>
    if (chanOf s n).held = 0 || j.begun then s
    else match (farChips s j).find? (fun c => !routed s c) with
      | some c => loseTile n 1 c s
      | none =>
        let rs := (farReads s j).flatMap (fun e => cutReads (e.2 / 4) e.1 e.2)
        let s := editTile n (fun j => some { j with begun := true, sent := false, cells := [], codes := [] }) s
        forEach (fun r s => issueRemote j.job { ty := 0, pkt := { chanPkt s n j r.1 with size := r.2 }, sentAt := 0, job := 0, plate := j.plate, layer := j.d.layerId, operator := j.d.operatorId } s) rs s

/-- Pieces begin on every channel that holds a drawer. -/
def beginAll (s : State) : State := forEach (fun n s => beginPiece n s) (s.mem.chans.map (·.1)) s

/-- A tile joins its channel's queue; reads of host memory go out row by row. -/
def queueTile (n : Nat) (j : TileJob) (s : State) : State :=
  let s := modChan n (fun c => { c with queue := c.queue ++ [j] }) s
  let s := if j.d.op = 0 ∧ j.d.srcKind = 3 then
      forEach (fun r s => readHost j.ctx (j.d.srcAddr + r * j.d.srcStride) (rowUnits j.d * wireUnit j.d.format)
        (jobAt s j.job).id j.d.layerId j.d.operatorId s) (List.range j.d.rows) s
    else s
  beginPiece n (pumpChan n s)

/-- TILE_MOVE (R187): a host command's tile is checked and queued on the job's channel. -/
def execTileMove (t : Nat) (h : Hdr) (d : TileDesc) (s : State) : Host.Outcome State Fault Refusal :=
  .next (command t h (fun s =>
    let i := jobIdx h.job
    let kv := (jobAt s i).ctx
    match firstOf [shapeCheck s h { rings := [2], job := true } (tileBad true d), jobCheck s h,
        failIf (jobChan s i d.channel).isNone .malformed,
        (match tileFault s i kv 64 d with
          | some .malformed => some .malformed | some .denied => some .accessDenied
          | some (.lost _) => some .fabricTargetLost | none => none)] with
    | some st => final (cmdOf h) st 0 0 s
    | none =>
      match jobChan s i d.channel with
      | none => s
      | some n =>
        let d : TileDesc := { d with layerId := h.layerTag, operatorId := h.opTag }
        queueTile n { d := d, job := i, posted := false, lc := (chanOf s n).cls == 1, deadline := h.deadline, cmd := cmdOf h,
                      ctx := h.ctx, kv := kv, plate := 64 } s) s)

/-- A step posts a tile (R77): a malformed one, a denied access and a translation fault are plate errors that tear
the job down; a lost target freezes it. -/
def postTile (p : Nat) (deadline : Nat) (d : TileDesc) (s : State) : State :=
  let i := (plateOf s p).job
  match jobChan s i d.channel with
  | none => plateFatal i p s
  | some n =>
    if tileBad false d then plateFatal i p s
    else match tileFault s i (stepKv s p) p d with
      | some (.lost loc) => lostTarget i 1 loc s
      | some _ => plateFatal i p s
      | none => queueTile n { d := d, job := i, posted := true, lc := stepLc s p, deadline := deadline, cmd := {},
                              ctx := (jobAt s i).ctx, kv := stepKv s p, plate := p, epoch := stepEpoch s p } s

/-! ## Moving a piece -/

/-- The scale bytes of a line as they travel (R102). -/
def scaleMask (fmt : Nat) : Nat := if fmt = 3 ∨ fmt = 4 then 256 else 65536

/-- A line image with its check bits zero (R102); a PM unit as it is. -/
def cleanImage (fmt : Nat) (l : List Byte) : List Byte :=
  match perLine fmt with
  | some _ => l.take 32 ++ leBytes (leNat ((l.drop 32).take 2) % scaleMask fmt) 4
  | none => l

/-- One unit read at its place: its bytes as they travel, or none for poison. Units from the host come with the event, units of other
chips from what these have answered. -/
def readUnit (s : State) (j : TileJob) (pl : Place) (outside : List Byte) : Option (List Byte) :=
  let fmt := j.d.format
  match pl with
  | .bank p k a => if bankPoisoned s p k a (wireUnit fmt) then none else some (cleanImage fmt (readBank s p k a (wireUnit fmt)))
  | .own a _ =>
    if linePoisoned s (a / 32) then none
    else match perLine fmt with
      | some _ => some (readDram s a 32 ++ leBytes (mgetD s.mem.scales (a / 32) 0 % scaleMask fmt) 4)
      | none => some (readDram s a (wireUnit fmt))
  | .far g _ => (match perLine fmt with
      | some _ => some (creads j.cells g 32 ++ leBytes (mgetD j.codes (g / 32) 0 % scaleMask fmt) 4)
      | none => some (creads j.cells g (wireUnit fmt)))
  | .stray a => some (cleanImage fmt ((List.range (wireUnit fmt)).map (fun k => Config.strayByte (a + k))))
  | .host _ => some (cleanImage fmt outside)
  | _ => none

/-- One unit written at its place. Bytes for the host and other chips are sent by writeFar. -/
def writeUnit (fmt : Nat) (layer op : Nat) (pl : Place) (data : List Byte) (s : State) : State :=
  match pl with
  | .bank p k a => landBank p k a layer op data s
  | .own a _ =>
    match perLine fmt with
    | some _ =>
      let sc := leNat ((data.drop 32).take 2) % scaleMask fmt
      writeDram a (data.take 32) { s with mem := { s.mem with
        scales := if sc = 0 then mdel s.mem.scales (a / 32) else mset s.mem.scales (a / 32) sc } }
    | none => writeDram a data s
  | _ => s

/-- A bit of the zero bitmap is set or cleared (R149); its key is the scratchpad key of the sub-tile's first element. -/
def putZero (key : Option Nat) (z : Bool) (s : State) : State :=
  match key with
  | none => s
  | some k =>
    let l := s.fab.zeroBits.filter (· != k)
    { s with fab := { s.fab with zeroBits := if z then k :: l else l } }

/-- The 32 positions of a T2 line's block are zero codes (ZERO 00 or ZERO_ALT 10). -/
def t2Zero (s : State) (p k a : Nat) : Bool := (unpackElems 2 (readBank s p k a 8) 32).all (fun c => c == 0 || c == 2)

/-- Stipple's zero bits for T2 lines that land in a plate's banks (R149): a row of a tile is an output column, and a sub-tile is 32
rows (fewer at the edge) of one block of 32 positions. Its bit is set as its last row lands. -/
def noteZeros (s0 : State) (j : TileJob) (u : Nat) (s : State) : State :=
  let w := rowUnits j.d
  let r := u / w
  if j.d.format = 1 ∧ (r % 32 = 31 ∨ r + 1 = j.d.rows) then
    let place := fun u => placeOf s0 j.job j.kv j.plate j.d.dstKind (dstAt j u) true
    forEach (fun b s =>
      let z := (List.range (r % 32 + 1)).all (fun x => match place (u - x * w) with
        | .bank p k a => t2Zero s p k (a + 8 * b)
        | _ => false)
      match place (u - r % 32 * w) with
      | .bank p k a => putZero (bankKey s p k (a + 8 * b)) z s
      | _ => s) (List.range 4) s
  else s

/-- Runs of bytes at adjoining addresses. -/
def joinRuns : List (Nat × List Byte) → List (Nat × List Byte)
  | [] => []
  | (a, l) :: r =>
    match joinRuns r with
    | (b, m) :: q => if a + l.length = b then (a, l ++ m) :: q else (a, l) :: (b, m) :: q
    | [] => [(a, l)]

/-- A PM run for another chip, widened to whole words by the bytes that the chip has answered. -/
def widenRun (cells : List Host.Cell) (e : Nat × List Byte) : Nat × List Byte :=
  let w := widen (e.1, e.2.length)
  (w.1, creads cells w.1 (e.1 - w.1) ++ e.2 ++ creads cells (e.1 + e.2.length) (w.1 + w.2 - (e.1 + e.2.length)))

/-- Bytes of a piece for the host go out, one write for each run. -/
def writeOut (j : TileJob) (l : List (Place × List Byte)) (s : State) : State :=
  forEach (fun e s => writeHost j.ctx e.1 e.2 (jobAt s j.job).id j.d.layerId j.d.operatorId s)
    (joinRuns (l.filterMap (fun e => match e.1 with | .host a => some (a, e.2) | _ => none))) s

/-- Bytes of a piece for other chips go out, one WRITE for each run of at most 4,096 bytes; lines of an SP format carry their
scale codes. -/
def writeFar (n : Nat) (j : TileJob) (l : List (Place × List Byte)) (s : State) : State :=
  let sp := (perLine j.d.format).isSome
  let runs := joinRuns (l.filterMap (fun e => match e.1 with | .far g _ => some (g, e.2.take (devUnit j.d.format)) | _ => none))
  let code := fun a => match l.find? (fun e => match e.1 with | .far g _ => g == a | _ => false) with
    | some e => leNat ((e.2.drop 32).take 2) % scaleMask j.d.format
    | none => 0
  forEach (fun e s =>
    let e := if sp then e else widenRun j.cells e
    issueRemote j.job { ty := 1, sentAt := 0, job := 0, plate := j.plate, layer := j.d.layerId, operator := j.d.operatorId, pkt := { chanPkt s n j e.1 with
      length := e.2.length, payload := e.2, codes := if sp then (List.range (e.2.length / 32)).map (fun k => code (e.1 + 32 * k)) else [] } } s) runs s

/-- The first address in this chip's memory among places. -/
def firstOwn (l : List Place) : Option Nat := (l.filterMap (fun p => match p with | .own a _ => some a | _ => none)).head?

/-- A job's LC requests keep the status of a frame that awaits restoration (R325). -/
def recordMemory (i : Nat) (s : State) : State :=
  { s with srv := { s.srv with reqs := mmap s.srv.reqs (fun _ r =>
      if jobIdx r.h.job = i ∧ r.st ≠ .detected then { r with recorded := some .memoryUncorrectable } else r) } }

/-- The tile is held back: its drawer is free for others until the data that it waits for is there again (R100, R222). -/
def holdTile (n : Nat) (s : State) : State :=
  match headTile s n with
  | none => s
  | some j => (if j.posted then recordMemory j.job else id)
      (releaseDrawer n (editTile n (fun j => some { j with poisoned := true, begun := false }) s))

/-- A piece met poison in its source: a host command completes with MEMORY_UNCORRECTABLE (R455), a posted tile is held back until
the frame is restored (R100). -/
def poisonTile (n : Nat) (s : State) : State :=
  match headTile s n with
  | none => s
  | some j => if j.posted then holdTile n s else failTile n .memoryUncorrectable (fun _ s => s) s

/-- Some line of this chip's memory is poisoned and would be written only in part (R99). -/
def partPoisoned (s : State) (fmt : Nat) (l : List Place) : Bool :=
  (joinSpans (l.filterMap (fun p => match p with | .own a _ => some (a, devUnit fmt) | _ => none))).any (fun e =>
    (linesOf e.1 e.2).any (fun x => linePoisoned s x && !(decide (e.1 ≤ 32 * x) && decide (32 * x + 32 ≤ e.1 + e.2))))

/-- Access bits are set for the pages of a DVA end that the piece uses (Table 9.2); a head chip sets one in the home chip's table
by a remote OR where its cached copy shows it clear (R212). -/
def touchPages (n : Nat) (j : TileJob) (kind : Nat) (at' : Nat → Nat) (s : State) : State :=
  if kind ≠ 1 then s
  else forEach (fun v s =>
    let a := v * 65536
    let c := dvaCtx s j.job j.kv a
    let k := leafKey s c a
    let w := entryAt s c k.1 k.2
    if bit w 59 then s
    else
      let s := touchLeaf c a s
      if c < 1024 then s
      else
        let home := c / 1024 - 1
        let e := entryAt s c 2 (a / 2 ^ 21)
        issueRemote j.job { ty := 2, sentAt := 0, job := 0, plate := j.plate, layer := j.d.layerId, operator := j.d.operatorId, pkt := { chanPkt s n j
          (home * 2 ^ 41 + bits e 40 8 * 256 + v % 32 * 8) with op := 6, size := 3, payload := leBytes (2 ^ 59) 8, mode := none } } s)
    (dedup' ((pieceUnits j).map (fun e => at' e.2 / 65536))) s

/-- The piece of channel n is acknowledged at its destination: the drawer is released, and after the last piece the tile is over
(R189). -/
def finishPiece (n : Nat) (s : State) : State :=
  match headTile s n with
  | none => s
  | some j =>
    let done := j.doneBytes + pieceBytes j.d j.doneBytes
    let last := decide (tileBytes j.d ≤ done)
    let s := releaseDrawer n (editTile n (fun j => if last then none else some { j with doneBytes := done, begun := false, sent := false }) s)
    beginAll (if last then endTile j s else s)

/-- The units of the piece as they are read; none where one is poison. -/
def gather (s : State) (j : TileJob) (data : List Byte) : Option (List (List Byte)) :=
  let u := wireUnit j.d.format
  if j.d.op = 1 then some ((pieceUnits j).map (fun _ => List.replicate u (0 : Byte)))
  else (((pieceUnits j).map (·.1)).zip (srcPlaces s j)).mapM (fun e => readUnit s j e.2 ((data.drop (e.1 * u)).take u))

/-- The piece of channel n, whose bytes have been read, is written: on this chip, to the host, to other chips. -/
def landPiece (n : Nat) (j : TileJob) (got : List (List Byte)) (s : State) : State :=
  let d := j.d
  let dst := dstPlaces s j
  let l := dst.zip got
  let id := (jobAt s j.job).id
  let bytes := pieceBytes d j.doneBytes
  let s0 := s
  let s := match firstOwn (srcPlaces s j) with
    | some a => countDram false a bytes j.ctx id d.layerId d.operatorId s
    | none => s
  let s := match firstOwn dst with
    | some a => countDram true a bytes j.ctx id d.layerId d.operatorId s
    | none => s
  let s := forEach (fun e s => writeUnit d.format d.layerId d.operatorId e.1 e.2 s) l s
  let s := forEach (fun e s => noteZeros s0 j e.2 s) (pieceUnits j) s
  let s := writeFar n j l (writeOut j l (editTile n (fun j => some { j with sent := true }) s))
  let s := touchPages n j (if d.op = 1 then 0 else d.srcKind) (srcAt j) s
  let s := touchPages n j d.dstKind (dstAt j) s
  if (chanRemotes s n).isEmpty then finishPiece n s else s

/-- The piece of channel n moves on, with data from the host and its mark of poison: once every READ is answered it is written. -/
def movePiece (n : Nat) (data : List Byte) (poisoned : Bool) (s : State) : State :=
  match headTile s n with
  | none => s
  | some j =>
    let src := srcPlaces s j
    let host := src.any (fun p => match p with | .host _ => true | _ => false)
    if !j.begun || j.sent || !(chanRemotes s n).isEmpty || (host && data.length != pieceBytes j.d j.doneBytes) then s
    else
      let all := src ++ dstPlaces s j
      if all.contains .none then denyTile n .accessDenied s
      else if all.contains .recompute || partPoisoned s j.d.format (dstPlaces s j) then holdTile n s
      else if poisoned then poisonTile n s
      else match gather s j data with
        | none => poisonTile n s
        | some got => landPiece n j got s

/-- TILE_PIECE_COMPLETE (R189): the next piece of the channel's first tile is written; what goes to other chips is complete once
they have acknowledged it. data is what came from the host, poisoned its mark. -/
def execTilePieceComplete (t channel : Nat) (data : List Byte) (poisoned : Bool) (s : State) : Host.Outcome State Fault Refusal :=
  .next (beginAll (movePiece channel data poisoned (beginPiece channel (tick t s))))

/-- CABINET_DRAWER_GRANT (R192): the first waiting consumer takes a free drawer. -/
def execCabinetDrawerGrant (t : Nat) (s : State) : Host.Outcome State Fault Refusal := .next (beginAll (serveWaiter (tick t s)))

/-! ## Answers of other chips (R347) -/

/-- What a READ of channel n has brought. -/
def storeCells (n : Nat) (r : Remote) (p : RespPkt) (s : State) : State :=
  editTile n (fun j => some { j with
    cells := cwrites j.cells r.pkt.addr p.payload
    codes := (p.codes.zip (List.range p.codes.length)).foldl (fun m e => mset m (r.pkt.addr / 32 + e.2) e.1) j.codes }) s

/-- What a tile mover does with a status (Table 14.9). A request answered RESTORING is issued again later. -/
def settleTile (n : Nat) (p : RespPkt) (rs : List Remote) (s : State) : State :=
  match p.status with
  | .ok =>
    let s := forEach (fun r s => if r.ty = 0 then storeCells n r p s else s) rs s
    (match headTile s n with
    | some j => if j.sent && (chanRemotes s n).isEmpty then finishPiece n s else s
    | none => s)
  | .restoring => { s with xn := { s.xn with remotes := s.xn.remotes ++ rs.map (fun r => { r with restoring := true }) } }
  | .denied => denyTile n .accessDenied s
  | .malformed => denyTile n .malformed s
  | .poison => denyTile n .memoryUncorrectable s
  | .gone => loseTile n 2 p.src s

/-- A response to the requests of a tile-mover channel. -/
def respTile (p : RespPkt) (s : State) : State :=
  let rs := s.xn.remotes.filter (covers p)
  if rs.isEmpty then lateResp s
  else
    let s := { s with xn := { s.xn with remotes := s.xn.remotes.filter (fun r => !covers p r) } }
    let s := forEach (fun r s =>
      let j := jobAt s (jobIdx r.job)
      activity j.ctx .xnRx j.id r.layer r.operator (32 + p.payload.length) s) rs s
    beginAll (releaseFlow p.src p.flow (settleTile p.flow p rs s))

/-! ## Tiles held back -/

/-- A tile of job j reads or writes frame f of this chip. -/
def touches (s : State) (j : TileJob) (f : Nat) : Bool :=
  (List.range (j.d.rows * rowUnits j.d)).any (fun u =>
    let own := fun p => match p with | Place.own a _ => a / 65536 == f | _ => false
    own (placeOf s j.job j.kv j.plate j.d.srcKind (srcAt j u) false) || own (placeOf s j.job j.kv j.plate j.d.dstKind (dstAt j u) true))

/-- What a held tile waits for is not there yet: a source line is poisoned, or a page awaits its recompute. -/
def tileBlocked (s : State) (j : TileJob) : Bool :=
  let wait := fun p => match p with | Place.own a _ => linePoisoned s (a / 32) | .recompute => true | _ => false
  (List.range (j.d.rows * rowUnits j.d)).any (fun u =>
    (j.d.op != 1 && wait (readPlace s j.job j.kv j.plate j.d.srcKind (srcAt j u)))
      || placeOf s j.job j.kv j.plate j.d.dstKind (dstAt j u) true == .recompute)

/-- Held tiles whose data is there again are issued again from their first piece (R100). -/
def reissueTiles (s : State) : State :=
  beginAll (forEach (fun n s =>
    let c := chanOf s n
    if c.queue.any (fun j => j.poisoned) then
      pumpChan n (modChan n (fun c => { c with queue := c.queue.map (fun j =>
        if j.poisoned && !tileBlocked s j then { j with poisoned := false, doneBytes := 0, begun := false, sent := false } else j) }) s)
    else s) (s.mem.chans.map (·.1)) s)

/-- Tiles that poison in frame f holds. -/
def stuckTiles (s : State) (f : Nat) : List TileJob :=
  (s.mem.chans.flatMap (fun c => c.2.queue)).filter (fun j => j.poisoned && touches s j f)

end Sys2Proof.Machine
end

