-- ==== Sys2Proof/Machine/Memory.lean ====
section
/-! DEFINITION. Errors and care of device memory (R99 to R101, R195, R196, R200, R201, R211, R221, R248, R455,
R458), KV drops, publications of sequences, and the fatal error (R457). -/
namespace Sys2Proof.Machine

/-! ## The fatal error (R457) -/

/-- A fatal error of a unit: the Coffer freezes, FAULT_N is asserted, fetching and dispatch stop, and unless the
host interface is the failing unit every accepted request completes with RESET_ABORTED. -/
def fatal (unit : Nat) (hostFailed : Bool) (s : State) : State :=
  if s.hi.fatalPending then s else
  let s := freezeCoffer 2 (coffer 0 4 .fatal unit 0 0 0 s)
  let s := { s with
    pw := { s.pw with faultN := true }
    hi := { s.hi with fatalPending := true } }
  let s := if hostFailed then s else forEach (fun k s => declineWaiting k .resetAborted s) (reqKeys s (fun r => r.st == .detected)) s
  let s := endReqs hostFailed (fun _ => true) .resetAborted s
  emit (.aer true) s

/-! ## Poison (R100, R455) -/

/-- Counts of a subchannel (Table 18.18) changed by f. -/
def countSub (n : Nat) (f : Nat × Nat × Nat → Nat × Nat × Nat) (s : State) : State :=
  { s with mem := { s.mem with subErr := mupd s.mem.subErr n (0, 0, 0) f } }

/-- The requests of sequence i end with MEMORY_UNCORRECTABLE, and the sequence with them (R455). -/
def poisonSeq (i : Nat) (s : State) : State :=
  endSeq i (endReqs false (fun r => r.hasSeq && r.seq == i) .memoryUncorrectable s)

/-- Requests on sequence i keep the status of a delaying event (R325). -/
def recordSeq (i : Nat) (s : State) : State :=
  { s with srv := { s.srv with reqs := mmap s.srv.reqs (fun _ r =>
      if r.hasSeq && r.seq == i && r.st != .detected then { r with recorded := some .memoryUncorrectable } else r) } }

/-- A prefix page is lost: its nodes and their descendants go, and the sequences that map it have their mapping dropped; the page
is invalidated wherever it may be cached (R455). -/
def losePrefixPage (pn pg : Nat) (s : State) : State :=
  let hit := s.srv.seqs.filter (fun q => q.2.pages.any (fun k => k.shared == some pg))
  let far := s.srv.farPages.filter (fun x => x.page == pg)
  let own := (partOf s pn).objs.flatMap (fun o => match o.kind with | .pfxPage p _ => if p == pg then o.frames else [] | _ => [])
  let chips := dedup' (hit.flatMap (fun e => match (jobAt s e.2.job).kv with | some g => otherHeads s g | none => []) ++ far.map (·.chip))
  let s := forEach (fun e s =>
      let ks := e.2.pages.filter (fun k => k.shared == some pg)
      let s := match (jobAt s e.2.job).kv with
        | some geo => forEach (fun k s => dropLeaves e.2.ctx (pageVpns geo e.1 k.group k.page) s) ks s
        | none => s
      recordSeq e.1 (modSeq e.1 (fun q => { q with pages := q.pages.map (fun k =>
        if k.shared == some pg then { k with shared := none, dropped := true, frames := [] } else k) }) s)) hit s
  invalidate (ownFrames s own ++ far.flatMap (fun x => x.frames.map (bpf x.chip))) chips (removeNodes pn (fun n => n.page == pg) s)

/-- A poisoned frame is handed to the object that holds it (R100, R455). A frame of any other use stays poisoned until its owner
frees it. -/
def poisonObj (pn : Nat) (o : PoolObj) (s : State) : State :=
  match o.kind with
  | .kv home i g p => if home = ownLoc s then dropKv i g p (recordSeq i s) else if o.wanted then s else askDrop pn o s
  | .pfxPage pg _ => losePrefixPage pn pg s
  | .tokenBuffer i => poisonSeq i s
  | .pageTable i => poisonSeq i s
  | .blockState home i => if home = ownLoc s then poisonSeq i s else s
  | .level2 c b =>
    forEach (fun i s => poisonSeq i s) ((s.srv.seqs.filter (fun q => q.2.st != 0 && q.2.ctx == c && q.1 / 32 == b)).map (·.1)) s
  | _ => s

/-! ## Shards and their restoration (R236, R240, R248) -/

/-- Bytes of a shard as it travels (R236). -/
def shardBytes (r : ShardRec) : Nat := if r.lmode = 0 then r.size else r.size / 8 * 9

/-- The bytes of a shard with the check bits of its line images zero (R236). -/
def cleanShard (r : ShardRec) (data : List Byte) : List Byte :=
  if r.lmode = 0 then data
  else (List.range (data.length / 36)).flatMap (fun i =>
    let im := (data.drop (36 * i)).take 36
    im.take 32 ++ leBytes (leNat ((im.drop 32).take (if r.lmode = 3 then 1 else 2))) 4)

/-- A fetch attempt brought the shard: its length and its digest agree (R236, R240). -/
def shardGood (r : ShardRec) (data : List Byte) : Bool :=
  data.length == shardBytes r && Config.digest (cleanShard r data) == r.digest

/-- The record of another chip that copies shard idx, of those that ok admits (R232, R240), with that chip's LOCATION. -/
def peerCopy (s : State) (m : Manifest) (idx : Nat) (ok : Nat → Bool) : Option (Nat × ShardRec) :=
  let loc := fun (r : ShardRec) => (m.chips.getD r.chip {}).loc
  let own := m.shards.getD idx {}
  ((m.shards.zip (List.range m.shards.length)).find? (fun e =>
    e.2 != idx && e.1.content == own.content && loc e.1 != ownLoc s && routed s (loc e.1) && ok e.2)).map (fun e => (loc e.1, e.1))

/-- READs of n bytes of another chip's memory go out on a firmware channel, on VC4 and with firmware's flow label (R186, R240, Table
14.7). What they bring arrives as one event (log entry 176). -/
def fetchPeer (mc epoch mode loc a n : Nat) (s : State) : State :=
  let key := loc * 65536 + 0x400
  forEach (fun k s =>
    let q := mgetD s.xn.nextFseq key 0
    sendXn loc 4 false (.read { src := ownLoc s, dst := loc, vc := 4, flow := 0x400, fseq := q, modelCtx := mc, epoch := epoch
                                addr := loc * 2 ^ 41 + a + 4096 * k, size := 12, mode := some mode })
      { s with xn := { s.xn with nextFseq := mset s.xn.nextFseq key ((q + 1) % 65536) } }) (List.range (n / 4096)) s

/-- A copy on another chip is fetched, the area of the install that brought it there beginning where that chip put it. -/
def fetchCopy (mc tag epoch : Nat) (e : Nat × ShardRec) (s : State) : State :=
  fetchPeer mc epoch e.2.lmode e.1 (Config.areaBase mc tag e.1 % 2 ^ 20 * 2097152 + e.2.offset) e.2.size s

/-- A shard is fetched from its directory address in host memory. -/
def fetchDir (addr : Nat) (r : ShardRec) (s : State) : State := readHost adminCtx addr (shardBytes r) 0 0 0 s

/-- The model context and epoch whose area holds a chunk. -/
def areaOf (s : State) (chunk : Nat) : Option (Nat × Epoch) :=
  (s.mdl.ctxs.filterMap (fun m => (m.2.epochs.find? (fun e => decide (e.base ≤ chunk ∧ chunk < e.base + e.chunks))).map (fun e => (m.1, e)))).head?

/-- Offset in the epoch's area of what the bundle holds for chip-local address a: for slot 1 of a two-slot table, what it holds for
slot 0 (R175). -/
def bundleAt (s : State) (e : Epoch) (a : Nat) : Nat :=
  let slots := e.m.embs.flatMap (fun t => if twoSlot t then
      (t.shards.filter (fun w => w % 2 ^ 48 / 2 ^ 41 == ownLoc s)).map (fun w => (w % 2 ^ 41, 2 ^ (t.rowBits - t.shardBits) * rowStride t))
    else [])
  let x := a - e.base * 2097152
  match slots.find? (fun r => decide (r.1 + r.2 ≤ a ∧ a < r.1 + 2 * r.2)) with
  | some r => x - r.2
  | none => x

/-- The shard record of this chip that holds the bundle's data for chip-local address a, if one does. -/
def shardAt (s : State) (e : Epoch) (a : Nat) : Option Nat :=
  let x := bundleAt s e a
  ((e.m.shards.zip (List.range e.m.shards.length)).find? (fun r =>
    (e.m.chips.getD r.1.chip {}).loc == ownLoc s && decide (r.1.offset ≤ x ∧ x < r.1.offset + r.1.size))).map (·.2)

/-- The model context, epoch and shard of a weight frame. -/
def shardOfFrame (s : State) (f : Nat) : Option (Nat × Epoch × Nat) :=
  match areaOf s (f / 32) with
  | none => none
  | some (mc, e) => (shardAt s e (f * 65536)).map (fun i => (mc, e, i))

/-- The frame lies in an embedding table's rows (Table 7.6). -/
def embFrame (s : State) (e : Epoch) (f : Nat) : Bool :=
  e.m.embs.any (fun t => t.shards.any (fun w =>
    let a := w % 2 ^ 48
    let n := 2 ^ (t.rowBits - t.shardBits) * rowStride t * (if twoSlot t then 2 else 1)
    a / 2 ^ 41 == ownLoc s && decide (a % 2 ^ 41 < (f + 1) * 65536) && decide (f * 65536 < a % 2 ^ 41 + n)))

/-- No attempt to restore frame f is left (R248): it stays poisoned, the PF hears of it, requests whose tiles wait on it complete
with MEMORY_UNCORRECTABLE, and the epoch serves no new request. -/
def failRestore (f mc idx : Nat) (e : Epoch) (s : State) : State :=
  let s := { s with mem := { s.mem with restoring := s.mem.restoring.filter (· != f) } }
  let s := coffer 4 3 .restoreFailed 0 0 mc (f * 65536) s
  let s := modEpoch mc e.num (fun e => { e with failed := true }) s
  let s := eventRec adminCtx 3 (mc + 65536 * e.num) idx s
  let js := dedup' ((stuckTiles s f).map (·.job))
  retryStalled (forEach (fun i s => endReqs false (fun r => jobIdx r.h.job == i) .memoryUncorrectable s) js s)

/-- An attempt to restore frame f begins (R248): from a verified peer copy, which every other chip of a released epoch holds, else
from the directory address where KEEP_SOURCE keeps one; with neither, the restore fails. -/
def tryRestore (f mc idx : Nat) (e : Epoch) (s : State) : State :=
  match peerCopy s e.m idx (fun _ => true) with
  | some c => fetchCopy mc e.tag e.num c s
  | none =>
    let addr := e.dir.getD idx 0
    if e.keepSource && addr != 0 then fetchDir addr (e.m.shards.getD idx {}) s else failRestore f mc idx e s

/-- A poisoned weight frame begins to be restored. A frame that no shard holds has nothing to fetch. -/
def beginRestore (f : Nat) (s : State) : State :=
  match shardOfFrame s f with
  | none => s
  | some (mc, e, i) =>
    tryRestore f mc i e { s with mem := { s.mem with restoring := s.mem.restoring ++ [f], restoreTries := mdel s.mem.restoreTries f } }

/-- Firmware poisons a frame and hands it to its owner; an error in the firmware region is fatal (Table 19.5). -/
def poisonFrame (f : Nat) (s : State) : State :=
  if s.mem.poisonFrames.contains f then s
  else
    let s := { s with mem := { s.mem with poisonFrames := s.mem.poisonFrames ++ [f] } }
    match chunkKind s (f / 32) with
    | 1 => fatal (subchannelOf s (f * 65536)) false s
    | 2 => beginRestore f s
    | 3 =>
      forEach (fun e s => poisonObj e.1 e.2 s)
        (s.mem.parts.flatMap (fun p => (p.2.objs.filter (fun o => o.frames.contains f)).map (fun o => (p.1, o)))) s
    | _ => s

/-! ## Line checks (R97 to R100) -/

/-- A line as one read of the array delivers it: 32 data bytes and the metadata word (Table 4.6). -/
structure LineRead where
  data : List Byte
  code : Nat
  deriving DecidableEq, Repr

/-- What one read of a line delivers where the bits set in err are wrong: the line as the controller wrote it, its check field
computed from its data and scale bytes (R99). Bits 255:0 of err stand for the data bytes, bits 287:256 for the metadata word. -/
def readLine (s : State) (line err : Nat) : LineRead :=
  let data := readDram s (line * 32) 32
  { data := leBytes (leNat data ^^^ err % 2 ^ 256) 32
    code := metaWord (lmodeOf s (line / 65536)) data (mgetD s.mem.scales line 0) ^^^ err / 2 ^ 256 % 2 ^ 32 }

/-- The check of a line in its region's mode: none where it fails, else whether the controller corrected something (R97, R98). -/
def checkLine (mode : Nat) (r : LineRead) : Option Bool :=
  if mode = 0 then
    let ws := (List.range 4).map (fun k => secded (leNat ((r.data.drop (8 * k)).take 8)) (bits r.code (8 * k + 7) (8 * k)))
    if ws.contains .uncorrectable then none else some (ws.any (fun w => w != .clean))
  else if metaWord mode r.data r.code = r.code then some false else none

/-- A read that passed is delivered; a correction by the code is counted. -/
def deliverLine (n : Nat) (corrected : Bool) (s : State) : State :=
  if corrected then countSub n (fun c => (c.1 + 1, c.2.1, c.2.2)) s else s

/-- LINE_CHECK_FAIL (R100): a line is read and checked, read again up to twice while it fails, and poisoned when both fail. err and
again say which bits the first read and the two others deliver wrong. -/
def execLineCheckFail (t line err : Nat) (again : Nat × Nat) (s : State) : Host.Outcome State Fault Refusal :=
  let s := tick t s
  let n := subchannelOf s (line * 32)
  let check := fun e => checkLine (lmodeOf s (line / 65536)) (readLine s line e)
  let reread := countSub n (fun c => (c.1, c.2.1 + 1, c.2.2)) s
  .next (if memChunks s * 65536 ≤ line then s
    else match check err, check again.1, check again.2 with
      | some c, _, _ => deliverLine n c s
      | none, some c, _ => deliverLine n c reread
      | none, none, some c => deliverLine n c reread
      | none, none, none =>
        let s := countSub n (fun c => (c.1, c.2.1, c.2.2 + 1)) s
        let s := { s with mem := { s.mem with poisonLines := if s.mem.poisonLines.contains line then s.mem.poisonLines
                                                             else s.mem.poisonLines ++ [line] } }
        poisonFrame (line / 2048) (coffer 4 3 .linePoisoned (n / 24) 0 0 (line * 32) s))

/-- The frame holds no poison any more. -/
def clearPoison (f : Nat) (s : State) : State :=
  { s with mem := { s.mem with
      poisonFrames := s.mem.poisonFrames.filter (· != f)
      poisonLines := s.mem.poisonLines.filter (fun l => l / 2048 != f)
      restoring := s.mem.restoring.filter (· != f) } }

/-- Frame f's lines are written from the shard that holds its data, as it travelled (R248): a line whose data another shard holds
stays as it is. -/
def rewriteFrame (f : Nat) (e : Epoch) (r : ShardRec) (data : List Byte) (s : State) : State :=
  forEach (fun i s =>
    let line := f * 2048 + i
    let x := bundleAt s e (line * 32)
    if x < r.offset ∨ r.offset + r.size ≤ x then s
    else if r.lmode = 0 then writeDram (line * 32) ((data.drop (x - r.offset)).take 32) s
    else
      let im := (data.drop ((x - r.offset) / 32 * 36)).take 36
      let sc := leNat ((im.drop 32).take (if r.lmode = 3 then 1 else 2))
      writeDram (line * 32) (im.take 32) { s with mem := { s.mem with
        scales := if sc = 0 then mdel s.mem.scales line else mset s.mem.scales line sc } })
    (List.range 2048) s

/-- Partial writes that waited for lines of frame f are carried out, oldest first (R99). -/
def applyHeld (f : Nat) (s : State) : State :=
  let now := s.mem.heldWrites.filter (fun w => w.1 / 65536 == f)
  forEach (fun (w : Host.Cell) s => writeDram w.1 [w.2] s) now
    { s with mem := { s.mem with heldWrites := s.mem.heldWrites.filter (fun w => w.1 / 65536 != f) } }

/-- Frame f has been written and read back (R455). One that passes serves again, and what waited on it is issued again; one that
fails is retired for good. -/
def testFrame (f : Nat) (ok : Bool) (s : State) : State :=
  if ok then retryStalled (reissueTiles (applyHeld f (clearPoison f s)))
  else coffer 4 3 .frameRetired (subchannelOf s (f * 65536) / 24) 0 0 (f * 65536)
    { s with mem := { s.mem with
        retired := if s.mem.retired.contains f then s.mem.retired else s.mem.retired ++ [f]
        restoring := s.mem.restoring.filter (· != f) } }

/-- An attempt to restore a weight frame has brought data, or none where the read failed. The whole shard is checked; after four
failed attempts the restore fails (R240, R248). Rows of embedding tables revert, and the PF hears of it (Table 7.7). -/
def endRestore (f mc idx : Nat) (e : Epoch) (ok : Bool) (data : Option (List Byte)) (s : State) : State :=
  let r := e.m.shards.getD idx {}
  match data.filter (shardGood r) with
  | some d =>
    let s := testFrame f ok (rewriteFrame f e r d s)
    if ok && embFrame s e f then eventRec adminCtx 2 mc (f * 65536) s else s
  | none =>
    let n := mgetD s.mem.restoreTries f 0 + 1
    let s := { s with mem := { s.mem with restoreTries := mset s.mem.restoreTries f n } }
    if 4 ≤ n then failRestore f mc idx e s else tryRestore f mc idx e s

/-- A frame of a partition that an object still holds is not given back for a test. -/
def frameHeld (s : State) (f : Nat) : Bool := s.mem.parts.any (fun p => p.2.objs.any (fun o => o.frames.contains f))

/-- FRAME_RESTORED (R248, R455): a poisoned frame is rewritten and tested. data is the shard as it was fetched for a weight frame. -/
def execFrameRestored (t frame : Nat) (testOk : Bool) (data : Option (List Byte)) (s : State) : Host.Outcome State Fault Refusal :=
  let s := tick t s
  .next (if !s.mem.poisonFrames.contains frame then s
    else if s.mem.restoring.contains frame then
      (match shardOfFrame s frame with
      | some (mc, e, i) => endRestore frame mc i e testOk data s
      | none => testFrame frame testOk s)
    else if chunkKind s (frame / 32) = 2 ∧ (shardOfFrame s frame).isSome ∨ frameHeld s frame then s
    else testFrame frame testOk s)

/-- RESTORE_FAILED (R248): no attempt to restore the frame is left. -/
def execRestoreFailed (t frame : Nat) (s : State) : Host.Outcome State Fault Refusal :=
  let s := tick t s
  .next (if !s.mem.restoring.contains frame then s
    else match shardOfFrame s frame with
      | some (mc, e, i) => failRestore frame mc i e s
      | none => s)

/-! ## Retraining (R200, R458) -/

/-- RETRAIN_SLICE (R200): one subchannel is offline for up to 2 µs of its controller's background time; a slice that does not
fit in what this window's reservation leaves is deferred (R27, R28). -/
def execRetrainSlice (t subch : Nat) (last ok : Bool) (s : State) : Host.Outcome State Fault Refusal :=
  let s := tick t s
  .next (if 384 ≤ subch || !bgFits s (bgCtl (subch / 24)) 2000 then s
    else
      let n := mgetD s.mem.slices subch 0 + 1
      let s := bgBill (bgCtl (subch / 24)) 2000 s
      let s := { s with mem := { s.mem with slices := if last || decide (64 ≤ n) then mdel s.mem.slices subch else mset s.mem.slices subch n } }
      if ok || (mget s.mem.offline subch).isSome then s
      else coffer 4 3 .subchannelOffline (subch / 24) 0 0 0 { s with mem := { s.mem with offline := mset s.mem.offline subch 0 } })

/-- SUBCHANNEL_RETRY: after three failed retries the subchannel is lost, which is fatal. -/
def execSubchannelRetry (t subch : Nat) (ok : Bool) (s : State) : Host.Outcome State Fault Refusal :=
  let s := tick t s
  .next (match mget s.mem.offline subch with
    | none => s
    | some n =>
      if ok then { s with mem := { s.mem with offline := mdel s.mem.offline subch } }
      else
        let s := { s with mem := { s.mem with offline := mset s.mem.offline subch (n + 1) } }
        if n + 1 < 3 then s else fatal (subch / 24) false (coffer 4 4 .subchannelLost (subch / 24) 0 0 0 s))

/-! ## Ages and eviction (R195, R196) -/

/-- Access bits of the mappings are cleared. -/
def clearAccess (s : State) : State :=
  { s with mem := { s.mem with leaves := s.mem.leaves.map (fun l => if l.level = 1 then l else
      { l with word := l.word &&& (0xF7FFFFFFFFFFFFFF : Dword) }) } }

/-- Frames of this chip whose mapping has its access bit set: the 32 of a 2 MiB entry together. -/
def accessedFrames (s : State) : List Nat :=
  s.mem.leaves.flatMap (fun l =>
    let w := l.word.toNat
    let f := bits w 40 8 * 256 / 65536
    if bit w 59 && bit w 63 && bits w 43 41 == s.id.slot then
      (if l.level = 3 then [f] else if l.level = 2 ∧ bits w 62 61 = 1 then (List.range 32).map (fun i => f + i) else [])
    else [])

/-- A head chip asks again for leave to drop a poisoned page that its home chip has refused (R221, log entry 174). -/
def askPoisoned (s : State) : State :=
  forEach (fun e s => askDrop e.1 e.2 s) (s.mem.parts.flatMap (fun p => (p.2.objs.filter (fun o =>
    !o.wanted && o.frames.any (fun f => s.mem.poisonFrames.contains f) && (match o.kind with
      | .kv home _ _ _ => home != ownLoc s | _ => false))).map (fun o => (p.1, o)))) s

/-- AGE_SAMPLE (R195): a set access bit resets a frame's age, a clear one raises it. accessed names frames of this chip that other
chips' tables map with the bit set. -/
def execAgeSample (t : Nat) (accessed : List Nat) (s : State) : Host.Outcome State Fault Refusal :=
  let s := tick t s
  .next (if s.time < s.mem.lastAge + s.mem.agePeriod * 100000 then s
    else
      let hot := accessedFrames s ++ accessed
      let frames := s.mem.parts.flatMap (fun p => p.2.objs.flatMap (·.frames))
      let aged := forEach (fun f m => if hot.contains f then mdel m f else mset m f (min 255 (mgetD s.mem.ages f 0 + 1))) frames s.mem.ages
      askPoisoned (clearAccess { s with mem := { s.mem with lastAge := s.time, ages := aged } }))

/-- EVICTION (R196): once FREE frames fall below LOW, CACHED objects go by age until HIGH is reached. -/
def execEviction (t part : Nat) (s : State) : Host.Outcome State Fault Refusal :=
  let s := tick t s
  let p := partOf s part
  .next (if p.low ≤ freeFrames s p then s else evictUntil part p.high p.objs.length s)

/-! ## Invalidations and KV drops (R211, R212, R221) -/

/-- INVALIDATION_ACK (R211): a DATU acknowledges; the last one frees the frame, and an ending sequence's entry once it waits for
none (R230). -/
def execInvalidationAck (t datu frame : Nat) (s : State) : Host.Outcome State Fault Refusal :=
  let s := tick t s
  let all := s.mem.invals.map (fun v => if v.frame == frame then { v with waiting := v.waiting.filter (· != datu) } else v)
  let left := all.filter (fun v => !v.waiting.isEmpty)
  let done := dedup' ((all.filterMap (fun v => if v.waiting.isEmpty then v.seq else none)).filter (fun i => !left.any (fun v => v.seq == some i)))
  .next (forEach (fun i s => modSeq i (fun q => if q.st = 3 then { q with st := 0 } else q) s) done
    { s with mem := { s.mem with invals := left } })

/-- The home chip grants no drop for a sequence with an accepted LC request or with a step dispatched (R220, R221). -/
def dropGranted (s : State) (i : Nat) : Bool :=
  !s.srv.reqs.any (fun r => r.2.hasSeq && r.2.seq == i && r.2.st != .detected && isLc r.2) && !seqRunning s i

/-- DROP_GRANT_REQUEST (R221): the home chip answers a head chip, and marks the page of a granted drop. A page beyond VALID_LEN is
freed at once (Table 9.3). -/
def execDropGrantRequest (t src seq group page : Nat) (s : State) : Host.Outcome State Fault Refusal :=
  let s := tick t s
  let i := seq % 65536
  let q := seqOf s i
  let ok := q.st != 0 && q.gen == seq / 65536 && (pageOf q group page).isSome && dropGranted s i
  .next (sendXn src 0 false (.dropGrant seq group page ok) (if ok then dropKv i group page s else s))

/-- This head chip no longer waits for leave to drop a page; a page refused is passed over until it is chosen again. -/
def unwant (home i g p : Nat) (s : State) : State :=
  { s with mem := { s.mem with parts := mmap s.mem.parts (fun _ q => { q with objs := q.objs.map (fun o =>
      if o.kind == .kv home i g p then { o with wanted := false } else o) }) } }

/-- KV_DROP (R221): home chip src's answer, about a group and a page of it, reaches this head chip; on a grant the page goes. -/
def execKvDrop (t src seq : Nat) (page : Nat × Nat) (granted : Bool) (s : State) : Host.Outcome State Fault Refusal :=
  let s := tick t s
  let i := seq % 65536
  .next (if src = ownLoc s then (if granted && dropGranted s i then dropKv i page.1 page.2 s else s)
    else if granted then loseForeign src i page.1 page.2 s
    else unwant src i page.1 page.2 s)

/-- What this head chip holds of sequence i of a home chip is given up: cached translations, frames (R212). -/
def freeForeign (home i : Nat) (s : State) : State :=
  match pubOf s home i with
  | none => s
  | some x =>
    let s := forEach (fun (k : KvPage) s => loseForeign home i k.group k.page s) x.pages s
    let s := forEach (fun pn s => freeObjs pn (fun k => k == .blockState home i) s) (s.mem.parts.map (·.1)) s
    { s with srv := { s.srv with pubs := s.srv.pubs.filter (fun p => !(p.src == home && p.seq % 65536 == i)) } }

/-- SEQUENCE_PUBLICATION (R212): a home chip publishes a sequence's page-table root and epoch to this head chip. The entry's earlier
sequence, if the chip holds one, is over. -/
def execSequencePublication (t src ctx seq root modelCtx epoch : Nat) (s : State) : Host.Outcome State Fault Refusal :=
  let s := tick t s
  let i := seq % 65536
  .next (match (pubOf s src i).filter (fun p => p.seq == seq) with
    | some _ => modPub src i (fun p => { p with ctx := ctx, root := root, mc := modelCtx, epoch := epoch }) s
    | none =>
      let s := freeForeign src i s
      { s with srv := { s.srv with pubs := s.srv.pubs ++ [{ src := src, ctx := ctx, seq := seq, root := root, mc := modelCtx, epoch := epoch }] } })

end Sys2Proof.Machine
end

