-- ==== Sys2Proof/Machine/Resize.lean ====
section
/-! DEFINITION. The division of device memory (R18, R194 to R198, R202 to R204, R487): creating partitions, moving
their borders, migrating frames, and evicting model contexts from the model space. -/
namespace Sys2Proof.Machine

/-! ## Runs of chunks -/

/-- The part of a run that lies in [b, e). -/
def clipRun (b e : Nat) (r : Nat × Nat) : List (Nat × Nat) :=
  let lo := max b r.1
  let hi := min e (r.1 + r.2)
  if lo < hi then [(lo, hi - lo)] else []

/-- The chunks of a that lie in none of b. -/
def subRuns (a b : List (Nat × Nat)) : List (Nat × Nat) :=
  a.flatMap (fun r => gapsFrom r.1 (r.1 + r.2) (sortRuns (b.flatMap (clipRun r.1 (r.1 + r.2)))))

/-- Chunks as runs of one. -/
def oneRuns (l : List Nat) : List (Nat × Nat) := l.map (fun c => (c, 1))

/-! ## Watermarks (R196) -/

/-- LOW and HIGH of a partition of size chunks: the defaults where both are zero; none where the pair is not allowed. -/
def watermarks (size low high : Nat) : Option (Nat × Nat) :=
  if low = 0 ∧ high = 0 then some (size / 2, size)
  else if 1 ≤ low ∧ low ≤ high ∧ high ≤ 32 * size then some (low, high) else none

/-! ## PART_CREATE (R487) -/

/-- A SECURE_ERASE of the partition is in ERASE or VERIFY (R327). -/
def erasing (s : State) (part : Nat) : Bool :=
  s.ops.live.any (fun o => match o.2.kind with | .secureErase p => p == part && (o.2.code == 0x71 || o.2.code == 0x72) | _ => false)

/-- INVASIVE debug is in force, or the lifecycle state permits no tenant work (R413, Table 17.5). -/
def invasive (s : State) : Bool := s.sec.level == 3 || !(s.sec.life == .deployed || s.sec.life == .unlocked)

/-- PART_CREATE: the rows of Table 8.13 after the checks of R295 and R413. DEDUCED (log entry 153): a partition number past 63 is
out of range and completes with MALFORMED_DESCRIPTOR, so that no 65th partition is asked for. -/
def execPartCreate (t : Nat) (h : Hdr) (part partTag size low high : Nat) (s : State) : Host.Outcome State Fault Refusal :=
  .next (command t h (fun s =>
    match firstOf [shapeCheck s h infoAdmin (decide (63 < part)), failIf (invasive s) .accessDenied,
        failIf (erasing s part) .busy, failIf (partOf s part).present .malformed,
        failIf (partTag == 0 || (watermarks size low high).isNone) .malformed,
        failIf (decide (runLen (freeRuns s) < size)) .resourceExhausted] with
    | some st => final (cmdOf h) st 0 0 s
    | none =>
      let runs := takeRuns size (freeRuns s)
      let w := (watermarks size low high).getD (0, 0)
      let s := zeroChunks 0 runs s
      final (cmdOf h) .complete 0 0 { s with mem := { s.mem with
        parts := mset s.mem.parts part { present := true, tag := partTag, chunks := runs, low := w.1, high := w.2, holdsData := true } } }) s)

/-! ## Eviction of model contexts (R198, R247, R263) -/

/-- Chunks of epoch areas and of the area of an install in progress. -/
def areaRuns (s : State) : List (Nat × Nat) :=
  sortRuns (s.mdl.ctxs.flatMap (fun m => m.2.epochs.map (fun e => (e.base, e.chunks))
    ++ (installArea m.2.install).toList))

/-- Sorted runs with adjoining ones joined. -/
def joinChunks : List (Nat × Nat) → List (Nat × Nat)
  | [] => []
  | (b, n) :: l =>
    match joinChunks l with
    | (c, m) :: q => if b + n = c then (b, n + m) :: q else (b, n) :: (c, m) :: q
    | [] => [(b, n)]

/-- Model-space chunks that hold no epoch area, as the longest runs. -/
def freeModel (s : State) : List (Nat × Nat) := subRuns (joinChunks (sortRuns s.mem.model)) (areaRuns s)

/-- An epoch is freed: its area and every prefix-tree node of it go (R247, R263). -/
def freeEpochArea (mc n : Nat) (s : State) : State :=
  let s := forEach (fun p s => removeNodes p (fun x => x.mc == mc && x.epoch == n) s) (dedup' (s.srv.tree.map (·.part))) s
  let s := match epochOf s mc n with | some e => zeroChunks 0 [(e.base, e.chunks)] s | none => s
  modModel mc (fun m => { m with epochs := m.epochs.filter (fun e => e.num != n) }) s

/-- A model context that may be evicted: no job of it is resident here, no request of it is in flight, and no install of
it is in progress (R198, R239). -/
def mayEvict (s : State) (mc : Nat) : Bool :=
  !((modelOf s mc).elim false (·.install.active)) && !s.srv.jobs.any (fun j => j.2.present && j.2.mc == mc) && !s.srv.reqs.any (fun r => r.2.h.modelCtx == mc)

/-- Requests accepted in the last 600 s, saturating (R198). -/
def useCount (s : State) (m : Model) : Nat := sat 32 (m.accepts.filter (fun x => decide (s.time ≤ x + 600000000000))).length

/-- The model context that firmware evicts next: smallest count, then earliest last use. -/
def evictModel (s : State) (keep : Nat) : Option Nat :=
  let l := s.mdl.ctxs.filter (fun m => m.1 != keep && mayEvict s m.1 && !m.2.epochs.isEmpty)
  ((sortBy (fun (a b : Nat × Model) => decide (useCount s a.2 < useCount s b.2)
    || (useCount s a.2 == useCount s b.2 && decide (a.2.lastUse ≤ b.2.lastUse))) l).head?).map (·.1)

/-- The model context's chunks are freed on this chip. -/
def dropModelAreas (mc : Nat) (s : State) : State :=
  match modelOf s mc with
  | none => s
  | some m => forEach (fun e s => freeEpochArea mc e.num s) m.epochs s

/-! ## PART_RESIZE (R202) -/

/-- Chunks of a target now: a partition, or 0xFF the model space. -/
def targetChunks (s : State) (target : Nat) : List (Nat × Nat) := if target = 0xFF then s.mem.model else (partOf s target).chunks

/-- Chunks of the target changed by f. -/
def modTarget (target : Nat) (f : List (Nat × Nat) → List (Nat × Nat)) (s : State) : State :=
  if target = 0xFF then { s with mem := { s.mem with model := f s.mem.model } }
  else { s with mem := { s.mem with parts := mupd s.mem.parts target { present := true } (fun p => { p with present := true, chunks := f p.chunks }) } }

/-- Admission capacity of a target that shrinks. -/
def setTarget (target : Nat) (n : Option Nat) (s : State) : State :=
  if target = 0xFF then { s with mem := { s.mem with modelTarget := n } } else modPart target (fun p => { p with target := n }) s

/-- Chunks that still hold frames: of objects, of invalidations that wait, and poisoned ones to be tested. -/
def liveFrames (s : State) (p : Part) : List Nat :=
  p.objs.flatMap (·.frames) ++ (dying s).filter (fun f => inRuns (f / 32) p.chunks)

/-- Frames that a shrink may take from the partition without breaking COMMITTED (R204). -/
def spareFrames (s : State) (target : Nat) : Nat :=
  let p := partOf s target
  roomOf s target + cachedFrames p - committedOf s target

/-- The chunk with the fewest live frames that holds a CACHED object that may go, with those objects. -/
def reclaimChoice (s : State) (target : Nat) : Option (List PoolObj) :=
  let p := partOf s target
  let live := liveFrames s p
  let os := p.objs.filter (evictable s)
  let cs := dedup' ((os.flatMap (·.frames)).map (· / 32))
  let n := fun c => (live.filter (fun f => f / 32 == c)).length
  ((sortBy (fun a b => decide (n a < n b) || (n a == n b && decide (a ≤ b))) cs).head?).map (fun c => os.filter (fun o => o.frames.any (fun f => f / 32 == c)))

/-- Chunks without live frames leave a partition for the operation, as many as it still has to give. -/
def takeEmpty (op target size : Nat) (s : State) : State :=
  let p := partOf s target
  let need := min (runLen p.chunks - size) (spareFrames s target / 32)
  let runs := takeRuns need (subRuns p.chunks (sortRuns (oneRuns (dedup' ((liveFrames s p).map (· / 32))))))
  if runs.isEmpty then s
  else modOp op (fun o => { o with runs := o.runs ++ runs }) (modTarget target (fun l => subRuns l (sortRuns runs)) s)

/-- RECLAIM of a partition: empty chunks go, then CACHED objects of the chunk with the fewest live frames. -/
def reclaimPart (op target size : Nat) : Nat → State → State
  | 0, s => takeEmpty op target size s
  | fuel + 1, s =>
    let s := takeEmpty op target size s
    if runLen (partOf s target).chunks ≤ size then s
    else if spareFrames s target < 32 then s
    else match reclaimChoice s target with
      | none => s
      | some os => reclaimPart op target size fuel (forEach (fun o s => evictObj target o s) os s)

/-- RECLAIM of the model space: free chunks go, then model contexts under R198 if the host consented. -/
def reclaimModel (op size : Nat) (consent : Bool) : Nat → State → State
  | 0, s => s
  | fuel + 1, s =>
    let runs := takeRuns (runLen s.mem.model - size) (freeModel s)
    let s := if runs.isEmpty then s
      else modOp op (fun o => { o with runs := o.runs ++ runs }) (modTarget 0xFF (fun l => subRuns l (sortRuns runs)) s)
    if runLen s.mem.model ≤ size || !consent then s
    else match evictModel s 0x10000 with
      | none => s
      | some mc => reclaimModel op size consent fuel (dropModelAreas mc s)

/-- RECLAIM goes on: at the target it passes to RETAG, else it waits (R204). -/
def reclaim (op : Nat) (s : State) : State :=
  match mget s.ops.live op with
  | none => s
  | some o =>
    match o.kind with
    | .partResize target size _ _ consent _ _ _ =>
      if o.code ≠ 0x31 ∨ opHeld s o then s
      else
        let s := if target = 0xFF then reclaimModel op size consent (s.mdl.ctxs.length + 1) s
          else reclaimPart op target size (partOf s target).objs.length s
        if runLen (targetChunks s target) ≤ size then modOp op (fun o => { o with code := 0x32, waiting := false }) s
        else modOp op (fun o => { o with waiting := true }) s
    | _ => s

/-- Chunks of epochs that a model-space shrink must keep. -/
def liveModel (s : State) : Nat := runLen (areaRuns s)

/-- CHECK of a resize that has begun (Table 8.8). -/
def checkResize (op target size : Nat) (consent : Bool) (s : State) : State :=
  let cur := runLen (targetChunks s target)
  if cur ≤ size then
    if runLen (freeRuns s) < size - cur then endOp op .resourceExhausted 0 s
    else modOp op (fun o => { o with code := 0x32, runs := takeRuns (size - cur) (freeRuns s) }) s
  else if target = 0xFF ∧ size < liveModel s ∧ !consent then endOp op .resourceExhausted 0 s
  else reclaim op (modOp op (fun o => { o with code := 0x31 }) (setTarget target (some size) s))

/-- PART_RESIZE. -/
def execPartResize (t : Nat) (h : Hdr) (target size low high : Nat) (s : State) : Host.Outcome State Fault Refusal :=
  .next (command2 t h (fun s =>
    let p := partOf s target
    let marks := if target = 0xFF then (if low = 0 ∧ high = 0 then some (0, 0) else none) else watermarks size low high
    match firstOf [shapeCheck s h { rings := [2], admin := true, flags := 1 } (!(decide (target ≤ 63) || target == 0xFE || target == 0xFF)),
        failIf ((decide (target ≤ 63) && !p.present) || marks.isNone) .malformed,
        failIf (invasive s && decide (target ≤ 63) && decide (runLen p.chunks < size)) .accessDenied,
        powerCheck s,
        failIf (!(opsWith s (fun k => match k with | .partResize x _ _ _ _ _ _ _ => x == target | _ => false)).isEmpty) .busy] with
    | some st => refuseOp h st s
    | none =>
      let w := marks.getD (0, 0)
      let consent := bit h.flags 0
      let n := s.ops.next
      checkResize n target size consent
        (beginOp h (.partResize target size w.1 w.2 consent (runLen (targetChunks s target)) p.low p.high) 0x30 s)) s)

/-- RECLAIM_RESUME (R204). -/
def execReclaimResume (t op : Nat) (s : State) : Host.Outcome State Fault Refusal := .next (reclaim op (tick t s))

/-- RETAG ends: the chunks taken are zero-filled and belong to the target, or to nobody, and the new watermarks hold
(R202). -/
def retagDone (op : Nat) (s : State) : State :=
  match mget s.ops.live op with
  | none => s
  | some o =>
    match o.kind with
    | .partResize target size low high _ _ _ _ =>
      if o.code ≠ 0x32 then s
      else
        let s := zeroChunks 0 o.runs s
        let grows := decide (runLen (targetChunks s target) + runLen o.runs ≤ size)
        let s := if grows then modTarget target (fun l => l ++ o.runs) s else s
        let s := setTarget target none s
        let s := if target = 0xFF then s else modPart target (fun p => { p with low := low, high := high }) s
        endOp op .complete 0 s
    | _ => s

/-- RESIZE_RETAG_DONE (R202). -/
def execResizeRetagDone (t op : Nat) (s : State) : Host.Outcome State Fault Refusal := .next (retagDone op (tick t s))

/-- A cancelled RECLAIM leaves the original size and watermarks: chunks it had freed come back, zero-filled
(Table 13.5). -/
def cancelResize (target : Nat) (runs : List (Nat × Nat)) (s : State) : State :=
  let s := zeroChunks 0 runs s
  let s := if runs.isEmpty then s else modTarget target (fun l => l ++ runs) s
  setTarget target none s

/-! ## Migration of frames (R203) -/

/-- FRAME_MIGRATION: between steps of the jobs that map it, a frame of an object moves out of its chunk; a shrink that waits goes
on. -/
def execFrameMigration (t part frame : Nat) (s : State) : Host.Outcome State Fault Refusal :=
  let s := tick t s
  let p := partOf s part
  .next (if !p.objs.any (fun o => o.frames.contains frame) || partRunning s part || s.mem.poisonFrames.contains frame then s
    else match findFrames s { p with chunks := cutRun (frame / 32) p.chunks } (lmodeOf s (frame / 32)) 1 with
      | some [b] => forEach (fun n s => reclaim n s)
          (opsWith s (fun k => match k with | .partResize x _ _ _ _ _ _ _ => x == part | _ => false)) (moveFrame part frame b s)
      | _ => s)

end Sys2Proof.Machine
end

