-- ==== Sys2Proof/Machine/Colls.lean ====
section
/-! DEFINITION. The collective unit (chapter 15): groups and JOINs, the order of operations, small collectives in two
stages, bulk collectives round the ring, and the responses of Xaene requests. -/
namespace Sys2Proof.Machine

/-! ## Groups -/

/-- The group of a GROUP_ID, with its index. -/
def groupOfId (s : State) (gid : Nat) : Option (Nat × Group) := s.coll.groups.find? (fun g => g.2.id == gid)

/-- Group index g changed by f. -/
def modGroup (g : Nat) (f : Group → Group) (s : State) : State := { s with coll := { s.coll with groups := mmod s.coll.groups g f } }

/-- The group index bound to a queue of a context. -/
def boundGroup (s : State) (c ring : Nat) : Option Nat := mget (ctxOf s c).queues (ring - 4)

/-- The members of a board, in ascending rank (R358), as (rank, LOCATION). -/
def boardMembers (q : Group) (board : Nat) : List (Nat × Nat) :=
  ((List.range q.members.length).zip q.members).filter (fun m => m.2 / 8 == board)

/-- The boards of a group in ascending (rack, board). -/
def groupBoards (q : Group) : List Nat := sortBy (fun a b => decide (a ≤ b)) (dedup' (q.members.map (· / 8)))

/-- Board rank of a member. -/
def boardRank (q : Group) (loc : Nat) : Nat := ((boardMembers q (loc / 8)).map (·.2)).findIdx (fun l => l == loc)

/-- Chunk size C of a group. -/
def chunkSize (q : Group) : Nat := 2 ^ q.chunkLog2

/-- The fields of COLL_GROUP_CREATE that a host's list of members completes: first row of Table 15.2. -/
def createBad (s : State) (h : Hdr) (b : CollGroupBody) : Bool :=
  match b.memberList with
  | none => true
  | some l =>
    b.groupId == 0 || decide (b.members < 2) || decide (128 < b.members) || decide (b.members ≤ b.rank)
      || l.length != b.members || l.any (fun x => decide (127 < x)) || decide (1 < b.mode)
      || decide (b.chunkLog2 < 16) || decide (20 < b.chunkLog2) || decide (b.depth < 2) || decide (8 < b.depth)
      || b.stageBytes % 65536 != 0 || l.getD b.rank 0xFF != ownLoc s || (dedup' l).length != l.length
      || s.coll.groups.any (fun g => g.2.job == jobIdx h.job && (g.2.key == b.groupKey || g.2.id == b.groupId))

/-- Second row of Table 15.2: the staging area. -/
def stageBad (s : State) (h : Hdr) (b : CollGroupBody) : Bool :=
  if b.stagePlate = 0xFF then false
  else
    let p := plateOf s b.stagePlate
    p.state != 2 || p.job != jobIdx h.job
      || p.isls.any (fun i => decide (i.banks * 131072 < b.stageOffset + b.stageBytes))
      || decide (b.stageBytes < 2 ^ b.chunkLog2 * ceilDiv (2 * b.depth) p.isls.length)

/-- The number that the next packet of a flow to a chip bears. -/
def flowSeq (s : State) (dst flow : Nat) : Nat := mgetD s.xn.nextFseq (dst * 65536 + flow) 0

/-- A packet of a flow to a chip has taken its number. -/
def countSeq (dst flow : Nat) (s : State) : State :=
  { s with xn := { s.xn with nextFseq := mset s.xn.nextFseq (dst * 65536 + flow) ((flowSeq s dst flow + 1) % 65536) } }

/-- The parameters that a member's JOIN carries. -/
def joinOf (s : State) (q : Group) : JoinParams :=
  { src := ownLoc s, groupId := q.id, members := q.members, mode := q.mode, chunkLog2 := q.chunkLog2, depth := q.depth
    flow := 0x200 + (match groupOfId s q.id with | some g => g.1 | none => 0), modelCtx := (jobAt s q.job).mc }

/-- The JOIN reports the group's own parameters. -/
def joinAgrees (q : Group) (p : JoinParams) : Bool :=
  p.members == q.members && p.mode == q.mode && p.chunkLog2 == q.chunkLog2 && p.depth == q.depth

/-! ## Operands of an operation -/

/-- Element width in bytes of a collective's TYPE. -/
def collWidth (b : CollBody) : Nat := elemBits b.type / 8

/-- The body of an operation breaks Table 15.4; posted says how it was issued. -/
def collBad (posted : Bool) (opcode : Nat) (b : CollBody) : Bool :=
  let bulk := decide (0x74 ≤ opcode)
  let w := collWidth b
  b.rsvd || !(b.type == 6 || b.type == 7 || b.type == 9 || b.type == 10) || decide (2 < b.redop)
    || ((opcode == 0x72 || opcode == 0x75) && b.redop != 0)
    || (if opcode = 0x73 then b.nvalues == 0 || decide (8 < b.nvalues) || b.type == 9 || b.values.length != b.nvalues
        else b.nvalues != 0 || !b.values.isEmpty)
    || (if bulk then b.count == 0 || decide (2 ^ 28 < b.count) || b.src % w != 0 || b.dst % w != 0 else b.count != 0 || b.src != 0)
    || (opcode == 0x72 && b.dst != 0) || decide (2 ^ 57 ≤ b.src) || ((bulk || posted) && decide (2 ^ 57 ≤ b.dst))
    || (if opcode = 0x75 then decide (16 < b.rowLen) || (b.rowLen != 0 && b.count % 2 ^ b.rowLen != 0) else b.rowLen != 0)
    || decide (63 < b.sigCounter) || (!posted && (b.sigValid || b.sigIsland != 0 || b.sigCounter != 0 || b.sigInc != 0))

/-- End kind of an address of an operation: a host operation names DVAs, a posted one an ISLAND address where it has
no bit above 31, else a DVA (log entry 19). -/
def collKind (posted : Bool) (a : Nat) : Nat := if posted && decide (a < 2 ^ 32) then 0 else 1

/-- What reading at an end brings: bytes, or none for poison. -/
def collRead (s : State) (i plate : Nat) (posted : Bool) (a n : Nat) : Option (List Byte) :=
  let kind := collKind posted a
  ((List.range n).mapM (fun k => match placeOf s i (jobAt s i).ctx plate kind (a + k) false with
    | .bank p x y => if bankPoisoned s p x y 1 then none else some (readBank s p x y 1)
    | .own y _ => if linePoisoned s (y / 32) then none else some (readDram s y 1)
    | _ => none)).map (fun (l : List (List Byte)) => l.flatten)

/-- Bytes written at an end. -/
def collWrite (i plate : Nat) (posted : Bool) (a : Nat) (data : List Byte) (s : State) : State :=
  forEach (fun e s => match placeOf s i (jobAt s i).ctx plate (collKind posted a) (a + e.1) true with
    | .bank p x y => writeBank p x y [e.2] s
    | .own y _ => writeDram y [e.2] s
    | _ => s) ((List.range data.length).zip data) s

/-- The addresses of [a, a + n) may be used: each 64 KiB of them, and the last byte. The KV half of the space is closed to
collectives (R205). -/
def collReach (s : State) (i plate : Nat) (posted : Bool) (a n : Nat) (write : Bool) : Bool :=
  decide (a + n ≤ 2 ^ 56) && ((List.range (n / 65536 + 1)).map (fun k => a + k * 65536) ++ [a + (n - 1)]).all (fun x =>
    decide (a + (n - 1) < x) || (match placeOf s i (jobAt s i).ctx plate (collKind posted a) x write with
      | .bank _ _ _ => true
      | .own y m => m == 0 && mayReach s (jobAt s i).ctx (y / 2097152) write
      | _ => false))

/-! ## Reduction (R364, R366, Table 14.8) -/

/-- incoming REDOP own for one value. -/
def reduce1 (type redop : Nat) (x y : Nat) : Nat :=
  if type = 7 then
    let f := if redop = 0 then fadd else if redop = 1 then fminAtomic else fmaxAtomic
    (f (BitVec.ofNat 32 x) (BitVec.ofNat 32 y)).toNat
  else if type = 6 then
    let f := if redop = 0 then fadd else if redop = 1 then fminAtomic else fmaxAtomic
    toBf16 (ofFp32 (f (BitVec.ofNat 32 (x % 65536 * 65536)) (BitVec.ofNat 32 (y % 65536 * 65536))))
  else
    let n := if type = 9 then 4 else 8
    if redop = 0 then (x + y) % 2 ^ (8 * n)
    else if redop = 1 then (if signedOf n y < signedOf n x then y else x) else (if signedOf n x < signedOf n y then y else x)

/-- Values reduced position by position. -/
def reduceVals (b : CollBody) (x y : List Dword) : List Dword :=
  List.zipWith (fun u v => BitVec.ofNat 64 (reduce1 b.type b.redop u.toNat v.toNat)) x y

/-- Elements of buffers reduced. -/
def reduceBytes (b : CollBody) (x y : List Byte) : List Byte :=
  let w := collWidth b
  let n := x.length / w
  packElems (8 * w) (List.zipWith (reduce1 b.type b.redop) (unpackElems (8 * w) x n) (unpackElems (8 * w) y n))

/-- A non-empty list of value lists folded in order. -/
def foldVals (b : CollBody) : List (List Dword) → List Dword
  | [] => []
  | x :: l => l.foldl (reduceVals b) x

/-! ## The end of an operation (R370, R371) -/

/-- The first operation of group g. -/
def headOp (s : State) (g : Nat) : Option CollOp := (mget s.coll.groups g).bind (fun q => q.opsPending.head?)

/-- The first operation of group g changed by f. -/
def modHead (g : Nat) (f : CollOp → CollOp) (s : State) : State :=
  modGroup g (fun q => { q with opsPending := match q.opsPending with | o :: l => f o :: l | [] => [] }) s

/-- An operation is over: a posted one signals its counter, a host one writes its FINAL. -/
def closeOp (i : Nat) (o : CollOp) (s : State) : State :=
  if !o.posted then final o.cmd .complete 0 0 s
  else if !o.b.sigValid then s
  else match endPlate s o.plate i o.b.sigIsland with
    | some (p, k) => signalCtr p k o.b.sigCounter o.b.sigInc s
    | none => s

/-- A packet of an operation's sender, before its data. -/
def collPkt (s : State) (g : Nat) (o : CollOp) : CollPkt :=
  { src := ownLoc s, flow := 0x200 + g, opNo := o.opNo, opcode := o.opcode, type := o.b.type, redop := o.b.redop
    nvalues := o.b.nvalues, count := o.b.count, lc := o.lc
    modelCtx := match mget s.coll.groups g with | some q => (jobAt s q.job).mc | none => 0 }

/-- Tags of the activity of a group's first operation (R422): of the host command, or of the step that posted it. -/
def opTags (q : Group) : Nat × Nat := match q.opsPending.head? with | some o => (o.layer, o.operator) | none => (0xFFFF, 0xFFFF)

/-- A packet goes to a member of the group; a member without a route is lost, and the job is frozen (R371). While its flow moves to
another switch it waits (R345). -/
def sendColl (g dst vc : Nat) (p : CollPkt) (s : State) : State :=
  match mget s.coll.groups g, routePort s dst vc p.flow with
  | none, _ => s
  | some q, none => lostTarget q.job 1 dst (endCollOps false g .fabricTargetLost s)
  | some q, some n =>
    let j := jobAt s q.job
    let p := { p with fseq := flowSeq s dst p.flow, resend := false }
    let o : CollOut := {
      gid := q.id, pkt := p, dst := dst, vc := vc, job := j.id, layer := (opTags q).1, operator := (opTags q).2
      sentAt := s.time, port := n, held := flowMoves s dst p.flow n }
    let s := countSeq dst p.flow { s with xn := { s.xn with collOut := s.xn.collOut ++ [o] } }
    if o.held then s else sendWork j.ctx j.id o.layer o.operator dst vc p.lc (.coll q.id p) s

/-- FAULT (R362): every pending operation completes with MALFORMED_DESCRIPTOR, or is a plate error when posted. -/
def faultGroup (g : Nat) (s : State) : State :=
  match mget s.coll.groups g with
  | none => s
  | some q =>
    let posted := q.opsPending.find? (·.posted)
    let s := endCollOps false g .malformed (modGroup g (fun q => { q with st := 2 }) s)
    match posted with | some o => plateFatal q.job o.plate s | none => s

/-- A mismatch is found here: FAULT goes to every other member. -/
def raiseFault (g : Nat) (s : State) : State :=
  match mget s.coll.groups g with
  | none => s
  | some q => faultGroup g (forEach (fun m s => if m = ownLoc s then s else sendXn m 0 false (.fault q.id) s) q.members s)

/-! ## Small collectives (R364) -/

/-- The board partial of a board, once every value of it stands here. -/
def boardPartial (q : Group) (board : Nat) (o : CollOp) : Option (List Dword) :=
  let l := (boardMembers q board).map (fun m => (o.vals.find? (fun v => v.1 == m.1)).map (·.2))
  if l.contains none then none else some (foldVals o.b (l.map (fun x => x.getD [])))

/-- The members of other boards to which this member sends its board's partial. -/
def crossTargets (s : State) (q : Group) : List Nat :=
  let own := ownLoc s / 8
  let n := (boardMembers q own).length
  ((groupBoards q).filter (· != own)).flatMap (fun b =>
    ((boardMembers q b).map (·.2)).filter (fun l => boardRank q l % n == boardRank q (ownLoc s)))

/-- The result of a small collective stands in its destination. -/
def deliverSmall (q : Group) (o : CollOp) (r : List Dword) (s : State) : State :=
  let data := r.flatMap (fun v => leBytes v.toNat 8)
  if o.opcode = 0x72 then s
  else if o.posted then collWrite q.job o.plate true o.b.dst data s
  else writeHost q.ctx o.b.dst data (jobAt s q.job).id o.layer o.operator s

/-- The first operation of group g, a small one, goes on as far as the values here allow; the Bool says whether it
is over. -/
def stepSmall (g : Nat) (s : State) : Bool × State :=
  match mget s.coll.groups g, headOp s g with
  | some q, some o =>
    match boardPartial q (ownLoc s / 8) o with
    | none => (false, s)
    | some p =>
      let bs := groupBoards q
      let s := if o.sent = 0 then
          forEach (fun m s => sendColl g m 0 { collPkt s g o with stage := 1, values := p } s) (crossTargets s q)
            (modHead g (fun o => { o with sent := 1, parts := (ownLoc s / 8, p) :: o.parts }) s)
        else s
      let parts := match headOp s g with | some o => o.parts | none => []
      let l := bs.map (fun b => (parts.find? (fun x => x.1 == b)).map (·.2))
      if l.contains none then (false, s)
      else (true, deliverSmall q o (foldVals o.b (l.map (fun x => x.getD []))) s)
  | _, _ => (false, s)

/-! ## Bulk collectives (R366, R367) -/

/-- Elements of segment k. -/
def segElems (q : Group) (o : CollOp) (k : Nat) : Nat :=
  if o.opcode = 0x74 then o.b.count / q.members.length + (if k < o.b.count % q.members.length then 1 else 0) else o.b.count

/-- Bytes of segment k, and where it begins in a buffer of all segments. -/
def segBytes (q : Group) (o : CollOp) (k : Nat) : Nat := segElems q o k * collWidth o.b
def segStart (q : Group) (o : CollOp) (k : Nat) : Nat := sumOf (segBytes q o) (List.range k)

/-- The segments that a member of rank r sends, in order, as (phase, segment): phase 2 reduces, phase 3 gathers. -/
def sendOrder (q : Group) (o : CollOp) (r : Nat) : List (Nat × Nat) :=
  let n := q.members.length
  let a := (List.range (n - 1)).map (fun i => (2, (r + 2 * n - 1 - i) % n))
  let b := (List.range (n - 1)).map (fun i => (3, (r + 2 * n - i) % n))
  if o.opcode = 0x74 then a ++ b else if o.opcode = 0x75 then b else a

/-- The chunks sent, in order: (phase, segment, offset, bytes). -/
def sendChunks (q : Group) (o : CollOp) (r : Nat) : List (Nat × Nat × Nat × Nat) :=
  (sendOrder q o r).flatMap (fun e =>
    let n := segBytes q o e.2
    (List.range (ceilDiv n (chunkSize q))).map (fun i => (e.1, e.2, i * chunkSize q, min (chunkSize q) (n - i * chunkSize q))))

/-- Bytes of a segment that stand at this member in a phase. -/
def segHere (o : CollOp) (phase seg : Nat) : List Byte :=
  match o.segs.find? (fun x => x.1 == seg && x.2.1 == phase) with | some x => x.2.2 | none => []

/-- Bytes are added to a segment of a phase. -/
def addSeg (phase seg : Nat) (data : List Byte) (o : CollOp) : CollOp :=
  { o with segs := (seg, phase, segHere o phase seg ++ data) :: o.segs.filter (fun x => !(x.1 == seg && x.2.1 == phase)) }

/-- VC of bulk traffic (R368). -/
def bulkVc (o : CollOp) : Nat := if o.lc then 1 else 3

/-- Chunks go out in order while at most DEPTH of them are unanswered and their data stands here. -/
def sendBulk (g : Nat) : Nat → State → State
  | 0, s => s
  | fuel + 1, s =>
    match mget s.coll.groups g, headOp s g with
    | some q, some o =>
      match (sendChunks q o q.rank)[o.sent]? with
      | none => s
      | some (ph, seg, off, n) =>
        let have' := segHere o ph seg
        if q.depth ≤ o.sent - o.answered ∨ have'.length < off + n then s
        else
          let marks := if ph = 3 ∧ off = 0 then (match o.marks.find? (fun m => m.1 == seg) with | some m => m.2 | none => []) else []
          let p : CollPkt := collPkt s g o
          let s := sendColl g (q.members.getD ((q.rank + 1) % q.members.length) 0) (bulkVc o)
            { p with stage := ph, segment := seg, offset := off, data := (have'.drop off).take n, marks := marks } s
          sendBulk g fuel (modHead g (fun o => { o with sent := o.sent + 1 }) s)
    | _, _ => s

/-- The segments whose result stands at this member when the operation ends. -/
def resultSegs (q : Group) (o : CollOp) : List Nat := if o.opcode = 0x76 then [q.rank] else List.range q.members.length

/-- The phase in which a segment's result stands here. -/
def resultPhase (o : CollOp) : Nat := if o.opcode = 0x76 then 2 else 3

/-- Every element of the result stands here and every chunk sent has been answered (R370). -/
def bulkDone (q : Group) (o : CollOp) : Bool :=
  (resultSegs q o).all (fun k => decide (segBytes q o k ≤ (segHere o (resultPhase o) k).length))
    && o.sent == (sendChunks q o q.rank).length && o.answered == o.sent

/-- The result is written to DST, marks after the data (R369). -/
def deliverBulk (q : Group) (o : CollOp) (s : State) : State :=
  let segs := resultSegs q o
  let data := segs.flatMap (fun k => segHere o (resultPhase o) k)
  let marks := if o.b.rowLen = 0 then [] else segs.flatMap (fun k => match o.marks.find? (fun m => m.1 == k) with | some m => m.2 | none => [])
  collWrite q.job o.plate o.posted o.b.dst (data ++ marks) s

/-- Bytes that an operation reads from SRC and writes to DST. -/
def srcBytes (q : Group) (o : CollOp) : Nat :=
  if o.opcode = 0x76 then q.members.length * segBytes q o 0 else o.b.count * collWidth o.b + (if o.b.rowLen = 0 then 0 else o.b.count / 2 ^ o.b.rowLen)
def dstBytes (q : Group) (o : CollOp) : Nat :=
  if o.opcode = 0x75 then q.members.length * (o.b.count * collWidth o.b + (if o.b.rowLen = 0 then 0 else o.b.count / 2 ^ o.b.rowLen))
  else o.b.count * collWidth o.b

/-- Bytes of this member's own contribution to segment k. -/
def ownSeg (s : State) (q : Group) (o : CollOp) (k : Nat) : List Byte :=
  (collRead s q.job o.plate o.posted (o.b.src + segStart q o k) (segBytes q o k)).getD []

/-! ## The order of operations (R361 to R363) -/

/-- The running operation of group g cannot read its own source, which is poison (R455): a host operation completes with
MEMORY_UNCORRECTABLE, a posted one is a plate error and signals nothing (log entry 175). -/
def poisonOp (g : Nat) (s : State) : State :=
  match mget s.coll.groups g, headOp s g with
  | some q, some o =>
    let s := modGroup g (fun q => { q with opsPending := q.opsPending.drop 1 }) s
    if o.posted then plateFatal q.job o.plate s else final o.cmd .memoryUncorrectable 0 0 s
  | _, _ => s

/-- This member's whole source of a bulk operation can be read. -/
def sourceOk (s : State) (q : Group) (o : CollOp) : Bool :=
  decide (o.opcode ≤ 0x73) || (collRead s q.job o.plate o.posted o.b.src (srcBytes q o)).isSome

/-- A received chunk stands in a slot of the staging area (R359, R367): slot s of 2·DEPTH lies on island s mod I of the stage plate.
Slots are taken in turn (log entry 69). -/
def stageChunk (g : Nat) (data : List Byte) (s : State) : State :=
  match mget s.coll.groups g, headOp s g with
  | some q, some o =>
    let n := (plateOf s q.stagePlate).isls.length
    let slot := o.staged % (2 * q.depth)
    writeBank q.stagePlate (slot % n) (q.stageOffset + chunkSize q * (slot / n)) data (modHead g (fun o => { o with staged := o.staged + 1 }) s)
  | _, _ => s

/-- The first operation of group g begins: a small one sends its values to its board, a bulk one its first
segment. -/
def startOp (g : Nat) (s : State) : State :=
  match mget s.coll.groups g, headOp s g with
  | some q, some o =>
    if !sourceOk s q o then poisonOp g s
    else if o.opcode ≤ 0x73 then
      let s := modHead g (fun o => { o with vals := (q.rank, o.b.values) :: o.vals }) s
      forEach (fun m s => if m.2 = ownLoc s then s else sendColl g m.2 0 { collPkt s g o with values := o.b.values } s)
        (boardMembers q (ownLoc s / 8)) s
    else
      let n := q.members.length
      let first := if o.opcode = 0x75 then q.rank else (q.rank + n - 1) % n
      let data := if o.opcode = 0x75 then (collRead s q.job o.plate o.posted o.b.src (segBytes q o 0)).getD [] else ownSeg s q o first
      let marks := if o.b.rowLen = 0 then []
        else [(q.rank, (collRead s q.job o.plate o.posted (o.b.src + segBytes q o 0) (o.b.count / 2 ^ o.b.rowLen)).getD [])]
      let s := modHead g (fun o => { addSeg (if o.opcode = 0x75 then 3 else 2) first data o with marks := marks }) s
      sendBulk g (sendChunks q o q.rank).length s
  | _, _ => s

/-- What the answer to a collective's packet takes from it. -/
def collHead (p : CollPkt) : Pkt :=
  { src := p.src, vc := if p.stage < 2 then 0 else if p.lc then 1 else 3, lc := p.lc, flow := p.flow, fseq := p.fseq, resend := p.resend }

/-- A small packet or a chunk is taken into the first operation of group g. The answer to a chunk grants its sender a slot (R367). -/
def takePkt (g : Nat) (p : CollPkt) (s : State) : State :=
  match mget s.coll.groups g, headOp s g with
  | some q, some o =>
    let s := activity (jobAt s q.job).ctx .xnRx (jobAt s q.job).id o.layer o.operator (msgBytes (.coll q.id p)) s
    if p.stage = 0 then
      modHead g (fun o => { o with vals := o.vals ++ [(q.members.findIdx (fun l => l == p.src), p.values)] }) s
    else if p.stage = 1 then modHead g (fun o => { o with parts := o.parts ++ [(p.src / 8, p.values)] }) s
    else
      let s := answer (collHead p) .ok [] [] s
      let s := stageChunk g p.data s
      let own := ((ownSeg s q o p.segment).drop p.offset).take p.data.length
      let data := if p.stage = 2 then reduceBytes o.b p.data own else p.data
      let s := modHead g (fun o =>
        let o := addSeg p.stage p.segment data o
        let o := if p.stage = 2 ∧ p.segment = q.rank ∧ o.opcode = 0x74 then addSeg 3 p.segment data o else o
        if p.marks.isEmpty then o else { o with marks := o.marks ++ [(p.segment, p.marks)] }) s
      sendBulk g (sendChunks q o q.rank).length s
  | _, _ => s

/-- Packets that have come before the first operation of group g are taken once it has begun; one that disagrees
with it is a mismatch. -/
def takeEarly (g : Nat) : Nat → State → State
  | 0, s => s
  | fuel + 1, s =>
    match mget s.coll.groups g, headOp s g with
    | some q, some o =>
      match s.coll.earlyPkts.find? (fun e => e.1 == q.id && e.2.opNo == o.opNo) with
      | none => s
      | some e =>
        let s := { s with coll := { s.coll with earlyPkts := s.coll.earlyPkts.erase e } }
        let p := e.2
        if p.opcode = o.opcode ∧ p.type = o.b.type ∧ p.redop = o.b.redop ∧ p.nvalues = o.b.nvalues ∧ p.count = o.b.count then
          takeEarly g fuel (takePkt g p s)
        else raiseFault g s
    | _, _ => s

/-- The first operation of group g goes on, and as operations end the next ones begin. -/
def runGroup (g : Nat) : Nat → State → State
  | 0, s => s
  | fuel + 1, s =>
    let s := takeEarly g s.coll.earlyPkts.length s
    match mget s.coll.groups g, headOp s g with
    | some q, some o =>
      let (over', s) := if o.opcode ≤ 0x73 then stepSmall g s
        else if bulkDone q o then (true, deliverBulk q o s) else (false, s)
      if !over' then s
      else
        let s := closeOp q.job o (modGroup g (fun q => { q with opsPending := q.opsPending.drop 1 }) s)
        match headOp s g with
        | some _ => runGroup g fuel (startOp g s)
        | none => s
    | _, _ => s

/-- Steps that runGroup may need: one for each operation that waits. -/
def groupFuel (s : State) (g : Nat) : Nat := match mget s.coll.groups g with | some q => q.opsPending.length + 1 | none => 0

/-- An operation joins group g; the first one begins at once when the group is READY. -/
def enterOp (g : Nat) (o : CollOp) (s : State) : State :=
  match mget s.coll.groups g with
  | none => s
  | some q =>
    let s := modGroup g (fun q => { q with
      opsPending := q.opsPending ++ [{ o with opNo := q.nextOp }]
      nextOp := (q.nextOp + 1) % 2 ^ 32 }) s
    if q.st = 1 ∧ q.opsPending.isEmpty then runGroup g (groupFuel s g) (startOp g s) else s

/-- JOIN of every member has arrived: the group is READY, its create completes, and operations already issued begin. -/
def settleJoin (g : Nat) (s : State) : State :=
  match mget s.coll.groups g with
  | none => s
  | some q =>
    if q.st = 0 ∧ q.members.all (fun m => q.joined.contains m) then
      let s := final q.cmd .complete 0 0 (modGroup g (fun q => { q with st := 1 }) s)
      if q.opsPending.isEmpty then s else runGroup g (groupFuel s g) (startOp g s)
    else s

/-- A JOIN is taken by a group that this chip has created. -/
def takeJoin (g : Nat) (p : JoinParams) (s : State) : State :=
  match mget s.coll.groups g with
  | none => s
  | some q =>
    if q.st ≠ 0 ∨ !q.members.contains p.src then s
    else if joinAgrees q p then settleJoin g (modGroup g (fun q => { q with joined := q.joined ++ [p.src] }) s)
    else failCreate g .malformed s

/-! ## Commands and events -/

/-- COLL_GROUP_CREATE (R357). -/
def execCollGroupCreate (t : Nat) (h : Hdr) (b : CollGroupBody) (s : State) : Host.Outcome State Fault Refusal :=
  .next (command t h (fun s =>
    let j := jobAt s (jobIdx h.job)
    let shape := firstOf [shapeCheck s h { rings := [4, 5, 6, 7], job := true, mc := true } false, jobCheck s h,
      failIf (j.mc != h.modelCtx) .malformed]
    let s := if shape.isSome then s else readHost h.ctx b.memberAddr b.members h.job h.layerTag h.opTag s
    match firstOf [shape, failIf ((boundGroup s h.ctx h.ring).isSome || createBad s h b) .malformed,
        failIf (stageBad s h b) .malformed, failIf (decide (256 ≤ s.coll.groups.length)) .resourceExhausted,
        failIf ((b.memberList.getD []).any (fun m => !routed s m)) .fabricTargetLost] with
    | some st => final (cmdOf h) st 0 0 s
    | none =>
      let g := (firstFrom (fun n => (mget s.coll.groups n).isNone) 256 0).getD 0
      let q : Group := {
        id := b.groupId, key := b.groupKey, ctx := h.ctx, queue := h.ring - 4, job := jobIdx h.job, rank := b.rank
        members := b.memberList.getD [], mode := b.mode, chunkLog2 := b.chunkLog2, depth := b.depth
        stagePlate := b.stagePlate, stageOffset := b.stageOffset, stageBytes := b.stageBytes
        joined := [ownLoc s], cmd := cmdOf h }
      let s := { s with coll := { s.coll with groups := mset s.coll.groups g q } }
      let s := modCtx h.ctx (fun x => { x with queues := mset x.queues (h.ring - 4) g }) s
      let s := forEach (fun m s => if m = ownLoc s then s else countSeq m (joinOf s q).flow (sendXn m 0 false (.join { joinOf s q with fseq := flowSeq s m (joinOf s q).flow }) s)) q.members s
      let early := s.coll.earlyJoins.filter (fun p => p.groupId == b.groupId)
      forEach (fun p s => takeJoin g p s) early
        { s with coll := { s.coll with earlyJoins := s.coll.earlyJoins.filter (fun p => p.groupId != b.groupId) } }) s)

/-- COLL_GROUP_DESTROY (R360). -/
def execCollGroupDestroy (t : Nat) (h : Hdr) (s : State) : Host.Outcome State Fault Refusal :=
  .next (command t h (fun s =>
    match firstOf [shapeCheck s h infoColl false, failIf (boundGroup s h.ctx h.ring).isNone .malformed] with
    | some st => final (cmdOf h) st 0 0 s
    | none =>
      match boundGroup s h.ctx h.ring with
      | none => s
      | some g => final (cmdOf h) .complete 0 0 (endGroup false g s)) s)

/-- A host operation's buffers may be used. -/
def buffersOk (s : State) (q : Group) (o : CollOp) : Bool :=
  if 0x74 ≤ o.opcode then
    collReach s q.job o.plate o.posted o.b.src (srcBytes q o) false && collReach s q.job o.plate o.posted o.b.dst (dstBytes q o) true
  else if o.posted && o.opcode == 0x73 then collReach s q.job o.plate true o.b.dst (8 * o.b.nvalues) true else true

/-- What stands in the way of an operation on group g, from the host or posted. -/
def opCheck (s : State) (g : Nat) (o : CollOp) : Option Status :=
  match mget s.coll.groups g with
  | none => some .malformed
  | some q => firstOf [
      failIf (q.st == 2 || (q.mode == 1) != o.posted || (decide (0x74 ≤ o.opcode) && q.stagePlate == 0xFF) || collBad o.posted o.opcode o.b) .malformed,
      failIf (q.st == 3) .cancelled,
      (if (jobAt s q.job).frozen then some (jobAt s q.job).frozenStatus else none),
      failIf (!buffersOk s q o) .accessDenied]

/-- A host operation of an opcode on the queue that its descriptor stands on. -/
def hostColl (t : Nat) (h : Hdr) (opcode : Nat) (b : CollBody) (s : State) : State :=
  command t h (fun s =>
    let o : CollOp := { opNo := 0, opcode := opcode, b := b, cmd := cmdOf h, posted := false, lc := false, layer := h.layerTag, operator := h.opTag }
    match firstOf [shapeCheck s h infoColl (collBad false opcode b), failIf (boundGroup s h.ctx h.ring).isNone .malformed,
        (match boundGroup s h.ctx h.ring with | some g => opCheck s g o | none => none)] with
    | some st => final (cmdOf h) st 0 0 s
    | none =>
      match boundGroup s h.ctx h.ring with
      | none => s
      | some g => enterOp g o s) s

/-- BARRIER (R364). -/
def execBarrier (t : Nat) (h : Hdr) (b : CollBody) (s : State) : Host.Outcome State Fault Refusal := .next (hostColl t h 0x72 b s)
/-- REDUCE_SMALL (R364). -/
def execReduceSmall (t : Nat) (h : Hdr) (b : CollBody) (s : State) : Host.Outcome State Fault Refusal := .next (hostColl t h 0x73 b s)
/-- ALL_REDUCE (R366). -/
def execAllReduce (t : Nat) (h : Hdr) (b : CollBody) (s : State) : Host.Outcome State Fault Refusal := .next (hostColl t h 0x74 b s)
/-- ALL_GATHER (R366, R369). -/
def execAllGather (t : Nat) (h : Hdr) (b : CollBody) (s : State) : Host.Outcome State Fault Refusal := .next (hostColl t h 0x75 b s)
/-- REDUCE_SCATTER (R366). -/
def execReduceScatter (t : Nat) (h : Hdr) (b : CollBody) (s : State) : Host.Outcome State Fault Refusal := .next (hostColl t h 0x76 b s)

/-- A step posts an operation to the group of its job with a key (R361). On a group that has been abandoned it is
cancelled and signals nothing; anything else that stands in its way is a plate error. -/
def postColl (p : Nat) (lc : Bool) (key opcode : Nat) (b : CollBody) (s : State) : State :=
  let i := (plateOf s p).job
  match s.coll.groups.find? (fun g => g.2.job == i && g.2.key == key) with
  | none => plateFatal i p s
  | some (g, _) =>
    let o : CollOp := { opNo := 0, opcode := opcode, b := b, cmd := {}, posted := true, lc := lc, plate := p, layer := stepLayer s p }
    if opcode < 0x72 ∨ 0x76 < opcode then plateFatal i p s
    else match opCheck s g o with
      | none => enterOp g o s
      | some .cancelled => s
      | some .fabricTargetLost => s
      | some _ => plateFatal i p s

/-- JOIN (R357): of a group not yet created here it is kept; of a model context that no job here serves it is answered GONE. -/
def execJoin (t : Nat) (p : JoinParams) (s : State) : Host.Outcome State Fault Refusal :=
  let s := tick t s
  .next (match groupOfId s p.groupId with
    | some (g, _) => takeJoin g p s
    | none => if (servingJob s p.modelCtx).isNone then answer { src := p.src, vc := 0, flow := p.flow, fseq := p.fseq } .gone [] [] s
      else { s with coll := { s.coll with earlyJoins := s.coll.earlyJoins ++ [p] } })

/-- ABANDON (R360): pending and later operations complete with CANCELLED until the group is destroyed here; an
unfinished create ends with that status. A group in FAULT stays so (R362). -/
def execAbandon (t groupId src : Nat) (s : State) : Host.Outcome State Fault Refusal :=
  let s := tick t s
  .next (match groupOfId s groupId with
    | none => { s with coll := { s.coll with earlyJoins := s.coll.earlyJoins.filter (fun p => !(p.groupId == groupId && p.src == src)) } }
    | some (g, q) =>
      let s := endCollOps false g .cancelled s
      if q.st = 0 then failCreate g .cancelled s else modGroup g (fun x => { x with st := if q.st = 2 then 2 else 3 }) s)

/-- FAULT (R362). -/
def execFault (t groupId src : Nat) (s : State) : Host.Outcome State Fault Refusal :=
  let s := tick t s
  .next (match groupOfId s groupId with
    | some (g, q) => if q.members.contains src then faultGroup g s else s
    | none => s)

/-- A packet of a group that has come before: it has been answered, or it waits for its operation to begin. -/
def collCame (gid : Nat) (p : CollPkt) (s : State) : Bool :=
  p.resend && ((mget s.xn.executed (execKey (collHead p) p.fseq)).isSome
    || s.coll.earlyPkts.any (fun e => e.1 == gid && e.2.src == p.src && e.2.flow == p.flow && e.2.fseq == p.fseq))

/-- A packet of a group is taken up: one of a small operation is answered at once, a chunk when its operation takes it (R367). -/
def joinPkt (gid : Nat) (p : CollPkt) (s : State) : State :=
  let s := if p.stage < 2 then answer (collHead p) .ok [] [] s else s
  { s with coll := { s.coll with earlyPkts := s.coll.earlyPkts ++ [(gid, p)] } }

/-- COLLECTIVE_CHUNK (R364, R367): a packet of a group reaches this member. One of an operation not yet begun here
waits for it; one that has come before is answered again and not taken again (R349); one of a group that this chip does not hold, of a
model context that no job here serves, is answered GONE (Table 14.9, R371). -/
def execCollectiveChunk (t groupId : Nat) (p : CollPkt) (s : State) : Host.Outcome State Fault Refusal :=
  let s := tick t s
  .next (if collCame groupId p s then
      (match mget s.xn.executed (execKey (collHead p) p.fseq) with | some r => sendXn p.src (collHead p).vc p.lc (.resp r) s | none => s)
    else match groupOfId s groupId with
    | some (g, q) => if q.st = 1 then runGroup g (groupFuel s g) (joinPkt groupId p s) else joinPkt groupId p s
    | none => if (servingJob s p.modelCtx).isNone then answer (collHead p) .gone [] [] s else joinPkt groupId p s)

/-- A packet of a group has lost its target: the group's pending operations end and the job is frozen (R349, R371). -/
def loseColl (cause : Nat) (o : CollOut) (s : State) : State :=
  let s := { s with xn := { s.xn with collOut := s.xn.collOut.filter (fun x => !(x == o)) } }
  let s := match groupOfId s o.gid with | some (g, _) => endCollOps false g .fabricTargetLost s | none => s
  lostTarget (jobIdx o.job) cause o.dst s

/-- A chunk of the running operation of group g has been answered: a slot of its sender is free (R367). -/
def chunkAnswered (g : Nat) (o : CollOut) (s : State) : State :=
  match mget s.coll.groups g, headOp s g with
  | some q, some h =>
    if o.pkt.stage < 2 || h.opNo != o.pkt.opNo then s
    else
      let s := sendBulk g (sendChunks q h q.rank).length (modHead g (fun h => { h with answered := min h.sent (h.answered + 1) }) s)
      runGroup g (groupFuel s g) s
  | _, _ => s

/-- A response to a collective's packet: GONE loses a member (R371), any other to a chunk frees a slot; packets of the flow that
waited for it go out (R345). GONE to a JOIN ends the create that waits (R357). -/
def respColl (p : RespPkt) (s : State) : State :=
  match s.xn.collOut.find? (fun o => !o.held && o.dst == p.src && o.pkt.flow == p.flow && o.pkt.fseq == p.fseq) with
  | none =>
    (match mget s.coll.groups (p.flow - 0x200) with
    | some q => if q.st = 0 ∧ p.status = .gone then failCreate (p.flow - 0x200) .fabricTargetLost s else lateResp s
    | none => lateResp s)
  | some o =>
    let j := jobAt s (jobIdx o.job)
    let s := activity j.ctx .xnRx j.id o.layer o.operator (msgBytes (.resp p))
      { s with xn := { s.xn with collOut := s.xn.collOut.filter (fun x => !(x == o)) } }
    releaseFlow p.src p.flow (if p.status = .gone then loseColl 2 o s
      else match groupOfId s o.gid with | some (g, _) => chunkAnswered g o s | none => s)

/-- RESP (R347): the issuer's unit acts on it, by the flow label of Table 14.7: a tile mover, the EXU, the collective unit, a posted
operation; what answers firmware's fetches arrives as an event of its own (log entry 176). -/
def execResp (t : Nat) (p : RespPkt) (s : State) : Host.Outcome State Fault Refusal :=
  let s := tick t s
  .next (if p.flow < 0x40 then respTile p s
    else if p.flow < 0x100 then s
    else if p.flow < 0x200 then respExu p s
    else if p.flow < 0x300 then respColl p s
    else if p.flow < 0x400 then respRemote p s
    else s)

/-- Unanswered posted operations of a flow and FSEQ have lost their target (R349): a load's destination is poison, no counter is
signalled. -/
def loseRemote (r : Remote) (s : State) : State :=
  let s := { s with xn := { s.xn with remotes := s.xn.remotes.filter (fun x => !(x == r)) } }
  let s := if r.ty = 1 then s
    else poisonBank r.plate r.isl r.dst (if r.ty = 0 then 2 ^ r.pkt.size else if r.pkt.op = 7 then 0 else 2 ^ r.pkt.size) s
  releaseFlow r.pkt.dst r.pkt.flow (lostTarget (jobIdx r.job) 0 r.pkt.dst s)

/-- REMOTE_TIMEOUT: a request unanswered 20 µs after it was first sent has lost its target (R349). -/
def execRemoteTimeout (t flow fseq : Nat) (s : State) : Host.Outcome State Fault Refusal :=
  let s := tick t s
  .next (match pickRemote s flow fseq 20000 false, pickExu s flow fseq 20000, pickColl s flow fseq 20000 with
    | some r, _, _ => if flow < 0x40 then beginAll (releaseFlow r.pkt.dst flow (loseTile flow 0 r.pkt.dst s)) else loseRemote r s
    | none, some o, _ =>
      let s := { s with xn := { s.xn with exuOut := s.xn.exuOut.filter (fun x => !(x == o)) } }
      releaseFlow o.hop flow (loseExu (jobIdx o.job) 0 o.ty o.pkt s)
    | none, none, some o => releaseFlow o.dst flow (loseColl 0 o s)
    | none, none, none => s)

end Sys2Proof.Machine
end

