-- ==== Sys2Proof/Machine/Clocks.lean ====
section
/-! DEFINITION. Island clocks and rails: floor frequencies (R311, R312), the clock that firmware sets (R383), how a code is
applied and ordered with its rail (R33, R34, R36, R37). Clocks in units of 0.5 MHz where a name says Mhz. -/
namespace Sys2Proof.Machine

/-- Guard band of a field in mV: Patina's part and the droop part (R384, R437). -/
def guardOf (x : Field) : Nat := x.patinaGuard + x.droopGuard

/-- The floor frequency code f_F of a field (R311). -/
def floorCodeOf (s : State) (f : Nat) : Nat :=
  let x := fieldSt s f
  min 96 (Config.floorCode f (guardOf x) s.pw.floor x.fit)

/-- The floor code the field's islands keep to while LC requests accepted before a fall of f_F are unfinished (R312). -/
def floorHeld (s : State) (f : Nat) : Nat :=
  let x := fieldSt s f
  if s.srv.reqs.any (fun e => decide (e.1 < x.oldReq) && e.2.h.cls == 0 && e.2.st != .detected) then max x.oldFloor (floorCodeOf s f)
  else floorCodeOf s f

/-- Floor-point frequency of an island in units of 0.5 MHz (R36, Table 2.3). -/
def floorMhz (s : State) (n : Nat) : Nat := 800 + 25 * floorCodeOf s (fieldOf n)

/-- Clock of an island in units of 0.5 MHz, halved where its field's sensor forces it (R33, R396). -/
def islMhz (s : State) (n : Nat) : Nat :=
  let x := islOf s n
  (800 + 25 * x.freqCode) / (if x.halved then 2 else 1)

/-- The plates that stand on an island. -/
def platesOn (s : State) (n : Nat) : NMap Plate := s.fab.plates.filter (fun p => p.2.isls.any (fun i => i.isl == n))

/-- The island holds a plate of a job with a latency-critical share. -/
def holdsLc (s : State) (n : Nat) : Bool := (platesOn s n).any (fun p => decide (0 < (jobAt s p.2.job).resv.lcShare))

/-- A step runs on the island. -/
def islBusy (s : State) (n : Nat) : Bool := (platesOn s n).any (fun p => p.2.running.isSome)

/-- The cap in force (R385): the lower of the two caps, and the floor while PWRWARN_N binds (R389). -/
def effCap (s : State) : Nat :=
  if s.pw.pwrwarnCap then min s.pw.floor (min s.pw.cap s.pw.rackCap) else min s.pw.cap s.pw.rackCap

/-- Preferred code of the phase in force (R383). -/
def prefCode (s : State) : Nat :=
  match s.pw.phase with
  | 0 => s.pw.op0 | 1 => s.pw.op1 | 2 => s.pw.op2 | 3 => s.pw.op3 | _ => s.pw.op4

/-- f_floor of an island (R383): f_F where it holds a plate with an LC share, else 0.40 GHz. -/
def islFloor (s : State) (n : Nat) : Nat := if holdsLc s n then floorHeld s (fieldOf n) else 0

/-- The code that firmware sets an island to (R383); under PWRWARN_N its f_floor (R389); in an emergency the highest
that the cap and the thermal controller allow, though it lie below f_floor (R390, R396). -/
def targetCode (s : State) (n : Nat) : Nat :=
  let lo := islFloor s n
  let x := fieldSt s (fieldOf n)
  let top := min (min (Config.capCode (effCap s) s.pw.power) (if x.belowF then x.thermCode else max x.thermCode (floorCodeOf s (fieldOf n)))) 96
  if s.pw.capEmergency || x.belowF then min (max lo (prefCode s)) top
  else if s.pw.pwrwarnCap then lo
  else max lo (min (prefCode s) top)

/-- The code that firmware gives an island now: while the ramp limit holds, no raise but to f_floor (R388). -/
def wantedCode (s : State) (n : Nat) : Nat :=
  if rampFull s then min (targetCode s n) (max (islOf s n).freqCode (islFloor s n)) else targetCode s n

/-- Effective rate of an island in units of 0.5 MHz: its clock times the duty, never below its f_floor where its clock is not
(R386). -/
def rateMhz (s : State) (n : Nat) : Nat :=
  max (min (islMhz s n) (800 + 25 * islFloor s n)) (islMhz s n * s.pw.duty / 1000)

/-- Rail voltage that a code needs in a field, guard band included, within the rail's range (R36). DESIGN CHOICE (log entry
159): where the table's voltage and the guard band pass 0.85 V, the rail is set to 0.85 V and the code is given. -/
def needMv (s : State) (f code : Nat) : Nat := min 850 (max 500 (Config.fieldMv f code + guardOf (fieldSt s f)))

/-- An island at a code from now on; its DCO slews and FLL_LOCK is clear until the slew has ended (R33). -/
def atCode (code : Nat) (x : Isl) : Isl :=
  { x with fllLock := x.fllLock && x.freqCode == code, freqCode := code, pendingCode := none }

/-- A raise to a code waits for the field's rail (R37). -/
def waitsRail (s : State) (f code : Nat) (x : Isl) : Bool :=
  decide ((fieldSt s f).railMv < needMv s f code) && decide (x.freqCode < code)

/-- Firmware gives an island a code (R33): at once when the island is idle or the lowering is forced, else at its
next step boundary. A code above what the rail supports waits for the rail (R37). -/
def setCode (forced : Bool) (n : Nat) (s : State) : State :=
  let c := wantedCode s n
  let busy := islBusy s n
  if 2 ≤ (islOf s n).state then s
  else modIsl n (fun x =>
    if waitsRail s (fieldOf n) c x then x
    else if c == x.freqCode || !busy || (forced && decide (c < x.freqCode)) then atCode c x
    else { x with pendingCode := some c }) s

/-- The code that an island's rail must serve: while codes may change, the code wanted too, for a raise waits for the rail;
while the beacon is lost, the code in use alone (R34, R36, R37). -/
def railCode (s : State) (n : Nat) : Nat :=
  if s.fab.beaconOk then max (wantedCode s n) (islOf s n).freqCode else (islOf s n).freqCode

/-- The setpoint of a field's rail: raised first for a code that is wanted, lowered only once every island of the field
has applied a lower code (R36, R37). -/
def setRail (f : Nat) (s : State) : State :=
  let ns := (s.fab.isl.map (·.1)).filter (fun n => fieldOf n == f && islUsable s n)
  let top := ns.foldl (fun a n => max a (railCode s n)) s.fab.islBase.freqCode
  let mv := needMv s f top
  if ns.isEmpty && !s.fab.islBase.fllLock then s
  else modField f (fun x => { x with setpoint := mv, railMv := if x.railMv < mv then x.railMv else mv }) s

/-- Firmware sets the codes of every island that is up, and the rails (R33, R36, R37, R383). While the beacon is lost codes
stay, and rails still follow the guard bands (R34); outside RUN both stay (R381). -/
def applyCodes (forced : Bool) (s : State) : State :=
  if s.pw.st != .run then s
  else forEach setRail (List.range 4) (if s.fab.beaconOk then forEach (setCode forced) (s.fab.isl.map (·.1)) s else s)

/-! ## Operating point and emergencies (R383, R385, R390) -/

/-- The less of two ratios. -/
def ratioMin (a b : Nat × Nat) : Nat × Nat := if a.1 * b.2 ≤ b.1 * a.2 then a else b

/-- Clock that an island is given, in units of 0.5 MHz, halved where its field's sensor forces it. -/
def givenMhz (s : State) (n : Nat) : Nat := (800 + 25 * targetCode s n) / (if (islOf s n).halved then 2 else 1)

/-- The ratio that scales s_I of job i: its slowest island's clock to the floor in an emergency, else 1 (R326, R390). -/
def emergencyScale (s : State) (i : Nat) : Nat × Nat :=
  if s.pw.emergency then (jobIslands s i).foldl (fun r n => ratioMin r (min (givenMhz s n) (floorMhz s n), floorMhz s n)) (1, 1)
  else (1, 1)

/-- Every job's s_I follows the operating point. -/
def rescale (s : State) : State :=
  forEach (fun i s => modJob i (fun j => { j with scaleI := emergencyScale s i }) s) (s.srv.jobs.map (·.1)) s

/-- Clocks and rails are set, s_I follows, and in an emergency the supply tests are rerun (R326, R383). A lowering under
PWRWARN_N or in an emergency is forced (R33). -/
def controlPass (forced : Bool) (s : State) : State :=
  let s := rescale (applyCodes (forced || s.pw.emergency || s.pw.pwrwarnCap) s)
  if s.pw.emergency then rerunAll .powerEmergency s else s

/-- A POWER_EVENT message (Table 16.9). -/
def powerEvent (cause : Nat) (s : State) : State := sendMgmt (.powerEvent cause s.time) s

/-- The emergency bits follow the cap and thermal conditions, each start and the end with its event (R390, R396). -/
def setEmergency (cap therm : Bool) (s : State) : State :=
  let p := s.pw
  let on := cap || therm
  let s := { s with
    pw := { s.pw with capEmergency := cap, thermEmergency := therm, emergency := on }
    fab := { s.fab with emergency := on } }
  let s := if cap && !p.capEmergency then powerEvent 1 (coffer 7 3 .capEmergency 0 0 0 (effCap s) s) else s
  let s := if therm && !p.thermEmergency then powerEvent 4 (coffer 8 3 .thermalEmergency 0 0 0 0 s) else s
  let s := if p.emergency && !on then powerEvent 2 s else s
  controlPass (on || p.emergency) s

/-- The cap in force may have changed from old: an emergency starts or ends, and a fall starts the integration of the
overshoot (R386, R387, R390). In IDLE, SLEEP and DEEP it is only recorded (R381). -/
def capMoves (old : Nat) (s : State) : State :=
  if s.pw.st = .idle ∨ s.pw.st = .sleep ∨ s.pw.st = .deep then s
  else
    let s := if effCap s < old && s.pw.st == .run then
        { s with pw := { s.pw with
          integrating := true, overshoot := 0, capChanged := s.time, lastOver := s.time
          duty := if effCap s < s.pw.power then min s.pw.duty (Config.dutyFor (effCap s) s.pw.power) else s.pw.duty } }
      else s
    setEmergency (decide (s.pw.rackCap < s.pw.floor)) s.pw.thermEmergency s

/-- The device returns from IDLE to RUN for work that needs islands (R373); caps recorded meanwhile apply (R381). -/
def leaveIdle (s : State) : State :=
  if s.pw.st = .idle then setEmergency (decide (s.pw.rackCap < s.pw.floor)) s.pw.thermEmergency
      (applyCodes false { s with pw := { s.pw with st := .run, lastBusy := s.time } }) else s

/-- The codes that islands of a plate were given during its step apply at the boundary, where their rails support them
(R33, R37). -/
def applyPending (p : Nat) (s : State) : State :=
  if !s.fab.beaconOk then s
  else forEach (fun i s => modIsl i.isl (fun x => match x.pendingCode with
    | some c => if waitsRail s (fieldOf i.isl) c x then x else atCode c x
    | none => x) s) (plateOf s p).isls s

/-- The islands of a plate that becomes resident get their codes: one that holds an LC plate runs at its floor or above
(R35, R383). -/
def plateCodes (p : Nat) (s : State) : State :=
  if s.pw.st != .run then s
  else forEach setRail (List.range 4)
    (if s.fab.beaconOk then forEach (fun (i : PIsl) s => setCode false i.isl s) (plateOf s p).isls s else s)

/-- Floor codes may have fallen: the islands keep to the old floor until every LC request accepted so far is done
(R312). old holds the four codes before. -/
def keepFloors (old : List Nat) (s : State) : State :=
  forEach (fun f s =>
    let o := old.getD f 0
    if floorCodeOf s f < o then modField f (fun x => { x with oldFloor := o, oldReq := s.srv.nextReq }) s else s) (List.range 4) s

end Sys2Proof.Machine
end

