-- ==== Sys2Proof/Machine/Quant.lean ====
section
/-! DEFINITION. The Crosshatch rotation (R112, R113), quantisation (R115, R116), the Proof comparison (R121) and
the charges of widening (R127). -/
namespace Sys2Proof.Machine

/-! ## Rotation -/

/-- One step of the xorshift generator of R113. -/
def xorshift (x : Nat) : Nat :=
  let x := (x ^^^ (x * 2 ^ 13)) % 2 ^ 64
  let x := x ^^^ (x / 2 ^ 7)
  (x ^^^ (x * 2 ^ 17)) % 2 ^ 64

/-- The generator after n steps. -/
def xorshiftN : Nat → Nat → Nat
  | 0, x => x
  | n + 1, x => xorshift (xorshiftN n x)

/-- Element j of the reduction dimension is negated (R113). -/
def signBit (seed j : Nat) : Bool := bit (xorshiftN (j / 64 + 1) seed) (j % 64)

/-- One butterfly stage over a block. -/
def butterfly (h : Nat) (x : List Word) : List Word :=
  (List.range x.length).map (fun i => if i / h % 2 = 0 then fadd (x.getD i 0) (x.getD (i + h) 0)
    else fsub (x.getD (i - h) 0) (x.getD i 0))

/-- Rotation size in elements of ROT_SIZE 1 to 4, and the shift s. -/
def rotShift (n : Nat) : Int := if n = 32 then 2 else if n = 256 then 4 else 3

/-- Block b of a row rotated (R112). -/
def rotateBlock (seed b : Nat) (x : List Word) : List Word :=
  let n := x.length
  let x := (x.zip (List.range n)).map (fun e => fmul e.1 (if signBit seed (b * n + e.2) then 0xBF800000 else 0x3F800000))
  let x := (List.range (Nat.log2 n)).foldl (fun x k => butterfly (2 ^ k) x) x
  x.map (fun v => fmul v (fpow2 (-(rotShift n))))

/-! ## Quantisation -/

/-- What quantising a scale group gives: the scale code (or, for INT8, the FP32 row scale), the element codes, and
the counts that it adds. -/
structure Quantised where
  scale : Nat
  codes : List Nat
  sat : Nat
  ftz : Nat
  deriving DecidableEq, Repr

/-- Significant bits, unit of subnormals, largest code and emax of a target (Table 5.1). -/
def target (fmt : Nat) : Nat × Int × Nat × Int :=
  if fmt = 2 then (2, -1, 0x7, 2) else if fmt = 3 then (4, -9, 0x7E, 8) else if fmt = 4 then (3, -16, 0x7B, 15)
  else (8, 0, 127, 6)

/-- The code bit that negates. -/
def signOf (fmt : Nat) : Nat := if fmt = 2 then 8 else 128

/-- An element rounded on the target's grid at scale exponent k: its code and whether it saturated or flushed. -/
def quantElem (fmt : Nat) (k : Int) : Fv → Nat × Bool × Bool
  | .num neg m e =>
    let (p, umin, top, _) := target fmt
    let c := if fmt = 5 then (let q := scaleQ m 1 (e - k); roundNE q.1 q.2) else encMag p umin m 1 (e - k)
    let satd := decide (top < c)
    let c := min c top
    if m = 0 then (0, false, false)
    else if c = 0 then (0, false, true)
    else ((if neg then (if fmt = 5 then 256 - c else signOf fmt + c) else c), satd, false)
  | .inf neg => ((if neg then 128 else 0) + 0x7C, false, false)
  | .nan => (0, false, false)

/-- A group is quantised to a target format (R115, R116): 2 FP4, 3 E4M3, 4 E5M2, 5 INT8. -/
def quantGroup (fmt : Nat) (l : List Word) : Quantised :=
  let xs := l.map ofFp32
  let isInf := fun x => match x with | Fv.inf _ => true | _ => false
  if xs.contains .nan || (fmt != 4 && xs.any isInf) then
    { scale := if fmt = 5 then qnan.toNat else 0xFF, codes := l.map (fun _ => 0), sat := 1, ftz := 0 }
  else
    match (xs.filter (fun x => !isInf x && !isZeroV x)).map expV with
    | [] => { scale := if fmt = 5 then (fpow2 (-127)).toNat else 0, codes := xs.map (fun x => if isInf x then (quantElem fmt 0 x).1 else 0),
              sat := 0, ftz := 0 }
    | e0 :: es =>
      let emax := (target fmt).2.2.2
      let k := max (-127) (min 127 (es.foldl max e0 - emax))
      let rs := xs.map (quantElem fmt k)
      { scale := if fmt = 5 then (fpow2 k).toNat else (k + 127).toNat
        codes := rs.map (·.1)
        sat := (rs.filter (·.2.1)).length
        ftz := (rs.filter (·.2.2)).length }

/-! ## Proof (R121) -/

/-- q and r hold the same kind of special value (R121). -/
def sameSpecial (q r : Fv) : Bool :=
  match q, r with
  | .nan, .nan => true
  | .inf s, .inf t => s == t
  | _, _ => false

/-- The comparison of a Proof over its elements (q, r) in row-major order. -/
def proofPasses (thr : Word) (l : List (Word × Word)) : Bool :=
  let l := l.filter (fun p => !sameSpecial (ofFp32 p.1) (ofFp32 p.2))
  if l.any (fun p => !isFinite p.1 || !isFinite p.2) then false
  else if l.all (fun p => isZeroV (ofFp32 p.2)) then l.all (fun p => isZeroV (ofFp32 p.1))
  else
    let e2 := l.foldl (fun s p => let d := fsub p.1 p.2; fadd s (fmul d d)) 0
    let r2 := l.foldl (fun s p => fadd s (fmul p.2 p.2)) 0
    let lim := fmul (fmul thr thr) r2
    !isNan lim && !isNan e2 && !flt lim e2

/-! ## Charges (R127), in 1/256 island-µs: cycles per row over a frequency in MHz -/

/-- num/den cycles a row for n rows at mhz MHz, rounded up once to 1/256 island-µs. -/
def charge (num den n mhz : Nat) : Nat := ceilDiv (256 * num * n) (den * mhz)

/-- A sampled Proof at exponent r below PROOF_BASE: (K/4)·(1 − 2^(r − base)) a row. -/
def chargeProof (k r base n mhz : Nat) : Nat := charge (k * (2 ^ (base - r) - 1)) (4 * 2 ^ (base - r)) n mhz

/-- The FP8 rung, one tile: K/8 a row. -/
def chargeFp8 (k n mhz : Nat) : Nat := charge k 8 n mhz
/-- The BF16 rung from a kept reference: 32 a row. -/
def chargeKept (n mhz : Nat) : Nat := charge 32 1 n mhz
/-- The BF16 rung computed afresh, one tile: K/4 a row. -/
def chargeFresh (k n mhz : Nat) : Nat := charge k 4 n mhz

end Sys2Proof.Machine
end

