-- ==== Sys2Proof/Machine/Sfu.lean ====
section
/-! DEFINITION. The special-function units (chapter 6): built-in functions within their bounds, loadable and
lookup tables, epilogue stages, online softmax, and the RMS unit. -/
namespace Sys2Proof.Machine

/-! ## Close approximations of exact results

R133 gives a bound on a built-in function, not its bits. An approximation far closer than the bound says
which FP32 results the bound allows; Config.sfuPick chooses among them (log entry 15). -/

/-- ⌊2^(2^-k) · 2^128⌋ for k = 0 to n, by repeated square roots, the last first. -/
def rootsOfTwo : Nat → List Nat
  | 0 => [2 * 2 ^ 128]
  | n + 1 => match rootsOfTwo n with
    | [] => []
    | c :: l => isqrt 130 (c * 2 ^ 128) :: c :: l

/-- 2^f·2^128 for a fraction of n bits with value f/2^n, bits from the most significant down. -/
def expBits : List Nat → Nat → Nat → Nat
  | [], _, acc => acc
  | c :: l, f, acc => expBits l (f / 2) (if f % 2 = 1 then acc * c / 2 ^ 128 else acc)

/-- 2^(X/2^80) as N·2^e. -/
def exp2Fix (x : Int) : Nat × Int :=
  (expBits ((rootsOfTwo 80).take 80) (x % 2 ^ 80).toNat (2 ^ 128), x / 2 ^ 80 - 128)

/-- ⌊v·2^80⌋ of plus or minus m·2^e times c/2^160. -/
def fix80 (neg : Bool) (m : Nat) (e : Int) (c : Nat) : Int :=
  let q := scaleQ (m * c) (2 ^ 160) (e + 80)
  signed neg q.1 / (q.2 : Int)

/-- Fraction bits of log2 of a mantissa in [1, 2) held with 128 fraction bits. -/
def logBits : Nat → Nat → Nat → Nat
  | 0, _, acc => acc
  | n + 1, x, acc =>
    let y := x * x / 2 ^ 128
    if 2 * 2 ^ 128 ≤ y then logBits n (y / 2) (2 * acc + 1) else logBits n y (2 * acc)

/-- log2 of m·2^e times 2^90. -/
def log2Fix (m : Nat) (e : Int) : Int :=
  let k := Nat.log2 m
  ((k : Int) + e) * 2 ^ 90 + (logBits 90 (scaleQ m 1 (128 - (k : Int))).1 0 : Int)

/-- ⌊2^160·log2 e⌋. -/
def log2e160 : Nat := 2108501164428393954197770173035669514763056903505
/-- ⌊2^160·ln 2⌋. -/
def ln2160 : Nat := 1013035739299659071135698605846798551586536899366

/-! ## Built-in functions (R133, R134) -/

/-- The FP32 magnitudes that R133 allows for n/d·2^e: those within k ulp of it, or where strict says so the two that bracket it. -/
def near (strict : Bool) (k : Nat) (n d : Nat) (e : Int) : List Nat :=
  let b := encMag 24 (-149) n d e
  let u := max (flog2 n d + e) (-126) - 23
  let diff := fun c => match ofFp32 (BitVec.ofNat 32 c) with
    | .num _ m ec =>
      let l := min ec (min e u)
      some (((m * d * 2 ^ (ec - l).toNat : Nat) : Int) - (n * 2 ^ (e - l).toNat : Nat), ((k * d * 2 ^ (u - l).toNat : Nat) : Int))
    | _ => none
  if strict then
    match diff b with
    | some (df, _) => if df = 0 then [b] else if df < 0 then [b, b + 1] else [b - 1, b]
    | none => [b]
  else ((List.range 9).map (fun i => b + i - 4)).filter (fun c =>
    match diff c with | some (df, z) => decide (df.natAbs ≤ z.natAbs) | none => false)

/-- One of the magnitudes that the bound allows, with a sign; beyond the largest finite value, infinity (R133). -/
def pickNear (f : SfuFn) (x : Word) (neg strict : Bool) (k n d : Nat) (e : Int) : Word :=
  let big := scaleQ n d (e - 104)
  let c := if (2 ^ 24 - 1) * big.2 < big.1 then 0x7F800000
    else
      let l := dedup' (near strict k n d e)
      l.getD (Config.sfuPick f x % l.length) (encMag 24 (-149) n d e)
  BitVec.ofNat 32 (bnat neg * 2 ^ 31 + c)

/-- 2^(v) for a finite v given as X/2^80, with an exact integer where it is one. -/
def exp2Result (f : SfuFn) (x : Word) (fx : Int) (exact : Option Int) : Word :=
  match exact with
  | some i => if i < -150 then 0 else if 127 < i then 0x7F800000 else if -149 ≤ i then fpow2 i else pickNear f x false false 2 1 1 i
  | none =>
    if fx < -150 * 2 ^ 80 then 0
    else if 128 * 2 ^ 80 ≤ fx then 0x7F800000
    else let r := exp2Fix fx; pickNear f x false false 2 r.1 1 r.2

/-- The integer that plus or minus m·2^e is, if it is one. -/
def asInt (neg : Bool) (m : Nat) (e : Int) : Option Int :=
  let q := scaleQ m 1 e
  if q.1 % q.2 = 0 then some (signed neg (q.1 / q.2)) else none

/-- A built-in function (Tables 6.2 and 6.3). -/
def builtin (f : SfuFn) (x : Word) : Word :=
  match ofFp32 x with
  | .nan => qnan
  | .inf neg => match f with
    | .recip => if neg then 0x80000000 else 0
    | .rsqrt => if neg then qnan else 0
    | .exp2 => if neg then 0 else 0x7F800000
    | .exp => if neg then 0 else 0x7F800000
    | .log2 => if neg then qnan else 0x7F800000
    | .ln => if neg then qnan else 0x7F800000
  | .num neg m e =>
    if m = 0 then match f with
      | .recip => if neg then 0xFF800000 else 0x7F800000
      | .rsqrt => if neg then 0xFF800000 else 0x7F800000
      | .exp2 => 0x3F800000
      | .exp => 0x3F800000
      | .log2 => 0xFF800000
      | .ln => 0xFF800000
    else match f with
      | .recip => if isPow2 m then fp32Q neg 1 m (-e) else pickNear .recip x neg true 1 1 m (-e)
      | .rsqrt =>
        if neg then qnan
        else
          let (m, e) := if e % 2 = 0 then (m, e) else (2 * m, e - 1)
          let r := isqrt 160 (2 ^ 256 / m)
          if r * r * m = 2 ^ 256 then fp32Q false r 1 (-128 - e / 2)
          else pickNear .rsqrt x false true 1 (2 * r + 1) 1 (-129 - e / 2)
      | .exp2 => exp2Result .exp2 x (fix80 neg m e (2 ^ 160)) (asInt neg m e)
      | .exp => exp2Result .exp x (fix80 neg m e log2e160) none
      | .log2 =>
        if neg then qnan
        else if isPow2 m then (let k := (Nat.log2 m : Int) + e; fp32Q (decide (k < 0)) k.natAbs 1 0)
        else let r := log2Fix m e; pickNear .log2 x (decide (r < 0)) false 2 r.natAbs 1 (-90)
      | .ln =>
        if neg then qnan
        else if x = 0x3F800000 then 0
        else let r := log2Fix m e; pickNear .ln x (decide (r < 0)) false 2 (r.natAbs * ln2160) 1 (-250)

/-! ## Tables (R135 to R138) -/

/-- SCALE of a LINEAR table, 1,024 / (HI − LO). -/
def tableScale (lo hi : Word) : Word := fdiv 0x44800000 (fsub hi lo)

/-- A value is finite and above zero. -/
def posFinite (w : Word) : Bool := isFinite w && flt 0 w

/-- Width in bytes of a lookup table's entries, if its format is one of R138's. -/
def entryWidth (fmt : Nat) : Option Nat :=
  if fmt = 0 ∨ fmt = 5 ∨ fmt = 8 then some 1 else if fmt = 6 then some 2 else if fmt = 7 ∨ fmt = 9 then some 4
  else if fmt = 10 then some 8 else none

/-- A table image obeys R135, R136 or R138 for a table of this kind and size. -/
def tableOk (kind size : Nat) : TableImage → Bool
  | .fn magicOk spacing symmetry lo hi eLo binades bs bi as ai segs rsvd =>
    kind == 0 && size == 16384 && magicOk && !rsvd && decide (spacing ≤ 1) && decide (symmetry ≤ 2)
      && [lo, hi, bs, bi, as, ai].all isFinite && segs.length == 1024
      && segs.all (fun c => isFinite c.1 && isFinite c.2.1 && isFinite c.2.2)
      && (if spacing = 0 then eLo == 0 && binades == 0 && posFinite (fsub hi lo) && posFinite (tableScale lo hi)
          else lo == 0 && hi == 0 && decide (-126 ≤ eLo ∧ eLo ≤ 127) && decide (binades ≤ 10)
            && decide (eLo + 2 ^ binades ≤ 128))
  | .lookup magicOk fmt oor count entries rsvd =>
    kind == 1 && magicOk && !rsvd && decide (oor ≤ 1) && decide (1 ≤ count) && entries.length == count
      && (match entryWidth fmt with | some w => decide (count * w ≤ size - 64) | none => false)

/-- A straight-line continuation (R137). -/
def tableLine (slope icept a : Word) : Word :=
  if isZeroV (ofFp32 slope) then icept else fadd (fmul slope a) icept

/-- ⌊t⌋ of a finite FP32 value that is not negative. -/
def floorNat (t : Word) : Nat :=
  match ofFp32 t with
  | .num _ m e => let q := scaleQ m 1 e; q.1 / q.2
  | _ => 0

/-- A number in FP32. -/
def natFp32 (n : Nat) : Word := fp32Q false n 1 0

/-- The segment and offset of a within the domain. -/
def segmentOf (spacing : Nat) (lo hi : Word) (eLo : Int) (binades : Nat) (a : Word) : Nat × Word :=
  if spacing = 0 then
    let t := fmul (fsub a lo) (tableScale lo hi)
    let i := min (floorNat t) 1023
    (i, fsub t (natFp32 i))
  else
    let k := 10 - binades
    let f := bits a.toNat 22 0
    let x := (bits a.toNat 30 23 : Int) - 127
    (((x - eLo) * 2 ^ k).toNat + f / 2 ^ (23 - k), fp32Q false (f % 2 ^ (23 - k)) 1 (-((23 - k : Nat) : Int)))

/-- A loadable function table evaluated at x (R137). -/
def evalTable : TableImage → Word → Word
  | .lookup .., _ => 0
  | .fn _ spacing symmetry lo hi eLo binades bs bi as ai segs _, x =>
    if isNan x then qnan
    else
      let a := if symmetry = 0 then x else x &&& 0x7FFFFFFF
      let below := if spacing = 0 then flt a lo else flt a (fpow2 eLo)
      let above := if spacing = 0 then !flt a hi
        else (match ofFp32 a with
          | .num neg m e => !neg && !ltV (.num false m e) (.num false 1 (eLo + 2 ^ binades))
          | .inf neg => !neg
          | .nan => false)
      let y := if below then tableLine bs bi a
        else if above then tableLine as ai a
        else
          let (i, u) := segmentOf spacing lo hi eLo binades a
          let c := segs.getD i (0, 0, 0)
          fadd c.1 (fmul u (fadd c.2.1 (fmul u c.2.2)))
      if symmetry = 2 ∧ bit x.toNat 31 then fneg y else y

/-- A lookup at an index (R138). -/
def lookupTable : TableImage → Int → Nat
  | .fn .., _ => 0
  | .lookup _ _ oor count entries _, i =>
    if i < 0 then (if oor = 1 then 0 else entries.getD 0 0)
    else if count ≤ i.toNat then (if oor = 1 then 0 else entries.getD (count - 1) 0)
    else entries.getD i.toNat 0

/-! ## Epilogue stages (R140) -/

/-- The activation of stage 3; tbl gives the table in a slot. -/
def activation (tbl : Nat → Option TableImage) (a : Act) (v : Word) : Word :=
  match a with
  | .none => v
  | .relu => if isNan v then qnan else if flt 0 v then v else 0
  | .clamp lo hi => if isNan v then qnan else if flt v lo then lo else if flt hi v then hi else v
  | .builtin f => builtin f v
  | .table n => match tbl n with | some i => evalTable i v | none => v

/-- Stage 4: output column j is ACT(column 2j) times the stage-2 value of column 2j + 1. -/
def gatePairs (act : Word → Word) : List Word → List Word
  | a :: b :: l => fmul (act a) b :: gatePairs act l
  | _ => []

/-! ## Online softmax (R141) -/

/-- The running state of a softmax row. -/
structure SoftRow where
  m : Word := 0xFF800000
  s : Word := 0
  o : List Word := []
  bad : Bool := false

/-- The largest element of a chunk. -/
def chunkMax (l : List Word) : Word := l.foldl fmax 0xFF800000

/-- One chunk: pairs of an element and its value row (empty unless the softmax feeds attention). -/
def softChunk (l : List (Word × List Word)) (r : SoftRow) : SoftRow :=
  let xs := l.map (·.1)
  let r := if xs.any (fun x => isNan x || x == 0x7F800000) then { r with bad := true } else r
  let mc := chunkMax xs
  if mc = 0xFF800000 then r
  else
    let mn := fmax r.m mc
    let f := builtin .exp2 (fsub r.m mn)
    let r := { r with s := fmul r.s f, o := r.o.map (fun x => fmul x f) }
    let r := l.foldl (fun r e =>
      let p := builtin .exp2 (fsub e.1 mn)
      { r with s := fadd r.s p, o := List.zipWith (fun o v => fadd o (fmul p v)) r.o e.2 }) r
    { r with m := mn }

/-- The chunks of a list, each from its first element and of its length, in the order given. -/
def cutChunks {α : Type} (cs : List (Nat × Nat)) (l : List α) : List (List α) := cs.map (fun c => (l.drop c.1).take c.2)

/-- The state that a row's chunks leave. -/
def softRow (chunks : List (Nat × Nat)) (width : Nat) (x : List (Word × List Word)) : SoftRow :=
  (cutChunks chunks x).foldl (fun r c => softChunk c r) { o := List.replicate width 0 }

/-- The softmax weights of a row. -/
def softWeights (r : SoftRow) (x : List Word) : List Word :=
  if r.bad then x.map (fun _ => qnan)
  else if isZeroV (ofFp32 r.s) then x.map (fun _ => 0)
  else
    let q := builtin .recip r.s
    x.map (fun v => fmul (builtin .exp2 (fsub v r.m)) q)

/-- A row's softmax standing alone. -/
def softmaxRow (chunks : List (Nat × Nat)) (x : List Word) : List Word :=
  softWeights (softRow chunks 0 (x.map (fun v => (v, ([] : List Word))))) x

/-- A row's softmax feeding attention over value rows of a width. -/
def attentionRow (chunks : List (Nat × Nat)) (width : Nat) (x : List (Word × List Word)) : List Word :=
  let r := softRow chunks width x
  if r.bad then List.replicate width qnan
  else if isZeroV (ofFp32 r.s) then List.replicate width 0
  else let q := builtin .recip r.s; r.o.map (fun v => fmul v q)

/-! ## The RMS unit (R142, R144) -/

/-- E of R142: the largest exponent of a row's non-zero finite elements, 0 if there is none. -/
def rowExp (x : List Fv) : Int :=
  match (x.filter (fun v => !isZeroV v && (match v with | .num .. => true | _ => false))).map expV with
  | [] => 0
  | e :: es => es.foldl max e

/-- √(h/n)·2^E of a held value, rounded once. -/
def rmsOf (q : Acc) (n : Nat) (e : Int) : Word :=
  let (v, a) := heldMag q
  if q.v ≤ 0 then 0
  else
    let (v, a) := if a % 2 = 0 then (v, a) else (2 * v, a - 1)
    let r := isqrt 320 (v * 2 ^ 256 / n)
    let exact := r * r * n = v * 2 ^ 256 && !q.sticky
    fp32Q false (2 * r + (if exact then 0 else 1)) 1 (a / 2 - 129 + e)

/-- The rms of a row, and whether it held a NaN or an infinity (R142). -/
def rmsRow (x : List Word) (eps : Word) : Word :=
  let xs := x.map ofFp32
  if xs.any (fun v => match v with | .num .. => false | _ => true) then qnan
  else
    let e := rowExp xs
    let q := xs.foldl (fun q v => match shiftV (-e) v with
      | .num _ m k => takeBlock ((m * m : Nat) : Int) (2 * k) false q
      | _ => q) ({} : Acc)
    let q := match ofFp32 eps with
      | .num s m k => takeBlock (signed s m) (k - 2 * e) false q
      | _ => q
    rmsOf q x.length e

/-- The outputs of RMS_NORM (R142). -/
def rmsNorm (x g : List Word) (eps : Word) : List Word :=
  let r := rmsRow x eps
  if isNan r then x.map (fun _ => qnan)
  else if r = 0 then x.map (fun _ => 0)
  else List.zipWith (fun v w => fmul (fdiv v r) w) x g

/-- The mean of a row (R144). -/
def meanRow (x : List Word) : Word :=
  let xs := x.map ofFp32
  if xs.contains .nan || (xs.contains (.inf false) && xs.contains (.inf true)) then qnan
  else if xs.contains (.inf false) then 0x7F800000
  else if xs.contains (.inf true) then 0xFF800000
  else
    let q := xs.foldl (fun q v => match v with
      | .num s m k => takeBlock (signed s m) k false q
      | _ => q) ({} : Acc)
    if q.v = 0 then 0 else fp32Q (decide (q.v < 0)) (heldMag q).1 x.length (heldMag q).2

end Sys2Proof.Machine
end

