-- ==== Sys2Proof/Machine/StepOps.lean ====
section
/-! DEFINITION. The operations that a step program issues on its plate's islands: dot products, rotation,
quantisation, Proofs and widening, special functions, attention, and posted work (chapters 4 to 7, 9). -/
namespace Sys2Proof.Machine

/-! ## A plate's operands -/

/-- Cell mode of island number k of plate p (Table 3.2). -/
def cellMode (s : State) (p k : Nat) : Nat := match (plateOf s p).isls[k]? with | some i => i.mode | none => 0

/-- CELL_FLAGS of island number k of plate p (Table 3.5). -/
def cellFlags (s : State) (p k : Nat) : Nat := match (plateOf s p).isls[k]? with | some i => i.flags | none => 0

/-- Weight format of a cell mode (Tables 3.2 and 4.1): T2, FP4, FP8 by bit 1 of the flags, INT8, BF16. -/
def weightFmt (mode flags : Nat) : Nat :=
  if mode = 0 then 1 else if mode = 1 then 2 else if mode = 2 then (if bit flags 1 then 4 else 3) else if mode = 3 then 5 else 6

/-- Activation format of a cell mode: FP8 by bit 2 of the flags in modes 0 and 2. -/
def actFmt (mode flags : Nat) : Nat :=
  if mode = 0 ∨ mode = 2 then (if bit flags 2 then 4 else 3) else if mode = 1 then 2 else if mode = 3 then 5 else 6

/-- n elements of a format from byte a of a plate's banks. -/
def bankElems (s : State) (p k fmt a n : Nat) : List Nat :=
  unpackElems (elemBits fmt) (readBank s p k a (ceilDiv (n * elemBits fmt) 8)) n

/-- n FP32 words from byte a of a plate's banks. -/
def bankWords (s : State) (p k a n : Nat) : List Word := wordsOf (readBank s p k a (4 * n))

/-- A byte of a plate's banks as a number. -/
def bankByte (s : State) (p k a : Nat) : Nat := leNat (readBank s p k a 1)

/-- BF16 words as bytes. -/
def bytesOfBf16 (l : List Nat) : List Byte := l.flatMap (fun v => leBytes v 2)

/-- The layer of plate p with a LAYER_ID. -/
def plateLayer (s : State) (p layer : Nat) : LayerRec := ((plateOf s p).image.layers.find? (fun l => l.layerId == layer)).getD {}

/-- The table that plate p reads in a slot: the bank that is its front (R82, R83). -/
def plateTable (s : State) (p slot : Nat) : Option TableImage :=
  match (jobAt s (plateOf s p).job).tables.find? (fun t => t.bound.any (fun b => b == (p, slot))) with
  | some t => if (plateOf s p).stage.contains t.id then t.back else t.front
  | none => none

/-- Island ID of a plate's island number k. -/
def islId (s : State) (p k : Nat) : Nat := match (plateOf s p).isls[k]? with | some i => i.isl | none => 0

/-! ## Dot products (R93 to R110, R145 to R148) -/

/-- Block b of a dot product on an island: its weight element codes and the invalid nibbles met. -/
def weightBlock (s : State) (p k fmt n : Nat) (o : DotOp) (b : Nat) : List Nat × Nat :=
  if bit (cellFlags s p k) 0 then
    sparseBlock (leNat (readBank s p k (o.metaAddr + 4 * b) 4)) (bankElems s p k fmt (o.wAddr + b * 2 * elemBits fmt) 16)
  else (bankElems s p k fmt (o.wAddr + b * n * elemBits fmt / 8) n, 0)

/-- The block sum of block b in a mode with scaled blocks. -/
def blockOf (s : State) (p k mode : Nat) (o : DotOp) (b : Nat) : Block :=
  let f := cellFlags s p k
  let (n, d, fr) := blockParams mode
  let wf := weightFmt mode f
  let af := actFmt mode f
  let ws := (weightBlock s p k wf n o b).1
  let as := bankElems s p k af (o.aAddr + b * n * elemBits af / 8) n
  blockSum d fr (bankByte s p k (o.wScale + if bit f 0 then b / 2 else b))
    (((ws.zip as).zip (List.range n)).map (fun e => {
      w := ofElem wf e.1.1, a := ofElem af e.1.2, scale := bankByte s p k (o.aScale + (b * n + e.2) / 32) }))

/-- The invalid metadata nibbles of a dot product. -/
def badNibbles (s : State) (p k : Nat) (o : DotOp) : Nat :=
  if bit (cellFlags s p k) 0 then
    sumOf (fun b => (weightBlock s p k (weightFmt (cellMode s p k) (cellFlags s p k)) 32 o b).2) (List.range o.nblk)
  else 0

/-- The result of a dot product and the window-loss events of its lane. -/
def dotResult (s : State) (p k : Nat) (o : DotOp) : Fv × Nat :=
  let mode := cellMode s p k
  if mode < 3 then
    let q := (List.range o.nblk).foldl (fun q b => takeFlags (blockOf s p k mode o b) q) ({} : Acc)
    (accValue q, q.events)
  else if mode = 3 then
    let ws := (List.range o.nblk).flatMap (fun b => (weightBlock s p k 5 32 o b).1)
    (ofFp32 (dotInt8 (ws.map ofInt8) ((bankElems s p k 5 o.aAddr (32 * o.nblk)).map ofInt8)
      ((bankWords s p k o.aScale 1).headD 0) ((bankWords s p k o.wScale 1).headD 0)), 0)
  else
    let n := 32 * o.nblk
    (ofFp32 (dotWide (((bankElems s p k 6 o.wAddr n).map ofBf16).zip ((bankElems s p k 6 o.aAddr n).map ofBf16))), 0)

/-- The window-loss counter of an output block rises, saturating (R106). -/
def addLoss (rowTile colTile n : Nat) (c : LayerCnt) : LayerCnt :=
  let key := (rowTile, colTile)
  let old := ((c.wl.find? (fun e => e.1 == key)).map (·.2)).getD 0
  { c with wl := (key, sat 16 (old + n)) :: c.wl.filter (fun e => e.1 != key), wlossT := sat 32 (c.wlossT + n), computed := true }

/-- A span of a plate's banks that an operation reads: island of the plate, address, bytes. -/
abbrev Span := Nat × Nat × Nat

/-- Poison stands in a span (R455). -/
def spanPoisoned (s : State) (p : Nat) (x : Span) : Bool := bankPoisoned s p x.1 x.2.1 x.2.2

/-- Results derived from the spans named leave for byte a of a plate's banks; they are poison where a span held poison (R455). -/
def putOut (p k a : Nat) (from' : List Span) (l : List Byte) (s : State) : State :=
  let bad := from'.any (spanPoisoned s p)
  let s := writeBank p k a l s
  if bad then poisonBank p k a l.length s else s

/-- As putOut, for FP32 words. -/
def putWords (p k a : Nat) (from' : List Span) (l : List Word) (s : State) : State := putOut p k a from' (bytesOfWords l) s

/-- What a dot product reads. -/
def dotSpans (s : State) (p k : Nat) (o : DotOp) : List Span :=
  let mode := cellMode s p k
  let f := cellFlags s p k
  let sparse := bit f 0
  let n := (if mode = 0 then 64 else 32) * o.nblk
  let scales := if mode < 3 then o.nblk else if mode = 3 then 4 else 0
  [(k, o.wAddr, ceilDiv (n * elemBits (weightFmt mode f)) (if sparse then 16 else 8)), (k, o.aAddr, ceilDiv (n * elemBits (actFmt mode f)) 8),
   (k, o.wScale, scales), (k, o.aScale, if mode < 3 then ceilDiv n 32 else scales), (k, o.metaAddr, if sparse then 4 * o.nblk else 0)]

/-- Each invalid nibble of a layer is counted, and reported as a plate error (R148). -/
def noteNibbles (p layer n : Nat) (s : State) : State :=
  forEach (fun _ s => plateNote (plateOf s p).job p s) (List.range n) (modLayer p layer (fun c => { c with metaFault := sat 16 (c.metaFault + n) }) s)

/-- One dot product: its result is written, its losses and metadata faults counted. -/
def runDot (p k : Nat) (o : DotOp) (s : State) : State :=
  let r := dotResult s p k o
  let bad := badNibbles s p k o
  let s := putOut p k o.out (dotSpans s p k o) (if o.outBf16 then leBytes (toBf16 r.1) 2 else leBytes (toFp32 r.1).toNat 4) s
  noteNibbles p o.layer bad (modLayer p o.layer (addLoss o.rowTile o.colTile r.2) s)

/-! ## Rotation and quantisation (R112 to R116, R149) -/

/-- A list cut into groups of n. -/
def groupsOf {α : Type} (n : Nat) (l : List α) : List (List α) := (List.range (ceilDiv l.length n)).map (fun i => (l.drop (i * n)).take n)

/-- Rotation size of a layer: none for ROT_SIZE 0 (R112). -/
def rotSizeOf (l : LayerRec) : Option Nat := if l.rotSize = 0 then none else some (2 ^ (l.rotSize + 4))

/-- Values from position first of a layer's reduction dimension as Crosshatch delivers them (R112). -/
def rotated (l : LayerRec) (first : Nat) (x : List Word) : List Word :=
  match rotSizeOf l with
  | none => x
  | some n =>
    let g := groupsOf n x
    (g.zip (List.range g.length)).flatMap (fun e => rotateBlock l.rotSeed (first / n + e.2) e.1)

/-- A code that stands for zero in a quantiser's target. -/
def zeroCode (fmt c : Nat) : Bool := c == 0 || (fmt != 5 && c == signOf fmt)

/-- The scale groups of n values (Table 5.1). -/
def quantised (fmt : Nat) (x : List Word) : List Quantised := (groupsOf (if fmt = 5 then max x.length 1 else 32) x).map (quantGroup fmt)

/-- Element codes, and behind them the scale bytes, or the FP32 row scale of INT8. -/
def quantBytes (fmt : Nat) (gs : List Quantised) : List Byte :=
  packElems (elemBits fmt) (gs.flatMap (·.codes)) ++ gs.flatMap (fun g => leBytes g.scale (if fmt = 5 then 4 else 1))

/-- The layer counts what its conversions saturated and flushed (R115). -/
def countQuant (p layer : Nat) (gs : List Quantised) (s : State) : State :=
  modLayer p layer (fun c => { c with
    sat := sat 16 (c.sat + sumOf (·.sat) gs), ftz := sat 16 (c.ftz + sumOf (·.ftz) gs)
    satT := sat 32 (c.satT + sumOf (·.sat) gs), ftzT := sat 32 (c.ftzT + sumOf (·.ftz) gs), computed := true }) s

/-- The zero bits of the sub-tiles that row number row of an operand ends, n codes from dst: 32 rows, fewer at the edge, by 32
positions (R149). A bit's key is the scratchpad key of the sub-tile's first element. -/
def noteSub (p k fmt n dst row stride : Nat) (last : Bool) (s : State) : State :=
  let r := row % 32
  if r = 31 ∨ last then
    forEach (fun b s =>
      let at' := fun x => dst - x * stride + b * 4 * elemBits fmt
      let z := (List.range (r + 1)).all (fun x => (bankElems s p k fmt (at' x) (min 32 (n - 32 * b))).all (zeroCode fmt))
      putZero (bankKey s p k (at' r)) z s) (List.range (ceilDiv n 32)) s
  else s

/-- FP32 values are quantised to a row of an operand at dst (R115). -/
def putQuant (p k layer fmt dst row stride : Nat) (last : Bool) (from' : List Span) (x : List Word) (s : State) : State :=
  let gs := quantised fmt x
  noteSub p k fmt x.length dst row stride last (countQuant p layer gs (putOut p k dst from' (quantBytes fmt gs) s))

/-- FP32 values as bytes of format 6 BF16 or 7 FP32. -/
def plainBytes (fmt : Nat) (x : List Word) : List Byte :=
  if fmt = 6 then bytesOfBf16 (x.map (fun v => toBf16 (ofFp32 v))) else bytesOfWords x

/-- An activation row is rotated as its layer says, kept in BF16 for the layer's Proofs, and quantised for the cells, or delivered in
BF16 for a layer in BF16_BF16 mode (R112, R115, R120). -/
def runActivate (p k : Nat) (a : ActRow) (s : State) : State :=
  let from' := [(k, a.src, 4 * a.n)]
  let x := rotated (plateLayer s p a.layer) a.first (bankWords s p k a.src a.n)
  let bad := from'.any (spanPoisoned s p)
  let s := match a.keep with | some b => putOut p k b from' (plainBytes 6 x) s | none => s
  let s := if 6 ≤ a.fmt then writeBank p k a.dst (plainBytes a.fmt x) s
    else putQuant p k a.layer a.fmt a.dst a.row a.stride a.last [] x s
  if bad then poisonBank p k a.dst (if 6 ≤ a.fmt then (plainBytes a.fmt x).length else (quantBytes a.fmt (quantised a.fmt x)).length) s else s

/-! ## Who pays for widening (R127 to R130) -/

/-- Request of a row homed here. -/
def rowReq : ProofRow → Option Nat
  | .own k => some k
  | _ => none

/-- The row's request still runs: a request whose final completion has been written is left out (R129). -/
def rowLive (s : State) : ProofRow → Bool
  | .own k => (mget s.srv.reqs k).isSome
  | _ => true

/-- A row is marked: n = 0 widened, n = 1 left narrow for want of reserve. A row of this chip flags its request (R131); one computed for
another chip carries the mark with its result, in the RETURN of an expert (R168) or in the row's mark byte (R369). -/
def markRow (p n : Nat) (g : ProofRow) (s : State) : State :=
  match g with
  | .padding => s
  | .own k => modReq k (setFlag n) s
  | .expert layer x home slot choice =>
    let mc := (jobAt s (plateOf s p).job).mc
    let f := fun (r : ExuRec) => if r.home = home ∧ r.slot = slot ∧ r.choice = choice then
        (if n = 0 then { r with widened := true } else { r with exhausted := true }) else r
    { s with exu := { s.exu with expert := s.exu.expert.map (fun e =>
        if e.mc == mc && e.layer == layer && e.exchange == x then { e with acceptedRecs := e.acceptedRecs.map f } else e) } }
  | .marked k a => writeBank p k a (leBytes (leNat (readBank s p k a 1) ||| 2 ^ n) 1) s

/-- One share of a charge of c, in 1/256 island-µs, is paid: from its request's widening reserve, from the job's best-effort share, or
for another chip's row from the reserve of the serving job (R128, R130). Where it cannot be paid nothing is charged, and the share is
marked. -/
def payShare (p : Nat) (g : ProofRow) (c : Nat) (s : State) : Bool × State :=
  let i := (plateOf s p).job
  match g with
  | .padding => (true, s)
  | .own k =>
    match mget s.srv.reqs k with
    | none => (false, s)
    | some r =>
      if !isLc r then (true, modJob i (fun j => { j with beCharge := j.beCharge + c }) s)
      else if 1000 * c ≤ r.reserve then (true, modReq k (fun r => { r with reserve := r.reserve - 1000 * c, demI := r.demI - 1000 * c }) s)
      else (false, markRow p 1 g s)
  | g =>
    if c ≤ (jobAt s i).serveReserve then (true, modJob i (fun j => { j with serveReserve := j.serveReserve - c }) s)
    else (false, markRow p 1 g s)

/-- The shares among rows that still take part. -/
def sharesOf (s : State) (rows : List ProofRow) : List ProofRow := (dedup' rows).filter (rowLive s)

/-- Every share of gs pays cost n for its n rows; the shares whose rows take part. -/
def payShares (p : Nat) (cost : Nat → Nat) (rows : List ProofRow) : List ProofRow → State → List ProofRow × State
  | [], s => ([], s)
  | g :: l, s =>
    let (ok, s) := payShare p g (cost (rows.filter (fun r => r == g)).length) s
    let (gs, s) := payShares p cost rows l s
    (if ok then g :: gs else gs, s)

/-! ## Proof tiles (R119 to R126) -/

/-- Row i of the retained BF16 activations of a tile. -/
def proofAct (s : State) (p k kk : Nat) (o : ProofOp) (i : Nat) : List Fv :=
  (bankElems s p k 6 (o.aAddr + 2 * kk * i) kk).map ofBf16

/-- The element codes of column j of a tile's weights, the stored half of a SPARSE layer expanded (R145). -/
def proofCodes (s : State) (p k kk : Nat) (o : ProofOp) (j : Nat) : List Nat :=
  let f := cellFlags s p k
  let fmt := weightFmt (cellMode s p k) f
  if bit f 0 then
    let st := groupsOf 16 (bankElems s p k fmt (o.wAddr + j * ceilDiv (kk / 2 * elemBits fmt) 8) (kk / 2))
    (st.zip (List.range st.length)).flatMap (fun e =>
      (sparseBlock (leNat (readBank s p k (o.metaAddr + j * (kk / 8) + 4 * e.2) 4)) e.1).1)
  else bankElems s p k fmt (o.wAddr + j * ceilDiv (kk * elemBits fmt) 8) kk

/-- Positions that one stored weight scale covers (R93, R147). -/
def scaleSpan (s : State) (p k : Nat) : Nat := if cellMode s p k = 0 ∨ bit (cellFlags s p k) 0 then 64 else 32

/-- The weight scale code at position x of column j. -/
def proofScale (s : State) (p k kk : Nat) (o : ProofOp) (j x : Nat) : Nat :=
  bankByte s p k (o.wScale + j * ceilDiv kk (scaleSpan s p k) + x / scaleSpan s p k)

/-- Column j of the weights of a tile at their exact values, scales included (R120). -/
def proofWeight (s : State) (p k kk : Nat) (o : ProofOp) (j : Nat) : List Fv :=
  let mode := cellMode s p k
  let ws := (proofCodes s p k kk o j).map (ofElem (weightFmt mode (cellFlags s p k)))
  if mode = 3 then
    let c := ofFp32 ((bankWords s p k (o.wScale + 4 * j) 1).headD 0)
    ws.map (mulV c)
  else (ws.zip (List.range kk)).map (fun e =>
    let c := proofScale s p k kk o j e.2
    if c = 0xFF then .nan else shiftV ((c : Int) - 127) e.1)

/-- The reference of element (i, j) of a tile (R120). -/
def proofRef (s : State) (p k kk : Nat) (o : ProofOp) (i j : Nat) : Word :=
  dotExact ((proofWeight s p k kk o j).zip (proofAct s p k kk o i))

/-- Row i of a tile's retained activations, quantised again to E4M3 for the FP8 rung (R125). -/
def proofQuant (s : State) (p k kk : Nat) (o : ProofOp) (i : Nat) : List Quantised := quantised 3 ((proofAct s p k kk o i).map toFp32)

/-- The FP8 rung of element (i, j): block sums with D = 35 and F = 6 (R125), and the window-loss events met. -/
def proofFp8 (s : State) (p k kk : Nat) (o : ProofOp) (i j : Nat) : Word × Nat :=
  let gs := proofQuant s p k kk o i
  let ws := groupsOf 32 ((proofCodes s p k kk o j).map (ofElem (weightFmt (cellMode s p k) (cellFlags s p k))))
  let q := ((gs.zip ws).zip (List.range gs.length)).foldl (fun q e =>
    takeFlags (blockSum 35 6 (proofScale s p k kk o j (32 * e.2))
      ((e.1.1.codes.zip e.1.2).map (fun x => { w := x.2, a := ofE4m3 x.1, scale := e.1.1.scale }))) q) ({} : Acc)
  (toFp32 (accValue q), q.events)

/-- The narrow result (i, j) of a tile. -/
def proofQ (s : State) (p k : Nat) (o : ProofOp) (i j : Nat) : Word := (bankWords s p k (o.qAddr + 4 * (o.cols * i + j)) 1).headD 0

/-- What a replay of row i of a tile reads. -/
def proofSpans (s : State) (p k kk : Nat) (o : ProofOp) (i : Nat) : List Span :=
  let f := cellFlags s p k
  let n := kk * elemBits (weightFmt (cellMode s p k) f)
  [(k, o.aAddr + 2 * kk * i, 2 * kk), (k, o.wAddr, o.cols * ceilDiv n (if bit f 0 then 16 else 8)),
   (k, o.wScale, if cellMode s p k = 3 then 4 * o.cols else o.cols * ceilDiv kk (scaleSpan s p k)),
   (k, o.metaAddr, if bit f 0 then o.cols * (kk / 8) else 0)]

/-- The rows of a tile, by number, whose share takes part. -/
def rowsIn (o : ProofOp) (gs : List ProofRow) : List Nat :=
  ((o.rows.zip (List.range o.rows.length)).filter (fun e => gs.contains e.1)).map (·.2)

/-- The Proof of a tile over the rows given (R121). -/
def proofOk (s : State) (p k : Nat) (l : LayerRec) (o : ProofOp) (rows : List Nat) : Bool :=
  proofPasses l.proofThr (rows.flatMap (fun i => (List.range o.cols).map (fun j => (proofQ s p k o i j, proofRef s p k l.reduction o i j))))

/-- Rows of a tile take the values of a rung: 1 FP8, whose conversions and losses are counted, 2 BF16. -/
def replayRows (p k rung : Nat) (l : LayerRec) (o : ProofOp) (rows : List Nat) (s : State) : State :=
  let kk := l.reduction
  let vals := rows.map (fun i => (i, (List.range o.cols).map (fun j =>
    if rung = 1 then proofFp8 s p k kk o i j else (proofRef s p k kk o i j, 0))))
  let gs := if rung = 1 then rows.flatMap (proofQuant s p k kk o) else []
  let s := forEach (fun e s => putWords p k (o.qAddr + 4 * o.cols * e.1) (proofSpans s p k kk o e.1) (e.2.map (·.1)) s) vals s
  countQuant p o.layer gs (modLayer p o.layer (addLoss o.rowTile o.colTile (sumOf (fun e => sumOf (·.2) e.2) vals)) s)

/-- A replay of a tile at a rung by the shares that pay: marks, counts, and the trace's WIDEN record. -/
def replayTile (p k rung : Nat) (l : LayerRec) (o : ProofOp) (tried paid : List ProofRow) (s : State) : State :=
  let rows := rowsIn o paid
  let exhausted := (rowsIn o (tried.filter (fun g => !paid.contains g))).length
  let s := replayRows p k rung l o rows s
  let s := forEach (markRow p 0) (paid.filter (fun g => o.rows.contains g)) s
  let s := modLayer p o.layer (fun c => { c with
    widenRows := sat 32 (c.widenRows + rows.length), exhRows := sat 32 (c.exhRows + exhausted) }) s
  let j := jobAt s (plateOf s p).job
  traceEvent j.ctx o.layer 0 j.id (.widen p rung (shownLayer s j.ctx p o.layer) o.rowTile o.colTile rows.length exhausted) (dedup' (o.rows.filterMap rowReq)) s

/-- Cycles of one row of one tile, as a quotient (Table 5.3): rung 0 a Proof, 1 FP8, 2 BF16. -/
def rowCycles (rung : Nat) (kept : Bool) (l : LayerRec) : Nat × Nat :=
  if rung = 1 then (l.reduction, 8) else if rung = 2 ∧ kept then (32, 1) else (l.reduction, 4)

/-- The charge of a rung for n rows of one tile (R127), at a clock in 0.5 MHz. -/
def tileCharge (rung : Nat) (kept : Bool) (l : LayerRec) (mhz n : Nat) : Nat :=
  let c := rowCycles rung kept l
  charge (2 * c.1) c.2 n mhz

/-- The charge of a rung of a replay of the whole layer for n rows: N/32 times that of one tile, computed afresh (R126, R127). -/
def layerCharge (rung : Nat) (l : LayerRec) (mhz n : Nat) : Nat :=
  let c := rowCycles rung false l
  charge (2 * c.1 * l.width) (32 * c.2) n mhz

/-! ## The tiles of a compute step (R119, R122, R123) -/

/-- Tile n of a plate's list changed by f. -/
def modTile (p n : Nat) (f : ProofTile → ProofTile) (s : State) : State :=
  modPlate p (fun q => { q with tiles := (q.tiles.zip (List.range q.tiles.length)).map (fun e => if e.2 = n then f e.1 else e.1) }) s

/-- Tile n of a plate's list. -/
def tileAt (s : State) (p n : Nat) : Option ProofTile := (plateOf s p).tiles[n]?

/-- r bits of an island's random stream are drawn: all of them are zero (R119). -/
def drawBits (n r : Nat) (s : State) : Bool × State :=
  let x := islOf s n
  ((List.range r).all (fun i => !Config.entropy x.seed (x.bitsDrawn + i)), modIsl n (fun x => { x with bitsDrawn := x.bitsDrawn + r }) s)

/-- References that the comparator of an island keeps (R122). -/
def keptOn (s : State) (p k : Nat) : Nat := ((plateOf s p).tiles.filter (fun t => t.isl == k && t.kept && t.stage != 4)).length

/-- The Proof of tile n has failed: its reference is kept while fewer than 16 are, else its rows go straight to BF16 (R122, R124). -/
def failTile' (p n : Nat) (s : State) : State :=
  match tileAt s p n with
  | none => s
  | some t =>
    let kept := decide (keptOn s p t.isl < 16)
    modTile p n (fun t => { t with kept := kept, stage := if cellMode s p t.isl = 1 ∧ kept then 1 else 3 })
      (modLayer p t.o.layer (fun c => { c with proofFail := sat 32 (c.proofFail + 1), proofFailed := true }) s)

/-- The Proof of tile n over the rows of its shares. -/
def proveTile (p n : Nat) (s : State) : State :=
  match tileAt s p n with
  | none => s
  | some t =>
    if proofOk s p t.isl (plateLayer s p t.o.layer) t.o (rowsIn t.o t.gs) then modTile p n (fun t => { t with stage := 4 }) s
    else failTile' p n s

/-- An island has completed an output tile: it is sampled at the layer's rate. A Proof at the base rate runs in the compute step, one at
a higher rate in a proof step (R119, R123). A layer in BF16_BF16 mode is not sampled (R120). -/
def newTile (p k : Nat) (o : ProofOp) (s : State) : State :=
  let l := plateLayer s p o.layer
  let c := mgetD (plateOf s p).layerCnt o.layer { r := l.proofBase }
  if cellMode s p k = 4 then s
  else
    let (hit, s) := drawBits (islId s p k) c.r s
    let n := (plateOf s p).tiles.length
    let t : ProofTile := { isl := k, o := o, sampled := hit }
    if !hit then modPlate p (fun q => { q with tiles := q.tiles ++ [t] }) s
    else
      let s := modLayer p o.layer (fun c => { c with proofs := sat 32 (c.proofs + 1), computed := true }) s
      let s := modPlate p (fun q => { q with tiles := q.tiles ++ [{ t with stage := 0, gs := sharesOf s o.rows }] }) s
      if c.r < l.proofBase then s else proveTile p n s

/-! ## What proof steps do (R123, R126, R129) -/

/-- A piece of work of a proof step, on a tile of the plate's list or on a layer. -/
inductive ProofAct where
  | prove (n : Nat) | fp8 (n : Nat) | again (n : Nat) | bf16 (n : Nat)
  | openLayer (layer : Nat) | layerRung (rung n : Nat) | reprove (layer : Nat) | layerProve (n : Nat) | closeLayer (layer : Nat)
  deriving DecidableEq, Repr

/-- A plate's tiles with their numbers, in ascending order of row tile, then column tile (R129). -/
def orderedTiles (s : State) (p : Nat) : List (Nat × ProofTile) :=
  let l := (plateOf s p).tiles
  sortBy (fun a b => decide (a.2.o.rowTile < b.2.o.rowTile) || (a.2.o.rowTile == b.2.o.rowTile && decide (a.2.o.colTile ≤ b.2.o.colTile)))
    ((List.range l.length).zip l)

/-- The next piece of work of a replay of a whole layer (R126). -/
def layerAct (s : State) (p layer : Nat) (l : List (Nat × ProofTile)) : ProofAct :=
  let of := l.filter (fun e => e.2.o.layer == layer)
  let ph := (mgetD (plateOf s p).layerCnt layer {}).replay
  let pick := fun (q : ProofTile → Bool) (f : Nat → ProofAct) (e : ProofAct) => match of.find? (fun x => q x.2) with | some x => f x.1 | none => e
  if ph = 0 then .openLayer layer
  else if ph = 1 then pick (fun t => t.rung == 0) (.layerRung 1) (.reprove layer)
  else if ph = 2 then pick (fun t => t.sampled && !t.again) .layerProve (.closeLayer layer)
  else if ph = 3 then pick (fun t => decide (t.rung < 2)) (.layerRung 2) (.closeLayer layer)
  else .closeLayer layer

/-- The next piece of work of a plate's proof steps: the Proofs above the base rate first, then the failures, each resolved in full
before the next, both in ascending order (R129; log entry 177). -/
def nextAct (s : State) (p : Nat) : Option ProofAct :=
  let l := orderedTiles s p
  match l.find? (fun e => e.2.stage == 0) with
  | some e => some (.prove e.1)
  | none => (l.find? (fun e => e.2.stage != 4)).map (fun e =>
      if bit (plateLayer s p e.2.o.layer).proofFlags 0 then layerAct s p e.2.o.layer l
      else if e.2.stage = 1 then .fp8 e.1 else if e.2.stage = 2 then .again e.1 else .bf16 e.1)

/-- Time of a rung over the rows of a tile in ns at the floor point. -/
def rungNs (s : State) (p : Nat) (t : ProofTile) (rung : Nat) (kept : Bool) : Nat :=
  let c := rowCycles rung kept (plateLayer s p t.o.layer)
  ceilDiv (2000 * c.1 * t.o.rows.length) (c.2 * floorMhz s (islId s p t.isl))

/-- Time of a piece of work in ns at the floor point; what firmware alone does takes none. -/
def actNs (s : State) (p : Nat) : ProofAct → Nat
  | .prove n => match tileAt s p n with | some t => rungNs s p t 0 false | none => 0
  | .fp8 n => match tileAt s p n with | some t => rungNs s p t 1 true | none => 0
  | .bf16 n => match tileAt s p n with | some t => rungNs s p t 2 t.kept | none => 0
  | .layerRung r n => match tileAt s p n with | some t => rungNs s p t r false | none => 0
  | .layerProve n => match tileAt s p n with | some t => rungNs s p t 0 false | none => 0
  | _ => 0

/-- A Proof above the base rate: the shares pay for it, and the rows of those that cannot are left out (R127, R128). -/
def chargedProof (p n : Nat) (t : ProofTile) (s : State) : State :=
  let l := plateLayer s p t.o.layer
  let r := (mgetD (plateOf s p).layerCnt t.o.layer { r := l.proofBase }).r
  let live := t.gs.filter (rowLive s)
  let rows := t.o.rows
  let mhz := floorMhz s (islId s p t.isl)
  let (gs, s) := payShares p (fun n => chargeProof (2 * l.reduction) r l.proofBase n mhz) rows live s
  let short := (rowsIn t.o (live.filter (fun g => !gs.contains g))).length
  proveTile p n (modTile p n (fun t => { t with gs := gs }) (modLayer p t.o.layer (fun c => { c with exhRows := sat 32 (c.exhRows + short) }) s))

/-- A failing tile goes up to a rung by itself: the shares that pay for it, and its stage then. -/
def climb (p n rung stage : Nat) (t : ProofTile) (s : State) : State :=
  let l := plateLayer s p t.o.layer
  let live := t.gs.filter (rowLive s)
  let mhz := floorMhz s (islId s p t.isl)
  let (paid, s) := payShares p (tileCharge rung t.kept l mhz) t.o.rows live s
  modTile p n (fun t => { t with gs := paid, stage := stage }) (replayTile p t.isl rung l t.o live paid s)

/-- The rows of a layer's tiles, each row tile once. -/
def layerRows (ts : List ProofTile) : List ProofRow :=
  (dedup' (ts.map (·.o.rowTile))).flatMap (fun x => match ts.find? (fun t => t.o.rowTile == x) with | some t => t.o.rows | none => [])

/-- The tiles of a layer. -/
def layerTiles (s : State) (p layer : Nat) : List ProofTile := (plateOf s p).tiles.filter (fun t => t.o.layer == layer)

/-- A replay of a whole layer pays for a rung, at the clock of the island of its first tile; gs are the shares that take part. -/
def payLayer (p layer rung : Nat) (gs : List ProofRow) (s : State) : State :=
  let ts := layerTiles s p layer
  let k := match ts.head? with | some t => t.isl | none => 0
  let mhz := floorMhz s (islId s p k)
  let (paid, s) := payShares p (layerCharge rung (plateLayer s p layer) mhz) (layerRows ts) (gs.filter (rowLive s)) s
  modLayer p layer (fun c => { c with paid := paid, replay := if rung = 1 then 1 else 3 }) s

/-- One tile of a replay of the whole layer: the rows of the shares that have paid, those without a live request left out. -/
def layerTile (p n rung : Nat) (t : ProofTile) (s : State) : State :=
  let paid := (mgetD (plateOf s p).layerCnt t.o.layer {}).paid.filter (rowLive s)
  modTile p n (fun t => { t with rung := rung }) (replayTile p t.isl rung (plateLayer s p t.o.layer) t.o (sharesOf s t.o.rows) paid s)

/-- A tile of a replayed layer is proved again: where it fails every tile of the layer goes on to BF16. -/
def layerAgain (p n : Nat) (t : ProofTile) (s : State) : State :=
  let paid := (mgetD (plateOf s p).layerCnt t.o.layer {}).paid.filter (rowLive s)
  let ok := proofOk s p t.isl (plateLayer s p t.o.layer) t.o (rowsIn t.o paid)
  let s := modTile p n (fun t => { t with again := true }) s
  if ok then s
  else payLayer p t.o.layer 2 paid (modLayer p t.o.layer (fun c => { c with proofFail := sat 32 (c.proofFail + 1), proofFailed := true }) s)

/-- A tile on the FP8 rung is proved again against its reference: where it fails it goes on to BF16. -/
def proveAgain (p n : Nat) (t : ProofTile) (s : State) : State :=
  let gs := t.gs.filter (rowLive s)
  if proofOk s p t.isl (plateLayer s p t.o.layer) t.o (rowsIn t.o gs) then modTile p n (fun t => { t with stage := 4 }) s
  else modTile p n (fun t => { t with stage := 3 })
    (modLayer p t.o.layer (fun c => { c with proofFail := sat 32 (c.proofFail + 1), proofFailed := true }) s)

/-- The replay of a layer is over: its tiles are resolved. -/
def closeLayer (p layer : Nat) (s : State) : State :=
  modLayer p layer (fun c => { c with replay := 4, paid := [] }) (modPlate p (fun q => { q with
    tiles := q.tiles.map (fun t => if t.o.layer = layer then { t with stage := 4 } else t) }) s)

/-- f on tile n, if the list has it. -/
def onTile (p n : Nat) (f : ProofTile → State → State) (s : State) : State := match tileAt s p n with | some t => f t s | none => s

/-- A piece of work is done. -/
def doAct (p : Nat) (a : ProofAct) (s : State) : State :=
  match a with
  | .prove n => onTile p n (chargedProof p n) s
  | .fp8 n => onTile p n (climb p n 1 2) s
  | .again n => onTile p n (proveAgain p n) s
  | .bf16 n => onTile p n (climb p n 2 4) s
  | .openLayer l =>
    let ts := layerTiles s p l
    let k := match ts.head? with | some t => t.isl | none => 0
    payLayer p l (if cellMode s p k = 1 then 1 else 2) (sharesOf s (layerRows ts)) s
  | .layerRung r n => onTile p n (layerTile p n r) s
  | .reprove l => modLayer p l (fun c => { c with replay := 2 }) s
  | .layerProve n => onTile p n (layerAgain p n) s
  | .closeLayer l => closeLayer p l s

/-- Pieces of work are done in order while they fit into b ns at the floor point; what the last one lacks is left to the next proof
step. -/
def runWork (p : Nat) : Nat → Nat → State → State
  | 0, _, s => s
  | fuel + 1, b, s =>
    match nextAct s p with
    | none => s
    | some a =>
      if actNs s p a ≤ b then runWork p fuel (b - actNs s p a) (doAct p a s)
      else modPlate p (fun q => { q with spent := b }) s

/-- A proof step works 50 µs at the floor point at most (R123). -/
def runProofs (p : Nat) (s : State) : State :=
  let q := plateOf s p
  runWork p (8 * (q.tiles.length + 1)) (50000 + q.spent) (modPlate p (fun q => { q with spent := 0 }) s)

/-! ## Epilogues (R140) -/

/-- One element's stages 1 to 3 before the gate. -/
def epiStages (s : State) (p k : Nat) (e : EpiOp) (j : Nat) (v : Word) : Word :=
  let col := fun a => (bankWords s p k (a + 4 * j) 1).headD 0
  let v := match e.colScale with | some a => fmul v (col a) | none => v
  match e.bias with | some a => fadd v (col a) | none => v

/-- The values an epilogue leaves, in FP32 before stage 7. -/
def epiValues (s : State) (p k : Nat) (e : EpiOp) : List Word :=
  let act := activation (fun n => plateTable s p n) e.act
  let xs := ((bankWords s p k e.src e.n).zip (List.range e.n)).map (fun x => epiStages s p k e x.2 x.1)
  let xs := if e.gate then gatePairs act xs else xs.map act
  let xs := match e.residual with
    | some (a, true) => List.zipWith fadd xs ((bankElems s p k 6 a xs.length).map (fun c => toFp32 (ofBf16 c)))
    | some (a, false) => List.zipWith fadd xs (bankWords s p k a xs.length)
    | none => xs
  match e.outScale with | some c => xs.map (fun v => fmul v c) | none => xs

/-- What an epilogue reads. -/
def epiSpans (k : Nat) (e : EpiOp) : List Span :=
  let n := if e.gate then e.n / 2 else e.n
  (k, e.src, 4 * e.n) :: ((e.colScale.toList ++ e.bias.toList).map (fun a => (k, a, 4 * e.n))
    ++ e.residual.toList.map (fun r => (k, r.1, (if r.2 then 2 else 4) * n)))

/-- An epilogue: stage 7 leaves FP32 (7), BF16 (6), or a quantised format. -/
def runEpilogue (p k : Nat) (e : EpiOp) (s : State) : State :=
  let xs := epiValues s p k e
  if 6 ≤ e.convert then putOut p k e.dst (epiSpans k e) (plainBytes e.convert xs) s
  else putQuant p k e.layer e.convert e.dst e.row e.stride e.last (epiSpans k e) xs s

/-! ## Attention (R141, R216, R218, R226 to R229) -/

/-- What an attention row sees of its sequence: VALID_LEN, WINDOW and the block-state words, of this chip's sequence or of one
published to it. -/
def rowSeq (s : State) (a : AttnRow) : Nat × Nat × List BlockState :=
  if a.home = ownLoc s then let q := seqOf s a.seq; (q.valid, q.window, q.blocks)
  else match pubOf s a.home a.seq with
    | some x => (x.valid, x.window, x.blocks)
    | none => (0, 0, [])

/-- A position is masked: at or beyond VALID_LEN, in an EVICTED block, or in a verify window behind the position that the row computes
(R218, R227, R229). -/
def masked (s : State) (a : AttnRow) (pos : Nat) : Bool :=
  let q := rowSeq s a
  decide (q.1 ≤ pos) || q.2.2.any (fun b => b.group == a.group && b.block == pos / 16 && b.evicted)
    || (decide (0 < q.2.1) && decide (a.query < pos))

/-- The scores of a row, −∞ at a masked position. -/
def rowScores (s : State) (p k src n : Nat) (a : AttnRow) : List Word :=
  ((bankWords s p k src n).zip (List.range n)).map (fun e => if masked s a (a.first + e.2) then 0xFF800000 else e.1)

/-- The position whose rows give the step's attention mass for a sequence, if the step gives any (R216). -/
def massPos (s : State) : Nat × WorkKind → Option (Nat × Nat × Nat)
  | (_, .head home q first n mode) => if mode = 0 then none else some (home, q, if mode = 1 then first + n - 1 else first)
  | (k, w) =>
    match mget s.srv.reqs k with
    | none => none
    | some r =>
      let q := seqOf s r.seq
      let pend := if r.pendingTok.isSome then 1 else 0
      let at' := fun p => some (ownLoc s, r.seq, p)
      match w with
      | .decode => at' q.committed
      | .verify _ => at' (q.committed + pend)
      | .prefill n => if q.tokens.length ≤ q.committed + n then at' (q.tokens.length - 1) else none
      | .score n => if q.tokens.length ≤ q.committed + n then at' (q.tokens.length - 1) else none
      | .recompute n => if droppedPositions s r.seq ≤ n then at' (q.committed - 1) else none
      | _ => none

/-- The weights of a row join the sums of its blocks, one after another in FP32. -/
def addWeights (l : List (Nat × Word)) (m : NMap Word) : NMap Word := l.foldl (fun m e => mset m (e.1 / 16) (fadd (mgetD m (e.1 / 16) 0) e.2)) m

/-- The mass of an attention row counts where the row computes the position that R216 names. -/
def noteMass (p : Nat) (a : AttnRow) (l : List (Nat × Word)) (s : State) : State :=
  modPlate p (fun q => { q with running := q.running.map (fun r =>
    if !r.work.any (fun w => massPos s w == some (a.home, a.seq, a.query)) then r
    else
      let mine := fun (m : Mass) => m.home == a.home && m.seq == a.seq && m.group == a.group
      let m := (r.mass.find? mine).getD { home := a.home, seq := a.seq, group := a.group }
      { r with mass := { m with rows := m.rows + 1, sums := addWeights l m.sums } :: r.mass.filter (fun m => !mine m) }) }) s

/-- An attention row: softmax over its scores, the output at dst, and its mass. -/
def runAttention (p k src dst width v n : Nat) (chunks : List (Nat × Nat)) (a : AttnRow) (s : State) : State :=
  let xs := rowScores s p k src n a
  let seen := (List.range n).filter (fun i => !masked s a (a.first + i))
  let vals := (List.range n).map (fun i => if masked s a (a.first + i) then List.replicate width (0 : Word) else bankWords s p k (v + 4 * width * i) width)
  let ws := softWeights (softRow chunks 0 (xs.map (fun x => (x, ([] : List Word))))) xs
  let from' := seen.flatMap (fun i => [(k, src + 4 * i, 4), (k, v + 4 * width * i, 4 * width)])
  noteMass p a (seen.map (fun i => (a.first + i, ws.getD i 0))) (putWords p k dst from' (attentionRow chunks width (xs.zip vals)) s)

/-! ## Sends on the plate's routes (R66, R77) -/

/-- The island of the plate to which a used route of island number k leads, and its class. -/
def routeEnd (s : State) (p k route : Nat) : Option (Nat × Nat) :=
  let m := (plateOf s p).image
  match (m.records[k]?).bind (fun r => r.routes[route]?) with
  | some e => (m.records.findIdx? (fun r => r.relX == e.relX && r.relY == e.relY)).map (fun i => (i, e.cls))
  | none => none

/-- n bytes go over a data route into the destination island's banks, poison with them (R40). -/
def runSend (p k route src dst n : Nat) (s : State) : State :=
  match routeEnd s p k route with
  | some (i, 0) => putOut p i dst [(k, src, n)] (readBank s p k src n) s
  | _ => s

/-- A control word over a control route signals an arrival counter of the destination island (R46). -/
def runSignal (p k route ctr inc : Nat) (s : State) : State :=
  match routeEnd s p k route with
  | some (i, 1) => signalCtr p i ctr inc s
  | _ => s

/-! ## The operations of a step -/

/-- DVA of row pos of the keys or values of a layer of a group of a sequence (R206, R208). -/
def kvRow (g : KvGeom) (k : KvRows) : Nat :=
  let tb := g.kBytes + g.vBytes
  let r := k.pos % pagePos g
  kvDva g k.seq k.group k.layer (k.pos / pagePos g) + r / 16 * (16 * tb) + (if k.value then 16 * g.kBytes + r % 16 * g.vBytes else r % 16 * g.kBytes)

/-- A step moves rows between the plate's banks and the KV range of a sequence (R205, R208): one tile for each block of 16 positions
that it touches. read: the KV rows are the source. -/
def postKv (p : Nat) : Nat → TileDesc → Bool → KvRows → State → State
  | 0, _, _, _, s => s
  | fuel + 1, d, read, k, s =>
    match (jobAt s (plateOf s p).job).kv with
    | none => plateFatal (plateOf s p).job p s
    | some g =>
      let n := min d.rows (16 - k.pos % 16)
      let a := kvRow g k
      let st := if k.value then g.vBytes else g.kBytes
      let last := decide (d.rows ≤ n)
      let e : TileDesc := { d with rows := n, sigValid := d.sigValid && last }
      let e : TileDesc := if read then { e with srcKind := 1, srcAddr := a, srcStride := st } else { e with dstKind := 1, dstAddr := a, dstStride := st }
      let s := postTile p (stepDeadline s p) e s
      if last then s
      else
        let d : TileDesc := { d with rows := d.rows - n }
        postKv p fuel (if read then { d with dstAddr := d.dstAddr + n * d.dstStride } else { d with srcAddr := d.srcAddr + n * d.srcStride }) read
          { k with pos := k.pos + n } s

/-- Requests whose output rows carry poison end with MEMORY_UNCORRECTABLE (R455). -/
def rowsOut (p k a n : Nat) (rows : List (Option Nat)) (s : State) : State :=
  forEach (fun q s => endReq false q .memoryUncorrectable s)
    (dedup' (((rows.zip (List.range rows.length)).filter (fun e => bankPoisoned s p k (a + e.2 * n) n)).filterMap (·.1))) s

/-- An uncorrectable scratchpad or cell error: the bytes are poison, and an island in which one recurs is fenced (R51, R455). -/
def runCellFault (p k a n : Nat) (fwd : Bool) (s : State) : State := cellError (islId s p k) fwd (poisonBank p k a n s)

/-- The island on which an operation runs. -/
def opIsl : StepOp → Option Nat
  | .dot k _ | .activate k _ | .tile k _ | .builtin k _ _ _ _ | .tableEval k _ _ _ _ | .lookup k _ _ _ | .epilogue k _
  | .softmax k _ _ _ _ | .attention k _ _ _ _ _ _ _ | .rms k _ _ _ _ _ _ | .skipCheck k _ _ | .send k _ _ _ _ | .signal k _ _ _ => some k
  | _ => none

/-- The operation's island has a program for the kind of the step (R76). -/
def takesPart (s : State) (p : Nat) (o : StepOp) : Bool :=
  match opIsl o, (plateOf s p).running with
  | some k, some r => (match (plateOf s p).isls[k]? with | some i => i.kinds.contains r.kind | none => false)
  | none, some _ => true
  | _, none => false

/-- One operation of a step on plate p. -/
def runOp (p : Nat) (o : StepOp) (s : State) : State :=
  match o with
  | .dot k d => runDot p k d s
  | .activate k a => runActivate p k a s
  | .tile k q => newTile p k q s
  | .builtin k f src dst n => putWords p k dst [(k, src, 4 * n)] ((bankWords s p k src n).map (builtin f)) s
  | .tableEval k slot src dst n => match plateTable s p slot with
    | some t => putWords p k dst [(k, src, 4 * n)] ((bankWords s p k src n).map (evalTable t)) s
    | none => s
  | .lookup k slot dst i => match plateTable s p slot with
    | some (.lookup m fmt oor c es rv) => writeBank p k dst (leBytes (lookupTable (.lookup m fmt oor c es rv) i) ((entryWidth fmt).getD 1)) s
    | _ => s
  | .epilogue k e => runEpilogue p k e s
  | .softmax k src dst n chunks => putWords p k dst [(k, src, 4 * n)] (softmaxRow chunks (bankWords s p k src n)) s
  | .attention k src dst width v n chunks a => runAttention p k src dst width v n chunks a s
  | .rms k mode src gain dst n eps =>
    let x := bankWords s p k src n
    let from' := [(k, src, 4 * n)]
    (match mode with
     | .norm => putWords p k dst ((k, gain, 4 * n) :: from') (rmsNorm x (bankWords s p k gain n) eps) s
     | .only => putWords p k dst from' [rmsRow x eps] s
     | .mean => putWords p k dst from' [meanRow x] s)
  | .skipCheck k a w =>
    let zero := fun a => match bankKey s p k a with | some x => s.fab.zeroBits.contains x | none => false
    if cellMode s p k != 4 && (zero a || zero w) then modPlate p (fun q => { q with skipped := sat 32 (q.skipped + 1) }) s else s
  | .send k route src dst n => runSend p k route src dst n s
  | .signal k route ctr inc => runSignal p k route ctr inc s
  | .moeDispatch layer toks => moeDispatch p layer toks s
  | .postTile d => postTile p (stepDeadline s p) d s
  | .postKv d read k => postKv p (d.rows / 16 + 2) d read k s
  | .postGather table bags isl ctr inc dst => postGather p table bags isl ctr inc dst s
  | .postColl key opcode b => postColl p (stepLc s p) key opcode b s
  | .postRemote ty pkt isl ctr inc dst =>
    issueRemote (plateOf s p).job { ty := ty, pkt := { pkt with lc := stepLc s p, vc := if stepLc s p then 1 else 4, epoch := stepEpoch s p }
                                    sentAt := s.time, job := 0, layer := stepLayer s p, plate := p, isl := isl, ctr := ctr, inc := inc, dst := dst } s
  | .expertRows layer x queue k dst => expertRows p layer x queue k dst s
  | .expertReturn layer x home slot choice k a => expertReturn p layer x home slot choice k a s
  | .expertDone layer x => expertDone p layer x s
  | .rowsOut k a n rows => rowsOut p k a n rows s
  | .cellFault k a n fwd => runCellFault p k a n fwd s
  | .tableFault _ => plateFatal (plateOf s p).job p s

/-- The layer that an operation belongs to, where its operands name one. -/
def opLayer : StepOp → Option Nat
  | .activate _ a => some a.layer
  | .tile _ o => some o.layer
  | .epilogue _ e => some e.layer
  | .moeDispatch l _ => some l
  | .expertRows l .. => some l
  | .expertReturn l .. => some l
  | .expertDone l _ => some l
  | _ => none

/-- The step on plate p now computes the layer of an operation (R422). -/
def noteLayer (p : Nat) (o : StepOp) (s : State) : State :=
  match opLayer o with
  | some l => modPlate p (fun q => { q with running := q.running.map (fun r => { r with layer := l }) }) s
  | none => s

/-- The operations of a step in the order issued, as long as it runs. -/
def runOps (p : Nat) (ops : List StepOp) (s : State) : State :=
  forEach (fun o s => if takesPart s p o then runOp p o (noteLayer p o s) else s) ops s

end Sys2Proof.Machine
end

