-- ==== Sys2Proof/Machine/Steps.lean ====
section
/-! DEFINITION. Steps: dispatch, boundary, watchdog (R47, R76 to R79, R313, R315), and what a boundary does to the
sequences, output records, layers and watches it concerns (chapters 5, 9, 11, 13 and 18). -/
namespace Sys2Proof.Machine

/-! ## Choosing a step (R76, R222, R313) -/

/-- Work for which steps still run: of a request that is accepted and not waiting for its end alone, or of a sequence that another home
chip has published to this one. -/
def liveWork (s : State) (w : Nat × WorkKind) : Bool :=
  match w.2 with
  | .head home q _ _ _ => (pubOf s home q).isSome
  | _ => match mget s.srv.reqs w.1 with | some r => r.st != .detected && r.st != .finishing | none => false

/-- Queued steps without the work of requests that have ended; a step left without any is not dispatched, but a proof step is. -/
def cleanQueue (s : State) (l : List Queued) : List Queued :=
  (l.filter (fun q => q.proof || q.work.isEmpty || q.work.any (liveWork s))).map (fun q => { q with work := q.work.filter (liveWork s) })

/-- A sequence of request k has dropped pages below its committed length (R222). -/
def needsRecompute (s : State) (w : Nat × WorkKind) : Bool :=
  match w.2, mget s.srv.reqs w.1 with
  | .head .., _ | .recompute _, _ => false
  | _, some r => r.hasSeq && decide (0 < droppedPositions s r.seq)
  | _, none => false

/-- The work is a recompute for request k. -/
def recomputes (k : Nat) (w : Nat × WorkKind) : Bool := w.1 == k && (match w.2 with | .recompute _ => true | _ => false)

/-- The queued step that firmware dispatches next on a plate: the first, or before it a recompute of a request of
its that has dropped pages (R222). -/
def nextStep (s : State) (p : Nat) : Option Queued :=
  let q := cleanQueue s (plateOf s p).queue
  match q.head? with
  | none => none
  | some h =>
    match h.work.find? (needsRecompute s) with
    | none => some h
    | some w => if h.proof then some h else q.find? (fun x => x.work.any (recomputes w.1))

/-- A recompute for request k is queued or runs on some plate. -/
def recomputing (s : State) (k : Nat) : Bool :=
  s.fab.plates.any (fun e => e.2.queue.any (fun q => q.work.any (recomputes k))
    || (match e.2.running with | some r => r.work.any (recomputes k) | none => false))

/-- The first run of dropped pages of entry i that follow each other: its first position and how many there are below COMMITTED_LEN,
as many whole pages as one step may take (R222, R224). -/
def dropRun (s : State) (i : Nat) : Nat × Nat :=
  let q := seqOf s i
  match (jobAt s q.job).kv with
  | none => (0, 0)
  | some g =>
    let ps := sortBy (fun a b => decide (a ≤ b)) (dedup' ((q.pages.filter (fun k => k.dropped)).map (·.page)))
    let run := ((ps.zip (List.range ps.length)).filter (fun e => e.1 == ps.headD 0 + e.2)).length
    let n := min run (65535 / pagePos g)
    let a := ps.headD 0 * pagePos g
    (a, min q.committed (a + n * pagePos g) - a)

/-- A recompute of the first run of dropped pages of request k goes to the front of the queue of the plate that last computed prompt
positions of its sequence, as the step kind that did (R222, log entry 182). -/
def queueRecompute (k : Nat) (s : State) : State :=
  match mget s.srv.reqs k with
  | none => s
  | some r =>
    match (seqOf s r.seq).fill with
    | none => s
    | some (p, kind) =>
      let q := plateOf s p
      if !(q.state == 2 || q.state == 3) || q.job != (seqOf s r.seq).job || recomputing s k then s
      else modPlate p (fun q => { q with
        queue := { kind := kind, seq := q.nextSeq, at' := s.time, work := [(k, .recompute (dropRun s r.seq).2)] } :: q.queue
        nextSeq := (q.nextSeq + 1) % 2 ^ 64 }) s

/-- Firmware dispatches no step of a request that waits for frames or for its output ring (R197, R272). An LC request waits for no
frames: they are tried for anew. -/
def workHeld (s : State) (q : Queued) : Bool :=
  q.work.any (fun w => match w.2, mget s.srv.reqs w.1 with
    | .head .., _ => false
    | _, some r => r.paused || (r.waitingBe && !isLc r)
    | _, none => false)

/-- Every counter target of a step kind is met (R76). -/
def targetsMet (s : State) (p kind : Nat) : Bool :=
  (plateOf s p).image.targets.all (fun t => t.1 != kind || decide (t.2.2.2 ≤ ctrValue s p t.2.1 t.2.2.1))

/-- Another plate runs a step on an island of plate p, so its slot cannot be made active (R57). -/
def slotTaken (s : State) (p : Nat) : Bool :=
  s.fab.plates.any (fun e => e.1 != p && e.2.running.isSome && e.2.isls.any (fun i => (plateOf s p).isls.any (fun k => k.isl == i.isl)))

/-- The request of a work item, if it is a request of this chip. -/
def workReq (s : State) (w : Nat × WorkKind) : Option Request :=
  match w.2 with
  | .head .. => none
  | _ => mget s.srv.reqs w.1

/-- The step serves an LC request. Attention for a sequence of another home chip counts as best-effort work: no rule gives a head chip
its class (log entry 183). -/
def queuedLc (s : State) (q : Queued) : Bool := q.work.any (fun w => match workReq s w with | some r => isLc r | none => false)

/-- Key of a job's entitlement on an island. -/
def entKey (i n : Nat) : Nat := i * 2048 + n

/-- Entitlement that job i has left on island n in this window, in ns: φ × 100 µs / 1,000 at its start (R313). -/
def entLeft (s : State) (i n : Nat) : Nat := mgetD s.fab.entitle (entKey i n) (100 * (jobAt s i).resv.lcShare)

/-- An LC step is drawn from the job's entitlement on every island of the plate (R313). -/
def entitled (s : State) (p : Nat) : Bool := (plateOf s p).isls.all (fun i => decide (0 < entLeft s (plateOf s p).job i.isl))

/-- Plate p may run steps at all. -/
def plateRuns (s : State) (p : Nat) : Bool :=
  let q := plateOf s p
  let j := jobAt s q.job
  decide (2 ≤ q.state) && q.running.isNone && decide (q.holdUntil ≤ s.time) && j.present && !j.torn && !j.frozen
    && !s.hi.fatalPending && !s.pw.clocksStopped && (s.pw.st == .run || s.pw.st == .idle)
    && q.isls.all (fun i => !(islOf s i.isl).testing && (islOf s i.isl).state != 2)

/-- A proof step runs once its plate is the first of the job whose steps have Proofs to resolve (R129). -/
def proofTurn (s : State) (p : Nat) (q : Queued) : Bool := !q.proof || (jobAt s (plateOf s p).job).proofs.head? == some p

/-- The queued step of plate p that could be dispatched now (R76, R313). -/
def eligible (s : State) (p : Nat) : Option Queued :=
  if !plateRuns s p || slotTaken s p then none
  else match nextStep s p with
    | none => none
    | some q =>
      if (q.proof || (targetsMet s p q.kind && !workHeld s q)) && proofTurn s p q && (if queuedLc s q then entitled s p else !rampFull s) then some q else none

/-- The order of R313 on an island: LC steps by earliest deadline, then BE steps by age. -/
def stepRank (s : State) (q : Queued) : Nat × Nat :=
  if queuedLc s q then
    (0, (q.work.filterMap (fun w => (workReq s w).bind (fun r => if isLc r then some r.h.deadline else none))).foldl min (2 ^ 64))
  else (1, q.at')

/-- A comes before b. -/
def rankBefore (a b : Nat × Nat) : Bool := decide (a.1 < b.1) || (a.1 == b.1 && decide (a.2 < b.2))

/-- A step of another plate that shares an island goes first. -/
def outranked (s : State) (p : Nat) (q : Queued) : Bool :=
  s.fab.plates.any (fun e => e.1 != p && e.2.isls.any (fun i => (plateOf s p).isls.any (fun k => k.isl == i.isl))
    && (match eligible s e.1 with | some x => rankBefore (stepRank s x) (stepRank s q) | none => false))

/-! ## Dispatch -/

/-- A token is pending whose position the next step commits: 1, else 0 (R251). -/
def pendingPos (r : Request) : Nat := if r.pendingTok.isSome then 1 else 0

/-- Positions that the work of a step computes: the sequence-table index, the first of them, how many, and whether they are a verify
window (R224). -/
def workSpan (s : State) (w : Nat × WorkKind) : Nat × Nat × Nat × Bool :=
  match w.2, mget s.srv.reqs w.1 with
  | .head _ q first n mode, _ => (q, first, n, mode == 3)
  | _, none => (0, 0, 0, false)
  | k, some r =>
    let c := (seqOf s r.seq).committed
    match k with
    | .prefill n | .score n => (r.seq, c, n, false)
    | .decode => (r.seq, c, 1, false)
    | .verify v => (r.seq, c, pendingPos r + v, true)
    | .recompute n => (r.seq, (dropRun s r.seq).1, n, false)
    | _ => (r.seq, 0, 0, false)

/-- Positions that a work item needs frames for. -/
def workPositions (s : State) (r : Request) (w : Nat × WorkKind) : Nat :=
  match w.2 with
  | .prefill _ | .score _ => (seqOf s r.seq).tokens.length
  | .recompute _ => (seqOf s r.seq).committed
  | .embed => 0
  | _ => let x := workSpan s w; x.2.1 + x.2.2.1

/-- Frames for a step's work, or its requests wait for them (R197, R222). -/
def ensureWork (l : List (Nat × WorkKind)) (s : State) : State :=
  forEach (fun w s => match workReq s w with
    | some r => if r.hasSeq then ensureOrWait w.1 (workPositions s r w) s else s
    | none => s) l s

/-- Positions that a step computes may be read from its dispatch: VALID_LEN covers them, and a verify step opens its window (R227,
R229). -/
def openWork (l : List (Nat × WorkKind)) (s : State) : State :=
  forEach (fun w s =>
    match workReq s w with
    | none => s
    | some r =>
      let x := workSpan s w
      let v := match w.2 with | .verify v => v | _ => 0
      if r.hasSeq then modSeq r.seq (fun q => { q with window := v, valid := max q.committed (x.2.1 + x.2.2.1) }) s else s) l s

/-- Requests whose step waits on a recompute carry KV_RECOMPUTED, and firmware queues it where none is (R222). -/
def markRecompute (p : Nat) (s : State) : State :=
  match (cleanQueue s (plateOf s p).queue).head? with
  | none => s
  | some h => forEach (fun w s => if needsRecompute s w then queueRecompute w.1 (modReq w.1 (setFlag 2) s) else s) h.work s

/-- The window of a verify step keeps to 16, to the request's SPEC_WINDOW and to MAX_POSITIONS (R227). -/
def clampWork (s : State) (w : Nat × WorkKind) : Nat × WorkKind :=
  match w.2, mget s.srv.reqs w.1 with
  | .verify v, some r => (w.1, .verify (min (min v 16) (min r.gen.specWindow
      (maxPositions (jobAt s (jobIdx r.h.job)) - (seqOf s r.seq).committed - pendingPos r))))
  | _, _ => w

/-! ## Buckets and length tables (R224, R225) -/

/-- Where firmware writes the length table of an attention step kind of a plate; none for another kind. -/
def attnPlace (s : State) (p kind : Nat) : Option (Nat × Nat) :=
  ((plateOf s p).image.attn.find? (fun a => a.1 == kind)).map (fun a => a.2)

/-- The bucket of a work item: the smallest bound that is at least its COMMITTED_LEN and its window. -/
def bucketOf (s : State) (bounds : List Nat) (w : Nat × WorkKind) : Nat :=
  let x := workSpan s w
  let n := match w.2, workReq s w with
    | .verify v, some r => (seqOf s r.seq).committed + v
    | _, some r => (seqOf s r.seq).committed
    | _, none => x.2.1 + (if x.2.2.2 then x.2.2.1 else 0)
  (bounds.filter (fun b => decide (n ≤ b))).headD (bounds.getLastD 0)

/-- The bounds that plate p reads at the job's BOUND_SLOT, for an attention step in BUCKETS mode. -/
def stepBounds (s : State) (p kind : Nat) : Option (List Nat) :=
  match (jobAt s (plateOf s p).job).kv, attnPlace s p kind with
  | some g, some _ => if g.ragged = 1 then (match plateTable s p g.boundSlot with | some (.lookup _ _ _ _ es _) => some es | _ => none) else none
  | _, _ => none

/-- An attention step takes the sequences of one bucket, that of its first; the others stay queued as a step of their own (log entry
184). -/
def oneBucket (p : Nat) (q : Queued) (s : State) : Queued × State :=
  match stepBounds s p q.kind with
  | none => (q, s)
  | some bs =>
    let b := fun w => bucketOf s bs w
    let same := fun w => match q.work.head? with | some h => b w == b h | none => true
    let rest := q.work.filter (fun w => !same w)
    if rest.isEmpty then (q, s)
    else ({ q with work := q.work.filter same }, modPlate p (fun x => { x with
      queue := x.queue ++ [{ kind := q.kind, seq := x.nextSeq, at' := q.at', work := rest }]
      nextSeq := (x.nextSeq + 1) % 2 ^ 64 }) s)

/-- Entry of the length table for a work item. -/
def lengthEntry (s : State) (w : Nat × WorkKind) : Nat :=
  let x := workSpan s w
  x.1 % 2 ^ 16 + x.2.1 % 2 ^ 24 * 2 ^ 16 + x.2.2.1 % 2 ^ 16 * 2 ^ 40 + (if x.2.2.2 then 2 ^ 56 else 0)

/-- The length table of a step is written before it is dispatched (R224). -/
def writeLengths (p : Nat) (q : Queued) (s : State) : State :=
  match (jobAt s (plateOf s p).job).kv, attnPlace s p q.kind with
  | some g, some (k, a) => if g.ragged = 0 then writeBank p k a (q.work.flatMap (fun w => leBytes (lengthEntry s w) 8)) s else s
  | _, _ => s

/-! ## Attention for sequences of other home chips (R212, R213, R226) -/

/-- Groups of a geometry that this chip serves. -/
def ownGroups (s : State) (g : KvGeom) : List Nat := ((groupChips g).filter (fun e => e.2 == s.id.slot)).map (·.1)

/-- The lengths of a published sequence as the work of a head step gives them: decode and verify steps begin at COMMITTED_LEN, a
prefill beyond what is committed, a recompute below it. -/
def headLens (first n mode : Nat) (x : Pub) : Pub :=
  if mode ≥ 2 ∨ x.committed ≤ first then { x with committed := first, valid := first + n, window := if mode = 3 then n else 0 } else x

/-- Pages and block states of a published sequence at or beyond its VALID_LEN go, before its next step (R228). -/
def trimHead (home i : Nat) (g : KvGeom) (s : State) : State :=
  match pubOf s home i with
  | none => s
  | some x =>
    let s := forEach (fun (k : KvPage) s => loseForeign home i k.group k.page s)
      (x.pages.filter (fun k => decide (x.committed ≤ k.page * pagePos g))) s
    modPub home i (fun x => { x with blocks := x.blocks.filter (fun b => decide (16 * b.block < x.committed)) }) s

/-- The frames of page q of group g of a published sequence, taken from partition pn and mapped in this chip's cached translations. -/
def headPage (pn home i : Nat) (geo : KvGeom) (g q : Nat) (s : State) : Option State :=
  match pubOf s home i with
  | none => none
  | some x =>
    (allocate false pn (.kv home i g q) .cached (kvMode geo) (geo.layers - heldBy s pn (.kv home i g q)) s).map (fun s =>
      let fs := match findObj s pn (.kv home i g q) with | some o => o.frames | none => []
      let s := forEach (fun e s => setLeaf (headCtx home x.ctx) (kvDva geo i g e.1 q / 65536) (leafWord s.id.slot e.2 (kvMode geo) true) s)
        ((List.range geo.layers).zip fs) s
      modPub home i (fun x => { x with pages := x.pages.filter (fun k => !(k.group == g && k.page == q)) ++ [{ group := g, page := q, frames := fs }] }) s)

/-- Page q of group g of a published sequence stands here, or all its blocks are EVICTED. -/
def headHas (s : State) (home i : Nat) (geo : KvGeom) (g q : Nat) : Bool :=
  match pubOf s home i with
  | none => false
  | some x => x.pages.any (fun k => k.group == g && k.page == q) || (List.range (pagePos geo / 16)).all (fun b =>
      x.blocks.any (fun w => w.group == g && w.block == q * (pagePos geo / 16) + b && w.evicted))

/-- HELD frames of the block-state words that this chip keeps for a published sequence (R215, log entry 57). -/
def headWords (pn home i n : Nat) (geo : KvGeom) (s : State) : State :=
  (allocate false pn (.blockState home i) .held 0 (wordFrames s geo n - heldBy s pn (.blockState home i)) s).getD s

/-- This chip has the frames that a head step writes; none while they are short. -/
def headFrames (p : Nat) (w : Nat × WorkKind) (s : State) : Option State :=
  match w.2, (jobAt s (plateOf s p).job).kv with
  | .head home i first n mode, some geo =>
    let pn := (jobAt s (plateOf s p).job).part
    let s := modPub home i (headLens first n mode) s
    let s := if mode ≥ 2 then trimHead home i geo s else s
    let ps := (List.range (ceilDiv (first + n) (pagePos geo))).filter (fun q => decide (first / pagePos geo ≤ q))
    (tryEach (fun e s => if headHas s home i geo e.1 e.2 then some s else headPage pn home i geo e.1 e.2 s)
      ((ownGroups s geo).flatMap (fun g => ps.map (fun q => (g, q)))) s).map (headWords pn home i (first + n) geo)
  | _, _ => some s

/-- Frames for the head work of a step, if it has any. -/
def headWork (p : Nat) (l : List (Nat × WorkKind)) (s : State) : Option State := tryEach (headFrames p) l s

/-- Step q is dispatched on plate p: its slot is active on every island, and it runs. -/
def startStep (p : Nat) (q : Queued) (s : State) : State :=
  let s := modPlate p (fun x => { x with
    queue := (cleanQueue s x.queue).filter (fun y => y.seq != q.seq)
    running := some { kind := q.kind, seq := q.seq, dispatch := s.time, tgen := x.tgen, work := q.work, lc := queuedLc s q, proof := q.proof } }) s
  let s := forEach (fun (i : PIsl) s => modIsl i.isl (fun x => { x with active := some p }) s) (plateOf s p).isls s
  { s with pw := { s.pw with lastBusy := s.time } }

/-- A compute step is dispatched: its length table is written, its positions may be read, and it issues its operations. -/
def computeStep (p : Nat) (q : Queued) (ops : List StepOp) (s : State) : State :=
  runOps p ops (openWork q.work (startStep p q (writeLengths p q s)))

/-- The step that is next on plate p is dispatched once its requests and the sequences of other home chips have their frames. -/
def dispatchStep (p : Nat) (q : Queued) (ops : List StepOp) (s : State) : State :=
  if q.proof then runProofs p (startStep p q s)
  else
    let q := { q with work := q.work.map (clampWork s) }
    let s := ensureWork q.work s
    if q.work.any (fun w => match workReq s w with | some r => r.waitingBe | none => false) then s
    else
      let (q, s) := oneBucket p q s
      match headWork p q.work s with
      | some s => computeStep p q ops s
      | none => s

/-- STEP_DISPATCH (R76): steps that firmware has planned join their queues; the next step of plate p is dispatched if
its conditions hold, and issues its operations. -/
def execStepDispatch (t plate : Nat) (ops : List StepOp) (plan : List QStep) (s : State) : Host.Outcome State Fault Refusal :=
  let s := markRecompute plate (queuePlan plan (tick t s))
  .next (match eligible s plate with
    | none => s
    | some q => if outranked s plate q then s else dispatchStep plate q ops s)

/-! ## Limits (R78) -/

/-- The largest ratio of floor to actual clock over a plate's islands, at least one, as a quotient. DESIGN CHOICE (log entry
160): where a clock changes within a step, the ratio at the moment of the boundary or of the watchdog counts (R78). -/
def slowest (s : State) (p : Nat) : Nat × Nat :=
  (plateOf s p).isls.foldl (fun m i =>
    let a := floorMhz s i.isl
    let b := max 1 (rateMhz s i.isl)
    if m.1 * b < a * m.2 then (a, b) else m) (1, 1)

/-- The overrun threshold T in ns, and that of a proof step (R123, log entry 178). -/
def overrunLimit (s : State) (p : Nat) (r : Running) : Nat :=
  (if r.proof then 50000 else (plateOf s p).image.longest) * (slowest s p).1 / (slowest s p).2

/-- The step has reached its watchdog limit W after d ns. -/
def watchdogReached (s : State) (p d : Nat) (proof : Bool) : Bool :=
  let r := slowest s p
  decide ((if proof then 500000 else min (11 * (plateOf s p).image.longest) 500000) * r.1 ≤ 10 * d * r.2)

/-- Time that a step of d ns takes beyond its job's entitlement on an island, and beyond T: the larger is overrun
(R315). -/
def stepOverrun (s : State) (p n d : Nat) (r : Running) : Nat :=
  max (if r.lc then d - entLeft s (plateOf s p).job n else 0) (d - overrunLimit s p r)

/-- d ns of island n are billed to job i: drawn from its entitlement there, and what goes beyond it carried as overrun (R74,
R315). -/
def billTime (i n d ov : Nat) (lc : Bool) (s : State) : State :=
  let left := entLeft s i n
  let s := { s with fab := { s.fab with
    entitle := if lc then mset s.fab.entitle (entKey i n) (left - d) else s.fab.entitle
    overrun := if ov = 0 then s.fab.overrun else madd s.fab.overrun (entKey i n) ov } }
  modJob i (fun j => { j with overrun := j.overrun + 256 * ov }) s

/-- A step's time is drawn from the entitlement, and its overrun carried, on each island of the plate. -/
def chargeTime (p d : Nat) (r : Running) (s : State) : State :=
  let i := (plateOf s p).job
  forEach (fun (x : PIsl) s => billTime i x.isl d (stepOverrun s p x.isl d r) r.lc s) (plateOf s p).isls s

/-! ## Records of a step (R79, R421, R422) -/

/-- Layers that the step has computed. -/
def stepLayers (s : State) (p : Nat) : List Nat := ((plateOf s p).layerCnt.filter (fun e => e.2.computed)).map (·.1)

/-- A step's island time and count go to its context's page and filter sets. -/
def countStep (p d : Nat) (s : State) : State :=
  let q := plateOf s p
  let j := jobAt s q.job
  let n := d * q.isls.length
  let layers := stepLayers s p
  modCtx j.ctx (fun x => { x with
    counters := bump64 x.counters 20 n
    filters := mmap x.filters (fun _ f =>
      if f.armed && (f.job == 0xFFFF || f.job == j.id) && (f.layer == 0xFFFF || layers.contains f.layer) then
        { f with counts := bump64 (bump64 f.counts 6 n) 7 1 } else f) }) s

/-- The requests of this chip that a step serves. -/
def workKeys (l : List (Nat × WorkKind)) : List Nat := (l.filter (fun w => match w.2 with | .head .. => false | _ => true)).map (·.1)

/-- The step record is written and goes to the job's trace. -/
def recordStep (p : Nat) (r : Running) (overrun aborted : Bool) (s : State) : State :=
  let j := jobAt s (plateOf s p).job
  let rec' : StepRec := {
    plate := p, kind := r.kind, overrun := overrun, aborted := aborted, tgen := r.tgen, seq := r.seq, dispatch := r.dispatch,
    boundary := s.time }
  traceEvent j.ctx 0 0 j.id (.step rec') (workKeys r.work) s

/-! ## Trouble (R118) -/

/-- A layer is evaluated once its outputs for a step are final. -/
def evaluate (l : LayerRec) (c : LayerCnt) : LayerCnt :=
  let trouble := decide (l.satThr < c.sat) || decide (l.ftzThr < c.ftz) || c.wl.any (fun e => decide (l.wlossThr < e.2)) || c.proofFailed
  let c := if trouble then { c with r := max l.proofMax (c.r - 2), clean := 0 }
    else if c.clean + 1 = 64 then { c with clean := 0, r := if c.r < l.proofBase then c.r + 1 else c.r }
    else { c with clean := c.clean + 1 }
  { c with sat := 0, ftz := 0, wl := [], proofFailed := false, computed := false, replay := 0, paid := [], steps := sat 32 (c.steps + 1) }

/-- Every layer that the step computed is evaluated, and its tiles are done with. -/
def evaluateLayers (p : Nat) (s : State) : State :=
  modPlate p (fun q => { q with tiles := [], spent := 0, layerCnt := mmap q.layerCnt (fun k c =>
    if c.computed then evaluate (((q.image.layers.find? (fun l => l.layerId == k)).getD {})) c else c) }) s

/-! ## Token records (R266 to R273) -/

/-- Bytes into which a token decodes in generation g of a model context's table. -/
def detokBytes (s : State) (mc g tok : Nat) : List Byte :=
  match (modelOf s mc).bind (fun m => m.detoks.find? (fun d => d.gen == g)) with
  | some d =>
    if d.image.vocab ≤ tok then []
    else
      let a := d.image.offsets.getD tok 0
      (d.image.pool.drop a).take (d.image.offsets.getD (tok + 1) 0 - a)
  | none => []

/-- The token is VOCAB or more in generation g. -/
def badToken (s : State) (mc g tok : Nat) : Bool :=
  match (modelOf s mc).bind (fun m => m.detoks.find? (fun d => d.gen == g)) with
  | some d => decide (d.image.vocab ≤ tok)
  | none => false

/-- Some string of the list equals the end of a tail. -/
def endsWith (strings : List (List Byte)) (tail : List Byte) : Bool :=
  strings.any (fun x => decide (x.length ≤ tail.length) && tail.drop (tail.length - x.length) == x)

/-- Bytes joining a tail of at most 32 until a stop string ends it: the tail, and whether one did. -/
def feedTail (strings : List (List Byte)) : List Byte → List Byte → List Byte × Bool
  | [], tail => (tail, false)
  | b :: l, tail =>
    let tail := (tail ++ [b]).drop (tail.length + 1 - 32)
    if endsWith strings tail then (tail, true) else feedTail strings l tail

/-- The stop check of R267 on a token at a position of its sequence: the REASON and the tail left. -/
def stopCheck (s : State) (r : Request) (tok pos : Nat) : Nat × List Byte :=
  if r.stops.contains tok then (1, r.tail)
  else
    let f := match r.detok with
      | some g => if r.strings.isEmpty then (r.tail, false) else feedTail r.strings (detokBytes s r.h.modelCtx g tok) r.tail
      | none => (r.tail, false)
    if f.2 then (2, f.1)
    else if r.outIdx + 1 = r.gen.maxOutput then (3, f.1)
    else if pos + 1 = maxPositions (jobAt s (jobIdx r.h.job)) then (4, f.1)
    else if isLc r && marginPassed s r then (5, f.1)
    else (0, f.1)

/-- An LC request is truncated: what it holds is discarded and its generation ends (R273). -/
def truncate (k : Nat) (s : State) : State :=
  modReq k (fun r => { r with held := [], spill := none, st := .finishing, endStatus := some .truncatedHostStall }) (freeDrawer k s)

/-- A record of request k is written, or held where its ring is full (R271 to R273). -/
def outToken (k : Nat) (r : Request) (t : TokRec) (s : State) : State :=
  let x := ctxOf s t.ctx
  let errored := !x.present || x.ringErr.contains t.ring
  if errored then s
  else if r.held.isEmpty && r.spill.isNone && decide (0 < ringRoom x t.ring) then
    modReq k (fun r => { r with delivered := r.delivered + 1 }) (putTok t s)
  else
    let keep := modReq k (fun r => { r with held := r.held ++ [t] })
    let full := fun s => if isLc r then truncate k s else modReq k (fun r => { r with spill := some t, paused := true }) s
    if r.drawer then (if r.held.length < 256 then keep s else full s)
    else
      let (ok, s) := takeHiDrawer s
      if ok then keep (modReq k (fun r => { r with drawer := true }) s) else full s

/-- Tokens of a step in output order, until one ends generation, or its request stops for a full drawer: how many
were recorded. -/
def deliver (k : Nat) : List (Nat × Word) → Nat → Nat → State → Nat × State
  | [], _, n, s => (n, s)
  | (tok, score) :: l, pos, n, s =>
    match mget s.srv.reqs k with
    | none => (n, s)
    | some r =>
      let (reason, tail) := stopCheck s r tok pos
      let s := match r.detok with
        | some g => if !r.stops.contains tok && badToken s r.h.modelCtx g tok then countPage r.h.ctx 22 1 s else s
        | none => s
      let s := modReq k (fun r =>
        let r := if reason = 5 then setFlag 6 r else r
        { r with tail := tail, outIdx := r.outIdx + 1
                 st := if reason = 0 then r.st else .finishing
                 endStatus := if reason = 0 then r.endStatus else some .complete }) s
      let s := outToken k r { ctx := r.h.ctx, ring := outRingOf r, token := tok, reqLo := r.h.reqId % 2 ^ 32, index := r.outIdx,
                              last := reason != 0, reason := reason, score := score } s
      match mget s.srv.reqs k with
      | none => (n + 1, s)
      | some r => if r.st = .finishing || r.paused then (n + 1, s) else deliver k l (pos + 1) (n + 1) s

/-! ## Sequences at a boundary (R217, R219, R222, R228, R251) -/

/-- Page p of group g of entry i is cleared and its frame freed; nothing will recompute it (R217, R228). -/
def freePage (i g p : Nat) (s : State) : State := losePage false i g p s

/-- The pending token's position is committed (R251). -/
def commitPending (k : Nat) (r : Request) (s : State) : State :=
  if r.pendingTok.isNone then s
  else modReq k (fun r => { r with pendingTok := none })
    (modSeq r.seq (fun q => { q with committed := q.committed + 1, valid := max q.valid (q.committed + 1) }) s)

/-- A token whose KV no step has yet computed is pending at index COMMITTED_LEN (R251). -/
def setPending (k i tok : Nat) (s : State) : State :=
  match mget s.srv.reqs k with
  | none => s
  | some _ =>
    let n := (seqOf s i).committed
    storeTokens i n (modReq k (fun r => { r with pendingTok := some tok })
      (modSeq i (fun q => { q with tokens := q.tokens.take q.committed ++ [tok] }) s))

/-- The verify result (R228): a window tokens are committed, the pages and block states beyond go. -/
def applyVerify (i a : Nat) (toks : List Nat) (s : State) : State :=
  let n := (seqOf s i).committed
  let s := storeTokens i n (modSeq i (fun q => { q with
    tokens := q.tokens.take q.committed ++ toks.take a
    committed := q.committed + a, valid := q.committed + a, window := 0 }) s)
  let q := seqOf s i
  match (jobAt s q.job).kv with
  | none => s
  | some geo =>
    let s := forEach (fun (k : KvPage) s => freePage i k.group k.page s) (q.pages.filter (fun k => decide (q.valid ≤ k.page * pagePos geo))) s
    modSeq i (fun q => { q with blocks := q.blocks.filter (fun b => decide (16 * b.block < q.valid)) }) s

/-- SCORE of a block. -/
def blockScore (q : Seq) (g b : Nat) : Nat := match q.blocks.find? (fun w => w.group == g && w.block == b) with | some w => w.score | none => 0

/-- A block is EVICTED. -/
def blockEvicted (q : Seq) (g b : Nat) : Bool := q.blocks.any (fun w => w.group == g && w.block == b && w.evicted)

/-- A block's EVICTED bit is set. -/
def evictBlock (g b : Nat) (q : Seq) : Seq :=
  let l := if q.blocks.any (fun w => w.group == g && w.block == b) then
      q.blocks.map (fun w => if w.group == g && w.block == b then { w with evicted := true } else w)
    else q.blocks ++ [{ group := g, block := b, evicted := true }]
  { q with blocks := l }

/-- Blocks are evicted until at most BUDGET_BLOCKS are kept: lowest SCORE first, then the lowest number (R217). -/
def budgetLoop (geo : KvGeom) (g : Nat) : Nat → Seq → Seq
  | 0, q => q
  | fuel + 1, q =>
    let kept := (List.range (ceilDiv q.valid 16)).filter (fun b => !blockEvicted q g b)
    if kept.length ≤ geo.budgetBlocks then q
    else
      let cs := kept.filter (fun b => decide (geo.sinkBlocks ≤ b) && decide (b + geo.recentBlocks < (q.committed - 1) / 16 + 1))
      match cs.foldl (fun best b => match best with
          | none => some b
          | some c => if blockScore q g b < blockScore q g c then some b else some c) none with
      | none => q
      | some b => budgetLoop geo g fuel (evictBlock g b q)

/-- Pages of a group whose block slots are all EVICTED or start at or beyond VALID_LEN (R217). -/
def spentPages (geo : KvGeom) (g : Nat) (pages : List KvPage) (q : Seq) : List KvPage :=
  let bp := pagePos geo / 16
  pages.filter (fun k => k.group == g && (List.range bp).all (fun b =>
    blockEvicted q g (k.page * bp + b) || decide (q.valid ≤ 16 * (k.page * bp + b))))

/-- Budget eviction after a decode or verify step, for each head group that this chip serves (R217); the chips that serve the others
run it for those. -/
def applyBudget (i : Nat) (s : State) : State :=
  match (jobAt s (seqOf s i).job).kv with
  | none => s
  | some geo =>
    if geo.budgetBlocks = 0 then s
    else forEach (fun g s =>
      let s := modSeq i (fun q => budgetLoop geo g (ceilDiv q.valid 16) q) s
      forEach (fun (k : KvPage) s => freePage i k.group k.page s) (spentPages geo g (seqOf s i).pages (seqOf s i)) s)
      (ownGroups s geo) s

/-- What budget eviction looks at, for a published sequence. -/
def pubSeq (x : Pub) : Seq := { committed := x.committed, valid := x.valid, blocks := x.blocks }

/-- A write of firmware to another chip's memory, on VC4 and with firmware's flow label: nothing waits for its answer (log entry 176). -/
def fwWrite (home a tag mc : Nat) (l : List Byte) (s : State) : State :=
  let key := home * 65536 + 0x400
  let q := mgetD s.xn.nextFseq key 0
  sendXn home 4 false (.write { src := ownLoc s, dst := home, vc := 4, flow := 0x400, fseq := q, tag := tag, modelCtx := mc,
                                addr := home * 2 ^ 41 + a, length := l.length, payload := l })
    { s with xn := { s.xn with nextFseq := mset s.xn.nextFseq key ((q + 1) % 65536) } }

/-- The entry of a page in its home chip's table is cleared by a write of firmware (R217), one for each layer whose level-2 entry this
chip has cached. -/
def clearRemote (home : Nat) (x : Pub) (geo : KvGeom) (i g q : Nat) (s : State) : State :=
  forEach (fun vpn s =>
    let w := entryAt s (headCtx home x.ctx) 2 (vpn / 32)
    if w = 0 then s
    else fwWrite home (bits w 40 8 * 256 + vpn % 32 * 8) (partOf s (jobAt s ((servingJob s x.mc).getD 0)).part).tag x.mc
      (List.replicate 8 0) s) (pageVpns geo i g q) s

/-- Budget eviction for a published sequence in the groups that this chip serves: a page that goes is cleared in its home chip's
table, invalidated on the board, and its frames are free (R211, R217). -/
def headBudget (home i : Nat) (geo : KvGeom) (s : State) : State :=
  if geo.budgetBlocks = 0 then s
  else forEach (fun g s =>
    let s := modPub home i (fun x => { x with blocks := (budgetLoop geo g (ceilDiv x.valid 16) (pubSeq x)).blocks }) s
    match pubOf s home i with
    | none => s
    | some x => forEach (fun (k : KvPage) s =>
        invalidate (ownFrames s k.frames) (dedup' (home % 8 :: otherHeads s geo))
          (loseForeign home i k.group k.page (clearRemote home x geo i k.group k.page s)))
        (spentPages geo g x.pages (pubSeq x)) s)
    (ownGroups s geo) s

/-! ## Scores (R216) -/

/-- i_b = ⌊m_b × 4,095 + 0.5⌋. -/
def massInc (m : Word) : Nat :=
  match ofFp32 m with
  | .num false a e => let q := scaleQ (a * 4095) 1 e; (2 * q.1 + q.2) / (2 * q.2)
  | _ => Config.massInc m

/-- SCORE after a step that gives a block mass m. -/
def nextScore (score : Nat) (m : Word) : Nat := min 0xFFFF (score - score / 16 + massInc m)

/-- The scores of a group's existing blocks, those that start below VALID_LEN, after a step with the mass given. -/
def scoreBlocks (valid : Nat) (m : Mass) (l : List BlockState) : List BlockState :=
  forEach (fun b l =>
    let w := (l.find? (fun (w : BlockState) => w.group == m.group && w.block == b)).getD { group := m.group, block := b }
    let n := nextScore w.score (fdiv (mgetD m.sums b 0) (natFp32 m.rows))
    if n = 0 && w.score = 0 && !w.evicted then l
    else l.filter (fun w => !(w.group == m.group && w.block == b)) ++ [{ w with score := n }]) (List.range (ceilDiv valid 16)) l

/-- The scores that a step's attention leaves, at its boundary. -/
def applyMass (r : Running) (s : State) : State :=
  forEach (fun (m : Mass) s =>
    if m.home = ownLoc s then modSeq m.seq (fun q => { q with blocks := scoreBlocks q.valid m q.blocks }) s
    else modPub m.home m.seq (fun x => { x with blocks := scoreBlocks x.valid m x.blocks }) s) r.mass s

/-- What a boundary does for the attention of a sequence of another home chip: a verify step's window is over, a decode step's position
is committed, and a budget is kept to. -/
def headBoundary (p home i first n mode : Nat) (s : State) : State :=
  let s := modPub home i (fun x => if mode = 3 then { x with committed := first, window := 0 }
    else { x with committed := max x.committed (first + n) }) s
  match (jobAt s (plateOf s p).job).kv with
  | some geo => if mode ≥ 2 then headBudget home i geo s else s
  | none => s

/-- n positions of dropped pages, lowest first, hold their KV again (R222). -/
def applyRecompute (i n : Nat) (s : State) : State :=
  match (jobAt s (seqOf s i).job).kv with
  | none => s
  | some geo =>
    let a := (dropRun s i).1 / pagePos geo
    modSeq i (fun q => { q with pages := q.pages.map (fun k =>
      if decide (a ≤ k.page) && decide (k.page < a + ceilDiv n (pagePos geo)) then { k with dropped := false } else k) }) s

/-! ## The work of a step at its boundary (R257) -/

/-- Rows that an item of work puts into its step: the positions that it computes, or the bags of an embedding request. -/
def workRows (s : State) (w : Nat × WorkKind) : Nat :=
  match w.2 with
  | .prefill n | .score n | .recompute n => n
  | .decode => 1
  | .verify v => v + (match mget s.srv.reqs w.1 with | some r => pendingPos r | none => 1)
  | .embed => (match mget s.srv.reqs w.1 with | some r => max 1 r.bags.length | none => 1)
  | .head _ _ _ n _ => n

/-- The share of an item of work in its step's island time, which is that of d ns on n islands, by its rows (R321), in 1/256,000
island-µs. -/
def rowShare (s : State) (l : List (Nat × WorkKind)) (d n : Nat) (w : Nat × WorkKind) : Nat :=
  256 * d * n * workRows s w / sumOf (workRows s) l

/-- Work done is deducted from a request's remaining demand, it its share of the step's island time; a demand never falls below
zero (R321). Marks that rows of other chips carried are folded into its flags (R130): bit 0 widened, bit 1 exhausted. -/
def deduct (it : Nat) (res : StepRes) (r : Request) : Request :=
  let r := { r with
    demI := r.demI - it, demM := r.demM - res.memBytes, demX := r.demX - res.xnBytes }
  let r := if res.slots.any (fun w => bit w 0) then setFlag 0 r else r
  if res.slots.any (fun w => bit w 1) then setFlag 1 r else r

/-- Remote demands fall with the island time of the step. -/
def deductRemote (j : Job) (it : Nat) (r : Request) : Request :=
  { r with demR := (r.demR.zip (j.resv.remotes.map (·.ratio) ++ List.replicate r.demR.length 0)).map (fun e => e.1 - it * e.2) }

/-- The tokens of a finished prefill, of a decode or of a verify step are checked and recorded, and the sequence
follows: a is how many of them are window tokens (R267, R268). -/
def takeTokens (k i a : Nat) (verify : Bool) (toks : List (Nat × Word)) (s : State) : State :=
  let (n, s) := deliver k toks (seqOf s i).committed 0 s
  let a := min a n
  let s := if verify then applyVerify i a (toks.map (·.1)) s else s
  if a < n then (match (toks.drop a).head? with | some t => setPending k i t.1 s | none => s) else s

/-- The last step of a SCORE writes its result (R257). -/
def scoreResult (k : Nat) (r : Request) (res : StepRes) (s : State) : State :=
  let data := res.result.take r.resultBytes
  let s := writeHost r.h.ctx r.resultAddr data r.h.job r.h.layerTag r.h.opTag s
  modReq k (fun r => { r with st := .finishing, endStatus := some .complete, bytesOut := data.length }) s

/-- n more positions of request k's prompt are committed. -/
def commitPrompt (i n : Nat) (s : State) : State :=
  modSeq i (fun q => { q with committed := min q.tokens.length (q.committed + n), valid := min q.tokens.length (q.committed + n) }) s

/-- The whole prompt is committed. -/
def promptDone (s : State) (i : Nat) : Bool := decide ((seqOf s i).tokens.length ≤ (seqOf s i).committed)

/-- The plate and step kind that compute prompt positions of entry i are remembered for a recompute (R222). -/
def noteFill (p kind i : Nat) (s : State) : State := modSeq i (fun q => { q with fill := some (p, kind) }) s

/-- What a boundary of a step of a kind on plate p does for one request, it its share of the island time. -/
def requestWork (p kind k it : Nat) (w : WorkKind) (res : StepRes) (s : State) : State :=
  match mget s.srv.reqs k with
  | none => s
  | some r =>
    let s := modReq k (fun r => deductRemote (jobAt s (jobIdx r.h.job)) it (deduct it res r)) s
    let i := r.seq
    let s := match w with
      | .prefill n =>
        let s := noteFill p kind i (commitPrompt i n s)
        if promptDone s i then takeTokens k i 0 false (res.tokens.take 1) (modReq k (fun r => { r with st := .decode }) s) else s
      | .decode => applyBudget i (takeTokens k i 0 false (res.tokens.take 1) (commitPending k r s))
      | .verify v => applyBudget i (takeTokens k i (min res.accepted v) true (res.tokens.take (min res.accepted v + 1)) (commitPending k r s))
      | .recompute n => applyRecompute i n s
      | .score n =>
        let s := noteFill p kind i (commitPrompt i n s)
        if res.last && promptDone s i then scoreResult k r res s else s
      | _ => s
    match mget s.srv.reqs k with
    | some r => if r.cancelled then endReq false k (if r.endStatus = some .resetAborted then .resetAborted else .cancelled) s
      else settleFinishing k s
    | none => s

/-- What a boundary does for one item of work. -/
def boundaryWork (p kind it : Nat) (w : Nat × WorkKind) (res : StepRes) (s : State) : State :=
  match w.2 with
  | .head home q first n mode => headBoundary p home q first n mode s
  | k => requestWork p kind w.1 it k res s

/-! ## Tensor watches (R429 to R431) -/

/-- Slices of a symbol that plate p holds at the boundary of a step kind. -/
def watchSlices (s : State) (p kind symbol : Nat) : List (Nat × Nat × Nat) :=
  match (plateOf s p).image.symbols.find? (fun x => x.symbolId == symbol) with
  | some x => (x.holds.filter (fun h => h.1 == kind)).map (fun h => (h.2.1, h.2.2.1, h.2.2.2))
  | none => []

/-- The bytes that a fired watch writes: header, directory, slices. -/
def watchBytes (s : State) (p : Nat) (r : Running) (w : Watch) : List Byte :=
  let sl := watchSlices s p r.kind w.b.symbolId
  let sym := ((plateOf s p).image.symbols.find? (fun x => x.symbolId == w.b.symbolId)).getD {}
  leBytes w.b.symbolId 4 ++ leBytes sym.format 1 ++ leBytes sym.rank 1 ++ leBytes sl.length 2 ++ leBytes r.seq 8
    ++ leBytes r.tgen 4 ++ leBytes 0 4 ++ leBytes s.time 8 ++ leBytes (sumOf (fun x => x.2.2) sl) 8 ++ leBytes 0 24
    ++ sl.flatMap (fun x => leBytes (islId s p x.1) 2 ++ leBytes x.2.2 6)
    ++ sl.flatMap (fun x => readBank s p x.1 x.2.1 x.2.2)

/-- Hold of a watch in ns: 5 µs and the tensor's bytes at 16 GB/s. -/
def watchHold (bytes : Nat) : Nat := 5000 + ceilDiv bytes 16

/-- Watch w of context c fires at plate p's boundary. -/
def fireWatch (c p : Nat) (r : Running) (w : Watch) (s : State) : State :=
  let i := (plateOf s p).job
  let h := watchHold w.bytes * (plateOf s p).isls.length
  let s := modJob i (fun j => if r.lc then { j with overrun := j.overrun + 256 * h } else { j with beCharge := j.beCharge + ceilDiv (256 * h) 1000 }) s
  let s := modPlate p (fun q => { q with holdUntil := max q.holdUntil (s.time + watchHold w.bytes) }) s
  let s := modCtx c (fun x => { x with watches := x.watches.erase w }) s
  let s := writeHost c w.b.bufAddr (watchBytes s p r w) w.job w.layerTag w.opTag s
  let s := traceEvent c w.layerTag w.opTag w.job (.watch w.reqId w.b.symbolId w.bytes r.seq) [] s
  final { ctx := c, ring := 9, reqId := w.reqId, irq := w.irq } .complete w.bytes 0 s

/-- The watch qualifies at this boundary; on an LC step it fires only where every accepted LC request of the job
still fits (R430). -/
def watchFires (s : State) (p : Nat) (r : Running) (w : Watch) : Bool :=
  let i := (plateOf s p).job
  w.job == (jobAt s i).id && w.b.plate == p && w.b.stepKind == r.kind && decide (w.b.fromSeq ≤ r.seq)
    && (!r.lc || supplyOk s i s.time (byDeadline (lcOf s i)) ((jobAt s i).overrun + 256 * watchHold w.bytes * (plateOf s p).isls.length) 0 0 [])

/-- Watches on plate p that fire at this boundary, in the order armed. -/
def runWatches (p : Nat) (r : Running) (s : State) : State :=
  let c := (jobAt s (plateOf s p).job).ctx
  forEach (fun w s => if watchFires s p r w then fireWatch c p r w s else s) (ctxOf s c).watches s

/-! ## Boundary and watchdog -/

/-- A step that reaches its watchdog limit is aborted: the plate's slots and banks are discarded and its job is torn
down (R78); its removal completes an armed swap, and a reload not yet armed ends with the job (Table 3.13). -/
def abortStep (p : Nat) (r : Running) (s : State) : State :=
  let i := (plateOf s p).job
  let j := jobAt s i
  let s := countStep p (s.time - r.dispatch) s
  let s := recordStep p r false true s
  let s := coffer 0 3 .watchdog p j.id j.mc 0 s
  teardownJob false i .jobTornDown (removePlate false p .jobTornDown (endReloads false false i s))

/-- Results of the step by request. -/
def resOf (res : List StepRes) (k : Nat) : StepRes := (res.find? (fun x => x.req == k)).getD {}

/-- A proof step for the compute step that has ended goes before the plate's next queued step (R123): its kind, and the requests that
still run. -/
def queueProof (p : Nat) (r : Running) (s : State) : State :=
  modPlate p (fun q => { q with
    queue := { kind := r.kind, seq := q.nextSeq, at' := s.time, work := r.work, proof := true } :: q.queue
    nextSeq := (q.nextSeq + 1) % 2 ^ 64 }) s

/-- Plate p joins the plates of its job whose Proofs are to be resolved, in the order of their boundaries (R129), or leaves them. -/
def proofPlates (p : Nat) (f : List Nat → List Nat) (s : State) : State :=
  modJob (plateOf s p).job (fun j => { j with proofs := f j.proofs }) s

/-- After a step: its Proofs and replays that remain are resolved in proof steps; without any, its layers are evaluated. -/
def settleProofs (p : Nat) (r : Running) (s : State) : State :=
  if (nextAct s p).isSome then queueProof p r (proofPlates p (fun l => l.filter (· != p) ++ [p]) s)
  else evaluateLayers p (proofPlates p (fun l => l.filter (· != p)) s)

/-- After a proof step: another where work is left, or the end of the compute step's Proofs. -/
def nextProof (p : Nat) (r : Running) (s : State) : State :=
  if (nextAct s p).isSome then queueProof p r s else evaluateLayers p (proofPlates p (fun l => l.filter (· != p)) s)

/-- The requests of a step are served, and the plate's watches and table swaps follow. -/
def serveStep (p : Nat) (r : Running) (res : List StepRes) (s : State) : State :=
  let it := rowShare s r.work (s.time - r.dispatch) (plateOf s p).isls.length
  let s := forEach (fun w s => boundaryWork p r.kind (it w) w (resOf res w.1) s) r.work (applyMass r s)
  leaveCommit p (swapAt p (runWatches p r s))

/-- The step has ended: its time is charged and recorded, its Proofs are resolved or put into proof steps, its requests served, its
plate's table swaps applied. -/
def endStep (p : Nat) (r : Running) (res : List StepRes) (s : State) : State :=
  let d := s.time - r.dispatch
  let i := (plateOf s p).job
  let s := recordStep p r (decide (overrunLimit s p r < d)) false (countStep p d s)
  let s := applyPending p (modPlate p (fun q => { q with running := none }) (chargeTime p d r s))
  let s := if r.proof then leaveCommit p (nextProof p r s) else serveStep p r res (settleProofs p r s)
  settleJob false i s

/-- STEP_BOUNDARY (R47): the running step of the plate ends, or is aborted where it has reached its watchdog limit. -/
def execStepBoundary (t plate : Nat) (res : List StepRes) (plan : List QStep) (s : State) : Host.Outcome State Fault Refusal :=
  let s := tick t s
  .next (match (plateOf s plate).running with
    | none => s
    | some r =>
      if watchdogReached s plate (s.time - r.dispatch) r.proof then abortStep plate r s
      else queuePlan plan (endStep plate r res s))

/-- STEP_WATCHDOG (R78): it acts once the running step has reached its limit W. -/
def execStepWatchdog (t plate : Nat) (s : State) : Host.Outcome State Fault Refusal :=
  let s := tick t s
  .next (match (plateOf s plate).running with
    | none => s
    | some r => if watchdogReached s plate (s.time - r.dispatch) r.proof then abortStep plate r s else s)

end Sys2Proof.Machine
end

