-- ==== Sys2Proof/Machine/Jobs.lean ====
section
/-! DEFINITION. Jobs: admission with its remote claims, JOB_END and JOB_TEARDOWN (R306 to R311). -/
namespace Sys2Proof.Machine

/-! ## Well-formed reservations (Tables 9.1 and 13.1) -/

/-- A channel entry (R193). -/
def chanOk (c : ChanEntry) : Bool := (c.cls == 1 || c.cls == 2) && decide (c.reserve ≤ 512) && !c.rsvd && (c.cls != 1 || decide (16 ≤ c.reserve))

/-- Key or value bytes of a position. -/
def kvBytesOk (n : Nat) : Bool := decide (32 ≤ n ∧ n ≤ 2048) && n % 32 == 0

/-- RAGGED agrees with the span of the model context's newest released epoch, where there is one (R223). -/
def raggedOk (s : State) (mc : Nat) (g : KvGeom) : Bool :=
  match (modelOf s mc).bind newestEpoch with
  | some e => (g.ragged == 0) == decide (e.m.chips.length ≤ 8)
  | none => true

/-- A KV geometry record obeys R207. -/
def kvOk (g : KvGeom) : Bool :=
  decide (1 ≤ g.layers ∧ g.layers ≤ 512) && (g.headGroups == 1 || g.headGroups == 2 || g.headGroups == 4 || g.headGroups == 8)
    && (g.kvFormat == 3 || g.kvFormat == 4 || g.kvFormat == 6) && kvBytesOk g.kBytes && kvBytesOk g.vBytes
    && decide (16 ≤ g.maxPositions ∧ g.maxPositions ≤ 2 ^ 24) && g.maxPositions % 16 == 0
    && decide (g.sinkBlocks ≤ 64) && decide (1 ≤ g.recentBlocks ∧ g.recentBlocks ≤ 255)
    && (g.budgetBlocks == 0 || decide (g.sinkBlocks + g.recentBlocks ≤ g.budgetBlocks))
    && (if g.ragged = 0 then g.boundSlot == 0xFF else g.ragged == 1 && decide (g.boundSlot ≤ 15))
    && g.headChips.length == 8 && (g.headChips.take g.headGroups).all (fun c => decide (c < 8))
    && (g.headChips.drop g.headGroups).all (fun c => c == 0xFF)
    && decide (g.maxPositions ≤ 2 ^ 31 / layersP g / 65536 * pagePos g) && !g.rsvd

/-- A reservation record obeys Table 13.1. -/
def resvOk (r : Reservation) : Bool :=
  r.magicOk && r.format == 1 && !r.flagRsvd && !r.rsvd && r.unusedZero
    && decide (1 ≤ r.footprint ∧ r.footprint ≤ 1200) && decide (r.lcShare ≤ 970) && (decide (r.widen ≤ 500) || r.widen == 0xFFFF)
    && decide (r.channels ≤ 8) && r.chans.length == r.channels && r.chans.all chanOk
    && decide (r.remoteCount ≤ 16) && r.remotes.length == r.remoteCount && r.remotes.all (fun e => decide (e.loc < 128) && !e.rsvd)

/-- The record, its size and the KV geometry record beside it are well formed (R307, R207). -/
def admitOk (s : State) (mc resvSize kvAddr : Nat) (resv : Option Reservation) (kv : Option KvGeom) : Bool :=
  resvSize == 256 && (match resv with
    | none => false
    | some r => resvOk r && r.hasKv == (kvAddr != 0)
      && (!r.hasKv || (match kv with | some g => kvOk g && raggedOk s mc g | none => false)))

/-! ## Room for a job (R311) -/

/-- Jobs that hold an index: resident, or waiting for their claims. -/
def jobTaken (s : State) (i : Nat) : Bool := (jobAt s i).present || (jobAt s i).pendingAdmit

/-- The lowest free job index. -/
def freeJob (s : State) : Option Nat := (List.range 16).find? (fun i => !jobTaken s i)

/-- Free channels among 0 to 59, lowest first. -/
def freeChans (s : State) : List Nat := (List.range 60).filter (fun n => (chanOf s n).cls == 0)

/-- Sum over the jobs of the chip that hold an index. -/
def overJobs (f : Reservation → Nat) (s : State) : Nat :=
  sumOf (fun j => if j.2.present || j.2.pendingAdmit then f j.2.resv else 0) s.srv.jobs

/-- Unfenced islands. -/
def unfenced (s : State) : Nat := (allIslands.filter (fun n => !fenced s n)).length

/-- The chip sums of R311 and R353 hold with one more reservation. -/
def sumsHold (s : State) (r : Reservation) : Bool :=
  let b := s.fab.bg
  decide (overJobs (fun q => q.lcShare * q.footprint) s + r.lcShare * r.footprint ≤ (980 - b) * unfenced s)
    && decide ((overJobs (·.lcMem) s + r.lcMem) * 1000 ≤ 5896000 * (1000 - b))
    && decide ((overJobs (·.lcXn) s + r.lcXn) * 3200 ≤ 70 * min (xnCap s) 48000 * (1000 - b))

/-- A full self-test runs (R328). -/
def fullTest (s : State) : Bool := s.ops.live.any (fun o => o.2.code == 0x42)

/-- What is checked of JOB_ADMIT before its buffers are read. -/
def admitPre (s : State) (h : Hdr) : Option Status :=
  firstOf [shapeCheck s h { rings := [2], mc := true } false, mcCheck s h,
    failIf (s.pw.st == .halted) .coolantStop, powerCheck s, failIf (fullTest s) .busy]

/-- Table 13.2 up to the remote claims. -/
def admitCheck (s : State) (h : Hdr) (resvSize kvAddr : Nat) (resv : Option Reservation) (kv : Option KvGeom) : Option Status :=
  let r := resv.getD {}
  firstOf [failIf (!admitOk s h.modelCtx resvSize kvAddr resv kv) .malformed,
    failIf (freeJob s).isNone .resourceExhausted,
    failIf (decide ((freeChans s).length < r.channels) || decide (7168 < sumReserves s + sumOf (·.reserve) r.chans)) .resourceExhausted,
    failIf (decide (r.lcShare * r.footprint < 10 * r.serve)) .malformed,
    failIf (!sumsHold s r) .resourceExhausted]

/-! ## Admission -/

/-- The job ID of an index: its generation rises at each use of the index (R306). -/
def nextJobId (s : State) (i : Nat) : Nat :=
  let g := mgetD s.srv.jobGen i 0
  (if g = 0xFFF then 1 else g + 1) * 16 + i

/-- A job that fails its admission leaves nothing behind: claims granted, and claims not answered yet, are released, its index
and channels freed. -/
def failAdmit (i : Nat) (st : Status) (s : State) : State :=
  let j := jobAt s i
  let s := forEach (fun (e : RemoteEntry × Nat) s =>
    if e.2 = 0 && !j.asked.contains e.1.loc then s else sendXn e.1.loc 0 false (.claimRelease j.mc e.1.claim) s)
    (j.resv.remotes.zip j.granted) s
  let s := { s with
    srv := { s.srv with jobs := mdel s.srv.jobs i }
    mem := { s.mem with chans := s.mem.chans.filter (fun c => c.2.cls == 3 || c.2.job != i || c.2.cls == 0) } }
  final j.cmd st 0 0 s

/-- Every claim is granted: the job is resident, and its ID reported (R308). -/
def finishAdmit (i : Nat) (s : State) : State :=
  let j := jobAt s i
  let s := modJob i (fun j => { j with present := true, pendingAdmit := false }) s
  let s := { s with srv := { s.srv with jobGen := mset s.srv.jobGen i (j.id / 16) } }
  let s := leaveIdle { s with pw := { s.pw with lastBusy := s.time } }
  final j.cmd .complete j.id 0 s

/-- The job takes its channels. -/
def takeChans (i : Nat) (r : Reservation) (s : State) : State :=
  forEach (fun (e : (ChanEntry × Nat) × Nat) s =>
    modChan e.1.2 (fun _ => { cls := e.1.1.cls, job := i, localIdx := e.2, reserve := e.1.1.reserve }) s)
    ((r.chans.zip (freeChans s)).zip (List.range r.chans.length)) s

/-- DESIGN CHOICE (log entry 154): JOB_ADMIT issued on the admin context is admitted, its partition being the admin partition.
A job with this reservation begins: its remote claims go out, and it is admitted once all are granted. -/
def startAdmit (h : Hdr) (r : Reservation) (kv : Option KvGeom) (i : Nat) (s : State) : State :=
  let shares := match kv with
    | some g => forEach (fun c m => mset m c (g.kvGrant / 8)) (g.headChips.take g.headGroups) ([] : NMap Nat)
    | none => []
  let j : Job := {
    pendingAdmit := true, cmd := cmdOf h, id := nextJobId s i, ctx := h.ctx, part := ctxPart s h.ctx, mc := h.modelCtx
    resv := r, kv := kv, shareFree := shares, granted := r.remotes.map (fun _ => 0), asked := r.remotes.map (·.loc), askTime := s.time
    serveReserve := 256 * r.lcShare * r.footprint * widenOf r / 10000 }
  let s := takeChans i r { s with srv := { s.srv with jobs := mset s.srv.jobs i j } }
  let s := forEach (fun (e : RemoteEntry) s => sendXn e.loc 0 false (.claim h.modelCtx e.claim) s) r.remotes s
  if r.remotes.isEmpty then finishAdmit i s else s

/-- The buffers of JOB_ADMIT are read: the reservation record of 256 bytes, and the geometry record that it calls for. -/
def readAdmit (h : Hdr) (resvAddr resvSize : Nat) (resv : Option Reservation) (kvAddr : Nat) (s : State) : State :=
  if resvSize != 256 then s
  else
    let s := readHost h.ctx resvAddr 256 h.job h.layerTag h.opTag s
    if kvAddr != 0 && (resv.getD {}).hasKv then readHost h.ctx kvAddr 64 h.job h.layerTag h.opTag s else s

/-- JOB_ADMIT (R308). -/
def execJobAdmit (t : Nat) (h : Hdr) (resvAddr resvSize : Nat) (resv : Option Reservation) (kvAddr : Nat) (kv : Option KvGeom) (s : State) :
    Host.Outcome State Fault Refusal :=
  .next (command t h (fun s =>
    match admitPre s h with
    | some st => final (cmdOf h) st 0 0 s
    | none =>
      let s := readAdmit h resvAddr resvSize resv kvAddr s
      match admitCheck s h resvSize kvAddr resv kv, freeJob s with
      | some st, _ => final (cmdOf h) st 0 0 s
      | none, none => final (cmdOf h) .resourceExhausted 0 0 s
      | none, some i => startAdmit h (resv.getD {}) (if kvAddr = 0 then none else kv) i s) s)

/-! ## Claims (R309) -/

/-- The unclaimed SERVE of a job. -/
def unclaimed (j : Job) : Nat := j.resv.serve - claimedServe j

/-- CLAIM: the serving job of the model context grants it from its unclaimed SERVE, or it is refused. -/
def execClaim (t src mc amount : Nat) (s : State) : Host.Outcome State Fault Refusal :=
  let s := tick t s
  .next (match servingJob s mc with
    | some i =>
      if amount ≤ unclaimed (jobAt s i) then
        sendXn src 0 false (.claimAnswer true) (modJob i (fun j => { j with claimed := j.claimed ++ [(src, amount)] }) s)
      else sendXn src 0 false (.claimAnswer false) s
    | none => sendXn src 0 false (.claimAnswer false) s)

/-- The first claim on a chip that has not been granted is. -/
def grantFirst (src : Nat) : List (RemoteEntry × Nat) → List Nat
  | [] => []
  | (e, g) :: l => if e.loc = src ∧ g = 0 then (if e.claim = 0 then g else e.claim) :: l.map (·.2) else g :: grantFirst src l

/-- CLAIM_ANSWER: a chip that was asked answers; the job whose claims are all granted is admitted, one refused fails. -/
def execClaimAnswer (t src job : Nat) (granted : Bool) (s : State) : Host.Outcome State Fault Refusal :=
  let s := tick t s
  let i := jobIdx job
  let j := jobAt s i
  .next (if !j.pendingAdmit || j.id != job || !j.asked.contains src then s
    else if !granted then failAdmit i .resourceExhausted (modJob i (fun j => { j with asked := j.asked.erase src }) s)
    else
      let s := modJob i (fun j => { j with asked := j.asked.erase src, granted := grantFirst src (j.resv.remotes.zip j.granted) }) s
      if (jobAt s i).asked.isEmpty then finishAdmit i s else s)

/-- CLAIM_TIMEOUT: no answer within 5 ms fails JOB_ADMIT. -/
def execClaimTimeout (t job : Nat) (s : State) : Host.Outcome State Fault Refusal :=
  let s := tick t s
  let j := jobAt s (jobIdx job)
  .next (if j.pendingAdmit && j.id == job && decide (j.askTime + 5000000 ≤ s.time) then failAdmit (jobIdx job) .resourceExhausted s else s)

/-- CLAIM_RELEASE: the amount returns to the serving job's unclaimed SERVE. -/
def execClaimRelease (t src mc amount : Nat) (s : State) : Host.Outcome State Fault Refusal :=
  let s := tick t s
  .next (match servingJob s mc with
    | some i => modJob i (fun j => { j with claimed := j.claimed.erase (src, amount) }) s
    | none => s)

/-! ## JOB_END and JOB_TEARDOWN (R310) -/

/-- Plates of a job that are between steps and that no accepted request needs are removed (R75). -/
def drainJob (i : Nat) (s : State) : State :=
  { s with fab := { s.fab with plates := mmap s.fab.plates (fun _ p => if p.job == i && p.state == 2 then { p with state := 3 } else p) } }

/-- A command tears job i down and completes with it (R352). -/
def teardownBy (i : Nat) (c : Cmd) (s : State) : State :=
  let s := modJob i (fun j => { j with teardowns := j.teardowns ++ [c] }) s
  if (jobAt s i).torn then settleJob false i s else teardownJob false i .jobTornDown s

/-- JOB_END: the job drains, and the command completes when its last plate is removed; it joins a teardown or another
JOB_END already under way. -/
def execJobEnd (t : Nat) (h : Hdr) (s : State) : Host.Outcome State Fault Refusal :=
  .next (command t h (fun s =>
    let i := jobIdx h.job
    match firstOf [shapeCheck s h { rings := [2], job := true } false, jobCheck s h] with
    | some st => final (cmdOf h) st 0 0 s
    | none =>
      if (jobAt s i).frozen then teardownBy i (cmdOf h) s
      else settleJob false i (drainJob i (modJob i (fun j => { j with draining := true, ends := j.ends ++ [cmdOf h] }) s))) s)

/-- JOB_TEARDOWN: an admin command on any job of the chip. -/
def execJobTeardown (t : Nat) (h : Hdr) (s : State) : Host.Outcome State Fault Refusal :=
  .next (command t h (fun s =>
    let i := jobIdx h.job
    match firstOf [shapeCheck s h { rings := [2], admin := true, job := true } false, failIf (!jobLive s h.job) .malformed] with
    | some st => final (cmdOf h) st 0 0 s
    | none =>
      teardownBy i (cmdOf h) s) s)

end Sys2Proof.Machine
end

