-- ==== Sys2Proof/Machine/Plates.lean ====
section
/-! DEFINITION. Plates and their tables: the checks of a plate image (R61 to R70), placement (R71, R72), loading and
removal (R73 to R75), and table reloads (R80 to R85). -/
namespace Sys2Proof.Machine

/-! ## Image checks -/

/-- Every element of a list differs from every other. -/
def distinct {α : Type} [DecidableEq α] (l : List α) : Bool := (dedup' l).length == l.length

/-- Cells of a rectangle, row by row, relative to the origin. -/
def rectCells (r : Rect) : List (Int × Int) :=
  (List.range r.h).flatMap (fun (y : Nat) => (List.range r.w).map (fun (x : Nat) => (r.x + (x : Int), r.y + (y : Int))))

/-- Two rectangles share no island. -/
def rectsApart (a b : Rect) : Bool :=
  decide (a.x + a.w ≤ b.x ∨ b.x + b.w ≤ a.x ∨ a.y + a.h ≤ b.y ∨ b.y + b.h ≤ a.y)

/-- Every pair of a list stands in a relation. -/
def allPairs {α : Type} (f : α → α → Bool) : List α → Bool
  | [] => true
  | x :: l => l.all (f x) && allPairs f l

/-- Two islands face each other through a Dovetail. -/
def adjacent (a b : Int × Int) : Bool := (a.1 - b.1).natAbs + (a.2 - b.2).natAbs == 1

/-- Cells reached from a set through Dovetails, as often as fuel says. -/
def spread (cells : List (Int × Int)) : Nat → List (Int × Int) → List (Int × Int)
  | 0, seen => seen
  | fuel + 1, seen =>
    let more := cells.filter (fun c => !seen.contains c && seen.any (adjacent c))
    if more.isEmpty then seen else spread cells fuel (seen ++ more)

/-- The cells are connected through Dovetail adjacency. -/
def connected (cells : List (Int × Int)) : Bool := (spread cells cells.length (cells.take 1)).length == cells.length

/-- R62. -/
def rectsOk (l : List Rect) : Bool :=
  (match l.head? with | some r => decide (r.x = 0 ∧ r.y = 0) | none => false)
    && l.all (fun r => decide (1 ≤ r.w ∧ r.w ≤ 40 ∧ 1 ≤ r.h ∧ r.h ≤ 30)) && allPairs rectsApart l && connected (l.flatMap rectCells)

/-- Bytes that the records of section n take by the header's counts; none where any size may stand (R63). -/
def sectionSize (m : PlateImage) (n : Nat) : Option Nat :=
  if n = 0 then some (sumOf (·.size) m.records) else if n = 1 then some (128 * m.layerCount) else if n = 2 then some 0
  else if n = 3 then some (32 * m.tableCount) else if n = 4 then some (64 * m.costCount) else if n = 5 then some (16 * m.symbolCount)
  else if n = 6 ∧ bit m.flags 0 then some 0 else none

/-- R63: eight directory entries, each at its place. -/
def sectionsOk (m : PlateImage) : Bool :=
  let es := m.sections.zip (List.range 8)
  m.sections.length == 8
    && es.all (fun e => match sectionSize m e.2 with | some n => e.1.2 == n | none => true)
    && es.all (fun e => if e.1.2 = 0 then e.1.1 == 0
        else e.1.1 % 256 == 0 && decide (0x1000 ≤ e.1.1) && decide (e.1.1 + e.1.2 + 4864 ≤ m.size))
    && allPairs (fun (a b : Nat × Nat) => a.2 == 0 || b.2 == 0 || decide (a.1 + a.2 ≤ b.1) || decide (b.1 + b.2 ≤ a.1)) m.sections

/-- The cells from a towards b along one axis, both ends included. -/
def span (a b : Int) : List Int :=
  let n := (b - a).natAbs
  (List.range (n + 1)).map (fun (i : Nat) => if a ≤ b then a + (i : Int) else a - (i : Int))

/-- The islands on a route, or none where its first port does not point toward the destination (R66). -/
def routeCells (x y : Int) (r : RouteEntry) : Option (List (Int × Int)) :=
  let across := (span x r.relX).map (fun c => (c, y)) ++ (span y r.relY).map (fun c => (r.relX, c))
  let down := (span y r.relY).map (fun c => (x, c)) ++ (span x r.relX).map (fun c => (c, r.relY))
  if r.firstPort = 0 then (if r.relY < y then some down else none)
  else if r.firstPort = 1 then (if x < r.relX then some across else none)
  else if r.firstPort = 2 then (if y < r.relY then some down else none)
  else if r.firstPort = 3 then (if r.relX < x then some across else none)
  else none

/-- A used route entry obeys R66. -/
def routeOk (cells : List (Int × Int)) (x y : Int) (r : RouteEntry) : Bool :=
  !r.rsvd && decide (r.cls ≤ 1) && (match routeCells x y r with | some l => l.all cells.contains | none => false)

/-- An island configuration record obeys R59, R60, R65, R66 and R139. DESIGN CHOICE (log entry 161): a STEP_ENTRY lies below
RECORD_SIZE; the spec states no range for it. -/
def recordOk (m : PlateImage) (cells : List (Int × Int)) (r : IslRec) : Bool :=
  !r.rsvd && decide (1024 ≤ r.size ∧ r.size ≤ 65536) && r.size % 64 == 0 && decide (r.cellMode ≤ 4) && decide (r.cellFlags < 8)
    && !(bit r.cellFlags 0 && (r.cellMode == 0 || r.cellMode == 4)) && decide (1 ≤ r.banks ∧ r.banks ≤ 12) && decide (r.counters ≤ 64)
    && decide (r.routes.length ≤ 32) && r.routes.all (routeOk cells r.relX r.relY)
    && r.entries.length == 64 && r.entries.all (fun e => decide (e < r.size))
    && (List.range 16).all (fun n => !bit r.tableMask n || m.tables.any (fun t => t.slot == n)) && decide (r.tableMask < 65536)
    && r.sfuSlots.all (bit r.tableMask)

/-- Rotation size in elements. -/
def rotElems (n : Nat) : Nat := 16 * 2 ^ n

/-- A layer record obeys Table 3.6, R112, R121 and R153. -/
def layerOk (l : LayerRec) : Bool :=
  !l.rsvd && decide (l.rotSize ≤ 4) && decide (l.proofFlags ≤ 1) && decide (3 ≤ l.proofBase ∧ l.proofBase ≤ 12)
    && decide (3 ≤ l.proofMax ∧ l.proofMax ≤ l.proofBase) && (l.proofThr == 0 || posFinite l.proofThr)
    && (l.rotSize == 0 || (l.reduction % rotElems l.rotSize == 0 && l.rotSeed != 0))
    && decide (l.experts ≤ 4096) && decide (l.moeFlags ≤ 1) && l.seeds.length == 8
    && (l.experts == 0 || (decide (1 ≤ l.k ∧ l.k ≤ 8) && decide (l.k ≤ l.experts) && l.capacity != 0 && decide (l.overflow ≤ 2)
        && (if l.overflow = 1 then decide (1 ≤ l.probeP ∧ l.probeP ≤ 3) else l.probeP == 0) && (l.seeds.drop l.k).all (· == 0)))

/-- A cost entry obeys Table 3.7. -/
def costOk (c : CostEntry) : Bool := !c.rsvd && decide (1 ≤ c.opcode ∧ c.opcode ≤ 0x1F)

/-- A symbol record obeys R70. -/
def symbolOk (m : PlateImage) (x : SymbolRec) : Bool :=
  !x.rsvd && decide (x.kind ≤ 1) && decide (x.format ≤ 0x0A) && (!bit m.flags 0 || x.nameOffset == 0)

/-- A table reference record obeys Table 3.8, and contents that it carries obey R135 to R138. -/
def tableRefOk (t : TableRef) : Bool :=
  !t.rsvd && decide (t.slot ≤ 15) && decide (t.kind ≤ 1) && decide (1024 ≤ t.initSize ∧ t.initSize ≤ 2 ^ 20) && t.initSize % 1024 == 0
    && (t.kind != 0 || t.initSize == 16384)
    && (t.initOffset == 0 || (match t.content with | some c => tableOk t.kind t.initSize c | none => false))

/-- Records that name one table agree, and at most one of them creates it (R69). -/
def tableRefsOk (l : List TableRef) : Bool :=
  l.all tableRefOk && distinct (l.map (·.slot))
    && allPairs (fun (a b : TableRef) => a.tableId != b.tableId
        || (a.kind == b.kind && a.initSize == b.initSize && (a.initOffset == 0 || b.initOffset == 0))) l

/-- The tables of the job that the records bind or create exist, or do not, as R69 says. -/
def tablesMatch (have' : List Tbl) (l : List TableRef) : Bool :=
  l.all (fun t =>
    let made := l.any (fun u => u.tableId == t.tableId && u.initOffset != 0)
    match have'.find? (fun x => x.id == t.tableId) with
    | some x => !made && x.size == t.initSize
    | none => made)

/-- Image sizes that Table 3.1 allows. -/
def imageSizeOk (n : Nat) : Bool := decide (65536 ≤ n ∧ n ≤ 2 ^ 28) && n % 256 == 0

/-- Initial contents of tables lie within section 7 (Table 3.8). -/
def initsOk (m : PlateImage) : Bool :=
  m.tables.all (fun t => t.initOffset == 0 || (match m.sections[7]? with
    | some e => decide (t.initOffset + t.initSize ≤ e.2)
    | none => false))

/-- Every check of the contents of an image but those that need the job (R61 to R70). DESIGN CHOICE (log entry 162): two
records of one image with the same SYMBOL_ID reject it; IDs are not compared across images, and a NAME_OFFSET is free (R70). -/
def imageOk (m : PlateImage) : Bool :=
  let cells := m.rects.flatMap rectCells
  !m.rsvd && decide (m.flags ≤ 1) && decide (1 ≤ m.longest ∧ m.longest ≤ 50000) && decide (1 ≤ m.islandCount ∧ m.islandCount ≤ 1200)
    && decide (1 ≤ m.rectCount ∧ m.rectCount ≤ 8) && m.rects.length == m.rectCount && m.unusedRectsZero && rectsOk m.rects
    && m.islandCount == cells.length && decide (m.layerCount ≤ 1024) && m.layers.length == m.layerCount
    && decide (m.symbolCount ≤ 65535) && m.symbols.length == m.symbolCount && decide (1 ≤ m.costCount ∧ m.costCount ≤ 32)
    && m.costs.length == m.costCount && decide (m.tableCount ≤ 16) && m.tables.length == m.tableCount
    && decide (1 ≤ m.stepKinds ∧ m.stepKinds ≤ 64) && sectionsOk m
    && m.records.length == m.islandCount && m.records.map (fun r => (r.relX, r.relY)) == cells && m.records.all (recordOk m cells)
    && m.layers.all layerOk && m.costs.all costOk && distinct (m.costs.map (·.opcode)) && m.symbols.all (symbolOk m)
    && distinct (m.symbols.map (·.symbolId)) && tableRefsOk m.tables && initsOk m

/-- In BUCKETS mode the plate binds a table of bounds at BOUND_SLOT (R225). -/
def boundsOk (j : Job) (m : PlateImage) : Bool :=
  match j.kv with
  | none => true
  | some g =>
    g.ragged == 0 || (match m.tables.find? (fun t => t.slot == g.boundSlot) with
      | none => false
      | some t =>
        let made := (m.tables.find? (fun u => u.tableId == t.tableId && u.initOffset != 0)).bind (·.content)
        let c : Option TableImage := match made with | some c => some c | none => (j.tables.find? (fun x => x.id == t.tableId)).bind (·.front)
        match c with
        | some (.lookup _ fmt _ n es _) =>
          t.kind == 1 && fmt == 9 && n == 8 && es.all (fun b => b % 16 == 0)
            && (es.zip (es.drop 1)).all (fun e => decide (e.1 < e.2)) && es.getLast? == some g.maxPositions
        | _ => false)

/-- Bytes of table memory that the chip's tables take, two banks each. -/
def tableBytes (s : State) : Nat := sumOf (fun j => sumOf (fun t => 2 * t.size) j.2.tables) s.srv.jobs

/-- Bytes that an image's new tables take. -/
def newTableBytes (m : PlateImage) : Nat := sumOf (fun t => if t.initOffset = 0 then 0 else 2 * t.initSize) m.tables

/-- Every expert layer of the image has its placement table in an epoch (R155). -/
def expertsOk (m : PlateImage) (e : Epoch) : Bool :=
  m.layers.all (fun l => l.experts == 0
    || (match e.m.experts.find? (fun x => x.layerId == l.layerId) with | some x => x.experts == l.experts | none => false))

/-- The third stage of R489 for a plate image of job i. -/
def imageContents (s : State) (i : Nat) (m : PlateImage) : Option Status :=
  let j := jobAt s i
  let md := modelOf s j.mc
  firstOf [
    failIf (!imageOk m || (match md with | some x => x.uuid != m.uuid | none => true) || !tablesMatch j.tables m.tables
      || !boundsOk j m || (match j.kv with | some g => !raggedOk s j.mc g | none => false)) .malformed,
    failIf (match md.bind newestEpoch with | some e => e.layoutId != m.layoutId | none => true) .epochUnavailable,
    failIf (match md.bind newestEpoch with | some e => !expertsOk m e | none => false) .malformed,
    failIf (decide (Config.tableMemory < tableBytes s + newTableBytes m)) .resourceExhausted]

/-! ## Placement (R71, R72) -/

/-- Physical banks of an island that plates hold (R58). -/
def banksUsed (s : State) (n : Nat) : List Nat :=
  (platesOn s n).flatMap (fun p => p.2.isls.flatMap (fun i => if i.isl = n then i.phys else []))

/-- Physical counters of an island that plates hold. -/
def ctrsUsed (s : State) (n : Nat) : List Nat :=
  (platesOn s n).flatMap (fun p => p.2.isls.flatMap (fun i => if i.isl = n then i.ctrs else []))

/-- The shares on an island with job i added leave room for the background reserve and the switch allowance (R314). -/
def sharesFit (s : State) (i n : Nat) : Bool :=
  let js := dedup' (i :: (platesOn s n).map (fun p => p.2.job))
  decide (sumOf (fun j => (jobAt s j).resv.lcShare) js + s.fab.bg + 20 ≤ 1000)

/-- Island n can take a record of job i. -/
def islandFree (s : State) (i n : Nat) (r : IslRec) : Bool :=
  let x := islOf s n
  decide (x.state ≤ 1) && !x.testing && decide (x.slots.length < 4) && decide ((banksUsed s n).length + r.banks ≤ 12)
    && decide ((ctrsUsed s n).length + r.counters ≤ 64) && sharesFit s i n

/-- The islands of a shape with its origin at a global position, if they all exist. -/
def shapeAt (m : PlateImage) (col row : Nat) : Option (List (Nat × IslRec)) :=
  m.records.foldr (fun r acc => match acc, islAt ((col : Int) + r.relX) ((row : Int) + r.relY) with
    | some l, some n => some ((n, r) :: l)
    | _, _ => none) (some [])

/-- A position where the shape fits (R71). -/
def candidate (s : State) (i : Nat) (l : List (Nat × IslRec)) : Bool :=
  l.all (fun e => islandFree s i e.1 e.2)
    && decide ((dedup' (l.map (·.1) ++ (s.fab.plates.filter (fun p => p.2.job == i)).flatMap (fun p => p.2.isls.map (·.isl)))).length
        ≤ (jobAt s i).resv.footprint)

/-- Keys of R72: islands shared with other jobs, wear, origin row, origin column. -/
def placeKey (s : State) (i col row : Nat) (l : List (Nat × IslRec)) : List Nat :=
  [(l.filter (fun e => (platesOn s e.1).any (fun p => p.2.job != i))).length, sumOf (fun e => (islOf s e.1).wear) l, row, col]

/-- A list of keys comes before another. -/
def keyBefore : List Nat → List Nat → Bool
  | a :: l, b :: m => if a < b then true else if b < a then false else keyBefore l m
  | _, _ => false

/-- The position that firmware chooses. -/
def choosePlace (s : State) (i : Nat) (m : PlateImage) : Option (List (Nat × IslRec)) :=
  let ps := (List.range 30).flatMap (fun row => (List.range 40).filterMap (fun col =>
    match shapeAt m col row with
    | some l => if candidate s i l then some (placeKey s i col row l, l) else none
    | none => none))
  (ps.foldl (fun (best : Option (List Nat × List (Nat × IslRec))) p => match best with
    | none => some p
    | some b => if keyBefore p.1 b.1 then some p else some b) none).map (·.2)

/-- The lowest n counters of an island that no plate holds. -/
def pickCtrs (s : State) (isl n : Nat) : List Nat := ((List.range 64).filter (fun c => !(ctrsUsed s isl).contains c)).take n

/-- The lowest n banks of an island that no plate holds. -/
def pickBanks (s : State) (isl n : Nat) : List Nat := ((List.range 12).filter (fun b => !(banksUsed s isl).contains b)).take n

/-- Step kinds in which an island takes part. -/
def kindsOf (r : IslRec) : List Nat := ((r.entries.zip (List.range 64)).filter (fun e => e.1 != 0)).map (·.2)

/-- The lowest FREE plate index. -/
def freePlate (s : State) : Option Nat := (List.range 64).find? (fun p => (mget s.fab.plates p).isNone)

/-- Step 4: the plate stands on the islands chosen, LOADING. -/
def standPlate (op p i : Nat) (m : PlateImage) (l : List (Nat × IslRec)) (s : State) : State :=
  let isls := l.map (fun e => { isl := e.1, mode := e.2.cellMode, flags := e.2.cellFlags, banks := e.2.banks, phys := pickBanks s e.1 e.2.banks
                                ctrs := pickCtrs s e.1 e.2.counters, mask := e.2.tableMask, kinds := kindsOf e.2 : PIsl })
  let s := { s with fab := { s.fab with plates := mset s.fab.plates p { state := 1, job := i, isls := isls, image := m } } }
  let s := forEach (fun (e : Nat × IslRec) s => modIsl e.1 (fun x => { x with slots := x.slots ++ [p] }) s) l s
  modOp op (fun o => { o with code := 0x12, progress := 0, since := s.time, kind := (match o.kind with
    | .plateLoad j a z _ => .plateLoad j a z p | k => k) }) s

/-- Step 4 of a load: placed, or RESOURCE_EXHAUSTED. -/
def placePlate (op i : Nat) (m : PlateImage) (s : State) : State :=
  match choosePlace s i m, freePlate s with
  | some l, some p => standPlate op p i m l s
  | _, _ => endOp op .resourceExhausted 0 s

/-- Some island of a loading plate has been fenced since it was placed (R51). -/
def lostIsland (s : State) (p : Nat) : Bool := (plateOf s p).isls.any (fun i => !islUsable s i.isl)

/-- The load returns to step 4, with fenced islands excluded (R74). -/
def replacePlate (op i p : Nat) (s : State) : State :=
  let m := (plateOf s p).image
  placePlate op i m (clearPlate p s)

/-! ## Loading (R73, R74) -/

/-- PLATE_LOAD (R73). -/
def execPlateLoad (t : Nat) (h : Hdr) (imageAddr imageSize : Nat) (s : State) : Host.Outcome State Fault Refusal :=
  .next (command2 t h (fun s =>
    match firstOf [shapeCheck s h { rings := [2], job := true } false, jobCheck s h, powerCheck s,
        failIf (jobAt s (jobIdx h.job)).torn .jobTornDown] with
    | some st => refuseOp h st s
    | none => readHost h.ctx imageAddr imageSize h.job h.layerTag h.opTag
        (beginOp h (.plateLoad (jobIdx h.job) imageAddr imageSize 64) 0x10 s)) s)

/-- A live plate load that OP_SUSPEND does not hold: its job, the size its command carries, its plate and phase. -/
def loadOf (s : State) (op : Nat) : Option (Nat × Nat × Nat × Nat) :=
  match mget s.ops.live op with
  | some o => (match o.kind with
    | .plateLoad j _ z p => if opHeld s o then none else some (j, z, p, o.code)
    | _ => none)
  | none => none

/-- PLATE_LOAD_VERIFIED: the image has been read (none: the read failed) and verified, and placement is decided. -/
def execPlateLoadVerified (t op : Nat) (image : Option PlateImage) (s : State) : Host.Outcome State Fault Refusal :=
  let s := tick t s
  .next (match loadOf s op with
    | some (i, size, _, code) =>
      if code ≠ 0x10 then s
      else match image with
        | none => endOp op .malformed 0 s
        | some m =>
          match objectCheck s (m.magicOk && m.format == 1 && m.size == size && imageSizeOk size) m.signer 3 7 (m.digestOk && m.sigOk) (imageContents s i m) with
          | some st => endOp op st 0 (if st = .accessDenied then coffer 1 3 .imageRefused 0 (jobAt s i).id (jobAt s i).mc 0 s else s)
          | none => placePlate op i m s
    | none => s)

/-- Islands of a plate that have acknowledged. -/
def acked (q : Plate) : Nat := (q.isls.filter (·.acked)).length

/-- The write of an island's configuration has used island time since the one before it; it is billed to the loading job on
that island (R74). -/
def billWrite (op i isl : Nat) (s : State) : State :=
  let d := s.time - ((mget s.ops.live op).map (·.since)).getD s.time
  modOp op (fun o => { o with since := s.time }) (billTime i isl d (d - entLeft s i isl) true s)

/-- ISLAND_CONFIG_ACK: an island is written in time outside other plates' steps; the load goes on once every island has
acknowledged (R74). -/
def execIslandConfigAck (t op isl : Nat) (s : State) : Host.Outcome State Fault Refusal :=
  let s := tick t s
  .next (match loadOf s op with
    | some (i, _, p, code) =>
      if code ≠ 0x12 || !(plateOf s p).isls.any (fun x => x.isl == isl && !x.acked) || islBusy s isl then s
      else if lostIsland s p then replacePlate op i p s
      else
        let s := modPlate p (fun q => { q with isls := q.isls.map (fun i => if i.isl == isl then { i with acked := true } else i) })
          (billWrite op i isl s)
        let q := plateOf s p
        modOp op (fun o => { o with progress := acked q, code := if acked q = q.isls.length then 0x13 else o.code }) s
    | none => s)

/-- ISLAND_CONFIG_TIMEOUT: an island is written again once; if it fails again it is tested, a failing one is fenced and
the load returns to step 4 without it. DESIGN CHOICE (log entry 164): an island that passes its self-test is written again, with
its one retry anew; R74 does not say what becomes of it. -/
def execIslandConfigTimeout (t op isl : Nat) (passed fwd : Bool) (s : State) : Host.Outcome State Fault Refusal :=
  let s := tick t s
  .next (match loadOf s op with
    | some (i, _, p, code) =>
      let q := plateOf s p
      match q.isls.find? (fun x => x.isl == isl && !x.acked) with
      | none => s
      | some x =>
        if code ≠ 0x12 then s
        else if lostIsland s p then replacePlate op i p s
        else if !x.retried || passed then
          modPlate p (fun q => { q with isls := q.isls.map (fun y => if y.isl == isl then { y with retried := !x.retried } else y) })
            (billWrite op i isl s)
        else
          let s := coffer 3 3 .configTimeout isl (jobAt s i).id 0 0 (billWrite op i isl s)
          let s := fence isl fwd s
          if (mget s.ops.live op).isNone then s else replacePlate op i p s
    | none => s)

/-- The tables that an image creates and binds join the job's (R69). -/
def bindTables (p : Nat) (l : List TableRef) (have' : List Tbl) : List Tbl :=
  l.foldl (fun ts t =>
    if ts.any (fun x => x.id == t.tableId) then
      ts.map (fun x => if x.id == t.tableId then { x with
        bound := x.bound ++ [(p, t.slot)]
        front := if t.initOffset = 0 then x.front else t.content } else x)
    else
      ts ++ [{ id := t.tableId, kind := t.kind, size := t.initSize, bound := [(p, t.slot)]
               front := if t.initOffset = 0 then none else t.content }]) have'

/-- The tables that an image creates or binds still are as R69 says, and the table memory still holds them. -/
def tablesStand (s : State) (i : Nat) (m : PlateImage) : Option Status :=
  firstOf [failIf (!tablesMatch (jobAt s i).tables m.tables) .malformed,
    failIf (decide (Config.tableMemory < tableBytes s + newTableBytes m)) .resourceExhausted]

/-- Step 6 of Table 3.10: tables filled, counters cleared, the islands' random streams reseeded (R119), the plate resident, its islands
at their codes. -/
def makeResident (op i p : Nat) (s : State) : State :=
  let q := plateOf s p
  let j := jobAt s i
  let s := modJob i (fun j => { j with tables := bindTables p q.image.tables j.tables }) s
  let s := forEach (fun (x : PIsl) s => modIsl x.isl (fun y => { y with
    state := if y.state = 0 then 1 else y.state
    counters := y.counters.filter (fun c => !x.ctrs.contains c.1)
    ctrOverflow := y.ctrOverflow.filter (fun c => !x.ctrs.contains c) }) s) q.isls s
  let s := forEach (fun (x : PIsl) s => advanceDraw (modIsl x.isl (fun y => { y with seed := drawn s, bitsDrawn := 0 }) s)) q.isls s
  let s := modPlate p (fun q => { q with
    state := if j.draining then 3 else 2
    layerCnt := forEach (fun (l : LayerRec) m => mset m l.layerId { r := l.proofBase }) q.image.layers [] }) s
  let s := { s with sec := { s.sec with plateLog := extendLog [q.image.digest.toNat, j.id] s.sec.plateLog } }
  endOp op .complete p (plateCodes p s)

/-- PLATE_RESIDENT: step 6; a plate that lost an island meanwhile returns to step 4 (R51), and the conditions of R69 are
tested again, for another load of the job may have created or freed a table since. -/
def execPlateResident (t op : Nat) (s : State) : Host.Outcome State Fault Refusal :=
  let s := tick t s
  .next (match loadOf s op with
    | some (i, _, p, code) =>
      if code ≠ 0x13 then s
      else if lostIsland s p then replacePlate op i p s
      else match tablesStand s i (plateOf s p).image with
        | some st => endOp op st 0 (clearPlate p s)
        | none => makeResident op i p s
    | none => s)

/-! ## Unloading and removal (R75) -/

/-- PLATE_UNLOAD (R75). -/
def execPlateUnload (t : Nat) (h : Hdr) (plate : Nat) (s : State) : Host.Outcome State Fault Refusal :=
  .next (command t h (fun s =>
    let q := plateOf s plate
    match firstOf [shapeCheck s h { rings := [2], job := true } false, jobCheck s h,
        failIf (q.state == 0 || q.job != jobIdx h.job) .malformed, failIf (q.state == 1) .busy] with
    | some st => final (cmdOf h) st 0 0 s
    | none => modPlate plate (fun q => { q with state := 3, unloads := q.unloads ++ [cmdOf h] }) s) s)

/-- An accepted request of the plate's job needs it: its price includes the plate. -/
def plateNeeded (s : State) (p : Nat) : Bool :=
  let q := plateOf s p
  s.srv.reqs.any (fun r => r.2.st != .detected && jobIdx r.2.h.job == q.job && servesOp q (reqOpcode r.2.op))

/-- PLATE_REMOVAL: a DRAINING plate goes once no accepted request needs it, between steps; the proof steps of its last compute step
come first (R123). -/
def execPlateRemoval (t plate : Nat) (s : State) : Host.Outcome State Fault Refusal :=
  let s := tick t s
  let q := plateOf s plate
  .next (if q.state = 3 && q.running.isNone && !q.queue.any (·.proof) && !plateNeeded s plate then
      settleJob false q.job (settleAnswers (removePlate false plate .complete s)) else s)

/-! ## Table reloads (R80 to R85) -/

/-- The table of a job with an ID. -/
def tableOf (s : State) (i id : Nat) : Option Tbl := (jobAt s i).tables.find? (fun t => t.id == id)

/-- A table of a job changed by f. -/
def modTable (i id : Nat) (f : Tbl → Tbl) (s : State) : State :=
  modJob i (fun j => { j with tables := j.tables.map (fun t => if t.id == id then f t else t) }) s

/-- TABLE_RELOAD (R81): the payload is the table's image, its digest and its signature. -/
def execTableReload (t : Nat) (h : Hdr) (table addr size : Nat) (s : State) : Host.Outcome State Fault Refusal :=
  .next (command t h (fun s =>
    let i := jobIdx h.job
    let x := tableOf s i table
    match firstOf [shapeCheck s h { rings := [2], job := true } false, jobCheck s h, failIf (jobAt s i).torn .jobTornDown,
        failIf (match x with | some x => size != x.size + 4691 | none => true) .malformed,
        failIf (match x with | some x => x.reload.isSome | none => false) .busy] with
    | some st => final (cmdOf h) st 0 0 s
    | none => modTable i table (fun x => { x with reload := some { cmd := cmdOf h } })
        (readHost h.ctx addr size h.job h.layerTag h.opTag s)) s)

/-- RELOAD_PAYLOAD_WRITTEN: the payload stands in the back bank and passes to Sirdoyx. -/
def execReloadPayloadWritten (t job table : Nat) (s : State) : Host.Outcome State Fault Refusal :=
  .next (modTable (jobIdx job) table (fun x => { x with reload := x.reload.map (fun r =>
    if r.armed then r else { r with verifying := true }) }) (tick t s))

/-- The slot that verifies reloads of a table: that of the plates bound to it (R81). DESIGN CHOICE (log entry 163): where the
job's plates have different signer slots, that of the first plate bound to the table. -/
def reloadSigner (s : State) (x : Tbl) : Nat := match x.bound.head? with | some b => (plateOf s b.1).image.signer | none => 0

/-- A verified reload is armed: the new contents are the front bank, which each bound plate reads once it has swapped;
those between steps swap at once (R82). -/
def armReload (i : Nat) (x : Tbl) (payload : TableImage) (digest : Digest) (s : State) : State :=
  let ps := dedup' (x.bound.map (·.1))
  let g := if x.gen = 0xFFFFFFFF then 1 else x.gen + 1
  let s := modTable i x.id (fun x => { x with
    gen := g, front := some payload, back := x.front
    reload := x.reload.map (fun r => { r with armed := true, verifying := false, left := ps }) }) s
  let s := { s with sec := { s.sec with tableLog := extendLog [digest.toNat, (jobAt s i).id, g] s.sec.tableLog } }
  let s := forEach (fun p s => modPlate p (fun q => { q with stage := x.id :: q.stage }) s) ps s
  settleReloads i (forEach (fun p s => if (plateOf s p).running.isNone then swapAt p s else s) ps s)

/-- RELOAD_VERIFIED: the payload is verified and the swap armed, or the reload ends with its failure and the back bank
is discarded (Table 3.13). -/
def execReloadVerified (t job table : Nat) (payload : TableImage) (digest : Digest) (digestOk sigOk : Bool) (s : State) :
    Host.Outcome State Fault Refusal :=
  let s := tick t s
  let i := jobIdx job
  .next (match tableOf s i table with
    | none => s
    | some x =>
      match x.reload with
      | none => s
      | some r =>
        if !r.verifying then s
        else
          let magic := match payload with | .fn m _ _ _ _ _ _ _ _ _ _ _ _ => m | .lookup m _ _ _ _ _ => m
          match objectCheck s magic (reloadSigner s x) 3 7 (digestOk && sigOk) (failIf (!tableOk x.kind x.size payload) .malformed) with
          | some st => final r.cmd st 0 0 (modTable i table (fun x => { x with back := none, reload := none }) s)
          | none => armReload i x payload digest s)

end Sys2Proof.Machine
end

