-- ==== Sys2Proof/Machine/Models.lean ====
section
/-! DEFINITION. Model contexts, epochs and their installs (chapter 10), detokenisation tables (R265, R266), and the
migration of sequences (R254, R255). -/
namespace Sys2Proof.Machine

/-! ## Model contexts (R231, R233) -/

/-- A job of the model context is resident here. -/
def modelInUse (s : State) (mc : Nat) : Bool := s.srv.jobs.any (fun j => j.2.present && j.2.mc == mc)

/-- The install state of a model context. -/
def installOf (s : State) (mc : Nat) : Install := (modelOf s mc).elim {} (·.install)

/-- MODEL_CREATE (R231). -/
def execModelCreate (t : Nat) (h : Hdr) (uuid : Nat) (s : State) : Host.Outcome State Fault Refusal :=
  .next (command t h (fun s =>
    match firstOf [shapeCheck s h { rings := [2], admin := true, mc := true } false, failIf (h.modelCtx == 0) .malformed,
        failIf (modelOf s h.modelCtx).isSome .malformed, failIf (decide (64 ≤ s.mdl.ctxs.length)) .resourceExhausted] with
    | some st => final (cmdOf h) st 0 0 s
    | none => final (cmdOf h) .complete 0 0 { s with mdl := { s.mdl with ctxs := mset s.mdl.ctxs h.modelCtx { uuid := uuid } } }) s)

/-- MODEL_DESTROY (R233). -/
def execModelDestroy (t : Nat) (h : Hdr) (s : State) : Host.Outcome State Fault Refusal :=
  .next (command t h (fun s =>
    match firstOf [shapeCheck s h { rings := [2], admin := true, mc := true } false, mcCheck s h,
        failIf (modelInUse s h.modelCtx || (installOf s h.modelCtx).active) .busy] with
    | some st => final (cmdOf h) st 0 0 s
    | none =>
      let s := dropModelAreas h.modelCtx s
      final (cmdOf h) .complete 0 0 { s with mdl := { s.mdl with ctxs := mdel s.mdl.ctxs h.modelCtx } }) s)

/-! ## Detokenisation tables -/

/-- The table obeys R265 beyond its envelope. -/
def detokOk (d : DetokImage) : Bool :=
  decide (1 ≤ d.vocab ∧ d.vocab ≤ 2 ^ 24) && !d.rsvd && d.offsets.length == d.vocab + 1 && d.offsets.head? == some 0
    && (d.offsets.zip (d.offsets.drop 1)).all (fun p => decide (p.1 ≤ p.2 ∧ p.2 ≤ p.1 + 64))
    && decide (d.offsets.getLastD 0 ≤ d.pool.length)
    && decide (ceilDiv (64 + 4 * (d.vocab + 1) + d.pool.length) 256 * 256 + 4864 ≤ d.size)

/-- DETOK_LOAD (R265, R266). image is what the read of the table returned. -/
def execDetokLoad (t : Nat) (h : Hdr) (addr size : Nat) (image : Option DetokImage) (s : State) : Host.Outcome State Fault Refusal :=
  .next (command t h (fun s =>
    match firstOf [shapeCheck s h { rings := [2], admin := true, mc := true } false, mcCheck s h,
        failIf (decide (2 ≤ ((modelOf s h.modelCtx).elim 0 (fun m => m.detoks.length)))) .busy] with
    | some st => final (cmdOf h) st 0 0 s
    | none =>
      let s := readHost h.ctx addr size h.job h.layerTag h.opTag s
      match image with
      | none => final (cmdOf h) .malformed 0 0 s
      | some d =>
        let uuid := (modelOf s h.modelCtx).elim 0 (·.uuid)
        match objectCheck s (d.magicOk && d.format == 1 && d.size == size && size % 256 == 0 && decide (size ≤ 2 ^ 26)) d.signer 3 7
            (d.digestOk && d.sigOk) (failIf (!detokOk d || d.uuid != uuid) .malformed) with
        | some st => final (cmdOf h) st 0 0 (if st = .accessDenied then coffer 1 3 .imageRefused 0 0 h.modelCtx 0 s else s)
        | none =>
          let g := (modelOf s h.modelCtx).elim 1 (·.nextDetok)
          let s := modModel h.modelCtx (fun m => { m with detoks := m.detoks ++ [{ gen := g, image := d }], nextDetok := g + 1 }) s
          let s := { s with sec := { s.sec with tableLog := extendLog [d.digest.toNat, h.modelCtx, g] s.sec.tableLog } }
          final (cmdOf h) .complete 0 0 (freeDetoks h.modelCtx s)) s)

/-! ## The manifest (R234 to R237, R155) -/

/-- Bytes that a section of the manifest must hold. -/
def manifestSection (m : Manifest) (n : Nat) : Nat :=
  match n with
  | 0 => 16 * m.chips.length
  | 1 => 128 * m.shards.length
  | 2 => m.experts.foldl (fun a e => ceilDiv a 16 * 16 + 16 + 4 * e.entries.length) 0
  | _ => sumOf (fun (e : EmbTable) => 32 + 8 * e.shards.length) m.embs

/-- The section directory of a manifest. -/
def manifestSections (m : Manifest) : Bool :=
  m.sections.length == 4
    && (m.sections.zip (List.range 4)).all (fun e => e.1.2 == manifestSection m e.2
      && (e.1.2 == 0 || (e.1.1 % 256 == 0 && decide (0x100 ≤ e.1.1) && decide (e.1.1 + e.1.2 + 4864 ≤ m.size))))
    && allPairs (fun (a b : Nat × Nat) => a.2 == 0 || b.2 == 0 || decide (a.1 + a.2 ≤ b.1) || decide (b.1 + b.2 ≤ a.1)) m.sections

/-- The chip table names a chip. -/
def hasChip (m : Manifest) (loc : Nat) : Bool := m.chips.any (fun c => c.loc == loc)

/-- Two shard records stand together (R235). -/
def shardsOk (a b : ShardRec) : Bool :=
  (a.chip != b.chip
      || ((decide (a.offset + a.size ≤ b.offset) || decide (b.offset + b.size ≤ a.offset))
        && (a.lmode == b.lmode || decide ((a.offset + a.size - 1) / 2097152 < b.offset / 2097152)
          || decide ((b.offset + b.size - 1) / 2097152 < a.offset / 2097152))))
    && (a.content != b.content || (a.size == b.size && a.lmode == b.lmode && a.digest == b.digest && a.chip != b.chip))

/-- A shard record by itself (Table 10.3, R235). -/
def shardOk (m : Manifest) (x : ShardRec) : Bool :=
  !x.rsvd && decide (x.chip < m.chips.length) && decide (x.lmode ≤ 3) && x.offset % 65536 == 0
    && decide (65536 ≤ x.size ∧ x.size ≤ 2 ^ 28) && x.size % 65536 == 0
    && decide (x.offset + x.size ≤ (m.chips.getD x.chip {}).chunks * 2097152)

/-- An entry of an expert placement table (Table 7.3, R155). -/
def placementOk (m : Manifest) (w : Word) : Bool :=
  bit w.toNat 31 && bits w.toNat 30 28 == 0 && bits w.toNat 20 16 == 0 && bits w.toNat 7 0 == 0 && hasChip m (bits w.toNat 27 21)

/-- An expert placement table. -/
def expertTableOk (m : Manifest) (e : ExpertTable) : Bool :=
  !e.rsvd && decide (1 ≤ e.sources ∧ e.sources ≤ 128) && e.entries.length == e.experts && e.entries.all (placementOk m)

/-- An embedding table record (Table 7.6, R237). -/
def embTableOk (m : Manifest) (e : EmbTable) : Bool :=
  !e.rsvd && (e.format == 3 || e.format == 4 || e.format == 6 || e.format == 7) && decide (8 ≤ e.rowBits ∧ e.rowBits ≤ 40)
    && decide (e.shardBits ≤ 7 ∧ e.shardBits < e.rowBits) && decide (32 ≤ e.rowBytes ∧ e.rowBytes ≤ 65536) && e.rowBytes % 32 == 0
    && e.shards.length == 2 ^ e.shardBits
    && e.shards.all (fun a => a % 65536 == 0 && (match m.chips.find? (fun c => c.loc == a % 2 ^ 48 / 2 ^ 41) with
      | some c => decide (a % 2 ^ 41 < c.chunks * 2097152) | none => false))

/-- The expert tables agree with the resident plates of the model context that carry the manifest's layout (R155). -/
def expertsAgree (s : State) (mc : Nat) (m : Manifest) : Bool :=
  s.fab.plates.all (fun p => (jobAt s p.2.job).mc != mc || p.2.image.layoutId != m.layoutId
    || p.2.image.layers.all (fun l => l.experts == 0 || m.experts.all (fun e => e.layerId != l.layerId || e.experts == l.experts)))

/-- The contents of a manifest are in order (R234, R235, R237). -/
def manifestOk (s : State) (mc : Nat) (m : Manifest) : Bool :=
  !m.rsvd && m.flags == 0 && decide (1 ≤ m.chipCount ∧ m.chipCount ≤ 128) && m.chips.length == m.chipCount
    && decide (1 ≤ m.shardCount ∧ m.shardCount ≤ 1048576) && m.shards.length == m.shardCount
    && decide (m.expertTables ≤ 1024) && m.experts.length == m.expertTables && decide (m.embTables ≤ 4096) && m.embs.length == m.embTables
    && manifestSections m && m.uuid == (modelOf s mc).elim 0 (·.uuid) && distinct (m.chips.map (·.loc))
    && m.chips.all (fun c => decide (c.loc < 128) && !c.rsvd && decide (1 ≤ c.chunks ∧ c.chunks ≤ 786432))
    && m.shards.all (shardOk m) && allPairs shardsOk m.shards && m.experts.all (expertTableOk m)
    && m.embs.all (embTableOk m) && distinct (m.embs.map (·.tableId)) && expertsAgree s mc m

/-! ## The commit protocol (R241 to R243) -/

/-- The install of a model context changed by f. -/
def modInstall (mc : Nat) (f : Install → Install) (s : State) : State := modModel mc (fun m => { m with install := f m.install }) s

/-- The install record is written with a state (R242). -/
def writeInstall (mc st : Nat) (s : State) : State := modInstall mc (fun x => { x with st := st, time := s.time }) s

/-- The operation of the install enters a phase. -/
def installPhase (mc code : Nat) (s : State) : State :=
  modOp (installOf s mc).op (fun o => { o with code := code, waiting := code == 0x21 }) s

/-- This chip is the coordinator of the install. -/
def coordHere (s : State) (mc : Nat) : Bool := (installOf s mc).coord == ownLoc s

/-- The other chips of the install's chip table. -/
def otherChips (s : State) (mc : Nat) : List Nat :=
  match (installOf s mc).m with
  | some m => (m.chips.map (·.loc)).filter (fun c => c != ownLoc s)
  | none => []

/-- A message goes to every other chip of the install. -/
def toChips (mc : Nat) (msg : XnMsg) (s : State) : State := forEach (fun c s => sendXn c 0 false msg s) (otherChips s mc) s

/-- The epoch area of the install is freed (R183). -/
def freeArea (mc : Nat) (s : State) : State :=
  match installArea (installOf s mc) with
  | some r => modInstall mc (fun x => { x with base := 0, chunks := 0 }) (zeroChunks 0 [r] s)
  | none => s

/-- The install ends on this chip; its FINAL carries the epoch number (R299). Votes that came for it go with it, but for the names of
the chips that cast them. -/
def endInstall (mc : Nat) (st : Status) (s : State) : State :=
  let x := installOf s mc
  endOp x.op st x.epoch (modInstall mc (fun x => { x with
    active := false, op := 0, replies := [], ownNo := false, early := [], earlyNo := []
    votes := dedup' (x.votes ++ x.early.map (·.1) ++ x.earlyNo.map (·.1)) }) s)

/-- The install is abandoned here: record ABORTED, area freed, completion with a status. -/
def abortInstall (mc : Nat) (st : Status) (s : State) : State :=
  endInstall mc st (writeInstall mc 5 (modInstall mc (fun x => { x with noStatus := st, epoch := 0 }) (freeArea mc s)))

/-- The coordinator abandons the install on every chip. -/
def abortAll (mc : Nat) (st : Status) (s : State) : State := abortInstall mc st (toChips mc (.abort mc st) s)

/-- This chip votes no (R240, R241): the coordinator aborts; a participant sends NO and waits for ABORT. -/
def voteNo (mc : Nat) (st : Status) (s : State) : State :=
  if coordHere s mc then abortAll mc st s
  else
    let s := sendXn (installOf s mc).coord 0 false (.no mc st) s
    modInstall mc (fun x => { x with ownNo := true, noStatus := st, heard := s.time }) (writeInstall mc 5 (freeArea mc s))

/-- The number after the newest released (R243). -/
def nextEpoch (s : State) (mc : Nat) : Nat :=
  match (modelOf s mc).bind newestEpoch with | some e => e.num % 65535 + 1 | none => 1

/-- Shard bases gain the chip-local base of the area on the chip that each names (R237). Where another chip put its area is a free
value (log entry 98). -/
def placeEmb (s : State) (mc tag base : Nat) (e : EmbTable) : EmbTable :=
  { e with shards := e.shards.map (fun w =>
      let a := w % 2 ^ 48
      let b := if a / 2 ^ 41 = ownLoc s then base else Config.areaBase mc tag (a / 2 ^ 41) % 2 ^ 20
      a / 2 ^ 41 * 2 ^ 41 + (a % 2 ^ 41 + b * 2097152) % 2 ^ 41) }

/-- Epoch e of the install is bound: it is the newest released epoch, and the one before is superseded (R243, R244). The record keeps
its AREA_BASE (R242). -/
def bindEpoch (mc : Nat) (s : State) : State :=
  let x := installOf s mc
  match x.m with
  | none => s
  | some m =>
    let ep : Epoch := {
      num := x.epoch, base := x.base, chunks := x.chunks, layoutId := m.layoutId
      m := { m with embs := m.embs.map (placeEmb s mc x.installTag x.base) }
      keepSource := x.keepSource, tag := x.installTag, dir := if x.keepSource then x.dir else [], coord := x.coord }
    let s := modModel mc (fun d => { d with
      epochs := ep :: d.epochs.map (fun e => if e.superseded then e else { e with superseded := true, coord := x.coord }) }) s
    { s with sec := { s.sec with weightLog := extendLog [m.digest.toNat, mc, x.epoch] s.sec.weightLog } }

/-- RELEASED here: record, binding, completion (Table 10.6). -/
def releaseInstall (mc : Nat) (s : State) : State := endInstall mc .complete (bindEpoch mc (writeInstall mc 4 s))

/-- The coordinator holds every COMMITTED reply: it releases the epoch. -/
def tryRelease (mc : Nat) (s : State) : State :=
  let x := installOf s mc
  if x.st = 3 && (otherChips s mc).all (fun c => x.replies.contains c) then
    releaseInstall mc (toChips mc (.release mc) (installPhase mc 0x25 s))
  else s

/-- The coordinator holds PREPARED from every chip: it commits epoch e. -/
def tryCommit (mc : Nat) (s : State) : State :=
  let x := installOf s mc
  if x.st = 2 && coordHere s mc && (otherChips s mc).all (fun c => x.votes.contains c) then
    let e := nextEpoch s mc
    let s := modInstall mc (fun x => { x with epoch := e, committedAt := s.time, replies := [] }) (writeInstall mc 3 s)
    tryRelease mc (toChips mc (.commit mc e) (installPhase mc 0x24 s))
  else s

/-- Every shard of this chip is verified. -/
def shardsDone (x : Install) : Bool := x.shards.all (·.verified)

/-- Jobs with a KV geometry keep their RAGGED in agreement with the manifest's span (R223, R241). -/
def raggedAgrees (s : State) (mc : Nat) (m : Manifest) : Bool :=
  s.srv.jobs.all (fun j => !j.2.present || j.2.mc != mc || (match j.2.kv with
    | some g => (g.ragged == 0) == decide (m.chips.length ≤ 8) | none => true))

/-- n bytes of device memory from a are copied to b, with the scale bytes and the poison of their lines. -/
def copySpan (a b n : Nat) (s : State) : State :=
  { s with mem := { s.mem with
      dram := forEach (fun (e : Host.Cell) m => cwrite m (e.1 - a + b) e.2)
        (s.mem.dram.filter (fun e => decide (a ≤ e.1 ∧ e.1 < a + n))) (czero s.mem.dram b n)
      scales := forEach (fun (e : Nat × Nat) m => mset m (e.1 - a / 32 + b / 32) e.2)
        (s.mem.scales.filter (fun e => decide (a ≤ 32 * e.1 ∧ 32 * e.1 < a + n)))
        (s.mem.scales.filter (fun e => !decide (b ≤ 32 * e.1 ∧ 32 * e.1 < b + n)))
      poisonLines := s.mem.poisonLines.filter (fun k => !decide (b ≤ 32 * k ∧ 32 * k < b + n))
        ++ (s.mem.poisonLines.filter (fun k => decide (a ≤ 32 * k ∧ 32 * k < a + n))).map (fun k => k - a / 32 + b / 32) } }

/-- Every row of slot 0 of this chip's shards of two-slot tables is copied into slot 1, before the vote (R175). -/
def fillSlots (base : Nat) (m : Manifest) (s : State) : State :=
  forEach (fun (e : EmbTable) s =>
    let n := 2 ^ (e.rowBits - e.shardBits) * rowStride e
    forEach (fun w s =>
      let a := w % 2 ^ 41 + base * 2097152
      if w % 2 ^ 48 / 2 ^ 41 = ownLoc s then copySpan a (a + n) n s else s) e.shards s) (m.embs.filter twoSlot) s

/-- A chip that is ready votes (R241). -/
def tryVote (mc : Nat) (s : State) : State :=
  let x := installOf s mc
  match x.m, mget s.ops.live x.op with
  | some m, some o =>
    if !x.active || x.st != 1 || o.code != 0x22 || opHeld s o || !shardsDone x then s
    else if !expertsAgree s mc m || !raggedAgrees s mc m then voteNo mc .malformed s
    else if ((modelOf s mc).elim [] (·.epochs)).any (·.superseded) then s
    else
      let s := installPhase mc 0x23 (modInstall mc (fun x => { x with heard := s.time }) (writeInstall mc 2 (fillSlots x.base m s)))
      if coordHere s mc then tryCommit mc s
      else sendXn x.coord 0 false (.prepared mc x.installTag m.digest x.coord) s
  | _, _ => s

/-- The coordinator counts the votes it holds (R238): those of chips in the chip table; one that carries another tag,
digest or coordinator is a no vote. -/
def tally (mc : Nat) (s : State) : State :=
  let x := installOf s mc
  match x.m with
  | none => s
  | some m =>
    if !x.active || !coordHere s mc || (x.st != 1 && x.st != 2) then s
    else
      let vs := x.early.filter (fun v => hasChip m v.1)
      let nos := x.earlyNo.filter (fun v => hasChip m v.1)
      let s := modInstall mc (fun x => { x with early := [], earlyNo := [] }) s
      match nos.head?, vs.find? (fun v => v.2.1 != x.installTag || v.2.2.1 != m.digest || v.2.2.2 != x.coord) with
      | some v, _ => abortAll mc v.2 s
      | none, some _ => abortAll mc .malformed s
      | none, none => tryCommit mc (modInstall mc (fun x => { x with votes := dedup' (x.votes ++ vs.map (·.1)) }) s)

/-! ## Staging (R238 to R240) -/

/-- EPOCH_INSTALL (R238). -/
def execEpochInstall (t : Nat) (h : Hdr) (installTag coord manifestAddr manifestSize dirAddr : Nat) (s : State) : Host.Outcome State Fault Refusal :=
  .next (command2 t h (fun s =>
    let mc := h.modelCtx
    match firstOf [shapeCheck s h { rings := [2], admin := true, flags := 3, mc := true } (decide (127 < coord)) false true, mcCheck s h,
        powerCheck s, failIf (installOf s mc).active .busy] with
    | some st => refuseOp h st s
    | none =>
      let n := s.ops.next
      let s := readHost h.ctx manifestAddr manifestSize h.job h.layerTag h.opTag (beginOp h (.epochInstall mc) 0x20 s)
      writeInstall mc 1 (modInstall mc (fun x => {
        installTag := installTag, coord := coord, op := n, active := true, deadline := h.deadline, dirAddr := dirAddr
        manifestSize := manifestSize, consent := bit h.flags 0, keepSource := bit h.flags 1
        early := x.early, earlyNo := x.earlyNo, heard := s.time }) s)) s)

/-- The first run of n chunks in a list of runs. -/
def findRun (n : Nat) (l : List (Nat × Nat)) : Option Nat := (l.find? (fun r => decide (n ≤ r.2))).map (·.1)

/-- Where an area of n chunks fits: in a run of free model space, and, while a shrink waits, within its target (R202, R239). -/
def areaRoom (s : State) (n : Nat) : Option Nat :=
  match s.mem.modelTarget with
  | some k => if liveModel s + n ≤ k then findRun n (freeModel s) else none
  | none => findRun n (freeModel s)

/-- The model context's free space after firmware has evicted what it may, until a run of n chunks is free (R198, R239). -/
def makeRun (mc n : Nat) : Nat → State → State
  | 0, s => s
  | fuel + 1, s =>
    if (areaRoom s n).isSome then s
    else match evictModel s mc with
      | none => s
      | some v => makeRun mc n fuel (dropModelAreas v s)

/-- The line modes of this chip's shards are set on the area's chunks (R183, R235). -/
def setModes (base : Nat) (m : Manifest) (s : State) : State :=
  forEach (fun (x : ShardRec) s =>
    if (m.chips.getD x.chip {}).loc = ownLoc s && x.lmode != 0 then
      zeroChunks x.lmode [(base + x.offset / 2097152, (x.offset + x.size - 1) / 2097152 - x.offset / 2097152 + 1)] s
    else s) m.shards s

/-- A shard of the install changed by f. -/
def modShard (mc idx : Nat) (f : ShardSt → ShardSt) (s : State) : State :=
  modInstall mc (fun x => { x with shards := x.shards.map (fun q => if q.idx = idx then f q else q) }) s

/-- A fetch of a shard begins (R239, R240): from its directory address, and after a failed attempt from a verified peer copy first;
without a source it waits. -/
def startShard (mc idx : Nat) (s : State) : State :=
  let x := installOf s mc
  if ((mget s.ops.live x.op).map (opHeld s)).getD false then s
  else match x.m, x.shards.find? (fun q => q.idx == idx && !q.verified) with
  | some m, some q =>
    let go := modShard mc idx (fun q => { q with fetching := true })
    let dir := x.dir.getD idx 0
    match peerCopy s m idx (fun k => x.copies.contains k) with
    | some c => if q.attempts = 0 ∧ dir ≠ 0 then fetchDir dir (m.shards.getD idx {}) (go s) else fetchCopy mc x.installTag x.epoch c (go s)
    | none => if dir ≠ 0 then fetchDir dir (m.shards.getD idx {}) (go s) else s
  | _, _ => s

/-- Shards that are not being fetched are. -/
def startWaiting (mc : Nat) (s : State) : State :=
  forEach (fun (q : ShardSt) s => startShard mc q.idx s) ((installOf s mc).shards.filter (fun q => !q.fetching && !q.verified)) s

/-- The chip allocates its epoch area, or waits for room, and begins to fetch its shards (R239). A directory that could not be read
has cost each of them one attempt (R278). -/
def takeArea (mc : Nat) (s : State) : State :=
  let x := installOf s mc
  match x.m with
  | none => s
  | some m =>
    let n := (m.chips.find? (fun c => c.loc == ownLoc s)).elim 0 (·.chunks)
    if runLen s.mem.model < n then voteNo mc .resourceExhausted s
    else
      let s := if x.consent then makeRun mc n s.mdl.ctxs.length s else s
      match areaRoom s n with
      | none => installPhase mc 0x21 s
      | some b =>
        let own := ((m.shards.zip (List.range m.shards.length)).filter (fun p => (m.chips.getD p.1.chip {}).loc == ownLoc s)).map (·.2)
        let k := if x.dir.length = m.shards.length then 0 else 1
        let s := setModes b m (zeroChunks 0 [(b, n)] s)
        let s := modInstall mc (fun x => { x with base := b, chunks := n, shards := own.map (fun i => { idx := i, attempts := k }) }) s
        tryVote mc (startWaiting mc (installPhase mc 0x22 s))

/-- MANIFEST_VERIFIED (R234, R238, R239): none says that the manifest could not be read. dir is the shard directory as read, empty where
that read failed. -/
def execManifestVerified (t op : Nat) (m : Option (Manifest × List Nat)) (s : State) : Host.Outcome State Fault Refusal :=
  let s := tick t s
  .next (match mget s.ops.live op with
    | some o => (match o.kind with
      | .epochInstall mc =>
        let x := installOf s mc
        if o.code ≠ 0x20 ∨ opHeld s o ∨ x.op ≠ op ∨ x.st ≠ 1 then s
        else match m with
          | none => voteNo mc .malformed s
          | some (m, dir) =>
            match objectCheck s (m.magicOk && m.format == 1 && m.size == x.manifestSize && m.size % 256 == 0 && decide (m.size ≤ 2 ^ 28)) m.signer 3 7
                (m.digestOk && m.sigOk) none with
            | some st => voteNo mc st (if st = .accessDenied then coffer 1 3 .imageRefused 0 0 mc 0 s else s)
            | none =>
              if !manifestOk s mc m then voteNo mc .malformed (modInstall mc (fun x => { x with m := some m }) s)
              else if !hasChip m x.coord || !hasChip m (ownLoc s) then abortInstall mc .malformed s
              else
                let s := modInstall mc (fun x => { x with m := some m, dir := dir }) s
                let s := readHost o.cmd.ctx x.dirAddr (8 * m.shards.length) 0 0 0 s
                let s := tally mc s
                if (installOf s mc).active then takeArea mc s else s
      | _ => s)
    | none => s)

/-- AREA_ALLOCATED (R239): an allocation that waits is tried again. -/
def execAreaAllocated (t op : Nat) (s : State) : Host.Outcome State Fault Refusal :=
  let s := tick t s
  .next (match mget s.ops.live op with
    | some o => (match o.kind with
      | .epochInstall mc => if o.code = 0x21 ∧ !opHeld s o ∧ (installOf s mc).op = op then takeArea mc s else s
      | _ => s)
    | none => s)

/-- The data bytes of a shard as it travels (R236) are written at a byte address of device memory. -/
def writeShard (a lmode : Nat) (data : List Byte) (s : State) : State :=
  if lmode = 0 then writeDram a data s
  else forEach (fun i s =>
    let im := (data.drop (36 * i)).take 36
    let sc := leNat ((im.drop 32).take (if lmode = 3 then 1 else 2))
    writeDram (a + 32 * i) (im.take 32) { s with mem := { s.mem with
      scales := if sc = 0 then mdel s.mem.scales (a / 32 + i) else mset s.mem.scales (a / 32 + i) sc } })
    (List.range (data.length / 36)) s

/-- A fetch attempt of a shard has brought data, or has failed (R240): verified it is written, and the chip may vote; after the fourth
failure the chip votes no, and before that it fetches again. -/
def shardAttempt (mc idx : Nat) (data : Option (List Byte)) (s : State) : State :=
  let x := installOf s mc
  match x.m, x.shards.find? (fun q => q.idx == idx && q.fetching && !q.verified) with
  | some m, some q =>
    let r := m.shards.getD idx {}
    match data.filter (shardGood r) with
    | some d => tryVote mc (writeShard (x.base * 2097152 + r.offset) r.lmode d (modShard mc idx (fun q => { q with verified := true, fetching := false }) s))
    | none =>
      if 3 ≤ q.attempts then voteNo mc .accessDenied s
      else startShard mc idx (modShard mc idx (fun q => { q with attempts := q.attempts + 1, fetching := false }) s)
  | _, _ => s

/-- The install of mc fetches its shards; a hold (R298) starts no further fetch, and what comes back still counts. -/
def staging (s : State) (mc : Nat) : Bool :=
  let x := installOf s mc
  x.active && x.st == 1 && (match mget s.ops.live x.op with | some o => o.code == 0x22 | none => false)

/-- SHARD_FETCHED (R240): a fetch attempt ends with the bytes it brought; none where a read faulted. copies names records of other
chips whose copies are known to be verified by now, for shards that wait for one. -/
def execShardFetched (t mc shard : Nat) (data : Option (List Byte)) (copies : List Nat) (s : State) : Host.Outcome State Fault Refusal :=
  let s := tick t s
  .next (if !staging s mc then s
    else
      let s := shardAttempt mc shard data (modInstall mc (fun x => { x with copies := dedup' (x.copies ++ copies) }) s)
      if staging s mc then startWaiting mc s else s)

/-- INSTALL_DEADLINE (R240, R241). -/
def execInstallDeadline (t mc : Nat) (s : State) : Host.Outcome State Fault Refusal :=
  let s := tick t s
  let x := installOf s mc
  .next (if !x.active || decide (s.time < x.deadline) then s
    else if coordHere s mc then (if x.st = 1 ∨ x.st = 2 then abortAll mc .epochUnavailable s else s)
    else if x.st = 1 then voteNo mc .epochUnavailable s
    else s)

/-! ## Messages of Table 10.6 -/

/-- A vote that reaches this chip after the install that it was cast for has ended: the chip that sent it had not yet voted in that
install, and a PREPARED carries its tag (R243, log entry 185). -/
def lateVote (s : State) (mc src : Nat) (tag : Option Nat) : Bool :=
  let x := installOf s mc
  !x.active && (x.st == 4 || x.st == 5) && (x.m.elim false (fun m => hasChip m src))
    && (match tag with | some k => k == x.installTag | none => !x.votes.contains src)

/-- The chip's vote in the install that has ended is in. -/
def noteVote (mc src : Nat) (s : State) : State := modInstall mc (fun x => { x with votes := dedup' (x.votes ++ [src]) }) s

/-- PREPARED reaches the coordinator; a vote that comes before its own manifest is verified is held. -/
def execPrepared (t mc src installTag : Nat) (digest : Digest) (coord : Nat) (s : State) : Host.Outcome State Fault Refusal :=
  let s := tick t s
  .next (if lateVote s mc src (some installTag) then noteVote mc src s
    else tally mc (modInstall mc (fun x => { x with early := x.early ++ [(src, installTag, digest, coord)] }) s))

/-- NO reaches the coordinator. -/
def execNo (t mc src : Nat) (status : Status) (s : State) : Host.Outcome State Fault Refusal :=
  let s := tick t s
  .next (if lateVote s mc src none then noteVote mc src s
    else tally mc (modInstall mc (fun x => { x with earlyNo := x.earlyNo ++ [(src, status)] }) s))

/-- The message comes from the coordinator of an install in progress in which this chip takes part. -/
def fromCoord (s : State) (mc src : Nat) : Bool :=
  (installOf s mc).active && !coordHere s mc && (installOf s mc).coord == src

/-- COMMIT(e). -/
def execInstallCommit (t mc src epoch : Nat) (s : State) : Host.Outcome State Fault Refusal :=
  let s := tick t s
  .next (if fromCoord s mc src && (installOf s mc).st == 2 then
      sendXn src 0 false (.committed mc) (installPhase mc 0x24
        (modInstall mc (fun x => { x with epoch := epoch, heard := s.time }) (writeInstall mc 3 s)))
    else s)

/-- COMMITTED. -/
def execCommittedReply (t mc src : Nat) (s : State) : Host.Outcome State Fault Refusal :=
  let s := tick t s
  .next (if (installOf s mc).active && coordHere s mc && (installOf s mc).st == 3 then
      tryRelease mc (modInstall mc (fun x => { x with replies := if x.replies.contains src then x.replies else src :: x.replies }) s)
    else s)

/-- RELEASE; one that comes again is acknowledged again. -/
def execRelease (t mc src : Nat) (s : State) : Host.Outcome State Fault Refusal :=
  let s := tick t s
  .next (if fromCoord s mc src && (installOf s mc).st == 3 then
      releaseInstall mc (sendXn src 0 false (.releaseAck mc) s)
    else if (installOf s mc).st == 4 && (installOf s mc).coord == src && !coordHere s mc then sendXn src 0 false (.releaseAck mc) s
    else s)

/-- An acknowledgement of RELEASE. -/
def execReleaseAck (t mc src : Nat) (s : State) : Host.Outcome State Fault Refusal :=
  let s := tick t s
  .next (if coordHere s mc && (installOf s mc).st == 4 then
      modInstall mc (fun x => { x with acks := if x.acks.contains src then x.acks else src :: x.acks }) s
    else s)

/-- ABORT(status). -/
def execAbort (t mc src : Nat) (status : Status) (s : State) : Host.Outcome State Fault Refusal :=
  let s := tick t s
  .next (if fromCoord s mc src && ((installOf s mc).st == 1 || (installOf s mc).st == 2 || (installOf s mc).st == 3 || (installOf s mc).ownNo) then
      abortInstall mc status s
    else s)

/-- A participant has heard nothing for 10 ms: it asks the coordinator. -/
def execInstallQueryTimer (t mc : Nat) (s : State) : Host.Outcome State Fault Refusal :=
  let s := tick t s
  let x := installOf s mc
  .next (if x.active && !coordHere s mc && (x.st == 2 || x.st == 3 || x.ownNo) && decide (x.heard + 10000000 ≤ s.time) then
      sendXn x.coord 0 false (.query mc) s
    else s)

/-- The coordinator answers with its state; RELEASE goes again to a chip that has not acknowledged it, and ABORT to one
that asks after an abort (R243, Table 10.8). -/
def execInstallQuery (t mc src : Nat) (s : State) : Host.Outcome State Fault Refusal :=
  let s := tick t s
  let x := installOf s mc
  .next (if (modelOf s mc).isNone then s
    else
      let s := sendXn src 0 false (.stateAnswer mc x.st) s
      if !coordHere s mc then s
      else if x.st = 4 && !x.acks.contains src then sendXn src 0 false (.release mc) s
      else if x.st = 5 then sendXn src 0 false (.abort mc x.noStatus) s
      else s)

/-- A COMMITTED reply is missing 100 ms after COMMIT. -/
def execCommittedReplyTimeout (t mc : Nat) (s : State) : Host.Outcome State Fault Refusal :=
  let s := tick t s
  let x := installOf s mc
  .next (if x.active && coordHere s mc && x.st == 3 && decide (x.committedAt + 100000000 ≤ s.time) then abortAll mc .resetAborted s else s)

/-! ## Freeing a superseded epoch (R247) -/

/-- The chip that collects the reports of an epoch: the coordinator of the install that superseded it, or the first
reachable chip of its table. -/
def drainCoord (s : State) (e : Epoch) : Nat :=
  if routed s e.coord then e.coord else ((e.m.chips.find? (fun c => routed s c.loc)).elim (ownLoc s) (·.loc))

/-- This coordinator has the report of every chip of the epoch that is not lost: every chip is told to free the epoch (R247, log entry
186). -/
def tryFree (mc n : Nat) (s : State) : State :=
  match epochOf s mc n with
  | none => s
  | some e =>
    if e.superseded && e.m.chips.all (fun c => e.drained.contains c.loc || (c.loc != ownLoc s && !routed s c.loc)) then
      let s := forEach (fun (c : ChipEntry) s => if c.loc = ownLoc s then s else sendXn c.loc 0 false (.freeEpoch mc n) s) e.m.chips s
      tryVote mc (freeEpochArea mc n s)
    else s

/-- A chip's report of an epoch's drain is kept by the coordinator. -/
def noteDrained (mc n src : Nat) (s : State) : State :=
  tryFree mc n (modEpoch mc n (fun e => { e with drained := if e.drained.contains src then e.drained else src :: e.drained }) s)

/-- This chip reports that a superseded epoch has drained here, to the coordinator or to the chip that takes its place; not twice to
the same one. -/
def reportDrain (mc n : Nat) (s : State) : State :=
  match epochOf s mc n with
  | none => s
  | some e =>
    let c := drainCoord s e
    if !e.superseded || e.refs != 0 || e.reported == some c then s
    else
      let s := modEpoch mc n (fun e => { e with reported := some c }) s
      if c = ownLoc s then noteDrained mc n c s else sendXn c 0 false (.drained mc n) s

/-- EPOCH_DRAINED: this chip's own count has reached zero, or another chip's report arrives. -/
def execEpochDrained (t mc epoch src : Nat) (s : State) : Host.Outcome State Fault Refusal :=
  let s := tick t s
  .next (if src = ownLoc s then reportDrain mc epoch s else noteDrained mc epoch src s)

/-- EPOCH_FREE: the coordinator's order; an install that waited for the drain may then vote. -/
def execEpochFree (t mc epoch : Nat) (s : State) : Host.Outcome State Fault Refusal :=
  let s := tick t s
  .next (match epochOf s mc epoch with
    | some e => if e.superseded then tryVote mc (freeEpochArea mc epoch s) else s
    | none => s)

/-- The coordinator of an install in progress has been silent for 5 s, or is lost (Table 10.8). -/
def coordLost (mc : Nat) (anyReleased : Bool) (s : State) : State :=
  let x := installOf s mc
  if !x.active || coordHere s mc || !(decide (x.heard + 5000000000 ≤ s.time) || !routed s x.coord) then s
  else if anyReleased && (x.st == 2 || x.st == 3) then
    releaseInstall mc (if x.st = 2 then modInstall mc (fun x => { x with epoch := nextEpoch s mc }) s else s)
  else abortInstall mc .resetAborted s

/-- COORDINATOR_UNREACHABLE (R249, Table 10.8): an install is resolved, and drains reported to a lost coordinator are reported to the
chip that takes its place (R247). -/
def execCoordinatorUnreachable (t mc : Nat) (anyReleased : Bool) (s : State) : Host.Outcome State Fault Refusal :=
  let s := coordLost mc anyReleased (tick t s)
  .next (forEach (fun n s => tryFree mc n (reportDrain mc n s))
    (((modelOf s mc).elim [] (·.epochs)).filterMap (fun e => if e.superseded && e.reported.isSome then some e.num else none)) s)

/-! ## KV_MIGRATE (R254, R255) -/

/-- The model context's newest epoch names the chip. -/
def chipServes (s : State) (mc loc : Nat) : Bool :=
  match (modelOf s mc).bind newestEpoch with | some e => hasChip e.m loc | none => false

/-- KV_MIGRATE: the checks of Table 11.7; ans is what the target chip answers. -/
def execKvMigrate (t : Nat) (h : Hdr) (seq target targetVf : Nat) (ans : MigrateAns) (s : State) : Host.Outcome State Fault Refusal :=
  .next (command2 t h (fun s =>
    let i := seq % 65536
    let q := seqOf s i
    match firstOf [shapeCheck s h { rings := [2], job := true } (decide (127 < target)), jobCheck s h, powerCheck s,
        failIf (q.st == 0 || q.gen != seq / 65536) .malformed, failIf (q.ctx != h.ctx) .accessDenied,
        failIf (q.job != jobIdx h.job) .malformed,
        failIf (q.st != 2 || q.migrating) .busy, failIf (target == ownLoc s || !chipServes s q.mc target) .malformed,
        failIf (!routed s target || ans.gone) .fabricTargetLost,
        failIf (!ans.ctxExists || ans.tag != (partOf s (ctxPart s q.ctx)).tag) .accessDenied, failIf (!ans.jobOk) .malformed,
        failIf (ans.newestEpoch != q.epoch) .epochUnavailable, failIf (!ans.roomOk) .resourceExhausted] with
    | some st => refuseOp h st s
    | none =>
      let s := beginOp h (.kvMigrate q.job i target targetVf) 0x80 s
      sendXn target 4 false (.migrate seq) (modSeq i (fun q => { q with migrating := true }) s)) s)

/-- On the source's board the pages and block-state words of the groups that this chip serves stay in their frames, now of the target's
sequence, which the target has published (R255); tree pages that the target's tables map stay in use (R263). -/
def passPages (pn i target new : Nat) (s : State) : State :=
  let q := seqOf s i
  let own := ownLoc s
  let geo := (jobAt s q.job).kv
  let gs := match geo with | some g => ownGroups s g | none => []
  let s := modPart pn (fun p => { p with objs := p.objs.map (fun x => match x.kind with
    | .kv hm j g pg => if hm = own ∧ j = i then { x with kind := .kv target new g pg } else x
    | .blockState hm j => if hm = own ∧ j = i then { x with kind := .blockState target new } else x
    | _ => x) }) s
  modPub target new (fun x => { x with
    committed := q.committed, valid := q.valid
    pages := q.pages.filter (fun k => gs.contains k.group && !k.frames.isEmpty)
      ++ (q.pages.filter (fun k => !gs.contains k.group && k.shared.isSome)).map (fun k => { k with frames := [] })
    blocks := q.blocks.filter (fun b => gs.contains b.group) }) s

/-- MIGRATE_COPY_DONE: the switch (R255). -/
def execMigrateCopyDone (t op newHandle : Nat) (s : State) : Host.Outcome State Fault Refusal :=
  let s := tick t s
  .next (match mget s.ops.live op with
    | some o => (match o.kind with
      | .kvMigrate _ i target _ =>
        if o.code ≠ 0x80 ∨ opHeld s o then s
        else
          let s := if target / 8 = ownLoc s / 8 then passPages (ctxPart s (seqOf s i).ctx) i target (newHandle % 65536) s else s
          let s := endSeq i (modSeq i (fun q => { q with cachePfx := false }) s)
          endOp op .complete newHandle s
      | _ => s)
    | none => s)

end Sys2Proof.Machine
end

