-- ==== Sys2Proof/Machine/Telemetry.lean ====
section
/-! DEFINITION. Counters' filters, layer reports, traces, watches, background work, Patina, advisories and the Coffer
(chapter 18). -/
namespace Sys2Proof.Machine

/-! ## Telemetry commands, ring 3 -/

/-- TRACE_SETUP: the context's trace ring is set up or replaced, or tracing stops (R426). -/
def execTraceSetup (t : Nat) (h : Hdr) (base sizeLog2 kinds headAddr : Nat) (s : State) : Host.Outcome State Fault Refusal :=
  .next (command t h (fun s =>
    match shapeCheck s h infoTd (sizeLog2 != 0 && (decide (sizeLog2 < 8) || decide (20 < sizeLog2))) with
    | some st => final (cmdOf h) st 0 0 s
    | none =>
      final (cmdOf h) .complete 0 0 (modCtx h.ctx (fun x => { x with
        trace := if sizeLog2 = 0 then none
                 else some { base := base, sizeLog2 := sizeLog2, kinds := kinds, headAddr := headAddr } }) s)) s)

/-- The ID names a live job that another context admitted. -/
def othersJob (s : State) (c id : Nat) : Bool := jobLive s id && (jobAt s (jobIdx id)).ctx != c

/-- COUNTER_FILTER: a filter set is armed and its counters cleared (R422, R428). -/
def execCounterFilter (t : Nat) (h : Hdr) (set layer operator job : Nat) (s : State) : Host.Outcome State Fault Refusal :=
  .next (command t h (fun s =>
    match firstOf [shapeCheck s h infoTd (decide (3 < set)),
      failIf ((ctxOf s h.ctx).addrOnly && (layer != 0xFFFF || operator != 0xFFFF)) .malformed,
      failIf (job != 0xFFFF && othersJob s h.ctx job) .accessDenied] with
    | some st => final (cmdOf h) st 0 0 s
    | none =>
      final (cmdOf h) .complete 0 0 (modCtx h.ctx (fun x => { x with
        filters := mset x.filters set { armed := true, job := job, layer := layer, operator := operator } }) s)) s)

/-- The fields of one layer report record in the order of Table 18.3; k is the layer's index in the layer table. -/
def layerRecordOf (p : Nat) (q : Plate) (l : LayerRec) (k : Nat) (addrOnly : Bool) : List Nat :=
  let c := mgetD q.layerCnt l.layerId { r := l.proofBase }
  [p, c.r, if addrOnly then k else l.layerId, c.satT, c.ftzT, c.wlossT, c.proofs, c.proofFail, c.widenRows, c.exhRows,
   c.overflow, c.probed, c.sharedOnly, c.metaFault, q.skipped, c.steps]

/-- The layer records of a job in plate order, then in layer-table order (R425). -/
def layerRecords (s : State) (i : Nat) (addrOnly : Bool) : List (List Nat) :=
  (jobPlates s i).flatMap (fun e =>
    (e.2.image.layers.zip (List.range e.2.image.layers.length)).map (fun l => layerRecordOf e.1 e.2 l.1 l.2 addrOnly))

/-- LAYER_REPORT: as many whole 64-byte records as fit are written; INFO is the bytes, VALUE the records due (R425). -/
def execLayerReport (t : Nat) (h : Hdr) (addr bytes : Nat) (s : State) : Host.Outcome State Fault Refusal :=
  .next (command t h (fun s =>
    match firstOf [shapeCheck s h { rings := [3], job := true } false, jobCheck s h] with
    | some st => final (cmdOf h) st 0 0 s
    | none =>
      let all := layerRecords s (jobIdx h.job) (ctxOf s h.ctx).addrOnly
      let fit := all.take (bytes / 64)
      final (cmdOf h) .complete (64 * fit.length) all.length
        (forEach (fun (e : List Nat × Nat) s =>
          emit (.layerRecord h.ctx (addr + 64 * e.2) e.1) (countHostWr h.ctx h.job h.layerTag h.opTag 64 s))
          (fit.zip (List.range fit.length)) s)) s)

/-- Bytes of a watched tensor at a boundary of a step kind; none where the image does not hold the symbol there. -/
def tensorBytes (s : State) (p kind symbol : Nat) : Option (Nat × Nat) :=
  match watchSlices s p kind symbol with
  | [] => none
  | l => some (sumOf (fun x => x.2.2) l, l.length)

/-- What R429 refuses as malformed: a plate that is not the job's, a symbol not held at the boundary, a tensor above
16 MiB, a buffer too small for header, directory and tensor. -/
def watchBad (s : State) (h : Hdr) (b : WatchBody) : Bool :=
  !(jobPlates s (jobIdx h.job)).any (fun e => e.1 == b.plate)
    || match tensorBytes s b.plate b.stepKind b.symbolId with
       | none => true
       | some (n, k) => decide (2 ^ 24 < n) || decide (b.bufBytes < 64 + 8 * k + n)

/-- TENSOR_WATCH: a watch is armed; its FINAL stays owed until it fires, expires or is cancelled (R428 to R430). -/
def execTensorWatch (t : Nat) (h : Hdr) (b : WatchBody) (s : State) : Host.Outcome State Fault Refusal :=
  .next (command t h (fun s =>
    match firstOf [shapeCheck s h { rings := [3], job := true } (b.expiry == 0 || decide (60000 < b.expiry)), jobCheck s h,
      failIf (ctxOf s h.ctx).addrOnly .accessDenied, failIf (watchBad s h b) .malformed,
      failIf (decide (4 ≤ (ctxOf s h.ctx).watches.length)) .resourceExhausted] with
    | some st => final (cmdOf h) st 0 0 s
    | none =>
      let n := (tensorBytes s b.plate b.stepKind b.symbolId).elim 0 (·.1)
      modCtx h.ctx (fun x => { x with
        watches := x.watches ++ [{ reqId := h.reqId, irq := h.irq, job := h.job, b := b, bytes := n,
                                   due := s.time + 1000000 * b.expiry, layerTag := h.layerTag, opTag := h.opTag }] }) s) s)

/-- A live watch of a context ends with a status and INFO 0. -/
def endWatch (c : Nat) (w : Watch) (st : Status) (s : State) : State :=
  final { ctx := c, ring := 9, reqId := w.reqId, irq := w.irq } st 0 0
    (modCtx c (fun x => { x with watches := x.watches.erase w }) s)

/-- WATCH_CANCEL: the watch named, if it has not fired, completes with CANCELLED (R430). -/
def execWatchCancel (t : Nat) (h : Hdr) (target : Nat) (s : State) : Host.Outcome State Fault Refusal :=
  .next (command t h (fun s =>
    match shapeCheck s h infoTd false with
    | some st => final (cmdOf h) st 0 0 s
    | none =>
      let s := match (ctxOf s h.ctx).watches.find? (fun w => w.reqId == target) with
        | some w => endWatch h.ctx w .cancelled s
        | none => s
      final (cmdOf h) .complete 0 0 s) s)

/-- WATCH_EXPIRY: a watch whose EXPIRY has run out completes COMPLETE with INFO 0 (R430). -/
def execWatchExpiry (t ctx reqId : Nat) (s : State) : Host.Outcome State Fault Refusal :=
  let s := tick t s
  .next (match (ctxOf s ctx).watches.find? (fun w => w.reqId == reqId && decide (w.due ≤ s.time)) with
    | some w => endWatch ctx w .complete s
    | none => s)

/-- TRACE_DROP: an event's record cannot be written within 100 µs; it is dropped and counted (R426). -/
def execTraceDrop (t ctx : Nat) (req : Option Nat) (s : State) : Host.Outcome State Fault Refusal :=
  let s := tick t s
  .next (dropTrace ctx req.toList s)

/-! ## Background work and Patina -/

/-- Advisory level of a 10th percentile in days (R436). -/
def levelOf (p10 : Nat) : Nat := if p10 < 30 then 3 else if p10 < 90 then 2 else if p10 < 365 then 1 else 0

/-- The least of a list by a measure, the earlier winning ties. -/
def leastBy {α : Type} (f : α → Nat) : List α → Option α
  | [] => none
  | x :: l => match leastBy f l with
    | none => some x
    | some y => if f y < f x then some y else some x

/-- WEAR of a degradation in 0.001 % (R437). -/
def wearOf (d : Nat) : Nat := min 255 (d / 25)

/-- Patina's guard band in mV for a degradation in 0.001 %: 5 mV × ⌈D ÷ 0.5 %⌉, at most 60 (R437). -/
def patinaGuardOf (d : Nat) : Nat := min 60 (5 * ceilDiv d 500)

/-- Nanoseconds of a day. -/
def dayNs : Nat := 86400000000000

/-- Remaining life in days of an indicator that has moved from old toward its limit over some ns (R435): a limit reached leaves none,
a rate of zero or an improving trend gives 65,535 days. left is what remains to the limit, moved what it has moved. -/
def linearLife (left moved ns : Nat) : Nat :=
  if left = 0 then 0 else if moved = 0 then 0xFFFF else min 0xFFFF (left * ns / (moved * dayNs))

/-- Remaining life in days of an island at degradation d in 0.001 % after t stress-days, of which acc were accrued over some ns
(R435): it reaches 6.000 % at t · (6.000 % ÷ d)² stress-days. -/
def ringLife (d t acc ns : Nat) : Nat :=
  if 6000 ≤ d then 0 else if d = 0 ∨ acc = 0 then 0xFFFF
  else min 0xFFFF (t * (6000 * 6000 - d * d) * ns / (d * d * acc * dayNs))

/-- κ in per cent of the rows of Table 18.7. -/
def kappa (row : Nat) : Nat := if row = 0 then 70 else if row = 1 then 80 else if row = 2 then 75 else if row = 3 then 50 else 60

/-- A row of Table 18.7, a unit, its median remaining life and its 10th percentile, κ × r rounded down (log entry 191). -/
def lifeRow (row unit r : Nat) : Nat × Nat × Nat × Nat := (row, unit, r, r * kappa row / 100)

/-- Each value of a list beside the one measured earlier, under its unit's number. -/
def beside (l old : List Nat) : List (Nat × Nat × Nat) :=
  (l.zip (List.range l.length)).map (fun e => (e.2, e.1, old.getD e.2 e.1))

/-- The remaining life of every unit of a sample, where old was measured some ns before (Table 18.7, R434, R435). -/
def lives (x old : PatinaSample) (ns : Nat) : List (Nat × Nat × Nat × Nat) :=
  x.degr.map (fun e =>
    let t0 := ((old.degr.find? (fun o => o.1 == e.1)).map (fun o => o.2.2)).getD e.2.2
    lifeRow 0 e.1 (ringLife e.2.1 e.2.2 (e.2.2 - t0) ns))
  ++ (beside x.charge old.charge).map (fun e => lifeRow 1 e.1 (linearLife (1000000 - e.2.1) (e.2.1 - e.2.2) ns))
  ++ (beside x.cycles old.cycles).map (fun e => lifeRow 2 e.1 (linearLife (100000 - e.2.1) (e.2.1 - e.2.2) ns))
  ++ (beside x.errors old.errors).map (fun e => lifeRow 3 e.1 (linearLife (1000 - e.2.1) (e.2.1 - e.2.2) ns))
  ++ (beside x.eye old.eye).map (fun e => lifeRow 4 e.1 (linearLife (e.2.1 - 10) (e.2.2 - e.2.1) ns))

/-- The median and 10th percentile of the package and the unit that sets the latter (R435, R436); an advisory level
rises at once and falls at the second lower update running. -/
def setLife (l : List (Nat × Nat × Nat × Nat)) (s : State) : State :=
  let med := (leastBy (fun x => x.2.2.1) l).elim 0xFFFF (fun x => min 0xFFFF x.2.2.1)
  let low := leastBy (fun x => x.2.2.2) l
  let p10 := low.elim 0xFFFF (fun x => min 0xFFFF x.2.2.2)
  let lv := levelOf p10
  let old := s.td.level
  let runs := if lv < old then s.td.lowerRuns + 1 else 0
  let s := { s with td := { s.td with
    median := med
    p10 := p10
    indicator := low.elim s.td.indicator (·.1)
    unit := low.elim s.td.unit (·.2.1)
    level := if old < lv || decide (2 ≤ runs) then lv else old
    lowerRuns := if 2 ≤ runs then 0 else runs } }
  if old < lv then advise 2 lv s else s

/-- Each island's degradation and WEAR, and each field's guard band, which only rises (R437, R312). -/
def setWear (degr : List (Nat × Nat × Nat)) (s : State) : State :=
  let old := (List.range 4).map (floorCodeOf s)
  let s := forEach (fun (e : Nat × Nat × Nat) s =>
    if islValid e.1 then modIsl e.1 (fun x => { x with degr := e.2.1, wear := wearOf e.2.1 }) s else s) degr s
  let s := forEach (fun f s =>
    let worst := (allIslands.filter (fun n => fieldOf n == f)).foldl (fun a n => max a (islOf s n).degr) 0
    modField f (fun x => { x with patinaGuard := max x.patinaGuard (patinaGuardOf worst) }) s) (List.range 4) s
  applyCodes false (keepFloors old s)

/-- Islands whose corrected errors exceed 256 in the clock hour are fenced; fwd lists those whose forwarding passes
(R437). Each hour's count starts anew. -/
def fenceWorn (fwd : List Nat) (s : State) : State :=
  let bad := (s.fab.isl.filter (fun e => decide (256 < e.2.ceHour) && e.2.state != 2)).map (·.1)
  let s := forEach (fun n s => if fenced s n then s else fence n (fwd.contains n) s) bad s
  { s with fab := { s.fab with isl := mmap s.fab.isl (fun _ x => { x with ceHour := 0 }) } }

/-- A Patina prediction update (R434 to R437): the mean rates are those since the oldest update of the last 30 days. -/
def predict (x : PatinaSample) (fwd : List Nat) (s : State) : State :=
  let past := s.td.lifeLog.filter (fun e => decide (s.time ≤ e.1 + 30 * dayNs))
  let old := past.getLast?.getD (s.time, x)
  let s := { s with td := { s.td with lifeLog := (s.time, x) :: past } }
  let s := fenceWorn fwd (setLife (lives x old.2 (s.time - old.1)) (setWear x.degr s))
  coffer 0 0 .wear 0 0 0 0 s

/-- BACKGROUND_INTERVAL: activity a's interval runs out. An unfinished round is deferred and counted, with an advisory
(R28, R432); a finished round of activity 8 is a prediction update. Work on islands ends IDLE (R373). -/
def execBackgroundInterval (t activity : Nat) (finished : Bool) (degr : List (Nat × Nat × Nat)) (charge cycles : List Nat)
    (indicators : List Nat × List Nat) (fwd : List Nat) (s : State) : Host.Outcome State Fault Refusal :=
  let s := tick t s
  .next (if 10 ≤ activity then s
    else
      let s := { s with td := { s.td with lastRound := mset s.td.lastRound activity s.time } }
      let s := if activity = 2 || activity = 3 || activity = 6 then leaveIdle s else s
      if !finished then
        advise 0 activity { s with td := { s.td with
          deferrals := mset s.td.deferrals activity (sat 16 (mgetD s.td.deferrals activity 0 + 1)) } }
      else if activity = 8 then predict { degr := degr, charge := charge, cycles := cycles, errors := indicators.1, eye := indicators.2 } fwd s
      else s)

/-! ## Advisories and the Coffer's messages -/

/-- Endpoints that may acknowledge advisories and read or release the Coffer: the rack manager, the fabric manager, and
any while RM_EID is 0x00 (R409, R433, R440). -/
def managerEid (s : State) (eid : Nat) : Bool :=
  s.sec.rmEid == 0 || eid == s.sec.rmEid || (s.sec.fmEid != 0 && eid == s.sec.fmEid)

/-- The causes of a mask are cleared; ALERT_N is released with the last (R433). -/
def clearAdvisories (mask : Nat) (s : State) : State :=
  { s with td := { s.td with advisory := s.td.advisory.filter (fun c => !bit mask c) } }

/-- ADVISORY_ACK (R433, Table 18.10). -/
def execAdvisoryAck (t eid mask : Nat) (s : State) : Host.Outcome State Fault Refusal :=
  let s := tick t s
  .next (if managerEid s eid then clearAdvisories (mask % 256) s else s)

/-- The 64 bytes of a Coffer record (Table 18.8). -/
def cofferBytes (r : CofferRec) : List Byte :=
  let b := leBytes r.time 8 ++ leBytes r.seq 4 ++ leBytes r.source 1 ++ leBytes r.severity 1 ++ leBytes (Config.cofferCode r.ev) 2
    ++ leBytes r.unit 2 ++ leBytes r.job 2 ++ leBytes r.mc 2 ++ leBytes 0 2 ++ leBytes r.addr 8
    ++ leBytes (Config.cofferDetail r.seq) 28
  b ++ leBytes (crc32 b) 4

/-- Records in messages of 16, from the oldest on. -/
def sendRecords : Nat → List CofferRec → State → State
  | 0, _, s => s
  | _ + 1, [], s => s
  | n + 1, r :: l, s =>
    sendRecords n ((r :: l).drop 16) (sendMgmt (.cofferData r.seq (((r :: l).take 16).map cofferBytes)) s)

/-- The part signs: neither BLANK nor RETIRED, and Sirdoyx firmware runs (R440). -/
def maySign (s : State) : Bool := s.sec.life != .blank && s.sec.life != .retired && !s.sec.failedBoot

/-- COFFER_SNAPSHOT: the Coffer freezes, its records and the signed header are sent, and a snapshot freeze is released
where the release rule allows (R440). -/
def execCofferSnapshot (t eid nonce : Nat) (s : State) : Host.Outcome State Fault Refusal :=
  let s := tick t s
  .next (if !managerEid s eid || s.pw.st == .off then s
    else
      let s := freezeCoffer 1 s
      let s := { s with cof := { s.cof with snapNonce := some nonce } }
      let l := s.cof.recs.reverse
      let first := (l.head?.map (·.seq)).getD 0
      let s := sendRecords l.length l s
      let s := sendMgmt (.cofferSignature first l.length s.cof.cause (maySign s) s.cof.drops s.cof.freezeTime s.time (drawn s)) s
      let s := { advanceDraw s with cof := { s.cof with snapNonce := none } }
      if s.cof.cause = 1 && (s.pw.st == .run || s.pw.st == .idle) then releaseCoffer s else s)

/-- A Coffer release by message, in RUN or IDLE only (R439). -/
def messageRelease (s : State) : State := if s.pw.st == .run || s.pw.st == .idle then releaseCoffer s else s

/-- A write of 1 to TD_COFFER_CTRL.RELEASE: outside RUN and IDLE it is ignored and sets CFG_ERR (R439). -/
def writeRelease (s : State) : State :=
  if s.pw.st == .run || s.pw.st == .idle then releaseCoffer s else { s with td := { s.td with cfgErr := true } }

/-- COFFER_RELEASE: by message (R439 limits no sender) or by TD_COFFER_CTRL.RELEASE, in RUN or IDLE only; otherwise the
write is ignored with CFG_ERR (R439). -/
def execCofferRelease (t : Nat) (byMessage : Bool) (_eid : Nat) (s : State) : Host.Outcome State Fault Refusal :=
  .next (if byMessage then messageRelease (tick t s) else regWrite t writeRelease s)

end Sys2Proof.Machine
end

