-- ==== Sys2Proof/Machine/Contexts.lean ====
section
/-! DEFINITION. Contexts (R279, R280, R443), the doorbell engine (R285 to R293), failed host accesses (R278), coalesced
interrupts (R303) and device time (R304, R305). -/
namespace Sys2Proof.Machine

/-! ## Contexts (R279) -/

/-- The VF is enabled: NumVFs of its link covers it (R275, R279). -/
def vfEnabled (s : State) (vf : Nat) : Bool :=
  if s.id.bifurcated then (if vf < 256 then decide (vf < s.hi.numVfs0) else decide (vf - 256 < s.hi.numVfs1)) else decide (vf < s.hi.numVfs0)

/-- What the registers of a VF hold with no context on it: its ring setup page and its address-only bit (R280, R428). -/
def setupOnly (x : Ctx) : Ctx :=
  { addrOnly := x.addrOnly, cfgErr := x.cfgErr, dbBlock := x.dbBlock, statusBlock := x.statusBlock, rings := x.rings }

/-- CTX_CREATE (R279, R327, R413). -/
def execCtxCreate (t : Nat) (h : Hdr) (vf part : Nat) (s : State) : Host.Outcome State Fault Refusal :=
  .next (command t h (fun s =>
    match firstOf [shapeCheck s h infoAdmin (decide (511 < vf) || decide (63 < part)), failIf (invasive s) .accessDenied,
        failIf (erasing s part) .busy, failIf (decide (512 ≤ ctxCount s) || ctxHere s vf) .resourceExhausted,
        failIf (!vfEnabled s vf || !(partOf s part).present) .malformed] with
    | some st => final (cmdOf h) st 0 0 s
    | none =>
      let s := modPart part (fun p => { p with holdsData := true }) s
      final (cmdOf h) .complete 0 0 { s with ctxs := mset s.ctxs vf { setupOnly (ctxOf s vf) with present := true, part := part } }) s)

/-- The context has a resident job, an open sequence or a record still to write (R279). -/
def ctxBusy (s : State) (c : Nat) : Bool :=
  s.srv.jobs.any (fun j => (j.2.present || j.2.pendingAdmit) && j.2.ctx == c) || s.srv.seqs.any (fun q => q.2.st != 0 && q.2.ctx == c)
    || !quiesced (ctxOf s c) || s.ops.live.any (fun o => o.2.cmd.ctx == c) || !(ctxOf s c).late.isEmpty
    || s.srv.reqs.any (fun r => r.2.h.ctx == c)

/-- The context is gone: its mappings and the frames of its page tables and staged tiles are freed; the registers of its VF
keep what was written (R280, R428). -/
def dropCtx (c : Nat) (s : State) : State :=
  let s := freeObjs (ctxPart s c) (fun k => match k with | .level2 x _ => x == c | .stagedTile x _ => x == c | _ => false) s
  let s := { s with mem := { s.mem with leaves := s.mem.leaves.filter (fun l => l.ctx != c) } }
  let x := setupOnly (ctxOf s c)
  { s with ctxs := if x = {} then mdel s.ctxs c else mset s.ctxs c x }

/-- CTX_DESTROY (R279). -/
def execCtxDestroy (t : Nat) (h : Hdr) (vf : Nat) (s : State) : Host.Outcome State Fault Refusal :=
  .next (command t h (fun s =>
    match firstOf [shapeCheck s h infoAdmin (decide (511 < vf)), failIf (!ctxHere s vf) .malformed, failIf (ctxBusy s vf) .busy] with
    | some st => final (cmdOf h) st 0 0 s
    | none => final (cmdOf h) .complete 0 0 (dropCtx vf s)) s)

/-! ## Enabling, disabling and resetting (R280, R443) -/

/-- Bytes of an entry of ring r (Table 12.2). -/
def entryBytes (r : Nat) : Nat := if r < 8 then 128 else if r < 10 then 32 else 16

/-- Ring r's setup is in range and aligned (R280, R281). -/
def ringSetupOk (c r : Nat) (g : RingCfg) : Bool :=
  g.sizeLog2 == 0 || (decide (6 ≤ g.sizeLog2 ∧ g.sizeLog2 ≤ 20) && (decide (r < 8) || c == adminCtx || decide (g.vector ≤ 3))
    && g.base.toNat % (min (entryBytes r * 2 ^ g.sizeLog2) 4096) == 0)

/-- The conditions of R280 for ENABLE. -/
def enableOk (c : Nat) (x : Ctx) : Bool :=
  x.present && [0, 1, 2, 8, 9].all (ringThere x) && x.rings.all (fun e => ringSetupOk c e.1 e.2)
    && decide (2 * ringSize x 0 ≤ ringSize x 8)
    && decide (2 * sumOf (fun r => if ringThere x r then ringSize x r else 0) [1, 2, 3, 4, 5, 6, 7] ≤ ringSize x 9)

/-- Long operations of a context that a reset has passed owe their FINAL again: its room is reserved, and records held
back are written (R443). -/
def resumeLate (c : Nat) (s : State) : State :=
  let n := (s.ops.live.filter (fun o => o.2.late && o.2.cmd.ctx == c)).length
  let l := (ctxOf s c).late
  let s := { s with ops := { s.ops with live := mmap s.ops.live (fun _ o => if o.cmd.ctx = c then { o with late := false } else o) } }
  let s := modCtx c (fun x => { x with late := [], reserved := madd x.reserved 9 (n + l.length) }) s
  forEach (fun (r : LateRec) s => final { ctx := c, ring := 9, reqId := r.reqId, irq := r.irq } r.st r.info r.value s) l s

/-- The setup page of a context, there or not, is changed by f. -/
def modSetup (ctx : Nat) (f : Ctx → Ctx) (s : State) : State := { s with ctxs := mupd s.ctxs ctx {} f }

/-- ENABLE is set, or refused with CFG_ERR (R280). -/
def enableCtx (ctx : Nat) (s : State) : State :=
  let x := ctxOf s ctx
  if x.enable then s
  else if enableOk ctx x then resumeLate ctx (modCtx ctx (fun x => { x with enable := true }) s)
  else if ctx ≤ 511 ∨ ctx = adminCtx then modSetup ctx (fun x => { x with cfgErr := true }) s
  else s

/-- ENABLE is cleared (R280). -/
def disableCtx (ctx : Nat) (s : State) : State := modCtx ctx (fun x => { x with enable := false }) s

/-- CONTEXT_ENABLE (R280). -/
def execContextEnable (t ctx : Nat) (s : State) : Host.Outcome State Fault Refusal := .next (enableCtx ctx (tick t s))

/-- CONTEXT_DISABLE (R280). -/
def execContextDisable (t ctx : Nat) (s : State) : Host.Outcome State Fault Refusal := .next (disableCtx ctx (tick t s))

/-- Requests of the context end with RESET_ABORTED, one that a step serves at its next boundary (R443 step 2). -/
def abortReqs (c : Nat) (s : State) : State :=
  forEach (fun k s =>
    if stepServes s k then modReq k (fun r => { r with cancelled := true, endStatus := some .resetAborted }) s
    else endReq false k .resetAborted s) (reqKeys s (fun r => r.st != .detected && r.h.ctx == c)) s

/-- Long operations of the context write their FINAL after it is enabled again (R443 step 4). -/
def lateOps (c : Nat) (s : State) : State :=
  let ns := (s.ops.live.filter (fun o => o.2.cmd.ctx == c && !o.2.late)).map (·.1)
  let s := { s with ops := { s.ops with live := mmap s.ops.live (fun _ o => if o.cmd.ctx = c then { o with late := true } else o) } }
  if ns.isEmpty then s else releaseRoom c 9 ns.length s

/-- A context reset (R443). -/
def resetCtx (c : Nat) (s : State) : State :=
  if !ctxHere s c || (ctxOf s c).resetBusy then s
  else
    let s := dropHeld c (modCtx c (fun x => { x with enable := false, resetBusy := true }) s)
    settleReset c (lateOps c (abortReqs c s))

/-- CONTEXT_RESET (R443). -/
def execContextReset (t ctx : Nat) (s : State) : Host.Outcome State Fault Refusal := .next (resetCtx ctx (tick t s))

/-! ## Polls (R287 to R293, R473) -/

/-- POLL (R287): the period has run out. -/
def execPoll (t : Nat) (s : State) : Host.Outcome State Fault Refusal :=
  let s := tick t s
  .next (if !s.hi.dbEnable || !hostRuns s then s
    else if s.hi.polling then { s with hi := { s.hi with pollLate := true } }
    else startPoll s)

/-- Polling falls back to FULL_SCAN with at least 4 µs (R293). -/
def fallBack (s : State) : State := { s with hi := { s.hi with fullScan := true, period := max 16 s.hi.period } }

/-- Steps 4 and 5 are over: the blocks are read. -/
def afterSummary (s : State) : State :=
  if s.hi.pollLinks.isEmpty && s.hi.pollWords.isEmpty then endPoll (readBlocks s) else s

/-- The read of a summary line fails (R293). -/
def summaryFails (link : Nat) (s : State) : State :=
  if s.hi.pollLinks.contains link then
    afterSummary (fallBack { s with hi := { s.hi with summaryErr := true, pollLinks := s.hi.pollLinks.filter (· != link) } })
  else s

/-- SUMMARY_READ_RETURN (R286, R287, R293): a FetchAdd of the negated mask for each word with bits set. -/
def execSummaryReadReturn (t link : Nat) (words : Option (List Dword)) (s : State) : Host.Outcome State Fault Refusal :=
  let s := tick t s
  .next (match words with
    | none => summaryFails link s
    | some ws =>
      if !s.hi.pollLinks.contains link then s
      else
        let set := ((List.range 8).zip ws).filter (fun e => e.2 != 0)
        let s := forEach (fun (e : Nat × Dword) s => emit (.fetchAdd link e.1 (0 - e.2)) s) set s
        afterSummary { s with hi := { s.hi with
          pollLinks := s.hi.pollLinks.filter (· != link)
          pollWords := s.hi.pollWords ++ set.map (fun e => (link * 8 + e.1, e.2)) } })

/-- VFs whose bits a word of a link's summary line has set (R286, R288). -/
def wordVfs (key : Nat) (m : Dword) : List Nat :=
  ((List.range 64).filter (fun i => bit m.toNat i)).map (fun i => key / 8 * 256 + key % 8 * 64 + i)

/-- FETCHADD_COMPLETE (R286, R293): the oldest FetchAdd of the link completes. -/
def execFetchaddComplete (t link : Nat) (ok : Bool) (s : State) : Host.Outcome State Fault Refusal :=
  let s := tick t s
  .next (match s.hi.pollWords.find? (fun e => e.1 / 8 == link) with
    | none => s
    | some e =>
      let s := { s with hi := { s.hi with
        pollWords := s.hi.pollWords.erase e
        pollFound := s.hi.pollFound ++ wordVfs e.1 e.2 } }
      afterSummary (if ok then s else fallBack { s with hi := { s.hi with atomicErr := true } }))

/-- TAIL of ring r as read: more than 2^s entries beyond CONSUMED is an error of the ring (R292). -/
def takeTail (c r tail : Nat) (s : State) : State :=
  let x := ctxOf s c
  if !ringThere x r || x.ringErr.contains r then s
  else
    let s := modCtx c (fun x => { x with tail := mset x.tail r (tail % 2 ^ 32) }) s
    if ringSize x r < waitingDescs (ctxOf s c) r then ringError c r s else s

/-- HEAD of ring r as read; one beyond WRITTEN is not taken (log entry 25). -/
def takeHead (c r head : Nat) (s : State) : State :=
  modCtx c (fun x =>
    let w := mgetD x.written r 0
    let d := (w + 2 ^ 32 - head % 2 ^ 32) % 2 ^ 32
    if d ≤ w ∧ d ≤ ringSize x r then { x with head := mset x.head r (max (mgetD x.head r 0) (w - d)) } else x) s

/-- HEAD of the trace ring as read (R426). -/
def takeTraceHead (c head : Nat) (s : State) : State :=
  modCtx c (fun x => { x with trace := x.trace.map (fun r =>
    let d := (r.written + 2 ^ 32 - head % 2 ^ 32) % 2 ^ 32
    if d ≤ r.written ∧ d ≤ 2 ^ r.sizeLog2 then { r with head := max r.head (r.written - d) } else r) }) s

/-- DOORBELL_BLOCK_READ (R285, R287, R271): tails of rings 0 to 7, heads of rings 8 to 17 and, eleventh, of the trace ring
(log entry 26). Held records drain into the room found, and once every block is read descriptors are fetched. -/
def execDoorbellBlockRead (t ctx : Nat) (tails heads : List Nat) (s : State) : Host.Outcome State Fault Refusal :=
  let s := tick t s
  .next (if !ctxHere s ctx || !(ctxOf s ctx).enable then endPoll { s with hi := { s.hi with pollCtxs := s.hi.pollCtxs.filter (· != ctx) } }
    else
      let s := forEach (fun (e : Nat × Nat) s => takeTail ctx e.1 e.2 s) ((List.range 8).zip tails) s
      let s := forEach (fun (e : Nat × Nat) s => takeHead ctx (8 + e.1) e.2 s) ((List.range 10).zip heads) s
      let s := match heads[10]? with | some n => putLoss ctx (takeTraceHead ctx n s) | none => s
      let s := drainCtx ctx s
      endPoll { s with hi := { s.hi with pollCtxs := s.hi.pollCtxs.filter (· != ctx) } })

/-! ## Failed host accesses (R278) -/

/-- The read of a descriptor of ring r fails: the room it reserved is released and the ring is in error. -/
def descFails (c r : Nat) (s : State) : State :=
  if mgetD (ctxOf s c).fetching r 0 = 0 then s
  else
    let s := modCtx c (fun x => { x with fetching := mset x.fetching r (mgetD x.fetching r 0 - 1) }) s
    endPoll (ringError c r (releaseRoom c (compRing r) 2 s))

/-- Request k completes with MALFORMED_DESCRIPTOR, or is declined with it before its admission. -/
def reqBufferFails (k : Nat) (s : State) : State :=
  match mget s.srv.reqs k with
  | none => s
  | some r => if r.st = .detected then declineWaiting k .malformed s else endReq false k .malformed s

/-- A fetch attempt of a shard of the install fails (R240). -/
def shardFails (mc shard : Nat) (s : State) : State :=
  if staging s mc then shardAttempt mc shard none s else s

/-- HOST_READ_ERROR (R278). -/
def execHostReadError (t : Nat) (w : HostReadWhat) (s : State) : Host.Outcome State Fault Refusal :=
  let s := tick t s
  .next (match w with
    | .summary link => summaryFails link s
    | .doorbell c => endPoll (hostRingsError c { s with hi := { s.hi with pollCtxs := s.hi.pollCtxs.filter (· != c) } })
    | .descriptor c r => descFails c r s
    | .reqBuffer k => reqBufferFails k s
    | .cmdBuffer h => command t h (final (cmdOf h) .malformed 0 0) s
    | .installBuffer mc shard => shardFails mc shard s)

/-- The command of a descriptor ends because its destination in host memory failed: a tile that still moves leaves its
channel. -/
def cmdDestFails (t : Nat) (h : Hdr) (s : State) : State :=
  match s.mem.chans.find? (fun e => e.2.queue.any (fun j => !j.posted && j.cmd.ctx == h.ctx && j.cmd.reqId == h.reqId)) with
  | some e =>
    let s := { s with mem := { s.mem with chans := mmod s.mem.chans e.1 (fun x => { x with
      queue := x.queue.filter (fun j => j.posted || j.cmd.ctx != h.ctx || j.cmd.reqId != h.reqId) }) } }
    final (cmdOf h) .malformed 0 0 s
  | none => match (ctxOf s h.ctx).watches.find? (fun w => w.reqId == h.reqId) with
    | some w => endWatch h.ctx w .malformed s
    | none => command t h (final (cmdOf h) .malformed 0 0) s

/-- HOST_WRITE_ERROR (R278). -/
def execHostWriteError (t : Nat) (w : HostWriteWhat) (s : State) : Host.Outcome State Fault Refusal :=
  let s := tick t s
  .next (match w with
    | .record c r => if 8 ≤ r ∧ r ≤ 17 then ringError c r s else s
    | .reqDest k => match mget s.srv.reqs k with
      | none => s
      | some r => hostRingsError r.h.ctx (reqBufferFails k s)
    | .cmdDest h => hostRingsError h.ctx (cmdDestFails t h s)
    | .other c => hostRingsError c s)

/-! ## Interrupts and time -/

/-- COAL_TIMER (R303): records have stood unsignalled for COAL_TIME µs. -/
def execCoalTimer (t ctx ring : Nat) (s : State) : Host.Outcome State Fault Refusal :=
  let s := tick t s
  let x := ctxOf s ctx
  let g := mgetD x.rings ring {}
  .next (if x.present && g.coalTime != 0 && mgetD x.unsignalled ring 0 != 0
      && decide (mgetD x.unsignalledAt ring 0 + g.coalTime * 1000 ≤ s.time) then signalRing ctx ring s
    else s)

/-- How far apart two times are. -/
def apart (a b : Nat) : Nat := (a - b) + (b - a)

/-- PTM_DIALOGUE (R304, R305): the first success sets device time where no context is enabled; later ones only slew it, at up
to 200 ppm. Three failures in a row clear SYNC and raise the advisory. -/
def execPtmDialogue (t : Nat) (ok : Bool) (master : Nat) (s : State) : Host.Outcome State Fault Refusal :=
  let s := tick t s
  .next (if !s.hi.ptmEnable then s
    else if !ok then
      let n := s.hi.ptmFails + 1
      let s := { s with hi := { s.hi with ptmFails := n, sync := s.hi.sync && decide (n < 3) } }
      if n = 3 then advise 4 0 s else s
    else if !s.hi.ptmSet && (enabledCtxs s).isEmpty then
      { s with time := master, hi := { s.hi with ptmFails := 0, ptmSet := true, sync := true } }
    else { s with hi := { s.hi with ptmFails := 0, ptmSet := true, sync := decide (apart s.time master ≤ 1000) } })

end Sys2Proof.Machine
end

