-- ==== Sys2Proof/Machine/Dovetail.lean ====
section
/-! DEFINITION. Dovetail transfers and calibration, island bring-up, FLL, droop and the beacon (chapter 2). -/
namespace Sys2Proof.Machine

/-- Key of a lane in its sending island: control or data, by port. -/
def laneKey (port : Nat) (control : Bool) : Nat := port * 2 + bnat control

/-- The lane of island n changed by f. -/
def modLane (n port : Nat) (control : Bool) (f : Lane → Lane) (s : State) : State :=
  modIsl n (fun x => { x with lanes := mupd x.lanes (laneKey port control) {} f }) s

/-- A corrected transfer counts in its lane and against the receiving island's hour (R40, R437). -/
def countCorrected (n port : Nat) (control : Bool) (s : State) : State :=
  let s := match neighbour n port with
    | some m => modLane m ((port + 2) % 4) control (fun l => { l with corrected := sat 32 (l.corrected + 1) }) s
    | none => s
  modIsl n (fun x => { x with ceHour := x.ceHour + 1 }) s

/-- An uncorrectable transfer is delivered marked as poison, and reported against the job of the plate whose route it took
(R40, R454): bytes for this island's banks land as poison; what is passed on carries its mark further. -/
def poisonTransfer (n : Nat) (x : Xfer) (s : State) : State :=
  let note := fun p s => let j := jobAt s (plateOf s p).job; coffer 3 3 .plateError n j.id j.mc 0 s
  match x with
  | .write p k a l =>
    let s := note p s
    (match (plateOf s p).isls[k]? with
     | some i => if i.isl = n then poisonBank p k a l.length (writeBank p k a l s) else s
     | none => s)
  | .forward p _ _ => note p s
  | .control p _ => note p s

/-- What a good transfer does at island n: bytes for a plate's banks here are written; what is passed on and control
words change no state (R38). -/
def takeTransfer (n : Nat) (x : Xfer) (s : State) : State :=
  match x with
  | .write p k a l => match (plateOf s p).isls[k]? with
    | some i => if i.isl = n then writeBank p k a l s else s
    | none => s
  | .forward _ _ _ => s
  | .control _ _ => s

/-- DOVETAIL_TRANSFER (R38, R40): err is 0 for a clean transfer, 1 for a corrected one, more for an uncorrectable one. -/
def execDovetailTransfer (t isl port : Nat) (control : Bool) (err : Nat) (x : Xfer) (s : State) : Host.Outcome State Fault Refusal :=
  let s := tick t s
  .next (if err = 0 then takeTransfer isl x s
    else if err = 1 then takeTransfer isl x (countCorrected isl port control s)
    else poisonTransfer isl x s)

/-- COUNTER_INCREMENT (R46). -/
def execCounterIncrement (t isl counter inc : Nat) (s : State) : Host.Outcome State Fault Refusal :=
  let s := tick t s
  .next (if islValid isl && decide (counter < 64) then addCounter isl counter inc s else s)

/-- The tap a sweep gives: d_min plus the greater of 6 taps and 15 % of d_min, in whole taps of the line's 128 (R41; log
entry 24 for the rounding). -/
def tapOf (d : Nat) : Nat := min 127 (d + max 6 (ceilDiv (15 * d) 100))

/-- A lane's lines are set from a sweep: the shadow line, whose setting is copied into the primary (R41). -/
def calibrate (n port : Nat) (control : Bool) (d : Nat) (s : State) : State :=
  modLane n port control (fun l => { l with shadow := tapOf d, tap := tapOf d, calTime := s.time, failed := false }) s

/-- A sweep that reaches tap 127 fails the lane, its shadow line left there: the island whose port fails the loopback test is
fenced, or both (R43). -/
def failLane (n port m : Nat) (control loopHere loopThere fwdHere fwdThere : Bool) (s : State) : State :=
  let s := modLane n port control (fun l => { l with shadow := 127, failed := true, calTime := s.time }) s
  let s := coffer 3 3 .laneFailed n 0 0 (laneKey port control) s
  let s := if loopHere && !loopThere then s else fence n fwdHere s
  if loopThere && !loopHere then s else fence m fwdThere s

/-- DOVETAIL_RECALIBRATION (R42, R43): a lane between two islands, due after a 10 °C move or 60 s after its last. It is billed to
the background reservation of both islands, and deferred where that is spent (R27, R28; log entry 158). -/
def execDovetailRecalibration (t isl port : Nat) (control tempMove : Bool) (dMin : Option Nat)
    (loopHere loopThere fwdHere fwdThere : Bool) (s : State) : Host.Outcome State Fault Refusal :=
  let s := tick t s
  .next (match neighbour isl port with
    | none => s
    | some m =>
      let l := mgetD (islOf s isl).lanes (laneKey port control) {}
      if (tempMove || decide (l.calTime + 60000000000 ≤ s.time)) && bgFits s (bgIsl isl) 1 && bgFits s (bgIsl m) 1 then
        let s := bgBill (bgIsl m) Config.calibNs (bgBill (bgIsl isl) Config.calibNs s)
        match dMin with
        | some d => calibrate isl port control (min d 127) s
        | none => failLane isl port m control loopHere loopThere fwdHere fwdThere s
      else s)

/-- What the sweep of lane key of island n gives at bring-up (R42, R43). -/
def sweepLane (n key : Nat) (w : LaneSweep) (s : State) : State :=
  match w with
  | .ok d => calibrate n (key / 2) (key % 2 == 1) (min d 127) s
  | .failed lh lt fh ft => match neighbour n (key / 2) with
    | some m => failLane n (key / 2) m (key % 2 == 1) lh lt fh ft s
    | none => s

/-- The island takes its place: its field's rail at 0.70 V or more, the DCO locked at 1.00 GHz, reset released, its lanes
calibrated (Table 2.2, steps 1 to 4). -/
def bringUp (n : Nat) (sweeps : List LaneSweep) (s : State) : State :=
  let s := modField (fieldOf n) (fun x => { x with setpoint := max x.setpoint 700, railMv := max x.railMv 700 }) s
  let s := modIsl n (fun x => { x with state := 0, routerOk := true, fllLock := true, freqCode := 48, pendingCode := none }) s
  forEach (fun e s => sweepLane n e.1 e.2 s) ((List.range 8).zip sweeps) s

/-- ISLAND_BRING_UP (R50, R34, R54): sweeps are what calibration of its eight lanes gives, passed the self-test of step 5. A
fenced island stays fenced; without the beacon the island does not leave reset. -/
def execIslandBringUp (t isl : Nat) (sweeps : List LaneSweep) (passed fwd : Bool) (s : State) : Host.Outcome State Fault Refusal :=
  let s := tick t s
  .next (if !islValid isl || fenced s isl || s.td.fences.contains isl || !(platesOn s isl).isEmpty then s
    else if !s.fab.beaconOk then beaconFault (modIsl isl (fun x => { x with state := 3, fllLock := false, freqCode := 0 }) s)
    else
      let s := bringUp isl sweeps s
      if passed || fenced s isl then s else fence isl fwd s)

/-- ISLAND_BRING_UP_TIMEOUT (R50): a step passes its maximum. -/
def execIslandBringUpTimeout (t isl step : Nat) (fwd : Bool) (s : State) : Host.Outcome State Fault Refusal :=
  let s := tick t s
  .next (if islValid isl && !fenced s isl then fence isl fwd (coffer 3 3 .bringUpTimeout isl 0 0 step s) else s)

/-- FLL_LOCK (R33): the slew has ended and the DCO is locked to the beacon; a rail that waited for it may follow (R37). -/
def execFllLock (t isl : Nat) (s : State) : Host.Outcome State Fault Refusal :=
  let s := tick t s
  .next (if s.fab.beaconOk && !fenced s isl then applyCodes false (modIsl isl (fun x => { x with fllLock := true }) s) else s)

/-- DROOP (R48): the DCO doubles its period; DROOP_CNT counts the trigger. -/
def execDroop (t isl : Nat) (s : State) : Host.Outcome State Fault Refusal :=
  let s := tick t s
  .next (modIsl isl (fun x => { x with droopCnt := sat 16 (x.droopCnt + 1), stretched := true }) s)

/-- DROOP_RELEASE (R48): the DCO returns to its set frequency; the stretched time is recorded (R384, Table 18.2). -/
def execDroopRelease (t isl stretched : Nat) (s : State) : Host.Outcome State Fault Refusal :=
  let s := tick t s
  .next (if islValid isl && (islOf s isl).stretched then
      countGlobal 67 stretched (modField (fieldOf isl) (fun f => { f with droopNs := f.droopNs + stretched })
        (modIsl isl (fun x => { x with stretched := false }) s))
    else s)

/-- BEACON_LOST (R34): DCOs hold their trim, frequency changes are suspended and the advisory is raised. -/
def execBeaconLost (t : Nat) (s : State) : Host.Outcome State Fault Refusal :=
  let s := tick t s
  .next (advise 1 0 { s with
    fab := { s.fab with
      beaconOk := false
      isl := mmap s.fab.isl (fun _ x => { x with fllLock := false }) }
    pw := { s.pw with oscRdy := false } })

/-- BEACON_RETURN (R34): every FLL re-acquires; suspended frequency changes follow. -/
def execBeaconReturn (t : Nat) (s : State) : Host.Outcome State Fault Refusal :=
  let s := tick t s
  .next (if s.fab.beaconOk then s
    else applyCodes false { s with
      fab := { s.fab with beaconOk := true }
      pw := { s.pw with oscRdy := true } })

end Sys2Proof.Machine
end

