-- ==== Sys2Proof/Machine/Security.lean ====
section
/-! DEFINITION. Sirdoyx: the mailbox commands, lifecycle and debug levels, keys, SPDM and the TAP (chapter 17). -/
namespace Sys2Proof.Machine

/-! ## Levels and lapses -/

/-- Sirdoyx firmware runs: the part has booted, is powered and has not tripped (R403, R372, R396). -/
def sirdoyxRuns (s : State) : Bool :=
  !s.sec.failedBoot && !s.pw.resetHeld && !s.pw.thermtrip && s.pw.st != .off && s.pw.aonUp

/-- SY_STATUS.TENANT_DATA: a tenant partition holds data (R413). -/
def tenantData (s : State) : Bool := s.mem.parts.any (fun p => p.1 != 0xFE && p.2.present && p.2.holdsData)

/-- Default debug level of a lifecycle state (Table 17.5). -/
def defaultLevel : Life → Nat
  | .blank => 3 | .provisioned => 3 | .deployed => 0 | .unlocked => 0 | .retired => 3

/-- The unlock in force lapses: DEPLOYED with level NONE, the token forgotten, halted cores running (R411, R416). -/
def lapse (s : State) : State :=
  if s.sec.life = .unlocked then
    coffer 1 0 .relock 0 0 0 0 { s with sec := { s.sec with
      life := .deployed, level := 0, pfLevel := 0, unlockEnd := 0, tokenDigest := 0, haltedCore := false } }
  else s

/-! ## The mailbox (R418) -/

/-- The mailbox command n runs to its end: BUSY clears, DONE sets with RESULT, and the output bytes stand in the buffer. -/
def mboxEnd (n : Nat) (st : Status) (out : List Byte) (s : State) : State :=
  { s with sec := { s.sec with
    mboxCmd := n
    mboxBusy := false
    mboxDone := true
    mboxResult := statusCode st
    mboxLen := out.length
    mboxBuf := cwrites s.sec.mboxBuf 0 out } }

/-- A mailbox command is issued at time t: ignored while another runs, MALFORMED with an input too long, and otherwise f
answers its status, its output and the state it leaves (R418). -/
def mailbox (t n : Nat) (f : State → Status × List Byte × State) (s : State) : State :=
  let s := tick t s
  if !sirdoyxRuns s || (s.sec.mboxBusy && s.sec.mboxCmd != n) then s
  else if 32768 < s.sec.mboxLen then mboxEnd n .malformed [] s
  else
    let r := f s
    mboxEnd n r.1 r.2.1 r.2.2

/-- A command that only passes a check and changes the state. -/
def checked (c : Option Status) (f : State → State) (s : State) : Status × List Byte × State :=
  match c with
  | some st => (st, [], s)
  | none => (.complete, [], f s)

/-- The nonce given is the valid one: returned at most 600 s ago and not consumed (R415). -/
def nonceOk (s : State) (n : Nat) : Bool := s.sec.nonce == some n && decide (s.time < s.sec.nonceAt + 600000000000)

/-- The nonce is consumed. -/
def useNonce (s : State) : State := { s with sec := { s.sec with nonce := none } }

/-- GET_NONCE: a fresh 32-byte nonce replaces the one before (R415). -/
def execGetNonce (t : Nat) (s : State) : Host.Outcome State Fault Refusal :=
  .next (mailbox t 1 (fun s =>
    let n := drawn s % 2 ^ 256
    (.complete, leBytes n 32, advanceDraw { s with sec := { s.sec with nonce := some n, nonceAt := s.time } })) s)

/-- NONCE_EXPIRY: the nonce has reached 600 s and is invalid (R415). -/
def execNonceExpiry (t : Nat) (s : State) : Host.Outcome State Fault Refusal :=
  let s := tick t s
  .next (if s.sec.nonceAt + 600000000000 ≤ s.time then useNonce s else s)

/-- The token's body is well formed and asks for more than the level in force (Tables 17.8, 17.9). -/
def tokenShape (s : State) (k : UnlockToken) : Bool :=
  k.magicOk && k.format == 1 && (k.level == 2 || k.level == 3) && decide (60 ≤ k.lifetime ∧ k.lifetime ≤ 86400) && !k.rsvd
    && decide (s.sec.level < k.level)

/-- UNLOCK: the checks of Table 17.9 in order; the third consumes the nonce, and so does acceptance (R415). -/
def unlockRun (k : UnlockToken) (s : State) : Status × List Byte × State :=
  if !(s.sec.life == .deployed || s.sec.life == .unlocked) then (.accessDenied, [], s)
  else if s.pw.st = .entering || s.pw.st = .exiting then (.busy, [], s)
  else if !(s.pw.st == .run || s.pw.st == .idle || s.pw.st == .halted) then (.accessDenied, [], s)
  else if !tokenShape s k then (.malformed, [], s)
  else if !(k.signer == 2 && slotOk s 2 2 2 && k.sigOk && k.deviceIdOk && nonceOk s k.nonce) then (.accessDenied, [], useNonce s)
  else if k.level = 3 && tenantData s then (.busy, [], s)
  else (.complete, [], coffer 1 0 .unlock k.level 0 0 0 (useNonce { s with sec := { s.sec with
    life := .unlocked, level := k.level, unlockEnd := s.time + 1000000000 * k.lifetime, tokenDigest := k.digest } }))

/-- UNLOCK (R415). -/
def execUnlock (t : Nat) (tok : UnlockToken) (s : State) : Host.Outcome State Fault Refusal := .next (mailbox t 2 (unlockRun tok) s)

/-- RELOCK, by mailbox command or by SY_DEBUG_CTRL.RELOCK (R411). -/
def execRelock (t : Nat) (byMailbox : Bool) (s : State) : Host.Outcome State Fault Refusal :=
  .next (if byMailbox then mailbox t 3 (fun s => checked (failIf (s.sec.life != .unlocked) .accessDenied) lapse s) s
    else if sirdoyxRuns s then lapse (tick t s) else tick t s)

/-- UNLOCK_LIFETIME_END: the unlock's lifetime has run out (R416). -/
def execUnlockLifetimeEnd (t : Nat) (s : State) : Host.Outcome State Fault Refusal :=
  let s := tick t s
  .next (if s.sec.unlockEnd ≤ s.time then lapse s else s)

/-- PROVISION: a seed is fused and the signing request returned (R405, R411). The request's bytes are not stated. -/
def execProvision (t : Nat) (sigOk : Bool) (s : State) : Host.Outcome State Fault Refusal :=
  .next (mailbox t 4 (fun s =>
    if s.sec.life != .blank || !slotOk s 1 1 1 || !sigOk then (.accessDenied, [], s)
    else
      let out := leBytes (drawn (advanceDraw s)) (drawn s % 32769)
      (.complete, out, coffer 1 0 .lifecycle 1 0 0 0 (advanceDraw (advanceDraw { s with sec := { s.sec with
        life := .provisioned, level := 3, seedFused := true } })))) s)

/-- Key slots 2 to 7 as DEPLOY writes them; slots 0 and 1 of the input are ignored (Table 17.11). -/
def deployKeys (keys : List (Option Digest)) (s : State) : State :=
  forEach (fun n s => match keys.getD n none with
    | some d => { s with sec := { s.sec with slots := mset s.sec.slots n { digest := some d } } }
    | none => s) [2, 3, 4, 5, 6, 7] s

/-- DEPLOY: keys for slot 2 and at least one content slot make a PROVISIONED part DEPLOYED (R411). -/
def execDeploy (t : Nat) (keys : List (Option Digest)) (s : State) : Host.Outcome State Fault Refusal :=
  .next (mailbox t 5 (fun s => checked
    (failIf (s.sec.life != .provisioned || (keys.getD 2 none).isNone || ((keys.take 8).drop 3).all (·.isNone)) .accessDenied)
    (fun s =>
      let s := deployKeys keys s
      coffer 1 0 .lifecycle 2 0 0 0 { s with sec := { s.sec with life := .deployed, level := 0, pfLevel := 0, haltedCore := false } }) s) s)

/-- KEY_ADD: an empty owner content slot takes a key, under slot 2's signature and a nonce (R401). -/
def execKeyAdd (t slot : Nat) (key : Digest) (nonce : Nat) (sigOk : Bool) (s : State) : Host.Outcome State Fault Refusal :=
  .next (mailbox t 6 (fun s => checked
    (firstOf [failIf (decide (7 < slot)) .malformed,
      failIf (decide (slot < 3) || (mgetD s.sec.slots slot {}).digest.isSome || (mgetD s.sec.slots slot {}).revoked) .accessDenied,
      failIf (!(slotOk s 2 2 2 && sigOk && nonceOk s nonce)) .accessDenied])
    (fun s => coffer 1 0 .keyAdded slot 0 0 0 (useNonce { s with sec := { s.sec with
      slots := mset s.sec.slots slot { digest := some key } } })) s) s)

/-- The slot that must sign the revocation of a slot (R401). -/
def revoker (slot : Nat) : Nat := if slot < 2 then 1 else 2

/-- KEY_REVOKE: the revoke fuse of a slot is blown (R401). -/
def execKeyRevoke (t slot nonce signer : Nat) (sigOk : Bool) (s : State) : Host.Outcome State Fault Refusal :=
  .next (mailbox t 7 (fun s => checked
    (firstOf [failIf (decide (7 < slot)) .malformed, failIf (!slotOk s slot 0 7) .accessDenied,
      failIf (!(signer == revoker slot && slotOk s signer 1 2 && sigOk && nonceOk s nonce)) .accessDenied])
    (fun s => coffer 1 0 .keyRevoked slot 0 0 0 (useNonce { s with sec := { s.sec with
      slots := mmod s.sec.slots slot (fun k => { k with revoked := true }) } })) s) s)

/-- Who may sign RETIRE (R401, R411): slot 1 for a PROVISIONED part; slot 2 for a deployed one, or slot 1 once slot 2
is revoked. A deployed part also needs the nonce. -/
def retireOk (s : State) (nonce signer : Nat) (sigOk : Bool) : Bool :=
  sigOk && slotOk s signer 1 2 &&
  match s.sec.life with
  | .provisioned => signer == 1
  | .deployed | .unlocked => (signer == 2 || (mgetD s.sec.slots 2 {}).revoked) && nonceOk s nonce
  | _ => false

/-- Every byte of device memory is zero-filled (R411); no poison and no tenant data remain. -/
def zeroMemory (s : State) : State :=
  { s with mem := { s.mem with
    dram := [], scales := [], poisonLines := [], poisonFrames := [], restoring := []
    parts := mmap s.mem.parts (fun _ p => { p with holdsData := false }) } }

/-- RETIRE: every job is stopped as JOB_TEARDOWN does, memory is zero-filled, the seed is blown (R405, R411). -/
def execRetire (t nonce signer : Nat) (sigOk : Bool) (s : State) : Host.Outcome State Fault Refusal :=
  .next (mailbox t 8 (fun s => checked (failIf (!retireOk s nonce signer sigOk) .accessDenied)
    (fun s =>
      let s := forEach (fun i s => if (jobAt s i).present then teardownJob false i .jobTornDown s else s) (List.range 16) s
      coffer 1 0 .lifecycle 4 0 0 0 (useNonce (zeroMemory { s with sec := { s.sec with
        life := .retired, level := 3, pfLevel := 0, unlockEnd := 0, tokenDigest := 0, seedBlown := true } }))) s) s)

/-- The measurement log of an index of Table 17.4. -/
def logOf (s : State) (n : Nat) : MLog := if n = 6 then s.sec.plateLog else if n = 7 then s.sec.weightLog else s.sec.tableLog

/-- LOG_READ: up to 64 entries of log 6 to 8 from the first named, oldest first, and the wrap flag (R407, Table 17.11). Their
layout in the buffer is not stated: its bytes are free. -/
def execLogRead (t log first : Nat) (s : State) : Host.Outcome State Fault Refusal :=
  .next (mailbox t 9 (fun s =>
    if log < 6 || 8 < log then (.malformed, [], s)
    else
      let l := logOf s log
      let out := leBytes (drawn (advanceDraw s)) (drawn s % 32769)
      (.complete, out, advanceDraw (advanceDraw { s with sec := { s.sec with
        logOut := ((l.entries.reverse.drop first).take 64, l.wrapped) } }))) s)

/-- CERT_WRITE: the certificate chain of a PROVISIONED part (R405, Table 17.11). -/
def execCertWrite (t : Nat) (chain : List Byte) (s : State) : Host.Outcome State Fault Refusal :=
  .next (mailbox t 10 (fun s => checked (failIf (s.sec.life != .provisioned) .accessDenied)
    (fun s => { s with sec := { s.sec with cert := chain } }) s) s)

/-- A write of SY_DEBUG_CTRL: PF_LEVEL is honoured in DEPLOYED only, NONE or TELEMETRY; RELOCK acts as the command (R412,
Table 17.13). -/
def writeDebug (v : Word) (s : State) : State :=
  let l := v.toNat % 4
  if !sirdoyxRuns s then s
  else if bit v.toNat 31 && s.sec.life == .unlocked then lapse s
  else if s.sec.life = .deployed && decide (l ≤ 1) then { s with sec := { s.sec with pfLevel := l, level := l } }
  else s

/-- PF_LEVEL_WRITE. -/
def execPfLevelWrite (t : Nat) (v : Word) (s : State) : Host.Outcome State Fault Refusal := .next (regWrite t (writeDebug v) s)

/-! ## SPDM (R406) -/

/-- The part has its identity key (R405). -/
def hasIdentity (s : State) : Bool := s.sec.seedFused && !s.sec.seedBlown

/-- An SPDM answer, where Sirdoyx runs and a RETIRED part may give it (Table 17.5). -/
def spdm (t : Nat) (retired ok : Bool) (name : String) (data : List Nat) (s : State) : State :=
  let s := tick t s
  if !sirdoyxRuns s || (s.sec.life == .retired && !retired) then s
  else if ok then sendMgmt (.spdm name data) s
  else sendMgmt .spdmError s

/-- GET_VERSION: SPDM 1.2 (R406). -/
def execGetVersion (t : Nat) (s : State) : Host.Outcome State Fault Refusal := .next (spdm t true true "VERSION" [0x1200] s)

/-- GET_CAPABILITIES (R406). The flags are those of SPDM and not stated. -/
def execGetCapabilities (t : Nat) (s : State) : Host.Outcome State Fault Refusal :=
  .next (advanceDraw (spdm t true true "CAPABILITIES" [drawn s] s))

/-- NEGOTIATE_ALGORITHMS: SHA3-512 (BaseHashAlgo bit 5), extended algorithms 0x0001 and 0x0002 (R406); any other
receives ERROR. -/
def execNegotiateAlgorithms (t hash asym kem : Nat) (s : State) : Host.Outcome State Fault Refusal :=
  .next (spdm t false (bit hash 5 && asym == 1 && kem == 2) "ALGORITHMS" [0x20, 1, 2] s)

/-- The bytes of the certificate chain as numbers. -/
def certNats (s : State) : List Nat := s.sec.cert.map (·.toNat)

/-- GET_DIGESTS: the digest of certificate slot 0 (R406). -/
def execGetDigests (t : Nat) (s : State) : Host.Outcome State Fault Refusal :=
  .next (spdm t false true "DIGESTS" [(Config.sha3 0 (certNats s)).toNat] s)

/-- GET_CERTIFICATE of slot 0 (R406). -/
def execGetCertificate (t slot offset length : Nat) (s : State) : Host.Outcome State Fault Refusal :=
  .next (spdm t false (slot == 0) "CERTIFICATE" (((certNats s).drop offset).take length) s)

/-- CHALLENGE: signed by the identity key over the nonce (R406). The signature's bytes are free. -/
def execChallenge (t slot nonce : Nat) (s : State) : Host.Outcome State Fault Refusal :=
  .next (advanceDraw (spdm t false (slot == 0 && hasIdentity s) "CHALLENGE_AUTH" [nonce, drawn s] s))

/-- The flash slot of a number: 0 A, 1 B. -/
def flashOf (s : State) (n : Nat) : FlashSlot := if n = 0 then s.sec.flashA else s.sec.flashB

/-- Number of a lifecycle state (Table 17.5). -/
def lifeCode : Life → Nat
  | .blank => 0 | .provisioned => 1 | .deployed => 2 | .unlocked => 3 | .retired => 4

/-- Measurement i of Table 17.4, as a digest. -/
def measurement (s : State) (i : Nat) : Digest :=
  match i with
  | 1 => Config.sha3 0 [1, Config.romVersion, s.sec.svnFloor, lifeCode s.sec.life]
  | 2 => Config.sha3 0 [2, (flashOf s s.id.fwSlot).digest.toNat]
  | 3 => Config.sha3 0 [3, (flashOf s s.id.fwSlot).digest.toNat, s.id.fwSlot]
  | 4 => Config.bootConfig
  | 5 => if s.sec.level = 0 then 0 else Config.sha3 0 [5, s.sec.level, s.sec.tokenDigest.toNat]
  | 6 => s.sec.plateLog.digest
  | 7 => s.sec.weightLog.digest
  | _ => s.sec.tableLog.digest

/-- GET_MEASUREMENTS of one index (R406); a RETIRED part answers index 1 only (Table 17.5). -/
def execGetMeasurements (t index : Nat) (s : State) : Host.Outcome State Fault Refusal :=
  .next (spdm t (index == 1) (decide (1 ≤ index ∧ index ≤ 8)) "MEASUREMENTS" [index, (measurement s index).toNat] s)

/-- The answer of a KEY_EXCHANGE or of the other session messages, with a change of the sessions where it succeeds. -/
def session (t : Nat) (ok : Bool) (name : String) (data : List Nat) (f : Sec → Sec) (s : State) : State :=
  let s' := spdm t false ok name data s
  if ok && sirdoyxRuns s && s.sec.life != .retired then { s' with sec := f s'.sec } else s'

/-- KEY_EXCHANGE by ML-KEM-1024, extended algorithm 0x0002 (R406). -/
def execKeyExchange (t kem sess : Nat) (s : State) : Host.Outcome State Fault Refusal :=
  .next (advanceDraw (session t (kem == 2 && hasIdentity s && !s.sec.sessions.contains sess) "KEY_EXCHANGE_RSP" [sess, drawn s]
    (fun x => { x with handshakes := if x.handshakes.contains sess then x.handshakes else sess :: x.handshakes }) s))

/-- FINISH ends the handshake of a session; one that fails ends it unopened (R406). -/
def execFinish (t sess : Nat) (ok : Bool) (s : State) : Host.Outcome State Fault Refusal :=
  let opens := ok && s.sec.handshakes.contains sess
  let s := session t opens "FINISH_RSP" [sess] (fun x => { x with sessions := sess :: x.sessions }) s
  .next (if sirdoyxRuns s then { s with sec := { s.sec with handshakes := s.sec.handshakes.filter (fun n => n != sess) } } else s)

/-- END_SESSION closes an open session (R406). -/
def execEndSession (t sess : Nat) (s : State) : Host.Outcome State Fault Refusal :=
  .next (session t (s.sec.sessions.contains sess) "END_SESSION_ACK" [sess]
    (fun x => { x with sessions := x.sessions.filter (fun n => n != sess) }) s)

/-- IDE_KM: within an open secure session a selective IDE stream is programmed (R408). -/
def execIdeKm (t sess stream key : Nat) (s : State) : Host.Outcome State Fault Refusal :=
  .next (session t (s.sec.sessions.contains sess) "IDE_KM" [stream] (fun x => { x with ideStreams := mset x.ideStreams stream key }) s)

/-! ## The TAP (R414) -/

/-- Level that a TAP instruction or debug transaction needs (R412, R414). -/
def tapNeeds : TapOp → Nat
  | .idcode => 0 | .bypass => 0 | .dbgRead => 2 | .readDebug _ => 2
  | _ => 3

/-- Level that the debug port gives in the power state in force (Table 17.10): in SLEEP and DEEP only IDCODE and BYPASS. -/
def tapLevel (s : State) : Nat := if s.pw.st = .sleep || s.pw.st = .deep then 0 else s.sec.level

/-- The operation is a transaction of the debug port, not an instruction. -/
def isTransaction : TapOp → Bool
  | .idcode | .bypass | .samplePreload | .extest | .clamp | .highz | .dbgRead | .dbgFull | .other _ => false
  | _ => true

/-- n bytes that the debug port reads of what this model does not hold (log entry 206). -/
def drawnBytes (n : Nat) (s : State) : List Byte := (List.range n).map (fun k => BitVec.ofNat 8 (Config.draw s.draws / 2 ^ (8 * k)))

/-- A transaction on the debug port, DBG_READ or DBG_FULL selected; all but a read of the debug records need DBG_FULL. -/
def tapAccess (op : TapOp) (s : State) : State :=
  let full := s.sec.tapIr == .dbgFull
  match op with
  | .readDebug n => if full || s.sec.tapIr == .dbgRead then advanceDraw (emit (.tapRead (drawnBytes n s)) s) else s
  | .haltCore => if full then { s with sec := { s.sec with haltedCore := true } } else s
  | .runCore => if full then { s with sec := { s.sec with haltedCore := false } } else s
  | .readMem a n => if full then emit (.tapRead (creads s.mem.dram a n)) s else s
  | .writeMem a d => if full && decide (a + d.length ≤ 2097152 * memChunks s) then writeDram a d s else s
  | .readScratch k a n =>
    if full && decide (a + n ≤ 12 * 131072) then emit (.tapRead (creads s.fab.scratch (k * 2 ^ 21 + a) n)) s else s
  | .writeScratch k a d =>
    if full && islValid k && decide (a + d.length ≤ 12 * 131072) then
      { s with fab := { s.fab with scratch := cwrites s.fab.scratch (k * 2 ^ 21 + a) d } }
    else s
  | _ => s

/-- What an honoured instruction or transaction does: IDCODE gives version 0, part 0x0960 and manufacturer 0x4B3 (R414). -/
def tapRun (op : TapOp) (s : State) : State :=
  match op with
  | .idcode => emit (.tapRead (leBytes 0x00960967 4)) { s with sec := { s.sec with tapIr := .idcode } }
  | .other _ => { s with sec := { s.sec with tapIr := .bypass } }
  | op => if isTransaction op then tapAccess op s else { s with sec := { s.sec with tapIr := op } }

/-- TAP_INSTRUCTION: an instruction outside the level in force selects the bypass register; nothing answers in OFF
(R414, R417). -/
def execTapInstruction (t : Nat) (op : TapOp) (s : State) : Host.Outcome State Fault Refusal :=
  let s := tick t s
  .next (if s.pw.st = .off || !s.pw.aonUp then s
    else if tapNeeds op ≤ tapLevel s then tapRun op s
    else if isTransaction op then s
    else { s with sec := { s.sec with tapIr := .bypass } })

end Sys2Proof.Machine
end

