-- ==== Sys2Proof/Machine/LongOps.lean ====
section
/-! DEFINITION. Control of long operations (R298, R327, Table 13.5), and the operations that no other chapter holds: self-test,
scrub, firmware staging, secure erase. -/
namespace Sys2Proof.Machine

/-! ## Control -/

/-- Phases in which OP_CANCEL takes effect; an install that has voted is cancelled at its coordinator only (Table 13.5). -/
def mayCancel (s : State) (o : LongOp) : Bool :=
  if o.code = 0x23 then (match o.kind with | .epochInstall mc => coordHere s mc | _ => false)
  else [0x10, 0x11, 0x12, 0x20, 0x21, 0x22, 0x30, 0x31, 0x40, 0x41, 0x50, 0x60, 0x61, 0x62, 0x70, 0x80].contains o.code

/-- Live operation n ends by cancellation, leaving the state of Table 13.5. -/
def cancelOp (n : Nat) (s : State) : State :=
  match mget s.ops.live n with
  | none => s
  | some o =>
    match o.kind with
    | .plateLoad _ _ _ p => endOp n .cancelled 0 (if o.code = 0x10 then s else clearPlate p s)
    | .epochInstall mc => voteNo mc .cancelled s
    | .partResize target .. => endOp n .cancelled 0 (cancelResize target o.runs s)
    | _ => endOp n .cancelled 0 s

/-- An operation that waits goes on where nothing holds it: a resize reclaims, an install takes its area or votes. -/
def kickOp (n : Nat) (s : State) : State :=
  match mget s.ops.live n with
  | none => s
  | some o =>
    match o.kind with
    | .partResize .. => reclaim n s
    | .epochInstall mc =>
      if opHeld s o then s
      else if o.code = 0x21 then takeArea mc s
      else if o.code = 0x22 then tryVote mc (startWaiting mc s)
      else s
    | _ => s

/-- Every live operation goes on where it may. -/
def kickAll (s : State) : State := forEach kickOp (s.ops.live.map (·.1)) s

/-- The live operation that an ID names (R298). -/
def opNamed (s : State) (opId : Nat) : Option LongOp :=
  match mget s.ops.live (opId % 2 ^ 54) with
  | some o => if opIdOf o.cmd.ctx (opId % 2 ^ 54) = opId then some o else none
  | none => none

/-- The checks that the four control commands share (R295, R298). -/
def opCheckNames (s : State) (h : Hdr) (opId : Nat) : Option Status :=
  firstOf [shapeCheck s h infoCmd false, failIf (opNamed s opId).isNone .malformed,
    failIf (h.ctx != adminCtx && decide (opId / 2 ^ 54 ≠ h.ctx)) .accessDenied]

/-- A control command: its checks, a further check on the operation, and then what it does to operation n; its FINAL follows. -/
def controlOp (t : Nat) (h : Hdr) (opId : Nat) (refuse : State → LongOp → Bool) (f : Nat → State → State) (s : State) : State :=
  command t h (fun s =>
    match firstOf [opCheckNames s h opId, failIf ((opNamed s opId).elim false (refuse s)) .busy] with
    | some st => final (cmdOf h) st 0 0 s
    | none => final (cmdOf h) .complete 0 0 (f (opId % 2 ^ 54) s)) s

/-- OP_SUSPEND: the operation is held where its phase allows, else BUSY (R327). -/
def execOpSuspend (t : Nat) (h : Hdr) (opId : Nat) (s : State) : Host.Outcome State Fault Refusal :=
  .next (controlOp t h opId (fun _ o => !maySuspend o.code) (fun n s => modOp n (fun o => { o with held := true }) s) s)

/-- OP_RESUME: a suspended operation goes on; on any other nothing changes (R327). -/
def execOpResume (t : Nat) (h : Hdr) (opId : Nat) (s : State) : Host.Outcome State Fault Refusal :=
  .next (controlOp t h opId (fun _ _ => false) (fun n s => kickOp n (modOp n (fun o => { o with held := false }) s)) s)

/-- OP_CANCEL: the operation ends with CANCELLED where its phase allows, else BUSY (R327). -/
def execOpCancel (t : Nat) (h : Hdr) (opId : Nat) (s : State) : Host.Outcome State Fault Refusal :=
  .next (controlOp t h opId (fun s o => !mayCancel s o) cancelOp s)

/-- OP_QUERY: the phase code in INFO, the progress in VALUE (R299). -/
def execOpQuery (t : Nat) (h : Hdr) (opId : Nat) (s : State) : Host.Outcome State Fault Refusal :=
  .next (command t h (fun s =>
    match opCheckNames s h opId, opNamed s opId with
    | some st, _ => final (cmdOf h) st 0 0 s
    | none, some o => final (cmdOf h) .complete o.code o.progress s
    | none, none => final (cmdOf h) .malformed 0 0 s) s)

/-! ## Self-test -/

/-- The islands that an online self-test takes next (R328): at most 8 of those without a resident slot that it has not held yet. -/
def testIslands (done : List Nat) (s : State) : List Nat :=
  (allIslands.filter (fun n => (islOf s n).slots.isEmpty && !fenced s n && !done.contains n)).take 8

/-- Online self-test op takes its next islands; with SCOPE calibration it holds none (log entry 189). -/
def takeTest (op : Nat) (s : State) : State :=
  match mget s.ops.live op with
  | some o =>
    match o.kind with
    | .selfTest 0 false =>
      let l := testIslands o.tested s
      forEach (fun n s => modIsl n (fun x => { x with testing := true }) s) l
        (modOp op (fun o => { o with tested := o.tested ++ l, since := s.time }) s)
    | _ => s
  | none => s

/-- At a scheduling window an online self-test gives back islands that it has held for 300 µs, which count as background time, and
takes the next ones unless it is held (R27, R328). -/
def passTest (op : Nat) (s : State) : State :=
  match mget s.ops.live op with
  | some o =>
    match o.kind with
    | .selfTest 0 false =>
      if s.time < o.since + 300000 then s
      else
        let l := allIslands.filter (fun n => (islOf s n).testing)
        let s := countGlobal 64 (l.length * 300000) (forEach (fun n s => modIsl n (fun x => { x with testing := false }) s) l s)
        if opHeld s o || rampFull s then s else takeTest op s
    | _ => s
  | none => s

/-- SELF_TEST: scope 0 self-test, 1 calibration; variant 0 ONLINE, 1 FULL, which waits until no job is resident (R328). -/
def execSelfTest (t : Nat) (h : Hdr) (scope variant : Nat) (s : State) : Host.Outcome State Fault Refusal :=
  .next (command2 t h (fun s =>
    match firstOf [shapeCheck s h infoAdmin (decide (1 < scope) || decide (1 < variant)), powerCheck s] with
    | some st => refuseOp h st s
    | none =>
      let s := beginOp h (.selfTest scope (variant == 1)) (if variant = 1 then 0x41 else 0x40) s
      if variant = 1 then modOp (s.ops.next - 1) (fun o => { o with waiting := true }) s
      else leaveIdle (takeTest (s.ops.next - 1) s)) s)

/-- Each failed unit is handled by its own rule, and recorded (R329): an island is fenced (R51), a Dovetail lane fails (R43),
a subchannel goes offline (R200, R458), a SerDes lane fails its pair (R336). -/
def failUnit (u : FailedUnit) (s : State) : State :=
  match u with
  | .island n fwd => if islValid n then fence n fwd (coffer 3 3 .testFailed n 0 0 0 s) else s
  | .lane n port control lh lt fh ft =>
    match neighbour n port with
    | some m => failLane n port m control lh lt fh ft (coffer 3 3 .testFailed n 0 0 0 s)
    | none => s
  | .subchannel n =>
    if 384 ≤ n then s
    else
      let s := coffer 4 3 .subchannelOffline (n / 24) 0 0 0 s
      if (mget s.mem.offline n).isSome then s else { s with mem := { s.mem with offline := mset s.mem.offline n 0 } }
  | .serdes port lane =>
    if 15 ≤ port || 4 ≤ lane then s
    else
      let s := coffer 5 3 .testFailed port 0 0 0 s
      let left := if (portOf s port).laneFail.contains lane then (portOf s port).laneFail else lane :: (portOf s port).laneFail
      let s := modPort port (fun p => { p with laneFail := left }) s
      if (portOf s port).st != 2 then s
      else if widthOf left = 0 then stopPort port 0 s
      else evalCapacity (modPort port (fun p => { p with width := widthOf left }) s)

/-- SELF_TEST_DONE: the test has run to its end; INFO counts the units failed and tested (R329). -/
def execSelfTestDone (t op : Nat) (units : List FailedUnit) (tested : Nat) (s : State) : Host.Outcome State Fault Refusal :=
  let s := tick t s
  .next (match mget s.ops.live op with
    | some o => (match o.kind with
      | .selfTest .. =>
        if o.code = 0x41 || opHeld s o then s
        else endOp op .complete (sat 16 units.length + 65536 * sat 16 tested) (forEach failUnit units s)
      | _ => s)
    | none => s)

/-! ## Scrub -/

/-- SCRUB_PASS of a partition, or of all device memory, as a long operation (R297, Table 13.5). -/
def execScrubPass (t : Nat) (h : Hdr) (part : Nat) (s : State) : Host.Outcome State Fault Refusal :=
  .next (command2 t h (fun s =>
    match firstOf [shapeCheck s h infoAdmin (decide (63 < part) && part != 0xFE && part != 0xFF),
        failIf (part != 0xFF && part != 0xFE && !(partOf s part).present) .malformed, powerCheck s] with
    | some st => refuseOp h st s
    | none => beginOp h (.scrub part) 0x50 s) s)

/-- SCRUB_PASS_DONE (R327). -/
def execScrubPassDone (t op : Nat) (s : State) : Host.Outcome State Fault Refusal :=
  let s := tick t s
  .next (match mget s.ops.live op with
    | some o => (match o.kind with
      | .scrub _ => if opHeld s o then s else endOp op .complete 0 s
      | _ => s)
    | none => s)

/-! ## Firmware staging -/

/-- Flash slot n (0 A, 1 B) changed by f. -/
def modFlash (n : Nat) (f : FlashSlot → FlashSlot) (s : State) : State :=
  { s with sec := if n = 0 then { s.sec with flashA := f s.sec.flashA } else { s.sec with flashB := f s.sec.flashB } }

/-- The header of a firmware image is well formed and agrees with the size that the command carries (R403, R488). -/
def fwHeaderOk (x : FwImage) (size : Nat) : Bool :=
  x.magicOk && decide (x.svn ≤ 64) && decide (x.minSvn ≤ x.svn) && decide (x.size ≤ 16772096) && size == x.size + 5120

/-- What VERIFY finds (R403, R404, R489). -/
def fwCheck (s : State) (size : Nat) (image : Option FwImage) : Option Status :=
  match image with
  | none => some .malformed
  | some x => objectCheck s (fwHeaderOk x size) 0 0 0 (x.digestOk && x.sigOk)
      (firstOf [failIf x.rsvd .malformed, failIf (decide (x.svn < s.sec.svnFloor)) .accessDenied])

/-- FW_STAGE: RECEIVE and VERIFY pass at once; the slot is then being written, and not valid (R404, Table 13.5). -/
def execFwStage (t : Nat) (h : Hdr) (addr size slot : Nat) (image : Option FwImage) (s : State) : Host.Outcome State Fault Refusal :=
  .next (command2 t h (fun s =>
    match firstOf [shapeCheck s h infoAdmin (decide (1 < slot)), powerCheck s, failIf (slot == s.id.fwSlot) .busy] with
    | some st => refuseOp h st s
    | none =>
      let x := image.getD {}
      let s := beginOp h (.fwStage slot size x.svn x.minSvn x.build x.digest) 0x60 s
      let s := readHost h.ctx addr size 0 h.layerTag h.opTag s
      match fwCheck s size image with
      | some st => endOp (s.ops.next - 1) st 0 s
      | none => modOp (s.ops.next - 1) (fun o => { o with code := 0x62, progress := size }) (modFlash slot (fun f => { f with valid := false }) s)) s)

/-- FW_STAGE_DONE: write and readback have ended; the slot holds the staged image (R404). -/
def execFwStageDone (t op : Nat) (s : State) : Host.Outcome State Fault Refusal :=
  let s := tick t s
  .next (match mget s.ops.live op with
    | some o => (match o.kind with
      | .fwStage slot _ svn minSvn build digest =>
        if opHeld s o then s
        else endOp op .complete 0 (modFlash slot (fun _ =>
          { valid := true, svn := svn, minSvn := minSvn, build := build, digest := digest, bootOk := true }) s)
      | _ => s)
    | none => s)

/-! ## Secure erase -/

/-- A partition has no context, resident job or open sequence (Table 13.5). -/
def partUnused (s : State) (part : Nat) : Bool :=
  !s.ctxs.any (fun c => c.2.present && c.1 != adminCtx && c.2.part == part)
    && !s.srv.jobs.any (fun j => (j.2.present || j.2.pendingAdmit) && j.2.part == part)
    && !s.srv.seqs.any (fun q => q.2.st != 0 && ctxPart s q.2.ctx == part)

/-- SECURE_ERASE of a tenant partition starts and waits in QUIESCE (R327). -/
def execSecureErase (t : Nat) (h : Hdr) (part : Nat) (s : State) : Host.Outcome State Fault Refusal :=
  .next (command2 t h (fun s =>
    match firstOf [shapeCheck s h infoAdmin (decide (63 < part)), failIf (!(partOf s part).present) .malformed, powerCheck s] with
    | some st => refuseOp h st s
    | none => beginOp h (.secureErase part) 0x70 s |> modOp s.ops.next (fun o => { o with waiting := true })) s)

/-- QUIESCE_MET: a waiting SECURE_ERASE or full SELF_TEST finds its condition met and goes on (R327, R328). -/
def execQuiesceMet (t op : Nat) (s : State) : Host.Outcome State Fault Refusal :=
  let s := tick t s
  .next (match mget s.ops.live op with
    | some o =>
      if opHeld s o then s
      else if o.code = 0x70 then (match o.kind with
        | .secureErase p => if partUnused s p then modOp op (fun o => { o with code := 0x71, waiting := false }) s else s
        | _ => s)
      else if o.code = 0x41 then
        (if s.srv.jobs.any (fun j => j.2.present || j.2.pendingAdmit) then s
         else leaveIdle (modOp op (fun o => { o with code := 0x42, waiting := false }) s))
      else s
    | none => s)

/-- A partition's frames are zero-filled and hold nothing; the partition keeps its chunks (R413). Its prefix tree goes, with the frames
that its pages have on other chips. -/
def erasePart (p : Nat) (s : State) : State :=
  let l := (partOf s p).chunks
  let s := zeroChunks 0 l s
  let s := { s with
    mem := { s.mem with poisonFrames := s.mem.poisonFrames.filter (fun f => !inRuns (f / 32) l || s.mem.retired.contains f) }
    srv := { s.srv with tree := s.srv.tree.filter (fun n => n.part != p) } }
  let s := { s with srv := { s.srv with
    farPages := s.srv.farPages.filter (fun x => s.srv.tree.any (fun n => n.page == x.page) || pageUsed s x.page) } }
  modPart p (fun x => { x with objs := [], waiting := [], holdsData := false }) s

/-- SECURE_ERASE_DONE: ERASE and VERIFY have ended; the partition holds no data (R413). -/
def execSecureEraseDone (t op : Nat) (s : State) : Host.Outcome State Fault Refusal :=
  let s := tick t s
  .next (match mget s.ops.live op with
    | some o => (match o.kind with
      | .secureErase p =>
        if o.code != 0x71 || opHeld s o then s
        else endOp op .complete 0 (coffer 0 0 .erased p 0 0 0 (erasePart p s))
      | _ => s)
    | none => s)

end Sys2Proof.Machine
end

