-- ==== Sys2Proof/Machine/Resets.lean ====
section
/-! DEFINITION. The resets of Table 19.1 above a context reset, what each keeps and loses (Table 19.2), the boot chain, and
the response to a fatal error (chapter 19). -/
namespace Sys2Proof.Machine

/-! ## Function resets -/

/-- No context has this number: a record due to it is written nowhere. -/
def noCtx : Nat := 0x400

/-- Commands of context c that jobs, plates and channels still owe a record are forgotten, and its tiles stop: nothing more is
written for it (R444). -/
def muteCmds (c : Nat) (s : State) : State :=
  let drop := fun (l : List Cmd) => l.filter (fun d => d.ctx != c)
  { s with
    mem := { s.mem with chans := mmap s.mem.chans (fun _ x => { x with queue := x.queue.filter (fun j => j.posted || j.cmd.ctx != c) }) }
    mdl := { s.mdl with embCmds := s.mdl.embCmds.map (fun e => if e.cmd.ctx = c then { e with cmd := { e.cmd with ctx := noCtx } } else e) }
    srv := { s.srv with jobs := mmap s.srv.jobs (fun _ j => { j with
      ends := drop j.ends
      teardowns := drop j.teardowns
      tables := j.tables.map (fun t => match t.reload with
        | some r => if r.cmd.ctx = c then { t with reload := none } else t
        | none => t) }) }
    fab := { s.fab with plates := mmap s.fab.plates (fun _ p => { p with unloads := drop p.unloads }) } }

/-- A function's MSI-X table, pending bits and pair halves return to their reset values. -/
def resetFunc (fn : Nat) (s : State) : State :=
  { s with hi := { s.hi with
    msix := mfilter s.hi.msix (fun k _ => k / 2048 != fn)
    msixPending := s.hi.msixPending.filter (fun k => k / 2048 != fn)
    held := mfilter s.hi.held (fun k _ => k / 16777216 != fn)
    latched := mfilter s.hi.latched (fun k _ => k / 16777216 != fn) } }

/-- A job of context c that still waits for its remote claims is dropped, its claims released. -/
def dropAdmits (c : Nat) (s : State) : State :=
  forEach (fun i s => if (jobAt s i).pendingAdmit && (jobAt s i).ctx == c then failAdmit i .resetAborted s else s) (List.range 16) s

/-- A VF's context meets its function's reset (R444): nothing more is written for it; jobs, groups, sequences and the
operations that may be cancelled end; rings and their setup return to reset values. Its partition stays bound. -/
def flrCtx (c : Nat) (s : State) : State :=
  let s := modCtx c (fun x => { x with ringErr := List.range 18, rings := [], trace := none, watches := [], late := [], enable := false }) s
  let s := { s with srv := { s.srv with reqs := s.srv.reqs.filter (fun e => e.2.st != .detected || e.2.h.ctx != c) } }
  let s := dropAdmits c s
  let s := forEach (fun i s => if (jobAt s i).present && (jobAt s i).ctx == c then teardownJob true i .jobTornDown s else s) (List.range 16) s
  let s := endReqs true (fun r => r.h.ctx == c) .jobTornDown s
  let s := forEach (fun g s => if (s.coll.groups.any (fun q => q.1 == g && q.2.ctx == c)) then endGroup true g s else s) (s.coll.groups.map (·.1)) s
  let s := forEach (fun i s => if (seqOf s i).ctx = c then endSeq i s else s) (s.srv.seqs.map (·.1)) s
  let s := forEach (fun n s => match mget s.ops.live n with
      | some o => if o.cmd.ctx != c then s
                  else if mayCancel s o then cancelOp n (modOp n (fun o => { o with silent := true }) s)
                  else modOp n (fun o => { o with silent := true }) s
      | none => s) (s.ops.live.map (·.1)) s
  let s := muteCmds c s
  modCtx c (fun x => { clearRings x with dbBlock := 0, statusBlock := 0, cfgErr := false, resetBusy := false, queues := [] }) s

/-- VF_FLR (R444). -/
def execVfFlr (t vf : Nat) (s : State) : Host.Outcome State Fault Refusal :=
  let s := tick t s
  .next (if !vfEnabled s vf then s
    else
      let s := if ctxHere s vf then flrCtx vf s else s
      resetFunc (fnOf vf) (endPoll s))

/-- The VFs of the PF on a link (R275). -/
def linkVfs (s : State) (link : Nat) : List Nat :=
  if !s.id.bifurcated then (if link = 0 then List.range 512 else [])
  else if link = 0 then List.range 256
  else if link = 1 then (List.range 256).map (· + 256)
  else []

/-- VF_ENABLE_CLEAR: every VF of the PF is reset and its context destroyed (R445). -/
def execVfEnableClear (t link : Nat) (s : State) : Host.Outcome State Fault Refusal :=
  let s := tick t s
  let s := endPoll (forEach (fun vf s =>
    let s := if ctxHere s vf then dropCtx vf (flrCtx vf s) else s
    resetFunc (fnOf vf) s) ((linkVfs s link).filter (fun v => ctxHere s v || vfEnabled s v)) s)
  .next (if link = 0 then { s with hi := { s.hi with numVfs0 := 0 } }
    else if link = 1 && s.id.bifurcated then { s with hi := { s.hi with numVfs1 := 0 } }
    else s)

/-- VF_ENABLE_SET: num VFs of the PF become enabled; NumVFs cannot change while VF Enable is set (R279). -/
def execVfEnableSet (t link num : Nat) (s : State) : Host.Outcome State Fault Refusal :=
  let s := tick t s
  let n := min num (linkVfs s link).length
  .next (if link = 0 && s.hi.numVfs0 == 0 then { s with hi := { s.hi with numVfs0 := n } }
    else if link = 1 && s.hi.numVfs1 == 0 then { s with hi := { s.hi with numVfs1 := n } }
    else s)

/-! ## What a reset of the device leaves -/

/-- Accepted requests without a final completion (R452). -/
def openReqs (s : State) : NMap Request := s.srv.reqs.filter (fun e => e.2.st != .detected)

/-- The Coffer takes the IDs of abandoned requests (R452). -/
def recordAbandoned (s : State) : State :=
  forEach (fun e s => coffer 6 0 .abandoned 0 e.2.h.job e.2.h.modelCtx e.2.h.reqId s) ((openReqs s).take 65536) s

/-- Chips that share a model context, a group or a remote claim with this one (R451). -/
def noticeChips (s : State) : List Nat :=
  let l := s.mdl.ctxs.flatMap (fun m => m.2.epochs.flatMap (fun e => e.m.chips.map (·.loc)))
    ++ s.coll.groups.flatMap (fun g => g.2.members)
    ++ s.srv.jobs.flatMap (fun j => j.2.resv.remotes.map (·.loc) ++ j.2.claimed.map (·.1))
  (dedup' l).filter (fun c => c != ownLoc s)

/-- RESET_NOTICE goes to each of them. -/
def sendNotices (s : State) : State := forEach (fun c s => sendXn c 0 false .resetNotice s) (noticeChips s) s

/-- An install that the reset interrupts (Table 10.8): the coordinator resends RELEASE or aborts; another chip keeps the
record COMMITTED and asks, and otherwise aborts. -/
def resolveInstall (mc : Nat) (s : State) : State :=
  let x := installOf s mc
  let s := modInstall mc (fun x => { x with op := 0 }) s
  if x.st = 4 && coordHere s mc then
    forEach (fun c s => if x.acks.contains c then s else sendXn c 0 false (.release mc) s) (otherChips s mc) s
  else if x.st = 0 || 4 ≤ x.st then modInstall mc (fun x => { x with active := false }) s
  else if coordHere s mc then abortAll mc .resetAborted s
  else if x.st = 3 then s
  else abortInstall mc .resetAborted (sendXn x.coord 0 false (.no mc .resetAborted) s)

/-- A live long operation at a hot or warm reset (Table 19.4). None writes a record (R453). -/
def resolveOp (n : Nat) (s : State) : State :=
  match mget s.ops.live n with
  | none => s
  | some o => match o.kind with
    | .partResize target .. => if o.code = 0x32 then retagDone n s else cancelResize target o.runs s
    | .secureErase p => if o.code = 0x71 || o.code = 0x72 then erasePart p s else s
    | _ => s

/-- Every long operation and install is resolved, and no operation is live any more. -/
def resolveOps (s : State) : State :=
  let s := { s with ops := { s.ops with live := mmap s.ops.live (fun _ o => { o with silent := true }) } }
  let s := forEach resolveInstall (s.mdl.ctxs.map (·.1)) (forEach resolveOp (s.ops.live.map (·.1)) s)
  { s with ops := { s.ops with live := [] } }

/-- A port after a hot or warm reset: its link state stands, its register fields return to reset values (Table 14.13), but
for the count of replays since cold boot (Table 14.12). -/
def portAfter (p : Port) : Port :=
  { p with disable := false, encReq := false, waitq := [], st := if p.disable then 1 else p.st }

/-- Model contexts after a hot or warm reset: epochs and install records stay, what jobs and requests held goes. -/
def modelAfter (m : Model) : Model :=
  { m with
    epochs := m.epochs.map (fun e => { e with
      refs := 0
      emb := e.emb.map (fun x => { x with staged := [], issued := false, unsettled := false, raised := none }) })
    detoks := m.detoks.getLast?.toList }

/-- A partition after a hot or warm reset: its chunks, tag and watermarks stay, its objects are gone. -/
def partAfter (p : Part) : Part := { p with objs := [], waiting := [], target := none }

/-- Patina's values, which every reset keeps (Table 19.2). -/
def patinaOf (x : Telem) : Telem :=
  { median := x.median, p10 := x.p10, level := x.level, lowerRuns := x.lowerRuns, indicator := x.indicator, unit := x.unit
    lifeLog := x.lifeLog, fences := x.fences, lastRound := x.lastRound }

/-- The power block after a hot or warm reset: pins, the rack manager's cap and lease, and HALTED stand (R385, R393). -/
def powerAfter (s : State) : Power :=
  let p := s.pw
  let halted := p.st == .halted
  let rack := if p.rackEmergency then p.rackCap else max p.rackCap 0x640
  { st := if halted then .halted else .run
    regPg := !halted
    oscRdy := !halted
    memRdy := !halted
    logicRdy := !halted
    pwrwarn := p.pwrwarn
    pwrwarnCap := p.pwrwarnCap
    lease := p.lease
    leaseEnd := p.leaseEnd
    hadLease := p.hadLease
    rackCap := rack
    rackEmergency := p.rackEmergency && decide (rack < 0x640)
    capEmergency := decide (rack < 0x640)
    emergency := decide (rack < 0x640)
    coolant := p.coolant
    coolantAt := p.coolantAt
    coolantOk1s := p.coolantOk1s
    clocksStopped := halted && p.clocksStopped
    stopAt := p.stopAt
    rails := p.rails
    lastBusy := s.time }

/-- Logs 6 to 8 start anew and are extended with the epochs and tables still resident, in ascending order (R407). -/
def restartLogs (s : State) : State :=
  let w := s.mdl.ctxs.flatMap (fun m =>
    (sortBy (fun (a b : Epoch) => decide (a.num ≤ b.num)) m.2.epochs).map (fun e => [e.m.digest.toNat, m.1, e.num]))
  let tb := s.mdl.ctxs.flatMap (fun m =>
    (sortBy (fun (a b : Detok) => decide (a.gen ≤ b.gen)) m.2.detoks).map (fun d => [d.image.digest.toNat, m.1, d.gen]))
  { s with sec := { s.sec with
    plateLog := {}
    weightLog := w.foldl (fun l e => extendLog e l) {}
    tableLog := tb.foldl (fun l e => extendLog e l) {} } }

/-- Sirdoyx after a hot reset: fuses, flash, lifecycle and an unlock stand; its setup registers and SPDM sessions do not. -/
def secAfter (x : Sec) : Sec :=
  { x with
    pfLevel := 0
    level := if x.life = .deployed then 0 else x.level
    fmEid := 0, rmEid := 0, mboxCmd := 0, mboxLen := 0, mboxBusy := false, mboxDone := false, mboxResult := 0, mboxBuf := []
    logOut := ([], false), handshakes := [], sessions := [], ideStreams := [], haltedCore := false }

/-- Sirdoyx after a reset that reloads firmware: an unlock lapses, the nonce is gone (Tables 17.6, 19.2). -/
def secReload (x : Sec) : Sec :=
  let x := secAfter x
  let life := if x.life = .unlocked then .deployed else x.life
  { x with life := life, level := defaultLevel life, unlockEnd := 0, tokenDigest := 0, nonce := none, nonceAt := 0 }

/-! ## The boot chain (R402, R403) -/

/-- Flash slots that the ROM ranks, best first: highest (SVN, BUILD), slot A winning a tie (R403). -/
def bootOrder (s : State) : List Nat :=
  let ok := fun n => let f := flashOf s n
    f.valid && decide (f.svn ≤ 64) && decide (f.minSvn ≤ f.svn) && decide (s.sec.svnFloor ≤ f.svn)
  let before := fun a b => let x := flashOf s a; let y := flashOf s b
    decide (y.svn < x.svn) || (x.svn == y.svn && decide (y.build ≤ x.build))
  sortBy before ([0, 1].filter ok)

/-- The device boots the first ranked slot that passes stages 3 and 4; with none it is in the failed-boot state (R403).
Once firmware runs, the fused floor rises to its MIN_SVN. -/
def secureBoot (s : State) : State :=
  match (bootOrder s).find? (fun n => (flashOf s n).bootOk && slotOk s 0 0 0) with
  | none => coffer 1 4 .bootRefused 0 0 0 0 { s with
      sec := { s.sec with failedBoot := true }
      pw := { s.pw with faultN := true, logicRdy := false } }
  | some n =>
    let f := flashOf s n
    { s with
      id := { s.id with fwSlot := n, fwSvn := f.svn, fwBuild := f.build }
      sec := { s.sec with failedBoot := false, fallback := (bootOrder s).head? != some n, svnFloor := max s.sec.svnFloor f.minSvn } }

/-- The straps and the boot configuration as ID_STRAPS lays them out are sampled (R466). -/
def sampleStraps (v : Nat) (x : IdBlock) : IdBlock :=
  { x with rack := bits v 6 6, board := bits v 5 3, slot := bits v 2 0, bifurcated := bit v 16 }

/-! ## Hot, warm and cold reset -/

/-- A hot or warm reset acts: the device is powered, not in DEEP or OFF, and no thermal trip or sequence fault holds it
(R396, R441, R481). -/
def resettable (s : State) : Bool :=
  s.pw.aonUp && s.pw.st != .deep && s.pw.st != .off && !s.pw.thermtrip && !s.pw.resetHeld

/-- Registers and what contexts, jobs, requests, sequences and groups held return to their reset values; device memory, model
contexts, operations, Patina and the Coffer stand (Table 19.2). -/
def setupReset (hi : HostIf) (s : State) : State :=
  { State.reset with
    pending := s.pending
    time := s.time
    id := s.id
    hi := hi
    mem := { s.mem with
      hiRsv := 0x400, rsvErr := false, agePeriod := 10, chans := [], hiHeld := 0, waiters := [], leaves := [], invals := []
      slices := []
      parts := mmap s.mem.parts (fun _ p => partAfter p) }
    fab := {
      isl := mmap s.fab.isl (fun _ x => { islAfter false x with testing := false })
      islBase := upIsl false
      fields := mmap s.fab.fields (fun _ f => { patinaGuard := f.patinaGuard })
      beaconOk := s.fab.beaconOk
      emergency := (powerAfter s).emergency
      windowStart := s.time }
    srv := {
      seqs := mmap s.srv.seqs (fun _ q => { gen := q.gen, used := true })
      nextReq := s.srv.nextReq
      jobGen := s.srv.jobGen }
    ops := s.ops
    mdl := { ctxs := mmap s.mdl.ctxs (fun _ m => modelAfter m) }
    xn := {
      ports := mmap s.xn.ports (fun _ p => portAfter p)
      unreach := s.xn.unreach
      executed := s.xn.executed
      nextFseq := s.xn.nextFseq
      capacityShort := s.xn.capacityShort
      lostCnt := s.xn.lostCnt
      lastLost := s.xn.lastLost }
    pw := powerAfter s
    sec := secAfter s.sec
    td := patinaOf s.td
    cof := s.cof
    draws := s.draws
    out := s.out }

/-- Islands are brought up where the device runs; in HALTED they wait for the exit (R393, R446). -/
def bringIfRunning (s : State) : State := if s.pw.st = .run && !s.sec.failedBoot then bringAll s else s

/-- Everything that a hot reset and a warm reset have in common (R442, R446, R450 to R453). -/
def bigReset (lastType : Nat) (fatal : Bool) (s : State) : State :=
  let n := (openReqs s).length
  bringIfRunning (restartLogs (setupReset { lastType := lastType, fatalSeen := fatal, abandoned := sat 16 n }
    (resolveOps (recordAbandoned (sendNotices s)))))

/-- Tenant partitions are zero-filled and hold no data any more (R183, R448). -/
def wipeTenants (s : State) : State :=
  forEach (fun p s => if p = 0xFE then s else erasePart p s) (s.mem.parts.map (·.1)) s

/-- A warm reset: a hot reset, firmware reloaded from flash, LPDDR6 retrained, tenant partitions zero-filled, an unlock
lapsed, straps sampled (R448, R466). -/
def warmReset (straps : Nat) (s : State) : State :=
  let s := bigReset 4 s.hi.fatalPending s
  let s := wipeTenants { s with
    id := sampleStraps straps s.id
    mem := { s.mem with offline := [] }
    sec := secReload s.sec }
  secureBoot s

/-- The straps as sampled last. -/
def strapsOf (x : IdBlock) : Nat := x.rack * 64 + x.board * 8 + x.slot + 65536 * bnat x.bifurcated

/-- HOT_RESET: cause 1 PF FLR, 2 hot reset, 3 loss of the host link, as LAST_TYPE codes them. While a fatal error holds the
device, a warm reset runs in its place (R446, R447, R457). -/
def execHotReset (t cause : Nat) (s : State) : Host.Outcome State Fault Refusal :=
  let s := tick t s
  .next (if !resettable s || s.sec.failedBoot then s
    else if s.hi.fatalPending then warmReset (strapsOf s.id) s
    else bigReset (if cause = 1 || cause = 3 then cause else 2) false s)

/-- WARM_RESET (R448). -/
def execWarmReset (t straps : Nat) (s : State) : Host.Outcome State Fault Refusal :=
  let s := tick t s
  .next (if resettable s then warmReset straps s else s)

/-- What is left when the core supplies go: fuses, flash, and the Coffer where the AON domain keeps it (Table 19.2). -/
def afterPowerLoss (keepCoffer : Bool) (s : State) : State :=
  { State.reset with
    pending := s.pending
    id := s.id
    mem := { retired := s.mem.retired }
    fab := {
      isl := mmap s.fab.isl (fun _ x => { islAfter false x with droopCnt := 0 })
      islBase := upIsl false
      beaconOk := s.fab.beaconOk
      fields := mmap s.fab.fields (fun _ f => { patinaGuard := f.patinaGuard }) }
    pw := { coolant := s.pw.coolant, pwrwarn := s.pw.pwrwarn, pwrwarnCap := s.pw.pwrwarnCap }
    sec := secReload s.sec
    td := patinaOf s.td
    cof := if keepCoffer then s.cof else {}
    draws := s.draws
    out := s.out }

/-- A cold boot (R449, Table 19.3): device time restarts at 0, device memory is lost, straps are sampled, firmware boots. -/
def coldBoot (fromOff : Bool) (straps : Nat) (s : State) : State :=
  let n := (openReqs s).length
  let keep := s.pw.aonUp && !fromOff && s.pw.st != .off
  let s := afterPowerLoss keep (if keep then recordAbandoned s else s)
  bringIfRunning (secureBoot { s with
    id := sampleStraps straps s.id
    hi := { s.hi with lastType := 5, abandoned := sat 16 n } })

/-- COLD_RESET: the supplies come up. A sequence fault holds the device until VDD_AON is removed (R481); a latched
THERMTRIP_N holds it until the latch is released (R482). -/
def execColdReset (t : Nat) (fromOff : Bool) (straps : Nat) (s : State) : Host.Outcome State Fault Refusal :=
  let s := tick t s
  .next (if s.pw.resetHeld && s.pw.aonUp then s
    else if s.pw.tripLatch && s.pw.aonUp then { s with
      id := sampleStraps straps s.id
      pw := { s.pw with coldWaits := true } }
    else coldBoot fromOff straps s)

/-- BOOT_STEP_TIMEOUT: a boot step under way before LOGIC_RDY passes its maximum; after one retry FAULT_N asserts and only
the sideband is served (R449). A boot is under way while the device is off, without supplies or tripped; and after a warm reset
that a fatal error led to, the training of step 3 may fail (R458). -/
def execBootStepTimeout (t step : Nat) (s : State) : Host.Outcome State Fault Refusal :=
  let s := tick t s
  .next (if s.sec.failedBoot || !(s.pw.st == .off || !s.pw.aonUp || s.pw.thermtrip
      || (step == 3 && s.hi.lastType == 4 && s.hi.fatalSeen)) then s
    else if !s.pw.bootRetried then { s with pw := { s.pw with bootRetried := true, bootStep := step } }
    else
      let s := { s with
        pw := { s.pw with faultN := true, bootRetried := false, bootStep := step, regPg := decide (1 < step)
                          oscRdy := decide (2 < step), memRdy := decide (3 < step), logicRdy := false }
        sec := { s.sec with failedBoot := true } }
      coffer 2 4 .bootTimeout step 0 0 0 s)

/-- FATAL_ERROR (R457). -/
def execFatalError (t unit : Nat) (hostFailed : Bool) (s : State) : Host.Outcome State Fault Refusal :=
  .next (fatal unit hostFailed (tick t s))

end Sys2Proof.Machine
end

