-- ==== Sys2Proof/Machine/PowerOps.lean ====
section
/-! DEFINITION. Scheduling windows, caps, emergencies, the thermal limits, power states and the coolant stop (chapters 13 and
16). -/
namespace Sys2Proof.Machine

/-! ## Caps (R385, Table 16.12) -/

/-- A value that a cap or the floor may take, in W (R385). -/
def wattsOk (w : Nat) : Bool := decide (800 ≤ w ∧ w ≤ 3200)

/-- A refused PW_ write. -/
def pwRefuse (s : State) : State := { s with pw := { s.pw with cfgErr := true } }

/-- PW_CAP (R385, Table 16.12). -/
def writeCap (v : Word) (s : State) : State :=
  let w := v.toNat % 4096
  if !wattsOk w then pwRefuse s
  else
    let old := effCap s
    capMoves old { s with pw := { s.pw with cap := max w s.pw.floor, capClamp := s.pw.capClamp || decide (w < s.pw.floor) } }

/-- A job is resident. -/
def jobResident (s : State) : Bool := s.srv.jobs.any (fun j => j.2.present)

/-- A value of PW_FLOOR that is refused: outside its range, above the PF cap, or while a job is resident (Table 16.12). -/
def floorRefused (w : Nat) (s : State) : Bool := !wattsOk w || decide (s.pw.cap < w) || jobResident s

/-- PW_FLOOR (R311, Table 16.12), while the setup lock is clear; a rack cap that the new floor passes is clamped to it. -/
def setFloor (w : Nat) (s : State) : State :=
  if floorRefused w s then pwRefuse s
  else
    let old := effCap s
    let floors := (List.range 4).map (floorCodeOf s)
    let clamp := decide (s.pw.rackCap < w) && !s.pw.rackEmergency
    capMoves old (keepFloors floors { s with pw := { s.pw with
      floor := w
      rackCap := if clamp then w else s.pw.rackCap
      rackEmergency := s.pw.rackEmergency && decide (s.pw.rackCap < w)
      capClamp := s.pw.capClamp || clamp } })

/-- A write of PW_FLOOR (R469, Table 16.12). -/
def writeFloor (v : Word) (s : State) : State :=
  let w := v.toNat % 4096
  lockedWrite (floorRefused w s) (w != s.pw.floor) (setFloor w) s

/-- A write of PW_RAMP, 50 to 2,000 W/ms (R388, Table 16.12). -/
def writeRamp (v : Word) (s : State) : State :=
  let w := v.toNat % 2048
  let ok := 50 ≤ w && w ≤ 2000
  lockedWrite (!ok) (w != s.pw.ramp) (fun s => if ok then { s with pw := { s.pw with ramp := w } } else pwRefuse s) s

/-- PW_PHASE (R383, Table 16.7). -/
def writePhase (v : Word) (s : State) : State :=
  let n := v.toNat % 8
  if 4 < n then pwRefuse s else controlPass false { s with pw := { s.pw with phase := n } }

/-- PW_OP_n (R383, Table 16.13). -/
def writeOp (n : Nat) (v : Word) (s : State) : State :=
  let c := v.toNat % 128
  if 96 < c then pwRefuse s
  else match n with
    | 0 => controlPass false { s with pw := { s.pw with op0 := c } }
    | 1 => controlPass false { s with pw := { s.pw with op1 := c } }
    | 2 => controlPass false { s with pw := { s.pw with op2 := c } }
    | 3 => controlPass false { s with pw := { s.pw with op3 := c } }
    | 4 => controlPass false { s with pw := { s.pw with op4 := c } }
    | _ => s

/-- PW_CAP_WRITE (R385). -/
def execPwCapWrite (t : Nat) (v : Word) (s : State) : Host.Outcome State Fault Refusal := .next (regWrite t (writeCap v) s)

/-- PW_FLOOR_WRITE (R311). -/
def execPwFloorWrite (t : Nat) (v : Word) (s : State) : Host.Outcome State Fault Refusal :=
  .next (regWrite t (writeFloor v) s)

/-- PW_PHASE_WRITE (R383). -/
def execPwPhaseWrite (t : Nat) (v : Word) (s : State) : Host.Outcome State Fault Refusal := .next (regWrite t (writePhase v) s)

/-- PW_OP_WRITE (R383). -/
def execPwOpWrite (t n : Nat) (v : Word) (s : State) : Host.Outcome State Fault Refusal := .next (regWrite t (writeOp n v) s)

/-! ## The rack manager's messages (R385, R391, R397) -/

/-- The endpoint is the rack manager's; an EID of 0x00 binds none (R409). -/
def fromRack (s : State) (eid : Nat) : Bool := s.sec.rmEid != 0 && eid == s.sec.rmEid

/-- SET_CAP: flags bit 0 is EMERGENCY (R385, Table 16.9). -/
def execSetCap (t eid cap flags : Nat) (s : State) : Host.Outcome State Fault Refusal :=
  let s := tick t s
  .next (if !fromRack s eid || !wattsOk cap then s
    else
      let old := effCap s
      let low := decide (cap < s.pw.floor)
      let emg := bit flags 0
      capMoves old { s with pw := { s.pw with
        rackCap := if low && !emg then s.pw.floor else cap
        rackEmergency := low && emg
        capClamp := s.pw.capClamp || (low && !emg) } })

/-- HEARTBEAT grants or renews the lease of 2 s (R391). -/
def execHeartbeat (t eid : Nat) (s : State) : Host.Outcome State Fault Refusal :=
  let s := tick t s
  .next (if fromRack s eid then { s with pw := { s.pw with lease := true, hadLease := true, leaseEnd := s.time + 2000000000 } } else s)

/-- LEASE_EXPIRY: the rack cap falls to the floor (R391). -/
def execLeaseExpiry (t : Nat) (s : State) : Host.Outcome State Fault Refusal :=
  let s := tick t s
  .next (if !s.pw.lease || decide (s.time < s.pw.leaseEnd) then s
    else
      let old := effCap s
      let s := { s with pw := { s.pw with lease := false, leaseExpired := true, rackCap := s.pw.floor, rackEmergency := false } }
      capMoves old (powerEvent 5 (coffer 7 1 .leaseExpiry 0 0 0 0 s)))

/-- PWRWARN_N_ASSERT: every island goes to its f_floor and the cap is the floor (R389). -/
def execPwrwarnNAssert (t : Nat) (s : State) : Host.Outcome State Fault Refusal :=
  let s := tick t s
  .next (if s.pw.pwrwarn then s
    else
      let old := effCap s
      let s := powerEvent 0 (coffer 7 1 .pwrwarn 0 0 0 0 { s with pw := { s.pw with pwrwarn := true, pwrwarnCap := true } })
      if s.pw.st = .idle ∨ s.pw.st = .sleep ∨ s.pw.st = .deep then s else controlPass true (capMoves old s))

/-- PWRWARN_CLEAR: PWRWARN_N has been deasserted for 10 ms (R389). -/
def execPwrwarnClear (t : Nat) (s : State) : Host.Outcome State Fault Refusal :=
  let s := tick t s
  let old := effCap s
  .next (capMoves old { s with pw := { s.pw with pwrwarn := false, pwrwarnCap := false } })

/-! ## Windows, readings and the thermal model -/

/-- One job's entitlement on one island for the window, its overrun taken (R313, R315), in ns. -/
def entitleOn (i n : Nat) (s : State) : State :=
  let full := 100 * (jobAt s i).resv.lcShare
  let take := min (mgetD s.fab.overrun (entKey i n) 0) full
  let s := { s with fab := { s.fab with
    entitle := mset s.fab.entitle (entKey i n) (full - take)
    overrun := if mgetD s.fab.overrun (entKey i n) 0 = take then mdel s.fab.overrun (entKey i n)
               else mset s.fab.overrun (entKey i n) (mgetD s.fab.overrun (entKey i n) 0 - take) } }
  modJob i (fun j => { j with overrun := j.overrun - 256 * take }) s

/-- A job's entitlements and its serving reserve (R130, R313). -/
def entitleJob (i : Nat) (s : State) : State :=
  let s := forEach (fun n s => entitleOn i n s) (jobIslands s i) s
  modJob i (fun j => { j with serveReserve := 256 * j.resv.lcShare * j.resv.footprint * widenOf j.resv / 10000 }) s

/-- Unfenced islands of a field. -/
def fieldIslands (s : State) (f : Nat) : Nat := (allIslands.filter (fun n => fieldOf n == f && !fenced s n)).length

/-- The window's droop: more than 0.5 % of it stretched raises the field's guard band by 5 mV, to at most 50 (R384). -/
def droopWindow (f : Nat) (s : State) : State :=
  let x := fieldSt s f
  modField f (fun x => { x with droopNs := 0 })
    (if 500 * fieldIslands s f < x.droopNs then
       modField f (fun x => { x with droopGuard := min 50 (x.droopGuard + 5), lastDroopWindow := s.time }) s
     else s)

/-- SCHEDULING_WINDOW: a window of 100 µs begins (R27, R313, R330, R384). -/
def execSchedulingWindow (t : Nat) (s : State) : Host.Outcome State Fault Refusal :=
  let s := tick t s
  let s := { s with fab := { s.fab with
    bg := s.fab.bgNext
    bgUsed := []
    windowStart := s.time
    entitle := [] } }
  let s := forEach entitleJob ((s.srv.jobs.filter (fun j => j.2.present)).map (·.1)) s
  let s := forEach (fun e s => passTest e.1 s) s.ops.live s
  let floors := (List.range 4).map (floorCodeOf s)
  let s := keepFloors floors (forEach droopWindow (List.range 4) s)
  let s := { s with pw := { s.pw with
    lcStep := sat 12 (Config.lcStep ((s.srv.jobs.filter (fun j => j.2.present)).map (fun j => (j.2.resv.lcShare, j.2.resv.footprint)))) } }
  .next (controlPass false s)

/-- GUARD_BAND_LOWER: 10 minutes without a droop-heavy window (R384). -/
def execGuardBandLower (t field : Nat) (s : State) : Host.Outcome State Fault Refusal :=
  let s := tick t s
  let x := fieldSt s field
  .next (if 4 ≤ field || x.droopGuard = 0 || decide (s.time < x.lastDroopWindow + 600000000000) then s
    else controlPass false (modField field (fun x => { x with droopGuard := x.droopGuard - 5, lastDroopWindow := s.time }) s))

/-- What a rail counts in P: its last reading, plus 10 % once three readings in a row are missing (R382). -/
def railWatts (r : Nat × Nat) : Nat := if 3 ≤ r.2 then r.1 * 110 / 100 else r.1

/-- One rail's reading, or a missed one; the third miss in a row raises an advisory (R382). -/
def takeReading (e : Nat × Option Nat) (s : State) : State :=
  let old := mgetD s.pw.rails e.1 (0, 0)
  match e.2 with
  | some w => { s with pw := { s.pw with rails := mset s.pw.rails e.1 (w, 0) } }
  | none =>
    let s := { s with pw := { s.pw with rails := mset s.pw.rails e.1 (old.1, old.2 + 1) } }
    if old.2 = 2 then advise 3 e.1 (coffer 7 1 .railReading e.1 0 0 0 s) else s

/-- One 50 µs reading of the overshoot integration; it ends once P has stayed at or below the cap for 1 ms, and a positive
energy is reported (R387). An overshoot of 20 W·50 µs is 1 mJ. -/
def integrate (s : State) : State :=
  if !s.pw.integrating then s
  else
    let excess := s.pw.power - effCap s
    let s := { s with pw := { s.pw with
      overshoot := s.pw.overshoot + excess
      lastOver := if excess = 0 then s.pw.lastOver else s.time } }
    if s.time < s.pw.lastOver + 1000000 then s
    else
      let s := { s with pw := { s.pw with integrating := false } }
      if s.pw.overshoot = 0 then s
      else
        let e := sat 32 (s.pw.overshoot / 20)
        sendMgmt (.capLag e (effCap s) s.pw.capChanged) { s with pw := { s.pw with capLagBit := true, capLag := e } }

/-- P is now w: the last 1 ms of readings is kept, and full duty returns once P is at or below the cap (R386, R388). -/
def takePower (w : Nat) (s : State) : State :=
  { s with pw := { s.pw with
    power := w
    history := (s.time, w) :: s.pw.history.filter (fun e => decide (s.time ≤ e.1 + 1000000))
    duty := if w ≤ effCap s then 1000 else s.pw.duty } }

/-- RAIL_READING: rails are read, P is their sum, and cap control runs (R382, R383, R387). -/
def execRailReading (t : Nat) (readings : List (Nat × Option Nat)) (s : State) : Host.Outcome State Fault Refusal :=
  let s := forEach takeReading readings (tick t s)
  .next (controlPass false (integrate (takePower (sat 16 (sumOf (fun r => railWatts r.2) s.pw.rails)) s)))

/-- A field's model is fitted: f_therm, whether the field must go below f_F, THERM_LIMIT; a halved field runs at its clock
again once no sensor reads 105 °C (R394 to R396). hot is the field's hottest sensor in 1/16 °C. -/
def fitField (f : Nat) (fit : ThermFit) (hot : Nat) (s : State) : State :=
  let s := modField f (fun x => { x with fit := fit, tj := hot, thermCode := min 96 (Config.thermCode f fit) }) s
  let below := decide (105 < Config.predictTj f fit (floorCodeOf s f)) || decide (1680 ≤ hot)
  let s := modField f (fun x => { x with belowF := below }) s
  let s := if hot < 1680 then { s with fab := { s.fab with
      isl := mmap s.fab.isl (fun n x => if fieldOf n = f then { x with halved := false } else x) } } else s
  if !below && decide ((fieldSt s f).thermCode ≤ floorCodeOf s f) then { s with pw := { s.pw with thermLimit := true } } else s

/-- Some field is held below f_F by heat. -/
def anyBelow (s : State) : Bool := (List.range 4).any (fun f => (fieldSt s f).belowF)

/-- THERMAL_MODEL_UPDATE: the models of the four fields are fitted; sensors holds each field's hottest sensor in 1/16 °C
(R394 to R396). -/
def execThermalModelUpdate (t : Nat) (fits : List ThermFit) (sensors : List Nat) (s : State) : Host.Outcome State Fault Refusal :=
  let s := tick t s
  let floors := (List.range 4).map (floorCodeOf s)
  let s := forEach (fun f s => match fits[f]? with | some x => fitField f x (sensors.getD f 0) s | none => s) (List.range 4) s
  let s := { s with pw := { s.pw with tjMax := sat 16 (sensors.foldl max 0) } }
  .next (setEmergency s.pw.capEmergency (anyBelow s) (keepFloors floors s))

/-- SENSOR_105: the field's DCOs halve their clocks, and the emergency follows (R396). -/
def execSensor105 (t field : Nat) (s : State) : Host.Outcome State Fault Refusal :=
  let s := tick t s
  .next (if 4 ≤ field then s
    else
      let s := forEach (fun n s => modIsl n (fun x => { x with halved := true }) s) (allIslands.filter (fun n => fieldOf n == field)) s
      let s := coffer 8 3 .sensor105 field 0 0 0 (modField field (fun x => { x with belowF := true }) s)
      setEmergency s.pw.capEmergency true s)

/-- FB_SCHED_CTRL: the background reservation from the next window on, refused outside 10 to 100 or where a sum of R311 or
R314 would break (R330). -/
def writeSchedCtrl (v : Word) (s : State) : State :=
  let b := v.toNat % 128
  let shares := fun n => sumOf (fun i => (jobAt s i).resv.lcShare) (dedup' ((platesOn s n).map (fun p => p.2.job)))
  let ok := decide (10 ≤ b ∧ b ≤ 100) && (!jobResident s
    || (sumsHold { s with fab := { s.fab with bg := b } } { footprint := 0 }
        && s.fab.isl.all (fun e => (platesOn s e.1).isEmpty || decide (shares e.1 + b + 20 ≤ 1000))))
  if ok then { s with fab := { s.fab with bgNext := b } } else { s with fab := { s.fab with schedCfgErr := true } }

/-- FB_SCHED_CTRL_WRITE (R330). -/
def execFbSchedCtrlWrite (t : Nat) (v : Word) (s : State) : Host.Outcome State Fault Refusal := .next (regWrite t (writeSchedCtrl v) s)

/-! ## Power states (R372 to R381) -/

/-- The exit to RUN starts: the four indicators are clear (R380). -/
def startExit (s : State) : State :=
  { s with pw := { s.pw with
    st := .exiting, exitFrom := s.pw.st, exitStep := 0, exitRetried := false
    regPg := false, oscRdy := false, memRdy := false, logicRdy := false } }

/-- A wake event: the exit starts from SLEEP or DEEP, a cold boot from OFF (R379, R381). -/
def wake (s : State) : State :=
  if s.pw.st = .sleep || s.pw.st = .deep then startExit s
  else if s.pw.st = .off then coldBoot true (strapsOf s.id) s
  else s

/-- A request for RUN: withdraws a pending request, and starts an exit from SLEEP, DEEP, or HALTED once the coolant has been
back for 1 s (R374, R375, R393). -/
def requestRun (s : State) : State :=
  let s := if s.pw.pending then kickAll { s with pw := { s.pw with pending := false, target := .run } } else s
  if s.pw.st = .sleep || s.pw.st = .deep then startExit s
  else if s.pw.st = .halted && s.pw.coolant && s.pw.coolantOk1s then startExit s
  else s

/-- A request for SLEEP, DEEP or OFF becomes pending, and replaces another (R374, R381). -/
def requestLow (target : PState) (s : State) : State :=
  if s.pw.st = target || s.pw.st = .off then s
  else { s with pw := { s.pw with pending := true, target := target } }

/-- The request of a REQ code: 0 RUN, 2 SLEEP, 3 DEEP, 4 OFF (Table 16.11). -/
def requestOf (req : Nat) (s : State) : State :=
  if req = 0 then requestRun s
  else if req = 2 then requestLow .sleep s
  else if req = 3 then requestLow .deep s
  else if req = 4 then requestLow .off s
  else s

/-- A write of REQ to PW_STATE_REQ (R374, Table 16.11). -/
def writeReq (req : Nat) (s : State) : State :=
  if req = 0 || req = 2 || req = 3 || req = 4 then requestOf req { s with pw := { s.pw with req := req } }
  else pwRefuse s

/-- REQUEST_RUN. -/
def execRequestRun (t : Nat) (s : State) : Host.Outcome State Fault Refusal := .next (regWrite t (writeReq 0) s)
/-- REQUEST_SLEEP. -/
def execRequestSleep (t : Nat) (s : State) : Host.Outcome State Fault Refusal := .next (regWrite t (writeReq 2) s)
/-- REQUEST_DEEP. -/
def execRequestDeep (t : Nat) (s : State) : Host.Outcome State Fault Refusal := .next (regWrite t (writeReq 3) s)
/-- REQUEST_OFF. -/
def execRequestOff (t : Nat) (s : State) : Host.Outcome State Fault Refusal := .next (regWrite t (writeReq 4) s)

/-- SET_STATE from the rack manager (R374, Table 16.9). -/
def execSetState (t eid req : Nat) (s : State) : Host.Outcome State Fault Refusal :=
  let s := tick t s
  .next (if fromRack s eid && !s.pw.thermtrip && s.pw.aonUp && !s.sec.failedBoot && !s.pw.resetHeld then requestOf req s else s)

/-- IDLE_ENTRY: no job and no operation that holds islands for 1 ms (R373). -/
def execIdleEntry (t : Nat) (s : State) : Host.Outcome State Fault Refusal :=
  let s := tick t s
  let holds := s.ops.live.any (fun o => match o.2.kind with
    | .plateLoad .. => true | .selfTest .. => o.2.code != 0x41 | _ => false)
  .next (if s.pw.st != .run || jobResident s || holds || decide (s.time < s.pw.lastBusy + 1000000) then s
    else { s with pw := { s.pw with st := .idle } })

/-- Conditions of Table 16.2 for SLEEP; a halted Bureau core keeps the request pending (R414). -/
def sleepReady (s : State) : Bool :=
  !s.srv.jobs.any (fun j => j.2.present || j.2.pendingAdmit) && s.ctxs.all (fun c => !c.2.present || quiesced c.2)
    && s.ops.live.all (fun o => maySuspend o.2.code) && !s.sec.haltedCore

/-- Conditions of Table 16.2 for DEEP and OFF. -/
def deepReady (s : State) : Bool :=
  sleepReady s && ctxCount s == 0 && !(ctxOf s adminCtx).enable && s.pw.pmeOff

/-- One port is held in electrical idle and seen DOWN (R376). -/
def downPort (n : Nat) (s : State) : State := stopPort n 0 s

/-- Every port is held in electrical idle and seen DOWN (R376). -/
def portsDown (s : State) : State := forEach downPort (s.xn.ports.map (·.1)) s

/-- Island rails go off: no clock, no lock. -/
def railsOff (s : State) : State :=
  let off := fun (x : Isl) => { x with fllLock := false, freqCode := 0, pendingCode := none, active := none }
  { s with fab := { s.fab with isl := mmap s.fab.isl (fun _ x => off x), islBase := off s.fab.islBase } }

/-- The device stands in a low state; the request is met and the indicators are clear (R380). -/
def inState (st : PState) (s : State) : State :=
  { s with pw := { s.pw with
    st := st, target := .run, pending := false
    regPg := false, oscRdy := false, memRdy := false, logicRdy := false } }

/-- DEEP: sequences and trees end, an unlock and TELEMETRY lapse, setup registers are lost; what a warm reset preserves of
the rest is kept, suspended operations too (R377, Table 16.3, Table 17.10). -/
def enterDeep (s : State) : State :=
  let s := lapse s
  let s := forEach endSeq (s.srv.seqs.map (·.1)) s
  let s := { s with ops := { s.ops with live := mmap s.ops.live (fun _ o => { o with late := true }) } }
  portsDown (railsOff (setupReset { lastType := s.hi.lastType, fatalSeen := s.hi.fatalSeen, abandoned := s.hi.abandoned, lock := s.hi.lock } s))

/-- STATE_ENTRY: the conditions of a pending request hold, and the device enters its state; ENTERING is passed through
(R374, R377). -/
def execStateEntry (t : Nat) (s : State) : Host.Outcome State Fault Refusal :=
  let s := tick t s
  .next (if !s.pw.pending || !(s.pw.st == .run || s.pw.st == .idle || s.pw.st == .sleep || s.pw.st == .deep) then s
    else match s.pw.target with
      | .sleep => if sleepReady s && s.pw.st != .deep then inState .sleep (portsDown (railsOff s)) else s
      | .deep => if deepReady s then
          let s := inState .deep (enterDeep s)
          { s with pw := { s.pw with pmeOff := true } }
        else s
      | .off => if deepReady s then inState .off (afterPowerLoss false s) else s
      | _ => s)

/-- What STATE_EXIT's last step does: islands are out of reset, ports train, logs restart after DEEP, the caps recorded
meanwhile apply, and held operations go on (R380, R381, R407). -/
def leaveLow (s : State) : State :=
  let s := if s.pw.exitFrom = .deep then restartLogs { s with hi := { s.hi with lock := false } } else s
  let s := { s with
    pw := { s.pw with logicRdy := true, st := .run, clocksStopped := false, pmeOff := false, lastBusy := s.time }
    xn := { s.xn with ports := mmap s.xn.ports (fun _ p => if p.st = 0 && !p.disable then { p with st := 1 } else p) } }
  kickAll (setEmergency (decide (s.pw.rackCap < s.pw.floor)) s.pw.thermEmergency (bringAll s))

/-- STATE_EXIT: step k of Tables 16.4 and 16.5 is complete. Step 1 waits until COOLANT_OK has been asserted for 1 s (R380,
R381). -/
def execStateExit (t step : Nat) (s : State) : Host.Outcome State Fault Refusal :=
  let s := tick t s
  .next (if s.pw.st != .exiting || step != s.pw.exitStep + 1 || 4 < step || (step == 1 && !(s.pw.coolant && s.pw.coolantOk1s)) then s
    else
      let s := { s with pw := { s.pw with exitStep := step, exitRetried := false } }
      if step = 1 then { s with pw := { s.pw with regPg := true } }
      else if step = 2 then { s with pw := { s.pw with oscRdy := true } }
      else if step = 3 then { s with pw := { s.pw with memRdy := true } }
      else leaveLow s)

/-- EXIT_STEP_TIMEOUT: the step is retried once; the second time FAULT_N asserts and the device stays in EXITING (R380). -/
def execExitStepTimeout (t step : Nat) (s : State) : Host.Outcome State Fault Refusal :=
  let s := tick t s
  .next (if s.pw.st != .exiting || step != s.pw.exitStep + 1 || 4 < step then s
    else if !s.pw.exitRetried then { s with pw := { s.pw with exitRetried := true } }
    else coffer 2 4 .exitTimeout step 0 0 0 { s with pw := { s.pw with faultN := true, exitStep := 9 } })

/-- WAKE_N (R379). -/
def execWakeN (t : Nat) (s : State) : Host.Outcome State Fault Refusal :=
  let s := tick t s
  .next (if s.pw.aonUp && !s.pw.resetHeld && !s.pw.thermtrip then wake s else s)

/-- SIDEBAND_ADDRESS_MATCH in SLEEP or DEEP: the exit starts if ANY_MATCH is set, or the transaction is a SET_STATE
requesting RUN (R378). -/
def execSidebandAddressMatch (t addr : Nat) (setStateRun : Bool) (s : State) : Host.Outcome State Fault Refusal :=
  let s := tick t s
  .next (if addr = 0x48 + s.id.slot && (s.pw.st == .sleep || s.pw.st == .deep) && (s.pw.anyMatch || setStateRun) then startExit s else s)

/-- PME_TURN_OFF is answered with PME_TO_Ack (Table 16.2). -/
def execPmeTurnOff (t : Nat) (s : State) : Host.Outcome State Fault Refusal :=
  let s := tick t s
  .next (if hostRuns s || s.pw.st == .sleep then emit .pmeAck { s with pw := { s.pw with pmeOff := true } } else s)

/-! ## Coolant and thermal trip (R392, R393, R396) -/

/-- Every step stops where it stands (R392). -/
def stopSteps (s : State) : State :=
  let s := forEach (fun p s => match (plateOf s p).running with
    | some r => recordStep p r false true (modPlate p (fun q => { q with running := none }) (countStep p (s.time - r.dispatch) s))
    | none => s) (s.fab.plates.map (·.1)) s
  { s with pw := { s.pw with clocksStopped := true } }

/-- COOLANT_STOP: COOLANT_OK has been deasserted for 20 µs (Tables 16.6, 16.8). -/
def execCoolantStop (t : Nat) (s : State) : Host.Outcome State Fault Refusal :=
  let s := tick t s
  let was := s.pw.st
  let s := { s with pw := { s.pw with coolant := false, coolantOk1s := false } }
  .next (if was = .off || was = .halted || !s.pw.aonUp then s
    else if was = .sleep || was = .deep then coffer 7 3 .coolantStop 0 0 0 0 s
    else
      let s := freezeCoffer 3 (coffer 7 3 .coolantStop 0 0 0 0 s)
      let s := stopSteps { s with pw := { s.pw with stopAt := s.time } }
      let s := forEach (fun k s => declineWaiting k .coolantStop s) (reqKeys s (fun r => r.st == .detected)) s
      let s := forEach (fun i s =>
        if (jobAt s i).pendingAdmit then failAdmit i .coolantStop s
        else if (jobAt s i).present then teardownJob false i .coolantStop s
        else s) (List.range 16) s
      let s := powerEvent 3 (portsDown (railsOff s))
      { s with pw := { s.pw with
        st := .halted
        regPg := false, oscRdy := false, memRdy := false, logicRdy := false } })

/-- CLOCK_STOP_TIMEOUT: the AON domain stops the island clocks and writes a record (R392). -/
def execClockStopTimeout (t : Nat) (s : State) : Host.Outcome State Fault Refusal :=
  let s := tick t s
  .next (if s.pw.st = .halted && !s.pw.coolant then coffer 2 3 .coolantStop 3 0 0 0 { s with pw := { s.pw with clocksStopped := true } } else s)

/-- COMPLETION_WRITE_TIMEOUT: requests whose completions are still to be written are recorded in the Coffer instead (R392). -/
def execCompletionWriteTimeout (t : Nat) (s : State) : Host.Outcome State Fault Refusal :=
  let s := tick t s
  .next (if s.pw.st = .halted && decide (s.pw.stopAt + 5000000 ≤ s.time) then
      forEach (fun e s => endReq true e.1 .coolantStop (coffer 7 3 .unwritten 0 e.2.h.job e.2.h.modelCtx e.2.h.reqId s)) (openReqs s) s
    else s)

/-- COOLANT_RESTORED: COOLANT_OK has been asserted for 1 s without a break (R393). -/
def execCoolantRestored (t : Nat) (s : State) : Host.Outcome State Fault Refusal :=
  let s := tick t s
  .next { s with pw := { s.pw with coolant := true, coolantOk1s := true, coolantAt := s.time } }

/-- THERMTRIP: a sensor measures 115 °C; every clock stops and the Coffer freezes (R396). -/
def execThermtrip (t : Nat) (s : State) : Host.Outcome State Fault Refusal :=
  let s := tick t s
  .next (if s.pw.thermtrip || !s.pw.aonUp || s.pw.st = .off then s
    else
      let s := freezeCoffer 4 (coffer 8 4 .thermtrip 0 0 0 0 s)
      { s with pw := { s.pw with thermtrip := true, tripLatch := true, clocksStopped := true, regPg := false, oscRdy := false, memRdy := false, logicRdy := false } })

end Sys2Proof.Machine
end

