-- ==== Sys2Proof/Machine/Electrical.lean ====
section
/-! DEFINITION. Power sequencing, the thermal trip's latch and the island regulators (chapters 2 and 21). -/
namespace Sys2Proof.Machine

/-- THERMTRIP_RELEASE: every sensor has read below 95 °C for 10 s; a cold reset that waits goes on (R482). -/
def execThermtripRelease (t : Nat) (s : State) : Host.Outcome State Fault Refusal :=
  let s := tick t s
  .next (if !s.pw.tripLatch then s
    else
      let go := s.pw.coldWaits
      let s := { s with pw := { s.pw with tripLatch := false, coldWaits := false } }
      if go then coldBoot false (strapsOf s.id) s else s)

/-- SEQUENCE_FAULT: a rail came out of order or late; the device stays in reset until VDD_AON is removed (R481). -/
def execSequenceFault (t rail : Nat) (s : State) : Host.Outcome State Fault Refusal :=
  let s := tick t s
  .next (coffer 2 4 .sequenceFault rail 0 0 0 { s with pw := { s.pw with
    resetHeld := true, faultN := true, regPg := false, oscRdy := false, memRdy := false, logicRdy := false, aonUp := true } })

/-- AON_SUPPLY_REMOVED: the device resets at once, releases every output and loses the Coffer (R481, R438). -/
def execAonSupplyRemoved (t : Nat) (s : State) : Host.Outcome State Fault Refusal :=
  let s := afterPowerLoss false (tick t s)
  .next { s with pw := { s.pw with
    st := .off, aonUp := false, regPg := false, oscRdy := false, memRdy := false, logicRdy := false } }

/-- RAIL_SETPOINT_REACHED: the field's rail stands at its setpoint, and codes that waited for it are given (R37). -/
def execRailSetpointReached (t field : Nat) (s : State) : Host.Outcome State Fault Refusal :=
  let s := tick t s
  .next (if 4 ≤ field then s
    else controlPass false (modField field (fun x => { x with railMv := x.setpoint }) s))

end Sys2Proof.Machine
end

