-- ==== Sys2Proof/Machine/Flags.lean ====
section
/-! DEFINITION. The register words of both BARs as functions of the state: the field maps of Tables 2.3, 3.11, 8.9 to 8.12,
12.13 to 12.17, 13.6, 13.7, 14.12 to 14.16, 16.10 to 16.14, 17.12 to 17.15, 18.1, 18.2, 18.11 to 18.20, 19.7 to 19.9 and
20.1 to 20.8. -/
namespace Sys2Proof.Machine

/-! ## Words from fields -/

/-- A word from its fields, each as (lowest bit, value). -/
def word (l : List (Nat × Nat)) : Nat := sumOf (fun e => e.2 * 2 ^ e.1) l

/-- The low half of a 64-bit value. -/
def lo32 (v : Nat) : Nat := v % 2 ^ 32

/-- The high half of a 64-bit value. -/
def hi32 (v : Nat) : Nat := v / 2 ^ 32 % 2 ^ 32

/-- The half of a 64-bit value at an offset: the low one at a multiple of 8. -/
def half (v off : Nat) : Nat := if off % 8 < 4 then lo32 v else hi32 v

/-- The offset lies in n bytes from base. -/
def within (off base n : Nat) : Bool := decide (base ≤ off ∧ off < base + n)

/-- The numbers of a list as bits. -/
def bitsOf (l : List Nat) : Nat := sumOf (fun n => 2 ^ n) (dedup' l)

/-! ## Identity (Tables 20.3 to 20.5) -/

/-- ID_PART. -/
def idPart (s : State) : Nat := word [(16, 0x0960), (4, s.id.variant)]

/-- ID_STRAPS. -/
def idStraps (s : State) : Nat :=
  word [(16, bnat s.id.bifurcated), (8, 0x48 + s.id.slot), (6, s.id.rack), (3, s.id.board), (0, s.id.slot)]

/-- The identity in a function's configuration space (R2): vendor and device ID, then the class code. No command reads it. -/
def configId : Func → Nat × Nat
  | .vf _ => (word [(16, 0x0961), (0, 0x1F6E)], 0x120000)
  | _ => (word [(16, 0x0960), (0, 0x1F6E)], 0x120000)

/-- Islands that are fenced. -/
def fencedCount (s : State) : Nat := (allIslands.filter (fenced s)).length

/-- Islands brought up and not fenced (Table 20.5). -/
def usableCount (s : State) : Nat := (allIslands.filter (islUsable s)).length

/-- A register of the ID block. -/
def idWord (s : State) (off : Nat) : Nat :=
  match off with
  | 0x00 => idPart s
  | 0x04 => if s.id.variant = 2 then 0x400 else 0x600
  | 0x08 => idStraps s
  | 0x0C => word [(8, s.id.fwSlot % 2), (0, s.id.fwSvn % 256)]
  | 0x10 => lo32 s.id.fwBuild
  | 0x14 => word [(16, usableCount s), (0, fencedCount s)]
  | _ => 0

/-! ## Contexts (Tables 12.16, 12.17, 19.7, 20.4, 20.6) -/

/-- The tag of the partition of a context that exists. -/
def tagOf (s : State) (x : Ctx) : Nat := (partOf s x.part).tag % 65536

/-- ID_VF_CTX. -/
def idVfCtx (s : State) (x : Ctx) : Nat :=
  if x.present then word [(31, 1), (30, bnat x.addrOnly), (16, x.part), (0, tagOf s x)] else 0

/-- CX_VF_n. -/
def cxVf (s : State) (x : Ctx) : Nat :=
  word [(31, bnat x.present), (30, bnat x.enable), (29, bnat (quiesced x)), (28, bnat (x.present && x.addrOnly)), (27, bnat (!x.ringErr.isEmpty)),
        (16, if x.present then x.part else 0), (0, if x.present then tagOf s x else 0)]

/-- CX_CTRL. -/
def cxCtrl (x : Ctx) : Nat := word [(31, bnat x.enable), (30, bnat (quiesced x)), (29, bnat x.cfgErr)]

/-- CX_RING_r_CFG. -/
def ringCfgWord (g : RingCfg) : Nat :=
  word [(27, g.sizeLog2 % 32), (16, g.vector % 2048), (8, g.coalCount % 256), (0, g.coalTime % 256)]

/-- A register of a ring setup page, by its offset in the page. -/
def setupWord (x : Ctx) (rel : Nat) : Nat :=
  match rel with
  | 0x00 => cxCtrl x
  | 0x04 => word [(30, bnat x.resetBusy)]
  | 0x08 => lo32 x.dbBlock.toNat
  | 0x0C => hi32 x.dbBlock.toNat
  | 0x10 => lo32 x.statusBlock.toNat
  | 0x14 => hi32 x.statusBlock.toNat
  | _ =>
    if within rel 0x100 0x120 then
      let g := mgetD x.rings ((rel - 0x100) / 16) {}
      match rel % 16 with
      | 0 => lo32 g.base.toNat
      | 4 => hi32 g.base.toNat
      | 8 => ringCfgWord g
      | _ => 0
    else 0

/-- A word of a counter page (Table 18.1): eight counters of each filter set from 0x100 + 0x40 × set on. -/
def counterWord (x : Ctx) (rel : Nat) : Nat :=
  if rel < 0x100 then half (mgetD x.counters (rel / 8) 0) rel
  else half (mgetD (mgetD x.filters ((rel - 0x100) / 0x40) {}).counts (rel % 0x40 / 8) 0) rel

/-! ## The host interface (Tables 12.13 to 12.15, 19.8, 19.9, 20.8) and MSI-X (R463) -/

/-- Word w of an MSI-X table entry. -/
def msixWord (e : MsixEntry) (w : Nat) : Nat :=
  match w with
  | 0 => lo32 e.addr.toNat
  | 1 => hi32 e.addr.toNat
  | 2 => e.data.toNat
  | _ => bnat e.masked

/-- A word of a function's MSI-X table, by its offset in the table. -/
def msixTable (s : State) (fn rel : Nat) : Nat := msixWord (mgetD s.hi.msix (fn * 2048 + rel / 16) {}) (rel % 16 / 4)

/-- A word of a function's pending-bit array. -/
def msixPba (s : State) (fn rel : Nat) : Nat :=
  bitsOf ((s.hi.msixPending.filter (fun k => k / 2048 == fn && k % 2048 / 32 == rel / 4)).map (· % 32))

/-- HI_DB_CTRL. -/
def hiDbCtrl (s : State) : Nat := word [(31, bnat s.hi.dbEnable), (30, bnat s.hi.fullScan), (0, s.hi.period % 512)]

/-- HI_DB_STATUS. -/
def hiDbStatus (s : State) : Nat :=
  word [(31, bnat s.hi.atomicErr), (30, bnat s.hi.dbCfgErr), (29, bnat s.hi.summaryErr), (0, s.hi.periodMiss % 65536)]

/-- HI_PTM_CTRL. -/
def hiPtmCtrl (s : State) : Nat := word [(31, bnat s.hi.ptmEnable), (30, bnat s.hi.sync), (0, s.hi.ptmPeriod % 1024)]

/-- HI_RESET_STATUS. -/
def hiResetStatus (s : State) : Nat :=
  word [(29, s.hi.lastType % 8), (28, bnat s.hi.fatalSeen), (27, bnat s.hi.fatalPending), (0, s.hi.abandoned % 65536)]

/-- HI_SETUP_LOCK. -/
def hiSetupLock (s : State) : Nat := word [(31, bnat s.hi.lock), (30, bnat s.hi.violation)]

/-- A register of the HI block, by its offset in the block. -/
def hiWord (s : State) (rel : Nat) : Nat :=
  match rel with
  | 0x00 => hiDbCtrl s
  | 0x04 => hiDbStatus s
  | 0x08 => lo32 s.hi.summary.toNat
  | 0x0C => hi32 s.hi.summary.toNat
  | 0x10 => lo32 s.hi.adminDb.toNat
  | 0x14 => hi32 s.hi.adminDb.toNat
  | 0x18 => hiPtmCtrl s
  | 0x20 => lo32 s.time
  | 0x24 => hi32 s.time
  | 0x34 => hiResetStatus s
  | 0x38 => hiSetupLock s
  | _ =>
    if within rel 0x100 0x220 then setupWord (ctxOf s adminCtx) (rel - 0x100)
    else if within rel 0x400 0x100 then msixPba s 0 (rel - 0x400)
    else if within rel 0x8000 0x8000 then msixTable s 0 (rel - 0x8000)
    else 0

/-! ## Memory (Tables 8.9 to 8.12, 20.7) -/

/-- MM_CAB_CH_n. -/
def mmCabCh (s : State) (n : Nat) : Nat :=
  let c := chanOf s n
  word [(30, c.cls % 4), (26, if c.cls = 1 ∨ c.cls = 2 then c.job % 16 else 0), (16, c.reserve % 1024), (0, c.held % 16384)]

/-- A register of MM_PART_n. -/
def mmPart (s : State) (n w : Nat) : Nat :=
  let p := partOf s n
  if !p.present then 0
  else match w with
    | 0 => word [(31, 1), (0, runLen p.chunks % 2 ^ 20)]
    | 1 => p.tag % 65536
    | 2 => freeFrames s p % 2 ^ 25
    | _ => committedOf s n % 2 ^ 25

/-- A register of the MM block. -/
def mmWord (s : State) (rel : Nat) : Nat :=
  match rel with
  | 0x00 => s.mem.hiRsv % 4096
  | 0x04 => word [(31, bnat s.mem.rsvErr), (0, sharedFree s % 16384)]
  | 0x08 => s.mem.agePeriod % 1024
  | 0x10 => runLen (freeRuns s) % 2 ^ 20
  | 0x14 => runLen s.mem.model % 2 ^ 20
  | 0x18 => runLen (partOf s 0xFE).chunks % 2 ^ 20
  | _ =>
    if within rel 0x100 0x100 then mmCabCh s ((rel - 0x100) / 4)
    else if within rel 0x1000 0x400 then mmPart s ((rel - 0x1000) / 16) (rel % 16 / 4)
    else 0

/-! ## Islands, plates and scheduling (Tables 2.3, 2.4, 3.11, 13.6, 13.7) -/

/-- FB_ISL_STATUS_n: an ID that names no island shows state NONE. -/
def fbIslStatus (s : State) (n : Nat) : Nat :=
  if !islValid n then word [(30, 3)]
  else
    let x := islOf s n
    word [(30, x.state % 4), (29, bnat x.routerOk), (28, bnat x.fllLock), (16, x.freqCode % 128), (0, x.droopCnt % 65536)]

/-- FB_PLATE_STATUS_n. -/
def fbPlateStatus (s : State) (n : Nat) : Nat :=
  let p := mgetD s.fab.plates n {}
  word [(30, p.state % 4), (24, p.job % 16), (0, p.isls.length % 2048)]

/-- A register of the FB block. -/
def fbWord (s : State) (rel : Nat) : Nat :=
  if rel = 0 then s.fab.bgNext % 128
  else if rel = 4 then word [(31, bnat s.fab.schedCfgErr), (30, bnat s.fab.emergency), (0, s.fab.admitFault % 65536)]
  else if within rel 0x1000 0x2000 then fbIslStatus s ((rel - 0x1000) / 4)
  else if within rel 0x3000 0x100 then fbPlateStatus s ((rel - 0x3000) / 4)
  else 0

/-! ## Xaene (Tables 14.12 to 14.16) -/

/-- XN_PORT_n. -/
def xnPort (p : Port) : Nat :=
  word [(30, p.st % 4), (28, p.width % 4), (27, bnat p.enc), (26, bnat p.miswire), (20, bitsOf p.laneFail % 16), (0, p.replayCnt % 65536)]

/-- A register of the XN block. -/
def xnWord (s : State) (rel : Nat) : Nat :=
  if within rel 0 60 then xnPort (portOf s (rel / 4))
  else if within rel 0x40 60 then
    let p := portOf s ((rel - 0x40) / 4)
    word [(31, bnat p.disable), (30, bnat p.encReq)]
  else match rel with
  | 0x80 => word [(24, s.xn.w5), (18, s.xn.w4), (12, s.xn.w3), (6, s.xn.w2), (0, s.xn.w1)]
  | 0x84 => word [(31, bnat s.xn.cfgErr), (16, s.xn.lostCnt % 32768), (8, s.xn.lateCnt % 256), (0, s.xn.lastLost % 128)]
  | 0x88 => word [(31, bnat s.xn.sidebandFault)]
  | _ => 0

/-! ## Power (Tables 16.10 to 16.14) -/

/-- The code of a power state in PW_STATE.STATE. OFF answers no access. -/
def stateCode : PState → Nat
  | .run => 0 | .idle => 1 | .sleep => 2 | .deep => 3 | .entering => 4 | .exiting => 5 | .halted => 6
  | .off => Config.targetOff % 16

/-- PW_STATE. -/
def pwState (s : State) : Nat :=
  let p := s.pw
  word [(28, stateCode p.st), (24, stateCode p.target), (23, bnat p.regPg), (22, bnat p.oscRdy), (21, bnat p.memRdy),
        (20, bnat p.logicRdy), (19, bnat p.pwrwarn), (18, bnat p.lease), (17, bnat p.coolant), (16, bnat p.emergency)]

/-- PW_STATUS. -/
def pwStatus (s : State) : Nat :=
  let p := s.pw
  word [(31, bnat p.cfgErr), (30, bnat p.capClamp), (29, bnat p.capLagBit), (28, bnat p.thermLimit), (27, bnat p.leaseExpired)]

/-- A register of the PW block. -/
def pwWord (s : State) (rel : Nat) : Nat :=
  match rel with
  | 0x00 => pwState s
  | 0x04 => word [(31, bnat s.pw.anyMatch), (0, s.pw.req % 8)]
  | 0x08 => s.pw.cap % 4096
  | 0x0C => s.pw.floor % 4096
  | 0x10 => s.pw.ramp % 2048
  | 0x14 => word [(16, s.pw.lcStep % 4096), (0, s.pw.rackCap % 4096)]
  | 0x20 => s.pw.op0 % 128
  | 0x24 => s.pw.op1 % 128
  | 0x28 => s.pw.op2 % 128
  | 0x2C => s.pw.op3 % 128
  | 0x30 => s.pw.op4 % 128
  | 0x34 => s.pw.phase % 8
  | 0x38 => pwStatus s
  | 0x3C => min s.pw.capLag (2 ^ 32 - 1)
  | 0x40 => word [(16, s.pw.tjMax % 65536), (0, s.pw.power % 65536)]
  | _ => 0

/-! ## Sirdoyx (Tables 17.12 to 17.15) -/

/-- SY_STATUS. -/
def syStatus (s : State) : Nat :=
  word [(29, lifeCode s.sec.life), (27, s.sec.level % 4), (26, s.id.fwSlot % 2), (25, bnat s.sec.fallback), (24, bnat (tenantData s)),
        (0, s.sec.svnFloor % 128)]

/-- SY_DEBUG_CTRL.UNLOCK_MIN: minutes of unlock lifetime left, rounded up. -/
def unlockMin (s : State) : Nat := if s.sec.life = .unlocked then ceilDiv (s.sec.unlockEnd - s.time) 60000000000 else 0

/-- A register of the SY block. SY_MBOX_CMD.GO reads 1 while the command that it set going runs (Table 0.6, log entry 149). -/
def syWord (s : State) (rel : Nat) : Nat :=
  match rel with
  | 0x00 => syStatus s
  | 0x04 => word [(2, unlockMin s % 32768), (0, s.sec.pfLevel % 4)]
  | 0x08 => word [(8, s.sec.fmEid % 256), (0, s.sec.rmEid % 256)]
  | 0x10 => word [(31, bnat s.sec.mboxBusy), (0, s.sec.mboxCmd % 256)]
  | 0x14 => s.sec.mboxLen % 65536
  | 0x18 => word [(31, bnat s.sec.mboxBusy), (30, bnat s.sec.mboxDone), (0, s.sec.mboxResult % 256)]
  | _ => if within rel 0x1000 0x8000 then leNat (creads s.sec.mboxBuf (rel - 0x1000) 4) else 0

/-! ## Telemetry (Tables 18.2, 18.11 to 18.18, 18.20) -/

/-- TD_ADDR_ONLY_n. -/
def tdAddrOnly (s : State) (n : Nat) : Nat := bitsOf ((List.range 32).filter (fun b => (ctxOf s (32 * n + b)).addrOnly))

/-- TD_SUBCH_ERR_n. -/
def subchErr (s : State) (n : Nat) : Nat :=
  let e := mgetD s.mem.subErr n (0, 0, 0)
  word [(28, sat 4 e.2.2), (16, sat 12 e.2.1), (0, sat 16 e.1)]

/-- The context that TD_CTX_SEL selects. -/
def selCtx (s : State) : Nat := if s.td.ctxSel = 0x3FF then adminCtx else s.td.ctxSel

/-- A register of the TD block. -/
def tdWord (s : State) (rel : Nat) : Nat :=
  match rel with
  | 0x000 => word [(31, bnat s.td.cfgErr)]
  | 0x008 => s.td.ctxSel % 1024
  | 0x00C => bitsOf s.td.advisory % 128
  | 0x100 => word [(16, s.td.median % 65536), (0, s.td.p10 % 65536)]
  | 0x104 => word [(30, s.td.level % 4), (16, s.td.indicator % 256), (0, s.td.unit % 65536)]
  | _ =>
    if within rel 0x10 0x40 then tdAddrOnly s ((rel - 0x10) / 4)
    else if within rel 0x200 0x28 then sat 16 (mgetD s.td.deferrals ((rel - 0x200) / 4) 0)
    else if within rel 0x1000 0x200 then counterWord (ctxOf s (selCtx s)) (rel - 0x1000)
    else if within rel 0x2000 0x2000 then
      (let n := (rel - 0x2000) / 4
       if islValid n then word [(24, (islOf s n).wear % 256), (8, (islOf s n).degr % 65536), (0, sat 8 (islOf s n).ceHour)] else 0)
    else if within rel 0x4000 0x600 then subchErr s ((rel - 0x4000) / 4)
    else if within rel 0x8000 0x400 then half (mgetD s.td.globals ((rel - 0x8000) / 8) 0) rel
    else 0

/-! ## The Coffer window (Table 18.19) -/

/-- The record of a slot of the Coffer: slot i holds the newest record whose SEQ leaves i. -/
def slotRec (s : State) (slot : Nat) : Option CofferRec := s.cof.recs.find? (fun r => r.seq % 65536 == slot)

/-- A register of the CF block. -/
def cfWord (s : State) (rel : Nat) : Nat :=
  match rel with
  | 0x00 => word [(31, bnat s.cof.frozen), (24, s.cof.cause % 16)]
  | 0x04 => lo32 s.cof.next
  | 0x08 => lo32 s.cof.drops
  | 0x10 => lo32 s.cof.freezeTime
  | 0x14 => hi32 s.cof.freezeTime
  | _ =>
    if within rel 0x300000 0x400000 then
      match slotRec s ((rel - 0x300000) / 64) with
      | some r => leNat (((cofferBytes r).drop (rel % 64)).take 4)
      | none => 0
    else 0

/-! ## The maps of Tables 20.1 and 20.2 -/

/-- A word of PF BAR0 at a multiple of 4 (R460, R461). -/
def pfWord (s : State) (off : Nat) : Nat :=
  if off < 0x10000 then idWord s off
  else if off < 0x20000 then hiWord s (off - 0x10000)
  else if off < 0x40000 then
    if off = 0x20000 then ctxCount s % 1024
    else if within off 0x21000 0x800 then cxVf s (ctxOf s ((off - 0x21000) / 4))
    else 0
  else if off < 0x60000 then mmWord s (off - 0x40000)
  else if off < 0x80000 then fbWord s (off - 0x60000)
  else if off < 0xA0000 then xnWord s (off - 0x80000)
  else if off < 0xC0000 then pwWord s (off - 0xA0000)
  else if off < 0xE0000 then syWord s (off - 0xC0000)
  else if off < 0x100000 then tdWord s (off - 0xE0000)
  else if off < 0x800000 then cfWord s (off - 0x100000)
  else 0

/-- A word of the second PF's BAR0: the ID block and its MSI-X structures (R462). -/
def pf2Word (s : State) (off : Nat) : Nat :=
  if off < 0x10000 then idWord s off
  else if within off 0x10400 0x100 then msixPba s 1023 (off - 0x10400)
  else if within off 0x18000 0x8000 then msixTable s 1023 (off - 0x18000)
  else 0

/-- A word of VF n's BAR0 (R464). -/
def vfWord (s : State) (n off : Nat) : Nat :=
  let x := ctxOf s n
  match off with
  | 0x00 => word [(16, 0x0961), (0, n)]
  | 0x04 => idVfCtx s x
  | 0x08 => idPart s
  | 0x0C => idStraps s
  | 0x10 => lo32 s.time
  | 0x14 => hi32 s.time
  | _ =>
    if within off 0x100 0x220 then setupWord x (off - 0x100)
    else if within off 0x800 0x40 then msixTable s (fnOf n) (off - 0x800)
    else if within off 0x880 8 then msixPba s (fnOf n) (off - 0x880)
    else if within off 0x1000 0x200 then counterWord x (off - 0x1000)
    else 0

/-- The register word of a function at a multiple of 4. -/
def readWord (s : State) (f : Func) (off : Nat) : Word :=
  BitVec.ofNat 32 (match f with
    | .pf => pfWord s off
    | .pf2 => pf2Word s off
    | .vf n => vfWord s n off)

end Sys2Proof.Machine
end

