-- ==== Sys2Proof/Machine/Registers.lean ====
section
/-! DEFINITION. Register accesses of the host: the dispatch of reads and writes by function, offset and size (R5 to R9, R461,
R462), the pairs of R6, the setup lock (R469 to R471), the registers without a chapter's own row, and the BAR2 window (R276). -/
namespace Sys2Proof.Machine

/-! ## Pairs (R6) -/

/-- The function's number: the PF 0, VF n n + 1, the second PF 1023. -/
def fnNo : Func → Nat
  | .pf => 0 | .pf2 => 1023 | .vf n => n + 1

/-- A ring setup page has the _LO half of a pair at its offset rel. -/
def setupLo (rel : Nat) : Bool := rel == 8 || rel == 0x10 || (within rel 0x100 0x120 && rel % 16 == 0)

/-- The offset is that of the _LO half of a pair. -/
def pairLo (f : Func) (off : Nat) : Bool :=
  match f with
  | .pf => off == 0x10008 || off == 0x10010 || off == 0x10020 || (within off 0x10100 0x220 && setupLo (off - 0x10100))
      || (within off 0xE1000 0x200 && off % 8 == 0) || (within off 0xE8000 0x400 && off % 8 == 0) || off == 0x100010
  | .pf2 => false
  | .vf _ => off == 0x10 || (within off 0x100 0x220 && setupLo (off - 0x100)) || (within off 0x1000 0x200 && off % 8 == 0)

/-- The offset is that of the _HI half of a pair. -/
def pairHi (f : Func) (off : Nat) : Bool := decide (4 ≤ off) && pairLo f (off - 4)

/-- The _LO half of a pair is held until its _HI half is written. -/
def holdLo (fn off : Nat) (v : Word) (s : State) : State := { s with hi := { s.hi with held := mset s.hi.held (pairKey fn off) v } }

/-- No half of the pair is held any more. -/
def dropLo (fn off : Nat) (s : State) : State := { s with hi := { s.hi with held := mdel s.hi.held (pairKey fn off) } }

/-- The low half that a _HI write puts with its own: the one held, or else the one in force. -/
def lowFor (s : State) (fn off : Nat) (cur : Dword) : Word := mgetD s.hi.held (pairKey fn off) (cur.truncate 32)

/-- A 64-bit value from its halves, with the n low bits reserved (R7). -/
def pairVal (n : Nat) (lo hi : Word) : Dword := BitVec.ofNat 64 ((hi.toNat * 2 ^ 32 + lo.toNat) / 2 ^ n * 2 ^ n)

/-! ## Ring setup pages (R280, R443; Tables 12.16, 12.17, 19.7) -/

/-- A setup write reaches an enabled context: it is ignored and CFG_ERR sets (R280). -/
def setupGuard (ctx : Nat) (f : State → State) (s : State) : State :=
  if (ctxOf s ctx).enable then modSetup ctx (fun x => { x with cfgErr := true }) s else f s

/-- CX_CTRL: CFG_ERR clears where written as 1, then ENABLE acts; an event of the same access leaves CFG_ERR set (R9). -/
def writeCxCtrl (ctx : Nat) (v : Word) (s : State) : State :=
  let s := if bit v.toNat 29 then modCtx ctx (fun x => { x with cfgErr := false }) s else s
  if bit v.toNat 31 then enableCtx ctx s else disableCtx ctx s

/-- Ring r of a setup page changed by f. -/
def modRing (ctx r : Nat) (f : RingCfg → RingCfg) (s : State) : State :=
  modSetup ctx (fun x => { x with rings := mupd x.rings r {} f }) s

/-- A value takes effect in the pair of a setup page at offset rel. -/
def setSetupPair (ctx rel : Nat) (lo hi : Word) (s : State) : State :=
  if rel = 8 then modSetup ctx (fun x => { x with dbBlock := pairVal 7 lo hi }) s
  else if rel = 0x10 then modSetup ctx (fun x => { x with statusBlock := pairVal 6 lo hi }) s
  else modRing ctx ((rel - 0x100) / 16) (fun g => { g with base := pairVal 0 lo hi }) s

/-- The value in force of the pair of a setup page at offset rel. -/
def setupPair (x : Ctx) (rel : Nat) : Dword :=
  if rel = 8 then x.dbBlock else if rel = 0x10 then x.statusBlock else (mgetD x.rings ((rel - 0x100) / 16) {}).base

/-- CX_RING_r_CFG. -/
def setRingCfg (ctx r : Nat) (v : Word) (s : State) : State :=
  let v := v.toNat
  modRing ctx r (fun g => { g with
    sizeLog2 := bits v 31 27
    vector := bits v 26 16
    coalCount := bits v 15 8
    coalTime := bits v 7 0 }) s

/-- A 32-bit write at offset rel of the ring setup page of a context. DESIGN CHOICE (log entry 150): a _HI write that R280 ignores
releases the _LO half held before it. -/
def setupWrite (ctx rel : Nat) (v : Word) (s : State) : State :=
  let fn := fnOf ctx
  let base := setupBase ctx
  if rel = 0 then writeCxCtrl ctx v s
  else if rel = 4 then (if bit v.toNat 31 then resetCtx ctx s else s)
  else if setupLo rel then setupGuard ctx (holdLo fn (base + rel) v) s
  else if 4 ≤ rel ∧ setupLo (rel - 4) then
    dropLo fn (base + rel - 4) (setupGuard ctx
      (fun s => setSetupPair ctx (rel - 4) (lowFor s fn (base + rel - 4) (setupPair (ctxOf s ctx) (rel - 4))) v s) s)
  else if within rel 0x100 0x120 ∧ rel % 16 = 8 then setupGuard ctx (setRingCfg ctx ((rel - 0x100) / 16) v) s
  else s

/-! ## The host interface -/

/-- HI_DB_CTRL (R293, R469, Table 12.13). -/
def writeDbCtrl (v : Word) (s : State) : State :=
  let full := bit v.toNat 30
  let period := v.toNat % 512
  let ok := decide (1 ≤ period ∧ period ≤ 256) && (!full || decide (16 ≤ period))
  if !ok then { s with hi := { s.hi with dbCfgErr := true } }
  else
    let s := lockedWrite false (full != s.hi.fullScan || period != s.hi.period)
      (fun s => { s with hi := { s.hi with fullScan := full, period := period } }) s
    { s with hi := { s.hi with dbEnable := bit v.toNat 31 } }

/-- HI_DB_STATUS: its bits clear where written as 1. -/
def writeDbStatus (v : Word) (s : State) : State :=
  let v := v.toNat
  { s with hi := { s.hi with
    atomicErr := s.hi.atomicErr && !bit v 31
    dbCfgErr := s.hi.dbCfgErr && !bit v 30
    summaryErr := s.hi.summaryErr && !bit v 29 } }

/-- HI_PTM_CTRL: a PERIOD outside 1 to 1,000 is ignored (Table 12.15). -/
def writePtmCtrl (v : Word) (s : State) : State :=
  let p := v.toNat % 1024
  { s with hi := { s.hi with
    ptmEnable := bit v.toNat 31
    ptmPeriod := if 1 ≤ p ∧ p ≤ 1000 then p else s.hi.ptmPeriod } }

/-- The pairs HI_DB_SUMMARY and HI_ADMIN_DB, write-locked as a whole (Table 20.9). -/
def lockedPair (off : Nat) : Bool := off == 0x10008 || off == 0x10010

/-- The value in force of a write-locked pair. -/
def lockedPairVal (s : State) (off : Nat) : Dword := if off = 0x10008 then s.hi.summary else s.hi.adminDb

/-- A value takes effect in a write-locked pair. -/
def setLockedPair (off : Nat) (lo hi : Word) (s : State) : State :=
  if off = 0x10008 then { s with hi := { s.hi with summary := pairVal 6 lo hi } }
  else { s with hi := { s.hi with adminDb := pairVal 7 lo hi } }

/-- A _LO write of a write-locked pair is held; under the lock it is compared with the value in force (R469, R471). -/
def lockedLo (off : Nat) (v : Word) (s : State) : State :=
  let cur := lockedPairVal s off
  let n := if off = 0x10008 then 6 else 7
  lockedWrite false (pairVal n v (BitVec.ofNat 32 (hi32 cur.toNat)) != cur) (holdLo 0 off v) s

/-- A _HI write of a write-locked pair. -/
def lockedHi (off : Nat) (v : Word) (s : State) : State :=
  let cur := lockedPairVal s off
  let lo := lowFor s 0 off cur
  lockedWrite false (BitVec.ofNat 32 (hi32 cur.toNat) != v) (fun s => dropLo 0 off (setLockedPair off lo v s)) s

/-- HI_SETUP_LOCK: VIOLATION clears where written as 1; LOCK sets, and held halves of write-locked pairs are discarded (R469,
R471, Table 20.8). -/
def writeSetupLock (v : Word) (s : State) : State :=
  let s := if bit v.toNat 30 then { s with hi := { s.hi with violation := false } } else s
  if bit v.toNat 31 && !s.hi.lock then dropLo 0 0x10008 (dropLo 0 0x10010 { s with hi := { s.hi with lock := true } }) else s

/-- The message of a vector that was pending goes out once the vector is unmasked. The context of function fn. -/
def sendPending (fn v : Nat) (s : State) : State :=
  let key := fn * 2048 + v
  if s.hi.msixPending.contains key && !(mgetD s.hi.msix key {}).masked then
    emit (.msix (if fn = 0 then adminCtx else fn - 1) v) { s with hi := { s.hi with msixPending := s.hi.msixPending.filter (· != key) } }
  else s

/-- A write of a word of an MSI-X table (R463), in the layout of PCI Express. -/
def writeMsix (fn rel : Nat) (v : Word) (s : State) : State :=
  let key := fn * 2048 + rel / 16
  let f := fun (e : MsixEntry) =>
    match rel % 16 / 4 with
    | 0 => { e with addr := pairVal 0 v (BitVec.ofNat 32 (hi32 e.addr.toNat)) }
    | 1 => { e with addr := pairVal 0 (BitVec.ofNat 32 (lo32 e.addr.toNat)) v }
    | 2 => { e with data := v }
    | _ => { e with masked := bit v.toNat 0 }
  sendPending fn (rel / 16) { s with hi := { s.hi with msix := mupd s.hi.msix key {} f } }

/-- A write of the HI block's registers, by offset in the block. -/
def writeHi (rel : Nat) (v : Word) (s : State) : State :=
  if rel = 0x00 then writeDbCtrl v s
  else if rel = 0x04 then writeDbStatus v s
  else if rel = 0x08 ∨ rel = 0x10 then lockedLo (0x10000 + rel) v s
  else if rel = 0x0C ∨ rel = 0x14 then lockedHi (0x10000 + rel - 4) v s
  else if rel = 0x18 then writePtmCtrl v s
  else if rel = 0x30 then (if bit v.toNat 31 && resettable s then warmReset (strapsOf s.id) s else s)
  else if rel = 0x38 then writeSetupLock v s
  else if within rel 0x100 0x220 then setupWrite adminCtx (rel - 0x100) v s
  else if within rel 0x8000 0x8000 then writeMsix 0 (rel - 0x8000) v s
  else s

/-! ## Memory and scheduling -/

/-- MM_CAB_HI_RSV: refused outside 256 to 2,048 or where the reserves would pass 7,168 drawers (R191, Table 8.9). -/
def writeHiRsv (v : Word) (s : State) : State :=
  let n := v.toNat % 4096
  let ok := decide (256 ≤ n ∧ n ≤ 2048) && decide (sumReserves s + n ≤ 7168 + s.mem.hiRsv)
  lockedWrite (!ok) (n != s.mem.hiRsv)
    (fun s => if ok then { s with mem := { s.mem with hiRsv := n } } else { s with mem := { s.mem with rsvErr := true } }) s

/-- MM_AGE_PERIOD: values outside 1 to 1,000 are ignored (Table 8.11). -/
def writeAgePeriod (v : Word) (s : State) : State :=
  let n := v.toNat % 1024
  let ok := decide (1 ≤ n ∧ n ≤ 1000)
  lockedWrite (!ok) (n != s.mem.agePeriod) (fun s => if ok then { s with mem := { s.mem with agePeriod := n } } else s) s

/-- A write of the MM block's registers. -/
def writeMm (rel : Nat) (v : Word) (s : State) : State :=
  if rel = 0x00 then writeHiRsv v s
  else if rel = 0x04 then { s with mem := { s.mem with rsvErr := s.mem.rsvErr && !bit v.toNat 31 } }
  else if rel = 0x08 then writeAgePeriod v s
  else s

/-- A write of the FB block's registers. -/
def writeFb (rel : Nat) (v : Word) (s : State) : State :=
  if rel = 0 then writeSchedCtrl v s
  else if rel = 4 then { s with fab := { s.fab with schedCfgErr := s.fab.schedCfgErr && !bit v.toNat 31 } }
  else s

/-! ## Xaene, power, Sirdoyx and telemetry -/

/-- A write of the XN block's registers. -/
def writeXn (rel : Nat) (v : Word) (s : State) : State :=
  if within rel 0x40 60 then writePortCtrl ((rel - 0x40) / 4) v s
  else if rel = 0x80 then writeVcWeight v s
  else if rel = 0x84 then { s with xn := { s.xn with cfgErr := s.xn.cfgErr && !bit v.toNat 31 } }
  else if rel = 0x88 then
    lockedWrite false (bit v.toNat 31 != s.xn.sidebandFault) (fun s => { s with xn := { s.xn with sidebandFault := bit v.toNat 31 } }) s
  else s

/-- PW_STATE_REQ: ANY_MATCH is write-locked; REQ acts (Table 16.11). -/
def writeStateReq (v : Word) (s : State) : State :=
  let s := lockedWrite false (bit v.toNat 31 != s.pw.anyMatch) (fun s => { s with pw := { s.pw with anyMatch := bit v.toNat 31 } }) s
  writeReq (v.toNat % 8) s

/-- PW_STATUS: its bits clear where written as 1. -/
def writePwStatus (v : Word) (s : State) : State :=
  let v := v.toNat
  { s with pw := { s.pw with
    cfgErr := s.pw.cfgErr && !bit v 31
    capClamp := s.pw.capClamp && !bit v 30
    capLagBit := s.pw.capLagBit && !bit v 29
    thermLimit := s.pw.thermLimit && !bit v 28
    leaseExpired := s.pw.leaseExpired && !bit v 27 } }

/-- A write of the PW block's registers. -/
def writePw (rel : Nat) (v : Word) (s : State) : State :=
  if rel = 0x04 then writeStateReq v s
  else if rel = 0x08 then writeCap v s
  else if rel = 0x0C then writeFloor v s
  else if rel = 0x10 then writeRamp v s
  else if within rel 0x20 20 then writeOp ((rel - 0x20) / 4) v s
  else if rel = 0x34 then writePhase v s
  else if rel = 0x38 then writePwStatus v s
  else s

/-- SY_MGMT_EID (R409, Table 17.14). -/
def writeMgmtEid (v : Word) (s : State) : State :=
  let fm := bits v.toNat 15 8
  let rm := bits v.toNat 7 0
  lockedWrite false (fm != s.sec.fmEid || rm != s.sec.rmEid) (fun s => { s with sec := { s.sec with fmEid := fm, rmEid := rm } }) s

/-- SY_MBOX_CMD: GO runs CMD unless a command runs; a LEN above 32,768 ends it at once with MALFORMED_DESCRIPTOR
(Table 17.15). -/
def writeMboxCmd (v : Word) (s : State) : State :=
  if s.sec.mboxBusy then s
  else
    let n := v.toNat % 256
    let s := { s with sec := { s.sec with mboxCmd := n } }
    if !bit v.toNat 31 then s
    else if 32768 < s.sec.mboxLen then mboxEnd n .malformed [] s
    else { s with sec := { s.sec with mboxBusy := true, mboxDone := false } }

/-- A write of the SY block's registers. -/
def writeSy (rel : Nat) (v : Word) (s : State) : State :=
  if rel = 0x04 then writeDebug v s
  else if rel = 0x08 then writeMgmtEid v s
  else if rel = 0x10 then writeMboxCmd v s
  else if rel = 0x14 then { s with sec := { s.sec with mboxLen := v.toNat % 65536 } }
  else if rel = 0x18 then { s with sec := { s.sec with mboxDone := s.sec.mboxDone && !bit v.toNat 30 } }
  else if within rel 0x1000 0x8000 then
    { s with sec := { s.sec with mboxBuf := cwrites s.sec.mboxBuf (rel - 0x1000) (leBytes v.toNat 4) } }
  else s

/-- The address-only bit of VF n; one of an enabled context stands and sets CFG_ERR (R428). -/
def setAddrOnly (vf : Nat) (on : Bool) (s : State) : State :=
  let x := ctxOf s vf
  if x.addrOnly == on then s
  else if x.enable then { s with td := { s.td with cfgErr := true } }
  else modSetup vf (fun x => { x with addrOnly := on }) s

/-- TD_ADDR_ONLY_n (R428, Table 18.14). -/
def writeAddrOnly (n : Nat) (v : Word) (s : State) : State :=
  forEach (fun b s => setAddrOnly (32 * n + b) (bit v.toNat b) s) (List.range 32) s

/-- A write of the TD block's registers. -/
def writeTd (rel : Nat) (v : Word) (s : State) : State :=
  if rel = 0x00 then { s with td := { s.td with cfgErr := s.td.cfgErr && !bit v.toNat 31 } }
  else if rel = 0x04 then (if bit v.toNat 31 then writeRelease s else s)
  else if rel = 0x08 then { s with td := { s.td with ctxSel := v.toNat % 1024 } }
  else if rel = 0x0C then clearAdvisories (v.toNat % 128) s
  else if within rel 0x10 0x40 then writeAddrOnly ((rel - 0x10) / 4) v s
  else s

/-! ## 32-bit accesses -/

/-- A 32-bit write at a multiple of 4 of PF BAR0; an offset that no writable register occupies ignores it (R461). -/
def pfWrite (off : Nat) (v : Word) (s : State) : State :=
  if off < 0x10000 then s
  else if off < 0x20000 then writeHi (off - 0x10000) v s
  else if off < 0x40000 then s
  else if off < 0x60000 then writeMm (off - 0x40000) v s
  else if off < 0x80000 then writeFb (off - 0x60000) v s
  else if off < 0xA0000 then writeXn (off - 0x80000) v s
  else if off < 0xC0000 then writePw (off - 0xA0000) v s
  else if off < 0xE0000 then writeSy (off - 0xC0000) v s
  else if off < 0x100000 then writeTd (off - 0xE0000) v s
  else s

/-- A 32-bit write at a multiple of 4. -/
def write32 (f : Func) (off : Nat) (v : Word) (s : State) : State :=
  match f with
  | .pf => pfWrite off v s
  | .pf2 => if within off 0x18000 0x8000 then writeMsix 1023 (off - 0x18000) v s else s
  | .vf n =>
    if within off 0x100 0x220 then setupWrite n (off - 0x100) v s
    else if within off 0x800 0x40 then writeMsix (fnOf n) (off - 0x800) v s
    else s

/-- A 32-bit read at a multiple of 4: its value and what it leaves latched (R6). -/
def read32 (f : Func) (off : Nat) (s : State) : Word × State :=
  let cur := readWord s f off
  if pairLo f off then
    (cur, { s with hi := { s.hi with latched := mset s.hi.latched (pairKey (fnNo f) off) (readWord s f (off + 4)) } })
  else if pairHi f off then
    match mget s.hi.latched (pairKey (fnNo f) (off - 4)) with
    | some v => (v, { s with hi := { s.hi with latched := mdel s.hi.latched (pairKey (fnNo f) (off - 4)) } })
    | none => (cur, s)
  else (cur, s)

/-! ## Accesses of every size (R5, R461) -/

/-- The function's BAR0 decodes an access of n bytes: it exists, its registers answer, and the access lies in the BAR. -/
def reaches (s : State) (f : Func) (off n : Nat) : Bool :=
  regsAnswer s && match f with
    | .pf => decide (off + n ≤ 0x1000000)
    | .pf2 => s.id.bifurcated && decide (off + n ≤ 0x1000000)
    | .vf v => decide (v < 512) && vfEnabled s v && decide (off + n ≤ 0x10000)

/-- The access is aligned and of a size that registers take. DESIGN CHOICE (log entry 151): accesses of 3, 5, 6 and 7 bytes are
handled as misaligned. -/
def aligned (off n : Nat) : Bool := (n == 1 || n == 2 || n == 4 || n == 8) && off % n == 0

/-- A write of n bytes (R5): a pair takes both halves at once, another 8-byte write acts as two. DEDUCED (log entry 152): where the
lower access is refused and sets an error bit, a 1 written to that bit by the higher access clears it. -/
def accessWrite (f : Func) (off n : Nat) (v : Dword) (s : State) : State :=
  let lo : Word := BitVec.ofNat 32 (lo32 v.toNat)
  let hi : Word := BitVec.ofNat 32 (hi32 v.toNat)
  if !reaches s f off n || !aligned off n then s
  else if n = 4 then write32 f off lo s
  else if n = 8 then
    if f = .pf ∧ lockedPair off then
      lockedWrite false (pairVal (if off = 0x10008 then 6 else 7) lo hi != lockedPairVal s off)
        (fun s => dropLo 0 off (setLockedPair off lo hi s)) s
    else write32 f (off + 4) hi (write32 f off lo s)
  else s

/-- A read of n bytes (R5): the value, and what it leaves latched. An 8-byte read of a pair returns both halves at once and
latches nothing; a narrow read returns the addressed bytes; a misaligned one zeros. -/
def accessRead (f : Func) (off n : Nat) (s : State) : Nat × State :=
  if !aligned off n then (0, s)
  else if n = 4 then
    let r := read32 f off s
    (r.1.toNat, r.2)
  else if n = 8 then
    if pairLo f off then ((readWord s f off).toNat + 2 ^ 32 * (readWord s f (off + 4)).toNat, s)
    else
      let a := read32 f off s
      let b := read32 f (off + 4) a.2
      (a.1.toNat + 2 ^ 32 * b.1.toNat, b.2)
  else ((readWord s f (off / 4 * 4)).toNat / 2 ^ (8 * (off % 4)) % 2 ^ (8 * n), s)

/-- A read returns its value to the host, where the access is decoded. -/
def readOut (f : Func) (off n : Nat) (s : State) : State :=
  if reaches s f off n then
    let r := accessRead f off n s
    emit (.regRead f (BitVec.ofNat 64 r.1)) r.2
  else s

/-! ## The rows -/

/-- SETUP_LOCK (R469). -/
def execSetupLock (t : Nat) (v : Word) (s : State) : Host.Outcome State Fault Refusal := .next (regWrite t (writeSetupLock v) s)

/-- A context number that names a ring setup page the host can reach. -/
def setupThere (s : State) (ctx : Nat) : Bool := ctx == adminCtx || (decide (ctx < 512) && vfEnabled s ctx)

/-- RING_SETUP_WRITE (R280): a write at offset off of the page of a context. -/
def execRingSetupWrite (t ctx off : Nat) (v : Word) (s : State) : Host.Outcome State Fault Refusal :=
  .next (regWrite t (fun s => if setupThere s ctx && off % 4 == 0 then setupWrite ctx off v s else s) s)

/-- HI_DB_CTRL_WRITE (R293). -/
def execHiDbCtrlWrite (t : Nat) (v : Word) (s : State) : Host.Outcome State Fault Refusal := .next (regWrite t (writeDbCtrl v) s)

/-- PAIR_LO_WRITE (R6): a 32-bit write. -/
def execPairLoWrite (t : Nat) (f : Func) (off : Nat) (v : Word) (s : State) : Host.Outcome State Fault Refusal :=
  .next (accessWrite f off 4 (v.zeroExtend 64) (tick t s))

/-- PAIR_HI_WRITE (R6): a 32-bit write. -/
def execPairHiWrite (t : Nat) (f : Func) (off : Nat) (v : Word) (s : State) : Host.Outcome State Fault Refusal :=
  .next (accessWrite f off 4 (v.zeroExtend 64) (tick t s))

/-- PAIR_LO_READ (R6): a 32-bit read. -/
def execPairLoRead (t : Nat) (f : Func) (off : Nat) (s : State) : Host.Outcome State Fault Refusal := .next (readOut f off 4 (tick t s))

/-- PAIR_HI_READ (R6): a 32-bit read. -/
def execPairHiRead (t : Nat) (f : Func) (off : Nat) (s : State) : Host.Outcome State Fault Refusal := .next (readOut f off 4 (tick t s))

/-- MISALIGNED_ACCESS (R5): a misaligned read returns zero and a misaligned write is ignored. -/
def execMisalignedAccess (t : Nat) (f : Func) (isWrite : Bool) (off bytes : Nat) (v : Dword) (s : State) :
    Host.Outcome State Fault Refusal :=
  let s := tick t s
  .next (if isWrite then accessWrite f off bytes v s else readOut f off bytes s)

/-- REGISTER_WRITE (R5 to R9, R461, R462). -/
def execRegisterWrite (t : Nat) (f : Func) (off bytes : Nat) (v : Dword) (s : State) : Host.Outcome State Fault Refusal :=
  .next (accessWrite f off bytes v (tick t s))

/-- MM_CAB_HI_RSV_WRITE (R191). -/
def execMmCabHiRsvWrite (t : Nat) (v : Word) (s : State) : Host.Outcome State Fault Refusal := .next (regWrite t (writeHiRsv v) s)

/-- TD_ADDR_ONLY_WRITE (R428). -/
def execTdAddrOnlyWrite (t n : Nat) (v : Word) (s : State) : Host.Outcome State Fault Refusal :=
  .next (if n < 16 then regWrite t (writeAddrOnly n v) s else tick t s)

/-- ADVISORY_CLEAR (R433): a write of TD_ADVISORY. -/
def execAdvisoryClear (t : Nat) (v : Word) (s : State) : Host.Outcome State Fault Refusal :=
  .next (regWrite t (clearAdvisories (v.toNat % 128)) s)

/-! ## The BAR2 window (R102, R276) -/

/-- The chunk of a partition at place i of its allocation order. -/
def nthChunk : List (Nat × Nat) → Nat → Option Nat
  | [], _ => none
  | (a, n) :: l, i => if i < n then some (a + i) else nthChunk l (i - n)

/-- The chip-local address of byte o of the admin partition. -/
def adminAddr (s : State) (o : Nat) : Option Nat := (nthChunk (partOf s 0xFE).chunks (o / 2097152)).map (fun c => c * 2097152 + o % 2097152)

/-- Byte o of the window lies in an SP region, or beyond the admin partition: it reads 0xFF and takes no write. -/
def bar2Address (s : State) (o : Nat) : Option Nat :=
  match adminAddr s o with
  | some a => if lmodeOf s (a / 2097152) = 0 then some a else none
  | none => none

/-- Byte i of an access at off of the window; one of a poisoned line is left open (log entry 31). -/
def bar2Byte (s : State) (off i : Nat) : Byte :=
  match bar2Address s (off + i) with
  | some a => if linePoisoned s (a / 32) then BitVec.ofNat 8 (drawn s / 256 ^ i) else cread s.mem.dram a
  | none => 0xFF

/-- Each byte of an access counted at its memory controller (Table 18.2). -/
def bar2Count (write : Bool) (off n : Nat) (s : State) : State :=
  forEach (fun i s => match bar2Address s (off + i) with
    | some a => countGlobal (subchannelOf s a / 24 + if write then 16 else 0) 1 s
    | none => s) (List.range n) s

/-- An access that meets an offset beyond the partition or an SP line is an advisory, HOST_ACCESS (R433). -/
def bar2Advise (off n : Nat) (s : State) : State :=
  if (List.range n).all (fun i => (bar2Address s (off + i)).isSome) then s else advise 6 0 s

/-- The device decodes an access of n bytes at off of BAR2: memory is ready, and the access lies within the BAR's size (R2,
R461). -/
def bar2Reaches (s : State) (off n : Nat) : Bool := regsAnswer s && s.pw.memRdy && decide (off + n ≤ 2 ^ s.hi.bar2Log)

/-- BAR2_READ (R276). -/
def execBar2Read (t off n : Nat) (s : State) : Host.Outcome State Fault Refusal :=
  let s := tick t s
  .next (if bar2Reaches s off n then
      advanceDraw (emit (.barRead ((List.range n).map (fun i => bar2Byte s off i))) (bar2Advise off n (bar2Count false off n s)))
    else s)

/-- The bytes of a write stored one by one; those that have no address are discarded, and those of a poisoned line or frame
wait until it is restored (R99). -/
def bar2Store : Nat → List Byte → State → State
  | _, [], s => s
  | o, b :: l, s =>
    match bar2Address s o with
    | some a =>
      if linePoisoned s (a / 32) then bar2Store (o + 1) l { s with mem := { s.mem with heldWrites := s.mem.heldWrites ++ [(a, b)] } }
      else bar2Store (o + 1) l { s with mem := { s.mem with dram := cwrite s.mem.dram a b } }
    | none => bar2Store (o + 1) l s

/-- Lines wholly written lose their poison, as any write to device memory leaves them. -/
def bar2Clean (off n : Nat) (s : State) : State :=
  forEach (fun i s =>
    if (off + i) % 32 = 0 ∧ i + 32 ≤ n then
      match bar2Address s (off + i) with
      | some a => { s with mem := { s.mem with poisonLines := s.mem.poisonLines.filter (· != a / 32) } }
      | none => s
    else s) (List.range n) s

/-- BAR2_WRITE (R276). -/
def execBar2Write (t off : Nat) (data : List Byte) (s : State) : Host.Outcome State Fault Refusal :=
  let s := tick t s
  .next (if bar2Reaches s off data.length then
      bar2Advise off data.length (bar2Store off data (bar2Clean off data.length (bar2Count true off data.length s)))
    else s)

end Sys2Proof.Machine
end

