-- ==== Sys2Proof/Machine/Dispatch.lean ====
section
/-! DEFINITION. The meaning of each command and event: one direct call per constructor. -/
namespace Sys2Proof.Machine

/-- The effect of a command or event on the state (its queue apart). -/
def exec (i : Instr) (s : State) : Host.Outcome State Fault Refusal :=
  match i with
  | .generate t h b => Sys2Proof.Machine.execGenerate t h b s
  | .score t h b => Sys2Proof.Machine.execScore t h b s
  | .embedGather t h b bags => Sys2Proof.Machine.execEmbedGather t h b bags s
  | .tileMove t h d => Sys2Proof.Machine.execTileMove t h d s
  | .embRowUpdate t h table row data => Sys2Proof.Machine.execEmbRowUpdate t h table row data s
  | .embGenCommit t h table => Sys2Proof.Machine.execEmbGenCommit t h table s
  | .kvMigrate t h seq target targetVf ans => Sys2Proof.Machine.execKvMigrate t h seq target targetVf ans s
  | .jobAdmit t h resvAddr resvSize resv kvAddr kv => Sys2Proof.Machine.execJobAdmit t h resvAddr resvSize resv kvAddr kv s
  | .jobEnd t h => Sys2Proof.Machine.execJobEnd t h s
  | .jobTeardown t h => Sys2Proof.Machine.execJobTeardown t h s
  | .plateLoad t h imageAddr imageSize => Sys2Proof.Machine.execPlateLoad t h imageAddr imageSize s
  | .plateUnload t h plate => Sys2Proof.Machine.execPlateUnload t h plate s
  | .tableReload t h table addr size => Sys2Proof.Machine.execTableReload t h table addr size s
  | .seqEnd t h seq => Sys2Proof.Machine.execSeqEnd t h seq s
  | .modelCreate t h uuid => Sys2Proof.Machine.execModelCreate t h uuid s
  | .modelDestroy t h => Sys2Proof.Machine.execModelDestroy t h s
  | .epochInstall t h installTag coord manifestAddr manifestSize dirAddr => Sys2Proof.Machine.execEpochInstall t h installTag coord manifestAddr manifestSize dirAddr s
  | .detokLoad t h addr size image => Sys2Proof.Machine.execDetokLoad t h addr size image s
  | .ctxCreate t h vf part => Sys2Proof.Machine.execCtxCreate t h vf part s
  | .ctxDestroy t h vf => Sys2Proof.Machine.execCtxDestroy t h vf s
  | .partCreate t h part partTag size low high => Sys2Proof.Machine.execPartCreate t h part partTag size low high s
  | .partResize t h target size low high => Sys2Proof.Machine.execPartResize t h target size low high s
  | .selfTest t h scope variant => Sys2Proof.Machine.execSelfTest t h scope variant s
  | .scrubPass t h part => Sys2Proof.Machine.execScrubPass t h part s
  | .fwStage t h addr size slot image => Sys2Proof.Machine.execFwStage t h addr size slot image s
  | .secureErase t h part => Sys2Proof.Machine.execSecureErase t h part s
  | .opSuspend t h opId => Sys2Proof.Machine.execOpSuspend t h opId s
  | .opResume t h opId => Sys2Proof.Machine.execOpResume t h opId s
  | .opCancel t h opId => Sys2Proof.Machine.execOpCancel t h opId s
  | .opQuery t h opId => Sys2Proof.Machine.execOpQuery t h opId s
  | .reqCancel t h target => Sys2Proof.Machine.execReqCancel t h target s
  | .collGroupCreate t h b => Sys2Proof.Machine.execCollGroupCreate t h b s
  | .collGroupDestroy t h => Sys2Proof.Machine.execCollGroupDestroy t h s
  | .barrier t h b => Sys2Proof.Machine.execBarrier t h b s
  | .reduceSmall t h b => Sys2Proof.Machine.execReduceSmall t h b s
  | .allReduce t h b => Sys2Proof.Machine.execAllReduce t h b s
  | .allGather t h b => Sys2Proof.Machine.execAllGather t h b s
  | .reduceScatter t h b => Sys2Proof.Machine.execReduceScatter t h b s
  | .traceSetup t h base sizeLog2 kinds headAddr => Sys2Proof.Machine.execTraceSetup t h base sizeLog2 kinds headAddr s
  | .counterFilter t h set layer operator job => Sys2Proof.Machine.execCounterFilter t h set layer operator job s
  | .layerReport t h addr bytes => Sys2Proof.Machine.execLayerReport t h addr bytes s
  | .tensorWatch t h b => Sys2Proof.Machine.execTensorWatch t h b s
  | .watchCancel t h target => Sys2Proof.Machine.execWatchCancel t h target s
  | .stopBlockReturn t req block => Sys2Proof.Machine.execStopBlockReturn t req block s
  | .stopBlockTimeout t req => Sys2Proof.Machine.execStopBlockTimeout t req s
  | .prefixLookupDone t req prompt plan => Sys2Proof.Machine.execPrefixLookupDone t req prompt plan s
  | .stepDispatch t plate ops plan => Sys2Proof.Machine.execStepDispatch t plate ops plan s
  | .stepBoundary t plate res plan => Sys2Proof.Machine.execStepBoundary t plate res plan s
  | .stepWatchdog t plate => Sys2Proof.Machine.execStepWatchdog t plate s
  | .deadlineMarginTimer t req => Sys2Proof.Machine.execDeadlineMarginTimer t req s
  | .beAllocationResume t part => Sys2Proof.Machine.execBeAllocationResume t part s
  | .dovetailTransfer t isl port control err x => Sys2Proof.Machine.execDovetailTransfer t isl port control err x s
  | .counterIncrement t isl counter inc => Sys2Proof.Machine.execCounterIncrement t isl counter inc s
  | .dovetailRecalibration t isl port control tempMove dMin loopHere loopThere fwdHere fwdThere => Sys2Proof.Machine.execDovetailRecalibration t isl port control tempMove dMin loopHere loopThere fwdHere fwdThere s
  | .islandBringUp t isl sweeps passed fwd => Sys2Proof.Machine.execIslandBringUp t isl sweeps passed fwd s
  | .islandBringUpTimeout t isl step fwd => Sys2Proof.Machine.execIslandBringUpTimeout t isl step fwd s
  | .fllLock t isl => Sys2Proof.Machine.execFllLock t isl s
  | .droop t isl => Sys2Proof.Machine.execDroop t isl s
  | .droopRelease t isl stretched => Sys2Proof.Machine.execDroopRelease t isl stretched s
  | .plateLoadVerified t op image => Sys2Proof.Machine.execPlateLoadVerified t op image s
  | .islandConfigAck t op isl => Sys2Proof.Machine.execIslandConfigAck t op isl s
  | .islandConfigTimeout t op isl passed fwd => Sys2Proof.Machine.execIslandConfigTimeout t op isl passed fwd s
  | .plateResident t op => Sys2Proof.Machine.execPlateResident t op s
  | .plateRemoval t plate => Sys2Proof.Machine.execPlateRemoval t plate s
  | .reloadPayloadWritten t job table => Sys2Proof.Machine.execReloadPayloadWritten t job table s
  | .reloadVerified t job table payload digest digestOk sigOk => Sys2Proof.Machine.execReloadVerified t job table payload digest digestOk sigOk s
  | .lineCheckFail t line err again => Sys2Proof.Machine.execLineCheckFail t line err again s
  | .frameRestored t frame testOk data => Sys2Proof.Machine.execFrameRestored t frame testOk data s
  | .restoreFailed t frame => Sys2Proof.Machine.execRestoreFailed t frame s
  | .retrainSlice t subch last ok => Sys2Proof.Machine.execRetrainSlice t subch last ok s
  | .subchannelRetry t subch ok => Sys2Proof.Machine.execSubchannelRetry t subch ok s
  | .tilePieceComplete t channel data poisoned => Sys2Proof.Machine.execTilePieceComplete t channel data poisoned s
  | .cabinetDrawerGrant t => Sys2Proof.Machine.execCabinetDrawerGrant t s
  | .eviction t part => Sys2Proof.Machine.execEviction t part s
  | .ageSample t accessed => Sys2Proof.Machine.execAgeSample t accessed s
  | .reclaimResume t op => Sys2Proof.Machine.execReclaimResume t op s
  | .resizeRetagDone t op => Sys2Proof.Machine.execResizeRetagDone t op s
  | .frameMigration t part frame => Sys2Proof.Machine.execFrameMigration t part frame s
  | .invalidationAck t datu frame => Sys2Proof.Machine.execInvalidationAck t datu frame s
  | .dropGrantRequest t src seq group page => Sys2Proof.Machine.execDropGrantRequest t src seq group page s
  | .kvDrop t src seq page granted => Sys2Proof.Machine.execKvDrop t src seq page granted s
  | .sequencePublication t src ctx seq root modelCtx epoch => Sys2Proof.Machine.execSequencePublication t src ctx seq root modelCtx epoch s
  | .migrateCopyDone t op newHandle => Sys2Proof.Machine.execMigrateCopyDone t op newHandle s
  | .manifestVerified t op m => Sys2Proof.Machine.execManifestVerified t op m s
  | .areaAllocated t op => Sys2Proof.Machine.execAreaAllocated t op s
  | .shardFetched t mc shard data copies => Sys2Proof.Machine.execShardFetched t mc shard data copies s
  | .installDeadline t mc => Sys2Proof.Machine.execInstallDeadline t mc s
  | .prepared t mc src installTag digest coord => Sys2Proof.Machine.execPrepared t mc src installTag digest coord s
  | .no t mc src status => Sys2Proof.Machine.execNo t mc src status s
  | .installCommit t mc src epoch => Sys2Proof.Machine.execInstallCommit t mc src epoch s
  | .committedReply t mc src => Sys2Proof.Machine.execCommittedReply t mc src s
  | .release t mc src => Sys2Proof.Machine.execRelease t mc src s
  | .releaseAck t mc src => Sys2Proof.Machine.execReleaseAck t mc src s
  | .abort t mc src status => Sys2Proof.Machine.execAbort t mc src status s
  | .installQueryTimer t mc => Sys2Proof.Machine.execInstallQueryTimer t mc s
  | .installQuery t mc src => Sys2Proof.Machine.execInstallQuery t mc src s
  | .committedReplyTimeout t mc => Sys2Proof.Machine.execCommittedReplyTimeout t mc s
  | .coordinatorUnreachable t mc anyReleased => Sys2Proof.Machine.execCoordinatorUnreachable t mc anyReleased s
  | .epochDrained t mc epoch src => Sys2Proof.Machine.execEpochDrained t mc epoch src s
  | .epochFree t mc epoch => Sys2Proof.Machine.execEpochFree t mc epoch s
  | .dispatch t r => Sys2Proof.Machine.execDispatch t r s
  | .close t r => Sys2Proof.Machine.execClose t r s
  | .exuReturn t r => Sys2Proof.Machine.execExuReturn t r s
  | .gather t r => Sys2Proof.Machine.execGather t r s
  | .pooled t r => Sys2Proof.Machine.execPooled t r s
  | .gone t r => Sys2Proof.Machine.execGone t r s
  | .update t r => Sys2Proof.Machine.execUpdate t r s
  | .commit t r => Sys2Proof.Machine.execCommit t r s
  | .settle t r => Sys2Proof.Machine.execSettle t r s
  | .done t r => Sys2Proof.Machine.execDone t r s
  | .read t p => Sys2Proof.Machine.execRead t p s
  | .write t p => Sys2Proof.Machine.execWrite t p s
  | .atomic t p => Sys2Proof.Machine.execAtomic t p s
  | .resp t p => Sys2Proof.Machine.execResp t p s
  | .restoringReissue t flow fseq => Sys2Proof.Machine.execRestoringReissue t flow fseq s
  | .remoteResend t flow fseq => Sys2Proof.Machine.execRemoteResend t flow fseq s
  | .remoteTimeout t flow fseq => Sys2Proof.Machine.execRemoteTimeout t flow fseq s
  | .fabricFaultResend t index => Sys2Proof.Machine.execFabricFaultResend t index s
  | .fabricFaultAck t eid index => Sys2Proof.Machine.execFabricFaultAck t eid index s
  | .claim t src mc amount => Sys2Proof.Machine.execClaim t src mc amount s
  | .claimAnswer t src job granted => Sys2Proof.Machine.execClaimAnswer t src job granted s
  | .claimTimeout t job => Sys2Proof.Machine.execClaimTimeout t job s
  | .resetNotice t src => Sys2Proof.Machine.execResetNotice t src s
  | .join t p => Sys2Proof.Machine.execJoin t p s
  | .abandon t groupId src => Sys2Proof.Machine.execAbandon t groupId src s
  | .fault t groupId src => Sys2Proof.Machine.execFault t groupId src s
  | .collectiveChunk t groupId p => Sys2Proof.Machine.execCollectiveChunk t groupId p s
  | .switchStateReport t switch reach => Sys2Proof.Machine.execSwitchStateReport t switch reach s
  | .flit t port f => Sys2Proof.Machine.execFlit t port f s
  | .nak t port ack => Sys2Proof.Machine.execNak t port ack s
  | .tag t port ok => Sys2Proof.Machine.execTag t port ok s
  | .replayRetrain t port => Sys2Proof.Machine.execReplayRetrain t port s
  | .fecLockLoss t port => Sys2Proof.Machine.execFecLockLoss t port s
  | .portTrainingDone t port failed partner partnerPort encOk partnerEnc => Sys2Proof.Machine.execPortTrainingDone t port failed partner partnerPort encOk partnerEnc s
  | .laneRetry t port passed => Sys2Proof.Machine.execLaneRetry t port passed s
  | .linkRekey t port => Sys2Proof.Machine.execLinkRekey t port s
  | .poll t => Sys2Proof.Machine.execPoll t s
  | .summaryReadReturn t link words => Sys2Proof.Machine.execSummaryReadReturn t link words s
  | .fetchaddComplete t link ok => Sys2Proof.Machine.execFetchaddComplete t link ok s
  | .doorbellBlockRead t ctx tails heads => Sys2Proof.Machine.execDoorbellBlockRead t ctx tails heads s
  | .hostReadError t w => Sys2Proof.Machine.execHostReadError t w s
  | .hostWriteError t w => Sys2Proof.Machine.execHostWriteError t w s
  | .coalTimer t ctx ring => Sys2Proof.Machine.execCoalTimer t ctx ring s
  | .ptmDialogue t ok master => Sys2Proof.Machine.execPtmDialogue t ok master s
  | .traceDrop t ctx req => Sys2Proof.Machine.execTraceDrop t ctx req s
  | .watchExpiry t ctx reqId => Sys2Proof.Machine.execWatchExpiry t ctx reqId s
  | .schedulingWindow t => Sys2Proof.Machine.execSchedulingWindow t s
  | .backgroundInterval t activity finished degr charge cycles indicators fwd => Sys2Proof.Machine.execBackgroundInterval t activity finished degr charge cycles indicators fwd s
  | .guardBandLower t field => Sys2Proof.Machine.execGuardBandLower t field s
  | .railReading t readings => Sys2Proof.Machine.execRailReading t readings s
  | .thermalModelUpdate t fits sensors => Sys2Proof.Machine.execThermalModelUpdate t fits sensors s
  | .sensor105 t field => Sys2Proof.Machine.execSensor105 t field s
  | .thermtrip t => Sys2Proof.Machine.execThermtrip t s
  | .thermtripRelease t => Sys2Proof.Machine.execThermtripRelease t s
  | .idleEntry t => Sys2Proof.Machine.execIdleEntry t s
  | .stateEntry t => Sys2Proof.Machine.execStateEntry t s
  | .stateExit t step => Sys2Proof.Machine.execStateExit t step s
  | .exitStepTimeout t step => Sys2Proof.Machine.execExitStepTimeout t step s
  | .pwrwarnNAssert t => Sys2Proof.Machine.execPwrwarnNAssert t s
  | .pwrwarnClear t => Sys2Proof.Machine.execPwrwarnClear t s
  | .leaseExpiry t => Sys2Proof.Machine.execLeaseExpiry t s
  | .coolantStop t => Sys2Proof.Machine.execCoolantStop t s
  | .clockStopTimeout t => Sys2Proof.Machine.execClockStopTimeout t s
  | .completionWriteTimeout t => Sys2Proof.Machine.execCompletionWriteTimeout t s
  | .coolantRestored t => Sys2Proof.Machine.execCoolantRestored t s
  | .beaconLost t => Sys2Proof.Machine.execBeaconLost t s
  | .beaconReturn t => Sys2Proof.Machine.execBeaconReturn t s
  | .wakeN t => Sys2Proof.Machine.execWakeN t s
  | .sidebandAddressMatch t addr setStateRun => Sys2Proof.Machine.execSidebandAddressMatch t addr setStateRun s
  | .pmeTurnOff t => Sys2Proof.Machine.execPmeTurnOff t s
  | .setCap t eid cap flags => Sys2Proof.Machine.execSetCap t eid cap flags s
  | .heartbeat t eid => Sys2Proof.Machine.execHeartbeat t eid s
  | .setState t eid req => Sys2Proof.Machine.execSetState t eid req s
  | .advisoryAck t eid mask => Sys2Proof.Machine.execAdvisoryAck t eid mask s
  | .cofferSnapshot t eid nonce => Sys2Proof.Machine.execCofferSnapshot t eid nonce s
  | .cofferRelease t byMessage eid => Sys2Proof.Machine.execCofferRelease t byMessage eid s
  | .getVersion t => Sys2Proof.Machine.execGetVersion t s
  | .getCapabilities t => Sys2Proof.Machine.execGetCapabilities t s
  | .negotiateAlgorithms t hash asym kem => Sys2Proof.Machine.execNegotiateAlgorithms t hash asym kem s
  | .getDigests t => Sys2Proof.Machine.execGetDigests t s
  | .getCertificate t slot offset length => Sys2Proof.Machine.execGetCertificate t slot offset length s
  | .challenge t slot nonce => Sys2Proof.Machine.execChallenge t slot nonce s
  | .getMeasurements t index => Sys2Proof.Machine.execGetMeasurements t index s
  | .keyExchange t kem session => Sys2Proof.Machine.execKeyExchange t kem session s
  | .finish t session ok => Sys2Proof.Machine.execFinish t session ok s
  | .endSession t session => Sys2Proof.Machine.execEndSession t session s
  | .ideKm t session stream key => Sys2Proof.Machine.execIdeKm t session stream key s
  | .getNonce t => Sys2Proof.Machine.execGetNonce t s
  | .nonceExpiry t => Sys2Proof.Machine.execNonceExpiry t s
  | .unlock t tok => Sys2Proof.Machine.execUnlock t tok s
  | .relock t byMailbox => Sys2Proof.Machine.execRelock t byMailbox s
  | .unlockLifetimeEnd t => Sys2Proof.Machine.execUnlockLifetimeEnd t s
  | .provision t sigOk => Sys2Proof.Machine.execProvision t sigOk s
  | .deploy t keys => Sys2Proof.Machine.execDeploy t keys s
  | .keyAdd t slot key nonce sigOk => Sys2Proof.Machine.execKeyAdd t slot key nonce sigOk s
  | .keyRevoke t slot nonce signer sigOk => Sys2Proof.Machine.execKeyRevoke t slot nonce signer sigOk s
  | .retire t nonce signer sigOk => Sys2Proof.Machine.execRetire t nonce signer sigOk s
  | .logRead t log first => Sys2Proof.Machine.execLogRead t log first s
  | .certWrite t chain => Sys2Proof.Machine.execCertWrite t chain s
  | .pfLevelWrite t v => Sys2Proof.Machine.execPfLevelWrite t v s
  | .setupLock t v => Sys2Proof.Machine.execSetupLock t v s
  | .contextEnable t ctx => Sys2Proof.Machine.execContextEnable t ctx s
  | .contextDisable t ctx => Sys2Proof.Machine.execContextDisable t ctx s
  | .ringSetupWrite t ctx off v => Sys2Proof.Machine.execRingSetupWrite t ctx off v s
  | .contextReset t ctx => Sys2Proof.Machine.execContextReset t ctx s
  | .hiDbCtrlWrite t v => Sys2Proof.Machine.execHiDbCtrlWrite t v s
  | .pairLoWrite t f off v => Sys2Proof.Machine.execPairLoWrite t f off v s
  | .pairHiWrite t f off v => Sys2Proof.Machine.execPairHiWrite t f off v s
  | .pairLoRead t f off => Sys2Proof.Machine.execPairLoRead t f off s
  | .pairHiRead t f off => Sys2Proof.Machine.execPairHiRead t f off s
  | .misalignedAccess t f isWrite off bytes v => Sys2Proof.Machine.execMisalignedAccess t f isWrite off bytes v s
  | .registerWrite t f off bytes v => Sys2Proof.Machine.execRegisterWrite t f off bytes v s
  | .requestRun t => Sys2Proof.Machine.execRequestRun t s
  | .requestSleep t => Sys2Proof.Machine.execRequestSleep t s
  | .requestDeep t => Sys2Proof.Machine.execRequestDeep t s
  | .requestOff t => Sys2Proof.Machine.execRequestOff t s
  | .pwCapWrite t v => Sys2Proof.Machine.execPwCapWrite t v s
  | .pwFloorWrite t v => Sys2Proof.Machine.execPwFloorWrite t v s
  | .pwPhaseWrite t v => Sys2Proof.Machine.execPwPhaseWrite t v s
  | .pwOpWrite t n v => Sys2Proof.Machine.execPwOpWrite t n v s
  | .fbSchedCtrlWrite t v => Sys2Proof.Machine.execFbSchedCtrlWrite t v s
  | .xnVcWeightWrite t v => Sys2Proof.Machine.execXnVcWeightWrite t v s
  | .portDisable t port v => Sys2Proof.Machine.execPortDisable t port v s
  | .mmCabHiRsvWrite t v => Sys2Proof.Machine.execMmCabHiRsvWrite t v s
  | .tdAddrOnlyWrite t n v => Sys2Proof.Machine.execTdAddrOnlyWrite t n v s
  | .advisoryClear t v => Sys2Proof.Machine.execAdvisoryClear t v s
  | .bar2Read t off n => Sys2Proof.Machine.execBar2Read t off n s
  | .bar2Write t off data => Sys2Proof.Machine.execBar2Write t off data s
  | .vfFlr t vf => Sys2Proof.Machine.execVfFlr t vf s
  | .vfEnableClear t link => Sys2Proof.Machine.execVfEnableClear t link s
  | .hotReset t cause => Sys2Proof.Machine.execHotReset t cause s
  | .warmReset t straps => Sys2Proof.Machine.execWarmReset t straps s
  | .coldReset t fromOff straps => Sys2Proof.Machine.execColdReset t fromOff straps s
  | .bootStepTimeout t step => Sys2Proof.Machine.execBootStepTimeout t step s
  | .sequenceFault t rail => Sys2Proof.Machine.execSequenceFault t rail s
  | .aonSupplyRemoved t => Sys2Proof.Machine.execAonSupplyRemoved t s
  | .fatalError t unit hostFailed => Sys2Proof.Machine.execFatalError t unit hostFailed s
  | .quiesceMet t op => Sys2Proof.Machine.execQuiesceMet t op s
  | .vfEnableSet t link num => Sys2Proof.Machine.execVfEnableSet t link num s
  | .secureEraseDone t op => Sys2Proof.Machine.execSecureEraseDone t op s
  | .selfTestDone t op units tested => Sys2Proof.Machine.execSelfTestDone t op units tested s
  | .scrubPassDone t op => Sys2Proof.Machine.execScrubPassDone t op s
  | .fwStageDone t op => Sys2Proof.Machine.execFwStageDone t op s
  | .tapInstruction t op => Sys2Proof.Machine.execTapInstruction t op s
  | .claimRelease t src mc amount => Sys2Proof.Machine.execClaimRelease t src mc amount s
  | .railSetpointReached t field => Sys2Proof.Machine.execRailSetpointReached t field s

end Sys2Proof.Machine
end

