-- ==== Sys2Proof/Machine/Layouts.lean ====
section
/-! DEFINITION. The bytes of what the device writes to host memory and sends to other chips and to management endpoints: each record of
the model laid out as its table of the spec gives it. Multi-byte fields are little-endian and reserved fields are zero (R4, R7). The
step keeps records as fields (log entry 6); these functions say which bytes they are. -/
namespace Sys2Proof.Machine

/-! ## Records in host memory -/

/-- KIND of a completion record (Table 12.9). -/
def kindCode : RecKind → Nat
  | .accept => 0 | .decline => 1 | .final => 2 | .event => 3

/-- A completion record, 32 bytes (R299, Table 12.9). -/
def compBytes (r : CompRec) : List Byte :=
  leBytes r.reqId 8 ++ leBytes (if r.kind = .event then r.code else statusCode r.status) 1 ++ leBytes (r.phase.toNat + 2 * kindCode r.kind) 1
    ++ leBytes r.flags 2 ++ leBytes r.info 4 ++ leBytes r.value 8 ++ leBytes r.time 8

/-- An output token record, 16 bytes (R269, Table 11.5). -/
def tokBytes (r : TokRec) : List Byte :=
  leBytes r.token 4 ++ leBytes r.reqLo 4 ++ leBytes r.index 3 ++ leBytes (r.phase.toNat + 2 * r.last.toNat + 4 * (r.reason % 8)) 1
    ++ leBytes r.score.toNat 4

/-- A status block, 64 bytes (Table 12.4): CONSUMED of rings 0 to 7, EVENT_LOSS, one RING_ERR bit for each ring in the error state. -/
def statusBytes (consumed : List Nat) (eventLoss : Nat) (ringErr : List Nat) (time : Nat) : List Byte :=
  (List.range 8).flatMap (fun r => leBytes (consumed.getD r 0) 4) ++ leBytes eventLoss 2 ++ leBytes 0 2
    ++ leBytes (sumOf (fun r => if ringErr.contains r then 2 ^ r else 0) (List.range 18)) 4 ++ leBytes time 8 ++ leBytes 0 16

/-- A step record, 32 bytes (R79, Table 3.12). -/
def stepBytes (r : StepRec) : List Byte :=
  leBytes r.plate 1 ++ leBytes r.kind 1 ++ leBytes (r.overrun.toNat + 2 * r.aborted.toNat) 2 ++ leBytes r.tgen 4 ++ leBytes r.seq 8
    ++ leBytes r.dispatch 8 ++ leBytes r.boundary 8

/-- Payload of a trace record before its unused bytes (Table 18.4). -/
def tracePayload : TraceKind → List Byte
  | .accept id op d st dl => leBytes id 8 ++ leBytes op 1 ++ leBytes d.toNat 1 ++ leBytes (statusCode st) 1 ++ leBytes 0 5 ++ leBytes dl 8
  | .final id st fl n => leBytes id 8 ++ leBytes (statusCode st) 1 ++ leBytes 0 1 ++ leBytes fl 2 ++ leBytes n 4
  | .step r => stepBytes r
  | .swap tb g p tg => leBytes tb 4 ++ leBytes g 4 ++ leBytes p 1 ++ leBytes 0 3 ++ leBytes tg 4
  | .widen p rung l rt ct n x => leBytes p 1 ++ leBytes rung 1 ++ leBytes l 2 ++ leBytes rt 4 ++ leBytes ct 4 ++ leBytes n 2 ++ leBytes x 2
  | .overflow l x c so => leBytes l 2 ++ leBytes 0 2 ++ leBytes x 4 ++ leBytes c 4 ++ leBytes so 4
  | .kvDrop q g p n => leBytes q 4 ++ leBytes g 1 ++ leBytes 0 3 ++ leBytes p 4 ++ leBytes n 4
  | .evict c n a => leBytes c 1 ++ leBytes 0 3 ++ leBytes n 4 ++ leBytes a 8
  | .watch id y n q => leBytes id 8 ++ leBytes y 4 ++ leBytes n 4 ++ leBytes q 8
  | .loss d a b => leBytes (min d 0xFFFFFFFF) 4 ++ leBytes 0 4 ++ leBytes a 8 ++ leBytes b 8

/-- A trace record, 64 bytes (R427). -/
def traceBytes (phase : Bool) (layerTag opTag job time : Nat) (k : TraceKind) : List Byte :=
  leBytes (traceNo k) 1 ++ leBytes phase.toNat 1 ++ leBytes layerTag 2 ++ leBytes opTag 2 ++ leBytes job 2 ++ leBytes time 8
    ++ tracePayload k ++ List.replicate (48 - (tracePayload k).length) 0

/-- A layer report record, 64 bytes, of its fields in the order of Table 18.3. -/
def layerBytes (fields : List Nat) : List Byte :=
  let w := fun i n => leBytes (fields.getD i 0) n
  w 0 1 ++ w 1 1 ++ w 2 2 ++ [3, 4, 5, 6, 7, 8, 9, 10, 11, 12].flatMap (fun i => w i 4) ++ w 13 2 ++ leBytes 0 2 ++ w 14 4 ++ w 15 4
    ++ leBytes 0 8

/-! ## Packets (Tables 7.4 and 14.5) -/

/-- TYPE of an EXU record (Table 7.4). -/
def exuCode : ExuType → Nat
  | .dispatch => 0 | .ret => 1 | .close => 2 | .gather => 3 | .pooled => 4 | .gone => 5 | .update => 6 | .commit => 7 | .settle => 8
  | .done => 9

/-- The header of an EXU record, 32 bytes (Table 7.4). -/
def exuHead (ty : ExuType) (r : ExuRec) : List Byte :=
  leBytes (exuCode ty) 1 ++ leBytes (r.choice % 8 + 8 * (r.round % 4) + 32 * r.toHome.toNat) 1
    ++ leBytes (r.lc.toNat + 2 * r.widened.toNat + 4 * r.exhausted.toNat + 8 * r.overflowed.toNat + 16 * r.mean.toNat) 2
    ++ leBytes r.layer 2 ++ leBytes r.expert 2 ++ leBytes r.home 2 ++ leBytes r.count 2 ++ leBytes r.exchange 4 ++ leBytes r.slot 4
    ++ leBytes r.gen 4 ++ leBytes r.modelCtx 2 ++ leBytes 0 6

/-- Payload of an EXU record (R156): RETURN and POOLED an FP32 row, GATHER the row IDs, UPDATE the row ID and the row, DONE a status. -/
def exuPayload (ty : ExuType) (r : ExuRec) : List Byte :=
  match ty with
  | .done => leBytes (statusCode r.status) 1
  | _ => r.row.flatMap (fun w => leBytes w.toNat 4) ++ r.ids.flatMap (fun x => leBytes x 8) ++ r.bytes

/-- STATUS of a response (Table 14.9). -/
def respCode : RespStatus → Nat
  | .ok => 0 | .denied => 1 | .poison => 2 | .restoring => 3 | .malformed => 4 | .gone => 5

/-- The header of a READ, WRITE or ATOMIC packet, 32 bytes (R339, Table 14.5). -/
def pktHead (ty : Nat) (p : Pkt) : List Byte :=
  leBytes ty 1 ++ leBytes (p.vc % 8 + 8 * p.lc.toNat + 32 * p.resend.toNat) 1 ++ leBytes p.src 1 ++ leBytes p.dst 1 ++ leBytes p.flow 2
    ++ leBytes p.fseq 2 ++ leBytes p.payload.length 2 ++ leBytes p.tag 2 ++ leBytes p.modelCtx 2 ++ leBytes p.epoch 2
    ++ leBytes (p.addr % 2 ^ 48) 8 ++ leBytes (if ty = 2 then p.op else 0) 1 ++ leBytes (if ty = 1 then 0 else p.size) 1 ++ leBytes 0 6

/-- The header of a RESP packet (Table 14.5); dst is the issuer answered, vc the request's. -/
def respHead (dst vc : Nat) (p : RespPkt) : List Byte :=
  leBytes 6 1 ++ leBytes (vc % 8) 1 ++ leBytes p.src 1 ++ leBytes dst 1 ++ leBytes p.flow 2 ++ leBytes p.fseq 2
    ++ leBytes p.payload.length 2 ++ leBytes 0 14 ++ leBytes (respCode p.status) 1 ++ leBytes 0 7

/-! ## Management messages -/

/-- FABRIC_FAULT, 32 bytes (R351, Table 14.11). -/
def faultBytes (loc : Nat) (f : FabricFault) : List Byte :=
  leBytes 0x21 1 ++ leBytes f.cause 1 ++ leBytes loc 1 ++ leBytes f.lost 1 ++ leBytes f.job 2 ++ leBytes f.mc 2 ++ leBytes f.time 8
    ++ leBytes f.completed 4 ++ leBytes 0 12

/-- The 64-byte header of COFFER_SIGNATURE (R440). -/
def snapshotHead (firstSeq count cause : Nat) (signed : Bool) (drops freezeTime time : Nat) : List Byte :=
  leBytes firstSeq 4 ++ leBytes count 4 ++ leBytes cause 1 ++ leBytes signed.toNat 1 ++ leBytes 0 2 ++ leBytes drops 4 ++ leBytes 0 4
    ++ leBytes freezeTime 8 ++ leBytes time 8 ++ leBytes 0 28

/-- A vendor-defined message with its MSG byte (Tables 14.11, 16.9, 18.10), a signature's own bytes apart; SPDM messages have no bytes
here. -/
def mgmtBytes (loc : Nat) : Mgmt → List Byte
  | .fabricFault _ f => faultBytes loc f
  | .capLag e cap t => leBytes 0x33 1 ++ leBytes e 4 ++ leBytes cap 2 ++ leBytes t 8
  | .powerEvent c t => leBytes 0x34 1 ++ leBytes c 1 ++ leBytes t 8
  | .advisory c i t => leBytes 0x40 1 ++ leBytes c 1 ++ leBytes i 2 ++ leBytes t 8
  | .cofferData q l => leBytes 0x51 1 ++ leBytes q 4 ++ l.flatten
  | .cofferSignature q n c sg d f t _ => leBytes 0x52 1 ++ snapshotHead q n c sg d f t
  | .spdm .. => []
  | .spdmError => []

/-- The bytes that an output puts into host memory or into a management message; loc is this chip's LOCATION. -/
def outputBytes (loc : Nat) : Output → List Byte
  | .record r => compBytes r
  | .token r => tokBytes r
  | .statusBlock _ c e r t => statusBytes c e r t
  | .hostWrite _ _ d => d
  | .trace _ _ ph lt ot j t k => traceBytes ph lt ot j t k
  | .layerRecord _ _ f => layerBytes f
  | .mgmt m => mgmtBytes loc m
  | _ => []

end Sys2Proof.Machine
end

