-- ==== Sys2Proof/Safety.lean ====
section
/-! DEFINITION. What counts as a safe state, and the vocabulary of the statements: what a command leaves
unchanged, when a descriptor's command begins, and what it is to complete. -/
namespace Sys2Proof.Machine

/-! ## Memory -/

/-- Device memory, island memory and the mailbox buffer stand in their one canonical form. -/
def State.memOk (s : State) : Bool := Memory.wf s.mem.dram && Memory.wf s.fab.scratch && Memory.wf s.sec.mboxBuf

/-! ## Frames -/

/-- The parts of the state: one for each field of State, and six parts of such parts that most commands leave alone
even where they change something else of the same field. -/
inductive Piece where
  | pending | time | id | hi | ctxs | mem | fab | srv | ops | mdl | exu | coll | xn | pw | sec | td | cof | draws | out
  /-- the bytes of device memory, a part of mem -/
  | dram
  /-- the bytes of island memory, a part of fab -/
  | scratch
  /-- the setup lock, a part of hi -/
  | lock
  /-- the lifecycle state, a part of sec -/
  | life
  /-- the mailbox buffer, a part of sec -/
  | mbox
  /-- the power state, a part of pw -/
  | pst
  deriving DecidableEq, Repr

/-- Two states agree in one part. -/
def agree (s u : State) : Piece → Prop
  | .pending => u.pending = s.pending
  | .time => u.time = s.time
  | .id => u.id = s.id
  | .hi => u.hi = s.hi
  | .ctxs => u.ctxs = s.ctxs
  | .mem => u.mem = s.mem
  | .fab => u.fab = s.fab
  | .srv => u.srv = s.srv
  | .ops => u.ops = s.ops
  | .mdl => u.mdl = s.mdl
  | .exu => u.exu = s.exu
  | .coll => u.coll = s.coll
  | .xn => u.xn = s.xn
  | .pw => u.pw = s.pw
  | .sec => u.sec = s.sec
  | .td => u.td = s.td
  | .cof => u.cof = s.cof
  | .draws => u.draws = s.draws
  | .out => u.out = s.out
  | .dram => u.mem.dram = s.mem.dram
  | .scratch => u.fab.scratch = s.fab.scratch
  | .lock => u.hi.lock = s.hi.lock
  | .life => u.sec.life = s.sec.life
  | .mbox => u.sec.mboxBuf = s.sec.mboxBuf
  | .pst => u.pw.st = s.pw.st

/-- u comes from s by changes in the parts of l alone. -/
def changesOnly (l : List Piece) (s u : State) : Prop := ∀ p, p ∉ l → agree s u p

/-- The command answers a next state whatever the state, and what it changes lies in the parts of l. -/
def Touches (c : Instr) (l : List Piece) : Prop := ∀ s, ∃ u, exec c s = .next u ∧ changesOnly l s u

/-! ## Completion -/

/-- The command or event c answers a next state of which P holds. -/
def Answers (c : Instr) (s : State) (P : State → Prop) : Prop := ∃ u, exec c s = .next u ∧ P u

/-- Descriptor h has been fetched (R284, R292) and s1 is the state in which its command begins: of the room of two
records that the fetch reserved, that of one is given back. -/
def Begins (t : Nat) (h : Hdr) (s s1 : State) : Prop :=
  ∃ s0, fetched t h s = some s0 ∧ s1 = releaseRoom h.ctx (compRing h.ring) 1 s0

/-- Descriptor h has been fetched, and its command keeps the room of both records, ACCEPT and FINAL. -/
def BeginsTwo (t : Nat) (h : Hdr) (s s1 : State) : Prop := fetched t h s = some s1

/-- A command completes: its effect is what P says, then its FINAL record says COMPLETE with the information and value
given (R299), and the poll that fetched it ends if it waits for nothing more (R287). -/
def CompletesWith (c : Instr) (h : Hdr) (s : State) (info value : Nat) (P : State → Prop) : Prop :=
  ∃ v, exec c s = .next (endPoll (final (cmdOf h) .complete info value v)) ∧ P v

/-- A command completes with no information to give. -/
def Completes (c : Instr) (h : Hdr) (s : State) (P : State → Prop) : Prop := CompletesWith c h s 0 0 P

/-- A command takes effect and owes its FINAL record still: a long operation, or one that waits for other chips. -/
def Starts (c : Instr) (s : State) (P : State → Prop) : Prop := ∃ v, exec c s = .next (endPoll v) ∧ P v

/-- The Sirdoyx mailbox takes command n: Sirdoyx runs, no other command is in progress, and the length is in range (R418). -/
def MailboxTakes (n : Nat) (s : State) : Prop :=
  sirdoyxRuns s = true ∧ (s.sec.mboxBusy = true → s.sec.mboxCmd = n) ∧ s.sec.mboxLen ≤ 32768

/-- A piece of tile j on channel ch can be moved: it is the channel's tile, its reads of other chips have been answered, and a
host source has given all the piece's bytes (R189). -/
def PieceReady (ch : Nat) (j : TileJob) (data : List Byte) (s : State) : Prop :=
  headTile s ch = some j ∧ j.begun = true ∧ j.sent = false ∧ chanRemotes s ch = [] ∧
  (((srcPlaces s j).any (fun p => match p with | .host _ => true | _ => false)) = true → data.length = pieceBytes j.d j.doneBytes)

/-- Every place of tile j's piece may be reached, none awaits recompute, and none is a part of a poisoned line (R99, R100). -/
def mayLand (j : TileJob) (s : State) : Bool :=
  !(srcPlaces s j ++ dstPlaces s j).contains .none && !(srcPlaces s j ++ dstPlaces s j).contains .recompute
    && !partPoisoned s j.d.format (dstPlaces s j)

/-- The request that carries a record of the expert unit on its leg to this chip (R157, R161). -/
def legPkt (ty : ExuType) (r : ExuRec) : Pkt :=
  { src := r.leg, vc := 2, lc := r.lc, flow := msgFlow (.exu ty r), fseq := r.fseq, resend := r.resend }

/-- Record r has come off its leg: it was formed on this chip, or it is new on its flow and its sender is told OK (R161,
R347). It acts, or travels on, in state s1. -/
def Received (t : Nat) (ty : ExuType) (r : ExuRec) (s s1 : State) : Prop :=
  (r.leg = ownLoc s ∧ s1 = tick t s) ∨
  (r.leg ≠ ownLoc s ∧ mget s.xn.executed (execKey (legPkt ty r) r.fseq) = none ∧
    s1 = answer (legPkt ty r) .ok [] [] (tick t s))

/-- Record r has come off its leg at the chip it is for (R157). -/
def Arrives (t : Nat) (ty : ExuType) (r : ExuRec) (s s1 : State) : Prop := Received t ty r s s1 ∧ r.dst = ownLoc s

/-! ## Runs, and what whole classes of commands may do -/

/-- n steps in a row, up to the first that does not answer a next state. -/
def run : Nat → State → Host.Outcome State Fault Refusal
  | 0, s => .next s
  | n + 1, s =>
    match step s with
    | .next u => run n u
    | o => o

/-- The commands after which LOCK may be clear (R469): the resets, the entry into OFF, which loses all but what AON keeps, the exit
from DEEP, and what boots the device anew. -/
def clearsLock : Instr → Bool
  | .hotReset .. | .warmReset .. | .coldReset .. | .stateEntry .. | .stateExit .. | .wakeN .. | .thermtripRelease .. | .aonSupplyRemoved .. => true
  | .registerWrite _ f off _ _ | .pairLoWrite _ f off _ | .pairHiWrite _ f off _ | .misalignedAccess _ f _ off _ _ =>
    f == .pf && off == 0x10030
  | _ => false

/-- The commands by which the host writes a register. -/
def hostWrites : Instr → Bool
  | .registerWrite .. | .pairLoWrite .. | .pairHiWrite .. | .misalignedAccess .. | .ringSetupWrite .. | .hiDbCtrlWrite ..
  | .xnVcWeightWrite .. | .mmCabHiRsvWrite .. | .tdAddrOnlyWrite .. | .advisoryClear .. | .portDisable .. | .pwFloorWrite ..
  | .setupLock .. | .pwCapWrite .. | .pwPhaseWrite .. | .pwOpWrite .. | .fbSchedCtrlWrite .. | .pfLevelWrite .. => true
  | _ => false

/-- The fields that the setup lock freezes are the same (Table 20.9). -/
def frozenSame (s u : State) : Prop :=
  u.hi.fullScan = s.hi.fullScan ∧ u.hi.period = s.hi.period ∧ u.hi.summary = s.hi.summary ∧ u.hi.adminDb = s.hi.adminDb ∧
  u.mem.hiRsv = s.mem.hiRsv ∧ u.mem.agePeriod = s.mem.agePeriod ∧ (∀ n, (portOf u n).encReq = (portOf s n).encReq) ∧
  u.xn.w1 = s.xn.w1 ∧ u.xn.w2 = s.xn.w2 ∧ u.xn.w3 = s.xn.w3 ∧ u.xn.w4 = s.xn.w4 ∧ u.xn.w5 = s.xn.w5 ∧
  u.xn.sidebandFault = s.xn.sidebandFault ∧ u.pw.anyMatch = s.pw.anyMatch ∧ u.pw.floor = s.pw.floor ∧ u.pw.ramp = s.pw.ramp ∧
  u.sec.fmEid = s.sec.fmEid ∧ u.sec.rmEid = s.sec.rmEid

/-- The commands after which device time may be earlier: those that boot the device anew (R304, R449). -/
def restartsTime : Instr → Bool
  | .coldReset .. | .stateEntry .. | .wakeN .. | .thermtripRelease .. | .aonSupplyRemoved .. => true
  | _ => false

/-- A change of the lifecycle state that Table 17.6 gives to command c (R411). -/
def lifeChange (c : Instr) : Life → Life → Prop
  | .blank, .provisioned => ∃ t, c = .provision t true
  | .provisioned, .deployed => ∃ t keys, c = .deploy t keys
  | .deployed, .unlocked => ∃ t tok, c = .unlock t tok
  | .unlocked, .deployed => True
  | .provisioned, .retired | .deployed, .retired | .unlocked, .retired => ∃ t nonce signer, c = .retire t nonce signer true
  | _, _ => False

end Sys2Proof.Machine
end

