-- ==== Sys2Proof/Certificates/Slice0/Obligations.lean ====
section
/-! DEFINITION. The statements for the provers, each a proposition about the block. -/

open Sys2Proof Sys2Proof.Machine

/-- R279, R280, R443: what the commands and registers of the context table do, and that no other context is disturbed. -/
def Obligations.ContextCommandsComplete : Prop :=
  (∀ t h vf part s s1, Begins t h s s1 → shapeCheck s1 h infoAdmin false = none → vf ≤ 511 → part ≤ 63 → invasive s1 = false →
    erasing s1 part = false → ctxCount s1 < 512 → ctxHere s1 vf = false → vfEnabled s1 vf = true → (partOf s1 part).present = true →
    Completes (.ctxCreate t h vf part) h s (fun v => ctxHere v vf = true ∧ ctxPart v vf = part ∧ (ctxOf v vf).enable = false ∧
      (∀ c, c ≠ vf → ctxOf v c = ctxOf s1 c) ∧ v.mem.parts = mmod s1.mem.parts part (fun p => { p with holdsData := true }))) ∧
  (∀ t h vf s s1, Begins t h s s1 → shapeCheck s1 h infoAdmin false = none → vf ≤ 511 → ctxHere s1 vf = true → ctxBusy s1 vf = false →
    Completes (.ctxDestroy t h vf) h s (fun v =>
      v.ctxs = (if setupOnly (ctxOf s1 vf) = {} then mdel s1.ctxs vf else mset s1.ctxs vf (setupOnly (ctxOf s1 vf))) ∧
      (∀ l, l ∈ v.mem.leaves → l.ctx ≠ vf))) ∧
  (∀ t c s, (ctxOf s c).enable = false → enableOk c (ctxOf s c) = true → (ctxOf s c).late = [] →
    Answers (.contextEnable t c) s (fun u => (ctxOf u c).enable = true ∧ (ctxOf u c).cfgErr = (ctxOf s c).cfgErr ∧
      (∀ d, d ≠ c → ctxOf u d = ctxOf s d) ∧ u.time = max s.time t)) ∧
  (∀ t c s, (ctxOf s c).enable = false → enableOk c (ctxOf s c) = false → c ≤ 511 ∨ c = adminCtx →
    Answers (.contextEnable t c) s (fun u => (ctxOf u c).enable = false ∧ (ctxOf u c).cfgErr = true)) ∧
  (∀ t c s, ctxHere s c = true → Answers (.contextDisable t c) s (fun u =>
    ctxOf u c = { ctxOf s c with enable := false } ∧ (∀ d, d ≠ c → ctxOf u d = ctxOf s d))) ∧
  (∀ t c s, ctxHere s c = true → (ctxOf s c).resetBusy = false →
    reqKeys s (fun r => r.st != .detected && r.h.ctx == c) = [] → (∀ e ∈ s.ops.live, e.2.cmd.ctx ≠ c) →
    Answers (.contextReset t c) s (fun u =>
      ctxOf u c = (if quiesced (ctxOf s c) then { clearRings (ctxOf s c) with enable := false }
        else { ctxOf s c with enable := false, resetBusy := true }) ∧
      (∀ d, d ≠ c → ctxOf u d = ctxOf s d))) ∧
  (∀ t c s, ctxHere s c = true → (ctxOf s c).resetBusy = false → exec (.contextReset t c) s = .next (settleReset c (lateOps c (abortReqs c
    (dropHeld c (modCtx c (fun x => { x with enable := false, resetBusy := true }) (tick t s)))))))

/-- R287 and R473: the device's steps 4 to 8 of the doorbell protocol, and its fall back to FULL_SCAN where a summary read or a FetchAdd fails. -/
def Obligations.PollStepsComplete : Prop :=
  (∀ t s, s.hi.dbEnable = true → hostRuns s = true → s.hi.polling = false →
    Answers (.poll t) s (fun u => u = startPoll (tick t s))) ∧
  (∀ t s, s.hi.dbEnable = true → hostRuns s = true → s.hi.polling = true →
    Answers (.poll t) s (fun u => u = { tick t s with hi := { s.hi with pollLate := true } })) ∧
  (∀ t l ws s, s.hi.pollLinks = [l] → s.hi.pollWords = [] → (∀ w ∈ ws.take 8, w ≠ 0) → ws ≠ [] →
    Answers (.summaryReadReturn t l (some ws)) s (fun u => u.hi.pollLinks = [] ∧
      u.hi.pollWords = ((List.range 8).zip ws).map (fun e => (l * 8 + e.1, e.2)) ∧
      u.out = (((List.range 8).zip ws).map (fun e => Output.fetchAdd l e.1 (0 - e.2))).reverse ++ s.out)) ∧
  (∀ t l s, l ∈ s.hi.pollLinks → s.hi.pollWords ≠ [] →
    Answers (.summaryReadReturn t l none) s (fun u => u.hi.summaryErr = true ∧ u.hi.fullScan = true ∧ u.hi.period = max 16 s.hi.period ∧
      l ∉ u.hi.pollLinks)) ∧
  (∀ t l e ws s, s.hi.pollWords = e :: ws → e.1 / 8 = l → ws ≠ [] →
    Answers (.fetchaddComplete t l true) s (fun u => u.hi.pollWords = ws ∧ u.hi.pollFound = s.hi.pollFound ++ wordVfs e.1 e.2 ∧
      u.hi.fullScan = s.hi.fullScan)) ∧
  (∀ t l e ws s, s.hi.pollWords = e :: ws → e.1 / 8 = l → ws ≠ [] →
    Answers (.fetchaddComplete t l false) s (fun u => u.hi.pollWords = ws ∧ u.hi.pollFound = s.hi.pollFound ++ wordVfs e.1 e.2 ∧
      u.hi.atomicErr = true ∧ u.hi.fullScan = true ∧ u.hi.period = max 16 s.hi.period)) ∧
  (∀ t c r n s, ctxHere s c = true → (ctxOf s c).enable = true → ringThere (ctxOf s c) 0 = true → r = 0 →
    0 ∉ (ctxOf s c).ringErr → waitingDescs { ctxOf s c with tail := mset (ctxOf s c).tail 0 (n % 2 ^ 32) } 0 ≤ ringSize (ctxOf s c) 0 →
    drainCtx c (takeTail c 0 n (tick t s)) = takeTail c 0 n (tick t s) → s.hi.pollCtxs.filter (· != c) ≠ [] →
    Answers (.doorbellBlockRead t c [n] []) s (fun u => mgetD (ctxOf u c).tail r 0 = n % 2 ^ 32 ∧ u.hi.pollCtxs = s.hi.pollCtxs.filter (· != c)))

/-- R491 with R296, R297, R171 and R264: admission of a request, and the read of a stop block before it. -/
def Obligations.RequestsAreAccepted : Prop :=
  (∀ t h b s s1 r, BeginsTwo t h s s1 → shapeCheck s1 h (infoReq 7) (genBad s1 h b) = none → requestNames s1 h = none →
    bit h.flags 2 = false → seqCheck s1 h (askGen s1 b) b.seq = none → epochCheck s1 h = none → gateCheck s1 h .generate = none →
    r = ({ op := .generate, st := .detected, h := h, detect := s1.time, gen := b } : Request) → roomCheck s1 h (askGen s1 b) r = none →
    exec (.generate t h b) s = .next (endPoll (readPrompt h b (takeReqState s1.srv.nextReq (acceptReq h (askGen s1 b) r s1))))) ∧
  (∀ t h b s s1 s2, BeginsTwo t h s s1 → shapeCheck s1 h (infoReq 7) (genBad s1 h b) = none → requestNames s1 h = none →
    bit h.flags 2 = true → s2 = readHost h.ctx b.stopAddr 576 h.job h.layerTag h.opTag s1 →
    seqCheck s2 h (askGen s2 b) b.seq = none → epochCheck s2 h = none →
    Starts (.generate t h b) s (fun v => v.srv.nextReq = s1.srv.nextReq + 1 ∧
      mget v.srv.reqs s1.srv.nextReq = some { op := .generate, st := .detected, h := h, detect := s1.time, gen := b } ∧
      v.out = .hostRead h.ctx b.stopAddr 576 :: s1.out)) ∧
  (∀ t k r b s s1 q, mget s.srv.reqs k = some r → r.st = .detected →
    s1 = { tick t s with srv := { s.srv with reqs := mdel s.srv.reqs k } } →
    q = ({ op := .generate, st := .detected, h := r.h, detect := r.detect, gen := r.gen, stops := b.tokens, strings := b.strings, detok := if b.strings.isEmpty then none else (newestDetok s1 r.h.modelCtx).map (·.gen) } : Request) →
    seqCheck s1 r.h (askGen s1 r.gen) r.gen.seq = none → epochCheck s1 r.h = none → stopBad b = false →
    (b.strings = [] ∨ (newestDetok s1 r.h.modelCtx).isSome = true) → gateCheck s1 r.h .generate = none →
    roomCheck s1 r.h (askGen s1 r.gen) q = none →
    exec (.stopBlockReturn t k (some b)) s =
      .next (readPrompt r.h r.gen (takeReqState s1.srv.nextReq (acceptReq r.h (askGen s1 r.gen) q s1)))) ∧
  (∀ t h b s s1 a g r, BeginsTwo t h s s1 → a = ({ op := .score, prompt := b.promptLen, maxOut := 0, window := 0, seq := none } : Ask) →
    g = ({ promptLen := b.promptLen, promptAddr := b.promptAddr, auxAddr := b.auxAddr, auxBytes := b.auxBytes, maxOutput := 0 } : GenBody) →
    r = ({ op := .score, st := .detected, h := h, detect := s1.time, gen := g, resultAddr := b.resultAddr, resultBytes := b.resultBytes } : Request) →
    shapeCheck s1 h (infoReq 0) (scoreBad b) = none → requestNames s1 h = none → seqCheck s1 h a 0 = none → epochCheck s1 h = none →
    gateCheck s1 h .score = none → roomCheck s1 h a r = none →
    exec (.score t h b) s = .next (endPoll (readPrompt h g (takeReqState s1.srv.nextReq (acceptReq h a r s1))))) ∧
  (∀ t h b bags s s1 a r idx e, BeginsTwo t h s s1 → a = ({ op := .embed, prompt := 0, maxOut := 0, window := 0, seq := none } : Ask) →
    r = ({ op := .embed, st := .detected, h := h, detect := s1.time, emb := b, resultAddr := b.resultAddr, resultBytes := b.resultBytes, bagsLeft := b.bagCount } : Request) →
    shapeCheck s1 h (infoReq 0) (embedBad b) = none → requestNames s1 h = none → epochCheck s1 h = none →
    tableIdx s1 h.modelCtx b.tableId = some (idx, e) → gateCheck s1 h .embed = none → roomCheck s1 h a r = none →
    tableIdx (takeReqState s1.srv.nextReq (acceptReq h a r s1)) h.modelCtx b.tableId = some (idx, e) →
    exec (.embedGather t h b bags) s =
      .next (endPoll (startGather s1.srv.nextReq h b idx e bags (takeReqState s1.srv.nextReq (acceptReq h a r s1)))))

/-- R297 (REQ_CANCEL), R264, R319 (the margin of a deadline), R253 (SEQ_END): how a request or a sequence ends. -/
def Obligations.RequestsEnd : Prop :=
  (∀ t h k s s1, Begins t h s s1 → shapeCheck s1 h { rings := [0, 2] } false (cancel := true) = none → cancelTarget s1 h.ctx k = none →
    CompletesWith (.reqCancel t h k) h s 0 0 (fun v => v = s1)) ∧
  (∀ t h k s s1 n r, Begins t h s s1 → shapeCheck s1 h { rings := [0, 2] } false (cancel := true) = none →
    cancelTarget s1 h.ctx k = some (n, r) →
    CompletesWith (.reqCancel t h k) h s 1 0 (fun v => v = if r.st = .detected then declineWaiting n .cancelled s1
      else if stepServes s1 n then modReq n (fun r => { r with cancelled := true }) s1 else endReq false n .cancelled s1)) ∧
  (∀ t k r s, mget s.srv.reqs k = some r → r.st = .detected → r.h.cls = 0 → r.detect + 8000 ≤ max s.time t →
    exec (.stopBlockTimeout t k) s = .next (declineWaiting k .declined (tick t s))) ∧
  (∀ t k r s, mget s.srv.reqs k = some r → r.h.cls = 0 → r.h.deadline ≤ max s.time t + 20000 → r.st = .running → r.recorded = none →
    r.op = .generate →
    exec (.deadlineMarginTimer t k) s = .next (endReq false k .complete (modReq k (setFlag 6) (tick t s)))) ∧
  (∀ t h i g s s1, Begins t h s s1 → shapeCheck s1 h infoCmd false = none → i < 65536 → (seqOf s1 i).st = 2 → (seqOf s1 i).gen = g →
    (seqOf s1 i).ctx = h.ctx → (seqOf s1 i).migrating = false →
    Completes (.seqEnd t h (g * 65536 + i)) h s (fun v => v = endSeq i s1)) ∧
  (∀ t k r toks plan s s1, mget s.srv.reqs k = some r → r.st = .accepted → r.hasSeq = true → toks.length = r.gen.promptLen →
    s1 = modReq k (fun r => { r with st := if r.op = .score then .running else .prefill }) (takePrompt k r toks (tick t s)) →
    exec (.prefixLookupDone t k (some toks) plan) s = .next (queuePlan plan (ensureOrWait k (seqOf s1 r.seq).tokens.length s1))) ∧
  (∀ t p k n r l s s1, (partOf s p).waiting = (k, n) :: l → mget s.srv.reqs k = some r → ensurePositions k (nextPositions s r) (tick t s) = some s1 →
    exec (.beAllocationResume t p) s = .next (resumeWaiting p l.length (modPart p (fun p => { p with waiting := p.waiting.drop 1 })
      (modReq k (fun r => { r with waitingBe := false }) s1))))

/-- R157 to R166 and R171: where a record of the expert unit acts, what an expert accepts, and what a returned row or a pooled partial adds to. -/
def Obligations.ExpertRecordsTakeEffect : Prop :=
  (∀ t r s s1, Arrives t .dispatch r s s1 → exec (.dispatch t r) s = .next (retryWaiting (expertRec (false, r) s1))) ∧
  (∀ t r s s1 p l j x, Arrives t .dispatch r s s1 → layerOf s1 r.modelCtx r.layer = some (p, l, j) → s1.exu.expert = [x] → sameEx x r = true →
    x.closed = true → s1.exu.waiting = [] → mgetD x.accepted r.expert 0 < l.capacity →
    Answers (.dispatch t r) s (fun u => ∃ y, u.exu.expert = [y] ∧ y.acceptedRecs = x.acceptedRecs ++ [r] ∧ y.rejects = x.rejects ∧
      mgetD y.accepted r.expert 0 = sat 16 (mgetD x.accepted r.expert 0 + 1))) ∧
  (∀ t r s s1 p l j x, Arrives t .dispatch r s s1 → layerOf s1 r.modelCtx r.layer = some (p, l, j) → s1.exu.expert = [x] → sameEx x r = true →
    x.closed = true → s1.exu.waiting = [] → l.capacity ≤ mgetD x.accepted r.expert 0 →
    Answers (.dispatch t r) s (fun u => ∃ y, u.exu.expert = [y] ∧ y.acceptedRecs = x.acceptedRecs ∧ y.rejects = x.rejects ++ [r] ∧
      y.accepted = x.accepted)) ∧
  (∀ t r s s1, Received t .dispatch r s s1 → r.dst ≠ ownLoc s → reachable s1 r.dst = true → exec (.dispatch t r) s = .next (sendLeg 0 0 .dispatch r s1)) ∧
  (∀ t r s s1, Received t .dispatch r s s1 → r.dst ≠ ownLoc s → reachable s1 r.dst = false → exec (.dispatch t r) s = .next (loseExu 0 1 .dispatch r s1)) ∧
  (∀ t r s a, r.leg ≠ ownLoc s → mget s.xn.executed (execKey (legPkt .dispatch r) r.fseq) = some a → r.resend = true →
    exec (.dispatch t r) s = .next (sendXn r.leg 2 r.lc (.resp a) (tick t s))) ∧
  (∀ t r s s1, Arrives t .close r s s1 → r.gather = false → r.toHome = false → exec (.close t r) s = .next (retryWaiting (expertRec (true, r) s1))) ∧
  (∀ t r s s1 x, Arrives t .close r s s1 → r.gather = false → r.toHome = true → s1.exu.home = [x] → sameHome x r = true →
    returnsDone { x with closes := x.closes ++ [(r.src, r.count)] } = false →
    exec (.close t r) s = .next { s1 with exu := { s1.exu with home := [{ x with closes := x.closes ++ [(r.src, r.count)] }] } }) ∧
  (∀ t r s s1 x, Arrives t .close r s s1 → r.gather = false → r.toHome = true → s1.exu.home = [x] → sameHome x r = true →
    returnsDone { x with closes := x.closes ++ [(r.src, r.count)] } = true →
    exec (.close t r) s = .next (combine { x with closes := x.closes ++ [(r.src, r.count)] }
      { s1 with exu := { s1.exu with home := [{ x with closes := x.closes ++ [(r.src, r.count)] }] } })) ∧
  (∀ t r s s1 i, Arrives t .close r s s1 → r.gather = true → r.toHome = false → servingJob s1 r.modelCtx = some i →
    exec (.close t r) s = .next (modGather i r (fun x => { x with close := some r.count }) s1)) ∧
  (∀ t r s s1, Received t .close r s s1 → r.dst ≠ ownLoc s → reachable s1 r.dst = true → exec (.close t r) s = .next (sendLeg 0 0 .close r s1)) ∧
  (∀ t r s s1, Arrives t .ret r s s1 → exec (.exuReturn t r) s = .next (atHome r (addReturn r) s1)) ∧
  (∀ t r s s1 x l v, Arrives t .ret r s s1 → s1.exu.home = [x] → sameHome x r = true → x.slots.any (fun w => w.slot == r.slot) = true →
    readSlot s1 x r.slot = some (l, v) → r.status = .complete → spansPoisoned s1 l = false → returnsDone (noteReturn r false x) = false →
    Answers (.exuReturn t r) s (fun u => u.exu.home = [noteReturn r false x] ∧
      u.mem.dram = (putSlot l x.width { row := List.zipWith fadd v.row r.row, word := markWord r v.word } s1).mem.dram)) ∧
  (∀ t r s s1, Received t .ret r s s1 → r.dst ≠ ownLoc s → reachable s1 r.dst = true → exec (.exuReturn t r) s = .next (sendLeg 0 0 .ret r s1)) ∧
  (∀ t r s s1, Arrives t .gather r s s1 → exec (.gather t r) s = .next (gatherRec r s1)) ∧
  (∀ t r s s1 i e l, Arrives t .gather r s s1 → servingJob s1 r.modelCtx = some i → embTable s1 r.modelCtx r.epoch r.layer = some e →
    l = r.ids.map (fun id => rowAddr e (genSlot e r.gen) id % 2 ^ 41) → l.all (rowReach s1 r.modelCtx e) = true →
    (∀ a ∈ l, (linesOf a e.rowBytes).any (linePoisoned s1) = false) →
    exec (.gather t r) s = .next (modGather i r (fun x => { x with pooled := x.pooled + 1 }) (sendExu i r.home .pooled
      (poolRows (forEach (fun a s => countDram false a e.rowBytes (jobAt s1 i).ctx (jobAt s1 i).id 0xFFFF 0xFFFF s) l s1) e r l)
      (forEach (fun a s => countDram false a e.rowBytes (jobAt s1 i).ctx (jobAt s1 i).id 0xFFFF 0xFFFF s) l s1)))) ∧
  (∀ t r s s1 b l, Arrives t .pooled r s s1 → s1.exu.bags = [b] → sameBag b r = true → b.owners = r.src :: l → l ≠ [] → r.src ∉ l → r.status = .complete →
    Answers (.pooled t r) s (fun u => u.exu.bags = [{ b with row := List.zipWith fadd b.row r.row, owners := l }] ∧ u.out = s1.out)) ∧
  (∀ t r s s1 b k, Arrives t .pooled r s s1 → s1.exu.bags = [b] → sameBag b r = true → b.owners = [r.src] → r.status = .complete → b.req = some k →
    exec (.pooled t r) s = .next (settleAnswers (finishGather k
      { s1 with exu := { s1.exu with bags := [{ b with row := List.zipWith fadd b.row r.row, owners := [] }] } })))

/-- R173 to R177: updates and commits of embedding tables, and R161 for a chip that is gone. -/
def Obligations.EmbeddingUpdatesComplete : Prop :=
  (∀ t h tb row d s s1 idx e, Begins t h s s1 → shapeCheck s1 h { rings := [2], job := true, mc := true } false = none → jobCheck s1 h = none →
    servesCheck s1 h = none → tableIdx s1 h.modelCtx tb = some (idx, e) → row < 2 ^ e.rowBits → (twoSlot e && embBusy s1 h.modelCtx idx) = false →
    Starts (.embRowUpdate t h tb row (some d)) s (fun v => ∃ s2 x c, nextEmbEx h.modelCtx idx (countHostRd h.ctx h.job h.layerTag h.opTag e.rowBytes s1) = (x, s2) ∧
      c = ({ cmd := cmdOf h, job := h.job, mc := h.modelCtx, table := idx, exchange := x, epoch := newestNum s1 h.modelCtx, phase := 0, gen := (embStateAt s1 h.modelCtx (newestNum s1 h.modelCtx) idx).gen, left := [rowOwner e row], layerTag := h.layerTag, opTag := h.opTag } : EmbCmd) ∧
      v = sendExu (jobIdx h.job) (rowOwner e row) .update { embRec s2 c c.gen with ids := [row], bytes := d.take e.rowBytes, count := 1 } (addEmbCmd c s2))) ∧
  (∀ t h tb row d s s1 idx e, Begins t h s s1 → shapeCheck s1 h { rings := [2], job := true, mc := true } false = none → jobCheck s1 h = none →
    servesCheck s1 h = none → tableIdx s1 h.modelCtx tb = some (idx, e) → row < 2 ^ e.rowBits → twoSlot e = true → embBusy s1 h.modelCtx idx = true →
    exec (.embRowUpdate t h tb row d) s = .next (endPoll (final (cmdOf h) .busy 0 0 s1))) ∧
  (∀ t h tb s s1 idx e st, Begins t h s s1 → shapeCheck s1 h { rings := [2], job := true, mc := true } false = none → jobCheck s1 h = none →
    servesCheck s1 h = none → tableIdx s1 h.modelCtx tb = some (idx, e) → embBusy s1 h.modelCtx idx = false →
    st = embStateAt s1 h.modelCtx (newestNum s1 h.modelCtx) idx → twoSlot e = true → (st.issued = true ∨ st.staged ≠ []) →
    (modelChips s1 h.modelCtx).all (reachable s1) = true →
    Starts (.embGenCommit t h tb) s (fun v => ∃ s2 x c, nextEmbEx h.modelCtx idx s1 = (x, s2) ∧
      c = ({ cmd := cmdOf h, job := h.job, mc := h.modelCtx, table := idx, exchange := x, epoch := newestNum s1 h.modelCtx, phase := 1, gen := (st.gen + 1) % 2 ^ 32, left := modelChips s1 h.modelCtx, layerTag := h.layerTag, opTag := h.opTag } : EmbCmd) ∧
      v = forEach (fun d s => sendExu (jobIdx h.job) d .commit (embRec s c c.gen) s) (modelChips s1 h.modelCtx) (addEmbCmd c s2))) ∧
  (∀ t h tb s s1 idx e st, Begins t h s s1 → shapeCheck s1 h { rings := [2], job := true, mc := true } false = none → jobCheck s1 h = none →
    servesCheck s1 h = none → tableIdx s1 h.modelCtx tb = some (idx, e) → embBusy s1 h.modelCtx idx = false →
    st = embStateAt s1 h.modelCtx (newestNum s1 h.modelCtx) idx → (twoSlot e = false ∨ (st.issued = false ∧ st.staged = [])) →
    CompletesWith (.embGenCommit t h tb) h s st.gen 0 (fun v => v = s1)) ∧
  (∀ t r s s1 row l e a i, Arrives t .update r s s1 → servingJob s1 r.modelCtx = some i → r.ids = row :: l →
    embTable s1 r.modelCtx r.epoch r.layer = some e → twoSlot e = false → a = rowAddr e 0 row % 2 ^ 41 → rowReach s1 r.modelCtx e a = true →
    exec (.update t r) s = .next (sendDone r .complete (writeDram a r.bytes s1))) ∧
  (∀ t r s s1 row l e i, Arrives t .update r s s1 → servingJob s1 r.modelCtx = some i → r.ids = row :: l →
    embTable s1 r.modelCtx r.epoch r.layer = some e → twoSlot e = true → (embStateAt s1 r.modelCtx r.epoch r.layer).unsettled = true →
    exec (.update t r) s = .next (sendDone r .busy s1)) ∧
  (∀ t r s s1 tb st, Arrives t .commit r s s1 → embTable s1 r.modelCtx r.epoch r.layer = some tb →
    st = embStateAt s1 r.modelCtx r.epoch r.layer → r.gen < 2 ^ 32 → st.gen < 2 ^ 32 → (st.gen + 1) % 2 ^ 32 = r.gen → st.unsettled = false →
    exec (.commit t r) s = .next (applyGen st.gen ((shardChips tb).contains (ownLoc s1)) (some (r.home, r.exchange)) r s1)) ∧
  (∀ t r s s1 tb, Arrives t .settle r s s1 → embTable s1 r.modelCtx r.epoch r.layer = some tb →
    (embStateAt s1 r.modelCtx r.epoch r.layer).staged = [] →
    exec (.settle t r) s = .next (sendDone r .complete
      (modEmb r.modelCtx r.epoch r.layer (fun x => { x with staged := [], issued := false, unsettled := false }) s1))) ∧
  (∀ t r s s1 tb st q, Arrives t .settle r s s1 → embTable s1 r.modelCtx r.epoch r.layer = some tb →
    st = embStateAt s1 r.modelCtx r.epoch r.layer → st.staged = [q] →
    rowReach s1 r.modelCtx tb (rowAddr tb ((st.gen + 1) % 2) q.1 % 2 ^ 41) = true →
    exec (.settle t r) s = .next (sendDone r .complete (modEmb r.modelCtx r.epoch r.layer
      (fun x => { x with staged := [], issued := false, unsettled := false }) (writeDram (rowAddr tb ((st.gen + 1) % 2) q.1 % 2 ^ 41) q.2 s1)))) ∧
  (∀ t r s s1 c, Arrives t .done r s s1 → embCmdOf s1 r = some c → c.phase = 0 → c.left = [r.src] → r.status = .complete →
    exec (.done t r) s = .next (final c.cmd .complete 0 0
      (dropEmbCmd c (modEmb c.mc c.epoch c.table (fun x => { x with issued := true }) s1)))) ∧
  (∀ t r s s1 c, Arrives t .done r s s1 → embCmdOf s1 r = some c → c.phase = 2 → c.left = [r.src] → r.status = .complete →
    exec (.done t r) s = .next (final c.cmd .complete c.gen 0
      (dropEmbCmd c (modEmb c.mc c.epoch c.table (fun x => { x with issued := false, unsettled := false }) s1)))) ∧
  (∀ t r s s1 c, Arrives t .done r s s1 → embCmdOf s1 r = some c → c.phase = 0 → r.status ≠ .complete →
    exec (.done t r) s = .next (dropEmbCmd c (final c.cmd r.status 0 0 s1))) ∧
  (∀ t r s s1 c, Arrives t .gone r s s1 → s1.exu.home = [] → s1.exu.bags = [] → embCmdOf s1 r = some c → c.phase = 0 →
    exec (.gone t r) s = .next (dropEmbCmd c (final c.cmd .fabricTargetLost 0 0 s1))) ∧
  (∀ t r s s1 x, Arrives t .gone r s s1 → s1.exu.home = [x] → sameHome x r = true →
    exec (.gone t r) s = .next (lostTarget (jobIdx x.job) 2 r.src { s1 with exu := { s1.exu with home := [] } }))

/-- R231, R233, R265, R266, R254, R255: the commands on model contexts and their tables, and a migration's start and switch. -/
def Obligations.ModelContextsChange : Prop :=
  (∀ t h uuid s s1, Begins t h s s1 → shapeCheck s1 h { rings := [2], admin := true, mc := true } false = none → h.modelCtx ≠ 0 →
    modelOf s1 h.modelCtx = none → s1.mdl.ctxs.length < 64 →
    Completes (.modelCreate t h uuid) h s (fun v => modelOf v h.modelCtx = some { uuid := uuid } ∧
      (∀ k, k ≠ h.modelCtx → modelOf v k = modelOf s1 k) ∧ changesOnly [.mdl] s1 v)) ∧
  (∀ t h s s1 m, Begins t h s s1 → shapeCheck s1 h { rings := [2], admin := true, mc := true } false = none →
    modelOf s1 h.modelCtx = some m → modelInUse s1 h.modelCtx = false → m.install.active = false →
    Completes (.modelDestroy t h) h s (fun v => ∃ w, w = dropModelAreas h.modelCtx s1 ∧
      v = { w with mdl := { w.mdl with ctxs := mdel w.mdl.ctxs h.modelCtx } })) ∧
  (∀ t h addr size d s s1 m, Begins t h s s1 → shapeCheck s1 h { rings := [2], admin := true, mc := true } false = none →
    modelOf s1 h.modelCtx = some m → m.detoks.length < 2 → d.magicOk = true → d.format = 1 → d.size = size → size % 256 = 0 → size ≤ 2 ^ 26 →
    slotOk s1 d.signer 3 7 = true → d.digestOk = true → d.sigOk = true → detokOk d = true → d.uuid = m.uuid →
    Completes (.detokLoad t h addr size (some d)) h s (fun v => ∃ w, v = freeDetoks h.modelCtx w ∧
      modelOf w h.modelCtx = some { m with detoks := m.detoks ++ [{ gen := m.nextDetok, image := d }], nextDetok := m.nextDetok + 1 } ∧
      w.sec.tableLog = extendLog [d.digest.toNat, h.modelCtx, m.nextDetok] s1.sec.tableLog)) ∧
  (∀ t h i g target vf ans s s1, BeginsTwo t h s s1 → shapeCheck s1 h { rings := [2], job := true } (decide (127 < target)) = none →
    jobCheck s1 h = none → s1.pw.pending = false → i < 65536 → (seqOf s1 i).st = 2 → (seqOf s1 i).gen = g → (seqOf s1 i).ctx = h.ctx →
    (seqOf s1 i).job = jobIdx h.job → (seqOf s1 i).migrating = false → target ≠ ownLoc s1 → chipServes s1 (seqOf s1 i).mc target = true →
    routed s1 target = true → ans.gone = false → ans.ctxExists = true → ans.tag = (partOf s1 (ctxPart s1 h.ctx)).tag → ans.jobOk = true →
    ans.newestEpoch = (seqOf s1 i).epoch → ans.roomOk = true →
    exec (.kvMigrate t h (g * 65536 + i) target vf ans) s = .next (endPoll (sendXn target 4 false (.migrate (g * 65536 + i))
      (modSeq i (fun q => { q with migrating := true }) (beginOp h (.kvMigrate (jobIdx h.job) i target vf) 0x80 s1))))) ∧
  (∀ t op new s o j i target vf, mget s.ops.live op = some o → o.kind = .kvMigrate j i target vf → o.code = 0x80 → opHeld (tick t s) o = false →
    target / 8 ≠ ownLoc s / 8 →
    exec (.migrateCopyDone t op new) s = .next (endOp op .complete new (endSeq i (modSeq i (fun q => { q with cachePfx := false }) (tick t s)))))

/-- R238 to R242 and Table 10.6: an install at the chip that stages it. -/
def Obligations.InstallsProceedAtAChip : Prop :=
  (∀ t h tg coord ma ms da s s1, BeginsTwo t h s s1 →
    shapeCheck s1 h { rings := [2], admin := true, flags := 3, mc := true } (decide (127 < coord)) false true = none → mcCheck s1 h = none →
    s1.pw.pending = false → (installOf s1 h.modelCtx).active = false →
    Starts (.epochInstall t h tg coord ma ms da) s (fun v => (installOf v h.modelCtx).active = true ∧ (installOf v h.modelCtx).installTag = tg ∧
      (installOf v h.modelCtx).coord = coord ∧ (installOf v h.modelCtx).op = s1.ops.next ∧ (installOf v h.modelCtx).deadline = h.deadline ∧
      (installOf v h.modelCtx).consent = bit h.flags 0 ∧ (installOf v h.modelCtx).keepSource = bit h.flags 1)) ∧
  (∀ t op s o mc, mget s.ops.live op = some o → o.kind = .epochInstall mc → o.code = 0x20 → opHeld (tick t s) o = false → (installOf s mc).op = op →
    (installOf s mc).st = 1 → exec (.manifestVerified t op none) s = .next (voteNo mc .malformed (tick t s))) ∧
  (∀ t op dir s o mc m s1 s2, mget s.ops.live op = some o → o.kind = .epochInstall mc → o.code = 0x20 → opHeld (tick t s) o = false → (installOf s mc).op = op →
    (installOf s mc).st = 1 → m.magicOk = true → m.format = 1 → m.size = (installOf s mc).manifestSize → m.size % 256 = 0 → m.size ≤ 2 ^ 28 →
    slotOk s m.signer 3 7 = true → m.digestOk = true → m.sigOk = true → manifestOk (tick t s) mc m = true → hasChip m (installOf s mc).coord = true →
    hasChip m (ownLoc s) = true → s1 = modInstall mc (fun x => { x with m := some m, dir := dir }) (tick t s) →
    s2 = tally mc (readHost o.cmd.ctx (installOf s mc).dirAddr (8 * m.shards.length) 0 0 0 s1) →
    exec (.manifestVerified t op (some (m, dir))) s = .next (if (installOf s2 mc).active then takeArea mc s2 else s2)) ∧
  (∀ t op s o mc, mget s.ops.live op = some o → o.kind = .epochInstall mc → o.code = 0x21 → opHeld (tick t s) o = false → (installOf s mc).op = op →
    exec (.areaAllocated t op) s = .next (takeArea mc (tick t s))) ∧
  (∀ t mc i d copies s m q s1, staging (tick t s) mc = true → (installOf s mc).m = some m →
    (installOf s mc).shards.find? (fun q => q.idx == i && q.fetching && !q.verified) = some q → shardGood (m.shards.getD i {}) d = true →
    s1 = tryVote mc (writeShard ((installOf s mc).base * 2097152 + (m.shards.getD i {}).offset) (m.shards.getD i {}).lmode d
      (modShard mc i (fun q => { q with verified := true, fetching := false })
        (modInstall mc (fun x => { x with copies := dedup' (x.copies ++ copies) }) (tick t s)))) →
    exec (.shardFetched t mc i (some d) copies) s = .next (if staging s1 mc then startWaiting mc s1 else s1)) ∧
  (∀ t mc i copies s m q s1, staging (tick t s) mc = true → (installOf s mc).m = some m →
    (installOf s mc).shards.find? (fun q => q.idx == i && q.fetching && !q.verified) = some q → q.attempts < 3 →
    s1 = startShard mc i (modShard mc i (fun q => { q with attempts := q.attempts + 1, fetching := false })
      (modInstall mc (fun x => { x with copies := dedup' (x.copies ++ copies) }) (tick t s))) →
    exec (.shardFetched t mc i none copies) s = .next (if staging s1 mc then startWaiting mc s1 else s1)) ∧
  (∀ t mc i copies s m q s1, staging (tick t s) mc = true → (installOf s mc).m = some m →
    (installOf s mc).shards.find? (fun q => q.idx == i && q.fetching && !q.verified) = some q → 3 ≤ q.attempts →
    s1 = voteNo mc .accessDenied (modInstall mc (fun x => { x with copies := dedup' (x.copies ++ copies) }) (tick t s)) →
    exec (.shardFetched t mc i none copies) s = .next (if staging s1 mc then startWaiting mc s1 else s1)) ∧
  (∀ t mc s, (installOf s mc).active = true → (installOf s mc).deadline ≤ max s.time t → coordHere s mc = true → (installOf s mc).st = 1 →
    exec (.installDeadline t mc) s = .next (abortAll mc .epochUnavailable (tick t s))) ∧
  (∀ t mc s, (installOf s mc).active = true → (installOf s mc).deadline ≤ max s.time t → coordHere s mc = false → (installOf s mc).st = 1 →
    exec (.installDeadline t mc) s = .next (voteNo mc .epochUnavailable (tick t s))) ∧
  (∀ t mc src e s, fromCoord s mc src = true → (installOf s mc).st = 2 →
    exec (.installCommit t mc src e) s = .next (sendXn src 0 false (.committed mc) (installPhase mc 0x24
      (modInstall mc (fun x => { x with epoch := e, heard := max s.time t }) (writeInstall mc 3 (tick t s)))))) ∧
  (∀ t mc src s, fromCoord s mc src = true → (installOf s mc).st = 3 →
    exec (.release t mc src) s = .next (releaseInstall mc (sendXn src 0 false (.releaseAck mc) (tick t s)))) ∧
  (∀ t mc src st s, fromCoord s mc src = true → (installOf s mc).st = 1 ∨ (installOf s mc).st = 2 ∨ (installOf s mc).st = 3 →
    exec (.abort t mc src st) s = .next (abortInstall mc st (tick t s)))

/-- R238, R241 to R243, R247, R249 and Tables 10.6 and 10.8: the messages between the chips of an install, and what follows when one stays out. -/
def Obligations.InstallMessagesAreTaken : Prop :=
  (∀ t mc src tg d co s, lateVote (tick t s) mc src (some tg) = false → exec (.prepared t mc src tg d co) s =
    .next (tally mc (modInstall mc (fun x => { x with early := x.early ++ [(src, tg, d, co)] }) (tick t s)))) ∧
  (∀ t mc src st s, lateVote (tick t s) mc src none = false → exec (.no t mc src st) s = .next (tally mc (modInstall mc (fun x => { x with earlyNo := x.earlyNo ++ [(src, st)] }) (tick t s)))) ∧
  (∀ t mc src s, (installOf s mc).active = true → coordHere s mc = true → (installOf s mc).st = 3 → src ∉ (installOf s mc).replies →
    exec (.committedReply t mc src) s = .next (tryRelease mc (modInstall mc (fun x => { x with replies := if x.replies.contains src then x.replies else src :: x.replies }) (tick t s)))) ∧
  (∀ t mc src s m, modelOf s mc = some m → coordHere s mc = true → m.install.st = 4 → src ∉ m.install.acks →
    Answers (.releaseAck t mc src) s (fun u => (installOf u mc).acks = src :: m.install.acks ∧ changesOnly [.time, .mdl] s u)) ∧
  (∀ t mc s, (installOf s mc).active = true → coordHere s mc = false → (installOf s mc).st = 2 ∨ (installOf s mc).st = 3 →
    (installOf s mc).heard + 10000000 ≤ max s.time t →
    exec (.installQueryTimer t mc) s = .next (sendXn (installOf s mc).coord 0 false (.query mc) (tick t s))) ∧
  (∀ t mc src s m, modelOf s mc = some m → coordHere s mc = false →
    exec (.installQuery t mc src) s = .next (sendXn src 0 false (.stateAnswer mc m.install.st) (tick t s))) ∧
  (∀ t mc s, (installOf s mc).active = true → coordHere s mc = true → (installOf s mc).st = 3 → (installOf s mc).committedAt + 100000000 ≤ max s.time t →
    exec (.committedReplyTimeout t mc) s = .next (abortAll mc .resetAborted (tick t s))) ∧
  (∀ t mc s v, (installOf s mc).active = true → coordHere s mc = false → routed (tick t s) (installOf s mc).coord = false → (installOf s mc).st = 3 →
    v = releaseInstall mc (tick t s) → (∀ e ∈ (modelOf v mc).elim [] (·.epochs), e.reported = none) →
    exec (.coordinatorUnreachable t mc true) s = .next v) ∧
  (∀ t mc s v, (installOf s mc).active = true → coordHere s mc = false → (installOf s mc).heard + 5000000000 ≤ max s.time t →
    v = abortInstall mc .resetAborted (tick t s) → (∀ e ∈ (modelOf v mc).elim [] (·.epochs), e.reported = none) →
    exec (.coordinatorUnreachable t mc false) s = .next v) ∧
  (∀ t mc n src s e, epochOf s mc n = some e → src ≠ ownLoc s → e.drained.contains src = false →
    exec (.epochDrained t mc n src) s = .next (tryFree mc n (modEpoch mc n (fun e => { e with drained := if e.drained.contains src then e.drained else src :: e.drained }) (tick t s)))) ∧
  (∀ t mc n s e, epochOf s mc n = some e → e.superseded = true →
    exec (.epochFree t mc n) s = .next (tryVote mc (freeEpochArea mc n (tick t s))))

/-- R308 to R310 and Tables 13.1, 13.2: admission, claims of remote serving shares, and the two ends of a job. -/
def Obligations.JobsAreAdmittedAndEnd : Prop :=
  (∀ t h ra rs resv ka kv s s1 s2 i, Begins t h s s1 → admitPre s1 h = none → s2 = readAdmit h ra rs resv ka s1 →
    admitCheck s2 h rs ka resv kv = none → freeJob s2 = some i →
    exec (.jobAdmit t h ra rs resv ka kv) s = .next (endPoll (startAdmit h (resv.getD {}) (if ka = 0 then none else kv) i s2))) ∧
  (∀ t src mc n s i, servingJob s mc = some i → n ≤ unclaimed (jobAt s i) →
    Answers (.claim t src mc n) s (fun u =>
      u = sendXn src 0 false (.claimAnswer true) (modJob i (fun j => { j with claimed := j.claimed ++ [(src, n)] }) (tick t s)))) ∧
  (∀ t src mc n s i, servingJob s mc = some i → unclaimed (jobAt s i) < n →
    exec (.claim t src mc n) s = .next (sendXn src 0 false (.claimAnswer false) (tick t s))) ∧
  (∀ t src id s j, mget s.srv.jobs (jobIdx id) = some j → j.pendingAdmit = true → j.id = id → j.asked = [src] →
    exec (.claimAnswer t src id true) s = .next (finishAdmit (jobIdx id) (modJob (jobIdx id) (fun j =>
      { j with asked := j.asked.erase src, granted := grantFirst src (j.resv.remotes.zip j.granted) }) (tick t s)))) ∧
  (∀ t src id s j, mget s.srv.jobs (jobIdx id) = some j → j.pendingAdmit = true → j.id = id → src ∈ j.asked →
    exec (.claimAnswer t src id false) s = .next (failAdmit (jobIdx id) .resourceExhausted
      (modJob (jobIdx id) (fun j => { j with asked := j.asked.erase src }) (tick t s)))) ∧
  (∀ t id s j, mget s.srv.jobs (jobIdx id) = some j → j.pendingAdmit = true → j.id = id → j.askTime + 5000000 ≤ max s.time t →
    exec (.claimTimeout t id) s = .next (failAdmit (jobIdx id) .resourceExhausted (tick t s))) ∧
  (∀ t src mc n s i j, servingJob s mc = some i → mget s.srv.jobs i = some j →
    Answers (.claimRelease t src mc n) s (fun u => mget u.srv.jobs i = some { j with claimed := j.claimed.erase (src, n) } ∧
      (∀ k, k ≠ i → mget u.srv.jobs k = mget s.srv.jobs k) ∧ changesOnly [.time, .srv] s u)) ∧
  (∀ t h s s1, Begins t h s s1 → shapeCheck s1 h { rings := [2], job := true } false = none → jobCheck s1 h = none →
    (jobAt s1 (jobIdx h.job)).frozen = false →
    exec (.jobEnd t h) s = .next (endPoll (settleJob false (jobIdx h.job) (drainJob (jobIdx h.job)
      (modJob (jobIdx h.job) (fun j => { j with draining := true, ends := j.ends ++ [cmdOf h] }) s1))))) ∧
  (∀ t h s s1, Begins t h s s1 → shapeCheck s1 h { rings := [2], job := true } false = none → jobCheck s1 h = none →
    (jobAt s1 (jobIdx h.job)).frozen = true → (jobAt s1 (jobIdx h.job)).torn = false →
    exec (.jobEnd t h) s = .next (endPoll (teardownJob false (jobIdx h.job) .jobTornDown
      (modJob (jobIdx h.job) (fun j => { j with teardowns := j.teardowns ++ [cmdOf h] }) s1)))) ∧
  (∀ t h s s1, Begins t h s s1 → shapeCheck s1 h { rings := [2], admin := true, job := true } false = none → jobLive s1 h.job = true →
    (jobAt s1 (jobIdx h.job)).torn = false →
    exec (.jobTeardown t h) s = .next (endPoll (teardownJob false (jobIdx h.job) .jobTornDown
      (modJob (jobIdx h.job) (fun j => { j with teardowns := j.teardowns ++ [cmdOf h] }) s1))))

/-- R73 to R75 and Table 3.10: the life of a plate from its load to its removal. -/
def Obligations.PlatesLoadAndUnload : Prop :=
  (∀ t h addr size s s1, BeginsTwo t h s s1 → shapeCheck s1 h { rings := [2], job := true } false = none → jobCheck s1 h = none →
    s1.pw.pending = false → (jobAt s1 (jobIdx h.job)).torn = false →
    exec (.plateLoad t h addr size) s = .next (endPoll (readHost h.ctx addr size h.job h.layerTag h.opTag
      (beginOp h (.plateLoad (jobIdx h.job) addr size 64) 0x10 s1)))) ∧
  (∀ t op s i size p m, loadOf (tick t s) op = some (i, size, p, 0x10) → m.magicOk = true → m.format = 1 → m.size = size → imageSizeOk size = true →
    slotOk s m.signer 3 7 = true → m.digestOk = true → m.sigOk = true → imageContents (tick t s) i m = none →
    exec (.plateLoadVerified t op (some m)) s = .next (placePlate op i m (tick t s))) ∧
  (∀ t op s i size p, loadOf (tick t s) op = some (i, size, p, 0x10) →
    exec (.plateLoadVerified t op none) s = .next (endOp op .malformed 0 (tick t s))) ∧
  (∀ t op n s i size p s1, loadOf (tick t s) op = some (i, size, p, 0x12) → (plateOf s p).isls.any (fun x => x.isl == n && !x.acked) = true →
    islBusy s n = false → lostIsland (tick t s) p = false →
    s1 = modPlate p (fun q => { q with isls := q.isls.map (fun x => if x.isl == n then { x with acked := true } else x) }) (billWrite op i n (tick t s)) →
    exec (.islandConfigAck t op n) s = .next (modOp op (fun o => { o with progress := acked (plateOf s1 p), code := if acked (plateOf s1 p) = (plateOf s1 p).isls.length then 0x13 else o.code }) s1)) ∧
  (∀ t op n passed fwd s i size p x, loadOf (tick t s) op = some (i, size, p, 0x12) →
    (plateOf s p).isls.find? (fun x => x.isl == n && !x.acked) = some x → lostIsland (tick t s) p = false →
    x.retried = false →
    exec (.islandConfigTimeout t op n passed fwd) s = .next (modPlate p (fun q => { q with isls := q.isls.map (fun y => if y.isl == n then { y with retried := true } else y) }) (billWrite op i n (tick t s)))) ∧
  (∀ t op n fwd s i size p x s1, loadOf (tick t s) op = some (i, size, p, 0x12) →
    (plateOf s p).isls.find? (fun x => x.isl == n && !x.acked) = some x → lostIsland (tick t s) p = false → x.retried = true →
    s1 = fence n fwd (coffer 3 3 .configTimeout n (jobAt s i).id 0 0 (billWrite op i n (tick t s))) → (mget s1.ops.live op).isSome = true →
    exec (.islandConfigTimeout t op n false fwd) s = .next (replacePlate op i p s1)) ∧
  (∀ t op n s i size p, loadOf (tick t s) op = some (i, size, p, 0x12) → (plateOf s p).isls.any (fun x => x.isl == n && !x.acked) = true →
    islBusy s n = false → lostIsland (tick t s) p = true → exec (.islandConfigAck t op n) s = .next (replacePlate op i p (tick t s))) ∧
  (∀ t op s i size p, loadOf (tick t s) op = some (i, size, p, 0x13) → lostIsland (tick t s) p = false →
    tablesStand (tick t s) i (plateOf s p).image = none →
    ∃ v, exec (.plateResident t op) s = .next (endOp op .complete p v) ∧
      v.sec.plateLog = extendLog [(plateOf s p).image.digest.toNat, (jobAt s i).id] s.sec.plateLog) ∧
  (∀ t h p s s1 q, Begins t h s s1 → shapeCheck s1 h { rings := [2], job := true } false = none → jobCheck s1 h = none →
    mget s1.fab.plates p = some q → q.state = 2 → q.job = jobIdx h.job →
    Starts (.plateUnload t h p) s (fun v => mget v.fab.plates p = some { q with state := 3, unloads := q.unloads ++ [cmdOf h] } ∧
      (∀ k, k ≠ p → mget v.fab.plates k = mget s1.fab.plates k) ∧ changesOnly [.fab] s1 v)) ∧
  (∀ t p s q, mget s.fab.plates p = some q → q.state = 3 → q.running = none → q.queue.any (·.proof) = false → plateNeeded (tick t s) p = false →
    exec (.plateRemoval t p) s = .next (settleJob false q.job (settleAnswers (removePlate false p .complete (tick t s)))))

/-- R81, R82, R489: the reload of a table and the three stages of a signed object. -/
def Obligations.TableReloadsComplete : Prop :=
  (∀ t h tb addr size s s1 x, Begins t h s s1 → shapeCheck s1 h { rings := [2], job := true } false = none → jobCheck s1 h = none →
    (jobAt s1 (jobIdx h.job)).torn = false → tableOf s1 (jobIdx h.job) tb = some x → size = x.size + 4691 → x.reload = none →
    exec (.tableReload t h tb addr size) s = .next (endPoll (modTable (jobIdx h.job) tb (fun x => { x with reload := some { cmd := cmdOf h } })
      (readHost h.ctx addr size h.job h.layerTag h.opTag s1)))) ∧
  (∀ t id tb s, exec (.reloadPayloadWritten t id tb) s = .next (modTable (jobIdx id) tb (fun x => { x with reload := x.reload.map (fun r => if r.armed then r else { r with verifying := true }) }) (tick t s))) ∧
  (∀ t id tb payload d s x r, tableOf (tick t s) (jobIdx id) tb = some x → x.reload = some r → r.verifying = true →
    (match payload with | .fn m _ _ _ _ _ _ _ _ _ _ _ _ => m | .lookup m _ _ _ _ _ => m) = true → slotOk s (reloadSigner (tick t s) x) 3 7 = true →
    tableOk x.kind x.size payload = true →
    exec (.reloadVerified t id tb payload d true true) s = .next (armReload (jobIdx id) x payload d (tick t s))) ∧
  (∀ t id tb payload d s x r, tableOf (tick t s) (jobIdx id) tb = some x → x.reload = some r → r.verifying = true →
    (match payload with | .fn m _ _ _ _ _ _ _ _ _ _ _ _ => m | .lookup m _ _ _ _ _ => m) = true → slotOk s (reloadSigner (tick t s) x) 3 7 = true →
    exec (.reloadVerified t id tb payload d true false) s = .next (final r.cmd .accessDenied 0 0
      (modTable (jobIdx id) tb (fun x => { x with back := none, reload := none }) (tick t s))))

/-- R487, R202 to R205 and Table 8.8: a partition is made, and a border moves by chunks. -/
def Obligations.PartitionsAreMadeAndResized : Prop :=
  (∀ t h p tg size low high w s s1, Begins t h s s1 → shapeCheck s1 h infoAdmin false = none → p ≤ 63 → invasive s1 = false → erasing s1 p = false →
    (partOf s1 p).present = false → tg ≠ 0 → watermarks size low high = some w → size ≤ runLen (freeRuns s1) →
    Completes (.partCreate t h p tg size low high) h s (fun v =>
      partOf v p = { present := true, tag := tg, chunks := takeRuns size (freeRuns s1), low := w.1, high := w.2, holdsData := true } ∧
      (∀ q, q ≠ p → partOf v q = partOf s1 q) ∧ v.mem.dram = (zeroChunks 0 (takeRuns size (freeRuns s1)) s1).mem.dram ∧ changesOnly [.mem, .dram] s1 v)) ∧
  (∀ t h x size low high w s s1, BeginsTwo t h s s1 →
    shapeCheck s1 h { rings := [2], admin := true, flags := 1 } false = none → x ≤ 63 → (partOf s1 x).present = true → watermarks size low high = some w →
    invasive s1 = false → s1.pw.pending = false → opsWith s1 (fun k => match k with | .partResize y _ _ _ _ _ _ _ => y == x | _ => false) = [] →
    exec (.partResize t h x size low high) s = .next (endPoll (checkResize s1.ops.next x size (bit h.flags 0)
      (beginOp h (.partResize x size w.1 w.2 (bit h.flags 0) (runLen (targetChunks s1 x)) (partOf s1 x).low (partOf s1 x).high) 0x30 s1)))) ∧
  (∀ t op s, exec (.reclaimResume t op) s = .next (reclaim op (tick t s))) ∧
  (∀ t op s o x size low high cons cur l0 h0 s1, mget s.ops.live op = some o → o.kind = .partResize x size low high cons cur l0 h0 → o.code = 0x32 →
    x ≤ 63 → s1 = zeroChunks 0 o.runs (tick t s) → size < runLen (targetChunks s1 x) + runLen o.runs →
    exec (.resizeRetagDone t op) s = .next (endOp op .complete 0 (modPart x (fun p => { p with low := low, high := high, target := none }) s1))) ∧
  (∀ t op s o x size low high cons cur l0 h0 s1, mget s.ops.live op = some o → o.kind = .partResize x size low high cons cur l0 h0 → o.code = 0x32 →
    x ≤ 63 → s1 = zeroChunks 0 o.runs (tick t s) → runLen (targetChunks s1 x) + runLen o.runs ≤ size →
    exec (.resizeRetagDone t op) s = .next (endOp op .complete 0 (modPart x (fun p => { p with low := low, high := high, target := none })
      (modTarget x (fun l => l ++ o.runs) s1)))) ∧
  (∀ t p a b s, (partOf s p).objs.any (fun o => o.frames.contains a) = true → partRunning (tick t s) p = false →
    a ∉ s.mem.poisonFrames → findFrames (tick t s) { partOf s p with chunks := cutRun (a / 32) (partOf s p).chunks } (lmodeOf s (a / 32)) 1 = some [b] →
    opsWith (tick t s) (fun k => match k with | .partResize x _ _ _ _ _ _ _ => x == p | _ => false) = [] →
    exec (.frameMigration t p a) s = .next (moveFrame p a b (tick t s)))

/-- R327 and Table 13.5: what a command does to a long operation. -/
def Obligations.LongOperationsAreControlled : Prop :=
  (∀ t h n s s1 o, Begins t h s s1 → opCheckNames s1 h n = none → opNamed s1 n = some o → maySuspend o.code = true →
    Completes (.opSuspend t h n) h s (fun v => mget v.ops.live (n % 2 ^ 54) = some { o with held := true } ∧
      (∀ k, k ≠ n % 2 ^ 54 → mget v.ops.live k = mget s1.ops.live k) ∧ changesOnly [.ops] s1 v)) ∧
  (∀ t h n s s1 o, Begins t h s s1 → opCheckNames s1 h n = none → opNamed s1 n = some o →
    Completes (.opResume t h n) h s (fun v => v = kickOp (n % 2 ^ 54) (modOp (n % 2 ^ 54) (fun o => { o with held := false }) s1))) ∧
  (∀ t h n s s1 o, Begins t h s s1 → opCheckNames s1 h n = none → opNamed s1 n = some o → mayCancel s1 o = true →
    Completes (.opCancel t h n) h s (fun v => v = cancelOp (n % 2 ^ 54) s1)) ∧
  (∀ t h n s s1 o, Begins t h s s1 → opCheckNames s1 h n = none → opNamed s1 n = some o →
    CompletesWith (.opQuery t h n) h s o.code o.progress (fun v => v = s1)) ∧
  (∀ t op s o x, mget s.ops.live op = some o → o.kind = .secureErase x → o.code = 0x70 → opHeld (tick t s) o = false → partUnused s x = true →
    Answers (.quiesceMet t op) s (fun u => mget u.ops.live op = some { o with code := 0x71, waiting := false } ∧ changesOnly [.time, .ops] s u)) ∧
  (∀ t op s o, mget s.ops.live op = some o → o.code = 0x41 → opHeld (tick t s) o = false →
    s.srv.jobs.any (fun j => j.2.present || j.2.pendingAdmit) = false →
    exec (.quiesceMet t op) s = .next (leaveIdle (modOp op (fun o => { o with code := 0x42, waiting := false }) (tick t s))))

/-- R328, R329, R404, R418, R210 and Table 13.5: the long operations of self-test, scrub, firmware and erase. -/
def Obligations.LongOperationsRun : Prop :=
  (∀ t h sc s s1, BeginsTwo t h s s1 → shapeCheck s1 h infoAdmin false = none → sc ≤ 1 → s1.pw.pending = false →
    exec (.selfTest t h sc 1) s = .next (endPoll (modOp s1.ops.next (fun o => { o with waiting := true })
      (beginOp h (.selfTest sc true) 0x41 s1)))) ∧
  (∀ t h sc s s1 s2, BeginsTwo t h s s1 → shapeCheck s1 h infoAdmin false = none → sc ≤ 1 → s1.pw.pending = false →
    s2 = beginOp h (.selfTest sc false) 0x40 s1 →
    exec (.selfTest t h sc 0) s = .next (endPoll (leaveIdle (takeTest (s2.ops.next - 1) s2)))) ∧
  (∀ t op us n s o sc f, mget s.ops.live op = some o → o.kind = .selfTest sc f → o.code ≠ 0x41 → opHeld (tick t s) o = false →
    exec (.selfTestDone t op us n) s = .next (endOp op .complete (sat 16 us.length + 65536 * sat 16 n) (forEach failUnit us (tick t s)))) ∧
  (∀ t h p s s1, BeginsTwo t h s s1 → shapeCheck s1 h infoAdmin false = none → (p ≤ 63 ∧ (partOf s1 p).present = true) ∨ p = 0xFE ∨ p = 0xFF →
    s1.pw.pending = false → exec (.scrubPass t h p) s = .next (endPoll (beginOp h (.scrub p) 0x50 s1))) ∧
  (∀ t op s o p, mget s.ops.live op = some o → o.kind = .scrub p → opHeld (tick t s) o = false →
    exec (.scrubPassDone t op) s = .next (endOp op .complete 0 (tick t s))) ∧
  (∀ t h addr size slot x s s1 s2, BeginsTwo t h s s1 → shapeCheck s1 h infoAdmin false = none → slot ≤ 1 → s1.pw.pending = false → slot ≠ s1.id.fwSlot →
    s2 = readHost h.ctx addr size 0 h.layerTag h.opTag (beginOp h (.fwStage slot size x.svn x.minSvn x.build x.digest) 0x60 s1) →
    fwCheck s2 size (some x) = none →
    exec (.fwStage t h addr size slot (some x)) s = .next (endPoll (modOp (s2.ops.next - 1) (fun o => { o with code := 0x62, progress := size })
      (modFlash slot (fun f => { f with valid := false }) s2)))) ∧
  (∀ t op s o slot size svn ms bd dg, mget s.ops.live op = some o → o.kind = .fwStage slot size svn ms bd dg → opHeld (tick t s) o = false →
    exec (.fwStageDone t op) s = .next (endOp op .complete 0 (modFlash slot (fun _ =>
      { valid := true, svn := svn, minSvn := ms, build := bd, digest := dg, bootOk := true }) (tick t s)))) ∧
  (∀ t h p s s1, BeginsTwo t h s s1 → shapeCheck s1 h infoAdmin false = none → p ≤ 63 → (partOf s1 p).present = true → s1.pw.pending = false →
    exec (.secureErase t h p) s = .next (endPoll (modOp s1.ops.next (fun o => { o with waiting := true }) (beginOp h (.secureErase p) 0x70 s1)))) ∧
  (∀ t op s o p, mget s.ops.live op = some o → o.kind = .secureErase p → o.code = 0x71 → opHeld (tick t s) o = false →
    exec (.secureEraseDone t op) s = .next (endOp op .complete 0 (coffer 0 0 .erased p 0 0 0 (erasePart p (tick t s)))))

/-- Chapters 8 and 9: the tile mover (R187, R189, R100), ages and evictions (R195, R196), invalidations (R211), publications (R212) and drops of KV pages (R221). -/
def Obligations.TilesAndPagesMove : Prop :=
  (∀ t h d s s1 n, Begins t h s s1 → shapeCheck s1 h { rings := [2], job := true } (tileBad true d) = none → jobCheck s1 h = none →
    jobChan s1 (jobIdx h.job) d.channel = some n → tileFault s1 (jobIdx h.job) (jobAt s1 (jobIdx h.job)).ctx 64 d = none →
    exec (.tileMove t h d) s = .next (endPoll (queueTile n { d := { d with layerId := h.layerTag, operatorId := h.opTag }, job := jobIdx h.job, posted := false, lc := (chanOf s1 n).cls == 1, deadline := h.deadline, cmd := cmdOf h, ctx := h.ctx, kv := (jobAt s1 (jobIdx h.job)).ctx, plate := 64 } s1))) ∧
  (∀ t h d s s1 n, Begins t h s s1 → shapeCheck s1 h { rings := [2], job := true } (tileBad true d) = none → jobCheck s1 h = none →
    jobChan s1 (jobIdx h.job) d.channel = some n → tileFault s1 (jobIdx h.job) (jobAt s1 (jobIdx h.job)).ctx 64 d = some .denied →
    exec (.tileMove t h d) s = .next (endPoll (final (cmdOf h) .accessDenied 0 0 s1))) ∧
  (∀ t ch data s j got, PieceReady ch j data (tick t s) → mayLand j (tick t s) = true → gather (tick t s) j data = some got →
    exec (.tilePieceComplete t ch data false) s = .next (beginAll (landPiece ch j got (tick t s)))) ∧
  (∀ t ch data s j, PieceReady ch j data (tick t s) → mayLand j (tick t s) = true → j.posted = true →
    exec (.tilePieceComplete t ch data true) s = .next (beginAll (holdTile ch (tick t s)))) ∧
  (∀ t ch data s j, PieceReady ch j data (tick t s) → mayLand j (tick t s) = true → j.posted = false →
    exec (.tilePieceComplete t ch data true) s = .next (beginAll (failTile ch .memoryUncorrectable (fun _ s => s) (tick t s)))) ∧
  (∀ t ch data p s j, PieceReady ch j data (tick t s) → (srcPlaces (tick t s) j ++ dstPlaces (tick t s) j).contains .none = true →
    exec (.tilePieceComplete t ch data p) s = .next (beginAll (denyTile ch .accessDenied (tick t s)))) ∧
  (∀ t ch data p s j, PieceReady ch j data (tick t s) → (srcPlaces (tick t s) j ++ dstPlaces (tick t s) j).contains .none = false →
    (srcPlaces (tick t s) j ++ dstPlaces (tick t s) j).contains .recompute = true →
    exec (.tilePieceComplete t ch data p) s = .next (beginAll (holdTile ch (tick t s)))) ∧
  (∀ t s, exec (.cabinetDrawerGrant t) s = .next (beginAll (serveWaiter (tick t s)))) ∧
  (∀ t acc s, s.mem.lastAge + s.mem.agePeriod * 100000 ≤ max s.time t → s.mem.poisonFrames = [] →
    Answers (.ageSample t acc) s (fun u => u.mem.lastAge = max s.time t ∧
      u.mem.leaves = s.mem.leaves.map (fun l => if l.level = 1 then l else { l with word := l.word &&& (0xF7FFFFFFFFFFFFFF : Dword) }) ∧
      u.mem.ages = forEach (fun f m => if (accessedFrames s ++ acc).contains f then mdel m f else mset m f (min 255 (mgetD s.mem.ages f 0 + 1)))
        (s.mem.parts.flatMap (fun p => p.2.objs.flatMap (·.frames))) s.mem.ages ∧
      changesOnly [.time, .mem] s u)) ∧
  (∀ t p s, freeFrames s (partOf s p) < (partOf s p).low →
    exec (.eviction t p) s = .next (evictUntil p (partOf s p).high (partOf s p).objs.length (tick t s))) ∧
  (∀ t d f s, Answers (.invalidationAck t d f) s (fun u => (∀ v, v ∈ u.mem.invals → v.waiting ≠ [] ∧ (v.frame = f → d ∉ v.waiting)) ∧
    (∀ v ∈ s.mem.invals, v.frame ≠ f → v.waiting ≠ [] → v ∈ u.mem.invals) ∧ changesOnly [.time, .mem, .srv] s u)) ∧
  (∀ t src g i gr pg s, i < 65536 → (seqOf s i).st = 0 →
    exec (.dropGrantRequest t src (g * 65536 + i) gr pg) s = .next (sendXn src 0 false (.dropGrant (g * 65536 + i) gr pg false) (tick t s))) ∧
  (∀ t src g i gr pg s, i < 65536 → (seqOf s i).st ≠ 0 → (seqOf s i).gen = g → (pageOf (seqOf s i) gr pg).isSome = true →
    dropGranted (tick t s) i = true →
    exec (.dropGrantRequest t src (g * 65536 + i) gr pg) s =
      .next (sendXn src 0 false (.dropGrant (g * 65536 + i) gr pg true) (dropKv i gr pg (tick t s)))) ∧
  (∀ t src q gr pg s x geo, src ≠ ownLoc s → pubOf s src (q % 65536) = some x → pubGeom (tick t s) x = some geo →
    exec (.kvDrop t src q (gr, pg) true) s = .next (forEach (fun pn s => freeLoose pn ((x.pages.filter (fun k => k.group == gr && k.page == pg)).filterMap (·.shared))
        (freeObjs pn (fun k => k == .kv src (q % 65536) gr pg) s)) (s.mem.parts.map (·.1))
      (modPub src (q % 65536) (fun x => { x with pages := x.pages.filter (fun k => !(k.group == gr && k.page == pg)) })
        (clearLeaves (headCtx src x.ctx) (pageVpns geo (q % 65536) gr pg) (tick t s))))) ∧
  (∀ t src q gr pg s, src ≠ ownLoc s → Answers (.kvDrop t src q (gr, pg) false) s (fun u => u = unwant src (q % 65536) gr pg (tick t s))) ∧
  (∀ t src c q root mc e s, pubOf s src (q % 65536) = none → Answers (.sequencePublication t src c q root mc e) s (fun u =>
    u.srv.pubs = s.srv.pubs ++ [{ src := src, ctx := c, seq := q, root := root, mc := mc, epoch := e }] ∧ changesOnly [.time, .srv] s u)) ∧
  (∀ t src c q root mc e s x, pubOf s src (q % 65536) = some x → x.seq = q → Answers (.sequencePublication t src c q root mc e) s (fun u =>
    u = modPub src (q % 65536) (fun p => { p with ctx := c, root := root, mc := mc, epoch := e }) (tick t s)))

/-- R98, R100, R200, R248, R455, R458: what the device does with memory that fails. -/
def Obligations.MemoryErrorsAreHandled : Prop :=
  (∀ t l e e1 e2 s c, l < memChunks s * 65536 → checkLine (lmodeOf s (l / 65536)) (readLine s l e) = some c →
    exec (.lineCheckFail t l e (e1, e2)) s = .next (if c then countSub (subchannelOf (tick t s) (l * 32)) (fun c => (c.1 + 1, c.2.1, c.2.2)) (tick t s)
      else tick t s)) ∧
  (∀ t l e e1 e2 s c s1, l < memChunks s * 65536 → checkLine (lmodeOf s (l / 65536)) (readLine s l e) = none →
    (checkLine (lmodeOf s (l / 65536)) (readLine s l e1) = some c ∨
      (checkLine (lmodeOf s (l / 65536)) (readLine s l e1) = none ∧ checkLine (lmodeOf s (l / 65536)) (readLine s l e2) = some c)) →
    s1 = countSub (subchannelOf (tick t s) (l * 32)) (fun c => (c.1, c.2.1 + 1, c.2.2)) (tick t s) →
    exec (.lineCheckFail t l e (e1, e2)) s = .next (if c then countSub (subchannelOf (tick t s) (l * 32)) (fun c => (c.1 + 1, c.2.1, c.2.2)) s1 else s1)) ∧
  (∀ t l e e1 e2 s, l < memChunks s * 65536 → (∀ x ∈ [e, e1, e2], checkLine (lmodeOf s (l / 65536)) (readLine s l x) = none) →
    ∃ v, exec (.lineCheckFail t l e (e1, e2)) s = .next (poisonFrame (l / 2048) v) ∧
      l ∈ v.mem.poisonLines ∧ changesOnly [.time, .mem, .cof] s v) ∧
  (∀ t f d s, f ∈ s.mem.poisonFrames → f ∉ s.mem.restoring → chunkKind s (f / 32) ≠ 2 → frameHeld s f = false →
    Answers (.frameRestored t f false d) s (fun u => f ∈ u.mem.retired ∧ f ∉ u.mem.restoring ∧
    u.mem.poisonFrames = s.mem.poisonFrames ∧ changesOnly [.time, .mem, .cof] s u)) ∧
  (∀ t f d s, f ∈ s.mem.poisonFrames → f ∉ s.mem.restoring → chunkKind s (f / 32) ≠ 2 → frameHeld s f = false →
    exec (.frameRestored t f true d) s = .next (retryStalled (reissueTiles (applyHeld f (clearPoison f (tick t s)))))) ∧
  (∀ t f d s mc e i, f ∈ s.mem.poisonFrames → f ∈ s.mem.restoring → shardOfFrame (tick t s) f = some (mc, e, i) →
    shardGood (e.m.shards.getD i {}) d = true → embFrame (tick t s) e f = false →
    exec (.frameRestored t f true (some d)) s = .next (retryStalled (reissueTiles (applyHeld f (clearPoison f
      (rewriteFrame f e (e.m.shards.getD i {}) d (tick t s))))))) ∧
  (∀ t f ok s mc e i s1, f ∈ s.mem.poisonFrames → f ∈ s.mem.restoring → shardOfFrame (tick t s) f = some (mc, e, i) →
    s1 = { tick t s with mem := { s.mem with restoreTries := mset s.mem.restoreTries f (mgetD s.mem.restoreTries f 0 + 1) } } →
    exec (.frameRestored t f ok none) s = .next (if mgetD s.mem.restoreTries f 0 < 3 then tryRestore f mc i e s1 else failRestore f mc i e s1)) ∧
  (∀ t f s mc e i s1, f ∈ s.mem.restoring → shardOfFrame (tick t s) f = some (mc, e, i) →
    s1 = eventRec adminCtx 3 (mc + 65536 * e.num) i (modEpoch mc e.num (fun e => { e with failed := true })
      (coffer 4 3 .restoreFailed 0 0 mc (f * 65536) { tick t s with mem := { s.mem with restoring := s.mem.restoring.filter (· != f) } })) →
    exec (.restoreFailed t f) s = .next (retryStalled (forEach (fun j s => endReqs false (fun r => jobIdx r.h.job == j) .memoryUncorrectable s)
      (dedup' ((stuckTiles s1 f).map (·.job))) s1))) ∧
  (∀ t n s, n < 384 → bgFits (tick t s) (bgCtl (n / 24)) 2000 = true →
    Answers (.retrainSlice t n true true) s (fun u => u.mem.slices = mdel s.mem.slices n ∧ u.mem.offline = s.mem.offline ∧
      mgetD u.fab.bgUsed (n / 24) 0 = mgetD s.fab.bgUsed (n / 24) 0 + 2000 ∧ changesOnly [.time, .mem, .fab, .td] s u)) ∧
  (∀ t n last ok s, n < 384 → bgFits (tick t s) (bgCtl (n / 24)) 2000 = false → exec (.retrainSlice t n last ok) s = .next (tick t s)) ∧
  (∀ t n last s, n < 384 → bgFits (tick t s) (bgCtl (n / 24)) 2000 = true → mget s.mem.offline n = none →
    Answers (.retrainSlice t n last false) s (fun u => mget u.mem.offline n = some 0 ∧ changesOnly [.time, .mem, .fab, .td, .cof] s u)) ∧
  (∀ t n k s, mget s.mem.offline n = some k → Answers (.subchannelRetry t n true) s (fun u =>
    u.mem.offline = mdel s.mem.offline n ∧ changesOnly [.time, .mem] s u)) ∧
  (∀ t n k s, mget s.mem.offline n = some k → k < 2 → Answers (.subchannelRetry t n false) s (fun u =>
    mget u.mem.offline n = some (k + 1) ∧ changesOnly [.time, .mem] s u)) ∧
  (∀ t n k s, mget s.mem.offline n = some k → 2 ≤ k → ∃ v, exec (.subchannelRetry t n false) s = .next (fatal (n / 24) false v) ∧
    mget v.mem.offline n = some (k + 1))

/-- R356, R357, R360 to R362, R364, R366, R370, R371: groups, the operations on them, and the events that meet one in progress. -/
def Obligations.GroupsAndCollectivesRun : Prop :=
  (∀ t h b s s0 s1 g q, Begins t h s s0 → shapeCheck s0 h { rings := [4, 5, 6, 7], job := true, mc := true } false = none → jobCheck s0 h = none →
    (jobAt s0 (jobIdx h.job)).mc = h.modelCtx → s1 = readHost h.ctx b.memberAddr b.members h.job h.layerTag h.opTag s0 → boundGroup s1 h.ctx h.ring = none → createBad s1 h b = false → stageBad s1 h b = false →
    s1.coll.groups.length < 256 → (b.memberList.getD []).all (routed s1) = true → s1.coll.earlyJoins = [] →
    g = (firstFrom (fun n => (mget s1.coll.groups n).isNone) 256 0).getD 0 →
    q = ({ id := b.groupId, key := b.groupKey, ctx := h.ctx, queue := h.ring - 4, job := jobIdx h.job, rank := b.rank, members := b.memberList.getD [], mode := b.mode, chunkLog2 := b.chunkLog2, depth := b.depth, stagePlate := b.stagePlate, stageOffset := b.stageOffset, stageBytes := b.stageBytes, joined := [ownLoc s1], cmd := cmdOf h } : Group) →
    Starts (.collGroupCreate t h b) s (fun v => mget v.coll.groups g = some q ∧ v.ctxs = (modCtx h.ctx (fun x => { x with queues := mset x.queues (h.ring - 4) g }) s1).ctxs ∧
      v.coll.earlyJoins = [] ∧ changesOnly [.ctxs, .coll, .xn, .td, .out] s1 v)) ∧
  (∀ t h s s1 g, Begins t h s s1 → shapeCheck s1 h infoColl false = none → boundGroup s1 h.ctx h.ring = some g →
    Completes (.collGroupDestroy t h) h s (fun v => v = endGroup false g s1)) ∧
  (∀ t h b s s1 g o, Begins t h s s1 → o = ({ opNo := 0, opcode := 0x72, b := b, cmd := cmdOf h, posted := false, lc := false, layer := h.layerTag, operator := h.opTag } : CollOp) →
    boundGroup s1 h.ctx h.ring = some g → shapeCheck s1 h infoColl (collBad false 0x72 b) = none → opCheck s1 g o = none →
    exec (.barrier t h b) s = .next (endPoll (enterOp g o s1))) ∧
  (∀ t h b s s1 g o, Begins t h s s1 → o = ({ opNo := 0, opcode := 0x73, b := b, cmd := cmdOf h, posted := false, lc := false, layer := h.layerTag, operator := h.opTag } : CollOp) →
    boundGroup s1 h.ctx h.ring = some g → shapeCheck s1 h infoColl (collBad false 0x73 b) = none → opCheck s1 g o = none →
    exec (.reduceSmall t h b) s = .next (endPoll (enterOp g o s1))) ∧
  (∀ t h b s s1 g o, Begins t h s s1 → o = ({ opNo := 0, opcode := 0x74, b := b, cmd := cmdOf h, posted := false, lc := false, layer := h.layerTag, operator := h.opTag } : CollOp) →
    boundGroup s1 h.ctx h.ring = some g → shapeCheck s1 h infoColl (collBad false 0x74 b) = none → opCheck s1 g o = none →
    exec (.allReduce t h b) s = .next (endPoll (enterOp g o s1))) ∧
  (∀ t h b s s1 g o, Begins t h s s1 → o = ({ opNo := 0, opcode := 0x75, b := b, cmd := cmdOf h, posted := false, lc := false, layer := h.layerTag, operator := h.opTag } : CollOp) →
    boundGroup s1 h.ctx h.ring = some g → shapeCheck s1 h infoColl (collBad false 0x75 b) = none → opCheck s1 g o = none →
    exec (.allGather t h b) s = .next (endPoll (enterOp g o s1))) ∧
  (∀ t h b s s1 g o, Begins t h s s1 → o = ({ opNo := 0, opcode := 0x76, b := b, cmd := cmdOf h, posted := false, lc := false, layer := h.layerTag, operator := h.opTag } : CollOp) →
    boundGroup s1 h.ctx h.ring = some g → shapeCheck s1 h infoColl (collBad false 0x76 b) = none → opCheck s1 g o = none →
    exec (.reduceScatter t h b) s = .next (endPoll (enterOp g o s1))) ∧
  (∀ t p s, groupOfId (tick t s) p.groupId = none → (servingJob (tick t s) p.modelCtx).isSome = true → Answers (.join t p) s (fun u => u.coll.earlyJoins = s.coll.earlyJoins ++ [p] ∧
    changesOnly [.time, .coll] s u)) ∧
  (∀ t p s g q, groupOfId (tick t s) p.groupId = some (g, q) → exec (.join t p) s = .next (takeJoin g p (tick t s))) ∧
  (∀ t n src s g q, groupOfId (tick t s) n = some (g, q) → q.st = 1 → exec (.abandon t n src) s = .next (modGroup g (fun q => { q with st := 3 })
    (endCollOps false g .cancelled (tick t s)))) ∧
  (∀ t n src s g q, groupOfId (tick t s) n = some (g, q) → q.members.contains src = true → exec (.fault t n src) s = .next (faultGroup g (tick t s))) ∧
  (∀ t n src s g q, groupOfId (tick t s) n = some (g, q) → q.st = 2 → exec (.abandon t n src) s = .next (modGroup g (fun q => { q with st := 2 })
    (endCollOps false g .cancelled (tick t s)))) ∧
  (∀ t n p s g q, collCame n p (tick t s) = false → groupOfId (tick t s) n = some (g, q) → q.st = 1 →
    exec (.collectiveChunk t n p) s = .next (runGroup g (groupFuel (tick t s) g) (joinPkt n p (tick t s)))) ∧
  (∀ t n p s r, p.resend = true → mget s.xn.executed (execKey (collHead p) p.fseq) = some r →
    exec (.collectiveChunk t n p) s = .next (sendXn p.src (collHead p).vc p.lc (.resp r) (tick t s))) ∧
  (∀ t p s o g q h s1, 0x200 ≤ p.flow → p.flow < 0x300 →
    s.xn.collOut.find? (fun o => !o.held && o.dst == p.src && o.pkt.flow == p.flow && o.pkt.fseq == p.fseq) = some o → p.status ≠ .gone → 2 ≤ o.pkt.stage →
    groupOfId s o.gid = some (g, q) → mget s.coll.groups g = some q → headOp s g = some h → h.opNo = o.pkt.opNo →
    s1 = sendBulk g (sendChunks q h q.rank).length (modHead g (fun h => { h with answered := min h.sent (h.answered + 1) })
      (activity (jobAt s (jobIdx o.job)).ctx .xnRx (jobAt s (jobIdx o.job)).id o.layer o.operator (msgBytes (.resp p))
        { tick t s with xn := { s.xn with collOut := s.xn.collOut.filter (fun x => !(x == o)) } })) →
    exec (.resp t p) s = .next (releaseFlow p.src p.flow (runGroup g (groupFuel s1 g) s1))) ∧
  (∀ t p s o, 0x200 ≤ p.flow → p.flow < 0x300 →
    s.xn.collOut.find? (fun o => !o.held && o.dst == p.src && o.pkt.flow == p.flow && o.pkt.fseq == p.fseq) = some o → p.status = .gone →
    exec (.resp t p) s = .next (releaseFlow p.src p.flow (loseColl 2 o
      (activity (jobAt s (jobIdx o.job)).ctx .xnRx (jobAt s (jobIdx o.job)).id o.layer o.operator (msgBytes (.resp p))
        { tick t s with xn := { s.xn with collOut := s.xn.collOut.filter (fun x => !(x == o)) } })))) ∧
  (∀ t p s q, 0x200 ≤ p.flow → p.flow < 0x300 → s.xn.collOut = [] → mget s.coll.groups (p.flow - 0x200) = some q → q.st = 0 → p.status = .gone →
    exec (.resp t p) s = .next (failCreate (p.flow - 0x200) .fabricTargetLost (tick t s))) ∧
  (∀ t p s, p.flow < 0x40 → (∀ r ∈ s.xn.remotes, covers p r = false) → exec (.resp t p) s = .next (lateResp (tick t s))) ∧
  (∀ t p s, 0x100 ≤ p.flow → p.flow < 0x200 → exec (.resp t p) s = .next (respExu p (tick t s))) ∧
  (∀ t p s, 0x300 ≤ p.flow → p.flow < 0x400 → exec (.resp t p) s = .next (respRemote p (tick t s)))

/-- R422, R425, R426, R429, R431: the telemetry commands of ring 3, and what happens to an event that its trace has no room for. -/
def Obligations.TelemetryCommandsComplete : Prop :=
  (∀ t h base k kinds ha s s1, Begins t h s s1 → shapeCheck s1 h infoTd false = none → 8 ≤ k → k ≤ 20 →
    Completes (.traceSetup t h base k kinds ha) h s (fun v =>
      v = modCtx h.ctx (fun x => { x with trace := some { base := base, sizeLog2 := k, kinds := kinds, headAddr := ha } }) s1)) ∧
  (∀ t h base kinds ha s s1, Begins t h s s1 → shapeCheck s1 h infoTd false = none →
    Completes (.traceSetup t h base 0 kinds ha) h s (fun v => v = modCtx h.ctx (fun x => { x with trace := none }) s1)) ∧
  (∀ t h set l o j s s1, Begins t h s s1 → shapeCheck s1 h infoTd false = none → set ≤ 3 → (ctxOf s1 h.ctx).addrOnly = false ∨ (l = 0xFFFF ∧ o = 0xFFFF) →
    j = 0xFFFF ∨ othersJob s1 h.ctx j = false →
    Completes (.counterFilter t h set l o j) h s (fun v => v = modCtx h.ctx (fun x => { x with filters := mset x.filters set { armed := true, job := j, layer := l, operator := o, counts := [] } }) s1)) ∧
  (∀ t h a n s s1 all fit, Begins t h s s1 → shapeCheck s1 h { rings := [3], job := true } false = none → jobCheck s1 h = none →
    all = layerRecords s1 (jobIdx h.job) (ctxOf s1 h.ctx).addrOnly → fit = all.take (n / 64) →
    CompletesWith (.layerReport t h a n) h s (64 * fit.length) all.length (fun v =>
      v.out = ((fit.zip (List.range fit.length)).map (fun e => Output.layerRecord h.ctx (a + 64 * e.2) e.1)).reverse ++ s1.out ∧
      changesOnly [.ctxs, .td, .out] s1 v)) ∧
  (∀ t h b s s1 n k, Begins t h s s1 → shapeCheck s1 h { rings := [3], job := true } false = none → 1 ≤ b.expiry → b.expiry ≤ 60000 →
    jobCheck s1 h = none → (ctxOf s1 h.ctx).addrOnly = false → watchBad s1 h b = false → (ctxOf s1 h.ctx).watches.length < 4 →
    tensorBytes s1 b.plate b.stepKind b.symbolId = some (n, k) →
    Starts (.tensorWatch t h b) s (fun v => v = modCtx h.ctx (fun x => { x with watches := x.watches ++ [{ reqId := h.reqId, irq := h.irq, job := h.job, b := b, bytes := n, due := s1.time + 1000000 * b.expiry, layerTag := h.layerTag, opTag := h.opTag }] }) s1)) ∧
  (∀ t h id s s1 w, Begins t h s s1 → shapeCheck s1 h infoTd false = none → (ctxOf s1 h.ctx).watches.find? (fun w => w.reqId == id) = some w →
    Completes (.watchCancel t h id) h s (fun v => v = endWatch h.ctx w .cancelled s1)) ∧
  (∀ t c id s w, (ctxOf s c).watches.find? (fun w => w.reqId == id && decide (w.due ≤ max s.time t)) = some w →
    exec (.watchExpiry t c id) s = .next (endWatch c w .complete (tick t s))) ∧
  (∀ t c s r, (ctxOf s c).trace = some r → r.dropped < 2 ^ 32 - 1 →
    Answers (.traceDrop t c none) s (fun u => (ctxOf u c).trace = some { r with dropped := r.dropped + 1, dropFirst := if r.dropped = 0 then max s.time t else r.dropFirst, dropLast := max s.time t } ∧ changesOnly [.time, .ctxs, .srv] s u))

/-- R432, R433, R437 to R440: background rounds, advisories, and the snapshot and the release of the Coffer. -/
def Obligations.CofferAndAdvisoriesAnswer : Prop :=
  (∀ t a dg q cy x fwd s, a < 10 → a ≠ 2 → a ≠ 3 → a ≠ 6 → Answers (.backgroundInterval t a false dg q cy x fwd) s (fun u =>
    mgetD u.td.lastRound a 0 = max s.time t ∧ mgetD u.td.deferrals a 0 = min (mgetD s.td.deferrals a 0 + 1) (2 ^ 16 - 1) ∧ 0 ∈ u.td.advisory ∧
    changesOnly [.time, .td, .out] s u)) ∧
  (∀ t dg q cy x fwd s, exec (.backgroundInterval t 8 true dg q cy x fwd) s = .next (predict { degr := dg, charge := q, cycles := cy, errors := x.1, eye := x.2 } fwd
    { tick t s with td := { s.td with lastRound := mset s.td.lastRound 8 (max s.time t) } })) ∧
  (∀ t eid m s, managerEid s eid = true → Answers (.advisoryAck t eid m) s (fun u =>
    u.td.advisory = s.td.advisory.filter (fun c => !bit (m % 256) c) ∧ changesOnly [.time, .td] s u)) ∧
  (∀ t eid n s, managerEid s eid = true → s.pw.st = .run ∨ s.pw.st = .idle → s.cof.frozen = true → s.cof.cause = 2 → s.cof.recs = [] →
    Answers (.cofferSnapshot t eid n) s (fun u => u.cof = { s.cof with snapNonce := none } ∧ u.draws = s.draws + 1 ∧
      u.out = .mgmt (.cofferSignature 0 0 2 (maySign s) s.cof.drops s.cof.freezeTime (max s.time t) (Config.draw s.draws)) :: s.out)) ∧
  (∀ t eid s, s.pw.st = .run ∨ s.pw.st = .idle → s.cof.frozen = true →
    Answers (.cofferRelease t true eid) s (fun u => u.cof.frozen = false ∧ u.cof.cause = 0 ∧ u.cof.drops = 0 ∧
      u.cof.recs.head? = some { time := max s.time t, seq := s.cof.next, source := 0, severity := 0, ev := .drops, unit := 0, job := 0, mc := 0, addr := s.cof.drops } ∧
      changesOnly [.time, .cof] s u)) ∧
  (∀ t eid s, regsAnswer s = true → s.pw.st ≠ .run → s.pw.st ≠ .idle →
    Answers (.cofferRelease t false eid) s (fun u => u.td.cfgErr = true ∧ u.cof = s.cof ∧ changesOnly [.time, .td] s u))

/-- R47, R76, R78, R79: dispatch, boundary and watchdog of a step. -/
def Obligations.StepsRunAndEnd : Prop :=
  (∀ t p ops plan s s1 s2 s3 s4 q w b, s1 = markRecompute p (queuePlan plan (tick t s)) → eligible s1 p = some q → outranked s1 p q = false →
    q.proof = false → w = { q with work := q.work.map (clampWork s1) } → s2 = ensureWork w.work s1 →
    (∀ k r, k ∈ w.work → workReq s2 k = some r → r.waitingBe = false) → oneBucket p w s2 = (b, s3) → headWork p b.work s3 = some s4 →
    exec (.stepDispatch t p ops plan) s = .next (computeStep p b ops s4)) ∧
  (∀ t p ops plan s s1 q, s1 = markRecompute p (queuePlan plan (tick t s)) → eligible s1 p = some q → outranked s1 p q = false →
    q.proof = true → exec (.stepDispatch t p ops plan) s = .next (runProofs p (startStep p q s1))) ∧
  (∀ t p ops plan s s1, s1 = markRecompute p (queuePlan plan (tick t s)) → (∀ q, eligible s1 p = some q → outranked s1 p q = true) →
    exec (.stepDispatch t p ops plan) s = .next s1) ∧
  (∀ t p res plan s q r, mget s.fab.plates p = some q → q.running = some r → watchdogReached (tick t s) p (max s.time t - r.dispatch) r.proof = false →
    exec (.stepBoundary t p res plan) s = .next (queuePlan plan (endStep p r res (tick t s)))) ∧
  (∀ t p s q r, mget s.fab.plates p = some q → q.running = some r → watchdogReached (tick t s) p (max s.time t - r.dispatch) r.proof = true →
    exec (.stepWatchdog t p) s = .next (abortStep p r (tick t s)) ∧
    ∀ res plan, exec (.stepBoundary t p res plan) s = .next (abortStep p r (tick t s)))

/-- Chapter 2: what an island and its Dovetail links do on each event. -/
def Obligations.IslandsAndDovetailsRespond : Prop :=
  (∀ t n p c x s, exec (.dovetailTransfer t n p c 0 x) s = .next (takeTransfer n x (tick t s))) ∧
  (∀ t n p c x s, exec (.dovetailTransfer t n p c 1 x) s = .next (takeTransfer n x (countCorrected n p c (tick t s)))) ∧
  (∀ t n p c e x s, 2 ≤ e → exec (.dovetailTransfer t n p c e x) s = .next (poisonTransfer n x (tick t s))) ∧
  (∀ t n p c e pl k a l s i, 2 ≤ e → (plateOf s pl).isls[k]? = some i → i.isl = n →
    exec (.dovetailTransfer t n p c e (.write pl k a l)) s = .next (poisonBank pl k a l.length (writeBank pl k a l
      (coffer 3 3 .plateError n (jobAt s (plateOf s pl).job).id (jobAt s (plateOf s pl).job).mc 0 (tick t s))))) ∧
  (∀ t n k i s, islValid n = true → k < 64 → exec (.counterIncrement t n k i) s = .next (addCounter n k i (tick t s))) ∧
  (∀ t n p c d lh lt fh ft s m, neighbour n p = some m → bgFits (tick t s) (bgIsl n) 1 = true → bgFits (tick t s) (bgIsl m) 1 = true →
    exec (.dovetailRecalibration t n p c true (some d) lh lt fh ft) s =
    .next (calibrate n p c (min d 127) (bgBill (bgIsl m) Config.calibNs (bgBill (bgIsl n) Config.calibNs (tick t s))))) ∧
  (∀ t n p c lh lt fh ft s m, neighbour n p = some m → (mgetD (islOf s n).lanes (laneKey p c) {}).calTime + 60000000000 ≤ max s.time t →
    bgFits (tick t s) (bgIsl n) 1 = true → bgFits (tick t s) (bgIsl m) 1 = true →
    exec (.dovetailRecalibration t n p c false none lh lt fh ft) s = .next (failLane n p m c lh lt fh ft
      (bgBill (bgIsl m) Config.calibNs (bgBill (bgIsl n) Config.calibNs (tick t s))))) ∧
  (∀ t n p c tm d lh lt fh ft s, bgFits (tick t s) (bgIsl n) 1 = false → exec (.dovetailRecalibration t n p c tm d lh lt fh ft) s = .next (tick t s)) ∧
  (∀ t n sw fw s, islValid n = true → fenced (tick t s) n = false → n ∉ s.td.fences → platesOn (tick t s) n = [] → s.fab.beaconOk = true →
    exec (.islandBringUp t n sw true fw) s = .next (bringUp n sw (tick t s))) ∧
  (∀ t n sw fw s, islValid n = true → fenced (tick t s) n = false → n ∉ s.td.fences → platesOn (tick t s) n = [] → s.fab.beaconOk = true →
    fenced (bringUp n sw (tick t s)) n = false → exec (.islandBringUp t n sw false fw) s = .next (fence n fw (bringUp n sw (tick t s)))) ∧
  (∀ t n sw passed fw s, islValid n = true → fenced (tick t s) n = false → n ∉ s.td.fences → platesOn (tick t s) n = [] → s.fab.beaconOk = false →
    exec (.islandBringUp t n sw passed fw) s = .next (beaconFault (modIsl n (fun x => { x with state := 3, fllLock := false, freqCode := 0 }) (tick t s)))) ∧
  (∀ t n k fw s, islValid n = true → fenced (tick t s) n = false →
    exec (.islandBringUpTimeout t n k fw) s = .next (fence n fw (coffer 3 3 .bringUpTimeout n 0 0 k (tick t s)))) ∧
  (∀ t n s, s.fab.beaconOk = true → fenced (tick t s) n = false →
    exec (.fllLock t n) s = .next (applyCodes false (modIsl n (fun x => { x with fllLock := true }) (tick t s)))) ∧
  (∀ t n s, exec (.droop t n) s = .next (modIsl n (fun x => { x with droopCnt := sat 16 (x.droopCnt + 1), stretched := true }) (tick t s))) ∧
  (∀ t n d s, islValid n = true → (islOf s n).stretched = true → exec (.droopRelease t n d) s = .next (countGlobal 67 d
    (modField (fieldOf n) (fun f => { f with droopNs := f.droopNs + d }) (modIsl n (fun x => { x with stretched := false }) (tick t s))))) ∧
  (∀ t s, Answers (.beaconLost t) s (fun u => u.fab.beaconOk = false ∧ (∀ e ∈ u.fab.isl, e.2.fllLock = false) ∧ u.pw.oscRdy = false ∧ 1 ∈ u.td.advisory ∧
    changesOnly [.time, .fab, .pw, .td, .out] s u)) ∧
  (∀ t s, s.fab.beaconOk = false → exec (.beaconReturn t) s = .next (applyCodes false { tick t s with fab := { s.fab with beaconOk := true }, pw := { s.pw with oscRdy := true } }))

/-- R342, R346, R347, R349, R351 and R451: remote accesses, their second sending, the messages to the fabric manager, and a chip that is reset. -/
def Obligations.RemoteAccessesComplete : Prop :=
  (∀ t p s, p.dst = ownLoc s → p.resend = false → 2 ≤ p.size → p.size ≤ 12 → p.addr % alignAt (tick t s) p.addr = 0 →
    2 ^ p.size % alignAt (tick t s) p.addr = 0 → modeBad (tick t s) p (2 ^ p.size) = false → targetCheck (tick t s) p false false false (2 ^ p.size) = none →
    exec (.read t p) s = .next (answer p .ok (readDram (tick t s) (p.addr % 2 ^ 41) (2 ^ p.size)) (codesAt (tick t s) (p.addr % 2 ^ 41) (2 ^ p.size))
      (countTarget false p (2 ^ p.size) (tick t s)))) ∧
  (∀ t p s st, p.dst = ownLoc s → p.resend = false → 2 ≤ p.size → p.size ≤ 12 → p.addr % alignAt (tick t s) p.addr = 0 →
    2 ^ p.size % alignAt (tick t s) p.addr = 0 → modeBad (tick t s) p (2 ^ p.size) = false → targetCheck (tick t s) p false false false (2 ^ p.size) = some st →
    exec (.read t p) s = .next (answer p st [] [] (tick t s))) ∧
  (∀ t p s, p.dst = ownLoc s → p.resend = false → 1 ≤ p.payload.length → p.payload.length ≤ 4096 → p.length = p.payload.length →
    p.addr % alignAt (tick t s) p.addr = 0 → p.payload.length % alignAt (tick t s) p.addr = 0 → modeBad (tick t s) p p.payload.length = false →
    targetCheck (tick t s) p true false false p.payload.length = none → (p.payload.length = 8 → entryHere (tick t s) (p.addr % 2 ^ 41) = none) →
    exec (.write t p) s = .next (answer p .ok [] [] (writeDram (p.addr % 2 ^ 41) p.payload
      (putCodes (p.addr % 2 ^ 41 / 32) p.codes (countTarget true p p.payload.length (tick t s)))))) ∧
  (∀ t p s, p.dst = ownLoc s → p.resend = false → exec (.atomic t p) s = .next (atomicPkt p (tick t s))) ∧
  (∀ t p s m, p.dst = ownLoc s → p.resend = false → p.size = 2 ∨ p.size = 3 → p.op ≠ 7 → (p.op ≠ 6 ∨ entryHere (tick t s) (p.addr % 2 ^ 41) = none) →
    p.payload.length = (if p.op = 5 then 2 * 2 ^ p.size else 2 ^ p.size) → p.addr % 2 ^ p.size = 0 → lmodeOf s (p.addr % 2 ^ 41 / 2097152) = 0 →
    targetCheck (tick t s) p true false false (2 ^ p.size) = none →
    atomicOp p.op (2 ^ p.size) (leNat (readDram s (p.addr % 2 ^ 41) (2 ^ p.size))) (leNat (p.payload.take (2 ^ p.size)))
      (leNat ((p.payload.drop (2 ^ p.size)).take (2 ^ p.size))) = some m → (atomicOp p.op (2 ^ p.size) 0 0 0).isSome = true →
    exec (.atomic t p) s = .next (answer p .ok (readDram s (p.addr % 2 ^ 41) (2 ^ p.size)) []
      (writeDram (p.addr % 2 ^ 41) (leBytes m (2 ^ p.size)) (countTarget true p (2 ^ p.size) (tick t s))))) ∧
  (∀ t p s r c, p.dst = ownLoc s → p.resend = true → mget s.xn.executed (execKey p p.fseq) = some r →
    c ∈ [Instr.read t p, .write t p, .atomic t p] → exec c s = .next (sendXn p.src p.vc p.lc (.resp r) (tick t s))) ∧
  (∀ t fl fs s r, pickRemote (tick t s) fl fs 10000 true = some r →
    exec (.restoringReissue t fl fs) s = .next (sendWork (jobAt s (jobIdx r.job)).ctx (jobAt s (jobIdx r.job)).id r.layer r.operator r.pkt.dst r.pkt.vc r.pkt.lc
      (remoteMsg r r.pkt) (modRemote r (fun r => { r with restoring := false, sentAt := max s.time t, resent := false }) (tick t s)))) ∧
  (∀ t fl fs s r m, pickRemote (tick t s) fl fs 10000 false = some r → r.resent = false → m = remoteMsg r { r.pkt with resend := true } →
    exec (.remoteResend t fl fs) s = .next (resendXn r.port r.pkt.dst r.pkt.vc r.pkt.lc m
      (activity (jobAt s (jobIdx r.job)).ctx .xnTx (jobAt s (jobIdx r.job)).id r.layer r.operator (msgBytes m)
        (modRemote r (fun r => { r with resent := true }) (tick t s))))) ∧
  (∀ t fl fs s o m, pickRemote (tick t s) fl fs 10000 false = none → pickExu (tick t s) fl fs 10000 = some o → o.resent = false →
    m = XnMsg.exu o.ty { o.pkt with resend := true } →
    exec (.remoteResend t fl fs) s = .next (resendXn o.port o.hop 2 o.pkt.lc m
      (activity (jobAt s (jobIdx o.job)).ctx .xnTx (jobAt s (jobIdx o.job)).id (exuTags s o.ty o.pkt).1 (exuTags s o.ty o.pkt).2 (msgBytes m)
        { tick t s with xn := { s.xn with exuOut := s.xn.exuOut.map (fun x => if x == o then { x with resent := true } else x) } }))) ∧
  (∀ t fl fs s o m, pickRemote (tick t s) fl fs 10000 false = none → pickExu (tick t s) fl fs 10000 = none → pickColl (tick t s) fl fs 10000 = some o →
    o.resent = false → m = XnMsg.coll o.gid { o.pkt with resend := true } →
    exec (.remoteResend t fl fs) s = .next (resendXn o.port o.dst o.vc o.pkt.lc m
      (activity (jobAt s (jobIdx o.job)).ctx .xnTx (jobAt s (jobIdx o.job)).id o.layer o.operator (msgBytes m)
        { tick t s with xn := { s.xn with collOut := s.xn.collOut.map (fun x => if x == o then { x with resent := true } else x) } }))) ∧
  (∀ t fl fs s r, pickRemote (tick t s) fl fs 20000 false = some r → 0x40 ≤ fl →
    exec (.remoteTimeout t fl fs) s = .next (loseRemote r (tick t s))) ∧
  (∀ t fl fs s r, pickRemote (tick t s) fl fs 20000 false = some r → fl < 0x40 →
    exec (.remoteTimeout t fl fs) s = .next (beginAll (releaseFlow r.pkt.dst fl (loseTile fl 0 r.pkt.dst (tick t s))))) ∧
  (∀ t fl fs s o, pickRemote (tick t s) fl fs 20000 false = none → pickExu (tick t s) fl fs 20000 = some o →
    exec (.remoteTimeout t fl fs) s = .next (releaseFlow o.hop fl (loseExu (jobIdx o.job) 0 o.ty o.pkt
      { tick t s with xn := { s.xn with exuOut := s.xn.exuOut.filter (fun x => !(x == o)) } }))) ∧
  (∀ t fl fs s g q o, pickRemote (tick t s) fl fs 20000 false = none → pickExu (tick t s) fl fs 20000 = none → pickColl (tick t s) fl fs 20000 = some o →
    groupOfId s o.gid = some (g, q) →
    exec (.remoteTimeout t fl fs) s = .next (releaseFlow o.dst fl (lostTarget (jobIdx o.job) 0 o.dst (endCollOps false g .fabricTargetLost
      { tick t s with xn := { s.xn with collOut := s.xn.collOut.filter (fun x => !(x == o)) } })))) ∧
  (∀ t i f s, mget s.xn.faults i = some f → exec (.fabricFaultResend t i) s = .next (sendFault f (tick t s))) ∧
  (∀ t i s, s.sec.fmEid ≠ 0 → Answers (.fabricFaultAck t s.sec.fmEid i) s (fun u => u.xn = { s.xn with faults := mdel s.xn.faults i } ∧ changesOnly [.time, .xn] s u)) ∧
  (∀ t src s i j r, s.srv.jobs = [(i, j)] → j.present = true → j.resv.remotes = [r] → r.loc = src → s.coll.groups = [] →
    exec (.resetNotice t src) s = .next (freezeJob i 2 src .resetAborted (tick t s))) ∧
  (∀ t src s i j g q, s.srv.jobs = [(i, j)] → j.present = true → s.coll.groups = [(g, q)] → q.job = i → q.members.contains src = true → q.st = 1 →
    exec (.resetNotice t src) s = .next (freezeJob i 2 src .resetAborted (endCollOps false g .fabricTargetLost (tick t s)))) ∧
  (∀ t src s, (∀ e ∈ s.srv.jobs, e.2.present = false) → (∀ e ∈ s.coll.groups, e.2.members.contains src = false) →
    exec (.resetNotice t src) s = .next (tick t s)) ∧
  (∀ t sw n s, sw < 8 → n < 128 → sw * 128 + n ∉ s.xn.unreach →
    exec (.switchStateReport t sw [(n, false)]) s = .next { tick t s with xn := { s.xn with unreach := (sw * 128 + n) :: s.xn.unreach } }) ∧
  (∀ t sw reach s, sw < 8 → reach.length = 1 → (∀ e ∈ reach, e.1 < 128 ∧ e.2 = true) →
    Answers (.switchStateReport t sw reach) s (fun u => (∀ e ∈ reach, sw * 128 + e.1 ∉ u.xn.unreach) ∧
      (∀ k, k ∈ u.xn.unreach → k ∈ s.xn.unreach) ∧ changesOnly [.time, .xn] s u))

/-- Chapter 14: what a port does with what its link brings it, and with the writes of its registers. -/
def Obligations.PortsFollowTheirLinks : Prop :=
  (∀ t p f s s1, portUp (tick t s) p = true → p < 15 → flitGood f = true → f.kind = 0 →
    s1 = takeAck p f.ack (takeCredit p f.vc f.respPool f.credits (countGlobal (47 + p) 256 (tick t s))) → f.seq = (portOf s1 p).rxNext → (portOf s1 p).enc = false →
    exec (.flit t p f) s = .next (returnCredits p [(f.bodyVc, f.bodyResp)]
      (modPort p (fun p => { p with rxNext := (p.rxNext + 1) % 4096, discarding := false }) s1))) ∧
  (∀ t p f s s1, portUp (tick t s) p = true → p < 15 → flitGood f = true → f.kind = 0 →
    s1 = takeAck p f.ack (takeCredit p f.vc f.respPool f.credits (countGlobal (47 + p) 256 (tick t s))) → f.seq = (portOf s1 p).rxNext → (portOf s1 p).enc = true →
    exec (.flit t p f) s = .next (modPort p (fun p => { p with rxBlock := p.rxBlock + 1, rxOwed := p.rxOwed ++ [(f.bodyVc, f.bodyResp)] })
      (modPort p (fun p => { p with rxNext := (p.rxNext + 1) % 4096, discarding := false }) s1))) ∧
  (∀ t p f s s1, portUp (tick t s) p = true → p < 15 → flitGood f = true → f.kind = 0 →
    s1 = takeAck p f.ack (takeCredit p f.vc f.respPool f.credits (countGlobal (47 + p) 256 (tick t s))) → f.seq ≠ (portOf s1 p).rxNext →
    exec (.flit t p f) s = .next (sendNak p s1)) ∧
  (∀ t p f s, portUp (tick t s) p = true → p < 15 → flitGood f = true → f.kind = 1 →
    exec (.flit t p f) s = .next (takeAck p f.ack (takeCredit p f.vc f.respPool f.credits (countGlobal (47 + p) 256 (tick t s))))) ∧
  (∀ t p f s, portUp (tick t s) p = true → p < 15 → flitGood f = true → f.kind = 2 →
    exec (.flit t p f) s = .next (replay p f.ack (takeCredit p f.vc f.respPool f.credits (countGlobal (47 + p) 256 (tick t s))))) ∧
  (∀ t p f s, portUp (tick t s) p = true → p < 15 → flitGood f = false →
    exec (.flit t p f) s = .next (sendNak p (countGlobal (47 + p) 256 (tick t s)))) ∧
  (∀ t p a s, portUp (tick t s) p = true → exec (.nak t p a) s = .next (replay p a (tick t s))) ∧
  (∀ t p s, portUp (tick t s) p = true → (portOf s p).enc = true →
    exec (.tag t p true) s = .next (pumpPort p (returnCredits p (portOf s p).rxOwed (modPort p (fun p =>
      { p with rxNext := (p.rxNext + 1) % 4096, rxBlock := 0, rxOwed := [], tagFail := false, discarding := false }) (tick t s))))) ∧
  (∀ t p s, portUp (tick t s) p = true → (portOf s p).enc = true → (portOf s p).tagFail = false →
    exec (.tag t p false) s = .next (sendNak p (modPort p (fun p =>
      { p with tagFail := true, rxNext := (p.rxNext + 4096 - p.rxBlock) % 4096, rxBlock := 0, rxOwed := [] }) (tick t s)))) ∧
  (∀ t p s, portUp (tick t s) p = true → (portOf s p).enc = true → (portOf s p).tagFail = true →
    exec (.tag t p false) s = .next (stopPort p 0 (coffer 1 3 .portDown p 0 0 0 (tick t s)))) ∧
  (∀ t p s, portUp (tick t s) p = true → 8 ≤ ((portOf s p).replays.filter (fun r => decide (max s.time t ≤ r + 1000000))).length →
    exec (.replayRetrain t p) s = .next (stopPort p 1 (modPort p (fun p => { p with replays := [] }) (tick t s)))) ∧
  (∀ t p s, portUp (tick t s) p = true → exec (.fecLockLoss t p) s = .next (stopPort p 1 (tick t s))) ∧
  (∀ t p failed pa pp eo pe s s1, p < 15 → (portOf s p).disable = false → (portOf s p).st ≠ 2 →
    s1 = modPort p (fun p => { p with laneFail := failed, peer := pa }) (tick t s) → partnerOk s1 p pa pp = true → widthOf failed ≠ 0 →
    ((portOf s p).encReq || pe) = false ∨ eo = true →
    exec (.portTrainingDone t p failed pa pp eo pe) s = .next (portComesUp p (widthOf failed) ((portOf s p).encReq || pe) s1)) ∧
  (∀ t p passed s left, p < 15 → (portOf s p).laneFail ≠ [] → (portOf s p).disable = false → (portOf s p).miswire = false → (portOf s p).st = 2 →
    left = (portOf s p).laneFail.filter (fun l => !passed.contains l) → widthOf left ≠ 0 →
    exec (.laneRetry t p passed) s = .next (pumpPort p (evalCapacity (modPort p (fun p => { p with width := widthOf left })
      (modPort p (fun p => { p with laneFail := left }) (tick t s)))))) ∧
  (∀ t p passed s left, p < 15 → (portOf s p).laneFail ≠ [] → (portOf s p).disable = false → (portOf s p).miswire = false → (portOf s p).st = 0 →
    left = (portOf s p).laneFail.filter (fun l => !passed.contains l) → widthOf left ≠ 0 →
    exec (.laneRetry t p passed) s = .next (stopPort p 1 (modPort p (fun p => { p with laneFail := left }) (tick t s)))) ∧
  (∀ t p s, (portOf s p).enc = true → exec (.linkRekey t p) s = .next (modPort p (fun p => { p with keyTime := max s.time t, blockCtr := 0 }) (tick t s))) ∧
  (∀ t p v s, p < 15 → regsAnswer s = true → exec (.portDisable t p v) s = .next (writePortCtrl p v (tick t s))) ∧
  (∀ t v s, regsAnswer s = true → s.hi.lock = false →
    [bits v.toNat 5 0, bits v.toNat 11 6, bits v.toNat 17 12, bits v.toNat 23 18, bits v.toNat 29 24].all (fun w => decide (1 ≤ w)) = true →
    70 * (bits v.toNat 5 0 + bits v.toNat 11 6 + bits v.toNat 17 12 + bits v.toNat 23 18 + bits v.toNat 29 24) ≤ (bits v.toNat 5 0 + bits v.toNat 11 6) * 100 →
    Answers (.xnVcWeightWrite t v) s (fun u => u.xn = { s.xn with w1 := bits v.toNat 5 0, w2 := bits v.toNat 11 6, w3 := bits v.toNat 17 12, w4 := bits v.toNat 23 18, w5 := bits v.toNat 29 24 } ∧ changesOnly [.time, .xn] s u))

/-- R382 to R389, R391: caps, the lease, the readings and the control pass. The regulators of R479 reach their setpoints. -/
def Obligations.CapsAndClocksFollow : Prop :=
  (∀ t v s, regsAnswer s = true → wattsOk (v.toNat % 4096) = true → exec (.pwCapWrite t v) s = .next (capMoves (effCap s) { tick t s with pw := { s.pw with cap := max (v.toNat % 4096) s.pw.floor, capClamp := s.pw.capClamp || decide (v.toNat % 4096 < s.pw.floor) } })) ∧
  (∀ t v s, regsAnswer s = true → wattsOk (v.toNat % 4096) = false →
    Answers (.pwCapWrite t v) s (fun u => u.pw = { s.pw with cfgErr := true } ∧ changesOnly [.time, .pw] s u)) ∧
  (∀ t v s, regsAnswer s = true → s.hi.lock = false → exec (.pwFloorWrite t v) s = .next (setFloor (v.toNat % 4096) (tick t s))) ∧
  (∀ t v s, regsAnswer s = true → v.toNat % 8 ≤ 4 → exec (.pwPhaseWrite t v) s =
    .next (controlPass false { tick t s with pw := { s.pw with phase := v.toNat % 8 } })) ∧
  (∀ t v s, regsAnswer s = true → v.toNat % 128 ≤ 96 →
    exec (.pwOpWrite t 0 v) s = .next (controlPass false { tick t s with pw := { s.pw with op0 := v.toNat % 128 } }) ∧
    exec (.pwOpWrite t 4 v) s = .next (controlPass false { tick t s with pw := { s.pw with op4 := v.toNat % 128 } })) ∧
  (∀ t c f s, fromRack s s.sec.rmEid = true → wattsOk c = true → s.pw.floor ≤ c → exec (.setCap t s.sec.rmEid c f) s =
    .next (capMoves (effCap s) { tick t s with pw := { s.pw with rackCap := c, rackEmergency := false } })) ∧
  (∀ t eid s, fromRack s eid = true → Answers (.heartbeat t eid) s (fun u =>
    u.pw = { s.pw with lease := true, hadLease := true, leaseEnd := max s.time t + 2000000000 } ∧ changesOnly [.time, .pw] s u)) ∧
  (∀ t s, s.pw.lease = true → s.pw.leaseEnd ≤ max s.time t → exec (.leaseExpiry t) s = .next (capMoves (effCap s) (powerEvent 5 (coffer 7 1 .leaseExpiry 0 0 0 0
    { tick t s with pw := { s.pw with lease := false, leaseExpired := true, rackCap := s.pw.floor, rackEmergency := false } })))) ∧
  (∀ t s, s.pw.pwrwarn = false → s.pw.st = .run → exec (.pwrwarnNAssert t) s = .next (controlPass true (capMoves (effCap s) (powerEvent 0 (coffer 7 1 .pwrwarn 0 0 0 0
    { tick t s with pw := { s.pw with pwrwarn := true, pwrwarnCap := true } }))))) ∧
  (∀ t s, exec (.pwrwarnClear t) s = .next (capMoves (effCap s) { tick t s with pw := { s.pw with pwrwarn := false, pwrwarnCap := false } })) ∧
  (∀ t s, s.srv.jobs = [] → s.ops.live = [] → ∃ v, exec (.schedulingWindow t) s = .next (controlPass false v) ∧ v.fab.bg = s.fab.bgNext ∧ v.fab.bgUsed = [] ∧
    v.fab.windowStart = max s.time t ∧ v.fab.entitle = []) ∧
  (∀ t n s, n < 4 → (fieldSt s n).droopGuard ≠ 0 → (fieldSt s n).lastDroopWindow + 600000000000 ≤ max s.time t → exec (.guardBandLower t n) s =
    .next (controlPass false (modField n (fun x => { x with droopGuard := x.droopGuard - 5, lastDroopWindow := max s.time t }) (tick t s)))) ∧
  (∀ t r w s, s.pw.integrating = false → ∃ v, exec (.railReading t [(r, some w)]) s = .next (controlPass false v) ∧ v.pw.rails = mset s.pw.rails r (w, 0) ∧
    v.pw.power = sat 16 (sumOf (fun r => railWatts r.2) v.pw.rails) ∧ changesOnly [.time, .pw] s v) ∧
  (∀ t n s, n < 4 → exec (.railSetpointReached t n) s = .next (controlPass false (modField n (fun x => { x with railMv := x.setpoint }) (tick t s))))

/-- R330, R394 to R396, R481, R482: the thermal limits, the trip and what the board's supplies do. -/
def Obligations.ThermalEventsProtect : Prop :=
  (∀ t fits sensors s w v, w = forEach (fun f s => match fits[f]? with | some x => fitField f x (sensors.getD f 0) s | none => s) (List.range 4) (tick t s) →
    v = { w with pw := { w.pw with tjMax := sat 16 (sensors.foldl max 0) } } →
    exec (.thermalModelUpdate t fits sensors) s = .next (setEmergency v.pw.capEmergency (anyBelow v) (keepFloors ((List.range 4).map (floorCodeOf (tick t s))) v))) ∧
  (∀ t n s, n < 4 → exec (.sensor105 t n) s = .next (setEmergency s.pw.capEmergency true (coffer 8 3 .sensor105 n 0 0 0 (modField n (fun x => { x with belowF := true })
    (forEach (fun n s => modIsl n (fun x => { x with halved := true }) s) (allIslands.filter (fun m => fieldOf m == n)) (tick t s)))))) ∧
  (∀ t s, s.pw.thermtrip = false → s.pw.aonUp = true → s.pw.st ≠ .off → Answers (.thermtrip t) s (fun u => u.pw = { s.pw with thermtrip := true, tripLatch := true, clocksStopped := true, regPg := false, oscRdy := false, memRdy := false, logicRdy := false } ∧ u.cof.frozen = true ∧ changesOnly [.time, .pw, .cof] s u)) ∧
  (∀ t s, s.pw.tripLatch = true → s.pw.coldWaits = false → Answers (.thermtripRelease t) s (fun u =>
    u.pw = { s.pw with tripLatch := false, coldWaits := false } ∧ changesOnly [.time, .pw] s u)) ∧
  (∀ t s, s.pw.tripLatch = true → s.pw.coldWaits = true → exec (.thermtripRelease t) s = .next (coldBoot false (strapsOf s.id)
    { tick t s with pw := { s.pw with tripLatch := false, coldWaits := false } })) ∧
  (∀ t r s, Answers (.sequenceFault t r) s (fun u => u.pw = { s.pw with resetHeld := true, faultN := true, regPg := false, oscRdy := false, memRdy := false, logicRdy := false, aonUp := true } ∧ changesOnly [.time, .pw, .cof] s u)) ∧
  (∀ t s, Answers (.aonSupplyRemoved t) s (fun u => u.pw.st = .off ∧ u.pw.aonUp = false ∧ u.pw.logicRdy = false ∧
    u = { afterPowerLoss false (tick t s) with pw := u.pw })) ∧
  (∀ t v s, regsAnswer s = true → 10 ≤ v.toNat % 128 → v.toNat % 128 ≤ 100 → jobResident s = false →
    Answers (.fbSchedCtrlWrite t v) s (fun u => u.fab = { s.fab with bgNext := v.toNat % 128 } ∧ changesOnly [.time, .fab] s u)) ∧
  (∀ t v s, regsAnswer s = true → v.toNat % 128 < 10 ∨ 100 < v.toNat % 128 →
    Answers (.fbSchedCtrlWrite t v) s (fun u => u.fab = { s.fab with schedCfgErr := true } ∧ changesOnly [.time, .fab] s u))

/-- R372 to R374, R377 to R381: the states of Table 16.1 and the moves between them. -/
def Obligations.PowerStatesChange : Prop :=
  (∀ t s, regsAnswer s = true → exec (.requestRun t) s = .next (requestRun { tick t s with pw := { s.pw with req := 0 } })) ∧
  (∀ t s, regsAnswer s = true → s.pw.st = .run →
    Answers (.requestSleep t) s (fun u => u.pw = { s.pw with req := 2, pending := true, target := .sleep } ∧ changesOnly [.time, .pw] s u) ∧
    Answers (.requestDeep t) s (fun u => u.pw = { s.pw with req := 3, pending := true, target := .deep } ∧ changesOnly [.time, .pw] s u) ∧
    Answers (.requestOff t) s (fun u => u.pw = { s.pw with req := 4, pending := true, target := .off } ∧ changesOnly [.time, .pw] s u)) ∧
  (∀ t eid s, fromRack s eid = true → s.pw.thermtrip = false → s.pw.aonUp = true → s.sec.failedBoot = false → s.pw.resetHeld = false → s.pw.st = .run →
    Answers (.setState t eid 2) s (fun u => u.pw = { s.pw with pending := true, target := .sleep } ∧ changesOnly [.time, .pw] s u)) ∧
  (∀ t s, s.pw.st = .run → jobResident (tick t s) = false → s.ops.live = [] → s.pw.lastBusy + 1000000 ≤ max s.time t →
    Answers (.idleEntry t) s (fun u => u.pw = { s.pw with st := .idle } ∧ changesOnly [.time, .pw, .pst] s u)) ∧
  (∀ t s, s.pw.pending = true → s.pw.st = .run ∨ s.pw.st = .idle → s.pw.target = .sleep → sleepReady (tick t s) = true →
    exec (.stateEntry t) s = .next (inState .sleep (portsDown (railsOff (tick t s))))) ∧
  (∀ t s, s.pw.pending = true → s.pw.st = .run ∨ s.pw.st = .sleep → s.pw.target = .off → deepReady (tick t s) = true →
    exec (.stateEntry t) s = .next (inState .off (afterPowerLoss false (tick t s)))) ∧
  (∀ t s, s.pw.st = .exiting → s.pw.exitStep = 0 → s.pw.coolant = true → s.pw.coolantOk1s = true →
    Answers (.stateExit t 1) s (fun u => u.pw = { s.pw with exitStep := 1, exitRetried := false, regPg := true } ∧ changesOnly [.time, .pw] s u)) ∧
  (∀ t s, s.pw.st = .exiting → s.pw.exitStep = 2 → Answers (.stateExit t 3) s (fun u => u.pw.memRdy = true ∧ u.pw.exitStep = 3 ∧ changesOnly [.time, .pw] s u)) ∧
  (∀ t s, s.pw.st = .exiting → s.pw.exitStep = 3 → exec (.stateExit t 4) s = .next (leaveLow { tick t s with pw := { s.pw with exitStep := 4, exitRetried := false } })) ∧
  (∀ t k s, s.pw.st = .exiting → k = s.pw.exitStep + 1 → k ≤ 4 → s.pw.exitRetried = false →
    Answers (.exitStepTimeout t k) s (fun u => u.pw = { s.pw with exitRetried := true } ∧ changesOnly [.time, .pw] s u)) ∧
  (∀ t k s, s.pw.st = .exiting → k = s.pw.exitStep + 1 → k ≤ 4 → s.pw.exitRetried = true →
    Answers (.exitStepTimeout t k) s (fun u => u.pw = { s.pw with faultN := true, exitStep := 9 } ∧ changesOnly [.time, .pw, .cof] s u)) ∧
  (∀ t s, s.pw.aonUp = true → s.pw.resetHeld = false → s.pw.thermtrip = false → exec (.wakeN t) s = .next (wake (tick t s))) ∧
  (∀ t s, s.pw.st = .sleep ∨ s.pw.st = .deep → exec (.sidebandAddressMatch t (0x48 + s.id.slot) true) s = .next (startExit (tick t s))) ∧
  (∀ t s, hostRuns s = true → Answers (.pmeTurnOff t) s (fun u => u.pw = { s.pw with pmeOff := true } ∧ u.out = .pmeAck :: s.out ∧ changesOnly [.time, .pw, .out] s u))

/-- R392 and R393: the order of Table 16.8 and what HALTED holds. -/
def Obligations.CoolantStopsHalt : Prop :=
  (∀ t s, s.pw.st = .run → s.pw.aonUp = true → s.srv.jobs = [] → s.srv.reqs = [] →
    Answers (.coolantStop t) s (fun u => u.pw.st = .halted ∧ u.pw.coolant = false ∧ u.pw.coolantOk1s = false ∧ u.pw.clocksStopped = true ∧
      u.pw.stopAt = max s.time t ∧ u.cof.frozen = true)) ∧
  (∀ t s s1 s2 s3, s.pw.st = .run ∨ s.pw.st = .idle → s.pw.aonUp = true →
    s1 = freezeCoffer 3 (coffer 7 3 .coolantStop 0 0 0 0 { tick t s with pw := { s.pw with coolant := false, coolantOk1s := false } }) →
    s2 = forEach (fun k s => declineWaiting k .coolantStop s) (reqKeys (stopSteps { s1 with pw := { s1.pw with stopAt := s1.time } }) (fun r => r.st == .detected))
      (stopSteps { s1 with pw := { s1.pw with stopAt := s1.time } }) →
    s3 = powerEvent 3 (portsDown (railsOff (forEach (fun i s => if (jobAt s i).pendingAdmit then failAdmit i .coolantStop s
      else if (jobAt s i).present then teardownJob false i .coolantStop s else s) (List.range 16) s2))) →
    exec (.coolantStop t) s = .next { s3 with pw := { s3.pw with st := .halted, regPg := false, oscRdy := false, memRdy := false, logicRdy := false } }) ∧
  (∀ t s, s.pw.st = .sleep ∨ s.pw.st = .deep → s.pw.aonUp = true →
    exec (.coolantStop t) s = .next (coffer 7 3 .coolantStop 0 0 0 0 { tick t s with pw := { s.pw with coolant := false, coolantOk1s := false } })) ∧
  (∀ t s, s.pw.st = .halted → s.pw.coolant = false →
    exec (.clockStopTimeout t) s = .next (coffer 2 3 .coolantStop 3 0 0 0 { tick t s with pw := { s.pw with clocksStopped := true } })) ∧
  (∀ t s, s.pw.st = .halted → s.pw.stopAt + 5000000 ≤ max s.time t → exec (.completionWriteTimeout t) s = .next
    (forEach (fun e s => endReq true e.1 .coolantStop (coffer 7 3 .unwritten 0 e.2.h.job e.2.h.modelCtx e.2.h.reqId s)) (openReqs (tick t s)) (tick t s))) ∧
  (∀ t s, Answers (.coolantRestored t) s (fun u => u.pw = { s.pw with coolant := true, coolantOk1s := true, coolantAt := max s.time t } ∧ changesOnly [.time, .pw] s u))

/-- Chapter 17: the life cycle, the key slots, the unlock and the mailbox of Sirdoyx. -/
def Obligations.MailboxCommandsComplete : Prop :=
  (∀ t s, MailboxTakes 1 s → exec (.getNonce t) s = .next (mboxEnd 1 .complete (leBytes (Config.draw s.draws % 2 ^ 256) 32)
    (advanceDraw { tick t s with sec := { s.sec with nonce := some (Config.draw s.draws % 2 ^ 256), nonceAt := max s.time t } }))) ∧
  (∀ t s, s.sec.nonceAt + 600000000000 ≤ max s.time t → exec (.nonceExpiry t) s = .next (useNonce (tick t s))) ∧
  (∀ t k s, MailboxTakes 2 s → s.sec.life = .deployed → s.pw.st = .run → tokenShape s k = true → k.signer = 2 → slotOk s 2 2 2 = true → k.sigOk = true →
    k.deviceIdOk = true → nonceOk (tick t s) k.nonce = true → (k.level = 3 → tenantData (tick t s) = false) →
    Answers (.unlock t k) s (fun u => u.sec.life = .unlocked ∧ u.sec.level = k.level ∧ u.sec.unlockEnd = max s.time t + 1000000000 * k.lifetime ∧
      u.sec.nonce = none ∧ u.sec.mboxResult = 0 ∧ changesOnly [.time, .sec, .cof, .life] s u)) ∧
  (∀ t s, MailboxTakes 3 s → s.sec.life = .unlocked → Answers (.relock t true) s (fun u => u.sec.life = .deployed ∧ u.sec.level = 0 ∧ u.sec.mboxResult = 0)) ∧
  (∀ t s, s.sec.life = .unlocked → s.sec.unlockEnd ≤ max s.time t → exec (.unlockLifetimeEnd t) s = .next (lapse (tick t s))) ∧
  (∀ t s, MailboxTakes 4 s → s.sec.life = .blank → slotOk s 1 1 1 = true → Answers (.provision t true) s (fun u =>
    u.sec.life = .provisioned ∧ u.sec.level = 3 ∧ u.sec.seedFused = true ∧ u.sec.mboxResult = 0 ∧ u.draws = s.draws + 2)) ∧
  (∀ t keys s, MailboxTakes 5 s → s.sec.life = .provisioned → (keys.getD 2 none).isSome = true → ((keys.take 8).drop 3).any (·.isSome) = true →
    Answers (.deploy t keys) s (fun u => u.sec.life = .deployed ∧ u.sec.level = 0 ∧ u.sec.slots = (deployKeys keys s).sec.slots ∧ u.sec.mboxResult = 0)) ∧
  (∀ t n key nonce s, MailboxTakes 6 s → 3 ≤ n → n ≤ 7 → mget s.sec.slots n = none → slotOk s 2 2 2 = true → nonceOk (tick t s) nonce = true →
    Answers (.keyAdd t n key nonce true) s (fun u => u.sec.slots = mset s.sec.slots n { digest := some key } ∧ u.sec.nonce = none ∧ u.sec.mboxResult = 0)) ∧
  (∀ t n nonce s, MailboxTakes 7 s → n ≤ 7 → slotOk s n 0 7 = true → slotOk s (revoker n) 1 2 = true → nonceOk (tick t s) nonce = true →
    Answers (.keyRevoke t n nonce (revoker n) true) s (fun u => u.sec.slots = mmod s.sec.slots n (fun k => { k with revoked := true }) ∧ u.sec.nonce = none ∧
      u.sec.mboxResult = 0)) ∧
  (∀ t nonce sg s, MailboxTakes 8 s → retireOk (tick t s) nonce sg true = true → s.srv.jobs = [] →
    Answers (.retire t nonce sg true) s (fun u => u.sec.life = .retired ∧ u.sec.seedBlown = true ∧ u.mem.dram = [] ∧ u.sec.mboxResult = 0)) ∧
  (∀ t n first s, MailboxTakes 9 s → 6 ≤ n → n ≤ 8 → Answers (.logRead t n first) s (fun u =>
    u.sec.logOut = (((logOf s n).entries.reverse.drop first).take 64, (logOf s n).wrapped) ∧ u.sec.mboxResult = 0)) ∧
  (∀ t chain s, MailboxTakes 10 s → s.sec.life = .provisioned → Answers (.certWrite t chain) s (fun u => u.sec.cert = chain ∧ u.sec.mboxResult = 0))

/-- R405 to R408: SPDM and its measurements; R412, R414: the debug levels and the TAP. -/
def Obligations.SpdmAndTapAnswer : Prop :=
  (∀ t s, sirdoyxRuns s = true → exec (.getVersion t) s = .next (sendMgmt (.spdm "VERSION" [0x1200]) (tick t s)) ∧
    exec (.getCapabilities t) s = .next (advanceDraw (sendMgmt (.spdm "CAPABILITIES" [Config.draw s.draws]) (tick t s)))) ∧
  (∀ t hash s, sirdoyxRuns s = true → s.sec.life ≠ .retired → bit hash 5 = true →
    exec (.negotiateAlgorithms t hash 1 2) s = .next (sendMgmt (.spdm "ALGORITHMS" [0x20, 1, 2]) (tick t s))) ∧
  (∀ t o n s, sirdoyxRuns s = true → s.sec.life ≠ .retired →
    exec (.getDigests t) s = .next (sendMgmt (.spdm "DIGESTS" [(Config.sha3 0 (certNats s)).toNat]) (tick t s)) ∧
    exec (.getCertificate t 0 o n) s = .next (sendMgmt (.spdm "CERTIFICATE" (((certNats s).drop o).take n)) (tick t s))) ∧
  (∀ t nonce s, sirdoyxRuns s = true → s.sec.life ≠ .retired → hasIdentity s = true →
    exec (.challenge t 0 nonce) s = .next (advanceDraw (sendMgmt (.spdm "CHALLENGE_AUTH" [nonce, Config.draw s.draws]) (tick t s)))) ∧
  (∀ t i s, sirdoyxRuns s = true → s.sec.life ≠ .retired → 1 ≤ i → i ≤ 8 →
    exec (.getMeasurements t i) s = .next (sendMgmt (.spdm "MEASUREMENTS" [i, (measurement s i).toNat]) (tick t s))) ∧
  (∀ t n s, sirdoyxRuns s = true → s.sec.life ≠ .retired → hasIdentity s = true → n ∉ s.sec.sessions → n ∉ s.sec.handshakes →
    Answers (.keyExchange t 2 n) s (fun u => u.sec.handshakes = n :: s.sec.handshakes ∧
      u.out = .mgmt (.spdm "KEY_EXCHANGE_RSP" [n, Config.draw s.draws]) :: s.out ∧ changesOnly [.time, .sec, .draws, .out] s u)) ∧
  (∀ t n s, sirdoyxRuns s = true → s.sec.life ≠ .retired → n ∈ s.sec.handshakes → Answers (.finish t n true) s (fun u =>
    u.sec.sessions = n :: s.sec.sessions ∧ n ∉ u.sec.handshakes ∧ u.out = .mgmt (.spdm "FINISH_RSP" [n]) :: s.out)) ∧
  (∀ t n s, sirdoyxRuns s = true → s.sec.life ≠ .retired → n ∈ s.sec.sessions → Answers (.endSession t n) s (fun u =>
    n ∉ u.sec.sessions ∧ u.out = .mgmt (.spdm "END_SESSION_ACK" [n]) :: s.out)) ∧
  (∀ t n st k s, sirdoyxRuns s = true → s.sec.life ≠ .retired → n ∈ s.sec.sessions → Answers (.ideKm t n st k) s (fun u =>
    mget u.sec.ideStreams st = some k ∧ u.out = .mgmt (.spdm "IDE_KM" [st]) :: s.out)) ∧
  (∀ t op s, s.pw.st ≠ .off → s.pw.aonUp = true → tapNeeds op ≤ tapLevel s → exec (.tapInstruction t op) s = .next (tapRun op (tick t s))) ∧
  (∀ t op s, s.pw.st ≠ .off → s.pw.aonUp = true → tapLevel s < tapNeeds op → isTransaction op = false →
    Answers (.tapInstruction t op) s (fun u => u.sec = { s.sec with tapIr := .bypass } ∧ changesOnly [.time, .sec] s u)) ∧
  (∀ t v s, regsAnswer s = true → sirdoyxRuns s = true → s.sec.life = .deployed → v.toNat % 4 ≤ 1 →
    Answers (.pfLevelWrite t v) s (fun u => u.sec = { s.sec with pfLevel := v.toNat % 4, level := v.toNat % 4 } ∧ changesOnly [.time, .sec] s u))

/-- R280, R287, R191, R428, R433, R469, R473: what writes of these registers do. -/
def Obligations.RegisterWritesTakeEffect : Prop :=
  (∀ t v s, regsAnswer s = true → bit v.toNat 31 = true → Answers (.setupLock t v) s (fun u => u.hi.lock = true ∧ changesOnly [.time, .hi, .lock] s u)) ∧
  (∀ t c r v s, regsAnswer s = true → setupThere (tick t s) c = true → (ctxOf s c).enable = false → r < 18 →
    exec (.ringSetupWrite t c (0x100 + 16 * r + 8) v) s = .next (setRingCfg c r v (tick t s))) ∧
  (∀ t c r v s, regsAnswer s = true → setupThere (tick t s) c = true → (ctxOf s c).enable = true → r < 18 →
    exec (.ringSetupWrite t c (0x100 + 16 * r + 8) v) s = .next (modSetup c (fun x => { x with cfgErr := true }) (tick t s))) ∧
  (∀ t v s, regsAnswer s = true → s.hi.lock = false → 1 ≤ v.toNat % 512 → v.toNat % 512 ≤ 256 → bit v.toNat 30 = false ∨ 16 ≤ v.toNat % 512 →
    Answers (.hiDbCtrlWrite t v) s (fun u => u.hi = { s.hi with dbEnable := bit v.toNat 31, fullScan := bit v.toNat 30, period := v.toNat % 512 } ∧
      changesOnly [.time, .hi] s u)) ∧
  (∀ t v s, regsAnswer s = true → v.toNat % 512 = 0 ∨ 256 < v.toNat % 512 → Answers (.hiDbCtrlWrite t v) s (fun u =>
    u.hi = { s.hi with dbCfgErr := true } ∧ changesOnly [.time, .hi] s u)) ∧
  (∀ t v s, regsAnswer s = true → s.hi.lock = false → 256 ≤ v.toNat % 4096 → v.toNat % 4096 ≤ 2048 → sumReserves s + v.toNat % 4096 ≤ 7168 + s.mem.hiRsv →
    Answers (.mmCabHiRsvWrite t v) s (fun u => u.mem = { s.mem with hiRsv := v.toNat % 4096 } ∧ changesOnly [.time, .mem] s u)) ∧
  (∀ t n v s, regsAnswer s = true → n < 16 → exec (.tdAddrOnlyWrite t n v) s = .next (writeAddrOnly n v (tick t s))) ∧
  (∀ t v s, regsAnswer s = true → Answers (.advisoryClear t v) s (fun u => u.td.advisory = s.td.advisory.filter (fun c => !bit (v.toNat % 128) c) ∧
    changesOnly [.time, .td] s u)) ∧
  (∀ t off n s, regsAnswer s = true → s.pw.memRdy = true → ∃ v, exec (.bar2Read t off n) s =
    .next (advanceDraw (emit (.barRead ((List.range n).map (fun i => bar2Byte v off i))) v)) ∧ v.mem = s.mem ∧ v.draws = s.draws) ∧
  (∀ t off d s, regsAnswer s = true → s.pw.memRdy = true → exec (.bar2Write t off d) s =
    .next (bar2Advise off d.length (bar2Clean off d.length (bar2Store off d (bar2Count true off d.length (tick t s))))))

/-- R5 to R7: how an access finds its register, and the two halves of a 64-bit register. -/
def Obligations.AccessesReachTheirRegisters : Prop :=
  (∀ t f off v s, reaches (tick t s) f off 4 = true → aligned off 4 = true →
    exec (.registerWrite t f off 4 v) s = .next (write32 f off (BitVec.ofNat 32 (lo32 v.toNat)) (tick t s))) ∧
  (∀ t f off v s, reaches (tick t s) f off 8 = true → aligned off 8 = true → ¬ (f = .pf ∧ lockedPair off = true) →
    exec (.registerWrite t f off 8 v) s = .next (write32 f (off + 4) (BitVec.ofNat 32 (hi32 v.toNat)) (write32 f off (BitVec.ofNat 32 (lo32 v.toNat)) (tick t s)))) ∧
  (∀ t f off v s, reaches (tick t s) f off 4 = true → aligned off 4 = true →
    exec (.pairLoWrite t f off v) s = .next (write32 f off v (tick t s)) ∧ exec (.pairHiWrite t f off v) s = .next (write32 f off v (tick t s))) ∧
  (∀ t c r v s, c < 512 → reaches (tick t s) (.vf c) (0x200 + 16 * r) 4 = true → r < 18 → (ctxOf s c).enable = false →
    exec (.pairLoWrite t (.vf c) (0x200 + 16 * r) v) s = .next (holdLo (fnOf c) (0x200 + 16 * r) v (tick t s))) ∧
  (∀ t f off s, reaches (tick t s) f off 4 = true → aligned off 4 = true → pairLo f off = true →
    exec (.pairLoRead t f off) s = .next (emit (.regRead f (BitVec.ofNat 64 (readWord (tick t s) f off).toNat))
      { tick t s with hi := { s.hi with latched := mset s.hi.latched (pairKey (fnNo f) off) (readWord (tick t s) f (off + 4)) } })) ∧
  (∀ t f off s v, reaches (tick t s) f off 4 = true → aligned off 4 = true → pairLo f off = false → pairHi f off = true →
    mget s.hi.latched (pairKey (fnNo f) (off - 4)) = some v →
    exec (.pairHiRead t f off) s = .next (emit (.regRead f (BitVec.ofNat 64 v.toNat))
      { tick t s with hi := { s.hi with latched := mdel s.hi.latched (pairKey (fnNo f) (off - 4)) } })) ∧
  (∀ t f off n v s, aligned off n = false → exec (.misalignedAccess t f true off n v) s = .next (tick t s) ∧
    (reaches (tick t s) f off n = true → exec (.misalignedAccess t f false off n v) s = .next (emit (.regRead f 0) (tick t s))))

/-- R444 to R446, R448, R449, R457 and Table 19.1: the resets, the boot and a fatal error. -/
def Obligations.ResetsRestore : Prop :=
  (∀ t vf s, vfEnabled s vf = true → ctxHere s vf = false → exec (.vfFlr t vf) s = .next (resetFunc (fnOf vf) (endPoll (tick t s)))) ∧
  (∀ t vf s, vfEnabled s vf = true → ctxHere s vf = true → exec (.vfFlr t vf) s = .next (resetFunc (fnOf vf) (endPoll (flrCtx vf (tick t s))))) ∧
  (∀ t s, s.id.bifurcated = false → s.hi.numVfs0 = 0 → s.hi.polling = false → s.ctxs.all (fun e => e.1 == adminCtx) = true →
    Answers (.vfEnableClear t 0) s (fun u => u.hi.numVfs0 = 0 ∧ changesOnly [.time, .hi] s u)) ∧
  (∀ t vf s v, (linkVfs (tick t s) 0).filter (fun v => ctxHere s v || vfEnabled (tick t s) v) = [vf] → ctxHere s vf = true →
    v = endPoll (resetFunc (fnOf vf) (dropCtx vf (flrCtx vf (tick t s)))) →
    exec (.vfEnableClear t 0) s = .next { v with hi := { v.hi with numVfs0 := 0 } }) ∧
  (∀ t n s, s.id.bifurcated = false → s.hi.numVfs0 = 0 → Answers (.vfEnableSet t 0 n) s (fun u =>
    u.hi = { s.hi with numVfs0 := min n 512 } ∧ changesOnly [.time, .hi] s u)) ∧
  (∀ t c s, resettable s = true → s.sec.failedBoot = false → s.hi.fatalPending = false → c = 1 ∨ c = 2 ∨ c = 3 →
    exec (.hotReset t c) s = .next (bigReset c false (tick t s))) ∧
  (∀ t st s, resettable s = true → exec (.warmReset t st) s = .next (warmReset st (tick t s))) ∧
  (∀ t fo st s, ¬ (s.pw.resetHeld = true ∧ s.pw.aonUp = true) → ¬ (s.pw.tripLatch = true ∧ s.pw.aonUp = true) →
    exec (.coldReset t fo st) s = .next (coldBoot fo st (tick t s))) ∧
  (∀ t fo st s, s.pw.resetHeld = false → s.pw.tripLatch = true → s.pw.aonUp = true → Answers (.coldReset t fo st) s (fun u =>
    u.pw = { s.pw with coldWaits := true } ∧ u.id = sampleStraps st s.id ∧ changesOnly [.time, .id, .pw] s u)) ∧
  (∀ t k s, s.sec.failedBoot = false → s.pw.st = .off → s.pw.bootRetried = false → Answers (.bootStepTimeout t k) s (fun u =>
    u.pw = { s.pw with bootRetried := true, bootStep := k } ∧ changesOnly [.time, .pw] s u)) ∧
  (∀ t k s, s.sec.failedBoot = false → s.pw.st = .off → s.pw.bootRetried = true → Answers (.bootStepTimeout t k) s (fun u =>
    u.sec.failedBoot = true ∧ u.pw.faultN = true ∧ u.pw.bootStep = k ∧ u.pw.logicRdy = false ∧ changesOnly [.time, .pw, .sec, .cof] s u)) ∧
  (∀ t n hf s, exec (.fatalError t n hf) s = .next (fatal n hf (tick t s)))

/-- R278, R303 to R305: failed accesses of the host, coalesced interrupts and device time. -/
def Obligations.HostErrorsHaveTheirEffects : Prop :=
  (∀ t c r s, mgetD (ctxOf s c).fetching r 0 ≠ 0 → exec (.hostReadError t (.descriptor c r)) s = .next (descFails c r (tick t s))) ∧
  (∀ t k s r, mget s.srv.reqs k = some r → r.st = .detected → exec (.hostReadError t (.reqBuffer k)) s = .next (declineWaiting k .malformed (tick t s))) ∧
  (∀ t k s r, mget s.srv.reqs k = some r → r.st ≠ .detected → exec (.hostReadError t (.reqBuffer k)) s = .next (endReq false k .malformed (tick t s))) ∧
  (∀ t h s s1, Begins (max s.time t) h (tick t s) s1 →
    exec (.hostReadError t (.cmdBuffer h)) s = .next (endPoll (final (cmdOf h) .malformed 0 0 s1))) ∧
  (∀ t c r s, 8 ≤ r → r ≤ 17 → exec (.hostWriteError t (.record c r)) s = .next (ringError c r (tick t s))) ∧
  (∀ t k s r, mget s.srv.reqs k = some r → exec (.hostWriteError t (.reqDest k)) s = .next (hostRingsError r.h.ctx (reqBufferFails k (tick t s)))) ∧
  (∀ t c s, exec (.hostWriteError t (.other c)) s = .next (hostRingsError c (tick t s))) ∧
  (∀ t c r s, ctxHere s c = true → (mgetD (ctxOf s c).rings r {}).coalTime ≠ 0 → mgetD (ctxOf s c).unsignalled r 0 ≠ 0 →
    mgetD (ctxOf s c).unsignalledAt r 0 + (mgetD (ctxOf s c).rings r {}).coalTime * 1000 ≤ max s.time t →
    exec (.coalTimer t c r) s = .next (signalRing c r (tick t s))) ∧
  (∀ t m s, s.hi.ptmEnable = true → s.hi.ptmSet = false → enabledCtxs s = [] → Answers (.ptmDialogue t true m) s (fun u =>
    u.time = m ∧ u.hi.sync = true ∧ u.hi.ptmSet = true ∧ changesOnly [.time, .hi] s u)) ∧
  (∀ t m s, s.hi.ptmEnable = true → s.hi.ptmSet = true → Answers (.ptmDialogue t true m) s (fun u => u.time = max s.time t ∧
    u.hi.sync = decide (apart (max s.time t) m ≤ 1000) ∧ u.hi.ptmFails = 0 ∧ changesOnly [.time, .hi] s u)) ∧
  (∀ t m s, s.hi.ptmEnable = true → s.hi.ptmFails < 2 → Answers (.ptmDialogue t false m) s (fun u => u.hi.ptmFails = s.hi.ptmFails + 1 ∧
    u.hi.sync = s.hi.sync ∧ u.time = max s.time t ∧ changesOnly [.time, .hi] s u))

/-- The frame of the commands of requests, contexts, jobs and steps: what each may change, and nothing else. The cited rules give the effects. -/
def Obligations.TheServingFrame : Prop :=
  (∀ a b c, Touches (.generate a b c) [.time, .hi, .ctxs, .mem, .srv, .mdl, .exu, .xn, .pw, .td, .out, .dram]) ∧
  (∀ a b c, Touches (.score a b c) [.time, .hi, .ctxs, .mem, .srv, .mdl, .exu, .xn, .pw, .td, .out, .dram]) ∧
  (∀ a b c d, Touches (.embedGather a b c d) [.time, .hi, .ctxs, .mem, .srv, .mdl, .exu, .xn, .pw, .td, .cof, .out, .dram]) ∧
  (∀ a b c d e f g, Touches (.jobAdmit a b c d e f g) [.time, .hi, .ctxs, .mem, .fab, .srv, .mdl, .exu, .xn, .pw, .td, .cof, .out, .dram, .pst]) ∧
  (∀ a b, Touches (.jobEnd a b) [.time, .hi, .ctxs, .mem, .fab, .srv, .ops, .mdl, .exu, .coll, .xn, .pw, .td, .cof, .out, .dram, .scratch]) ∧
  (∀ a b, Touches (.jobTeardown a b) [.time, .hi, .ctxs, .mem, .fab, .srv, .ops, .mdl, .exu, .coll, .xn, .pw, .td, .cof, .out, .dram, .scratch]) ∧
  (∀ a b c, Touches (.seqEnd a b c) [.time, .hi, .ctxs, .mem, .srv, .xn, .td, .out, .dram]) ∧
  (∀ a b c d, Touches (.ctxCreate a b c d) [.time, .hi, .ctxs, .mem, .td, .out]) ∧
  (∀ a b c, Touches (.ctxDestroy a b c) [.time, .hi, .ctxs, .mem, .td, .out]) ∧
  (∀ a b c, Touches (.reqCancel a b c) [.time, .hi, .ctxs, .mem, .srv, .mdl, .exu, .xn, .td, .out, .dram]) ∧
  (∀ a b c, Touches (.stopBlockReturn a b c) [.time, .hi, .ctxs, .mem, .srv, .mdl, .exu, .xn, .pw, .td, .out, .dram]) ∧
  (∀ a b, Touches (.stopBlockTimeout a b) [.time, .hi, .ctxs, .srv, .td, .out]) ∧
  (∀ a b c d, Touches (.prefixLookupDone a b c d) [.time, .hi, .ctxs, .mem, .fab, .srv, .mdl, .exu, .xn, .td, .out, .dram]) ∧
  (∀ a b c d, Touches (.stepDispatch a b c d) [.time, .hi, .ctxs, .mem, .fab, .srv, .ops, .mdl, .exu, .coll, .xn, .pw, .td, .cof, .out, .dram, .scratch]) ∧
  (∀ a b c d, Touches (.stepBoundary a b c d) [.time, .hi, .ctxs, .mem, .fab, .srv, .ops, .mdl, .exu, .coll, .xn, .pw, .td, .cof, .out, .dram, .scratch]) ∧
  (∀ a b, Touches (.stepWatchdog a b) [.time, .hi, .ctxs, .mem, .fab, .srv, .ops, .mdl, .exu, .coll, .xn, .pw, .td, .cof, .out, .dram, .scratch]) ∧
  (∀ a b, Touches (.deadlineMarginTimer a b) [.time, .hi, .ctxs, .mem, .fab, .srv, .mdl, .exu, .xn, .td, .out, .dram]) ∧
  (∀ a b, Touches (.beAllocationResume a b) [.time, .hi, .ctxs, .mem, .srv, .xn, .td, .out, .dram]) ∧
  (∀ a b c d, Touches (.claim a b c d) [.time, .srv, .xn, .td, .out]) ∧
  (∀ a b c d, Touches (.claimAnswer a b c d) [.time, .hi, .ctxs, .mem, .fab, .srv, .mdl, .exu, .xn, .pw, .td, .cof, .out, .dram, .pst]) ∧
  (∀ a b, Touches (.claimTimeout a b) [.time, .hi, .ctxs, .mem, .srv, .xn, .td, .out]) ∧
  (∀ a, Touches (.poll a) [.time, .hi, .ctxs, .td, .out]) ∧
  (∀ a b c, Touches (.summaryReadReturn a b c) [.time, .hi, .ctxs, .td, .out]) ∧
  (∀ a b c, Touches (.fetchaddComplete a b c) [.time, .hi, .ctxs, .td, .out]) ∧
  (∀ a b c d, Touches (.doorbellBlockRead a b c d) [.time, .hi, .ctxs, .mem, .srv, .mdl, .exu, .xn, .td, .out, .dram]) ∧
  (∀ a b, Touches (.hostReadError a b) [.time, .hi, .ctxs, .mem, .fab, .srv, .ops, .mdl, .exu, .xn, .pw, .sec, .td, .out, .dram]) ∧
  (∀ a b, Touches (.hostWriteError a b) [.time, .hi, .ctxs, .mem, .srv, .mdl, .exu, .xn, .td, .out, .dram]) ∧
  (∀ a b c, Touches (.coalTimer a b c) [.time, .hi, .ctxs, .out]) ∧
  (∀ a b c, Touches (.ptmDialogue a b c) [.time, .hi, .td, .out]) ∧
  (∀ a b, Touches (.contextEnable a b) [.time, .hi, .ctxs, .ops, .td, .out]) ∧
  (∀ a b, Touches (.contextDisable a b) [.time, .ctxs]) ∧
  (∀ a b, Touches (.contextReset a b) [.time, .hi, .ctxs, .mem, .srv, .ops, .mdl, .exu, .xn, .td, .out, .dram]) ∧
  (∀ a b c d, Touches (.claimRelease a b c d) [.time, .srv])

/-- The frame of the commands of expert records, embedding updates and collectives: what each may change, and nothing else. The cited rules give the effects. -/
def Obligations.TheExchangeFrame : Prop :=
  (∀ a b c d e, Touches (.embRowUpdate a b c d e) [.time, .hi, .ctxs, .mem, .srv, .mdl, .exu, .xn, .td, .cof, .out, .dram]) ∧
  (∀ a b c, Touches (.embGenCommit a b c) [.time, .hi, .ctxs, .mem, .srv, .mdl, .exu, .xn, .td, .cof, .out, .dram]) ∧
  (∀ a b c, Touches (.collGroupCreate a b c) [.time, .hi, .ctxs, .mem, .fab, .srv, .ops, .mdl, .exu, .coll, .xn, .pw, .td, .cof, .out, .dram, .scratch]) ∧
  (∀ a b, Touches (.collGroupDestroy a b) [.time, .hi, .ctxs, .coll, .xn, .td, .out]) ∧
  (∀ a b c, Touches (.barrier a b c) [.time, .hi, .ctxs, .mem, .fab, .srv, .ops, .mdl, .exu, .coll, .xn, .pw, .td, .cof, .out, .dram, .scratch]) ∧
  (∀ a b c, Touches (.reduceSmall a b c) [.time, .hi, .ctxs, .mem, .fab, .srv, .ops, .mdl, .exu, .coll, .xn, .pw, .td, .cof, .out, .dram, .scratch]) ∧
  (∀ a b c, Touches (.allReduce a b c) [.time, .hi, .ctxs, .mem, .fab, .srv, .ops, .mdl, .exu, .coll, .xn, .pw, .td, .cof, .out, .dram, .scratch]) ∧
  (∀ a b c, Touches (.allGather a b c) [.time, .hi, .ctxs, .mem, .fab, .srv, .ops, .mdl, .exu, .coll, .xn, .pw, .td, .cof, .out, .dram, .scratch]) ∧
  (∀ a b c, Touches (.reduceScatter a b c) [.time, .hi, .ctxs, .mem, .fab, .srv, .ops, .mdl, .exu, .coll, .xn, .pw, .td, .cof, .out, .dram, .scratch]) ∧
  (∀ a b, Touches (.dispatch a b) [.time, .hi, .ctxs, .mem, .fab, .srv, .ops, .mdl, .exu, .coll, .xn, .pw, .td, .cof, .out, .dram, .scratch]) ∧
  (∀ a b, Touches (.close a b) [.time, .hi, .ctxs, .mem, .fab, .srv, .ops, .mdl, .exu, .coll, .xn, .pw, .td, .cof, .out, .dram, .scratch]) ∧
  (∀ a b, Touches (.exuReturn a b) [.time, .hi, .ctxs, .mem, .fab, .srv, .ops, .mdl, .exu, .coll, .xn, .pw, .td, .cof, .out, .dram, .scratch]) ∧
  (∀ a b, Touches (.gather a b) [.time, .hi, .ctxs, .mem, .srv, .mdl, .exu, .xn, .td, .cof, .out, .dram]) ∧
  (∀ a b, Touches (.pooled a b) [.time, .hi, .ctxs, .mem, .fab, .srv, .ops, .mdl, .exu, .coll, .xn, .pw, .td, .cof, .out, .dram, .scratch]) ∧
  (∀ a b, Touches (.gone a b) [.time, .hi, .ctxs, .mem, .srv, .mdl, .exu, .xn, .td, .cof, .out, .dram]) ∧
  (∀ a b, Touches (.update a b) [.time, .hi, .ctxs, .mem, .srv, .mdl, .exu, .xn, .td, .cof, .out, .dram]) ∧
  (∀ a b, Touches (.commit a b) [.time, .hi, .ctxs, .mem, .srv, .mdl, .exu, .xn, .td, .cof, .out, .dram]) ∧
  (∀ a b, Touches (.settle a b) [.time, .hi, .ctxs, .mem, .srv, .mdl, .exu, .xn, .td, .cof, .out, .dram]) ∧
  (∀ a b, Touches (.done a b) [.time, .hi, .ctxs, .mem, .srv, .mdl, .exu, .xn, .td, .cof, .out, .dram]) ∧
  (∀ a b, Touches (.resp a b) [.time, .hi, .ctxs, .mem, .fab, .srv, .ops, .mdl, .exu, .coll, .xn, .pw, .td, .cof, .out, .dram, .scratch]) ∧
  (∀ a b c, Touches (.remoteTimeout a b c) [.time, .hi, .ctxs, .mem, .fab, .srv, .mdl, .exu, .coll, .xn, .td, .cof, .out, .dram]) ∧
  (∀ a b, Touches (.join a b) [.time, .hi, .ctxs, .mem, .fab, .srv, .ops, .mdl, .exu, .coll, .xn, .pw, .td, .cof, .out, .dram, .scratch]) ∧
  (∀ a b c, Touches (.abandon a b c) [.time, .hi, .ctxs, .coll, .xn, .td, .out]) ∧
  (∀ a b c, Touches (.fault a b c) [.time, .hi, .ctxs, .mem, .fab, .srv, .ops, .mdl, .exu, .coll, .xn, .pw, .td, .cof, .out, .dram, .scratch]) ∧
  (∀ a b c, Touches (.collectiveChunk a b c) [.time, .hi, .ctxs, .mem, .fab, .srv, .ops, .mdl, .exu, .coll, .xn, .pw, .td, .cof, .out, .dram, .scratch])

/-- The frame of the commands of memory, tiles and partitions: what each may change, and nothing else. The cited rules give the effects. -/
def Obligations.TheMemoryFrame : Prop :=
  (∀ a b c, Touches (.tileMove a b c) [.time, .hi, .ctxs, .mem, .srv, .mdl, .exu, .xn, .td, .cof, .out, .dram]) ∧
  (∀ a b c d e f g, Touches (.partCreate a b c d e f g) [.time, .hi, .ctxs, .mem, .td, .out, .dram]) ∧
  (∀ a b c d e f, Touches (.partResize a b c d e f) [.time, .hi, .ctxs, .mem, .fab, .srv, .ops, .mdl, .xn, .pw, .td, .out, .dram]) ∧
  (∀ a b c d, Touches (.lineCheckFail a b c d) [.time, .hi, .ctxs, .mem, .srv, .mdl, .exu, .xn, .pw, .td, .cof, .out, .dram]) ∧
  (∀ a b c d, Touches (.frameRestored a b c d) [.time, .hi, .ctxs, .mem, .srv, .mdl, .exu, .xn, .td, .cof, .out, .dram]) ∧
  (∀ a b, Touches (.restoreFailed a b) [.time, .hi, .ctxs, .mem, .srv, .mdl, .exu, .xn, .td, .cof, .out, .dram]) ∧
  (∀ a b c d, Touches (.retrainSlice a b c d) [.time, .mem, .fab, .td, .cof]) ∧
  (∀ a b c, Touches (.subchannelRetry a b c) [.time, .hi, .ctxs, .mem, .srv, .mdl, .exu, .xn, .pw, .td, .cof, .out, .dram]) ∧
  (∀ a b c d, Touches (.tilePieceComplete a b c d) [.time, .hi, .ctxs, .mem, .fab, .srv, .ops, .mdl, .exu, .coll, .xn, .pw, .td, .cof, .out, .dram, .scratch]) ∧
  (∀ a, Touches (.cabinetDrawerGrant a) [.time, .hi, .ctxs, .mem, .srv, .mdl, .exu, .xn, .td, .cof, .out, .dram]) ∧
  (∀ a b, Touches (.eviction a b) [.time, .hi, .ctxs, .mem, .srv, .xn, .td, .out]) ∧
  (∀ a b, Touches (.ageSample a b) [.time, .mem, .xn, .td, .out]) ∧
  (∀ a b, Touches (.reclaimResume a b) [.time, .hi, .ctxs, .mem, .srv, .ops, .mdl, .xn, .td, .out, .dram]) ∧
  (∀ a b, Touches (.resizeRetagDone a b) [.time, .hi, .ctxs, .mem, .fab, .srv, .ops, .pw, .td, .out, .dram]) ∧
  (∀ a b c, Touches (.frameMigration a b c) [.time, .hi, .ctxs, .mem, .srv, .ops, .mdl, .xn, .td, .out, .dram]) ∧
  (∀ a b c, Touches (.invalidationAck a b c) [.time, .mem, .srv]) ∧
  (∀ a b c d e, Touches (.dropGrantRequest a b c d e) [.time, .ctxs, .mem, .srv, .xn, .td, .out]) ∧
  (∀ a b c d e, Touches (.kvDrop a b c d e) [.time, .ctxs, .mem, .srv, .xn, .td, .out]) ∧
  (∀ a b c d e f g, Touches (.sequencePublication a b c d e f g) [.time, .mem, .srv])

/-- The frame of the commands of models, plates and Dovetail: what each may change, and nothing else. The cited rules give the effects. -/
def Obligations.TheModelFrame : Prop :=
  (∀ a b c d e f, Touches (.kvMigrate a b c d e f) [.time, .hi, .ctxs, .srv, .ops, .xn, .td, .out]) ∧
  (∀ a b c d, Touches (.plateLoad a b c d) [.time, .hi, .ctxs, .ops, .td, .out]) ∧
  (∀ a b c, Touches (.plateUnload a b c) [.time, .hi, .ctxs, .fab, .td, .out]) ∧
  (∀ a b c d e, Touches (.tableReload a b c d e) [.time, .hi, .ctxs, .srv, .td, .out]) ∧
  (∀ a b c, Touches (.modelCreate a b c) [.time, .hi, .ctxs, .mdl, .td, .out]) ∧
  (∀ a b, Touches (.modelDestroy a b) [.time, .hi, .ctxs, .mem, .srv, .mdl, .td, .out, .dram]) ∧
  (∀ a b c d e f g, Touches (.epochInstall a b c d e f g) [.time, .hi, .ctxs, .ops, .mdl, .td, .out]) ∧
  (∀ a b c d e, Touches (.detokLoad a b c d e) [.time, .hi, .ctxs, .mdl, .sec, .td, .cof, .out]) ∧
  (∀ a b c d e f, Touches (.dovetailTransfer a b c d e f) [.time, .fab, .cof, .scratch]) ∧
  (∀ a b c d, Touches (.counterIncrement a b c d) [.time, .hi, .ctxs, .mem, .fab, .srv, .ops, .mdl, .exu, .coll, .xn, .pw, .td, .cof, .out, .dram, .scratch]) ∧
  (∀ a b c d e f g h i j, Touches (.dovetailRecalibration a b c d e f g h i j) [.time, .hi, .ctxs, .mem, .fab, .srv, .ops, .mdl, .exu, .coll, .xn, .pw, .td, .cof, .out, .dram, .scratch]) ∧
  (∀ a b c d e, Touches (.islandBringUp a b c d e) [.time, .hi, .ctxs, .mem, .fab, .srv, .ops, .mdl, .exu, .coll, .xn, .pw, .td, .cof, .out, .dram, .scratch]) ∧
  (∀ a b c d, Touches (.islandBringUpTimeout a b c d) [.time, .hi, .ctxs, .mem, .fab, .srv, .ops, .mdl, .exu, .coll, .xn, .pw, .td, .cof, .out, .dram, .scratch]) ∧
  (∀ a b, Touches (.fllLock a b) [.time, .fab]) ∧
  (∀ a b, Touches (.droop a b) [.time, .fab]) ∧
  (∀ a b c, Touches (.droopRelease a b c) [.time, .fab, .td]) ∧
  (∀ a b c, Touches (.plateLoadVerified a b c) [.time, .hi, .ctxs, .fab, .srv, .ops, .pw, .td, .cof, .out]) ∧
  (∀ a b c, Touches (.islandConfigAck a b c) [.time, .hi, .ctxs, .fab, .srv, .ops, .mdl, .xn, .pw, .td, .out, .scratch]) ∧
  (∀ a b c d e, Touches (.islandConfigTimeout a b c d e) [.time, .hi, .ctxs, .mem, .fab, .srv, .ops, .mdl, .exu, .coll, .xn, .pw, .td, .cof, .out, .dram, .scratch]) ∧
  (∀ a b, Touches (.plateResident a b) [.time, .hi, .ctxs, .fab, .srv, .ops, .mdl, .xn, .pw, .sec, .td, .draws, .out, .scratch]) ∧
  (∀ a b, Touches (.plateRemoval a b) [.time, .hi, .ctxs, .mem, .fab, .srv, .mdl, .exu, .coll, .xn, .pw, .td, .out, .dram, .scratch]) ∧
  (∀ a b c, Touches (.reloadPayloadWritten a b c) [.time, .srv]) ∧
  (∀ a b c d e f g, Touches (.reloadVerified a b c d e f g) [.time, .hi, .ctxs, .fab, .srv, .sec, .td, .out]) ∧
  (∀ a b c, Touches (.migrateCopyDone a b c) [.time, .hi, .ctxs, .mem, .fab, .srv, .ops, .xn, .pw, .td, .out, .dram]) ∧
  (∀ a b c, Touches (.manifestVerified a b c) [.time, .hi, .ctxs, .mem, .fab, .srv, .ops, .mdl, .xn, .pw, .sec, .td, .cof, .out, .dram]) ∧
  (∀ a b, Touches (.areaAllocated a b) [.time, .hi, .ctxs, .mem, .fab, .srv, .ops, .mdl, .xn, .pw, .sec, .td, .out, .dram]) ∧
  (∀ a b c d e, Touches (.shardFetched a b c d e) [.time, .hi, .ctxs, .mem, .fab, .srv, .ops, .mdl, .xn, .pw, .sec, .td, .out, .dram]) ∧
  (∀ a b, Touches (.installDeadline a b) [.time, .hi, .ctxs, .mem, .fab, .srv, .ops, .mdl, .xn, .pw, .td, .out, .dram]) ∧
  (∀ a b c d e f, Touches (.prepared a b c d e f) [.time, .hi, .ctxs, .mem, .fab, .srv, .ops, .mdl, .xn, .pw, .sec, .td, .out, .dram]) ∧
  (∀ a b c d, Touches (.no a b c d) [.time, .hi, .ctxs, .mem, .fab, .srv, .ops, .mdl, .xn, .pw, .sec, .td, .out, .dram]) ∧
  (∀ a b c d, Touches (.installCommit a b c d) [.time, .ops, .mdl, .xn, .td, .out]) ∧
  (∀ a b c, Touches (.committedReply a b c) [.time, .hi, .ctxs, .fab, .srv, .ops, .mdl, .xn, .pw, .sec, .td, .out]) ∧
  (∀ a b c, Touches (.release a b c) [.time, .hi, .ctxs, .fab, .srv, .ops, .mdl, .xn, .pw, .sec, .td, .out]) ∧
  (∀ a b c, Touches (.releaseAck a b c) [.time, .mdl]) ∧
  (∀ a b c d, Touches (.abort a b c d) [.time, .hi, .ctxs, .mem, .fab, .srv, .ops, .mdl, .pw, .td, .out, .dram]) ∧
  (∀ a b, Touches (.installQueryTimer a b) [.time, .xn, .td, .out]) ∧
  (∀ a b c, Touches (.installQuery a b c) [.time, .xn, .td, .out]) ∧
  (∀ a b, Touches (.committedReplyTimeout a b) [.time, .hi, .ctxs, .mem, .fab, .srv, .ops, .mdl, .xn, .pw, .td, .out, .dram]) ∧
  (∀ a b c, Touches (.coordinatorUnreachable a b c) [.time, .hi, .ctxs, .mem, .fab, .srv, .ops, .mdl, .xn, .pw, .sec, .td, .out, .dram]) ∧
  (∀ a b c d, Touches (.epochDrained a b c d) [.time, .hi, .ctxs, .mem, .fab, .srv, .ops, .mdl, .xn, .pw, .sec, .td, .out, .dram]) ∧
  (∀ a b c, Touches (.epochFree a b c) [.time, .hi, .ctxs, .mem, .fab, .srv, .ops, .mdl, .xn, .pw, .sec, .td, .out, .dram]) ∧
  (∀ a, Touches (.beaconLost a) [.time, .fab, .pw, .td, .out]) ∧
  (∀ a, Touches (.beaconReturn a) [.time, .fab, .pw])

/-- The frame of the commands of the fabric: what each may change, and nothing else. The cited rules give the effects. -/
def Obligations.TheFabricFrame : Prop :=
  (∀ a b, Touches (.read a b) [.time, .ctxs, .xn, .td, .out]) ∧
  (∀ a b, Touches (.write a b) [.time, .ctxs, .mem, .srv, .xn, .td, .out, .dram]) ∧
  (∀ a b, Touches (.atomic a b) [.time, .ctxs, .mem, .xn, .td, .out, .dram]) ∧
  (∀ a b c, Touches (.restoringReissue a b c) [.time, .ctxs, .xn, .td, .out]) ∧
  (∀ a b c, Touches (.remoteResend a b c) [.time, .ctxs, .xn, .td, .out]) ∧
  (∀ a b, Touches (.fabricFaultResend a b) [.time, .out]) ∧
  (∀ a b c, Touches (.fabricFaultAck a b c) [.time, .xn]) ∧
  (∀ a b, Touches (.resetNotice a b) [.time, .hi, .ctxs, .mem, .srv, .mdl, .exu, .coll, .xn, .td, .cof, .out, .dram]) ∧
  (∀ a b c, Touches (.switchStateReport a b c) [.time, .xn]) ∧
  (∀ a b c, Touches (.flit a b c) [.time, .xn, .td, .out]) ∧
  (∀ a b c, Touches (.nak a b c) [.time, .xn, .td, .out]) ∧
  (∀ a b c, Touches (.tag a b c) [.time, .hi, .ctxs, .mem, .srv, .mdl, .exu, .xn, .td, .cof, .out, .dram]) ∧
  (∀ a b, Touches (.replayRetrain a b) [.time, .hi, .ctxs, .mem, .srv, .mdl, .exu, .xn, .td, .out, .dram]) ∧
  (∀ a b, Touches (.fecLockLoss a b) [.time, .hi, .ctxs, .mem, .srv, .mdl, .exu, .xn, .td, .out, .dram]) ∧
  (∀ a b c d e f g, Touches (.portTrainingDone a b c d e f g) [.time, .hi, .ctxs, .mem, .srv, .mdl, .exu, .xn, .td, .cof, .out, .dram]) ∧
  (∀ a b c, Touches (.laneRetry a b c) [.time, .hi, .ctxs, .mem, .srv, .mdl, .exu, .xn, .td, .out, .dram]) ∧
  (∀ a b, Touches (.linkRekey a b) [.time, .xn]) ∧
  (∀ a b, Touches (.xnVcWeightWrite a b) [.time, .hi, .xn]) ∧
  (∀ a b c, Touches (.portDisable a b c) [.time, .hi, .ctxs, .mem, .srv, .mdl, .exu, .xn, .td, .out, .dram])

/-- The frame of the commands of long operations and telemetry: what each may change, and nothing else. The cited rules give the effects. -/
def Obligations.TheOperationFrame : Prop :=
  (∀ a b c d, Touches (.selfTest a b c d) [.time, .hi, .ctxs, .mem, .fab, .srv, .ops, .mdl, .exu, .xn, .pw, .td, .cof, .out, .dram, .pst]) ∧
  (∀ a b c, Touches (.scrubPass a b c) [.time, .hi, .ctxs, .ops, .td, .out]) ∧
  (∀ a b c d e f, Touches (.fwStage a b c d e f) [.time, .hi, .ctxs, .fab, .srv, .ops, .pw, .sec, .td, .out]) ∧
  (∀ a b c, Touches (.secureErase a b c) [.time, .hi, .ctxs, .ops, .td, .out]) ∧
  (∀ a b c, Touches (.opSuspend a b c) [.time, .hi, .ctxs, .ops, .td, .out]) ∧
  (∀ a b c, Touches (.opResume a b c) [.time, .hi, .ctxs, .mem, .fab, .srv, .ops, .mdl, .xn, .pw, .sec, .td, .out, .dram]) ∧
  (∀ a b c, Touches (.opCancel a b c) [.time, .hi, .ctxs, .mem, .fab, .srv, .ops, .mdl, .xn, .pw, .td, .out, .dram, .scratch]) ∧
  (∀ a b c, Touches (.opQuery a b c) [.time, .hi, .ctxs, .td, .out]) ∧
  (∀ a b c d e f, Touches (.traceSetup a b c d e f) [.time, .hi, .ctxs, .td, .out]) ∧
  (∀ a b c d e f, Touches (.counterFilter a b c d e f) [.time, .hi, .ctxs, .td, .out]) ∧
  (∀ a b c d, Touches (.layerReport a b c d) [.time, .hi, .ctxs, .td, .out]) ∧
  (∀ a b c, Touches (.tensorWatch a b c) [.time, .hi, .ctxs, .td, .out]) ∧
  (∀ a b c, Touches (.watchCancel a b c) [.time, .hi, .ctxs, .td, .out]) ∧
  (∀ a b c, Touches (.traceDrop a b c) [.time, .ctxs, .srv]) ∧
  (∀ a b c, Touches (.watchExpiry a b c) [.time, .hi, .ctxs, .td, .out]) ∧
  (∀ a b c d e f g h, Touches (.backgroundInterval a b c d e f g h) [.time, .hi, .ctxs, .mem, .fab, .srv, .ops, .mdl, .exu, .coll, .xn, .pw, .td, .cof, .out, .dram, .scratch, .pst]) ∧
  (∀ a b c, Touches (.advisoryAck a b c) [.time, .td]) ∧
  (∀ a b c, Touches (.cofferSnapshot a b c) [.time, .cof, .draws, .out]) ∧
  (∀ a b c, Touches (.cofferRelease a b c) [.time, .td, .cof]) ∧
  (∀ a b, Touches (.quiesceMet a b) [.time, .hi, .ctxs, .mem, .fab, .srv, .ops, .mdl, .exu, .xn, .pw, .td, .cof, .out, .dram, .pst]) ∧
  (∀ a b, Touches (.secureEraseDone a b) [.time, .hi, .ctxs, .mem, .fab, .srv, .ops, .pw, .td, .cof, .out, .dram]) ∧
  (∀ a b c d, Touches (.selfTestDone a b c d) [.time, .hi, .ctxs, .mem, .fab, .srv, .ops, .mdl, .exu, .coll, .xn, .pw, .td, .cof, .out, .dram, .scratch]) ∧
  (∀ a b, Touches (.scrubPassDone a b) [.time, .hi, .ctxs, .fab, .srv, .ops, .pw, .td, .out]) ∧
  (∀ a b, Touches (.fwStageDone a b) [.time, .hi, .ctxs, .fab, .srv, .ops, .pw, .sec, .td, .out])

/-- The frame of the commands of security: what each may change, and nothing else. The cited rules give the effects. -/
def Obligations.TheSecurityFrame : Prop :=
  (∀ a, Touches (.getVersion a) [.time, .out]) ∧
  (∀ a, Touches (.getCapabilities a) [.time, .draws, .out]) ∧
  (∀ a b c d, Touches (.negotiateAlgorithms a b c d) [.time, .out]) ∧
  (∀ a, Touches (.getDigests a) [.time, .out]) ∧
  (∀ a b c d, Touches (.getCertificate a b c d) [.time, .out]) ∧
  (∀ a b c, Touches (.challenge a b c) [.time, .draws, .out]) ∧
  (∀ a b, Touches (.getMeasurements a b) [.time, .out]) ∧
  (∀ a b c, Touches (.keyExchange a b c) [.time, .sec, .draws, .out]) ∧
  (∀ a b c, Touches (.finish a b c) [.time, .sec, .out]) ∧
  (∀ a b, Touches (.endSession a b) [.time, .sec, .out]) ∧
  (∀ a b c d, Touches (.ideKm a b c d) [.time, .sec, .out]) ∧
  (∀ a, Touches (.getNonce a) [.time, .sec, .draws, .mbox]) ∧
  (∀ a, Touches (.nonceExpiry a) [.time, .sec]) ∧
  (∀ a b, Touches (.unlock a b) [.time, .sec, .cof, .life, .mbox]) ∧
  (∀ a b, Touches (.relock a b) [.time, .sec, .cof, .life, .mbox]) ∧
  (∀ a, Touches (.unlockLifetimeEnd a) [.time, .sec, .cof, .life]) ∧
  (∀ a b, Touches (.provision a b) [.time, .sec, .cof, .draws, .life, .mbox]) ∧
  (∀ a b, Touches (.deploy a b) [.time, .sec, .cof, .life, .mbox]) ∧
  (∀ a b c d e, Touches (.keyAdd a b c d e) [.time, .sec, .cof, .mbox]) ∧
  (∀ a b c d e, Touches (.keyRevoke a b c d e) [.time, .sec, .cof, .mbox]) ∧
  (∀ a b c d, Touches (.retire a b c d) [.time, .hi, .ctxs, .mem, .fab, .srv, .ops, .mdl, .exu, .coll, .xn, .pw, .sec, .td, .cof, .out, .dram, .scratch, .life, .mbox]) ∧
  (∀ a b c, Touches (.logRead a b c) [.time, .sec, .draws, .mbox]) ∧
  (∀ a b, Touches (.certWrite a b) [.time, .sec, .mbox]) ∧
  (∀ a b, Touches (.pfLevelWrite a b) [.time, .sec, .cof, .life]) ∧
  (∀ a b, Touches (.tapInstruction a b) [.time, .mem, .fab, .sec, .draws, .out, .dram, .scratch])

/-- The frame of the commands of resets, power, thermal and electrical events: what each may change, and nothing else. The cited rules give the effects. -/
def Obligations.ThePowerFrame : Prop :=
  (∀ a, Touches (.schedulingWindow a) [.time, .hi, .ctxs, .mem, .fab, .srv, .ops, .mdl, .exu, .xn, .pw, .td, .out, .dram]) ∧
  (∀ a b, Touches (.guardBandLower a b) [.time, .hi, .ctxs, .mem, .fab, .srv, .mdl, .exu, .xn, .td, .out, .dram]) ∧
  (∀ a b, Touches (.railReading a b) [.time, .hi, .ctxs, .mem, .fab, .srv, .mdl, .exu, .xn, .pw, .td, .cof, .out, .dram]) ∧
  (∀ a b c, Touches (.thermalModelUpdate a b c) [.time, .hi, .ctxs, .mem, .fab, .srv, .mdl, .exu, .xn, .pw, .td, .cof, .out, .dram]) ∧
  (∀ a b, Touches (.sensor105 a b) [.time, .hi, .ctxs, .mem, .fab, .srv, .mdl, .exu, .xn, .pw, .td, .cof, .out, .dram]) ∧
  (∀ a, Touches (.thermtrip a) [.time, .pw, .cof]) ∧
  (∀ a, Touches (.thermtripRelease a) [.time, .id, .hi, .ctxs, .mem, .fab, .srv, .ops, .mdl, .exu, .coll, .xn, .pw, .sec, .td, .cof, .dram, .scratch, .lock, .life, .mbox, .pst]) ∧
  (∀ a, Touches (.idleEntry a) [.time, .pw, .pst]) ∧
  (∀ a, Touches (.stateEntry a) [.time, .hi, .ctxs, .mem, .fab, .srv, .ops, .mdl, .exu, .coll, .xn, .pw, .sec, .td, .cof, .out, .dram, .scratch, .lock, .life, .mbox, .pst]) ∧
  (∀ a b, Touches (.stateExit a b) [.time, .hi, .ctxs, .mem, .fab, .srv, .ops, .mdl, .exu, .xn, .pw, .sec, .td, .cof, .out, .dram, .lock, .pst]) ∧
  (∀ a b, Touches (.exitStepTimeout a b) [.time, .pw, .cof]) ∧
  (∀ a, Touches (.pwrwarnNAssert a) [.time, .hi, .ctxs, .mem, .fab, .srv, .mdl, .exu, .xn, .pw, .td, .cof, .out, .dram]) ∧
  (∀ a, Touches (.pwrwarnClear a) [.time, .hi, .ctxs, .mem, .fab, .srv, .mdl, .exu, .xn, .pw, .td, .cof, .out, .dram]) ∧
  (∀ a, Touches (.leaseExpiry a) [.time, .hi, .ctxs, .mem, .fab, .srv, .mdl, .exu, .xn, .pw, .td, .cof, .out, .dram]) ∧
  (∀ a, Touches (.coolantStop a) [.time, .hi, .ctxs, .mem, .fab, .srv, .ops, .mdl, .exu, .coll, .xn, .pw, .td, .cof, .out, .dram, .scratch, .pst]) ∧
  (∀ a, Touches (.clockStopTimeout a) [.time, .pw, .cof]) ∧
  (∀ a, Touches (.completionWriteTimeout a) [.time, .hi, .ctxs, .mem, .srv, .mdl, .exu, .xn, .td, .cof, .out, .dram]) ∧
  (∀ a, Touches (.coolantRestored a) [.time, .pw]) ∧
  (∀ a, Touches (.wakeN a) [.time, .id, .hi, .ctxs, .mem, .fab, .srv, .ops, .mdl, .exu, .coll, .xn, .pw, .sec, .td, .cof, .dram, .scratch, .lock, .life, .mbox, .pst]) ∧
  (∀ a b c, Touches (.sidebandAddressMatch a b c) [.time, .pw, .pst]) ∧
  (∀ a, Touches (.pmeTurnOff a) [.time, .pw, .out]) ∧
  (∀ a b c d, Touches (.setCap a b c d) [.time, .hi, .ctxs, .mem, .fab, .srv, .mdl, .exu, .xn, .pw, .td, .cof, .out, .dram]) ∧
  (∀ a b, Touches (.heartbeat a b) [.time, .pw]) ∧
  (∀ a b c, Touches (.setState a b c) [.time, .hi, .ctxs, .mem, .fab, .srv, .ops, .mdl, .xn, .pw, .sec, .td, .out, .dram, .pst]) ∧
  (∀ a, Touches (.requestRun a) [.time, .hi, .ctxs, .mem, .fab, .srv, .ops, .mdl, .xn, .pw, .sec, .td, .out, .dram, .pst]) ∧
  (∀ a, Touches (.requestSleep a) [.time, .hi, .ctxs, .mem, .fab, .srv, .ops, .mdl, .xn, .pw, .sec, .td, .out, .dram, .pst]) ∧
  (∀ a, Touches (.requestDeep a) [.time, .hi, .ctxs, .mem, .fab, .srv, .ops, .mdl, .xn, .pw, .sec, .td, .out, .dram, .pst]) ∧
  (∀ a, Touches (.requestOff a) [.time, .hi, .ctxs, .mem, .fab, .srv, .ops, .mdl, .xn, .pw, .sec, .td, .out, .dram, .pst]) ∧
  (∀ a b, Touches (.pwCapWrite a b) [.time, .hi, .ctxs, .mem, .fab, .srv, .mdl, .exu, .xn, .pw, .td, .cof, .out, .dram]) ∧
  (∀ a b, Touches (.pwFloorWrite a b) [.time, .hi, .ctxs, .mem, .fab, .srv, .mdl, .exu, .xn, .pw, .td, .cof, .out, .dram]) ∧
  (∀ a b, Touches (.pwPhaseWrite a b) [.time, .hi, .ctxs, .mem, .fab, .srv, .mdl, .exu, .xn, .pw, .td, .out, .dram]) ∧
  (∀ a b c, Touches (.pwOpWrite a b c) [.time, .hi, .ctxs, .mem, .fab, .srv, .mdl, .exu, .xn, .pw, .td, .out, .dram]) ∧
  (∀ a b, Touches (.fbSchedCtrlWrite a b) [.time, .fab]) ∧
  (∀ a b, Touches (.vfFlr a b) [.time, .hi, .ctxs, .mem, .fab, .srv, .ops, .mdl, .exu, .coll, .xn, .pw, .td, .cof, .out, .dram, .scratch]) ∧
  (∀ a b, Touches (.vfEnableClear a b) [.time, .hi, .ctxs, .mem, .fab, .srv, .ops, .mdl, .exu, .coll, .xn, .pw, .td, .cof, .out, .dram, .scratch]) ∧
  (∀ a b, Touches (.hotReset a b) [.time, .id, .hi, .ctxs, .mem, .fab, .srv, .ops, .mdl, .exu, .coll, .xn, .pw, .sec, .td, .cof, .out, .dram, .scratch, .lock, .life, .mbox, .pst]) ∧
  (∀ a b, Touches (.warmReset a b) [.time, .id, .hi, .ctxs, .mem, .fab, .srv, .ops, .mdl, .exu, .coll, .xn, .pw, .sec, .td, .cof, .out, .dram, .scratch, .lock, .life, .mbox, .pst]) ∧
  (∀ a b c, Touches (.coldReset a b c) [.time, .id, .hi, .ctxs, .mem, .fab, .srv, .ops, .mdl, .exu, .coll, .xn, .pw, .sec, .td, .cof, .dram, .scratch, .lock, .life, .mbox, .pst]) ∧
  (∀ a b, Touches (.bootStepTimeout a b) [.time, .pw, .sec, .cof]) ∧
  (∀ a b, Touches (.sequenceFault a b) [.time, .pw, .cof]) ∧
  (∀ a, Touches (.aonSupplyRemoved a) [.time, .hi, .ctxs, .mem, .fab, .srv, .ops, .mdl, .exu, .coll, .xn, .pw, .sec, .td, .cof, .dram, .scratch, .lock, .life, .mbox, .pst]) ∧
  (∀ a b c, Touches (.fatalError a b c) [.time, .hi, .ctxs, .mem, .srv, .mdl, .exu, .xn, .pw, .td, .cof, .out, .dram]) ∧
  (∀ a b c, Touches (.vfEnableSet a b c) [.time, .hi]) ∧
  (∀ a b, Touches (.railSetpointReached a b) [.time, .hi, .ctxs, .mem, .fab, .srv, .mdl, .exu, .xn, .td, .out, .dram])

/-- The frame of the commands of register accesses: what each may change, and nothing else. The cited rules give the effects. -/
def Obligations.TheRegisterFrame : Prop :=
  (∀ a b, Touches (.setupLock a b) [.time, .hi, .lock]) ∧
  (∀ a b c d, Touches (.ringSetupWrite a b c d) [.time, .hi, .ctxs, .mem, .srv, .ops, .mdl, .exu, .xn, .td, .out, .dram]) ∧
  (∀ a b, Touches (.hiDbCtrlWrite a b) [.time, .hi]) ∧
  (∀ a b c d, Touches (.pairLoWrite a b c d) [.time, .id, .hi, .ctxs, .mem, .fab, .srv, .ops, .mdl, .exu, .coll, .xn, .pw, .sec, .td, .cof, .out, .dram, .scratch, .lock, .life, .mbox, .pst]) ∧
  (∀ a b c d, Touches (.pairHiWrite a b c d) [.time, .id, .hi, .ctxs, .mem, .fab, .srv, .ops, .mdl, .exu, .coll, .xn, .pw, .sec, .td, .cof, .out, .dram, .scratch, .lock, .life, .mbox, .pst]) ∧
  (∀ a b c, Touches (.pairLoRead a b c) [.time, .hi, .out]) ∧
  (∀ a b c, Touches (.pairHiRead a b c) [.time, .hi, .out]) ∧
  (∀ a b c d e f, Touches (.misalignedAccess a b c d e f) [.time, .id, .hi, .ctxs, .mem, .fab, .srv, .ops, .mdl, .exu, .coll, .xn, .pw, .sec, .td, .cof, .out, .dram, .scratch, .lock, .life, .mbox, .pst]) ∧
  (∀ a b c d e, Touches (.registerWrite a b c d e) [.time, .id, .hi, .ctxs, .mem, .fab, .srv, .ops, .mdl, .exu, .coll, .xn, .pw, .sec, .td, .cof, .out, .dram, .scratch, .lock, .life, .mbox, .pst]) ∧
  (∀ a b, Touches (.mmCabHiRsvWrite a b) [.time, .hi, .mem]) ∧
  (∀ a b c, Touches (.tdAddrOnlyWrite a b c) [.time, .ctxs, .td]) ∧
  (∀ a b, Touches (.advisoryClear a b) [.time, .td]) ∧
  (∀ a b c, Touches (.bar2Read a b c) [.time, .td, .draws, .out]) ∧
  (∀ a b c, Touches (.bar2Write a b c) [.time, .mem, .td, .out, .dram])

/-- The one step of the block: it takes the command at the front of the queue and runs it on the rest. -/
def Obligations.StepRunsFront : Prop :=
  ∀ (c : Instr) (l : List Instr) (s : State), step { s with pending := c :: l } = exec c { s with pending := l }

/-- The model's choice, log entry 2, and no rule of the spec: with no command waiting the block idles. -/
def Obligations.EmptyQueueIdles : Prop :=
  ∀ s : State, s.pending = [] → step s = .next s

/-- No command stops the block: a command that its checks refuse ends with the status that R299 gives it, a register access that reaches nothing is ignored (R5, R461). -/
def Obligations.EveryCommandAnswers : Prop :=
  ∀ (c : Instr) (s : State), ∃ u, exec c s = .next u ∧ u.pending = s.pending

/-- The block never stops before its queue is empty, whatever commands wait in it and whatever state it is in. -/
def Obligations.QueueDrains : Prop :=
  ∀ s : State, ∃ u, run s.pending.length s = .next u ∧ u.pending = []

/-- The invariant of the byte memories: addresses strictly rise and no zero byte is listed, so that equal memories are equal data. The form is the model's own and no rule of the spec. -/
def Obligations.MemoryStaysCanonical : Prop :=
  ∀ s u : State, s.memOk = true → step s = .next u → u.memOk = true

/-- MemoryStaysCanonical begins to hold at reset; that memory reads as zero there is the model's choice. -/
def Obligations.MemoryIsCanonicalAtReset : Prop :=
  State.reset.memOk = true ∧ State.reset.mem.dram = [] ∧ State.reset.fab.scratch = [] ∧ State.reset.sec.mboxBuf = []

/-- R469: no write, command, message, debug level or other power state clears LOCK. -/
def Obligations.LockStaysSet : Prop :=
  ∀ (c : Instr) (s u : State), s.hi.lock = true → clearsLock c = false → exec c s = .next u → u.hi.lock = true

/-- R469 and R470: what the setup lock freezes, and when VIOLATION is set. -/
def Obligations.LockFreezesItsFields : Prop :=
  (∀ (c : Instr) (s u : State), s.hi.lock = true → hostWrites c = true → clearsLock c = false → exec c s = .next u → frozenSame s u) ∧
  (∀ t (a b c d e : Nat) s, s.hi.lock = true → regsAnswer (tick t s) = true → 1 ≤ a → a < 64 → 1 ≤ b → b < 64 → 1 ≤ c → c < 64 → 1 ≤ d → d < 64 →
    1 ≤ e → e < 64 → 70 * (a + b + c + d + e) ≤ 100 * (a + b) →
    exec (.xnVcWeightWrite t (BitVec.ofNat 32 (a + 64 * b + 4096 * c + 262144 * d + 16777216 * e))) s =
      .next (if a = s.xn.w1 ∧ b = s.xn.w2 ∧ c = s.xn.w3 ∧ d = s.xn.w4 ∧ e = s.xn.w5 then tick t s
        else { tick t s with hi := { s.hi with violation := true } }))

/-- R338: the two rules of the arbitration weights, and what a write that breaks one does. -/
def Obligations.WeightsFollowTheirRules : Prop :=
  (∀ t (a b c d e : Nat) s, s.hi.lock = false → regsAnswer (tick t s) = true → 1 ≤ a → a < 64 → 1 ≤ b → b < 64 → 1 ≤ c → c < 64 → 1 ≤ d → d < 64 →
    1 ≤ e → e < 64 → 70 * (a + b + c + d + e) ≤ 100 * (a + b) →
    exec (.xnVcWeightWrite t (BitVec.ofNat 32 (a + 64 * b + 4096 * c + 262144 * d + 16777216 * e))) s =
      .next { tick t s with xn := { s.xn with w1 := a, w2 := b, w3 := c, w4 := d, w5 := e } }) ∧
  (∀ t (a b c d e : Nat) s, regsAnswer (tick t s) = true → a < 64 → b < 64 → c < 64 → d < 64 → e < 64 →
    (a = 0 ∨ b = 0 ∨ c = 0 ∨ d = 0 ∨ e = 0 ∨ 100 * (a + b) < 70 * (a + b + c + d + e)) →
    exec (.xnVcWeightWrite t (BitVec.ofNat 32 (a + 64 * b + 4096 * c + 262144 * d + 16777216 * e))) s =
      .next { tick t s with xn := { s.xn with cfgErr := true } })

/-- R30: the global position of an island and the neighbours its Dovetail ports face. -/
def Obligations.IslandsStandInOneGrid : Prop :=
  (∀ f r c, f < 4 → r < 15 → c < 20 → gcol (512 * f + 32 * r + c) = c + 20 * (f % 2) ∧ grow (512 * f + 32 * r + c) = r + 15 * (f / 2)) ∧
  (∀ n, islValid n = true → gcol n < 40 ∧ grow n < 30 ∧ islAt (gcol n) (grow n) = some n) ∧
  (∀ x y : Nat, x < 40 → y < 30 → ∃ n, islAt x y = some n ∧ islValid n = true ∧ gcol n = x ∧ grow n = y) ∧
  (∀ n m, islValid n = true → islValid m = true →
    (neighbour n 0 = some m ↔ gcol m = gcol n ∧ grow m + 1 = grow n) ∧ (neighbour n 2 = some m ↔ gcol m = gcol n ∧ grow m = grow n + 1) ∧
    (neighbour n 3 = some m ↔ gcol m + 1 = gcol n ∧ grow m = grow n) ∧ (neighbour n 1 = some m ↔ gcol m = gcol n + 1 ∧ grow m = grow n)) ∧
  (∀ n, islValid n = true → (neighbour n 0 = none ↔ grow n = 0) ∧ (neighbour n 2 = none ↔ grow n = 29) ∧
    (neighbour n 3 = none ↔ gcol n = 0) ∧ (neighbour n 1 = none ↔ gcol n = 39))

/-- R304: device time is set once by PTM, is zero at cold boot, and otherwise never runs backward. -/
def Obligations.TimeNeverRunsBackward : Prop :=
  (∀ (c : Instr) (s u : State), restartsTime c = false → (∀ t ok m, c = .ptmDialogue t ok m → s.hi.ptmSet = true) →
    exec c s = .next u → s.time ≤ u.time) ∧
  (∀ t m s, s.hi.ptmEnable = true → s.hi.ptmSet = false → enabledCtxs s = [] →
    Answers (.ptmDialogue t true m) s (fun u => u.time = m ∧ u.hi.ptmSet = true ∧ u.hi.sync = true))

/-- R410 and R411: the transitions of the lifecycle. -/
def Obligations.LifecycleFollowsItsTable : Prop :=
  ∀ (c : Instr) (s u : State), exec c s = .next u → u.sec.life = s.sec.life ∨ lifeChange c s.sec.life u.sec.life

/-- R284, R299 and R302: the records the device writes and the room it keeps for them; R4 and their tables: the places of their fields in little-endian bytes. -/
def Obligations.OwedRecordsAreWritten : Prop :=
  (∀ (d : Cmd) st info value s, ctxHere s d.ctx = true → ringThere (ctxOf s d.ctx) d.ring = true → d.ring ∉ (ctxOf s d.ctx).ringErr →
    (ctxOf s d.ctx).resetBusy = false →
    (∃ r, Output.record r ∈ (final d st info value s).out ∧ r.kind = .final ∧ r.ctx = d.ctx ∧ r.ring = d.ring ∧ r.reqId = d.reqId ∧ r.status = st ∧
      r.info = info ∧ r.value = value ∧ r.time = s.time ∧ r.n = mgetD (ctxOf s d.ctx).written d.ring 0 ∧
      r.phase = phaseOf (mgetD (ctxOf s d.ctx).written d.ring 0) (mgetD (ctxOf s d.ctx).rings d.ring {}).sizeLog2) ∧
    mgetD (ctxOf (final d st info value s) d.ctx).written d.ring 0 = mgetD (ctxOf s d.ctx).written d.ring 0 + 1 ∧
    mgetD (ctxOf (final d st info value s) d.ctx).reserved d.ring 0 = mgetD (ctxOf s d.ctx).reserved d.ring 0 - 1) ∧
  (∀ c code info value s, ctxHere s c = true → ringRoom (ctxOf s c) 9 = 0 →
    (eventRec c code info value s).out = s.out ∧ (ctxOf (eventRec c code info value s) c).eventLoss = min 65535 ((ctxOf s c).eventLoss + 1)) ∧
  (∀ c code info value s, ctxHere s c = true → ringRoom (ctxOf s c) 9 ≠ 0 → ringThere (ctxOf s c) 9 = true → 9 ∉ (ctxOf s c).ringErr →
    ∃ r, Output.record r ∈ (eventRec c code info value s).out ∧ r.kind = .event ∧ r.ring = 9 ∧ r.ctx = c ∧ r.code = code ∧ r.info = info ∧ r.value = value) ∧
  (∀ r : CompRec, (compBytes r).length = 32 ∧ (compBytes r).take 8 = leBytes r.reqId 8 ∧
    ((compBytes r).drop 8).take 1 = leBytes (if r.kind = .event then r.code else statusCode r.status) 1 ∧ ((compBytes r).drop 12).take 4 = leBytes r.info 4 ∧
    ((compBytes r).drop 16).take 8 = leBytes r.value 8 ∧ (compBytes r).drop 24 = leBytes r.time 8) ∧
  (∀ (k : TokRec) (p : StepRec) c n e t ph lt ot j d f, (tokBytes k).length = 16 ∧ (stepBytes p).length = 32 ∧ (statusBytes c n e t).length = 64 ∧
    (traceBytes ph lt ot j t d).length = 64 ∧ (traceBytes ph lt ot j t d).take 1 = leBytes (traceNo d) 1 ∧
    ((traceBytes ph lt ot j t d).drop 8).take 8 = leBytes t 8 ∧ (layerBytes f).length = 64) ∧
  (∀ ty (r : ExuRec) n (p : Pkt) d vc (q : RespPkt) loc (f : FabricFault), (exuHead ty r).length = 32 ∧ ((exuHead ty r).drop 12).take 4 = leBytes r.exchange 4 ∧
    (pktHead n p).length = 32 ∧ ((pktHead n p).drop 16).take 8 = leBytes (p.addr % 2 ^ 48) 8 ∧ (respHead d vc q).length = 32 ∧ (faultBytes loc f).length = 32)

/-- R346, R461, R248 and R414: where each of these commands stores. -/
def Obligations.StoresStayInTheirSpan : Prop :=
  (∀ t (p : Pkt) s u b, s.memOk = true → exec (.write t p) s = .next u → (b < p.addr % 2 ^ 41 ∨ p.addr % 2 ^ 41 + p.payload.length ≤ b) →
    cread u.mem.dram b = cread s.mem.dram b) ∧
  (∀ t (p : Pkt) s u b, s.memOk = true → exec (.atomic t p) s = .next u →
    (b < p.addr % 2 ^ 41 ∨ p.addr % 2 ^ 41 + (if p.op = 7 then p.payload.length else 2 ^ p.size) ≤ b) →
    cread u.mem.dram b = cread s.mem.dram b) ∧
  (∀ t off data s u b, s.memOk = true → exec (.bar2Write t off data) s = .next u → (∀ i, i < data.length → bar2Address s (off + i) ≠ some b) →
    cread u.mem.dram b = cread s.mem.dram b) ∧
  (∀ t frame ok data s u b, s.memOk = true → s.mem.chans = [] → s.exu.stalled = [] → exec (.frameRestored t frame ok data) s = .next u → (b < frame * 65536 ∨ frame * 65536 + 65536 ≤ b) →
    cread u.mem.dram b = cread s.mem.dram b) ∧
  (∀ t a d s u b, s.memOk = true → exec (.tapInstruction t (.writeMem a d)) s = .next u → (b < a ∨ a + d.length ≤ b) →
    cread u.mem.dram b = cread s.mem.dram b) ∧
  (∀ t k a d s u b, s.memOk = true → exec (.tapInstruction t (.writeScratch k a d)) s = .next u →
    (b < k * 2 ^ 21 + a ∨ k * 2 ^ 21 + a + d.length ≤ b) → cread u.fab.scratch b = cread s.fab.scratch b) ∧
  (∀ t isl port ctl err p k a l s u b, s.memOk = true → exec (.dovetailTransfer t isl port ctl err (.write p k a l)) s = .next u →
    (∀ i, i < l.length → bankKey s p k (a + i) ≠ some b) → cread u.fab.scratch b = cread s.fab.scratch b)

/-- R304 (device time is zero at cold boot) and Table 19.2; the values the spec leaves open are the model's own. -/
def Obligations.ResetLeavesTheSpecsValues : Prop :=
  State.reset.pending = [] ∧ State.reset.time = 0 ∧ State.reset.hi.lock = false ∧ State.reset.hi.violation = false ∧
  enabledCtxs State.reset = [] ∧ State.reset.srv.reqs = [] ∧ State.reset.srv.jobs = [] ∧ State.reset.ops.live = [] ∧
  State.reset.exu.home = [] ∧ State.reset.coll.groups = [] ∧ State.reset.out = [] ∧ State.reset.cof.frozen = false

/-- R170: the owner shard and the slot of a row; the mix is a bijection on 2^b values. -/
def Obligations.RowsSpreadEvenly : Prop :=
  (∀ (e : EmbTable) r, 8 ≤ e.rowBits → e.rowBits ≤ 40 → e.shardBits ≤ 7 → e.shardBits < e.rowBits → r < 2 ^ e.rowBits →
    let c := (e.rowBits + 1) / 2
    let x0 := r ^^^ (e.seed % 2 ^ e.rowBits)
    let x1 := x0 ^^^ (x0 >>> c)
    let x2 := x1 * (0xB5A73C19E64D2F07 % 2 ^ e.rowBits) % 2 ^ e.rowBits
    let x := x2 ^^^ (x2 >>> c)
    placeRow e r = (x >>> (e.rowBits - e.shardBits), x % 2 ^ (e.rowBits - e.shardBits)) ∧
    rowAddr e 0 r = e.shards.getD (x >>> (e.rowBits - e.shardBits)) 0 % 2 ^ 48 + x % 2 ^ (e.rowBits - e.shardBits) * rowStride e) ∧
  (∀ (e : EmbTable) k j, 8 ≤ e.rowBits → e.rowBits ≤ 40 → e.shardBits ≤ 7 → e.shardBits < e.rowBits → k < 2 ^ e.shardBits →
    j < 2 ^ (e.rowBits - e.shardBits) →
    (∃ r, r < 2 ^ e.rowBits ∧ placeRow e r = (k, j) ∧ ∀ q, q < 2 ^ e.rowBits → placeRow e q = (k, j) → q = r)) ∧
  (∀ (e : EmbTable) k, 8 ≤ e.rowBits → e.rowBits ≤ 40 → e.shardBits ≤ 7 → e.shardBits < e.rowBits → k < 2 ^ e.shardBits →
    ((List.range (2 ^ e.rowBits)).filter (fun r => (placeRow e r).1 == k)).length = 2 ^ (e.rowBits - e.shardBits))

/-- R103: the window's headroom is sized to 2^24 blocks, so v never overflows. -/
def Obligations.WindowNeverOverflows : Prop :=
  ∀ (l : List Block), l.length ≤ 2 ^ 24 →
    -(2 : Int) ^ 95 ≤ (l.foldl (fun q b => takeFlags b q) ({} : Acc)).v ∧ (l.foldl (fun q b => takeFlags b q) ({} : Acc)).v < (2 : Int) ^ 95
end

