-- ==== Sys2Proof/Laws/State.lean ====
section
/-! SUPPORT. How a choice between two states reads, field by field. -/
namespace Sys2Proof.Machine

@[simp] theorem ite_pending (c : Prop) [Decidable c] (a b : State) : (if c then a else b).pending = if c then a.pending else b.pending := by
  split <;> rfl
@[simp] theorem ite_time (c : Prop) [Decidable c] (a b : State) : (if c then a else b).time = if c then a.time else b.time := by
  split <;> rfl
@[simp] theorem ite_id (c : Prop) [Decidable c] (a b : State) : (if c then a else b).id = if c then a.id else b.id := by
  split <;> rfl
@[simp] theorem ite_hi (c : Prop) [Decidable c] (a b : State) : (if c then a else b).hi = if c then a.hi else b.hi := by
  split <;> rfl
@[simp] theorem ite_ctxs (c : Prop) [Decidable c] (a b : State) : (if c then a else b).ctxs = if c then a.ctxs else b.ctxs := by
  split <;> rfl
@[simp] theorem ite_mem (c : Prop) [Decidable c] (a b : State) : (if c then a else b).mem = if c then a.mem else b.mem := by
  split <;> rfl
@[simp] theorem ite_fab (c : Prop) [Decidable c] (a b : State) : (if c then a else b).fab = if c then a.fab else b.fab := by
  split <;> rfl
@[simp] theorem ite_srv (c : Prop) [Decidable c] (a b : State) : (if c then a else b).srv = if c then a.srv else b.srv := by
  split <;> rfl
@[simp] theorem ite_ops (c : Prop) [Decidable c] (a b : State) : (if c then a else b).ops = if c then a.ops else b.ops := by
  split <;> rfl
@[simp] theorem ite_mdl (c : Prop) [Decidable c] (a b : State) : (if c then a else b).mdl = if c then a.mdl else b.mdl := by
  split <;> rfl
@[simp] theorem ite_exu (c : Prop) [Decidable c] (a b : State) : (if c then a else b).exu = if c then a.exu else b.exu := by
  split <;> rfl
@[simp] theorem ite_coll (c : Prop) [Decidable c] (a b : State) : (if c then a else b).coll = if c then a.coll else b.coll := by
  split <;> rfl
@[simp] theorem ite_xn (c : Prop) [Decidable c] (a b : State) : (if c then a else b).xn = if c then a.xn else b.xn := by
  split <;> rfl
@[simp] theorem ite_pw (c : Prop) [Decidable c] (a b : State) : (if c then a else b).pw = if c then a.pw else b.pw := by
  split <;> rfl
@[simp] theorem ite_sec (c : Prop) [Decidable c] (a b : State) : (if c then a else b).sec = if c then a.sec else b.sec := by
  split <;> rfl
@[simp] theorem ite_td (c : Prop) [Decidable c] (a b : State) : (if c then a else b).td = if c then a.td else b.td := by
  split <;> rfl
@[simp] theorem ite_cof (c : Prop) [Decidable c] (a b : State) : (if c then a else b).cof = if c then a.cof else b.cof := by
  split <;> rfl
@[simp] theorem ite_draws (c : Prop) [Decidable c] (a b : State) : (if c then a else b).draws = if c then a.draws else b.draws := by
  split <;> rfl
@[simp] theorem ite_out (c : Prop) [Decidable c] (a b : State) : (if c then a else b).out = if c then a.out else b.out := by
  split <;> rfl

@[simp] theorem ite_MemSys_dram (c : Prop) [Decidable c] (x y : MemSys) : (if c then x else y).dram = if c then x.dram else y.dram := by
  split <;> rfl
@[simp] theorem ite_Fabric_scratch (c : Prop) [Decidable c] (x y : Fabric) : (if c then x else y).scratch = if c then x.scratch else y.scratch := by
  split <;> rfl
@[simp] theorem ite_HostIf_lock (c : Prop) [Decidable c] (x y : HostIf) : (if c then x else y).lock = if c then x.lock else y.lock := by
  split <;> rfl
@[simp] theorem ite_Sec_life (c : Prop) [Decidable c] (x y : Sec) : (if c then x else y).life = if c then x.life else y.life := by
  split <;> rfl
@[simp] theorem ite_Sec_mboxBuf (c : Prop) [Decidable c] (x y : Sec) : (if c then x else y).mboxBuf = if c then x.mboxBuf else y.mboxBuf := by
  split <;> rfl
@[simp] theorem ite_Power_st (c : Prop) [Decidable c] (x y : Power) : (if c then x else y).st = if c then x.st else y.st := by
  split <;> rfl

end Sys2Proof.Machine
end

