-- ==== Sys2Proof/Laws/Ops.lean ====
section
/-! SUPPORT. What the operations of Machine/Ops.lean leave unchanged: the parts of the state that each does not touch. -/
namespace Sys2Proof.Machine

@[simp] theorem forEach_pending {α : Type} (g : α → State → State) (l : List α) (s : State) (h : ∀ x s, (g x s).pending = s.pending) :
    (forEach g l s).pending = s.pending := by
  induction l generalizing s with
  | nil => rfl
  | cons x l ih => simp [forEach, ih, h]

@[simp] theorem forEach_time {α : Type} (g : α → State → State) (l : List α) (s : State) (h : ∀ x s, (g x s).time = s.time) :
    (forEach g l s).time = s.time := by
  induction l generalizing s with
  | nil => rfl
  | cons x l ih => simp [forEach, ih, h]

@[simp] theorem forEach_id {α : Type} (g : α → State → State) (l : List α) (s : State) (h : ∀ x s, (g x s).id = s.id) :
    (forEach g l s).id = s.id := by
  induction l generalizing s with
  | nil => rfl
  | cons x l ih => simp [forEach, ih, h]

@[simp] theorem forEach_hi {α : Type} (g : α → State → State) (l : List α) (s : State) (h : ∀ x s, (g x s).hi = s.hi) :
    (forEach g l s).hi = s.hi := by
  induction l generalizing s with
  | nil => rfl
  | cons x l ih => simp [forEach, ih, h]

@[simp] theorem forEach_ctxs {α : Type} (g : α → State → State) (l : List α) (s : State) (h : ∀ x s, (g x s).ctxs = s.ctxs) :
    (forEach g l s).ctxs = s.ctxs := by
  induction l generalizing s with
  | nil => rfl
  | cons x l ih => simp [forEach, ih, h]

@[simp] theorem forEach_mem {α : Type} (g : α → State → State) (l : List α) (s : State) (h : ∀ x s, (g x s).mem = s.mem) :
    (forEach g l s).mem = s.mem := by
  induction l generalizing s with
  | nil => rfl
  | cons x l ih => simp [forEach, ih, h]

@[simp] theorem forEach_fab {α : Type} (g : α → State → State) (l : List α) (s : State) (h : ∀ x s, (g x s).fab = s.fab) :
    (forEach g l s).fab = s.fab := by
  induction l generalizing s with
  | nil => rfl
  | cons x l ih => simp [forEach, ih, h]

@[simp] theorem forEach_srv {α : Type} (g : α → State → State) (l : List α) (s : State) (h : ∀ x s, (g x s).srv = s.srv) :
    (forEach g l s).srv = s.srv := by
  induction l generalizing s with
  | nil => rfl
  | cons x l ih => simp [forEach, ih, h]

@[simp] theorem forEach_ops {α : Type} (g : α → State → State) (l : List α) (s : State) (h : ∀ x s, (g x s).ops = s.ops) :
    (forEach g l s).ops = s.ops := by
  induction l generalizing s with
  | nil => rfl
  | cons x l ih => simp [forEach, ih, h]

@[simp] theorem forEach_mdl {α : Type} (g : α → State → State) (l : List α) (s : State) (h : ∀ x s, (g x s).mdl = s.mdl) :
    (forEach g l s).mdl = s.mdl := by
  induction l generalizing s with
  | nil => rfl
  | cons x l ih => simp [forEach, ih, h]

@[simp] theorem forEach_exu {α : Type} (g : α → State → State) (l : List α) (s : State) (h : ∀ x s, (g x s).exu = s.exu) :
    (forEach g l s).exu = s.exu := by
  induction l generalizing s with
  | nil => rfl
  | cons x l ih => simp [forEach, ih, h]

@[simp] theorem forEach_coll {α : Type} (g : α → State → State) (l : List α) (s : State) (h : ∀ x s, (g x s).coll = s.coll) :
    (forEach g l s).coll = s.coll := by
  induction l generalizing s with
  | nil => rfl
  | cons x l ih => simp [forEach, ih, h]

@[simp] theorem forEach_xn {α : Type} (g : α → State → State) (l : List α) (s : State) (h : ∀ x s, (g x s).xn = s.xn) :
    (forEach g l s).xn = s.xn := by
  induction l generalizing s with
  | nil => rfl
  | cons x l ih => simp [forEach, ih, h]

@[simp] theorem forEach_pw {α : Type} (g : α → State → State) (l : List α) (s : State) (h : ∀ x s, (g x s).pw = s.pw) :
    (forEach g l s).pw = s.pw := by
  induction l generalizing s with
  | nil => rfl
  | cons x l ih => simp [forEach, ih, h]

@[simp] theorem forEach_sec {α : Type} (g : α → State → State) (l : List α) (s : State) (h : ∀ x s, (g x s).sec = s.sec) :
    (forEach g l s).sec = s.sec := by
  induction l generalizing s with
  | nil => rfl
  | cons x l ih => simp [forEach, ih, h]

@[simp] theorem forEach_td {α : Type} (g : α → State → State) (l : List α) (s : State) (h : ∀ x s, (g x s).td = s.td) :
    (forEach g l s).td = s.td := by
  induction l generalizing s with
  | nil => rfl
  | cons x l ih => simp [forEach, ih, h]

@[simp] theorem forEach_cof {α : Type} (g : α → State → State) (l : List α) (s : State) (h : ∀ x s, (g x s).cof = s.cof) :
    (forEach g l s).cof = s.cof := by
  induction l generalizing s with
  | nil => rfl
  | cons x l ih => simp [forEach, ih, h]

@[simp] theorem forEach_draws {α : Type} (g : α → State → State) (l : List α) (s : State) (h : ∀ x s, (g x s).draws = s.draws) :
    (forEach g l s).draws = s.draws := by
  induction l generalizing s with
  | nil => rfl
  | cons x l ih => simp [forEach, ih, h]

@[simp] theorem forEach_out {α : Type} (g : α → State → State) (l : List α) (s : State) (h : ∀ x s, (g x s).out = s.out) :
    (forEach g l s).out = s.out := by
  induction l generalizing s with
  | nil => rfl
  | cons x l ih => simp [forEach, ih, h]


@[simp] theorem forEach_mem_dram {α : Type} (g : α → State → State) (l : List α) (s : State) (h : ∀ x s, (g x s).mem.dram = s.mem.dram) :
    (forEach g l s).mem.dram = s.mem.dram := by
  induction l generalizing s with
  | nil => rfl
  | cons x l ih => simp [forEach, ih, h]

@[simp] theorem forEach_fab_scratch {α : Type} (g : α → State → State) (l : List α) (s : State) (h : ∀ x s, (g x s).fab.scratch = s.fab.scratch) :
    (forEach g l s).fab.scratch = s.fab.scratch := by
  induction l generalizing s with
  | nil => rfl
  | cons x l ih => simp [forEach, ih, h]

@[simp] theorem forEach_hi_lock {α : Type} (g : α → State → State) (l : List α) (s : State) (h : ∀ x s, (g x s).hi.lock = s.hi.lock) :
    (forEach g l s).hi.lock = s.hi.lock := by
  induction l generalizing s with
  | nil => rfl
  | cons x l ih => simp [forEach, ih, h]

@[simp] theorem forEach_sec_life {α : Type} (g : α → State → State) (l : List α) (s : State) (h : ∀ x s, (g x s).sec.life = s.sec.life) :
    (forEach g l s).sec.life = s.sec.life := by
  induction l generalizing s with
  | nil => rfl
  | cons x l ih => simp [forEach, ih, h]

@[simp] theorem forEach_sec_mboxBuf {α : Type} (g : α → State → State) (l : List α) (s : State) (h : ∀ x s, (g x s).sec.mboxBuf = s.sec.mboxBuf) :
    (forEach g l s).sec.mboxBuf = s.sec.mboxBuf := by
  induction l generalizing s with
  | nil => rfl
  | cons x l ih => simp [forEach, ih, h]

@[simp] theorem forEach_pw_st {α : Type} (g : α → State → State) (l : List α) (s : State) (h : ∀ x s, (g x s).pw.st = s.pw.st) :
    (forEach g l s).pw.st = s.pw.st := by
  induction l generalizing s with
  | nil => rfl
  | cons x l ih => simp [forEach, ih, h]

@[simp] theorem tick_pending (a : ℕ) (s : State) : (tick a s).pending = s.pending := (rfl)
@[simp] theorem tick_id (a : ℕ) (s : State) : (tick a s).id = s.id := (rfl)
@[simp] theorem tick_hi (a : ℕ) (s : State) : (tick a s).hi = s.hi := (rfl)
@[simp] theorem tick_ctxs (a : ℕ) (s : State) : (tick a s).ctxs = s.ctxs := (rfl)
@[simp] theorem tick_mem (a : ℕ) (s : State) : (tick a s).mem = s.mem := (rfl)
@[simp] theorem tick_fab (a : ℕ) (s : State) : (tick a s).fab = s.fab := (rfl)
@[simp] theorem tick_srv (a : ℕ) (s : State) : (tick a s).srv = s.srv := (rfl)
@[simp] theorem tick_ops (a : ℕ) (s : State) : (tick a s).ops = s.ops := (rfl)
@[simp] theorem tick_mdl (a : ℕ) (s : State) : (tick a s).mdl = s.mdl := (rfl)
@[simp] theorem tick_exu (a : ℕ) (s : State) : (tick a s).exu = s.exu := (rfl)
@[simp] theorem tick_coll (a : ℕ) (s : State) : (tick a s).coll = s.coll := (rfl)
@[simp] theorem tick_xn (a : ℕ) (s : State) : (tick a s).xn = s.xn := (rfl)
@[simp] theorem tick_pw (a : ℕ) (s : State) : (tick a s).pw = s.pw := (rfl)
@[simp] theorem tick_sec (a : ℕ) (s : State) : (tick a s).sec = s.sec := (rfl)
@[simp] theorem tick_td (a : ℕ) (s : State) : (tick a s).td = s.td := (rfl)
@[simp] theorem tick_cof (a : ℕ) (s : State) : (tick a s).cof = s.cof := (rfl)
@[simp] theorem tick_draws (a : ℕ) (s : State) : (tick a s).draws = s.draws := (rfl)
@[simp] theorem tick_out (a : ℕ) (s : State) : (tick a s).out = s.out := (rfl)

@[simp] theorem emit_pending (a : Output) (s : State) : (emit a s).pending = s.pending := (rfl)
@[simp] theorem emit_time (a : Output) (s : State) : (emit a s).time = s.time := (rfl)
@[simp] theorem emit_id (a : Output) (s : State) : (emit a s).id = s.id := (rfl)
@[simp] theorem emit_hi (a : Output) (s : State) : (emit a s).hi = s.hi := (rfl)
@[simp] theorem emit_ctxs (a : Output) (s : State) : (emit a s).ctxs = s.ctxs := (rfl)
@[simp] theorem emit_mem (a : Output) (s : State) : (emit a s).mem = s.mem := (rfl)
@[simp] theorem emit_fab (a : Output) (s : State) : (emit a s).fab = s.fab := (rfl)
@[simp] theorem emit_srv (a : Output) (s : State) : (emit a s).srv = s.srv := (rfl)
@[simp] theorem emit_ops (a : Output) (s : State) : (emit a s).ops = s.ops := (rfl)
@[simp] theorem emit_mdl (a : Output) (s : State) : (emit a s).mdl = s.mdl := (rfl)
@[simp] theorem emit_exu (a : Output) (s : State) : (emit a s).exu = s.exu := (rfl)
@[simp] theorem emit_coll (a : Output) (s : State) : (emit a s).coll = s.coll := (rfl)
@[simp] theorem emit_xn (a : Output) (s : State) : (emit a s).xn = s.xn := (rfl)
@[simp] theorem emit_pw (a : Output) (s : State) : (emit a s).pw = s.pw := (rfl)
@[simp] theorem emit_sec (a : Output) (s : State) : (emit a s).sec = s.sec := (rfl)
@[simp] theorem emit_td (a : Output) (s : State) : (emit a s).td = s.td := (rfl)
@[simp] theorem emit_cof (a : Output) (s : State) : (emit a s).cof = s.cof := (rfl)
@[simp] theorem emit_draws (a : Output) (s : State) : (emit a s).draws = s.draws := (rfl)

@[simp] theorem sendMgmt_frame (a : Mgmt) (s : State) :
    (sendMgmt a s).pending = s.pending ∧ (sendMgmt a s).time = s.time ∧ (sendMgmt a s).id = s.id ∧ (sendMgmt a s).hi = s.hi ∧ (sendMgmt a s).ctxs = s.ctxs ∧ (sendMgmt a s).mem = s.mem ∧ (sendMgmt a s).fab = s.fab ∧ (sendMgmt a s).srv = s.srv ∧ (sendMgmt a s).ops = s.ops ∧ (sendMgmt a s).mdl = s.mdl ∧ (sendMgmt a s).exu = s.exu ∧ (sendMgmt a s).coll = s.coll ∧ (sendMgmt a s).xn = s.xn ∧ (sendMgmt a s).pw = s.pw ∧ (sendMgmt a s).sec = s.sec ∧ (sendMgmt a s).td = s.td ∧ (sendMgmt a s).cof = s.cof ∧ (sendMgmt a s).draws = s.draws := by
  simp [sendMgmt]

@[simp] theorem advanceDraw_pending (s : State) : (advanceDraw s).pending = s.pending := (rfl)
@[simp] theorem advanceDraw_time (s : State) : (advanceDraw s).time = s.time := (rfl)
@[simp] theorem advanceDraw_id (s : State) : (advanceDraw s).id = s.id := (rfl)
@[simp] theorem advanceDraw_hi (s : State) : (advanceDraw s).hi = s.hi := (rfl)
@[simp] theorem advanceDraw_ctxs (s : State) : (advanceDraw s).ctxs = s.ctxs := (rfl)
@[simp] theorem advanceDraw_mem (s : State) : (advanceDraw s).mem = s.mem := (rfl)
@[simp] theorem advanceDraw_fab (s : State) : (advanceDraw s).fab = s.fab := (rfl)
@[simp] theorem advanceDraw_srv (s : State) : (advanceDraw s).srv = s.srv := (rfl)
@[simp] theorem advanceDraw_ops (s : State) : (advanceDraw s).ops = s.ops := (rfl)
@[simp] theorem advanceDraw_mdl (s : State) : (advanceDraw s).mdl = s.mdl := (rfl)
@[simp] theorem advanceDraw_exu (s : State) : (advanceDraw s).exu = s.exu := (rfl)
@[simp] theorem advanceDraw_coll (s : State) : (advanceDraw s).coll = s.coll := (rfl)
@[simp] theorem advanceDraw_xn (s : State) : (advanceDraw s).xn = s.xn := (rfl)
@[simp] theorem advanceDraw_pw (s : State) : (advanceDraw s).pw = s.pw := (rfl)
@[simp] theorem advanceDraw_sec (s : State) : (advanceDraw s).sec = s.sec := (rfl)
@[simp] theorem advanceDraw_td (s : State) : (advanceDraw s).td = s.td := (rfl)
@[simp] theorem advanceDraw_cof (s : State) : (advanceDraw s).cof = s.cof := (rfl)
@[simp] theorem advanceDraw_out (s : State) : (advanceDraw s).out = s.out := (rfl)

@[simp] theorem modCtx_pending (a : ℕ) (b : Ctx → Ctx) (s : State) : (modCtx a b s).pending = s.pending := (rfl)
@[simp] theorem modCtx_time (a : ℕ) (b : Ctx → Ctx) (s : State) : (modCtx a b s).time = s.time := (rfl)
@[simp] theorem modCtx_id (a : ℕ) (b : Ctx → Ctx) (s : State) : (modCtx a b s).id = s.id := (rfl)
@[simp] theorem modCtx_hi (a : ℕ) (b : Ctx → Ctx) (s : State) : (modCtx a b s).hi = s.hi := (rfl)
@[simp] theorem modCtx_mem (a : ℕ) (b : Ctx → Ctx) (s : State) : (modCtx a b s).mem = s.mem := (rfl)
@[simp] theorem modCtx_fab (a : ℕ) (b : Ctx → Ctx) (s : State) : (modCtx a b s).fab = s.fab := (rfl)
@[simp] theorem modCtx_srv (a : ℕ) (b : Ctx → Ctx) (s : State) : (modCtx a b s).srv = s.srv := (rfl)
@[simp] theorem modCtx_ops (a : ℕ) (b : Ctx → Ctx) (s : State) : (modCtx a b s).ops = s.ops := (rfl)
@[simp] theorem modCtx_mdl (a : ℕ) (b : Ctx → Ctx) (s : State) : (modCtx a b s).mdl = s.mdl := (rfl)
@[simp] theorem modCtx_exu (a : ℕ) (b : Ctx → Ctx) (s : State) : (modCtx a b s).exu = s.exu := (rfl)
@[simp] theorem modCtx_coll (a : ℕ) (b : Ctx → Ctx) (s : State) : (modCtx a b s).coll = s.coll := (rfl)
@[simp] theorem modCtx_xn (a : ℕ) (b : Ctx → Ctx) (s : State) : (modCtx a b s).xn = s.xn := (rfl)
@[simp] theorem modCtx_pw (a : ℕ) (b : Ctx → Ctx) (s : State) : (modCtx a b s).pw = s.pw := (rfl)
@[simp] theorem modCtx_sec (a : ℕ) (b : Ctx → Ctx) (s : State) : (modCtx a b s).sec = s.sec := (rfl)
@[simp] theorem modCtx_td (a : ℕ) (b : Ctx → Ctx) (s : State) : (modCtx a b s).td = s.td := (rfl)
@[simp] theorem modCtx_cof (a : ℕ) (b : Ctx → Ctx) (s : State) : (modCtx a b s).cof = s.cof := (rfl)
@[simp] theorem modCtx_draws (a : ℕ) (b : Ctx → Ctx) (s : State) : (modCtx a b s).draws = s.draws := (rfl)
@[simp] theorem modCtx_out (a : ℕ) (b : Ctx → Ctx) (s : State) : (modCtx a b s).out = s.out := (rfl)

@[simp] theorem countPage_frame (a : ℕ) (b : ℕ) (c : ℕ) (s : State) :
    (countPage a b c s).pending = s.pending ∧ (countPage a b c s).time = s.time ∧ (countPage a b c s).id = s.id ∧ (countPage a b c s).hi = s.hi ∧ (countPage a b c s).mem = s.mem ∧ (countPage a b c s).fab = s.fab ∧ (countPage a b c s).srv = s.srv ∧ (countPage a b c s).ops = s.ops ∧ (countPage a b c s).mdl = s.mdl ∧ (countPage a b c s).exu = s.exu ∧ (countPage a b c s).coll = s.coll ∧ (countPage a b c s).xn = s.xn ∧ (countPage a b c s).pw = s.pw ∧ (countPage a b c s).sec = s.sec ∧ (countPage a b c s).td = s.td ∧ (countPage a b c s).cof = s.cof ∧ (countPage a b c s).draws = s.draws ∧ (countPage a b c s).out = s.out := by
  simp [countPage]

@[simp] theorem activity_frame (a : ℕ) (b : Activity) (c : ℕ) (d : ℕ) (e : ℕ) (f : ℕ) (s : State) :
    (activity a b c d e f s).pending = s.pending ∧ (activity a b c d e f s).time = s.time ∧ (activity a b c d e f s).id = s.id ∧ (activity a b c d e f s).hi = s.hi ∧ (activity a b c d e f s).mem = s.mem ∧ (activity a b c d e f s).fab = s.fab ∧ (activity a b c d e f s).srv = s.srv ∧ (activity a b c d e f s).ops = s.ops ∧ (activity a b c d e f s).mdl = s.mdl ∧ (activity a b c d e f s).exu = s.exu ∧ (activity a b c d e f s).coll = s.coll ∧ (activity a b c d e f s).xn = s.xn ∧ (activity a b c d e f s).pw = s.pw ∧ (activity a b c d e f s).sec = s.sec ∧ (activity a b c d e f s).td = s.td ∧ (activity a b c d e f s).cof = s.cof ∧ (activity a b c d e f s).draws = s.draws ∧ (activity a b c d e f s).out = s.out := by
  simp [activity]

@[simp] theorem countGlobal_pending (a : ℕ) (b : ℕ) (s : State) : (countGlobal a b s).pending = s.pending := (rfl)
@[simp] theorem countGlobal_time (a : ℕ) (b : ℕ) (s : State) : (countGlobal a b s).time = s.time := (rfl)
@[simp] theorem countGlobal_id (a : ℕ) (b : ℕ) (s : State) : (countGlobal a b s).id = s.id := (rfl)
@[simp] theorem countGlobal_hi (a : ℕ) (b : ℕ) (s : State) : (countGlobal a b s).hi = s.hi := (rfl)
@[simp] theorem countGlobal_ctxs (a : ℕ) (b : ℕ) (s : State) : (countGlobal a b s).ctxs = s.ctxs := (rfl)
@[simp] theorem countGlobal_mem (a : ℕ) (b : ℕ) (s : State) : (countGlobal a b s).mem = s.mem := (rfl)
@[simp] theorem countGlobal_fab (a : ℕ) (b : ℕ) (s : State) : (countGlobal a b s).fab = s.fab := (rfl)
@[simp] theorem countGlobal_srv (a : ℕ) (b : ℕ) (s : State) : (countGlobal a b s).srv = s.srv := (rfl)
@[simp] theorem countGlobal_ops (a : ℕ) (b : ℕ) (s : State) : (countGlobal a b s).ops = s.ops := (rfl)
@[simp] theorem countGlobal_mdl (a : ℕ) (b : ℕ) (s : State) : (countGlobal a b s).mdl = s.mdl := (rfl)
@[simp] theorem countGlobal_exu (a : ℕ) (b : ℕ) (s : State) : (countGlobal a b s).exu = s.exu := (rfl)
@[simp] theorem countGlobal_coll (a : ℕ) (b : ℕ) (s : State) : (countGlobal a b s).coll = s.coll := (rfl)
@[simp] theorem countGlobal_xn (a : ℕ) (b : ℕ) (s : State) : (countGlobal a b s).xn = s.xn := (rfl)
@[simp] theorem countGlobal_pw (a : ℕ) (b : ℕ) (s : State) : (countGlobal a b s).pw = s.pw := (rfl)
@[simp] theorem countGlobal_sec (a : ℕ) (b : ℕ) (s : State) : (countGlobal a b s).sec = s.sec := (rfl)
@[simp] theorem countGlobal_cof (a : ℕ) (b : ℕ) (s : State) : (countGlobal a b s).cof = s.cof := (rfl)
@[simp] theorem countGlobal_draws (a : ℕ) (b : ℕ) (s : State) : (countGlobal a b s).draws = s.draws := (rfl)
@[simp] theorem countGlobal_out (a : ℕ) (b : ℕ) (s : State) : (countGlobal a b s).out = s.out := (rfl)

@[simp] theorem countHostRd_frame (a : ℕ) (b : ℕ) (c : ℕ) (d : ℕ) (e : ℕ) (s : State) :
    (countHostRd a b c d e s).pending = s.pending ∧ (countHostRd a b c d e s).time = s.time ∧ (countHostRd a b c d e s).id = s.id ∧ (countHostRd a b c d e s).hi = s.hi ∧ (countHostRd a b c d e s).mem = s.mem ∧ (countHostRd a b c d e s).fab = s.fab ∧ (countHostRd a b c d e s).srv = s.srv ∧ (countHostRd a b c d e s).ops = s.ops ∧ (countHostRd a b c d e s).mdl = s.mdl ∧ (countHostRd a b c d e s).exu = s.exu ∧ (countHostRd a b c d e s).coll = s.coll ∧ (countHostRd a b c d e s).xn = s.xn ∧ (countHostRd a b c d e s).pw = s.pw ∧ (countHostRd a b c d e s).sec = s.sec ∧ (countHostRd a b c d e s).cof = s.cof ∧ (countHostRd a b c d e s).draws = s.draws ∧ (countHostRd a b c d e s).out = s.out := by
  simp [countHostRd]

@[simp] theorem countHostWr_frame (a : ℕ) (b : ℕ) (c : ℕ) (d : ℕ) (e : ℕ) (s : State) :
    (countHostWr a b c d e s).pending = s.pending ∧ (countHostWr a b c d e s).time = s.time ∧ (countHostWr a b c d e s).id = s.id ∧ (countHostWr a b c d e s).hi = s.hi ∧ (countHostWr a b c d e s).mem = s.mem ∧ (countHostWr a b c d e s).fab = s.fab ∧ (countHostWr a b c d e s).srv = s.srv ∧ (countHostWr a b c d e s).ops = s.ops ∧ (countHostWr a b c d e s).mdl = s.mdl ∧ (countHostWr a b c d e s).exu = s.exu ∧ (countHostWr a b c d e s).coll = s.coll ∧ (countHostWr a b c d e s).xn = s.xn ∧ (countHostWr a b c d e s).pw = s.pw ∧ (countHostWr a b c d e s).sec = s.sec ∧ (countHostWr a b c d e s).cof = s.cof ∧ (countHostWr a b c d e s).draws = s.draws ∧ (countHostWr a b c d e s).out = s.out := by
  simp [countHostWr]

@[simp] theorem readHost_frame (a : ℕ) (b : ℕ) (c : ℕ) (d : ℕ) (e : ℕ) (f : ℕ) (s : State) :
    (readHost a b c d e f s).pending = s.pending ∧ (readHost a b c d e f s).time = s.time ∧ (readHost a b c d e f s).id = s.id ∧ (readHost a b c d e f s).hi = s.hi ∧ (readHost a b c d e f s).mem = s.mem ∧ (readHost a b c d e f s).fab = s.fab ∧ (readHost a b c d e f s).srv = s.srv ∧ (readHost a b c d e f s).ops = s.ops ∧ (readHost a b c d e f s).mdl = s.mdl ∧ (readHost a b c d e f s).exu = s.exu ∧ (readHost a b c d e f s).coll = s.coll ∧ (readHost a b c d e f s).xn = s.xn ∧ (readHost a b c d e f s).pw = s.pw ∧ (readHost a b c d e f s).sec = s.sec ∧ (readHost a b c d e f s).cof = s.cof ∧ (readHost a b c d e f s).draws = s.draws := by
  simp [readHost]

@[simp] theorem writeHost_frame (a : ℕ) (b : ℕ) (c : List Byte) (d : ℕ) (e : ℕ) (f : ℕ) (s : State) :
    (writeHost a b c d e f s).pending = s.pending ∧ (writeHost a b c d e f s).time = s.time ∧ (writeHost a b c d e f s).id = s.id ∧ (writeHost a b c d e f s).hi = s.hi ∧ (writeHost a b c d e f s).mem = s.mem ∧ (writeHost a b c d e f s).fab = s.fab ∧ (writeHost a b c d e f s).srv = s.srv ∧ (writeHost a b c d e f s).ops = s.ops ∧ (writeHost a b c d e f s).mdl = s.mdl ∧ (writeHost a b c d e f s).exu = s.exu ∧ (writeHost a b c d e f s).coll = s.coll ∧ (writeHost a b c d e f s).xn = s.xn ∧ (writeHost a b c d e f s).pw = s.pw ∧ (writeHost a b c d e f s).sec = s.sec ∧ (writeHost a b c d e f s).cof = s.cof ∧ (writeHost a b c d e f s).draws = s.draws := by
  simp [writeHost]

@[simp] theorem markTraceLoss_frame (a : List ℕ) (s : State) :
    (markTraceLoss a s).pending = s.pending ∧ (markTraceLoss a s).time = s.time ∧ (markTraceLoss a s).id = s.id ∧ (markTraceLoss a s).hi = s.hi ∧ (markTraceLoss a s).ctxs = s.ctxs ∧ (markTraceLoss a s).mem = s.mem ∧ (markTraceLoss a s).fab = s.fab ∧ (markTraceLoss a s).ops = s.ops ∧ (markTraceLoss a s).mdl = s.mdl ∧ (markTraceLoss a s).exu = s.exu ∧ (markTraceLoss a s).coll = s.coll ∧ (markTraceLoss a s).xn = s.xn ∧ (markTraceLoss a s).pw = s.pw ∧ (markTraceLoss a s).sec = s.sec ∧ (markTraceLoss a s).td = s.td ∧ (markTraceLoss a s).cof = s.cof ∧ (markTraceLoss a s).draws = s.draws ∧ (markTraceLoss a s).out = s.out := by
  simp [markTraceLoss]

@[simp] theorem dropTrace_frame (a : ℕ) (b : List ℕ) (s : State) :
    (dropTrace a b s).pending = s.pending ∧ (dropTrace a b s).time = s.time ∧ (dropTrace a b s).id = s.id ∧ (dropTrace a b s).hi = s.hi ∧ (dropTrace a b s).mem = s.mem ∧ (dropTrace a b s).fab = s.fab ∧ (dropTrace a b s).ops = s.ops ∧ (dropTrace a b s).mdl = s.mdl ∧ (dropTrace a b s).exu = s.exu ∧ (dropTrace a b s).coll = s.coll ∧ (dropTrace a b s).xn = s.xn ∧ (dropTrace a b s).pw = s.pw ∧ (dropTrace a b s).sec = s.sec ∧ (dropTrace a b s).td = s.td ∧ (dropTrace a b s).cof = s.cof ∧ (dropTrace a b s).draws = s.draws ∧ (dropTrace a b s).out = s.out := by
  simp only [dropTrace]
  repeat' split
  all_goals simp

@[simp] theorem putTrace_frame (a : ℕ) (b : ℕ) (c : ℕ) (d : ℕ) (e : TraceKind) (s : State) :
    (putTrace a b c d e s).pending = s.pending ∧ (putTrace a b c d e s).time = s.time ∧ (putTrace a b c d e s).id = s.id ∧ (putTrace a b c d e s).hi = s.hi ∧ (putTrace a b c d e s).mem = s.mem ∧ (putTrace a b c d e s).fab = s.fab ∧ (putTrace a b c d e s).srv = s.srv ∧ (putTrace a b c d e s).ops = s.ops ∧ (putTrace a b c d e s).mdl = s.mdl ∧ (putTrace a b c d e s).exu = s.exu ∧ (putTrace a b c d e s).coll = s.coll ∧ (putTrace a b c d e s).xn = s.xn ∧ (putTrace a b c d e s).pw = s.pw ∧ (putTrace a b c d e s).sec = s.sec ∧ (putTrace a b c d e s).cof = s.cof ∧ (putTrace a b c d e s).draws = s.draws := by
  simp only [putTrace]
  repeat' split
  all_goals simp

@[simp] theorem putLoss_frame (a : ℕ) (s : State) :
    (putLoss a s).pending = s.pending ∧ (putLoss a s).time = s.time ∧ (putLoss a s).id = s.id ∧ (putLoss a s).hi = s.hi ∧ (putLoss a s).mem = s.mem ∧ (putLoss a s).fab = s.fab ∧ (putLoss a s).srv = s.srv ∧ (putLoss a s).ops = s.ops ∧ (putLoss a s).mdl = s.mdl ∧ (putLoss a s).exu = s.exu ∧ (putLoss a s).coll = s.coll ∧ (putLoss a s).xn = s.xn ∧ (putLoss a s).pw = s.pw ∧ (putLoss a s).sec = s.sec ∧ (putLoss a s).cof = s.cof ∧ (putLoss a s).draws = s.draws := by
  simp only [putLoss]
  repeat' split
  all_goals simp

@[simp] theorem traceEvent_frame (a : ℕ) (b : ℕ) (c : ℕ) (d : ℕ) (e : TraceKind) (f : List ℕ) (s : State) :
    (traceEvent a b c d e f s).pending = s.pending ∧ (traceEvent a b c d e f s).time = s.time ∧ (traceEvent a b c d e f s).id = s.id ∧ (traceEvent a b c d e f s).hi = s.hi ∧ (traceEvent a b c d e f s).mem = s.mem ∧ (traceEvent a b c d e f s).fab = s.fab ∧ (traceEvent a b c d e f s).ops = s.ops ∧ (traceEvent a b c d e f s).mdl = s.mdl ∧ (traceEvent a b c d e f s).exu = s.exu ∧ (traceEvent a b c d e f s).coll = s.coll ∧ (traceEvent a b c d e f s).xn = s.xn ∧ (traceEvent a b c d e f s).pw = s.pw ∧ (traceEvent a b c d e f s).sec = s.sec ∧ (traceEvent a b c d e f s).cof = s.cof ∧ (traceEvent a b c d e f s).draws = s.draws := by
  simp only [traceEvent]
  repeat' split
  all_goals simp

@[simp] theorem signalVector_frame (a : ℕ) (b : ℕ) (s : State) :
    (signalVector a b s).pending = s.pending ∧ (signalVector a b s).time = s.time ∧ (signalVector a b s).id = s.id ∧ (signalVector a b s).ctxs = s.ctxs ∧ (signalVector a b s).mem = s.mem ∧ (signalVector a b s).fab = s.fab ∧ (signalVector a b s).srv = s.srv ∧ (signalVector a b s).ops = s.ops ∧ (signalVector a b s).mdl = s.mdl ∧ (signalVector a b s).exu = s.exu ∧ (signalVector a b s).coll = s.coll ∧ (signalVector a b s).xn = s.xn ∧ (signalVector a b s).pw = s.pw ∧ (signalVector a b s).sec = s.sec ∧ (signalVector a b s).td = s.td ∧ (signalVector a b s).cof = s.cof ∧ (signalVector a b s).draws = s.draws := by
  simp [signalVector]

@[simp] theorem signalVector_leaf (a : ℕ) (b : ℕ) (s : State) :
    (signalVector a b s).hi.lock = s.hi.lock := by
  simp [signalVector]

@[simp] theorem signalRing_frame (a : ℕ) (b : ℕ) (s : State) :
    (signalRing a b s).pending = s.pending ∧ (signalRing a b s).time = s.time ∧ (signalRing a b s).id = s.id ∧ (signalRing a b s).mem = s.mem ∧ (signalRing a b s).fab = s.fab ∧ (signalRing a b s).srv = s.srv ∧ (signalRing a b s).ops = s.ops ∧ (signalRing a b s).mdl = s.mdl ∧ (signalRing a b s).exu = s.exu ∧ (signalRing a b s).coll = s.coll ∧ (signalRing a b s).xn = s.xn ∧ (signalRing a b s).pw = s.pw ∧ (signalRing a b s).sec = s.sec ∧ (signalRing a b s).td = s.td ∧ (signalRing a b s).cof = s.cof ∧ (signalRing a b s).draws = s.draws := by
  simp [signalRing]

@[simp] theorem signalRing_leaf (a : ℕ) (b : ℕ) (s : State) :
    (signalRing a b s).hi.lock = s.hi.lock := by
  simp [signalRing]

@[simp] theorem afterRecord_frame (a : ℕ) (b : ℕ) (c : Bool) (s : State) :
    (afterRecord a b c s).pending = s.pending ∧ (afterRecord a b c s).time = s.time ∧ (afterRecord a b c s).id = s.id ∧ (afterRecord a b c s).mem = s.mem ∧ (afterRecord a b c s).fab = s.fab ∧ (afterRecord a b c s).srv = s.srv ∧ (afterRecord a b c s).ops = s.ops ∧ (afterRecord a b c s).mdl = s.mdl ∧ (afterRecord a b c s).exu = s.exu ∧ (afterRecord a b c s).coll = s.coll ∧ (afterRecord a b c s).xn = s.xn ∧ (afterRecord a b c s).pw = s.pw ∧ (afterRecord a b c s).sec = s.sec ∧ (afterRecord a b c s).td = s.td ∧ (afterRecord a b c s).cof = s.cof ∧ (afterRecord a b c s).draws = s.draws := by
  simp [afterRecord]

@[simp] theorem afterRecord_leaf (a : ℕ) (b : ℕ) (c : Bool) (s : State) :
    (afterRecord a b c s).hi.lock = s.hi.lock := by
  simp [afterRecord]

@[simp] theorem writeStatus_frame (a : ℕ) (s : State) :
    (writeStatus a s).pending = s.pending ∧ (writeStatus a s).time = s.time ∧ (writeStatus a s).id = s.id ∧ (writeStatus a s).hi = s.hi ∧ (writeStatus a s).mem = s.mem ∧ (writeStatus a s).fab = s.fab ∧ (writeStatus a s).srv = s.srv ∧ (writeStatus a s).ops = s.ops ∧ (writeStatus a s).mdl = s.mdl ∧ (writeStatus a s).exu = s.exu ∧ (writeStatus a s).coll = s.coll ∧ (writeStatus a s).xn = s.xn ∧ (writeStatus a s).pw = s.pw ∧ (writeStatus a s).sec = s.sec ∧ (writeStatus a s).cof = s.cof ∧ (writeStatus a s).draws = s.draws := by
  simp [writeStatus]

@[simp] theorem ringError_frame (a : ℕ) (b : ℕ) (s : State) :
    (ringError a b s).pending = s.pending ∧ (ringError a b s).time = s.time ∧ (ringError a b s).id = s.id ∧ (ringError a b s).hi = s.hi ∧ (ringError a b s).mem = s.mem ∧ (ringError a b s).fab = s.fab ∧ (ringError a b s).srv = s.srv ∧ (ringError a b s).ops = s.ops ∧ (ringError a b s).mdl = s.mdl ∧ (ringError a b s).exu = s.exu ∧ (ringError a b s).coll = s.coll ∧ (ringError a b s).xn = s.xn ∧ (ringError a b s).pw = s.pw ∧ (ringError a b s).sec = s.sec ∧ (ringError a b s).cof = s.cof ∧ (ringError a b s).draws = s.draws := by
  simp [ringError]

@[simp] theorem hostRingsError_frame (a : ℕ) (s : State) :
    (hostRingsError a s).pending = s.pending ∧ (hostRingsError a s).time = s.time ∧ (hostRingsError a s).id = s.id ∧ (hostRingsError a s).hi = s.hi ∧ (hostRingsError a s).mem = s.mem ∧ (hostRingsError a s).fab = s.fab ∧ (hostRingsError a s).srv = s.srv ∧ (hostRingsError a s).ops = s.ops ∧ (hostRingsError a s).mdl = s.mdl ∧ (hostRingsError a s).exu = s.exu ∧ (hostRingsError a s).coll = s.coll ∧ (hostRingsError a s).xn = s.xn ∧ (hostRingsError a s).pw = s.pw ∧ (hostRingsError a s).sec = s.sec ∧ (hostRingsError a s).cof = s.cof ∧ (hostRingsError a s).draws = s.draws := by
  simp [hostRingsError]

@[simp] theorem dropHeld_frame (a : ℕ) (s : State) :
    (dropHeld a s).pending = s.pending ∧ (dropHeld a s).time = s.time ∧ (dropHeld a s).id = s.id ∧ (dropHeld a s).ctxs = s.ctxs ∧ (dropHeld a s).mem = s.mem ∧ (dropHeld a s).fab = s.fab ∧ (dropHeld a s).srv = s.srv ∧ (dropHeld a s).ops = s.ops ∧ (dropHeld a s).mdl = s.mdl ∧ (dropHeld a s).exu = s.exu ∧ (dropHeld a s).coll = s.coll ∧ (dropHeld a s).xn = s.xn ∧ (dropHeld a s).pw = s.pw ∧ (dropHeld a s).sec = s.sec ∧ (dropHeld a s).td = s.td ∧ (dropHeld a s).cof = s.cof ∧ (dropHeld a s).draws = s.draws ∧ (dropHeld a s).out = s.out := by
  simp [dropHeld]

@[simp] theorem dropHeld_leaf (a : ℕ) (s : State) :
    (dropHeld a s).hi.lock = s.hi.lock := by
  simp [dropHeld]

@[simp] theorem settleReset_frame (a : ℕ) (s : State) :
    (settleReset a s).pending = s.pending ∧ (settleReset a s).time = s.time ∧ (settleReset a s).id = s.id ∧ (settleReset a s).hi = s.hi ∧ (settleReset a s).mem = s.mem ∧ (settleReset a s).fab = s.fab ∧ (settleReset a s).srv = s.srv ∧ (settleReset a s).ops = s.ops ∧ (settleReset a s).mdl = s.mdl ∧ (settleReset a s).exu = s.exu ∧ (settleReset a s).coll = s.coll ∧ (settleReset a s).xn = s.xn ∧ (settleReset a s).pw = s.pw ∧ (settleReset a s).sec = s.sec ∧ (settleReset a s).td = s.td ∧ (settleReset a s).cof = s.cof ∧ (settleReset a s).draws = s.draws ∧ (settleReset a s).out = s.out := by
  simp [settleReset]

@[simp] theorem releaseRoom_frame (a : ℕ) (b : ℕ) (c : ℕ) (s : State) :
    (releaseRoom a b c s).pending = s.pending ∧ (releaseRoom a b c s).time = s.time ∧ (releaseRoom a b c s).id = s.id ∧ (releaseRoom a b c s).hi = s.hi ∧ (releaseRoom a b c s).mem = s.mem ∧ (releaseRoom a b c s).fab = s.fab ∧ (releaseRoom a b c s).srv = s.srv ∧ (releaseRoom a b c s).ops = s.ops ∧ (releaseRoom a b c s).mdl = s.mdl ∧ (releaseRoom a b c s).exu = s.exu ∧ (releaseRoom a b c s).coll = s.coll ∧ (releaseRoom a b c s).xn = s.xn ∧ (releaseRoom a b c s).pw = s.pw ∧ (releaseRoom a b c s).sec = s.sec ∧ (releaseRoom a b c s).td = s.td ∧ (releaseRoom a b c s).cof = s.cof ∧ (releaseRoom a b c s).draws = s.draws ∧ (releaseRoom a b c s).out = s.out := by
  simp [releaseRoom]

@[simp] theorem putRec_frame (a : ℕ) (b : ℕ) (c : ℕ → Bool → CompRec) (d : Bool) (s : State) :
    (putRec a b c d s).pending = s.pending ∧ (putRec a b c d s).time = s.time ∧ (putRec a b c d s).id = s.id ∧ (putRec a b c d s).mem = s.mem ∧ (putRec a b c d s).fab = s.fab ∧ (putRec a b c d s).srv = s.srv ∧ (putRec a b c d s).ops = s.ops ∧ (putRec a b c d s).mdl = s.mdl ∧ (putRec a b c d s).exu = s.exu ∧ (putRec a b c d s).coll = s.coll ∧ (putRec a b c d s).xn = s.xn ∧ (putRec a b c d s).pw = s.pw ∧ (putRec a b c d s).sec = s.sec ∧ (putRec a b c d s).cof = s.cof ∧ (putRec a b c d s).draws = s.draws := by
  simp [putRec]

@[simp] theorem putRec_leaf (a : ℕ) (b : ℕ) (c : ℕ → Bool → CompRec) (d : Bool) (s : State) :
    (putRec a b c d s).hi.lock = s.hi.lock := by
  simp [putRec]

@[simp] theorem countFinal_frame (a : ℕ) (b : Status) (c : ℕ) (s : State) :
    (countFinal a b c s).pending = s.pending ∧ (countFinal a b c s).time = s.time ∧ (countFinal a b c s).id = s.id ∧ (countFinal a b c s).hi = s.hi ∧ (countFinal a b c s).mem = s.mem ∧ (countFinal a b c s).fab = s.fab ∧ (countFinal a b c s).srv = s.srv ∧ (countFinal a b c s).ops = s.ops ∧ (countFinal a b c s).mdl = s.mdl ∧ (countFinal a b c s).exu = s.exu ∧ (countFinal a b c s).coll = s.coll ∧ (countFinal a b c s).xn = s.xn ∧ (countFinal a b c s).pw = s.pw ∧ (countFinal a b c s).sec = s.sec ∧ (countFinal a b c s).td = s.td ∧ (countFinal a b c s).cof = s.cof ∧ (countFinal a b c s).draws = s.draws ∧ (countFinal a b c s).out = s.out := by
  simp [countFinal]

@[simp] theorem owedRec_frame (a : Cmd) (b : RecKind) (c : Status) (d : ℕ) (e : ℕ) (f : ℕ) (s : State) :
    (owedRec a b c d e f s).pending = s.pending ∧ (owedRec a b c d e f s).time = s.time ∧ (owedRec a b c d e f s).id = s.id ∧ (owedRec a b c d e f s).mem = s.mem ∧ (owedRec a b c d e f s).fab = s.fab ∧ (owedRec a b c d e f s).srv = s.srv ∧ (owedRec a b c d e f s).ops = s.ops ∧ (owedRec a b c d e f s).mdl = s.mdl ∧ (owedRec a b c d e f s).exu = s.exu ∧ (owedRec a b c d e f s).coll = s.coll ∧ (owedRec a b c d e f s).xn = s.xn ∧ (owedRec a b c d e f s).pw = s.pw ∧ (owedRec a b c d e f s).sec = s.sec ∧ (owedRec a b c d e f s).cof = s.cof ∧ (owedRec a b c d e f s).draws = s.draws := by
  simp [owedRec]

@[simp] theorem owedRec_leaf (a : Cmd) (b : RecKind) (c : Status) (d : ℕ) (e : ℕ) (f : ℕ) (s : State) :
    (owedRec a b c d e f s).hi.lock = s.hi.lock := by
  simp [owedRec]

@[simp] theorem final_frame (a : Cmd) (b : Status) (c : ℕ) (d : ℕ) (s : State) :
    (final a b c d s).pending = s.pending ∧ (final a b c d s).time = s.time ∧ (final a b c d s).id = s.id ∧ (final a b c d s).mem = s.mem ∧ (final a b c d s).fab = s.fab ∧ (final a b c d s).srv = s.srv ∧ (final a b c d s).ops = s.ops ∧ (final a b c d s).mdl = s.mdl ∧ (final a b c d s).exu = s.exu ∧ (final a b c d s).coll = s.coll ∧ (final a b c d s).xn = s.xn ∧ (final a b c d s).pw = s.pw ∧ (final a b c d s).sec = s.sec ∧ (final a b c d s).cof = s.cof ∧ (final a b c d s).draws = s.draws := by
  simp [final]

@[simp] theorem final_leaf (a : Cmd) (b : Status) (c : ℕ) (d : ℕ) (s : State) :
    (final a b c d s).hi.lock = s.hi.lock := by
  simp [final]

@[simp] theorem eventRec_frame (a : ℕ) (b : ℕ) (c : ℕ) (d : ℕ) (s : State) :
    (eventRec a b c d s).pending = s.pending ∧ (eventRec a b c d s).time = s.time ∧ (eventRec a b c d s).id = s.id ∧ (eventRec a b c d s).mem = s.mem ∧ (eventRec a b c d s).fab = s.fab ∧ (eventRec a b c d s).srv = s.srv ∧ (eventRec a b c d s).ops = s.ops ∧ (eventRec a b c d s).mdl = s.mdl ∧ (eventRec a b c d s).exu = s.exu ∧ (eventRec a b c d s).coll = s.coll ∧ (eventRec a b c d s).xn = s.xn ∧ (eventRec a b c d s).pw = s.pw ∧ (eventRec a b c d s).sec = s.sec ∧ (eventRec a b c d s).cof = s.cof ∧ (eventRec a b c d s).draws = s.draws := by
  simp [eventRec]

@[simp] theorem eventRec_leaf (a : ℕ) (b : ℕ) (c : ℕ) (d : ℕ) (s : State) :
    (eventRec a b c d s).hi.lock = s.hi.lock := by
  simp [eventRec]

@[simp] theorem regWrite_pending (a : ℕ) (b : State → State) (s : State) (h : ∀ s, (b s).pending = s.pending) :
    (regWrite a b s).pending = s.pending := by
  unfold regWrite; (try dsimp only); (repeat' split) <;> first | (simp [h]; done) | simp_all

@[simp] theorem regWrite_id (a : ℕ) (b : State → State) (s : State) (h : ∀ s, (b s).id = s.id) :
    (regWrite a b s).id = s.id := by
  unfold regWrite; (try dsimp only); (repeat' split) <;> first | (simp [h]; done) | simp_all

@[simp] theorem regWrite_hi (a : ℕ) (b : State → State) (s : State) (h : ∀ s, (b s).hi = s.hi) :
    (regWrite a b s).hi = s.hi := by
  unfold regWrite; (try dsimp only); (repeat' split) <;> first | (simp [h]; done) | simp_all

@[simp] theorem regWrite_ctxs (a : ℕ) (b : State → State) (s : State) (h : ∀ s, (b s).ctxs = s.ctxs) :
    (regWrite a b s).ctxs = s.ctxs := by
  unfold regWrite; (try dsimp only); (repeat' split) <;> first | (simp [h]; done) | simp_all

@[simp] theorem regWrite_mem (a : ℕ) (b : State → State) (s : State) (h : ∀ s, (b s).mem = s.mem) :
    (regWrite a b s).mem = s.mem := by
  unfold regWrite; (try dsimp only); (repeat' split) <;> first | (simp [h]; done) | simp_all

@[simp] theorem regWrite_fab (a : ℕ) (b : State → State) (s : State) (h : ∀ s, (b s).fab = s.fab) :
    (regWrite a b s).fab = s.fab := by
  unfold regWrite; (try dsimp only); (repeat' split) <;> first | (simp [h]; done) | simp_all

@[simp] theorem regWrite_srv (a : ℕ) (b : State → State) (s : State) (h : ∀ s, (b s).srv = s.srv) :
    (regWrite a b s).srv = s.srv := by
  unfold regWrite; (try dsimp only); (repeat' split) <;> first | (simp [h]; done) | simp_all

@[simp] theorem regWrite_ops (a : ℕ) (b : State → State) (s : State) (h : ∀ s, (b s).ops = s.ops) :
    (regWrite a b s).ops = s.ops := by
  unfold regWrite; (try dsimp only); (repeat' split) <;> first | (simp [h]; done) | simp_all

@[simp] theorem regWrite_mdl (a : ℕ) (b : State → State) (s : State) (h : ∀ s, (b s).mdl = s.mdl) :
    (regWrite a b s).mdl = s.mdl := by
  unfold regWrite; (try dsimp only); (repeat' split) <;> first | (simp [h]; done) | simp_all

@[simp] theorem regWrite_exu (a : ℕ) (b : State → State) (s : State) (h : ∀ s, (b s).exu = s.exu) :
    (regWrite a b s).exu = s.exu := by
  unfold regWrite; (try dsimp only); (repeat' split) <;> first | (simp [h]; done) | simp_all

@[simp] theorem regWrite_coll (a : ℕ) (b : State → State) (s : State) (h : ∀ s, (b s).coll = s.coll) :
    (regWrite a b s).coll = s.coll := by
  unfold regWrite; (try dsimp only); (repeat' split) <;> first | (simp [h]; done) | simp_all

@[simp] theorem regWrite_xn (a : ℕ) (b : State → State) (s : State) (h : ∀ s, (b s).xn = s.xn) :
    (regWrite a b s).xn = s.xn := by
  unfold regWrite; (try dsimp only); (repeat' split) <;> first | (simp [h]; done) | simp_all

@[simp] theorem regWrite_pw (a : ℕ) (b : State → State) (s : State) (h : ∀ s, (b s).pw = s.pw) :
    (regWrite a b s).pw = s.pw := by
  unfold regWrite; (try dsimp only); (repeat' split) <;> first | (simp [h]; done) | simp_all

@[simp] theorem regWrite_sec (a : ℕ) (b : State → State) (s : State) (h : ∀ s, (b s).sec = s.sec) :
    (regWrite a b s).sec = s.sec := by
  unfold regWrite; (try dsimp only); (repeat' split) <;> first | (simp [h]; done) | simp_all

@[simp] theorem regWrite_td (a : ℕ) (b : State → State) (s : State) (h : ∀ s, (b s).td = s.td) :
    (regWrite a b s).td = s.td := by
  unfold regWrite; (try dsimp only); (repeat' split) <;> first | (simp [h]; done) | simp_all

@[simp] theorem regWrite_cof (a : ℕ) (b : State → State) (s : State) (h : ∀ s, (b s).cof = s.cof) :
    (regWrite a b s).cof = s.cof := by
  unfold regWrite; (try dsimp only); (repeat' split) <;> first | (simp [h]; done) | simp_all

@[simp] theorem regWrite_draws (a : ℕ) (b : State → State) (s : State) (h : ∀ s, (b s).draws = s.draws) :
    (regWrite a b s).draws = s.draws := by
  unfold regWrite; (try dsimp only); (repeat' split) <;> first | (simp [h]; done) | simp_all

@[simp] theorem regWrite_out (a : ℕ) (b : State → State) (s : State) (h : ∀ s, (b s).out = s.out) :
    (regWrite a b s).out = s.out := by
  unfold regWrite; (try dsimp only); (repeat' split) <;> first | (simp [h]; done) | simp_all

@[simp] theorem regWrite_mem_dram (a : ℕ) (b : State → State) (s : State) (h : ∀ s, (b s).mem.dram = s.mem.dram) :
    (regWrite a b s).mem.dram = s.mem.dram := by
  unfold regWrite; (try dsimp only); (repeat' split) <;> first | (simp [h]; done) | simp_all

@[simp] theorem regWrite_fab_scratch (a : ℕ) (b : State → State) (s : State) (h : ∀ s, (b s).fab.scratch = s.fab.scratch) :
    (regWrite a b s).fab.scratch = s.fab.scratch := by
  unfold regWrite; (try dsimp only); (repeat' split) <;> first | (simp [h]; done) | simp_all

@[simp] theorem regWrite_hi_lock (a : ℕ) (b : State → State) (s : State) (h : ∀ s, (b s).hi.lock = s.hi.lock) :
    (regWrite a b s).hi.lock = s.hi.lock := by
  unfold regWrite; (try dsimp only); (repeat' split) <;> first | (simp [h]; done) | simp_all

@[simp] theorem regWrite_sec_life (a : ℕ) (b : State → State) (s : State) (h : ∀ s, (b s).sec.life = s.sec.life) :
    (regWrite a b s).sec.life = s.sec.life := by
  unfold regWrite; (try dsimp only); (repeat' split) <;> first | (simp [h]; done) | simp_all

@[simp] theorem regWrite_sec_mboxBuf (a : ℕ) (b : State → State) (s : State) (h : ∀ s, (b s).sec.mboxBuf = s.sec.mboxBuf) :
    (regWrite a b s).sec.mboxBuf = s.sec.mboxBuf := by
  unfold regWrite; (try dsimp only); (repeat' split) <;> first | (simp [h]; done) | simp_all

@[simp] theorem regWrite_pw_st (a : ℕ) (b : State → State) (s : State) (h : ∀ s, (b s).pw.st = s.pw.st) :
    (regWrite a b s).pw.st = s.pw.st := by
  unfold regWrite; (try dsimp only); (repeat' split) <;> first | (simp [h]; done) | simp_all

@[simp] theorem countFetch_frame (a : ℕ) (b : ℕ) (s : State) :
    (countFetch a b s).pending = s.pending ∧ (countFetch a b s).time = s.time ∧ (countFetch a b s).id = s.id ∧ (countFetch a b s).hi = s.hi ∧ (countFetch a b s).mem = s.mem ∧ (countFetch a b s).fab = s.fab ∧ (countFetch a b s).srv = s.srv ∧ (countFetch a b s).ops = s.ops ∧ (countFetch a b s).mdl = s.mdl ∧ (countFetch a b s).exu = s.exu ∧ (countFetch a b s).coll = s.coll ∧ (countFetch a b s).xn = s.xn ∧ (countFetch a b s).pw = s.pw ∧ (countFetch a b s).sec = s.sec ∧ (countFetch a b s).td = s.td ∧ (countFetch a b s).cof = s.cof ∧ (countFetch a b s).draws = s.draws ∧ (countFetch a b s).out = s.out := by
  simp [countFetch]

@[simp] theorem refuseOp_frame (a : Hdr) (b : Status) (s : State) :
    (refuseOp a b s).pending = s.pending ∧ (refuseOp a b s).time = s.time ∧ (refuseOp a b s).id = s.id ∧ (refuseOp a b s).mem = s.mem ∧ (refuseOp a b s).fab = s.fab ∧ (refuseOp a b s).srv = s.srv ∧ (refuseOp a b s).ops = s.ops ∧ (refuseOp a b s).mdl = s.mdl ∧ (refuseOp a b s).exu = s.exu ∧ (refuseOp a b s).coll = s.coll ∧ (refuseOp a b s).xn = s.xn ∧ (refuseOp a b s).pw = s.pw ∧ (refuseOp a b s).sec = s.sec ∧ (refuseOp a b s).cof = s.cof ∧ (refuseOp a b s).draws = s.draws := by
  simp [refuseOp]

@[simp] theorem refuseOp_leaf (a : Hdr) (b : Status) (s : State) :
    (refuseOp a b s).hi.lock = s.hi.lock := by
  simp [refuseOp]

@[simp] theorem violate_frame (s : State) :
    (violate s).pending = s.pending ∧ (violate s).time = s.time ∧ (violate s).id = s.id ∧ (violate s).ctxs = s.ctxs ∧ (violate s).mem = s.mem ∧ (violate s).fab = s.fab ∧ (violate s).srv = s.srv ∧ (violate s).ops = s.ops ∧ (violate s).mdl = s.mdl ∧ (violate s).exu = s.exu ∧ (violate s).coll = s.coll ∧ (violate s).xn = s.xn ∧ (violate s).pw = s.pw ∧ (violate s).sec = s.sec ∧ (violate s).td = s.td ∧ (violate s).cof = s.cof ∧ (violate s).draws = s.draws ∧ (violate s).out = s.out := by
  simp [violate]

@[simp] theorem violate_leaf (s : State) :
    (violate s).hi.lock = s.hi.lock := by
  simp [violate]

@[simp] theorem lockedWrite_pending (a : Bool) (b : Bool) (c : State → State) (s : State) (h : ∀ s, (c s).pending = s.pending) :
    (lockedWrite a b c s).pending = s.pending := by
  unfold lockedWrite; (try dsimp only); (repeat' split) <;> first | (simp [h]; done) | simp_all

@[simp] theorem lockedWrite_time (a : Bool) (b : Bool) (c : State → State) (s : State) (h : ∀ s, (c s).time = s.time) :
    (lockedWrite a b c s).time = s.time := by
  unfold lockedWrite; (try dsimp only); (repeat' split) <;> first | (simp [h]; done) | simp_all

@[simp] theorem lockedWrite_id (a : Bool) (b : Bool) (c : State → State) (s : State) (h : ∀ s, (c s).id = s.id) :
    (lockedWrite a b c s).id = s.id := by
  unfold lockedWrite; (try dsimp only); (repeat' split) <;> first | (simp [h]; done) | simp_all

@[simp] theorem lockedWrite_ctxs (a : Bool) (b : Bool) (c : State → State) (s : State) (h : ∀ s, (c s).ctxs = s.ctxs) :
    (lockedWrite a b c s).ctxs = s.ctxs := by
  unfold lockedWrite; (try dsimp only); (repeat' split) <;> first | (simp [h]; done) | simp_all

@[simp] theorem lockedWrite_mem (a : Bool) (b : Bool) (c : State → State) (s : State) (h : ∀ s, (c s).mem = s.mem) :
    (lockedWrite a b c s).mem = s.mem := by
  unfold lockedWrite; (try dsimp only); (repeat' split) <;> first | (simp [h]; done) | simp_all

@[simp] theorem lockedWrite_fab (a : Bool) (b : Bool) (c : State → State) (s : State) (h : ∀ s, (c s).fab = s.fab) :
    (lockedWrite a b c s).fab = s.fab := by
  unfold lockedWrite; (try dsimp only); (repeat' split) <;> first | (simp [h]; done) | simp_all

@[simp] theorem lockedWrite_srv (a : Bool) (b : Bool) (c : State → State) (s : State) (h : ∀ s, (c s).srv = s.srv) :
    (lockedWrite a b c s).srv = s.srv := by
  unfold lockedWrite; (try dsimp only); (repeat' split) <;> first | (simp [h]; done) | simp_all

@[simp] theorem lockedWrite_ops (a : Bool) (b : Bool) (c : State → State) (s : State) (h : ∀ s, (c s).ops = s.ops) :
    (lockedWrite a b c s).ops = s.ops := by
  unfold lockedWrite; (try dsimp only); (repeat' split) <;> first | (simp [h]; done) | simp_all

@[simp] theorem lockedWrite_mdl (a : Bool) (b : Bool) (c : State → State) (s : State) (h : ∀ s, (c s).mdl = s.mdl) :
    (lockedWrite a b c s).mdl = s.mdl := by
  unfold lockedWrite; (try dsimp only); (repeat' split) <;> first | (simp [h]; done) | simp_all

@[simp] theorem lockedWrite_exu (a : Bool) (b : Bool) (c : State → State) (s : State) (h : ∀ s, (c s).exu = s.exu) :
    (lockedWrite a b c s).exu = s.exu := by
  unfold lockedWrite; (try dsimp only); (repeat' split) <;> first | (simp [h]; done) | simp_all

@[simp] theorem lockedWrite_coll (a : Bool) (b : Bool) (c : State → State) (s : State) (h : ∀ s, (c s).coll = s.coll) :
    (lockedWrite a b c s).coll = s.coll := by
  unfold lockedWrite; (try dsimp only); (repeat' split) <;> first | (simp [h]; done) | simp_all

@[simp] theorem lockedWrite_xn (a : Bool) (b : Bool) (c : State → State) (s : State) (h : ∀ s, (c s).xn = s.xn) :
    (lockedWrite a b c s).xn = s.xn := by
  unfold lockedWrite; (try dsimp only); (repeat' split) <;> first | (simp [h]; done) | simp_all

@[simp] theorem lockedWrite_pw (a : Bool) (b : Bool) (c : State → State) (s : State) (h : ∀ s, (c s).pw = s.pw) :
    (lockedWrite a b c s).pw = s.pw := by
  unfold lockedWrite; (try dsimp only); (repeat' split) <;> first | (simp [h]; done) | simp_all

@[simp] theorem lockedWrite_sec (a : Bool) (b : Bool) (c : State → State) (s : State) (h : ∀ s, (c s).sec = s.sec) :
    (lockedWrite a b c s).sec = s.sec := by
  unfold lockedWrite; (try dsimp only); (repeat' split) <;> first | (simp [h]; done) | simp_all

@[simp] theorem lockedWrite_td (a : Bool) (b : Bool) (c : State → State) (s : State) (h : ∀ s, (c s).td = s.td) :
    (lockedWrite a b c s).td = s.td := by
  unfold lockedWrite; (try dsimp only); (repeat' split) <;> first | (simp [h]; done) | simp_all

@[simp] theorem lockedWrite_cof (a : Bool) (b : Bool) (c : State → State) (s : State) (h : ∀ s, (c s).cof = s.cof) :
    (lockedWrite a b c s).cof = s.cof := by
  unfold lockedWrite; (try dsimp only); (repeat' split) <;> first | (simp [h]; done) | simp_all

@[simp] theorem lockedWrite_draws (a : Bool) (b : Bool) (c : State → State) (s : State) (h : ∀ s, (c s).draws = s.draws) :
    (lockedWrite a b c s).draws = s.draws := by
  unfold lockedWrite; (try dsimp only); (repeat' split) <;> first | (simp [h]; done) | simp_all

@[simp] theorem lockedWrite_out (a : Bool) (b : Bool) (c : State → State) (s : State) (h : ∀ s, (c s).out = s.out) :
    (lockedWrite a b c s).out = s.out := by
  unfold lockedWrite; (try dsimp only); (repeat' split) <;> first | (simp [h]; done) | simp_all

@[simp] theorem lockedWrite_mem_dram (a : Bool) (b : Bool) (c : State → State) (s : State) (h : ∀ s, (c s).mem.dram = s.mem.dram) :
    (lockedWrite a b c s).mem.dram = s.mem.dram := by
  unfold lockedWrite; (try dsimp only); (repeat' split) <;> first | (simp [h]; done) | simp_all

@[simp] theorem lockedWrite_fab_scratch (a : Bool) (b : Bool) (c : State → State) (s : State) (h : ∀ s, (c s).fab.scratch = s.fab.scratch) :
    (lockedWrite a b c s).fab.scratch = s.fab.scratch := by
  unfold lockedWrite; (try dsimp only); (repeat' split) <;> first | (simp [h]; done) | simp_all

@[simp] theorem lockedWrite_hi_lock (a : Bool) (b : Bool) (c : State → State) (s : State) (h : ∀ s, (c s).hi.lock = s.hi.lock) :
    (lockedWrite a b c s).hi.lock = s.hi.lock := by
  unfold lockedWrite; (try dsimp only); (repeat' split) <;> first | (simp [h]; done) | simp_all

@[simp] theorem lockedWrite_sec_life (a : Bool) (b : Bool) (c : State → State) (s : State) (h : ∀ s, (c s).sec.life = s.sec.life) :
    (lockedWrite a b c s).sec.life = s.sec.life := by
  unfold lockedWrite; (try dsimp only); (repeat' split) <;> first | (simp [h]; done) | simp_all

@[simp] theorem lockedWrite_sec_mboxBuf (a : Bool) (b : Bool) (c : State → State) (s : State) (h : ∀ s, (c s).sec.mboxBuf = s.sec.mboxBuf) :
    (lockedWrite a b c s).sec.mboxBuf = s.sec.mboxBuf := by
  unfold lockedWrite; (try dsimp only); (repeat' split) <;> first | (simp [h]; done) | simp_all

@[simp] theorem lockedWrite_pw_st (a : Bool) (b : Bool) (c : State → State) (s : State) (h : ∀ s, (c s).pw.st = s.pw.st) :
    (lockedWrite a b c s).pw.st = s.pw.st := by
  unfold lockedWrite; (try dsimp only); (repeat' split) <;> first | (simp [h]; done) | simp_all

@[simp] theorem coffer_frame (a : ℕ) (b : ℕ) (c : CofferEvent) (d : ℕ) (e : ℕ) (f : ℕ) (g : ℕ) (s : State) :
    (coffer a b c d e f g s).pending = s.pending ∧ (coffer a b c d e f g s).time = s.time ∧ (coffer a b c d e f g s).id = s.id ∧ (coffer a b c d e f g s).hi = s.hi ∧ (coffer a b c d e f g s).ctxs = s.ctxs ∧ (coffer a b c d e f g s).mem = s.mem ∧ (coffer a b c d e f g s).fab = s.fab ∧ (coffer a b c d e f g s).srv = s.srv ∧ (coffer a b c d e f g s).ops = s.ops ∧ (coffer a b c d e f g s).mdl = s.mdl ∧ (coffer a b c d e f g s).exu = s.exu ∧ (coffer a b c d e f g s).coll = s.coll ∧ (coffer a b c d e f g s).xn = s.xn ∧ (coffer a b c d e f g s).pw = s.pw ∧ (coffer a b c d e f g s).sec = s.sec ∧ (coffer a b c d e f g s).td = s.td ∧ (coffer a b c d e f g s).draws = s.draws ∧ (coffer a b c d e f g s).out = s.out := by
  simp [coffer]

@[simp] theorem freezeCoffer_frame (a : ℕ) (s : State) :
    (freezeCoffer a s).pending = s.pending ∧ (freezeCoffer a s).time = s.time ∧ (freezeCoffer a s).id = s.id ∧ (freezeCoffer a s).hi = s.hi ∧ (freezeCoffer a s).ctxs = s.ctxs ∧ (freezeCoffer a s).mem = s.mem ∧ (freezeCoffer a s).fab = s.fab ∧ (freezeCoffer a s).srv = s.srv ∧ (freezeCoffer a s).ops = s.ops ∧ (freezeCoffer a s).mdl = s.mdl ∧ (freezeCoffer a s).exu = s.exu ∧ (freezeCoffer a s).coll = s.coll ∧ (freezeCoffer a s).xn = s.xn ∧ (freezeCoffer a s).pw = s.pw ∧ (freezeCoffer a s).sec = s.sec ∧ (freezeCoffer a s).td = s.td ∧ (freezeCoffer a s).draws = s.draws ∧ (freezeCoffer a s).out = s.out := by
  simp [freezeCoffer]

@[simp] theorem releaseCoffer_frame (s : State) :
    (releaseCoffer s).pending = s.pending ∧ (releaseCoffer s).time = s.time ∧ (releaseCoffer s).id = s.id ∧ (releaseCoffer s).hi = s.hi ∧ (releaseCoffer s).ctxs = s.ctxs ∧ (releaseCoffer s).mem = s.mem ∧ (releaseCoffer s).fab = s.fab ∧ (releaseCoffer s).srv = s.srv ∧ (releaseCoffer s).ops = s.ops ∧ (releaseCoffer s).mdl = s.mdl ∧ (releaseCoffer s).exu = s.exu ∧ (releaseCoffer s).coll = s.coll ∧ (releaseCoffer s).xn = s.xn ∧ (releaseCoffer s).pw = s.pw ∧ (releaseCoffer s).sec = s.sec ∧ (releaseCoffer s).td = s.td ∧ (releaseCoffer s).draws = s.draws ∧ (releaseCoffer s).out = s.out := by
  simp [releaseCoffer]

@[simp] theorem advise_frame (a : ℕ) (b : ℕ) (s : State) :
    (advise a b s).pending = s.pending ∧ (advise a b s).time = s.time ∧ (advise a b s).id = s.id ∧ (advise a b s).hi = s.hi ∧ (advise a b s).ctxs = s.ctxs ∧ (advise a b s).mem = s.mem ∧ (advise a b s).fab = s.fab ∧ (advise a b s).srv = s.srv ∧ (advise a b s).ops = s.ops ∧ (advise a b s).mdl = s.mdl ∧ (advise a b s).exu = s.exu ∧ (advise a b s).coll = s.coll ∧ (advise a b s).xn = s.xn ∧ (advise a b s).pw = s.pw ∧ (advise a b s).sec = s.sec ∧ (advise a b s).cof = s.cof ∧ (advise a b s).draws = s.draws := by
  simp [advise]

end Sys2Proof.Machine
end

