-- ==== Sys2Proof/Laws/Poll.lean ====
section
/-! SUPPORT. What the operations of Machine/Poll.lean leave unchanged: the parts of the state that each does not touch. -/
namespace Sys2Proof.Machine

@[simp] theorem fetchRing_frame (a : ℕ) (b : ℕ) (c : ℕ) (s : State) :
    (fetchRing a b c s).pending = s.pending ∧ (fetchRing a b c s).time = s.time ∧ (fetchRing a b c s).id = s.id ∧ (fetchRing a b c s).mem = s.mem ∧ (fetchRing a b c s).fab = s.fab ∧ (fetchRing a b c s).srv = s.srv ∧ (fetchRing a b c s).ops = s.ops ∧ (fetchRing a b c s).mdl = s.mdl ∧ (fetchRing a b c s).exu = s.exu ∧ (fetchRing a b c s).coll = s.coll ∧ (fetchRing a b c s).xn = s.xn ∧ (fetchRing a b c s).pw = s.pw ∧ (fetchRing a b c s).sec = s.sec ∧ (fetchRing a b c s).td = s.td ∧ (fetchRing a b c s).cof = s.cof ∧ (fetchRing a b c s).draws = s.draws := by
  induction c generalizing a b s with
  | zero => simp [fetchRing]
  | succ m ih =>
    unfold fetchRing
    try dsimp only
    repeat' split
    all_goals simp [ih]

@[simp] theorem fetchRing_leaf (a : ℕ) (b : ℕ) (c : ℕ) (s : State) :
    (fetchRing a b c s).hi.lock = s.hi.lock := by
  induction c generalizing a b s with
  | zero => simp [fetchRing]
  | succ m ih =>
    unfold fetchRing
    try dsimp only
    repeat' split
    all_goals simp [ih]

@[simp] theorem fetchAll_frame (s : State) :
    (fetchAll s).pending = s.pending ∧ (fetchAll s).time = s.time ∧ (fetchAll s).id = s.id ∧ (fetchAll s).mem = s.mem ∧ (fetchAll s).fab = s.fab ∧ (fetchAll s).srv = s.srv ∧ (fetchAll s).ops = s.ops ∧ (fetchAll s).mdl = s.mdl ∧ (fetchAll s).exu = s.exu ∧ (fetchAll s).coll = s.coll ∧ (fetchAll s).xn = s.xn ∧ (fetchAll s).pw = s.pw ∧ (fetchAll s).sec = s.sec ∧ (fetchAll s).td = s.td ∧ (fetchAll s).cof = s.cof ∧ (fetchAll s).draws = s.draws := by
  simp [fetchAll]

@[simp] theorem fetchAll_leaf (s : State) :
    (fetchAll s).hi.lock = s.hi.lock := by
  simp [fetchAll]

@[simp] theorem readBlock_frame (a : ℕ) (s : State) :
    (readBlock a s).pending = s.pending ∧ (readBlock a s).time = s.time ∧ (readBlock a s).id = s.id ∧ (readBlock a s).hi = s.hi ∧ (readBlock a s).mem = s.mem ∧ (readBlock a s).fab = s.fab ∧ (readBlock a s).srv = s.srv ∧ (readBlock a s).ops = s.ops ∧ (readBlock a s).mdl = s.mdl ∧ (readBlock a s).exu = s.exu ∧ (readBlock a s).coll = s.coll ∧ (readBlock a s).xn = s.xn ∧ (readBlock a s).pw = s.pw ∧ (readBlock a s).sec = s.sec ∧ (readBlock a s).cof = s.cof ∧ (readBlock a s).draws = s.draws := by
  simp [readBlock]

@[simp] theorem readBlocks_frame (s : State) :
    (readBlocks s).pending = s.pending ∧ (readBlocks s).time = s.time ∧ (readBlocks s).id = s.id ∧ (readBlocks s).mem = s.mem ∧ (readBlocks s).fab = s.fab ∧ (readBlocks s).srv = s.srv ∧ (readBlocks s).ops = s.ops ∧ (readBlocks s).mdl = s.mdl ∧ (readBlocks s).exu = s.exu ∧ (readBlocks s).coll = s.coll ∧ (readBlocks s).xn = s.xn ∧ (readBlocks s).pw = s.pw ∧ (readBlocks s).sec = s.sec ∧ (readBlocks s).cof = s.cof ∧ (readBlocks s).draws = s.draws := by
  simp [readBlocks]

@[simp] theorem readBlocks_leaf (s : State) :
    (readBlocks s).hi.lock = s.hi.lock := by
  simp [readBlocks]

@[simp] theorem startPoll_frame (s : State) :
    (startPoll s).pending = s.pending ∧ (startPoll s).time = s.time ∧ (startPoll s).id = s.id ∧ (startPoll s).mem = s.mem ∧ (startPoll s).fab = s.fab ∧ (startPoll s).srv = s.srv ∧ (startPoll s).ops = s.ops ∧ (startPoll s).mdl = s.mdl ∧ (startPoll s).exu = s.exu ∧ (startPoll s).coll = s.coll ∧ (startPoll s).xn = s.xn ∧ (startPoll s).pw = s.pw ∧ (startPoll s).sec = s.sec ∧ (startPoll s).cof = s.cof ∧ (startPoll s).draws = s.draws := by
  simp [startPoll]

@[simp] theorem startPoll_leaf (s : State) :
    (startPoll s).hi.lock = s.hi.lock := by
  simp [startPoll]

@[simp] theorem finishPoll_frame (s : State) :
    (finishPoll s).pending = s.pending ∧ (finishPoll s).time = s.time ∧ (finishPoll s).id = s.id ∧ (finishPoll s).mem = s.mem ∧ (finishPoll s).fab = s.fab ∧ (finishPoll s).srv = s.srv ∧ (finishPoll s).ops = s.ops ∧ (finishPoll s).mdl = s.mdl ∧ (finishPoll s).exu = s.exu ∧ (finishPoll s).coll = s.coll ∧ (finishPoll s).xn = s.xn ∧ (finishPoll s).pw = s.pw ∧ (finishPoll s).sec = s.sec ∧ (finishPoll s).cof = s.cof ∧ (finishPoll s).draws = s.draws := by
  simp [finishPoll]

@[simp] theorem finishPoll_leaf (s : State) :
    (finishPoll s).hi.lock = s.hi.lock := by
  simp [finishPoll]

@[simp] theorem endPoll_frame (s : State) :
    (endPoll s).pending = s.pending ∧ (endPoll s).time = s.time ∧ (endPoll s).id = s.id ∧ (endPoll s).mem = s.mem ∧ (endPoll s).fab = s.fab ∧ (endPoll s).srv = s.srv ∧ (endPoll s).ops = s.ops ∧ (endPoll s).mdl = s.mdl ∧ (endPoll s).exu = s.exu ∧ (endPoll s).coll = s.coll ∧ (endPoll s).xn = s.xn ∧ (endPoll s).pw = s.pw ∧ (endPoll s).sec = s.sec ∧ (endPoll s).cof = s.cof ∧ (endPoll s).draws = s.draws := by
  simp [endPoll]

@[simp] theorem endPoll_leaf (s : State) :
    (endPoll s).hi.lock = s.hi.lock := by
  simp [endPoll]

theorem fetched_frame {a : ℕ} {b : Hdr} {s : State} {u : State} (h : fetched a b s = some u) :
    u.pending = s.pending ∧ u.id = s.id ∧ u.hi = s.hi ∧ u.mem = s.mem ∧ u.fab = s.fab ∧ u.srv = s.srv ∧ u.ops = s.ops ∧ u.mdl = s.mdl ∧ u.exu = s.exu ∧ u.coll = s.coll ∧ u.xn = s.xn ∧ u.pw = s.pw ∧ u.sec = s.sec ∧ u.cof = s.cof ∧ u.draws = s.draws ∧ u.out = s.out := by
  simp only [fetched] at h
  repeat' split at h
  all_goals first | (cases h; simp; done) | (cases h; simp_all; done) | simp_all

@[simp] theorem command_pending (a : ℕ) (b : Hdr) (c : State → State) (s : State) (h : ∀ s, (c s).pending = s.pending) :
    (command a b c s).pending = s.pending := by
  unfold command
  split
  · simp
  · have hf := fetched_frame (by assumption)
    simp [h, hf]

@[simp] theorem command_id (a : ℕ) (b : Hdr) (c : State → State) (s : State) (h : ∀ s, (c s).id = s.id) :
    (command a b c s).id = s.id := by
  unfold command
  split
  · simp
  · have hf := fetched_frame (by assumption)
    simp [h, hf]

@[simp] theorem command_mem (a : ℕ) (b : Hdr) (c : State → State) (s : State) (h : ∀ s, (c s).mem = s.mem) :
    (command a b c s).mem = s.mem := by
  unfold command
  split
  · simp
  · have hf := fetched_frame (by assumption)
    simp [h, hf]

@[simp] theorem command_fab (a : ℕ) (b : Hdr) (c : State → State) (s : State) (h : ∀ s, (c s).fab = s.fab) :
    (command a b c s).fab = s.fab := by
  unfold command
  split
  · simp
  · have hf := fetched_frame (by assumption)
    simp [h, hf]

@[simp] theorem command_srv (a : ℕ) (b : Hdr) (c : State → State) (s : State) (h : ∀ s, (c s).srv = s.srv) :
    (command a b c s).srv = s.srv := by
  unfold command
  split
  · simp
  · have hf := fetched_frame (by assumption)
    simp [h, hf]

@[simp] theorem command_ops (a : ℕ) (b : Hdr) (c : State → State) (s : State) (h : ∀ s, (c s).ops = s.ops) :
    (command a b c s).ops = s.ops := by
  unfold command
  split
  · simp
  · have hf := fetched_frame (by assumption)
    simp [h, hf]

@[simp] theorem command_mdl (a : ℕ) (b : Hdr) (c : State → State) (s : State) (h : ∀ s, (c s).mdl = s.mdl) :
    (command a b c s).mdl = s.mdl := by
  unfold command
  split
  · simp
  · have hf := fetched_frame (by assumption)
    simp [h, hf]

@[simp] theorem command_exu (a : ℕ) (b : Hdr) (c : State → State) (s : State) (h : ∀ s, (c s).exu = s.exu) :
    (command a b c s).exu = s.exu := by
  unfold command
  split
  · simp
  · have hf := fetched_frame (by assumption)
    simp [h, hf]

@[simp] theorem command_coll (a : ℕ) (b : Hdr) (c : State → State) (s : State) (h : ∀ s, (c s).coll = s.coll) :
    (command a b c s).coll = s.coll := by
  unfold command
  split
  · simp
  · have hf := fetched_frame (by assumption)
    simp [h, hf]

@[simp] theorem command_xn (a : ℕ) (b : Hdr) (c : State → State) (s : State) (h : ∀ s, (c s).xn = s.xn) :
    (command a b c s).xn = s.xn := by
  unfold command
  split
  · simp
  · have hf := fetched_frame (by assumption)
    simp [h, hf]

@[simp] theorem command_pw (a : ℕ) (b : Hdr) (c : State → State) (s : State) (h : ∀ s, (c s).pw = s.pw) :
    (command a b c s).pw = s.pw := by
  unfold command
  split
  · simp
  · have hf := fetched_frame (by assumption)
    simp [h, hf]

@[simp] theorem command_sec (a : ℕ) (b : Hdr) (c : State → State) (s : State) (h : ∀ s, (c s).sec = s.sec) :
    (command a b c s).sec = s.sec := by
  unfold command
  split
  · simp
  · have hf := fetched_frame (by assumption)
    simp [h, hf]

@[simp] theorem command_cof (a : ℕ) (b : Hdr) (c : State → State) (s : State) (h : ∀ s, (c s).cof = s.cof) :
    (command a b c s).cof = s.cof := by
  unfold command
  split
  · simp
  · have hf := fetched_frame (by assumption)
    simp [h, hf]

@[simp] theorem command_draws (a : ℕ) (b : Hdr) (c : State → State) (s : State) (h : ∀ s, (c s).draws = s.draws) :
    (command a b c s).draws = s.draws := by
  unfold command
  split
  · simp
  · have hf := fetched_frame (by assumption)
    simp [h, hf]

@[simp] theorem command_mem_dram (a : ℕ) (b : Hdr) (c : State → State) (s : State) (h : ∀ s, (c s).mem.dram = s.mem.dram) :
    (command a b c s).mem.dram = s.mem.dram := by
  unfold command
  split
  · simp
  · have hf := fetched_frame (by assumption)
    simp [h, hf]

@[simp] theorem command_fab_scratch (a : ℕ) (b : Hdr) (c : State → State) (s : State) (h : ∀ s, (c s).fab.scratch = s.fab.scratch) :
    (command a b c s).fab.scratch = s.fab.scratch := by
  unfold command
  split
  · simp
  · have hf := fetched_frame (by assumption)
    simp [h, hf]

@[simp] theorem command_hi_lock (a : ℕ) (b : Hdr) (c : State → State) (s : State) (h : ∀ s, (c s).hi.lock = s.hi.lock) :
    (command a b c s).hi.lock = s.hi.lock := by
  unfold command
  split
  · simp
  · have hf := fetched_frame (by assumption)
    simp [h, hf]

@[simp] theorem command_sec_life (a : ℕ) (b : Hdr) (c : State → State) (s : State) (h : ∀ s, (c s).sec.life = s.sec.life) :
    (command a b c s).sec.life = s.sec.life := by
  unfold command
  split
  · simp
  · have hf := fetched_frame (by assumption)
    simp [h, hf]

@[simp] theorem command_sec_mboxBuf (a : ℕ) (b : Hdr) (c : State → State) (s : State) (h : ∀ s, (c s).sec.mboxBuf = s.sec.mboxBuf) :
    (command a b c s).sec.mboxBuf = s.sec.mboxBuf := by
  unfold command
  split
  · simp
  · have hf := fetched_frame (by assumption)
    simp [h, hf]

@[simp] theorem command_pw_st (a : ℕ) (b : Hdr) (c : State → State) (s : State) (h : ∀ s, (c s).pw.st = s.pw.st) :
    (command a b c s).pw.st = s.pw.st := by
  unfold command
  split
  · simp
  · have hf := fetched_frame (by assumption)
    simp [h, hf]

@[simp] theorem command2_pending (a : ℕ) (b : Hdr) (c : State → State) (s : State) (h : ∀ s, (c s).pending = s.pending) :
    (command2 a b c s).pending = s.pending := by
  unfold command2
  split
  · simp
  · have hf := fetched_frame (by assumption)
    simp [h, hf]

@[simp] theorem command2_id (a : ℕ) (b : Hdr) (c : State → State) (s : State) (h : ∀ s, (c s).id = s.id) :
    (command2 a b c s).id = s.id := by
  unfold command2
  split
  · simp
  · have hf := fetched_frame (by assumption)
    simp [h, hf]

@[simp] theorem command2_mem (a : ℕ) (b : Hdr) (c : State → State) (s : State) (h : ∀ s, (c s).mem = s.mem) :
    (command2 a b c s).mem = s.mem := by
  unfold command2
  split
  · simp
  · have hf := fetched_frame (by assumption)
    simp [h, hf]

@[simp] theorem command2_fab (a : ℕ) (b : Hdr) (c : State → State) (s : State) (h : ∀ s, (c s).fab = s.fab) :
    (command2 a b c s).fab = s.fab := by
  unfold command2
  split
  · simp
  · have hf := fetched_frame (by assumption)
    simp [h, hf]

@[simp] theorem command2_srv (a : ℕ) (b : Hdr) (c : State → State) (s : State) (h : ∀ s, (c s).srv = s.srv) :
    (command2 a b c s).srv = s.srv := by
  unfold command2
  split
  · simp
  · have hf := fetched_frame (by assumption)
    simp [h, hf]

@[simp] theorem command2_ops (a : ℕ) (b : Hdr) (c : State → State) (s : State) (h : ∀ s, (c s).ops = s.ops) :
    (command2 a b c s).ops = s.ops := by
  unfold command2
  split
  · simp
  · have hf := fetched_frame (by assumption)
    simp [h, hf]

@[simp] theorem command2_mdl (a : ℕ) (b : Hdr) (c : State → State) (s : State) (h : ∀ s, (c s).mdl = s.mdl) :
    (command2 a b c s).mdl = s.mdl := by
  unfold command2
  split
  · simp
  · have hf := fetched_frame (by assumption)
    simp [h, hf]

@[simp] theorem command2_exu (a : ℕ) (b : Hdr) (c : State → State) (s : State) (h : ∀ s, (c s).exu = s.exu) :
    (command2 a b c s).exu = s.exu := by
  unfold command2
  split
  · simp
  · have hf := fetched_frame (by assumption)
    simp [h, hf]

@[simp] theorem command2_coll (a : ℕ) (b : Hdr) (c : State → State) (s : State) (h : ∀ s, (c s).coll = s.coll) :
    (command2 a b c s).coll = s.coll := by
  unfold command2
  split
  · simp
  · have hf := fetched_frame (by assumption)
    simp [h, hf]

@[simp] theorem command2_xn (a : ℕ) (b : Hdr) (c : State → State) (s : State) (h : ∀ s, (c s).xn = s.xn) :
    (command2 a b c s).xn = s.xn := by
  unfold command2
  split
  · simp
  · have hf := fetched_frame (by assumption)
    simp [h, hf]

@[simp] theorem command2_pw (a : ℕ) (b : Hdr) (c : State → State) (s : State) (h : ∀ s, (c s).pw = s.pw) :
    (command2 a b c s).pw = s.pw := by
  unfold command2
  split
  · simp
  · have hf := fetched_frame (by assumption)
    simp [h, hf]

@[simp] theorem command2_sec (a : ℕ) (b : Hdr) (c : State → State) (s : State) (h : ∀ s, (c s).sec = s.sec) :
    (command2 a b c s).sec = s.sec := by
  unfold command2
  split
  · simp
  · have hf := fetched_frame (by assumption)
    simp [h, hf]

@[simp] theorem command2_cof (a : ℕ) (b : Hdr) (c : State → State) (s : State) (h : ∀ s, (c s).cof = s.cof) :
    (command2 a b c s).cof = s.cof := by
  unfold command2
  split
  · simp
  · have hf := fetched_frame (by assumption)
    simp [h, hf]

@[simp] theorem command2_draws (a : ℕ) (b : Hdr) (c : State → State) (s : State) (h : ∀ s, (c s).draws = s.draws) :
    (command2 a b c s).draws = s.draws := by
  unfold command2
  split
  · simp
  · have hf := fetched_frame (by assumption)
    simp [h, hf]

@[simp] theorem command2_mem_dram (a : ℕ) (b : Hdr) (c : State → State) (s : State) (h : ∀ s, (c s).mem.dram = s.mem.dram) :
    (command2 a b c s).mem.dram = s.mem.dram := by
  unfold command2
  split
  · simp
  · have hf := fetched_frame (by assumption)
    simp [h, hf]

@[simp] theorem command2_fab_scratch (a : ℕ) (b : Hdr) (c : State → State) (s : State) (h : ∀ s, (c s).fab.scratch = s.fab.scratch) :
    (command2 a b c s).fab.scratch = s.fab.scratch := by
  unfold command2
  split
  · simp
  · have hf := fetched_frame (by assumption)
    simp [h, hf]

@[simp] theorem command2_hi_lock (a : ℕ) (b : Hdr) (c : State → State) (s : State) (h : ∀ s, (c s).hi.lock = s.hi.lock) :
    (command2 a b c s).hi.lock = s.hi.lock := by
  unfold command2
  split
  · simp
  · have hf := fetched_frame (by assumption)
    simp [h, hf]

@[simp] theorem command2_sec_life (a : ℕ) (b : Hdr) (c : State → State) (s : State) (h : ∀ s, (c s).sec.life = s.sec.life) :
    (command2 a b c s).sec.life = s.sec.life := by
  unfold command2
  split
  · simp
  · have hf := fetched_frame (by assumption)
    simp [h, hf]

@[simp] theorem command2_sec_mboxBuf (a : ℕ) (b : Hdr) (c : State → State) (s : State) (h : ∀ s, (c s).sec.mboxBuf = s.sec.mboxBuf) :
    (command2 a b c s).sec.mboxBuf = s.sec.mboxBuf := by
  unfold command2
  split
  · simp
  · have hf := fetched_frame (by assumption)
    simp [h, hf]

@[simp] theorem command2_pw_st (a : ℕ) (b : Hdr) (c : State → State) (s : State) (h : ∀ s, (c s).pw.st = s.pw.st) :
    (command2 a b c s).pw.st = s.pw.st := by
  unfold command2
  split
  · simp
  · have hf := fetched_frame (by assumption)
    simp [h, hf]

end Sys2Proof.Machine
end

