-- ==== Sys2Proof/Laws/Pool.lean ====
section
/-! SUPPORT. What the operations of Machine/Pool.lean leave unchanged: the parts of the state that each does not touch. -/
namespace Sys2Proof.Machine

@[simp] theorem zeroChunks_frame (a : ℕ) (b : List (ℕ × ℕ)) (s : State) :
    (zeroChunks a b s).pending = s.pending ∧ (zeroChunks a b s).time = s.time ∧ (zeroChunks a b s).id = s.id ∧ (zeroChunks a b s).hi = s.hi ∧ (zeroChunks a b s).ctxs = s.ctxs ∧ (zeroChunks a b s).fab = s.fab ∧ (zeroChunks a b s).srv = s.srv ∧ (zeroChunks a b s).ops = s.ops ∧ (zeroChunks a b s).mdl = s.mdl ∧ (zeroChunks a b s).exu = s.exu ∧ (zeroChunks a b s).coll = s.coll ∧ (zeroChunks a b s).xn = s.xn ∧ (zeroChunks a b s).pw = s.pw ∧ (zeroChunks a b s).sec = s.sec ∧ (zeroChunks a b s).td = s.td ∧ (zeroChunks a b s).cof = s.cof ∧ (zeroChunks a b s).draws = s.draws ∧ (zeroChunks a b s).out = s.out := by
  simp [zeroChunks]

@[simp] theorem modPart_pending (a : ℕ) (b : Part → Part) (s : State) : (modPart a b s).pending = s.pending := (rfl)
@[simp] theorem modPart_time (a : ℕ) (b : Part → Part) (s : State) : (modPart a b s).time = s.time := (rfl)
@[simp] theorem modPart_id (a : ℕ) (b : Part → Part) (s : State) : (modPart a b s).id = s.id := (rfl)
@[simp] theorem modPart_hi (a : ℕ) (b : Part → Part) (s : State) : (modPart a b s).hi = s.hi := (rfl)
@[simp] theorem modPart_ctxs (a : ℕ) (b : Part → Part) (s : State) : (modPart a b s).ctxs = s.ctxs := (rfl)
@[simp] theorem modPart_fab (a : ℕ) (b : Part → Part) (s : State) : (modPart a b s).fab = s.fab := (rfl)
@[simp] theorem modPart_srv (a : ℕ) (b : Part → Part) (s : State) : (modPart a b s).srv = s.srv := (rfl)
@[simp] theorem modPart_ops (a : ℕ) (b : Part → Part) (s : State) : (modPart a b s).ops = s.ops := (rfl)
@[simp] theorem modPart_mdl (a : ℕ) (b : Part → Part) (s : State) : (modPart a b s).mdl = s.mdl := (rfl)
@[simp] theorem modPart_exu (a : ℕ) (b : Part → Part) (s : State) : (modPart a b s).exu = s.exu := (rfl)
@[simp] theorem modPart_coll (a : ℕ) (b : Part → Part) (s : State) : (modPart a b s).coll = s.coll := (rfl)
@[simp] theorem modPart_xn (a : ℕ) (b : Part → Part) (s : State) : (modPart a b s).xn = s.xn := (rfl)
@[simp] theorem modPart_pw (a : ℕ) (b : Part → Part) (s : State) : (modPart a b s).pw = s.pw := (rfl)
@[simp] theorem modPart_sec (a : ℕ) (b : Part → Part) (s : State) : (modPart a b s).sec = s.sec := (rfl)
@[simp] theorem modPart_td (a : ℕ) (b : Part → Part) (s : State) : (modPart a b s).td = s.td := (rfl)
@[simp] theorem modPart_cof (a : ℕ) (b : Part → Part) (s : State) : (modPart a b s).cof = s.cof := (rfl)
@[simp] theorem modPart_draws (a : ℕ) (b : Part → Part) (s : State) : (modPart a b s).draws = s.draws := (rfl)
@[simp] theorem modPart_out (a : ℕ) (b : Part → Part) (s : State) : (modPart a b s).out = s.out := (rfl)

@[simp] theorem modPart_mem_dram (a : ℕ) (b : Part → Part) (s : State) : (modPart a b s).mem.dram = s.mem.dram := (rfl)

@[simp] theorem readyFrames_frame (a : ℕ) (b : List ℕ) (s : State) :
    (readyFrames a b s).pending = s.pending ∧ (readyFrames a b s).time = s.time ∧ (readyFrames a b s).id = s.id ∧ (readyFrames a b s).hi = s.hi ∧ (readyFrames a b s).ctxs = s.ctxs ∧ (readyFrames a b s).fab = s.fab ∧ (readyFrames a b s).srv = s.srv ∧ (readyFrames a b s).ops = s.ops ∧ (readyFrames a b s).mdl = s.mdl ∧ (readyFrames a b s).exu = s.exu ∧ (readyFrames a b s).coll = s.coll ∧ (readyFrames a b s).xn = s.xn ∧ (readyFrames a b s).pw = s.pw ∧ (readyFrames a b s).sec = s.sec ∧ (readyFrames a b s).td = s.td ∧ (readyFrames a b s).cof = s.cof ∧ (readyFrames a b s).draws = s.draws ∧ (readyFrames a b s).out = s.out := by
  simp [readyFrames]

@[simp] theorem addObj_frame (a : ℕ) (b : ObjKind) (c : ObjClass) (d : ℕ) (e : List ℕ) (s : State) :
    (addObj a b c d e s).pending = s.pending ∧ (addObj a b c d e s).time = s.time ∧ (addObj a b c d e s).id = s.id ∧ (addObj a b c d e s).hi = s.hi ∧ (addObj a b c d e s).ctxs = s.ctxs ∧ (addObj a b c d e s).fab = s.fab ∧ (addObj a b c d e s).srv = s.srv ∧ (addObj a b c d e s).ops = s.ops ∧ (addObj a b c d e s).mdl = s.mdl ∧ (addObj a b c d e s).exu = s.exu ∧ (addObj a b c d e s).coll = s.coll ∧ (addObj a b c d e s).xn = s.xn ∧ (addObj a b c d e s).pw = s.pw ∧ (addObj a b c d e s).sec = s.sec ∧ (addObj a b c d e s).td = s.td ∧ (addObj a b c d e s).cof = s.cof ∧ (addObj a b c d e s).draws = s.draws ∧ (addObj a b c d e s).out = s.out := by
  simp [addObj]

@[simp] theorem growObj_frame (a : ℕ) (b : ℕ) (c : ℕ) (d : List ℕ) (s : State) :
    (growObj a b c d s).pending = s.pending ∧ (growObj a b c d s).time = s.time ∧ (growObj a b c d s).id = s.id ∧ (growObj a b c d s).hi = s.hi ∧ (growObj a b c d s).ctxs = s.ctxs ∧ (growObj a b c d s).fab = s.fab ∧ (growObj a b c d s).srv = s.srv ∧ (growObj a b c d s).ops = s.ops ∧ (growObj a b c d s).mdl = s.mdl ∧ (growObj a b c d s).exu = s.exu ∧ (growObj a b c d s).coll = s.coll ∧ (growObj a b c d s).xn = s.xn ∧ (growObj a b c d s).pw = s.pw ∧ (growObj a b c d s).sec = s.sec ∧ (growObj a b c d s).td = s.td ∧ (growObj a b c d s).cof = s.cof ∧ (growObj a b c d s).draws = s.draws ∧ (growObj a b c d s).out = s.out := by
  simp [growObj]

@[simp] theorem freeObjs_frame (a : ℕ) (b : ObjKind → Bool) (s : State) :
    (freeObjs a b s).pending = s.pending ∧ (freeObjs a b s).time = s.time ∧ (freeObjs a b s).id = s.id ∧ (freeObjs a b s).hi = s.hi ∧ (freeObjs a b s).ctxs = s.ctxs ∧ (freeObjs a b s).fab = s.fab ∧ (freeObjs a b s).srv = s.srv ∧ (freeObjs a b s).ops = s.ops ∧ (freeObjs a b s).mdl = s.mdl ∧ (freeObjs a b s).exu = s.exu ∧ (freeObjs a b s).coll = s.coll ∧ (freeObjs a b s).xn = s.xn ∧ (freeObjs a b s).pw = s.pw ∧ (freeObjs a b s).sec = s.sec ∧ (freeObjs a b s).td = s.td ∧ (freeObjs a b s).cof = s.cof ∧ (freeObjs a b s).draws = s.draws ∧ (freeObjs a b s).out = s.out := by
  simp [freeObjs]

@[simp] theorem freeObjs_leaf (a : ℕ) (b : ObjKind → Bool) (s : State) :
    (freeObjs a b s).mem.dram = s.mem.dram := by
  simp [freeObjs]

@[simp] theorem setClass_frame (a : ℕ) (b : ObjKind → Bool) (c : ObjClass) (s : State) :
    (setClass a b c s).pending = s.pending ∧ (setClass a b c s).time = s.time ∧ (setClass a b c s).id = s.id ∧ (setClass a b c s).hi = s.hi ∧ (setClass a b c s).ctxs = s.ctxs ∧ (setClass a b c s).fab = s.fab ∧ (setClass a b c s).srv = s.srv ∧ (setClass a b c s).ops = s.ops ∧ (setClass a b c s).mdl = s.mdl ∧ (setClass a b c s).exu = s.exu ∧ (setClass a b c s).coll = s.coll ∧ (setClass a b c s).xn = s.xn ∧ (setClass a b c s).pw = s.pw ∧ (setClass a b c s).sec = s.sec ∧ (setClass a b c s).td = s.td ∧ (setClass a b c s).cof = s.cof ∧ (setClass a b c s).draws = s.draws ∧ (setClass a b c s).out = s.out := by
  simp [setClass]

@[simp] theorem setClass_leaf (a : ℕ) (b : ObjKind → Bool) (c : ObjClass) (s : State) :
    (setClass a b c s).mem.dram = s.mem.dram := by
  simp [setClass]

@[simp] theorem modChan_pending (a : ℕ) (b : Chan → Chan) (s : State) : (modChan a b s).pending = s.pending := (rfl)
@[simp] theorem modChan_time (a : ℕ) (b : Chan → Chan) (s : State) : (modChan a b s).time = s.time := (rfl)
@[simp] theorem modChan_id (a : ℕ) (b : Chan → Chan) (s : State) : (modChan a b s).id = s.id := (rfl)
@[simp] theorem modChan_hi (a : ℕ) (b : Chan → Chan) (s : State) : (modChan a b s).hi = s.hi := (rfl)
@[simp] theorem modChan_ctxs (a : ℕ) (b : Chan → Chan) (s : State) : (modChan a b s).ctxs = s.ctxs := (rfl)
@[simp] theorem modChan_fab (a : ℕ) (b : Chan → Chan) (s : State) : (modChan a b s).fab = s.fab := (rfl)
@[simp] theorem modChan_srv (a : ℕ) (b : Chan → Chan) (s : State) : (modChan a b s).srv = s.srv := (rfl)
@[simp] theorem modChan_ops (a : ℕ) (b : Chan → Chan) (s : State) : (modChan a b s).ops = s.ops := (rfl)
@[simp] theorem modChan_mdl (a : ℕ) (b : Chan → Chan) (s : State) : (modChan a b s).mdl = s.mdl := (rfl)
@[simp] theorem modChan_exu (a : ℕ) (b : Chan → Chan) (s : State) : (modChan a b s).exu = s.exu := (rfl)
@[simp] theorem modChan_coll (a : ℕ) (b : Chan → Chan) (s : State) : (modChan a b s).coll = s.coll := (rfl)
@[simp] theorem modChan_xn (a : ℕ) (b : Chan → Chan) (s : State) : (modChan a b s).xn = s.xn := (rfl)
@[simp] theorem modChan_pw (a : ℕ) (b : Chan → Chan) (s : State) : (modChan a b s).pw = s.pw := (rfl)
@[simp] theorem modChan_sec (a : ℕ) (b : Chan → Chan) (s : State) : (modChan a b s).sec = s.sec := (rfl)
@[simp] theorem modChan_td (a : ℕ) (b : Chan → Chan) (s : State) : (modChan a b s).td = s.td := (rfl)
@[simp] theorem modChan_cof (a : ℕ) (b : Chan → Chan) (s : State) : (modChan a b s).cof = s.cof := (rfl)
@[simp] theorem modChan_draws (a : ℕ) (b : Chan → Chan) (s : State) : (modChan a b s).draws = s.draws := (rfl)
@[simp] theorem modChan_out (a : ℕ) (b : Chan → Chan) (s : State) : (modChan a b s).out = s.out := (rfl)

@[simp] theorem modChan_mem_dram (a : ℕ) (b : Chan → Chan) (s : State) : (modChan a b s).mem.dram = s.mem.dram := (rfl)

@[simp] theorem takeHiDrawer_frame (s : State) :
    (takeHiDrawer s).2.pending = s.pending ∧ (takeHiDrawer s).2.time = s.time ∧ (takeHiDrawer s).2.id = s.id ∧ (takeHiDrawer s).2.hi = s.hi ∧ (takeHiDrawer s).2.ctxs = s.ctxs ∧ (takeHiDrawer s).2.fab = s.fab ∧ (takeHiDrawer s).2.srv = s.srv ∧ (takeHiDrawer s).2.ops = s.ops ∧ (takeHiDrawer s).2.mdl = s.mdl ∧ (takeHiDrawer s).2.exu = s.exu ∧ (takeHiDrawer s).2.coll = s.coll ∧ (takeHiDrawer s).2.xn = s.xn ∧ (takeHiDrawer s).2.pw = s.pw ∧ (takeHiDrawer s).2.sec = s.sec ∧ (takeHiDrawer s).2.td = s.td ∧ (takeHiDrawer s).2.cof = s.cof ∧ (takeHiDrawer s).2.draws = s.draws ∧ (takeHiDrawer s).2.out = s.out := by
  simp only [takeHiDrawer]
  repeat' split
  all_goals simp

@[simp] theorem takeHiDrawer_leaf (s : State) :
    (takeHiDrawer s).2.mem.dram = s.mem.dram := by
  simp only [takeHiDrawer]
  repeat' split
  all_goals simp

@[simp] theorem dropHiDrawer_frame (s : State) :
    (dropHiDrawer s).pending = s.pending ∧ (dropHiDrawer s).time = s.time ∧ (dropHiDrawer s).id = s.id ∧ (dropHiDrawer s).hi = s.hi ∧ (dropHiDrawer s).ctxs = s.ctxs ∧ (dropHiDrawer s).fab = s.fab ∧ (dropHiDrawer s).srv = s.srv ∧ (dropHiDrawer s).ops = s.ops ∧ (dropHiDrawer s).mdl = s.mdl ∧ (dropHiDrawer s).exu = s.exu ∧ (dropHiDrawer s).coll = s.coll ∧ (dropHiDrawer s).xn = s.xn ∧ (dropHiDrawer s).pw = s.pw ∧ (dropHiDrawer s).sec = s.sec ∧ (dropHiDrawer s).td = s.td ∧ (dropHiDrawer s).cof = s.cof ∧ (dropHiDrawer s).draws = s.draws ∧ (dropHiDrawer s).out = s.out := by
  simp [dropHiDrawer]

@[simp] theorem dropHiDrawer_leaf (s : State) :
    (dropHiDrawer s).mem.dram = s.mem.dram := by
  simp [dropHiDrawer]

@[simp] theorem pumpChan_frame (a : ℕ) (s : State) :
    (pumpChan a s).pending = s.pending ∧ (pumpChan a s).time = s.time ∧ (pumpChan a s).id = s.id ∧ (pumpChan a s).hi = s.hi ∧ (pumpChan a s).ctxs = s.ctxs ∧ (pumpChan a s).fab = s.fab ∧ (pumpChan a s).srv = s.srv ∧ (pumpChan a s).ops = s.ops ∧ (pumpChan a s).mdl = s.mdl ∧ (pumpChan a s).exu = s.exu ∧ (pumpChan a s).coll = s.coll ∧ (pumpChan a s).xn = s.xn ∧ (pumpChan a s).pw = s.pw ∧ (pumpChan a s).sec = s.sec ∧ (pumpChan a s).cof = s.cof ∧ (pumpChan a s).draws = s.draws ∧ (pumpChan a s).out = s.out := by
  simp [pumpChan]

@[simp] theorem pumpChan_leaf (a : ℕ) (s : State) :
    (pumpChan a s).mem.dram = s.mem.dram := by
  simp [pumpChan]

@[simp] theorem serveWaiter_frame (s : State) :
    (serveWaiter s).pending = s.pending ∧ (serveWaiter s).time = s.time ∧ (serveWaiter s).id = s.id ∧ (serveWaiter s).hi = s.hi ∧ (serveWaiter s).ctxs = s.ctxs ∧ (serveWaiter s).fab = s.fab ∧ (serveWaiter s).srv = s.srv ∧ (serveWaiter s).ops = s.ops ∧ (serveWaiter s).mdl = s.mdl ∧ (serveWaiter s).exu = s.exu ∧ (serveWaiter s).coll = s.coll ∧ (serveWaiter s).xn = s.xn ∧ (serveWaiter s).pw = s.pw ∧ (serveWaiter s).sec = s.sec ∧ (serveWaiter s).td = s.td ∧ (serveWaiter s).cof = s.cof ∧ (serveWaiter s).draws = s.draws ∧ (serveWaiter s).out = s.out := by
  simp only [serveWaiter]
  repeat' split
  all_goals simp

@[simp] theorem serveWaiter_leaf (s : State) :
    (serveWaiter s).mem.dram = s.mem.dram := by
  simp only [serveWaiter]
  repeat' split
  all_goals simp

@[simp] theorem orEntry_frame (a : Leaf) (b : Dword) (s : State) :
    (orEntry a b s).pending = s.pending ∧ (orEntry a b s).time = s.time ∧ (orEntry a b s).id = s.id ∧ (orEntry a b s).hi = s.hi ∧ (orEntry a b s).ctxs = s.ctxs ∧ (orEntry a b s).fab = s.fab ∧ (orEntry a b s).srv = s.srv ∧ (orEntry a b s).ops = s.ops ∧ (orEntry a b s).mdl = s.mdl ∧ (orEntry a b s).exu = s.exu ∧ (orEntry a b s).coll = s.coll ∧ (orEntry a b s).xn = s.xn ∧ (orEntry a b s).pw = s.pw ∧ (orEntry a b s).sec = s.sec ∧ (orEntry a b s).td = s.td ∧ (orEntry a b s).cof = s.cof ∧ (orEntry a b s).draws = s.draws ∧ (orEntry a b s).out = s.out := by
  simp [orEntry]

@[simp] theorem orEntry_leaf (a : Leaf) (b : Dword) (s : State) :
    (orEntry a b s).mem.dram = s.mem.dram := by
  simp [orEntry]

@[simp] theorem touchLeaf_frame (a : ℕ) (b : ℕ) (s : State) :
    (touchLeaf a b s).pending = s.pending ∧ (touchLeaf a b s).time = s.time ∧ (touchLeaf a b s).id = s.id ∧ (touchLeaf a b s).hi = s.hi ∧ (touchLeaf a b s).ctxs = s.ctxs ∧ (touchLeaf a b s).fab = s.fab ∧ (touchLeaf a b s).srv = s.srv ∧ (touchLeaf a b s).ops = s.ops ∧ (touchLeaf a b s).mdl = s.mdl ∧ (touchLeaf a b s).exu = s.exu ∧ (touchLeaf a b s).coll = s.coll ∧ (touchLeaf a b s).xn = s.xn ∧ (touchLeaf a b s).pw = s.pw ∧ (touchLeaf a b s).sec = s.sec ∧ (touchLeaf a b s).td = s.td ∧ (touchLeaf a b s).cof = s.cof ∧ (touchLeaf a b s).draws = s.draws ∧ (touchLeaf a b s).out = s.out := by
  simp [touchLeaf]

@[simp] theorem touchLeaf_leaf (a : ℕ) (b : ℕ) (s : State) :
    (touchLeaf a b s).mem.dram = s.mem.dram := by
  simp [touchLeaf]

@[simp] theorem setEntry_frame (a : ℕ) (b : ℕ) (c : ℕ) (d : Dword) (s : State) :
    (setEntry a b c d s).pending = s.pending ∧ (setEntry a b c d s).time = s.time ∧ (setEntry a b c d s).id = s.id ∧ (setEntry a b c d s).hi = s.hi ∧ (setEntry a b c d s).ctxs = s.ctxs ∧ (setEntry a b c d s).fab = s.fab ∧ (setEntry a b c d s).srv = s.srv ∧ (setEntry a b c d s).ops = s.ops ∧ (setEntry a b c d s).mdl = s.mdl ∧ (setEntry a b c d s).exu = s.exu ∧ (setEntry a b c d s).coll = s.coll ∧ (setEntry a b c d s).xn = s.xn ∧ (setEntry a b c d s).pw = s.pw ∧ (setEntry a b c d s).sec = s.sec ∧ (setEntry a b c d s).td = s.td ∧ (setEntry a b c d s).cof = s.cof ∧ (setEntry a b c d s).draws = s.draws ∧ (setEntry a b c d s).out = s.out := by
  simp [setEntry]

@[simp] theorem setEntry_leaf (a : ℕ) (b : ℕ) (c : ℕ) (d : Dword) (s : State) :
    (setEntry a b c d s).mem.dram = s.mem.dram := by
  simp [setEntry]

@[simp] theorem needTable_frame (a : ℕ) (b : ℕ) (c : ℕ) (s : State) :
    (needTable a b c s).pending = s.pending ∧ (needTable a b c s).time = s.time ∧ (needTable a b c s).id = s.id ∧ (needTable a b c s).hi = s.hi ∧ (needTable a b c s).ctxs = s.ctxs ∧ (needTable a b c s).fab = s.fab ∧ (needTable a b c s).srv = s.srv ∧ (needTable a b c s).ops = s.ops ∧ (needTable a b c s).mdl = s.mdl ∧ (needTable a b c s).exu = s.exu ∧ (needTable a b c s).coll = s.coll ∧ (needTable a b c s).xn = s.xn ∧ (needTable a b c s).pw = s.pw ∧ (needTable a b c s).sec = s.sec ∧ (needTable a b c s).td = s.td ∧ (needTable a b c s).cof = s.cof ∧ (needTable a b c s).draws = s.draws ∧ (needTable a b c s).out = s.out := by
  simp [needTable]

@[simp] theorem needTable_leaf (a : ℕ) (b : ℕ) (c : ℕ) (s : State) :
    (needTable a b c s).mem.dram = s.mem.dram := by
  simp [needTable]

@[simp] theorem setLeaf_frame (a : ℕ) (b : ℕ) (c : Dword) (s : State) :
    (setLeaf a b c s).pending = s.pending ∧ (setLeaf a b c s).time = s.time ∧ (setLeaf a b c s).id = s.id ∧ (setLeaf a b c s).hi = s.hi ∧ (setLeaf a b c s).ctxs = s.ctxs ∧ (setLeaf a b c s).fab = s.fab ∧ (setLeaf a b c s).srv = s.srv ∧ (setLeaf a b c s).ops = s.ops ∧ (setLeaf a b c s).mdl = s.mdl ∧ (setLeaf a b c s).exu = s.exu ∧ (setLeaf a b c s).coll = s.coll ∧ (setLeaf a b c s).xn = s.xn ∧ (setLeaf a b c s).pw = s.pw ∧ (setLeaf a b c s).sec = s.sec ∧ (setLeaf a b c s).td = s.td ∧ (setLeaf a b c s).cof = s.cof ∧ (setLeaf a b c s).draws = s.draws ∧ (setLeaf a b c s).out = s.out := by
  simp [setLeaf]

@[simp] theorem setLeaf_leaf (a : ℕ) (b : ℕ) (c : Dword) (s : State) :
    (setLeaf a b c s).mem.dram = s.mem.dram := by
  simp [setLeaf]

@[simp] theorem writeDram_frame (a : ℕ) (b : List Byte) (s : State) :
    (writeDram a b s).pending = s.pending ∧ (writeDram a b s).time = s.time ∧ (writeDram a b s).id = s.id ∧ (writeDram a b s).hi = s.hi ∧ (writeDram a b s).ctxs = s.ctxs ∧ (writeDram a b s).fab = s.fab ∧ (writeDram a b s).srv = s.srv ∧ (writeDram a b s).ops = s.ops ∧ (writeDram a b s).mdl = s.mdl ∧ (writeDram a b s).exu = s.exu ∧ (writeDram a b s).coll = s.coll ∧ (writeDram a b s).xn = s.xn ∧ (writeDram a b s).pw = s.pw ∧ (writeDram a b s).sec = s.sec ∧ (writeDram a b s).td = s.td ∧ (writeDram a b s).cof = s.cof ∧ (writeDram a b s).draws = s.draws ∧ (writeDram a b s).out = s.out := by
  simp [writeDram]

@[simp] theorem countDram_frame (a : Bool) (b : ℕ) (c : ℕ) (d : ℕ) (e : ℕ) (f : ℕ) (g : ℕ) (s : State) :
    (countDram a b c d e f g s).pending = s.pending ∧ (countDram a b c d e f g s).time = s.time ∧ (countDram a b c d e f g s).id = s.id ∧ (countDram a b c d e f g s).hi = s.hi ∧ (countDram a b c d e f g s).mem = s.mem ∧ (countDram a b c d e f g s).fab = s.fab ∧ (countDram a b c d e f g s).srv = s.srv ∧ (countDram a b c d e f g s).ops = s.ops ∧ (countDram a b c d e f g s).mdl = s.mdl ∧ (countDram a b c d e f g s).exu = s.exu ∧ (countDram a b c d e f g s).coll = s.coll ∧ (countDram a b c d e f g s).xn = s.xn ∧ (countDram a b c d e f g s).pw = s.pw ∧ (countDram a b c d e f g s).sec = s.sec ∧ (countDram a b c d e f g s).cof = s.cof ∧ (countDram a b c d e f g s).draws = s.draws ∧ (countDram a b c d e f g s).out = s.out := by
  simp [countDram]

end Sys2Proof.Machine
end

