-- ==== Sys2Proof/Laws/Route.lean ====
section
/-! SUPPORT. What the operations of Machine/Route.lean leave unchanged: the parts of the state that each does not touch. -/
namespace Sys2Proof.Machine

@[simp] theorem modPort_pending (a : ℕ) (b : Port → Port) (s : State) : (modPort a b s).pending = s.pending := (rfl)
@[simp] theorem modPort_time (a : ℕ) (b : Port → Port) (s : State) : (modPort a b s).time = s.time := (rfl)
@[simp] theorem modPort_id (a : ℕ) (b : Port → Port) (s : State) : (modPort a b s).id = s.id := (rfl)
@[simp] theorem modPort_hi (a : ℕ) (b : Port → Port) (s : State) : (modPort a b s).hi = s.hi := (rfl)
@[simp] theorem modPort_ctxs (a : ℕ) (b : Port → Port) (s : State) : (modPort a b s).ctxs = s.ctxs := (rfl)
@[simp] theorem modPort_mem (a : ℕ) (b : Port → Port) (s : State) : (modPort a b s).mem = s.mem := (rfl)
@[simp] theorem modPort_fab (a : ℕ) (b : Port → Port) (s : State) : (modPort a b s).fab = s.fab := (rfl)
@[simp] theorem modPort_srv (a : ℕ) (b : Port → Port) (s : State) : (modPort a b s).srv = s.srv := (rfl)
@[simp] theorem modPort_ops (a : ℕ) (b : Port → Port) (s : State) : (modPort a b s).ops = s.ops := (rfl)
@[simp] theorem modPort_mdl (a : ℕ) (b : Port → Port) (s : State) : (modPort a b s).mdl = s.mdl := (rfl)
@[simp] theorem modPort_exu (a : ℕ) (b : Port → Port) (s : State) : (modPort a b s).exu = s.exu := (rfl)
@[simp] theorem modPort_coll (a : ℕ) (b : Port → Port) (s : State) : (modPort a b s).coll = s.coll := (rfl)
@[simp] theorem modPort_pw (a : ℕ) (b : Port → Port) (s : State) : (modPort a b s).pw = s.pw := (rfl)
@[simp] theorem modPort_sec (a : ℕ) (b : Port → Port) (s : State) : (modPort a b s).sec = s.sec := (rfl)
@[simp] theorem modPort_td (a : ℕ) (b : Port → Port) (s : State) : (modPort a b s).td = s.td := (rfl)
@[simp] theorem modPort_cof (a : ℕ) (b : Port → Port) (s : State) : (modPort a b s).cof = s.cof := (rfl)
@[simp] theorem modPort_draws (a : ℕ) (b : Port → Port) (s : State) : (modPort a b s).draws = s.draws := (rfl)
@[simp] theorem modPort_out (a : ℕ) (b : Port → Port) (s : State) : (modPort a b s).out = s.out := (rfl)

@[simp] theorem putFlit_frame (a : ℕ) (b : ℕ) (c : ℕ) (d : ℕ) (e : Bool) (f : ℕ) (s : State) :
    (putFlit a b c d e f s).pending = s.pending ∧ (putFlit a b c d e f s).time = s.time ∧ (putFlit a b c d e f s).id = s.id ∧ (putFlit a b c d e f s).hi = s.hi ∧ (putFlit a b c d e f s).ctxs = s.ctxs ∧ (putFlit a b c d e f s).mem = s.mem ∧ (putFlit a b c d e f s).fab = s.fab ∧ (putFlit a b c d e f s).srv = s.srv ∧ (putFlit a b c d e f s).ops = s.ops ∧ (putFlit a b c d e f s).mdl = s.mdl ∧ (putFlit a b c d e f s).exu = s.exu ∧ (putFlit a b c d e f s).coll = s.coll ∧ (putFlit a b c d e f s).xn = s.xn ∧ (putFlit a b c d e f s).pw = s.pw ∧ (putFlit a b c d e f s).sec = s.sec ∧ (putFlit a b c d e f s).cof = s.cof ∧ (putFlit a b c d e f s).draws = s.draws := by
  simp [putFlit]

@[simp] theorem newFlit_frame (a : ℕ) (b : ℕ) (c : ℕ) (d : Bool) (e : ℕ) (s : State) :
    (newFlit a b c d e s).pending = s.pending ∧ (newFlit a b c d e s).time = s.time ∧ (newFlit a b c d e s).id = s.id ∧ (newFlit a b c d e s).hi = s.hi ∧ (newFlit a b c d e s).ctxs = s.ctxs ∧ (newFlit a b c d e s).mem = s.mem ∧ (newFlit a b c d e s).fab = s.fab ∧ (newFlit a b c d e s).srv = s.srv ∧ (newFlit a b c d e s).ops = s.ops ∧ (newFlit a b c d e s).mdl = s.mdl ∧ (newFlit a b c d e s).exu = s.exu ∧ (newFlit a b c d e s).coll = s.coll ∧ (newFlit a b c d e s).pw = s.pw ∧ (newFlit a b c d e s).sec = s.sec ∧ (newFlit a b c d e s).cof = s.cof ∧ (newFlit a b c d e s).draws = s.draws := by
  simp [newFlit]

@[simp] theorem closeBlock_frame (a : ℕ) (s : State) :
    (closeBlock a s).pending = s.pending ∧ (closeBlock a s).time = s.time ∧ (closeBlock a s).id = s.id ∧ (closeBlock a s).hi = s.hi ∧ (closeBlock a s).ctxs = s.ctxs ∧ (closeBlock a s).mem = s.mem ∧ (closeBlock a s).fab = s.fab ∧ (closeBlock a s).srv = s.srv ∧ (closeBlock a s).ops = s.ops ∧ (closeBlock a s).mdl = s.mdl ∧ (closeBlock a s).exu = s.exu ∧ (closeBlock a s).coll = s.coll ∧ (closeBlock a s).pw = s.pw ∧ (closeBlock a s).sec = s.sec ∧ (closeBlock a s).cof = s.cof ∧ (closeBlock a s).draws = s.draws := by
  simp [closeBlock]

@[simp] theorem sendFlits_frame (a : ℕ) (b : ℕ) (s : State) :
    (sendFlits a b s).pending = s.pending ∧ (sendFlits a b s).time = s.time ∧ (sendFlits a b s).id = s.id ∧ (sendFlits a b s).hi = s.hi ∧ (sendFlits a b s).ctxs = s.ctxs ∧ (sendFlits a b s).mem = s.mem ∧ (sendFlits a b s).fab = s.fab ∧ (sendFlits a b s).srv = s.srv ∧ (sendFlits a b s).ops = s.ops ∧ (sendFlits a b s).mdl = s.mdl ∧ (sendFlits a b s).exu = s.exu ∧ (sendFlits a b s).coll = s.coll ∧ (sendFlits a b s).pw = s.pw ∧ (sendFlits a b s).sec = s.sec ∧ (sendFlits a b s).cof = s.cof ∧ (sendFlits a b s).draws = s.draws := by
  induction b generalizing a s with
  | zero => simp [sendFlits]
  | succ m ih =>
    unfold sendFlits
    try dsimp only
    repeat' split
    all_goals simp [ih]

@[simp] theorem fillBlock_frame (a : ℕ) (b : ℕ) (s : State) :
    (fillBlock a b s).pending = s.pending ∧ (fillBlock a b s).time = s.time ∧ (fillBlock a b s).id = s.id ∧ (fillBlock a b s).hi = s.hi ∧ (fillBlock a b s).ctxs = s.ctxs ∧ (fillBlock a b s).mem = s.mem ∧ (fillBlock a b s).fab = s.fab ∧ (fillBlock a b s).srv = s.srv ∧ (fillBlock a b s).ops = s.ops ∧ (fillBlock a b s).mdl = s.mdl ∧ (fillBlock a b s).exu = s.exu ∧ (fillBlock a b s).coll = s.coll ∧ (fillBlock a b s).pw = s.pw ∧ (fillBlock a b s).sec = s.sec ∧ (fillBlock a b s).cof = s.cof ∧ (fillBlock a b s).draws = s.draws := by
  induction b generalizing a s with
  | zero => simp [fillBlock]
  | succ m ih =>
    unfold fillBlock
    try dsimp only
    repeat' split
    all_goals simp [ih]

@[simp] theorem returnCredits_frame (a : ℕ) (b : List (ℕ × Bool)) (s : State) :
    (returnCredits a b s).pending = s.pending ∧ (returnCredits a b s).time = s.time ∧ (returnCredits a b s).id = s.id ∧ (returnCredits a b s).hi = s.hi ∧ (returnCredits a b s).ctxs = s.ctxs ∧ (returnCredits a b s).mem = s.mem ∧ (returnCredits a b s).fab = s.fab ∧ (returnCredits a b s).srv = s.srv ∧ (returnCredits a b s).ops = s.ops ∧ (returnCredits a b s).mdl = s.mdl ∧ (returnCredits a b s).exu = s.exu ∧ (returnCredits a b s).coll = s.coll ∧ (returnCredits a b s).pw = s.pw ∧ (returnCredits a b s).sec = s.sec ∧ (returnCredits a b s).cof = s.cof ∧ (returnCredits a b s).draws = s.draws := by
  simp [returnCredits]

@[simp] theorem startPkt_frame (a : ℕ) (b : WaitPkt) (s : State) :
    (startPkt a b s).pending = s.pending ∧ (startPkt a b s).time = s.time ∧ (startPkt a b s).id = s.id ∧ (startPkt a b s).hi = s.hi ∧ (startPkt a b s).ctxs = s.ctxs ∧ (startPkt a b s).mem = s.mem ∧ (startPkt a b s).fab = s.fab ∧ (startPkt a b s).srv = s.srv ∧ (startPkt a b s).ops = s.ops ∧ (startPkt a b s).mdl = s.mdl ∧ (startPkt a b s).exu = s.exu ∧ (startPkt a b s).coll = s.coll ∧ (startPkt a b s).pw = s.pw ∧ (startPkt a b s).sec = s.sec ∧ (startPkt a b s).cof = s.cof ∧ (startPkt a b s).draws = s.draws := by
  simp [startPkt]

@[simp] theorem servePort_frame (a : ℕ) (b : ℕ) (s : State) :
    (servePort a b s).pending = s.pending ∧ (servePort a b s).time = s.time ∧ (servePort a b s).id = s.id ∧ (servePort a b s).hi = s.hi ∧ (servePort a b s).ctxs = s.ctxs ∧ (servePort a b s).mem = s.mem ∧ (servePort a b s).fab = s.fab ∧ (servePort a b s).srv = s.srv ∧ (servePort a b s).ops = s.ops ∧ (servePort a b s).mdl = s.mdl ∧ (servePort a b s).exu = s.exu ∧ (servePort a b s).coll = s.coll ∧ (servePort a b s).pw = s.pw ∧ (servePort a b s).sec = s.sec ∧ (servePort a b s).cof = s.cof ∧ (servePort a b s).draws = s.draws := by
  induction b generalizing a s with
  | zero => simp [servePort]
  | succ m ih =>
    unfold servePort
    try dsimp only
    repeat' split
    all_goals simp [ih]

@[simp] theorem pumpPort_frame (a : ℕ) (s : State) :
    (pumpPort a s).pending = s.pending ∧ (pumpPort a s).time = s.time ∧ (pumpPort a s).id = s.id ∧ (pumpPort a s).hi = s.hi ∧ (pumpPort a s).ctxs = s.ctxs ∧ (pumpPort a s).mem = s.mem ∧ (pumpPort a s).fab = s.fab ∧ (pumpPort a s).srv = s.srv ∧ (pumpPort a s).ops = s.ops ∧ (pumpPort a s).mdl = s.mdl ∧ (pumpPort a s).exu = s.exu ∧ (pumpPort a s).coll = s.coll ∧ (pumpPort a s).pw = s.pw ∧ (pumpPort a s).sec = s.sec ∧ (pumpPort a s).cof = s.cof ∧ (pumpPort a s).draws = s.draws := by
  simp [pumpPort]

@[simp] theorem joinPort_frame (a : ℕ) (b : List WaitPkt) (s : State) :
    (joinPort a b s).pending = s.pending ∧ (joinPort a b s).time = s.time ∧ (joinPort a b s).id = s.id ∧ (joinPort a b s).hi = s.hi ∧ (joinPort a b s).ctxs = s.ctxs ∧ (joinPort a b s).mem = s.mem ∧ (joinPort a b s).fab = s.fab ∧ (joinPort a b s).srv = s.srv ∧ (joinPort a b s).ops = s.ops ∧ (joinPort a b s).mdl = s.mdl ∧ (joinPort a b s).exu = s.exu ∧ (joinPort a b s).coll = s.coll ∧ (joinPort a b s).pw = s.pw ∧ (joinPort a b s).sec = s.sec ∧ (joinPort a b s).cof = s.cof ∧ (joinPort a b s).draws = s.draws := by
  simp [joinPort]

@[simp] theorem sendBy_frame (a : ℕ) (b : ℕ) (c : ℕ) (d : Bool) (e : ℕ) (f : XnMsg) (s : State) :
    (sendBy a b c d e f s).pending = s.pending ∧ (sendBy a b c d e f s).time = s.time ∧ (sendBy a b c d e f s).id = s.id ∧ (sendBy a b c d e f s).hi = s.hi ∧ (sendBy a b c d e f s).ctxs = s.ctxs ∧ (sendBy a b c d e f s).mem = s.mem ∧ (sendBy a b c d e f s).fab = s.fab ∧ (sendBy a b c d e f s).srv = s.srv ∧ (sendBy a b c d e f s).ops = s.ops ∧ (sendBy a b c d e f s).mdl = s.mdl ∧ (sendBy a b c d e f s).exu = s.exu ∧ (sendBy a b c d e f s).coll = s.coll ∧ (sendBy a b c d e f s).pw = s.pw ∧ (sendBy a b c d e f s).sec = s.sec ∧ (sendBy a b c d e f s).cof = s.cof ∧ (sendBy a b c d e f s).draws = s.draws := by
  simp [sendBy]

@[simp] theorem sendXn_frame (a : ℕ) (b : ℕ) (c : Bool) (d : XnMsg) (s : State) :
    (sendXn a b c d s).pending = s.pending ∧ (sendXn a b c d s).time = s.time ∧ (sendXn a b c d s).id = s.id ∧ (sendXn a b c d s).hi = s.hi ∧ (sendXn a b c d s).ctxs = s.ctxs ∧ (sendXn a b c d s).mem = s.mem ∧ (sendXn a b c d s).fab = s.fab ∧ (sendXn a b c d s).srv = s.srv ∧ (sendXn a b c d s).ops = s.ops ∧ (sendXn a b c d s).mdl = s.mdl ∧ (sendXn a b c d s).exu = s.exu ∧ (sendXn a b c d s).coll = s.coll ∧ (sendXn a b c d s).pw = s.pw ∧ (sendXn a b c d s).sec = s.sec ∧ (sendXn a b c d s).cof = s.cof ∧ (sendXn a b c d s).draws = s.draws := by
  simp only [sendXn]
  repeat' split
  all_goals simp

@[simp] theorem resendXn_frame (a : ℕ) (b : ℕ) (c : ℕ) (d : Bool) (e : XnMsg) (s : State) :
    (resendXn a b c d e s).pending = s.pending ∧ (resendXn a b c d e s).time = s.time ∧ (resendXn a b c d e s).id = s.id ∧ (resendXn a b c d e s).hi = s.hi ∧ (resendXn a b c d e s).ctxs = s.ctxs ∧ (resendXn a b c d e s).mem = s.mem ∧ (resendXn a b c d e s).fab = s.fab ∧ (resendXn a b c d e s).srv = s.srv ∧ (resendXn a b c d e s).ops = s.ops ∧ (resendXn a b c d e s).mdl = s.mdl ∧ (resendXn a b c d e s).exu = s.exu ∧ (resendXn a b c d e s).coll = s.coll ∧ (resendXn a b c d e s).pw = s.pw ∧ (resendXn a b c d e s).sec = s.sec ∧ (resendXn a b c d e s).cof = s.cof ∧ (resendXn a b c d e s).draws = s.draws := by
  simp only [resendXn]
  repeat' split
  all_goals simp

@[simp] theorem sendWork_frame (a : ℕ) (b : ℕ) (c : ℕ) (d : ℕ) (e : ℕ) (f : ℕ) (g : Bool) (h : XnMsg) (s : State) :
    (sendWork a b c d e f g h s).pending = s.pending ∧ (sendWork a b c d e f g h s).time = s.time ∧ (sendWork a b c d e f g h s).id = s.id ∧ (sendWork a b c d e f g h s).hi = s.hi ∧ (sendWork a b c d e f g h s).mem = s.mem ∧ (sendWork a b c d e f g h s).fab = s.fab ∧ (sendWork a b c d e f g h s).srv = s.srv ∧ (sendWork a b c d e f g h s).ops = s.ops ∧ (sendWork a b c d e f g h s).mdl = s.mdl ∧ (sendWork a b c d e f g h s).exu = s.exu ∧ (sendWork a b c d e f g h s).coll = s.coll ∧ (sendWork a b c d e f g h s).pw = s.pw ∧ (sendWork a b c d e f g h s).sec = s.sec ∧ (sendWork a b c d e f g h s).cof = s.cof ∧ (sendWork a b c d e f g h s).draws = s.draws := by
  simp [sendWork]

@[simp] theorem sendExuWork_frame (a : ℕ) (b : ℕ) (c : ℕ) (d : ExuType) (e : ExuRec) (s : State) :
    (sendExuWork a b c d e s).pending = s.pending ∧ (sendExuWork a b c d e s).time = s.time ∧ (sendExuWork a b c d e s).id = s.id ∧ (sendExuWork a b c d e s).hi = s.hi ∧ (sendExuWork a b c d e s).mem = s.mem ∧ (sendExuWork a b c d e s).fab = s.fab ∧ (sendExuWork a b c d e s).srv = s.srv ∧ (sendExuWork a b c d e s).ops = s.ops ∧ (sendExuWork a b c d e s).mdl = s.mdl ∧ (sendExuWork a b c d e s).exu = s.exu ∧ (sendExuWork a b c d e s).coll = s.coll ∧ (sendExuWork a b c d e s).pw = s.pw ∧ (sendExuWork a b c d e s).sec = s.sec ∧ (sendExuWork a b c d e s).cof = s.cof ∧ (sendExuWork a b c d e s).draws = s.draws := by
  simp [sendExuWork]

@[simp] theorem sendLeg_frame (a : ℕ) (b : ℕ) (c : ExuType) (d : ExuRec) (s : State) :
    (sendLeg a b c d s).pending = s.pending ∧ (sendLeg a b c d s).time = s.time ∧ (sendLeg a b c d s).id = s.id ∧ (sendLeg a b c d s).hi = s.hi ∧ (sendLeg a b c d s).mem = s.mem ∧ (sendLeg a b c d s).fab = s.fab ∧ (sendLeg a b c d s).srv = s.srv ∧ (sendLeg a b c d s).ops = s.ops ∧ (sendLeg a b c d s).mdl = s.mdl ∧ (sendLeg a b c d s).exu = s.exu ∧ (sendLeg a b c d s).coll = s.coll ∧ (sendLeg a b c d s).pw = s.pw ∧ (sendLeg a b c d s).sec = s.sec ∧ (sendLeg a b c d s).cof = s.cof ∧ (sendLeg a b c d s).draws = s.draws := by
  simp only [sendLeg]
  repeat' split
  all_goals simp

@[simp] theorem sendGone_frame (a : ExuRec) (s : State) :
    (sendGone a s).pending = s.pending ∧ (sendGone a s).time = s.time ∧ (sendGone a s).id = s.id ∧ (sendGone a s).hi = s.hi ∧ (sendGone a s).mem = s.mem ∧ (sendGone a s).fab = s.fab ∧ (sendGone a s).srv = s.srv ∧ (sendGone a s).ops = s.ops ∧ (sendGone a s).mdl = s.mdl ∧ (sendGone a s).exu = s.exu ∧ (sendGone a s).coll = s.coll ∧ (sendGone a s).pw = s.pw ∧ (sendGone a s).sec = s.sec ∧ (sendGone a s).cof = s.cof ∧ (sendGone a s).draws = s.draws := by
  simp [sendGone]

end Sys2Proof.Machine
end

