-- ==== Sys2Proof/Laws/Serve.lean ====
section
/-! SUPPORT. What the operations of Machine/Serve.lean leave unchanged: the parts of the state that each does not touch. -/
namespace Sys2Proof.Machine

@[simp] theorem modJob_pending (a : ℕ) (b : Job → Job) (s : State) : (modJob a b s).pending = s.pending := (rfl)
@[simp] theorem modJob_time (a : ℕ) (b : Job → Job) (s : State) : (modJob a b s).time = s.time := (rfl)
@[simp] theorem modJob_id (a : ℕ) (b : Job → Job) (s : State) : (modJob a b s).id = s.id := (rfl)
@[simp] theorem modJob_hi (a : ℕ) (b : Job → Job) (s : State) : (modJob a b s).hi = s.hi := (rfl)
@[simp] theorem modJob_ctxs (a : ℕ) (b : Job → Job) (s : State) : (modJob a b s).ctxs = s.ctxs := (rfl)
@[simp] theorem modJob_mem (a : ℕ) (b : Job → Job) (s : State) : (modJob a b s).mem = s.mem := (rfl)
@[simp] theorem modJob_fab (a : ℕ) (b : Job → Job) (s : State) : (modJob a b s).fab = s.fab := (rfl)
@[simp] theorem modJob_ops (a : ℕ) (b : Job → Job) (s : State) : (modJob a b s).ops = s.ops := (rfl)
@[simp] theorem modJob_mdl (a : ℕ) (b : Job → Job) (s : State) : (modJob a b s).mdl = s.mdl := (rfl)
@[simp] theorem modJob_exu (a : ℕ) (b : Job → Job) (s : State) : (modJob a b s).exu = s.exu := (rfl)
@[simp] theorem modJob_coll (a : ℕ) (b : Job → Job) (s : State) : (modJob a b s).coll = s.coll := (rfl)
@[simp] theorem modJob_xn (a : ℕ) (b : Job → Job) (s : State) : (modJob a b s).xn = s.xn := (rfl)
@[simp] theorem modJob_pw (a : ℕ) (b : Job → Job) (s : State) : (modJob a b s).pw = s.pw := (rfl)
@[simp] theorem modJob_sec (a : ℕ) (b : Job → Job) (s : State) : (modJob a b s).sec = s.sec := (rfl)
@[simp] theorem modJob_td (a : ℕ) (b : Job → Job) (s : State) : (modJob a b s).td = s.td := (rfl)
@[simp] theorem modJob_cof (a : ℕ) (b : Job → Job) (s : State) : (modJob a b s).cof = s.cof := (rfl)
@[simp] theorem modJob_draws (a : ℕ) (b : Job → Job) (s : State) : (modJob a b s).draws = s.draws := (rfl)
@[simp] theorem modJob_out (a : ℕ) (b : Job → Job) (s : State) : (modJob a b s).out = s.out := (rfl)

@[simp] theorem modPlate_pending (a : ℕ) (b : Plate → Plate) (s : State) : (modPlate a b s).pending = s.pending := (rfl)
@[simp] theorem modPlate_time (a : ℕ) (b : Plate → Plate) (s : State) : (modPlate a b s).time = s.time := (rfl)
@[simp] theorem modPlate_id (a : ℕ) (b : Plate → Plate) (s : State) : (modPlate a b s).id = s.id := (rfl)
@[simp] theorem modPlate_hi (a : ℕ) (b : Plate → Plate) (s : State) : (modPlate a b s).hi = s.hi := (rfl)
@[simp] theorem modPlate_ctxs (a : ℕ) (b : Plate → Plate) (s : State) : (modPlate a b s).ctxs = s.ctxs := (rfl)
@[simp] theorem modPlate_mem (a : ℕ) (b : Plate → Plate) (s : State) : (modPlate a b s).mem = s.mem := (rfl)
@[simp] theorem modPlate_srv (a : ℕ) (b : Plate → Plate) (s : State) : (modPlate a b s).srv = s.srv := (rfl)
@[simp] theorem modPlate_ops (a : ℕ) (b : Plate → Plate) (s : State) : (modPlate a b s).ops = s.ops := (rfl)
@[simp] theorem modPlate_mdl (a : ℕ) (b : Plate → Plate) (s : State) : (modPlate a b s).mdl = s.mdl := (rfl)
@[simp] theorem modPlate_exu (a : ℕ) (b : Plate → Plate) (s : State) : (modPlate a b s).exu = s.exu := (rfl)
@[simp] theorem modPlate_coll (a : ℕ) (b : Plate → Plate) (s : State) : (modPlate a b s).coll = s.coll := (rfl)
@[simp] theorem modPlate_xn (a : ℕ) (b : Plate → Plate) (s : State) : (modPlate a b s).xn = s.xn := (rfl)
@[simp] theorem modPlate_pw (a : ℕ) (b : Plate → Plate) (s : State) : (modPlate a b s).pw = s.pw := (rfl)
@[simp] theorem modPlate_sec (a : ℕ) (b : Plate → Plate) (s : State) : (modPlate a b s).sec = s.sec := (rfl)
@[simp] theorem modPlate_td (a : ℕ) (b : Plate → Plate) (s : State) : (modPlate a b s).td = s.td := (rfl)
@[simp] theorem modPlate_cof (a : ℕ) (b : Plate → Plate) (s : State) : (modPlate a b s).cof = s.cof := (rfl)
@[simp] theorem modPlate_draws (a : ℕ) (b : Plate → Plate) (s : State) : (modPlate a b s).draws = s.draws := (rfl)
@[simp] theorem modPlate_out (a : ℕ) (b : Plate → Plate) (s : State) : (modPlate a b s).out = s.out := (rfl)

@[simp] theorem modPlate_fab_scratch (a : ℕ) (b : Plate → Plate) (s : State) : (modPlate a b s).fab.scratch = s.fab.scratch := (rfl)

@[simp] theorem modReq_pending (a : ℕ) (b : Request → Request) (s : State) : (modReq a b s).pending = s.pending := (rfl)
@[simp] theorem modReq_time (a : ℕ) (b : Request → Request) (s : State) : (modReq a b s).time = s.time := (rfl)
@[simp] theorem modReq_id (a : ℕ) (b : Request → Request) (s : State) : (modReq a b s).id = s.id := (rfl)
@[simp] theorem modReq_hi (a : ℕ) (b : Request → Request) (s : State) : (modReq a b s).hi = s.hi := (rfl)
@[simp] theorem modReq_ctxs (a : ℕ) (b : Request → Request) (s : State) : (modReq a b s).ctxs = s.ctxs := (rfl)
@[simp] theorem modReq_mem (a : ℕ) (b : Request → Request) (s : State) : (modReq a b s).mem = s.mem := (rfl)
@[simp] theorem modReq_fab (a : ℕ) (b : Request → Request) (s : State) : (modReq a b s).fab = s.fab := (rfl)
@[simp] theorem modReq_ops (a : ℕ) (b : Request → Request) (s : State) : (modReq a b s).ops = s.ops := (rfl)
@[simp] theorem modReq_mdl (a : ℕ) (b : Request → Request) (s : State) : (modReq a b s).mdl = s.mdl := (rfl)
@[simp] theorem modReq_exu (a : ℕ) (b : Request → Request) (s : State) : (modReq a b s).exu = s.exu := (rfl)
@[simp] theorem modReq_coll (a : ℕ) (b : Request → Request) (s : State) : (modReq a b s).coll = s.coll := (rfl)
@[simp] theorem modReq_xn (a : ℕ) (b : Request → Request) (s : State) : (modReq a b s).xn = s.xn := (rfl)
@[simp] theorem modReq_pw (a : ℕ) (b : Request → Request) (s : State) : (modReq a b s).pw = s.pw := (rfl)
@[simp] theorem modReq_sec (a : ℕ) (b : Request → Request) (s : State) : (modReq a b s).sec = s.sec := (rfl)
@[simp] theorem modReq_td (a : ℕ) (b : Request → Request) (s : State) : (modReq a b s).td = s.td := (rfl)
@[simp] theorem modReq_cof (a : ℕ) (b : Request → Request) (s : State) : (modReq a b s).cof = s.cof := (rfl)
@[simp] theorem modReq_draws (a : ℕ) (b : Request → Request) (s : State) : (modReq a b s).draws = s.draws := (rfl)
@[simp] theorem modReq_out (a : ℕ) (b : Request → Request) (s : State) : (modReq a b s).out = s.out := (rfl)

@[simp] theorem modSeq_pending (a : ℕ) (b : Seq → Seq) (s : State) : (modSeq a b s).pending = s.pending := (rfl)
@[simp] theorem modSeq_time (a : ℕ) (b : Seq → Seq) (s : State) : (modSeq a b s).time = s.time := (rfl)
@[simp] theorem modSeq_id (a : ℕ) (b : Seq → Seq) (s : State) : (modSeq a b s).id = s.id := (rfl)
@[simp] theorem modSeq_hi (a : ℕ) (b : Seq → Seq) (s : State) : (modSeq a b s).hi = s.hi := (rfl)
@[simp] theorem modSeq_ctxs (a : ℕ) (b : Seq → Seq) (s : State) : (modSeq a b s).ctxs = s.ctxs := (rfl)
@[simp] theorem modSeq_mem (a : ℕ) (b : Seq → Seq) (s : State) : (modSeq a b s).mem = s.mem := (rfl)
@[simp] theorem modSeq_fab (a : ℕ) (b : Seq → Seq) (s : State) : (modSeq a b s).fab = s.fab := (rfl)
@[simp] theorem modSeq_ops (a : ℕ) (b : Seq → Seq) (s : State) : (modSeq a b s).ops = s.ops := (rfl)
@[simp] theorem modSeq_mdl (a : ℕ) (b : Seq → Seq) (s : State) : (modSeq a b s).mdl = s.mdl := (rfl)
@[simp] theorem modSeq_exu (a : ℕ) (b : Seq → Seq) (s : State) : (modSeq a b s).exu = s.exu := (rfl)
@[simp] theorem modSeq_coll (a : ℕ) (b : Seq → Seq) (s : State) : (modSeq a b s).coll = s.coll := (rfl)
@[simp] theorem modSeq_xn (a : ℕ) (b : Seq → Seq) (s : State) : (modSeq a b s).xn = s.xn := (rfl)
@[simp] theorem modSeq_pw (a : ℕ) (b : Seq → Seq) (s : State) : (modSeq a b s).pw = s.pw := (rfl)
@[simp] theorem modSeq_sec (a : ℕ) (b : Seq → Seq) (s : State) : (modSeq a b s).sec = s.sec := (rfl)
@[simp] theorem modSeq_td (a : ℕ) (b : Seq → Seq) (s : State) : (modSeq a b s).td = s.td := (rfl)
@[simp] theorem modSeq_cof (a : ℕ) (b : Seq → Seq) (s : State) : (modSeq a b s).cof = s.cof := (rfl)
@[simp] theorem modSeq_draws (a : ℕ) (b : Seq → Seq) (s : State) : (modSeq a b s).draws = s.draws := (rfl)
@[simp] theorem modSeq_out (a : ℕ) (b : Seq → Seq) (s : State) : (modSeq a b s).out = s.out := (rfl)

@[simp] theorem modModel_pending (a : ℕ) (b : Model → Model) (s : State) : (modModel a b s).pending = s.pending := (rfl)
@[simp] theorem modModel_time (a : ℕ) (b : Model → Model) (s : State) : (modModel a b s).time = s.time := (rfl)
@[simp] theorem modModel_id (a : ℕ) (b : Model → Model) (s : State) : (modModel a b s).id = s.id := (rfl)
@[simp] theorem modModel_hi (a : ℕ) (b : Model → Model) (s : State) : (modModel a b s).hi = s.hi := (rfl)
@[simp] theorem modModel_ctxs (a : ℕ) (b : Model → Model) (s : State) : (modModel a b s).ctxs = s.ctxs := (rfl)
@[simp] theorem modModel_mem (a : ℕ) (b : Model → Model) (s : State) : (modModel a b s).mem = s.mem := (rfl)
@[simp] theorem modModel_fab (a : ℕ) (b : Model → Model) (s : State) : (modModel a b s).fab = s.fab := (rfl)
@[simp] theorem modModel_srv (a : ℕ) (b : Model → Model) (s : State) : (modModel a b s).srv = s.srv := (rfl)
@[simp] theorem modModel_ops (a : ℕ) (b : Model → Model) (s : State) : (modModel a b s).ops = s.ops := (rfl)
@[simp] theorem modModel_exu (a : ℕ) (b : Model → Model) (s : State) : (modModel a b s).exu = s.exu := (rfl)
@[simp] theorem modModel_coll (a : ℕ) (b : Model → Model) (s : State) : (modModel a b s).coll = s.coll := (rfl)
@[simp] theorem modModel_xn (a : ℕ) (b : Model → Model) (s : State) : (modModel a b s).xn = s.xn := (rfl)
@[simp] theorem modModel_pw (a : ℕ) (b : Model → Model) (s : State) : (modModel a b s).pw = s.pw := (rfl)
@[simp] theorem modModel_sec (a : ℕ) (b : Model → Model) (s : State) : (modModel a b s).sec = s.sec := (rfl)
@[simp] theorem modModel_td (a : ℕ) (b : Model → Model) (s : State) : (modModel a b s).td = s.td := (rfl)
@[simp] theorem modModel_cof (a : ℕ) (b : Model → Model) (s : State) : (modModel a b s).cof = s.cof := (rfl)
@[simp] theorem modModel_draws (a : ℕ) (b : Model → Model) (s : State) : (modModel a b s).draws = s.draws := (rfl)
@[simp] theorem modModel_out (a : ℕ) (b : Model → Model) (s : State) : (modModel a b s).out = s.out := (rfl)

@[simp] theorem modEpoch_frame (a : ℕ) (b : ℕ) (c : Epoch → Epoch) (s : State) :
    (modEpoch a b c s).pending = s.pending ∧ (modEpoch a b c s).time = s.time ∧ (modEpoch a b c s).id = s.id ∧ (modEpoch a b c s).hi = s.hi ∧ (modEpoch a b c s).ctxs = s.ctxs ∧ (modEpoch a b c s).mem = s.mem ∧ (modEpoch a b c s).fab = s.fab ∧ (modEpoch a b c s).srv = s.srv ∧ (modEpoch a b c s).ops = s.ops ∧ (modEpoch a b c s).exu = s.exu ∧ (modEpoch a b c s).coll = s.coll ∧ (modEpoch a b c s).xn = s.xn ∧ (modEpoch a b c s).pw = s.pw ∧ (modEpoch a b c s).sec = s.sec ∧ (modEpoch a b c s).td = s.td ∧ (modEpoch a b c s).cof = s.cof ∧ (modEpoch a b c s).draws = s.draws ∧ (modEpoch a b c s).out = s.out := by
  simp [modEpoch]

@[simp] theorem editLeaves_frame (a : Leaf → Option Leaf) (s : State) :
    (editLeaves a s).pending = s.pending ∧ (editLeaves a s).time = s.time ∧ (editLeaves a s).id = s.id ∧ (editLeaves a s).hi = s.hi ∧ (editLeaves a s).ctxs = s.ctxs ∧ (editLeaves a s).fab = s.fab ∧ (editLeaves a s).srv = s.srv ∧ (editLeaves a s).ops = s.ops ∧ (editLeaves a s).mdl = s.mdl ∧ (editLeaves a s).exu = s.exu ∧ (editLeaves a s).coll = s.coll ∧ (editLeaves a s).xn = s.xn ∧ (editLeaves a s).pw = s.pw ∧ (editLeaves a s).sec = s.sec ∧ (editLeaves a s).td = s.td ∧ (editLeaves a s).cof = s.cof ∧ (editLeaves a s).draws = s.draws ∧ (editLeaves a s).out = s.out := by
  simp [editLeaves]

@[simp] theorem editLeaves_leaf (a : Leaf → Option Leaf) (s : State) :
    (editLeaves a s).mem.dram = s.mem.dram := by
  simp [editLeaves]

@[simp] theorem onLeaves_frame (a : ℕ) (b : List ℕ) (c : Leaf → Option Leaf) (s : State) :
    (onLeaves a b c s).pending = s.pending ∧ (onLeaves a b c s).time = s.time ∧ (onLeaves a b c s).id = s.id ∧ (onLeaves a b c s).hi = s.hi ∧ (onLeaves a b c s).ctxs = s.ctxs ∧ (onLeaves a b c s).fab = s.fab ∧ (onLeaves a b c s).srv = s.srv ∧ (onLeaves a b c s).ops = s.ops ∧ (onLeaves a b c s).mdl = s.mdl ∧ (onLeaves a b c s).exu = s.exu ∧ (onLeaves a b c s).coll = s.coll ∧ (onLeaves a b c s).xn = s.xn ∧ (onLeaves a b c s).pw = s.pw ∧ (onLeaves a b c s).sec = s.sec ∧ (onLeaves a b c s).td = s.td ∧ (onLeaves a b c s).cof = s.cof ∧ (onLeaves a b c s).draws = s.draws ∧ (onLeaves a b c s).out = s.out := by
  simp [onLeaves]

@[simp] theorem onLeaves_leaf (a : ℕ) (b : List ℕ) (c : Leaf → Option Leaf) (s : State) :
    (onLeaves a b c s).mem.dram = s.mem.dram := by
  simp [onLeaves]

@[simp] theorem clearLeaves_frame (a : ℕ) (b : List ℕ) (s : State) :
    (clearLeaves a b s).pending = s.pending ∧ (clearLeaves a b s).time = s.time ∧ (clearLeaves a b s).id = s.id ∧ (clearLeaves a b s).hi = s.hi ∧ (clearLeaves a b s).ctxs = s.ctxs ∧ (clearLeaves a b s).fab = s.fab ∧ (clearLeaves a b s).srv = s.srv ∧ (clearLeaves a b s).ops = s.ops ∧ (clearLeaves a b s).mdl = s.mdl ∧ (clearLeaves a b s).exu = s.exu ∧ (clearLeaves a b s).coll = s.coll ∧ (clearLeaves a b s).xn = s.xn ∧ (clearLeaves a b s).pw = s.pw ∧ (clearLeaves a b s).sec = s.sec ∧ (clearLeaves a b s).td = s.td ∧ (clearLeaves a b s).cof = s.cof ∧ (clearLeaves a b s).draws = s.draws ∧ (clearLeaves a b s).out = s.out := by
  simp [clearLeaves]

@[simp] theorem clearLeaves_leaf (a : ℕ) (b : List ℕ) (s : State) :
    (clearLeaves a b s).mem.dram = s.mem.dram := by
  simp [clearLeaves]

@[simp] theorem dropLeaves_frame (a : ℕ) (b : List ℕ) (s : State) :
    (dropLeaves a b s).pending = s.pending ∧ (dropLeaves a b s).time = s.time ∧ (dropLeaves a b s).id = s.id ∧ (dropLeaves a b s).hi = s.hi ∧ (dropLeaves a b s).ctxs = s.ctxs ∧ (dropLeaves a b s).fab = s.fab ∧ (dropLeaves a b s).srv = s.srv ∧ (dropLeaves a b s).ops = s.ops ∧ (dropLeaves a b s).mdl = s.mdl ∧ (dropLeaves a b s).exu = s.exu ∧ (dropLeaves a b s).coll = s.coll ∧ (dropLeaves a b s).xn = s.xn ∧ (dropLeaves a b s).pw = s.pw ∧ (dropLeaves a b s).sec = s.sec ∧ (dropLeaves a b s).td = s.td ∧ (dropLeaves a b s).cof = s.cof ∧ (dropLeaves a b s).draws = s.draws ∧ (dropLeaves a b s).out = s.out := by
  simp [dropLeaves]

@[simp] theorem dropLeaves_leaf (a : ℕ) (b : List ℕ) (s : State) :
    (dropLeaves a b s).mem.dram = s.mem.dram := by
  simp [dropLeaves]

@[simp] theorem invalidateFor_frame (a : Option ℕ) (b : List ℕ) (c : List ℕ) (s : State) :
    (invalidateFor a b c s).pending = s.pending ∧ (invalidateFor a b c s).time = s.time ∧ (invalidateFor a b c s).id = s.id ∧ (invalidateFor a b c s).hi = s.hi ∧ (invalidateFor a b c s).ctxs = s.ctxs ∧ (invalidateFor a b c s).fab = s.fab ∧ (invalidateFor a b c s).srv = s.srv ∧ (invalidateFor a b c s).ops = s.ops ∧ (invalidateFor a b c s).mdl = s.mdl ∧ (invalidateFor a b c s).exu = s.exu ∧ (invalidateFor a b c s).coll = s.coll ∧ (invalidateFor a b c s).pw = s.pw ∧ (invalidateFor a b c s).sec = s.sec ∧ (invalidateFor a b c s).cof = s.cof ∧ (invalidateFor a b c s).draws = s.draws := by
  simp [invalidateFor]

@[simp] theorem invalidateFor_leaf (a : Option ℕ) (b : List ℕ) (c : List ℕ) (s : State) :
    (invalidateFor a b c s).mem.dram = s.mem.dram := by
  simp [invalidateFor]

@[simp] theorem invalidate_frame (a : List ℕ) (b : List ℕ) (s : State) :
    (invalidate a b s).pending = s.pending ∧ (invalidate a b s).time = s.time ∧ (invalidate a b s).id = s.id ∧ (invalidate a b s).hi = s.hi ∧ (invalidate a b s).ctxs = s.ctxs ∧ (invalidate a b s).fab = s.fab ∧ (invalidate a b s).srv = s.srv ∧ (invalidate a b s).ops = s.ops ∧ (invalidate a b s).mdl = s.mdl ∧ (invalidate a b s).exu = s.exu ∧ (invalidate a b s).coll = s.coll ∧ (invalidate a b s).pw = s.pw ∧ (invalidate a b s).sec = s.sec ∧ (invalidate a b s).cof = s.cof ∧ (invalidate a b s).draws = s.draws := by
  simp [invalidate]

@[simp] theorem invalidate_leaf (a : List ℕ) (b : List ℕ) (s : State) :
    (invalidate a b s).mem.dram = s.mem.dram := by
  simp [invalidate]

@[simp] theorem trimTree_frame (a : ℕ) (s : State) :
    (trimTree a s).pending = s.pending ∧ (trimTree a s).time = s.time ∧ (trimTree a s).id = s.id ∧ (trimTree a s).hi = s.hi ∧ (trimTree a s).ctxs = s.ctxs ∧ (trimTree a s).fab = s.fab ∧ (trimTree a s).srv = s.srv ∧ (trimTree a s).ops = s.ops ∧ (trimTree a s).mdl = s.mdl ∧ (trimTree a s).exu = s.exu ∧ (trimTree a s).coll = s.coll ∧ (trimTree a s).xn = s.xn ∧ (trimTree a s).pw = s.pw ∧ (trimTree a s).sec = s.sec ∧ (trimTree a s).td = s.td ∧ (trimTree a s).cof = s.cof ∧ (trimTree a s).draws = s.draws ∧ (trimTree a s).out = s.out := by
  simp [trimTree]

@[simp] theorem trimTree_leaf (a : ℕ) (s : State) :
    (trimTree a s).mem.dram = s.mem.dram := by
  simp [trimTree]

@[simp] theorem freeLoose_frame (a : ℕ) (b : List ℕ) (s : State) :
    (freeLoose a b s).pending = s.pending ∧ (freeLoose a b s).time = s.time ∧ (freeLoose a b s).id = s.id ∧ (freeLoose a b s).hi = s.hi ∧ (freeLoose a b s).ctxs = s.ctxs ∧ (freeLoose a b s).fab = s.fab ∧ (freeLoose a b s).ops = s.ops ∧ (freeLoose a b s).mdl = s.mdl ∧ (freeLoose a b s).exu = s.exu ∧ (freeLoose a b s).coll = s.coll ∧ (freeLoose a b s).xn = s.xn ∧ (freeLoose a b s).pw = s.pw ∧ (freeLoose a b s).sec = s.sec ∧ (freeLoose a b s).td = s.td ∧ (freeLoose a b s).cof = s.cof ∧ (freeLoose a b s).draws = s.draws ∧ (freeLoose a b s).out = s.out := by
  simp [freeLoose]

@[simp] theorem freeLoose_leaf (a : ℕ) (b : List ℕ) (s : State) :
    (freeLoose a b s).mem.dram = s.mem.dram := by
  simp [freeLoose]

@[simp] theorem freeTreePages_frame (a : ℕ) (b : List Node) (s : State) :
    (freeTreePages a b s).pending = s.pending ∧ (freeTreePages a b s).time = s.time ∧ (freeTreePages a b s).id = s.id ∧ (freeTreePages a b s).hi = s.hi ∧ (freeTreePages a b s).ctxs = s.ctxs ∧ (freeTreePages a b s).fab = s.fab ∧ (freeTreePages a b s).ops = s.ops ∧ (freeTreePages a b s).mdl = s.mdl ∧ (freeTreePages a b s).exu = s.exu ∧ (freeTreePages a b s).coll = s.coll ∧ (freeTreePages a b s).xn = s.xn ∧ (freeTreePages a b s).pw = s.pw ∧ (freeTreePages a b s).sec = s.sec ∧ (freeTreePages a b s).td = s.td ∧ (freeTreePages a b s).cof = s.cof ∧ (freeTreePages a b s).draws = s.draws ∧ (freeTreePages a b s).out = s.out := by
  simp [freeTreePages]

@[simp] theorem freeTreePages_leaf (a : ℕ) (b : List Node) (s : State) :
    (freeTreePages a b s).mem.dram = s.mem.dram := by
  simp [freeTreePages]

@[simp] theorem removeNodes_frame (a : ℕ) (b : Node → Bool) (s : State) :
    (removeNodes a b s).pending = s.pending ∧ (removeNodes a b s).time = s.time ∧ (removeNodes a b s).id = s.id ∧ (removeNodes a b s).hi = s.hi ∧ (removeNodes a b s).ctxs = s.ctxs ∧ (removeNodes a b s).fab = s.fab ∧ (removeNodes a b s).ops = s.ops ∧ (removeNodes a b s).mdl = s.mdl ∧ (removeNodes a b s).exu = s.exu ∧ (removeNodes a b s).coll = s.coll ∧ (removeNodes a b s).xn = s.xn ∧ (removeNodes a b s).pw = s.pw ∧ (removeNodes a b s).sec = s.sec ∧ (removeNodes a b s).td = s.td ∧ (removeNodes a b s).cof = s.cof ∧ (removeNodes a b s).draws = s.draws ∧ (removeNodes a b s).out = s.out := by
  simp [removeNodes]

@[simp] theorem removeNodes_leaf (a : ℕ) (b : Node → Bool) (s : State) :
    (removeNodes a b s).mem.dram = s.mem.dram := by
  simp [removeNodes]

@[simp] theorem losePage_frame (a : Bool) (b : ℕ) (c : ℕ) (d : ℕ) (s : State) :
    (losePage a b c d s).pending = s.pending ∧ (losePage a b c d s).time = s.time ∧ (losePage a b c d s).id = s.id ∧ (losePage a b c d s).hi = s.hi ∧ (losePage a b c d s).ctxs = s.ctxs ∧ (losePage a b c d s).fab = s.fab ∧ (losePage a b c d s).ops = s.ops ∧ (losePage a b c d s).mdl = s.mdl ∧ (losePage a b c d s).exu = s.exu ∧ (losePage a b c d s).coll = s.coll ∧ (losePage a b c d s).pw = s.pw ∧ (losePage a b c d s).sec = s.sec ∧ (losePage a b c d s).cof = s.cof ∧ (losePage a b c d s).draws = s.draws := by
  simp only [losePage]
  repeat' split
  all_goals simp

@[simp] theorem losePage_leaf (a : Bool) (b : ℕ) (c : ℕ) (d : ℕ) (s : State) :
    (losePage a b c d s).mem.dram = s.mem.dram := by
  simp only [losePage]
  repeat' split
  all_goals simp

@[simp] theorem modPub_frame (a : ℕ) (b : ℕ) (c : Pub → Pub) (s : State) :
    (modPub a b c s).pending = s.pending ∧ (modPub a b c s).time = s.time ∧ (modPub a b c s).id = s.id ∧ (modPub a b c s).hi = s.hi ∧ (modPub a b c s).ctxs = s.ctxs ∧ (modPub a b c s).mem = s.mem ∧ (modPub a b c s).fab = s.fab ∧ (modPub a b c s).ops = s.ops ∧ (modPub a b c s).mdl = s.mdl ∧ (modPub a b c s).exu = s.exu ∧ (modPub a b c s).coll = s.coll ∧ (modPub a b c s).xn = s.xn ∧ (modPub a b c s).pw = s.pw ∧ (modPub a b c s).sec = s.sec ∧ (modPub a b c s).td = s.td ∧ (modPub a b c s).cof = s.cof ∧ (modPub a b c s).draws = s.draws ∧ (modPub a b c s).out = s.out := by
  simp [modPub]

@[simp] theorem askDrop_frame (a : ℕ) (b : PoolObj) (s : State) :
    (askDrop a b s).pending = s.pending ∧ (askDrop a b s).time = s.time ∧ (askDrop a b s).id = s.id ∧ (askDrop a b s).hi = s.hi ∧ (askDrop a b s).ctxs = s.ctxs ∧ (askDrop a b s).fab = s.fab ∧ (askDrop a b s).srv = s.srv ∧ (askDrop a b s).ops = s.ops ∧ (askDrop a b s).mdl = s.mdl ∧ (askDrop a b s).exu = s.exu ∧ (askDrop a b s).coll = s.coll ∧ (askDrop a b s).pw = s.pw ∧ (askDrop a b s).sec = s.sec ∧ (askDrop a b s).cof = s.cof ∧ (askDrop a b s).draws = s.draws := by
  simp only [askDrop]
  repeat' split
  all_goals simp

@[simp] theorem askDrop_leaf (a : ℕ) (b : PoolObj) (s : State) :
    (askDrop a b s).mem.dram = s.mem.dram := by
  simp only [askDrop]
  repeat' split
  all_goals simp

@[simp] theorem loseForeign_frame (a : ℕ) (b : ℕ) (c : ℕ) (d : ℕ) (s : State) :
    (loseForeign a b c d s).pending = s.pending ∧ (loseForeign a b c d s).time = s.time ∧ (loseForeign a b c d s).id = s.id ∧ (loseForeign a b c d s).hi = s.hi ∧ (loseForeign a b c d s).ctxs = s.ctxs ∧ (loseForeign a b c d s).fab = s.fab ∧ (loseForeign a b c d s).ops = s.ops ∧ (loseForeign a b c d s).mdl = s.mdl ∧ (loseForeign a b c d s).exu = s.exu ∧ (loseForeign a b c d s).coll = s.coll ∧ (loseForeign a b c d s).xn = s.xn ∧ (loseForeign a b c d s).pw = s.pw ∧ (loseForeign a b c d s).sec = s.sec ∧ (loseForeign a b c d s).td = s.td ∧ (loseForeign a b c d s).cof = s.cof ∧ (loseForeign a b c d s).draws = s.draws ∧ (loseForeign a b c d s).out = s.out := by
  simp only [loseForeign]
  repeat' split
  all_goals simp

@[simp] theorem loseForeign_leaf (a : ℕ) (b : ℕ) (c : ℕ) (d : ℕ) (s : State) :
    (loseForeign a b c d s).mem.dram = s.mem.dram := by
  simp only [loseForeign]
  repeat' split
  all_goals simp

@[simp] theorem dropKv_frame (a : ℕ) (b : ℕ) (c : ℕ) (s : State) :
    (dropKv a b c s).pending = s.pending ∧ (dropKv a b c s).time = s.time ∧ (dropKv a b c s).id = s.id ∧ (dropKv a b c s).hi = s.hi ∧ (dropKv a b c s).fab = s.fab ∧ (dropKv a b c s).ops = s.ops ∧ (dropKv a b c s).mdl = s.mdl ∧ (dropKv a b c s).exu = s.exu ∧ (dropKv a b c s).coll = s.coll ∧ (dropKv a b c s).pw = s.pw ∧ (dropKv a b c s).sec = s.sec ∧ (dropKv a b c s).cof = s.cof ∧ (dropKv a b c s).draws = s.draws := by
  simp only [dropKv]
  repeat' split
  all_goals simp

@[simp] theorem dropKv_leaf (a : ℕ) (b : ℕ) (c : ℕ) (s : State) :
    (dropKv a b c s).mem.dram = s.mem.dram := by
  simp only [dropKv]
  repeat' split
  all_goals simp

@[simp] theorem evictObj_frame (a : ℕ) (b : PoolObj) (s : State) :
    (evictObj a b s).pending = s.pending ∧ (evictObj a b s).time = s.time ∧ (evictObj a b s).id = s.id ∧ (evictObj a b s).fab = s.fab ∧ (evictObj a b s).ops = s.ops ∧ (evictObj a b s).mdl = s.mdl ∧ (evictObj a b s).exu = s.exu ∧ (evictObj a b s).coll = s.coll ∧ (evictObj a b s).pw = s.pw ∧ (evictObj a b s).sec = s.sec ∧ (evictObj a b s).cof = s.cof ∧ (evictObj a b s).draws = s.draws := by
  simp only [evictObj]
  repeat' split
  all_goals simp

@[simp] theorem evictObj_leaf (a : ℕ) (b : PoolObj) (s : State) :
    (evictObj a b s).mem.dram = s.mem.dram ∧ (evictObj a b s).hi.lock = s.hi.lock := by
  simp only [evictObj]
  repeat' split
  all_goals simp

@[simp] theorem evictUntil_frame (a : ℕ) (b : ℕ) (c : ℕ) (s : State) :
    (evictUntil a b c s).pending = s.pending ∧ (evictUntil a b c s).time = s.time ∧ (evictUntil a b c s).id = s.id ∧ (evictUntil a b c s).fab = s.fab ∧ (evictUntil a b c s).ops = s.ops ∧ (evictUntil a b c s).mdl = s.mdl ∧ (evictUntil a b c s).exu = s.exu ∧ (evictUntil a b c s).coll = s.coll ∧ (evictUntil a b c s).pw = s.pw ∧ (evictUntil a b c s).sec = s.sec ∧ (evictUntil a b c s).cof = s.cof ∧ (evictUntil a b c s).draws = s.draws := by
  induction c generalizing a b s with
  | zero => simp [evictUntil]
  | succ m ih =>
    unfold evictUntil
    try dsimp only
    repeat' split
    all_goals simp [ih]

@[simp] theorem evictUntil_leaf (a : ℕ) (b : ℕ) (c : ℕ) (s : State) :
    (evictUntil a b c s).mem.dram = s.mem.dram ∧ (evictUntil a b c s).hi.lock = s.hi.lock := by
  induction c generalizing a b s with
  | zero => simp [evictUntil]
  | succ m ih =>
    unfold evictUntil
    try dsimp only
    repeat' split
    all_goals simp [ih]

theorem makeFrames_frame {a : ℕ} {b : ℕ} {c : ℕ} {d : ℕ} {s : State} {u : List ℕ × State} (h : makeFrames a b c d s = some u) :
    u.2.pending = s.pending ∧ u.2.time = s.time ∧ u.2.id = s.id ∧ u.2.fab = s.fab ∧ u.2.ops = s.ops ∧ u.2.mdl = s.mdl ∧ u.2.exu = s.exu ∧ u.2.coll = s.coll ∧ u.2.pw = s.pw ∧ u.2.sec = s.sec ∧ u.2.cof = s.cof ∧ u.2.draws = s.draws := by
  induction d generalizing s with
  | zero =>
    unfold makeFrames at h
    split at h
    · obtain rfl := Option.some.inj h
      simp
    · split at h
      · rename_i hk _
        exact absurd hk (by simp)
      · simp at h
  | succ k ih =>
    unfold makeFrames at h
    split at h
    · obtain rfl := Option.some.inj h
      simp
    · split at h
      · rename_i hk _
        cases hk
        have := ih h
        simpa using this
      · simp at h

theorem makeFrames_leaf {a : ℕ} {b : ℕ} {c : ℕ} {d : ℕ} {s : State} {u : List ℕ × State} (h : makeFrames a b c d s = some u) :
    u.2.mem.dram = s.mem.dram ∧ u.2.hi.lock = s.hi.lock := by
  induction d generalizing s with
  | zero =>
    unfold makeFrames at h
    split at h
    · obtain rfl := Option.some.inj h
      simp
    · split at h
      · rename_i hk _
        exact absurd hk (by simp)
      · simp at h
  | succ k ih =>
    unfold makeFrames at h
    split at h
    · obtain rfl := Option.some.inj h
      simp
    · split at h
      · rename_i hk _
        cases hk
        have := ih h
        simpa using this
      · simp at h

@[simp] theorem copyFrame_frame (a : ℕ) (b : ℕ) (s : State) :
    (copyFrame a b s).pending = s.pending ∧ (copyFrame a b s).time = s.time ∧ (copyFrame a b s).id = s.id ∧ (copyFrame a b s).hi = s.hi ∧ (copyFrame a b s).ctxs = s.ctxs ∧ (copyFrame a b s).fab = s.fab ∧ (copyFrame a b s).srv = s.srv ∧ (copyFrame a b s).ops = s.ops ∧ (copyFrame a b s).mdl = s.mdl ∧ (copyFrame a b s).exu = s.exu ∧ (copyFrame a b s).coll = s.coll ∧ (copyFrame a b s).xn = s.xn ∧ (copyFrame a b s).pw = s.pw ∧ (copyFrame a b s).sec = s.sec ∧ (copyFrame a b s).td = s.td ∧ (copyFrame a b s).cof = s.cof ∧ (copyFrame a b s).draws = s.draws ∧ (copyFrame a b s).out = s.out := by
  simp [copyFrame]

@[simp] theorem remap_frame (a : ℕ) (b : ℕ) (s : State) :
    (remap a b s).pending = s.pending ∧ (remap a b s).time = s.time ∧ (remap a b s).id = s.id ∧ (remap a b s).hi = s.hi ∧ (remap a b s).ctxs = s.ctxs ∧ (remap a b s).fab = s.fab ∧ (remap a b s).srv = s.srv ∧ (remap a b s).ops = s.ops ∧ (remap a b s).mdl = s.mdl ∧ (remap a b s).exu = s.exu ∧ (remap a b s).coll = s.coll ∧ (remap a b s).xn = s.xn ∧ (remap a b s).pw = s.pw ∧ (remap a b s).sec = s.sec ∧ (remap a b s).td = s.td ∧ (remap a b s).cof = s.cof ∧ (remap a b s).draws = s.draws ∧ (remap a b s).out = s.out := by
  simp [remap]

@[simp] theorem remap_leaf (a : ℕ) (b : ℕ) (s : State) :
    (remap a b s).mem.dram = s.mem.dram := by
  simp [remap]

@[simp] theorem moveFrame_frame (a : ℕ) (b : ℕ) (c : ℕ) (s : State) :
    (moveFrame a b c s).pending = s.pending ∧ (moveFrame a b c s).time = s.time ∧ (moveFrame a b c s).id = s.id ∧ (moveFrame a b c s).hi = s.hi ∧ (moveFrame a b c s).ctxs = s.ctxs ∧ (moveFrame a b c s).fab = s.fab ∧ (moveFrame a b c s).ops = s.ops ∧ (moveFrame a b c s).mdl = s.mdl ∧ (moveFrame a b c s).exu = s.exu ∧ (moveFrame a b c s).coll = s.coll ∧ (moveFrame a b c s).pw = s.pw ∧ (moveFrame a b c s).sec = s.sec ∧ (moveFrame a b c s).cof = s.cof ∧ (moveFrame a b c s).draws = s.draws := by
  simp [moveFrame]

@[simp] theorem moveAll_frame (a : ℕ) (b : List (ℕ × ℕ)) (s : State) :
    (moveAll a b s).pending = s.pending ∧ (moveAll a b s).time = s.time ∧ (moveAll a b s).id = s.id ∧ (moveAll a b s).hi = s.hi ∧ (moveAll a b s).ctxs = s.ctxs ∧ (moveAll a b s).fab = s.fab ∧ (moveAll a b s).ops = s.ops ∧ (moveAll a b s).mdl = s.mdl ∧ (moveAll a b s).exu = s.exu ∧ (moveAll a b s).coll = s.coll ∧ (moveAll a b s).pw = s.pw ∧ (moveAll a b s).sec = s.sec ∧ (moveAll a b s).cof = s.cof ∧ (moveAll a b s).draws = s.draws := by
  induction b generalizing a s with
  | nil => simp [moveAll]
  | cons y m ih =>
    unfold moveAll
    try dsimp only
    repeat' split
    all_goals simp [ih]

theorem takeFrames_frame {a : Bool} {b : ℕ} {c : ℕ} {d : ℕ} {s : State} {u : List ℕ × State} (h : takeFrames a b c d s = some u) :
    u.2.pending = s.pending ∧ u.2.time = s.time ∧ u.2.id = s.id ∧ u.2.fab = s.fab ∧ u.2.ops = s.ops ∧ u.2.mdl = s.mdl ∧ u.2.exu = s.exu ∧ u.2.coll = s.coll ∧ u.2.pw = s.pw ∧ u.2.sec = s.sec ∧ u.2.cof = s.cof ∧ u.2.draws = s.draws := by
  simp only [takeFrames] at h
  repeat' split at h
  all_goals try have hmakeFramesframe := makeFrames_frame (by assumption)
  all_goals first | (cases h; simp; done) | (cases h; simp_all; done) | simp_all

theorem takeFrames_leaf {a : Bool} {b : ℕ} {c : ℕ} {d : ℕ} {s : State} {u : List ℕ × State} (h : takeFrames a b c d s = some u) :
    u.2.hi.lock = s.hi.lock := by
  simp only [takeFrames] at h
  repeat' split at h
  all_goals try have hmakeFramesframe := makeFrames_frame (by assumption)
  all_goals try have hmakeFramesleaf := makeFrames_leaf (by assumption)
  all_goals first | (cases h; simp; done) | (cases h; simp_all; done) | simp_all

theorem allocate_frame {a : Bool} {b : ℕ} {c : ObjKind} {d : ObjClass} {e : ℕ} {f : ℕ} {s : State} {u : State} (h : allocate a b c d e f s = some u) :
    u.pending = s.pending ∧ u.time = s.time ∧ u.id = s.id ∧ u.fab = s.fab ∧ u.ops = s.ops ∧ u.mdl = s.mdl ∧ u.exu = s.exu ∧ u.coll = s.coll ∧ u.pw = s.pw ∧ u.sec = s.sec ∧ u.cof = s.cof ∧ u.draws = s.draws := by
  simp only [allocate] at h
  split at h
  · obtain rfl := Option.some.inj h
    simp
  · simp only [Option.map_eq_some_iff] at h
    obtain ⟨r, hr, h⟩ := h
    have hA := takeFrames_frame hr
    split at h <;> subst h <;> simp [hA]

theorem allocate_leaf {a : Bool} {b : ℕ} {c : ObjKind} {d : ObjClass} {e : ℕ} {f : ℕ} {s : State} {u : State} (h : allocate a b c d e f s = some u) :
    u.hi.lock = s.hi.lock := by
  simp only [allocate] at h
  split at h
  · obtain rfl := Option.some.inj h
    simp
  · simp only [Option.map_eq_some_iff] at h
    obtain ⟨r, hr, h⟩ := h
    have hA := takeFrames_leaf hr
    split at h <;> subst h <;> simp [hA]

@[simp] theorem insertBlocks_frame (a : ℕ) (b : ℕ) (c : ℕ) (d : Seq) (e : ℕ → ℕ) (f : ℕ) (g : ℕ) (h : Option Node) (s : State) :
    (insertBlocks a b c d e f g h s).pending = s.pending ∧ (insertBlocks a b c d e f g h s).time = s.time ∧ (insertBlocks a b c d e f g h s).id = s.id ∧ (insertBlocks a b c d e f g h s).hi = s.hi ∧ (insertBlocks a b c d e f g h s).ctxs = s.ctxs ∧ (insertBlocks a b c d e f g h s).mem = s.mem ∧ (insertBlocks a b c d e f g h s).fab = s.fab ∧ (insertBlocks a b c d e f g h s).ops = s.ops ∧ (insertBlocks a b c d e f g h s).mdl = s.mdl ∧ (insertBlocks a b c d e f g h s).exu = s.exu ∧ (insertBlocks a b c d e f g h s).coll = s.coll ∧ (insertBlocks a b c d e f g h s).xn = s.xn ∧ (insertBlocks a b c d e f g h s).pw = s.pw ∧ (insertBlocks a b c d e f g h s).sec = s.sec ∧ (insertBlocks a b c d e f g h s).td = s.td ∧ (insertBlocks a b c d e f g h s).cof = s.cof ∧ (insertBlocks a b c d e f g h s).draws = s.draws ∧ (insertBlocks a b c d e f g h s).out = s.out := by
  induction f generalizing a b c d e g h s with
  | zero => simp [insertBlocks]
  | succ m ih =>
    unfold insertBlocks
    try dsimp only
    repeat' split
    all_goals simp [ih]

@[simp] theorem handPages_frame (a : ℕ) (b : ℕ) (c : ℕ) (s : State) :
    (handPages a b c s).pending = s.pending ∧ (handPages a b c s).time = s.time ∧ (handPages a b c s).id = s.id ∧ (handPages a b c s).hi = s.hi ∧ (handPages a b c s).ctxs = s.ctxs ∧ (handPages a b c s).fab = s.fab ∧ (handPages a b c s).ops = s.ops ∧ (handPages a b c s).mdl = s.mdl ∧ (handPages a b c s).exu = s.exu ∧ (handPages a b c s).coll = s.coll ∧ (handPages a b c s).xn = s.xn ∧ (handPages a b c s).pw = s.pw ∧ (handPages a b c s).sec = s.sec ∧ (handPages a b c s).td = s.td ∧ (handPages a b c s).cof = s.cof ∧ (handPages a b c s).draws = s.draws ∧ (handPages a b c s).out = s.out := by
  simp [handPages]

@[simp] theorem handPages_leaf (a : ℕ) (b : ℕ) (c : ℕ) (s : State) :
    (handPages a b c s).mem.dram = s.mem.dram := by
  simp [handPages]

theorem growTree_frame {a : ℕ} {b : ℕ} {c : ℕ} {d : KvGeom} {s : State} {u : State} (h : growTree a b c d s = some u) :
    u.pending = s.pending ∧ u.time = s.time ∧ u.id = s.id ∧ u.fab = s.fab ∧ u.ops = s.ops ∧ u.mdl = s.mdl ∧ u.exu = s.exu ∧ u.coll = s.coll ∧ u.pw = s.pw ∧ u.sec = s.sec ∧ u.cof = s.cof ∧ u.draws = s.draws := by
  simp only [growTree] at h
  repeat' split at h
  all_goals try have hallocateframe := allocate_frame (by assumption)
  all_goals first | (cases h; simp; done) | (cases h; simp_all; done) | simp_all

theorem growTree_leaf {a : ℕ} {b : ℕ} {c : ℕ} {d : KvGeom} {s : State} {u : State} (h : growTree a b c d s = some u) :
    u.hi.lock = s.hi.lock := by
  simp only [growTree] at h
  repeat' split at h
  all_goals try have hallocateframe := allocate_frame (by assumption)
  all_goals try have hallocateleaf := allocate_leaf (by assumption)
  all_goals first | (cases h; simp; done) | (cases h; simp_all; done) | simp_all

@[simp] theorem keepBlocks_frame (a : ℕ) (b : ℕ) (c : KvGeom) (s : State) :
    (keepBlocks a b c s).pending = s.pending ∧ (keepBlocks a b c s).time = s.time ∧ (keepBlocks a b c s).id = s.id ∧ (keepBlocks a b c s).fab = s.fab ∧ (keepBlocks a b c s).ops = s.ops ∧ (keepBlocks a b c s).mdl = s.mdl ∧ (keepBlocks a b c s).exu = s.exu ∧ (keepBlocks a b c s).coll = s.coll ∧ (keepBlocks a b c s).pw = s.pw ∧ (keepBlocks a b c s).sec = s.sec ∧ (keepBlocks a b c s).cof = s.cof ∧ (keepBlocks a b c s).draws = s.draws := by
  simp only [keepBlocks]
  repeat' split
  all_goals try have hgrowTreeframe := growTree_frame (by assumption)
  all_goals simp_all

@[simp] theorem keepBlocks_leaf (a : ℕ) (b : ℕ) (c : KvGeom) (s : State) :
    (keepBlocks a b c s).hi.lock = s.hi.lock := by
  simp only [keepBlocks]
  repeat' split
  all_goals try have hgrowTreeframe := growTree_frame (by assumption)
  all_goals try have hgrowTreeleaf := growTree_leaf (by assumption)
  all_goals simp_all

@[simp] theorem endSeq_frame (a : ℕ) (s : State) :
    (endSeq a s).pending = s.pending ∧ (endSeq a s).time = s.time ∧ (endSeq a s).id = s.id ∧ (endSeq a s).fab = s.fab ∧ (endSeq a s).ops = s.ops ∧ (endSeq a s).mdl = s.mdl ∧ (endSeq a s).exu = s.exu ∧ (endSeq a s).coll = s.coll ∧ (endSeq a s).pw = s.pw ∧ (endSeq a s).sec = s.sec ∧ (endSeq a s).cof = s.cof ∧ (endSeq a s).draws = s.draws := by
  simp only [endSeq]
  repeat' split
  all_goals simp

@[simp] theorem endSeq_leaf (a : ℕ) (s : State) :
    (endSeq a s).hi.lock = s.hi.lock := by
  simp only [endSeq]
  repeat' split
  all_goals simp

@[simp] theorem putTok_frame (a : TokRec) (s : State) :
    (putTok a s).pending = s.pending ∧ (putTok a s).time = s.time ∧ (putTok a s).id = s.id ∧ (putTok a s).mem = s.mem ∧ (putTok a s).fab = s.fab ∧ (putTok a s).srv = s.srv ∧ (putTok a s).ops = s.ops ∧ (putTok a s).mdl = s.mdl ∧ (putTok a s).exu = s.exu ∧ (putTok a s).coll = s.coll ∧ (putTok a s).xn = s.xn ∧ (putTok a s).pw = s.pw ∧ (putTok a s).sec = s.sec ∧ (putTok a s).cof = s.cof ∧ (putTok a s).draws = s.draws := by
  simp [putTok]

@[simp] theorem putTok_leaf (a : TokRec) (s : State) :
    (putTok a s).hi.lock = s.hi.lock := by
  simp [putTok]

@[simp] theorem freeDrawer_frame (a : ℕ) (s : State) :
    (freeDrawer a s).pending = s.pending ∧ (freeDrawer a s).time = s.time ∧ (freeDrawer a s).id = s.id ∧ (freeDrawer a s).hi = s.hi ∧ (freeDrawer a s).ctxs = s.ctxs ∧ (freeDrawer a s).fab = s.fab ∧ (freeDrawer a s).ops = s.ops ∧ (freeDrawer a s).mdl = s.mdl ∧ (freeDrawer a s).exu = s.exu ∧ (freeDrawer a s).coll = s.coll ∧ (freeDrawer a s).xn = s.xn ∧ (freeDrawer a s).pw = s.pw ∧ (freeDrawer a s).sec = s.sec ∧ (freeDrawer a s).td = s.td ∧ (freeDrawer a s).cof = s.cof ∧ (freeDrawer a s).draws = s.draws ∧ (freeDrawer a s).out = s.out := by
  simp only [freeDrawer]
  repeat' split
  all_goals simp

@[simp] theorem freeDrawer_leaf (a : ℕ) (s : State) :
    (freeDrawer a s).mem.dram = s.mem.dram := by
  simp only [freeDrawer]
  repeat' split
  all_goals simp

@[simp] theorem drainReq_frame (a : ℕ) (b : ℕ) (s : State) :
    (drainReq a b s).pending = s.pending ∧ (drainReq a b s).time = s.time ∧ (drainReq a b s).id = s.id ∧ (drainReq a b s).fab = s.fab ∧ (drainReq a b s).ops = s.ops ∧ (drainReq a b s).mdl = s.mdl ∧ (drainReq a b s).exu = s.exu ∧ (drainReq a b s).coll = s.coll ∧ (drainReq a b s).xn = s.xn ∧ (drainReq a b s).pw = s.pw ∧ (drainReq a b s).sec = s.sec ∧ (drainReq a b s).cof = s.cof ∧ (drainReq a b s).draws = s.draws := by
  induction b generalizing a s with
  | zero => simp [drainReq]
  | succ m ih =>
    unfold drainReq
    try dsimp only
    repeat' split
    all_goals simp [ih]

@[simp] theorem drainReq_leaf (a : ℕ) (b : ℕ) (s : State) :
    (drainReq a b s).mem.dram = s.mem.dram ∧ (drainReq a b s).hi.lock = s.hi.lock := by
  induction b generalizing a s with
  | zero => simp [drainReq]
  | succ m ih =>
    unfold drainReq
    try dsimp only
    repeat' split
    all_goals simp [ih]

@[simp] theorem releaseShare_frame (a : Request) (s : State) :
    (releaseShare a s).pending = s.pending ∧ (releaseShare a s).time = s.time ∧ (releaseShare a s).id = s.id ∧ (releaseShare a s).hi = s.hi ∧ (releaseShare a s).ctxs = s.ctxs ∧ (releaseShare a s).mem = s.mem ∧ (releaseShare a s).fab = s.fab ∧ (releaseShare a s).ops = s.ops ∧ (releaseShare a s).mdl = s.mdl ∧ (releaseShare a s).exu = s.exu ∧ (releaseShare a s).coll = s.coll ∧ (releaseShare a s).xn = s.xn ∧ (releaseShare a s).pw = s.pw ∧ (releaseShare a s).sec = s.sec ∧ (releaseShare a s).td = s.td ∧ (releaseShare a s).cof = s.cof ∧ (releaseShare a s).draws = s.draws ∧ (releaseShare a s).out = s.out := by
  simp [releaseShare]

@[simp] theorem unrefEpoch_frame (a : Request) (s : State) :
    (unrefEpoch a s).pending = s.pending ∧ (unrefEpoch a s).time = s.time ∧ (unrefEpoch a s).id = s.id ∧ (unrefEpoch a s).hi = s.hi ∧ (unrefEpoch a s).ctxs = s.ctxs ∧ (unrefEpoch a s).mem = s.mem ∧ (unrefEpoch a s).fab = s.fab ∧ (unrefEpoch a s).srv = s.srv ∧ (unrefEpoch a s).ops = s.ops ∧ (unrefEpoch a s).exu = s.exu ∧ (unrefEpoch a s).coll = s.coll ∧ (unrefEpoch a s).xn = s.xn ∧ (unrefEpoch a s).pw = s.pw ∧ (unrefEpoch a s).sec = s.sec ∧ (unrefEpoch a s).td = s.td ∧ (unrefEpoch a s).cof = s.cof ∧ (unrefEpoch a s).draws = s.draws ∧ (unrefEpoch a s).out = s.out := by
  simp [unrefEpoch]

@[simp] theorem freeDetoks_frame (a : ℕ) (s : State) :
    (freeDetoks a s).pending = s.pending ∧ (freeDetoks a s).time = s.time ∧ (freeDetoks a s).id = s.id ∧ (freeDetoks a s).hi = s.hi ∧ (freeDetoks a s).ctxs = s.ctxs ∧ (freeDetoks a s).mem = s.mem ∧ (freeDetoks a s).fab = s.fab ∧ (freeDetoks a s).srv = s.srv ∧ (freeDetoks a s).ops = s.ops ∧ (freeDetoks a s).exu = s.exu ∧ (freeDetoks a s).coll = s.coll ∧ (freeDetoks a s).xn = s.xn ∧ (freeDetoks a s).pw = s.pw ∧ (freeDetoks a s).sec = s.sec ∧ (freeDetoks a s).td = s.td ∧ (freeDetoks a s).cof = s.cof ∧ (freeDetoks a s).draws = s.draws ∧ (freeDetoks a s).out = s.out := by
  simp [freeDetoks]

@[simp] theorem leaveSeq_frame (a : Request) (s : State) :
    (leaveSeq a s).pending = s.pending ∧ (leaveSeq a s).time = s.time ∧ (leaveSeq a s).id = s.id ∧ (leaveSeq a s).fab = s.fab ∧ (leaveSeq a s).ops = s.ops ∧ (leaveSeq a s).mdl = s.mdl ∧ (leaveSeq a s).exu = s.exu ∧ (leaveSeq a s).coll = s.coll ∧ (leaveSeq a s).pw = s.pw ∧ (leaveSeq a s).sec = s.sec ∧ (leaveSeq a s).cof = s.cof ∧ (leaveSeq a s).draws = s.draws := by
  simp [leaveSeq]

@[simp] theorem leaveSeq_leaf (a : Request) (s : State) :
    (leaveSeq a s).hi.lock = s.hi.lock := by
  simp [leaveSeq]

@[simp] theorem dropReq_frame (a : ℕ) (b : Request) (s : State) :
    (dropReq a b s).pending = s.pending ∧ (dropReq a b s).time = s.time ∧ (dropReq a b s).id = s.id ∧ (dropReq a b s).fab = s.fab ∧ (dropReq a b s).ops = s.ops ∧ (dropReq a b s).coll = s.coll ∧ (dropReq a b s).pw = s.pw ∧ (dropReq a b s).sec = s.sec ∧ (dropReq a b s).cof = s.cof ∧ (dropReq a b s).draws = s.draws := by
  simp [dropReq]

@[simp] theorem dropReq_leaf (a : ℕ) (b : Request) (s : State) :
    (dropReq a b s).hi.lock = s.hi.lock := by
  simp [dropReq]

@[simp] theorem endReq_frame (a : Bool) (b : ℕ) (c : Status) (s : State) :
    (endReq a b c s).pending = s.pending ∧ (endReq a b c s).time = s.time ∧ (endReq a b c s).id = s.id ∧ (endReq a b c s).fab = s.fab ∧ (endReq a b c s).ops = s.ops ∧ (endReq a b c s).coll = s.coll ∧ (endReq a b c s).pw = s.pw ∧ (endReq a b c s).sec = s.sec ∧ (endReq a b c s).cof = s.cof ∧ (endReq a b c s).draws = s.draws := by
  simp only [endReq]
  repeat' split
  all_goals simp

@[simp] theorem endReq_leaf (a : Bool) (b : ℕ) (c : Status) (s : State) :
    (endReq a b c s).hi.lock = s.hi.lock := by
  simp only [endReq]
  repeat' split
  all_goals simp

@[simp] theorem declineReq_frame (a : Hdr) (b : ReqOp) (c : Status) (s : State) :
    (declineReq a b c s).pending = s.pending ∧ (declineReq a b c s).time = s.time ∧ (declineReq a b c s).id = s.id ∧ (declineReq a b c s).mem = s.mem ∧ (declineReq a b c s).fab = s.fab ∧ (declineReq a b c s).ops = s.ops ∧ (declineReq a b c s).mdl = s.mdl ∧ (declineReq a b c s).exu = s.exu ∧ (declineReq a b c s).coll = s.coll ∧ (declineReq a b c s).xn = s.xn ∧ (declineReq a b c s).pw = s.pw ∧ (declineReq a b c s).sec = s.sec ∧ (declineReq a b c s).cof = s.cof ∧ (declineReq a b c s).draws = s.draws := by
  simp [declineReq]

@[simp] theorem declineReq_leaf (a : Hdr) (b : ReqOp) (c : Status) (s : State) :
    (declineReq a b c s).hi.lock = s.hi.lock := by
  simp [declineReq]

@[simp] theorem declineWaiting_frame (a : ℕ) (b : Status) (s : State) :
    (declineWaiting a b s).pending = s.pending ∧ (declineWaiting a b s).time = s.time ∧ (declineWaiting a b s).id = s.id ∧ (declineWaiting a b s).mem = s.mem ∧ (declineWaiting a b s).fab = s.fab ∧ (declineWaiting a b s).ops = s.ops ∧ (declineWaiting a b s).mdl = s.mdl ∧ (declineWaiting a b s).exu = s.exu ∧ (declineWaiting a b s).coll = s.coll ∧ (declineWaiting a b s).xn = s.xn ∧ (declineWaiting a b s).pw = s.pw ∧ (declineWaiting a b s).sec = s.sec ∧ (declineWaiting a b s).cof = s.cof ∧ (declineWaiting a b s).draws = s.draws := by
  simp only [declineWaiting]
  repeat' split
  all_goals simp

@[simp] theorem declineWaiting_leaf (a : ℕ) (b : Status) (s : State) :
    (declineWaiting a b s).hi.lock = s.hi.lock := by
  simp only [declineWaiting]
  repeat' split
  all_goals simp

@[simp] theorem settleFinishing_frame (a : ℕ) (s : State) :
    (settleFinishing a s).pending = s.pending ∧ (settleFinishing a s).time = s.time ∧ (settleFinishing a s).id = s.id ∧ (settleFinishing a s).fab = s.fab ∧ (settleFinishing a s).ops = s.ops ∧ (settleFinishing a s).coll = s.coll ∧ (settleFinishing a s).pw = s.pw ∧ (settleFinishing a s).sec = s.sec ∧ (settleFinishing a s).cof = s.cof ∧ (settleFinishing a s).draws = s.draws := by
  simp only [settleFinishing]
  repeat' split
  all_goals simp

@[simp] theorem settleFinishing_leaf (a : ℕ) (s : State) :
    (settleFinishing a s).hi.lock = s.hi.lock := by
  simp only [settleFinishing]
  repeat' split
  all_goals simp

@[simp] theorem drainCtx_frame (a : ℕ) (s : State) :
    (drainCtx a s).pending = s.pending ∧ (drainCtx a s).time = s.time ∧ (drainCtx a s).id = s.id ∧ (drainCtx a s).fab = s.fab ∧ (drainCtx a s).ops = s.ops ∧ (drainCtx a s).coll = s.coll ∧ (drainCtx a s).pw = s.pw ∧ (drainCtx a s).sec = s.sec ∧ (drainCtx a s).cof = s.cof ∧ (drainCtx a s).draws = s.draws := by
  simp [drainCtx]

@[simp] theorem drainCtx_leaf (a : ℕ) (s : State) :
    (drainCtx a s).hi.lock = s.hi.lock := by
  simp [drainCtx]

@[simp] theorem endReqs_frame (a : Bool) (b : Request → Bool) (c : Status) (s : State) :
    (endReqs a b c s).pending = s.pending ∧ (endReqs a b c s).time = s.time ∧ (endReqs a b c s).id = s.id ∧ (endReqs a b c s).fab = s.fab ∧ (endReqs a b c s).ops = s.ops ∧ (endReqs a b c s).coll = s.coll ∧ (endReqs a b c s).pw = s.pw ∧ (endReqs a b c s).sec = s.sec ∧ (endReqs a b c s).cof = s.cof ∧ (endReqs a b c s).draws = s.draws := by
  simp [endReqs]

@[simp] theorem endReqs_leaf (a : Bool) (b : Request → Bool) (c : Status) (s : State) :
    (endReqs a b c s).hi.lock = s.hi.lock := by
  simp [endReqs]

end Sys2Proof.Machine
end

