-- ==== Sys2Proof/Laws/JobOps.lean ====
section
/-! SUPPORT. What the operations of Machine/JobOps.lean leave unchanged: the parts of the state that each does not touch. -/
namespace Sys2Proof.Machine

@[simp] theorem modOp_pending (a : ℕ) (b : LongOp → LongOp) (s : State) : (modOp a b s).pending = s.pending := (rfl)
@[simp] theorem modOp_time (a : ℕ) (b : LongOp → LongOp) (s : State) : (modOp a b s).time = s.time := (rfl)
@[simp] theorem modOp_id (a : ℕ) (b : LongOp → LongOp) (s : State) : (modOp a b s).id = s.id := (rfl)
@[simp] theorem modOp_hi (a : ℕ) (b : LongOp → LongOp) (s : State) : (modOp a b s).hi = s.hi := (rfl)
@[simp] theorem modOp_ctxs (a : ℕ) (b : LongOp → LongOp) (s : State) : (modOp a b s).ctxs = s.ctxs := (rfl)
@[simp] theorem modOp_mem (a : ℕ) (b : LongOp → LongOp) (s : State) : (modOp a b s).mem = s.mem := (rfl)
@[simp] theorem modOp_fab (a : ℕ) (b : LongOp → LongOp) (s : State) : (modOp a b s).fab = s.fab := (rfl)
@[simp] theorem modOp_srv (a : ℕ) (b : LongOp → LongOp) (s : State) : (modOp a b s).srv = s.srv := (rfl)
@[simp] theorem modOp_mdl (a : ℕ) (b : LongOp → LongOp) (s : State) : (modOp a b s).mdl = s.mdl := (rfl)
@[simp] theorem modOp_exu (a : ℕ) (b : LongOp → LongOp) (s : State) : (modOp a b s).exu = s.exu := (rfl)
@[simp] theorem modOp_coll (a : ℕ) (b : LongOp → LongOp) (s : State) : (modOp a b s).coll = s.coll := (rfl)
@[simp] theorem modOp_xn (a : ℕ) (b : LongOp → LongOp) (s : State) : (modOp a b s).xn = s.xn := (rfl)
@[simp] theorem modOp_pw (a : ℕ) (b : LongOp → LongOp) (s : State) : (modOp a b s).pw = s.pw := (rfl)
@[simp] theorem modOp_sec (a : ℕ) (b : LongOp → LongOp) (s : State) : (modOp a b s).sec = s.sec := (rfl)
@[simp] theorem modOp_td (a : ℕ) (b : LongOp → LongOp) (s : State) : (modOp a b s).td = s.td := (rfl)
@[simp] theorem modOp_cof (a : ℕ) (b : LongOp → LongOp) (s : State) : (modOp a b s).cof = s.cof := (rfl)
@[simp] theorem modOp_draws (a : ℕ) (b : LongOp → LongOp) (s : State) : (modOp a b s).draws = s.draws := (rfl)
@[simp] theorem modOp_out (a : ℕ) (b : LongOp → LongOp) (s : State) : (modOp a b s).out = s.out := (rfl)

@[simp] theorem unmark_frame (a : OpKind) (s : State) :
    (unmark a s).pending = s.pending ∧ (unmark a s).time = s.time ∧ (unmark a s).id = s.id ∧ (unmark a s).hi = s.hi ∧ (unmark a s).ctxs = s.ctxs ∧ (unmark a s).mem = s.mem ∧ (unmark a s).ops = s.ops ∧ (unmark a s).mdl = s.mdl ∧ (unmark a s).exu = s.exu ∧ (unmark a s).coll = s.coll ∧ (unmark a s).xn = s.xn ∧ (unmark a s).sec = s.sec ∧ (unmark a s).td = s.td ∧ (unmark a s).cof = s.cof ∧ (unmark a s).draws = s.draws ∧ (unmark a s).out = s.out := by
  simp only [unmark]
  repeat' split
  all_goals simp

@[simp] theorem unmark_leaf (a : OpKind) (s : State) :
    (unmark a s).fab.scratch = s.fab.scratch ∧ (unmark a s).pw.st = s.pw.st := by
  simp only [unmark]
  repeat' split
  all_goals simp

@[simp] theorem endOp_frame (a : ℕ) (b : Status) (c : ℕ) (s : State) :
    (endOp a b c s).pending = s.pending ∧ (endOp a b c s).time = s.time ∧ (endOp a b c s).id = s.id ∧ (endOp a b c s).mem = s.mem ∧ (endOp a b c s).mdl = s.mdl ∧ (endOp a b c s).exu = s.exu ∧ (endOp a b c s).coll = s.coll ∧ (endOp a b c s).xn = s.xn ∧ (endOp a b c s).sec = s.sec ∧ (endOp a b c s).cof = s.cof ∧ (endOp a b c s).draws = s.draws := by
  simp only [endOp]
  repeat' split
  all_goals simp

@[simp] theorem endOp_leaf (a : ℕ) (b : Status) (c : ℕ) (s : State) :
    (endOp a b c s).fab.scratch = s.fab.scratch ∧ (endOp a b c s).hi.lock = s.hi.lock ∧ (endOp a b c s).pw.st = s.pw.st := by
  simp only [endOp]
  repeat' split
  all_goals simp

@[simp] theorem beginOp_frame (a : Hdr) (b : OpKind) (c : ℕ) (s : State) :
    (beginOp a b c s).pending = s.pending ∧ (beginOp a b c s).time = s.time ∧ (beginOp a b c s).id = s.id ∧ (beginOp a b c s).mem = s.mem ∧ (beginOp a b c s).fab = s.fab ∧ (beginOp a b c s).srv = s.srv ∧ (beginOp a b c s).mdl = s.mdl ∧ (beginOp a b c s).exu = s.exu ∧ (beginOp a b c s).coll = s.coll ∧ (beginOp a b c s).xn = s.xn ∧ (beginOp a b c s).pw = s.pw ∧ (beginOp a b c s).sec = s.sec ∧ (beginOp a b c s).cof = s.cof ∧ (beginOp a b c s).draws = s.draws := by
  simp [beginOp]

@[simp] theorem beginOp_leaf (a : Hdr) (b : OpKind) (c : ℕ) (s : State) :
    (beginOp a b c s).hi.lock = s.hi.lock := by
  simp [beginOp]

@[simp] theorem endCollOps_frame (a : Bool) (b : ℕ) (c : Status) (s : State) :
    (endCollOps a b c s).pending = s.pending ∧ (endCollOps a b c s).time = s.time ∧ (endCollOps a b c s).id = s.id ∧ (endCollOps a b c s).mem = s.mem ∧ (endCollOps a b c s).fab = s.fab ∧ (endCollOps a b c s).srv = s.srv ∧ (endCollOps a b c s).ops = s.ops ∧ (endCollOps a b c s).mdl = s.mdl ∧ (endCollOps a b c s).exu = s.exu ∧ (endCollOps a b c s).pw = s.pw ∧ (endCollOps a b c s).sec = s.sec ∧ (endCollOps a b c s).cof = s.cof ∧ (endCollOps a b c s).draws = s.draws := by
  simp only [endCollOps]
  repeat' split
  all_goals simp

@[simp] theorem endCollOps_leaf (a : Bool) (b : ℕ) (c : Status) (s : State) :
    (endCollOps a b c s).hi.lock = s.hi.lock := by
  simp only [endCollOps]
  repeat' split
  all_goals simp

@[simp] theorem failCreate_frame (a : ℕ) (b : Status) (s : State) :
    (failCreate a b s).pending = s.pending ∧ (failCreate a b s).time = s.time ∧ (failCreate a b s).id = s.id ∧ (failCreate a b s).mem = s.mem ∧ (failCreate a b s).fab = s.fab ∧ (failCreate a b s).srv = s.srv ∧ (failCreate a b s).ops = s.ops ∧ (failCreate a b s).mdl = s.mdl ∧ (failCreate a b s).exu = s.exu ∧ (failCreate a b s).xn = s.xn ∧ (failCreate a b s).pw = s.pw ∧ (failCreate a b s).sec = s.sec ∧ (failCreate a b s).cof = s.cof ∧ (failCreate a b s).draws = s.draws := by
  simp only [failCreate]
  repeat' split
  all_goals simp

@[simp] theorem failCreate_leaf (a : ℕ) (b : Status) (s : State) :
    (failCreate a b s).hi.lock = s.hi.lock := by
  simp only [failCreate]
  repeat' split
  all_goals simp

@[simp] theorem endGroup_frame (a : Bool) (b : ℕ) (s : State) :
    (endGroup a b s).pending = s.pending ∧ (endGroup a b s).time = s.time ∧ (endGroup a b s).id = s.id ∧ (endGroup a b s).mem = s.mem ∧ (endGroup a b s).fab = s.fab ∧ (endGroup a b s).srv = s.srv ∧ (endGroup a b s).ops = s.ops ∧ (endGroup a b s).mdl = s.mdl ∧ (endGroup a b s).exu = s.exu ∧ (endGroup a b s).pw = s.pw ∧ (endGroup a b s).sec = s.sec ∧ (endGroup a b s).cof = s.cof ∧ (endGroup a b s).draws = s.draws := by
  simp only [endGroup]
  repeat' split
  all_goals simp

@[simp] theorem endGroup_leaf (a : Bool) (b : ℕ) (s : State) :
    (endGroup a b s).hi.lock = s.hi.lock := by
  simp only [endGroup]
  repeat' split
  all_goals simp

@[simp] theorem endGroupsOf_frame (a : Bool) (b : ℕ) (s : State) :
    (endGroupsOf a b s).pending = s.pending ∧ (endGroupsOf a b s).time = s.time ∧ (endGroupsOf a b s).id = s.id ∧ (endGroupsOf a b s).mem = s.mem ∧ (endGroupsOf a b s).fab = s.fab ∧ (endGroupsOf a b s).srv = s.srv ∧ (endGroupsOf a b s).ops = s.ops ∧ (endGroupsOf a b s).mdl = s.mdl ∧ (endGroupsOf a b s).exu = s.exu ∧ (endGroupsOf a b s).pw = s.pw ∧ (endGroupsOf a b s).sec = s.sec ∧ (endGroupsOf a b s).cof = s.cof ∧ (endGroupsOf a b s).draws = s.draws := by
  simp [endGroupsOf]

@[simp] theorem endGroupsOf_leaf (a : Bool) (b : ℕ) (s : State) :
    (endGroupsOf a b s).hi.lock = s.hi.lock := by
  simp [endGroupsOf]

@[simp] theorem freeTables_frame (a : ℕ) (s : State) :
    (freeTables a s).pending = s.pending ∧ (freeTables a s).time = s.time ∧ (freeTables a s).id = s.id ∧ (freeTables a s).mem = s.mem ∧ (freeTables a s).fab = s.fab ∧ (freeTables a s).ops = s.ops ∧ (freeTables a s).mdl = s.mdl ∧ (freeTables a s).exu = s.exu ∧ (freeTables a s).coll = s.coll ∧ (freeTables a s).xn = s.xn ∧ (freeTables a s).pw = s.pw ∧ (freeTables a s).sec = s.sec ∧ (freeTables a s).cof = s.cof ∧ (freeTables a s).draws = s.draws := by
  simp (disch := first | (intros; (repeat' split) <;> (simp [-Nat.reducePow]; done)) | (intros; dsimp only; (repeat' split) <;> (simp [-Nat.reducePow]; done)) | assumption) [freeTables, -Nat.reducePow]

@[simp] theorem freeTables_leaf (a : ℕ) (s : State) :
    (freeTables a s).hi.lock = s.hi.lock := by
  simp (disch := first | (intros; (repeat' split) <;> (simp [-Nat.reducePow]; done)) | (intros; dsimp only; (repeat' split) <;> (simp [-Nat.reducePow]; done)) | assumption) [freeTables, -Nat.reducePow]

@[simp] theorem settleReloads_frame (a : ℕ) (s : State) :
    (settleReloads a s).pending = s.pending ∧ (settleReloads a s).time = s.time ∧ (settleReloads a s).id = s.id ∧ (settleReloads a s).mem = s.mem ∧ (settleReloads a s).fab = s.fab ∧ (settleReloads a s).ops = s.ops ∧ (settleReloads a s).mdl = s.mdl ∧ (settleReloads a s).exu = s.exu ∧ (settleReloads a s).coll = s.coll ∧ (settleReloads a s).xn = s.xn ∧ (settleReloads a s).pw = s.pw ∧ (settleReloads a s).sec = s.sec ∧ (settleReloads a s).cof = s.cof ∧ (settleReloads a s).draws = s.draws := by
  simp (disch := first | (intros; (repeat' split) <;> (simp [-Nat.reducePow]; done)) | (intros; dsimp only; (repeat' split) <;> (simp [-Nat.reducePow]; done)) | assumption) [settleReloads, -Nat.reducePow]

@[simp] theorem settleReloads_leaf (a : ℕ) (s : State) :
    (settleReloads a s).hi.lock = s.hi.lock := by
  simp (disch := first | (intros; (repeat' split) <;> (simp [-Nat.reducePow]; done)) | (intros; dsimp only; (repeat' split) <;> (simp [-Nat.reducePow]; done)) | assumption) [settleReloads, -Nat.reducePow]

@[simp] theorem swapPlate_frame (a : ℕ) (b : ℕ) (c : Tbl) (s : State) :
    (swapPlate a b c s).pending = s.pending ∧ (swapPlate a b c s).time = s.time ∧ (swapPlate a b c s).id = s.id ∧ (swapPlate a b c s).hi = s.hi ∧ (swapPlate a b c s).mem = s.mem ∧ (swapPlate a b c s).ops = s.ops ∧ (swapPlate a b c s).mdl = s.mdl ∧ (swapPlate a b c s).exu = s.exu ∧ (swapPlate a b c s).coll = s.coll ∧ (swapPlate a b c s).xn = s.xn ∧ (swapPlate a b c s).pw = s.pw ∧ (swapPlate a b c s).sec = s.sec ∧ (swapPlate a b c s).cof = s.cof ∧ (swapPlate a b c s).draws = s.draws := by
  simp [swapPlate]

@[simp] theorem swapPlate_leaf (a : ℕ) (b : ℕ) (c : Tbl) (s : State) :
    (swapPlate a b c s).fab.scratch = s.fab.scratch := by
  simp [swapPlate]

@[simp] theorem swapAt_frame (a : ℕ) (s : State) :
    (swapAt a s).pending = s.pending ∧ (swapAt a s).time = s.time ∧ (swapAt a s).id = s.id ∧ (swapAt a s).mem = s.mem ∧ (swapAt a s).ops = s.ops ∧ (swapAt a s).mdl = s.mdl ∧ (swapAt a s).exu = s.exu ∧ (swapAt a s).coll = s.coll ∧ (swapAt a s).xn = s.xn ∧ (swapAt a s).pw = s.pw ∧ (swapAt a s).sec = s.sec ∧ (swapAt a s).cof = s.cof ∧ (swapAt a s).draws = s.draws := by
  simp [swapAt]

@[simp] theorem swapAt_leaf (a : ℕ) (s : State) :
    (swapAt a s).fab.scratch = s.fab.scratch ∧ (swapAt a s).hi.lock = s.hi.lock := by
  simp [swapAt]

@[simp] theorem sendDone_frame (a : ExuRec) (b : Status) (s : State) :
    (sendDone a b s).pending = s.pending ∧ (sendDone a b s).time = s.time ∧ (sendDone a b s).id = s.id ∧ (sendDone a b s).hi = s.hi ∧ (sendDone a b s).mem = s.mem ∧ (sendDone a b s).fab = s.fab ∧ (sendDone a b s).srv = s.srv ∧ (sendDone a b s).ops = s.ops ∧ (sendDone a b s).mdl = s.mdl ∧ (sendDone a b s).exu = s.exu ∧ (sendDone a b s).coll = s.coll ∧ (sendDone a b s).pw = s.pw ∧ (sendDone a b s).sec = s.sec ∧ (sendDone a b s).cof = s.cof ∧ (sendDone a b s).draws = s.draws := by
  simp [sendDone]

@[simp] theorem settleAnswers_frame (s : State) :
    (settleAnswers s).pending = s.pending ∧ (settleAnswers s).time = s.time ∧ (settleAnswers s).id = s.id ∧ (settleAnswers s).hi = s.hi ∧ (settleAnswers s).mem = s.mem ∧ (settleAnswers s).fab = s.fab ∧ (settleAnswers s).srv = s.srv ∧ (settleAnswers s).ops = s.ops ∧ (settleAnswers s).exu = s.exu ∧ (settleAnswers s).coll = s.coll ∧ (settleAnswers s).pw = s.pw ∧ (settleAnswers s).sec = s.sec ∧ (settleAnswers s).cof = s.cof ∧ (settleAnswers s).draws = s.draws := by
  simp [settleAnswers]

@[simp] theorem leaveCommit_frame (a : ℕ) (s : State) :
    (leaveCommit a s).pending = s.pending ∧ (leaveCommit a s).time = s.time ∧ (leaveCommit a s).id = s.id ∧ (leaveCommit a s).hi = s.hi ∧ (leaveCommit a s).mem = s.mem ∧ (leaveCommit a s).fab = s.fab ∧ (leaveCommit a s).srv = s.srv ∧ (leaveCommit a s).ops = s.ops ∧ (leaveCommit a s).exu = s.exu ∧ (leaveCommit a s).coll = s.coll ∧ (leaveCommit a s).pw = s.pw ∧ (leaveCommit a s).sec = s.sec ∧ (leaveCommit a s).cof = s.cof ∧ (leaveCommit a s).draws = s.draws := by
  simp [leaveCommit]

@[simp] theorem endReloads_frame (a : Bool) (b : Bool) (c : ℕ) (s : State) :
    (endReloads a b c s).pending = s.pending ∧ (endReloads a b c s).time = s.time ∧ (endReloads a b c s).id = s.id ∧ (endReloads a b c s).mem = s.mem ∧ (endReloads a b c s).fab = s.fab ∧ (endReloads a b c s).ops = s.ops ∧ (endReloads a b c s).mdl = s.mdl ∧ (endReloads a b c s).exu = s.exu ∧ (endReloads a b c s).coll = s.coll ∧ (endReloads a b c s).xn = s.xn ∧ (endReloads a b c s).pw = s.pw ∧ (endReloads a b c s).sec = s.sec ∧ (endReloads a b c s).cof = s.cof ∧ (endReloads a b c s).draws = s.draws := by
  simp [endReloads]

@[simp] theorem endReloads_leaf (a : Bool) (b : Bool) (c : ℕ) (s : State) :
    (endReloads a b c s).hi.lock = s.hi.lock := by
  simp [endReloads]

@[simp] theorem clearPlate_frame (a : ℕ) (s : State) :
    (clearPlate a s).pending = s.pending ∧ (clearPlate a s).time = s.time ∧ (clearPlate a s).id = s.id ∧ (clearPlate a s).mem = s.mem ∧ (clearPlate a s).ops = s.ops ∧ (clearPlate a s).exu = s.exu ∧ (clearPlate a s).coll = s.coll ∧ (clearPlate a s).pw = s.pw ∧ (clearPlate a s).sec = s.sec ∧ (clearPlate a s).cof = s.cof ∧ (clearPlate a s).draws = s.draws := by
  simp [clearPlate]

@[simp] theorem clearPlate_leaf (a : ℕ) (s : State) :
    (clearPlate a s).hi.lock = s.hi.lock := by
  simp [clearPlate]

@[simp] theorem removePlate_frame (a : Bool) (b : ℕ) (c : Status) (s : State) :
    (removePlate a b c s).pending = s.pending ∧ (removePlate a b c s).time = s.time ∧ (removePlate a b c s).id = s.id ∧ (removePlate a b c s).mem = s.mem ∧ (removePlate a b c s).ops = s.ops ∧ (removePlate a b c s).exu = s.exu ∧ (removePlate a b c s).coll = s.coll ∧ (removePlate a b c s).pw = s.pw ∧ (removePlate a b c s).sec = s.sec ∧ (removePlate a b c s).cof = s.cof ∧ (removePlate a b c s).draws = s.draws := by
  simp [removePlate]

@[simp] theorem removePlate_leaf (a : Bool) (b : ℕ) (c : Status) (s : State) :
    (removePlate a b c s).hi.lock = s.hi.lock := by
  simp [removePlate]

@[simp] theorem endTiles_frame (a : Bool) (b : ℕ) (c : Status) (s : State) :
    (endTiles a b c s).pending = s.pending ∧ (endTiles a b c s).time = s.time ∧ (endTiles a b c s).id = s.id ∧ (endTiles a b c s).fab = s.fab ∧ (endTiles a b c s).srv = s.srv ∧ (endTiles a b c s).ops = s.ops ∧ (endTiles a b c s).mdl = s.mdl ∧ (endTiles a b c s).exu = s.exu ∧ (endTiles a b c s).coll = s.coll ∧ (endTiles a b c s).xn = s.xn ∧ (endTiles a b c s).pw = s.pw ∧ (endTiles a b c s).sec = s.sec ∧ (endTiles a b c s).cof = s.cof ∧ (endTiles a b c s).draws = s.draws := by
  simp [endTiles]

@[simp] theorem endTiles_leaf (a : Bool) (b : ℕ) (c : Status) (s : State) :
    (endTiles a b c s).mem.dram = s.mem.dram ∧ (endTiles a b c s).hi.lock = s.hi.lock := by
  simp [endTiles]

@[simp] theorem endEmb_frame (a : Bool) (b : ℕ) (c : Status) (s : State) :
    (endEmb a b c s).pending = s.pending ∧ (endEmb a b c s).time = s.time ∧ (endEmb a b c s).id = s.id ∧ (endEmb a b c s).mem = s.mem ∧ (endEmb a b c s).fab = s.fab ∧ (endEmb a b c s).srv = s.srv ∧ (endEmb a b c s).ops = s.ops ∧ (endEmb a b c s).exu = s.exu ∧ (endEmb a b c s).coll = s.coll ∧ (endEmb a b c s).pw = s.pw ∧ (endEmb a b c s).sec = s.sec ∧ (endEmb a b c s).cof = s.cof ∧ (endEmb a b c s).draws = s.draws := by

  simp (disch := first | (intros; dsimp only; (repeat' split) <;> (simp [-Nat.reducePow]; done)) | (intros; (repeat' split) <;> (simp [-Nat.reducePow]; done)) | assumption) [endEmb, -Nat.reducePow]

@[simp] theorem endEmb_leaf (a : Bool) (b : ℕ) (c : Status) (s : State) :
    (endEmb a b c s).hi.lock = s.hi.lock := by
  simp (disch := first | (intros; (repeat' split) <;> (simp [-Nat.reducePow]; done)) | (intros; dsimp only; (repeat' split) <;> (simp [-Nat.reducePow]; done)) | assumption) [endEmb, -Nat.reducePow]

@[simp] theorem endWatches_frame (a : Bool) (b : ℕ) (s : State) :
    (endWatches a b s).pending = s.pending ∧ (endWatches a b s).time = s.time ∧ (endWatches a b s).id = s.id ∧ (endWatches a b s).mem = s.mem ∧ (endWatches a b s).fab = s.fab ∧ (endWatches a b s).srv = s.srv ∧ (endWatches a b s).ops = s.ops ∧ (endWatches a b s).mdl = s.mdl ∧ (endWatches a b s).exu = s.exu ∧ (endWatches a b s).coll = s.coll ∧ (endWatches a b s).xn = s.xn ∧ (endWatches a b s).pw = s.pw ∧ (endWatches a b s).sec = s.sec ∧ (endWatches a b s).cof = s.cof ∧ (endWatches a b s).draws = s.draws := by
  simp [endWatches]

@[simp] theorem endWatches_leaf (a : Bool) (b : ℕ) (s : State) :
    (endWatches a b s).hi.lock = s.hi.lock := by
  simp [endWatches]

@[simp] theorem endServing_frame (a : ℕ) (s : State) :
    (endServing a s).pending = s.pending ∧ (endServing a s).time = s.time ∧ (endServing a s).id = s.id ∧ (endServing a s).hi = s.hi ∧ (endServing a s).mem = s.mem ∧ (endServing a s).fab = s.fab ∧ (endServing a s).srv = s.srv ∧ (endServing a s).ops = s.ops ∧ (endServing a s).mdl = s.mdl ∧ (endServing a s).coll = s.coll ∧ (endServing a s).pw = s.pw ∧ (endServing a s).sec = s.sec ∧ (endServing a s).cof = s.cof ∧ (endServing a s).draws = s.draws := by
  simp [endServing]

@[simp] theorem releaseJobParts_frame (a : Bool) (b : ℕ) (c : Status) (s : State) :
    (releaseJobParts a b c s).pending = s.pending ∧ (releaseJobParts a b c s).time = s.time ∧ (releaseJobParts a b c s).id = s.id ∧ (releaseJobParts a b c s).ops = s.ops ∧ (releaseJobParts a b c s).pw = s.pw ∧ (releaseJobParts a b c s).sec = s.sec ∧ (releaseJobParts a b c s).cof = s.cof ∧ (releaseJobParts a b c s).draws = s.draws := by
  simp [releaseJobParts]

@[simp] theorem releaseJobParts_leaf (a : Bool) (b : ℕ) (c : Status) (s : State) :
    (releaseJobParts a b c s).hi.lock = s.hi.lock := by
  simp [releaseJobParts]

@[simp] theorem releaseJob_frame (a : Bool) (b : ℕ) (s : State) :
    (releaseJob a b s).pending = s.pending ∧ (releaseJob a b s).time = s.time ∧ (releaseJob a b s).id = s.id ∧ (releaseJob a b s).ops = s.ops ∧ (releaseJob a b s).sec = s.sec ∧ (releaseJob a b s).cof = s.cof ∧ (releaseJob a b s).draws = s.draws := by
  simp [releaseJob]

@[simp] theorem releaseJob_leaf (a : Bool) (b : ℕ) (s : State) :
    (releaseJob a b s).hi.lock = s.hi.lock ∧ (releaseJob a b s).pw.st = s.pw.st := by
  simp [releaseJob]

@[simp] theorem settleJob_frame (a : Bool) (b : ℕ) (s : State) :
    (settleJob a b s).pending = s.pending ∧ (settleJob a b s).time = s.time ∧ (settleJob a b s).id = s.id ∧ (settleJob a b s).ops = s.ops ∧ (settleJob a b s).sec = s.sec ∧ (settleJob a b s).cof = s.cof ∧ (settleJob a b s).draws = s.draws := by
  simp [settleJob]

@[simp] theorem settleJob_leaf (a : Bool) (b : ℕ) (s : State) :
    (settleJob a b s).hi.lock = s.hi.lock ∧ (settleJob a b s).pw.st = s.pw.st := by
  simp [settleJob]

@[simp] theorem endLoads_frame (a : ℕ) (b : Status) (s : State) :
    (endLoads a b s).pending = s.pending ∧ (endLoads a b s).time = s.time ∧ (endLoads a b s).id = s.id ∧ (endLoads a b s).mem = s.mem ∧ (endLoads a b s).exu = s.exu ∧ (endLoads a b s).coll = s.coll ∧ (endLoads a b s).sec = s.sec ∧ (endLoads a b s).cof = s.cof ∧ (endLoads a b s).draws = s.draws := by
  simp (disch := first | (intros; (repeat' split) <;> (simp [-Nat.reducePow]; done)) | (intros; dsimp only; (repeat' split) <;> (simp [-Nat.reducePow]; done)) | assumption) [endLoads, -Nat.reducePow]

@[simp] theorem endLoads_leaf (a : ℕ) (b : Status) (s : State) :
    (endLoads a b s).hi.lock = s.hi.lock ∧ (endLoads a b s).pw.st = s.pw.st := by
  simp (disch := first | (intros; (repeat' split) <;> (simp [-Nat.reducePow]; done)) | (intros; dsimp only; (repeat' split) <;> (simp [-Nat.reducePow]; done)) | assumption) [endLoads, -Nat.reducePow]

@[simp] theorem teardownJob_frame (a : Bool) (b : ℕ) (c : Status) (s : State) :
    (teardownJob a b c s).pending = s.pending ∧ (teardownJob a b c s).time = s.time ∧ (teardownJob a b c s).id = s.id ∧ (teardownJob a b c s).sec = s.sec ∧ (teardownJob a b c s).draws = s.draws := by
  simp [teardownJob]

@[simp] theorem teardownJob_leaf (a : Bool) (b : ℕ) (c : Status) (s : State) :
    (teardownJob a b c s).hi.lock = s.hi.lock ∧ (teardownJob a b c s).pw.st = s.pw.st := by
  simp [teardownJob]

@[simp] theorem sendFault_frame (a : FabricFault) (s : State) :
    (sendFault a s).pending = s.pending ∧ (sendFault a s).time = s.time ∧ (sendFault a s).id = s.id ∧ (sendFault a s).hi = s.hi ∧ (sendFault a s).ctxs = s.ctxs ∧ (sendFault a s).mem = s.mem ∧ (sendFault a s).fab = s.fab ∧ (sendFault a s).srv = s.srv ∧ (sendFault a s).ops = s.ops ∧ (sendFault a s).mdl = s.mdl ∧ (sendFault a s).exu = s.exu ∧ (sendFault a s).coll = s.coll ∧ (sendFault a s).xn = s.xn ∧ (sendFault a s).pw = s.pw ∧ (sendFault a s).sec = s.sec ∧ (sendFault a s).td = s.td ∧ (sendFault a s).cof = s.cof ∧ (sendFault a s).draws = s.draws := by
  simp [sendFault]

@[simp] theorem newFault_frame (a : ℕ) (b : ℕ) (c : ℕ) (d : ℕ) (e : ℕ) (s : State) :
    (newFault a b c d e s).pending = s.pending ∧ (newFault a b c d e s).time = s.time ∧ (newFault a b c d e s).id = s.id ∧ (newFault a b c d e s).hi = s.hi ∧ (newFault a b c d e s).ctxs = s.ctxs ∧ (newFault a b c d e s).mem = s.mem ∧ (newFault a b c d e s).fab = s.fab ∧ (newFault a b c d e s).srv = s.srv ∧ (newFault a b c d e s).ops = s.ops ∧ (newFault a b c d e s).mdl = s.mdl ∧ (newFault a b c d e s).exu = s.exu ∧ (newFault a b c d e s).coll = s.coll ∧ (newFault a b c d e s).pw = s.pw ∧ (newFault a b c d e s).sec = s.sec ∧ (newFault a b c d e s).td = s.td ∧ (newFault a b c d e s).cof = s.cof ∧ (newFault a b c d e s).draws = s.draws := by
  simp [newFault]

@[simp] theorem freezeJob_frame (a : ℕ) (b : ℕ) (c : ℕ) (d : Status) (s : State) :
    (freezeJob a b c d s).pending = s.pending ∧ (freezeJob a b c d s).time = s.time ∧ (freezeJob a b c d s).id = s.id ∧ (freezeJob a b c d s).fab = s.fab ∧ (freezeJob a b c d s).ops = s.ops ∧ (freezeJob a b c d s).coll = s.coll ∧ (freezeJob a b c d s).pw = s.pw ∧ (freezeJob a b c d s).sec = s.sec ∧ (freezeJob a b c d s).draws = s.draws := by
  simp [freezeJob]

@[simp] theorem freezeJob_leaf (a : ℕ) (b : ℕ) (c : ℕ) (d : Status) (s : State) :
    (freezeJob a b c d s).hi.lock = s.hi.lock := by
  simp [freezeJob]

end Sys2Proof.Machine
end

