-- ==== Sys2Proof/Laws/Admit.lean ====
section
/-! SUPPORT. What the operations of Machine/Admit.lean leave unchanged: the parts of the state that each does not touch. -/
namespace Sys2Proof.Machine

@[simp] theorem takeSeq_frame (a : Hdr) (b : Ask) (c : ℕ) (s : State) :
    (takeSeq a b c s).2.pending = s.pending ∧ (takeSeq a b c s).2.time = s.time ∧ (takeSeq a b c s).2.id = s.id ∧ (takeSeq a b c s).2.hi = s.hi ∧ (takeSeq a b c s).2.ctxs = s.ctxs ∧ (takeSeq a b c s).2.mem = s.mem ∧ (takeSeq a b c s).2.fab = s.fab ∧ (takeSeq a b c s).2.ops = s.ops ∧ (takeSeq a b c s).2.mdl = s.mdl ∧ (takeSeq a b c s).2.exu = s.exu ∧ (takeSeq a b c s).2.coll = s.coll ∧ (takeSeq a b c s).2.xn = s.xn ∧ (takeSeq a b c s).2.pw = s.pw ∧ (takeSeq a b c s).2.sec = s.sec ∧ (takeSeq a b c s).2.td = s.td ∧ (takeSeq a b c s).2.cof = s.cof ∧ (takeSeq a b c s).2.draws = s.draws ∧ (takeSeq a b c s).2.out = s.out := by
  simp only [takeSeq]
  repeat' split
  all_goals simp

@[simp] theorem pinSeq_frame (a : Hdr) (b : ℕ) (s : State) :
    (pinSeq a b s).pending = s.pending ∧ (pinSeq a b s).time = s.time ∧ (pinSeq a b s).id = s.id ∧ (pinSeq a b s).hi = s.hi ∧ (pinSeq a b s).ctxs = s.ctxs ∧ (pinSeq a b s).fab = s.fab ∧ (pinSeq a b s).srv = s.srv ∧ (pinSeq a b s).ops = s.ops ∧ (pinSeq a b s).mdl = s.mdl ∧ (pinSeq a b s).exu = s.exu ∧ (pinSeq a b s).coll = s.coll ∧ (pinSeq a b s).xn = s.xn ∧ (pinSeq a b s).pw = s.pw ∧ (pinSeq a b s).sec = s.sec ∧ (pinSeq a b s).td = s.td ∧ (pinSeq a b s).cof = s.cof ∧ (pinSeq a b s).draws = s.draws ∧ (pinSeq a b s).out = s.out := by
  simp [pinSeq]

@[simp] theorem pinSeq_leaf (a : Hdr) (b : ℕ) (s : State) :
    (pinSeq a b s).mem.dram = s.mem.dram := by
  simp [pinSeq]

@[simp] theorem countUse_frame (a : ℕ) (s : State) :
    (countUse a s).pending = s.pending ∧ (countUse a s).time = s.time ∧ (countUse a s).id = s.id ∧ (countUse a s).hi = s.hi ∧ (countUse a s).ctxs = s.ctxs ∧ (countUse a s).mem = s.mem ∧ (countUse a s).fab = s.fab ∧ (countUse a s).srv = s.srv ∧ (countUse a s).ops = s.ops ∧ (countUse a s).exu = s.exu ∧ (countUse a s).coll = s.coll ∧ (countUse a s).xn = s.xn ∧ (countUse a s).pw = s.pw ∧ (countUse a s).sec = s.sec ∧ (countUse a s).td = s.td ∧ (countUse a s).cof = s.cof ∧ (countUse a s).draws = s.draws ∧ (countUse a s).out = s.out := by
  simp [countUse]

@[simp] theorem acceptReq_frame (a : Hdr) (b : Ask) (c : Request) (s : State) :
    (acceptReq a b c s).pending = s.pending ∧ (acceptReq a b c s).time = s.time ∧ (acceptReq a b c s).id = s.id ∧ (acceptReq a b c s).fab = s.fab ∧ (acceptReq a b c s).ops = s.ops ∧ (acceptReq a b c s).coll = s.coll ∧ (acceptReq a b c s).sec = s.sec ∧ (acceptReq a b c s).cof = s.cof ∧ (acceptReq a b c s).draws = s.draws := by
  simp only [acceptReq]
  repeat' split
  all_goals simp

@[simp] theorem acceptReq_leaf (a : Hdr) (b : Ask) (c : Request) (s : State) :
    (acceptReq a b c s).hi.lock = s.hi.lock ∧ (acceptReq a b c s).pw.st = s.pw.st := by
  simp only [acceptReq]
  repeat' split
  all_goals simp

@[simp] theorem rerunJob_frame (a : ℕ) (b : Status) (c : ℕ) (s : State) :
    (rerunJob a b c s).pending = s.pending ∧ (rerunJob a b c s).time = s.time ∧ (rerunJob a b c s).id = s.id ∧ (rerunJob a b c s).fab = s.fab ∧ (rerunJob a b c s).ops = s.ops ∧ (rerunJob a b c s).coll = s.coll ∧ (rerunJob a b c s).pw = s.pw ∧ (rerunJob a b c s).sec = s.sec ∧ (rerunJob a b c s).cof = s.cof ∧ (rerunJob a b c s).draws = s.draws := by
  induction c generalizing a b s with
  | zero => simp [rerunJob]
  | succ m ih =>
    unfold rerunJob
    try dsimp only
    repeat' split
    all_goals simp [ih]

@[simp] theorem rerunJob_leaf (a : ℕ) (b : Status) (c : ℕ) (s : State) :
    (rerunJob a b c s).hi.lock = s.hi.lock := by
  induction c generalizing a b s with
  | zero => simp [rerunJob]
  | succ m ih =>
    unfold rerunJob
    try dsimp only
    repeat' split
    all_goals simp [ih]

@[simp] theorem rerunAll_frame (a : Status) (s : State) :
    (rerunAll a s).pending = s.pending ∧ (rerunAll a s).time = s.time ∧ (rerunAll a s).id = s.id ∧ (rerunAll a s).fab = s.fab ∧ (rerunAll a s).ops = s.ops ∧ (rerunAll a s).coll = s.coll ∧ (rerunAll a s).pw = s.pw ∧ (rerunAll a s).sec = s.sec ∧ (rerunAll a s).cof = s.cof ∧ (rerunAll a s).draws = s.draws := by
  simp [rerunAll]

@[simp] theorem rerunAll_leaf (a : Status) (s : State) :
    (rerunAll a s).hi.lock = s.hi.lock := by
  simp [rerunAll]

end Sys2Proof.Machine
end

