-- ==== Sys2Proof/Laws/Maps.lean ====
section
/-! SUPPORT. What the operations on sparse tables and byte memories do: reads after writes, and the canonical form
that every operation keeps. -/
namespace Sys2Proof.Machine

/-! ## Order of keys -/

theorem mwf_iff {α : Type} (m : NMap α) : mwf m = true ↔ m.Pairwise (fun a b => a.1 < b.1) := by
  induction m with
  | nil => simp [mwf]
  | cons x l ih =>
    cases l with
    | nil => simp [mwf]
    | cons y l =>
      obtain ⟨k, v⟩ := x
      obtain ⟨k', v'⟩ := y
      simp only [mwf, Bool.and_eq_true, decide_eq_true_eq, ih]
      constructor
      · rintro ⟨h, hp⟩
        refine List.pairwise_cons.2 ⟨?_, hp⟩
        intro z hz
        rcases List.mem_cons.1 hz with rfl | hz
        · exact h
        · exact lt_trans h ((List.pairwise_cons.1 hp).1 z hz)
      · intro h
        exact ⟨(List.pairwise_cons.1 h).1 _ (List.mem_cons_self ..), (List.pairwise_cons.1 h).2⟩

theorem mem_mset {α : Type} (m : NMap α) (k : Nat) (v : α) (e : Nat × α) (h : e ∈ mset m k v) : e = (k, v) ∨ e ∈ m := by
  induction m with
  | nil => simpa [mset] using h
  | cons x l ih =>
    obtain ⟨k', v'⟩ := x
    simp only [mset] at h
    split at h
    · rcases List.mem_cons.1 h with h | h
      · exact .inl h
      · exact .inr h
    · split at h
      · rcases List.mem_cons.1 h with h | h
        · exact .inl h
        · exact .inr (List.mem_cons_of_mem _ h)
      · rcases List.mem_cons.1 h with rfl | h
        · exact .inr (List.mem_cons_self ..)
        · exact (ih h).imp_right (List.mem_cons_of_mem _)

theorem mem_mdel {α : Type} (m : NMap α) (k : Nat) (e : Nat × α) (h : e ∈ mdel m k) : e ∈ m := by
  induction m with
  | nil => simp [mdel] at h
  | cons x l ih =>
    obtain ⟨k', v'⟩ := x
    simp only [mdel] at h
    split at h
    · exact List.mem_cons_of_mem _ h
    · rcases List.mem_cons.1 h with rfl | h
      · exact List.mem_cons_self ..
      · exact List.mem_cons_of_mem _ (ih h)

theorem mwf_mset {α : Type} (m : NMap α) (k : Nat) (v : α) (h : mwf m = true) : mwf (mset m k v) = true := by
  rw [mwf_iff] at h ⊢
  induction m with
  | nil => simp [mset]
  | cons x l ih =>
    obtain ⟨k', v'⟩ := x
    have hx := (List.pairwise_cons.1 h).1
    have hl := (List.pairwise_cons.1 h).2
    simp only [mset]
    split
    · rename_i hk
      refine List.pairwise_cons.2 ⟨?_, h⟩
      intro z hz
      rcases List.mem_cons.1 hz with rfl | hz
      · exact hk
      · exact lt_trans hk (hx z hz)
    · split
      · rename_i _ hk
        subst hk
        exact List.pairwise_cons.2 ⟨hx, hl⟩
      · rename_i h1 h2
        refine List.pairwise_cons.2 ⟨?_, ih hl⟩
        intro z hz
        rcases mem_mset l k v z hz with rfl | hz
        · exact lt_of_le_of_ne (not_lt.1 h1) h2
        · exact hx z hz

theorem mwf_mdel {α : Type} (m : NMap α) (k : Nat) (h : mwf m = true) : mwf (mdel m k) = true := by
  rw [mwf_iff] at h ⊢
  induction m with
  | nil => simp [mdel]
  | cons x l ih =>
    obtain ⟨k', v'⟩ := x
    have hx := (List.pairwise_cons.1 h).1
    have hl := (List.pairwise_cons.1 h).2
    simp only [mdel]
    split
    · exact hl
    · exact List.pairwise_cons.2 ⟨fun z hz => hx z (mem_mdel l k z hz), ih hl⟩

theorem mwf_filter {α : Type} (m : NMap α) (p : Nat × α → Bool) (h : mwf m = true) : mwf (m.filter p) = true := by
  rw [mwf_iff] at h ⊢
  exact h.filter p

/-! ## Reads after writes -/

@[simp] theorem mget_mset_self {α : Type} (m : NMap α) (k : Nat) (v : α) : mget (mset m k v) k = some v := by
  induction m with
  | nil => simp [mset, mget]
  | cons x l ih =>
    obtain ⟨k', v'⟩ := x
    simp only [mset]
    split
    · simp [mget]
    · split
      · simp [mget]
      · rename_i h1 h2
        simp [mget, h1, h2, ih]

theorem mget_mset_ne {α : Type} (m : NMap α) (k j : Nat) (v : α) (h : j ≠ k) : mget (mset m k v) j = mget m j := by
  induction m with
  | nil => simp [mset, mget, Ne.symm h]
  | cons x l ih =>
    obtain ⟨k', v'⟩ := x
    simp only [mset]
    split
    · rename_i hk
      simp only [mget, Ne.symm h, if_false]
      split
      · rename_i hj
        have h1 : ¬ k' = j := by omega
        have h2 : j < k' := by omega
        simp [h1, h2]
      · rfl
    · split
      · rename_i _ hk
        subst hk
        simp [mget, Ne.symm h]
      · simp only [mget, ih]

@[simp] theorem mgetD_mset_self {α : Type} (m : NMap α) (k : Nat) (v d : α) : mgetD (mset m k v) k d = v := by simp [mgetD]

theorem mgetD_mset_ne {α : Type} (m : NMap α) (k j : Nat) (v d : α) (h : j ≠ k) : mgetD (mset m k v) j d = mgetD m j d := by
  simp [mgetD, mget_mset_ne m k j v h]

theorem mget_mdel_ne {α : Type} (m : NMap α) (k j : Nat) (hw : mwf m = true) (h : j ≠ k) : mget (mdel m k) j = mget m j := by
  rw [mwf_iff] at hw
  induction m with
  | nil => rfl
  | cons x l ih =>
    obtain ⟨k', v'⟩ := x
    have hx := (List.pairwise_cons.1 hw).1
    have hl := (List.pairwise_cons.1 hw).2
    simp only [mdel]
    split
    · rename_i hk
      subst hk
      simp only [mget, Ne.symm h, if_false]
      split
      · rename_i hj
        cases l with
        | nil => rfl
        | cons y l =>
          obtain ⟨k2, v2⟩ := y
          have : k' < k2 := hx _ (List.mem_cons_self ..)
          have h1 : ¬ k2 = j := by omega
          have h2 : j < k2 := by omega
          simp [mget, h1, h2]
      · rfl
    · simp only [mget, ih hl]

theorem mget_none_of_lt {α : Type} (m : NMap α) (k : Nat) (h : ∀ e ∈ m, k < e.1) : mget m k = none := by
  cases m with
  | nil => rfl
  | cons x l =>
    obtain ⟨k', v'⟩ := x
    have := h _ (List.mem_cons_self ..)
    have h1 : ¬ k' = k := by simp only at this; omega
    simp only at this
    simp [mget, h1, this]

theorem mget_mdel_self {α : Type} (m : NMap α) (k : Nat) (hw : mwf m = true) : mget (mdel m k) k = none := by
  rw [mwf_iff] at hw
  induction m with
  | nil => rfl
  | cons x l ih =>
    obtain ⟨k', v'⟩ := x
    have hx := (List.pairwise_cons.1 hw).1
    have hl := (List.pairwise_cons.1 hw).2
    simp only [mdel]
    split
    · rename_i hk
      subst hk
      exact mget_none_of_lt l k' hx
    · rename_i hk
      simp [mget, hk, ih hl]

@[simp] theorem mget_mmod_self {α : Type} (m : NMap α) (k : Nat) (f : α → α) : mget (mmod m k f) k = (mget m k).map f := by
  induction m with
  | nil => rfl
  | cons x l ih =>
    obtain ⟨k', v'⟩ := x
    simp only [mmod]
    split
    · rename_i hk
      subst hk
      simp [mget]
    · rename_i hk
      by_cases hlt : k < k'
      · simp [mget, hk, hlt]
      · simp [mget, hk, hlt, ih]

theorem mget_mmod_ne {α : Type} (m : NMap α) (k j : Nat) (f : α → α) (h : j ≠ k) : mget (mmod m k f) j = mget m j := by
  induction m with
  | nil => rfl
  | cons x l ih =>
    obtain ⟨k', v'⟩ := x
    simp only [mmod]
    split
    · rename_i hk
      subst hk
      simp [mget, Ne.symm h]
    · simp only [mget, ih]

/-! ## Byte memories -/

theorem memory_wf_iff (m : List Host.Cell) : Memory.wf m = true ↔ mwf m = true ∧ ∀ e ∈ m, e.2 ≠ 0 := by
  simp [Memory.wf, List.all_eq_true]

theorem wf_cwrite (m : List Host.Cell) (a : Nat) (v : Byte) (h : Memory.wf m = true) : Memory.wf (cwrite m a v) = true := by
  rw [memory_wf_iff] at h ⊢
  unfold cwrite
  split
  · exact ⟨mwf_mdel m a h.1, fun e he => h.2 e (mem_mdel m a e he)⟩
  · rename_i hv
    refine ⟨mwf_mset m a v h.1, fun e he => ?_⟩
    rcases mem_mset m a v e he with rfl | he
    · exact hv
    · exact h.2 e he

theorem wf_cwrites (l : List Byte) : ∀ (m : List Host.Cell) (a : Nat), Memory.wf m = true → Memory.wf (cwrites m a l) = true := by
  induction l with
  | nil => intro m a h; exact h
  | cons b l ih => intro m a h; exact ih _ _ (wf_cwrite m a b h)

theorem wf_filter (m : List Host.Cell) (p : Host.Cell → Bool) (h : Memory.wf m = true) : Memory.wf (m.filter p) = true := by
  rw [memory_wf_iff] at h ⊢
  exact ⟨mwf_filter m p h.1, fun e he => h.2 e (List.mem_filter.1 he).1⟩

theorem wf_czero (m : List Host.Cell) (a n : Nat) (h : Memory.wf m = true) : Memory.wf (czero m a n) = true := wf_filter m _ h

@[simp] theorem wf_nil : Memory.wf [] = true := rfl

theorem cread_cwrite_self (m : List Host.Cell) (a : Nat) (v : Byte) (h : Memory.wf m = true) : cread (cwrite m a v) a = v := by
  rw [memory_wf_iff] at h
  unfold cwrite cread mgetD
  split
  · rename_i hv
    rw [mget_mdel_self m a h.1]
    exact hv.symm
  · simp

theorem cread_cwrite_ne (m : List Host.Cell) (a b : Nat) (v : Byte) (h : Memory.wf m = true) (hab : b ≠ a) :
    cread (cwrite m a v) b = cread m b := by
  rw [memory_wf_iff] at h
  unfold cwrite cread mgetD
  split
  · rw [mget_mdel_ne m a b h.1 hab]
  · rw [mget_mset_ne m a b v hab]

/-- A write of bytes leaves every byte outside them as it was. -/
theorem cread_cwrites_outside (l : List Byte) : ∀ (m : List Host.Cell) (a b : Nat), Memory.wf m = true →
    (b < a ∨ a + l.length ≤ b) → cread (cwrites m a l) b = cread m b := by
  induction l with
  | nil => intro m a b _ _; rfl
  | cons x l ih =>
    intro m a b h hb
    simp only [List.length_cons] at hb
    simp only [cwrites]
    rw [ih _ _ _ (wf_cwrite m a x h) (by omega), cread_cwrite_ne m a b x h (by omega)]

/-- A write of bytes is read back byte by byte. -/
theorem cread_cwrites_inside (l : List Byte) : ∀ (m : List Host.Cell) (a i : Nat), Memory.wf m = true → (h : i < l.length) →
    cread (cwrites m a l) (a + i) = l[i] := by
  induction l with
  | nil => intro m a i _ h; simp at h
  | cons x l ih =>
    intro m a i hm h
    simp only [cwrites]
    cases i with
    | zero =>
      show cread (cwrites (cwrite m a x) (a + 1) l) a = x
      rw [cread_cwrites_outside l _ _ _ (wf_cwrite m a x hm) (by omega), cread_cwrite_self m a x hm]
    | succ i =>
      simp only [List.length_cons, Nat.add_lt_add_iff_right] at h
      have := ih (cwrite m a x) (a + 1) i (wf_cwrite m a x hm) h
      rw [show a + (i + 1) = a + 1 + i by omega, this]
      rfl

@[simp] theorem creads_length (m : List Host.Cell) (n : Nat) : ∀ a, (creads m a n).length = n := by
  induction n with
  | zero => intro a; rfl
  | succ n ih => intro a; simp [creads, ih]

end Sys2Proof.Machine
end

