-- ==== Sys2Proof/Laws/Islands.lean ====
section
/-! SUPPORT. What the operations of Machine/Islands.lean leave unchanged: the parts of the state that each does not touch. -/
namespace Sys2Proof.Machine

@[simp] theorem modIsl_frame (a : ℕ) (b : Isl → Isl) (s : State) :
    (modIsl a b s).pending = s.pending ∧ (modIsl a b s).time = s.time ∧ (modIsl a b s).id = s.id ∧ (modIsl a b s).hi = s.hi ∧ (modIsl a b s).ctxs = s.ctxs ∧ (modIsl a b s).mem = s.mem ∧ (modIsl a b s).srv = s.srv ∧ (modIsl a b s).ops = s.ops ∧ (modIsl a b s).mdl = s.mdl ∧ (modIsl a b s).exu = s.exu ∧ (modIsl a b s).coll = s.coll ∧ (modIsl a b s).xn = s.xn ∧ (modIsl a b s).pw = s.pw ∧ (modIsl a b s).sec = s.sec ∧ (modIsl a b s).td = s.td ∧ (modIsl a b s).cof = s.cof ∧ (modIsl a b s).draws = s.draws ∧ (modIsl a b s).out = s.out := by
  simp [modIsl]

@[simp] theorem modIsl_leaf (a : ℕ) (b : Isl → Isl) (s : State) :
    (modIsl a b s).fab.scratch = s.fab.scratch := by
  simp [modIsl]

@[simp] theorem modField_pending (a : ℕ) (b : Field → Field) (s : State) : (modField a b s).pending = s.pending := (rfl)
@[simp] theorem modField_time (a : ℕ) (b : Field → Field) (s : State) : (modField a b s).time = s.time := (rfl)
@[simp] theorem modField_id (a : ℕ) (b : Field → Field) (s : State) : (modField a b s).id = s.id := (rfl)
@[simp] theorem modField_hi (a : ℕ) (b : Field → Field) (s : State) : (modField a b s).hi = s.hi := (rfl)
@[simp] theorem modField_ctxs (a : ℕ) (b : Field → Field) (s : State) : (modField a b s).ctxs = s.ctxs := (rfl)
@[simp] theorem modField_mem (a : ℕ) (b : Field → Field) (s : State) : (modField a b s).mem = s.mem := (rfl)
@[simp] theorem modField_srv (a : ℕ) (b : Field → Field) (s : State) : (modField a b s).srv = s.srv := (rfl)
@[simp] theorem modField_ops (a : ℕ) (b : Field → Field) (s : State) : (modField a b s).ops = s.ops := (rfl)
@[simp] theorem modField_mdl (a : ℕ) (b : Field → Field) (s : State) : (modField a b s).mdl = s.mdl := (rfl)
@[simp] theorem modField_exu (a : ℕ) (b : Field → Field) (s : State) : (modField a b s).exu = s.exu := (rfl)
@[simp] theorem modField_coll (a : ℕ) (b : Field → Field) (s : State) : (modField a b s).coll = s.coll := (rfl)
@[simp] theorem modField_xn (a : ℕ) (b : Field → Field) (s : State) : (modField a b s).xn = s.xn := (rfl)
@[simp] theorem modField_pw (a : ℕ) (b : Field → Field) (s : State) : (modField a b s).pw = s.pw := (rfl)
@[simp] theorem modField_sec (a : ℕ) (b : Field → Field) (s : State) : (modField a b s).sec = s.sec := (rfl)
@[simp] theorem modField_td (a : ℕ) (b : Field → Field) (s : State) : (modField a b s).td = s.td := (rfl)
@[simp] theorem modField_cof (a : ℕ) (b : Field → Field) (s : State) : (modField a b s).cof = s.cof := (rfl)
@[simp] theorem modField_draws (a : ℕ) (b : Field → Field) (s : State) : (modField a b s).draws = s.draws := (rfl)
@[simp] theorem modField_out (a : ℕ) (b : Field → Field) (s : State) : (modField a b s).out = s.out := (rfl)

@[simp] theorem modField_fab_scratch (a : ℕ) (b : Field → Field) (s : State) : (modField a b s).fab.scratch = s.fab.scratch := (rfl)

@[simp] theorem beaconFault_frame (s : State) :
    (beaconFault s).pending = s.pending ∧ (beaconFault s).time = s.time ∧ (beaconFault s).id = s.id ∧ (beaconFault s).hi = s.hi ∧ (beaconFault s).ctxs = s.ctxs ∧ (beaconFault s).mem = s.mem ∧ (beaconFault s).fab = s.fab ∧ (beaconFault s).srv = s.srv ∧ (beaconFault s).ops = s.ops ∧ (beaconFault s).mdl = s.mdl ∧ (beaconFault s).exu = s.exu ∧ (beaconFault s).coll = s.coll ∧ (beaconFault s).xn = s.xn ∧ (beaconFault s).sec = s.sec ∧ (beaconFault s).td = s.td ∧ (beaconFault s).draws = s.draws ∧ (beaconFault s).out = s.out := by
  simp [beaconFault]

@[simp] theorem beaconFault_leaf (s : State) :
    (beaconFault s).pw.st = s.pw.st := by
  simp [beaconFault]

@[simp] theorem bringAll_frame (s : State) :
    (bringAll s).pending = s.pending ∧ (bringAll s).time = s.time ∧ (bringAll s).id = s.id ∧ (bringAll s).hi = s.hi ∧ (bringAll s).ctxs = s.ctxs ∧ (bringAll s).mem = s.mem ∧ (bringAll s).srv = s.srv ∧ (bringAll s).ops = s.ops ∧ (bringAll s).mdl = s.mdl ∧ (bringAll s).exu = s.exu ∧ (bringAll s).coll = s.coll ∧ (bringAll s).xn = s.xn ∧ (bringAll s).sec = s.sec ∧ (bringAll s).td = s.td ∧ (bringAll s).draws = s.draws ∧ (bringAll s).out = s.out := by
  simp [bringAll]

@[simp] theorem bringAll_leaf (s : State) :
    (bringAll s).fab.scratch = s.fab.scratch ∧ (bringAll s).pw.st = s.pw.st := by
  simp [bringAll]

@[simp] theorem plateFatal_frame (a : ℕ) (b : ℕ) (s : State) :
    (plateFatal a b s).pending = s.pending ∧ (plateFatal a b s).time = s.time ∧ (plateFatal a b s).id = s.id ∧ (plateFatal a b s).sec = s.sec ∧ (plateFatal a b s).draws = s.draws := by
  simp [plateFatal]

@[simp] theorem plateFatal_leaf (a : ℕ) (b : ℕ) (s : State) :
    (plateFatal a b s).hi.lock = s.hi.lock ∧ (plateFatal a b s).pw.st = s.pw.st := by
  simp [plateFatal]

@[simp] theorem plateNote_frame (a : ℕ) (b : ℕ) (s : State) :
    (plateNote a b s).pending = s.pending ∧ (plateNote a b s).time = s.time ∧ (plateNote a b s).id = s.id ∧ (plateNote a b s).hi = s.hi ∧ (plateNote a b s).ctxs = s.ctxs ∧ (plateNote a b s).mem = s.mem ∧ (plateNote a b s).fab = s.fab ∧ (plateNote a b s).srv = s.srv ∧ (plateNote a b s).ops = s.ops ∧ (plateNote a b s).mdl = s.mdl ∧ (plateNote a b s).exu = s.exu ∧ (plateNote a b s).coll = s.coll ∧ (plateNote a b s).xn = s.xn ∧ (plateNote a b s).pw = s.pw ∧ (plateNote a b s).sec = s.sec ∧ (plateNote a b s).td = s.td ∧ (plateNote a b s).draws = s.draws ∧ (plateNote a b s).out = s.out := by
  simp [plateNote]

@[simp] theorem bgBill_frame (a : ℕ) (b : ℕ) (s : State) :
    (bgBill a b s).pending = s.pending ∧ (bgBill a b s).time = s.time ∧ (bgBill a b s).id = s.id ∧ (bgBill a b s).hi = s.hi ∧ (bgBill a b s).ctxs = s.ctxs ∧ (bgBill a b s).mem = s.mem ∧ (bgBill a b s).srv = s.srv ∧ (bgBill a b s).ops = s.ops ∧ (bgBill a b s).mdl = s.mdl ∧ (bgBill a b s).exu = s.exu ∧ (bgBill a b s).coll = s.coll ∧ (bgBill a b s).xn = s.xn ∧ (bgBill a b s).pw = s.pw ∧ (bgBill a b s).sec = s.sec ∧ (bgBill a b s).cof = s.cof ∧ (bgBill a b s).draws = s.draws ∧ (bgBill a b s).out = s.out := by
  simp [bgBill]

@[simp] theorem bgBill_leaf (a : ℕ) (b : ℕ) (s : State) :
    (bgBill a b s).fab.scratch = s.fab.scratch := by
  simp [bgBill]

@[simp] theorem addCounter_frame (a : ℕ) (b : ℕ) (c : ℕ) (s : State) :
    (addCounter a b c s).pending = s.pending ∧ (addCounter a b c s).time = s.time ∧ (addCounter a b c s).id = s.id ∧ (addCounter a b c s).sec = s.sec ∧ (addCounter a b c s).draws = s.draws := by
  simp only [addCounter]
  repeat' split
  all_goals simp

@[simp] theorem addCounter_leaf (a : ℕ) (b : ℕ) (c : ℕ) (s : State) :
    (addCounter a b c s).hi.lock = s.hi.lock ∧ (addCounter a b c s).pw.st = s.pw.st := by
  simp only [addCounter]
  repeat' split
  all_goals simp

@[simp] theorem signalCtr_frame (a : ℕ) (b : ℕ) (c : ℕ) (d : ℕ) (s : State) :
    (signalCtr a b c d s).pending = s.pending ∧ (signalCtr a b c d s).time = s.time ∧ (signalCtr a b c d s).id = s.id ∧ (signalCtr a b c d s).sec = s.sec ∧ (signalCtr a b c d s).draws = s.draws := by
  simp only [signalCtr]
  repeat' split
  all_goals simp

@[simp] theorem signalCtr_leaf (a : ℕ) (b : ℕ) (c : ℕ) (d : ℕ) (s : State) :
    (signalCtr a b c d s).hi.lock = s.hi.lock ∧ (signalCtr a b c d s).pw.st = s.pw.st := by
  simp only [signalCtr]
  repeat' split
  all_goals simp

@[simp] theorem putBank_frame (a : ℕ) (b : ℕ) (c : ℕ) (d : Byte) (s : State) :
    (putBank a b c d s).pending = s.pending ∧ (putBank a b c d s).time = s.time ∧ (putBank a b c d s).id = s.id ∧ (putBank a b c d s).hi = s.hi ∧ (putBank a b c d s).ctxs = s.ctxs ∧ (putBank a b c d s).mem = s.mem ∧ (putBank a b c d s).srv = s.srv ∧ (putBank a b c d s).ops = s.ops ∧ (putBank a b c d s).mdl = s.mdl ∧ (putBank a b c d s).exu = s.exu ∧ (putBank a b c d s).coll = s.coll ∧ (putBank a b c d s).xn = s.xn ∧ (putBank a b c d s).pw = s.pw ∧ (putBank a b c d s).sec = s.sec ∧ (putBank a b c d s).td = s.td ∧ (putBank a b c d s).cof = s.cof ∧ (putBank a b c d s).draws = s.draws ∧ (putBank a b c d s).out = s.out := by
  simp only [putBank]
  repeat' split
  all_goals simp

@[simp] theorem putBanks_frame (a : ℕ) (b : ℕ) (c : ℕ) (d : List Byte) (s : State) :
    (putBanks a b c d s).pending = s.pending ∧ (putBanks a b c d s).time = s.time ∧ (putBanks a b c d s).id = s.id ∧ (putBanks a b c d s).hi = s.hi ∧ (putBanks a b c d s).ctxs = s.ctxs ∧ (putBanks a b c d s).mem = s.mem ∧ (putBanks a b c d s).srv = s.srv ∧ (putBanks a b c d s).ops = s.ops ∧ (putBanks a b c d s).mdl = s.mdl ∧ (putBanks a b c d s).exu = s.exu ∧ (putBanks a b c d s).coll = s.coll ∧ (putBanks a b c d s).xn = s.xn ∧ (putBanks a b c d s).pw = s.pw ∧ (putBanks a b c d s).sec = s.sec ∧ (putBanks a b c d s).td = s.td ∧ (putBanks a b c d s).cof = s.cof ∧ (putBanks a b c d s).draws = s.draws ∧ (putBanks a b c d s).out = s.out := by
  induction d generalizing a b c s with
  | nil => simp [putBanks]
  | cons y m ih =>
    unfold putBanks
    try dsimp only
    repeat' split
    all_goals simp [ih]

@[simp] theorem writeBank_frame (a : ℕ) (b : ℕ) (c : ℕ) (d : List Byte) (s : State) :
    (writeBank a b c d s).pending = s.pending ∧ (writeBank a b c d s).time = s.time ∧ (writeBank a b c d s).id = s.id ∧ (writeBank a b c d s).hi = s.hi ∧ (writeBank a b c d s).ctxs = s.ctxs ∧ (writeBank a b c d s).mem = s.mem ∧ (writeBank a b c d s).srv = s.srv ∧ (writeBank a b c d s).ops = s.ops ∧ (writeBank a b c d s).mdl = s.mdl ∧ (writeBank a b c d s).exu = s.exu ∧ (writeBank a b c d s).coll = s.coll ∧ (writeBank a b c d s).xn = s.xn ∧ (writeBank a b c d s).pw = s.pw ∧ (writeBank a b c d s).sec = s.sec ∧ (writeBank a b c d s).td = s.td ∧ (writeBank a b c d s).cof = s.cof ∧ (writeBank a b c d s).draws = s.draws ∧ (writeBank a b c d s).out = s.out := by
  simp [writeBank]

@[simp] theorem poisonBank_frame (a : ℕ) (b : ℕ) (c : ℕ) (d : ℕ) (s : State) :
    (poisonBank a b c d s).pending = s.pending ∧ (poisonBank a b c d s).time = s.time ∧ (poisonBank a b c d s).id = s.id ∧ (poisonBank a b c d s).hi = s.hi ∧ (poisonBank a b c d s).ctxs = s.ctxs ∧ (poisonBank a b c d s).mem = s.mem ∧ (poisonBank a b c d s).srv = s.srv ∧ (poisonBank a b c d s).ops = s.ops ∧ (poisonBank a b c d s).mdl = s.mdl ∧ (poisonBank a b c d s).exu = s.exu ∧ (poisonBank a b c d s).coll = s.coll ∧ (poisonBank a b c d s).xn = s.xn ∧ (poisonBank a b c d s).pw = s.pw ∧ (poisonBank a b c d s).sec = s.sec ∧ (poisonBank a b c d s).td = s.td ∧ (poisonBank a b c d s).cof = s.cof ∧ (poisonBank a b c d s).draws = s.draws ∧ (poisonBank a b c d s).out = s.out := by
  simp [poisonBank]

@[simp] theorem poisonBank_leaf (a : ℕ) (b : ℕ) (c : ℕ) (d : ℕ) (s : State) :
    (poisonBank a b c d s).fab.scratch = s.fab.scratch := by
  simp [poisonBank]

@[simp] theorem landBank_frame (a : ℕ) (b : ℕ) (c : ℕ) (d : ℕ) (e : ℕ) (f : List Byte) (s : State) :
    (landBank a b c d e f s).pending = s.pending ∧ (landBank a b c d e f s).time = s.time ∧ (landBank a b c d e f s).id = s.id ∧ (landBank a b c d e f s).hi = s.hi ∧ (landBank a b c d e f s).mem = s.mem ∧ (landBank a b c d e f s).srv = s.srv ∧ (landBank a b c d e f s).ops = s.ops ∧ (landBank a b c d e f s).mdl = s.mdl ∧ (landBank a b c d e f s).exu = s.exu ∧ (landBank a b c d e f s).coll = s.coll ∧ (landBank a b c d e f s).xn = s.xn ∧ (landBank a b c d e f s).pw = s.pw ∧ (landBank a b c d e f s).sec = s.sec ∧ (landBank a b c d e f s).td = s.td ∧ (landBank a b c d e f s).cof = s.cof ∧ (landBank a b c d e f s).draws = s.draws ∧ (landBank a b c d e f s).out = s.out := by
  simp [landBank]

@[simp] theorem fenceOne_frame (a : ℕ) (b : Bool) (s : State) :
    (fenceOne a b s).pending = s.pending ∧ (fenceOne a b s).time = s.time ∧ (fenceOne a b s).id = s.id ∧ (fenceOne a b s).sec = s.sec ∧ (fenceOne a b s).draws = s.draws := by
  simp [fenceOne]

@[simp] theorem fenceOne_leaf (a : ℕ) (b : Bool) (s : State) :
    (fenceOne a b s).hi.lock = s.hi.lock ∧ (fenceOne a b s).pw.st = s.pw.st := by
  simp [fenceOne]

@[simp] theorem stopForward_frame (a : ℕ) (s : State) :
    (stopForward a s).pending = s.pending ∧ (stopForward a s).time = s.time ∧ (stopForward a s).id = s.id ∧ (stopForward a s).hi = s.hi ∧ (stopForward a s).ctxs = s.ctxs ∧ (stopForward a s).mem = s.mem ∧ (stopForward a s).srv = s.srv ∧ (stopForward a s).ops = s.ops ∧ (stopForward a s).mdl = s.mdl ∧ (stopForward a s).exu = s.exu ∧ (stopForward a s).coll = s.coll ∧ (stopForward a s).xn = s.xn ∧ (stopForward a s).pw = s.pw ∧ (stopForward a s).sec = s.sec ∧ (stopForward a s).td = s.td ∧ (stopForward a s).cof = s.cof ∧ (stopForward a s).draws = s.draws ∧ (stopForward a s).out = s.out := by
  simp [stopForward]

@[simp] theorem stopForward_leaf (a : ℕ) (s : State) :
    (stopForward a s).fab.scratch = s.fab.scratch := by
  simp [stopForward]

@[simp] theorem fence_frame (a : ℕ) (b : Bool) (s : State) :
    (fence a b s).pending = s.pending ∧ (fence a b s).time = s.time ∧ (fence a b s).id = s.id ∧ (fence a b s).sec = s.sec ∧ (fence a b s).draws = s.draws := by
  simp [fence]

@[simp] theorem fence_leaf (a : ℕ) (b : Bool) (s : State) :
    (fence a b s).hi.lock = s.hi.lock ∧ (fence a b s).pw.st = s.pw.st := by
  simp [fence]

@[simp] theorem cellError_frame (a : ℕ) (b : Bool) (s : State) :
    (cellError a b s).pending = s.pending ∧ (cellError a b s).time = s.time ∧ (cellError a b s).id = s.id ∧ (cellError a b s).sec = s.sec ∧ (cellError a b s).draws = s.draws := by
  simp [cellError]

@[simp] theorem cellError_leaf (a : ℕ) (b : Bool) (s : State) :
    (cellError a b s).hi.lock = s.hi.lock ∧ (cellError a b s).pw.st = s.pw.st := by
  simp [cellError]

end Sys2Proof.Machine
end

