-- ==== Sys2Proof/Laws/Clocks.lean ====
section
/-! SUPPORT. What the operations of Machine/Clocks.lean leave unchanged: the parts of the state that each does not touch. -/
namespace Sys2Proof.Machine

@[simp] theorem setCode_frame (a : Bool) (b : ℕ) (s : State) :
    (setCode a b s).pending = s.pending ∧ (setCode a b s).time = s.time ∧ (setCode a b s).id = s.id ∧ (setCode a b s).hi = s.hi ∧ (setCode a b s).ctxs = s.ctxs ∧ (setCode a b s).mem = s.mem ∧ (setCode a b s).srv = s.srv ∧ (setCode a b s).ops = s.ops ∧ (setCode a b s).mdl = s.mdl ∧ (setCode a b s).exu = s.exu ∧ (setCode a b s).coll = s.coll ∧ (setCode a b s).xn = s.xn ∧ (setCode a b s).pw = s.pw ∧ (setCode a b s).sec = s.sec ∧ (setCode a b s).td = s.td ∧ (setCode a b s).cof = s.cof ∧ (setCode a b s).draws = s.draws ∧ (setCode a b s).out = s.out := by
  simp [setCode]

@[simp] theorem setCode_leaf (a : Bool) (b : ℕ) (s : State) :
    (setCode a b s).fab.scratch = s.fab.scratch := by
  simp [setCode]

@[simp] theorem setRail_frame (a : ℕ) (s : State) :
    (setRail a s).pending = s.pending ∧ (setRail a s).time = s.time ∧ (setRail a s).id = s.id ∧ (setRail a s).hi = s.hi ∧ (setRail a s).ctxs = s.ctxs ∧ (setRail a s).mem = s.mem ∧ (setRail a s).srv = s.srv ∧ (setRail a s).ops = s.ops ∧ (setRail a s).mdl = s.mdl ∧ (setRail a s).exu = s.exu ∧ (setRail a s).coll = s.coll ∧ (setRail a s).xn = s.xn ∧ (setRail a s).pw = s.pw ∧ (setRail a s).sec = s.sec ∧ (setRail a s).td = s.td ∧ (setRail a s).cof = s.cof ∧ (setRail a s).draws = s.draws ∧ (setRail a s).out = s.out := by
  simp [setRail]

@[simp] theorem setRail_leaf (a : ℕ) (s : State) :
    (setRail a s).fab.scratch = s.fab.scratch := by
  simp [setRail]

@[simp] theorem applyCodes_frame (a : Bool) (s : State) :
    (applyCodes a s).pending = s.pending ∧ (applyCodes a s).time = s.time ∧ (applyCodes a s).id = s.id ∧ (applyCodes a s).hi = s.hi ∧ (applyCodes a s).ctxs = s.ctxs ∧ (applyCodes a s).mem = s.mem ∧ (applyCodes a s).srv = s.srv ∧ (applyCodes a s).ops = s.ops ∧ (applyCodes a s).mdl = s.mdl ∧ (applyCodes a s).exu = s.exu ∧ (applyCodes a s).coll = s.coll ∧ (applyCodes a s).xn = s.xn ∧ (applyCodes a s).pw = s.pw ∧ (applyCodes a s).sec = s.sec ∧ (applyCodes a s).td = s.td ∧ (applyCodes a s).cof = s.cof ∧ (applyCodes a s).draws = s.draws ∧ (applyCodes a s).out = s.out := by
  simp [applyCodes]

@[simp] theorem applyCodes_leaf (a : Bool) (s : State) :
    (applyCodes a s).fab.scratch = s.fab.scratch := by
  simp [applyCodes]

@[simp] theorem rescale_frame (s : State) :
    (rescale s).pending = s.pending ∧ (rescale s).time = s.time ∧ (rescale s).id = s.id ∧ (rescale s).hi = s.hi ∧ (rescale s).ctxs = s.ctxs ∧ (rescale s).mem = s.mem ∧ (rescale s).fab = s.fab ∧ (rescale s).ops = s.ops ∧ (rescale s).mdl = s.mdl ∧ (rescale s).exu = s.exu ∧ (rescale s).coll = s.coll ∧ (rescale s).xn = s.xn ∧ (rescale s).pw = s.pw ∧ (rescale s).sec = s.sec ∧ (rescale s).td = s.td ∧ (rescale s).cof = s.cof ∧ (rescale s).draws = s.draws ∧ (rescale s).out = s.out := by
  simp [rescale]

@[simp] theorem controlPass_frame (a : Bool) (s : State) :
    (controlPass a s).pending = s.pending ∧ (controlPass a s).time = s.time ∧ (controlPass a s).id = s.id ∧ (controlPass a s).ops = s.ops ∧ (controlPass a s).coll = s.coll ∧ (controlPass a s).pw = s.pw ∧ (controlPass a s).sec = s.sec ∧ (controlPass a s).cof = s.cof ∧ (controlPass a s).draws = s.draws := by
  simp [controlPass]

@[simp] theorem controlPass_leaf (a : Bool) (s : State) :
    (controlPass a s).fab.scratch = s.fab.scratch ∧ (controlPass a s).hi.lock = s.hi.lock := by
  simp [controlPass]

@[simp] theorem powerEvent_frame (a : ℕ) (s : State) :
    (powerEvent a s).pending = s.pending ∧ (powerEvent a s).time = s.time ∧ (powerEvent a s).id = s.id ∧ (powerEvent a s).hi = s.hi ∧ (powerEvent a s).ctxs = s.ctxs ∧ (powerEvent a s).mem = s.mem ∧ (powerEvent a s).fab = s.fab ∧ (powerEvent a s).srv = s.srv ∧ (powerEvent a s).ops = s.ops ∧ (powerEvent a s).mdl = s.mdl ∧ (powerEvent a s).exu = s.exu ∧ (powerEvent a s).coll = s.coll ∧ (powerEvent a s).xn = s.xn ∧ (powerEvent a s).pw = s.pw ∧ (powerEvent a s).sec = s.sec ∧ (powerEvent a s).td = s.td ∧ (powerEvent a s).cof = s.cof ∧ (powerEvent a s).draws = s.draws := by
  simp [powerEvent]

@[simp] theorem setEmergency_frame (a : Bool) (b : Bool) (s : State) :
    (setEmergency a b s).pending = s.pending ∧ (setEmergency a b s).time = s.time ∧ (setEmergency a b s).id = s.id ∧ (setEmergency a b s).ops = s.ops ∧ (setEmergency a b s).coll = s.coll ∧ (setEmergency a b s).sec = s.sec ∧ (setEmergency a b s).draws = s.draws := by
  simp [setEmergency]

@[simp] theorem setEmergency_leaf (a : Bool) (b : Bool) (s : State) :
    (setEmergency a b s).fab.scratch = s.fab.scratch ∧ (setEmergency a b s).hi.lock = s.hi.lock ∧ (setEmergency a b s).pw.st = s.pw.st := by
  simp [setEmergency]

@[simp] theorem capMoves_frame (a : ℕ) (s : State) :
    (capMoves a s).pending = s.pending ∧ (capMoves a s).time = s.time ∧ (capMoves a s).id = s.id ∧ (capMoves a s).ops = s.ops ∧ (capMoves a s).coll = s.coll ∧ (capMoves a s).sec = s.sec ∧ (capMoves a s).draws = s.draws := by
  simp [capMoves]

@[simp] theorem capMoves_leaf (a : ℕ) (s : State) :
    (capMoves a s).fab.scratch = s.fab.scratch ∧ (capMoves a s).hi.lock = s.hi.lock ∧ (capMoves a s).pw.st = s.pw.st := by
  simp [capMoves]

@[simp] theorem leaveIdle_frame (s : State) :
    (leaveIdle s).pending = s.pending ∧ (leaveIdle s).time = s.time ∧ (leaveIdle s).id = s.id ∧ (leaveIdle s).ops = s.ops ∧ (leaveIdle s).coll = s.coll ∧ (leaveIdle s).sec = s.sec ∧ (leaveIdle s).draws = s.draws := by
  simp [leaveIdle]

@[simp] theorem leaveIdle_leaf (s : State) :
    (leaveIdle s).fab.scratch = s.fab.scratch ∧ (leaveIdle s).hi.lock = s.hi.lock := by
  simp [leaveIdle]

@[simp] theorem applyPending_frame (a : ℕ) (s : State) :
    (applyPending a s).pending = s.pending ∧ (applyPending a s).time = s.time ∧ (applyPending a s).id = s.id ∧ (applyPending a s).hi = s.hi ∧ (applyPending a s).ctxs = s.ctxs ∧ (applyPending a s).mem = s.mem ∧ (applyPending a s).srv = s.srv ∧ (applyPending a s).ops = s.ops ∧ (applyPending a s).mdl = s.mdl ∧ (applyPending a s).exu = s.exu ∧ (applyPending a s).coll = s.coll ∧ (applyPending a s).xn = s.xn ∧ (applyPending a s).pw = s.pw ∧ (applyPending a s).sec = s.sec ∧ (applyPending a s).td = s.td ∧ (applyPending a s).cof = s.cof ∧ (applyPending a s).draws = s.draws ∧ (applyPending a s).out = s.out := by
  simp (disch := first | (intros; (repeat' split) <;> (simp [-Nat.reducePow]; done)) | (intros; dsimp only; (repeat' split) <;> (simp [-Nat.reducePow]; done)) | assumption) [applyPending, -Nat.reducePow]

@[simp] theorem applyPending_leaf (a : ℕ) (s : State) :
    (applyPending a s).fab.scratch = s.fab.scratch := by
  simp (disch := first | (intros; (repeat' split) <;> (simp [-Nat.reducePow]; done)) | (intros; dsimp only; (repeat' split) <;> (simp [-Nat.reducePow]; done)) | assumption) [applyPending, -Nat.reducePow]

@[simp] theorem plateCodes_frame (a : ℕ) (s : State) :
    (plateCodes a s).pending = s.pending ∧ (plateCodes a s).time = s.time ∧ (plateCodes a s).id = s.id ∧ (plateCodes a s).hi = s.hi ∧ (plateCodes a s).ctxs = s.ctxs ∧ (plateCodes a s).mem = s.mem ∧ (plateCodes a s).srv = s.srv ∧ (plateCodes a s).ops = s.ops ∧ (plateCodes a s).mdl = s.mdl ∧ (plateCodes a s).exu = s.exu ∧ (plateCodes a s).coll = s.coll ∧ (plateCodes a s).xn = s.xn ∧ (plateCodes a s).pw = s.pw ∧ (plateCodes a s).sec = s.sec ∧ (plateCodes a s).td = s.td ∧ (plateCodes a s).cof = s.cof ∧ (plateCodes a s).draws = s.draws ∧ (plateCodes a s).out = s.out := by
  simp [plateCodes]

@[simp] theorem plateCodes_leaf (a : ℕ) (s : State) :
    (plateCodes a s).fab.scratch = s.fab.scratch := by
  simp [plateCodes]

@[simp] theorem keepFloors_frame (a : List ℕ) (s : State) :
    (keepFloors a s).pending = s.pending ∧ (keepFloors a s).time = s.time ∧ (keepFloors a s).id = s.id ∧ (keepFloors a s).hi = s.hi ∧ (keepFloors a s).ctxs = s.ctxs ∧ (keepFloors a s).mem = s.mem ∧ (keepFloors a s).srv = s.srv ∧ (keepFloors a s).ops = s.ops ∧ (keepFloors a s).mdl = s.mdl ∧ (keepFloors a s).exu = s.exu ∧ (keepFloors a s).coll = s.coll ∧ (keepFloors a s).xn = s.xn ∧ (keepFloors a s).pw = s.pw ∧ (keepFloors a s).sec = s.sec ∧ (keepFloors a s).td = s.td ∧ (keepFloors a s).cof = s.cof ∧ (keepFloors a s).draws = s.draws ∧ (keepFloors a s).out = s.out := by
  simp [keepFloors]

@[simp] theorem keepFloors_leaf (a : List ℕ) (s : State) :
    (keepFloors a s).fab.scratch = s.fab.scratch := by
  simp [keepFloors]

end Sys2Proof.Machine
end

