-- ==== Sys2Proof/Laws/Xaene.lean ====
section
/-! SUPPORT. What the operations of Machine/Xaene.lean leave unchanged: the parts of the state that each does not touch. -/
namespace Sys2Proof.Machine

@[simp] theorem countTarget_frame (a : Bool) (b : Pkt) (c : ℕ) (s : State) :
    (countTarget a b c s).pending = s.pending ∧ (countTarget a b c s).time = s.time ∧ (countTarget a b c s).id = s.id ∧ (countTarget a b c s).hi = s.hi ∧ (countTarget a b c s).mem = s.mem ∧ (countTarget a b c s).fab = s.fab ∧ (countTarget a b c s).srv = s.srv ∧ (countTarget a b c s).ops = s.ops ∧ (countTarget a b c s).mdl = s.mdl ∧ (countTarget a b c s).exu = s.exu ∧ (countTarget a b c s).coll = s.coll ∧ (countTarget a b c s).xn = s.xn ∧ (countTarget a b c s).pw = s.pw ∧ (countTarget a b c s).sec = s.sec ∧ (countTarget a b c s).cof = s.cof ∧ (countTarget a b c s).draws = s.draws ∧ (countTarget a b c s).out = s.out := by
  simp only [countTarget]
  repeat' split
  all_goals simp

@[simp] theorem answer_frame (a : Pkt) (b : RespStatus) (c : List Byte) (d : List ℕ) (s : State) :
    (answer a b c d s).pending = s.pending ∧ (answer a b c d s).time = s.time ∧ (answer a b c d s).id = s.id ∧ (answer a b c d s).hi = s.hi ∧ (answer a b c d s).ctxs = s.ctxs ∧ (answer a b c d s).mem = s.mem ∧ (answer a b c d s).fab = s.fab ∧ (answer a b c d s).srv = s.srv ∧ (answer a b c d s).ops = s.ops ∧ (answer a b c d s).mdl = s.mdl ∧ (answer a b c d s).exu = s.exu ∧ (answer a b c d s).coll = s.coll ∧ (answer a b c d s).pw = s.pw ∧ (answer a b c d s).sec = s.sec ∧ (answer a b c d s).cof = s.cof ∧ (answer a b c d s).draws = s.draws := by
  simp [answer]

@[simp] theorem once_pending (a : Pkt) (b : State → State) (s : State) (h : ∀ s, (b s).pending = s.pending) :
    (once a b s).pending = s.pending := by
  unfold once; (try dsimp only); (repeat' split) <;> first | (simp [h]; done) | simp_all

@[simp] theorem once_time (a : Pkt) (b : State → State) (s : State) (h : ∀ s, (b s).time = s.time) :
    (once a b s).time = s.time := by
  unfold once; (try dsimp only); (repeat' split) <;> first | (simp [h]; done) | simp_all

@[simp] theorem once_id (a : Pkt) (b : State → State) (s : State) (h : ∀ s, (b s).id = s.id) :
    (once a b s).id = s.id := by
  unfold once; (try dsimp only); (repeat' split) <;> first | (simp [h]; done) | simp_all

@[simp] theorem once_hi (a : Pkt) (b : State → State) (s : State) (h : ∀ s, (b s).hi = s.hi) :
    (once a b s).hi = s.hi := by
  unfold once; (try dsimp only); (repeat' split) <;> first | (simp [h]; done) | simp_all

@[simp] theorem once_ctxs (a : Pkt) (b : State → State) (s : State) (h : ∀ s, (b s).ctxs = s.ctxs) :
    (once a b s).ctxs = s.ctxs := by
  unfold once; (try dsimp only); (repeat' split) <;> first | (simp [h]; done) | simp_all

@[simp] theorem once_mem (a : Pkt) (b : State → State) (s : State) (h : ∀ s, (b s).mem = s.mem) :
    (once a b s).mem = s.mem := by
  unfold once; (try dsimp only); (repeat' split) <;> first | (simp [h]; done) | simp_all

@[simp] theorem once_fab (a : Pkt) (b : State → State) (s : State) (h : ∀ s, (b s).fab = s.fab) :
    (once a b s).fab = s.fab := by
  unfold once; (try dsimp only); (repeat' split) <;> first | (simp [h]; done) | simp_all

@[simp] theorem once_srv (a : Pkt) (b : State → State) (s : State) (h : ∀ s, (b s).srv = s.srv) :
    (once a b s).srv = s.srv := by
  unfold once; (try dsimp only); (repeat' split) <;> first | (simp [h]; done) | simp_all

@[simp] theorem once_ops (a : Pkt) (b : State → State) (s : State) (h : ∀ s, (b s).ops = s.ops) :
    (once a b s).ops = s.ops := by
  unfold once; (try dsimp only); (repeat' split) <;> first | (simp [h]; done) | simp_all

@[simp] theorem once_mdl (a : Pkt) (b : State → State) (s : State) (h : ∀ s, (b s).mdl = s.mdl) :
    (once a b s).mdl = s.mdl := by
  unfold once; (try dsimp only); (repeat' split) <;> first | (simp [h]; done) | simp_all

@[simp] theorem once_exu (a : Pkt) (b : State → State) (s : State) (h : ∀ s, (b s).exu = s.exu) :
    (once a b s).exu = s.exu := by
  unfold once; (try dsimp only); (repeat' split) <;> first | (simp [h]; done) | simp_all

@[simp] theorem once_coll (a : Pkt) (b : State → State) (s : State) (h : ∀ s, (b s).coll = s.coll) :
    (once a b s).coll = s.coll := by
  unfold once; (try dsimp only); (repeat' split) <;> first | (simp [h]; done) | simp_all

@[simp] theorem once_pw (a : Pkt) (b : State → State) (s : State) (h : ∀ s, (b s).pw = s.pw) :
    (once a b s).pw = s.pw := by
  unfold once; (try dsimp only); (repeat' split) <;> first | (simp [h]; done) | simp_all

@[simp] theorem once_sec (a : Pkt) (b : State → State) (s : State) (h : ∀ s, (b s).sec = s.sec) :
    (once a b s).sec = s.sec := by
  unfold once; (try dsimp only); (repeat' split) <;> first | (simp [h]; done) | simp_all

@[simp] theorem once_cof (a : Pkt) (b : State → State) (s : State) (h : ∀ s, (b s).cof = s.cof) :
    (once a b s).cof = s.cof := by
  unfold once; (try dsimp only); (repeat' split) <;> first | (simp [h]; done) | simp_all

@[simp] theorem once_draws (a : Pkt) (b : State → State) (s : State) (h : ∀ s, (b s).draws = s.draws) :
    (once a b s).draws = s.draws := by
  unfold once; (try dsimp only); (repeat' split) <;> first | (simp [h]; done) | simp_all

@[simp] theorem once_mem_dram (a : Pkt) (b : State → State) (s : State) (h : ∀ s, (b s).mem.dram = s.mem.dram) :
    (once a b s).mem.dram = s.mem.dram := by
  unfold once; (try dsimp only); (repeat' split) <;> first | (simp [h]; done) | simp_all

@[simp] theorem once_fab_scratch (a : Pkt) (b : State → State) (s : State) (h : ∀ s, (b s).fab.scratch = s.fab.scratch) :
    (once a b s).fab.scratch = s.fab.scratch := by
  unfold once; (try dsimp only); (repeat' split) <;> first | (simp [h]; done) | simp_all

@[simp] theorem once_hi_lock (a : Pkt) (b : State → State) (s : State) (h : ∀ s, (b s).hi.lock = s.hi.lock) :
    (once a b s).hi.lock = s.hi.lock := by
  unfold once; (try dsimp only); (repeat' split) <;> first | (simp [h]; done) | simp_all

@[simp] theorem once_sec_life (a : Pkt) (b : State → State) (s : State) (h : ∀ s, (b s).sec.life = s.sec.life) :
    (once a b s).sec.life = s.sec.life := by
  unfold once; (try dsimp only); (repeat' split) <;> first | (simp [h]; done) | simp_all

@[simp] theorem once_sec_mboxBuf (a : Pkt) (b : State → State) (s : State) (h : ∀ s, (b s).sec.mboxBuf = s.sec.mboxBuf) :
    (once a b s).sec.mboxBuf = s.sec.mboxBuf := by
  unfold once; (try dsimp only); (repeat' split) <;> first | (simp [h]; done) | simp_all

@[simp] theorem once_pw_st (a : Pkt) (b : State → State) (s : State) (h : ∀ s, (b s).pw.st = s.pw.st) :
    (once a b s).pw.st = s.pw.st := by
  unfold once; (try dsimp only); (repeat' split) <;> first | (simp [h]; done) | simp_all

@[simp] theorem putCodes_frame (a : ℕ) (b : List ℕ) (s : State) :
    (putCodes a b s).pending = s.pending ∧ (putCodes a b s).time = s.time ∧ (putCodes a b s).id = s.id ∧ (putCodes a b s).hi = s.hi ∧ (putCodes a b s).ctxs = s.ctxs ∧ (putCodes a b s).fab = s.fab ∧ (putCodes a b s).srv = s.srv ∧ (putCodes a b s).ops = s.ops ∧ (putCodes a b s).mdl = s.mdl ∧ (putCodes a b s).exu = s.exu ∧ (putCodes a b s).coll = s.coll ∧ (putCodes a b s).xn = s.xn ∧ (putCodes a b s).pw = s.pw ∧ (putCodes a b s).sec = s.sec ∧ (putCodes a b s).td = s.td ∧ (putCodes a b s).cof = s.cof ∧ (putCodes a b s).draws = s.draws ∧ (putCodes a b s).out = s.out := by
  induction b generalizing a s with
  | nil => simp [putCodes]
  | cons y m ih =>
    unfold putCodes
    try dsimp only
    repeat' split
    all_goals simp [ih]

@[simp] theorem putCodes_leaf (a : ℕ) (b : List ℕ) (s : State) :
    (putCodes a b s).mem.dram = s.mem.dram := by
  induction b generalizing a s with
  | nil => simp [putCodes]
  | cons y m ih =>
    unfold putCodes
    try dsimp only
    repeat' split
    all_goals simp [ih]

@[simp] theorem readPkt_frame (a : Pkt) (s : State) :
    (readPkt a s).pending = s.pending ∧ (readPkt a s).time = s.time ∧ (readPkt a s).id = s.id ∧ (readPkt a s).hi = s.hi ∧ (readPkt a s).mem = s.mem ∧ (readPkt a s).fab = s.fab ∧ (readPkt a s).srv = s.srv ∧ (readPkt a s).ops = s.ops ∧ (readPkt a s).mdl = s.mdl ∧ (readPkt a s).exu = s.exu ∧ (readPkt a s).coll = s.coll ∧ (readPkt a s).pw = s.pw ∧ (readPkt a s).sec = s.sec ∧ (readPkt a s).cof = s.cof ∧ (readPkt a s).draws = s.draws := by
  simp only [readPkt]
  repeat' split
  all_goals simp

@[simp] theorem writeEntry_frame (a : Leaf) (b : Dword) (s : State) :
    (writeEntry a b s).pending = s.pending ∧ (writeEntry a b s).time = s.time ∧ (writeEntry a b s).id = s.id ∧ (writeEntry a b s).hi = s.hi ∧ (writeEntry a b s).ctxs = s.ctxs ∧ (writeEntry a b s).fab = s.fab ∧ (writeEntry a b s).ops = s.ops ∧ (writeEntry a b s).mdl = s.mdl ∧ (writeEntry a b s).exu = s.exu ∧ (writeEntry a b s).coll = s.coll ∧ (writeEntry a b s).xn = s.xn ∧ (writeEntry a b s).pw = s.pw ∧ (writeEntry a b s).sec = s.sec ∧ (writeEntry a b s).td = s.td ∧ (writeEntry a b s).cof = s.cof ∧ (writeEntry a b s).draws = s.draws ∧ (writeEntry a b s).out = s.out := by
  simp only [writeEntry]
  repeat' split
  all_goals simp

@[simp] theorem writeEntry_leaf (a : Leaf) (b : Dword) (s : State) :
    (writeEntry a b s).mem.dram = s.mem.dram := by
  simp only [writeEntry]
  repeat' split
  all_goals simp

@[simp] theorem writePkt_frame (a : Pkt) (s : State) :
    (writePkt a s).pending = s.pending ∧ (writePkt a s).time = s.time ∧ (writePkt a s).id = s.id ∧ (writePkt a s).hi = s.hi ∧ (writePkt a s).fab = s.fab ∧ (writePkt a s).ops = s.ops ∧ (writePkt a s).mdl = s.mdl ∧ (writePkt a s).exu = s.exu ∧ (writePkt a s).coll = s.coll ∧ (writePkt a s).pw = s.pw ∧ (writePkt a s).sec = s.sec ∧ (writePkt a s).cof = s.cof ∧ (writePkt a s).draws = s.draws := by
  simp only [writePkt]
  repeat' split
  all_goals simp

@[simp] theorem atomicPkt_frame (a : Pkt) (s : State) :
    (atomicPkt a s).pending = s.pending ∧ (atomicPkt a s).time = s.time ∧ (atomicPkt a s).id = s.id ∧ (atomicPkt a s).hi = s.hi ∧ (atomicPkt a s).fab = s.fab ∧ (atomicPkt a s).srv = s.srv ∧ (atomicPkt a s).ops = s.ops ∧ (atomicPkt a s).mdl = s.mdl ∧ (atomicPkt a s).exu = s.exu ∧ (atomicPkt a s).coll = s.coll ∧ (atomicPkt a s).pw = s.pw ∧ (atomicPkt a s).sec = s.sec ∧ (atomicPkt a s).cof = s.cof ∧ (atomicPkt a s).draws = s.draws := by
  simp only [atomicPkt]
  repeat' split
  all_goals simp

@[simp] theorem lostTarget_frame (a : ℕ) (b : ℕ) (c : ℕ) (s : State) :
    (lostTarget a b c s).pending = s.pending ∧ (lostTarget a b c s).time = s.time ∧ (lostTarget a b c s).id = s.id ∧ (lostTarget a b c s).fab = s.fab ∧ (lostTarget a b c s).ops = s.ops ∧ (lostTarget a b c s).coll = s.coll ∧ (lostTarget a b c s).pw = s.pw ∧ (lostTarget a b c s).sec = s.sec ∧ (lostTarget a b c s).draws = s.draws := by
  simp [lostTarget]

@[simp] theorem lostTarget_leaf (a : ℕ) (b : ℕ) (c : ℕ) (s : State) :
    (lostTarget a b c s).hi.lock = s.hi.lock := by
  simp [lostTarget]

@[simp] theorem issueRemote_frame (a : ℕ) (b : Remote) (s : State) :
    (issueRemote a b s).pending = s.pending ∧ (issueRemote a b s).time = s.time ∧ (issueRemote a b s).id = s.id ∧ (issueRemote a b s).fab = s.fab ∧ (issueRemote a b s).ops = s.ops ∧ (issueRemote a b s).coll = s.coll ∧ (issueRemote a b s).pw = s.pw ∧ (issueRemote a b s).sec = s.sec ∧ (issueRemote a b s).draws = s.draws := by
  simp only [issueRemote]
  repeat' split
  all_goals simp

@[simp] theorem issueRemote_leaf (a : ℕ) (b : Remote) (s : State) :
    (issueRemote a b s).hi.lock = s.hi.lock := by
  simp only [issueRemote]
  repeat' split
  all_goals simp

@[simp] theorem releaseFlow_frame (a : ℕ) (b : ℕ) (s : State) :
    (releaseFlow a b s).pending = s.pending ∧ (releaseFlow a b s).time = s.time ∧ (releaseFlow a b s).id = s.id ∧ (releaseFlow a b s).hi = s.hi ∧ (releaseFlow a b s).mem = s.mem ∧ (releaseFlow a b s).fab = s.fab ∧ (releaseFlow a b s).srv = s.srv ∧ (releaseFlow a b s).ops = s.ops ∧ (releaseFlow a b s).mdl = s.mdl ∧ (releaseFlow a b s).exu = s.exu ∧ (releaseFlow a b s).coll = s.coll ∧ (releaseFlow a b s).pw = s.pw ∧ (releaseFlow a b s).sec = s.sec ∧ (releaseFlow a b s).cof = s.cof ∧ (releaseFlow a b s).draws = s.draws := by
  simp [releaseFlow]

@[simp] theorem completeRemote_frame (a : RespPkt) (b : Remote) (s : State) :
    (completeRemote a b s).pending = s.pending ∧ (completeRemote a b s).time = s.time ∧ (completeRemote a b s).id = s.id ∧ (completeRemote a b s).sec = s.sec ∧ (completeRemote a b s).draws = s.draws := by
  simp [completeRemote]

@[simp] theorem completeRemote_leaf (a : RespPkt) (b : Remote) (s : State) :
    (completeRemote a b s).hi.lock = s.hi.lock ∧ (completeRemote a b s).pw.st = s.pw.st := by
  simp [completeRemote]

@[simp] theorem settleRemote_frame (a : RespPkt) (b : Remote) (s : State) :
    (settleRemote a b s).pending = s.pending ∧ (settleRemote a b s).time = s.time ∧ (settleRemote a b s).id = s.id ∧ (settleRemote a b s).sec = s.sec ∧ (settleRemote a b s).draws = s.draws := by
  simp only [settleRemote]
  repeat' split
  all_goals simp

@[simp] theorem settleRemote_leaf (a : RespPkt) (b : Remote) (s : State) :
    (settleRemote a b s).hi.lock = s.hi.lock ∧ (settleRemote a b s).pw.st = s.pw.st := by
  simp only [settleRemote]
  repeat' split
  all_goals simp

@[simp] theorem lateResp_frame (s : State) :
    (lateResp s).pending = s.pending ∧ (lateResp s).time = s.time ∧ (lateResp s).id = s.id ∧ (lateResp s).hi = s.hi ∧ (lateResp s).ctxs = s.ctxs ∧ (lateResp s).mem = s.mem ∧ (lateResp s).fab = s.fab ∧ (lateResp s).srv = s.srv ∧ (lateResp s).ops = s.ops ∧ (lateResp s).mdl = s.mdl ∧ (lateResp s).exu = s.exu ∧ (lateResp s).coll = s.coll ∧ (lateResp s).pw = s.pw ∧ (lateResp s).sec = s.sec ∧ (lateResp s).td = s.td ∧ (lateResp s).cof = s.cof ∧ (lateResp s).draws = s.draws ∧ (lateResp s).out = s.out := by
  simp [lateResp]

@[simp] theorem respWith_pending (a : RespPkt → Remote → State → State) (b : RespPkt) (s : State) (h : ∀ x y s, (a x y s).pending = s.pending) :
    (respWith a b s).pending = s.pending := by
  unfold respWith; (try dsimp only); (repeat' split) <;> first | (simp [h]; done) | simp_all

@[simp] theorem respWith_time (a : RespPkt → Remote → State → State) (b : RespPkt) (s : State) (h : ∀ x y s, (a x y s).time = s.time) :
    (respWith a b s).time = s.time := by
  unfold respWith; (try dsimp only); (repeat' split) <;> first | (simp [h]; done) | simp_all

@[simp] theorem respWith_id (a : RespPkt → Remote → State → State) (b : RespPkt) (s : State) (h : ∀ x y s, (a x y s).id = s.id) :
    (respWith a b s).id = s.id := by
  unfold respWith; (try dsimp only); (repeat' split) <;> first | (simp [h]; done) | simp_all

@[simp] theorem respWith_hi (a : RespPkt → Remote → State → State) (b : RespPkt) (s : State) (h : ∀ x y s, (a x y s).hi = s.hi) :
    (respWith a b s).hi = s.hi := by
  unfold respWith; (try dsimp only); (repeat' split) <;> first | (simp [h]; done) | simp_all

@[simp] theorem respWith_mem (a : RespPkt → Remote → State → State) (b : RespPkt) (s : State) (h : ∀ x y s, (a x y s).mem = s.mem) :
    (respWith a b s).mem = s.mem := by
  unfold respWith; (try dsimp only); (repeat' split) <;> first | (simp [h]; done) | simp_all

@[simp] theorem respWith_fab (a : RespPkt → Remote → State → State) (b : RespPkt) (s : State) (h : ∀ x y s, (a x y s).fab = s.fab) :
    (respWith a b s).fab = s.fab := by
  unfold respWith; (try dsimp only); (repeat' split) <;> first | (simp [h]; done) | simp_all

@[simp] theorem respWith_srv (a : RespPkt → Remote → State → State) (b : RespPkt) (s : State) (h : ∀ x y s, (a x y s).srv = s.srv) :
    (respWith a b s).srv = s.srv := by
  unfold respWith; (try dsimp only); (repeat' split) <;> first | (simp [h]; done) | simp_all

@[simp] theorem respWith_ops (a : RespPkt → Remote → State → State) (b : RespPkt) (s : State) (h : ∀ x y s, (a x y s).ops = s.ops) :
    (respWith a b s).ops = s.ops := by
  unfold respWith; (try dsimp only); (repeat' split) <;> first | (simp [h]; done) | simp_all

@[simp] theorem respWith_mdl (a : RespPkt → Remote → State → State) (b : RespPkt) (s : State) (h : ∀ x y s, (a x y s).mdl = s.mdl) :
    (respWith a b s).mdl = s.mdl := by
  unfold respWith; (try dsimp only); (repeat' split) <;> first | (simp [h]; done) | simp_all

@[simp] theorem respWith_exu (a : RespPkt → Remote → State → State) (b : RespPkt) (s : State) (h : ∀ x y s, (a x y s).exu = s.exu) :
    (respWith a b s).exu = s.exu := by
  unfold respWith; (try dsimp only); (repeat' split) <;> first | (simp [h]; done) | simp_all

@[simp] theorem respWith_coll (a : RespPkt → Remote → State → State) (b : RespPkt) (s : State) (h : ∀ x y s, (a x y s).coll = s.coll) :
    (respWith a b s).coll = s.coll := by
  unfold respWith; (try dsimp only); (repeat' split) <;> first | (simp [h]; done) | simp_all

@[simp] theorem respWith_pw (a : RespPkt → Remote → State → State) (b : RespPkt) (s : State) (h : ∀ x y s, (a x y s).pw = s.pw) :
    (respWith a b s).pw = s.pw := by
  unfold respWith; (try dsimp only); (repeat' split) <;> first | (simp [h]; done) | simp_all

@[simp] theorem respWith_sec (a : RespPkt → Remote → State → State) (b : RespPkt) (s : State) (h : ∀ x y s, (a x y s).sec = s.sec) :
    (respWith a b s).sec = s.sec := by
  unfold respWith; (try dsimp only); (repeat' split) <;> first | (simp [h]; done) | simp_all

@[simp] theorem respWith_cof (a : RespPkt → Remote → State → State) (b : RespPkt) (s : State) (h : ∀ x y s, (a x y s).cof = s.cof) :
    (respWith a b s).cof = s.cof := by
  unfold respWith; (try dsimp only); (repeat' split) <;> first | (simp [h]; done) | simp_all

@[simp] theorem respWith_draws (a : RespPkt → Remote → State → State) (b : RespPkt) (s : State) (h : ∀ x y s, (a x y s).draws = s.draws) :
    (respWith a b s).draws = s.draws := by
  unfold respWith; (try dsimp only); (repeat' split) <;> first | (simp [h]; done) | simp_all

@[simp] theorem respWith_mem_dram (a : RespPkt → Remote → State → State) (b : RespPkt) (s : State) (h : ∀ x y s, (a x y s).mem.dram = s.mem.dram) :
    (respWith a b s).mem.dram = s.mem.dram := by
  unfold respWith; (try dsimp only); (repeat' split) <;> first | (simp [h]; done) | simp_all

@[simp] theorem respWith_fab_scratch (a : RespPkt → Remote → State → State) (b : RespPkt) (s : State) (h : ∀ x y s, (a x y s).fab.scratch = s.fab.scratch) :
    (respWith a b s).fab.scratch = s.fab.scratch := by
  unfold respWith; (try dsimp only); (repeat' split) <;> first | (simp [h]; done) | simp_all

@[simp] theorem respWith_hi_lock (a : RespPkt → Remote → State → State) (b : RespPkt) (s : State) (h : ∀ x y s, (a x y s).hi.lock = s.hi.lock) :
    (respWith a b s).hi.lock = s.hi.lock := by
  unfold respWith; (try dsimp only); (repeat' split) <;> first | (simp [h]; done) | simp_all

@[simp] theorem respWith_sec_life (a : RespPkt → Remote → State → State) (b : RespPkt) (s : State) (h : ∀ x y s, (a x y s).sec.life = s.sec.life) :
    (respWith a b s).sec.life = s.sec.life := by
  unfold respWith; (try dsimp only); (repeat' split) <;> first | (simp [h]; done) | simp_all

@[simp] theorem respWith_sec_mboxBuf (a : RespPkt → Remote → State → State) (b : RespPkt) (s : State) (h : ∀ x y s, (a x y s).sec.mboxBuf = s.sec.mboxBuf) :
    (respWith a b s).sec.mboxBuf = s.sec.mboxBuf := by
  unfold respWith; (try dsimp only); (repeat' split) <;> first | (simp [h]; done) | simp_all

@[simp] theorem respWith_pw_st (a : RespPkt → Remote → State → State) (b : RespPkt) (s : State) (h : ∀ x y s, (a x y s).pw.st = s.pw.st) :
    (respWith a b s).pw.st = s.pw.st := by
  unfold respWith; (try dsimp only); (repeat' split) <;> first | (simp [h]; done) | simp_all

@[simp] theorem respRemote_frame (a : RespPkt) (s : State) :
    (respRemote a s).pending = s.pending ∧ (respRemote a s).time = s.time ∧ (respRemote a s).id = s.id ∧ (respRemote a s).sec = s.sec ∧ (respRemote a s).draws = s.draws := by
  simp [respRemote]

@[simp] theorem respRemote_leaf (a : RespPkt) (s : State) :
    (respRemote a s).hi.lock = s.hi.lock ∧ (respRemote a s).pw.st = s.pw.st := by
  simp [respRemote]

@[simp] theorem modRemote_pending (a : Remote) (b : Remote → Remote) (s : State) : (modRemote a b s).pending = s.pending := (rfl)
@[simp] theorem modRemote_time (a : Remote) (b : Remote → Remote) (s : State) : (modRemote a b s).time = s.time := (rfl)
@[simp] theorem modRemote_id (a : Remote) (b : Remote → Remote) (s : State) : (modRemote a b s).id = s.id := (rfl)
@[simp] theorem modRemote_hi (a : Remote) (b : Remote → Remote) (s : State) : (modRemote a b s).hi = s.hi := (rfl)
@[simp] theorem modRemote_ctxs (a : Remote) (b : Remote → Remote) (s : State) : (modRemote a b s).ctxs = s.ctxs := (rfl)
@[simp] theorem modRemote_mem (a : Remote) (b : Remote → Remote) (s : State) : (modRemote a b s).mem = s.mem := (rfl)
@[simp] theorem modRemote_fab (a : Remote) (b : Remote → Remote) (s : State) : (modRemote a b s).fab = s.fab := (rfl)
@[simp] theorem modRemote_srv (a : Remote) (b : Remote → Remote) (s : State) : (modRemote a b s).srv = s.srv := (rfl)
@[simp] theorem modRemote_ops (a : Remote) (b : Remote → Remote) (s : State) : (modRemote a b s).ops = s.ops := (rfl)
@[simp] theorem modRemote_mdl (a : Remote) (b : Remote → Remote) (s : State) : (modRemote a b s).mdl = s.mdl := (rfl)
@[simp] theorem modRemote_exu (a : Remote) (b : Remote → Remote) (s : State) : (modRemote a b s).exu = s.exu := (rfl)
@[simp] theorem modRemote_coll (a : Remote) (b : Remote → Remote) (s : State) : (modRemote a b s).coll = s.coll := (rfl)
@[simp] theorem modRemote_pw (a : Remote) (b : Remote → Remote) (s : State) : (modRemote a b s).pw = s.pw := (rfl)
@[simp] theorem modRemote_sec (a : Remote) (b : Remote → Remote) (s : State) : (modRemote a b s).sec = s.sec := (rfl)
@[simp] theorem modRemote_td (a : Remote) (b : Remote → Remote) (s : State) : (modRemote a b s).td = s.td := (rfl)
@[simp] theorem modRemote_cof (a : Remote) (b : Remote → Remote) (s : State) : (modRemote a b s).cof = s.cof := (rfl)
@[simp] theorem modRemote_draws (a : Remote) (b : Remote → Remote) (s : State) : (modRemote a b s).draws = s.draws := (rfl)
@[simp] theorem modRemote_out (a : Remote) (b : Remote → Remote) (s : State) : (modRemote a b s).out = s.out := (rfl)

theorem evalTail_frame (a b c d e : ℕ) (st : Status) (s : State) :
    (newFault a b c d e (rerunAll st s)).pending = s.pending ∧ (newFault a b c d e (rerunAll st s)).time = s.time ∧ (newFault a b c d e (rerunAll st s)).id = s.id ∧ (newFault a b c d e (rerunAll st s)).fab = s.fab ∧ (newFault a b c d e (rerunAll st s)).ops = s.ops ∧ (newFault a b c d e (rerunAll st s)).coll = s.coll ∧ (newFault a b c d e (rerunAll st s)).pw = s.pw ∧ (newFault a b c d e (rerunAll st s)).sec = s.sec ∧ (newFault a b c d e (rerunAll st s)).cof = s.cof ∧ (newFault a b c d e (rerunAll st s)).draws = s.draws := by
  simp

@[simp] theorem evalCapacity_frame (s : State) :
    (evalCapacity s).pending = s.pending ∧ (evalCapacity s).time = s.time ∧ (evalCapacity s).id = s.id ∧ (evalCapacity s).fab = s.fab ∧ (evalCapacity s).ops = s.ops ∧ (evalCapacity s).coll = s.coll ∧ (evalCapacity s).pw = s.pw ∧ (evalCapacity s).sec = s.sec ∧ (evalCapacity s).cof = s.cof ∧ (evalCapacity s).draws = s.draws := by
  rw [evalCapacity]
  split
  · exact ⟨rfl, rfl, rfl, rfl, rfl, rfl, rfl, rfl, rfl, rfl⟩
  · exact evalTail_frame _ _ _ _ _ _ _

theorem evalTail_leaf (a b c d e : ℕ) (st : Status) (s : State) :
    (newFault a b c d e (rerunAll st s)).hi.lock = s.hi.lock := by
  simp

@[simp] theorem evalCapacity_leaf (s : State) : (evalCapacity s).hi.lock = s.hi.lock := by
  rw [evalCapacity]
  split
  · exact rfl
  · exact evalTail_leaf _ _ _ _ _ _ _

@[simp] theorem rerouteWaiting_frame (a : ℕ) (s : State) :
    (rerouteWaiting a s).pending = s.pending ∧ (rerouteWaiting a s).time = s.time ∧ (rerouteWaiting a s).id = s.id ∧ (rerouteWaiting a s).hi = s.hi ∧ (rerouteWaiting a s).ctxs = s.ctxs ∧ (rerouteWaiting a s).mem = s.mem ∧ (rerouteWaiting a s).fab = s.fab ∧ (rerouteWaiting a s).srv = s.srv ∧ (rerouteWaiting a s).ops = s.ops ∧ (rerouteWaiting a s).mdl = s.mdl ∧ (rerouteWaiting a s).exu = s.exu ∧ (rerouteWaiting a s).coll = s.coll ∧ (rerouteWaiting a s).pw = s.pw ∧ (rerouteWaiting a s).sec = s.sec ∧ (rerouteWaiting a s).cof = s.cof ∧ (rerouteWaiting a s).draws = s.draws := by
  simp (disch := first | (intros; (repeat' split) <;> (simp [-Nat.reducePow]; done)) | (intros; dsimp only; (repeat' split) <;> (simp [-Nat.reducePow]; done)) | assumption) [rerouteWaiting, -Nat.reducePow]

@[simp] theorem stopPort_frame (a : ℕ) (b : ℕ) (s : State) :
    (stopPort a b s).pending = s.pending ∧ (stopPort a b s).time = s.time ∧ (stopPort a b s).id = s.id ∧ (stopPort a b s).fab = s.fab ∧ (stopPort a b s).ops = s.ops ∧ (stopPort a b s).coll = s.coll ∧ (stopPort a b s).pw = s.pw ∧ (stopPort a b s).sec = s.sec ∧ (stopPort a b s).cof = s.cof ∧ (stopPort a b s).draws = s.draws := by
  simp [stopPort]

@[simp] theorem stopPort_leaf (a : ℕ) (b : ℕ) (s : State) :
    (stopPort a b s).hi.lock = s.hi.lock := by
  simp [stopPort]

@[simp] theorem takeCredit_frame (a : ℕ) (b : ℕ) (c : Bool) (d : ℕ) (s : State) :
    (takeCredit a b c d s).pending = s.pending ∧ (takeCredit a b c d s).time = s.time ∧ (takeCredit a b c d s).id = s.id ∧ (takeCredit a b c d s).hi = s.hi ∧ (takeCredit a b c d s).ctxs = s.ctxs ∧ (takeCredit a b c d s).mem = s.mem ∧ (takeCredit a b c d s).fab = s.fab ∧ (takeCredit a b c d s).srv = s.srv ∧ (takeCredit a b c d s).ops = s.ops ∧ (takeCredit a b c d s).mdl = s.mdl ∧ (takeCredit a b c d s).exu = s.exu ∧ (takeCredit a b c d s).coll = s.coll ∧ (takeCredit a b c d s).pw = s.pw ∧ (takeCredit a b c d s).sec = s.sec ∧ (takeCredit a b c d s).td = s.td ∧ (takeCredit a b c d s).cof = s.cof ∧ (takeCredit a b c d s).draws = s.draws ∧ (takeCredit a b c d s).out = s.out := by
  simp [takeCredit]

@[simp] theorem takeAck_frame (a : ℕ) (b : ℕ) (s : State) :
    (takeAck a b s).pending = s.pending ∧ (takeAck a b s).time = s.time ∧ (takeAck a b s).id = s.id ∧ (takeAck a b s).hi = s.hi ∧ (takeAck a b s).ctxs = s.ctxs ∧ (takeAck a b s).mem = s.mem ∧ (takeAck a b s).fab = s.fab ∧ (takeAck a b s).srv = s.srv ∧ (takeAck a b s).ops = s.ops ∧ (takeAck a b s).mdl = s.mdl ∧ (takeAck a b s).exu = s.exu ∧ (takeAck a b s).coll = s.coll ∧ (takeAck a b s).pw = s.pw ∧ (takeAck a b s).sec = s.sec ∧ (takeAck a b s).cof = s.cof ∧ (takeAck a b s).draws = s.draws := by
  simp [takeAck]

@[simp] theorem sendNak_frame (a : ℕ) (s : State) :
    (sendNak a s).pending = s.pending ∧ (sendNak a s).time = s.time ∧ (sendNak a s).id = s.id ∧ (sendNak a s).hi = s.hi ∧ (sendNak a s).ctxs = s.ctxs ∧ (sendNak a s).mem = s.mem ∧ (sendNak a s).fab = s.fab ∧ (sendNak a s).srv = s.srv ∧ (sendNak a s).ops = s.ops ∧ (sendNak a s).mdl = s.mdl ∧ (sendNak a s).exu = s.exu ∧ (sendNak a s).coll = s.coll ∧ (sendNak a s).pw = s.pw ∧ (sendNak a s).sec = s.sec ∧ (sendNak a s).cof = s.cof ∧ (sendNak a s).draws = s.draws := by
  simp [sendNak]

@[simp] theorem replay_frame (a : ℕ) (b : ℕ) (s : State) :
    (replay a b s).pending = s.pending ∧ (replay a b s).time = s.time ∧ (replay a b s).id = s.id ∧ (replay a b s).hi = s.hi ∧ (replay a b s).ctxs = s.ctxs ∧ (replay a b s).mem = s.mem ∧ (replay a b s).fab = s.fab ∧ (replay a b s).srv = s.srv ∧ (replay a b s).ops = s.ops ∧ (replay a b s).mdl = s.mdl ∧ (replay a b s).exu = s.exu ∧ (replay a b s).coll = s.coll ∧ (replay a b s).pw = s.pw ∧ (replay a b s).sec = s.sec ∧ (replay a b s).cof = s.cof ∧ (replay a b s).draws = s.draws := by
  simp [replay]

@[simp] theorem takeFlit_frame (a : ℕ) (b : FlitRec) (s : State) :
    (takeFlit a b s).pending = s.pending ∧ (takeFlit a b s).time = s.time ∧ (takeFlit a b s).id = s.id ∧ (takeFlit a b s).hi = s.hi ∧ (takeFlit a b s).ctxs = s.ctxs ∧ (takeFlit a b s).mem = s.mem ∧ (takeFlit a b s).fab = s.fab ∧ (takeFlit a b s).srv = s.srv ∧ (takeFlit a b s).ops = s.ops ∧ (takeFlit a b s).mdl = s.mdl ∧ (takeFlit a b s).exu = s.exu ∧ (takeFlit a b s).coll = s.coll ∧ (takeFlit a b s).pw = s.pw ∧ (takeFlit a b s).sec = s.sec ∧ (takeFlit a b s).cof = s.cof ∧ (takeFlit a b s).draws = s.draws := by
  simp [takeFlit]

@[simp] theorem portComesUp_frame (a : ℕ) (b : ℕ) (c : Bool) (s : State) :
    (portComesUp a b c s).pending = s.pending ∧ (portComesUp a b c s).time = s.time ∧ (portComesUp a b c s).id = s.id ∧ (portComesUp a b c s).fab = s.fab ∧ (portComesUp a b c s).ops = s.ops ∧ (portComesUp a b c s).coll = s.coll ∧ (portComesUp a b c s).pw = s.pw ∧ (portComesUp a b c s).sec = s.sec ∧ (portComesUp a b c s).cof = s.cof ∧ (portComesUp a b c s).draws = s.draws := by
  simp [portComesUp]

@[simp] theorem portComesUp_leaf (a : ℕ) (b : ℕ) (c : Bool) (s : State) :
    (portComesUp a b c s).hi.lock = s.hi.lock := by
  simp [portComesUp]

@[simp] theorem writePortCtrl_frame (a : ℕ) (b : Word) (s : State) :
    (writePortCtrl a b s).pending = s.pending ∧ (writePortCtrl a b s).time = s.time ∧ (writePortCtrl a b s).id = s.id ∧ (writePortCtrl a b s).fab = s.fab ∧ (writePortCtrl a b s).ops = s.ops ∧ (writePortCtrl a b s).coll = s.coll ∧ (writePortCtrl a b s).pw = s.pw ∧ (writePortCtrl a b s).sec = s.sec ∧ (writePortCtrl a b s).cof = s.cof ∧ (writePortCtrl a b s).draws = s.draws := by
  simp [writePortCtrl]

@[simp] theorem writePortCtrl_leaf (a : ℕ) (b : Word) (s : State) :
    (writePortCtrl a b s).hi.lock = s.hi.lock := by
  simp [writePortCtrl]

@[simp] theorem writeVcWeight_frame (a : Word) (s : State) :
    (writeVcWeight a s).pending = s.pending ∧ (writeVcWeight a s).time = s.time ∧ (writeVcWeight a s).id = s.id ∧ (writeVcWeight a s).ctxs = s.ctxs ∧ (writeVcWeight a s).mem = s.mem ∧ (writeVcWeight a s).fab = s.fab ∧ (writeVcWeight a s).srv = s.srv ∧ (writeVcWeight a s).ops = s.ops ∧ (writeVcWeight a s).mdl = s.mdl ∧ (writeVcWeight a s).exu = s.exu ∧ (writeVcWeight a s).coll = s.coll ∧ (writeVcWeight a s).pw = s.pw ∧ (writeVcWeight a s).sec = s.sec ∧ (writeVcWeight a s).td = s.td ∧ (writeVcWeight a s).cof = s.cof ∧ (writeVcWeight a s).draws = s.draws ∧ (writeVcWeight a s).out = s.out := by
  simp [writeVcWeight]

@[simp] theorem writeVcWeight_leaf (a : Word) (s : State) :
    (writeVcWeight a s).hi.lock = s.hi.lock := by
  simp [writeVcWeight]

end Sys2Proof.Machine
end

