-- ==== Sys2Proof/Laws/Exu.lean ====
section
/-! SUPPORT. What the operations of Machine/Exu.lean leave unchanged: the parts of the state that each does not touch. -/
namespace Sys2Proof.Machine

@[simp] theorem modLayer_frame (a : ℕ) (b : ℕ) (c : LayerCnt → LayerCnt) (s : State) :
    (modLayer a b c s).pending = s.pending ∧ (modLayer a b c s).time = s.time ∧ (modLayer a b c s).id = s.id ∧ (modLayer a b c s).hi = s.hi ∧ (modLayer a b c s).ctxs = s.ctxs ∧ (modLayer a b c s).mem = s.mem ∧ (modLayer a b c s).srv = s.srv ∧ (modLayer a b c s).ops = s.ops ∧ (modLayer a b c s).mdl = s.mdl ∧ (modLayer a b c s).exu = s.exu ∧ (modLayer a b c s).coll = s.coll ∧ (modLayer a b c s).xn = s.xn ∧ (modLayer a b c s).pw = s.pw ∧ (modLayer a b c s).sec = s.sec ∧ (modLayer a b c s).td = s.td ∧ (modLayer a b c s).cof = s.cof ∧ (modLayer a b c s).draws = s.draws ∧ (modLayer a b c s).out = s.out := by
  simp [modLayer]

@[simp] theorem modLayer_leaf (a : ℕ) (b : ℕ) (c : LayerCnt → LayerCnt) (s : State) :
    (modLayer a b c s).fab.scratch = s.fab.scratch := by
  simp [modLayer]

@[simp] theorem dropEmbCmd_frame (a : EmbCmd) (s : State) :
    (dropEmbCmd a s).pending = s.pending ∧ (dropEmbCmd a s).time = s.time ∧ (dropEmbCmd a s).id = s.id ∧ (dropEmbCmd a s).hi = s.hi ∧ (dropEmbCmd a s).ctxs = s.ctxs ∧ (dropEmbCmd a s).mem = s.mem ∧ (dropEmbCmd a s).fab = s.fab ∧ (dropEmbCmd a s).srv = s.srv ∧ (dropEmbCmd a s).ops = s.ops ∧ (dropEmbCmd a s).exu = s.exu ∧ (dropEmbCmd a s).coll = s.coll ∧ (dropEmbCmd a s).xn = s.xn ∧ (dropEmbCmd a s).pw = s.pw ∧ (dropEmbCmd a s).sec = s.sec ∧ (dropEmbCmd a s).td = s.td ∧ (dropEmbCmd a s).cof = s.cof ∧ (dropEmbCmd a s).draws = s.draws ∧ (dropEmbCmd a s).out = s.out := by
  simp [dropEmbCmd]

@[simp] theorem putEmbCmd_frame (a : EmbCmd) (s : State) :
    (putEmbCmd a s).pending = s.pending ∧ (putEmbCmd a s).time = s.time ∧ (putEmbCmd a s).id = s.id ∧ (putEmbCmd a s).hi = s.hi ∧ (putEmbCmd a s).ctxs = s.ctxs ∧ (putEmbCmd a s).mem = s.mem ∧ (putEmbCmd a s).fab = s.fab ∧ (putEmbCmd a s).srv = s.srv ∧ (putEmbCmd a s).ops = s.ops ∧ (putEmbCmd a s).exu = s.exu ∧ (putEmbCmd a s).coll = s.coll ∧ (putEmbCmd a s).xn = s.xn ∧ (putEmbCmd a s).pw = s.pw ∧ (putEmbCmd a s).sec = s.sec ∧ (putEmbCmd a s).td = s.td ∧ (putEmbCmd a s).cof = s.cof ∧ (putEmbCmd a s).draws = s.draws ∧ (putEmbCmd a s).out = s.out := by
  simp [putEmbCmd]

@[simp] theorem undoEmb_frame (a : EmbCmd) (b : Status) (s : State) :
    (undoEmb a b s).pending = s.pending ∧ (undoEmb a b s).time = s.time ∧ (undoEmb a b s).id = s.id ∧ (undoEmb a b s).mem = s.mem ∧ (undoEmb a b s).fab = s.fab ∧ (undoEmb a b s).srv = s.srv ∧ (undoEmb a b s).ops = s.ops ∧ (undoEmb a b s).exu = s.exu ∧ (undoEmb a b s).coll = s.coll ∧ (undoEmb a b s).pw = s.pw ∧ (undoEmb a b s).sec = s.sec ∧ (undoEmb a b s).cof = s.cof ∧ (undoEmb a b s).draws = s.draws := by
  simp (disch := first | (intros; (repeat' split) <;> (simp [-Nat.reducePow]; done)) | (intros; dsimp only; (repeat' split) <;> (simp [-Nat.reducePow]; done)) | assumption) [undoEmb, -Nat.reducePow]

@[simp] theorem undoEmb_leaf (a : EmbCmd) (b : Status) (s : State) :
    (undoEmb a b s).hi.lock = s.hi.lock := by
  simp (disch := first | (intros; (repeat' split) <;> (simp [-Nat.reducePow]; done)) | (intros; dsimp only; (repeat' split) <;> (simp [-Nat.reducePow]; done)) | assumption) [undoEmb, -Nat.reducePow]

@[simp] theorem loseEmb_frame (a : EmbCmd) (b : ℕ) (s : State) :
    (loseEmb a b s).pending = s.pending ∧ (loseEmb a b s).time = s.time ∧ (loseEmb a b s).id = s.id ∧ (loseEmb a b s).mem = s.mem ∧ (loseEmb a b s).fab = s.fab ∧ (loseEmb a b s).srv = s.srv ∧ (loseEmb a b s).ops = s.ops ∧ (loseEmb a b s).exu = s.exu ∧ (loseEmb a b s).coll = s.coll ∧ (loseEmb a b s).pw = s.pw ∧ (loseEmb a b s).sec = s.sec ∧ (loseEmb a b s).cof = s.cof ∧ (loseEmb a b s).draws = s.draws := by
  simp (disch := first | (intros; (repeat' split) <;> (simp [-Nat.reducePow]; done)) | (intros; dsimp only; (repeat' split) <;> (simp [-Nat.reducePow]; done)) | assumption) [loseEmb, -Nat.reducePow]

@[simp] theorem loseEmb_leaf (a : EmbCmd) (b : ℕ) (s : State) :
    (loseEmb a b s).hi.lock = s.hi.lock := by
  simp (disch := first | (intros; (repeat' split) <;> (simp [-Nat.reducePow]; done)) | (intros; dsimp only; (repeat' split) <;> (simp [-Nat.reducePow]; done)) | assumption) [loseEmb, -Nat.reducePow]

@[simp] theorem loseExu_frame (a : ℕ) (b : ℕ) (c : ExuType) (d : ExuRec) (s : State) :
    (loseExu a b c d s).pending = s.pending ∧ (loseExu a b c d s).time = s.time ∧ (loseExu a b c d s).id = s.id ∧ (loseExu a b c d s).fab = s.fab ∧ (loseExu a b c d s).ops = s.ops ∧ (loseExu a b c d s).coll = s.coll ∧ (loseExu a b c d s).pw = s.pw ∧ (loseExu a b c d s).sec = s.sec ∧ (loseExu a b c d s).draws = s.draws := by
  simp only [loseExu]
  repeat' split
  all_goals simp

@[simp] theorem loseExu_leaf (a : ℕ) (b : ℕ) (c : ExuType) (d : ExuRec) (s : State) :
    (loseExu a b c d s).hi.lock = s.hi.lock := by
  simp only [loseExu]
  repeat' split
  all_goals simp

@[simp] theorem sendExu_frame (a : ℕ) (b : ℕ) (c : ExuType) (d : ExuRec) (s : State) :
    (sendExu a b c d s).pending = s.pending ∧ (sendExu a b c d s).time = s.time ∧ (sendExu a b c d s).id = s.id ∧ (sendExu a b c d s).fab = s.fab ∧ (sendExu a b c d s).ops = s.ops ∧ (sendExu a b c d s).coll = s.coll ∧ (sendExu a b c d s).pw = s.pw ∧ (sendExu a b c d s).sec = s.sec ∧ (sendExu a b c d s).draws = s.draws := by
  simp [sendExu]

@[simp] theorem sendExu_leaf (a : ℕ) (b : ℕ) (c : ExuType) (d : ExuRec) (s : State) :
    (sendExu a b c d s).hi.lock = s.hi.lock := by
  simp [sendExu]

@[simp] theorem arrive_pending (a : ExuType) (b : ExuRec) (c : State → State) (s : State) (h : ∀ s, (c s).pending = s.pending) :
    (arrive a b c s).pending = s.pending := by
  unfold arrive; (try dsimp only); (repeat' split) <;> first | (simp [h]; done) | simp_all

@[simp] theorem arrive_time (a : ExuType) (b : ExuRec) (c : State → State) (s : State) (h : ∀ s, (c s).time = s.time) :
    (arrive a b c s).time = s.time := by
  unfold arrive; (try dsimp only); (repeat' split) <;> first | (simp [h]; done) | simp_all

@[simp] theorem arrive_id (a : ExuType) (b : ExuRec) (c : State → State) (s : State) (h : ∀ s, (c s).id = s.id) :
    (arrive a b c s).id = s.id := by
  unfold arrive; (try dsimp only); (repeat' split) <;> first | (simp [h]; done) | simp_all

@[simp] theorem arrive_fab (a : ExuType) (b : ExuRec) (c : State → State) (s : State) (h : ∀ s, (c s).fab = s.fab) :
    (arrive a b c s).fab = s.fab := by
  unfold arrive; (try dsimp only); (repeat' split) <;> first | (simp [h]; done) | simp_all

@[simp] theorem arrive_ops (a : ExuType) (b : ExuRec) (c : State → State) (s : State) (h : ∀ s, (c s).ops = s.ops) :
    (arrive a b c s).ops = s.ops := by
  unfold arrive; (try dsimp only); (repeat' split) <;> first | (simp [h]; done) | simp_all

@[simp] theorem arrive_coll (a : ExuType) (b : ExuRec) (c : State → State) (s : State) (h : ∀ s, (c s).coll = s.coll) :
    (arrive a b c s).coll = s.coll := by
  unfold arrive; (try dsimp only); (repeat' split) <;> first | (simp [h]; done) | simp_all

@[simp] theorem arrive_pw (a : ExuType) (b : ExuRec) (c : State → State) (s : State) (h : ∀ s, (c s).pw = s.pw) :
    (arrive a b c s).pw = s.pw := by
  unfold arrive; (try dsimp only); (repeat' split) <;> first | (simp [h]; done) | simp_all

@[simp] theorem arrive_sec (a : ExuType) (b : ExuRec) (c : State → State) (s : State) (h : ∀ s, (c s).sec = s.sec) :
    (arrive a b c s).sec = s.sec := by
  unfold arrive; (try dsimp only); (repeat' split) <;> first | (simp [h]; done) | simp_all

@[simp] theorem arrive_draws (a : ExuType) (b : ExuRec) (c : State → State) (s : State) (h : ∀ s, (c s).draws = s.draws) :
    (arrive a b c s).draws = s.draws := by
  unfold arrive; (try dsimp only); (repeat' split) <;> first | (simp [h]; done) | simp_all

@[simp] theorem arrive_fab_scratch (a : ExuType) (b : ExuRec) (c : State → State) (s : State) (h : ∀ s, (c s).fab.scratch = s.fab.scratch) :
    (arrive a b c s).fab.scratch = s.fab.scratch := by
  unfold arrive; (try dsimp only); (repeat' split) <;> first | (simp [h]; done) | simp_all

@[simp] theorem arrive_hi_lock (a : ExuType) (b : ExuRec) (c : State → State) (s : State) (h : ∀ s, (c s).hi.lock = s.hi.lock) :
    (arrive a b c s).hi.lock = s.hi.lock := by
  unfold arrive; (try dsimp only); (repeat' split) <;> first | (simp [h]; done) | simp_all

@[simp] theorem arrive_sec_life (a : ExuType) (b : ExuRec) (c : State → State) (s : State) (h : ∀ s, (c s).sec.life = s.sec.life) :
    (arrive a b c s).sec.life = s.sec.life := by
  unfold arrive; (try dsimp only); (repeat' split) <;> first | (simp [h]; done) | simp_all

@[simp] theorem arrive_sec_mboxBuf (a : ExuType) (b : ExuRec) (c : State → State) (s : State) (h : ∀ s, (c s).sec.mboxBuf = s.sec.mboxBuf) :
    (arrive a b c s).sec.mboxBuf = s.sec.mboxBuf := by
  unfold arrive; (try dsimp only); (repeat' split) <;> first | (simp [h]; done) | simp_all

@[simp] theorem arrive_pw_st (a : ExuType) (b : ExuRec) (c : State → State) (s : State) (h : ∀ s, (c s).pw.st = s.pw.st) :
    (arrive a b c s).pw.st = s.pw.st := by
  unfold arrive; (try dsimp only); (repeat' split) <;> first | (simp [h]; done) | simp_all

@[simp] theorem respExu_frame (a : RespPkt) (s : State) :
    (respExu a s).pending = s.pending ∧ (respExu a s).time = s.time ∧ (respExu a s).id = s.id ∧ (respExu a s).fab = s.fab ∧ (respExu a s).ops = s.ops ∧ (respExu a s).coll = s.coll ∧ (respExu a s).pw = s.pw ∧ (respExu a s).sec = s.sec ∧ (respExu a s).draws = s.draws := by
  simp [respExu]

@[simp] theorem respExu_leaf (a : RespPkt) (s : State) :
    (respExu a s).hi.lock = s.hi.lock := by
  simp [respExu]

@[simp] theorem nextExchange_frame (a : ℕ) (b : ℕ) (c : ℕ) (s : State) :
    (nextExchange a b c s).2.pending = s.pending ∧ (nextExchange a b c s).2.time = s.time ∧ (nextExchange a b c s).2.id = s.id ∧ (nextExchange a b c s).2.hi = s.hi ∧ (nextExchange a b c s).2.ctxs = s.ctxs ∧ (nextExchange a b c s).2.mem = s.mem ∧ (nextExchange a b c s).2.fab = s.fab ∧ (nextExchange a b c s).2.srv = s.srv ∧ (nextExchange a b c s).2.ops = s.ops ∧ (nextExchange a b c s).2.mdl = s.mdl ∧ (nextExchange a b c s).2.coll = s.coll ∧ (nextExchange a b c s).2.xn = s.xn ∧ (nextExchange a b c s).2.pw = s.pw ∧ (nextExchange a b c s).2.sec = s.sec ∧ (nextExchange a b c s).2.td = s.td ∧ (nextExchange a b c s).2.cof = s.cof ∧ (nextExchange a b c s).2.draws = s.draws ∧ (nextExchange a b c s).2.out = s.out := by
  simp [nextExchange]

@[simp] theorem reachAll_pending (a : ℕ) (b : List ℕ) (c : State → State) (s : State) (h : ∀ s, (c s).pending = s.pending) :
    (reachAll a b c s).pending = s.pending := by
  unfold reachAll; (try dsimp only); (repeat' split) <;> first | (simp [h]; done) | simp_all

@[simp] theorem reachAll_time (a : ℕ) (b : List ℕ) (c : State → State) (s : State) (h : ∀ s, (c s).time = s.time) :
    (reachAll a b c s).time = s.time := by
  unfold reachAll; (try dsimp only); (repeat' split) <;> first | (simp [h]; done) | simp_all

@[simp] theorem reachAll_id (a : ℕ) (b : List ℕ) (c : State → State) (s : State) (h : ∀ s, (c s).id = s.id) :
    (reachAll a b c s).id = s.id := by
  unfold reachAll; (try dsimp only); (repeat' split) <;> first | (simp [h]; done) | simp_all

@[simp] theorem reachAll_fab (a : ℕ) (b : List ℕ) (c : State → State) (s : State) (h : ∀ s, (c s).fab = s.fab) :
    (reachAll a b c s).fab = s.fab := by
  unfold reachAll; (try dsimp only); (repeat' split) <;> first | (simp [h]; done) | simp_all

@[simp] theorem reachAll_ops (a : ℕ) (b : List ℕ) (c : State → State) (s : State) (h : ∀ s, (c s).ops = s.ops) :
    (reachAll a b c s).ops = s.ops := by
  unfold reachAll; (try dsimp only); (repeat' split) <;> first | (simp [h]; done) | simp_all

@[simp] theorem reachAll_coll (a : ℕ) (b : List ℕ) (c : State → State) (s : State) (h : ∀ s, (c s).coll = s.coll) :
    (reachAll a b c s).coll = s.coll := by
  unfold reachAll; (try dsimp only); (repeat' split) <;> first | (simp [h]; done) | simp_all

@[simp] theorem reachAll_pw (a : ℕ) (b : List ℕ) (c : State → State) (s : State) (h : ∀ s, (c s).pw = s.pw) :
    (reachAll a b c s).pw = s.pw := by
  unfold reachAll; (try dsimp only); (repeat' split) <;> first | (simp [h]; done) | simp_all

@[simp] theorem reachAll_sec (a : ℕ) (b : List ℕ) (c : State → State) (s : State) (h : ∀ s, (c s).sec = s.sec) :
    (reachAll a b c s).sec = s.sec := by
  unfold reachAll; (try dsimp only); (repeat' split) <;> first | (simp [h]; done) | simp_all

@[simp] theorem reachAll_draws (a : ℕ) (b : List ℕ) (c : State → State) (s : State) (h : ∀ s, (c s).draws = s.draws) :
    (reachAll a b c s).draws = s.draws := by
  unfold reachAll; (try dsimp only); (repeat' split) <;> first | (simp [h]; done) | simp_all

@[simp] theorem reachAll_fab_scratch (a : ℕ) (b : List ℕ) (c : State → State) (s : State) (h : ∀ s, (c s).fab.scratch = s.fab.scratch) :
    (reachAll a b c s).fab.scratch = s.fab.scratch := by
  unfold reachAll; (try dsimp only); (repeat' split) <;> first | (simp [h]; done) | simp_all

@[simp] theorem reachAll_hi_lock (a : ℕ) (b : List ℕ) (c : State → State) (s : State) (h : ∀ s, (c s).hi.lock = s.hi.lock) :
    (reachAll a b c s).hi.lock = s.hi.lock := by
  unfold reachAll; (try dsimp only); (repeat' split) <;> first | (simp [h]; done) | simp_all

@[simp] theorem reachAll_sec_life (a : ℕ) (b : List ℕ) (c : State → State) (s : State) (h : ∀ s, (c s).sec.life = s.sec.life) :
    (reachAll a b c s).sec.life = s.sec.life := by
  unfold reachAll; (try dsimp only); (repeat' split) <;> first | (simp [h]; done) | simp_all

@[simp] theorem reachAll_sec_mboxBuf (a : ℕ) (b : List ℕ) (c : State → State) (s : State) (h : ∀ s, (c s).sec.mboxBuf = s.sec.mboxBuf) :
    (reachAll a b c s).sec.mboxBuf = s.sec.mboxBuf := by
  unfold reachAll; (try dsimp only); (repeat' split) <;> first | (simp [h]; done) | simp_all

@[simp] theorem reachAll_pw_st (a : ℕ) (b : List ℕ) (c : State → State) (s : State) (h : ∀ s, (c s).pw.st = s.pw.st) :
    (reachAll a b c s).pw.st = s.pw.st := by
  unfold reachAll; (try dsimp only); (repeat' split) <;> first | (simp [h]; done) | simp_all

@[simp] theorem writeSpans_frame (a : List (ℕ × ℕ)) (b : List Byte) (s : State) :
    (writeSpans a b s).pending = s.pending ∧ (writeSpans a b s).time = s.time ∧ (writeSpans a b s).id = s.id ∧ (writeSpans a b s).hi = s.hi ∧ (writeSpans a b s).ctxs = s.ctxs ∧ (writeSpans a b s).fab = s.fab ∧ (writeSpans a b s).srv = s.srv ∧ (writeSpans a b s).ops = s.ops ∧ (writeSpans a b s).mdl = s.mdl ∧ (writeSpans a b s).exu = s.exu ∧ (writeSpans a b s).coll = s.coll ∧ (writeSpans a b s).xn = s.xn ∧ (writeSpans a b s).pw = s.pw ∧ (writeSpans a b s).sec = s.sec ∧ (writeSpans a b s).td = s.td ∧ (writeSpans a b s).cof = s.cof ∧ (writeSpans a b s).draws = s.draws ∧ (writeSpans a b s).out = s.out := by
  induction a generalizing b s with
  | nil => simp [writeSpans]
  | cons y m ih =>
    unfold writeSpans
    try dsimp only
    repeat' split
    all_goals simp [ih]

@[simp] theorem putSlot_frame (a : List (ℕ × ℕ)) (b : ℕ) (c : SlotVal) (s : State) :
    (putSlot a b c s).pending = s.pending ∧ (putSlot a b c s).time = s.time ∧ (putSlot a b c s).id = s.id ∧ (putSlot a b c s).hi = s.hi ∧ (putSlot a b c s).ctxs = s.ctxs ∧ (putSlot a b c s).fab = s.fab ∧ (putSlot a b c s).srv = s.srv ∧ (putSlot a b c s).ops = s.ops ∧ (putSlot a b c s).mdl = s.mdl ∧ (putSlot a b c s).exu = s.exu ∧ (putSlot a b c s).coll = s.coll ∧ (putSlot a b c s).xn = s.xn ∧ (putSlot a b c s).pw = s.pw ∧ (putSlot a b c s).sec = s.sec ∧ (putSlot a b c s).td = s.td ∧ (putSlot a b c s).cof = s.cof ∧ (putSlot a b c s).draws = s.draws ∧ (putSlot a b c s).out = s.out := by
  simp [putSlot]

@[simp] theorem modHome_frame (a : HomeEx) (s : State) :
    (modHome a s).pending = s.pending ∧ (modHome a s).time = s.time ∧ (modHome a s).id = s.id ∧ (modHome a s).hi = s.hi ∧ (modHome a s).ctxs = s.ctxs ∧ (modHome a s).mem = s.mem ∧ (modHome a s).fab = s.fab ∧ (modHome a s).srv = s.srv ∧ (modHome a s).ops = s.ops ∧ (modHome a s).mdl = s.mdl ∧ (modHome a s).coll = s.coll ∧ (modHome a s).xn = s.xn ∧ (modHome a s).pw = s.pw ∧ (modHome a s).sec = s.sec ∧ (modHome a s).td = s.td ∧ (modHome a s).cof = s.cof ∧ (modHome a s).draws = s.draws ∧ (modHome a s).out = s.out := by
  simp [modHome]

@[simp] theorem moeDispatch_frame (a : ℕ) (b : ℕ) (c : List MoeToken) (s : State) :
    (moeDispatch a b c s).pending = s.pending ∧ (moeDispatch a b c s).time = s.time ∧ (moeDispatch a b c s).id = s.id ∧ (moeDispatch a b c s).sec = s.sec ∧ (moeDispatch a b c s).draws = s.draws := by
  unfold moeDispatch
  try dsimp only
  repeat' split
  all_goals simp (disch := first | (intros; (repeat' split) <;> (simp [-Nat.reducePow]; done)) | (intros; dsimp only; (repeat' split) <;> (simp [-Nat.reducePow]; done)) | assumption)

@[simp] theorem moeDispatch_leaf (a : ℕ) (b : ℕ) (c : List MoeToken) (s : State) :
    (moeDispatch a b c s).hi.lock = s.hi.lock ∧ (moeDispatch a b c s).pw.st = s.pw.st := by
  unfold moeDispatch
  try dsimp only
  repeat' split
  all_goals simp (disch := first | (intros; (repeat' split) <;> (simp [-Nat.reducePow]; done)) | (intros; dsimp only; (repeat' split) <;> (simp [-Nat.reducePow]; done)) | assumption)

@[simp] theorem modExpert_frame (a : ExuRec) (b : ExpertEx → ExpertEx) (s : State) :
    (modExpert a b s).pending = s.pending ∧ (modExpert a b s).time = s.time ∧ (modExpert a b s).id = s.id ∧ (modExpert a b s).hi = s.hi ∧ (modExpert a b s).ctxs = s.ctxs ∧ (modExpert a b s).mem = s.mem ∧ (modExpert a b s).fab = s.fab ∧ (modExpert a b s).srv = s.srv ∧ (modExpert a b s).ops = s.ops ∧ (modExpert a b s).mdl = s.mdl ∧ (modExpert a b s).coll = s.coll ∧ (modExpert a b s).xn = s.xn ∧ (modExpert a b s).pw = s.pw ∧ (modExpert a b s).sec = s.sec ∧ (modExpert a b s).td = s.td ∧ (modExpert a b s).cof = s.cof ∧ (modExpert a b s).draws = s.draws ∧ (modExpert a b s).out = s.out := by
  simp [modExpert]

@[simp] theorem closeRounds_frame (a : ExuRec) (b : ℕ) (s : State) :
    (closeRounds a b s).pending = s.pending ∧ (closeRounds a b s).time = s.time ∧ (closeRounds a b s).id = s.id ∧ (closeRounds a b s).sec = s.sec ∧ (closeRounds a b s).draws = s.draws := by
  induction b generalizing a s with
  | zero => simp [closeRounds]
  | succ m ih =>
    unfold closeRounds
    try dsimp only
    repeat' split
    all_goals simp [ih]

@[simp] theorem closeRounds_leaf (a : ExuRec) (b : ℕ) (s : State) :
    (closeRounds a b s).hi.lock = s.hi.lock ∧ (closeRounds a b s).pw.st = s.pw.st := by
  induction b generalizing a s with
  | zero => simp [closeRounds]
  | succ m ih =>
    unfold closeRounds
    try dsimp only
    repeat' split
    all_goals simp [ih]

@[simp] theorem expertRec_frame (a : Bool × ExuRec) (s : State) :
    (expertRec a s).pending = s.pending ∧ (expertRec a s).time = s.time ∧ (expertRec a s).id = s.id ∧ (expertRec a s).sec = s.sec ∧ (expertRec a s).draws = s.draws := by
  simp only [expertRec]
  repeat' split
  all_goals simp

@[simp] theorem expertRec_leaf (a : Bool × ExuRec) (s : State) :
    (expertRec a s).hi.lock = s.hi.lock ∧ (expertRec a s).pw.st = s.pw.st := by
  simp only [expertRec]
  repeat' split
  all_goals simp

@[simp] theorem retryFuel_frame (a : ℕ) (s : State) :
    (retryFuel a s).pending = s.pending ∧ (retryFuel a s).time = s.time ∧ (retryFuel a s).id = s.id ∧ (retryFuel a s).sec = s.sec ∧ (retryFuel a s).draws = s.draws := by
  induction a generalizing s with
  | zero => simp [retryFuel]
  | succ m ih =>
    unfold retryFuel
    try dsimp only
    repeat' split
    all_goals simp [ih]

@[simp] theorem retryFuel_leaf (a : ℕ) (s : State) :
    (retryFuel a s).hi.lock = s.hi.lock ∧ (retryFuel a s).pw.st = s.pw.st := by
  induction a generalizing s with
  | zero => simp [retryFuel]
  | succ m ih =>
    unfold retryFuel
    try dsimp only
    repeat' split
    all_goals simp [ih]

@[simp] theorem retryWaiting_frame (s : State) :
    (retryWaiting s).pending = s.pending ∧ (retryWaiting s).time = s.time ∧ (retryWaiting s).id = s.id ∧ (retryWaiting s).sec = s.sec ∧ (retryWaiting s).draws = s.draws := by
  simp [retryWaiting]

@[simp] theorem retryWaiting_leaf (s : State) :
    (retryWaiting s).hi.lock = s.hi.lock ∧ (retryWaiting s).pw.st = s.pw.st := by
  simp [retryWaiting]

@[simp] theorem addReturn_frame (a : ExuRec) (b : HomeEx) (s : State) :
    (addReturn a b s).pending = s.pending ∧ (addReturn a b s).time = s.time ∧ (addReturn a b s).id = s.id ∧ (addReturn a b s).sec = s.sec ∧ (addReturn a b s).draws = s.draws := by
  simp only [addReturn]
  repeat' split
  all_goals simp

@[simp] theorem addReturn_leaf (a : ExuRec) (b : HomeEx) (s : State) :
    (addReturn a b s).hi.lock = s.hi.lock ∧ (addReturn a b s).pw.st = s.pw.st := by
  simp only [addReturn]
  repeat' split
  all_goals simp

@[simp] theorem settleSlot_frame (a : ℕ) (b : SlotRow) (c : ℕ) (s : State) :
    (settleSlot a b c s).pending = s.pending ∧ (settleSlot a b c s).time = s.time ∧ (settleSlot a b c s).id = s.id ∧ (settleSlot a b c s).fab = s.fab ∧ (settleSlot a b c s).ops = s.ops ∧ (settleSlot a b c s).coll = s.coll ∧ (settleSlot a b c s).pw = s.pw ∧ (settleSlot a b c s).sec = s.sec ∧ (settleSlot a b c s).cof = s.cof ∧ (settleSlot a b c s).draws = s.draws := by
  simp only [settleSlot]
  repeat' split
  all_goals simp

@[simp] theorem settleSlot_leaf (a : ℕ) (b : SlotRow) (c : ℕ) (s : State) :
    (settleSlot a b c s).hi.lock = s.hi.lock := by
  simp only [settleSlot]
  repeat' split
  all_goals simp

@[simp] theorem combine_frame (a : HomeEx) (s : State) :
    (combine a s).pending = s.pending ∧ (combine a s).time = s.time ∧ (combine a s).id = s.id ∧ (combine a s).sec = s.sec ∧ (combine a s).draws = s.draws := by
  unfold combine
  try dsimp only
  repeat' split
  all_goals simp (disch := first | (intros; (repeat' split) <;> (simp [-Nat.reducePow]; done)) | (intros; dsimp only; (repeat' split) <;> (simp [-Nat.reducePow]; done)) | assumption)

@[simp] theorem combine_leaf (a : HomeEx) (s : State) :
    (combine a s).hi.lock = s.hi.lock ∧ (combine a s).pw.st = s.pw.st := by
  unfold combine
  try dsimp only
  repeat' split
  all_goals simp (disch := first | (intros; (repeat' split) <;> (simp [-Nat.reducePow]; done)) | (intros; dsimp only; (repeat' split) <;> (simp [-Nat.reducePow]; done)) | assumption)

@[simp] theorem atHome_pending (a : ExuRec) (b : HomeEx → State → State) (s : State) (h : ∀ x s, (b x s).pending = s.pending) :
    (atHome a b s).pending = s.pending := by
  unfold atHome; (try dsimp only); (repeat' split) <;> first | (simp [h]; done) | simp_all

@[simp] theorem atHome_time (a : ExuRec) (b : HomeEx → State → State) (s : State) (h : ∀ x s, (b x s).time = s.time) :
    (atHome a b s).time = s.time := by
  unfold atHome; (try dsimp only); (repeat' split) <;> first | (simp [h]; done) | simp_all

@[simp] theorem atHome_id (a : ExuRec) (b : HomeEx → State → State) (s : State) (h : ∀ x s, (b x s).id = s.id) :
    (atHome a b s).id = s.id := by
  unfold atHome; (try dsimp only); (repeat' split) <;> first | (simp [h]; done) | simp_all

@[simp] theorem atHome_sec (a : ExuRec) (b : HomeEx → State → State) (s : State) (h : ∀ x s, (b x s).sec = s.sec) :
    (atHome a b s).sec = s.sec := by
  unfold atHome; (try dsimp only); (repeat' split) <;> first | (simp [h]; done) | simp_all

@[simp] theorem atHome_draws (a : ExuRec) (b : HomeEx → State → State) (s : State) (h : ∀ x s, (b x s).draws = s.draws) :
    (atHome a b s).draws = s.draws := by
  unfold atHome; (try dsimp only); (repeat' split) <;> first | (simp [h]; done) | simp_all

@[simp] theorem atHome_hi_lock (a : ExuRec) (b : HomeEx → State → State) (s : State) (h : ∀ x s, (b x s).hi.lock = s.hi.lock) :
    (atHome a b s).hi.lock = s.hi.lock := by
  unfold atHome; (try dsimp only); (repeat' split) <;> first | (simp [h]; done) | simp_all

@[simp] theorem atHome_sec_life (a : ExuRec) (b : HomeEx → State → State) (s : State) (h : ∀ x s, (b x s).sec.life = s.sec.life) :
    (atHome a b s).sec.life = s.sec.life := by
  unfold atHome; (try dsimp only); (repeat' split) <;> first | (simp [h]; done) | simp_all

@[simp] theorem atHome_sec_mboxBuf (a : ExuRec) (b : HomeEx → State → State) (s : State) (h : ∀ x s, (b x s).sec.mboxBuf = s.sec.mboxBuf) :
    (atHome a b s).sec.mboxBuf = s.sec.mboxBuf := by
  unfold atHome; (try dsimp only); (repeat' split) <;> first | (simp [h]; done) | simp_all

@[simp] theorem atHome_pw_st (a : ExuRec) (b : HomeEx → State → State) (s : State) (h : ∀ x s, (b x s).pw.st = s.pw.st) :
    (atHome a b s).pw.st = s.pw.st := by
  unfold atHome; (try dsimp only); (repeat' split) <;> first | (simp [h]; done) | simp_all

@[simp] theorem landRows_frame (a : ℕ) (b : ℕ) (c : ℕ) (d : ℕ) (e : List ExuRec) (s : State) :
    (landRows a b c d e s).pending = s.pending ∧ (landRows a b c d e s).time = s.time ∧ (landRows a b c d e s).id = s.id ∧ (landRows a b c d e s).hi = s.hi ∧ (landRows a b c d e s).mem = s.mem ∧ (landRows a b c d e s).srv = s.srv ∧ (landRows a b c d e s).ops = s.ops ∧ (landRows a b c d e s).mdl = s.mdl ∧ (landRows a b c d e s).exu = s.exu ∧ (landRows a b c d e s).coll = s.coll ∧ (landRows a b c d e s).xn = s.xn ∧ (landRows a b c d e s).pw = s.pw ∧ (landRows a b c d e s).sec = s.sec ∧ (landRows a b c d e s).td = s.td ∧ (landRows a b c d e s).cof = s.cof ∧ (landRows a b c d e s).draws = s.draws ∧ (landRows a b c d e s).out = s.out := by
  induction e generalizing a b c d s with
  | nil => simp [landRows]
  | cons y m ih =>
    unfold landRows
    try dsimp only
    repeat' split
    all_goals simp [ih]

@[simp] theorem expertRows_frame (a : ℕ) (b : ℕ) (c : ℕ) (d : ℕ) (e : ℕ) (f : ℕ) (s : State) :
    (expertRows a b c d e f s).pending = s.pending ∧ (expertRows a b c d e f s).time = s.time ∧ (expertRows a b c d e f s).id = s.id ∧ (expertRows a b c d e f s).hi = s.hi ∧ (expertRows a b c d e f s).mem = s.mem ∧ (expertRows a b c d e f s).srv = s.srv ∧ (expertRows a b c d e f s).ops = s.ops ∧ (expertRows a b c d e f s).mdl = s.mdl ∧ (expertRows a b c d e f s).exu = s.exu ∧ (expertRows a b c d e f s).coll = s.coll ∧ (expertRows a b c d e f s).xn = s.xn ∧ (expertRows a b c d e f s).pw = s.pw ∧ (expertRows a b c d e f s).sec = s.sec ∧ (expertRows a b c d e f s).td = s.td ∧ (expertRows a b c d e f s).cof = s.cof ∧ (expertRows a b c d e f s).draws = s.draws ∧ (expertRows a b c d e f s).out = s.out := by
  simp only [expertRows]
  repeat' split
  all_goals simp

@[simp] theorem expertReturn_frame (a : ℕ) (b : ℕ) (c : ℕ) (d : ℕ) (e : ℕ) (f : ℕ) (g : ℕ) (h : ℕ) (s : State) :
    (expertReturn a b c d e f g h s).pending = s.pending ∧ (expertReturn a b c d e f g h s).time = s.time ∧ (expertReturn a b c d e f g h s).id = s.id ∧ (expertReturn a b c d e f g h s).fab = s.fab ∧ (expertReturn a b c d e f g h s).ops = s.ops ∧ (expertReturn a b c d e f g h s).coll = s.coll ∧ (expertReturn a b c d e f g h s).pw = s.pw ∧ (expertReturn a b c d e f g h s).sec = s.sec ∧ (expertReturn a b c d e f g h s).draws = s.draws := by
  simp only [expertReturn]
  repeat' split
  all_goals simp

@[simp] theorem expertReturn_leaf (a : ℕ) (b : ℕ) (c : ℕ) (d : ℕ) (e : ℕ) (f : ℕ) (g : ℕ) (h : ℕ) (s : State) :
    (expertReturn a b c d e f g h s).hi.lock = s.hi.lock := by
  simp only [expertReturn]
  repeat' split
  all_goals simp

@[simp] theorem expertDone_frame (a : ℕ) (b : ℕ) (c : ℕ) (s : State) :
    (expertDone a b c s).pending = s.pending ∧ (expertDone a b c s).time = s.time ∧ (expertDone a b c s).id = s.id ∧ (expertDone a b c s).sec = s.sec ∧ (expertDone a b c s).draws = s.draws := by
  simp only [expertDone]
  repeat' split
  all_goals simp

@[simp] theorem expertDone_leaf (a : ℕ) (b : ℕ) (c : ℕ) (s : State) :
    (expertDone a b c s).hi.lock = s.hi.lock ∧ (expertDone a b c s).pw.st = s.pw.st := by
  simp only [expertDone]
  repeat' split
  all_goals simp

@[simp] theorem modEmb_frame (a : ℕ) (b : ℕ) (c : ℕ) (d : EmbState → EmbState) (s : State) :
    (modEmb a b c d s).pending = s.pending ∧ (modEmb a b c d s).time = s.time ∧ (modEmb a b c d s).id = s.id ∧ (modEmb a b c d s).hi = s.hi ∧ (modEmb a b c d s).ctxs = s.ctxs ∧ (modEmb a b c d s).mem = s.mem ∧ (modEmb a b c d s).fab = s.fab ∧ (modEmb a b c d s).srv = s.srv ∧ (modEmb a b c d s).ops = s.ops ∧ (modEmb a b c d s).exu = s.exu ∧ (modEmb a b c d s).coll = s.coll ∧ (modEmb a b c d s).xn = s.xn ∧ (modEmb a b c d s).pw = s.pw ∧ (modEmb a b c d s).sec = s.sec ∧ (modEmb a b c d s).td = s.td ∧ (modEmb a b c d s).cof = s.cof ∧ (modEmb a b c d s).draws = s.draws ∧ (modEmb a b c d s).out = s.out := by
  simp [modEmb]

@[simp] theorem gatherOut_frame (a : ℕ) (b : ℕ) (c : ℕ) (d : Option ℕ) (e : Bool) (f : EmbTable) (g : List Bag) (h : ℕ → BagEx → BagEx) (i : Option ℕ) (s : State) :
    (gatherOut a b c d e f g h i s).pending = s.pending ∧ (gatherOut a b c d e f g h i s).time = s.time ∧ (gatherOut a b c d e f g h i s).id = s.id ∧ (gatherOut a b c d e f g h i s).fab = s.fab ∧ (gatherOut a b c d e f g h i s).ops = s.ops ∧ (gatherOut a b c d e f g h i s).coll = s.coll ∧ (gatherOut a b c d e f g h i s).pw = s.pw ∧ (gatherOut a b c d e f g h i s).sec = s.sec ∧ (gatherOut a b c d e f g h i s).draws = s.draws := by
  simp [gatherOut]

@[simp] theorem gatherOut_leaf (a : ℕ) (b : ℕ) (c : ℕ) (d : Option ℕ) (e : Bool) (f : EmbTable) (g : List Bag) (h : ℕ → BagEx → BagEx) (i : Option ℕ) (s : State) :
    (gatherOut a b c d e f g h i s).hi.lock = s.hi.lock := by
  simp [gatherOut]

@[simp] theorem finishGather_frame (a : ℕ) (s : State) :
    (finishGather a s).pending = s.pending ∧ (finishGather a s).time = s.time ∧ (finishGather a s).id = s.id ∧ (finishGather a s).fab = s.fab ∧ (finishGather a s).ops = s.ops ∧ (finishGather a s).coll = s.coll ∧ (finishGather a s).pw = s.pw ∧ (finishGather a s).sec = s.sec ∧ (finishGather a s).cof = s.cof ∧ (finishGather a s).draws = s.draws := by
  simp only [finishGather]
  repeat' split
  all_goals simp

@[simp] theorem finishGather_leaf (a : ℕ) (s : State) :
    (finishGather a s).hi.lock = s.hi.lock := by
  simp only [finishGather]
  repeat' split
  all_goals simp

@[simp] theorem finishBag_frame (a : BagEx) (s : State) :
    (finishBag a s).pending = s.pending ∧ (finishBag a s).time = s.time ∧ (finishBag a s).id = s.id ∧ (finishBag a s).sec = s.sec ∧ (finishBag a s).draws = s.draws := by
  simp [finishBag]

@[simp] theorem finishBag_leaf (a : BagEx) (s : State) :
    (finishBag a s).hi.lock = s.hi.lock ∧ (finishBag a s).pw.st = s.pw.st := by
  simp [finishBag]

@[simp] theorem takePooled_frame (a : ExuRec) (s : State) :
    (takePooled a s).pending = s.pending ∧ (takePooled a s).time = s.time ∧ (takePooled a s).id = s.id ∧ (takePooled a s).sec = s.sec ∧ (takePooled a s).draws = s.draws := by
  simp only [takePooled]
  repeat' split
  all_goals simp

@[simp] theorem takePooled_leaf (a : ExuRec) (s : State) :
    (takePooled a s).hi.lock = s.hi.lock ∧ (takePooled a s).pw.st = s.pw.st := by
  simp only [takePooled]
  repeat' split
  all_goals simp

@[simp] theorem modGather_frame (a : ℕ) (b : ExuRec) (c : GatherEx → GatherEx) (s : State) :
    (modGather a b c s).pending = s.pending ∧ (modGather a b c s).time = s.time ∧ (modGather a b c s).id = s.id ∧ (modGather a b c s).fab = s.fab ∧ (modGather a b c s).ops = s.ops ∧ (modGather a b c s).coll = s.coll ∧ (modGather a b c s).pw = s.pw ∧ (modGather a b c s).sec = s.sec ∧ (modGather a b c s).draws = s.draws := by
  simp [modGather]

@[simp] theorem modGather_leaf (a : ℕ) (b : ExuRec) (c : GatherEx → GatherEx) (s : State) :
    (modGather a b c s).hi.lock = s.hi.lock := by
  simp [modGather]

@[simp] theorem gatherRec_frame (a : ExuRec) (s : State) :
    (gatherRec a s).pending = s.pending ∧ (gatherRec a s).time = s.time ∧ (gatherRec a s).id = s.id ∧ (gatherRec a s).fab = s.fab ∧ (gatherRec a s).ops = s.ops ∧ (gatherRec a s).coll = s.coll ∧ (gatherRec a s).pw = s.pw ∧ (gatherRec a s).sec = s.sec ∧ (gatherRec a s).draws = s.draws := by
  simp only [gatherRec]
  repeat' split
  all_goals simp

@[simp] theorem gatherRec_leaf (a : ExuRec) (s : State) :
    (gatherRec a s).hi.lock = s.hi.lock := by
  simp only [gatherRec]
  repeat' split
  all_goals simp

@[simp] theorem retryStalled_frame (s : State) :
    (retryStalled s).pending = s.pending ∧ (retryStalled s).time = s.time ∧ (retryStalled s).id = s.id ∧ (retryStalled s).fab = s.fab ∧ (retryStalled s).ops = s.ops ∧ (retryStalled s).coll = s.coll ∧ (retryStalled s).pw = s.pw ∧ (retryStalled s).sec = s.sec ∧ (retryStalled s).draws = s.draws := by
  simp [retryStalled]

@[simp] theorem retryStalled_leaf (s : State) :
    (retryStalled s).hi.lock = s.hi.lock := by
  simp [retryStalled]

@[simp] theorem closeRec_frame (a : ExuRec) (s : State) :
    (closeRec a s).pending = s.pending ∧ (closeRec a s).time = s.time ∧ (closeRec a s).id = s.id ∧ (closeRec a s).sec = s.sec ∧ (closeRec a s).draws = s.draws := by
  simp only [closeRec]
  repeat' split
  all_goals simp

@[simp] theorem closeRec_leaf (a : ExuRec) (s : State) :
    (closeRec a s).hi.lock = s.hi.lock ∧ (closeRec a s).pw.st = s.pw.st := by
  simp only [closeRec]
  repeat' split
  all_goals simp

@[simp] theorem postGather_frame (a : ℕ) (b : ℕ) (c : List Bag) (d : ℕ) (e : ℕ) (f : ℕ) (g : ℕ) (s : State) :
    (postGather a b c d e f g s).pending = s.pending ∧ (postGather a b c d e f g s).time = s.time ∧ (postGather a b c d e f g s).id = s.id ∧ (postGather a b c d e f g s).sec = s.sec ∧ (postGather a b c d e f g s).draws = s.draws := by
  simp only [postGather]
  repeat' split
  all_goals simp

@[simp] theorem postGather_leaf (a : ℕ) (b : ℕ) (c : List Bag) (d : ℕ) (e : ℕ) (f : ℕ) (g : ℕ) (s : State) :
    (postGather a b c d e f g s).hi.lock = s.hi.lock ∧ (postGather a b c d e f g s).pw.st = s.pw.st := by
  simp only [postGather]
  repeat' split
  all_goals simp

@[simp] theorem nextEmbEx_frame (a : ℕ) (b : ℕ) (s : State) :
    (nextEmbEx a b s).2.pending = s.pending ∧ (nextEmbEx a b s).2.time = s.time ∧ (nextEmbEx a b s).2.id = s.id ∧ (nextEmbEx a b s).2.hi = s.hi ∧ (nextEmbEx a b s).2.ctxs = s.ctxs ∧ (nextEmbEx a b s).2.mem = s.mem ∧ (nextEmbEx a b s).2.fab = s.fab ∧ (nextEmbEx a b s).2.srv = s.srv ∧ (nextEmbEx a b s).2.ops = s.ops ∧ (nextEmbEx a b s).2.exu = s.exu ∧ (nextEmbEx a b s).2.coll = s.coll ∧ (nextEmbEx a b s).2.xn = s.xn ∧ (nextEmbEx a b s).2.pw = s.pw ∧ (nextEmbEx a b s).2.sec = s.sec ∧ (nextEmbEx a b s).2.td = s.td ∧ (nextEmbEx a b s).2.cof = s.cof ∧ (nextEmbEx a b s).2.draws = s.draws ∧ (nextEmbEx a b s).2.out = s.out := by
  simp [nextEmbEx]

@[simp] theorem addEmbCmd_frame (a : EmbCmd) (s : State) :
    (addEmbCmd a s).pending = s.pending ∧ (addEmbCmd a s).time = s.time ∧ (addEmbCmd a s).id = s.id ∧ (addEmbCmd a s).hi = s.hi ∧ (addEmbCmd a s).ctxs = s.ctxs ∧ (addEmbCmd a s).mem = s.mem ∧ (addEmbCmd a s).fab = s.fab ∧ (addEmbCmd a s).srv = s.srv ∧ (addEmbCmd a s).ops = s.ops ∧ (addEmbCmd a s).exu = s.exu ∧ (addEmbCmd a s).coll = s.coll ∧ (addEmbCmd a s).xn = s.xn ∧ (addEmbCmd a s).pw = s.pw ∧ (addEmbCmd a s).sec = s.sec ∧ (addEmbCmd a s).td = s.td ∧ (addEmbCmd a s).cof = s.cof ∧ (addEmbCmd a s).draws = s.draws ∧ (addEmbCmd a s).out = s.out := by
  simp [addEmbCmd]

@[simp] theorem updateRec_frame (a : ExuRec) (s : State) :
    (updateRec a s).pending = s.pending ∧ (updateRec a s).time = s.time ∧ (updateRec a s).id = s.id ∧ (updateRec a s).hi = s.hi ∧ (updateRec a s).fab = s.fab ∧ (updateRec a s).srv = s.srv ∧ (updateRec a s).ops = s.ops ∧ (updateRec a s).exu = s.exu ∧ (updateRec a s).coll = s.coll ∧ (updateRec a s).pw = s.pw ∧ (updateRec a s).sec = s.sec ∧ (updateRec a s).cof = s.cof ∧ (updateRec a s).draws = s.draws := by
  simp only [updateRec]
  repeat' split
  all_goals simp

@[simp] theorem applyGen_frame (a : ℕ) (b : Bool) (c : Option (ℕ × ℕ)) (d : ExuRec) (s : State) :
    (applyGen a b c d s).pending = s.pending ∧ (applyGen a b c d s).time = s.time ∧ (applyGen a b c d s).id = s.id ∧ (applyGen a b c d s).hi = s.hi ∧ (applyGen a b c d s).mem = s.mem ∧ (applyGen a b c d s).fab = s.fab ∧ (applyGen a b c d s).srv = s.srv ∧ (applyGen a b c d s).ops = s.ops ∧ (applyGen a b c d s).exu = s.exu ∧ (applyGen a b c d s).coll = s.coll ∧ (applyGen a b c d s).pw = s.pw ∧ (applyGen a b c d s).sec = s.sec ∧ (applyGen a b c d s).cof = s.cof ∧ (applyGen a b c d s).draws = s.draws := by
  simp [applyGen]

@[simp] theorem commitRec_frame (a : ExuRec) (s : State) :
    (commitRec a s).pending = s.pending ∧ (commitRec a s).time = s.time ∧ (commitRec a s).id = s.id ∧ (commitRec a s).hi = s.hi ∧ (commitRec a s).mem = s.mem ∧ (commitRec a s).fab = s.fab ∧ (commitRec a s).srv = s.srv ∧ (commitRec a s).ops = s.ops ∧ (commitRec a s).exu = s.exu ∧ (commitRec a s).coll = s.coll ∧ (commitRec a s).pw = s.pw ∧ (commitRec a s).sec = s.sec ∧ (commitRec a s).cof = s.cof ∧ (commitRec a s).draws = s.draws := by
  simp only [commitRec]
  repeat' split
  all_goals simp

@[simp] theorem settleRec_frame (a : ExuRec) (s : State) :
    (settleRec a s).pending = s.pending ∧ (settleRec a s).time = s.time ∧ (settleRec a s).id = s.id ∧ (settleRec a s).hi = s.hi ∧ (settleRec a s).fab = s.fab ∧ (settleRec a s).srv = s.srv ∧ (settleRec a s).ops = s.ops ∧ (settleRec a s).exu = s.exu ∧ (settleRec a s).coll = s.coll ∧ (settleRec a s).pw = s.pw ∧ (settleRec a s).sec = s.sec ∧ (settleRec a s).cof = s.cof ∧ (settleRec a s).draws = s.draws := by
  simp only [settleRec]
  repeat' split
  all_goals simp

@[simp] theorem startSettle_frame (a : EmbCmd) (s : State) :
    (startSettle a s).pending = s.pending ∧ (startSettle a s).time = s.time ∧ (startSettle a s).id = s.id ∧ (startSettle a s).fab = s.fab ∧ (startSettle a s).ops = s.ops ∧ (startSettle a s).coll = s.coll ∧ (startSettle a s).pw = s.pw ∧ (startSettle a s).sec = s.sec ∧ (startSettle a s).draws = s.draws := by
  simp only [startSettle]
  repeat' split
  all_goals simp

@[simp] theorem startSettle_leaf (a : EmbCmd) (s : State) :
    (startSettle a s).hi.lock = s.hi.lock := by
  simp only [startSettle]
  repeat' split
  all_goals simp

@[simp] theorem nextPhase_frame (a : EmbCmd) (s : State) :
    (nextPhase a s).pending = s.pending ∧ (nextPhase a s).time = s.time ∧ (nextPhase a s).id = s.id ∧ (nextPhase a s).fab = s.fab ∧ (nextPhase a s).ops = s.ops ∧ (nextPhase a s).coll = s.coll ∧ (nextPhase a s).pw = s.pw ∧ (nextPhase a s).sec = s.sec ∧ (nextPhase a s).draws = s.draws := by
  simp [nextPhase]

@[simp] theorem nextPhase_leaf (a : EmbCmd) (s : State) :
    (nextPhase a s).hi.lock = s.hi.lock := by
  simp [nextPhase]

@[simp] theorem doneRec_frame (a : ExuRec) (s : State) :
    (doneRec a s).pending = s.pending ∧ (doneRec a s).time = s.time ∧ (doneRec a s).id = s.id ∧ (doneRec a s).fab = s.fab ∧ (doneRec a s).ops = s.ops ∧ (doneRec a s).coll = s.coll ∧ (doneRec a s).pw = s.pw ∧ (doneRec a s).sec = s.sec ∧ (doneRec a s).draws = s.draws := by
  simp only [doneRec]
  repeat' split
  all_goals simp

@[simp] theorem doneRec_leaf (a : ExuRec) (s : State) :
    (doneRec a s).hi.lock = s.hi.lock := by
  simp only [doneRec]
  repeat' split
  all_goals simp

@[simp] theorem goneRec_frame (a : ExuRec) (s : State) :
    (goneRec a s).pending = s.pending ∧ (goneRec a s).time = s.time ∧ (goneRec a s).id = s.id ∧ (goneRec a s).fab = s.fab ∧ (goneRec a s).ops = s.ops ∧ (goneRec a s).coll = s.coll ∧ (goneRec a s).pw = s.pw ∧ (goneRec a s).sec = s.sec ∧ (goneRec a s).draws = s.draws := by
  simp only [goneRec]
  repeat' split
  all_goals simp

@[simp] theorem goneRec_leaf (a : ExuRec) (s : State) :
    (goneRec a s).hi.lock = s.hi.lock := by
  simp only [goneRec]
  repeat' split
  all_goals simp

end Sys2Proof.Machine
end

