-- ==== Sys2Proof/Laws/Requests.lean ====
section
/-! SUPPORT. What the operations of Machine/Requests.lean leave unchanged: the parts of the state that each does not touch. -/
namespace Sys2Proof.Machine

theorem growTo_frame {a : Bool} {b : ℕ} {c : ℕ} {d : ObjKind} {e : ObjClass} {f : ℕ} {g : ℕ} {s : State} {u : State} (h : growTo a b c d e f g s = some u) :
    u.pending = s.pending ∧ u.time = s.time ∧ u.id = s.id ∧ u.fab = s.fab ∧ u.ops = s.ops ∧ u.mdl = s.mdl ∧ u.exu = s.exu ∧ u.coll = s.coll ∧ u.pw = s.pw ∧ u.sec = s.sec ∧ u.cof = s.cof ∧ u.draws = s.draws := by
  simp only [growTo, Option.map_eq_some_iff] at h
  obtain ⟨_, h1, rfl⟩ := h
  have hA := allocate_frame h1
  simp_all

theorem growTo_leaf {a : Bool} {b : ℕ} {c : ℕ} {d : ObjKind} {e : ObjClass} {f : ℕ} {g : ℕ} {s : State} {u : State} (h : growTo a b c d e f g s = some u) :
    u.hi.lock = s.hi.lock := by
  simp only [growTo, Option.map_eq_some_iff] at h
  obtain ⟨_, h1, rfl⟩ := h
  have hA := allocate_leaf h1
  simp_all

@[simp] theorem mapPage_frame (a : KvGeom) (b : ℕ) (c : ℕ) (d : ℕ) (e : ℕ) (f : List ℕ) (g : Bool) (s : State) :
    (mapPage a b c d e f g s).pending = s.pending ∧ (mapPage a b c d e f g s).time = s.time ∧ (mapPage a b c d e f g s).id = s.id ∧ (mapPage a b c d e f g s).hi = s.hi ∧ (mapPage a b c d e f g s).ctxs = s.ctxs ∧ (mapPage a b c d e f g s).fab = s.fab ∧ (mapPage a b c d e f g s).srv = s.srv ∧ (mapPage a b c d e f g s).ops = s.ops ∧ (mapPage a b c d e f g s).mdl = s.mdl ∧ (mapPage a b c d e f g s).exu = s.exu ∧ (mapPage a b c d e f g s).coll = s.coll ∧ (mapPage a b c d e f g s).xn = s.xn ∧ (mapPage a b c d e f g s).pw = s.pw ∧ (mapPage a b c d e f g s).sec = s.sec ∧ (mapPage a b c d e f g s).td = s.td ∧ (mapPage a b c d e f g s).cof = s.cof ∧ (mapPage a b c d e f g s).draws = s.draws ∧ (mapPage a b c d e f g s).out = s.out := by
  simp [mapPage]

@[simp] theorem mapPage_leaf (a : KvGeom) (b : ℕ) (c : ℕ) (d : ℕ) (e : ℕ) (f : List ℕ) (g : Bool) (s : State) :
    (mapPage a b c d e f g s).mem.dram = s.mem.dram := by
  simp [mapPage]

@[simp] theorem notePage_frame (a : ℕ) (b : KvPage) (s : State) :
    (notePage a b s).pending = s.pending ∧ (notePage a b s).time = s.time ∧ (notePage a b s).id = s.id ∧ (notePage a b s).hi = s.hi ∧ (notePage a b s).ctxs = s.ctxs ∧ (notePage a b s).mem = s.mem ∧ (notePage a b s).fab = s.fab ∧ (notePage a b s).ops = s.ops ∧ (notePage a b s).mdl = s.mdl ∧ (notePage a b s).exu = s.exu ∧ (notePage a b s).coll = s.coll ∧ (notePage a b s).xn = s.xn ∧ (notePage a b s).pw = s.pw ∧ (notePage a b s).sec = s.sec ∧ (notePage a b s).td = s.td ∧ (notePage a b s).cof = s.cof ∧ (notePage a b s).draws = s.draws ∧ (notePage a b s).out = s.out := by
  simp [notePage]

@[simp] theorem placePage_frame (a : ℕ) (b : KvGeom) (c : ℕ) (d : ℕ) (e : ℕ) (f : List ℕ) (s : State) :
    (placePage a b c d e f s).pending = s.pending ∧ (placePage a b c d e f s).time = s.time ∧ (placePage a b c d e f s).id = s.id ∧ (placePage a b c d e f s).hi = s.hi ∧ (placePage a b c d e f s).ctxs = s.ctxs ∧ (placePage a b c d e f s).fab = s.fab ∧ (placePage a b c d e f s).ops = s.ops ∧ (placePage a b c d e f s).mdl = s.mdl ∧ (placePage a b c d e f s).exu = s.exu ∧ (placePage a b c d e f s).coll = s.coll ∧ (placePage a b c d e f s).xn = s.xn ∧ (placePage a b c d e f s).pw = s.pw ∧ (placePage a b c d e f s).sec = s.sec ∧ (placePage a b c d e f s).td = s.td ∧ (placePage a b c d e f s).cof = s.cof ∧ (placePage a b c d e f s).draws = s.draws ∧ (placePage a b c d e f s).out = s.out := by
  simp [placePage]

@[simp] theorem placePage_leaf (a : ℕ) (b : KvGeom) (c : ℕ) (d : ℕ) (e : ℕ) (f : List ℕ) (s : State) :
    (placePage a b c d e f s).mem.dram = s.mem.dram := by
  simp [placePage]

theorem freshPage_frame {a : ℕ} {b : ℕ} {c : KvGeom} {d : Bool} {e : ℕ} {f : ℕ} {g : ℕ} {s : State} {u : State} (h : freshPage a b c d e f g s = some u) :
    u.pending = s.pending ∧ u.time = s.time ∧ u.id = s.id ∧ u.fab = s.fab ∧ u.ops = s.ops ∧ u.mdl = s.mdl ∧ u.exu = s.exu ∧ u.coll = s.coll ∧ u.pw = s.pw ∧ u.sec = s.sec ∧ u.cof = s.cof ∧ u.draws = s.draws := by
  simp only [freshPage] at h
  split at h
  · obtain rfl := Option.some.inj h
    simp
  · simp only [Option.map_eq_some_iff] at h
    obtain ⟨_, h1, rfl⟩ := h
    have hA := allocate_frame h1
    split <;> simp [hA]

theorem freshPage_leaf {a : ℕ} {b : ℕ} {c : KvGeom} {d : Bool} {e : ℕ} {f : ℕ} {g : ℕ} {s : State} {u : State} (h : freshPage a b c d e f g s = some u) :
    u.hi.lock = s.hi.lock := by
  simp only [freshPage] at h
  split at h
  · obtain rfl := Option.some.inj h
    simp
  · simp only [Option.map_eq_some_iff] at h
    obtain ⟨_, h1, rfl⟩ := h
    have hA := allocate_leaf h1
    split <;> simp [hA]

theorem tryEach_keeps {α β : Type} (p : State → β) (f : α → State → Option State)
    (h : ∀ x s u, f x s = some u → p u = p s) :
    ∀ (l : List α) (s u : State), tryEach f l s = some u → p u = p s
  | [], s, u, hu => by simp [tryEach] at hu; rw [hu]
  | x :: l, s, u, hu => by
    simp only [tryEach, Option.bind_eq_some_iff] at hu
    obtain ⟨v, hv, hu⟩ := hu
    rw [tryEach_keeps p f h l v u hu, h x s v hv]

theorem freshPages_frame {a : ℕ} {b : ℕ} {c : KvGeom} {d : Bool} {e : List ℕ} {s : State} {u : State} (h : freshPages a b c d e s = some u) :
    u.pending = s.pending ∧ u.time = s.time ∧ u.id = s.id ∧ u.fab = s.fab ∧ u.ops = s.ops ∧ u.mdl = s.mdl ∧ u.exu = s.exu ∧ u.coll = s.coll ∧ u.pw = s.pw ∧ u.sec = s.sec ∧ u.cof = s.cof ∧ u.draws = s.draws := by
  have q := tryEach_keeps (fun s => (s.pending, s.time, s.id, s.fab, s.ops, s.mdl, s.exu, s.coll, s.pw, s.sec, s.cof, s.draws))
    _ (fun x s u hx => by
      split at hx
      · cases hx; rfl
      · have hf := freshPage_frame hx; simp [hf]) _ _ _ h
  simpa using q

theorem freshPages_leaf {a : ℕ} {b : ℕ} {c : KvGeom} {d : Bool} {e : List ℕ} {s : State} {u : State} (h : freshPages a b c d e s = some u) :
    u.hi.lock = s.hi.lock := by
  have q := tryEach_keeps (fun s => s.hi.lock)
    _ (fun x s u hx => by
      split at hx
      · cases hx; rfl
      · have hf := freshPage_leaf hx; simp [hf]) _ _ _ h
  simpa using q

@[simp] theorem growWords_frame (a : Bool) (b : ℕ) (c : ℕ) (d : ℕ) (e : ℕ) (f : KvGeom) (s : State) :
    (growWords a b c d e f s).pending = s.pending ∧ (growWords a b c d e f s).time = s.time ∧ (growWords a b c d e f s).id = s.id ∧ (growWords a b c d e f s).fab = s.fab ∧ (growWords a b c d e f s).ops = s.ops ∧ (growWords a b c d e f s).mdl = s.mdl ∧ (growWords a b c d e f s).exu = s.exu ∧ (growWords a b c d e f s).coll = s.coll ∧ (growWords a b c d e f s).pw = s.pw ∧ (growWords a b c d e f s).sec = s.sec ∧ (growWords a b c d e f s).cof = s.cof ∧ (growWords a b c d e f s).draws = s.draws := by
  unfold growWords
  cases hg : growTo a b c (.blockState (ownLoc s) d) .held 0 (wordFrames s f e) s with
  | none => simp
  | some v => have := growTo_frame hg; simp [this]

@[simp] theorem growWords_leaf (a : Bool) (b : ℕ) (c : ℕ) (d : ℕ) (e : ℕ) (f : KvGeom) (s : State) :
    (growWords a b c d e f s).hi.lock = s.hi.lock := by
  unfold growWords
  cases hg : growTo a b c (.blockState (ownLoc s) d) .held 0 (wordFrames s f e) s with
  | none => simp
  | some v => have := growTo_leaf hg; simp [this]

@[simp] theorem storeTokens_frame (a : ℕ) (b : ℕ) (s : State) :
    (storeTokens a b s).pending = s.pending ∧ (storeTokens a b s).time = s.time ∧ (storeTokens a b s).id = s.id ∧ (storeTokens a b s).hi = s.hi ∧ (storeTokens a b s).ctxs = s.ctxs ∧ (storeTokens a b s).fab = s.fab ∧ (storeTokens a b s).srv = s.srv ∧ (storeTokens a b s).ops = s.ops ∧ (storeTokens a b s).mdl = s.mdl ∧ (storeTokens a b s).exu = s.exu ∧ (storeTokens a b s).coll = s.coll ∧ (storeTokens a b s).xn = s.xn ∧ (storeTokens a b s).pw = s.pw ∧ (storeTokens a b s).sec = s.sec ∧ (storeTokens a b s).td = s.td ∧ (storeTokens a b s).cof = s.cof ∧ (storeTokens a b s).draws = s.draws ∧ (storeTokens a b s).out = s.out := by
  unfold storeTokens
  try dsimp only
  repeat' split
  all_goals simp (disch := first | (intros; (repeat' split) <;> (simp [-Nat.reducePow]; done)) | (intros; dsimp only; (repeat' split) <;> (simp [-Nat.reducePow]; done)) | assumption)

theorem ensurePositions_frame {a : ℕ} {b : ℕ} {s : State} {u : State} (h : ensurePositions a b s = some u) :
    u.pending = s.pending ∧ u.time = s.time ∧ u.id = s.id ∧ u.fab = s.fab ∧ u.ops = s.ops ∧ u.mdl = s.mdl ∧ u.exu = s.exu ∧ u.coll = s.coll ∧ u.pw = s.pw ∧ u.sec = s.sec ∧ u.cof = s.cof ∧ u.draws = s.draws := by
  unfold ensurePositions at h
  split at h
  · cases h; simp
  dsimp only at h
  split at h
  · cases h; simp
  simp only [Option.bind_eq_some_iff] at h
  obtain ⟨_, h1, h⟩ := h
  have hA := growTo_frame h1
  split at h
  · cases h; simp [hA]
  simp only [Option.bind_eq_some_iff, Option.map_eq_some_iff] at h
  obtain ⟨_, h2, _, h3, _, h4, rfl⟩ := h
  have hB := growTo_frame h2
  have hC := growTo_frame h3
  have hD := freshPages_frame h4
  simp_all

theorem ensurePositions_leaf {a : ℕ} {b : ℕ} {s : State} {u : State} (h : ensurePositions a b s = some u) :
    u.hi.lock = s.hi.lock := by
  unfold ensurePositions at h
  split at h
  · cases h; simp
  dsimp only at h
  split at h
  · cases h; simp
  simp only [Option.bind_eq_some_iff] at h
  obtain ⟨_, h1, h⟩ := h
  have hA := growTo_leaf h1
  split at h
  · cases h; simp [hA]
  simp only [Option.bind_eq_some_iff, Option.map_eq_some_iff] at h
  obtain ⟨_, h2, _, h3, _, h4, rfl⟩ := h
  have hB := growTo_leaf h2
  have hC := growTo_leaf h3
  have hD := freshPages_leaf h4
  simp_all

@[simp] theorem ensureOrWait_frame (a : ℕ) (b : ℕ) (s : State) :
    (ensureOrWait a b s).pending = s.pending ∧ (ensureOrWait a b s).time = s.time ∧ (ensureOrWait a b s).id = s.id ∧ (ensureOrWait a b s).fab = s.fab ∧ (ensureOrWait a b s).ops = s.ops ∧ (ensureOrWait a b s).mdl = s.mdl ∧ (ensureOrWait a b s).exu = s.exu ∧ (ensureOrWait a b s).coll = s.coll ∧ (ensureOrWait a b s).pw = s.pw ∧ (ensureOrWait a b s).sec = s.sec ∧ (ensureOrWait a b s).cof = s.cof ∧ (ensureOrWait a b s).draws = s.draws := by
  simp only [ensureOrWait]
  repeat' split
  all_goals try have hensurePositionsframe := ensurePositions_frame (by assumption)
  all_goals simp_all

@[simp] theorem ensureOrWait_leaf (a : ℕ) (b : ℕ) (s : State) :
    (ensureOrWait a b s).hi.lock = s.hi.lock := by
  simp only [ensureOrWait]
  repeat' split
  all_goals try have hensurePositionsframe := ensurePositions_frame (by assumption)
  all_goals try have hensurePositionsleaf := ensurePositions_leaf (by assumption)
  all_goals simp_all

@[simp] theorem resumeWaiting_frame (a : ℕ) (b : ℕ) (s : State) :
    (resumeWaiting a b s).pending = s.pending ∧ (resumeWaiting a b s).time = s.time ∧ (resumeWaiting a b s).id = s.id ∧ (resumeWaiting a b s).fab = s.fab ∧ (resumeWaiting a b s).ops = s.ops ∧ (resumeWaiting a b s).mdl = s.mdl ∧ (resumeWaiting a b s).exu = s.exu ∧ (resumeWaiting a b s).coll = s.coll ∧ (resumeWaiting a b s).pw = s.pw ∧ (resumeWaiting a b s).sec = s.sec ∧ (resumeWaiting a b s).cof = s.cof ∧ (resumeWaiting a b s).draws = s.draws := by
  induction b generalizing s with
  | zero => simp [resumeWaiting]
  | succ n ih =>
    simp only [resumeWaiting]
    repeat' split
    all_goals try have hE := ensurePositions_frame (by assumption)
    all_goals simp_all

@[simp] theorem resumeWaiting_leaf (a : ℕ) (b : ℕ) (s : State) :
    (resumeWaiting a b s).hi.lock = s.hi.lock := by
  induction b generalizing s with
  | zero => simp [resumeWaiting]
  | succ n ih =>
    simp only [resumeWaiting]
    repeat' split
    all_goals try have hE := ensurePositions_leaf (by assumption)
    all_goals simp_all

@[simp] theorem queueStep_frame (a : QStep) (s : State) :
    (queueStep a s).pending = s.pending ∧ (queueStep a s).time = s.time ∧ (queueStep a s).id = s.id ∧ (queueStep a s).hi = s.hi ∧ (queueStep a s).ctxs = s.ctxs ∧ (queueStep a s).mem = s.mem ∧ (queueStep a s).srv = s.srv ∧ (queueStep a s).ops = s.ops ∧ (queueStep a s).mdl = s.mdl ∧ (queueStep a s).exu = s.exu ∧ (queueStep a s).coll = s.coll ∧ (queueStep a s).xn = s.xn ∧ (queueStep a s).pw = s.pw ∧ (queueStep a s).sec = s.sec ∧ (queueStep a s).td = s.td ∧ (queueStep a s).cof = s.cof ∧ (queueStep a s).draws = s.draws ∧ (queueStep a s).out = s.out := by
  simp [queueStep]

@[simp] theorem queueStep_leaf (a : QStep) (s : State) :
    (queueStep a s).fab.scratch = s.fab.scratch := by
  simp [queueStep]

@[simp] theorem queuePlan_frame (a : List QStep) (s : State) :
    (queuePlan a s).pending = s.pending ∧ (queuePlan a s).time = s.time ∧ (queuePlan a s).id = s.id ∧ (queuePlan a s).hi = s.hi ∧ (queuePlan a s).ctxs = s.ctxs ∧ (queuePlan a s).mem = s.mem ∧ (queuePlan a s).srv = s.srv ∧ (queuePlan a s).ops = s.ops ∧ (queuePlan a s).mdl = s.mdl ∧ (queuePlan a s).exu = s.exu ∧ (queuePlan a s).coll = s.coll ∧ (queuePlan a s).xn = s.xn ∧ (queuePlan a s).pw = s.pw ∧ (queuePlan a s).sec = s.sec ∧ (queuePlan a s).td = s.td ∧ (queuePlan a s).cof = s.cof ∧ (queuePlan a s).draws = s.draws ∧ (queuePlan a s).out = s.out := by
  simp [queuePlan]

@[simp] theorem queuePlan_leaf (a : List QStep) (s : State) :
    (queuePlan a s).fab.scratch = s.fab.scratch := by
  simp [queuePlan]

@[simp] theorem publishSeq_frame (a : Request) (s : State) :
    (publishSeq a s).pending = s.pending ∧ (publishSeq a s).time = s.time ∧ (publishSeq a s).id = s.id ∧ (publishSeq a s).hi = s.hi ∧ (publishSeq a s).ctxs = s.ctxs ∧ (publishSeq a s).mem = s.mem ∧ (publishSeq a s).fab = s.fab ∧ (publishSeq a s).srv = s.srv ∧ (publishSeq a s).ops = s.ops ∧ (publishSeq a s).mdl = s.mdl ∧ (publishSeq a s).exu = s.exu ∧ (publishSeq a s).coll = s.coll ∧ (publishSeq a s).pw = s.pw ∧ (publishSeq a s).sec = s.sec ∧ (publishSeq a s).cof = s.cof ∧ (publishSeq a s).draws = s.draws := by
  simp only [publishSeq]
  repeat' split
  all_goals simp

@[simp] theorem takeReqState_frame (a : ℕ) (s : State) :
    (takeReqState a s).pending = s.pending ∧ (takeReqState a s).time = s.time ∧ (takeReqState a s).id = s.id ∧ (takeReqState a s).fab = s.fab ∧ (takeReqState a s).ops = s.ops ∧ (takeReqState a s).mdl = s.mdl ∧ (takeReqState a s).exu = s.exu ∧ (takeReqState a s).coll = s.coll ∧ (takeReqState a s).pw = s.pw ∧ (takeReqState a s).sec = s.sec ∧ (takeReqState a s).cof = s.cof ∧ (takeReqState a s).draws = s.draws := by
  unfold takeReqState
  split
  · simp
  · rename_i r _
    cases hg : growTo (isLc r) a (ctxPart s r.h.ctx) (reqObj a) .held 0 1 s with
    | none => simp
    | some v => have := growTo_frame hg; simp [this]

@[simp] theorem takeReqState_leaf (a : ℕ) (s : State) :
    (takeReqState a s).hi.lock = s.hi.lock := by
  unfold takeReqState
  split
  · simp
  · rename_i r _
    cases hg : growTo (isLc r) a (ctxPart s r.h.ctx) (reqObj a) .held 0 1 s with
    | none => simp
    | some v => have := growTo_leaf hg; simp [this]

@[simp] theorem readPrompt_frame (a : Hdr) (b : GenBody) (s : State) :
    (readPrompt a b s).pending = s.pending ∧ (readPrompt a b s).time = s.time ∧ (readPrompt a b s).id = s.id ∧ (readPrompt a b s).hi = s.hi ∧ (readPrompt a b s).mem = s.mem ∧ (readPrompt a b s).fab = s.fab ∧ (readPrompt a b s).srv = s.srv ∧ (readPrompt a b s).ops = s.ops ∧ (readPrompt a b s).mdl = s.mdl ∧ (readPrompt a b s).exu = s.exu ∧ (readPrompt a b s).coll = s.coll ∧ (readPrompt a b s).xn = s.xn ∧ (readPrompt a b s).pw = s.pw ∧ (readPrompt a b s).sec = s.sec ∧ (readPrompt a b s).cof = s.cof ∧ (readPrompt a b s).draws = s.draws := by
  simp [readPrompt]

@[simp] theorem decideGen_frame (a : Hdr) (b : GenBody) (c : Option StopBlock) (d : ℕ) (s : State) :
    (decideGen a b c d s).pending = s.pending ∧ (decideGen a b c d s).time = s.time ∧ (decideGen a b c d s).id = s.id ∧ (decideGen a b c d s).fab = s.fab ∧ (decideGen a b c d s).ops = s.ops ∧ (decideGen a b c d s).coll = s.coll ∧ (decideGen a b c d s).sec = s.sec ∧ (decideGen a b c d s).cof = s.cof ∧ (decideGen a b c d s).draws = s.draws := by
  simp only [decideGen]
  repeat' split
  all_goals simp

@[simp] theorem decideGen_leaf (a : Hdr) (b : GenBody) (c : Option StopBlock) (d : ℕ) (s : State) :
    (decideGen a b c d s).hi.lock = s.hi.lock ∧ (decideGen a b c d s).pw.st = s.pw.st := by
  simp only [decideGen]
  repeat' split
  all_goals simp

@[simp] theorem startGather_frame (a : ℕ) (b : Hdr) (c : EmbedBody) (d : ℕ) (e : EmbTable) (f : Option (List Bag)) (s : State) :
    (startGather a b c d e f s).pending = s.pending ∧ (startGather a b c d e f s).time = s.time ∧ (startGather a b c d e f s).id = s.id ∧ (startGather a b c d e f s).fab = s.fab ∧ (startGather a b c d e f s).ops = s.ops ∧ (startGather a b c d e f s).coll = s.coll ∧ (startGather a b c d e f s).pw = s.pw ∧ (startGather a b c d e f s).sec = s.sec ∧ (startGather a b c d e f s).draws = s.draws := by
  simp only [startGather]
  repeat' split
  all_goals simp

@[simp] theorem startGather_leaf (a : ℕ) (b : Hdr) (c : EmbedBody) (d : ℕ) (e : EmbTable) (f : Option (List Bag)) (s : State) :
    (startGather a b c d e f s).hi.lock = s.hi.lock := by
  simp only [startGather]
  repeat' split
  all_goals simp

@[simp] theorem sharePage_frame (a : ℕ) (b : ℕ) (c : KvGeom) (d : ℕ) (e : ℕ) (s : State) :
    (sharePage a b c d e s).pending = s.pending ∧ (sharePage a b c d e s).time = s.time ∧ (sharePage a b c d e s).id = s.id ∧ (sharePage a b c d e s).hi = s.hi ∧ (sharePage a b c d e s).ctxs = s.ctxs ∧ (sharePage a b c d e s).fab = s.fab ∧ (sharePage a b c d e s).ops = s.ops ∧ (sharePage a b c d e s).mdl = s.mdl ∧ (sharePage a b c d e s).exu = s.exu ∧ (sharePage a b c d e s).coll = s.coll ∧ (sharePage a b c d e s).xn = s.xn ∧ (sharePage a b c d e s).pw = s.pw ∧ (sharePage a b c d e s).sec = s.sec ∧ (sharePage a b c d e s).td = s.td ∧ (sharePage a b c d e s).cof = s.cof ∧ (sharePage a b c d e s).draws = s.draws ∧ (sharePage a b c d e s).out = s.out := by
  simp [sharePage]

@[simp] theorem sharePage_leaf (a : ℕ) (b : ℕ) (c : KvGeom) (d : ℕ) (e : ℕ) (s : State) :
    (sharePage a b c d e s).mem.dram = s.mem.dram := by
  simp [sharePage]

theorem copyPage_frame {a : ℕ} {b : ℕ} {c : KvGeom} {d : Bool} {e : ℕ} {f : ℕ} {s : State} {u : State} (h : copyPage a b c d e f s = some u) :
    u.pending = s.pending ∧ u.time = s.time ∧ u.id = s.id ∧ u.fab = s.fab ∧ u.ops = s.ops ∧ u.mdl = s.mdl ∧ u.exu = s.exu ∧ u.coll = s.coll ∧ u.pw = s.pw ∧ u.sec = s.sec ∧ u.cof = s.cof ∧ u.draws = s.draws := by
  simp only [copyPage, Option.map_eq_some_iff] at h
  obtain ⟨_, h1, rfl⟩ := h
  have hA := freshPages_frame h1
  simp (disch := first | (intros; (repeat' split) <;> (simp; done)) | assumption) [hA]

theorem copyPage_leaf {a : ℕ} {b : ℕ} {c : KvGeom} {d : Bool} {e : ℕ} {f : ℕ} {s : State} {u : State} (h : copyPage a b c d e f s = some u) :
    u.hi.lock = s.hi.lock := by
  simp only [copyPage, Option.map_eq_some_iff] at h
  obtain ⟨_, h1, rfl⟩ := h
  have hA := freshPages_leaf h1
  simp (disch := first | (intros; (repeat' split) <;> (simp; done)) | assumption) [hA]

@[simp] theorem takeHit_frame (a : ℕ) (b : ℕ) (c : Request) (d : KvGeom) (e : List Node) (s : State) :
    (takeHit a b c d e s).pending = s.pending ∧ (takeHit a b c d e s).time = s.time ∧ (takeHit a b c d e s).id = s.id ∧ (takeHit a b c d e s).fab = s.fab ∧ (takeHit a b c d e s).ops = s.ops ∧ (takeHit a b c d e s).mdl = s.mdl ∧ (takeHit a b c d e s).exu = s.exu ∧ (takeHit a b c d e s).coll = s.coll ∧ (takeHit a b c d e s).pw = s.pw ∧ (takeHit a b c d e s).sec = s.sec ∧ (takeHit a b c d e s).cof = s.cof ∧ (takeHit a b c d e s).draws = s.draws := by
  simp only [takeHit]
  repeat' split
  all_goals first
    | (rename_i hb hz
       simp only [Option.bind_eq_some_iff] at hb
       obtain ⟨_, _, hb⟩ := hb
       have hc := copyPage_frame hb
       simp (disch := first | (intros; (repeat' split) <;> (simp; done)) | assumption) [hc])
    | simp (disch := first | (intros; (repeat' split) <;> (simp; done)) | assumption)

@[simp] theorem takeHit_leaf (a : ℕ) (b : ℕ) (c : Request) (d : KvGeom) (e : List Node) (s : State) :
    (takeHit a b c d e s).hi.lock = s.hi.lock := by
  simp only [takeHit]
  repeat' split
  all_goals first
    | (rename_i hb hz
       simp only [Option.bind_eq_some_iff] at hb
       obtain ⟨_, _, hb⟩ := hb
       have hc := copyPage_leaf hb
       simp (disch := first | (intros; (repeat' split) <;> (simp; done)) | assumption) [hc])
    | simp (disch := first | (intros; (repeat' split) <;> (simp; done)) | assumption)

@[simp] theorem takePrompt_frame (a : ℕ) (b : Request) (c : List ℕ) (s : State) :
    (takePrompt a b c s).pending = s.pending ∧ (takePrompt a b c s).time = s.time ∧ (takePrompt a b c s).id = s.id ∧ (takePrompt a b c s).fab = s.fab ∧ (takePrompt a b c s).ops = s.ops ∧ (takePrompt a b c s).mdl = s.mdl ∧ (takePrompt a b c s).exu = s.exu ∧ (takePrompt a b c s).coll = s.coll ∧ (takePrompt a b c s).pw = s.pw ∧ (takePrompt a b c s).sec = s.sec ∧ (takePrompt a b c s).cof = s.cof ∧ (takePrompt a b c s).draws = s.draws := by
  simp only [takePrompt]
  repeat' split
  all_goals simp

@[simp] theorem takePrompt_leaf (a : ℕ) (b : Request) (c : List ℕ) (s : State) :
    (takePrompt a b c s).hi.lock = s.hi.lock := by
  simp only [takePrompt]
  repeat' split
  all_goals simp

@[simp] theorem atDeadline_frame (a : ℕ) (b : Request) (s : State) :
    (atDeadline a b s).pending = s.pending ∧ (atDeadline a b s).time = s.time ∧ (atDeadline a b s).id = s.id ∧ (atDeadline a b s).ops = s.ops ∧ (atDeadline a b s).coll = s.coll ∧ (atDeadline a b s).pw = s.pw ∧ (atDeadline a b s).sec = s.sec ∧ (atDeadline a b s).cof = s.cof ∧ (atDeadline a b s).draws = s.draws := by
  simp only [atDeadline]
  repeat' split
  all_goals simp

@[simp] theorem atDeadline_leaf (a : ℕ) (b : Request) (s : State) :
    (atDeadline a b s).fab.scratch = s.fab.scratch ∧ (atDeadline a b s).hi.lock = s.hi.lock := by
  simp only [atDeadline]
  repeat' split
  all_goals simp

end Sys2Proof.Machine
end

