-- ==== Sys2Proof/Laws/Tiles.lean ====
section
/-! SUPPORT. What the operations of Machine/Tiles.lean leave unchanged: the parts of the state that each does not touch. -/
namespace Sys2Proof.Machine

@[simp] theorem editTile_frame (a : ℕ) (b : TileJob → Option TileJob) (s : State) :
    (editTile a b s).pending = s.pending ∧ (editTile a b s).time = s.time ∧ (editTile a b s).id = s.id ∧ (editTile a b s).hi = s.hi ∧ (editTile a b s).ctxs = s.ctxs ∧ (editTile a b s).fab = s.fab ∧ (editTile a b s).srv = s.srv ∧ (editTile a b s).ops = s.ops ∧ (editTile a b s).mdl = s.mdl ∧ (editTile a b s).exu = s.exu ∧ (editTile a b s).coll = s.coll ∧ (editTile a b s).xn = s.xn ∧ (editTile a b s).pw = s.pw ∧ (editTile a b s).sec = s.sec ∧ (editTile a b s).td = s.td ∧ (editTile a b s).cof = s.cof ∧ (editTile a b s).draws = s.draws ∧ (editTile a b s).out = s.out := by
  simp [editTile]

@[simp] theorem editTile_leaf (a : ℕ) (b : TileJob → Option TileJob) (s : State) :
    (editTile a b s).mem.dram = s.mem.dram := by
  simp [editTile]

@[simp] theorem releaseDrawer_frame (a : ℕ) (s : State) :
    (releaseDrawer a s).pending = s.pending ∧ (releaseDrawer a s).time = s.time ∧ (releaseDrawer a s).id = s.id ∧ (releaseDrawer a s).hi = s.hi ∧ (releaseDrawer a s).ctxs = s.ctxs ∧ (releaseDrawer a s).fab = s.fab ∧ (releaseDrawer a s).srv = s.srv ∧ (releaseDrawer a s).ops = s.ops ∧ (releaseDrawer a s).mdl = s.mdl ∧ (releaseDrawer a s).exu = s.exu ∧ (releaseDrawer a s).coll = s.coll ∧ (releaseDrawer a s).xn = s.xn ∧ (releaseDrawer a s).pw = s.pw ∧ (releaseDrawer a s).sec = s.sec ∧ (releaseDrawer a s).cof = s.cof ∧ (releaseDrawer a s).draws = s.draws ∧ (releaseDrawer a s).out = s.out := by
  simp [releaseDrawer]

@[simp] theorem releaseDrawer_leaf (a : ℕ) (s : State) :
    (releaseDrawer a s).mem.dram = s.mem.dram := by
  simp [releaseDrawer]

@[simp] theorem dropRemotes_frame (a : ℕ) (s : State) :
    (dropRemotes a s).pending = s.pending ∧ (dropRemotes a s).time = s.time ∧ (dropRemotes a s).id = s.id ∧ (dropRemotes a s).hi = s.hi ∧ (dropRemotes a s).ctxs = s.ctxs ∧ (dropRemotes a s).mem = s.mem ∧ (dropRemotes a s).fab = s.fab ∧ (dropRemotes a s).srv = s.srv ∧ (dropRemotes a s).ops = s.ops ∧ (dropRemotes a s).mdl = s.mdl ∧ (dropRemotes a s).exu = s.exu ∧ (dropRemotes a s).coll = s.coll ∧ (dropRemotes a s).pw = s.pw ∧ (dropRemotes a s).sec = s.sec ∧ (dropRemotes a s).td = s.td ∧ (dropRemotes a s).cof = s.cof ∧ (dropRemotes a s).draws = s.draws ∧ (dropRemotes a s).out = s.out := by
  simp [dropRemotes]

@[simp] theorem failTile_pending (a : ℕ) (b : Status) (c : TileJob → State → State) (s : State) (h : ∀ x s, (c x s).pending = s.pending) :
    (failTile a b c s).pending = s.pending := by
  unfold failTile; (try dsimp only); (repeat' split) <;> first | (simp [h]; done) | simp_all

@[simp] theorem failTile_time (a : ℕ) (b : Status) (c : TileJob → State → State) (s : State) (h : ∀ x s, (c x s).time = s.time) :
    (failTile a b c s).time = s.time := by
  unfold failTile; (try dsimp only); (repeat' split) <;> first | (simp [h]; done) | simp_all

@[simp] theorem failTile_id (a : ℕ) (b : Status) (c : TileJob → State → State) (s : State) (h : ∀ x s, (c x s).id = s.id) :
    (failTile a b c s).id = s.id := by
  unfold failTile; (try dsimp only); (repeat' split) <;> first | (simp [h]; done) | simp_all

@[simp] theorem failTile_fab (a : ℕ) (b : Status) (c : TileJob → State → State) (s : State) (h : ∀ x s, (c x s).fab = s.fab) :
    (failTile a b c s).fab = s.fab := by
  unfold failTile; (try dsimp only); (repeat' split) <;> first | (simp [h]; done) | simp_all

@[simp] theorem failTile_srv (a : ℕ) (b : Status) (c : TileJob → State → State) (s : State) (h : ∀ x s, (c x s).srv = s.srv) :
    (failTile a b c s).srv = s.srv := by
  unfold failTile; (try dsimp only); (repeat' split) <;> first | (simp [h]; done) | simp_all

@[simp] theorem failTile_ops (a : ℕ) (b : Status) (c : TileJob → State → State) (s : State) (h : ∀ x s, (c x s).ops = s.ops) :
    (failTile a b c s).ops = s.ops := by
  unfold failTile; (try dsimp only); (repeat' split) <;> first | (simp [h]; done) | simp_all

@[simp] theorem failTile_mdl (a : ℕ) (b : Status) (c : TileJob → State → State) (s : State) (h : ∀ x s, (c x s).mdl = s.mdl) :
    (failTile a b c s).mdl = s.mdl := by
  unfold failTile; (try dsimp only); (repeat' split) <;> first | (simp [h]; done) | simp_all

@[simp] theorem failTile_exu (a : ℕ) (b : Status) (c : TileJob → State → State) (s : State) (h : ∀ x s, (c x s).exu = s.exu) :
    (failTile a b c s).exu = s.exu := by
  unfold failTile; (try dsimp only); (repeat' split) <;> first | (simp [h]; done) | simp_all

@[simp] theorem failTile_coll (a : ℕ) (b : Status) (c : TileJob → State → State) (s : State) (h : ∀ x s, (c x s).coll = s.coll) :
    (failTile a b c s).coll = s.coll := by
  unfold failTile; (try dsimp only); (repeat' split) <;> first | (simp [h]; done) | simp_all

@[simp] theorem failTile_pw (a : ℕ) (b : Status) (c : TileJob → State → State) (s : State) (h : ∀ x s, (c x s).pw = s.pw) :
    (failTile a b c s).pw = s.pw := by
  unfold failTile; (try dsimp only); (repeat' split) <;> first | (simp [h]; done) | simp_all

@[simp] theorem failTile_sec (a : ℕ) (b : Status) (c : TileJob → State → State) (s : State) (h : ∀ x s, (c x s).sec = s.sec) :
    (failTile a b c s).sec = s.sec := by
  unfold failTile; (try dsimp only); (repeat' split) <;> first | (simp [h]; done) | simp_all

@[simp] theorem failTile_cof (a : ℕ) (b : Status) (c : TileJob → State → State) (s : State) (h : ∀ x s, (c x s).cof = s.cof) :
    (failTile a b c s).cof = s.cof := by
  unfold failTile; (try dsimp only); (repeat' split) <;> first | (simp [h]; done) | simp_all

@[simp] theorem failTile_draws (a : ℕ) (b : Status) (c : TileJob → State → State) (s : State) (h : ∀ x s, (c x s).draws = s.draws) :
    (failTile a b c s).draws = s.draws := by
  unfold failTile; (try dsimp only); (repeat' split) <;> first | (simp [h]; done) | simp_all

@[simp] theorem failTile_mem_dram (a : ℕ) (b : Status) (c : TileJob → State → State) (s : State) (h : ∀ x s, (c x s).mem.dram = s.mem.dram) :
    (failTile a b c s).mem.dram = s.mem.dram := by
  unfold failTile; (try dsimp only); (repeat' split) <;> first | (simp [h]; done) | simp_all

@[simp] theorem failTile_fab_scratch (a : ℕ) (b : Status) (c : TileJob → State → State) (s : State) (h : ∀ x s, (c x s).fab.scratch = s.fab.scratch) :
    (failTile a b c s).fab.scratch = s.fab.scratch := by
  unfold failTile; (try dsimp only); (repeat' split) <;> first | (simp [h]; done) | simp_all

@[simp] theorem failTile_hi_lock (a : ℕ) (b : Status) (c : TileJob → State → State) (s : State) (h : ∀ x s, (c x s).hi.lock = s.hi.lock) :
    (failTile a b c s).hi.lock = s.hi.lock := by
  unfold failTile; (try dsimp only); (repeat' split) <;> first | (simp [h]; done) | simp_all

@[simp] theorem failTile_sec_life (a : ℕ) (b : Status) (c : TileJob → State → State) (s : State) (h : ∀ x s, (c x s).sec.life = s.sec.life) :
    (failTile a b c s).sec.life = s.sec.life := by
  unfold failTile; (try dsimp only); (repeat' split) <;> first | (simp [h]; done) | simp_all

@[simp] theorem failTile_sec_mboxBuf (a : ℕ) (b : Status) (c : TileJob → State → State) (s : State) (h : ∀ x s, (c x s).sec.mboxBuf = s.sec.mboxBuf) :
    (failTile a b c s).sec.mboxBuf = s.sec.mboxBuf := by
  unfold failTile; (try dsimp only); (repeat' split) <;> first | (simp [h]; done) | simp_all

@[simp] theorem failTile_pw_st (a : ℕ) (b : Status) (c : TileJob → State → State) (s : State) (h : ∀ x s, (c x s).pw.st = s.pw.st) :
    (failTile a b c s).pw.st = s.pw.st := by
  unfold failTile; (try dsimp only); (repeat' split) <;> first | (simp [h]; done) | simp_all

@[simp] theorem loseTile_frame (a : ℕ) (b : ℕ) (c : ℕ) (s : State) :
    (loseTile a b c s).pending = s.pending ∧ (loseTile a b c s).time = s.time ∧ (loseTile a b c s).id = s.id ∧ (loseTile a b c s).fab = s.fab ∧ (loseTile a b c s).ops = s.ops ∧ (loseTile a b c s).coll = s.coll ∧ (loseTile a b c s).pw = s.pw ∧ (loseTile a b c s).sec = s.sec ∧ (loseTile a b c s).draws = s.draws := by
  simp only [loseTile]
  repeat' split
  all_goals simp

@[simp] theorem loseTile_leaf (a : ℕ) (b : ℕ) (c : ℕ) (s : State) :
    (loseTile a b c s).hi.lock = s.hi.lock := by
  simp only [loseTile]
  repeat' split
  all_goals simp

@[simp] theorem denyTile_frame (a : ℕ) (b : Status) (s : State) :
    (denyTile a b s).pending = s.pending ∧ (denyTile a b s).time = s.time ∧ (denyTile a b s).id = s.id ∧ (denyTile a b s).sec = s.sec ∧ (denyTile a b s).draws = s.draws := by
  simp [denyTile]

@[simp] theorem denyTile_leaf (a : ℕ) (b : Status) (s : State) :
    (denyTile a b s).hi.lock = s.hi.lock ∧ (denyTile a b s).pw.st = s.pw.st := by
  simp [denyTile]

@[simp] theorem endTile_frame (a : TileJob) (s : State) :
    (endTile a s).pending = s.pending ∧ (endTile a s).time = s.time ∧ (endTile a s).id = s.id ∧ (endTile a s).sec = s.sec ∧ (endTile a s).draws = s.draws := by
  simp only [endTile]
  repeat' split
  all_goals simp

@[simp] theorem endTile_leaf (a : TileJob) (s : State) :
    (endTile a s).hi.lock = s.hi.lock ∧ (endTile a s).pw.st = s.pw.st := by
  simp only [endTile]
  repeat' split
  all_goals simp

@[simp] theorem beginPiece_frame (a : ℕ) (s : State) :
    (beginPiece a s).pending = s.pending ∧ (beginPiece a s).time = s.time ∧ (beginPiece a s).id = s.id ∧ (beginPiece a s).fab = s.fab ∧ (beginPiece a s).ops = s.ops ∧ (beginPiece a s).coll = s.coll ∧ (beginPiece a s).pw = s.pw ∧ (beginPiece a s).sec = s.sec ∧ (beginPiece a s).draws = s.draws := by
  simp only [beginPiece]
  repeat' split
  all_goals simp

@[simp] theorem beginPiece_leaf (a : ℕ) (s : State) :
    (beginPiece a s).hi.lock = s.hi.lock := by
  simp only [beginPiece]
  repeat' split
  all_goals simp

@[simp] theorem beginAll_frame (s : State) :
    (beginAll s).pending = s.pending ∧ (beginAll s).time = s.time ∧ (beginAll s).id = s.id ∧ (beginAll s).fab = s.fab ∧ (beginAll s).ops = s.ops ∧ (beginAll s).coll = s.coll ∧ (beginAll s).pw = s.pw ∧ (beginAll s).sec = s.sec ∧ (beginAll s).draws = s.draws := by
  simp [beginAll]

@[simp] theorem beginAll_leaf (s : State) :
    (beginAll s).hi.lock = s.hi.lock := by
  simp [beginAll]

@[simp] theorem queueTile_frame (a : ℕ) (b : TileJob) (s : State) :
    (queueTile a b s).pending = s.pending ∧ (queueTile a b s).time = s.time ∧ (queueTile a b s).id = s.id ∧ (queueTile a b s).fab = s.fab ∧ (queueTile a b s).ops = s.ops ∧ (queueTile a b s).coll = s.coll ∧ (queueTile a b s).pw = s.pw ∧ (queueTile a b s).sec = s.sec ∧ (queueTile a b s).draws = s.draws := by
  simp [queueTile]

@[simp] theorem queueTile_leaf (a : ℕ) (b : TileJob) (s : State) :
    (queueTile a b s).hi.lock = s.hi.lock := by
  simp [queueTile]

@[simp] theorem postTile_frame (a : ℕ) (b : ℕ) (c : TileDesc) (s : State) :
    (postTile a b c s).pending = s.pending ∧ (postTile a b c s).time = s.time ∧ (postTile a b c s).id = s.id ∧ (postTile a b c s).sec = s.sec ∧ (postTile a b c s).draws = s.draws := by
  simp only [postTile]
  repeat' split
  all_goals simp

@[simp] theorem postTile_leaf (a : ℕ) (b : ℕ) (c : TileDesc) (s : State) :
    (postTile a b c s).hi.lock = s.hi.lock ∧ (postTile a b c s).pw.st = s.pw.st := by
  simp only [postTile]
  repeat' split
  all_goals simp

@[simp] theorem writeUnit_frame (a : ℕ) (b : ℕ) (c : ℕ) (d : Place) (e : List Byte) (s : State) :
    (writeUnit a b c d e s).pending = s.pending ∧ (writeUnit a b c d e s).time = s.time ∧ (writeUnit a b c d e s).id = s.id ∧ (writeUnit a b c d e s).hi = s.hi ∧ (writeUnit a b c d e s).srv = s.srv ∧ (writeUnit a b c d e s).ops = s.ops ∧ (writeUnit a b c d e s).mdl = s.mdl ∧ (writeUnit a b c d e s).exu = s.exu ∧ (writeUnit a b c d e s).coll = s.coll ∧ (writeUnit a b c d e s).xn = s.xn ∧ (writeUnit a b c d e s).pw = s.pw ∧ (writeUnit a b c d e s).sec = s.sec ∧ (writeUnit a b c d e s).td = s.td ∧ (writeUnit a b c d e s).cof = s.cof ∧ (writeUnit a b c d e s).draws = s.draws ∧ (writeUnit a b c d e s).out = s.out := by
  simp only [writeUnit]
  repeat' split
  all_goals simp

@[simp] theorem putZero_frame (a : Option ℕ) (b : Bool) (s : State) :
    (putZero a b s).pending = s.pending ∧ (putZero a b s).time = s.time ∧ (putZero a b s).id = s.id ∧ (putZero a b s).hi = s.hi ∧ (putZero a b s).ctxs = s.ctxs ∧ (putZero a b s).mem = s.mem ∧ (putZero a b s).srv = s.srv ∧ (putZero a b s).ops = s.ops ∧ (putZero a b s).mdl = s.mdl ∧ (putZero a b s).exu = s.exu ∧ (putZero a b s).coll = s.coll ∧ (putZero a b s).xn = s.xn ∧ (putZero a b s).pw = s.pw ∧ (putZero a b s).sec = s.sec ∧ (putZero a b s).td = s.td ∧ (putZero a b s).cof = s.cof ∧ (putZero a b s).draws = s.draws ∧ (putZero a b s).out = s.out := by
  simp only [putZero]
  repeat' split
  all_goals simp

@[simp] theorem putZero_leaf (a : Option ℕ) (b : Bool) (s : State) :
    (putZero a b s).fab.scratch = s.fab.scratch := by
  simp only [putZero]
  repeat' split
  all_goals simp

@[simp] theorem noteZeros_frame (s0 : State) (b : TileJob) (c : ℕ) (s : State) :
    (noteZeros s0 b c s).pending = s.pending ∧ (noteZeros s0 b c s).time = s.time ∧ (noteZeros s0 b c s).id = s.id ∧ (noteZeros s0 b c s).hi = s.hi ∧ (noteZeros s0 b c s).ctxs = s.ctxs ∧ (noteZeros s0 b c s).mem = s.mem ∧ (noteZeros s0 b c s).srv = s.srv ∧ (noteZeros s0 b c s).ops = s.ops ∧ (noteZeros s0 b c s).mdl = s.mdl ∧ (noteZeros s0 b c s).exu = s.exu ∧ (noteZeros s0 b c s).coll = s.coll ∧ (noteZeros s0 b c s).xn = s.xn ∧ (noteZeros s0 b c s).pw = s.pw ∧ (noteZeros s0 b c s).sec = s.sec ∧ (noteZeros s0 b c s).td = s.td ∧ (noteZeros s0 b c s).cof = s.cof ∧ (noteZeros s0 b c s).draws = s.draws ∧ (noteZeros s0 b c s).out = s.out := by
  simp only [noteZeros]
  repeat' split
  all_goals simp

@[simp] theorem noteZeros_leaf (s0 : State) (b : TileJob) (c : ℕ) (s : State) :
    (noteZeros s0 b c s).fab.scratch = s.fab.scratch := by
  simp only [noteZeros]
  repeat' split
  all_goals simp

@[simp] theorem writeOut_frame (a : TileJob) (b : List (Place × List Byte)) (s : State) :
    (writeOut a b s).pending = s.pending ∧ (writeOut a b s).time = s.time ∧ (writeOut a b s).id = s.id ∧ (writeOut a b s).hi = s.hi ∧ (writeOut a b s).mem = s.mem ∧ (writeOut a b s).fab = s.fab ∧ (writeOut a b s).srv = s.srv ∧ (writeOut a b s).ops = s.ops ∧ (writeOut a b s).mdl = s.mdl ∧ (writeOut a b s).exu = s.exu ∧ (writeOut a b s).coll = s.coll ∧ (writeOut a b s).xn = s.xn ∧ (writeOut a b s).pw = s.pw ∧ (writeOut a b s).sec = s.sec ∧ (writeOut a b s).cof = s.cof ∧ (writeOut a b s).draws = s.draws := by
  simp [writeOut]

@[simp] theorem writeFar_frame (a : ℕ) (b : TileJob) (c : List (Place × List Byte)) (s : State) :
    (writeFar a b c s).pending = s.pending ∧ (writeFar a b c s).time = s.time ∧ (writeFar a b c s).id = s.id ∧ (writeFar a b c s).fab = s.fab ∧ (writeFar a b c s).ops = s.ops ∧ (writeFar a b c s).coll = s.coll ∧ (writeFar a b c s).pw = s.pw ∧ (writeFar a b c s).sec = s.sec ∧ (writeFar a b c s).draws = s.draws := by
  simp [writeFar]

@[simp] theorem writeFar_leaf (a : ℕ) (b : TileJob) (c : List (Place × List Byte)) (s : State) :
    (writeFar a b c s).hi.lock = s.hi.lock := by
  simp [writeFar]

@[simp] theorem recordMemory_frame (a : ℕ) (s : State) :
    (recordMemory a s).pending = s.pending ∧ (recordMemory a s).time = s.time ∧ (recordMemory a s).id = s.id ∧ (recordMemory a s).hi = s.hi ∧ (recordMemory a s).ctxs = s.ctxs ∧ (recordMemory a s).mem = s.mem ∧ (recordMemory a s).fab = s.fab ∧ (recordMemory a s).ops = s.ops ∧ (recordMemory a s).mdl = s.mdl ∧ (recordMemory a s).exu = s.exu ∧ (recordMemory a s).coll = s.coll ∧ (recordMemory a s).xn = s.xn ∧ (recordMemory a s).pw = s.pw ∧ (recordMemory a s).sec = s.sec ∧ (recordMemory a s).td = s.td ∧ (recordMemory a s).cof = s.cof ∧ (recordMemory a s).draws = s.draws ∧ (recordMemory a s).out = s.out := by
  simp [recordMemory]

@[simp] theorem holdTile_frame (a : ℕ) (s : State) :
    (holdTile a s).pending = s.pending ∧ (holdTile a s).time = s.time ∧ (holdTile a s).id = s.id ∧ (holdTile a s).hi = s.hi ∧ (holdTile a s).ctxs = s.ctxs ∧ (holdTile a s).fab = s.fab ∧ (holdTile a s).ops = s.ops ∧ (holdTile a s).mdl = s.mdl ∧ (holdTile a s).exu = s.exu ∧ (holdTile a s).coll = s.coll ∧ (holdTile a s).xn = s.xn ∧ (holdTile a s).pw = s.pw ∧ (holdTile a s).sec = s.sec ∧ (holdTile a s).cof = s.cof ∧ (holdTile a s).draws = s.draws ∧ (holdTile a s).out = s.out := by
  simp only [holdTile]
  repeat' split
  all_goals simp

@[simp] theorem holdTile_leaf (a : ℕ) (s : State) :
    (holdTile a s).mem.dram = s.mem.dram := by
  simp only [holdTile]
  repeat' split
  all_goals simp

@[simp] theorem poisonTile_frame (a : ℕ) (s : State) :
    (poisonTile a s).pending = s.pending ∧ (poisonTile a s).time = s.time ∧ (poisonTile a s).id = s.id ∧ (poisonTile a s).fab = s.fab ∧ (poisonTile a s).ops = s.ops ∧ (poisonTile a s).mdl = s.mdl ∧ (poisonTile a s).exu = s.exu ∧ (poisonTile a s).coll = s.coll ∧ (poisonTile a s).pw = s.pw ∧ (poisonTile a s).sec = s.sec ∧ (poisonTile a s).cof = s.cof ∧ (poisonTile a s).draws = s.draws := by
  simp only [poisonTile]
  repeat' split
  all_goals simp

@[simp] theorem poisonTile_leaf (a : ℕ) (s : State) :
    (poisonTile a s).mem.dram = s.mem.dram ∧ (poisonTile a s).hi.lock = s.hi.lock := by
  simp only [poisonTile]
  repeat' split
  all_goals simp

@[simp] theorem touchPages_frame (a : ℕ) (b : TileJob) (c : ℕ) (d : ℕ → ℕ) (s : State) :
    (touchPages a b c d s).pending = s.pending ∧ (touchPages a b c d s).time = s.time ∧ (touchPages a b c d s).id = s.id ∧ (touchPages a b c d s).fab = s.fab ∧ (touchPages a b c d s).ops = s.ops ∧ (touchPages a b c d s).coll = s.coll ∧ (touchPages a b c d s).pw = s.pw ∧ (touchPages a b c d s).sec = s.sec ∧ (touchPages a b c d s).draws = s.draws := by
  simp [touchPages]

@[simp] theorem touchPages_leaf (a : ℕ) (b : TileJob) (c : ℕ) (d : ℕ → ℕ) (s : State) :
    (touchPages a b c d s).hi.lock = s.hi.lock := by
  simp [touchPages]

@[simp] theorem finishPiece_frame (a : ℕ) (s : State) :
    (finishPiece a s).pending = s.pending ∧ (finishPiece a s).time = s.time ∧ (finishPiece a s).id = s.id ∧ (finishPiece a s).sec = s.sec ∧ (finishPiece a s).draws = s.draws := by
  simp only [finishPiece]
  repeat' split
  all_goals simp

@[simp] theorem finishPiece_leaf (a : ℕ) (s : State) :
    (finishPiece a s).hi.lock = s.hi.lock ∧ (finishPiece a s).pw.st = s.pw.st := by
  simp only [finishPiece]
  repeat' split
  all_goals simp

@[simp] theorem landPiece_frame (a : ℕ) (b : TileJob) (c : List (List Byte)) (s : State) :
    (landPiece a b c s).pending = s.pending ∧ (landPiece a b c s).time = s.time ∧ (landPiece a b c s).id = s.id ∧ (landPiece a b c s).sec = s.sec ∧ (landPiece a b c s).draws = s.draws := by
  simp only [landPiece]
  repeat' split
  all_goals simp

@[simp] theorem landPiece_leaf (a : ℕ) (b : TileJob) (c : List (List Byte)) (s : State) :
    (landPiece a b c s).hi.lock = s.hi.lock ∧ (landPiece a b c s).pw.st = s.pw.st := by
  simp only [landPiece]
  repeat' split
  all_goals simp

@[simp] theorem movePiece_frame (a : ℕ) (b : List Byte) (c : Bool) (s : State) :
    (movePiece a b c s).pending = s.pending ∧ (movePiece a b c s).time = s.time ∧ (movePiece a b c s).id = s.id ∧ (movePiece a b c s).sec = s.sec ∧ (movePiece a b c s).draws = s.draws := by
  simp only [movePiece]
  repeat' split
  all_goals simp

@[simp] theorem movePiece_leaf (a : ℕ) (b : List Byte) (c : Bool) (s : State) :
    (movePiece a b c s).hi.lock = s.hi.lock ∧ (movePiece a b c s).pw.st = s.pw.st := by
  simp only [movePiece]
  repeat' split
  all_goals simp

@[simp] theorem storeCells_frame (a : ℕ) (b : Remote) (c : RespPkt) (s : State) :
    (storeCells a b c s).pending = s.pending ∧ (storeCells a b c s).time = s.time ∧ (storeCells a b c s).id = s.id ∧ (storeCells a b c s).hi = s.hi ∧ (storeCells a b c s).ctxs = s.ctxs ∧ (storeCells a b c s).fab = s.fab ∧ (storeCells a b c s).srv = s.srv ∧ (storeCells a b c s).ops = s.ops ∧ (storeCells a b c s).mdl = s.mdl ∧ (storeCells a b c s).exu = s.exu ∧ (storeCells a b c s).coll = s.coll ∧ (storeCells a b c s).xn = s.xn ∧ (storeCells a b c s).pw = s.pw ∧ (storeCells a b c s).sec = s.sec ∧ (storeCells a b c s).td = s.td ∧ (storeCells a b c s).cof = s.cof ∧ (storeCells a b c s).draws = s.draws ∧ (storeCells a b c s).out = s.out := by
  simp [storeCells]

@[simp] theorem storeCells_leaf (a : ℕ) (b : Remote) (c : RespPkt) (s : State) :
    (storeCells a b c s).mem.dram = s.mem.dram := by
  simp [storeCells]

@[simp] theorem settleTile_frame (a : ℕ) (b : RespPkt) (c : List Remote) (s : State) :
    (settleTile a b c s).pending = s.pending ∧ (settleTile a b c s).time = s.time ∧ (settleTile a b c s).id = s.id ∧ (settleTile a b c s).sec = s.sec ∧ (settleTile a b c s).draws = s.draws := by
  simp only [settleTile]
  repeat' split
  all_goals simp

@[simp] theorem settleTile_leaf (a : ℕ) (b : RespPkt) (c : List Remote) (s : State) :
    (settleTile a b c s).hi.lock = s.hi.lock ∧ (settleTile a b c s).pw.st = s.pw.st := by
  simp only [settleTile]
  repeat' split
  all_goals simp

@[simp] theorem respTile_frame (a : RespPkt) (s : State) :
    (respTile a s).pending = s.pending ∧ (respTile a s).time = s.time ∧ (respTile a s).id = s.id ∧ (respTile a s).sec = s.sec ∧ (respTile a s).draws = s.draws := by
  simp [respTile]

@[simp] theorem respTile_leaf (a : RespPkt) (s : State) :
    (respTile a s).hi.lock = s.hi.lock ∧ (respTile a s).pw.st = s.pw.st := by
  simp [respTile]

@[simp] theorem reissueTiles_frame (s : State) :
    (reissueTiles s).pending = s.pending ∧ (reissueTiles s).time = s.time ∧ (reissueTiles s).id = s.id ∧ (reissueTiles s).fab = s.fab ∧ (reissueTiles s).ops = s.ops ∧ (reissueTiles s).coll = s.coll ∧ (reissueTiles s).pw = s.pw ∧ (reissueTiles s).sec = s.sec ∧ (reissueTiles s).draws = s.draws := by
  simp [reissueTiles]

@[simp] theorem reissueTiles_leaf (s : State) :
    (reissueTiles s).hi.lock = s.hi.lock := by
  simp [reissueTiles]

end Sys2Proof.Machine
end

