-- ==== Sys2Proof/Laws/Memory.lean ====
section
/-! SUPPORT. What the operations of Machine/Memory.lean leave unchanged: the parts of the state that each does not touch. -/
namespace Sys2Proof.Machine

@[simp] theorem fatal_frame (a : ℕ) (b : Bool) (s : State) :
    (fatal a b s).pending = s.pending ∧ (fatal a b s).time = s.time ∧ (fatal a b s).id = s.id ∧ (fatal a b s).fab = s.fab ∧ (fatal a b s).ops = s.ops ∧ (fatal a b s).coll = s.coll ∧ (fatal a b s).sec = s.sec ∧ (fatal a b s).draws = s.draws := by
  simp [fatal]

@[simp] theorem fatal_leaf (a : ℕ) (b : Bool) (s : State) :
    (fatal a b s).hi.lock = s.hi.lock ∧ (fatal a b s).pw.st = s.pw.st := by
  simp [fatal]

@[simp] theorem countSub_frame (a : ℕ) (b : ℕ × ℕ × ℕ → ℕ × ℕ × ℕ) (s : State) :
    (countSub a b s).pending = s.pending ∧ (countSub a b s).time = s.time ∧ (countSub a b s).id = s.id ∧ (countSub a b s).hi = s.hi ∧ (countSub a b s).ctxs = s.ctxs ∧ (countSub a b s).fab = s.fab ∧ (countSub a b s).srv = s.srv ∧ (countSub a b s).ops = s.ops ∧ (countSub a b s).mdl = s.mdl ∧ (countSub a b s).exu = s.exu ∧ (countSub a b s).coll = s.coll ∧ (countSub a b s).xn = s.xn ∧ (countSub a b s).pw = s.pw ∧ (countSub a b s).sec = s.sec ∧ (countSub a b s).td = s.td ∧ (countSub a b s).cof = s.cof ∧ (countSub a b s).draws = s.draws ∧ (countSub a b s).out = s.out := by
  simp [countSub]

@[simp] theorem countSub_leaf (a : ℕ) (b : ℕ × ℕ × ℕ → ℕ × ℕ × ℕ) (s : State) :
    (countSub a b s).mem.dram = s.mem.dram := by
  simp [countSub]

@[simp] theorem poisonSeq_frame (a : ℕ) (s : State) :
    (poisonSeq a s).pending = s.pending ∧ (poisonSeq a s).time = s.time ∧ (poisonSeq a s).id = s.id ∧ (poisonSeq a s).fab = s.fab ∧ (poisonSeq a s).ops = s.ops ∧ (poisonSeq a s).coll = s.coll ∧ (poisonSeq a s).pw = s.pw ∧ (poisonSeq a s).sec = s.sec ∧ (poisonSeq a s).cof = s.cof ∧ (poisonSeq a s).draws = s.draws := by
  simp [poisonSeq]

@[simp] theorem poisonSeq_leaf (a : ℕ) (s : State) :
    (poisonSeq a s).hi.lock = s.hi.lock := by
  simp [poisonSeq]

@[simp] theorem recordSeq_frame (a : ℕ) (s : State) :
    (recordSeq a s).pending = s.pending ∧ (recordSeq a s).time = s.time ∧ (recordSeq a s).id = s.id ∧ (recordSeq a s).hi = s.hi ∧ (recordSeq a s).ctxs = s.ctxs ∧ (recordSeq a s).mem = s.mem ∧ (recordSeq a s).fab = s.fab ∧ (recordSeq a s).ops = s.ops ∧ (recordSeq a s).mdl = s.mdl ∧ (recordSeq a s).exu = s.exu ∧ (recordSeq a s).coll = s.coll ∧ (recordSeq a s).xn = s.xn ∧ (recordSeq a s).pw = s.pw ∧ (recordSeq a s).sec = s.sec ∧ (recordSeq a s).td = s.td ∧ (recordSeq a s).cof = s.cof ∧ (recordSeq a s).draws = s.draws ∧ (recordSeq a s).out = s.out := by
  simp [recordSeq]

@[simp] theorem losePrefixPage_frame (a : ℕ) (b : ℕ) (s : State) :
    (losePrefixPage a b s).pending = s.pending ∧ (losePrefixPage a b s).time = s.time ∧ (losePrefixPage a b s).id = s.id ∧ (losePrefixPage a b s).hi = s.hi ∧ (losePrefixPage a b s).ctxs = s.ctxs ∧ (losePrefixPage a b s).fab = s.fab ∧ (losePrefixPage a b s).ops = s.ops ∧ (losePrefixPage a b s).mdl = s.mdl ∧ (losePrefixPage a b s).exu = s.exu ∧ (losePrefixPage a b s).coll = s.coll ∧ (losePrefixPage a b s).pw = s.pw ∧ (losePrefixPage a b s).sec = s.sec ∧ (losePrefixPage a b s).cof = s.cof ∧ (losePrefixPage a b s).draws = s.draws := by
  simp (disch := first | (intros; (repeat' split) <;> (simp [-Nat.reducePow]; done)) | (intros; dsimp only; (repeat' split) <;> (simp [-Nat.reducePow]; done)) | assumption) [losePrefixPage, -Nat.reducePow]

@[simp] theorem losePrefixPage_leaf (a : ℕ) (b : ℕ) (s : State) :
    (losePrefixPage a b s).mem.dram = s.mem.dram := by
  simp (disch := first | (intros; (repeat' split) <;> (simp [-Nat.reducePow]; done)) | (intros; dsimp only; (repeat' split) <;> (simp [-Nat.reducePow]; done)) | assumption) [losePrefixPage, -Nat.reducePow]

@[simp] theorem poisonObj_frame (a : ℕ) (b : PoolObj) (s : State) :
    (poisonObj a b s).pending = s.pending ∧ (poisonObj a b s).time = s.time ∧ (poisonObj a b s).id = s.id ∧ (poisonObj a b s).fab = s.fab ∧ (poisonObj a b s).ops = s.ops ∧ (poisonObj a b s).coll = s.coll ∧ (poisonObj a b s).pw = s.pw ∧ (poisonObj a b s).sec = s.sec ∧ (poisonObj a b s).cof = s.cof ∧ (poisonObj a b s).draws = s.draws := by
  simp only [poisonObj]
  repeat' split
  all_goals simp

@[simp] theorem poisonObj_leaf (a : ℕ) (b : PoolObj) (s : State) :
    (poisonObj a b s).hi.lock = s.hi.lock := by
  simp only [poisonObj]
  repeat' split
  all_goals simp

@[simp] theorem fetchPeer_frame (a : ℕ) (b : ℕ) (c : ℕ) (d : ℕ) (e : ℕ) (f : ℕ) (s : State) :
    (fetchPeer a b c d e f s).pending = s.pending ∧ (fetchPeer a b c d e f s).time = s.time ∧ (fetchPeer a b c d e f s).id = s.id ∧ (fetchPeer a b c d e f s).hi = s.hi ∧ (fetchPeer a b c d e f s).ctxs = s.ctxs ∧ (fetchPeer a b c d e f s).mem = s.mem ∧ (fetchPeer a b c d e f s).fab = s.fab ∧ (fetchPeer a b c d e f s).srv = s.srv ∧ (fetchPeer a b c d e f s).ops = s.ops ∧ (fetchPeer a b c d e f s).mdl = s.mdl ∧ (fetchPeer a b c d e f s).exu = s.exu ∧ (fetchPeer a b c d e f s).coll = s.coll ∧ (fetchPeer a b c d e f s).pw = s.pw ∧ (fetchPeer a b c d e f s).sec = s.sec ∧ (fetchPeer a b c d e f s).cof = s.cof ∧ (fetchPeer a b c d e f s).draws = s.draws := by
  simp [fetchPeer]

@[simp] theorem fetchCopy_frame (a : ℕ) (b : ℕ) (c : ℕ) (d : ℕ × ShardRec) (s : State) :
    (fetchCopy a b c d s).pending = s.pending ∧ (fetchCopy a b c d s).time = s.time ∧ (fetchCopy a b c d s).id = s.id ∧ (fetchCopy a b c d s).hi = s.hi ∧ (fetchCopy a b c d s).ctxs = s.ctxs ∧ (fetchCopy a b c d s).mem = s.mem ∧ (fetchCopy a b c d s).fab = s.fab ∧ (fetchCopy a b c d s).srv = s.srv ∧ (fetchCopy a b c d s).ops = s.ops ∧ (fetchCopy a b c d s).mdl = s.mdl ∧ (fetchCopy a b c d s).exu = s.exu ∧ (fetchCopy a b c d s).coll = s.coll ∧ (fetchCopy a b c d s).pw = s.pw ∧ (fetchCopy a b c d s).sec = s.sec ∧ (fetchCopy a b c d s).cof = s.cof ∧ (fetchCopy a b c d s).draws = s.draws := by
  simp [fetchCopy]

@[simp] theorem fetchDir_frame (a : ℕ) (b : ShardRec) (s : State) :
    (fetchDir a b s).pending = s.pending ∧ (fetchDir a b s).time = s.time ∧ (fetchDir a b s).id = s.id ∧ (fetchDir a b s).hi = s.hi ∧ (fetchDir a b s).mem = s.mem ∧ (fetchDir a b s).fab = s.fab ∧ (fetchDir a b s).srv = s.srv ∧ (fetchDir a b s).ops = s.ops ∧ (fetchDir a b s).mdl = s.mdl ∧ (fetchDir a b s).exu = s.exu ∧ (fetchDir a b s).coll = s.coll ∧ (fetchDir a b s).xn = s.xn ∧ (fetchDir a b s).pw = s.pw ∧ (fetchDir a b s).sec = s.sec ∧ (fetchDir a b s).cof = s.cof ∧ (fetchDir a b s).draws = s.draws := by
  simp [fetchDir]

@[simp] theorem failRestore_frame (a : ℕ) (b : ℕ) (c : ℕ) (d : Epoch) (s : State) :
    (failRestore a b c d s).pending = s.pending ∧ (failRestore a b c d s).time = s.time ∧ (failRestore a b c d s).id = s.id ∧ (failRestore a b c d s).fab = s.fab ∧ (failRestore a b c d s).ops = s.ops ∧ (failRestore a b c d s).coll = s.coll ∧ (failRestore a b c d s).pw = s.pw ∧ (failRestore a b c d s).sec = s.sec ∧ (failRestore a b c d s).draws = s.draws := by
  simp [failRestore]

@[simp] theorem failRestore_leaf (a : ℕ) (b : ℕ) (c : ℕ) (d : Epoch) (s : State) :
    (failRestore a b c d s).hi.lock = s.hi.lock := by
  simp [failRestore]

@[simp] theorem tryRestore_frame (a : ℕ) (b : ℕ) (c : ℕ) (d : Epoch) (s : State) :
    (tryRestore a b c d s).pending = s.pending ∧ (tryRestore a b c d s).time = s.time ∧ (tryRestore a b c d s).id = s.id ∧ (tryRestore a b c d s).fab = s.fab ∧ (tryRestore a b c d s).ops = s.ops ∧ (tryRestore a b c d s).coll = s.coll ∧ (tryRestore a b c d s).pw = s.pw ∧ (tryRestore a b c d s).sec = s.sec ∧ (tryRestore a b c d s).draws = s.draws := by
  simp only [tryRestore]
  repeat' split
  all_goals simp

@[simp] theorem tryRestore_leaf (a : ℕ) (b : ℕ) (c : ℕ) (d : Epoch) (s : State) :
    (tryRestore a b c d s).hi.lock = s.hi.lock := by
  simp only [tryRestore]
  repeat' split
  all_goals simp

@[simp] theorem beginRestore_frame (a : ℕ) (s : State) :
    (beginRestore a s).pending = s.pending ∧ (beginRestore a s).time = s.time ∧ (beginRestore a s).id = s.id ∧ (beginRestore a s).fab = s.fab ∧ (beginRestore a s).ops = s.ops ∧ (beginRestore a s).coll = s.coll ∧ (beginRestore a s).pw = s.pw ∧ (beginRestore a s).sec = s.sec ∧ (beginRestore a s).draws = s.draws := by
  simp only [beginRestore]
  repeat' split
  all_goals simp

@[simp] theorem beginRestore_leaf (a : ℕ) (s : State) :
    (beginRestore a s).hi.lock = s.hi.lock := by
  simp only [beginRestore]
  repeat' split
  all_goals simp

@[simp] theorem poisonFrame_frame (a : ℕ) (s : State) :
    (poisonFrame a s).pending = s.pending ∧ (poisonFrame a s).time = s.time ∧ (poisonFrame a s).id = s.id ∧ (poisonFrame a s).fab = s.fab ∧ (poisonFrame a s).ops = s.ops ∧ (poisonFrame a s).coll = s.coll ∧ (poisonFrame a s).sec = s.sec ∧ (poisonFrame a s).draws = s.draws := by
  simp only [poisonFrame]
  repeat' split
  all_goals simp

@[simp] theorem poisonFrame_leaf (a : ℕ) (s : State) :
    (poisonFrame a s).hi.lock = s.hi.lock ∧ (poisonFrame a s).pw.st = s.pw.st := by
  simp only [poisonFrame]
  repeat' split
  all_goals simp

@[simp] theorem deliverLine_frame (a : ℕ) (b : Bool) (s : State) :
    (deliverLine a b s).pending = s.pending ∧ (deliverLine a b s).time = s.time ∧ (deliverLine a b s).id = s.id ∧ (deliverLine a b s).hi = s.hi ∧ (deliverLine a b s).ctxs = s.ctxs ∧ (deliverLine a b s).fab = s.fab ∧ (deliverLine a b s).srv = s.srv ∧ (deliverLine a b s).ops = s.ops ∧ (deliverLine a b s).mdl = s.mdl ∧ (deliverLine a b s).exu = s.exu ∧ (deliverLine a b s).coll = s.coll ∧ (deliverLine a b s).xn = s.xn ∧ (deliverLine a b s).pw = s.pw ∧ (deliverLine a b s).sec = s.sec ∧ (deliverLine a b s).td = s.td ∧ (deliverLine a b s).cof = s.cof ∧ (deliverLine a b s).draws = s.draws ∧ (deliverLine a b s).out = s.out := by
  simp [deliverLine]

@[simp] theorem deliverLine_leaf (a : ℕ) (b : Bool) (s : State) :
    (deliverLine a b s).mem.dram = s.mem.dram := by
  simp [deliverLine]

@[simp] theorem clearPoison_frame (a : ℕ) (s : State) :
    (clearPoison a s).pending = s.pending ∧ (clearPoison a s).time = s.time ∧ (clearPoison a s).id = s.id ∧ (clearPoison a s).hi = s.hi ∧ (clearPoison a s).ctxs = s.ctxs ∧ (clearPoison a s).fab = s.fab ∧ (clearPoison a s).srv = s.srv ∧ (clearPoison a s).ops = s.ops ∧ (clearPoison a s).mdl = s.mdl ∧ (clearPoison a s).exu = s.exu ∧ (clearPoison a s).coll = s.coll ∧ (clearPoison a s).xn = s.xn ∧ (clearPoison a s).pw = s.pw ∧ (clearPoison a s).sec = s.sec ∧ (clearPoison a s).td = s.td ∧ (clearPoison a s).cof = s.cof ∧ (clearPoison a s).draws = s.draws ∧ (clearPoison a s).out = s.out := by
  simp [clearPoison]

@[simp] theorem clearPoison_leaf (a : ℕ) (s : State) :
    (clearPoison a s).mem.dram = s.mem.dram := by
  simp [clearPoison]

@[simp] theorem rewriteFrame_frame (a : ℕ) (b : Epoch) (c : ShardRec) (d : List Byte) (s : State) :
    (rewriteFrame a b c d s).pending = s.pending ∧ (rewriteFrame a b c d s).time = s.time ∧ (rewriteFrame a b c d s).id = s.id ∧ (rewriteFrame a b c d s).hi = s.hi ∧ (rewriteFrame a b c d s).ctxs = s.ctxs ∧ (rewriteFrame a b c d s).fab = s.fab ∧ (rewriteFrame a b c d s).srv = s.srv ∧ (rewriteFrame a b c d s).ops = s.ops ∧ (rewriteFrame a b c d s).mdl = s.mdl ∧ (rewriteFrame a b c d s).exu = s.exu ∧ (rewriteFrame a b c d s).coll = s.coll ∧ (rewriteFrame a b c d s).xn = s.xn ∧ (rewriteFrame a b c d s).pw = s.pw ∧ (rewriteFrame a b c d s).sec = s.sec ∧ (rewriteFrame a b c d s).td = s.td ∧ (rewriteFrame a b c d s).cof = s.cof ∧ (rewriteFrame a b c d s).draws = s.draws ∧ (rewriteFrame a b c d s).out = s.out := by
  simp [rewriteFrame]

@[simp] theorem applyHeld_frame (a : ℕ) (s : State) :
    (applyHeld a s).pending = s.pending ∧ (applyHeld a s).time = s.time ∧ (applyHeld a s).id = s.id ∧ (applyHeld a s).hi = s.hi ∧ (applyHeld a s).ctxs = s.ctxs ∧ (applyHeld a s).fab = s.fab ∧ (applyHeld a s).srv = s.srv ∧ (applyHeld a s).ops = s.ops ∧ (applyHeld a s).mdl = s.mdl ∧ (applyHeld a s).exu = s.exu ∧ (applyHeld a s).coll = s.coll ∧ (applyHeld a s).xn = s.xn ∧ (applyHeld a s).pw = s.pw ∧ (applyHeld a s).sec = s.sec ∧ (applyHeld a s).td = s.td ∧ (applyHeld a s).cof = s.cof ∧ (applyHeld a s).draws = s.draws ∧ (applyHeld a s).out = s.out := by
  simp [applyHeld]

@[simp] theorem testFrame_frame (a : ℕ) (b : Bool) (s : State) :
    (testFrame a b s).pending = s.pending ∧ (testFrame a b s).time = s.time ∧ (testFrame a b s).id = s.id ∧ (testFrame a b s).fab = s.fab ∧ (testFrame a b s).ops = s.ops ∧ (testFrame a b s).coll = s.coll ∧ (testFrame a b s).pw = s.pw ∧ (testFrame a b s).sec = s.sec ∧ (testFrame a b s).draws = s.draws := by
  simp [testFrame]

@[simp] theorem testFrame_leaf (a : ℕ) (b : Bool) (s : State) :
    (testFrame a b s).hi.lock = s.hi.lock := by
  simp [testFrame]

@[simp] theorem endRestore_frame (a : ℕ) (b : ℕ) (c : ℕ) (d : Epoch) (e : Bool) (f : Option (List Byte)) (s : State) :
    (endRestore a b c d e f s).pending = s.pending ∧ (endRestore a b c d e f s).time = s.time ∧ (endRestore a b c d e f s).id = s.id ∧ (endRestore a b c d e f s).fab = s.fab ∧ (endRestore a b c d e f s).ops = s.ops ∧ (endRestore a b c d e f s).coll = s.coll ∧ (endRestore a b c d e f s).pw = s.pw ∧ (endRestore a b c d e f s).sec = s.sec ∧ (endRestore a b c d e f s).draws = s.draws := by
  simp only [endRestore]
  repeat' split
  all_goals simp

@[simp] theorem endRestore_leaf (a : ℕ) (b : ℕ) (c : ℕ) (d : Epoch) (e : Bool) (f : Option (List Byte)) (s : State) :
    (endRestore a b c d e f s).hi.lock = s.hi.lock := by
  simp only [endRestore]
  repeat' split
  all_goals simp

@[simp] theorem clearAccess_frame (s : State) :
    (clearAccess s).pending = s.pending ∧ (clearAccess s).time = s.time ∧ (clearAccess s).id = s.id ∧ (clearAccess s).hi = s.hi ∧ (clearAccess s).ctxs = s.ctxs ∧ (clearAccess s).fab = s.fab ∧ (clearAccess s).srv = s.srv ∧ (clearAccess s).ops = s.ops ∧ (clearAccess s).mdl = s.mdl ∧ (clearAccess s).exu = s.exu ∧ (clearAccess s).coll = s.coll ∧ (clearAccess s).xn = s.xn ∧ (clearAccess s).pw = s.pw ∧ (clearAccess s).sec = s.sec ∧ (clearAccess s).td = s.td ∧ (clearAccess s).cof = s.cof ∧ (clearAccess s).draws = s.draws ∧ (clearAccess s).out = s.out := by
  simp [clearAccess]

@[simp] theorem clearAccess_leaf (s : State) :
    (clearAccess s).mem.dram = s.mem.dram := by
  simp [clearAccess]

@[simp] theorem askPoisoned_frame (s : State) :
    (askPoisoned s).pending = s.pending ∧ (askPoisoned s).time = s.time ∧ (askPoisoned s).id = s.id ∧ (askPoisoned s).hi = s.hi ∧ (askPoisoned s).ctxs = s.ctxs ∧ (askPoisoned s).fab = s.fab ∧ (askPoisoned s).srv = s.srv ∧ (askPoisoned s).ops = s.ops ∧ (askPoisoned s).mdl = s.mdl ∧ (askPoisoned s).exu = s.exu ∧ (askPoisoned s).coll = s.coll ∧ (askPoisoned s).pw = s.pw ∧ (askPoisoned s).sec = s.sec ∧ (askPoisoned s).cof = s.cof ∧ (askPoisoned s).draws = s.draws := by
  simp [askPoisoned]

@[simp] theorem askPoisoned_leaf (s : State) :
    (askPoisoned s).mem.dram = s.mem.dram := by
  simp [askPoisoned]

@[simp] theorem unwant_frame (a : ℕ) (b : ℕ) (c : ℕ) (d : ℕ) (s : State) :
    (unwant a b c d s).pending = s.pending ∧ (unwant a b c d s).time = s.time ∧ (unwant a b c d s).id = s.id ∧ (unwant a b c d s).hi = s.hi ∧ (unwant a b c d s).ctxs = s.ctxs ∧ (unwant a b c d s).fab = s.fab ∧ (unwant a b c d s).srv = s.srv ∧ (unwant a b c d s).ops = s.ops ∧ (unwant a b c d s).mdl = s.mdl ∧ (unwant a b c d s).exu = s.exu ∧ (unwant a b c d s).coll = s.coll ∧ (unwant a b c d s).xn = s.xn ∧ (unwant a b c d s).pw = s.pw ∧ (unwant a b c d s).sec = s.sec ∧ (unwant a b c d s).td = s.td ∧ (unwant a b c d s).cof = s.cof ∧ (unwant a b c d s).draws = s.draws ∧ (unwant a b c d s).out = s.out := by
  simp [unwant]

@[simp] theorem unwant_leaf (a : ℕ) (b : ℕ) (c : ℕ) (d : ℕ) (s : State) :
    (unwant a b c d s).mem.dram = s.mem.dram := by
  simp [unwant]

@[simp] theorem freeForeign_frame (a : ℕ) (b : ℕ) (s : State) :
    (freeForeign a b s).pending = s.pending ∧ (freeForeign a b s).time = s.time ∧ (freeForeign a b s).id = s.id ∧ (freeForeign a b s).hi = s.hi ∧ (freeForeign a b s).ctxs = s.ctxs ∧ (freeForeign a b s).fab = s.fab ∧ (freeForeign a b s).ops = s.ops ∧ (freeForeign a b s).mdl = s.mdl ∧ (freeForeign a b s).exu = s.exu ∧ (freeForeign a b s).coll = s.coll ∧ (freeForeign a b s).xn = s.xn ∧ (freeForeign a b s).pw = s.pw ∧ (freeForeign a b s).sec = s.sec ∧ (freeForeign a b s).td = s.td ∧ (freeForeign a b s).cof = s.cof ∧ (freeForeign a b s).draws = s.draws ∧ (freeForeign a b s).out = s.out := by
  simp only [freeForeign]
  repeat' split
  all_goals simp

@[simp] theorem freeForeign_leaf (a : ℕ) (b : ℕ) (s : State) :
    (freeForeign a b s).mem.dram = s.mem.dram := by
  simp only [freeForeign]
  repeat' split
  all_goals simp

end Sys2Proof.Machine
end

