-- ==== Sys2Proof/Laws/Resize.lean ====
section
/-! SUPPORT. What the operations of Machine/Resize.lean leave unchanged: the parts of the state that each does not touch. -/
namespace Sys2Proof.Machine

@[simp] theorem freeEpochArea_frame (a : ℕ) (b : ℕ) (s : State) :
    (freeEpochArea a b s).pending = s.pending ∧ (freeEpochArea a b s).time = s.time ∧ (freeEpochArea a b s).id = s.id ∧ (freeEpochArea a b s).hi = s.hi ∧ (freeEpochArea a b s).ctxs = s.ctxs ∧ (freeEpochArea a b s).fab = s.fab ∧ (freeEpochArea a b s).ops = s.ops ∧ (freeEpochArea a b s).exu = s.exu ∧ (freeEpochArea a b s).coll = s.coll ∧ (freeEpochArea a b s).xn = s.xn ∧ (freeEpochArea a b s).pw = s.pw ∧ (freeEpochArea a b s).sec = s.sec ∧ (freeEpochArea a b s).td = s.td ∧ (freeEpochArea a b s).cof = s.cof ∧ (freeEpochArea a b s).draws = s.draws ∧ (freeEpochArea a b s).out = s.out := by
  simp only [freeEpochArea]
  repeat' split
  all_goals simp

@[simp] theorem dropModelAreas_frame (a : ℕ) (s : State) :
    (dropModelAreas a s).pending = s.pending ∧ (dropModelAreas a s).time = s.time ∧ (dropModelAreas a s).id = s.id ∧ (dropModelAreas a s).hi = s.hi ∧ (dropModelAreas a s).ctxs = s.ctxs ∧ (dropModelAreas a s).fab = s.fab ∧ (dropModelAreas a s).ops = s.ops ∧ (dropModelAreas a s).exu = s.exu ∧ (dropModelAreas a s).coll = s.coll ∧ (dropModelAreas a s).xn = s.xn ∧ (dropModelAreas a s).pw = s.pw ∧ (dropModelAreas a s).sec = s.sec ∧ (dropModelAreas a s).td = s.td ∧ (dropModelAreas a s).cof = s.cof ∧ (dropModelAreas a s).draws = s.draws ∧ (dropModelAreas a s).out = s.out := by
  simp only [dropModelAreas]
  repeat' split
  all_goals simp

@[simp] theorem modTarget_frame (a : ℕ) (b : List (ℕ × ℕ) → List (ℕ × ℕ)) (s : State) :
    (modTarget a b s).pending = s.pending ∧ (modTarget a b s).time = s.time ∧ (modTarget a b s).id = s.id ∧ (modTarget a b s).hi = s.hi ∧ (modTarget a b s).ctxs = s.ctxs ∧ (modTarget a b s).fab = s.fab ∧ (modTarget a b s).srv = s.srv ∧ (modTarget a b s).ops = s.ops ∧ (modTarget a b s).mdl = s.mdl ∧ (modTarget a b s).exu = s.exu ∧ (modTarget a b s).coll = s.coll ∧ (modTarget a b s).xn = s.xn ∧ (modTarget a b s).pw = s.pw ∧ (modTarget a b s).sec = s.sec ∧ (modTarget a b s).td = s.td ∧ (modTarget a b s).cof = s.cof ∧ (modTarget a b s).draws = s.draws ∧ (modTarget a b s).out = s.out := by
  simp [modTarget]

@[simp] theorem modTarget_leaf (a : ℕ) (b : List (ℕ × ℕ) → List (ℕ × ℕ)) (s : State) :
    (modTarget a b s).mem.dram = s.mem.dram := by
  simp [modTarget]

@[simp] theorem setTarget_frame (a : ℕ) (b : Option ℕ) (s : State) :
    (setTarget a b s).pending = s.pending ∧ (setTarget a b s).time = s.time ∧ (setTarget a b s).id = s.id ∧ (setTarget a b s).hi = s.hi ∧ (setTarget a b s).ctxs = s.ctxs ∧ (setTarget a b s).fab = s.fab ∧ (setTarget a b s).srv = s.srv ∧ (setTarget a b s).ops = s.ops ∧ (setTarget a b s).mdl = s.mdl ∧ (setTarget a b s).exu = s.exu ∧ (setTarget a b s).coll = s.coll ∧ (setTarget a b s).xn = s.xn ∧ (setTarget a b s).pw = s.pw ∧ (setTarget a b s).sec = s.sec ∧ (setTarget a b s).td = s.td ∧ (setTarget a b s).cof = s.cof ∧ (setTarget a b s).draws = s.draws ∧ (setTarget a b s).out = s.out := by
  simp [setTarget]

@[simp] theorem setTarget_leaf (a : ℕ) (b : Option ℕ) (s : State) :
    (setTarget a b s).mem.dram = s.mem.dram := by
  simp [setTarget]

@[simp] theorem takeEmpty_frame (a : ℕ) (b : ℕ) (c : ℕ) (s : State) :
    (takeEmpty a b c s).pending = s.pending ∧ (takeEmpty a b c s).time = s.time ∧ (takeEmpty a b c s).id = s.id ∧ (takeEmpty a b c s).hi = s.hi ∧ (takeEmpty a b c s).ctxs = s.ctxs ∧ (takeEmpty a b c s).fab = s.fab ∧ (takeEmpty a b c s).srv = s.srv ∧ (takeEmpty a b c s).mdl = s.mdl ∧ (takeEmpty a b c s).exu = s.exu ∧ (takeEmpty a b c s).coll = s.coll ∧ (takeEmpty a b c s).xn = s.xn ∧ (takeEmpty a b c s).pw = s.pw ∧ (takeEmpty a b c s).sec = s.sec ∧ (takeEmpty a b c s).td = s.td ∧ (takeEmpty a b c s).cof = s.cof ∧ (takeEmpty a b c s).draws = s.draws ∧ (takeEmpty a b c s).out = s.out := by
  simp [takeEmpty]

@[simp] theorem takeEmpty_leaf (a : ℕ) (b : ℕ) (c : ℕ) (s : State) :
    (takeEmpty a b c s).mem.dram = s.mem.dram := by
  simp [takeEmpty]

@[simp] theorem reclaimPart_frame (a : ℕ) (b : ℕ) (c : ℕ) (d : ℕ) (s : State) :
    (reclaimPart a b c d s).pending = s.pending ∧ (reclaimPart a b c d s).time = s.time ∧ (reclaimPart a b c d s).id = s.id ∧ (reclaimPart a b c d s).fab = s.fab ∧ (reclaimPart a b c d s).mdl = s.mdl ∧ (reclaimPart a b c d s).exu = s.exu ∧ (reclaimPart a b c d s).coll = s.coll ∧ (reclaimPart a b c d s).pw = s.pw ∧ (reclaimPart a b c d s).sec = s.sec ∧ (reclaimPart a b c d s).cof = s.cof ∧ (reclaimPart a b c d s).draws = s.draws := by
  induction d generalizing a b c s with
  | zero => simp [reclaimPart]
  | succ m ih =>
    unfold reclaimPart
    try dsimp only
    repeat' split
    all_goals simp [ih]

@[simp] theorem reclaimPart_leaf (a : ℕ) (b : ℕ) (c : ℕ) (d : ℕ) (s : State) :
    (reclaimPart a b c d s).mem.dram = s.mem.dram ∧ (reclaimPart a b c d s).hi.lock = s.hi.lock := by
  induction d generalizing a b c s with
  | zero => simp [reclaimPart]
  | succ m ih =>
    unfold reclaimPart
    try dsimp only
    repeat' split
    all_goals simp [ih]

@[simp] theorem reclaimModel_frame (a : ℕ) (b : ℕ) (c : Bool) (d : ℕ) (s : State) :
    (reclaimModel a b c d s).pending = s.pending ∧ (reclaimModel a b c d s).time = s.time ∧ (reclaimModel a b c d s).id = s.id ∧ (reclaimModel a b c d s).hi = s.hi ∧ (reclaimModel a b c d s).ctxs = s.ctxs ∧ (reclaimModel a b c d s).fab = s.fab ∧ (reclaimModel a b c d s).exu = s.exu ∧ (reclaimModel a b c d s).coll = s.coll ∧ (reclaimModel a b c d s).xn = s.xn ∧ (reclaimModel a b c d s).pw = s.pw ∧ (reclaimModel a b c d s).sec = s.sec ∧ (reclaimModel a b c d s).td = s.td ∧ (reclaimModel a b c d s).cof = s.cof ∧ (reclaimModel a b c d s).draws = s.draws ∧ (reclaimModel a b c d s).out = s.out := by
  induction d generalizing a b c s with
  | zero => simp [reclaimModel]
  | succ m ih =>
    unfold reclaimModel
    try dsimp only
    repeat' split
    all_goals simp [ih]

@[simp] theorem reclaim_frame (a : ℕ) (s : State) :
    (reclaim a s).pending = s.pending ∧ (reclaim a s).time = s.time ∧ (reclaim a s).id = s.id ∧ (reclaim a s).fab = s.fab ∧ (reclaim a s).exu = s.exu ∧ (reclaim a s).coll = s.coll ∧ (reclaim a s).pw = s.pw ∧ (reclaim a s).sec = s.sec ∧ (reclaim a s).cof = s.cof ∧ (reclaim a s).draws = s.draws := by
  simp only [reclaim]
  repeat' split
  all_goals simp

@[simp] theorem reclaim_leaf (a : ℕ) (s : State) :
    (reclaim a s).hi.lock = s.hi.lock := by
  simp only [reclaim]
  repeat' split
  all_goals simp

@[simp] theorem checkResize_frame (a : ℕ) (b : ℕ) (c : ℕ) (d : Bool) (s : State) :
    (checkResize a b c d s).pending = s.pending ∧ (checkResize a b c d s).time = s.time ∧ (checkResize a b c d s).id = s.id ∧ (checkResize a b c d s).exu = s.exu ∧ (checkResize a b c d s).coll = s.coll ∧ (checkResize a b c d s).sec = s.sec ∧ (checkResize a b c d s).cof = s.cof ∧ (checkResize a b c d s).draws = s.draws := by
  simp [checkResize]

@[simp] theorem checkResize_leaf (a : ℕ) (b : ℕ) (c : ℕ) (d : Bool) (s : State) :
    (checkResize a b c d s).fab.scratch = s.fab.scratch ∧ (checkResize a b c d s).hi.lock = s.hi.lock ∧ (checkResize a b c d s).pw.st = s.pw.st := by
  simp [checkResize]

@[simp] theorem retagDone_frame (a : ℕ) (s : State) :
    (retagDone a s).pending = s.pending ∧ (retagDone a s).time = s.time ∧ (retagDone a s).id = s.id ∧ (retagDone a s).mdl = s.mdl ∧ (retagDone a s).exu = s.exu ∧ (retagDone a s).coll = s.coll ∧ (retagDone a s).xn = s.xn ∧ (retagDone a s).sec = s.sec ∧ (retagDone a s).cof = s.cof ∧ (retagDone a s).draws = s.draws := by
  simp only [retagDone]
  repeat' split
  all_goals simp

@[simp] theorem retagDone_leaf (a : ℕ) (s : State) :
    (retagDone a s).fab.scratch = s.fab.scratch ∧ (retagDone a s).hi.lock = s.hi.lock ∧ (retagDone a s).pw.st = s.pw.st := by
  simp only [retagDone]
  repeat' split
  all_goals simp

@[simp] theorem cancelResize_frame (a : ℕ) (b : List (ℕ × ℕ)) (s : State) :
    (cancelResize a b s).pending = s.pending ∧ (cancelResize a b s).time = s.time ∧ (cancelResize a b s).id = s.id ∧ (cancelResize a b s).hi = s.hi ∧ (cancelResize a b s).ctxs = s.ctxs ∧ (cancelResize a b s).fab = s.fab ∧ (cancelResize a b s).srv = s.srv ∧ (cancelResize a b s).ops = s.ops ∧ (cancelResize a b s).mdl = s.mdl ∧ (cancelResize a b s).exu = s.exu ∧ (cancelResize a b s).coll = s.coll ∧ (cancelResize a b s).xn = s.xn ∧ (cancelResize a b s).pw = s.pw ∧ (cancelResize a b s).sec = s.sec ∧ (cancelResize a b s).td = s.td ∧ (cancelResize a b s).cof = s.cof ∧ (cancelResize a b s).draws = s.draws ∧ (cancelResize a b s).out = s.out := by
  simp [cancelResize]

end Sys2Proof.Machine
end

