-- ==== Sys2Proof/Laws/Colls.lean ====
section
/-! SUPPORT. What the operations of Machine/Colls.lean leave unchanged: the parts of the state that each does not touch. -/
namespace Sys2Proof.Machine

@[simp] theorem modGroup_pending (a : ℕ) (b : Group → Group) (s : State) : (modGroup a b s).pending = s.pending := (rfl)
@[simp] theorem modGroup_time (a : ℕ) (b : Group → Group) (s : State) : (modGroup a b s).time = s.time := (rfl)
@[simp] theorem modGroup_id (a : ℕ) (b : Group → Group) (s : State) : (modGroup a b s).id = s.id := (rfl)
@[simp] theorem modGroup_hi (a : ℕ) (b : Group → Group) (s : State) : (modGroup a b s).hi = s.hi := (rfl)
@[simp] theorem modGroup_ctxs (a : ℕ) (b : Group → Group) (s : State) : (modGroup a b s).ctxs = s.ctxs := (rfl)
@[simp] theorem modGroup_mem (a : ℕ) (b : Group → Group) (s : State) : (modGroup a b s).mem = s.mem := (rfl)
@[simp] theorem modGroup_fab (a : ℕ) (b : Group → Group) (s : State) : (modGroup a b s).fab = s.fab := (rfl)
@[simp] theorem modGroup_srv (a : ℕ) (b : Group → Group) (s : State) : (modGroup a b s).srv = s.srv := (rfl)
@[simp] theorem modGroup_ops (a : ℕ) (b : Group → Group) (s : State) : (modGroup a b s).ops = s.ops := (rfl)
@[simp] theorem modGroup_mdl (a : ℕ) (b : Group → Group) (s : State) : (modGroup a b s).mdl = s.mdl := (rfl)
@[simp] theorem modGroup_exu (a : ℕ) (b : Group → Group) (s : State) : (modGroup a b s).exu = s.exu := (rfl)
@[simp] theorem modGroup_xn (a : ℕ) (b : Group → Group) (s : State) : (modGroup a b s).xn = s.xn := (rfl)
@[simp] theorem modGroup_pw (a : ℕ) (b : Group → Group) (s : State) : (modGroup a b s).pw = s.pw := (rfl)
@[simp] theorem modGroup_sec (a : ℕ) (b : Group → Group) (s : State) : (modGroup a b s).sec = s.sec := (rfl)
@[simp] theorem modGroup_td (a : ℕ) (b : Group → Group) (s : State) : (modGroup a b s).td = s.td := (rfl)
@[simp] theorem modGroup_cof (a : ℕ) (b : Group → Group) (s : State) : (modGroup a b s).cof = s.cof := (rfl)
@[simp] theorem modGroup_draws (a : ℕ) (b : Group → Group) (s : State) : (modGroup a b s).draws = s.draws := (rfl)
@[simp] theorem modGroup_out (a : ℕ) (b : Group → Group) (s : State) : (modGroup a b s).out = s.out := (rfl)

@[simp] theorem countSeq_frame (a : ℕ) (b : ℕ) (s : State) :
    (countSeq a b s).pending = s.pending ∧ (countSeq a b s).time = s.time ∧ (countSeq a b s).id = s.id ∧ (countSeq a b s).hi = s.hi ∧ (countSeq a b s).ctxs = s.ctxs ∧ (countSeq a b s).mem = s.mem ∧ (countSeq a b s).fab = s.fab ∧ (countSeq a b s).srv = s.srv ∧ (countSeq a b s).ops = s.ops ∧ (countSeq a b s).mdl = s.mdl ∧ (countSeq a b s).exu = s.exu ∧ (countSeq a b s).coll = s.coll ∧ (countSeq a b s).pw = s.pw ∧ (countSeq a b s).sec = s.sec ∧ (countSeq a b s).td = s.td ∧ (countSeq a b s).cof = s.cof ∧ (countSeq a b s).draws = s.draws ∧ (countSeq a b s).out = s.out := by
  simp [countSeq]

@[simp] theorem collWrite_frame (a : ℕ) (b : ℕ) (c : Bool) (d : ℕ) (e : List Byte) (s : State) :
    (collWrite a b c d e s).pending = s.pending ∧ (collWrite a b c d e s).time = s.time ∧ (collWrite a b c d e s).id = s.id ∧ (collWrite a b c d e s).hi = s.hi ∧ (collWrite a b c d e s).ctxs = s.ctxs ∧ (collWrite a b c d e s).srv = s.srv ∧ (collWrite a b c d e s).ops = s.ops ∧ (collWrite a b c d e s).mdl = s.mdl ∧ (collWrite a b c d e s).exu = s.exu ∧ (collWrite a b c d e s).coll = s.coll ∧ (collWrite a b c d e s).xn = s.xn ∧ (collWrite a b c d e s).pw = s.pw ∧ (collWrite a b c d e s).sec = s.sec ∧ (collWrite a b c d e s).td = s.td ∧ (collWrite a b c d e s).cof = s.cof ∧ (collWrite a b c d e s).draws = s.draws ∧ (collWrite a b c d e s).out = s.out := by
  simp (disch := first | (intros; (repeat' split) <;> (simp [-Nat.reducePow]; done)) | (intros; dsimp only; (repeat' split) <;> (simp [-Nat.reducePow]; done)) | assumption) [collWrite, -Nat.reducePow]

@[simp] theorem modHead_frame (a : ℕ) (b : CollOp → CollOp) (s : State) :
    (modHead a b s).pending = s.pending ∧ (modHead a b s).time = s.time ∧ (modHead a b s).id = s.id ∧ (modHead a b s).hi = s.hi ∧ (modHead a b s).ctxs = s.ctxs ∧ (modHead a b s).mem = s.mem ∧ (modHead a b s).fab = s.fab ∧ (modHead a b s).srv = s.srv ∧ (modHead a b s).ops = s.ops ∧ (modHead a b s).mdl = s.mdl ∧ (modHead a b s).exu = s.exu ∧ (modHead a b s).xn = s.xn ∧ (modHead a b s).pw = s.pw ∧ (modHead a b s).sec = s.sec ∧ (modHead a b s).td = s.td ∧ (modHead a b s).cof = s.cof ∧ (modHead a b s).draws = s.draws ∧ (modHead a b s).out = s.out := by
  simp [modHead]

@[simp] theorem closeOp_frame (a : ℕ) (b : CollOp) (s : State) :
    (closeOp a b s).pending = s.pending ∧ (closeOp a b s).time = s.time ∧ (closeOp a b s).id = s.id ∧ (closeOp a b s).sec = s.sec ∧ (closeOp a b s).draws = s.draws := by
  simp only [closeOp]
  repeat' split
  all_goals simp

@[simp] theorem closeOp_leaf (a : ℕ) (b : CollOp) (s : State) :
    (closeOp a b s).hi.lock = s.hi.lock ∧ (closeOp a b s).pw.st = s.pw.st := by
  simp only [closeOp]
  repeat' split
  all_goals simp

@[simp] theorem sendColl_frame (a : ℕ) (b : ℕ) (c : ℕ) (d : CollPkt) (s : State) :
    (sendColl a b c d s).pending = s.pending ∧ (sendColl a b c d s).time = s.time ∧ (sendColl a b c d s).id = s.id ∧ (sendColl a b c d s).fab = s.fab ∧ (sendColl a b c d s).ops = s.ops ∧ (sendColl a b c d s).pw = s.pw ∧ (sendColl a b c d s).sec = s.sec ∧ (sendColl a b c d s).draws = s.draws := by
  simp only [sendColl]
  repeat' split
  all_goals simp

@[simp] theorem sendColl_leaf (a : ℕ) (b : ℕ) (c : ℕ) (d : CollPkt) (s : State) :
    (sendColl a b c d s).hi.lock = s.hi.lock := by
  simp only [sendColl]
  repeat' split
  all_goals simp

@[simp] theorem faultGroup_frame (a : ℕ) (s : State) :
    (faultGroup a s).pending = s.pending ∧ (faultGroup a s).time = s.time ∧ (faultGroup a s).id = s.id ∧ (faultGroup a s).sec = s.sec ∧ (faultGroup a s).draws = s.draws := by
  simp only [faultGroup]
  repeat' split
  all_goals simp

@[simp] theorem faultGroup_leaf (a : ℕ) (s : State) :
    (faultGroup a s).hi.lock = s.hi.lock ∧ (faultGroup a s).pw.st = s.pw.st := by
  simp only [faultGroup]
  repeat' split
  all_goals simp

@[simp] theorem raiseFault_frame (a : ℕ) (s : State) :
    (raiseFault a s).pending = s.pending ∧ (raiseFault a s).time = s.time ∧ (raiseFault a s).id = s.id ∧ (raiseFault a s).sec = s.sec ∧ (raiseFault a s).draws = s.draws := by
  simp only [raiseFault]
  repeat' split
  all_goals simp

@[simp] theorem raiseFault_leaf (a : ℕ) (s : State) :
    (raiseFault a s).hi.lock = s.hi.lock ∧ (raiseFault a s).pw.st = s.pw.st := by
  simp only [raiseFault]
  repeat' split
  all_goals simp

@[simp] theorem deliverSmall_frame (a : Group) (b : CollOp) (c : List Dword) (s : State) :
    (deliverSmall a b c s).pending = s.pending ∧ (deliverSmall a b c s).time = s.time ∧ (deliverSmall a b c s).id = s.id ∧ (deliverSmall a b c s).hi = s.hi ∧ (deliverSmall a b c s).srv = s.srv ∧ (deliverSmall a b c s).ops = s.ops ∧ (deliverSmall a b c s).mdl = s.mdl ∧ (deliverSmall a b c s).exu = s.exu ∧ (deliverSmall a b c s).coll = s.coll ∧ (deliverSmall a b c s).xn = s.xn ∧ (deliverSmall a b c s).pw = s.pw ∧ (deliverSmall a b c s).sec = s.sec ∧ (deliverSmall a b c s).cof = s.cof ∧ (deliverSmall a b c s).draws = s.draws := by
  simp [deliverSmall]

@[simp] theorem stepSmall_frame (a : ℕ) (s : State) :
    (stepSmall a s).2.pending = s.pending ∧ (stepSmall a s).2.time = s.time ∧ (stepSmall a s).2.id = s.id ∧ (stepSmall a s).2.ops = s.ops ∧ (stepSmall a s).2.pw = s.pw ∧ (stepSmall a s).2.sec = s.sec ∧ (stepSmall a s).2.draws = s.draws := by
  simp only [stepSmall]
  repeat' split
  all_goals simp

@[simp] theorem stepSmall_leaf (a : ℕ) (s : State) :
    (stepSmall a s).2.hi.lock = s.hi.lock := by
  simp only [stepSmall]
  repeat' split
  all_goals simp

@[simp] theorem sendBulk_frame (a : ℕ) (b : ℕ) (s : State) :
    (sendBulk a b s).pending = s.pending ∧ (sendBulk a b s).time = s.time ∧ (sendBulk a b s).id = s.id ∧ (sendBulk a b s).fab = s.fab ∧ (sendBulk a b s).ops = s.ops ∧ (sendBulk a b s).pw = s.pw ∧ (sendBulk a b s).sec = s.sec ∧ (sendBulk a b s).draws = s.draws := by
  induction b generalizing a s with
  | zero => simp [sendBulk]
  | succ m ih =>
    unfold sendBulk
    try dsimp only
    repeat' split
    all_goals simp [ih]

@[simp] theorem sendBulk_leaf (a : ℕ) (b : ℕ) (s : State) :
    (sendBulk a b s).hi.lock = s.hi.lock := by
  induction b generalizing a s with
  | zero => simp [sendBulk]
  | succ m ih =>
    unfold sendBulk
    try dsimp only
    repeat' split
    all_goals simp [ih]

@[simp] theorem deliverBulk_frame (a : Group) (b : CollOp) (s : State) :
    (deliverBulk a b s).pending = s.pending ∧ (deliverBulk a b s).time = s.time ∧ (deliverBulk a b s).id = s.id ∧ (deliverBulk a b s).hi = s.hi ∧ (deliverBulk a b s).ctxs = s.ctxs ∧ (deliverBulk a b s).srv = s.srv ∧ (deliverBulk a b s).ops = s.ops ∧ (deliverBulk a b s).mdl = s.mdl ∧ (deliverBulk a b s).exu = s.exu ∧ (deliverBulk a b s).coll = s.coll ∧ (deliverBulk a b s).xn = s.xn ∧ (deliverBulk a b s).pw = s.pw ∧ (deliverBulk a b s).sec = s.sec ∧ (deliverBulk a b s).td = s.td ∧ (deliverBulk a b s).cof = s.cof ∧ (deliverBulk a b s).draws = s.draws ∧ (deliverBulk a b s).out = s.out := by
  simp [deliverBulk]

@[simp] theorem poisonOp_frame (a : ℕ) (s : State) :
    (poisonOp a s).pending = s.pending ∧ (poisonOp a s).time = s.time ∧ (poisonOp a s).id = s.id ∧ (poisonOp a s).sec = s.sec ∧ (poisonOp a s).draws = s.draws := by
  simp only [poisonOp]
  repeat' split
  all_goals simp

@[simp] theorem poisonOp_leaf (a : ℕ) (s : State) :
    (poisonOp a s).hi.lock = s.hi.lock ∧ (poisonOp a s).pw.st = s.pw.st := by
  simp only [poisonOp]
  repeat' split
  all_goals simp

@[simp] theorem stageChunk_frame (a : ℕ) (b : List Byte) (s : State) :
    (stageChunk a b s).pending = s.pending ∧ (stageChunk a b s).time = s.time ∧ (stageChunk a b s).id = s.id ∧ (stageChunk a b s).hi = s.hi ∧ (stageChunk a b s).ctxs = s.ctxs ∧ (stageChunk a b s).mem = s.mem ∧ (stageChunk a b s).srv = s.srv ∧ (stageChunk a b s).ops = s.ops ∧ (stageChunk a b s).mdl = s.mdl ∧ (stageChunk a b s).exu = s.exu ∧ (stageChunk a b s).xn = s.xn ∧ (stageChunk a b s).pw = s.pw ∧ (stageChunk a b s).sec = s.sec ∧ (stageChunk a b s).td = s.td ∧ (stageChunk a b s).cof = s.cof ∧ (stageChunk a b s).draws = s.draws ∧ (stageChunk a b s).out = s.out := by
  simp only [stageChunk]
  repeat' split
  all_goals simp

@[simp] theorem startOp_frame (a : ℕ) (s : State) :
    (startOp a s).pending = s.pending ∧ (startOp a s).time = s.time ∧ (startOp a s).id = s.id ∧ (startOp a s).sec = s.sec ∧ (startOp a s).draws = s.draws := by
  simp only [startOp]
  repeat' split
  all_goals simp

@[simp] theorem startOp_leaf (a : ℕ) (s : State) :
    (startOp a s).hi.lock = s.hi.lock ∧ (startOp a s).pw.st = s.pw.st := by
  simp only [startOp]
  repeat' split
  all_goals simp

@[simp] theorem takePkt_frame (a : ℕ) (b : CollPkt) (s : State) :
    (takePkt a b s).pending = s.pending ∧ (takePkt a b s).time = s.time ∧ (takePkt a b s).id = s.id ∧ (takePkt a b s).ops = s.ops ∧ (takePkt a b s).pw = s.pw ∧ (takePkt a b s).sec = s.sec ∧ (takePkt a b s).draws = s.draws := by
  simp only [takePkt]
  repeat' split
  all_goals simp

@[simp] theorem takePkt_leaf (a : ℕ) (b : CollPkt) (s : State) :
    (takePkt a b s).hi.lock = s.hi.lock := by
  simp only [takePkt]
  repeat' split
  all_goals simp

@[simp] theorem takeEarly_frame (a : ℕ) (b : ℕ) (s : State) :
    (takeEarly a b s).pending = s.pending ∧ (takeEarly a b s).time = s.time ∧ (takeEarly a b s).id = s.id ∧ (takeEarly a b s).sec = s.sec ∧ (takeEarly a b s).draws = s.draws := by
  induction b generalizing a s with
  | zero => simp [takeEarly]
  | succ m ih =>
    unfold takeEarly
    try dsimp only
    repeat' split
    all_goals simp [ih]

@[simp] theorem takeEarly_leaf (a : ℕ) (b : ℕ) (s : State) :
    (takeEarly a b s).hi.lock = s.hi.lock ∧ (takeEarly a b s).pw.st = s.pw.st := by
  induction b generalizing a s with
  | zero => simp [takeEarly]
  | succ m ih =>
    unfold takeEarly
    try dsimp only
    repeat' split
    all_goals simp [ih]

@[simp] theorem runGroup_frame (a : ℕ) (b : ℕ) (s : State) :
    (runGroup a b s).pending = s.pending ∧ (runGroup a b s).time = s.time ∧ (runGroup a b s).id = s.id ∧ (runGroup a b s).sec = s.sec ∧ (runGroup a b s).draws = s.draws := by
  induction b generalizing a s with
  | zero => simp [runGroup]
  | succ m ih =>
    unfold runGroup
    try dsimp only
    repeat' split
    all_goals simp [ih]

@[simp] theorem runGroup_leaf (a : ℕ) (b : ℕ) (s : State) :
    (runGroup a b s).hi.lock = s.hi.lock ∧ (runGroup a b s).pw.st = s.pw.st := by
  induction b generalizing a s with
  | zero => simp [runGroup]
  | succ m ih =>
    unfold runGroup
    try dsimp only
    repeat' split
    all_goals simp [ih]

@[simp] theorem enterOp_frame (a : ℕ) (b : CollOp) (s : State) :
    (enterOp a b s).pending = s.pending ∧ (enterOp a b s).time = s.time ∧ (enterOp a b s).id = s.id ∧ (enterOp a b s).sec = s.sec ∧ (enterOp a b s).draws = s.draws := by
  simp only [enterOp]
  repeat' split
  all_goals simp

@[simp] theorem enterOp_leaf (a : ℕ) (b : CollOp) (s : State) :
    (enterOp a b s).hi.lock = s.hi.lock ∧ (enterOp a b s).pw.st = s.pw.st := by
  simp only [enterOp]
  repeat' split
  all_goals simp

@[simp] theorem settleJoin_frame (a : ℕ) (s : State) :
    (settleJoin a s).pending = s.pending ∧ (settleJoin a s).time = s.time ∧ (settleJoin a s).id = s.id ∧ (settleJoin a s).sec = s.sec ∧ (settleJoin a s).draws = s.draws := by
  simp only [settleJoin]
  repeat' split
  all_goals simp

@[simp] theorem settleJoin_leaf (a : ℕ) (s : State) :
    (settleJoin a s).hi.lock = s.hi.lock ∧ (settleJoin a s).pw.st = s.pw.st := by
  simp only [settleJoin]
  repeat' split
  all_goals simp

@[simp] theorem takeJoin_frame (a : ℕ) (b : JoinParams) (s : State) :
    (takeJoin a b s).pending = s.pending ∧ (takeJoin a b s).time = s.time ∧ (takeJoin a b s).id = s.id ∧ (takeJoin a b s).sec = s.sec ∧ (takeJoin a b s).draws = s.draws := by
  simp only [takeJoin]
  repeat' split
  all_goals simp

@[simp] theorem takeJoin_leaf (a : ℕ) (b : JoinParams) (s : State) :
    (takeJoin a b s).hi.lock = s.hi.lock ∧ (takeJoin a b s).pw.st = s.pw.st := by
  simp only [takeJoin]
  repeat' split
  all_goals simp

@[simp] theorem hostColl_frame (a : ℕ) (b : Hdr) (c : ℕ) (d : CollBody) (s : State) :
    (hostColl a b c d s).pending = s.pending ∧ (hostColl a b c d s).id = s.id ∧ (hostColl a b c d s).sec = s.sec ∧ (hostColl a b c d s).draws = s.draws := by
  simp (disch := first | (intros; (repeat' split) <;> (simp [-Nat.reducePow]; done)) | (intros; dsimp only; (repeat' split) <;> (simp [-Nat.reducePow]; done)) | assumption) [hostColl, -Nat.reducePow]

@[simp] theorem hostColl_leaf (a : ℕ) (b : Hdr) (c : ℕ) (d : CollBody) (s : State) :
    (hostColl a b c d s).hi.lock = s.hi.lock ∧ (hostColl a b c d s).pw.st = s.pw.st := by
  simp (disch := first | (intros; (repeat' split) <;> (simp [-Nat.reducePow]; done)) | (intros; dsimp only; (repeat' split) <;> (simp [-Nat.reducePow]; done)) | assumption) [hostColl, -Nat.reducePow]

@[simp] theorem postColl_frame (a : ℕ) (b : Bool) (c : ℕ) (d : ℕ) (e : CollBody) (s : State) :
    (postColl a b c d e s).pending = s.pending ∧ (postColl a b c d e s).time = s.time ∧ (postColl a b c d e s).id = s.id ∧ (postColl a b c d e s).sec = s.sec ∧ (postColl a b c d e s).draws = s.draws := by
  simp only [postColl]
  repeat' split
  all_goals simp

@[simp] theorem postColl_leaf (a : ℕ) (b : Bool) (c : ℕ) (d : ℕ) (e : CollBody) (s : State) :
    (postColl a b c d e s).hi.lock = s.hi.lock ∧ (postColl a b c d e s).pw.st = s.pw.st := by
  simp only [postColl]
  repeat' split
  all_goals simp

@[simp] theorem joinPkt_frame (a : ℕ) (b : CollPkt) (s : State) :
    (joinPkt a b s).pending = s.pending ∧ (joinPkt a b s).time = s.time ∧ (joinPkt a b s).id = s.id ∧ (joinPkt a b s).hi = s.hi ∧ (joinPkt a b s).ctxs = s.ctxs ∧ (joinPkt a b s).mem = s.mem ∧ (joinPkt a b s).fab = s.fab ∧ (joinPkt a b s).srv = s.srv ∧ (joinPkt a b s).ops = s.ops ∧ (joinPkt a b s).mdl = s.mdl ∧ (joinPkt a b s).exu = s.exu ∧ (joinPkt a b s).pw = s.pw ∧ (joinPkt a b s).sec = s.sec ∧ (joinPkt a b s).cof = s.cof ∧ (joinPkt a b s).draws = s.draws := by
  simp [joinPkt]

@[simp] theorem loseColl_frame (a : ℕ) (b : CollOut) (s : State) :
    (loseColl a b s).pending = s.pending ∧ (loseColl a b s).time = s.time ∧ (loseColl a b s).id = s.id ∧ (loseColl a b s).fab = s.fab ∧ (loseColl a b s).ops = s.ops ∧ (loseColl a b s).pw = s.pw ∧ (loseColl a b s).sec = s.sec ∧ (loseColl a b s).draws = s.draws := by
  simp only [loseColl]
  repeat' split
  all_goals simp

@[simp] theorem loseColl_leaf (a : ℕ) (b : CollOut) (s : State) :
    (loseColl a b s).hi.lock = s.hi.lock := by
  simp only [loseColl]
  repeat' split
  all_goals simp

@[simp] theorem chunkAnswered_frame (a : ℕ) (b : CollOut) (s : State) :
    (chunkAnswered a b s).pending = s.pending ∧ (chunkAnswered a b s).time = s.time ∧ (chunkAnswered a b s).id = s.id ∧ (chunkAnswered a b s).sec = s.sec ∧ (chunkAnswered a b s).draws = s.draws := by
  simp only [chunkAnswered]
  repeat' split
  all_goals simp

@[simp] theorem chunkAnswered_leaf (a : ℕ) (b : CollOut) (s : State) :
    (chunkAnswered a b s).hi.lock = s.hi.lock ∧ (chunkAnswered a b s).pw.st = s.pw.st := by
  simp only [chunkAnswered]
  repeat' split
  all_goals simp

@[simp] theorem respColl_frame (a : RespPkt) (s : State) :
    (respColl a s).pending = s.pending ∧ (respColl a s).time = s.time ∧ (respColl a s).id = s.id ∧ (respColl a s).sec = s.sec ∧ (respColl a s).draws = s.draws := by
  simp only [respColl]
  repeat' split
  all_goals simp

@[simp] theorem respColl_leaf (a : RespPkt) (s : State) :
    (respColl a s).hi.lock = s.hi.lock ∧ (respColl a s).pw.st = s.pw.st := by
  simp only [respColl]
  repeat' split
  all_goals simp

@[simp] theorem loseRemote_frame (a : Remote) (s : State) :
    (loseRemote a s).pending = s.pending ∧ (loseRemote a s).time = s.time ∧ (loseRemote a s).id = s.id ∧ (loseRemote a s).ops = s.ops ∧ (loseRemote a s).coll = s.coll ∧ (loseRemote a s).pw = s.pw ∧ (loseRemote a s).sec = s.sec ∧ (loseRemote a s).draws = s.draws := by
  simp [loseRemote]

@[simp] theorem loseRemote_leaf (a : Remote) (s : State) :
    (loseRemote a s).fab.scratch = s.fab.scratch ∧ (loseRemote a s).hi.lock = s.hi.lock := by
  simp [loseRemote]

end Sys2Proof.Machine
end

