-- ==== Sys2Proof/Laws/StepOps.lean ====
section
/-! SUPPORT. What the operations of Machine/StepOps.lean leave unchanged: the parts of the state that each does not touch. -/
namespace Sys2Proof.Machine

@[simp] theorem putOut_frame (a : ℕ) (b : ℕ) (c : ℕ) (d : List Span) (e : List Byte) (s : State) :
    (putOut a b c d e s).pending = s.pending ∧ (putOut a b c d e s).time = s.time ∧ (putOut a b c d e s).id = s.id ∧ (putOut a b c d e s).hi = s.hi ∧ (putOut a b c d e s).ctxs = s.ctxs ∧ (putOut a b c d e s).mem = s.mem ∧ (putOut a b c d e s).srv = s.srv ∧ (putOut a b c d e s).ops = s.ops ∧ (putOut a b c d e s).mdl = s.mdl ∧ (putOut a b c d e s).exu = s.exu ∧ (putOut a b c d e s).coll = s.coll ∧ (putOut a b c d e s).xn = s.xn ∧ (putOut a b c d e s).pw = s.pw ∧ (putOut a b c d e s).sec = s.sec ∧ (putOut a b c d e s).td = s.td ∧ (putOut a b c d e s).cof = s.cof ∧ (putOut a b c d e s).draws = s.draws ∧ (putOut a b c d e s).out = s.out := by
  simp [putOut]

@[simp] theorem putWords_frame (a : ℕ) (b : ℕ) (c : ℕ) (d : List Span) (e : List Word) (s : State) :
    (putWords a b c d e s).pending = s.pending ∧ (putWords a b c d e s).time = s.time ∧ (putWords a b c d e s).id = s.id ∧ (putWords a b c d e s).hi = s.hi ∧ (putWords a b c d e s).ctxs = s.ctxs ∧ (putWords a b c d e s).mem = s.mem ∧ (putWords a b c d e s).srv = s.srv ∧ (putWords a b c d e s).ops = s.ops ∧ (putWords a b c d e s).mdl = s.mdl ∧ (putWords a b c d e s).exu = s.exu ∧ (putWords a b c d e s).coll = s.coll ∧ (putWords a b c d e s).xn = s.xn ∧ (putWords a b c d e s).pw = s.pw ∧ (putWords a b c d e s).sec = s.sec ∧ (putWords a b c d e s).td = s.td ∧ (putWords a b c d e s).cof = s.cof ∧ (putWords a b c d e s).draws = s.draws ∧ (putWords a b c d e s).out = s.out := by
  simp [putWords]

@[simp] theorem noteNibbles_frame (a : ℕ) (b : ℕ) (c : ℕ) (s : State) :
    (noteNibbles a b c s).pending = s.pending ∧ (noteNibbles a b c s).time = s.time ∧ (noteNibbles a b c s).id = s.id ∧ (noteNibbles a b c s).hi = s.hi ∧ (noteNibbles a b c s).ctxs = s.ctxs ∧ (noteNibbles a b c s).mem = s.mem ∧ (noteNibbles a b c s).srv = s.srv ∧ (noteNibbles a b c s).ops = s.ops ∧ (noteNibbles a b c s).mdl = s.mdl ∧ (noteNibbles a b c s).exu = s.exu ∧ (noteNibbles a b c s).coll = s.coll ∧ (noteNibbles a b c s).xn = s.xn ∧ (noteNibbles a b c s).pw = s.pw ∧ (noteNibbles a b c s).sec = s.sec ∧ (noteNibbles a b c s).td = s.td ∧ (noteNibbles a b c s).draws = s.draws ∧ (noteNibbles a b c s).out = s.out := by
  simp [noteNibbles]

@[simp] theorem noteNibbles_leaf (a : ℕ) (b : ℕ) (c : ℕ) (s : State) :
    (noteNibbles a b c s).fab.scratch = s.fab.scratch := by
  simp [noteNibbles]

@[simp] theorem runDot_frame (a : ℕ) (b : ℕ) (c : DotOp) (s : State) :
    (runDot a b c s).pending = s.pending ∧ (runDot a b c s).time = s.time ∧ (runDot a b c s).id = s.id ∧ (runDot a b c s).hi = s.hi ∧ (runDot a b c s).ctxs = s.ctxs ∧ (runDot a b c s).mem = s.mem ∧ (runDot a b c s).srv = s.srv ∧ (runDot a b c s).ops = s.ops ∧ (runDot a b c s).mdl = s.mdl ∧ (runDot a b c s).exu = s.exu ∧ (runDot a b c s).coll = s.coll ∧ (runDot a b c s).xn = s.xn ∧ (runDot a b c s).pw = s.pw ∧ (runDot a b c s).sec = s.sec ∧ (runDot a b c s).td = s.td ∧ (runDot a b c s).draws = s.draws ∧ (runDot a b c s).out = s.out := by
  simp [runDot]

@[simp] theorem countQuant_frame (a : ℕ) (b : ℕ) (c : List Quantised) (s : State) :
    (countQuant a b c s).pending = s.pending ∧ (countQuant a b c s).time = s.time ∧ (countQuant a b c s).id = s.id ∧ (countQuant a b c s).hi = s.hi ∧ (countQuant a b c s).ctxs = s.ctxs ∧ (countQuant a b c s).mem = s.mem ∧ (countQuant a b c s).srv = s.srv ∧ (countQuant a b c s).ops = s.ops ∧ (countQuant a b c s).mdl = s.mdl ∧ (countQuant a b c s).exu = s.exu ∧ (countQuant a b c s).coll = s.coll ∧ (countQuant a b c s).xn = s.xn ∧ (countQuant a b c s).pw = s.pw ∧ (countQuant a b c s).sec = s.sec ∧ (countQuant a b c s).td = s.td ∧ (countQuant a b c s).cof = s.cof ∧ (countQuant a b c s).draws = s.draws ∧ (countQuant a b c s).out = s.out := by
  simp [countQuant]

@[simp] theorem countQuant_leaf (a : ℕ) (b : ℕ) (c : List Quantised) (s : State) :
    (countQuant a b c s).fab.scratch = s.fab.scratch := by
  simp [countQuant]

@[simp] theorem noteSub_frame (a : ℕ) (b : ℕ) (c : ℕ) (d : ℕ) (e : ℕ) (f : ℕ) (g : ℕ) (h : Bool) (s : State) :
    (noteSub a b c d e f g h s).pending = s.pending ∧ (noteSub a b c d e f g h s).time = s.time ∧ (noteSub a b c d e f g h s).id = s.id ∧ (noteSub a b c d e f g h s).hi = s.hi ∧ (noteSub a b c d e f g h s).ctxs = s.ctxs ∧ (noteSub a b c d e f g h s).mem = s.mem ∧ (noteSub a b c d e f g h s).srv = s.srv ∧ (noteSub a b c d e f g h s).ops = s.ops ∧ (noteSub a b c d e f g h s).mdl = s.mdl ∧ (noteSub a b c d e f g h s).exu = s.exu ∧ (noteSub a b c d e f g h s).coll = s.coll ∧ (noteSub a b c d e f g h s).xn = s.xn ∧ (noteSub a b c d e f g h s).pw = s.pw ∧ (noteSub a b c d e f g h s).sec = s.sec ∧ (noteSub a b c d e f g h s).td = s.td ∧ (noteSub a b c d e f g h s).cof = s.cof ∧ (noteSub a b c d e f g h s).draws = s.draws ∧ (noteSub a b c d e f g h s).out = s.out := by
  simp [noteSub]

@[simp] theorem noteSub_leaf (a : ℕ) (b : ℕ) (c : ℕ) (d : ℕ) (e : ℕ) (f : ℕ) (g : ℕ) (h : Bool) (s : State) :
    (noteSub a b c d e f g h s).fab.scratch = s.fab.scratch := by
  simp [noteSub]

@[simp] theorem putQuant_frame (a : ℕ) (b : ℕ) (c : ℕ) (d : ℕ) (e : ℕ) (f : ℕ) (g : ℕ) (h : Bool) (i : List Span) (j : List Word) (s : State) :
    (putQuant a b c d e f g h i j s).pending = s.pending ∧ (putQuant a b c d e f g h i j s).time = s.time ∧ (putQuant a b c d e f g h i j s).id = s.id ∧ (putQuant a b c d e f g h i j s).hi = s.hi ∧ (putQuant a b c d e f g h i j s).ctxs = s.ctxs ∧ (putQuant a b c d e f g h i j s).mem = s.mem ∧ (putQuant a b c d e f g h i j s).srv = s.srv ∧ (putQuant a b c d e f g h i j s).ops = s.ops ∧ (putQuant a b c d e f g h i j s).mdl = s.mdl ∧ (putQuant a b c d e f g h i j s).exu = s.exu ∧ (putQuant a b c d e f g h i j s).coll = s.coll ∧ (putQuant a b c d e f g h i j s).xn = s.xn ∧ (putQuant a b c d e f g h i j s).pw = s.pw ∧ (putQuant a b c d e f g h i j s).sec = s.sec ∧ (putQuant a b c d e f g h i j s).td = s.td ∧ (putQuant a b c d e f g h i j s).cof = s.cof ∧ (putQuant a b c d e f g h i j s).draws = s.draws ∧ (putQuant a b c d e f g h i j s).out = s.out := by
  simp [putQuant]

@[simp] theorem runActivate_frame (a : ℕ) (b : ℕ) (c : ActRow) (s : State) :
    (runActivate a b c s).pending = s.pending ∧ (runActivate a b c s).time = s.time ∧ (runActivate a b c s).id = s.id ∧ (runActivate a b c s).hi = s.hi ∧ (runActivate a b c s).ctxs = s.ctxs ∧ (runActivate a b c s).mem = s.mem ∧ (runActivate a b c s).srv = s.srv ∧ (runActivate a b c s).ops = s.ops ∧ (runActivate a b c s).mdl = s.mdl ∧ (runActivate a b c s).exu = s.exu ∧ (runActivate a b c s).coll = s.coll ∧ (runActivate a b c s).xn = s.xn ∧ (runActivate a b c s).pw = s.pw ∧ (runActivate a b c s).sec = s.sec ∧ (runActivate a b c s).td = s.td ∧ (runActivate a b c s).cof = s.cof ∧ (runActivate a b c s).draws = s.draws ∧ (runActivate a b c s).out = s.out := by
  simp only [runActivate]
  repeat' split
  all_goals simp

@[simp] theorem markRow_frame (a : ℕ) (b : ℕ) (c : ProofRow) (s : State) :
    (markRow a b c s).pending = s.pending ∧ (markRow a b c s).time = s.time ∧ (markRow a b c s).id = s.id ∧ (markRow a b c s).hi = s.hi ∧ (markRow a b c s).ctxs = s.ctxs ∧ (markRow a b c s).mem = s.mem ∧ (markRow a b c s).ops = s.ops ∧ (markRow a b c s).mdl = s.mdl ∧ (markRow a b c s).coll = s.coll ∧ (markRow a b c s).xn = s.xn ∧ (markRow a b c s).pw = s.pw ∧ (markRow a b c s).sec = s.sec ∧ (markRow a b c s).td = s.td ∧ (markRow a b c s).cof = s.cof ∧ (markRow a b c s).draws = s.draws ∧ (markRow a b c s).out = s.out := by
  simp only [markRow]
  repeat' split
  all_goals simp

@[simp] theorem payShare_frame (a : ℕ) (b : ProofRow) (c : ℕ) (s : State) :
    (payShare a b c s).2.pending = s.pending ∧ (payShare a b c s).2.time = s.time ∧ (payShare a b c s).2.id = s.id ∧ (payShare a b c s).2.hi = s.hi ∧ (payShare a b c s).2.ctxs = s.ctxs ∧ (payShare a b c s).2.mem = s.mem ∧ (payShare a b c s).2.ops = s.ops ∧ (payShare a b c s).2.mdl = s.mdl ∧ (payShare a b c s).2.coll = s.coll ∧ (payShare a b c s).2.xn = s.xn ∧ (payShare a b c s).2.pw = s.pw ∧ (payShare a b c s).2.sec = s.sec ∧ (payShare a b c s).2.td = s.td ∧ (payShare a b c s).2.cof = s.cof ∧ (payShare a b c s).2.draws = s.draws ∧ (payShare a b c s).2.out = s.out := by
  simp only [payShare]
  repeat' split
  all_goals simp

@[simp] theorem payShares_frame (a : ℕ) (b : ℕ → ℕ) (c : List ProofRow) (d : List ProofRow) (s : State) :
    (payShares a b c d s).2.pending = s.pending ∧ (payShares a b c d s).2.time = s.time ∧ (payShares a b c d s).2.id = s.id ∧ (payShares a b c d s).2.hi = s.hi ∧ (payShares a b c d s).2.ctxs = s.ctxs ∧ (payShares a b c d s).2.mem = s.mem ∧ (payShares a b c d s).2.ops = s.ops ∧ (payShares a b c d s).2.mdl = s.mdl ∧ (payShares a b c d s).2.coll = s.coll ∧ (payShares a b c d s).2.xn = s.xn ∧ (payShares a b c d s).2.pw = s.pw ∧ (payShares a b c d s).2.sec = s.sec ∧ (payShares a b c d s).2.td = s.td ∧ (payShares a b c d s).2.cof = s.cof ∧ (payShares a b c d s).2.draws = s.draws ∧ (payShares a b c d s).2.out = s.out := by
  induction d generalizing a b c s with
  | nil => simp [payShares]
  | cons y m ih =>
    unfold payShares
    try dsimp only
    repeat' split
    all_goals simp [ih]

@[simp] theorem replayRows_frame (a : ℕ) (b : ℕ) (c : ℕ) (d : LayerRec) (e : ProofOp) (f : List ℕ) (s : State) :
    (replayRows a b c d e f s).pending = s.pending ∧ (replayRows a b c d e f s).time = s.time ∧ (replayRows a b c d e f s).id = s.id ∧ (replayRows a b c d e f s).hi = s.hi ∧ (replayRows a b c d e f s).ctxs = s.ctxs ∧ (replayRows a b c d e f s).mem = s.mem ∧ (replayRows a b c d e f s).srv = s.srv ∧ (replayRows a b c d e f s).ops = s.ops ∧ (replayRows a b c d e f s).mdl = s.mdl ∧ (replayRows a b c d e f s).exu = s.exu ∧ (replayRows a b c d e f s).coll = s.coll ∧ (replayRows a b c d e f s).xn = s.xn ∧ (replayRows a b c d e f s).pw = s.pw ∧ (replayRows a b c d e f s).sec = s.sec ∧ (replayRows a b c d e f s).td = s.td ∧ (replayRows a b c d e f s).cof = s.cof ∧ (replayRows a b c d e f s).draws = s.draws ∧ (replayRows a b c d e f s).out = s.out := by
  simp [replayRows]

@[simp] theorem replayTile_frame (a : ℕ) (b : ℕ) (c : ℕ) (d : LayerRec) (e : ProofOp) (f : List ProofRow) (g : List ProofRow) (s : State) :
    (replayTile a b c d e f g s).pending = s.pending ∧ (replayTile a b c d e f g s).time = s.time ∧ (replayTile a b c d e f g s).id = s.id ∧ (replayTile a b c d e f g s).hi = s.hi ∧ (replayTile a b c d e f g s).mem = s.mem ∧ (replayTile a b c d e f g s).ops = s.ops ∧ (replayTile a b c d e f g s).mdl = s.mdl ∧ (replayTile a b c d e f g s).coll = s.coll ∧ (replayTile a b c d e f g s).xn = s.xn ∧ (replayTile a b c d e f g s).pw = s.pw ∧ (replayTile a b c d e f g s).sec = s.sec ∧ (replayTile a b c d e f g s).cof = s.cof ∧ (replayTile a b c d e f g s).draws = s.draws := by
  simp [replayTile]

@[simp] theorem modTile_frame (a : ℕ) (b : ℕ) (c : ProofTile → ProofTile) (s : State) :
    (modTile a b c s).pending = s.pending ∧ (modTile a b c s).time = s.time ∧ (modTile a b c s).id = s.id ∧ (modTile a b c s).hi = s.hi ∧ (modTile a b c s).ctxs = s.ctxs ∧ (modTile a b c s).mem = s.mem ∧ (modTile a b c s).srv = s.srv ∧ (modTile a b c s).ops = s.ops ∧ (modTile a b c s).mdl = s.mdl ∧ (modTile a b c s).exu = s.exu ∧ (modTile a b c s).coll = s.coll ∧ (modTile a b c s).xn = s.xn ∧ (modTile a b c s).pw = s.pw ∧ (modTile a b c s).sec = s.sec ∧ (modTile a b c s).td = s.td ∧ (modTile a b c s).cof = s.cof ∧ (modTile a b c s).draws = s.draws ∧ (modTile a b c s).out = s.out := by
  simp [modTile]

@[simp] theorem modTile_leaf (a : ℕ) (b : ℕ) (c : ProofTile → ProofTile) (s : State) :
    (modTile a b c s).fab.scratch = s.fab.scratch := by
  simp [modTile]

@[simp] theorem drawBits_frame (a : ℕ) (b : ℕ) (s : State) :
    (drawBits a b s).2.pending = s.pending ∧ (drawBits a b s).2.time = s.time ∧ (drawBits a b s).2.id = s.id ∧ (drawBits a b s).2.hi = s.hi ∧ (drawBits a b s).2.ctxs = s.ctxs ∧ (drawBits a b s).2.mem = s.mem ∧ (drawBits a b s).2.srv = s.srv ∧ (drawBits a b s).2.ops = s.ops ∧ (drawBits a b s).2.mdl = s.mdl ∧ (drawBits a b s).2.exu = s.exu ∧ (drawBits a b s).2.coll = s.coll ∧ (drawBits a b s).2.xn = s.xn ∧ (drawBits a b s).2.pw = s.pw ∧ (drawBits a b s).2.sec = s.sec ∧ (drawBits a b s).2.td = s.td ∧ (drawBits a b s).2.cof = s.cof ∧ (drawBits a b s).2.draws = s.draws ∧ (drawBits a b s).2.out = s.out := by
  simp [drawBits]

@[simp] theorem drawBits_leaf (a : ℕ) (b : ℕ) (s : State) :
    (drawBits a b s).2.fab.scratch = s.fab.scratch := by
  simp [drawBits]

@[simp] theorem failTile'_frame (a : ℕ) (b : ℕ) (s : State) :
    (failTile' a b s).pending = s.pending ∧ (failTile' a b s).time = s.time ∧ (failTile' a b s).id = s.id ∧ (failTile' a b s).hi = s.hi ∧ (failTile' a b s).ctxs = s.ctxs ∧ (failTile' a b s).mem = s.mem ∧ (failTile' a b s).srv = s.srv ∧ (failTile' a b s).ops = s.ops ∧ (failTile' a b s).mdl = s.mdl ∧ (failTile' a b s).exu = s.exu ∧ (failTile' a b s).coll = s.coll ∧ (failTile' a b s).xn = s.xn ∧ (failTile' a b s).pw = s.pw ∧ (failTile' a b s).sec = s.sec ∧ (failTile' a b s).td = s.td ∧ (failTile' a b s).cof = s.cof ∧ (failTile' a b s).draws = s.draws ∧ (failTile' a b s).out = s.out := by
  simp only [failTile']
  repeat' split
  all_goals simp

@[simp] theorem failTile'_leaf (a : ℕ) (b : ℕ) (s : State) :
    (failTile' a b s).fab.scratch = s.fab.scratch := by
  simp only [failTile']
  repeat' split
  all_goals simp

@[simp] theorem proveTile_frame (a : ℕ) (b : ℕ) (s : State) :
    (proveTile a b s).pending = s.pending ∧ (proveTile a b s).time = s.time ∧ (proveTile a b s).id = s.id ∧ (proveTile a b s).hi = s.hi ∧ (proveTile a b s).ctxs = s.ctxs ∧ (proveTile a b s).mem = s.mem ∧ (proveTile a b s).srv = s.srv ∧ (proveTile a b s).ops = s.ops ∧ (proveTile a b s).mdl = s.mdl ∧ (proveTile a b s).exu = s.exu ∧ (proveTile a b s).coll = s.coll ∧ (proveTile a b s).xn = s.xn ∧ (proveTile a b s).pw = s.pw ∧ (proveTile a b s).sec = s.sec ∧ (proveTile a b s).td = s.td ∧ (proveTile a b s).cof = s.cof ∧ (proveTile a b s).draws = s.draws ∧ (proveTile a b s).out = s.out := by
  simp only [proveTile]
  repeat' split
  all_goals simp

@[simp] theorem proveTile_leaf (a : ℕ) (b : ℕ) (s : State) :
    (proveTile a b s).fab.scratch = s.fab.scratch := by
  simp only [proveTile]
  repeat' split
  all_goals simp

@[simp] theorem newTile_frame (a : ℕ) (b : ℕ) (c : ProofOp) (s : State) :
    (newTile a b c s).pending = s.pending ∧ (newTile a b c s).time = s.time ∧ (newTile a b c s).id = s.id ∧ (newTile a b c s).hi = s.hi ∧ (newTile a b c s).ctxs = s.ctxs ∧ (newTile a b c s).mem = s.mem ∧ (newTile a b c s).srv = s.srv ∧ (newTile a b c s).ops = s.ops ∧ (newTile a b c s).mdl = s.mdl ∧ (newTile a b c s).exu = s.exu ∧ (newTile a b c s).coll = s.coll ∧ (newTile a b c s).xn = s.xn ∧ (newTile a b c s).pw = s.pw ∧ (newTile a b c s).sec = s.sec ∧ (newTile a b c s).td = s.td ∧ (newTile a b c s).cof = s.cof ∧ (newTile a b c s).draws = s.draws ∧ (newTile a b c s).out = s.out := by
  simp [newTile]

@[simp] theorem newTile_leaf (a : ℕ) (b : ℕ) (c : ProofOp) (s : State) :
    (newTile a b c s).fab.scratch = s.fab.scratch := by
  simp [newTile]

@[simp] theorem chargedProof_frame (a : ℕ) (b : ℕ) (c : ProofTile) (s : State) :
    (chargedProof a b c s).pending = s.pending ∧ (chargedProof a b c s).time = s.time ∧ (chargedProof a b c s).id = s.id ∧ (chargedProof a b c s).hi = s.hi ∧ (chargedProof a b c s).ctxs = s.ctxs ∧ (chargedProof a b c s).mem = s.mem ∧ (chargedProof a b c s).ops = s.ops ∧ (chargedProof a b c s).mdl = s.mdl ∧ (chargedProof a b c s).coll = s.coll ∧ (chargedProof a b c s).xn = s.xn ∧ (chargedProof a b c s).pw = s.pw ∧ (chargedProof a b c s).sec = s.sec ∧ (chargedProof a b c s).td = s.td ∧ (chargedProof a b c s).cof = s.cof ∧ (chargedProof a b c s).draws = s.draws ∧ (chargedProof a b c s).out = s.out := by
  simp [chargedProof]

@[simp] theorem climb_frame (a : ℕ) (b : ℕ) (c : ℕ) (d : ℕ) (e : ProofTile) (s : State) :
    (climb a b c d e s).pending = s.pending ∧ (climb a b c d e s).time = s.time ∧ (climb a b c d e s).id = s.id ∧ (climb a b c d e s).hi = s.hi ∧ (climb a b c d e s).mem = s.mem ∧ (climb a b c d e s).ops = s.ops ∧ (climb a b c d e s).mdl = s.mdl ∧ (climb a b c d e s).coll = s.coll ∧ (climb a b c d e s).xn = s.xn ∧ (climb a b c d e s).pw = s.pw ∧ (climb a b c d e s).sec = s.sec ∧ (climb a b c d e s).cof = s.cof ∧ (climb a b c d e s).draws = s.draws := by
  simp [climb]

@[simp] theorem payLayer_frame (a : ℕ) (b : ℕ) (c : ℕ) (d : List ProofRow) (s : State) :
    (payLayer a b c d s).pending = s.pending ∧ (payLayer a b c d s).time = s.time ∧ (payLayer a b c d s).id = s.id ∧ (payLayer a b c d s).hi = s.hi ∧ (payLayer a b c d s).ctxs = s.ctxs ∧ (payLayer a b c d s).mem = s.mem ∧ (payLayer a b c d s).ops = s.ops ∧ (payLayer a b c d s).mdl = s.mdl ∧ (payLayer a b c d s).coll = s.coll ∧ (payLayer a b c d s).xn = s.xn ∧ (payLayer a b c d s).pw = s.pw ∧ (payLayer a b c d s).sec = s.sec ∧ (payLayer a b c d s).td = s.td ∧ (payLayer a b c d s).cof = s.cof ∧ (payLayer a b c d s).draws = s.draws ∧ (payLayer a b c d s).out = s.out := by
  simp [payLayer]

@[simp] theorem layerTile_frame (a : ℕ) (b : ℕ) (c : ℕ) (d : ProofTile) (s : State) :
    (layerTile a b c d s).pending = s.pending ∧ (layerTile a b c d s).time = s.time ∧ (layerTile a b c d s).id = s.id ∧ (layerTile a b c d s).hi = s.hi ∧ (layerTile a b c d s).mem = s.mem ∧ (layerTile a b c d s).ops = s.ops ∧ (layerTile a b c d s).mdl = s.mdl ∧ (layerTile a b c d s).coll = s.coll ∧ (layerTile a b c d s).xn = s.xn ∧ (layerTile a b c d s).pw = s.pw ∧ (layerTile a b c d s).sec = s.sec ∧ (layerTile a b c d s).cof = s.cof ∧ (layerTile a b c d s).draws = s.draws := by
  simp [layerTile]

@[simp] theorem layerAgain_frame (a : ℕ) (b : ℕ) (c : ProofTile) (s : State) :
    (layerAgain a b c s).pending = s.pending ∧ (layerAgain a b c s).time = s.time ∧ (layerAgain a b c s).id = s.id ∧ (layerAgain a b c s).hi = s.hi ∧ (layerAgain a b c s).ctxs = s.ctxs ∧ (layerAgain a b c s).mem = s.mem ∧ (layerAgain a b c s).ops = s.ops ∧ (layerAgain a b c s).mdl = s.mdl ∧ (layerAgain a b c s).coll = s.coll ∧ (layerAgain a b c s).xn = s.xn ∧ (layerAgain a b c s).pw = s.pw ∧ (layerAgain a b c s).sec = s.sec ∧ (layerAgain a b c s).td = s.td ∧ (layerAgain a b c s).cof = s.cof ∧ (layerAgain a b c s).draws = s.draws ∧ (layerAgain a b c s).out = s.out := by
  simp [layerAgain]

@[simp] theorem proveAgain_frame (a : ℕ) (b : ℕ) (c : ProofTile) (s : State) :
    (proveAgain a b c s).pending = s.pending ∧ (proveAgain a b c s).time = s.time ∧ (proveAgain a b c s).id = s.id ∧ (proveAgain a b c s).hi = s.hi ∧ (proveAgain a b c s).ctxs = s.ctxs ∧ (proveAgain a b c s).mem = s.mem ∧ (proveAgain a b c s).srv = s.srv ∧ (proveAgain a b c s).ops = s.ops ∧ (proveAgain a b c s).mdl = s.mdl ∧ (proveAgain a b c s).exu = s.exu ∧ (proveAgain a b c s).coll = s.coll ∧ (proveAgain a b c s).xn = s.xn ∧ (proveAgain a b c s).pw = s.pw ∧ (proveAgain a b c s).sec = s.sec ∧ (proveAgain a b c s).td = s.td ∧ (proveAgain a b c s).cof = s.cof ∧ (proveAgain a b c s).draws = s.draws ∧ (proveAgain a b c s).out = s.out := by
  simp [proveAgain]

@[simp] theorem proveAgain_leaf (a : ℕ) (b : ℕ) (c : ProofTile) (s : State) :
    (proveAgain a b c s).fab.scratch = s.fab.scratch := by
  simp [proveAgain]

@[simp] theorem closeLayer_frame (a : ℕ) (b : ℕ) (s : State) :
    (closeLayer a b s).pending = s.pending ∧ (closeLayer a b s).time = s.time ∧ (closeLayer a b s).id = s.id ∧ (closeLayer a b s).hi = s.hi ∧ (closeLayer a b s).ctxs = s.ctxs ∧ (closeLayer a b s).mem = s.mem ∧ (closeLayer a b s).srv = s.srv ∧ (closeLayer a b s).ops = s.ops ∧ (closeLayer a b s).mdl = s.mdl ∧ (closeLayer a b s).exu = s.exu ∧ (closeLayer a b s).coll = s.coll ∧ (closeLayer a b s).xn = s.xn ∧ (closeLayer a b s).pw = s.pw ∧ (closeLayer a b s).sec = s.sec ∧ (closeLayer a b s).td = s.td ∧ (closeLayer a b s).cof = s.cof ∧ (closeLayer a b s).draws = s.draws ∧ (closeLayer a b s).out = s.out := by
  simp [closeLayer]

@[simp] theorem closeLayer_leaf (a : ℕ) (b : ℕ) (s : State) :
    (closeLayer a b s).fab.scratch = s.fab.scratch := by
  simp [closeLayer]

@[simp] theorem onTile_pending (a : ℕ) (b : ℕ) (c : ProofTile → State → State) (s : State) (h : ∀ x s, (c x s).pending = s.pending) :
    (onTile a b c s).pending = s.pending := by
  unfold onTile; (try dsimp only); (repeat' split) <;> first | (simp [h]; done) | simp_all

@[simp] theorem onTile_time (a : ℕ) (b : ℕ) (c : ProofTile → State → State) (s : State) (h : ∀ x s, (c x s).time = s.time) :
    (onTile a b c s).time = s.time := by
  unfold onTile; (try dsimp only); (repeat' split) <;> first | (simp [h]; done) | simp_all

@[simp] theorem onTile_id (a : ℕ) (b : ℕ) (c : ProofTile → State → State) (s : State) (h : ∀ x s, (c x s).id = s.id) :
    (onTile a b c s).id = s.id := by
  unfold onTile; (try dsimp only); (repeat' split) <;> first | (simp [h]; done) | simp_all

@[simp] theorem onTile_hi (a : ℕ) (b : ℕ) (c : ProofTile → State → State) (s : State) (h : ∀ x s, (c x s).hi = s.hi) :
    (onTile a b c s).hi = s.hi := by
  unfold onTile; (try dsimp only); (repeat' split) <;> first | (simp [h]; done) | simp_all

@[simp] theorem onTile_ctxs (a : ℕ) (b : ℕ) (c : ProofTile → State → State) (s : State) (h : ∀ x s, (c x s).ctxs = s.ctxs) :
    (onTile a b c s).ctxs = s.ctxs := by
  unfold onTile; (try dsimp only); (repeat' split) <;> first | (simp [h]; done) | simp_all

@[simp] theorem onTile_mem (a : ℕ) (b : ℕ) (c : ProofTile → State → State) (s : State) (h : ∀ x s, (c x s).mem = s.mem) :
    (onTile a b c s).mem = s.mem := by
  unfold onTile; (try dsimp only); (repeat' split) <;> first | (simp [h]; done) | simp_all

@[simp] theorem onTile_fab (a : ℕ) (b : ℕ) (c : ProofTile → State → State) (s : State) (h : ∀ x s, (c x s).fab = s.fab) :
    (onTile a b c s).fab = s.fab := by
  unfold onTile; (try dsimp only); (repeat' split) <;> first | (simp [h]; done) | simp_all

@[simp] theorem onTile_srv (a : ℕ) (b : ℕ) (c : ProofTile → State → State) (s : State) (h : ∀ x s, (c x s).srv = s.srv) :
    (onTile a b c s).srv = s.srv := by
  unfold onTile; (try dsimp only); (repeat' split) <;> first | (simp [h]; done) | simp_all

@[simp] theorem onTile_ops (a : ℕ) (b : ℕ) (c : ProofTile → State → State) (s : State) (h : ∀ x s, (c x s).ops = s.ops) :
    (onTile a b c s).ops = s.ops := by
  unfold onTile; (try dsimp only); (repeat' split) <;> first | (simp [h]; done) | simp_all

@[simp] theorem onTile_mdl (a : ℕ) (b : ℕ) (c : ProofTile → State → State) (s : State) (h : ∀ x s, (c x s).mdl = s.mdl) :
    (onTile a b c s).mdl = s.mdl := by
  unfold onTile; (try dsimp only); (repeat' split) <;> first | (simp [h]; done) | simp_all

@[simp] theorem onTile_exu (a : ℕ) (b : ℕ) (c : ProofTile → State → State) (s : State) (h : ∀ x s, (c x s).exu = s.exu) :
    (onTile a b c s).exu = s.exu := by
  unfold onTile; (try dsimp only); (repeat' split) <;> first | (simp [h]; done) | simp_all

@[simp] theorem onTile_coll (a : ℕ) (b : ℕ) (c : ProofTile → State → State) (s : State) (h : ∀ x s, (c x s).coll = s.coll) :
    (onTile a b c s).coll = s.coll := by
  unfold onTile; (try dsimp only); (repeat' split) <;> first | (simp [h]; done) | simp_all

@[simp] theorem onTile_xn (a : ℕ) (b : ℕ) (c : ProofTile → State → State) (s : State) (h : ∀ x s, (c x s).xn = s.xn) :
    (onTile a b c s).xn = s.xn := by
  unfold onTile; (try dsimp only); (repeat' split) <;> first | (simp [h]; done) | simp_all

@[simp] theorem onTile_pw (a : ℕ) (b : ℕ) (c : ProofTile → State → State) (s : State) (h : ∀ x s, (c x s).pw = s.pw) :
    (onTile a b c s).pw = s.pw := by
  unfold onTile; (try dsimp only); (repeat' split) <;> first | (simp [h]; done) | simp_all

@[simp] theorem onTile_sec (a : ℕ) (b : ℕ) (c : ProofTile → State → State) (s : State) (h : ∀ x s, (c x s).sec = s.sec) :
    (onTile a b c s).sec = s.sec := by
  unfold onTile; (try dsimp only); (repeat' split) <;> first | (simp [h]; done) | simp_all

@[simp] theorem onTile_td (a : ℕ) (b : ℕ) (c : ProofTile → State → State) (s : State) (h : ∀ x s, (c x s).td = s.td) :
    (onTile a b c s).td = s.td := by
  unfold onTile; (try dsimp only); (repeat' split) <;> first | (simp [h]; done) | simp_all

@[simp] theorem onTile_cof (a : ℕ) (b : ℕ) (c : ProofTile → State → State) (s : State) (h : ∀ x s, (c x s).cof = s.cof) :
    (onTile a b c s).cof = s.cof := by
  unfold onTile; (try dsimp only); (repeat' split) <;> first | (simp [h]; done) | simp_all

@[simp] theorem onTile_draws (a : ℕ) (b : ℕ) (c : ProofTile → State → State) (s : State) (h : ∀ x s, (c x s).draws = s.draws) :
    (onTile a b c s).draws = s.draws := by
  unfold onTile; (try dsimp only); (repeat' split) <;> first | (simp [h]; done) | simp_all

@[simp] theorem onTile_out (a : ℕ) (b : ℕ) (c : ProofTile → State → State) (s : State) (h : ∀ x s, (c x s).out = s.out) :
    (onTile a b c s).out = s.out := by
  unfold onTile; (try dsimp only); (repeat' split) <;> first | (simp [h]; done) | simp_all

@[simp] theorem onTile_mem_dram (a : ℕ) (b : ℕ) (c : ProofTile → State → State) (s : State) (h : ∀ x s, (c x s).mem.dram = s.mem.dram) :
    (onTile a b c s).mem.dram = s.mem.dram := by
  unfold onTile; (try dsimp only); (repeat' split) <;> first | (simp [h]; done) | simp_all

@[simp] theorem onTile_fab_scratch (a : ℕ) (b : ℕ) (c : ProofTile → State → State) (s : State) (h : ∀ x s, (c x s).fab.scratch = s.fab.scratch) :
    (onTile a b c s).fab.scratch = s.fab.scratch := by
  unfold onTile; (try dsimp only); (repeat' split) <;> first | (simp [h]; done) | simp_all

@[simp] theorem onTile_hi_lock (a : ℕ) (b : ℕ) (c : ProofTile → State → State) (s : State) (h : ∀ x s, (c x s).hi.lock = s.hi.lock) :
    (onTile a b c s).hi.lock = s.hi.lock := by
  unfold onTile; (try dsimp only); (repeat' split) <;> first | (simp [h]; done) | simp_all

@[simp] theorem onTile_sec_life (a : ℕ) (b : ℕ) (c : ProofTile → State → State) (s : State) (h : ∀ x s, (c x s).sec.life = s.sec.life) :
    (onTile a b c s).sec.life = s.sec.life := by
  unfold onTile; (try dsimp only); (repeat' split) <;> first | (simp [h]; done) | simp_all

@[simp] theorem onTile_sec_mboxBuf (a : ℕ) (b : ℕ) (c : ProofTile → State → State) (s : State) (h : ∀ x s, (c x s).sec.mboxBuf = s.sec.mboxBuf) :
    (onTile a b c s).sec.mboxBuf = s.sec.mboxBuf := by
  unfold onTile; (try dsimp only); (repeat' split) <;> first | (simp [h]; done) | simp_all

@[simp] theorem onTile_pw_st (a : ℕ) (b : ℕ) (c : ProofTile → State → State) (s : State) (h : ∀ x s, (c x s).pw.st = s.pw.st) :
    (onTile a b c s).pw.st = s.pw.st := by
  unfold onTile; (try dsimp only); (repeat' split) <;> first | (simp [h]; done) | simp_all

@[simp] theorem doAct_frame (a : ℕ) (b : ProofAct) (s : State) :
    (doAct a b s).pending = s.pending ∧ (doAct a b s).time = s.time ∧ (doAct a b s).id = s.id ∧ (doAct a b s).hi = s.hi ∧ (doAct a b s).mem = s.mem ∧ (doAct a b s).ops = s.ops ∧ (doAct a b s).mdl = s.mdl ∧ (doAct a b s).coll = s.coll ∧ (doAct a b s).xn = s.xn ∧ (doAct a b s).pw = s.pw ∧ (doAct a b s).sec = s.sec ∧ (doAct a b s).cof = s.cof ∧ (doAct a b s).draws = s.draws := by
  simp only [doAct]
  repeat' split
  all_goals simp

@[simp] theorem runWork_frame (a : ℕ) (b : ℕ) (c : ℕ) (s : State) :
    (runWork a b c s).pending = s.pending ∧ (runWork a b c s).time = s.time ∧ (runWork a b c s).id = s.id ∧ (runWork a b c s).hi = s.hi ∧ (runWork a b c s).mem = s.mem ∧ (runWork a b c s).ops = s.ops ∧ (runWork a b c s).mdl = s.mdl ∧ (runWork a b c s).coll = s.coll ∧ (runWork a b c s).xn = s.xn ∧ (runWork a b c s).pw = s.pw ∧ (runWork a b c s).sec = s.sec ∧ (runWork a b c s).cof = s.cof ∧ (runWork a b c s).draws = s.draws := by
  induction b generalizing a c s with
  | zero => simp [runWork]
  | succ m ih =>
    unfold runWork
    try dsimp only
    repeat' split
    all_goals simp [ih]

@[simp] theorem runProofs_frame (a : ℕ) (s : State) :
    (runProofs a s).pending = s.pending ∧ (runProofs a s).time = s.time ∧ (runProofs a s).id = s.id ∧ (runProofs a s).hi = s.hi ∧ (runProofs a s).mem = s.mem ∧ (runProofs a s).ops = s.ops ∧ (runProofs a s).mdl = s.mdl ∧ (runProofs a s).coll = s.coll ∧ (runProofs a s).xn = s.xn ∧ (runProofs a s).pw = s.pw ∧ (runProofs a s).sec = s.sec ∧ (runProofs a s).cof = s.cof ∧ (runProofs a s).draws = s.draws := by
  simp [runProofs]

@[simp] theorem runEpilogue_frame (a : ℕ) (b : ℕ) (c : EpiOp) (s : State) :
    (runEpilogue a b c s).pending = s.pending ∧ (runEpilogue a b c s).time = s.time ∧ (runEpilogue a b c s).id = s.id ∧ (runEpilogue a b c s).hi = s.hi ∧ (runEpilogue a b c s).ctxs = s.ctxs ∧ (runEpilogue a b c s).mem = s.mem ∧ (runEpilogue a b c s).srv = s.srv ∧ (runEpilogue a b c s).ops = s.ops ∧ (runEpilogue a b c s).mdl = s.mdl ∧ (runEpilogue a b c s).exu = s.exu ∧ (runEpilogue a b c s).coll = s.coll ∧ (runEpilogue a b c s).xn = s.xn ∧ (runEpilogue a b c s).pw = s.pw ∧ (runEpilogue a b c s).sec = s.sec ∧ (runEpilogue a b c s).td = s.td ∧ (runEpilogue a b c s).cof = s.cof ∧ (runEpilogue a b c s).draws = s.draws ∧ (runEpilogue a b c s).out = s.out := by
  simp [runEpilogue]

@[simp] theorem noteMass_frame (a : ℕ) (b : AttnRow) (c : List (ℕ × Word)) (s : State) :
    (noteMass a b c s).pending = s.pending ∧ (noteMass a b c s).time = s.time ∧ (noteMass a b c s).id = s.id ∧ (noteMass a b c s).hi = s.hi ∧ (noteMass a b c s).ctxs = s.ctxs ∧ (noteMass a b c s).mem = s.mem ∧ (noteMass a b c s).srv = s.srv ∧ (noteMass a b c s).ops = s.ops ∧ (noteMass a b c s).mdl = s.mdl ∧ (noteMass a b c s).exu = s.exu ∧ (noteMass a b c s).coll = s.coll ∧ (noteMass a b c s).xn = s.xn ∧ (noteMass a b c s).pw = s.pw ∧ (noteMass a b c s).sec = s.sec ∧ (noteMass a b c s).td = s.td ∧ (noteMass a b c s).cof = s.cof ∧ (noteMass a b c s).draws = s.draws ∧ (noteMass a b c s).out = s.out := by
  simp [noteMass]

@[simp] theorem noteMass_leaf (a : ℕ) (b : AttnRow) (c : List (ℕ × Word)) (s : State) :
    (noteMass a b c s).fab.scratch = s.fab.scratch := by
  simp [noteMass]

@[simp] theorem runAttention_frame (a : ℕ) (b : ℕ) (c : ℕ) (d : ℕ) (e : ℕ) (f : ℕ) (g : ℕ) (h : List (ℕ × ℕ)) (i : AttnRow) (s : State) :
    (runAttention a b c d e f g h i s).pending = s.pending ∧ (runAttention a b c d e f g h i s).time = s.time ∧ (runAttention a b c d e f g h i s).id = s.id ∧ (runAttention a b c d e f g h i s).hi = s.hi ∧ (runAttention a b c d e f g h i s).ctxs = s.ctxs ∧ (runAttention a b c d e f g h i s).mem = s.mem ∧ (runAttention a b c d e f g h i s).srv = s.srv ∧ (runAttention a b c d e f g h i s).ops = s.ops ∧ (runAttention a b c d e f g h i s).mdl = s.mdl ∧ (runAttention a b c d e f g h i s).exu = s.exu ∧ (runAttention a b c d e f g h i s).coll = s.coll ∧ (runAttention a b c d e f g h i s).xn = s.xn ∧ (runAttention a b c d e f g h i s).pw = s.pw ∧ (runAttention a b c d e f g h i s).sec = s.sec ∧ (runAttention a b c d e f g h i s).td = s.td ∧ (runAttention a b c d e f g h i s).cof = s.cof ∧ (runAttention a b c d e f g h i s).draws = s.draws ∧ (runAttention a b c d e f g h i s).out = s.out := by
  simp [runAttention]

@[simp] theorem runSend_frame (a : ℕ) (b : ℕ) (c : ℕ) (d : ℕ) (e : ℕ) (f : ℕ) (s : State) :
    (runSend a b c d e f s).pending = s.pending ∧ (runSend a b c d e f s).time = s.time ∧ (runSend a b c d e f s).id = s.id ∧ (runSend a b c d e f s).hi = s.hi ∧ (runSend a b c d e f s).ctxs = s.ctxs ∧ (runSend a b c d e f s).mem = s.mem ∧ (runSend a b c d e f s).srv = s.srv ∧ (runSend a b c d e f s).ops = s.ops ∧ (runSend a b c d e f s).mdl = s.mdl ∧ (runSend a b c d e f s).exu = s.exu ∧ (runSend a b c d e f s).coll = s.coll ∧ (runSend a b c d e f s).xn = s.xn ∧ (runSend a b c d e f s).pw = s.pw ∧ (runSend a b c d e f s).sec = s.sec ∧ (runSend a b c d e f s).td = s.td ∧ (runSend a b c d e f s).cof = s.cof ∧ (runSend a b c d e f s).draws = s.draws ∧ (runSend a b c d e f s).out = s.out := by
  simp only [runSend]
  repeat' split
  all_goals simp

@[simp] theorem runSignal_frame (a : ℕ) (b : ℕ) (c : ℕ) (d : ℕ) (e : ℕ) (s : State) :
    (runSignal a b c d e s).pending = s.pending ∧ (runSignal a b c d e s).time = s.time ∧ (runSignal a b c d e s).id = s.id ∧ (runSignal a b c d e s).sec = s.sec ∧ (runSignal a b c d e s).draws = s.draws := by
  simp only [runSignal]
  repeat' split
  all_goals simp

@[simp] theorem runSignal_leaf (a : ℕ) (b : ℕ) (c : ℕ) (d : ℕ) (e : ℕ) (s : State) :
    (runSignal a b c d e s).hi.lock = s.hi.lock ∧ (runSignal a b c d e s).pw.st = s.pw.st := by
  simp only [runSignal]
  repeat' split
  all_goals simp

@[simp] theorem postKv_frame (a : ℕ) (b : ℕ) (c : TileDesc) (d : Bool) (e : KvRows) (s : State) :
    (postKv a b c d e s).pending = s.pending ∧ (postKv a b c d e s).time = s.time ∧ (postKv a b c d e s).id = s.id ∧ (postKv a b c d e s).sec = s.sec ∧ (postKv a b c d e s).draws = s.draws := by
  induction b generalizing a c d e s with
  | zero => simp [postKv]
  | succ m ih =>
    unfold postKv
    try dsimp only
    repeat' split
    all_goals simp [ih]

@[simp] theorem postKv_leaf (a : ℕ) (b : ℕ) (c : TileDesc) (d : Bool) (e : KvRows) (s : State) :
    (postKv a b c d e s).hi.lock = s.hi.lock ∧ (postKv a b c d e s).pw.st = s.pw.st := by
  induction b generalizing a c d e s with
  | zero => simp [postKv]
  | succ m ih =>
    unfold postKv
    try dsimp only
    repeat' split
    all_goals simp [ih]

@[simp] theorem rowsOut_frame (a : ℕ) (b : ℕ) (c : ℕ) (d : ℕ) (e : List (Option ℕ)) (s : State) :
    (rowsOut a b c d e s).pending = s.pending ∧ (rowsOut a b c d e s).time = s.time ∧ (rowsOut a b c d e s).id = s.id ∧ (rowsOut a b c d e s).fab = s.fab ∧ (rowsOut a b c d e s).ops = s.ops ∧ (rowsOut a b c d e s).coll = s.coll ∧ (rowsOut a b c d e s).pw = s.pw ∧ (rowsOut a b c d e s).sec = s.sec ∧ (rowsOut a b c d e s).cof = s.cof ∧ (rowsOut a b c d e s).draws = s.draws := by
  simp [rowsOut]

@[simp] theorem rowsOut_leaf (a : ℕ) (b : ℕ) (c : ℕ) (d : ℕ) (e : List (Option ℕ)) (s : State) :
    (rowsOut a b c d e s).hi.lock = s.hi.lock := by
  simp [rowsOut]

@[simp] theorem runCellFault_frame (a : ℕ) (b : ℕ) (c : ℕ) (d : ℕ) (e : Bool) (s : State) :
    (runCellFault a b c d e s).pending = s.pending ∧ (runCellFault a b c d e s).time = s.time ∧ (runCellFault a b c d e s).id = s.id ∧ (runCellFault a b c d e s).sec = s.sec ∧ (runCellFault a b c d e s).draws = s.draws := by
  simp [runCellFault]

@[simp] theorem runCellFault_leaf (a : ℕ) (b : ℕ) (c : ℕ) (d : ℕ) (e : Bool) (s : State) :
    (runCellFault a b c d e s).hi.lock = s.hi.lock ∧ (runCellFault a b c d e s).pw.st = s.pw.st := by
  simp [runCellFault]

@[simp] theorem runOp_frame (a : ℕ) (b : StepOp) (s : State) :
    (runOp a b s).pending = s.pending ∧ (runOp a b s).time = s.time ∧ (runOp a b s).id = s.id ∧ (runOp a b s).sec = s.sec ∧ (runOp a b s).draws = s.draws := by
  simp only [runOp]
  repeat' split
  all_goals simp

@[simp] theorem runOp_leaf (a : ℕ) (b : StepOp) (s : State) :
    (runOp a b s).hi.lock = s.hi.lock ∧ (runOp a b s).pw.st = s.pw.st := by
  simp only [runOp]
  repeat' split
  all_goals simp

@[simp] theorem noteLayer_frame (a : ℕ) (b : StepOp) (s : State) :
    (noteLayer a b s).pending = s.pending ∧ (noteLayer a b s).time = s.time ∧ (noteLayer a b s).id = s.id ∧ (noteLayer a b s).hi = s.hi ∧ (noteLayer a b s).ctxs = s.ctxs ∧ (noteLayer a b s).mem = s.mem ∧ (noteLayer a b s).srv = s.srv ∧ (noteLayer a b s).ops = s.ops ∧ (noteLayer a b s).mdl = s.mdl ∧ (noteLayer a b s).exu = s.exu ∧ (noteLayer a b s).coll = s.coll ∧ (noteLayer a b s).xn = s.xn ∧ (noteLayer a b s).pw = s.pw ∧ (noteLayer a b s).sec = s.sec ∧ (noteLayer a b s).td = s.td ∧ (noteLayer a b s).cof = s.cof ∧ (noteLayer a b s).draws = s.draws ∧ (noteLayer a b s).out = s.out := by
  simp only [noteLayer]
  repeat' split
  all_goals simp

@[simp] theorem noteLayer_leaf (a : ℕ) (b : StepOp) (s : State) :
    (noteLayer a b s).fab.scratch = s.fab.scratch := by
  simp only [noteLayer]
  repeat' split
  all_goals simp

@[simp] theorem runOps_frame (a : ℕ) (b : List StepOp) (s : State) :
    (runOps a b s).pending = s.pending ∧ (runOps a b s).time = s.time ∧ (runOps a b s).id = s.id ∧ (runOps a b s).sec = s.sec ∧ (runOps a b s).draws = s.draws := by
  simp [runOps]

@[simp] theorem runOps_leaf (a : ℕ) (b : List StepOp) (s : State) :
    (runOps a b s).hi.lock = s.hi.lock ∧ (runOps a b s).pw.st = s.pw.st := by
  simp [runOps]

end Sys2Proof.Machine
end

