-- ==== Sys2Proof/Laws/Steps.lean ====
section
/-! SUPPORT. What the operations of Machine/Steps.lean leave unchanged: the parts of the state that each does not touch. -/
namespace Sys2Proof.Machine

@[simp] theorem queueRecompute_frame (a : ℕ) (s : State) :
    (queueRecompute a s).pending = s.pending ∧ (queueRecompute a s).time = s.time ∧ (queueRecompute a s).id = s.id ∧ (queueRecompute a s).hi = s.hi ∧ (queueRecompute a s).ctxs = s.ctxs ∧ (queueRecompute a s).mem = s.mem ∧ (queueRecompute a s).srv = s.srv ∧ (queueRecompute a s).ops = s.ops ∧ (queueRecompute a s).mdl = s.mdl ∧ (queueRecompute a s).exu = s.exu ∧ (queueRecompute a s).coll = s.coll ∧ (queueRecompute a s).xn = s.xn ∧ (queueRecompute a s).pw = s.pw ∧ (queueRecompute a s).sec = s.sec ∧ (queueRecompute a s).td = s.td ∧ (queueRecompute a s).cof = s.cof ∧ (queueRecompute a s).draws = s.draws ∧ (queueRecompute a s).out = s.out := by
  simp only [queueRecompute]
  repeat' split
  all_goals simp

@[simp] theorem queueRecompute_leaf (a : ℕ) (s : State) :
    (queueRecompute a s).fab.scratch = s.fab.scratch := by
  simp only [queueRecompute]
  repeat' split
  all_goals simp

@[simp] theorem ensureWork_frame (a : List (ℕ × WorkKind)) (s : State) :
    (ensureWork a s).pending = s.pending ∧ (ensureWork a s).time = s.time ∧ (ensureWork a s).id = s.id ∧ (ensureWork a s).fab = s.fab ∧ (ensureWork a s).ops = s.ops ∧ (ensureWork a s).mdl = s.mdl ∧ (ensureWork a s).exu = s.exu ∧ (ensureWork a s).coll = s.coll ∧ (ensureWork a s).pw = s.pw ∧ (ensureWork a s).sec = s.sec ∧ (ensureWork a s).cof = s.cof ∧ (ensureWork a s).draws = s.draws := by
  simp (disch := first | (intros; (repeat' split) <;> (simp [-Nat.reducePow]; done)) | (intros; dsimp only; (repeat' split) <;> (simp [-Nat.reducePow]; done)) | assumption) [ensureWork, -Nat.reducePow]

@[simp] theorem ensureWork_leaf (a : List (ℕ × WorkKind)) (s : State) :
    (ensureWork a s).hi.lock = s.hi.lock := by
  simp (disch := first | (intros; (repeat' split) <;> (simp [-Nat.reducePow]; done)) | (intros; dsimp only; (repeat' split) <;> (simp [-Nat.reducePow]; done)) | assumption) [ensureWork, -Nat.reducePow]

@[simp] theorem openWork_frame (a : List (ℕ × WorkKind)) (s : State) :
    (openWork a s).pending = s.pending ∧ (openWork a s).time = s.time ∧ (openWork a s).id = s.id ∧ (openWork a s).hi = s.hi ∧ (openWork a s).ctxs = s.ctxs ∧ (openWork a s).mem = s.mem ∧ (openWork a s).fab = s.fab ∧ (openWork a s).ops = s.ops ∧ (openWork a s).mdl = s.mdl ∧ (openWork a s).exu = s.exu ∧ (openWork a s).coll = s.coll ∧ (openWork a s).xn = s.xn ∧ (openWork a s).pw = s.pw ∧ (openWork a s).sec = s.sec ∧ (openWork a s).td = s.td ∧ (openWork a s).cof = s.cof ∧ (openWork a s).draws = s.draws ∧ (openWork a s).out = s.out := by
  simp (disch := first | (intros; (repeat' split) <;> (simp [-Nat.reducePow]; done)) | (intros; dsimp only; (repeat' split) <;> (simp [-Nat.reducePow]; done)) | assumption) [openWork, -Nat.reducePow]

@[simp] theorem markRecompute_frame (a : ℕ) (s : State) :
    (markRecompute a s).pending = s.pending ∧ (markRecompute a s).time = s.time ∧ (markRecompute a s).id = s.id ∧ (markRecompute a s).hi = s.hi ∧ (markRecompute a s).ctxs = s.ctxs ∧ (markRecompute a s).mem = s.mem ∧ (markRecompute a s).ops = s.ops ∧ (markRecompute a s).mdl = s.mdl ∧ (markRecompute a s).exu = s.exu ∧ (markRecompute a s).coll = s.coll ∧ (markRecompute a s).xn = s.xn ∧ (markRecompute a s).pw = s.pw ∧ (markRecompute a s).sec = s.sec ∧ (markRecompute a s).td = s.td ∧ (markRecompute a s).cof = s.cof ∧ (markRecompute a s).draws = s.draws ∧ (markRecompute a s).out = s.out := by
  simp only [markRecompute]
  repeat' split
  all_goals simp

@[simp] theorem markRecompute_leaf (a : ℕ) (s : State) :
    (markRecompute a s).fab.scratch = s.fab.scratch := by
  simp only [markRecompute]
  repeat' split
  all_goals simp

@[simp] theorem oneBucket_frame (a : ℕ) (b : Queued) (s : State) :
    (oneBucket a b s).2.pending = s.pending ∧ (oneBucket a b s).2.time = s.time ∧ (oneBucket a b s).2.id = s.id ∧ (oneBucket a b s).2.hi = s.hi ∧ (oneBucket a b s).2.ctxs = s.ctxs ∧ (oneBucket a b s).2.mem = s.mem ∧ (oneBucket a b s).2.srv = s.srv ∧ (oneBucket a b s).2.ops = s.ops ∧ (oneBucket a b s).2.mdl = s.mdl ∧ (oneBucket a b s).2.exu = s.exu ∧ (oneBucket a b s).2.coll = s.coll ∧ (oneBucket a b s).2.xn = s.xn ∧ (oneBucket a b s).2.pw = s.pw ∧ (oneBucket a b s).2.sec = s.sec ∧ (oneBucket a b s).2.td = s.td ∧ (oneBucket a b s).2.cof = s.cof ∧ (oneBucket a b s).2.draws = s.draws ∧ (oneBucket a b s).2.out = s.out := by
  simp only [oneBucket]
  repeat' split
  all_goals simp

@[simp] theorem oneBucket_leaf (a : ℕ) (b : Queued) (s : State) :
    (oneBucket a b s).2.fab.scratch = s.fab.scratch := by
  simp only [oneBucket]
  repeat' split
  all_goals simp

@[simp] theorem writeLengths_frame (a : ℕ) (b : Queued) (s : State) :
    (writeLengths a b s).pending = s.pending ∧ (writeLengths a b s).time = s.time ∧ (writeLengths a b s).id = s.id ∧ (writeLengths a b s).hi = s.hi ∧ (writeLengths a b s).ctxs = s.ctxs ∧ (writeLengths a b s).mem = s.mem ∧ (writeLengths a b s).srv = s.srv ∧ (writeLengths a b s).ops = s.ops ∧ (writeLengths a b s).mdl = s.mdl ∧ (writeLengths a b s).exu = s.exu ∧ (writeLengths a b s).coll = s.coll ∧ (writeLengths a b s).xn = s.xn ∧ (writeLengths a b s).pw = s.pw ∧ (writeLengths a b s).sec = s.sec ∧ (writeLengths a b s).td = s.td ∧ (writeLengths a b s).cof = s.cof ∧ (writeLengths a b s).draws = s.draws ∧ (writeLengths a b s).out = s.out := by
  simp only [writeLengths]
  repeat' split
  all_goals simp

@[simp] theorem trimHead_frame (a : ℕ) (b : ℕ) (c : KvGeom) (s : State) :
    (trimHead a b c s).pending = s.pending ∧ (trimHead a b c s).time = s.time ∧ (trimHead a b c s).id = s.id ∧ (trimHead a b c s).hi = s.hi ∧ (trimHead a b c s).ctxs = s.ctxs ∧ (trimHead a b c s).fab = s.fab ∧ (trimHead a b c s).ops = s.ops ∧ (trimHead a b c s).mdl = s.mdl ∧ (trimHead a b c s).exu = s.exu ∧ (trimHead a b c s).coll = s.coll ∧ (trimHead a b c s).xn = s.xn ∧ (trimHead a b c s).pw = s.pw ∧ (trimHead a b c s).sec = s.sec ∧ (trimHead a b c s).td = s.td ∧ (trimHead a b c s).cof = s.cof ∧ (trimHead a b c s).draws = s.draws ∧ (trimHead a b c s).out = s.out := by
  simp only [trimHead]
  repeat' split
  all_goals simp

@[simp] theorem trimHead_leaf (a : ℕ) (b : ℕ) (c : KvGeom) (s : State) :
    (trimHead a b c s).mem.dram = s.mem.dram := by
  simp only [trimHead]
  repeat' split
  all_goals simp

theorem headPage_frame {a : ℕ} {b : ℕ} {c : ℕ} {d : KvGeom} {e : ℕ} {f : ℕ} {s : State} {u : State} (h : headPage a b c d e f s = some u) :
    u.pending = s.pending ∧ u.time = s.time ∧ u.id = s.id ∧ u.fab = s.fab ∧ u.ops = s.ops ∧ u.mdl = s.mdl ∧ u.exu = s.exu ∧ u.coll = s.coll ∧ u.pw = s.pw ∧ u.sec = s.sec ∧ u.cof = s.cof ∧ u.draws = s.draws := by
  unfold headPage at h
  split at h
  · cases h
  · simp only [Option.map_eq_some_iff] at h
    obtain ⟨_, h1, rfl⟩ := h
    have hA := allocate_frame h1
    simp (disch := first | (intros; simp; done) | assumption) [hA]

theorem headPage_leaf {a : ℕ} {b : ℕ} {c : ℕ} {d : KvGeom} {e : ℕ} {f : ℕ} {s : State} {u : State} (h : headPage a b c d e f s = some u) :
    u.hi.lock = s.hi.lock := by
  unfold headPage at h
  split at h
  · cases h
  · simp only [Option.map_eq_some_iff] at h
    obtain ⟨_, h1, rfl⟩ := h
    have hA := allocate_leaf h1
    simp (disch := first | (intros; simp; done) | assumption) [hA]

@[simp] theorem headWords_frame (a : ℕ) (b : ℕ) (c : ℕ) (d : ℕ) (e : KvGeom) (s : State) :
    (headWords a b c d e s).pending = s.pending ∧ (headWords a b c d e s).time = s.time ∧ (headWords a b c d e s).id = s.id ∧ (headWords a b c d e s).fab = s.fab ∧ (headWords a b c d e s).ops = s.ops ∧ (headWords a b c d e s).mdl = s.mdl ∧ (headWords a b c d e s).exu = s.exu ∧ (headWords a b c d e s).coll = s.coll ∧ (headWords a b c d e s).pw = s.pw ∧ (headWords a b c d e s).sec = s.sec ∧ (headWords a b c d e s).cof = s.cof ∧ (headWords a b c d e s).draws = s.draws := by
  unfold headWords
  cases hg : allocate false a (.blockState b c) .held 0 (wordFrames s e d - heldBy s a (.blockState b c)) s with
  | none => simp
  | some v => have := allocate_frame hg; simp [this]

@[simp] theorem headWords_leaf (a : ℕ) (b : ℕ) (c : ℕ) (d : ℕ) (e : KvGeom) (s : State) :
    (headWords a b c d e s).hi.lock = s.hi.lock := by
  unfold headWords
  cases hg : allocate false a (.blockState b c) .held 0 (wordFrames s e d - heldBy s a (.blockState b c)) s with
  | none => simp
  | some v => have := allocate_leaf hg; simp [this]

theorem headFrames_frame {a : ℕ} {b : ℕ × WorkKind} {s : State} {u : State} (h : headFrames a b s = some u) :
    u.pending = s.pending ∧ u.time = s.time ∧ u.id = s.id ∧ u.fab = s.fab ∧ u.ops = s.ops ∧ u.mdl = s.mdl ∧ u.exu = s.exu ∧ u.coll = s.coll ∧ u.pw = s.pw ∧ u.sec = s.sec ∧ u.cof = s.cof ∧ u.draws = s.draws := by
  unfold headFrames at h
  split at h
  · simp only [Option.map_eq_some_iff] at h
    obtain ⟨v, h1, rfl⟩ := h
    have q := tryEach_keeps (fun s => (s.pending, s.time, s.id, s.fab, s.ops, s.mdl, s.exu, s.coll, s.pw, s.sec, s.cof, s.draws)) _ (fun x s u hx => by
      split at hx
      · cases hx; rfl
      · have hf := headPage_frame hx; simp [hf]) _ _ _ h1
    split at q <;> simp_all
  · cases h
    simp

theorem headFrames_leaf {a : ℕ} {b : ℕ × WorkKind} {s : State} {u : State} (h : headFrames a b s = some u) :
    u.hi.lock = s.hi.lock := by
  unfold headFrames at h
  split at h
  · simp only [Option.map_eq_some_iff] at h
    obtain ⟨v, h1, rfl⟩ := h
    have q := tryEach_keeps (fun s => s.hi.lock) _ (fun x s u hx => by
      split at hx
      · cases hx; rfl
      · have hf := headPage_leaf hx; simp [hf]) _ _ _ h1
    split at q <;> simp_all
  · cases h
    simp

theorem headWork_frame {a : ℕ} {b : List (ℕ × WorkKind)} {s : State} {u : State} (h : headWork a b s = some u) :
    u.pending = s.pending ∧ u.time = s.time ∧ u.id = s.id ∧ u.fab = s.fab ∧ u.ops = s.ops ∧ u.mdl = s.mdl ∧ u.exu = s.exu ∧ u.coll = s.coll ∧ u.pw = s.pw ∧ u.sec = s.sec ∧ u.cof = s.cof ∧ u.draws = s.draws := by
  unfold headWork at h
  have q := tryEach_keeps (fun s => (s.pending, s.time, s.id, s.fab, s.ops, s.mdl, s.exu, s.coll, s.pw, s.sec, s.cof, s.draws)) _ (fun x s u hx => by have hf := headFrames_frame hx; simp [hf]) _ _ _ h
  simpa using q

theorem headWork_leaf {a : ℕ} {b : List (ℕ × WorkKind)} {s : State} {u : State} (h : headWork a b s = some u) :
    u.hi.lock = s.hi.lock := by
  unfold headWork at h
  have q := tryEach_keeps (fun s => s.hi.lock) _ (fun x s u hx => by have hf := headFrames_leaf hx; simp [hf]) _ _ _ h
  simpa using q

@[simp] theorem startStep_frame (a : ℕ) (b : Queued) (s : State) :
    (startStep a b s).pending = s.pending ∧ (startStep a b s).time = s.time ∧ (startStep a b s).id = s.id ∧ (startStep a b s).hi = s.hi ∧ (startStep a b s).ctxs = s.ctxs ∧ (startStep a b s).mem = s.mem ∧ (startStep a b s).srv = s.srv ∧ (startStep a b s).ops = s.ops ∧ (startStep a b s).mdl = s.mdl ∧ (startStep a b s).exu = s.exu ∧ (startStep a b s).coll = s.coll ∧ (startStep a b s).xn = s.xn ∧ (startStep a b s).sec = s.sec ∧ (startStep a b s).td = s.td ∧ (startStep a b s).cof = s.cof ∧ (startStep a b s).draws = s.draws ∧ (startStep a b s).out = s.out := by
  simp [startStep]

@[simp] theorem startStep_leaf (a : ℕ) (b : Queued) (s : State) :
    (startStep a b s).fab.scratch = s.fab.scratch ∧ (startStep a b s).pw.st = s.pw.st := by
  simp [startStep]

@[simp] theorem computeStep_frame (a : ℕ) (b : Queued) (c : List StepOp) (s : State) :
    (computeStep a b c s).pending = s.pending ∧ (computeStep a b c s).time = s.time ∧ (computeStep a b c s).id = s.id ∧ (computeStep a b c s).sec = s.sec ∧ (computeStep a b c s).draws = s.draws := by
  simp [computeStep]

@[simp] theorem computeStep_leaf (a : ℕ) (b : Queued) (c : List StepOp) (s : State) :
    (computeStep a b c s).hi.lock = s.hi.lock ∧ (computeStep a b c s).pw.st = s.pw.st := by
  simp [computeStep]

@[simp] theorem dispatchStep_frame (a : ℕ) (b : Queued) (c : List StepOp) (s : State) :
    (dispatchStep a b c s).pending = s.pending ∧ (dispatchStep a b c s).time = s.time ∧ (dispatchStep a b c s).id = s.id ∧ (dispatchStep a b c s).sec = s.sec ∧ (dispatchStep a b c s).draws = s.draws := by
  simp only [dispatchStep]
  repeat' split
  all_goals try have hheadWorkframe := headWork_frame (by assumption)
  all_goals simp_all

@[simp] theorem dispatchStep_leaf (a : ℕ) (b : Queued) (c : List StepOp) (s : State) :
    (dispatchStep a b c s).hi.lock = s.hi.lock ∧ (dispatchStep a b c s).pw.st = s.pw.st := by
  simp only [dispatchStep]
  repeat' split
  all_goals try have hheadWorkframe := headWork_frame (by assumption)
  all_goals try have hheadWorkleaf := headWork_leaf (by assumption)
  all_goals simp_all

@[simp] theorem billTime_frame (a : ℕ) (b : ℕ) (c : ℕ) (d : ℕ) (e : Bool) (s : State) :
    (billTime a b c d e s).pending = s.pending ∧ (billTime a b c d e s).time = s.time ∧ (billTime a b c d e s).id = s.id ∧ (billTime a b c d e s).hi = s.hi ∧ (billTime a b c d e s).ctxs = s.ctxs ∧ (billTime a b c d e s).mem = s.mem ∧ (billTime a b c d e s).ops = s.ops ∧ (billTime a b c d e s).mdl = s.mdl ∧ (billTime a b c d e s).exu = s.exu ∧ (billTime a b c d e s).coll = s.coll ∧ (billTime a b c d e s).xn = s.xn ∧ (billTime a b c d e s).pw = s.pw ∧ (billTime a b c d e s).sec = s.sec ∧ (billTime a b c d e s).td = s.td ∧ (billTime a b c d e s).cof = s.cof ∧ (billTime a b c d e s).draws = s.draws ∧ (billTime a b c d e s).out = s.out := by
  simp [billTime]

@[simp] theorem billTime_leaf (a : ℕ) (b : ℕ) (c : ℕ) (d : ℕ) (e : Bool) (s : State) :
    (billTime a b c d e s).fab.scratch = s.fab.scratch := by
  simp [billTime]

@[simp] theorem chargeTime_frame (a : ℕ) (b : ℕ) (c : Running) (s : State) :
    (chargeTime a b c s).pending = s.pending ∧ (chargeTime a b c s).time = s.time ∧ (chargeTime a b c s).id = s.id ∧ (chargeTime a b c s).hi = s.hi ∧ (chargeTime a b c s).ctxs = s.ctxs ∧ (chargeTime a b c s).mem = s.mem ∧ (chargeTime a b c s).ops = s.ops ∧ (chargeTime a b c s).mdl = s.mdl ∧ (chargeTime a b c s).exu = s.exu ∧ (chargeTime a b c s).coll = s.coll ∧ (chargeTime a b c s).xn = s.xn ∧ (chargeTime a b c s).pw = s.pw ∧ (chargeTime a b c s).sec = s.sec ∧ (chargeTime a b c s).td = s.td ∧ (chargeTime a b c s).cof = s.cof ∧ (chargeTime a b c s).draws = s.draws ∧ (chargeTime a b c s).out = s.out := by
  simp [chargeTime]

@[simp] theorem chargeTime_leaf (a : ℕ) (b : ℕ) (c : Running) (s : State) :
    (chargeTime a b c s).fab.scratch = s.fab.scratch := by
  simp [chargeTime]

@[simp] theorem countStep_frame (a : ℕ) (b : ℕ) (s : State) :
    (countStep a b s).pending = s.pending ∧ (countStep a b s).time = s.time ∧ (countStep a b s).id = s.id ∧ (countStep a b s).hi = s.hi ∧ (countStep a b s).mem = s.mem ∧ (countStep a b s).fab = s.fab ∧ (countStep a b s).srv = s.srv ∧ (countStep a b s).ops = s.ops ∧ (countStep a b s).mdl = s.mdl ∧ (countStep a b s).exu = s.exu ∧ (countStep a b s).coll = s.coll ∧ (countStep a b s).xn = s.xn ∧ (countStep a b s).pw = s.pw ∧ (countStep a b s).sec = s.sec ∧ (countStep a b s).td = s.td ∧ (countStep a b s).cof = s.cof ∧ (countStep a b s).draws = s.draws ∧ (countStep a b s).out = s.out := by
  simp [countStep]

@[simp] theorem recordStep_frame (a : ℕ) (b : Running) (c : Bool) (d : Bool) (s : State) :
    (recordStep a b c d s).pending = s.pending ∧ (recordStep a b c d s).time = s.time ∧ (recordStep a b c d s).id = s.id ∧ (recordStep a b c d s).hi = s.hi ∧ (recordStep a b c d s).mem = s.mem ∧ (recordStep a b c d s).fab = s.fab ∧ (recordStep a b c d s).ops = s.ops ∧ (recordStep a b c d s).mdl = s.mdl ∧ (recordStep a b c d s).exu = s.exu ∧ (recordStep a b c d s).coll = s.coll ∧ (recordStep a b c d s).xn = s.xn ∧ (recordStep a b c d s).pw = s.pw ∧ (recordStep a b c d s).sec = s.sec ∧ (recordStep a b c d s).cof = s.cof ∧ (recordStep a b c d s).draws = s.draws := by
  simp [recordStep]

@[simp] theorem evaluateLayers_frame (a : ℕ) (s : State) :
    (evaluateLayers a s).pending = s.pending ∧ (evaluateLayers a s).time = s.time ∧ (evaluateLayers a s).id = s.id ∧ (evaluateLayers a s).hi = s.hi ∧ (evaluateLayers a s).ctxs = s.ctxs ∧ (evaluateLayers a s).mem = s.mem ∧ (evaluateLayers a s).srv = s.srv ∧ (evaluateLayers a s).ops = s.ops ∧ (evaluateLayers a s).mdl = s.mdl ∧ (evaluateLayers a s).exu = s.exu ∧ (evaluateLayers a s).coll = s.coll ∧ (evaluateLayers a s).xn = s.xn ∧ (evaluateLayers a s).pw = s.pw ∧ (evaluateLayers a s).sec = s.sec ∧ (evaluateLayers a s).td = s.td ∧ (evaluateLayers a s).cof = s.cof ∧ (evaluateLayers a s).draws = s.draws ∧ (evaluateLayers a s).out = s.out := by
  simp [evaluateLayers]

@[simp] theorem evaluateLayers_leaf (a : ℕ) (s : State) :
    (evaluateLayers a s).fab.scratch = s.fab.scratch := by
  simp [evaluateLayers]

@[simp] theorem truncate_frame (a : ℕ) (s : State) :
    (truncate a s).pending = s.pending ∧ (truncate a s).time = s.time ∧ (truncate a s).id = s.id ∧ (truncate a s).hi = s.hi ∧ (truncate a s).ctxs = s.ctxs ∧ (truncate a s).fab = s.fab ∧ (truncate a s).ops = s.ops ∧ (truncate a s).mdl = s.mdl ∧ (truncate a s).exu = s.exu ∧ (truncate a s).coll = s.coll ∧ (truncate a s).xn = s.xn ∧ (truncate a s).pw = s.pw ∧ (truncate a s).sec = s.sec ∧ (truncate a s).td = s.td ∧ (truncate a s).cof = s.cof ∧ (truncate a s).draws = s.draws ∧ (truncate a s).out = s.out := by
  simp [truncate]

@[simp] theorem truncate_leaf (a : ℕ) (s : State) :
    (truncate a s).mem.dram = s.mem.dram := by
  simp [truncate]

@[simp] theorem outToken_frame (a : ℕ) (b : Request) (c : TokRec) (s : State) :
    (outToken a b c s).pending = s.pending ∧ (outToken a b c s).time = s.time ∧ (outToken a b c s).id = s.id ∧ (outToken a b c s).fab = s.fab ∧ (outToken a b c s).ops = s.ops ∧ (outToken a b c s).mdl = s.mdl ∧ (outToken a b c s).exu = s.exu ∧ (outToken a b c s).coll = s.coll ∧ (outToken a b c s).xn = s.xn ∧ (outToken a b c s).pw = s.pw ∧ (outToken a b c s).sec = s.sec ∧ (outToken a b c s).cof = s.cof ∧ (outToken a b c s).draws = s.draws := by
  simp [outToken]

@[simp] theorem outToken_leaf (a : ℕ) (b : Request) (c : TokRec) (s : State) :
    (outToken a b c s).mem.dram = s.mem.dram ∧ (outToken a b c s).hi.lock = s.hi.lock := by
  simp [outToken]

@[simp] theorem deliver_frame (a : ℕ) (b : List (ℕ × Word)) (c : ℕ) (d : ℕ) (s : State) :
    (deliver a b c d s).2.pending = s.pending ∧ (deliver a b c d s).2.time = s.time ∧ (deliver a b c d s).2.id = s.id ∧ (deliver a b c d s).2.fab = s.fab ∧ (deliver a b c d s).2.ops = s.ops ∧ (deliver a b c d s).2.mdl = s.mdl ∧ (deliver a b c d s).2.exu = s.exu ∧ (deliver a b c d s).2.coll = s.coll ∧ (deliver a b c d s).2.xn = s.xn ∧ (deliver a b c d s).2.pw = s.pw ∧ (deliver a b c d s).2.sec = s.sec ∧ (deliver a b c d s).2.cof = s.cof ∧ (deliver a b c d s).2.draws = s.draws := by
  induction b generalizing a c d s with
  | nil => simp [deliver]
  | cons y m ih =>
    unfold deliver
    try dsimp only
    repeat' split
    all_goals simp [ih]

@[simp] theorem deliver_leaf (a : ℕ) (b : List (ℕ × Word)) (c : ℕ) (d : ℕ) (s : State) :
    (deliver a b c d s).2.mem.dram = s.mem.dram ∧ (deliver a b c d s).2.hi.lock = s.hi.lock := by
  induction b generalizing a c d s with
  | nil => simp [deliver]
  | cons y m ih =>
    unfold deliver
    try dsimp only
    repeat' split
    all_goals simp [ih]

@[simp] theorem freePage_frame (a : ℕ) (b : ℕ) (c : ℕ) (s : State) :
    (freePage a b c s).pending = s.pending ∧ (freePage a b c s).time = s.time ∧ (freePage a b c s).id = s.id ∧ (freePage a b c s).hi = s.hi ∧ (freePage a b c s).ctxs = s.ctxs ∧ (freePage a b c s).fab = s.fab ∧ (freePage a b c s).ops = s.ops ∧ (freePage a b c s).mdl = s.mdl ∧ (freePage a b c s).exu = s.exu ∧ (freePage a b c s).coll = s.coll ∧ (freePage a b c s).pw = s.pw ∧ (freePage a b c s).sec = s.sec ∧ (freePage a b c s).cof = s.cof ∧ (freePage a b c s).draws = s.draws := by
  simp only [freePage]
  repeat' split
  all_goals simp

@[simp] theorem freePage_leaf (a : ℕ) (b : ℕ) (c : ℕ) (s : State) :
    (freePage a b c s).mem.dram = s.mem.dram := by
  simp only [freePage]
  repeat' split
  all_goals simp

@[simp] theorem commitPending_frame (a : ℕ) (b : Request) (s : State) :
    (commitPending a b s).pending = s.pending ∧ (commitPending a b s).time = s.time ∧ (commitPending a b s).id = s.id ∧ (commitPending a b s).hi = s.hi ∧ (commitPending a b s).ctxs = s.ctxs ∧ (commitPending a b s).mem = s.mem ∧ (commitPending a b s).fab = s.fab ∧ (commitPending a b s).ops = s.ops ∧ (commitPending a b s).mdl = s.mdl ∧ (commitPending a b s).exu = s.exu ∧ (commitPending a b s).coll = s.coll ∧ (commitPending a b s).xn = s.xn ∧ (commitPending a b s).pw = s.pw ∧ (commitPending a b s).sec = s.sec ∧ (commitPending a b s).td = s.td ∧ (commitPending a b s).cof = s.cof ∧ (commitPending a b s).draws = s.draws ∧ (commitPending a b s).out = s.out := by
  simp [commitPending]

@[simp] theorem setPending_frame (a : ℕ) (b : ℕ) (c : ℕ) (s : State) :
    (setPending a b c s).pending = s.pending ∧ (setPending a b c s).time = s.time ∧ (setPending a b c s).id = s.id ∧ (setPending a b c s).hi = s.hi ∧ (setPending a b c s).ctxs = s.ctxs ∧ (setPending a b c s).fab = s.fab ∧ (setPending a b c s).ops = s.ops ∧ (setPending a b c s).mdl = s.mdl ∧ (setPending a b c s).exu = s.exu ∧ (setPending a b c s).coll = s.coll ∧ (setPending a b c s).xn = s.xn ∧ (setPending a b c s).pw = s.pw ∧ (setPending a b c s).sec = s.sec ∧ (setPending a b c s).td = s.td ∧ (setPending a b c s).cof = s.cof ∧ (setPending a b c s).draws = s.draws ∧ (setPending a b c s).out = s.out := by
  simp only [setPending]
  repeat' split
  all_goals simp

@[simp] theorem applyVerify_frame (a : ℕ) (b : ℕ) (c : List ℕ) (s : State) :
    (applyVerify a b c s).pending = s.pending ∧ (applyVerify a b c s).time = s.time ∧ (applyVerify a b c s).id = s.id ∧ (applyVerify a b c s).hi = s.hi ∧ (applyVerify a b c s).ctxs = s.ctxs ∧ (applyVerify a b c s).fab = s.fab ∧ (applyVerify a b c s).ops = s.ops ∧ (applyVerify a b c s).mdl = s.mdl ∧ (applyVerify a b c s).exu = s.exu ∧ (applyVerify a b c s).coll = s.coll ∧ (applyVerify a b c s).pw = s.pw ∧ (applyVerify a b c s).sec = s.sec ∧ (applyVerify a b c s).cof = s.cof ∧ (applyVerify a b c s).draws = s.draws := by
  simp only [applyVerify]
  repeat' split
  all_goals simp

@[simp] theorem applyBudget_frame (a : ℕ) (s : State) :
    (applyBudget a s).pending = s.pending ∧ (applyBudget a s).time = s.time ∧ (applyBudget a s).id = s.id ∧ (applyBudget a s).hi = s.hi ∧ (applyBudget a s).ctxs = s.ctxs ∧ (applyBudget a s).fab = s.fab ∧ (applyBudget a s).ops = s.ops ∧ (applyBudget a s).mdl = s.mdl ∧ (applyBudget a s).exu = s.exu ∧ (applyBudget a s).coll = s.coll ∧ (applyBudget a s).pw = s.pw ∧ (applyBudget a s).sec = s.sec ∧ (applyBudget a s).cof = s.cof ∧ (applyBudget a s).draws = s.draws := by
  simp only [applyBudget]
  repeat' split
  all_goals simp

@[simp] theorem applyBudget_leaf (a : ℕ) (s : State) :
    (applyBudget a s).mem.dram = s.mem.dram := by
  simp only [applyBudget]
  repeat' split
  all_goals simp

@[simp] theorem fwWrite_frame (a : ℕ) (b : ℕ) (c : ℕ) (d : ℕ) (e : List Byte) (s : State) :
    (fwWrite a b c d e s).pending = s.pending ∧ (fwWrite a b c d e s).time = s.time ∧ (fwWrite a b c d e s).id = s.id ∧ (fwWrite a b c d e s).hi = s.hi ∧ (fwWrite a b c d e s).ctxs = s.ctxs ∧ (fwWrite a b c d e s).mem = s.mem ∧ (fwWrite a b c d e s).fab = s.fab ∧ (fwWrite a b c d e s).srv = s.srv ∧ (fwWrite a b c d e s).ops = s.ops ∧ (fwWrite a b c d e s).mdl = s.mdl ∧ (fwWrite a b c d e s).exu = s.exu ∧ (fwWrite a b c d e s).coll = s.coll ∧ (fwWrite a b c d e s).pw = s.pw ∧ (fwWrite a b c d e s).sec = s.sec ∧ (fwWrite a b c d e s).cof = s.cof ∧ (fwWrite a b c d e s).draws = s.draws := by
  simp [fwWrite]

@[simp] theorem clearRemote_frame (a : ℕ) (b : Pub) (c : KvGeom) (d : ℕ) (e : ℕ) (f : ℕ) (s : State) :
    (clearRemote a b c d e f s).pending = s.pending ∧ (clearRemote a b c d e f s).time = s.time ∧ (clearRemote a b c d e f s).id = s.id ∧ (clearRemote a b c d e f s).hi = s.hi ∧ (clearRemote a b c d e f s).ctxs = s.ctxs ∧ (clearRemote a b c d e f s).mem = s.mem ∧ (clearRemote a b c d e f s).fab = s.fab ∧ (clearRemote a b c d e f s).srv = s.srv ∧ (clearRemote a b c d e f s).ops = s.ops ∧ (clearRemote a b c d e f s).mdl = s.mdl ∧ (clearRemote a b c d e f s).exu = s.exu ∧ (clearRemote a b c d e f s).coll = s.coll ∧ (clearRemote a b c d e f s).pw = s.pw ∧ (clearRemote a b c d e f s).sec = s.sec ∧ (clearRemote a b c d e f s).cof = s.cof ∧ (clearRemote a b c d e f s).draws = s.draws := by
  simp [clearRemote]

@[simp] theorem headBudget_frame (a : ℕ) (b : ℕ) (c : KvGeom) (s : State) :
    (headBudget a b c s).pending = s.pending ∧ (headBudget a b c s).time = s.time ∧ (headBudget a b c s).id = s.id ∧ (headBudget a b c s).hi = s.hi ∧ (headBudget a b c s).ctxs = s.ctxs ∧ (headBudget a b c s).fab = s.fab ∧ (headBudget a b c s).ops = s.ops ∧ (headBudget a b c s).mdl = s.mdl ∧ (headBudget a b c s).exu = s.exu ∧ (headBudget a b c s).coll = s.coll ∧ (headBudget a b c s).pw = s.pw ∧ (headBudget a b c s).sec = s.sec ∧ (headBudget a b c s).cof = s.cof ∧ (headBudget a b c s).draws = s.draws := by
  simp (disch := first | (intros; (repeat' split) <;> (simp [-Nat.reducePow]; done)) | (intros; dsimp only; (repeat' split) <;> (simp [-Nat.reducePow]; done)) | assumption) [headBudget, -Nat.reducePow]

@[simp] theorem headBudget_leaf (a : ℕ) (b : ℕ) (c : KvGeom) (s : State) :
    (headBudget a b c s).mem.dram = s.mem.dram := by
  simp (disch := first | (intros; (repeat' split) <;> (simp [-Nat.reducePow]; done)) | (intros; dsimp only; (repeat' split) <;> (simp [-Nat.reducePow]; done)) | assumption) [headBudget, -Nat.reducePow]

@[simp] theorem applyMass_frame (a : Running) (s : State) :
    (applyMass a s).pending = s.pending ∧ (applyMass a s).time = s.time ∧ (applyMass a s).id = s.id ∧ (applyMass a s).hi = s.hi ∧ (applyMass a s).ctxs = s.ctxs ∧ (applyMass a s).mem = s.mem ∧ (applyMass a s).fab = s.fab ∧ (applyMass a s).ops = s.ops ∧ (applyMass a s).mdl = s.mdl ∧ (applyMass a s).exu = s.exu ∧ (applyMass a s).coll = s.coll ∧ (applyMass a s).xn = s.xn ∧ (applyMass a s).pw = s.pw ∧ (applyMass a s).sec = s.sec ∧ (applyMass a s).td = s.td ∧ (applyMass a s).cof = s.cof ∧ (applyMass a s).draws = s.draws ∧ (applyMass a s).out = s.out := by
  simp [applyMass]

@[simp] theorem headBoundary_frame (a : ℕ) (b : ℕ) (c : ℕ) (d : ℕ) (e : ℕ) (f : ℕ) (s : State) :
    (headBoundary a b c d e f s).pending = s.pending ∧ (headBoundary a b c d e f s).time = s.time ∧ (headBoundary a b c d e f s).id = s.id ∧ (headBoundary a b c d e f s).hi = s.hi ∧ (headBoundary a b c d e f s).ctxs = s.ctxs ∧ (headBoundary a b c d e f s).fab = s.fab ∧ (headBoundary a b c d e f s).ops = s.ops ∧ (headBoundary a b c d e f s).mdl = s.mdl ∧ (headBoundary a b c d e f s).exu = s.exu ∧ (headBoundary a b c d e f s).coll = s.coll ∧ (headBoundary a b c d e f s).pw = s.pw ∧ (headBoundary a b c d e f s).sec = s.sec ∧ (headBoundary a b c d e f s).cof = s.cof ∧ (headBoundary a b c d e f s).draws = s.draws := by
  simp only [headBoundary]
  repeat' split
  all_goals simp

@[simp] theorem headBoundary_leaf (a : ℕ) (b : ℕ) (c : ℕ) (d : ℕ) (e : ℕ) (f : ℕ) (s : State) :
    (headBoundary a b c d e f s).mem.dram = s.mem.dram := by
  simp only [headBoundary]
  repeat' split
  all_goals simp

@[simp] theorem applyRecompute_frame (a : ℕ) (b : ℕ) (s : State) :
    (applyRecompute a b s).pending = s.pending ∧ (applyRecompute a b s).time = s.time ∧ (applyRecompute a b s).id = s.id ∧ (applyRecompute a b s).hi = s.hi ∧ (applyRecompute a b s).ctxs = s.ctxs ∧ (applyRecompute a b s).mem = s.mem ∧ (applyRecompute a b s).fab = s.fab ∧ (applyRecompute a b s).ops = s.ops ∧ (applyRecompute a b s).mdl = s.mdl ∧ (applyRecompute a b s).exu = s.exu ∧ (applyRecompute a b s).coll = s.coll ∧ (applyRecompute a b s).xn = s.xn ∧ (applyRecompute a b s).pw = s.pw ∧ (applyRecompute a b s).sec = s.sec ∧ (applyRecompute a b s).td = s.td ∧ (applyRecompute a b s).cof = s.cof ∧ (applyRecompute a b s).draws = s.draws ∧ (applyRecompute a b s).out = s.out := by
  simp only [applyRecompute]
  repeat' split
  all_goals simp

@[simp] theorem takeTokens_frame (a : ℕ) (b : ℕ) (c : ℕ) (d : Bool) (e : List (ℕ × Word)) (s : State) :
    (takeTokens a b c d e s).pending = s.pending ∧ (takeTokens a b c d e s).time = s.time ∧ (takeTokens a b c d e s).id = s.id ∧ (takeTokens a b c d e s).fab = s.fab ∧ (takeTokens a b c d e s).ops = s.ops ∧ (takeTokens a b c d e s).mdl = s.mdl ∧ (takeTokens a b c d e s).exu = s.exu ∧ (takeTokens a b c d e s).coll = s.coll ∧ (takeTokens a b c d e s).pw = s.pw ∧ (takeTokens a b c d e s).sec = s.sec ∧ (takeTokens a b c d e s).cof = s.cof ∧ (takeTokens a b c d e s).draws = s.draws := by
  simp only [takeTokens]
  repeat' split
  all_goals simp

@[simp] theorem takeTokens_leaf (a : ℕ) (b : ℕ) (c : ℕ) (d : Bool) (e : List (ℕ × Word)) (s : State) :
    (takeTokens a b c d e s).hi.lock = s.hi.lock := by
  simp only [takeTokens]
  repeat' split
  all_goals simp

@[simp] theorem scoreResult_frame (a : ℕ) (b : Request) (c : StepRes) (s : State) :
    (scoreResult a b c s).pending = s.pending ∧ (scoreResult a b c s).time = s.time ∧ (scoreResult a b c s).id = s.id ∧ (scoreResult a b c s).hi = s.hi ∧ (scoreResult a b c s).mem = s.mem ∧ (scoreResult a b c s).fab = s.fab ∧ (scoreResult a b c s).ops = s.ops ∧ (scoreResult a b c s).mdl = s.mdl ∧ (scoreResult a b c s).exu = s.exu ∧ (scoreResult a b c s).coll = s.coll ∧ (scoreResult a b c s).xn = s.xn ∧ (scoreResult a b c s).pw = s.pw ∧ (scoreResult a b c s).sec = s.sec ∧ (scoreResult a b c s).cof = s.cof ∧ (scoreResult a b c s).draws = s.draws := by
  simp [scoreResult]

@[simp] theorem commitPrompt_frame (a : ℕ) (b : ℕ) (s : State) :
    (commitPrompt a b s).pending = s.pending ∧ (commitPrompt a b s).time = s.time ∧ (commitPrompt a b s).id = s.id ∧ (commitPrompt a b s).hi = s.hi ∧ (commitPrompt a b s).ctxs = s.ctxs ∧ (commitPrompt a b s).mem = s.mem ∧ (commitPrompt a b s).fab = s.fab ∧ (commitPrompt a b s).ops = s.ops ∧ (commitPrompt a b s).mdl = s.mdl ∧ (commitPrompt a b s).exu = s.exu ∧ (commitPrompt a b s).coll = s.coll ∧ (commitPrompt a b s).xn = s.xn ∧ (commitPrompt a b s).pw = s.pw ∧ (commitPrompt a b s).sec = s.sec ∧ (commitPrompt a b s).td = s.td ∧ (commitPrompt a b s).cof = s.cof ∧ (commitPrompt a b s).draws = s.draws ∧ (commitPrompt a b s).out = s.out := by
  simp [commitPrompt]

@[simp] theorem noteFill_frame (a : ℕ) (b : ℕ) (c : ℕ) (s : State) :
    (noteFill a b c s).pending = s.pending ∧ (noteFill a b c s).time = s.time ∧ (noteFill a b c s).id = s.id ∧ (noteFill a b c s).hi = s.hi ∧ (noteFill a b c s).ctxs = s.ctxs ∧ (noteFill a b c s).mem = s.mem ∧ (noteFill a b c s).fab = s.fab ∧ (noteFill a b c s).ops = s.ops ∧ (noteFill a b c s).mdl = s.mdl ∧ (noteFill a b c s).exu = s.exu ∧ (noteFill a b c s).coll = s.coll ∧ (noteFill a b c s).xn = s.xn ∧ (noteFill a b c s).pw = s.pw ∧ (noteFill a b c s).sec = s.sec ∧ (noteFill a b c s).td = s.td ∧ (noteFill a b c s).cof = s.cof ∧ (noteFill a b c s).draws = s.draws ∧ (noteFill a b c s).out = s.out := by
  simp [noteFill]

@[simp] theorem requestWork_frame (a : ℕ) (b : ℕ) (c : ℕ) (d : ℕ) (e : WorkKind) (f : StepRes) (s : State) :
    (requestWork a b c d e f s).pending = s.pending ∧ (requestWork a b c d e f s).time = s.time ∧ (requestWork a b c d e f s).id = s.id ∧ (requestWork a b c d e f s).fab = s.fab ∧ (requestWork a b c d e f s).ops = s.ops ∧ (requestWork a b c d e f s).coll = s.coll ∧ (requestWork a b c d e f s).pw = s.pw ∧ (requestWork a b c d e f s).sec = s.sec ∧ (requestWork a b c d e f s).cof = s.cof ∧ (requestWork a b c d e f s).draws = s.draws := by
  simp only [requestWork]
  repeat' split
  all_goals simp

@[simp] theorem requestWork_leaf (a : ℕ) (b : ℕ) (c : ℕ) (d : ℕ) (e : WorkKind) (f : StepRes) (s : State) :
    (requestWork a b c d e f s).hi.lock = s.hi.lock := by
  simp only [requestWork]
  repeat' split
  all_goals simp

@[simp] theorem boundaryWork_frame (a : ℕ) (b : ℕ) (c : ℕ) (d : ℕ × WorkKind) (e : StepRes) (s : State) :
    (boundaryWork a b c d e s).pending = s.pending ∧ (boundaryWork a b c d e s).time = s.time ∧ (boundaryWork a b c d e s).id = s.id ∧ (boundaryWork a b c d e s).fab = s.fab ∧ (boundaryWork a b c d e s).ops = s.ops ∧ (boundaryWork a b c d e s).coll = s.coll ∧ (boundaryWork a b c d e s).pw = s.pw ∧ (boundaryWork a b c d e s).sec = s.sec ∧ (boundaryWork a b c d e s).cof = s.cof ∧ (boundaryWork a b c d e s).draws = s.draws := by
  simp only [boundaryWork]
  repeat' split
  all_goals simp

@[simp] theorem boundaryWork_leaf (a : ℕ) (b : ℕ) (c : ℕ) (d : ℕ × WorkKind) (e : StepRes) (s : State) :
    (boundaryWork a b c d e s).hi.lock = s.hi.lock := by
  simp only [boundaryWork]
  repeat' split
  all_goals simp

@[simp] theorem fireWatch_frame (a : ℕ) (b : ℕ) (c : Running) (d : Watch) (s : State) :
    (fireWatch a b c d s).pending = s.pending ∧ (fireWatch a b c d s).time = s.time ∧ (fireWatch a b c d s).id = s.id ∧ (fireWatch a b c d s).mem = s.mem ∧ (fireWatch a b c d s).ops = s.ops ∧ (fireWatch a b c d s).mdl = s.mdl ∧ (fireWatch a b c d s).exu = s.exu ∧ (fireWatch a b c d s).coll = s.coll ∧ (fireWatch a b c d s).xn = s.xn ∧ (fireWatch a b c d s).pw = s.pw ∧ (fireWatch a b c d s).sec = s.sec ∧ (fireWatch a b c d s).cof = s.cof ∧ (fireWatch a b c d s).draws = s.draws := by
  simp [fireWatch]

@[simp] theorem fireWatch_leaf (a : ℕ) (b : ℕ) (c : Running) (d : Watch) (s : State) :
    (fireWatch a b c d s).fab.scratch = s.fab.scratch ∧ (fireWatch a b c d s).hi.lock = s.hi.lock := by
  simp [fireWatch]

@[simp] theorem runWatches_frame (a : ℕ) (b : Running) (s : State) :
    (runWatches a b s).pending = s.pending ∧ (runWatches a b s).time = s.time ∧ (runWatches a b s).id = s.id ∧ (runWatches a b s).mem = s.mem ∧ (runWatches a b s).ops = s.ops ∧ (runWatches a b s).mdl = s.mdl ∧ (runWatches a b s).exu = s.exu ∧ (runWatches a b s).coll = s.coll ∧ (runWatches a b s).xn = s.xn ∧ (runWatches a b s).pw = s.pw ∧ (runWatches a b s).sec = s.sec ∧ (runWatches a b s).cof = s.cof ∧ (runWatches a b s).draws = s.draws := by
  simp [runWatches]

@[simp] theorem runWatches_leaf (a : ℕ) (b : Running) (s : State) :
    (runWatches a b s).fab.scratch = s.fab.scratch ∧ (runWatches a b s).hi.lock = s.hi.lock := by
  simp [runWatches]

@[simp] theorem abortStep_frame (a : ℕ) (b : Running) (s : State) :
    (abortStep a b s).pending = s.pending ∧ (abortStep a b s).time = s.time ∧ (abortStep a b s).id = s.id ∧ (abortStep a b s).sec = s.sec ∧ (abortStep a b s).draws = s.draws := by
  simp [abortStep]

@[simp] theorem abortStep_leaf (a : ℕ) (b : Running) (s : State) :
    (abortStep a b s).hi.lock = s.hi.lock ∧ (abortStep a b s).pw.st = s.pw.st := by
  simp [abortStep]

@[simp] theorem queueProof_frame (a : ℕ) (b : Running) (s : State) :
    (queueProof a b s).pending = s.pending ∧ (queueProof a b s).time = s.time ∧ (queueProof a b s).id = s.id ∧ (queueProof a b s).hi = s.hi ∧ (queueProof a b s).ctxs = s.ctxs ∧ (queueProof a b s).mem = s.mem ∧ (queueProof a b s).srv = s.srv ∧ (queueProof a b s).ops = s.ops ∧ (queueProof a b s).mdl = s.mdl ∧ (queueProof a b s).exu = s.exu ∧ (queueProof a b s).coll = s.coll ∧ (queueProof a b s).xn = s.xn ∧ (queueProof a b s).pw = s.pw ∧ (queueProof a b s).sec = s.sec ∧ (queueProof a b s).td = s.td ∧ (queueProof a b s).cof = s.cof ∧ (queueProof a b s).draws = s.draws ∧ (queueProof a b s).out = s.out := by
  simp [queueProof]

@[simp] theorem queueProof_leaf (a : ℕ) (b : Running) (s : State) :
    (queueProof a b s).fab.scratch = s.fab.scratch := by
  simp [queueProof]

@[simp] theorem proofPlates_frame (a : ℕ) (b : List ℕ → List ℕ) (s : State) :
    (proofPlates a b s).pending = s.pending ∧ (proofPlates a b s).time = s.time ∧ (proofPlates a b s).id = s.id ∧ (proofPlates a b s).hi = s.hi ∧ (proofPlates a b s).ctxs = s.ctxs ∧ (proofPlates a b s).mem = s.mem ∧ (proofPlates a b s).fab = s.fab ∧ (proofPlates a b s).ops = s.ops ∧ (proofPlates a b s).mdl = s.mdl ∧ (proofPlates a b s).exu = s.exu ∧ (proofPlates a b s).coll = s.coll ∧ (proofPlates a b s).xn = s.xn ∧ (proofPlates a b s).pw = s.pw ∧ (proofPlates a b s).sec = s.sec ∧ (proofPlates a b s).td = s.td ∧ (proofPlates a b s).cof = s.cof ∧ (proofPlates a b s).draws = s.draws ∧ (proofPlates a b s).out = s.out := by
  simp [proofPlates]

@[simp] theorem settleProofs_frame (a : ℕ) (b : Running) (s : State) :
    (settleProofs a b s).pending = s.pending ∧ (settleProofs a b s).time = s.time ∧ (settleProofs a b s).id = s.id ∧ (settleProofs a b s).hi = s.hi ∧ (settleProofs a b s).ctxs = s.ctxs ∧ (settleProofs a b s).mem = s.mem ∧ (settleProofs a b s).ops = s.ops ∧ (settleProofs a b s).mdl = s.mdl ∧ (settleProofs a b s).exu = s.exu ∧ (settleProofs a b s).coll = s.coll ∧ (settleProofs a b s).xn = s.xn ∧ (settleProofs a b s).pw = s.pw ∧ (settleProofs a b s).sec = s.sec ∧ (settleProofs a b s).td = s.td ∧ (settleProofs a b s).cof = s.cof ∧ (settleProofs a b s).draws = s.draws ∧ (settleProofs a b s).out = s.out := by
  simp [settleProofs]

@[simp] theorem settleProofs_leaf (a : ℕ) (b : Running) (s : State) :
    (settleProofs a b s).fab.scratch = s.fab.scratch := by
  simp [settleProofs]

@[simp] theorem nextProof_frame (a : ℕ) (b : Running) (s : State) :
    (nextProof a b s).pending = s.pending ∧ (nextProof a b s).time = s.time ∧ (nextProof a b s).id = s.id ∧ (nextProof a b s).hi = s.hi ∧ (nextProof a b s).ctxs = s.ctxs ∧ (nextProof a b s).mem = s.mem ∧ (nextProof a b s).ops = s.ops ∧ (nextProof a b s).mdl = s.mdl ∧ (nextProof a b s).exu = s.exu ∧ (nextProof a b s).coll = s.coll ∧ (nextProof a b s).xn = s.xn ∧ (nextProof a b s).pw = s.pw ∧ (nextProof a b s).sec = s.sec ∧ (nextProof a b s).td = s.td ∧ (nextProof a b s).cof = s.cof ∧ (nextProof a b s).draws = s.draws ∧ (nextProof a b s).out = s.out := by
  simp [nextProof]

@[simp] theorem nextProof_leaf (a : ℕ) (b : Running) (s : State) :
    (nextProof a b s).fab.scratch = s.fab.scratch := by
  simp [nextProof]

@[simp] theorem serveStep_frame (a : ℕ) (b : Running) (c : List StepRes) (s : State) :
    (serveStep a b c s).pending = s.pending ∧ (serveStep a b c s).time = s.time ∧ (serveStep a b c s).id = s.id ∧ (serveStep a b c s).ops = s.ops ∧ (serveStep a b c s).coll = s.coll ∧ (serveStep a b c s).pw = s.pw ∧ (serveStep a b c s).sec = s.sec ∧ (serveStep a b c s).cof = s.cof ∧ (serveStep a b c s).draws = s.draws := by
  simp [serveStep]

@[simp] theorem serveStep_leaf (a : ℕ) (b : Running) (c : List StepRes) (s : State) :
    (serveStep a b c s).fab.scratch = s.fab.scratch ∧ (serveStep a b c s).hi.lock = s.hi.lock := by
  simp [serveStep]

@[simp] theorem endStep_frame (a : ℕ) (b : Running) (c : List StepRes) (s : State) :
    (endStep a b c s).pending = s.pending ∧ (endStep a b c s).time = s.time ∧ (endStep a b c s).id = s.id ∧ (endStep a b c s).ops = s.ops ∧ (endStep a b c s).sec = s.sec ∧ (endStep a b c s).cof = s.cof ∧ (endStep a b c s).draws = s.draws := by
  simp [endStep]

@[simp] theorem endStep_leaf (a : ℕ) (b : Running) (c : List StepRes) (s : State) :
    (endStep a b c s).hi.lock = s.hi.lock ∧ (endStep a b c s).pw.st = s.pw.st := by
  simp [endStep]

end Sys2Proof.Machine
end

