-- ==== Sys2Proof/Laws/Jobs.lean ====
section
/-! SUPPORT. What the operations of Machine/Jobs.lean leave unchanged: the parts of the state that each does not touch. -/
namespace Sys2Proof.Machine

@[simp] theorem failAdmit_frame (a : ℕ) (b : Status) (s : State) :
    (failAdmit a b s).pending = s.pending ∧ (failAdmit a b s).time = s.time ∧ (failAdmit a b s).id = s.id ∧ (failAdmit a b s).fab = s.fab ∧ (failAdmit a b s).ops = s.ops ∧ (failAdmit a b s).mdl = s.mdl ∧ (failAdmit a b s).exu = s.exu ∧ (failAdmit a b s).coll = s.coll ∧ (failAdmit a b s).pw = s.pw ∧ (failAdmit a b s).sec = s.sec ∧ (failAdmit a b s).cof = s.cof ∧ (failAdmit a b s).draws = s.draws := by
  simp [failAdmit]

@[simp] theorem failAdmit_leaf (a : ℕ) (b : Status) (s : State) :
    (failAdmit a b s).mem.dram = s.mem.dram ∧ (failAdmit a b s).hi.lock = s.hi.lock := by
  simp [failAdmit]

@[simp] theorem finishAdmit_frame (a : ℕ) (s : State) :
    (finishAdmit a s).pending = s.pending ∧ (finishAdmit a s).time = s.time ∧ (finishAdmit a s).id = s.id ∧ (finishAdmit a s).ops = s.ops ∧ (finishAdmit a s).coll = s.coll ∧ (finishAdmit a s).sec = s.sec ∧ (finishAdmit a s).draws = s.draws := by
  simp [finishAdmit]

@[simp] theorem finishAdmit_leaf (a : ℕ) (s : State) :
    (finishAdmit a s).fab.scratch = s.fab.scratch ∧ (finishAdmit a s).hi.lock = s.hi.lock := by
  simp [finishAdmit]

@[simp] theorem takeChans_frame (a : ℕ) (b : Reservation) (s : State) :
    (takeChans a b s).pending = s.pending ∧ (takeChans a b s).time = s.time ∧ (takeChans a b s).id = s.id ∧ (takeChans a b s).hi = s.hi ∧ (takeChans a b s).ctxs = s.ctxs ∧ (takeChans a b s).fab = s.fab ∧ (takeChans a b s).srv = s.srv ∧ (takeChans a b s).ops = s.ops ∧ (takeChans a b s).mdl = s.mdl ∧ (takeChans a b s).exu = s.exu ∧ (takeChans a b s).coll = s.coll ∧ (takeChans a b s).xn = s.xn ∧ (takeChans a b s).pw = s.pw ∧ (takeChans a b s).sec = s.sec ∧ (takeChans a b s).td = s.td ∧ (takeChans a b s).cof = s.cof ∧ (takeChans a b s).draws = s.draws ∧ (takeChans a b s).out = s.out := by
  simp [takeChans]

@[simp] theorem takeChans_leaf (a : ℕ) (b : Reservation) (s : State) :
    (takeChans a b s).mem.dram = s.mem.dram := by
  simp [takeChans]

@[simp] theorem startAdmit_frame (a : Hdr) (b : Reservation) (c : Option KvGeom) (d : ℕ) (s : State) :
    (startAdmit a b c d s).pending = s.pending ∧ (startAdmit a b c d s).time = s.time ∧ (startAdmit a b c d s).id = s.id ∧ (startAdmit a b c d s).ops = s.ops ∧ (startAdmit a b c d s).coll = s.coll ∧ (startAdmit a b c d s).sec = s.sec ∧ (startAdmit a b c d s).draws = s.draws := by
  simp [startAdmit]

@[simp] theorem startAdmit_leaf (a : Hdr) (b : Reservation) (c : Option KvGeom) (d : ℕ) (s : State) :
    (startAdmit a b c d s).fab.scratch = s.fab.scratch ∧ (startAdmit a b c d s).hi.lock = s.hi.lock := by
  simp [startAdmit]

@[simp] theorem readAdmit_frame (a : Hdr) (b : ℕ) (c : ℕ) (d : Option Reservation) (e : ℕ) (s : State) :
    (readAdmit a b c d e s).pending = s.pending ∧ (readAdmit a b c d e s).time = s.time ∧ (readAdmit a b c d e s).id = s.id ∧ (readAdmit a b c d e s).hi = s.hi ∧ (readAdmit a b c d e s).mem = s.mem ∧ (readAdmit a b c d e s).fab = s.fab ∧ (readAdmit a b c d e s).srv = s.srv ∧ (readAdmit a b c d e s).ops = s.ops ∧ (readAdmit a b c d e s).mdl = s.mdl ∧ (readAdmit a b c d e s).exu = s.exu ∧ (readAdmit a b c d e s).coll = s.coll ∧ (readAdmit a b c d e s).xn = s.xn ∧ (readAdmit a b c d e s).pw = s.pw ∧ (readAdmit a b c d e s).sec = s.sec ∧ (readAdmit a b c d e s).cof = s.cof ∧ (readAdmit a b c d e s).draws = s.draws := by
  simp [readAdmit]

@[simp] theorem drainJob_frame (a : ℕ) (s : State) :
    (drainJob a s).pending = s.pending ∧ (drainJob a s).time = s.time ∧ (drainJob a s).id = s.id ∧ (drainJob a s).hi = s.hi ∧ (drainJob a s).ctxs = s.ctxs ∧ (drainJob a s).mem = s.mem ∧ (drainJob a s).srv = s.srv ∧ (drainJob a s).ops = s.ops ∧ (drainJob a s).mdl = s.mdl ∧ (drainJob a s).exu = s.exu ∧ (drainJob a s).coll = s.coll ∧ (drainJob a s).xn = s.xn ∧ (drainJob a s).pw = s.pw ∧ (drainJob a s).sec = s.sec ∧ (drainJob a s).td = s.td ∧ (drainJob a s).cof = s.cof ∧ (drainJob a s).draws = s.draws ∧ (drainJob a s).out = s.out := by
  simp [drainJob]

@[simp] theorem drainJob_leaf (a : ℕ) (s : State) :
    (drainJob a s).fab.scratch = s.fab.scratch := by
  simp [drainJob]

@[simp] theorem teardownBy_frame (a : ℕ) (b : Cmd) (s : State) :
    (teardownBy a b s).pending = s.pending ∧ (teardownBy a b s).time = s.time ∧ (teardownBy a b s).id = s.id ∧ (teardownBy a b s).sec = s.sec ∧ (teardownBy a b s).draws = s.draws := by
  simp [teardownBy]

@[simp] theorem teardownBy_leaf (a : ℕ) (b : Cmd) (s : State) :
    (teardownBy a b s).hi.lock = s.hi.lock ∧ (teardownBy a b s).pw.st = s.pw.st := by
  simp [teardownBy]

end Sys2Proof.Machine
end

