-- ==== Sys2Proof/Laws/Plates.lean ====
section
/-! SUPPORT. What the operations of Machine/Plates.lean leave unchanged: the parts of the state that each does not touch. -/
namespace Sys2Proof.Machine

@[simp] theorem standPlate_frame (a : ℕ) (b : ℕ) (c : ℕ) (d : PlateImage) (e : List (ℕ × IslRec)) (s : State) :
    (standPlate a b c d e s).pending = s.pending ∧ (standPlate a b c d e s).time = s.time ∧ (standPlate a b c d e s).id = s.id ∧ (standPlate a b c d e s).hi = s.hi ∧ (standPlate a b c d e s).ctxs = s.ctxs ∧ (standPlate a b c d e s).mem = s.mem ∧ (standPlate a b c d e s).srv = s.srv ∧ (standPlate a b c d e s).mdl = s.mdl ∧ (standPlate a b c d e s).exu = s.exu ∧ (standPlate a b c d e s).coll = s.coll ∧ (standPlate a b c d e s).xn = s.xn ∧ (standPlate a b c d e s).pw = s.pw ∧ (standPlate a b c d e s).sec = s.sec ∧ (standPlate a b c d e s).td = s.td ∧ (standPlate a b c d e s).cof = s.cof ∧ (standPlate a b c d e s).draws = s.draws ∧ (standPlate a b c d e s).out = s.out := by
  simp [standPlate]

@[simp] theorem standPlate_leaf (a : ℕ) (b : ℕ) (c : ℕ) (d : PlateImage) (e : List (ℕ × IslRec)) (s : State) :
    (standPlate a b c d e s).fab.scratch = s.fab.scratch := by
  simp [standPlate]

@[simp] theorem placePlate_frame (a : ℕ) (b : ℕ) (c : PlateImage) (s : State) :
    (placePlate a b c s).pending = s.pending ∧ (placePlate a b c s).time = s.time ∧ (placePlate a b c s).id = s.id ∧ (placePlate a b c s).mem = s.mem ∧ (placePlate a b c s).mdl = s.mdl ∧ (placePlate a b c s).exu = s.exu ∧ (placePlate a b c s).coll = s.coll ∧ (placePlate a b c s).xn = s.xn ∧ (placePlate a b c s).sec = s.sec ∧ (placePlate a b c s).cof = s.cof ∧ (placePlate a b c s).draws = s.draws := by
  simp only [placePlate]
  repeat' split
  all_goals simp

@[simp] theorem placePlate_leaf (a : ℕ) (b : ℕ) (c : PlateImage) (s : State) :
    (placePlate a b c s).fab.scratch = s.fab.scratch ∧ (placePlate a b c s).hi.lock = s.hi.lock ∧ (placePlate a b c s).pw.st = s.pw.st := by
  simp only [placePlate]
  repeat' split
  all_goals simp

@[simp] theorem replacePlate_frame (a : ℕ) (b : ℕ) (c : ℕ) (s : State) :
    (replacePlate a b c s).pending = s.pending ∧ (replacePlate a b c s).time = s.time ∧ (replacePlate a b c s).id = s.id ∧ (replacePlate a b c s).mem = s.mem ∧ (replacePlate a b c s).exu = s.exu ∧ (replacePlate a b c s).coll = s.coll ∧ (replacePlate a b c s).sec = s.sec ∧ (replacePlate a b c s).cof = s.cof ∧ (replacePlate a b c s).draws = s.draws := by
  simp [replacePlate]

@[simp] theorem replacePlate_leaf (a : ℕ) (b : ℕ) (c : ℕ) (s : State) :
    (replacePlate a b c s).hi.lock = s.hi.lock ∧ (replacePlate a b c s).pw.st = s.pw.st := by
  simp [replacePlate]

@[simp] theorem billWrite_frame (a : ℕ) (b : ℕ) (c : ℕ) (s : State) :
    (billWrite a b c s).pending = s.pending ∧ (billWrite a b c s).time = s.time ∧ (billWrite a b c s).id = s.id ∧ (billWrite a b c s).hi = s.hi ∧ (billWrite a b c s).ctxs = s.ctxs ∧ (billWrite a b c s).mem = s.mem ∧ (billWrite a b c s).mdl = s.mdl ∧ (billWrite a b c s).exu = s.exu ∧ (billWrite a b c s).coll = s.coll ∧ (billWrite a b c s).xn = s.xn ∧ (billWrite a b c s).pw = s.pw ∧ (billWrite a b c s).sec = s.sec ∧ (billWrite a b c s).td = s.td ∧ (billWrite a b c s).cof = s.cof ∧ (billWrite a b c s).draws = s.draws ∧ (billWrite a b c s).out = s.out := by
  simp [billWrite]

@[simp] theorem billWrite_leaf (a : ℕ) (b : ℕ) (c : ℕ) (s : State) :
    (billWrite a b c s).fab.scratch = s.fab.scratch := by
  simp [billWrite]

@[simp] theorem makeResident_frame (a : ℕ) (b : ℕ) (c : ℕ) (s : State) :
    (makeResident a b c s).pending = s.pending ∧ (makeResident a b c s).time = s.time ∧ (makeResident a b c s).id = s.id ∧ (makeResident a b c s).mem = s.mem ∧ (makeResident a b c s).mdl = s.mdl ∧ (makeResident a b c s).exu = s.exu ∧ (makeResident a b c s).coll = s.coll ∧ (makeResident a b c s).xn = s.xn ∧ (makeResident a b c s).cof = s.cof := by
  simp [makeResident]

@[simp] theorem makeResident_leaf (a : ℕ) (b : ℕ) (c : ℕ) (s : State) :
    (makeResident a b c s).fab.scratch = s.fab.scratch ∧ (makeResident a b c s).hi.lock = s.hi.lock ∧ (makeResident a b c s).sec.life = s.sec.life ∧ (makeResident a b c s).sec.mboxBuf = s.sec.mboxBuf ∧ (makeResident a b c s).pw.st = s.pw.st := by
  simp [makeResident]

@[simp] theorem modTable_frame (a : ℕ) (b : ℕ) (c : Tbl → Tbl) (s : State) :
    (modTable a b c s).pending = s.pending ∧ (modTable a b c s).time = s.time ∧ (modTable a b c s).id = s.id ∧ (modTable a b c s).hi = s.hi ∧ (modTable a b c s).ctxs = s.ctxs ∧ (modTable a b c s).mem = s.mem ∧ (modTable a b c s).fab = s.fab ∧ (modTable a b c s).ops = s.ops ∧ (modTable a b c s).mdl = s.mdl ∧ (modTable a b c s).exu = s.exu ∧ (modTable a b c s).coll = s.coll ∧ (modTable a b c s).xn = s.xn ∧ (modTable a b c s).pw = s.pw ∧ (modTable a b c s).sec = s.sec ∧ (modTable a b c s).td = s.td ∧ (modTable a b c s).cof = s.cof ∧ (modTable a b c s).draws = s.draws ∧ (modTable a b c s).out = s.out := by
  simp [modTable]

@[simp] theorem armReload_frame (a : ℕ) (b : Tbl) (c : TableImage) (d : Digest) (s : State) :
    (armReload a b c d s).pending = s.pending ∧ (armReload a b c d s).time = s.time ∧ (armReload a b c d s).id = s.id ∧ (armReload a b c d s).mem = s.mem ∧ (armReload a b c d s).ops = s.ops ∧ (armReload a b c d s).mdl = s.mdl ∧ (armReload a b c d s).exu = s.exu ∧ (armReload a b c d s).coll = s.coll ∧ (armReload a b c d s).xn = s.xn ∧ (armReload a b c d s).pw = s.pw ∧ (armReload a b c d s).cof = s.cof ∧ (armReload a b c d s).draws = s.draws := by
  simp [armReload]

@[simp] theorem armReload_leaf (a : ℕ) (b : Tbl) (c : TableImage) (d : Digest) (s : State) :
    (armReload a b c d s).fab.scratch = s.fab.scratch ∧ (armReload a b c d s).hi.lock = s.hi.lock ∧ (armReload a b c d s).sec.life = s.sec.life ∧ (armReload a b c d s).sec.mboxBuf = s.sec.mboxBuf := by
  simp [armReload]

end Sys2Proof.Machine
end

