-- ==== Sys2Proof/Laws/Dovetail.lean ====
section
/-! SUPPORT. What the operations of Machine/Dovetail.lean leave unchanged: the parts of the state that each does not touch. -/
namespace Sys2Proof.Machine

@[simp] theorem modLane_frame (a : ℕ) (b : ℕ) (c : Bool) (d : Lane → Lane) (s : State) :
    (modLane a b c d s).pending = s.pending ∧ (modLane a b c d s).time = s.time ∧ (modLane a b c d s).id = s.id ∧ (modLane a b c d s).hi = s.hi ∧ (modLane a b c d s).ctxs = s.ctxs ∧ (modLane a b c d s).mem = s.mem ∧ (modLane a b c d s).srv = s.srv ∧ (modLane a b c d s).ops = s.ops ∧ (modLane a b c d s).mdl = s.mdl ∧ (modLane a b c d s).exu = s.exu ∧ (modLane a b c d s).coll = s.coll ∧ (modLane a b c d s).xn = s.xn ∧ (modLane a b c d s).pw = s.pw ∧ (modLane a b c d s).sec = s.sec ∧ (modLane a b c d s).td = s.td ∧ (modLane a b c d s).cof = s.cof ∧ (modLane a b c d s).draws = s.draws ∧ (modLane a b c d s).out = s.out := by
  simp [modLane]

@[simp] theorem modLane_leaf (a : ℕ) (b : ℕ) (c : Bool) (d : Lane → Lane) (s : State) :
    (modLane a b c d s).fab.scratch = s.fab.scratch := by
  simp [modLane]

@[simp] theorem countCorrected_frame (a : ℕ) (b : ℕ) (c : Bool) (s : State) :
    (countCorrected a b c s).pending = s.pending ∧ (countCorrected a b c s).time = s.time ∧ (countCorrected a b c s).id = s.id ∧ (countCorrected a b c s).hi = s.hi ∧ (countCorrected a b c s).ctxs = s.ctxs ∧ (countCorrected a b c s).mem = s.mem ∧ (countCorrected a b c s).srv = s.srv ∧ (countCorrected a b c s).ops = s.ops ∧ (countCorrected a b c s).mdl = s.mdl ∧ (countCorrected a b c s).exu = s.exu ∧ (countCorrected a b c s).coll = s.coll ∧ (countCorrected a b c s).xn = s.xn ∧ (countCorrected a b c s).pw = s.pw ∧ (countCorrected a b c s).sec = s.sec ∧ (countCorrected a b c s).td = s.td ∧ (countCorrected a b c s).cof = s.cof ∧ (countCorrected a b c s).draws = s.draws ∧ (countCorrected a b c s).out = s.out := by
  simp only [countCorrected]
  repeat' split
  all_goals simp

@[simp] theorem countCorrected_leaf (a : ℕ) (b : ℕ) (c : Bool) (s : State) :
    (countCorrected a b c s).fab.scratch = s.fab.scratch := by
  simp only [countCorrected]
  repeat' split
  all_goals simp

@[simp] theorem poisonTransfer_frame (a : ℕ) (b : Xfer) (s : State) :
    (poisonTransfer a b s).pending = s.pending ∧ (poisonTransfer a b s).time = s.time ∧ (poisonTransfer a b s).id = s.id ∧ (poisonTransfer a b s).hi = s.hi ∧ (poisonTransfer a b s).ctxs = s.ctxs ∧ (poisonTransfer a b s).mem = s.mem ∧ (poisonTransfer a b s).srv = s.srv ∧ (poisonTransfer a b s).ops = s.ops ∧ (poisonTransfer a b s).mdl = s.mdl ∧ (poisonTransfer a b s).exu = s.exu ∧ (poisonTransfer a b s).coll = s.coll ∧ (poisonTransfer a b s).xn = s.xn ∧ (poisonTransfer a b s).pw = s.pw ∧ (poisonTransfer a b s).sec = s.sec ∧ (poisonTransfer a b s).td = s.td ∧ (poisonTransfer a b s).draws = s.draws ∧ (poisonTransfer a b s).out = s.out := by
  simp only [poisonTransfer]
  repeat' split
  all_goals simp

@[simp] theorem takeTransfer_frame (a : ℕ) (b : Xfer) (s : State) :
    (takeTransfer a b s).pending = s.pending ∧ (takeTransfer a b s).time = s.time ∧ (takeTransfer a b s).id = s.id ∧ (takeTransfer a b s).hi = s.hi ∧ (takeTransfer a b s).ctxs = s.ctxs ∧ (takeTransfer a b s).mem = s.mem ∧ (takeTransfer a b s).srv = s.srv ∧ (takeTransfer a b s).ops = s.ops ∧ (takeTransfer a b s).mdl = s.mdl ∧ (takeTransfer a b s).exu = s.exu ∧ (takeTransfer a b s).coll = s.coll ∧ (takeTransfer a b s).xn = s.xn ∧ (takeTransfer a b s).pw = s.pw ∧ (takeTransfer a b s).sec = s.sec ∧ (takeTransfer a b s).td = s.td ∧ (takeTransfer a b s).cof = s.cof ∧ (takeTransfer a b s).draws = s.draws ∧ (takeTransfer a b s).out = s.out := by
  simp only [takeTransfer]
  repeat' split
  all_goals simp

@[simp] theorem calibrate_frame (a : ℕ) (b : ℕ) (c : Bool) (d : ℕ) (s : State) :
    (calibrate a b c d s).pending = s.pending ∧ (calibrate a b c d s).time = s.time ∧ (calibrate a b c d s).id = s.id ∧ (calibrate a b c d s).hi = s.hi ∧ (calibrate a b c d s).ctxs = s.ctxs ∧ (calibrate a b c d s).mem = s.mem ∧ (calibrate a b c d s).srv = s.srv ∧ (calibrate a b c d s).ops = s.ops ∧ (calibrate a b c d s).mdl = s.mdl ∧ (calibrate a b c d s).exu = s.exu ∧ (calibrate a b c d s).coll = s.coll ∧ (calibrate a b c d s).xn = s.xn ∧ (calibrate a b c d s).pw = s.pw ∧ (calibrate a b c d s).sec = s.sec ∧ (calibrate a b c d s).td = s.td ∧ (calibrate a b c d s).cof = s.cof ∧ (calibrate a b c d s).draws = s.draws ∧ (calibrate a b c d s).out = s.out := by
  simp [calibrate]

@[simp] theorem calibrate_leaf (a : ℕ) (b : ℕ) (c : Bool) (d : ℕ) (s : State) :
    (calibrate a b c d s).fab.scratch = s.fab.scratch := by
  simp [calibrate]

@[simp] theorem failLane_frame (a : ℕ) (b : ℕ) (c : ℕ) (d : Bool) (e : Bool) (f : Bool) (g : Bool) (h : Bool) (s : State) :
    (failLane a b c d e f g h s).pending = s.pending ∧ (failLane a b c d e f g h s).time = s.time ∧ (failLane a b c d e f g h s).id = s.id ∧ (failLane a b c d e f g h s).sec = s.sec ∧ (failLane a b c d e f g h s).draws = s.draws := by
  simp [failLane]

@[simp] theorem failLane_leaf (a : ℕ) (b : ℕ) (c : ℕ) (d : Bool) (e : Bool) (f : Bool) (g : Bool) (h : Bool) (s : State) :
    (failLane a b c d e f g h s).hi.lock = s.hi.lock ∧ (failLane a b c d e f g h s).pw.st = s.pw.st := by
  simp [failLane]

@[simp] theorem sweepLane_frame (a : ℕ) (b : ℕ) (c : LaneSweep) (s : State) :
    (sweepLane a b c s).pending = s.pending ∧ (sweepLane a b c s).time = s.time ∧ (sweepLane a b c s).id = s.id ∧ (sweepLane a b c s).sec = s.sec ∧ (sweepLane a b c s).draws = s.draws := by
  simp only [sweepLane]
  repeat' split
  all_goals simp

@[simp] theorem sweepLane_leaf (a : ℕ) (b : ℕ) (c : LaneSweep) (s : State) :
    (sweepLane a b c s).hi.lock = s.hi.lock ∧ (sweepLane a b c s).pw.st = s.pw.st := by
  simp only [sweepLane]
  repeat' split
  all_goals simp

@[simp] theorem bringUp_frame (a : ℕ) (b : List LaneSweep) (s : State) :
    (bringUp a b s).pending = s.pending ∧ (bringUp a b s).time = s.time ∧ (bringUp a b s).id = s.id ∧ (bringUp a b s).sec = s.sec ∧ (bringUp a b s).draws = s.draws := by
  simp [bringUp]

@[simp] theorem bringUp_leaf (a : ℕ) (b : List LaneSweep) (s : State) :
    (bringUp a b s).hi.lock = s.hi.lock ∧ (bringUp a b s).pw.st = s.pw.st := by
  simp [bringUp]

end Sys2Proof.Machine
end

