-- ==== Sys2Proof/Laws/Models.lean ====
section
/-! SUPPORT. What the operations of Machine/Models.lean leave unchanged: the parts of the state that each does not touch. -/
namespace Sys2Proof.Machine

@[simp] theorem modInstall_frame (a : ℕ) (b : Install → Install) (s : State) :
    (modInstall a b s).pending = s.pending ∧ (modInstall a b s).time = s.time ∧ (modInstall a b s).id = s.id ∧ (modInstall a b s).hi = s.hi ∧ (modInstall a b s).ctxs = s.ctxs ∧ (modInstall a b s).mem = s.mem ∧ (modInstall a b s).fab = s.fab ∧ (modInstall a b s).srv = s.srv ∧ (modInstall a b s).ops = s.ops ∧ (modInstall a b s).exu = s.exu ∧ (modInstall a b s).coll = s.coll ∧ (modInstall a b s).xn = s.xn ∧ (modInstall a b s).pw = s.pw ∧ (modInstall a b s).sec = s.sec ∧ (modInstall a b s).td = s.td ∧ (modInstall a b s).cof = s.cof ∧ (modInstall a b s).draws = s.draws ∧ (modInstall a b s).out = s.out := by
  simp [modInstall]

@[simp] theorem writeInstall_frame (a : ℕ) (b : ℕ) (s : State) :
    (writeInstall a b s).pending = s.pending ∧ (writeInstall a b s).time = s.time ∧ (writeInstall a b s).id = s.id ∧ (writeInstall a b s).hi = s.hi ∧ (writeInstall a b s).ctxs = s.ctxs ∧ (writeInstall a b s).mem = s.mem ∧ (writeInstall a b s).fab = s.fab ∧ (writeInstall a b s).srv = s.srv ∧ (writeInstall a b s).ops = s.ops ∧ (writeInstall a b s).exu = s.exu ∧ (writeInstall a b s).coll = s.coll ∧ (writeInstall a b s).xn = s.xn ∧ (writeInstall a b s).pw = s.pw ∧ (writeInstall a b s).sec = s.sec ∧ (writeInstall a b s).td = s.td ∧ (writeInstall a b s).cof = s.cof ∧ (writeInstall a b s).draws = s.draws ∧ (writeInstall a b s).out = s.out := by
  simp [writeInstall]

@[simp] theorem installPhase_frame (a : ℕ) (b : ℕ) (s : State) :
    (installPhase a b s).pending = s.pending ∧ (installPhase a b s).time = s.time ∧ (installPhase a b s).id = s.id ∧ (installPhase a b s).hi = s.hi ∧ (installPhase a b s).ctxs = s.ctxs ∧ (installPhase a b s).mem = s.mem ∧ (installPhase a b s).fab = s.fab ∧ (installPhase a b s).srv = s.srv ∧ (installPhase a b s).mdl = s.mdl ∧ (installPhase a b s).exu = s.exu ∧ (installPhase a b s).coll = s.coll ∧ (installPhase a b s).xn = s.xn ∧ (installPhase a b s).pw = s.pw ∧ (installPhase a b s).sec = s.sec ∧ (installPhase a b s).td = s.td ∧ (installPhase a b s).cof = s.cof ∧ (installPhase a b s).draws = s.draws ∧ (installPhase a b s).out = s.out := by
  simp [installPhase]

@[simp] theorem toChips_frame (a : ℕ) (b : XnMsg) (s : State) :
    (toChips a b s).pending = s.pending ∧ (toChips a b s).time = s.time ∧ (toChips a b s).id = s.id ∧ (toChips a b s).hi = s.hi ∧ (toChips a b s).ctxs = s.ctxs ∧ (toChips a b s).mem = s.mem ∧ (toChips a b s).fab = s.fab ∧ (toChips a b s).srv = s.srv ∧ (toChips a b s).ops = s.ops ∧ (toChips a b s).mdl = s.mdl ∧ (toChips a b s).exu = s.exu ∧ (toChips a b s).coll = s.coll ∧ (toChips a b s).pw = s.pw ∧ (toChips a b s).sec = s.sec ∧ (toChips a b s).cof = s.cof ∧ (toChips a b s).draws = s.draws := by
  simp [toChips]

@[simp] theorem freeArea_frame (a : ℕ) (s : State) :
    (freeArea a s).pending = s.pending ∧ (freeArea a s).time = s.time ∧ (freeArea a s).id = s.id ∧ (freeArea a s).hi = s.hi ∧ (freeArea a s).ctxs = s.ctxs ∧ (freeArea a s).fab = s.fab ∧ (freeArea a s).srv = s.srv ∧ (freeArea a s).ops = s.ops ∧ (freeArea a s).exu = s.exu ∧ (freeArea a s).coll = s.coll ∧ (freeArea a s).xn = s.xn ∧ (freeArea a s).pw = s.pw ∧ (freeArea a s).sec = s.sec ∧ (freeArea a s).td = s.td ∧ (freeArea a s).cof = s.cof ∧ (freeArea a s).draws = s.draws ∧ (freeArea a s).out = s.out := by
  simp only [freeArea]
  repeat' split
  all_goals simp

@[simp] theorem endInstall_frame (a : ℕ) (b : Status) (s : State) :
    (endInstall a b s).pending = s.pending ∧ (endInstall a b s).time = s.time ∧ (endInstall a b s).id = s.id ∧ (endInstall a b s).mem = s.mem ∧ (endInstall a b s).exu = s.exu ∧ (endInstall a b s).coll = s.coll ∧ (endInstall a b s).xn = s.xn ∧ (endInstall a b s).sec = s.sec ∧ (endInstall a b s).cof = s.cof ∧ (endInstall a b s).draws = s.draws := by
  simp [endInstall]

@[simp] theorem endInstall_leaf (a : ℕ) (b : Status) (s : State) :
    (endInstall a b s).fab.scratch = s.fab.scratch ∧ (endInstall a b s).hi.lock = s.hi.lock ∧ (endInstall a b s).pw.st = s.pw.st := by
  simp [endInstall]

@[simp] theorem abortInstall_frame (a : ℕ) (b : Status) (s : State) :
    (abortInstall a b s).pending = s.pending ∧ (abortInstall a b s).time = s.time ∧ (abortInstall a b s).id = s.id ∧ (abortInstall a b s).exu = s.exu ∧ (abortInstall a b s).coll = s.coll ∧ (abortInstall a b s).xn = s.xn ∧ (abortInstall a b s).sec = s.sec ∧ (abortInstall a b s).cof = s.cof ∧ (abortInstall a b s).draws = s.draws := by
  simp [abortInstall]

@[simp] theorem abortInstall_leaf (a : ℕ) (b : Status) (s : State) :
    (abortInstall a b s).fab.scratch = s.fab.scratch ∧ (abortInstall a b s).hi.lock = s.hi.lock ∧ (abortInstall a b s).pw.st = s.pw.st := by
  simp [abortInstall]

@[simp] theorem abortAll_frame (a : ℕ) (b : Status) (s : State) :
    (abortAll a b s).pending = s.pending ∧ (abortAll a b s).time = s.time ∧ (abortAll a b s).id = s.id ∧ (abortAll a b s).exu = s.exu ∧ (abortAll a b s).coll = s.coll ∧ (abortAll a b s).sec = s.sec ∧ (abortAll a b s).cof = s.cof ∧ (abortAll a b s).draws = s.draws := by
  simp [abortAll]

@[simp] theorem abortAll_leaf (a : ℕ) (b : Status) (s : State) :
    (abortAll a b s).fab.scratch = s.fab.scratch ∧ (abortAll a b s).hi.lock = s.hi.lock ∧ (abortAll a b s).pw.st = s.pw.st := by
  simp [abortAll]

@[simp] theorem voteNo_frame (a : ℕ) (b : Status) (s : State) :
    (voteNo a b s).pending = s.pending ∧ (voteNo a b s).time = s.time ∧ (voteNo a b s).id = s.id ∧ (voteNo a b s).exu = s.exu ∧ (voteNo a b s).coll = s.coll ∧ (voteNo a b s).sec = s.sec ∧ (voteNo a b s).cof = s.cof ∧ (voteNo a b s).draws = s.draws := by
  simp [voteNo]

@[simp] theorem voteNo_leaf (a : ℕ) (b : Status) (s : State) :
    (voteNo a b s).fab.scratch = s.fab.scratch ∧ (voteNo a b s).hi.lock = s.hi.lock ∧ (voteNo a b s).pw.st = s.pw.st := by
  simp [voteNo]

@[simp] theorem bindEpoch_frame (a : ℕ) (s : State) :
    (bindEpoch a s).pending = s.pending ∧ (bindEpoch a s).time = s.time ∧ (bindEpoch a s).id = s.id ∧ (bindEpoch a s).hi = s.hi ∧ (bindEpoch a s).ctxs = s.ctxs ∧ (bindEpoch a s).mem = s.mem ∧ (bindEpoch a s).fab = s.fab ∧ (bindEpoch a s).srv = s.srv ∧ (bindEpoch a s).ops = s.ops ∧ (bindEpoch a s).exu = s.exu ∧ (bindEpoch a s).coll = s.coll ∧ (bindEpoch a s).xn = s.xn ∧ (bindEpoch a s).pw = s.pw ∧ (bindEpoch a s).td = s.td ∧ (bindEpoch a s).cof = s.cof ∧ (bindEpoch a s).draws = s.draws ∧ (bindEpoch a s).out = s.out := by
  simp only [bindEpoch]
  repeat' split
  all_goals simp

@[simp] theorem bindEpoch_leaf (a : ℕ) (s : State) :
    (bindEpoch a s).sec.life = s.sec.life ∧ (bindEpoch a s).sec.mboxBuf = s.sec.mboxBuf := by
  simp only [bindEpoch]
  repeat' split
  all_goals simp

@[simp] theorem releaseInstall_frame (a : ℕ) (s : State) :
    (releaseInstall a s).pending = s.pending ∧ (releaseInstall a s).time = s.time ∧ (releaseInstall a s).id = s.id ∧ (releaseInstall a s).mem = s.mem ∧ (releaseInstall a s).exu = s.exu ∧ (releaseInstall a s).coll = s.coll ∧ (releaseInstall a s).xn = s.xn ∧ (releaseInstall a s).cof = s.cof ∧ (releaseInstall a s).draws = s.draws := by
  simp [releaseInstall]

@[simp] theorem releaseInstall_leaf (a : ℕ) (s : State) :
    (releaseInstall a s).fab.scratch = s.fab.scratch ∧ (releaseInstall a s).hi.lock = s.hi.lock ∧ (releaseInstall a s).sec.life = s.sec.life ∧ (releaseInstall a s).sec.mboxBuf = s.sec.mboxBuf ∧ (releaseInstall a s).pw.st = s.pw.st := by
  simp [releaseInstall]

@[simp] theorem tryRelease_frame (a : ℕ) (s : State) :
    (tryRelease a s).pending = s.pending ∧ (tryRelease a s).time = s.time ∧ (tryRelease a s).id = s.id ∧ (tryRelease a s).mem = s.mem ∧ (tryRelease a s).exu = s.exu ∧ (tryRelease a s).coll = s.coll ∧ (tryRelease a s).cof = s.cof ∧ (tryRelease a s).draws = s.draws := by
  simp [tryRelease]

@[simp] theorem tryRelease_leaf (a : ℕ) (s : State) :
    (tryRelease a s).fab.scratch = s.fab.scratch ∧ (tryRelease a s).hi.lock = s.hi.lock ∧ (tryRelease a s).sec.life = s.sec.life ∧ (tryRelease a s).sec.mboxBuf = s.sec.mboxBuf ∧ (tryRelease a s).pw.st = s.pw.st := by
  simp [tryRelease]

@[simp] theorem tryCommit_frame (a : ℕ) (s : State) :
    (tryCommit a s).pending = s.pending ∧ (tryCommit a s).time = s.time ∧ (tryCommit a s).id = s.id ∧ (tryCommit a s).mem = s.mem ∧ (tryCommit a s).exu = s.exu ∧ (tryCommit a s).coll = s.coll ∧ (tryCommit a s).cof = s.cof ∧ (tryCommit a s).draws = s.draws := by
  simp [tryCommit]

@[simp] theorem tryCommit_leaf (a : ℕ) (s : State) :
    (tryCommit a s).fab.scratch = s.fab.scratch ∧ (tryCommit a s).hi.lock = s.hi.lock ∧ (tryCommit a s).sec.life = s.sec.life ∧ (tryCommit a s).sec.mboxBuf = s.sec.mboxBuf ∧ (tryCommit a s).pw.st = s.pw.st := by
  simp [tryCommit]

@[simp] theorem copySpan_frame (a : ℕ) (b : ℕ) (c : ℕ) (s : State) :
    (copySpan a b c s).pending = s.pending ∧ (copySpan a b c s).time = s.time ∧ (copySpan a b c s).id = s.id ∧ (copySpan a b c s).hi = s.hi ∧ (copySpan a b c s).ctxs = s.ctxs ∧ (copySpan a b c s).fab = s.fab ∧ (copySpan a b c s).srv = s.srv ∧ (copySpan a b c s).ops = s.ops ∧ (copySpan a b c s).mdl = s.mdl ∧ (copySpan a b c s).exu = s.exu ∧ (copySpan a b c s).coll = s.coll ∧ (copySpan a b c s).xn = s.xn ∧ (copySpan a b c s).pw = s.pw ∧ (copySpan a b c s).sec = s.sec ∧ (copySpan a b c s).td = s.td ∧ (copySpan a b c s).cof = s.cof ∧ (copySpan a b c s).draws = s.draws ∧ (copySpan a b c s).out = s.out := by
  simp [copySpan]

@[simp] theorem fillSlots_frame (a : ℕ) (b : Manifest) (s : State) :
    (fillSlots a b s).pending = s.pending ∧ (fillSlots a b s).time = s.time ∧ (fillSlots a b s).id = s.id ∧ (fillSlots a b s).hi = s.hi ∧ (fillSlots a b s).ctxs = s.ctxs ∧ (fillSlots a b s).fab = s.fab ∧ (fillSlots a b s).srv = s.srv ∧ (fillSlots a b s).ops = s.ops ∧ (fillSlots a b s).mdl = s.mdl ∧ (fillSlots a b s).exu = s.exu ∧ (fillSlots a b s).coll = s.coll ∧ (fillSlots a b s).xn = s.xn ∧ (fillSlots a b s).pw = s.pw ∧ (fillSlots a b s).sec = s.sec ∧ (fillSlots a b s).td = s.td ∧ (fillSlots a b s).cof = s.cof ∧ (fillSlots a b s).draws = s.draws ∧ (fillSlots a b s).out = s.out := by
  simp [fillSlots]

@[simp] theorem tryVote_frame (a : ℕ) (s : State) :
    (tryVote a s).pending = s.pending ∧ (tryVote a s).time = s.time ∧ (tryVote a s).id = s.id ∧ (tryVote a s).exu = s.exu ∧ (tryVote a s).coll = s.coll ∧ (tryVote a s).cof = s.cof ∧ (tryVote a s).draws = s.draws := by
  simp only [tryVote]
  repeat' split
  all_goals simp

@[simp] theorem tryVote_leaf (a : ℕ) (s : State) :
    (tryVote a s).fab.scratch = s.fab.scratch ∧ (tryVote a s).hi.lock = s.hi.lock ∧ (tryVote a s).sec.life = s.sec.life ∧ (tryVote a s).sec.mboxBuf = s.sec.mboxBuf ∧ (tryVote a s).pw.st = s.pw.st := by
  simp only [tryVote]
  repeat' split
  all_goals simp

@[simp] theorem tally_frame (a : ℕ) (s : State) :
    (tally a s).pending = s.pending ∧ (tally a s).time = s.time ∧ (tally a s).id = s.id ∧ (tally a s).exu = s.exu ∧ (tally a s).coll = s.coll ∧ (tally a s).cof = s.cof ∧ (tally a s).draws = s.draws := by
  simp only [tally]
  repeat' split
  all_goals simp

@[simp] theorem tally_leaf (a : ℕ) (s : State) :
    (tally a s).fab.scratch = s.fab.scratch ∧ (tally a s).hi.lock = s.hi.lock ∧ (tally a s).sec.life = s.sec.life ∧ (tally a s).sec.mboxBuf = s.sec.mboxBuf ∧ (tally a s).pw.st = s.pw.st := by
  simp only [tally]
  repeat' split
  all_goals simp

@[simp] theorem makeRun_frame (a : ℕ) (b : ℕ) (c : ℕ) (s : State) :
    (makeRun a b c s).pending = s.pending ∧ (makeRun a b c s).time = s.time ∧ (makeRun a b c s).id = s.id ∧ (makeRun a b c s).hi = s.hi ∧ (makeRun a b c s).ctxs = s.ctxs ∧ (makeRun a b c s).fab = s.fab ∧ (makeRun a b c s).ops = s.ops ∧ (makeRun a b c s).exu = s.exu ∧ (makeRun a b c s).coll = s.coll ∧ (makeRun a b c s).xn = s.xn ∧ (makeRun a b c s).pw = s.pw ∧ (makeRun a b c s).sec = s.sec ∧ (makeRun a b c s).td = s.td ∧ (makeRun a b c s).cof = s.cof ∧ (makeRun a b c s).draws = s.draws ∧ (makeRun a b c s).out = s.out := by
  induction c generalizing a b s with
  | zero => simp [makeRun]
  | succ m ih =>
    unfold makeRun
    try dsimp only
    repeat' split
    all_goals simp [ih]

@[simp] theorem setModes_frame (a : ℕ) (b : Manifest) (s : State) :
    (setModes a b s).pending = s.pending ∧ (setModes a b s).time = s.time ∧ (setModes a b s).id = s.id ∧ (setModes a b s).hi = s.hi ∧ (setModes a b s).ctxs = s.ctxs ∧ (setModes a b s).fab = s.fab ∧ (setModes a b s).srv = s.srv ∧ (setModes a b s).ops = s.ops ∧ (setModes a b s).mdl = s.mdl ∧ (setModes a b s).exu = s.exu ∧ (setModes a b s).coll = s.coll ∧ (setModes a b s).xn = s.xn ∧ (setModes a b s).pw = s.pw ∧ (setModes a b s).sec = s.sec ∧ (setModes a b s).td = s.td ∧ (setModes a b s).cof = s.cof ∧ (setModes a b s).draws = s.draws ∧ (setModes a b s).out = s.out := by
  simp [setModes]

@[simp] theorem modShard_frame (a : ℕ) (b : ℕ) (c : ShardSt → ShardSt) (s : State) :
    (modShard a b c s).pending = s.pending ∧ (modShard a b c s).time = s.time ∧ (modShard a b c s).id = s.id ∧ (modShard a b c s).hi = s.hi ∧ (modShard a b c s).ctxs = s.ctxs ∧ (modShard a b c s).mem = s.mem ∧ (modShard a b c s).fab = s.fab ∧ (modShard a b c s).srv = s.srv ∧ (modShard a b c s).ops = s.ops ∧ (modShard a b c s).exu = s.exu ∧ (modShard a b c s).coll = s.coll ∧ (modShard a b c s).xn = s.xn ∧ (modShard a b c s).pw = s.pw ∧ (modShard a b c s).sec = s.sec ∧ (modShard a b c s).td = s.td ∧ (modShard a b c s).cof = s.cof ∧ (modShard a b c s).draws = s.draws ∧ (modShard a b c s).out = s.out := by
  simp [modShard]

@[simp] theorem startShard_frame (a : ℕ) (b : ℕ) (s : State) :
    (startShard a b s).pending = s.pending ∧ (startShard a b s).time = s.time ∧ (startShard a b s).id = s.id ∧ (startShard a b s).hi = s.hi ∧ (startShard a b s).mem = s.mem ∧ (startShard a b s).fab = s.fab ∧ (startShard a b s).srv = s.srv ∧ (startShard a b s).ops = s.ops ∧ (startShard a b s).exu = s.exu ∧ (startShard a b s).coll = s.coll ∧ (startShard a b s).pw = s.pw ∧ (startShard a b s).sec = s.sec ∧ (startShard a b s).cof = s.cof ∧ (startShard a b s).draws = s.draws := by
  simp only [startShard]
  repeat' split
  all_goals simp

@[simp] theorem startWaiting_frame (a : ℕ) (s : State) :
    (startWaiting a s).pending = s.pending ∧ (startWaiting a s).time = s.time ∧ (startWaiting a s).id = s.id ∧ (startWaiting a s).hi = s.hi ∧ (startWaiting a s).mem = s.mem ∧ (startWaiting a s).fab = s.fab ∧ (startWaiting a s).srv = s.srv ∧ (startWaiting a s).ops = s.ops ∧ (startWaiting a s).exu = s.exu ∧ (startWaiting a s).coll = s.coll ∧ (startWaiting a s).pw = s.pw ∧ (startWaiting a s).sec = s.sec ∧ (startWaiting a s).cof = s.cof ∧ (startWaiting a s).draws = s.draws := by
  simp [startWaiting]

@[simp] theorem takeArea_frame (a : ℕ) (s : State) :
    (takeArea a s).pending = s.pending ∧ (takeArea a s).time = s.time ∧ (takeArea a s).id = s.id ∧ (takeArea a s).exu = s.exu ∧ (takeArea a s).coll = s.coll ∧ (takeArea a s).cof = s.cof ∧ (takeArea a s).draws = s.draws := by
  simp only [takeArea]
  repeat' split
  all_goals simp

@[simp] theorem takeArea_leaf (a : ℕ) (s : State) :
    (takeArea a s).fab.scratch = s.fab.scratch ∧ (takeArea a s).hi.lock = s.hi.lock ∧ (takeArea a s).sec.life = s.sec.life ∧ (takeArea a s).sec.mboxBuf = s.sec.mboxBuf ∧ (takeArea a s).pw.st = s.pw.st := by
  simp only [takeArea]
  repeat' split
  all_goals simp

@[simp] theorem writeShard_frame (a : ℕ) (b : ℕ) (c : List Byte) (s : State) :
    (writeShard a b c s).pending = s.pending ∧ (writeShard a b c s).time = s.time ∧ (writeShard a b c s).id = s.id ∧ (writeShard a b c s).hi = s.hi ∧ (writeShard a b c s).ctxs = s.ctxs ∧ (writeShard a b c s).fab = s.fab ∧ (writeShard a b c s).srv = s.srv ∧ (writeShard a b c s).ops = s.ops ∧ (writeShard a b c s).mdl = s.mdl ∧ (writeShard a b c s).exu = s.exu ∧ (writeShard a b c s).coll = s.coll ∧ (writeShard a b c s).xn = s.xn ∧ (writeShard a b c s).pw = s.pw ∧ (writeShard a b c s).sec = s.sec ∧ (writeShard a b c s).td = s.td ∧ (writeShard a b c s).cof = s.cof ∧ (writeShard a b c s).draws = s.draws ∧ (writeShard a b c s).out = s.out := by
  simp [writeShard]

@[simp] theorem shardAttempt_frame (a : ℕ) (b : ℕ) (c : Option (List Byte)) (s : State) :
    (shardAttempt a b c s).pending = s.pending ∧ (shardAttempt a b c s).time = s.time ∧ (shardAttempt a b c s).id = s.id ∧ (shardAttempt a b c s).exu = s.exu ∧ (shardAttempt a b c s).coll = s.coll ∧ (shardAttempt a b c s).cof = s.cof ∧ (shardAttempt a b c s).draws = s.draws := by
  simp only [shardAttempt]
  repeat' split
  all_goals simp

@[simp] theorem shardAttempt_leaf (a : ℕ) (b : ℕ) (c : Option (List Byte)) (s : State) :
    (shardAttempt a b c s).fab.scratch = s.fab.scratch ∧ (shardAttempt a b c s).hi.lock = s.hi.lock ∧ (shardAttempt a b c s).sec.life = s.sec.life ∧ (shardAttempt a b c s).sec.mboxBuf = s.sec.mboxBuf ∧ (shardAttempt a b c s).pw.st = s.pw.st := by
  simp only [shardAttempt]
  repeat' split
  all_goals simp

@[simp] theorem noteVote_frame (a : ℕ) (b : ℕ) (s : State) :
    (noteVote a b s).pending = s.pending ∧ (noteVote a b s).time = s.time ∧ (noteVote a b s).id = s.id ∧ (noteVote a b s).hi = s.hi ∧ (noteVote a b s).ctxs = s.ctxs ∧ (noteVote a b s).mem = s.mem ∧ (noteVote a b s).fab = s.fab ∧ (noteVote a b s).srv = s.srv ∧ (noteVote a b s).ops = s.ops ∧ (noteVote a b s).exu = s.exu ∧ (noteVote a b s).coll = s.coll ∧ (noteVote a b s).xn = s.xn ∧ (noteVote a b s).pw = s.pw ∧ (noteVote a b s).sec = s.sec ∧ (noteVote a b s).td = s.td ∧ (noteVote a b s).cof = s.cof ∧ (noteVote a b s).draws = s.draws ∧ (noteVote a b s).out = s.out := by
  simp [noteVote]

@[simp] theorem tryFree_frame (a : ℕ) (b : ℕ) (s : State) :
    (tryFree a b s).pending = s.pending ∧ (tryFree a b s).time = s.time ∧ (tryFree a b s).id = s.id ∧ (tryFree a b s).exu = s.exu ∧ (tryFree a b s).coll = s.coll ∧ (tryFree a b s).cof = s.cof ∧ (tryFree a b s).draws = s.draws := by
  simp only [tryFree]
  repeat' split
  all_goals simp

@[simp] theorem tryFree_leaf (a : ℕ) (b : ℕ) (s : State) :
    (tryFree a b s).fab.scratch = s.fab.scratch ∧ (tryFree a b s).hi.lock = s.hi.lock ∧ (tryFree a b s).sec.life = s.sec.life ∧ (tryFree a b s).sec.mboxBuf = s.sec.mboxBuf ∧ (tryFree a b s).pw.st = s.pw.st := by
  simp only [tryFree]
  repeat' split
  all_goals simp

@[simp] theorem noteDrained_frame (a : ℕ) (b : ℕ) (c : ℕ) (s : State) :
    (noteDrained a b c s).pending = s.pending ∧ (noteDrained a b c s).time = s.time ∧ (noteDrained a b c s).id = s.id ∧ (noteDrained a b c s).exu = s.exu ∧ (noteDrained a b c s).coll = s.coll ∧ (noteDrained a b c s).cof = s.cof ∧ (noteDrained a b c s).draws = s.draws := by
  simp [noteDrained]

@[simp] theorem noteDrained_leaf (a : ℕ) (b : ℕ) (c : ℕ) (s : State) :
    (noteDrained a b c s).fab.scratch = s.fab.scratch ∧ (noteDrained a b c s).hi.lock = s.hi.lock ∧ (noteDrained a b c s).sec.life = s.sec.life ∧ (noteDrained a b c s).sec.mboxBuf = s.sec.mboxBuf ∧ (noteDrained a b c s).pw.st = s.pw.st := by
  simp [noteDrained]

@[simp] theorem reportDrain_frame (a : ℕ) (b : ℕ) (s : State) :
    (reportDrain a b s).pending = s.pending ∧ (reportDrain a b s).time = s.time ∧ (reportDrain a b s).id = s.id ∧ (reportDrain a b s).exu = s.exu ∧ (reportDrain a b s).coll = s.coll ∧ (reportDrain a b s).cof = s.cof ∧ (reportDrain a b s).draws = s.draws := by
  simp only [reportDrain]
  repeat' split
  all_goals simp

@[simp] theorem reportDrain_leaf (a : ℕ) (b : ℕ) (s : State) :
    (reportDrain a b s).fab.scratch = s.fab.scratch ∧ (reportDrain a b s).hi.lock = s.hi.lock ∧ (reportDrain a b s).sec.life = s.sec.life ∧ (reportDrain a b s).sec.mboxBuf = s.sec.mboxBuf ∧ (reportDrain a b s).pw.st = s.pw.st := by
  simp only [reportDrain]
  repeat' split
  all_goals simp

@[simp] theorem coordLost_frame (a : ℕ) (b : Bool) (s : State) :
    (coordLost a b s).pending = s.pending ∧ (coordLost a b s).time = s.time ∧ (coordLost a b s).id = s.id ∧ (coordLost a b s).exu = s.exu ∧ (coordLost a b s).coll = s.coll ∧ (coordLost a b s).xn = s.xn ∧ (coordLost a b s).cof = s.cof ∧ (coordLost a b s).draws = s.draws := by
  simp [coordLost]

@[simp] theorem coordLost_leaf (a : ℕ) (b : Bool) (s : State) :
    (coordLost a b s).fab.scratch = s.fab.scratch ∧ (coordLost a b s).hi.lock = s.hi.lock ∧ (coordLost a b s).sec.life = s.sec.life ∧ (coordLost a b s).sec.mboxBuf = s.sec.mboxBuf ∧ (coordLost a b s).pw.st = s.pw.st := by
  simp [coordLost]

@[simp] theorem passPages_frame (a : ℕ) (b : ℕ) (c : ℕ) (d : ℕ) (s : State) :
    (passPages a b c d s).pending = s.pending ∧ (passPages a b c d s).time = s.time ∧ (passPages a b c d s).id = s.id ∧ (passPages a b c d s).hi = s.hi ∧ (passPages a b c d s).ctxs = s.ctxs ∧ (passPages a b c d s).fab = s.fab ∧ (passPages a b c d s).ops = s.ops ∧ (passPages a b c d s).mdl = s.mdl ∧ (passPages a b c d s).exu = s.exu ∧ (passPages a b c d s).coll = s.coll ∧ (passPages a b c d s).xn = s.xn ∧ (passPages a b c d s).pw = s.pw ∧ (passPages a b c d s).sec = s.sec ∧ (passPages a b c d s).td = s.td ∧ (passPages a b c d s).cof = s.cof ∧ (passPages a b c d s).draws = s.draws ∧ (passPages a b c d s).out = s.out := by
  simp [passPages]

@[simp] theorem passPages_leaf (a : ℕ) (b : ℕ) (c : ℕ) (d : ℕ) (s : State) :
    (passPages a b c d s).mem.dram = s.mem.dram := by
  simp [passPages]

end Sys2Proof.Machine
end

