-- ==== Sys2Proof/Laws/Telemetry.lean ====
section
/-! SUPPORT. What the operations of Machine/Telemetry.lean leave unchanged: the parts of the state that each does not touch. -/
namespace Sys2Proof.Machine

@[simp] theorem endWatch_frame (a : ℕ) (b : Watch) (c : Status) (s : State) :
    (endWatch a b c s).pending = s.pending ∧ (endWatch a b c s).time = s.time ∧ (endWatch a b c s).id = s.id ∧ (endWatch a b c s).mem = s.mem ∧ (endWatch a b c s).fab = s.fab ∧ (endWatch a b c s).srv = s.srv ∧ (endWatch a b c s).ops = s.ops ∧ (endWatch a b c s).mdl = s.mdl ∧ (endWatch a b c s).exu = s.exu ∧ (endWatch a b c s).coll = s.coll ∧ (endWatch a b c s).xn = s.xn ∧ (endWatch a b c s).pw = s.pw ∧ (endWatch a b c s).sec = s.sec ∧ (endWatch a b c s).cof = s.cof ∧ (endWatch a b c s).draws = s.draws := by
  simp [endWatch]

@[simp] theorem endWatch_leaf (a : ℕ) (b : Watch) (c : Status) (s : State) :
    (endWatch a b c s).hi.lock = s.hi.lock := by
  simp [endWatch]

@[simp] theorem setLife_frame (a : List (ℕ × ℕ × ℕ × ℕ)) (s : State) :
    (setLife a s).pending = s.pending ∧ (setLife a s).time = s.time ∧ (setLife a s).id = s.id ∧ (setLife a s).hi = s.hi ∧ (setLife a s).ctxs = s.ctxs ∧ (setLife a s).mem = s.mem ∧ (setLife a s).fab = s.fab ∧ (setLife a s).srv = s.srv ∧ (setLife a s).ops = s.ops ∧ (setLife a s).mdl = s.mdl ∧ (setLife a s).exu = s.exu ∧ (setLife a s).coll = s.coll ∧ (setLife a s).xn = s.xn ∧ (setLife a s).pw = s.pw ∧ (setLife a s).sec = s.sec ∧ (setLife a s).cof = s.cof ∧ (setLife a s).draws = s.draws := by
  simp [setLife]

@[simp] theorem setWear_frame (a : List (ℕ × ℕ × ℕ)) (s : State) :
    (setWear a s).pending = s.pending ∧ (setWear a s).time = s.time ∧ (setWear a s).id = s.id ∧ (setWear a s).hi = s.hi ∧ (setWear a s).ctxs = s.ctxs ∧ (setWear a s).mem = s.mem ∧ (setWear a s).srv = s.srv ∧ (setWear a s).ops = s.ops ∧ (setWear a s).mdl = s.mdl ∧ (setWear a s).exu = s.exu ∧ (setWear a s).coll = s.coll ∧ (setWear a s).xn = s.xn ∧ (setWear a s).pw = s.pw ∧ (setWear a s).sec = s.sec ∧ (setWear a s).td = s.td ∧ (setWear a s).cof = s.cof ∧ (setWear a s).draws = s.draws ∧ (setWear a s).out = s.out := by
  simp [setWear]

@[simp] theorem setWear_leaf (a : List (ℕ × ℕ × ℕ)) (s : State) :
    (setWear a s).fab.scratch = s.fab.scratch := by
  simp [setWear]

@[simp] theorem fenceWorn_frame (a : List ℕ) (s : State) :
    (fenceWorn a s).pending = s.pending ∧ (fenceWorn a s).time = s.time ∧ (fenceWorn a s).id = s.id ∧ (fenceWorn a s).sec = s.sec ∧ (fenceWorn a s).draws = s.draws := by
  simp [fenceWorn]

@[simp] theorem fenceWorn_leaf (a : List ℕ) (s : State) :
    (fenceWorn a s).hi.lock = s.hi.lock ∧ (fenceWorn a s).pw.st = s.pw.st := by
  simp [fenceWorn]

@[simp] theorem predict_frame (a : PatinaSample) (b : List ℕ) (s : State) :
    (predict a b s).pending = s.pending ∧ (predict a b s).time = s.time ∧ (predict a b s).id = s.id ∧ (predict a b s).sec = s.sec ∧ (predict a b s).draws = s.draws := by
  simp [predict]

@[simp] theorem predict_leaf (a : PatinaSample) (b : List ℕ) (s : State) :
    (predict a b s).hi.lock = s.hi.lock ∧ (predict a b s).pw.st = s.pw.st := by
  simp [predict]

@[simp] theorem clearAdvisories_frame (a : ℕ) (s : State) :
    (clearAdvisories a s).pending = s.pending ∧ (clearAdvisories a s).time = s.time ∧ (clearAdvisories a s).id = s.id ∧ (clearAdvisories a s).hi = s.hi ∧ (clearAdvisories a s).ctxs = s.ctxs ∧ (clearAdvisories a s).mem = s.mem ∧ (clearAdvisories a s).fab = s.fab ∧ (clearAdvisories a s).srv = s.srv ∧ (clearAdvisories a s).ops = s.ops ∧ (clearAdvisories a s).mdl = s.mdl ∧ (clearAdvisories a s).exu = s.exu ∧ (clearAdvisories a s).coll = s.coll ∧ (clearAdvisories a s).xn = s.xn ∧ (clearAdvisories a s).pw = s.pw ∧ (clearAdvisories a s).sec = s.sec ∧ (clearAdvisories a s).cof = s.cof ∧ (clearAdvisories a s).draws = s.draws ∧ (clearAdvisories a s).out = s.out := by
  simp [clearAdvisories]

@[simp] theorem sendRecords_frame (a : ℕ) (b : List CofferRec) (s : State) :
    (sendRecords a b s).pending = s.pending ∧ (sendRecords a b s).time = s.time ∧ (sendRecords a b s).id = s.id ∧ (sendRecords a b s).hi = s.hi ∧ (sendRecords a b s).ctxs = s.ctxs ∧ (sendRecords a b s).mem = s.mem ∧ (sendRecords a b s).fab = s.fab ∧ (sendRecords a b s).srv = s.srv ∧ (sendRecords a b s).ops = s.ops ∧ (sendRecords a b s).mdl = s.mdl ∧ (sendRecords a b s).exu = s.exu ∧ (sendRecords a b s).coll = s.coll ∧ (sendRecords a b s).xn = s.xn ∧ (sendRecords a b s).pw = s.pw ∧ (sendRecords a b s).sec = s.sec ∧ (sendRecords a b s).td = s.td ∧ (sendRecords a b s).cof = s.cof ∧ (sendRecords a b s).draws = s.draws := by
  induction a generalizing b s with
  | zero => simp [sendRecords]
  | succ m ih =>
    unfold sendRecords
    try dsimp only
    repeat' split
    all_goals simp_all

@[simp] theorem messageRelease_frame (s : State) :
    (messageRelease s).pending = s.pending ∧ (messageRelease s).time = s.time ∧ (messageRelease s).id = s.id ∧ (messageRelease s).hi = s.hi ∧ (messageRelease s).ctxs = s.ctxs ∧ (messageRelease s).mem = s.mem ∧ (messageRelease s).fab = s.fab ∧ (messageRelease s).srv = s.srv ∧ (messageRelease s).ops = s.ops ∧ (messageRelease s).mdl = s.mdl ∧ (messageRelease s).exu = s.exu ∧ (messageRelease s).coll = s.coll ∧ (messageRelease s).xn = s.xn ∧ (messageRelease s).pw = s.pw ∧ (messageRelease s).sec = s.sec ∧ (messageRelease s).td = s.td ∧ (messageRelease s).draws = s.draws ∧ (messageRelease s).out = s.out := by
  simp [messageRelease]

@[simp] theorem writeRelease_frame (s : State) :
    (writeRelease s).pending = s.pending ∧ (writeRelease s).time = s.time ∧ (writeRelease s).id = s.id ∧ (writeRelease s).hi = s.hi ∧ (writeRelease s).ctxs = s.ctxs ∧ (writeRelease s).mem = s.mem ∧ (writeRelease s).fab = s.fab ∧ (writeRelease s).srv = s.srv ∧ (writeRelease s).ops = s.ops ∧ (writeRelease s).mdl = s.mdl ∧ (writeRelease s).exu = s.exu ∧ (writeRelease s).coll = s.coll ∧ (writeRelease s).xn = s.xn ∧ (writeRelease s).pw = s.pw ∧ (writeRelease s).sec = s.sec ∧ (writeRelease s).draws = s.draws ∧ (writeRelease s).out = s.out := by
  simp [writeRelease]

end Sys2Proof.Machine
end

