-- ==== Sys2Proof/Laws/Contexts.lean ====
section
/-! SUPPORT. What the operations of Machine/Contexts.lean leave unchanged: the parts of the state that each does not touch. -/
namespace Sys2Proof.Machine

@[simp] theorem dropCtx_frame (a : ℕ) (s : State) :
    (dropCtx a s).pending = s.pending ∧ (dropCtx a s).time = s.time ∧ (dropCtx a s).id = s.id ∧ (dropCtx a s).hi = s.hi ∧ (dropCtx a s).fab = s.fab ∧ (dropCtx a s).srv = s.srv ∧ (dropCtx a s).ops = s.ops ∧ (dropCtx a s).mdl = s.mdl ∧ (dropCtx a s).exu = s.exu ∧ (dropCtx a s).coll = s.coll ∧ (dropCtx a s).xn = s.xn ∧ (dropCtx a s).pw = s.pw ∧ (dropCtx a s).sec = s.sec ∧ (dropCtx a s).td = s.td ∧ (dropCtx a s).cof = s.cof ∧ (dropCtx a s).draws = s.draws ∧ (dropCtx a s).out = s.out := by
  simp [dropCtx]

@[simp] theorem dropCtx_leaf (a : ℕ) (s : State) :
    (dropCtx a s).mem.dram = s.mem.dram := by
  simp [dropCtx]

@[simp] theorem resumeLate_frame (a : ℕ) (s : State) :
    (resumeLate a s).pending = s.pending ∧ (resumeLate a s).time = s.time ∧ (resumeLate a s).id = s.id ∧ (resumeLate a s).mem = s.mem ∧ (resumeLate a s).fab = s.fab ∧ (resumeLate a s).srv = s.srv ∧ (resumeLate a s).mdl = s.mdl ∧ (resumeLate a s).exu = s.exu ∧ (resumeLate a s).coll = s.coll ∧ (resumeLate a s).xn = s.xn ∧ (resumeLate a s).pw = s.pw ∧ (resumeLate a s).sec = s.sec ∧ (resumeLate a s).cof = s.cof ∧ (resumeLate a s).draws = s.draws := by
  simp [resumeLate]

@[simp] theorem resumeLate_leaf (a : ℕ) (s : State) :
    (resumeLate a s).hi.lock = s.hi.lock := by
  simp [resumeLate]

@[simp] theorem modSetup_frame (a : ℕ) (b : Ctx → Ctx) (s : State) :
    (modSetup a b s).pending = s.pending ∧ (modSetup a b s).time = s.time ∧ (modSetup a b s).id = s.id ∧ (modSetup a b s).hi = s.hi ∧ (modSetup a b s).mem = s.mem ∧ (modSetup a b s).fab = s.fab ∧ (modSetup a b s).srv = s.srv ∧ (modSetup a b s).ops = s.ops ∧ (modSetup a b s).mdl = s.mdl ∧ (modSetup a b s).exu = s.exu ∧ (modSetup a b s).coll = s.coll ∧ (modSetup a b s).xn = s.xn ∧ (modSetup a b s).pw = s.pw ∧ (modSetup a b s).sec = s.sec ∧ (modSetup a b s).td = s.td ∧ (modSetup a b s).cof = s.cof ∧ (modSetup a b s).draws = s.draws ∧ (modSetup a b s).out = s.out := by
  simp [modSetup]

@[simp] theorem enableCtx_frame (a : ℕ) (s : State) :
    (enableCtx a s).pending = s.pending ∧ (enableCtx a s).time = s.time ∧ (enableCtx a s).id = s.id ∧ (enableCtx a s).mem = s.mem ∧ (enableCtx a s).fab = s.fab ∧ (enableCtx a s).srv = s.srv ∧ (enableCtx a s).mdl = s.mdl ∧ (enableCtx a s).exu = s.exu ∧ (enableCtx a s).coll = s.coll ∧ (enableCtx a s).xn = s.xn ∧ (enableCtx a s).pw = s.pw ∧ (enableCtx a s).sec = s.sec ∧ (enableCtx a s).cof = s.cof ∧ (enableCtx a s).draws = s.draws := by
  simp [enableCtx]

@[simp] theorem enableCtx_leaf (a : ℕ) (s : State) :
    (enableCtx a s).hi.lock = s.hi.lock := by
  simp [enableCtx]

@[simp] theorem disableCtx_frame (a : ℕ) (s : State) :
    (disableCtx a s).pending = s.pending ∧ (disableCtx a s).time = s.time ∧ (disableCtx a s).id = s.id ∧ (disableCtx a s).hi = s.hi ∧ (disableCtx a s).mem = s.mem ∧ (disableCtx a s).fab = s.fab ∧ (disableCtx a s).srv = s.srv ∧ (disableCtx a s).ops = s.ops ∧ (disableCtx a s).mdl = s.mdl ∧ (disableCtx a s).exu = s.exu ∧ (disableCtx a s).coll = s.coll ∧ (disableCtx a s).xn = s.xn ∧ (disableCtx a s).pw = s.pw ∧ (disableCtx a s).sec = s.sec ∧ (disableCtx a s).td = s.td ∧ (disableCtx a s).cof = s.cof ∧ (disableCtx a s).draws = s.draws ∧ (disableCtx a s).out = s.out := by
  simp [disableCtx]

@[simp] theorem abortReqs_frame (a : ℕ) (s : State) :
    (abortReqs a s).pending = s.pending ∧ (abortReqs a s).time = s.time ∧ (abortReqs a s).id = s.id ∧ (abortReqs a s).fab = s.fab ∧ (abortReqs a s).ops = s.ops ∧ (abortReqs a s).coll = s.coll ∧ (abortReqs a s).pw = s.pw ∧ (abortReqs a s).sec = s.sec ∧ (abortReqs a s).cof = s.cof ∧ (abortReqs a s).draws = s.draws := by
  simp [abortReqs]

@[simp] theorem abortReqs_leaf (a : ℕ) (s : State) :
    (abortReqs a s).hi.lock = s.hi.lock := by
  simp [abortReqs]

@[simp] theorem lateOps_frame (a : ℕ) (s : State) :
    (lateOps a s).pending = s.pending ∧ (lateOps a s).time = s.time ∧ (lateOps a s).id = s.id ∧ (lateOps a s).hi = s.hi ∧ (lateOps a s).mem = s.mem ∧ (lateOps a s).fab = s.fab ∧ (lateOps a s).srv = s.srv ∧ (lateOps a s).mdl = s.mdl ∧ (lateOps a s).exu = s.exu ∧ (lateOps a s).coll = s.coll ∧ (lateOps a s).xn = s.xn ∧ (lateOps a s).pw = s.pw ∧ (lateOps a s).sec = s.sec ∧ (lateOps a s).td = s.td ∧ (lateOps a s).cof = s.cof ∧ (lateOps a s).draws = s.draws ∧ (lateOps a s).out = s.out := by
  simp [lateOps]

@[simp] theorem resetCtx_frame (a : ℕ) (s : State) :
    (resetCtx a s).pending = s.pending ∧ (resetCtx a s).time = s.time ∧ (resetCtx a s).id = s.id ∧ (resetCtx a s).fab = s.fab ∧ (resetCtx a s).coll = s.coll ∧ (resetCtx a s).pw = s.pw ∧ (resetCtx a s).sec = s.sec ∧ (resetCtx a s).cof = s.cof ∧ (resetCtx a s).draws = s.draws := by
  simp [resetCtx]

@[simp] theorem resetCtx_leaf (a : ℕ) (s : State) :
    (resetCtx a s).hi.lock = s.hi.lock := by
  simp [resetCtx]

@[simp] theorem fallBack_frame (s : State) :
    (fallBack s).pending = s.pending ∧ (fallBack s).time = s.time ∧ (fallBack s).id = s.id ∧ (fallBack s).ctxs = s.ctxs ∧ (fallBack s).mem = s.mem ∧ (fallBack s).fab = s.fab ∧ (fallBack s).srv = s.srv ∧ (fallBack s).ops = s.ops ∧ (fallBack s).mdl = s.mdl ∧ (fallBack s).exu = s.exu ∧ (fallBack s).coll = s.coll ∧ (fallBack s).xn = s.xn ∧ (fallBack s).pw = s.pw ∧ (fallBack s).sec = s.sec ∧ (fallBack s).td = s.td ∧ (fallBack s).cof = s.cof ∧ (fallBack s).draws = s.draws ∧ (fallBack s).out = s.out := by
  simp [fallBack]

@[simp] theorem fallBack_leaf (s : State) :
    (fallBack s).hi.lock = s.hi.lock := by
  simp [fallBack]

@[simp] theorem afterSummary_frame (s : State) :
    (afterSummary s).pending = s.pending ∧ (afterSummary s).time = s.time ∧ (afterSummary s).id = s.id ∧ (afterSummary s).mem = s.mem ∧ (afterSummary s).fab = s.fab ∧ (afterSummary s).srv = s.srv ∧ (afterSummary s).ops = s.ops ∧ (afterSummary s).mdl = s.mdl ∧ (afterSummary s).exu = s.exu ∧ (afterSummary s).coll = s.coll ∧ (afterSummary s).xn = s.xn ∧ (afterSummary s).pw = s.pw ∧ (afterSummary s).sec = s.sec ∧ (afterSummary s).cof = s.cof ∧ (afterSummary s).draws = s.draws := by
  simp [afterSummary]

@[simp] theorem afterSummary_leaf (s : State) :
    (afterSummary s).hi.lock = s.hi.lock := by
  simp [afterSummary]

@[simp] theorem summaryFails_frame (a : ℕ) (s : State) :
    (summaryFails a s).pending = s.pending ∧ (summaryFails a s).time = s.time ∧ (summaryFails a s).id = s.id ∧ (summaryFails a s).mem = s.mem ∧ (summaryFails a s).fab = s.fab ∧ (summaryFails a s).srv = s.srv ∧ (summaryFails a s).ops = s.ops ∧ (summaryFails a s).mdl = s.mdl ∧ (summaryFails a s).exu = s.exu ∧ (summaryFails a s).coll = s.coll ∧ (summaryFails a s).xn = s.xn ∧ (summaryFails a s).pw = s.pw ∧ (summaryFails a s).sec = s.sec ∧ (summaryFails a s).cof = s.cof ∧ (summaryFails a s).draws = s.draws := by
  simp [summaryFails]

@[simp] theorem summaryFails_leaf (a : ℕ) (s : State) :
    (summaryFails a s).hi.lock = s.hi.lock := by
  simp [summaryFails]

@[simp] theorem takeTail_frame (a : ℕ) (b : ℕ) (c : ℕ) (s : State) :
    (takeTail a b c s).pending = s.pending ∧ (takeTail a b c s).time = s.time ∧ (takeTail a b c s).id = s.id ∧ (takeTail a b c s).hi = s.hi ∧ (takeTail a b c s).mem = s.mem ∧ (takeTail a b c s).fab = s.fab ∧ (takeTail a b c s).srv = s.srv ∧ (takeTail a b c s).ops = s.ops ∧ (takeTail a b c s).mdl = s.mdl ∧ (takeTail a b c s).exu = s.exu ∧ (takeTail a b c s).coll = s.coll ∧ (takeTail a b c s).xn = s.xn ∧ (takeTail a b c s).pw = s.pw ∧ (takeTail a b c s).sec = s.sec ∧ (takeTail a b c s).cof = s.cof ∧ (takeTail a b c s).draws = s.draws := by
  simp [takeTail]

@[simp] theorem takeHead_frame (a : ℕ) (b : ℕ) (c : ℕ) (s : State) :
    (takeHead a b c s).pending = s.pending ∧ (takeHead a b c s).time = s.time ∧ (takeHead a b c s).id = s.id ∧ (takeHead a b c s).hi = s.hi ∧ (takeHead a b c s).mem = s.mem ∧ (takeHead a b c s).fab = s.fab ∧ (takeHead a b c s).srv = s.srv ∧ (takeHead a b c s).ops = s.ops ∧ (takeHead a b c s).mdl = s.mdl ∧ (takeHead a b c s).exu = s.exu ∧ (takeHead a b c s).coll = s.coll ∧ (takeHead a b c s).xn = s.xn ∧ (takeHead a b c s).pw = s.pw ∧ (takeHead a b c s).sec = s.sec ∧ (takeHead a b c s).td = s.td ∧ (takeHead a b c s).cof = s.cof ∧ (takeHead a b c s).draws = s.draws ∧ (takeHead a b c s).out = s.out := by
  simp [takeHead]

@[simp] theorem takeTraceHead_frame (a : ℕ) (b : ℕ) (s : State) :
    (takeTraceHead a b s).pending = s.pending ∧ (takeTraceHead a b s).time = s.time ∧ (takeTraceHead a b s).id = s.id ∧ (takeTraceHead a b s).hi = s.hi ∧ (takeTraceHead a b s).mem = s.mem ∧ (takeTraceHead a b s).fab = s.fab ∧ (takeTraceHead a b s).srv = s.srv ∧ (takeTraceHead a b s).ops = s.ops ∧ (takeTraceHead a b s).mdl = s.mdl ∧ (takeTraceHead a b s).exu = s.exu ∧ (takeTraceHead a b s).coll = s.coll ∧ (takeTraceHead a b s).xn = s.xn ∧ (takeTraceHead a b s).pw = s.pw ∧ (takeTraceHead a b s).sec = s.sec ∧ (takeTraceHead a b s).td = s.td ∧ (takeTraceHead a b s).cof = s.cof ∧ (takeTraceHead a b s).draws = s.draws ∧ (takeTraceHead a b s).out = s.out := by
  simp [takeTraceHead]

@[simp] theorem descFails_frame (a : ℕ) (b : ℕ) (s : State) :
    (descFails a b s).pending = s.pending ∧ (descFails a b s).time = s.time ∧ (descFails a b s).id = s.id ∧ (descFails a b s).mem = s.mem ∧ (descFails a b s).fab = s.fab ∧ (descFails a b s).srv = s.srv ∧ (descFails a b s).ops = s.ops ∧ (descFails a b s).mdl = s.mdl ∧ (descFails a b s).exu = s.exu ∧ (descFails a b s).coll = s.coll ∧ (descFails a b s).xn = s.xn ∧ (descFails a b s).pw = s.pw ∧ (descFails a b s).sec = s.sec ∧ (descFails a b s).cof = s.cof ∧ (descFails a b s).draws = s.draws := by
  simp [descFails]

@[simp] theorem descFails_leaf (a : ℕ) (b : ℕ) (s : State) :
    (descFails a b s).hi.lock = s.hi.lock := by
  simp [descFails]

@[simp] theorem reqBufferFails_frame (a : ℕ) (s : State) :
    (reqBufferFails a s).pending = s.pending ∧ (reqBufferFails a s).time = s.time ∧ (reqBufferFails a s).id = s.id ∧ (reqBufferFails a s).fab = s.fab ∧ (reqBufferFails a s).ops = s.ops ∧ (reqBufferFails a s).coll = s.coll ∧ (reqBufferFails a s).pw = s.pw ∧ (reqBufferFails a s).sec = s.sec ∧ (reqBufferFails a s).cof = s.cof ∧ (reqBufferFails a s).draws = s.draws := by
  simp only [reqBufferFails]
  repeat' split
  all_goals simp

@[simp] theorem reqBufferFails_leaf (a : ℕ) (s : State) :
    (reqBufferFails a s).hi.lock = s.hi.lock := by
  simp only [reqBufferFails]
  repeat' split
  all_goals simp

@[simp] theorem shardFails_frame (a : ℕ) (b : ℕ) (s : State) :
    (shardFails a b s).pending = s.pending ∧ (shardFails a b s).time = s.time ∧ (shardFails a b s).id = s.id ∧ (shardFails a b s).exu = s.exu ∧ (shardFails a b s).coll = s.coll ∧ (shardFails a b s).cof = s.cof ∧ (shardFails a b s).draws = s.draws := by
  simp [shardFails]

@[simp] theorem shardFails_leaf (a : ℕ) (b : ℕ) (s : State) :
    (shardFails a b s).fab.scratch = s.fab.scratch ∧ (shardFails a b s).hi.lock = s.hi.lock ∧ (shardFails a b s).sec.life = s.sec.life ∧ (shardFails a b s).sec.mboxBuf = s.sec.mboxBuf ∧ (shardFails a b s).pw.st = s.pw.st := by
  simp [shardFails]

@[simp] theorem cmdDestFails_frame (a : ℕ) (b : Hdr) (s : State) :
    (cmdDestFails a b s).pending = s.pending ∧ (cmdDestFails a b s).id = s.id ∧ (cmdDestFails a b s).fab = s.fab ∧ (cmdDestFails a b s).srv = s.srv ∧ (cmdDestFails a b s).ops = s.ops ∧ (cmdDestFails a b s).mdl = s.mdl ∧ (cmdDestFails a b s).exu = s.exu ∧ (cmdDestFails a b s).coll = s.coll ∧ (cmdDestFails a b s).xn = s.xn ∧ (cmdDestFails a b s).pw = s.pw ∧ (cmdDestFails a b s).sec = s.sec ∧ (cmdDestFails a b s).cof = s.cof ∧ (cmdDestFails a b s).draws = s.draws := by
  simp only [cmdDestFails]
  repeat' split
  all_goals simp

@[simp] theorem cmdDestFails_leaf (a : ℕ) (b : Hdr) (s : State) :
    (cmdDestFails a b s).mem.dram = s.mem.dram ∧ (cmdDestFails a b s).hi.lock = s.hi.lock := by
  simp only [cmdDestFails]
  repeat' split
  all_goals simp

end Sys2Proof.Machine
end

