-- ==== Sys2Proof/Laws/Security.lean ====
section
/-! SUPPORT. What the operations of Machine/Security.lean leave unchanged: the parts of the state that each does not touch. -/
namespace Sys2Proof.Machine

@[simp] theorem lapse_frame (s : State) :
    (lapse s).pending = s.pending ∧ (lapse s).time = s.time ∧ (lapse s).id = s.id ∧ (lapse s).hi = s.hi ∧ (lapse s).ctxs = s.ctxs ∧ (lapse s).mem = s.mem ∧ (lapse s).fab = s.fab ∧ (lapse s).srv = s.srv ∧ (lapse s).ops = s.ops ∧ (lapse s).mdl = s.mdl ∧ (lapse s).exu = s.exu ∧ (lapse s).coll = s.coll ∧ (lapse s).xn = s.xn ∧ (lapse s).pw = s.pw ∧ (lapse s).td = s.td ∧ (lapse s).draws = s.draws ∧ (lapse s).out = s.out := by
  simp [lapse]

@[simp] theorem lapse_leaf (s : State) :
    (lapse s).sec.mboxBuf = s.sec.mboxBuf := by
  simp [lapse]

@[simp] theorem mboxEnd_frame (a : ℕ) (b : Status) (c : List Byte) (s : State) :
    (mboxEnd a b c s).pending = s.pending ∧ (mboxEnd a b c s).time = s.time ∧ (mboxEnd a b c s).id = s.id ∧ (mboxEnd a b c s).hi = s.hi ∧ (mboxEnd a b c s).ctxs = s.ctxs ∧ (mboxEnd a b c s).mem = s.mem ∧ (mboxEnd a b c s).fab = s.fab ∧ (mboxEnd a b c s).srv = s.srv ∧ (mboxEnd a b c s).ops = s.ops ∧ (mboxEnd a b c s).mdl = s.mdl ∧ (mboxEnd a b c s).exu = s.exu ∧ (mboxEnd a b c s).coll = s.coll ∧ (mboxEnd a b c s).xn = s.xn ∧ (mboxEnd a b c s).pw = s.pw ∧ (mboxEnd a b c s).td = s.td ∧ (mboxEnd a b c s).cof = s.cof ∧ (mboxEnd a b c s).draws = s.draws ∧ (mboxEnd a b c s).out = s.out := by
  simp [mboxEnd]

@[simp] theorem mboxEnd_leaf (a : ℕ) (b : Status) (c : List Byte) (s : State) :
    (mboxEnd a b c s).sec.life = s.sec.life := by
  simp [mboxEnd]

@[simp] theorem mailbox_pending (a : ℕ) (b : ℕ) (c : State → Status × List Byte × State) (s : State) (h : ∀ s, (c s).2.2.pending = s.pending) :
    (mailbox a b c s).pending = s.pending := by
  unfold mailbox; (try dsimp only); (repeat' split) <;> first | (simp [h]; done) | simp_all

@[simp] theorem mailbox_id (a : ℕ) (b : ℕ) (c : State → Status × List Byte × State) (s : State) (h : ∀ s, (c s).2.2.id = s.id) :
    (mailbox a b c s).id = s.id := by
  unfold mailbox; (try dsimp only); (repeat' split) <;> first | (simp [h]; done) | simp_all

@[simp] theorem mailbox_hi (a : ℕ) (b : ℕ) (c : State → Status × List Byte × State) (s : State) (h : ∀ s, (c s).2.2.hi = s.hi) :
    (mailbox a b c s).hi = s.hi := by
  unfold mailbox; (try dsimp only); (repeat' split) <;> first | (simp [h]; done) | simp_all

@[simp] theorem mailbox_ctxs (a : ℕ) (b : ℕ) (c : State → Status × List Byte × State) (s : State) (h : ∀ s, (c s).2.2.ctxs = s.ctxs) :
    (mailbox a b c s).ctxs = s.ctxs := by
  unfold mailbox; (try dsimp only); (repeat' split) <;> first | (simp [h]; done) | simp_all

@[simp] theorem mailbox_mem (a : ℕ) (b : ℕ) (c : State → Status × List Byte × State) (s : State) (h : ∀ s, (c s).2.2.mem = s.mem) :
    (mailbox a b c s).mem = s.mem := by
  unfold mailbox; (try dsimp only); (repeat' split) <;> first | (simp [h]; done) | simp_all

@[simp] theorem mailbox_fab (a : ℕ) (b : ℕ) (c : State → Status × List Byte × State) (s : State) (h : ∀ s, (c s).2.2.fab = s.fab) :
    (mailbox a b c s).fab = s.fab := by
  unfold mailbox; (try dsimp only); (repeat' split) <;> first | (simp [h]; done) | simp_all

@[simp] theorem mailbox_srv (a : ℕ) (b : ℕ) (c : State → Status × List Byte × State) (s : State) (h : ∀ s, (c s).2.2.srv = s.srv) :
    (mailbox a b c s).srv = s.srv := by
  unfold mailbox; (try dsimp only); (repeat' split) <;> first | (simp [h]; done) | simp_all

@[simp] theorem mailbox_ops (a : ℕ) (b : ℕ) (c : State → Status × List Byte × State) (s : State) (h : ∀ s, (c s).2.2.ops = s.ops) :
    (mailbox a b c s).ops = s.ops := by
  unfold mailbox; (try dsimp only); (repeat' split) <;> first | (simp [h]; done) | simp_all

@[simp] theorem mailbox_mdl (a : ℕ) (b : ℕ) (c : State → Status × List Byte × State) (s : State) (h : ∀ s, (c s).2.2.mdl = s.mdl) :
    (mailbox a b c s).mdl = s.mdl := by
  unfold mailbox; (try dsimp only); (repeat' split) <;> first | (simp [h]; done) | simp_all

@[simp] theorem mailbox_exu (a : ℕ) (b : ℕ) (c : State → Status × List Byte × State) (s : State) (h : ∀ s, (c s).2.2.exu = s.exu) :
    (mailbox a b c s).exu = s.exu := by
  unfold mailbox; (try dsimp only); (repeat' split) <;> first | (simp [h]; done) | simp_all

@[simp] theorem mailbox_coll (a : ℕ) (b : ℕ) (c : State → Status × List Byte × State) (s : State) (h : ∀ s, (c s).2.2.coll = s.coll) :
    (mailbox a b c s).coll = s.coll := by
  unfold mailbox; (try dsimp only); (repeat' split) <;> first | (simp [h]; done) | simp_all

@[simp] theorem mailbox_xn (a : ℕ) (b : ℕ) (c : State → Status × List Byte × State) (s : State) (h : ∀ s, (c s).2.2.xn = s.xn) :
    (mailbox a b c s).xn = s.xn := by
  unfold mailbox; (try dsimp only); (repeat' split) <;> first | (simp [h]; done) | simp_all

@[simp] theorem mailbox_pw (a : ℕ) (b : ℕ) (c : State → Status × List Byte × State) (s : State) (h : ∀ s, (c s).2.2.pw = s.pw) :
    (mailbox a b c s).pw = s.pw := by
  unfold mailbox; (try dsimp only); (repeat' split) <;> first | (simp [h]; done) | simp_all

@[simp] theorem mailbox_td (a : ℕ) (b : ℕ) (c : State → Status × List Byte × State) (s : State) (h : ∀ s, (c s).2.2.td = s.td) :
    (mailbox a b c s).td = s.td := by
  unfold mailbox; (try dsimp only); (repeat' split) <;> first | (simp [h]; done) | simp_all

@[simp] theorem mailbox_cof (a : ℕ) (b : ℕ) (c : State → Status × List Byte × State) (s : State) (h : ∀ s, (c s).2.2.cof = s.cof) :
    (mailbox a b c s).cof = s.cof := by
  unfold mailbox; (try dsimp only); (repeat' split) <;> first | (simp [h]; done) | simp_all

@[simp] theorem mailbox_draws (a : ℕ) (b : ℕ) (c : State → Status × List Byte × State) (s : State) (h : ∀ s, (c s).2.2.draws = s.draws) :
    (mailbox a b c s).draws = s.draws := by
  unfold mailbox; (try dsimp only); (repeat' split) <;> first | (simp [h]; done) | simp_all

@[simp] theorem mailbox_out (a : ℕ) (b : ℕ) (c : State → Status × List Byte × State) (s : State) (h : ∀ s, (c s).2.2.out = s.out) :
    (mailbox a b c s).out = s.out := by
  unfold mailbox; (try dsimp only); (repeat' split) <;> first | (simp [h]; done) | simp_all

@[simp] theorem mailbox_mem_dram (a : ℕ) (b : ℕ) (c : State → Status × List Byte × State) (s : State) (h : ∀ s, (c s).2.2.mem.dram = s.mem.dram) :
    (mailbox a b c s).mem.dram = s.mem.dram := by
  unfold mailbox; (try dsimp only); (repeat' split) <;> first | (simp [h]; done) | simp_all

@[simp] theorem mailbox_fab_scratch (a : ℕ) (b : ℕ) (c : State → Status × List Byte × State) (s : State) (h : ∀ s, (c s).2.2.fab.scratch = s.fab.scratch) :
    (mailbox a b c s).fab.scratch = s.fab.scratch := by
  unfold mailbox; (try dsimp only); (repeat' split) <;> first | (simp [h]; done) | simp_all

@[simp] theorem mailbox_hi_lock (a : ℕ) (b : ℕ) (c : State → Status × List Byte × State) (s : State) (h : ∀ s, (c s).2.2.hi.lock = s.hi.lock) :
    (mailbox a b c s).hi.lock = s.hi.lock := by
  unfold mailbox; (try dsimp only); (repeat' split) <;> first | (simp [h]; done) | simp_all

@[simp] theorem mailbox_sec_life (a : ℕ) (b : ℕ) (c : State → Status × List Byte × State) (s : State) (h : ∀ s, (c s).2.2.sec.life = s.sec.life) :
    (mailbox a b c s).sec.life = s.sec.life := by
  unfold mailbox; (try dsimp only); (repeat' split) <;> first | (simp [h]; done) | simp_all

@[simp] theorem mailbox_pw_st (a : ℕ) (b : ℕ) (c : State → Status × List Byte × State) (s : State) (h : ∀ s, (c s).2.2.pw.st = s.pw.st) :
    (mailbox a b c s).pw.st = s.pw.st := by
  unfold mailbox; (try dsimp only); (repeat' split) <;> first | (simp [h]; done) | simp_all

@[simp] theorem checked_pending (a : Option Status) (b : State → State) (s : State) (h : ∀ s, (b s).pending = s.pending) :
    (checked a b s).2.2.pending = s.pending := by
  unfold checked; (try dsimp only); (repeat' split) <;> first | (simp [h]; done) | simp_all

@[simp] theorem checked_time (a : Option Status) (b : State → State) (s : State) (h : ∀ s, (b s).time = s.time) :
    (checked a b s).2.2.time = s.time := by
  unfold checked; (try dsimp only); (repeat' split) <;> first | (simp [h]; done) | simp_all

@[simp] theorem checked_id (a : Option Status) (b : State → State) (s : State) (h : ∀ s, (b s).id = s.id) :
    (checked a b s).2.2.id = s.id := by
  unfold checked; (try dsimp only); (repeat' split) <;> first | (simp [h]; done) | simp_all

@[simp] theorem checked_hi (a : Option Status) (b : State → State) (s : State) (h : ∀ s, (b s).hi = s.hi) :
    (checked a b s).2.2.hi = s.hi := by
  unfold checked; (try dsimp only); (repeat' split) <;> first | (simp [h]; done) | simp_all

@[simp] theorem checked_ctxs (a : Option Status) (b : State → State) (s : State) (h : ∀ s, (b s).ctxs = s.ctxs) :
    (checked a b s).2.2.ctxs = s.ctxs := by
  unfold checked; (try dsimp only); (repeat' split) <;> first | (simp [h]; done) | simp_all

@[simp] theorem checked_mem (a : Option Status) (b : State → State) (s : State) (h : ∀ s, (b s).mem = s.mem) :
    (checked a b s).2.2.mem = s.mem := by
  unfold checked; (try dsimp only); (repeat' split) <;> first | (simp [h]; done) | simp_all

@[simp] theorem checked_fab (a : Option Status) (b : State → State) (s : State) (h : ∀ s, (b s).fab = s.fab) :
    (checked a b s).2.2.fab = s.fab := by
  unfold checked; (try dsimp only); (repeat' split) <;> first | (simp [h]; done) | simp_all

@[simp] theorem checked_srv (a : Option Status) (b : State → State) (s : State) (h : ∀ s, (b s).srv = s.srv) :
    (checked a b s).2.2.srv = s.srv := by
  unfold checked; (try dsimp only); (repeat' split) <;> first | (simp [h]; done) | simp_all

@[simp] theorem checked_ops (a : Option Status) (b : State → State) (s : State) (h : ∀ s, (b s).ops = s.ops) :
    (checked a b s).2.2.ops = s.ops := by
  unfold checked; (try dsimp only); (repeat' split) <;> first | (simp [h]; done) | simp_all

@[simp] theorem checked_mdl (a : Option Status) (b : State → State) (s : State) (h : ∀ s, (b s).mdl = s.mdl) :
    (checked a b s).2.2.mdl = s.mdl := by
  unfold checked; (try dsimp only); (repeat' split) <;> first | (simp [h]; done) | simp_all

@[simp] theorem checked_exu (a : Option Status) (b : State → State) (s : State) (h : ∀ s, (b s).exu = s.exu) :
    (checked a b s).2.2.exu = s.exu := by
  unfold checked; (try dsimp only); (repeat' split) <;> first | (simp [h]; done) | simp_all

@[simp] theorem checked_coll (a : Option Status) (b : State → State) (s : State) (h : ∀ s, (b s).coll = s.coll) :
    (checked a b s).2.2.coll = s.coll := by
  unfold checked; (try dsimp only); (repeat' split) <;> first | (simp [h]; done) | simp_all

@[simp] theorem checked_xn (a : Option Status) (b : State → State) (s : State) (h : ∀ s, (b s).xn = s.xn) :
    (checked a b s).2.2.xn = s.xn := by
  unfold checked; (try dsimp only); (repeat' split) <;> first | (simp [h]; done) | simp_all

@[simp] theorem checked_pw (a : Option Status) (b : State → State) (s : State) (h : ∀ s, (b s).pw = s.pw) :
    (checked a b s).2.2.pw = s.pw := by
  unfold checked; (try dsimp only); (repeat' split) <;> first | (simp [h]; done) | simp_all

@[simp] theorem checked_sec (a : Option Status) (b : State → State) (s : State) (h : ∀ s, (b s).sec = s.sec) :
    (checked a b s).2.2.sec = s.sec := by
  unfold checked; (try dsimp only); (repeat' split) <;> first | (simp [h]; done) | simp_all

@[simp] theorem checked_td (a : Option Status) (b : State → State) (s : State) (h : ∀ s, (b s).td = s.td) :
    (checked a b s).2.2.td = s.td := by
  unfold checked; (try dsimp only); (repeat' split) <;> first | (simp [h]; done) | simp_all

@[simp] theorem checked_cof (a : Option Status) (b : State → State) (s : State) (h : ∀ s, (b s).cof = s.cof) :
    (checked a b s).2.2.cof = s.cof := by
  unfold checked; (try dsimp only); (repeat' split) <;> first | (simp [h]; done) | simp_all

@[simp] theorem checked_draws (a : Option Status) (b : State → State) (s : State) (h : ∀ s, (b s).draws = s.draws) :
    (checked a b s).2.2.draws = s.draws := by
  unfold checked; (try dsimp only); (repeat' split) <;> first | (simp [h]; done) | simp_all

@[simp] theorem checked_out (a : Option Status) (b : State → State) (s : State) (h : ∀ s, (b s).out = s.out) :
    (checked a b s).2.2.out = s.out := by
  unfold checked; (try dsimp only); (repeat' split) <;> first | (simp [h]; done) | simp_all

@[simp] theorem checked_mem_dram (a : Option Status) (b : State → State) (s : State) (h : ∀ s, (b s).mem.dram = s.mem.dram) :
    (checked a b s).2.2.mem.dram = s.mem.dram := by
  unfold checked; (try dsimp only); (repeat' split) <;> first | (simp [h]; done) | simp_all

@[simp] theorem checked_fab_scratch (a : Option Status) (b : State → State) (s : State) (h : ∀ s, (b s).fab.scratch = s.fab.scratch) :
    (checked a b s).2.2.fab.scratch = s.fab.scratch := by
  unfold checked; (try dsimp only); (repeat' split) <;> first | (simp [h]; done) | simp_all

@[simp] theorem checked_hi_lock (a : Option Status) (b : State → State) (s : State) (h : ∀ s, (b s).hi.lock = s.hi.lock) :
    (checked a b s).2.2.hi.lock = s.hi.lock := by
  unfold checked; (try dsimp only); (repeat' split) <;> first | (simp [h]; done) | simp_all

@[simp] theorem checked_sec_life (a : Option Status) (b : State → State) (s : State) (h : ∀ s, (b s).sec.life = s.sec.life) :
    (checked a b s).2.2.sec.life = s.sec.life := by
  unfold checked; (try dsimp only); (repeat' split) <;> first | (simp [h]; done) | simp_all

@[simp] theorem checked_sec_mboxBuf (a : Option Status) (b : State → State) (s : State) (h : ∀ s, (b s).sec.mboxBuf = s.sec.mboxBuf) :
    (checked a b s).2.2.sec.mboxBuf = s.sec.mboxBuf := by
  unfold checked; (try dsimp only); (repeat' split) <;> first | (simp [h]; done) | simp_all

@[simp] theorem checked_pw_st (a : Option Status) (b : State → State) (s : State) (h : ∀ s, (b s).pw.st = s.pw.st) :
    (checked a b s).2.2.pw.st = s.pw.st := by
  unfold checked; (try dsimp only); (repeat' split) <;> first | (simp [h]; done) | simp_all

@[simp] theorem useNonce_frame (s : State) :
    (useNonce s).pending = s.pending ∧ (useNonce s).time = s.time ∧ (useNonce s).id = s.id ∧ (useNonce s).hi = s.hi ∧ (useNonce s).ctxs = s.ctxs ∧ (useNonce s).mem = s.mem ∧ (useNonce s).fab = s.fab ∧ (useNonce s).srv = s.srv ∧ (useNonce s).ops = s.ops ∧ (useNonce s).mdl = s.mdl ∧ (useNonce s).exu = s.exu ∧ (useNonce s).coll = s.coll ∧ (useNonce s).xn = s.xn ∧ (useNonce s).pw = s.pw ∧ (useNonce s).td = s.td ∧ (useNonce s).cof = s.cof ∧ (useNonce s).draws = s.draws ∧ (useNonce s).out = s.out := by
  simp [useNonce]

@[simp] theorem useNonce_leaf (s : State) :
    (useNonce s).sec.life = s.sec.life ∧ (useNonce s).sec.mboxBuf = s.sec.mboxBuf := by
  simp [useNonce]

@[simp] theorem unlockRun_frame (a : UnlockToken) (s : State) :
    (unlockRun a s).2.2.pending = s.pending ∧ (unlockRun a s).2.2.time = s.time ∧ (unlockRun a s).2.2.id = s.id ∧ (unlockRun a s).2.2.hi = s.hi ∧ (unlockRun a s).2.2.ctxs = s.ctxs ∧ (unlockRun a s).2.2.mem = s.mem ∧ (unlockRun a s).2.2.fab = s.fab ∧ (unlockRun a s).2.2.srv = s.srv ∧ (unlockRun a s).2.2.ops = s.ops ∧ (unlockRun a s).2.2.mdl = s.mdl ∧ (unlockRun a s).2.2.exu = s.exu ∧ (unlockRun a s).2.2.coll = s.coll ∧ (unlockRun a s).2.2.xn = s.xn ∧ (unlockRun a s).2.2.pw = s.pw ∧ (unlockRun a s).2.2.td = s.td ∧ (unlockRun a s).2.2.draws = s.draws ∧ (unlockRun a s).2.2.out = s.out := by
  simp only [unlockRun]
  repeat' split
  all_goals simp

@[simp] theorem unlockRun_leaf (a : UnlockToken) (s : State) :
    (unlockRun a s).2.2.sec.mboxBuf = s.sec.mboxBuf := by
  simp only [unlockRun]
  repeat' split
  all_goals simp

@[simp] theorem deployKeys_frame (a : List (Option Digest)) (s : State) :
    (deployKeys a s).pending = s.pending ∧ (deployKeys a s).time = s.time ∧ (deployKeys a s).id = s.id ∧ (deployKeys a s).hi = s.hi ∧ (deployKeys a s).ctxs = s.ctxs ∧ (deployKeys a s).mem = s.mem ∧ (deployKeys a s).fab = s.fab ∧ (deployKeys a s).srv = s.srv ∧ (deployKeys a s).ops = s.ops ∧ (deployKeys a s).mdl = s.mdl ∧ (deployKeys a s).exu = s.exu ∧ (deployKeys a s).coll = s.coll ∧ (deployKeys a s).xn = s.xn ∧ (deployKeys a s).pw = s.pw ∧ (deployKeys a s).td = s.td ∧ (deployKeys a s).cof = s.cof ∧ (deployKeys a s).draws = s.draws ∧ (deployKeys a s).out = s.out := by
  simp (disch := first | (intros; (repeat' split) <;> (simp [-Nat.reducePow]; done)) | (intros; dsimp only; (repeat' split) <;> (simp [-Nat.reducePow]; done)) | assumption) [deployKeys, -Nat.reducePow]

@[simp] theorem deployKeys_leaf (a : List (Option Digest)) (s : State) :
    (deployKeys a s).sec.life = s.sec.life ∧ (deployKeys a s).sec.mboxBuf = s.sec.mboxBuf := by
  simp (disch := first | (intros; (repeat' split) <;> (simp [-Nat.reducePow]; done)) | (intros; dsimp only; (repeat' split) <;> (simp [-Nat.reducePow]; done)) | assumption) [deployKeys, -Nat.reducePow]

@[simp] theorem zeroMemory_frame (s : State) :
    (zeroMemory s).pending = s.pending ∧ (zeroMemory s).time = s.time ∧ (zeroMemory s).id = s.id ∧ (zeroMemory s).hi = s.hi ∧ (zeroMemory s).ctxs = s.ctxs ∧ (zeroMemory s).fab = s.fab ∧ (zeroMemory s).srv = s.srv ∧ (zeroMemory s).ops = s.ops ∧ (zeroMemory s).mdl = s.mdl ∧ (zeroMemory s).exu = s.exu ∧ (zeroMemory s).coll = s.coll ∧ (zeroMemory s).xn = s.xn ∧ (zeroMemory s).pw = s.pw ∧ (zeroMemory s).sec = s.sec ∧ (zeroMemory s).td = s.td ∧ (zeroMemory s).cof = s.cof ∧ (zeroMemory s).draws = s.draws ∧ (zeroMemory s).out = s.out := by
  simp [zeroMemory]

@[simp] theorem writeDebug_frame (a : Word) (s : State) :
    (writeDebug a s).pending = s.pending ∧ (writeDebug a s).time = s.time ∧ (writeDebug a s).id = s.id ∧ (writeDebug a s).hi = s.hi ∧ (writeDebug a s).ctxs = s.ctxs ∧ (writeDebug a s).mem = s.mem ∧ (writeDebug a s).fab = s.fab ∧ (writeDebug a s).srv = s.srv ∧ (writeDebug a s).ops = s.ops ∧ (writeDebug a s).mdl = s.mdl ∧ (writeDebug a s).exu = s.exu ∧ (writeDebug a s).coll = s.coll ∧ (writeDebug a s).xn = s.xn ∧ (writeDebug a s).pw = s.pw ∧ (writeDebug a s).td = s.td ∧ (writeDebug a s).draws = s.draws ∧ (writeDebug a s).out = s.out := by
  simp [writeDebug]

@[simp] theorem writeDebug_leaf (a : Word) (s : State) :
    (writeDebug a s).sec.mboxBuf = s.sec.mboxBuf := by
  simp [writeDebug]

@[simp] theorem spdm_frame (a : ℕ) (b : Bool) (c : Bool) (d : String) (e : List ℕ) (s : State) :
    (spdm a b c d e s).pending = s.pending ∧ (spdm a b c d e s).id = s.id ∧ (spdm a b c d e s).hi = s.hi ∧ (spdm a b c d e s).ctxs = s.ctxs ∧ (spdm a b c d e s).mem = s.mem ∧ (spdm a b c d e s).fab = s.fab ∧ (spdm a b c d e s).srv = s.srv ∧ (spdm a b c d e s).ops = s.ops ∧ (spdm a b c d e s).mdl = s.mdl ∧ (spdm a b c d e s).exu = s.exu ∧ (spdm a b c d e s).coll = s.coll ∧ (spdm a b c d e s).xn = s.xn ∧ (spdm a b c d e s).pw = s.pw ∧ (spdm a b c d e s).sec = s.sec ∧ (spdm a b c d e s).td = s.td ∧ (spdm a b c d e s).cof = s.cof ∧ (spdm a b c d e s).draws = s.draws := by
  simp [spdm]

@[simp] theorem session_frame (a : ℕ) (b : Bool) (c : String) (d : List ℕ) (e : Sec → Sec) (s : State) :
    (session a b c d e s).pending = s.pending ∧ (session a b c d e s).id = s.id ∧ (session a b c d e s).hi = s.hi ∧ (session a b c d e s).ctxs = s.ctxs ∧ (session a b c d e s).mem = s.mem ∧ (session a b c d e s).fab = s.fab ∧ (session a b c d e s).srv = s.srv ∧ (session a b c d e s).ops = s.ops ∧ (session a b c d e s).mdl = s.mdl ∧ (session a b c d e s).exu = s.exu ∧ (session a b c d e s).coll = s.coll ∧ (session a b c d e s).xn = s.xn ∧ (session a b c d e s).pw = s.pw ∧ (session a b c d e s).td = s.td ∧ (session a b c d e s).cof = s.cof ∧ (session a b c d e s).draws = s.draws := by
  simp [session]

@[simp] theorem session_sec_life (a : ℕ) (b : Bool) (c : String) (d : List ℕ) (e : Sec → Sec) (s : State) (h : ∀ x, (e x).life = x.life) :
    (session a b c d e s).sec.life = s.sec.life := by
  simp only [session]
  split <;> simp [h]

@[simp] theorem session_sec_mboxBuf (a : ℕ) (b : Bool) (c : String) (d : List ℕ) (e : Sec → Sec) (s : State) (h : ∀ x, (e x).mboxBuf = x.mboxBuf) :
    (session a b c d e s).sec.mboxBuf = s.sec.mboxBuf := by
  simp only [session]
  split <;> simp [h]

@[simp] theorem tapAccess_frame (a : TapOp) (s : State) :
    (tapAccess a s).pending = s.pending ∧ (tapAccess a s).time = s.time ∧ (tapAccess a s).id = s.id ∧ (tapAccess a s).hi = s.hi ∧ (tapAccess a s).ctxs = s.ctxs ∧ (tapAccess a s).srv = s.srv ∧ (tapAccess a s).ops = s.ops ∧ (tapAccess a s).mdl = s.mdl ∧ (tapAccess a s).exu = s.exu ∧ (tapAccess a s).coll = s.coll ∧ (tapAccess a s).xn = s.xn ∧ (tapAccess a s).pw = s.pw ∧ (tapAccess a s).td = s.td ∧ (tapAccess a s).cof = s.cof := by
  simp only [tapAccess]
  repeat' split
  all_goals simp

@[simp] theorem tapAccess_leaf (a : TapOp) (s : State) :
    (tapAccess a s).sec.life = s.sec.life ∧ (tapAccess a s).sec.mboxBuf = s.sec.mboxBuf := by
  simp only [tapAccess]
  repeat' split
  all_goals simp

@[simp] theorem tapRun_frame (a : TapOp) (s : State) :
    (tapRun a s).pending = s.pending ∧ (tapRun a s).time = s.time ∧ (tapRun a s).id = s.id ∧ (tapRun a s).hi = s.hi ∧ (tapRun a s).ctxs = s.ctxs ∧ (tapRun a s).srv = s.srv ∧ (tapRun a s).ops = s.ops ∧ (tapRun a s).mdl = s.mdl ∧ (tapRun a s).exu = s.exu ∧ (tapRun a s).coll = s.coll ∧ (tapRun a s).xn = s.xn ∧ (tapRun a s).pw = s.pw ∧ (tapRun a s).td = s.td ∧ (tapRun a s).cof = s.cof := by
  simp only [tapRun]
  repeat' split
  all_goals simp

@[simp] theorem tapRun_leaf (a : TapOp) (s : State) :
    (tapRun a s).sec.life = s.sec.life ∧ (tapRun a s).sec.mboxBuf = s.sec.mboxBuf := by
  simp only [tapRun]
  repeat' split
  all_goals simp

end Sys2Proof.Machine
end

