-- ==== Sys2Proof/Laws/LongOps.lean ====
section
/-! SUPPORT. What the operations of Machine/LongOps.lean leave unchanged: the parts of the state that each does not touch. -/
namespace Sys2Proof.Machine

@[simp] theorem cancelOp_frame (a : ℕ) (s : State) :
    (cancelOp a s).pending = s.pending ∧ (cancelOp a s).time = s.time ∧ (cancelOp a s).id = s.id ∧ (cancelOp a s).exu = s.exu ∧ (cancelOp a s).coll = s.coll ∧ (cancelOp a s).sec = s.sec ∧ (cancelOp a s).cof = s.cof ∧ (cancelOp a s).draws = s.draws := by
  simp only [cancelOp]
  repeat' split
  all_goals simp

@[simp] theorem cancelOp_leaf (a : ℕ) (s : State) :
    (cancelOp a s).hi.lock = s.hi.lock ∧ (cancelOp a s).pw.st = s.pw.st := by
  simp only [cancelOp]
  repeat' split
  all_goals simp

@[simp] theorem kickOp_frame (a : ℕ) (s : State) :
    (kickOp a s).pending = s.pending ∧ (kickOp a s).time = s.time ∧ (kickOp a s).id = s.id ∧ (kickOp a s).exu = s.exu ∧ (kickOp a s).coll = s.coll ∧ (kickOp a s).cof = s.cof ∧ (kickOp a s).draws = s.draws := by
  simp only [kickOp]
  repeat' split
  all_goals simp

@[simp] theorem kickOp_leaf (a : ℕ) (s : State) :
    (kickOp a s).fab.scratch = s.fab.scratch ∧ (kickOp a s).hi.lock = s.hi.lock ∧ (kickOp a s).sec.life = s.sec.life ∧ (kickOp a s).sec.mboxBuf = s.sec.mboxBuf ∧ (kickOp a s).pw.st = s.pw.st := by
  simp only [kickOp]
  repeat' split
  all_goals simp

@[simp] theorem kickAll_frame (s : State) :
    (kickAll s).pending = s.pending ∧ (kickAll s).time = s.time ∧ (kickAll s).id = s.id ∧ (kickAll s).exu = s.exu ∧ (kickAll s).coll = s.coll ∧ (kickAll s).cof = s.cof ∧ (kickAll s).draws = s.draws := by
  simp [kickAll]

@[simp] theorem kickAll_leaf (s : State) :
    (kickAll s).fab.scratch = s.fab.scratch ∧ (kickAll s).hi.lock = s.hi.lock ∧ (kickAll s).sec.life = s.sec.life ∧ (kickAll s).sec.mboxBuf = s.sec.mboxBuf ∧ (kickAll s).pw.st = s.pw.st := by
  simp [kickAll]

@[simp] theorem controlOp_pending (a : ℕ) (b : Hdr) (c : ℕ) (d : State → LongOp → Bool) (e : ℕ → State → State) (s : State) (h : ∀ x s, (e x s).pending = s.pending) :
    (controlOp a b c d e s).pending = s.pending := by
  unfold controlOp
  apply command_pending
  intro s
  split <;> simp [h]

@[simp] theorem controlOp_id (a : ℕ) (b : Hdr) (c : ℕ) (d : State → LongOp → Bool) (e : ℕ → State → State) (s : State) (h : ∀ x s, (e x s).id = s.id) :
    (controlOp a b c d e s).id = s.id := by
  unfold controlOp
  apply command_id
  intro s
  split <;> simp [h]

@[simp] theorem controlOp_mem (a : ℕ) (b : Hdr) (c : ℕ) (d : State → LongOp → Bool) (e : ℕ → State → State) (s : State) (h : ∀ x s, (e x s).mem = s.mem) :
    (controlOp a b c d e s).mem = s.mem := by
  unfold controlOp
  apply command_mem
  intro s
  split <;> simp [h]

@[simp] theorem controlOp_fab (a : ℕ) (b : Hdr) (c : ℕ) (d : State → LongOp → Bool) (e : ℕ → State → State) (s : State) (h : ∀ x s, (e x s).fab = s.fab) :
    (controlOp a b c d e s).fab = s.fab := by
  unfold controlOp
  apply command_fab
  intro s
  split <;> simp [h]

@[simp] theorem controlOp_srv (a : ℕ) (b : Hdr) (c : ℕ) (d : State → LongOp → Bool) (e : ℕ → State → State) (s : State) (h : ∀ x s, (e x s).srv = s.srv) :
    (controlOp a b c d e s).srv = s.srv := by
  unfold controlOp
  apply command_srv
  intro s
  split <;> simp [h]

@[simp] theorem controlOp_ops (a : ℕ) (b : Hdr) (c : ℕ) (d : State → LongOp → Bool) (e : ℕ → State → State) (s : State) (h : ∀ x s, (e x s).ops = s.ops) :
    (controlOp a b c d e s).ops = s.ops := by
  unfold controlOp
  apply command_ops
  intro s
  split <;> simp [h]

@[simp] theorem controlOp_mdl (a : ℕ) (b : Hdr) (c : ℕ) (d : State → LongOp → Bool) (e : ℕ → State → State) (s : State) (h : ∀ x s, (e x s).mdl = s.mdl) :
    (controlOp a b c d e s).mdl = s.mdl := by
  unfold controlOp
  apply command_mdl
  intro s
  split <;> simp [h]

@[simp] theorem controlOp_exu (a : ℕ) (b : Hdr) (c : ℕ) (d : State → LongOp → Bool) (e : ℕ → State → State) (s : State) (h : ∀ x s, (e x s).exu = s.exu) :
    (controlOp a b c d e s).exu = s.exu := by
  unfold controlOp
  apply command_exu
  intro s
  split <;> simp [h]

@[simp] theorem controlOp_coll (a : ℕ) (b : Hdr) (c : ℕ) (d : State → LongOp → Bool) (e : ℕ → State → State) (s : State) (h : ∀ x s, (e x s).coll = s.coll) :
    (controlOp a b c d e s).coll = s.coll := by
  unfold controlOp
  apply command_coll
  intro s
  split <;> simp [h]

@[simp] theorem controlOp_xn (a : ℕ) (b : Hdr) (c : ℕ) (d : State → LongOp → Bool) (e : ℕ → State → State) (s : State) (h : ∀ x s, (e x s).xn = s.xn) :
    (controlOp a b c d e s).xn = s.xn := by
  unfold controlOp
  apply command_xn
  intro s
  split <;> simp [h]

@[simp] theorem controlOp_pw (a : ℕ) (b : Hdr) (c : ℕ) (d : State → LongOp → Bool) (e : ℕ → State → State) (s : State) (h : ∀ x s, (e x s).pw = s.pw) :
    (controlOp a b c d e s).pw = s.pw := by
  unfold controlOp
  apply command_pw
  intro s
  split <;> simp [h]

@[simp] theorem controlOp_sec (a : ℕ) (b : Hdr) (c : ℕ) (d : State → LongOp → Bool) (e : ℕ → State → State) (s : State) (h : ∀ x s, (e x s).sec = s.sec) :
    (controlOp a b c d e s).sec = s.sec := by
  unfold controlOp
  apply command_sec
  intro s
  split <;> simp [h]

@[simp] theorem controlOp_cof (a : ℕ) (b : Hdr) (c : ℕ) (d : State → LongOp → Bool) (e : ℕ → State → State) (s : State) (h : ∀ x s, (e x s).cof = s.cof) :
    (controlOp a b c d e s).cof = s.cof := by
  unfold controlOp
  apply command_cof
  intro s
  split <;> simp [h]

@[simp] theorem controlOp_draws (a : ℕ) (b : Hdr) (c : ℕ) (d : State → LongOp → Bool) (e : ℕ → State → State) (s : State) (h : ∀ x s, (e x s).draws = s.draws) :
    (controlOp a b c d e s).draws = s.draws := by
  unfold controlOp
  apply command_draws
  intro s
  split <;> simp [h]

@[simp] theorem controlOp_mem_dram (a : ℕ) (b : Hdr) (c : ℕ) (d : State → LongOp → Bool) (e : ℕ → State → State) (s : State) (h : ∀ x s, (e x s).mem.dram = s.mem.dram) :
    (controlOp a b c d e s).mem.dram = s.mem.dram := by
  unfold controlOp
  apply command_mem_dram
  intro s
  split <;> simp [h]

@[simp] theorem controlOp_fab_scratch (a : ℕ) (b : Hdr) (c : ℕ) (d : State → LongOp → Bool) (e : ℕ → State → State) (s : State) (h : ∀ x s, (e x s).fab.scratch = s.fab.scratch) :
    (controlOp a b c d e s).fab.scratch = s.fab.scratch := by
  unfold controlOp
  apply command_fab_scratch
  intro s
  split <;> simp [h]

@[simp] theorem controlOp_hi_lock (a : ℕ) (b : Hdr) (c : ℕ) (d : State → LongOp → Bool) (e : ℕ → State → State) (s : State) (h : ∀ x s, (e x s).hi.lock = s.hi.lock) :
    (controlOp a b c d e s).hi.lock = s.hi.lock := by
  unfold controlOp
  apply command_hi_lock
  intro s
  split <;> simp [h]

@[simp] theorem controlOp_sec_life (a : ℕ) (b : Hdr) (c : ℕ) (d : State → LongOp → Bool) (e : ℕ → State → State) (s : State) (h : ∀ x s, (e x s).sec.life = s.sec.life) :
    (controlOp a b c d e s).sec.life = s.sec.life := by
  unfold controlOp
  apply command_sec_life
  intro s
  split <;> simp [h]

@[simp] theorem controlOp_sec_mboxBuf (a : ℕ) (b : Hdr) (c : ℕ) (d : State → LongOp → Bool) (e : ℕ → State → State) (s : State) (h : ∀ x s, (e x s).sec.mboxBuf = s.sec.mboxBuf) :
    (controlOp a b c d e s).sec.mboxBuf = s.sec.mboxBuf := by
  unfold controlOp
  apply command_sec_mboxBuf
  intro s
  split <;> simp [h]

@[simp] theorem controlOp_pw_st (a : ℕ) (b : Hdr) (c : ℕ) (d : State → LongOp → Bool) (e : ℕ → State → State) (s : State) (h : ∀ x s, (e x s).pw.st = s.pw.st) :
    (controlOp a b c d e s).pw.st = s.pw.st := by
  unfold controlOp
  apply command_pw_st
  intro s
  split <;> simp [h]

@[simp] theorem takeTest_frame (a : ℕ) (s : State) :
    (takeTest a s).pending = s.pending ∧ (takeTest a s).time = s.time ∧ (takeTest a s).id = s.id ∧ (takeTest a s).hi = s.hi ∧ (takeTest a s).ctxs = s.ctxs ∧ (takeTest a s).mem = s.mem ∧ (takeTest a s).srv = s.srv ∧ (takeTest a s).mdl = s.mdl ∧ (takeTest a s).exu = s.exu ∧ (takeTest a s).coll = s.coll ∧ (takeTest a s).xn = s.xn ∧ (takeTest a s).pw = s.pw ∧ (takeTest a s).sec = s.sec ∧ (takeTest a s).td = s.td ∧ (takeTest a s).cof = s.cof ∧ (takeTest a s).draws = s.draws ∧ (takeTest a s).out = s.out := by
  simp only [takeTest]
  repeat' split
  all_goals simp

@[simp] theorem takeTest_leaf (a : ℕ) (s : State) :
    (takeTest a s).fab.scratch = s.fab.scratch := by
  simp only [takeTest]
  repeat' split
  all_goals simp

@[simp] theorem passTest_frame (a : ℕ) (s : State) :
    (passTest a s).pending = s.pending ∧ (passTest a s).time = s.time ∧ (passTest a s).id = s.id ∧ (passTest a s).hi = s.hi ∧ (passTest a s).ctxs = s.ctxs ∧ (passTest a s).mem = s.mem ∧ (passTest a s).srv = s.srv ∧ (passTest a s).mdl = s.mdl ∧ (passTest a s).exu = s.exu ∧ (passTest a s).coll = s.coll ∧ (passTest a s).xn = s.xn ∧ (passTest a s).pw = s.pw ∧ (passTest a s).sec = s.sec ∧ (passTest a s).cof = s.cof ∧ (passTest a s).draws = s.draws ∧ (passTest a s).out = s.out := by
  simp only [passTest]
  repeat' split
  all_goals simp

@[simp] theorem passTest_leaf (a : ℕ) (s : State) :
    (passTest a s).fab.scratch = s.fab.scratch := by
  simp only [passTest]
  repeat' split
  all_goals simp

@[simp] theorem failUnit_frame (a : FailedUnit) (s : State) :
    (failUnit a s).pending = s.pending ∧ (failUnit a s).time = s.time ∧ (failUnit a s).id = s.id ∧ (failUnit a s).sec = s.sec ∧ (failUnit a s).draws = s.draws := by
  simp only [failUnit]
  repeat' split
  all_goals simp

@[simp] theorem failUnit_leaf (a : FailedUnit) (s : State) :
    (failUnit a s).hi.lock = s.hi.lock ∧ (failUnit a s).pw.st = s.pw.st := by
  simp only [failUnit]
  repeat' split
  all_goals simp

@[simp] theorem modFlash_frame (a : ℕ) (b : FlashSlot → FlashSlot) (s : State) :
    (modFlash a b s).pending = s.pending ∧ (modFlash a b s).time = s.time ∧ (modFlash a b s).id = s.id ∧ (modFlash a b s).hi = s.hi ∧ (modFlash a b s).ctxs = s.ctxs ∧ (modFlash a b s).mem = s.mem ∧ (modFlash a b s).fab = s.fab ∧ (modFlash a b s).srv = s.srv ∧ (modFlash a b s).ops = s.ops ∧ (modFlash a b s).mdl = s.mdl ∧ (modFlash a b s).exu = s.exu ∧ (modFlash a b s).coll = s.coll ∧ (modFlash a b s).xn = s.xn ∧ (modFlash a b s).pw = s.pw ∧ (modFlash a b s).td = s.td ∧ (modFlash a b s).cof = s.cof ∧ (modFlash a b s).draws = s.draws ∧ (modFlash a b s).out = s.out := by
  simp [modFlash]

@[simp] theorem modFlash_leaf (a : ℕ) (b : FlashSlot → FlashSlot) (s : State) :
    (modFlash a b s).sec.life = s.sec.life ∧ (modFlash a b s).sec.mboxBuf = s.sec.mboxBuf := by
  simp [modFlash]

@[simp] theorem erasePart_frame (a : ℕ) (s : State) :
    (erasePart a s).pending = s.pending ∧ (erasePart a s).time = s.time ∧ (erasePart a s).id = s.id ∧ (erasePart a s).hi = s.hi ∧ (erasePart a s).ctxs = s.ctxs ∧ (erasePart a s).fab = s.fab ∧ (erasePart a s).ops = s.ops ∧ (erasePart a s).mdl = s.mdl ∧ (erasePart a s).exu = s.exu ∧ (erasePart a s).coll = s.coll ∧ (erasePart a s).xn = s.xn ∧ (erasePart a s).pw = s.pw ∧ (erasePart a s).sec = s.sec ∧ (erasePart a s).td = s.td ∧ (erasePart a s).cof = s.cof ∧ (erasePart a s).draws = s.draws ∧ (erasePart a s).out = s.out := by
  simp [erasePart]

end Sys2Proof.Machine
end

