-- ==== Sys2Proof/Laws/Resets.lean ====
section
/-! SUPPORT. What the operations of Machine/Resets.lean leave unchanged: the parts of the state that each does not touch. -/
namespace Sys2Proof.Machine

@[simp] theorem muteCmds_frame (a : ℕ) (s : State) :
    (muteCmds a s).pending = s.pending ∧ (muteCmds a s).time = s.time ∧ (muteCmds a s).id = s.id ∧ (muteCmds a s).hi = s.hi ∧ (muteCmds a s).ctxs = s.ctxs ∧ (muteCmds a s).ops = s.ops ∧ (muteCmds a s).exu = s.exu ∧ (muteCmds a s).coll = s.coll ∧ (muteCmds a s).xn = s.xn ∧ (muteCmds a s).pw = s.pw ∧ (muteCmds a s).sec = s.sec ∧ (muteCmds a s).td = s.td ∧ (muteCmds a s).cof = s.cof ∧ (muteCmds a s).draws = s.draws ∧ (muteCmds a s).out = s.out := by
  simp [muteCmds]

@[simp] theorem muteCmds_leaf (a : ℕ) (s : State) :
    (muteCmds a s).mem.dram = s.mem.dram ∧ (muteCmds a s).fab.scratch = s.fab.scratch := by
  simp [muteCmds]

@[simp] theorem resetFunc_frame (a : ℕ) (s : State) :
    (resetFunc a s).pending = s.pending ∧ (resetFunc a s).time = s.time ∧ (resetFunc a s).id = s.id ∧ (resetFunc a s).ctxs = s.ctxs ∧ (resetFunc a s).mem = s.mem ∧ (resetFunc a s).fab = s.fab ∧ (resetFunc a s).srv = s.srv ∧ (resetFunc a s).ops = s.ops ∧ (resetFunc a s).mdl = s.mdl ∧ (resetFunc a s).exu = s.exu ∧ (resetFunc a s).coll = s.coll ∧ (resetFunc a s).xn = s.xn ∧ (resetFunc a s).pw = s.pw ∧ (resetFunc a s).sec = s.sec ∧ (resetFunc a s).td = s.td ∧ (resetFunc a s).cof = s.cof ∧ (resetFunc a s).draws = s.draws ∧ (resetFunc a s).out = s.out := by
  simp [resetFunc]

@[simp] theorem resetFunc_leaf (a : ℕ) (s : State) :
    (resetFunc a s).hi.lock = s.hi.lock := by
  simp [resetFunc]

@[simp] theorem dropAdmits_frame (a : ℕ) (s : State) :
    (dropAdmits a s).pending = s.pending ∧ (dropAdmits a s).time = s.time ∧ (dropAdmits a s).id = s.id ∧ (dropAdmits a s).fab = s.fab ∧ (dropAdmits a s).ops = s.ops ∧ (dropAdmits a s).mdl = s.mdl ∧ (dropAdmits a s).exu = s.exu ∧ (dropAdmits a s).coll = s.coll ∧ (dropAdmits a s).pw = s.pw ∧ (dropAdmits a s).sec = s.sec ∧ (dropAdmits a s).cof = s.cof ∧ (dropAdmits a s).draws = s.draws := by
  simp [dropAdmits]

@[simp] theorem dropAdmits_leaf (a : ℕ) (s : State) :
    (dropAdmits a s).mem.dram = s.mem.dram ∧ (dropAdmits a s).hi.lock = s.hi.lock := by
  simp [dropAdmits]

@[simp] theorem flrCtx_frame (a : ℕ) (s : State) :
    (flrCtx a s).pending = s.pending ∧ (flrCtx a s).time = s.time ∧ (flrCtx a s).id = s.id ∧ (flrCtx a s).sec = s.sec ∧ (flrCtx a s).draws = s.draws := by
  simp (disch := first | (intros; (repeat' split) <;> (simp [-Nat.reducePow]; done)) | (intros; dsimp only; (repeat' split) <;> (simp [-Nat.reducePow]; done)) | assumption) [flrCtx, -Nat.reducePow]

@[simp] theorem flrCtx_leaf (a : ℕ) (s : State) :
    (flrCtx a s).hi.lock = s.hi.lock ∧ (flrCtx a s).pw.st = s.pw.st := by
  simp (disch := first | (intros; (repeat' split) <;> (simp [-Nat.reducePow]; done)) | (intros; dsimp only; (repeat' split) <;> (simp [-Nat.reducePow]; done)) | assumption) [flrCtx, -Nat.reducePow]

@[simp] theorem recordAbandoned_frame (s : State) :
    (recordAbandoned s).pending = s.pending ∧ (recordAbandoned s).time = s.time ∧ (recordAbandoned s).id = s.id ∧ (recordAbandoned s).hi = s.hi ∧ (recordAbandoned s).ctxs = s.ctxs ∧ (recordAbandoned s).mem = s.mem ∧ (recordAbandoned s).fab = s.fab ∧ (recordAbandoned s).srv = s.srv ∧ (recordAbandoned s).ops = s.ops ∧ (recordAbandoned s).mdl = s.mdl ∧ (recordAbandoned s).exu = s.exu ∧ (recordAbandoned s).coll = s.coll ∧ (recordAbandoned s).xn = s.xn ∧ (recordAbandoned s).pw = s.pw ∧ (recordAbandoned s).sec = s.sec ∧ (recordAbandoned s).td = s.td ∧ (recordAbandoned s).draws = s.draws ∧ (recordAbandoned s).out = s.out := by
  simp [recordAbandoned]

@[simp] theorem sendNotices_frame (s : State) :
    (sendNotices s).pending = s.pending ∧ (sendNotices s).time = s.time ∧ (sendNotices s).id = s.id ∧ (sendNotices s).hi = s.hi ∧ (sendNotices s).ctxs = s.ctxs ∧ (sendNotices s).mem = s.mem ∧ (sendNotices s).fab = s.fab ∧ (sendNotices s).srv = s.srv ∧ (sendNotices s).ops = s.ops ∧ (sendNotices s).mdl = s.mdl ∧ (sendNotices s).exu = s.exu ∧ (sendNotices s).coll = s.coll ∧ (sendNotices s).pw = s.pw ∧ (sendNotices s).sec = s.sec ∧ (sendNotices s).cof = s.cof ∧ (sendNotices s).draws = s.draws := by
  simp [sendNotices]

@[simp] theorem resolveInstall_frame (a : ℕ) (s : State) :
    (resolveInstall a s).pending = s.pending ∧ (resolveInstall a s).time = s.time ∧ (resolveInstall a s).id = s.id ∧ (resolveInstall a s).exu = s.exu ∧ (resolveInstall a s).coll = s.coll ∧ (resolveInstall a s).sec = s.sec ∧ (resolveInstall a s).cof = s.cof ∧ (resolveInstall a s).draws = s.draws := by
  simp [resolveInstall]

@[simp] theorem resolveInstall_leaf (a : ℕ) (s : State) :
    (resolveInstall a s).fab.scratch = s.fab.scratch ∧ (resolveInstall a s).hi.lock = s.hi.lock ∧ (resolveInstall a s).pw.st = s.pw.st := by
  simp [resolveInstall]

@[simp] theorem resolveOp_frame (a : ℕ) (s : State) :
    (resolveOp a s).pending = s.pending ∧ (resolveOp a s).time = s.time ∧ (resolveOp a s).id = s.id ∧ (resolveOp a s).mdl = s.mdl ∧ (resolveOp a s).exu = s.exu ∧ (resolveOp a s).coll = s.coll ∧ (resolveOp a s).xn = s.xn ∧ (resolveOp a s).sec = s.sec ∧ (resolveOp a s).cof = s.cof ∧ (resolveOp a s).draws = s.draws := by
  simp only [resolveOp]
  repeat' split
  all_goals simp

@[simp] theorem resolveOp_leaf (a : ℕ) (s : State) :
    (resolveOp a s).fab.scratch = s.fab.scratch ∧ (resolveOp a s).hi.lock = s.hi.lock ∧ (resolveOp a s).pw.st = s.pw.st := by
  simp only [resolveOp]
  repeat' split
  all_goals simp

@[simp] theorem resolveOps_frame (s : State) :
    (resolveOps s).pending = s.pending ∧ (resolveOps s).time = s.time ∧ (resolveOps s).id = s.id ∧ (resolveOps s).exu = s.exu ∧ (resolveOps s).coll = s.coll ∧ (resolveOps s).sec = s.sec ∧ (resolveOps s).cof = s.cof ∧ (resolveOps s).draws = s.draws := by
  simp [resolveOps]

@[simp] theorem resolveOps_leaf (s : State) :
    (resolveOps s).fab.scratch = s.fab.scratch ∧ (resolveOps s).hi.lock = s.hi.lock ∧ (resolveOps s).pw.st = s.pw.st := by
  simp [resolveOps]

@[simp] theorem restartLogs_frame (s : State) :
    (restartLogs s).pending = s.pending ∧ (restartLogs s).time = s.time ∧ (restartLogs s).id = s.id ∧ (restartLogs s).hi = s.hi ∧ (restartLogs s).ctxs = s.ctxs ∧ (restartLogs s).mem = s.mem ∧ (restartLogs s).fab = s.fab ∧ (restartLogs s).srv = s.srv ∧ (restartLogs s).ops = s.ops ∧ (restartLogs s).mdl = s.mdl ∧ (restartLogs s).exu = s.exu ∧ (restartLogs s).coll = s.coll ∧ (restartLogs s).xn = s.xn ∧ (restartLogs s).pw = s.pw ∧ (restartLogs s).td = s.td ∧ (restartLogs s).cof = s.cof ∧ (restartLogs s).draws = s.draws ∧ (restartLogs s).out = s.out := by
  simp [restartLogs]

@[simp] theorem restartLogs_leaf (s : State) :
    (restartLogs s).sec.life = s.sec.life ∧ (restartLogs s).sec.mboxBuf = s.sec.mboxBuf := by
  simp [restartLogs]

@[simp] theorem secureBoot_frame (s : State) :
    (secureBoot s).pending = s.pending ∧ (secureBoot s).time = s.time ∧ (secureBoot s).hi = s.hi ∧ (secureBoot s).ctxs = s.ctxs ∧ (secureBoot s).mem = s.mem ∧ (secureBoot s).fab = s.fab ∧ (secureBoot s).srv = s.srv ∧ (secureBoot s).ops = s.ops ∧ (secureBoot s).mdl = s.mdl ∧ (secureBoot s).exu = s.exu ∧ (secureBoot s).coll = s.coll ∧ (secureBoot s).xn = s.xn ∧ (secureBoot s).td = s.td ∧ (secureBoot s).draws = s.draws ∧ (secureBoot s).out = s.out := by
  simp only [secureBoot]
  repeat' split
  all_goals simp

@[simp] theorem secureBoot_leaf (s : State) :
    (secureBoot s).sec.life = s.sec.life ∧ (secureBoot s).sec.mboxBuf = s.sec.mboxBuf ∧ (secureBoot s).pw.st = s.pw.st := by
  simp only [secureBoot]
  repeat' split
  all_goals simp

@[simp] theorem setupReset_frame (a : HostIf) (s : State) :
    (setupReset a s).pending = s.pending ∧ (setupReset a s).time = s.time ∧ (setupReset a s).id = s.id ∧ (setupReset a s).ops = s.ops ∧ (setupReset a s).cof = s.cof ∧ (setupReset a s).draws = s.draws ∧ (setupReset a s).out = s.out := by
  simp [setupReset]

@[simp] theorem bringIfRunning_frame (s : State) :
    (bringIfRunning s).pending = s.pending ∧ (bringIfRunning s).time = s.time ∧ (bringIfRunning s).id = s.id ∧ (bringIfRunning s).hi = s.hi ∧ (bringIfRunning s).ctxs = s.ctxs ∧ (bringIfRunning s).mem = s.mem ∧ (bringIfRunning s).srv = s.srv ∧ (bringIfRunning s).ops = s.ops ∧ (bringIfRunning s).mdl = s.mdl ∧ (bringIfRunning s).exu = s.exu ∧ (bringIfRunning s).coll = s.coll ∧ (bringIfRunning s).xn = s.xn ∧ (bringIfRunning s).sec = s.sec ∧ (bringIfRunning s).td = s.td ∧ (bringIfRunning s).draws = s.draws ∧ (bringIfRunning s).out = s.out := by
  simp [bringIfRunning]

@[simp] theorem bringIfRunning_leaf (s : State) :
    (bringIfRunning s).fab.scratch = s.fab.scratch ∧ (bringIfRunning s).pw.st = s.pw.st := by
  simp [bringIfRunning]

@[simp] theorem bigReset_frame (a : ℕ) (b : Bool) (s : State) :
    (bigReset a b s).pending = s.pending ∧ (bigReset a b s).time = s.time ∧ (bigReset a b s).id = s.id ∧ (bigReset a b s).draws = s.draws := by
  simp [bigReset]

@[simp] theorem wipeTenants_frame (s : State) :
    (wipeTenants s).pending = s.pending ∧ (wipeTenants s).time = s.time ∧ (wipeTenants s).id = s.id ∧ (wipeTenants s).hi = s.hi ∧ (wipeTenants s).ctxs = s.ctxs ∧ (wipeTenants s).fab = s.fab ∧ (wipeTenants s).ops = s.ops ∧ (wipeTenants s).mdl = s.mdl ∧ (wipeTenants s).exu = s.exu ∧ (wipeTenants s).coll = s.coll ∧ (wipeTenants s).xn = s.xn ∧ (wipeTenants s).pw = s.pw ∧ (wipeTenants s).sec = s.sec ∧ (wipeTenants s).td = s.td ∧ (wipeTenants s).cof = s.cof ∧ (wipeTenants s).draws = s.draws ∧ (wipeTenants s).out = s.out := by
  simp [wipeTenants]

@[simp] theorem warmReset_frame (a : ℕ) (s : State) :
    (warmReset a s).pending = s.pending ∧ (warmReset a s).time = s.time ∧ (warmReset a s).draws = s.draws := by
  simp [warmReset]

@[simp] theorem afterPowerLoss_frame (a : Bool) (s : State) :
    (afterPowerLoss a s).pending = s.pending ∧ (afterPowerLoss a s).id = s.id ∧ (afterPowerLoss a s).draws = s.draws ∧ (afterPowerLoss a s).out = s.out := by
  simp [afterPowerLoss]

@[simp] theorem coldBoot_frame (a : Bool) (b : ℕ) (s : State) :
    (coldBoot a b s).pending = s.pending ∧ (coldBoot a b s).draws = s.draws ∧ (coldBoot a b s).out = s.out := by
  simp [coldBoot]

end Sys2Proof.Machine
end

