-- ==== Sys2Proof/Laws/PowerOps.lean ====
section
/-! SUPPORT. What the operations of Machine/PowerOps.lean leave unchanged: the parts of the state that each does not touch. -/
namespace Sys2Proof.Machine

@[simp] theorem pwRefuse_frame (s : State) :
    (pwRefuse s).pending = s.pending ∧ (pwRefuse s).time = s.time ∧ (pwRefuse s).id = s.id ∧ (pwRefuse s).hi = s.hi ∧ (pwRefuse s).ctxs = s.ctxs ∧ (pwRefuse s).mem = s.mem ∧ (pwRefuse s).fab = s.fab ∧ (pwRefuse s).srv = s.srv ∧ (pwRefuse s).ops = s.ops ∧ (pwRefuse s).mdl = s.mdl ∧ (pwRefuse s).exu = s.exu ∧ (pwRefuse s).coll = s.coll ∧ (pwRefuse s).xn = s.xn ∧ (pwRefuse s).sec = s.sec ∧ (pwRefuse s).td = s.td ∧ (pwRefuse s).cof = s.cof ∧ (pwRefuse s).draws = s.draws ∧ (pwRefuse s).out = s.out := by
  simp [pwRefuse]

@[simp] theorem pwRefuse_leaf (s : State) :
    (pwRefuse s).pw.st = s.pw.st := by
  simp [pwRefuse]

@[simp] theorem writeCap_frame (a : Word) (s : State) :
    (writeCap a s).pending = s.pending ∧ (writeCap a s).time = s.time ∧ (writeCap a s).id = s.id ∧ (writeCap a s).ops = s.ops ∧ (writeCap a s).coll = s.coll ∧ (writeCap a s).sec = s.sec ∧ (writeCap a s).draws = s.draws := by
  simp [writeCap]

@[simp] theorem writeCap_leaf (a : Word) (s : State) :
    (writeCap a s).fab.scratch = s.fab.scratch ∧ (writeCap a s).hi.lock = s.hi.lock ∧ (writeCap a s).pw.st = s.pw.st := by
  simp [writeCap]

@[simp] theorem setFloor_frame (a : ℕ) (s : State) :
    (setFloor a s).pending = s.pending ∧ (setFloor a s).time = s.time ∧ (setFloor a s).id = s.id ∧ (setFloor a s).ops = s.ops ∧ (setFloor a s).coll = s.coll ∧ (setFloor a s).sec = s.sec ∧ (setFloor a s).draws = s.draws := by
  simp [setFloor]

@[simp] theorem setFloor_leaf (a : ℕ) (s : State) :
    (setFloor a s).fab.scratch = s.fab.scratch ∧ (setFloor a s).hi.lock = s.hi.lock ∧ (setFloor a s).pw.st = s.pw.st := by
  simp [setFloor]

@[simp] theorem writeFloor_frame (a : Word) (s : State) :
    (writeFloor a s).pending = s.pending ∧ (writeFloor a s).time = s.time ∧ (writeFloor a s).id = s.id ∧ (writeFloor a s).ops = s.ops ∧ (writeFloor a s).coll = s.coll ∧ (writeFloor a s).sec = s.sec ∧ (writeFloor a s).draws = s.draws := by
  simp [writeFloor]

@[simp] theorem writeFloor_leaf (a : Word) (s : State) :
    (writeFloor a s).fab.scratch = s.fab.scratch ∧ (writeFloor a s).hi.lock = s.hi.lock ∧ (writeFloor a s).pw.st = s.pw.st := by
  simp [writeFloor]

@[simp] theorem writeRamp_frame (a : Word) (s : State) :
    (writeRamp a s).pending = s.pending ∧ (writeRamp a s).time = s.time ∧ (writeRamp a s).id = s.id ∧ (writeRamp a s).ctxs = s.ctxs ∧ (writeRamp a s).mem = s.mem ∧ (writeRamp a s).fab = s.fab ∧ (writeRamp a s).srv = s.srv ∧ (writeRamp a s).ops = s.ops ∧ (writeRamp a s).mdl = s.mdl ∧ (writeRamp a s).exu = s.exu ∧ (writeRamp a s).coll = s.coll ∧ (writeRamp a s).xn = s.xn ∧ (writeRamp a s).sec = s.sec ∧ (writeRamp a s).td = s.td ∧ (writeRamp a s).cof = s.cof ∧ (writeRamp a s).draws = s.draws ∧ (writeRamp a s).out = s.out := by
  simp [writeRamp]

@[simp] theorem writeRamp_leaf (a : Word) (s : State) :
    (writeRamp a s).hi.lock = s.hi.lock ∧ (writeRamp a s).pw.st = s.pw.st := by
  simp [writeRamp]

@[simp] theorem writePhase_frame (a : Word) (s : State) :
    (writePhase a s).pending = s.pending ∧ (writePhase a s).time = s.time ∧ (writePhase a s).id = s.id ∧ (writePhase a s).ops = s.ops ∧ (writePhase a s).coll = s.coll ∧ (writePhase a s).sec = s.sec ∧ (writePhase a s).cof = s.cof ∧ (writePhase a s).draws = s.draws := by
  simp [writePhase]

@[simp] theorem writePhase_leaf (a : Word) (s : State) :
    (writePhase a s).fab.scratch = s.fab.scratch ∧ (writePhase a s).hi.lock = s.hi.lock ∧ (writePhase a s).pw.st = s.pw.st := by
  simp [writePhase]

@[simp] theorem writeOp_frame (a : ℕ) (b : Word) (s : State) :
    (writeOp a b s).pending = s.pending ∧ (writeOp a b s).time = s.time ∧ (writeOp a b s).id = s.id ∧ (writeOp a b s).ops = s.ops ∧ (writeOp a b s).coll = s.coll ∧ (writeOp a b s).sec = s.sec ∧ (writeOp a b s).cof = s.cof ∧ (writeOp a b s).draws = s.draws := by
  simp only [writeOp]
  repeat' split
  all_goals simp

@[simp] theorem writeOp_leaf (a : ℕ) (b : Word) (s : State) :
    (writeOp a b s).fab.scratch = s.fab.scratch ∧ (writeOp a b s).hi.lock = s.hi.lock ∧ (writeOp a b s).pw.st = s.pw.st := by
  simp only [writeOp]
  repeat' split
  all_goals simp

@[simp] theorem entitleOn_frame (a : ℕ) (b : ℕ) (s : State) :
    (entitleOn a b s).pending = s.pending ∧ (entitleOn a b s).time = s.time ∧ (entitleOn a b s).id = s.id ∧ (entitleOn a b s).hi = s.hi ∧ (entitleOn a b s).ctxs = s.ctxs ∧ (entitleOn a b s).mem = s.mem ∧ (entitleOn a b s).ops = s.ops ∧ (entitleOn a b s).mdl = s.mdl ∧ (entitleOn a b s).exu = s.exu ∧ (entitleOn a b s).coll = s.coll ∧ (entitleOn a b s).xn = s.xn ∧ (entitleOn a b s).pw = s.pw ∧ (entitleOn a b s).sec = s.sec ∧ (entitleOn a b s).td = s.td ∧ (entitleOn a b s).cof = s.cof ∧ (entitleOn a b s).draws = s.draws ∧ (entitleOn a b s).out = s.out := by
  simp [entitleOn]

@[simp] theorem entitleOn_leaf (a : ℕ) (b : ℕ) (s : State) :
    (entitleOn a b s).fab.scratch = s.fab.scratch := by
  simp [entitleOn]

@[simp] theorem entitleJob_frame (a : ℕ) (s : State) :
    (entitleJob a s).pending = s.pending ∧ (entitleJob a s).time = s.time ∧ (entitleJob a s).id = s.id ∧ (entitleJob a s).hi = s.hi ∧ (entitleJob a s).ctxs = s.ctxs ∧ (entitleJob a s).mem = s.mem ∧ (entitleJob a s).ops = s.ops ∧ (entitleJob a s).mdl = s.mdl ∧ (entitleJob a s).exu = s.exu ∧ (entitleJob a s).coll = s.coll ∧ (entitleJob a s).xn = s.xn ∧ (entitleJob a s).pw = s.pw ∧ (entitleJob a s).sec = s.sec ∧ (entitleJob a s).td = s.td ∧ (entitleJob a s).cof = s.cof ∧ (entitleJob a s).draws = s.draws ∧ (entitleJob a s).out = s.out := by
  simp [entitleJob]

@[simp] theorem entitleJob_leaf (a : ℕ) (s : State) :
    (entitleJob a s).fab.scratch = s.fab.scratch := by
  simp [entitleJob]

@[simp] theorem droopWindow_frame (a : ℕ) (s : State) :
    (droopWindow a s).pending = s.pending ∧ (droopWindow a s).time = s.time ∧ (droopWindow a s).id = s.id ∧ (droopWindow a s).hi = s.hi ∧ (droopWindow a s).ctxs = s.ctxs ∧ (droopWindow a s).mem = s.mem ∧ (droopWindow a s).srv = s.srv ∧ (droopWindow a s).ops = s.ops ∧ (droopWindow a s).mdl = s.mdl ∧ (droopWindow a s).exu = s.exu ∧ (droopWindow a s).coll = s.coll ∧ (droopWindow a s).xn = s.xn ∧ (droopWindow a s).pw = s.pw ∧ (droopWindow a s).sec = s.sec ∧ (droopWindow a s).td = s.td ∧ (droopWindow a s).cof = s.cof ∧ (droopWindow a s).draws = s.draws ∧ (droopWindow a s).out = s.out := by
  simp [droopWindow]

@[simp] theorem droopWindow_leaf (a : ℕ) (s : State) :
    (droopWindow a s).fab.scratch = s.fab.scratch := by
  simp [droopWindow]

@[simp] theorem takeReading_frame (a : ℕ × Option ℕ) (s : State) :
    (takeReading a s).pending = s.pending ∧ (takeReading a s).time = s.time ∧ (takeReading a s).id = s.id ∧ (takeReading a s).hi = s.hi ∧ (takeReading a s).ctxs = s.ctxs ∧ (takeReading a s).mem = s.mem ∧ (takeReading a s).fab = s.fab ∧ (takeReading a s).srv = s.srv ∧ (takeReading a s).ops = s.ops ∧ (takeReading a s).mdl = s.mdl ∧ (takeReading a s).exu = s.exu ∧ (takeReading a s).coll = s.coll ∧ (takeReading a s).xn = s.xn ∧ (takeReading a s).sec = s.sec ∧ (takeReading a s).draws = s.draws := by
  simp only [takeReading]
  repeat' split
  all_goals simp

@[simp] theorem takeReading_leaf (a : ℕ × Option ℕ) (s : State) :
    (takeReading a s).pw.st = s.pw.st := by
  simp only [takeReading]
  repeat' split
  all_goals simp

@[simp] theorem integrate_frame (s : State) :
    (integrate s).pending = s.pending ∧ (integrate s).time = s.time ∧ (integrate s).id = s.id ∧ (integrate s).hi = s.hi ∧ (integrate s).ctxs = s.ctxs ∧ (integrate s).mem = s.mem ∧ (integrate s).fab = s.fab ∧ (integrate s).srv = s.srv ∧ (integrate s).ops = s.ops ∧ (integrate s).mdl = s.mdl ∧ (integrate s).exu = s.exu ∧ (integrate s).coll = s.coll ∧ (integrate s).xn = s.xn ∧ (integrate s).sec = s.sec ∧ (integrate s).td = s.td ∧ (integrate s).cof = s.cof ∧ (integrate s).draws = s.draws := by
  simp [integrate]

@[simp] theorem integrate_leaf (s : State) :
    (integrate s).pw.st = s.pw.st := by
  simp [integrate]

@[simp] theorem takePower_frame (a : ℕ) (s : State) :
    (takePower a s).pending = s.pending ∧ (takePower a s).time = s.time ∧ (takePower a s).id = s.id ∧ (takePower a s).hi = s.hi ∧ (takePower a s).ctxs = s.ctxs ∧ (takePower a s).mem = s.mem ∧ (takePower a s).fab = s.fab ∧ (takePower a s).srv = s.srv ∧ (takePower a s).ops = s.ops ∧ (takePower a s).mdl = s.mdl ∧ (takePower a s).exu = s.exu ∧ (takePower a s).coll = s.coll ∧ (takePower a s).xn = s.xn ∧ (takePower a s).sec = s.sec ∧ (takePower a s).td = s.td ∧ (takePower a s).cof = s.cof ∧ (takePower a s).draws = s.draws ∧ (takePower a s).out = s.out := by
  simp [takePower]

@[simp] theorem takePower_leaf (a : ℕ) (s : State) :
    (takePower a s).pw.st = s.pw.st := by
  simp [takePower]

@[simp] theorem fitField_frame (a : ℕ) (b : ThermFit) (c : ℕ) (s : State) :
    (fitField a b c s).pending = s.pending ∧ (fitField a b c s).time = s.time ∧ (fitField a b c s).id = s.id ∧ (fitField a b c s).hi = s.hi ∧ (fitField a b c s).ctxs = s.ctxs ∧ (fitField a b c s).mem = s.mem ∧ (fitField a b c s).srv = s.srv ∧ (fitField a b c s).ops = s.ops ∧ (fitField a b c s).mdl = s.mdl ∧ (fitField a b c s).exu = s.exu ∧ (fitField a b c s).coll = s.coll ∧ (fitField a b c s).xn = s.xn ∧ (fitField a b c s).sec = s.sec ∧ (fitField a b c s).td = s.td ∧ (fitField a b c s).cof = s.cof ∧ (fitField a b c s).draws = s.draws ∧ (fitField a b c s).out = s.out := by
  simp [fitField]

@[simp] theorem fitField_leaf (a : ℕ) (b : ThermFit) (c : ℕ) (s : State) :
    (fitField a b c s).fab.scratch = s.fab.scratch ∧ (fitField a b c s).pw.st = s.pw.st := by
  simp [fitField]

@[simp] theorem writeSchedCtrl_frame (a : Word) (s : State) :
    (writeSchedCtrl a s).pending = s.pending ∧ (writeSchedCtrl a s).time = s.time ∧ (writeSchedCtrl a s).id = s.id ∧ (writeSchedCtrl a s).hi = s.hi ∧ (writeSchedCtrl a s).ctxs = s.ctxs ∧ (writeSchedCtrl a s).mem = s.mem ∧ (writeSchedCtrl a s).srv = s.srv ∧ (writeSchedCtrl a s).ops = s.ops ∧ (writeSchedCtrl a s).mdl = s.mdl ∧ (writeSchedCtrl a s).exu = s.exu ∧ (writeSchedCtrl a s).coll = s.coll ∧ (writeSchedCtrl a s).xn = s.xn ∧ (writeSchedCtrl a s).pw = s.pw ∧ (writeSchedCtrl a s).sec = s.sec ∧ (writeSchedCtrl a s).td = s.td ∧ (writeSchedCtrl a s).cof = s.cof ∧ (writeSchedCtrl a s).draws = s.draws ∧ (writeSchedCtrl a s).out = s.out := by
  simp [writeSchedCtrl]

@[simp] theorem writeSchedCtrl_leaf (a : Word) (s : State) :
    (writeSchedCtrl a s).fab.scratch = s.fab.scratch := by
  simp [writeSchedCtrl]

@[simp] theorem startExit_frame (s : State) :
    (startExit s).pending = s.pending ∧ (startExit s).time = s.time ∧ (startExit s).id = s.id ∧ (startExit s).hi = s.hi ∧ (startExit s).ctxs = s.ctxs ∧ (startExit s).mem = s.mem ∧ (startExit s).fab = s.fab ∧ (startExit s).srv = s.srv ∧ (startExit s).ops = s.ops ∧ (startExit s).mdl = s.mdl ∧ (startExit s).exu = s.exu ∧ (startExit s).coll = s.coll ∧ (startExit s).xn = s.xn ∧ (startExit s).sec = s.sec ∧ (startExit s).td = s.td ∧ (startExit s).cof = s.cof ∧ (startExit s).draws = s.draws ∧ (startExit s).out = s.out := by
  simp [startExit]

@[simp] theorem wake_frame (s : State) :
    (wake s).pending = s.pending ∧ (wake s).draws = s.draws ∧ (wake s).out = s.out := by
  simp [wake]

@[simp] theorem requestRun_frame (s : State) :
    (requestRun s).pending = s.pending ∧ (requestRun s).time = s.time ∧ (requestRun s).id = s.id ∧ (requestRun s).exu = s.exu ∧ (requestRun s).coll = s.coll ∧ (requestRun s).cof = s.cof ∧ (requestRun s).draws = s.draws := by
  simp [requestRun]

@[simp] theorem requestRun_leaf (s : State) :
    (requestRun s).fab.scratch = s.fab.scratch ∧ (requestRun s).hi.lock = s.hi.lock ∧ (requestRun s).sec.life = s.sec.life ∧ (requestRun s).sec.mboxBuf = s.sec.mboxBuf := by
  simp [requestRun]

@[simp] theorem requestLow_frame (a : PState) (s : State) :
    (requestLow a s).pending = s.pending ∧ (requestLow a s).time = s.time ∧ (requestLow a s).id = s.id ∧ (requestLow a s).hi = s.hi ∧ (requestLow a s).ctxs = s.ctxs ∧ (requestLow a s).mem = s.mem ∧ (requestLow a s).fab = s.fab ∧ (requestLow a s).srv = s.srv ∧ (requestLow a s).ops = s.ops ∧ (requestLow a s).mdl = s.mdl ∧ (requestLow a s).exu = s.exu ∧ (requestLow a s).coll = s.coll ∧ (requestLow a s).xn = s.xn ∧ (requestLow a s).sec = s.sec ∧ (requestLow a s).td = s.td ∧ (requestLow a s).cof = s.cof ∧ (requestLow a s).draws = s.draws ∧ (requestLow a s).out = s.out := by
  simp [requestLow]

@[simp] theorem requestLow_leaf (a : PState) (s : State) :
    (requestLow a s).pw.st = s.pw.st := by
  simp [requestLow]

@[simp] theorem requestOf_frame (a : ℕ) (s : State) :
    (requestOf a s).pending = s.pending ∧ (requestOf a s).time = s.time ∧ (requestOf a s).id = s.id ∧ (requestOf a s).exu = s.exu ∧ (requestOf a s).coll = s.coll ∧ (requestOf a s).cof = s.cof ∧ (requestOf a s).draws = s.draws := by
  simp [requestOf]

@[simp] theorem requestOf_leaf (a : ℕ) (s : State) :
    (requestOf a s).fab.scratch = s.fab.scratch ∧ (requestOf a s).hi.lock = s.hi.lock ∧ (requestOf a s).sec.life = s.sec.life ∧ (requestOf a s).sec.mboxBuf = s.sec.mboxBuf := by
  simp [requestOf]

@[simp] theorem writeReq_frame (a : ℕ) (s : State) :
    (writeReq a s).pending = s.pending ∧ (writeReq a s).time = s.time ∧ (writeReq a s).id = s.id ∧ (writeReq a s).exu = s.exu ∧ (writeReq a s).coll = s.coll ∧ (writeReq a s).cof = s.cof ∧ (writeReq a s).draws = s.draws := by
  simp [writeReq]

@[simp] theorem writeReq_leaf (a : ℕ) (s : State) :
    (writeReq a s).fab.scratch = s.fab.scratch ∧ (writeReq a s).hi.lock = s.hi.lock ∧ (writeReq a s).sec.life = s.sec.life ∧ (writeReq a s).sec.mboxBuf = s.sec.mboxBuf := by
  simp [writeReq]

@[simp] theorem downPort_frame (a : ℕ) (s : State) :
    (downPort a s).pending = s.pending ∧ (downPort a s).time = s.time ∧ (downPort a s).id = s.id ∧ (downPort a s).fab = s.fab ∧ (downPort a s).ops = s.ops ∧ (downPort a s).coll = s.coll ∧ (downPort a s).pw = s.pw ∧ (downPort a s).sec = s.sec ∧ (downPort a s).cof = s.cof ∧ (downPort a s).draws = s.draws := by
  simp [downPort]

@[simp] theorem downPort_leaf (a : ℕ) (s : State) :
    (downPort a s).hi.lock = s.hi.lock := by
  simp [downPort]

@[simp] theorem portsDown_frame (s : State) :
    (portsDown s).pending = s.pending ∧ (portsDown s).time = s.time ∧ (portsDown s).id = s.id ∧ (portsDown s).fab = s.fab ∧ (portsDown s).ops = s.ops ∧ (portsDown s).coll = s.coll ∧ (portsDown s).pw = s.pw ∧ (portsDown s).sec = s.sec ∧ (portsDown s).cof = s.cof ∧ (portsDown s).draws = s.draws := by
  simp [portsDown]

@[simp] theorem portsDown_leaf (s : State) :
    (portsDown s).hi.lock = s.hi.lock := by
  simp [portsDown]

@[simp] theorem railsOff_frame (s : State) :
    (railsOff s).pending = s.pending ∧ (railsOff s).time = s.time ∧ (railsOff s).id = s.id ∧ (railsOff s).hi = s.hi ∧ (railsOff s).ctxs = s.ctxs ∧ (railsOff s).mem = s.mem ∧ (railsOff s).srv = s.srv ∧ (railsOff s).ops = s.ops ∧ (railsOff s).mdl = s.mdl ∧ (railsOff s).exu = s.exu ∧ (railsOff s).coll = s.coll ∧ (railsOff s).xn = s.xn ∧ (railsOff s).pw = s.pw ∧ (railsOff s).sec = s.sec ∧ (railsOff s).td = s.td ∧ (railsOff s).cof = s.cof ∧ (railsOff s).draws = s.draws ∧ (railsOff s).out = s.out := by
  simp [railsOff]

@[simp] theorem railsOff_leaf (s : State) :
    (railsOff s).fab.scratch = s.fab.scratch := by
  simp [railsOff]

@[simp] theorem inState_frame (a : PState) (s : State) :
    (inState a s).pending = s.pending ∧ (inState a s).time = s.time ∧ (inState a s).id = s.id ∧ (inState a s).hi = s.hi ∧ (inState a s).ctxs = s.ctxs ∧ (inState a s).mem = s.mem ∧ (inState a s).fab = s.fab ∧ (inState a s).srv = s.srv ∧ (inState a s).ops = s.ops ∧ (inState a s).mdl = s.mdl ∧ (inState a s).exu = s.exu ∧ (inState a s).coll = s.coll ∧ (inState a s).xn = s.xn ∧ (inState a s).sec = s.sec ∧ (inState a s).td = s.td ∧ (inState a s).cof = s.cof ∧ (inState a s).draws = s.draws ∧ (inState a s).out = s.out := by
  simp [inState]

@[simp] theorem enterDeep_frame (s : State) :
    (enterDeep s).pending = s.pending ∧ (enterDeep s).time = s.time ∧ (enterDeep s).id = s.id ∧ (enterDeep s).draws = s.draws := by
  simp [enterDeep]

@[simp] theorem leaveLow_frame (s : State) :
    (leaveLow s).pending = s.pending ∧ (leaveLow s).time = s.time ∧ (leaveLow s).id = s.id ∧ (leaveLow s).coll = s.coll ∧ (leaveLow s).draws = s.draws := by
  simp [leaveLow]

@[simp] theorem leaveLow_leaf (s : State) :
    (leaveLow s).fab.scratch = s.fab.scratch ∧ (leaveLow s).sec.life = s.sec.life ∧ (leaveLow s).sec.mboxBuf = s.sec.mboxBuf := by
  simp [leaveLow]

@[simp] theorem stopSteps_frame (s : State) :
    (stopSteps s).pending = s.pending ∧ (stopSteps s).time = s.time ∧ (stopSteps s).id = s.id ∧ (stopSteps s).hi = s.hi ∧ (stopSteps s).mem = s.mem ∧ (stopSteps s).ops = s.ops ∧ (stopSteps s).mdl = s.mdl ∧ (stopSteps s).exu = s.exu ∧ (stopSteps s).coll = s.coll ∧ (stopSteps s).xn = s.xn ∧ (stopSteps s).sec = s.sec ∧ (stopSteps s).cof = s.cof ∧ (stopSteps s).draws = s.draws := by
  simp (disch := first | (intros; (repeat' split) <;> (simp [-Nat.reducePow]; done)) | (intros; dsimp only; (repeat' split) <;> (simp [-Nat.reducePow]; done)) | assumption) [stopSteps, -Nat.reducePow]

@[simp] theorem stopSteps_leaf (s : State) :
    (stopSteps s).fab.scratch = s.fab.scratch ∧ (stopSteps s).pw.st = s.pw.st := by
  simp (disch := first | (intros; (repeat' split) <;> (simp [-Nat.reducePow]; done)) | (intros; dsimp only; (repeat' split) <;> (simp [-Nat.reducePow]; done)) | assumption) [stopSteps, -Nat.reducePow]

end Sys2Proof.Machine
end

