-- ==== Sys2Proof/Laws/Registers.lean ====
section
/-! SUPPORT. What the operations of Machine/Registers.lean leave unchanged: the parts of the state that each does not touch. -/
namespace Sys2Proof.Machine

@[simp] theorem holdLo_frame (a : ℕ) (b : ℕ) (c : Word) (s : State) :
    (holdLo a b c s).pending = s.pending ∧ (holdLo a b c s).time = s.time ∧ (holdLo a b c s).id = s.id ∧ (holdLo a b c s).ctxs = s.ctxs ∧ (holdLo a b c s).mem = s.mem ∧ (holdLo a b c s).fab = s.fab ∧ (holdLo a b c s).srv = s.srv ∧ (holdLo a b c s).ops = s.ops ∧ (holdLo a b c s).mdl = s.mdl ∧ (holdLo a b c s).exu = s.exu ∧ (holdLo a b c s).coll = s.coll ∧ (holdLo a b c s).xn = s.xn ∧ (holdLo a b c s).pw = s.pw ∧ (holdLo a b c s).sec = s.sec ∧ (holdLo a b c s).td = s.td ∧ (holdLo a b c s).cof = s.cof ∧ (holdLo a b c s).draws = s.draws ∧ (holdLo a b c s).out = s.out := by
  simp [holdLo]

@[simp] theorem holdLo_leaf (a : ℕ) (b : ℕ) (c : Word) (s : State) :
    (holdLo a b c s).hi.lock = s.hi.lock := by
  simp [holdLo]

@[simp] theorem dropLo_frame (a : ℕ) (b : ℕ) (s : State) :
    (dropLo a b s).pending = s.pending ∧ (dropLo a b s).time = s.time ∧ (dropLo a b s).id = s.id ∧ (dropLo a b s).ctxs = s.ctxs ∧ (dropLo a b s).mem = s.mem ∧ (dropLo a b s).fab = s.fab ∧ (dropLo a b s).srv = s.srv ∧ (dropLo a b s).ops = s.ops ∧ (dropLo a b s).mdl = s.mdl ∧ (dropLo a b s).exu = s.exu ∧ (dropLo a b s).coll = s.coll ∧ (dropLo a b s).xn = s.xn ∧ (dropLo a b s).pw = s.pw ∧ (dropLo a b s).sec = s.sec ∧ (dropLo a b s).td = s.td ∧ (dropLo a b s).cof = s.cof ∧ (dropLo a b s).draws = s.draws ∧ (dropLo a b s).out = s.out := by
  simp [dropLo]

@[simp] theorem dropLo_leaf (a : ℕ) (b : ℕ) (s : State) :
    (dropLo a b s).hi.lock = s.hi.lock := by
  simp [dropLo]

@[simp] theorem setupGuard_pending (a : ℕ) (b : State → State) (s : State) (h : ∀ s, (b s).pending = s.pending) :
    (setupGuard a b s).pending = s.pending := by
  unfold setupGuard; (try dsimp only); (repeat' split) <;> first | (simp [h]; done) | simp_all

@[simp] theorem setupGuard_time (a : ℕ) (b : State → State) (s : State) (h : ∀ s, (b s).time = s.time) :
    (setupGuard a b s).time = s.time := by
  unfold setupGuard; (try dsimp only); (repeat' split) <;> first | (simp [h]; done) | simp_all

@[simp] theorem setupGuard_id (a : ℕ) (b : State → State) (s : State) (h : ∀ s, (b s).id = s.id) :
    (setupGuard a b s).id = s.id := by
  unfold setupGuard; (try dsimp only); (repeat' split) <;> first | (simp [h]; done) | simp_all

@[simp] theorem setupGuard_hi (a : ℕ) (b : State → State) (s : State) (h : ∀ s, (b s).hi = s.hi) :
    (setupGuard a b s).hi = s.hi := by
  unfold setupGuard; (try dsimp only); (repeat' split) <;> first | (simp [h]; done) | simp_all

@[simp] theorem setupGuard_mem (a : ℕ) (b : State → State) (s : State) (h : ∀ s, (b s).mem = s.mem) :
    (setupGuard a b s).mem = s.mem := by
  unfold setupGuard; (try dsimp only); (repeat' split) <;> first | (simp [h]; done) | simp_all

@[simp] theorem setupGuard_fab (a : ℕ) (b : State → State) (s : State) (h : ∀ s, (b s).fab = s.fab) :
    (setupGuard a b s).fab = s.fab := by
  unfold setupGuard; (try dsimp only); (repeat' split) <;> first | (simp [h]; done) | simp_all

@[simp] theorem setupGuard_srv (a : ℕ) (b : State → State) (s : State) (h : ∀ s, (b s).srv = s.srv) :
    (setupGuard a b s).srv = s.srv := by
  unfold setupGuard; (try dsimp only); (repeat' split) <;> first | (simp [h]; done) | simp_all

@[simp] theorem setupGuard_ops (a : ℕ) (b : State → State) (s : State) (h : ∀ s, (b s).ops = s.ops) :
    (setupGuard a b s).ops = s.ops := by
  unfold setupGuard; (try dsimp only); (repeat' split) <;> first | (simp [h]; done) | simp_all

@[simp] theorem setupGuard_mdl (a : ℕ) (b : State → State) (s : State) (h : ∀ s, (b s).mdl = s.mdl) :
    (setupGuard a b s).mdl = s.mdl := by
  unfold setupGuard; (try dsimp only); (repeat' split) <;> first | (simp [h]; done) | simp_all

@[simp] theorem setupGuard_exu (a : ℕ) (b : State → State) (s : State) (h : ∀ s, (b s).exu = s.exu) :
    (setupGuard a b s).exu = s.exu := by
  unfold setupGuard; (try dsimp only); (repeat' split) <;> first | (simp [h]; done) | simp_all

@[simp] theorem setupGuard_coll (a : ℕ) (b : State → State) (s : State) (h : ∀ s, (b s).coll = s.coll) :
    (setupGuard a b s).coll = s.coll := by
  unfold setupGuard; (try dsimp only); (repeat' split) <;> first | (simp [h]; done) | simp_all

@[simp] theorem setupGuard_xn (a : ℕ) (b : State → State) (s : State) (h : ∀ s, (b s).xn = s.xn) :
    (setupGuard a b s).xn = s.xn := by
  unfold setupGuard; (try dsimp only); (repeat' split) <;> first | (simp [h]; done) | simp_all

@[simp] theorem setupGuard_pw (a : ℕ) (b : State → State) (s : State) (h : ∀ s, (b s).pw = s.pw) :
    (setupGuard a b s).pw = s.pw := by
  unfold setupGuard; (try dsimp only); (repeat' split) <;> first | (simp [h]; done) | simp_all

@[simp] theorem setupGuard_sec (a : ℕ) (b : State → State) (s : State) (h : ∀ s, (b s).sec = s.sec) :
    (setupGuard a b s).sec = s.sec := by
  unfold setupGuard; (try dsimp only); (repeat' split) <;> first | (simp [h]; done) | simp_all

@[simp] theorem setupGuard_td (a : ℕ) (b : State → State) (s : State) (h : ∀ s, (b s).td = s.td) :
    (setupGuard a b s).td = s.td := by
  unfold setupGuard; (try dsimp only); (repeat' split) <;> first | (simp [h]; done) | simp_all

@[simp] theorem setupGuard_cof (a : ℕ) (b : State → State) (s : State) (h : ∀ s, (b s).cof = s.cof) :
    (setupGuard a b s).cof = s.cof := by
  unfold setupGuard; (try dsimp only); (repeat' split) <;> first | (simp [h]; done) | simp_all

@[simp] theorem setupGuard_draws (a : ℕ) (b : State → State) (s : State) (h : ∀ s, (b s).draws = s.draws) :
    (setupGuard a b s).draws = s.draws := by
  unfold setupGuard; (try dsimp only); (repeat' split) <;> first | (simp [h]; done) | simp_all

@[simp] theorem setupGuard_out (a : ℕ) (b : State → State) (s : State) (h : ∀ s, (b s).out = s.out) :
    (setupGuard a b s).out = s.out := by
  unfold setupGuard; (try dsimp only); (repeat' split) <;> first | (simp [h]; done) | simp_all

@[simp] theorem setupGuard_mem_dram (a : ℕ) (b : State → State) (s : State) (h : ∀ s, (b s).mem.dram = s.mem.dram) :
    (setupGuard a b s).mem.dram = s.mem.dram := by
  unfold setupGuard; (try dsimp only); (repeat' split) <;> first | (simp [h]; done) | simp_all

@[simp] theorem setupGuard_fab_scratch (a : ℕ) (b : State → State) (s : State) (h : ∀ s, (b s).fab.scratch = s.fab.scratch) :
    (setupGuard a b s).fab.scratch = s.fab.scratch := by
  unfold setupGuard; (try dsimp only); (repeat' split) <;> first | (simp [h]; done) | simp_all

@[simp] theorem setupGuard_hi_lock (a : ℕ) (b : State → State) (s : State) (h : ∀ s, (b s).hi.lock = s.hi.lock) :
    (setupGuard a b s).hi.lock = s.hi.lock := by
  unfold setupGuard; (try dsimp only); (repeat' split) <;> first | (simp [h]; done) | simp_all

@[simp] theorem setupGuard_sec_life (a : ℕ) (b : State → State) (s : State) (h : ∀ s, (b s).sec.life = s.sec.life) :
    (setupGuard a b s).sec.life = s.sec.life := by
  unfold setupGuard; (try dsimp only); (repeat' split) <;> first | (simp [h]; done) | simp_all

@[simp] theorem setupGuard_sec_mboxBuf (a : ℕ) (b : State → State) (s : State) (h : ∀ s, (b s).sec.mboxBuf = s.sec.mboxBuf) :
    (setupGuard a b s).sec.mboxBuf = s.sec.mboxBuf := by
  unfold setupGuard; (try dsimp only); (repeat' split) <;> first | (simp [h]; done) | simp_all

@[simp] theorem setupGuard_pw_st (a : ℕ) (b : State → State) (s : State) (h : ∀ s, (b s).pw.st = s.pw.st) :
    (setupGuard a b s).pw.st = s.pw.st := by
  unfold setupGuard; (try dsimp only); (repeat' split) <;> first | (simp [h]; done) | simp_all

@[simp] theorem writeCxCtrl_frame (a : ℕ) (b : Word) (s : State) :
    (writeCxCtrl a b s).pending = s.pending ∧ (writeCxCtrl a b s).time = s.time ∧ (writeCxCtrl a b s).id = s.id ∧ (writeCxCtrl a b s).mem = s.mem ∧ (writeCxCtrl a b s).fab = s.fab ∧ (writeCxCtrl a b s).srv = s.srv ∧ (writeCxCtrl a b s).mdl = s.mdl ∧ (writeCxCtrl a b s).exu = s.exu ∧ (writeCxCtrl a b s).coll = s.coll ∧ (writeCxCtrl a b s).xn = s.xn ∧ (writeCxCtrl a b s).pw = s.pw ∧ (writeCxCtrl a b s).sec = s.sec ∧ (writeCxCtrl a b s).cof = s.cof ∧ (writeCxCtrl a b s).draws = s.draws := by
  simp [writeCxCtrl]

@[simp] theorem writeCxCtrl_leaf (a : ℕ) (b : Word) (s : State) :
    (writeCxCtrl a b s).hi.lock = s.hi.lock := by
  simp [writeCxCtrl]

@[simp] theorem modRing_frame (a : ℕ) (b : ℕ) (c : RingCfg → RingCfg) (s : State) :
    (modRing a b c s).pending = s.pending ∧ (modRing a b c s).time = s.time ∧ (modRing a b c s).id = s.id ∧ (modRing a b c s).hi = s.hi ∧ (modRing a b c s).mem = s.mem ∧ (modRing a b c s).fab = s.fab ∧ (modRing a b c s).srv = s.srv ∧ (modRing a b c s).ops = s.ops ∧ (modRing a b c s).mdl = s.mdl ∧ (modRing a b c s).exu = s.exu ∧ (modRing a b c s).coll = s.coll ∧ (modRing a b c s).xn = s.xn ∧ (modRing a b c s).pw = s.pw ∧ (modRing a b c s).sec = s.sec ∧ (modRing a b c s).td = s.td ∧ (modRing a b c s).cof = s.cof ∧ (modRing a b c s).draws = s.draws ∧ (modRing a b c s).out = s.out := by
  simp [modRing]

@[simp] theorem setSetupPair_frame (a : ℕ) (b : ℕ) (c : Word) (d : Word) (s : State) :
    (setSetupPair a b c d s).pending = s.pending ∧ (setSetupPair a b c d s).time = s.time ∧ (setSetupPair a b c d s).id = s.id ∧ (setSetupPair a b c d s).hi = s.hi ∧ (setSetupPair a b c d s).mem = s.mem ∧ (setSetupPair a b c d s).fab = s.fab ∧ (setSetupPair a b c d s).srv = s.srv ∧ (setSetupPair a b c d s).ops = s.ops ∧ (setSetupPair a b c d s).mdl = s.mdl ∧ (setSetupPair a b c d s).exu = s.exu ∧ (setSetupPair a b c d s).coll = s.coll ∧ (setSetupPair a b c d s).xn = s.xn ∧ (setSetupPair a b c d s).pw = s.pw ∧ (setSetupPair a b c d s).sec = s.sec ∧ (setSetupPair a b c d s).td = s.td ∧ (setSetupPair a b c d s).cof = s.cof ∧ (setSetupPair a b c d s).draws = s.draws ∧ (setSetupPair a b c d s).out = s.out := by
  simp [setSetupPair]

@[simp] theorem setRingCfg_frame (a : ℕ) (b : ℕ) (c : Word) (s : State) :
    (setRingCfg a b c s).pending = s.pending ∧ (setRingCfg a b c s).time = s.time ∧ (setRingCfg a b c s).id = s.id ∧ (setRingCfg a b c s).hi = s.hi ∧ (setRingCfg a b c s).mem = s.mem ∧ (setRingCfg a b c s).fab = s.fab ∧ (setRingCfg a b c s).srv = s.srv ∧ (setRingCfg a b c s).ops = s.ops ∧ (setRingCfg a b c s).mdl = s.mdl ∧ (setRingCfg a b c s).exu = s.exu ∧ (setRingCfg a b c s).coll = s.coll ∧ (setRingCfg a b c s).xn = s.xn ∧ (setRingCfg a b c s).pw = s.pw ∧ (setRingCfg a b c s).sec = s.sec ∧ (setRingCfg a b c s).td = s.td ∧ (setRingCfg a b c s).cof = s.cof ∧ (setRingCfg a b c s).draws = s.draws ∧ (setRingCfg a b c s).out = s.out := by
  simp [setRingCfg]

@[simp] theorem setupWrite_frame (a : ℕ) (b : ℕ) (c : Word) (s : State) :
    (setupWrite a b c s).pending = s.pending ∧ (setupWrite a b c s).time = s.time ∧ (setupWrite a b c s).id = s.id ∧ (setupWrite a b c s).fab = s.fab ∧ (setupWrite a b c s).coll = s.coll ∧ (setupWrite a b c s).pw = s.pw ∧ (setupWrite a b c s).sec = s.sec ∧ (setupWrite a b c s).cof = s.cof ∧ (setupWrite a b c s).draws = s.draws := by
  simp [setupWrite]

@[simp] theorem setupWrite_leaf (a : ℕ) (b : ℕ) (c : Word) (s : State) :
    (setupWrite a b c s).hi.lock = s.hi.lock := by
  simp [setupWrite]

@[simp] theorem writeDbCtrl_frame (a : Word) (s : State) :
    (writeDbCtrl a s).pending = s.pending ∧ (writeDbCtrl a s).time = s.time ∧ (writeDbCtrl a s).id = s.id ∧ (writeDbCtrl a s).ctxs = s.ctxs ∧ (writeDbCtrl a s).mem = s.mem ∧ (writeDbCtrl a s).fab = s.fab ∧ (writeDbCtrl a s).srv = s.srv ∧ (writeDbCtrl a s).ops = s.ops ∧ (writeDbCtrl a s).mdl = s.mdl ∧ (writeDbCtrl a s).exu = s.exu ∧ (writeDbCtrl a s).coll = s.coll ∧ (writeDbCtrl a s).xn = s.xn ∧ (writeDbCtrl a s).pw = s.pw ∧ (writeDbCtrl a s).sec = s.sec ∧ (writeDbCtrl a s).td = s.td ∧ (writeDbCtrl a s).cof = s.cof ∧ (writeDbCtrl a s).draws = s.draws ∧ (writeDbCtrl a s).out = s.out := by
  simp [writeDbCtrl]

@[simp] theorem writeDbCtrl_leaf (a : Word) (s : State) :
    (writeDbCtrl a s).hi.lock = s.hi.lock := by
  simp [writeDbCtrl]

@[simp] theorem writeDbStatus_frame (a : Word) (s : State) :
    (writeDbStatus a s).pending = s.pending ∧ (writeDbStatus a s).time = s.time ∧ (writeDbStatus a s).id = s.id ∧ (writeDbStatus a s).ctxs = s.ctxs ∧ (writeDbStatus a s).mem = s.mem ∧ (writeDbStatus a s).fab = s.fab ∧ (writeDbStatus a s).srv = s.srv ∧ (writeDbStatus a s).ops = s.ops ∧ (writeDbStatus a s).mdl = s.mdl ∧ (writeDbStatus a s).exu = s.exu ∧ (writeDbStatus a s).coll = s.coll ∧ (writeDbStatus a s).xn = s.xn ∧ (writeDbStatus a s).pw = s.pw ∧ (writeDbStatus a s).sec = s.sec ∧ (writeDbStatus a s).td = s.td ∧ (writeDbStatus a s).cof = s.cof ∧ (writeDbStatus a s).draws = s.draws ∧ (writeDbStatus a s).out = s.out := by
  simp [writeDbStatus]

@[simp] theorem writeDbStatus_leaf (a : Word) (s : State) :
    (writeDbStatus a s).hi.lock = s.hi.lock := by
  simp [writeDbStatus]

@[simp] theorem writePtmCtrl_frame (a : Word) (s : State) :
    (writePtmCtrl a s).pending = s.pending ∧ (writePtmCtrl a s).time = s.time ∧ (writePtmCtrl a s).id = s.id ∧ (writePtmCtrl a s).ctxs = s.ctxs ∧ (writePtmCtrl a s).mem = s.mem ∧ (writePtmCtrl a s).fab = s.fab ∧ (writePtmCtrl a s).srv = s.srv ∧ (writePtmCtrl a s).ops = s.ops ∧ (writePtmCtrl a s).mdl = s.mdl ∧ (writePtmCtrl a s).exu = s.exu ∧ (writePtmCtrl a s).coll = s.coll ∧ (writePtmCtrl a s).xn = s.xn ∧ (writePtmCtrl a s).pw = s.pw ∧ (writePtmCtrl a s).sec = s.sec ∧ (writePtmCtrl a s).td = s.td ∧ (writePtmCtrl a s).cof = s.cof ∧ (writePtmCtrl a s).draws = s.draws ∧ (writePtmCtrl a s).out = s.out := by
  simp [writePtmCtrl]

@[simp] theorem writePtmCtrl_leaf (a : Word) (s : State) :
    (writePtmCtrl a s).hi.lock = s.hi.lock := by
  simp [writePtmCtrl]

@[simp] theorem setLockedPair_frame (a : ℕ) (b : Word) (c : Word) (s : State) :
    (setLockedPair a b c s).pending = s.pending ∧ (setLockedPair a b c s).time = s.time ∧ (setLockedPair a b c s).id = s.id ∧ (setLockedPair a b c s).ctxs = s.ctxs ∧ (setLockedPair a b c s).mem = s.mem ∧ (setLockedPair a b c s).fab = s.fab ∧ (setLockedPair a b c s).srv = s.srv ∧ (setLockedPair a b c s).ops = s.ops ∧ (setLockedPair a b c s).mdl = s.mdl ∧ (setLockedPair a b c s).exu = s.exu ∧ (setLockedPair a b c s).coll = s.coll ∧ (setLockedPair a b c s).xn = s.xn ∧ (setLockedPair a b c s).pw = s.pw ∧ (setLockedPair a b c s).sec = s.sec ∧ (setLockedPair a b c s).td = s.td ∧ (setLockedPair a b c s).cof = s.cof ∧ (setLockedPair a b c s).draws = s.draws ∧ (setLockedPair a b c s).out = s.out := by
  simp [setLockedPair]

@[simp] theorem setLockedPair_leaf (a : ℕ) (b : Word) (c : Word) (s : State) :
    (setLockedPair a b c s).hi.lock = s.hi.lock := by
  simp [setLockedPair]

@[simp] theorem lockedLo_frame (a : ℕ) (b : Word) (s : State) :
    (lockedLo a b s).pending = s.pending ∧ (lockedLo a b s).time = s.time ∧ (lockedLo a b s).id = s.id ∧ (lockedLo a b s).ctxs = s.ctxs ∧ (lockedLo a b s).mem = s.mem ∧ (lockedLo a b s).fab = s.fab ∧ (lockedLo a b s).srv = s.srv ∧ (lockedLo a b s).ops = s.ops ∧ (lockedLo a b s).mdl = s.mdl ∧ (lockedLo a b s).exu = s.exu ∧ (lockedLo a b s).coll = s.coll ∧ (lockedLo a b s).xn = s.xn ∧ (lockedLo a b s).pw = s.pw ∧ (lockedLo a b s).sec = s.sec ∧ (lockedLo a b s).td = s.td ∧ (lockedLo a b s).cof = s.cof ∧ (lockedLo a b s).draws = s.draws ∧ (lockedLo a b s).out = s.out := by
  simp [lockedLo]

@[simp] theorem lockedLo_leaf (a : ℕ) (b : Word) (s : State) :
    (lockedLo a b s).hi.lock = s.hi.lock := by
  simp [lockedLo]

@[simp] theorem lockedHi_frame (a : ℕ) (b : Word) (s : State) :
    (lockedHi a b s).pending = s.pending ∧ (lockedHi a b s).time = s.time ∧ (lockedHi a b s).id = s.id ∧ (lockedHi a b s).ctxs = s.ctxs ∧ (lockedHi a b s).mem = s.mem ∧ (lockedHi a b s).fab = s.fab ∧ (lockedHi a b s).srv = s.srv ∧ (lockedHi a b s).ops = s.ops ∧ (lockedHi a b s).mdl = s.mdl ∧ (lockedHi a b s).exu = s.exu ∧ (lockedHi a b s).coll = s.coll ∧ (lockedHi a b s).xn = s.xn ∧ (lockedHi a b s).pw = s.pw ∧ (lockedHi a b s).sec = s.sec ∧ (lockedHi a b s).td = s.td ∧ (lockedHi a b s).cof = s.cof ∧ (lockedHi a b s).draws = s.draws ∧ (lockedHi a b s).out = s.out := by
  simp [lockedHi]

@[simp] theorem lockedHi_leaf (a : ℕ) (b : Word) (s : State) :
    (lockedHi a b s).hi.lock = s.hi.lock := by
  simp [lockedHi]

@[simp] theorem writeSetupLock_frame (a : Word) (s : State) :
    (writeSetupLock a s).pending = s.pending ∧ (writeSetupLock a s).time = s.time ∧ (writeSetupLock a s).id = s.id ∧ (writeSetupLock a s).ctxs = s.ctxs ∧ (writeSetupLock a s).mem = s.mem ∧ (writeSetupLock a s).fab = s.fab ∧ (writeSetupLock a s).srv = s.srv ∧ (writeSetupLock a s).ops = s.ops ∧ (writeSetupLock a s).mdl = s.mdl ∧ (writeSetupLock a s).exu = s.exu ∧ (writeSetupLock a s).coll = s.coll ∧ (writeSetupLock a s).xn = s.xn ∧ (writeSetupLock a s).pw = s.pw ∧ (writeSetupLock a s).sec = s.sec ∧ (writeSetupLock a s).td = s.td ∧ (writeSetupLock a s).cof = s.cof ∧ (writeSetupLock a s).draws = s.draws ∧ (writeSetupLock a s).out = s.out := by
  simp [writeSetupLock]

@[simp] theorem sendPending_frame (a : ℕ) (b : ℕ) (s : State) :
    (sendPending a b s).pending = s.pending ∧ (sendPending a b s).time = s.time ∧ (sendPending a b s).id = s.id ∧ (sendPending a b s).ctxs = s.ctxs ∧ (sendPending a b s).mem = s.mem ∧ (sendPending a b s).fab = s.fab ∧ (sendPending a b s).srv = s.srv ∧ (sendPending a b s).ops = s.ops ∧ (sendPending a b s).mdl = s.mdl ∧ (sendPending a b s).exu = s.exu ∧ (sendPending a b s).coll = s.coll ∧ (sendPending a b s).xn = s.xn ∧ (sendPending a b s).pw = s.pw ∧ (sendPending a b s).sec = s.sec ∧ (sendPending a b s).td = s.td ∧ (sendPending a b s).cof = s.cof ∧ (sendPending a b s).draws = s.draws := by
  simp [sendPending]

@[simp] theorem sendPending_leaf (a : ℕ) (b : ℕ) (s : State) :
    (sendPending a b s).hi.lock = s.hi.lock := by
  simp [sendPending]

@[simp] theorem writeMsix_frame (a : ℕ) (b : ℕ) (c : Word) (s : State) :
    (writeMsix a b c s).pending = s.pending ∧ (writeMsix a b c s).time = s.time ∧ (writeMsix a b c s).id = s.id ∧ (writeMsix a b c s).ctxs = s.ctxs ∧ (writeMsix a b c s).mem = s.mem ∧ (writeMsix a b c s).fab = s.fab ∧ (writeMsix a b c s).srv = s.srv ∧ (writeMsix a b c s).ops = s.ops ∧ (writeMsix a b c s).mdl = s.mdl ∧ (writeMsix a b c s).exu = s.exu ∧ (writeMsix a b c s).coll = s.coll ∧ (writeMsix a b c s).xn = s.xn ∧ (writeMsix a b c s).pw = s.pw ∧ (writeMsix a b c s).sec = s.sec ∧ (writeMsix a b c s).td = s.td ∧ (writeMsix a b c s).cof = s.cof ∧ (writeMsix a b c s).draws = s.draws := by
  simp [writeMsix]

@[simp] theorem writeMsix_leaf (a : ℕ) (b : ℕ) (c : Word) (s : State) :
    (writeMsix a b c s).hi.lock = s.hi.lock := by
  simp [writeMsix]

@[simp] theorem writeHi_frame (a : ℕ) (b : Word) (s : State) :
    (writeHi a b s).pending = s.pending ∧ (writeHi a b s).time = s.time ∧ (writeHi a b s).draws = s.draws := by
  simp [writeHi]

@[simp] theorem writeHiRsv_frame (a : Word) (s : State) :
    (writeHiRsv a s).pending = s.pending ∧ (writeHiRsv a s).time = s.time ∧ (writeHiRsv a s).id = s.id ∧ (writeHiRsv a s).ctxs = s.ctxs ∧ (writeHiRsv a s).fab = s.fab ∧ (writeHiRsv a s).srv = s.srv ∧ (writeHiRsv a s).ops = s.ops ∧ (writeHiRsv a s).mdl = s.mdl ∧ (writeHiRsv a s).exu = s.exu ∧ (writeHiRsv a s).coll = s.coll ∧ (writeHiRsv a s).xn = s.xn ∧ (writeHiRsv a s).pw = s.pw ∧ (writeHiRsv a s).sec = s.sec ∧ (writeHiRsv a s).td = s.td ∧ (writeHiRsv a s).cof = s.cof ∧ (writeHiRsv a s).draws = s.draws ∧ (writeHiRsv a s).out = s.out := by
  simp [writeHiRsv]

@[simp] theorem writeHiRsv_leaf (a : Word) (s : State) :
    (writeHiRsv a s).mem.dram = s.mem.dram ∧ (writeHiRsv a s).hi.lock = s.hi.lock := by
  simp [writeHiRsv]

@[simp] theorem writeAgePeriod_frame (a : Word) (s : State) :
    (writeAgePeriod a s).pending = s.pending ∧ (writeAgePeriod a s).time = s.time ∧ (writeAgePeriod a s).id = s.id ∧ (writeAgePeriod a s).ctxs = s.ctxs ∧ (writeAgePeriod a s).fab = s.fab ∧ (writeAgePeriod a s).srv = s.srv ∧ (writeAgePeriod a s).ops = s.ops ∧ (writeAgePeriod a s).mdl = s.mdl ∧ (writeAgePeriod a s).exu = s.exu ∧ (writeAgePeriod a s).coll = s.coll ∧ (writeAgePeriod a s).xn = s.xn ∧ (writeAgePeriod a s).pw = s.pw ∧ (writeAgePeriod a s).sec = s.sec ∧ (writeAgePeriod a s).td = s.td ∧ (writeAgePeriod a s).cof = s.cof ∧ (writeAgePeriod a s).draws = s.draws ∧ (writeAgePeriod a s).out = s.out := by
  simp [writeAgePeriod]

@[simp] theorem writeAgePeriod_leaf (a : Word) (s : State) :
    (writeAgePeriod a s).mem.dram = s.mem.dram ∧ (writeAgePeriod a s).hi.lock = s.hi.lock := by
  simp [writeAgePeriod]

@[simp] theorem writeMm_frame (a : ℕ) (b : Word) (s : State) :
    (writeMm a b s).pending = s.pending ∧ (writeMm a b s).time = s.time ∧ (writeMm a b s).id = s.id ∧ (writeMm a b s).ctxs = s.ctxs ∧ (writeMm a b s).fab = s.fab ∧ (writeMm a b s).srv = s.srv ∧ (writeMm a b s).ops = s.ops ∧ (writeMm a b s).mdl = s.mdl ∧ (writeMm a b s).exu = s.exu ∧ (writeMm a b s).coll = s.coll ∧ (writeMm a b s).xn = s.xn ∧ (writeMm a b s).pw = s.pw ∧ (writeMm a b s).sec = s.sec ∧ (writeMm a b s).td = s.td ∧ (writeMm a b s).cof = s.cof ∧ (writeMm a b s).draws = s.draws ∧ (writeMm a b s).out = s.out := by
  simp [writeMm]

@[simp] theorem writeMm_leaf (a : ℕ) (b : Word) (s : State) :
    (writeMm a b s).mem.dram = s.mem.dram ∧ (writeMm a b s).hi.lock = s.hi.lock := by
  simp [writeMm]

@[simp] theorem writeFb_frame (a : ℕ) (b : Word) (s : State) :
    (writeFb a b s).pending = s.pending ∧ (writeFb a b s).time = s.time ∧ (writeFb a b s).id = s.id ∧ (writeFb a b s).hi = s.hi ∧ (writeFb a b s).ctxs = s.ctxs ∧ (writeFb a b s).mem = s.mem ∧ (writeFb a b s).srv = s.srv ∧ (writeFb a b s).ops = s.ops ∧ (writeFb a b s).mdl = s.mdl ∧ (writeFb a b s).exu = s.exu ∧ (writeFb a b s).coll = s.coll ∧ (writeFb a b s).xn = s.xn ∧ (writeFb a b s).pw = s.pw ∧ (writeFb a b s).sec = s.sec ∧ (writeFb a b s).td = s.td ∧ (writeFb a b s).cof = s.cof ∧ (writeFb a b s).draws = s.draws ∧ (writeFb a b s).out = s.out := by
  simp [writeFb]

@[simp] theorem writeFb_leaf (a : ℕ) (b : Word) (s : State) :
    (writeFb a b s).fab.scratch = s.fab.scratch := by
  simp [writeFb]

@[simp] theorem writeXn_frame (a : ℕ) (b : Word) (s : State) :
    (writeXn a b s).pending = s.pending ∧ (writeXn a b s).time = s.time ∧ (writeXn a b s).id = s.id ∧ (writeXn a b s).fab = s.fab ∧ (writeXn a b s).ops = s.ops ∧ (writeXn a b s).coll = s.coll ∧ (writeXn a b s).pw = s.pw ∧ (writeXn a b s).sec = s.sec ∧ (writeXn a b s).cof = s.cof ∧ (writeXn a b s).draws = s.draws := by
  simp [writeXn]

@[simp] theorem writeXn_leaf (a : ℕ) (b : Word) (s : State) :
    (writeXn a b s).hi.lock = s.hi.lock := by
  simp [writeXn]

@[simp] theorem writeStateReq_frame (a : Word) (s : State) :
    (writeStateReq a s).pending = s.pending ∧ (writeStateReq a s).time = s.time ∧ (writeStateReq a s).id = s.id ∧ (writeStateReq a s).exu = s.exu ∧ (writeStateReq a s).coll = s.coll ∧ (writeStateReq a s).cof = s.cof ∧ (writeStateReq a s).draws = s.draws := by
  simp [writeStateReq]

@[simp] theorem writeStateReq_leaf (a : Word) (s : State) :
    (writeStateReq a s).fab.scratch = s.fab.scratch ∧ (writeStateReq a s).hi.lock = s.hi.lock ∧ (writeStateReq a s).sec.life = s.sec.life ∧ (writeStateReq a s).sec.mboxBuf = s.sec.mboxBuf := by
  simp [writeStateReq]

@[simp] theorem writePwStatus_frame (a : Word) (s : State) :
    (writePwStatus a s).pending = s.pending ∧ (writePwStatus a s).time = s.time ∧ (writePwStatus a s).id = s.id ∧ (writePwStatus a s).hi = s.hi ∧ (writePwStatus a s).ctxs = s.ctxs ∧ (writePwStatus a s).mem = s.mem ∧ (writePwStatus a s).fab = s.fab ∧ (writePwStatus a s).srv = s.srv ∧ (writePwStatus a s).ops = s.ops ∧ (writePwStatus a s).mdl = s.mdl ∧ (writePwStatus a s).exu = s.exu ∧ (writePwStatus a s).coll = s.coll ∧ (writePwStatus a s).xn = s.xn ∧ (writePwStatus a s).sec = s.sec ∧ (writePwStatus a s).td = s.td ∧ (writePwStatus a s).cof = s.cof ∧ (writePwStatus a s).draws = s.draws ∧ (writePwStatus a s).out = s.out := by
  simp [writePwStatus]

@[simp] theorem writePwStatus_leaf (a : Word) (s : State) :
    (writePwStatus a s).pw.st = s.pw.st := by
  simp [writePwStatus]

@[simp] theorem writePw_frame (a : ℕ) (b : Word) (s : State) :
    (writePw a b s).pending = s.pending ∧ (writePw a b s).time = s.time ∧ (writePw a b s).id = s.id ∧ (writePw a b s).coll = s.coll ∧ (writePw a b s).draws = s.draws := by
  simp [writePw]

@[simp] theorem writePw_leaf (a : ℕ) (b : Word) (s : State) :
    (writePw a b s).fab.scratch = s.fab.scratch ∧ (writePw a b s).hi.lock = s.hi.lock ∧ (writePw a b s).sec.life = s.sec.life ∧ (writePw a b s).sec.mboxBuf = s.sec.mboxBuf := by
  simp [writePw]

@[simp] theorem writeMgmtEid_frame (a : Word) (s : State) :
    (writeMgmtEid a s).pending = s.pending ∧ (writeMgmtEid a s).time = s.time ∧ (writeMgmtEid a s).id = s.id ∧ (writeMgmtEid a s).ctxs = s.ctxs ∧ (writeMgmtEid a s).mem = s.mem ∧ (writeMgmtEid a s).fab = s.fab ∧ (writeMgmtEid a s).srv = s.srv ∧ (writeMgmtEid a s).ops = s.ops ∧ (writeMgmtEid a s).mdl = s.mdl ∧ (writeMgmtEid a s).exu = s.exu ∧ (writeMgmtEid a s).coll = s.coll ∧ (writeMgmtEid a s).xn = s.xn ∧ (writeMgmtEid a s).pw = s.pw ∧ (writeMgmtEid a s).td = s.td ∧ (writeMgmtEid a s).cof = s.cof ∧ (writeMgmtEid a s).draws = s.draws ∧ (writeMgmtEid a s).out = s.out := by
  simp [writeMgmtEid]

@[simp] theorem writeMgmtEid_leaf (a : Word) (s : State) :
    (writeMgmtEid a s).hi.lock = s.hi.lock ∧ (writeMgmtEid a s).sec.life = s.sec.life ∧ (writeMgmtEid a s).sec.mboxBuf = s.sec.mboxBuf := by
  simp [writeMgmtEid]

@[simp] theorem writeMboxCmd_frame (a : Word) (s : State) :
    (writeMboxCmd a s).pending = s.pending ∧ (writeMboxCmd a s).time = s.time ∧ (writeMboxCmd a s).id = s.id ∧ (writeMboxCmd a s).hi = s.hi ∧ (writeMboxCmd a s).ctxs = s.ctxs ∧ (writeMboxCmd a s).mem = s.mem ∧ (writeMboxCmd a s).fab = s.fab ∧ (writeMboxCmd a s).srv = s.srv ∧ (writeMboxCmd a s).ops = s.ops ∧ (writeMboxCmd a s).mdl = s.mdl ∧ (writeMboxCmd a s).exu = s.exu ∧ (writeMboxCmd a s).coll = s.coll ∧ (writeMboxCmd a s).xn = s.xn ∧ (writeMboxCmd a s).pw = s.pw ∧ (writeMboxCmd a s).td = s.td ∧ (writeMboxCmd a s).cof = s.cof ∧ (writeMboxCmd a s).draws = s.draws ∧ (writeMboxCmd a s).out = s.out := by
  simp [writeMboxCmd]

@[simp] theorem writeMboxCmd_leaf (a : Word) (s : State) :
    (writeMboxCmd a s).sec.life = s.sec.life := by
  simp [writeMboxCmd]

@[simp] theorem writeSy_frame (a : ℕ) (b : Word) (s : State) :
    (writeSy a b s).pending = s.pending ∧ (writeSy a b s).time = s.time ∧ (writeSy a b s).id = s.id ∧ (writeSy a b s).ctxs = s.ctxs ∧ (writeSy a b s).mem = s.mem ∧ (writeSy a b s).fab = s.fab ∧ (writeSy a b s).srv = s.srv ∧ (writeSy a b s).ops = s.ops ∧ (writeSy a b s).mdl = s.mdl ∧ (writeSy a b s).exu = s.exu ∧ (writeSy a b s).coll = s.coll ∧ (writeSy a b s).xn = s.xn ∧ (writeSy a b s).pw = s.pw ∧ (writeSy a b s).td = s.td ∧ (writeSy a b s).draws = s.draws ∧ (writeSy a b s).out = s.out := by
  simp [writeSy]

@[simp] theorem writeSy_leaf (a : ℕ) (b : Word) (s : State) :
    (writeSy a b s).hi.lock = s.hi.lock := by
  simp [writeSy]

@[simp] theorem setAddrOnly_frame (a : ℕ) (b : Bool) (s : State) :
    (setAddrOnly a b s).pending = s.pending ∧ (setAddrOnly a b s).time = s.time ∧ (setAddrOnly a b s).id = s.id ∧ (setAddrOnly a b s).hi = s.hi ∧ (setAddrOnly a b s).mem = s.mem ∧ (setAddrOnly a b s).fab = s.fab ∧ (setAddrOnly a b s).srv = s.srv ∧ (setAddrOnly a b s).ops = s.ops ∧ (setAddrOnly a b s).mdl = s.mdl ∧ (setAddrOnly a b s).exu = s.exu ∧ (setAddrOnly a b s).coll = s.coll ∧ (setAddrOnly a b s).xn = s.xn ∧ (setAddrOnly a b s).pw = s.pw ∧ (setAddrOnly a b s).sec = s.sec ∧ (setAddrOnly a b s).cof = s.cof ∧ (setAddrOnly a b s).draws = s.draws ∧ (setAddrOnly a b s).out = s.out := by
  simp [setAddrOnly]

@[simp] theorem writeAddrOnly_frame (a : ℕ) (b : Word) (s : State) :
    (writeAddrOnly a b s).pending = s.pending ∧ (writeAddrOnly a b s).time = s.time ∧ (writeAddrOnly a b s).id = s.id ∧ (writeAddrOnly a b s).hi = s.hi ∧ (writeAddrOnly a b s).mem = s.mem ∧ (writeAddrOnly a b s).fab = s.fab ∧ (writeAddrOnly a b s).srv = s.srv ∧ (writeAddrOnly a b s).ops = s.ops ∧ (writeAddrOnly a b s).mdl = s.mdl ∧ (writeAddrOnly a b s).exu = s.exu ∧ (writeAddrOnly a b s).coll = s.coll ∧ (writeAddrOnly a b s).xn = s.xn ∧ (writeAddrOnly a b s).pw = s.pw ∧ (writeAddrOnly a b s).sec = s.sec ∧ (writeAddrOnly a b s).cof = s.cof ∧ (writeAddrOnly a b s).draws = s.draws ∧ (writeAddrOnly a b s).out = s.out := by
  simp [writeAddrOnly]

@[simp] theorem writeTd_frame (a : ℕ) (b : Word) (s : State) :
    (writeTd a b s).pending = s.pending ∧ (writeTd a b s).time = s.time ∧ (writeTd a b s).id = s.id ∧ (writeTd a b s).hi = s.hi ∧ (writeTd a b s).mem = s.mem ∧ (writeTd a b s).fab = s.fab ∧ (writeTd a b s).srv = s.srv ∧ (writeTd a b s).ops = s.ops ∧ (writeTd a b s).mdl = s.mdl ∧ (writeTd a b s).exu = s.exu ∧ (writeTd a b s).coll = s.coll ∧ (writeTd a b s).xn = s.xn ∧ (writeTd a b s).pw = s.pw ∧ (writeTd a b s).sec = s.sec ∧ (writeTd a b s).draws = s.draws ∧ (writeTd a b s).out = s.out := by
  simp [writeTd]

@[simp] theorem pfWrite_frame (a : ℕ) (b : Word) (s : State) :
    (pfWrite a b s).pending = s.pending ∧ (pfWrite a b s).time = s.time ∧ (pfWrite a b s).draws = s.draws := by
  simp [pfWrite]

@[simp] theorem write32_frame (a : Func) (b : ℕ) (c : Word) (s : State) :
    (write32 a b c s).pending = s.pending ∧ (write32 a b c s).time = s.time ∧ (write32 a b c s).draws = s.draws := by
  simp only [write32]
  repeat' split
  all_goals simp

@[simp] theorem read32_frame (a : Func) (b : ℕ) (s : State) :
    (read32 a b s).2.pending = s.pending ∧ (read32 a b s).2.time = s.time ∧ (read32 a b s).2.id = s.id ∧ (read32 a b s).2.ctxs = s.ctxs ∧ (read32 a b s).2.mem = s.mem ∧ (read32 a b s).2.fab = s.fab ∧ (read32 a b s).2.srv = s.srv ∧ (read32 a b s).2.ops = s.ops ∧ (read32 a b s).2.mdl = s.mdl ∧ (read32 a b s).2.exu = s.exu ∧ (read32 a b s).2.coll = s.coll ∧ (read32 a b s).2.xn = s.xn ∧ (read32 a b s).2.pw = s.pw ∧ (read32 a b s).2.sec = s.sec ∧ (read32 a b s).2.td = s.td ∧ (read32 a b s).2.cof = s.cof ∧ (read32 a b s).2.draws = s.draws ∧ (read32 a b s).2.out = s.out := by
  simp only [read32]
  repeat' split
  all_goals simp

@[simp] theorem read32_leaf (a : Func) (b : ℕ) (s : State) :
    (read32 a b s).2.hi.lock = s.hi.lock := by
  simp only [read32]
  repeat' split
  all_goals simp

@[simp] theorem accessWrite_frame (a : Func) (b : ℕ) (c : ℕ) (d : Dword) (s : State) :
    (accessWrite a b c d s).pending = s.pending ∧ (accessWrite a b c d s).time = s.time ∧ (accessWrite a b c d s).draws = s.draws := by
  simp [accessWrite]

@[simp] theorem accessRead_frame (a : Func) (b : ℕ) (c : ℕ) (s : State) :
    (accessRead a b c s).2.pending = s.pending ∧ (accessRead a b c s).2.time = s.time ∧ (accessRead a b c s).2.id = s.id ∧ (accessRead a b c s).2.ctxs = s.ctxs ∧ (accessRead a b c s).2.mem = s.mem ∧ (accessRead a b c s).2.fab = s.fab ∧ (accessRead a b c s).2.srv = s.srv ∧ (accessRead a b c s).2.ops = s.ops ∧ (accessRead a b c s).2.mdl = s.mdl ∧ (accessRead a b c s).2.exu = s.exu ∧ (accessRead a b c s).2.coll = s.coll ∧ (accessRead a b c s).2.xn = s.xn ∧ (accessRead a b c s).2.pw = s.pw ∧ (accessRead a b c s).2.sec = s.sec ∧ (accessRead a b c s).2.td = s.td ∧ (accessRead a b c s).2.cof = s.cof ∧ (accessRead a b c s).2.draws = s.draws ∧ (accessRead a b c s).2.out = s.out := by
  simp only [accessRead]
  repeat' split
  all_goals simp

@[simp] theorem accessRead_leaf (a : Func) (b : ℕ) (c : ℕ) (s : State) :
    (accessRead a b c s).2.hi.lock = s.hi.lock := by
  simp only [accessRead]
  repeat' split
  all_goals simp

@[simp] theorem readOut_frame (a : Func) (b : ℕ) (c : ℕ) (s : State) :
    (readOut a b c s).pending = s.pending ∧ (readOut a b c s).time = s.time ∧ (readOut a b c s).id = s.id ∧ (readOut a b c s).ctxs = s.ctxs ∧ (readOut a b c s).mem = s.mem ∧ (readOut a b c s).fab = s.fab ∧ (readOut a b c s).srv = s.srv ∧ (readOut a b c s).ops = s.ops ∧ (readOut a b c s).mdl = s.mdl ∧ (readOut a b c s).exu = s.exu ∧ (readOut a b c s).coll = s.coll ∧ (readOut a b c s).xn = s.xn ∧ (readOut a b c s).pw = s.pw ∧ (readOut a b c s).sec = s.sec ∧ (readOut a b c s).td = s.td ∧ (readOut a b c s).cof = s.cof ∧ (readOut a b c s).draws = s.draws := by
  simp [readOut]

@[simp] theorem readOut_leaf (a : Func) (b : ℕ) (c : ℕ) (s : State) :
    (readOut a b c s).hi.lock = s.hi.lock := by
  simp [readOut]

@[simp] theorem bar2Count_frame (a : Bool) (b : ℕ) (c : ℕ) (s : State) :
    (bar2Count a b c s).pending = s.pending ∧ (bar2Count a b c s).time = s.time ∧ (bar2Count a b c s).id = s.id ∧ (bar2Count a b c s).hi = s.hi ∧ (bar2Count a b c s).ctxs = s.ctxs ∧ (bar2Count a b c s).mem = s.mem ∧ (bar2Count a b c s).fab = s.fab ∧ (bar2Count a b c s).srv = s.srv ∧ (bar2Count a b c s).ops = s.ops ∧ (bar2Count a b c s).mdl = s.mdl ∧ (bar2Count a b c s).exu = s.exu ∧ (bar2Count a b c s).coll = s.coll ∧ (bar2Count a b c s).xn = s.xn ∧ (bar2Count a b c s).pw = s.pw ∧ (bar2Count a b c s).sec = s.sec ∧ (bar2Count a b c s).cof = s.cof ∧ (bar2Count a b c s).draws = s.draws ∧ (bar2Count a b c s).out = s.out := by
  simp (disch := first | (intros; (repeat' split) <;> (simp [-Nat.reducePow]; done)) | (intros; dsimp only; (repeat' split) <;> (simp [-Nat.reducePow]; done)) | assumption) [bar2Count, -Nat.reducePow]

@[simp] theorem bar2Advise_frame (a : ℕ) (b : ℕ) (s : State) :
    (bar2Advise a b s).pending = s.pending ∧ (bar2Advise a b s).time = s.time ∧ (bar2Advise a b s).id = s.id ∧ (bar2Advise a b s).hi = s.hi ∧ (bar2Advise a b s).ctxs = s.ctxs ∧ (bar2Advise a b s).mem = s.mem ∧ (bar2Advise a b s).fab = s.fab ∧ (bar2Advise a b s).srv = s.srv ∧ (bar2Advise a b s).ops = s.ops ∧ (bar2Advise a b s).mdl = s.mdl ∧ (bar2Advise a b s).exu = s.exu ∧ (bar2Advise a b s).coll = s.coll ∧ (bar2Advise a b s).xn = s.xn ∧ (bar2Advise a b s).pw = s.pw ∧ (bar2Advise a b s).sec = s.sec ∧ (bar2Advise a b s).cof = s.cof ∧ (bar2Advise a b s).draws = s.draws := by
  simp [bar2Advise]

@[simp] theorem bar2Store_frame (a : ℕ) (b : List Byte) (s : State) :
    (bar2Store a b s).pending = s.pending ∧ (bar2Store a b s).time = s.time ∧ (bar2Store a b s).id = s.id ∧ (bar2Store a b s).hi = s.hi ∧ (bar2Store a b s).ctxs = s.ctxs ∧ (bar2Store a b s).fab = s.fab ∧ (bar2Store a b s).srv = s.srv ∧ (bar2Store a b s).ops = s.ops ∧ (bar2Store a b s).mdl = s.mdl ∧ (bar2Store a b s).exu = s.exu ∧ (bar2Store a b s).coll = s.coll ∧ (bar2Store a b s).xn = s.xn ∧ (bar2Store a b s).pw = s.pw ∧ (bar2Store a b s).sec = s.sec ∧ (bar2Store a b s).td = s.td ∧ (bar2Store a b s).cof = s.cof ∧ (bar2Store a b s).draws = s.draws ∧ (bar2Store a b s).out = s.out := by
  induction b generalizing a s with
  | nil => simp [bar2Store]
  | cons y m ih =>
    unfold bar2Store
    try dsimp only
    repeat' split
    all_goals simp [ih]

@[simp] theorem bar2Clean_frame (a : ℕ) (b : ℕ) (s : State) :
    (bar2Clean a b s).pending = s.pending ∧ (bar2Clean a b s).time = s.time ∧ (bar2Clean a b s).id = s.id ∧ (bar2Clean a b s).hi = s.hi ∧ (bar2Clean a b s).ctxs = s.ctxs ∧ (bar2Clean a b s).fab = s.fab ∧ (bar2Clean a b s).srv = s.srv ∧ (bar2Clean a b s).ops = s.ops ∧ (bar2Clean a b s).mdl = s.mdl ∧ (bar2Clean a b s).exu = s.exu ∧ (bar2Clean a b s).coll = s.coll ∧ (bar2Clean a b s).xn = s.xn ∧ (bar2Clean a b s).pw = s.pw ∧ (bar2Clean a b s).sec = s.sec ∧ (bar2Clean a b s).td = s.td ∧ (bar2Clean a b s).cof = s.cof ∧ (bar2Clean a b s).draws = s.draws ∧ (bar2Clean a b s).out = s.out := by
  simp (disch := first | (intros; (repeat' split) <;> (simp [-Nat.reducePow]; done)) | (intros; dsimp only; (repeat' split) <;> (simp [-Nat.reducePow]; done)) | assumption) [bar2Clean, -Nat.reducePow]

@[simp] theorem bar2Clean_leaf (a : ℕ) (b : ℕ) (s : State) :
    (bar2Clean a b s).mem.dram = s.mem.dram := by
  simp (disch := first | (intros; (repeat' split) <;> (simp [-Nat.reducePow]; done)) | (intros; dsimp only; (repeat' split) <;> (simp [-Nat.reducePow]; done)) | assumption) [bar2Clean, -Nat.reducePow]

end Sys2Proof.Machine
end

