-- ==== Sys2Proof/Laws/Bytes.lean ====
section
/-! SUPPORT. The operations that store into device memory, island memory and the mailbox buffer: each keeps the
canonical form, and the two stores change only the bytes of their span. -/
namespace Sys2Proof.Machine

theorem wf_zeroChunks (m : Nat) (l : List (Nat × Nat)) (s : State) (h : Memory.wf s.mem.dram = true) :
    Memory.wf (zeroChunks m l s).mem.dram = true := wf_filter _ _ h

theorem wf_writeDram (a : Nat) (l : List Byte) (s : State) (h : Memory.wf s.mem.dram = true) :
    Memory.wf (writeDram a l s).mem.dram = true := wf_cwrites l _ a h

/-- A store into device memory changes no byte outside its span. -/
theorem writeDram_outside (a b : Nat) (l : List Byte) (s : State) (h : Memory.wf s.mem.dram = true)
    (hb : b < a ∨ a + l.length ≤ b) : cread (writeDram a l s).mem.dram b = cread s.mem.dram b :=
  cread_cwrites_outside l _ a b h hb

/-- A store into device memory leaves the stored bytes in its span. -/
theorem writeDram_inside (a i : Nat) (l : List Byte) (s : State) (h : Memory.wf s.mem.dram = true) (hi : i < l.length) :
    cread (writeDram a l s).mem.dram (a + i) = l[i] :=
  cread_cwrites_inside l _ a i h hi

theorem wf_bar2Store (l : List Byte) : ∀ (o : Nat) (s : State), Memory.wf s.mem.dram = true →
    Memory.wf (bar2Store o l s).mem.dram = true := by
  induction l with
  | nil => intro o s h; exact h
  | cons b l ih =>
    intro o s h
    simp only [bar2Store]
    split
    · split
      · exact ih _ _ h
      · exact ih _ _ (wf_cwrite _ _ _ h)
    · exact ih _ _ h

theorem wf_forEach {α : Type} (f : α → List Host.Cell → List Host.Cell)
    (hf : ∀ x m, Memory.wf m = true → Memory.wf (f x m) = true) :
    ∀ (l : List α) (m : List Host.Cell), Memory.wf m = true → Memory.wf (forEach f l m) = true
  | [], _, h => h
  | x :: l, m, h => wf_forEach f hf l (f x m) (hf x m h)

theorem wf_copyFrame (a b : Nat) (s : State) (h : Memory.wf s.mem.dram = true) :
    Memory.wf (copyFrame a b s).mem.dram = true :=
  wf_forEach _ (fun _ _ hm => wf_cwrite _ _ _ hm) _ _ (wf_czero _ _ _ h)

theorem wf_copySpan (a b n : Nat) (s : State) (h : Memory.wf s.mem.dram = true) :
    Memory.wf (copySpan a b n s).mem.dram = true :=
  wf_forEach _ (fun _ _ hm => wf_cwrite _ _ _ hm) _ _ (wf_czero _ _ _ h)

theorem wf_zeroMemory (s : State) : Memory.wf (zeroMemory s).mem.dram = true := rfl

theorem wf_putBank (p idx a : Nat) (b : Byte) (s : State) (h : Memory.wf s.fab.scratch = true) :
    Memory.wf (putBank p idx a b s).fab.scratch = true := by
  unfold putBank
  split
  · exact wf_cwrite _ _ _ h
  · exact h

/-- A store of one byte moves no bank: every logical address names the byte it named before. -/
theorem bankKey_putBank (p idx a : Nat) (b : Byte) (s : State) (q k c : Nat) :
    bankKey (putBank p idx a b s) q k c = bankKey s q k c := by
  unfold putBank
  split <;> rfl

theorem putBank_outside (p idx a k : Nat) (b : Byte) (s : State) (h : Memory.wf s.fab.scratch = true)
    (hk : bankKey s p idx a ≠ some k) : cread (putBank p idx a b s).fab.scratch k = cread s.fab.scratch k := by
  unfold putBank
  split
  · next k' he => exact cread_cwrite_ne _ _ _ _ h (fun e => hk (he.trans (congrArg some e.symm)))
  · rfl

theorem wf_putBanks (p idx : Nat) (l : List Byte) : ∀ (a : Nat) (s : State), Memory.wf s.fab.scratch = true →
    Memory.wf (putBanks p idx a l s).fab.scratch = true := by
  induction l with
  | nil => intro a s h; exact h
  | cons b l ih => intro a s h; exact ih _ _ (wf_putBank p idx a b s h)

theorem putBanks_outside (p idx k : Nat) (l : List Byte) : ∀ (a : Nat) (s : State), Memory.wf s.fab.scratch = true →
    (∀ i, i < l.length → bankKey s p idx (a + i) ≠ some k) →
    cread (putBanks p idx a l s).fab.scratch k = cread s.fab.scratch k := by
  induction l with
  | nil => intro a s _ _; rfl
  | cons b l ih =>
    intro a s h hk
    have h0 : bankKey s p idx a ≠ some k := hk 0 (Nat.succ_pos _)
    refine (ih (a + 1) (putBank p idx a b s) (wf_putBank p idx a b s h) fun i hi => ?_).trans (putBank_outside p idx a k b s h h0)
    rw [bankKey_putBank, Nat.add_assoc, Nat.add_comm 1 i]
    exact hk (i + 1) (Nat.succ_lt_succ hi)

theorem wf_writeBank (p idx a : Nat) (l : List Byte) (s : State) (h : Memory.wf s.fab.scratch = true) :
    Memory.wf (writeBank p idx a l s).fab.scratch = true := by
  unfold writeBank
  split
  · exact wf_putBanks p idx l a s h
  · exact h

/-- A store into island memory changes no byte outside its span. -/
theorem writeBank_outside (p idx a k : Nat) (l : List Byte) (s : State) (h : Memory.wf s.fab.scratch = true)
    (hk : ∀ i, i < l.length → bankKey s p idx (a + i) ≠ some k) :
    cread (writeBank p idx a l s).fab.scratch k = cread s.fab.scratch k := by
  unfold writeBank
  split
  · exact putBanks_outside p idx k l a s h hk
  · rfl

theorem wf_mboxEnd (n : Nat) (st : Status) (out : List Byte) (s : State) (h : Memory.wf s.sec.mboxBuf = true) :
    Memory.wf (mboxEnd n st out s).sec.mboxBuf = true := wf_cwrites out _ 0 h

end Sys2Proof.Machine
end

