-- ==== Sys2Proof/Laws/Commands.lean ====
section
/-! SUPPORT. How a fetched descriptor runs, and what it is for a list of checks to pass. -/
namespace Sys2Proof.Machine

/-- Once descriptor h is fetched, its command is f on the state in which it begins, and the poll's end. -/
theorem command_of_begins {t : Nat} {h : Hdr} {s s1 : State} (hb : Begins t h s s1) (f : State → State) :
    command t h f s = endPoll (f s1) := by
  obtain ⟨s0, h0, rfl⟩ := hb
  simp [command, h0]

/-- Once descriptor h is fetched, a command that may owe two records is f on the state after the fetch. -/
theorem command2_of_begins {t : Nat} {h : Hdr} {s s1 : State} (hb : BeginsTwo t h s s1) (f : State → State) :
    command2 t h f s = endPoll (f s1) := by
  unfold BeginsTwo at hb
  simp [command2, hb]

/-- A descriptor that cannot have been fetched changes nothing but the time. -/
theorem command_of_not_fetched {t : Nat} {h : Hdr} {s : State} (hn : fetched t h s = none) (f : State → State) :
    command t h f s = tick t s := by
  simp [command, hn]

@[simp] theorem firstOf_nil : firstOf [] = none := rfl
@[simp] theorem firstOf_cons_none (l : List (Option Status)) : firstOf (none :: l) = firstOf l := rfl
@[simp] theorem firstOf_cons_some (st : Status) (l : List (Option Status)) : firstOf (some st :: l) = some st := rfl
@[simp] theorem failIf_false (st : Status) : failIf false st = none := rfl
@[simp] theorem failIf_true (st : Status) : failIf true st = some st := rfl

/-- A list of checks passes just where each of them does. -/
theorem firstOf_eq_none (l : List (Option Status)) : firstOf l = none ↔ ∀ x ∈ l, x = none := by
  induction l with
  | nil => simp
  | cons x l ih => cases x <;> simp [ih]

end Sys2Proof.Machine
end

