-- ==== Sys2Proof/Laws/Time.lean ====
section
/-! SUPPORT. The readings of the state that do not depend on device time: each is the same after time has passed. -/
namespace Sys2Proof.Machine

@[simp] theorem drawn_tick (t : ℕ) (s : State) : drawn (tick t s) = drawn s := (rfl)
@[simp] theorem ctxOf_tick (t : ℕ) (b : ℕ) (s : State) : ctxOf (tick t s) b = ctxOf s b := (rfl)
@[simp] theorem ctxHere_tick (t : ℕ) (b : ℕ) (s : State) : ctxHere (tick t s) b = ctxHere s b := (rfl)
@[simp] theorem ctxCount_tick (t : ℕ) (s : State) : ctxCount (tick t s) = ctxCount s := (rfl)
@[simp] theorem hostRuns_tick (t : ℕ) (s : State) : hostRuns (tick t s) = hostRuns s := (rfl)
@[simp] theorem regsAnswer_tick (t : ℕ) (s : State) : regsAnswer (tick t s) = regsAnswer s := (rfl)
@[simp] theorem mayFetch_tick (t : ℕ) (b : ℕ) (c : ℕ) (s : State) : mayFetch (tick t s) b c = mayFetch s b c := (rfl)
@[simp] theorem enabledCtxs_tick (t : ℕ) (s : State) : enabledCtxs (tick t s) = enabledCtxs s := (rfl)
@[simp] theorem linksOf_tick (t : ℕ) (s : State) : linksOf (tick t s) = linksOf s := (rfl)
@[simp] theorem wantsHead_tick (t : ℕ) (b : ℕ) (s : State) : wantsHead (tick t s) b = wantsHead s b := (rfl)
@[simp] theorem consumedSum_tick (t : ℕ) (b : ℕ) (s : State) : consumedSum (tick t s) b = consumedSum s b := (rfl)
@[simp] theorem descsOut_tick (t : ℕ) (s : State) : descsOut (tick t s) = descsOut s := (rfl)
@[simp] theorem ownLoc_tick (t : ℕ) (s : State) : ownLoc (tick t s) = ownLoc s := (rfl)
@[simp] theorem memChunks_tick (t : ℕ) (s : State) : memChunks (tick t s) = memChunks s := (rfl)
@[simp] theorem usableChunks_tick (t : ℕ) (s : State) : usableChunks (tick t s) = usableChunks s := (rfl)
@[simp] theorem usedRuns_tick (t : ℕ) (s : State) : usedRuns (tick t s) = usedRuns s := (rfl)
@[simp] theorem freeRuns_tick (t : ℕ) (s : State) : freeRuns (tick t s) = freeRuns s := (rfl)
@[simp] theorem lmodeOf_tick (t : ℕ) (b : ℕ) (s : State) : lmodeOf (tick t s) b = lmodeOf s b := (rfl)
@[simp] theorem chunkKind_tick (t : ℕ) (b : ℕ) (s : State) : chunkKind (tick t s) b = chunkKind s b := (rfl)
@[simp] theorem chunkOwner_tick (t : ℕ) (b : ℕ) (s : State) : chunkOwner (tick t s) b = chunkOwner s b := (rfl)
@[simp] theorem subchannelOf_tick (t : ℕ) (b : ℕ) (s : State) : subchannelOf (tick t s) b = subchannelOf s b := (rfl)
@[simp] theorem partOf_tick (t : ℕ) (b : ℕ) (s : State) : partOf (tick t s) b = partOf s b := (rfl)
@[simp] theorem retiredIn_tick (t : ℕ) (b : Part) (s : State) : retiredIn (tick t s) b = retiredIn s b := (rfl)
@[simp] theorem poisonFree_tick (t : ℕ) (b : Part) (s : State) : poisonFree (tick t s) b = poisonFree s b := (rfl)
@[simp] theorem freeFrames_tick (t : ℕ) (b : Part) (s : State) : freeFrames (tick t s) b = freeFrames s b := (rfl)
@[simp] theorem dying_tick (t : ℕ) (s : State) : dying (tick t s) = dying s := (rfl)
@[simp] theorem findFrames_tick (t : ℕ) (b : Part) (c : ℕ) (d : ℕ) (s : State) : findFrames (tick t s) b c d = findFrames s b c d := (rfl)
@[simp] theorem findObj_tick (t : ℕ) (b : ℕ) (c : ObjKind) (s : State) : findObj (tick t s) b c = findObj s b c := (rfl)
@[simp] theorem kvOfJob_tick (t : ℕ) (b : ℕ) (c : ℕ) (d : ℕ) (s : State) : kvOfJob (tick t s) b c d = kvOfJob s b c d := (rfl)
@[simp] theorem pinnedKv_tick (t : ℕ) (b : Part) (c : ℕ) (s : State) : pinnedKv (tick t s) b c = pinnedKv s b c := (rfl)
@[simp] theorem isHead_tick (t : ℕ) (b : KvGeom) (s : State) : isHead (tick t s) b = isHead s b := (rfl)
@[simp] theorem committedOf_tick (t : ℕ) (b : ℕ) (s : State) : committedOf (tick t s) b = committedOf s b := (rfl)
@[simp] theorem ageOf_tick (t : ℕ) (b : PoolObj) (s : State) : ageOf (tick t s) b = ageOf s b := (rfl)
@[simp] theorem evictChoice_tick (t : ℕ) (b : List PoolObj) (s : State) : evictChoice (tick t s) b = evictChoice s b := (rfl)
@[simp] theorem chanOf_tick (t : ℕ) (b : ℕ) (s : State) : chanOf (tick t s) b = chanOf s b := (rfl)
@[simp] theorem sumReserves_tick (t : ℕ) (s : State) : sumReserves (tick t s) = sumReserves s := (rfl)
@[simp] theorem sharedFree_tick (t : ℕ) (s : State) : sharedFree (tick t s) = sharedFree s := (rfl)
@[simp] theorem mayTake_tick (t : ℕ) (b : ℕ) (c : ℕ) (s : State) : mayTake (tick t s) b c = mayTake s b c := (rfl)
@[simp] theorem waiterMay_tick (t : ℕ) (b : ℕ) (s : State) : waiterMay (tick t s) b = waiterMay s b := (rfl)
@[simp] theorem backed_tick (t : ℕ) (b : ℕ) (s : State) : backed (tick t s) b = backed s b := (rfl)
@[simp] theorem entryAt_tick (t : ℕ) (b : ℕ) (c : ℕ) (d : ℕ) (s : State) : entryAt (tick t s) b c d = entryAt s b c d := (rfl)
@[simp] theorem leafWalk_tick (t : ℕ) (b : Bool) (c : Bool) (d : ℕ) (e : ℕ) (s : State) : leafWalk (tick t s) b c d e = leafWalk s b c d e := (rfl)
@[simp] theorem translate_tick (t : ℕ) (b : ℕ) (c : ℕ) (d : Bool) (s : State) : translate (tick t s) b c d = translate s b c d := (rfl)
@[simp] theorem leafKey_tick (t : ℕ) (b : ℕ) (c : ℕ) (s : State) : leafKey (tick t s) b c = leafKey s b c := (rfl)
@[simp] theorem entrySpot_tick (t : ℕ) (b : Leaf) (s : State) : entrySpot (tick t s) b = entrySpot s b := (rfl)
@[simp] theorem entryHere_tick (t : ℕ) (b : ℕ) (s : State) : entryHere (tick t s) b = entryHere s b := (rfl)
@[simp] theorem tableWord_tick (t : ℕ) (b : ℕ) (c : ℕ) (d : ℕ) (s : State) : tableWord (tick t s) b c d = tableWord s b c d := (rfl)
@[simp] theorem readDram_tick (t : ℕ) (b : ℕ) (c : ℕ) (s : State) : readDram (tick t s) b c = readDram s b c := (rfl)
@[simp] theorem linePoisoned_tick (t : ℕ) (b : ℕ) (s : State) : linePoisoned (tick t s) b = linePoisoned s b := (rfl)
@[simp] theorem boardLoc_tick (t : ℕ) (b : ℕ) (s : State) : boardLoc (tick t s) b = boardLoc s b := (rfl)
@[simp] theorem portOf_tick (t : ℕ) (b : ℕ) (s : State) : portOf (tick t s) b = portOf s b := (rfl)
@[simp] theorem plateOf_tick (t : ℕ) (b : ℕ) (s : State) : plateOf (tick t s) b = plateOf s b := (rfl)
@[simp] theorem stepDeadline_tick (t : ℕ) (b : ℕ) (s : State) : stepDeadline (tick t s) b = stepDeadline s b := (rfl)
@[simp] theorem stepLayer_tick (t : ℕ) (b : ℕ) (s : State) : stepLayer (tick t s) b = stepLayer s b := (rfl)
@[simp] theorem portUp_tick (t : ℕ) (b : ℕ) (s : State) : portUp (tick t s) b = portUp s b := (rfl)
@[simp] theorem meshPort_tick (t : ℕ) (b : ℕ) (s : State) : meshPort (tick t s) b = meshPort s b := (rfl)
@[simp] theorem usable_tick (t : ℕ) (b : ℕ) (s : State) : usable (tick t s) b = usable s b := (rfl)
@[simp] theorem switchWeight_tick (t : ℕ) (b : ℕ) (s : State) : switchWeight (tick t s) b = switchWeight s b := (rfl)
@[simp] theorem routed_tick (t : ℕ) (b : ℕ) (s : State) : routed (tick t s) b = routed s b := (rfl)
@[simp] theorem exuPlate_tick (t : ℕ) (b : ExuRec) (s : State) : exuPlate (tick t s) b = exuPlate s b := (rfl)
@[simp] theorem exuTags_tick (t : ℕ) (b : ExuType) (c : ExuRec) (s : State) : exuTags (tick t s) b c = exuTags s b c := (rfl)
@[simp] theorem msgDue_tick (t : ℕ) (b : XnMsg) (s : State) : msgDue (tick t s) b = msgDue s b := (rfl)
@[simp] theorem vcWeight_tick (t : ℕ) (b : ℕ) (s : State) : vcWeight (tick t s) b = vcWeight s b := (rfl)
@[simp] theorem flowMoves_tick (t : ℕ) (b : ℕ) (c : ℕ) (d : ℕ) (s : State) : flowMoves (tick t s) b c d = flowMoves s b c d := (rfl)
@[simp] theorem exuHop_tick (t : ℕ) (b : ℕ) (s : State) : exuHop (tick t s) b = exuHop s b := (rfl)
@[simp] theorem jobAt_tick (t : ℕ) (b : ℕ) (s : State) : jobAt (tick t s) b = jobAt s b := (rfl)
@[simp] theorem jobLive_tick (t : ℕ) (b : ℕ) (s : State) : jobLive (tick t s) b = jobLive s b := (rfl)
@[simp] theorem jobPlates_tick (t : ℕ) (b : ℕ) (s : State) : jobPlates (tick t s) b = jobPlates s b := (rfl)
@[simp] theorem jobIslands_tick (t : ℕ) (b : ℕ) (s : State) : jobIslands (tick t s) b = jobIslands s b := (rfl)
@[simp] theorem costSum_tick (t : ℕ) (b : ℕ) (c : ℕ) (d : CostEntry → ℕ × ℕ × ℕ × ℕ) (s : State) : costSum (tick t s) b c d = costSum s b c d := (rfl)
@[simp] theorem seqOf_tick (t : ℕ) (b : ℕ) (s : State) : seqOf (tick t s) b = seqOf s b := (rfl)
@[simp] theorem seqHandle_tick (t : ℕ) (b : ℕ) (s : State) : seqHandle (tick t s) b = seqHandle s b := (rfl)
@[simp] theorem freeSeq_tick (t : ℕ) (s : State) : freeSeq (tick t s) = freeSeq s := (rfl)
@[simp] theorem modelOf_tick (t : ℕ) (b : ℕ) (s : State) : modelOf (tick t s) b = modelOf s b := (rfl)
@[simp] theorem epochOf_tick (t : ℕ) (b : ℕ) (c : ℕ) (s : State) : epochOf (tick t s) b c = epochOf s b c := (rfl)
@[simp] theorem otherHeads_tick (t : ℕ) (b : KvGeom) (s : State) : otherHeads (tick t s) b = otherHeads s b := (rfl)
@[simp] theorem ctxPart_tick (t : ℕ) (b : ℕ) (s : State) : ctxPart (tick t s) b = ctxPart s b := (rfl)
@[simp] theorem ownFrames_tick (t : ℕ) (b : List ℕ) (s : State) : ownFrames (tick t s) b = ownFrames s b := (rfl)
@[simp] theorem roomOf_tick (t : ℕ) (b : ℕ) (s : State) : roomOf (tick t s) b = roomOf s b := (rfl)
@[simp] theorem pageUsed_tick (t : ℕ) (b : ℕ) (s : State) : pageUsed (tick t s) b = pageUsed s b := (rfl)
@[simp] theorem treeSize_tick (t : ℕ) (b : ℕ) (s : State) : treeSize (tick t s) b = treeSize s b := (rfl)
@[simp] theorem seqRunning_tick (t : ℕ) (b : ℕ) (s : State) : seqRunning (tick t s) b = seqRunning s b := (rfl)
@[simp] theorem headOf'_tick (t : ℕ) (b : KvGeom) (c : ℕ) (s : State) : headOf' (tick t s) b c = headOf' s b c := (rfl)
@[simp] theorem pageFrames_tick (t : ℕ) (b : KvGeom) (c : KvPage) (s : State) : pageFrames (tick t s) b c = pageFrames s b c := (rfl)
@[simp] theorem pubOf_tick (t : ℕ) (b : ℕ) (c : ℕ) (s : State) : pubOf (tick t s) b c = pubOf s b c := (rfl)
@[simp] theorem pubGeom_tick (t : ℕ) (b : Pub) (s : State) : pubGeom (tick t s) b = pubGeom s b := (rfl)
@[simp] theorem evictable_tick (t : ℕ) (b : PoolObj) (s : State) : evictable (tick t s) b = evictable s b := (rfl)
@[simp] theorem partRunning_tick (t : ℕ) (b : ℕ) (s : State) : partRunning (tick t s) b = partRunning s b := (rfl)
@[simp] theorem partHeads_tick (t : ℕ) (b : ℕ) (s : State) : partHeads (tick t s) b = partHeads s b := (rfl)
@[simp] theorem emptiable_tick (t : ℕ) (b : ℕ) (c : ℕ) (s : State) : emptiable (tick t s) b c = emptiable s b c := (rfl)
@[simp] theorem heldBy_tick (t : ℕ) (b : ℕ) (c : ObjKind) (s : State) : heldBy (tick t s) b c = heldBy s b c := (rfl)
@[simp] theorem findNode_tick (t : ℕ) (b : ℕ) (c : ℕ) (d : ℕ) (e : Option Node) (f : List ℕ) (s : State) : findNode (tick t s) b c d e f = findNode s b c d e f := (rfl)
@[simp] theorem ofSeq_tick (t : ℕ) (b : ℕ) (c : ObjKind) (s : State) : ofSeq (tick t s) b c = ofSeq s b c := (rfl)
@[simp] theorem holders_tick (t : ℕ) (b : ℕ) (c : ℕ) (s : State) : holders (tick t s) b c = holders s b c := (rfl)
@[simp] theorem reqKeys_tick (t : ℕ) (b : Request → Bool) (s : State) : reqKeys (tick t s) b = reqKeys s b := (rfl)
@[simp] theorem opHeld_tick (t : ℕ) (b : LongOp) (s : State) : opHeld (tick t s) b = opHeld s b := (rfl)
@[simp] theorem shownLayer_tick (t : ℕ) (b : ℕ) (c : ℕ) (d : ℕ) (s : State) : shownLayer (tick t s) b c d = shownLayer s b c d := (rfl)
@[simp] theorem opsWith_tick (t : ℕ) (b : OpKind → Bool) (s : State) : opsWith (tick t s) b = opsWith s b := (rfl)
@[simp] theorem servingJob_tick (t : ℕ) (b : ℕ) (s : State) : servingJob (tick t s) b = servingJob s b := (rfl)
@[simp] theorem gatherOutstanding_tick (t : ℕ) (b : ℕ) (c : ℕ) (d : ℕ) (s : State) : gatherOutstanding (tick t s) b c d = gatherOutstanding s b c d := (rfl)
@[simp] theorem loading_tick (t : ℕ) (b : ℕ) (s : State) : loading (tick t s) b = loading s b := (rfl)
@[simp] theorem jobBusy_tick (t : ℕ) (b : ℕ) (s : State) : jobBusy (tick t s) b = jobBusy s b := (rfl)
@[simp] theorem jobRunning_tick (t : ℕ) (b : ℕ) (s : State) : jobRunning (tick t s) b = jobRunning s b := (rfl)
@[simp] theorem addrOnlyOk_tick (t : ℕ) (b : Hdr) (s : State) : addrOnlyOk (tick t s) b = addrOnlyOk s b := (rfl)
@[simp] theorem headerBad_tick (t : ℕ) (b : Hdr) (c : OpInfo) (d : Bool) (e : Bool) (s : State) : headerBad (tick t s) b c d e = headerBad s b c d e := (rfl)
@[simp] theorem shapeCheck_tick (t : ℕ) (b : Hdr) (c : OpInfo) (d : Bool) (e : optParam Bool false) (f : optParam Bool false) (s : State) : shapeCheck (tick t s) b c d e f = shapeCheck s b c d e f := (rfl)
@[simp] theorem jobCheck_tick (t : ℕ) (b : Hdr) (s : State) : jobCheck (tick t s) b = jobCheck s b := (rfl)
@[simp] theorem mcCheck_tick (t : ℕ) (b : Hdr) (s : State) : mcCheck (tick t s) b = mcCheck s b := (rfl)
@[simp] theorem powerCheck_tick (t : ℕ) (s : State) : powerCheck (tick t s) = powerCheck s := (rfl)
@[simp] theorem slotOk_tick (t : ℕ) (b : ℕ) (c : ℕ) (d : ℕ) (s : State) : slotOk (tick t s) b c d = slotOk s b c d := (rfl)
@[simp] theorem objectCheck_tick (t : ℕ) (b : Bool) (c : ℕ) (d : ℕ) (e : ℕ) (f : Bool) (g : Option Status) (s : State) : objectCheck (tick t s) b c d e f g = objectCheck s b c d e f g := (rfl)
@[simp] theorem requestNames_tick (t : ℕ) (b : Hdr) (s : State) : requestNames (tick t s) b = requestNames s b := (rfl)
@[simp] theorem genBad_tick (t : ℕ) (b : Hdr) (c : GenBody) (s : State) : genBad (tick t s) b c = genBad s b c := (rfl)
@[simp] theorem askCommitted_tick (t : ℕ) (b : Ask) (s : State) : askCommitted (tick t s) b = askCommitted s b := (rfl)
@[simp] theorem droppedPositions_tick (t : ℕ) (b : ℕ) (s : State) : droppedPositions (tick t s) b = droppedPositions s b := (rfl)
@[simp] theorem askIn_tick (t : ℕ) (b : Bool) (c : Ask) (s : State) : askIn (tick t s) b c = askIn s b c := (rfl)
@[simp] theorem bucketBounds_tick (t : ℕ) (b : ℕ) (c : KvGeom) (s : State) : bucketBounds (tick t s) b c = bucketBounds s b c := (rfl)
@[simp] theorem bucketed_tick (t : ℕ) (b : ℕ) (c : ℕ) (s : State) : bucketed (tick t s) b c = bucketed s b c := (rfl)
@[simp] theorem askLen_tick (t : ℕ) (b : Bool) (c : Ask) (s : State) : askLen (tick t s) b c = askLen s b c := (rfl)
@[simp] theorem askCtx_tick (t : ℕ) (b : ℕ) (c : Bool) (d : Ask) (s : State) : askCtx (tick t s) b c d = askCtx s b c d := (rfl)
@[simp] theorem askEntry_tick (t : ℕ) (b : Ask) (s : State) : askEntry (tick t s) b = askEntry s b := (rfl)
@[simp] theorem homeFrames_tick (t : ℕ) (b : Hdr) (c : Ask) (s : State) : homeFrames (tick t s) b c = homeFrames s b c := (rfl)
@[simp] theorem shareAsk_tick (t : ℕ) (b : Hdr) (c : Ask) (s : State) : shareAsk (tick t s) b c = shareAsk s b c := (rfl)
@[simp] theorem framesFit_tick (t : ℕ) (b : Hdr) (c : Ask) (s : State) : framesFit (tick t s) b c = framesFit s b c := (rfl)
@[simp] theorem latency_tick (t : ℕ) (s : State) : latency (tick t s) = latency s := (rfl)
@[simp] theorem islandFits_tick (t : ℕ) (b : Job) (c : ℕ) (d : ℕ) (e : ℤ) (s : State) : islandFits (tick t s) b c d e = islandFits s b c d e := (rfl)
@[simp] theorem lcOf_tick (t : ℕ) (b : ℕ) (s : State) : lcOf (tick t s) b = lcOf s b := (rfl)
@[simp] theorem priced_tick (t : ℕ) (b : Hdr) (c : Ask) (d : Request) (s : State) : priced (tick t s) b c d = priced s b c d := (rfl)
@[simp] theorem seqCheck_tick (t : ℕ) (b : Hdr) (c : Ask) (d : ℕ) (s : State) : seqCheck (tick t s) b c d = seqCheck s b c d := (rfl)
@[simp] theorem layoutOk_tick (t : ℕ) (b : ℕ) (c : Epoch) (s : State) : layoutOk (tick t s) b c = layoutOk s b c := (rfl)
@[simp] theorem epochCheck_tick (t : ℕ) (b : Hdr) (s : State) : epochCheck (tick t s) b = epochCheck s b := (rfl)
@[simp] theorem newestDetok_tick (t : ℕ) (b : ℕ) (s : State) : newestDetok (tick t s) b = newestDetok s b := (rfl)
@[simp] theorem plateDraining_tick (t : ℕ) (b : ℕ) (c : ℕ) (s : State) : plateDraining (tick t s) b c = plateDraining s b c := (rfl)
@[simp] theorem gateCheck_tick (t : ℕ) (b : Hdr) (c : ReqOp) (s : State) : gateCheck (tick t s) b c = gateCheck s b c := (rfl)
@[simp] theorem rerunVictim_tick (t : ℕ) (b : ℕ) (s : State) : rerunVictim (tick t s) b = rerunVictim s b := (rfl)
@[simp] theorem islOf_tick (t : ℕ) (b : ℕ) (s : State) : islOf (tick t s) b = islOf s b := (rfl)
@[simp] theorem fieldSt_tick (t : ℕ) (b : ℕ) (s : State) : fieldSt (tick t s) b = fieldSt s b := (rfl)
@[simp] theorem fenced_tick (t : ℕ) (b : ℕ) (s : State) : fenced (tick t s) b = fenced s b := (rfl)
@[simp] theorem islUsable_tick (t : ℕ) (b : ℕ) (s : State) : islUsable (tick t s) b = islUsable s b := (rfl)
@[simp] theorem lineWorks_tick (t : ℕ) (b : ℕ) (c : List ℕ) (s : State) : lineWorks (tick t s) b c = lineWorks s b c := (rfl)
@[simp] theorem lineInUse_tick (t : ℕ) (b : ℕ) (s : State) : lineInUse (tick t s) b = lineInUse s b := (rfl)
@[simp] theorem counterOwner_tick (t : ℕ) (b : ℕ) (c : ℕ) (s : State) : counterOwner (tick t s) b c = counterOwner s b c := (rfl)
@[simp] theorem ctrValue_tick (t : ℕ) (b : ℕ) (c : ℕ) (d : ℕ) (s : State) : ctrValue (tick t s) b c d = ctrValue s b c d := (rfl)
@[simp] theorem bankKey_tick (t : ℕ) (b : ℕ) (c : ℕ) (d : ℕ) (s : State) : bankKey (tick t s) b c d = bankKey s b c d := (rfl)
@[simp] theorem bankBytes_tick (t : ℕ) (b : ℕ) (c : ℕ) (s : State) : bankBytes (tick t s) b c = bankBytes s b c := (rfl)
@[simp] theorem bankAt_tick (t : ℕ) (b : ℕ) (c : ℕ) (d : ℕ) (s : State) : bankAt (tick t s) b c d = bankAt s b c d := (rfl)
@[simp] theorem bankPoisoned_tick (t : ℕ) (b : ℕ) (c : ℕ) (d : ℕ) (e : ℕ) (s : State) : bankPoisoned (tick t s) b c d e = bankPoisoned s b c d e := (rfl)
@[simp] theorem cutOff_tick (t : ℕ) (b : ℕ) (s : State) : cutOff (tick t s) b = cutOff s b := (rfl)
@[simp] theorem floorCodeOf_tick (t : ℕ) (b : ℕ) (s : State) : floorCodeOf (tick t s) b = floorCodeOf s b := (rfl)
@[simp] theorem floorHeld_tick (t : ℕ) (b : ℕ) (s : State) : floorHeld (tick t s) b = floorHeld s b := (rfl)
@[simp] theorem floorMhz_tick (t : ℕ) (b : ℕ) (s : State) : floorMhz (tick t s) b = floorMhz s b := (rfl)
@[simp] theorem islMhz_tick (t : ℕ) (b : ℕ) (s : State) : islMhz (tick t s) b = islMhz s b := (rfl)
@[simp] theorem platesOn_tick (t : ℕ) (b : ℕ) (s : State) : platesOn (tick t s) b = platesOn s b := (rfl)
@[simp] theorem holdsLc_tick (t : ℕ) (b : ℕ) (s : State) : holdsLc (tick t s) b = holdsLc s b := (rfl)
@[simp] theorem islBusy_tick (t : ℕ) (b : ℕ) (s : State) : islBusy (tick t s) b = islBusy s b := (rfl)
@[simp] theorem effCap_tick (t : ℕ) (s : State) : effCap (tick t s) = effCap s := (rfl)
@[simp] theorem prefCode_tick (t : ℕ) (s : State) : prefCode (tick t s) = prefCode s := (rfl)
@[simp] theorem islFloor_tick (t : ℕ) (b : ℕ) (s : State) : islFloor (tick t s) b = islFloor s b := (rfl)
@[simp] theorem targetCode_tick (t : ℕ) (b : ℕ) (s : State) : targetCode (tick t s) b = targetCode s b := (rfl)
@[simp] theorem rateMhz_tick (t : ℕ) (b : ℕ) (s : State) : rateMhz (tick t s) b = rateMhz s b := (rfl)
@[simp] theorem needMv_tick (t : ℕ) (b : ℕ) (c : ℕ) (s : State) : needMv (tick t s) b c = needMv s b c := (rfl)
@[simp] theorem waitsRail_tick (t : ℕ) (b : ℕ) (c : ℕ) (d : Isl) (s : State) : waitsRail (tick t s) b c d = waitsRail s b c d := (rfl)
@[simp] theorem givenMhz_tick (t : ℕ) (b : ℕ) (s : State) : givenMhz (tick t s) b = givenMhz s b := (rfl)
@[simp] theorem emergencyScale_tick (t : ℕ) (b : ℕ) (s : State) : emergencyScale (tick t s) b = emergencyScale s b := (rfl)
@[simp] theorem ownAddr_tick (t : ℕ) (b : ℕ) (s : State) : ownAddr (tick t s) b = ownAddr s b := (rfl)
@[simp] theorem alignAt_tick (t : ℕ) (b : ℕ) (s : State) : alignAt (tick t s) b = alignAt s b := (rfl)
@[simp] theorem modeBad_tick (t : ℕ) (b : Pkt) (c : ℕ) (s : State) : modeBad (tick t s) b c = modeBad s b c := (rfl)
@[simp] theorem codesAt_tick (t : ℕ) (b : ℕ) (c : ℕ) (s : State) : codesAt (tick t s) b c = codesAt s b c := (rfl)
@[simp] theorem pageOfLeaf_tick (t : ℕ) (b : Leaf) (s : State) : pageOfLeaf (tick t s) b = pageOfLeaf s b := (rfl)
@[simp] theorem xnCap_tick (t : ℕ) (s : State) : xnCap (tick t s) = xnCap s := (rfl)
@[simp] theorem xnLoad_tick (t : ℕ) (s : State) : xnLoad (tick t s) = xnLoad s := (rfl)
@[simp] theorem partnerOk_tick (t : ℕ) (b : ℕ) (c : ℕ) (d : ℕ) (s : State) : partnerOk (tick t s) b c d = partnerOk s b c d := (rfl)
@[simp] theorem dependsOn_tick (t : ℕ) (b : ℕ) (c : ℕ) (s : State) : dependsOn (tick t s) b c = dependsOn s b c := (rfl)
@[simp] theorem layerOf_tick (t : ℕ) (b : ℕ) (c : ℕ) (s : State) : layerOf (tick t s) b c = layerOf s b c := (rfl)
@[simp] theorem placement_tick (t : ℕ) (b : ℕ) (c : ℕ) (d : ℕ) (s : State) : placement (tick t s) b c d = placement s b c d := (rfl)
@[simp] theorem embCmdOf_tick (t : ℕ) (b : ExuRec) (s : State) : embCmdOf (tick t s) b = embCmdOf s b := (rfl)
@[simp] theorem newestNum_tick (t : ℕ) (b : ℕ) (s : State) : newestNum (tick t s) b = newestNum s b := (rfl)
@[simp] theorem modelChips_tick (t : ℕ) (b : ℕ) (s : State) : modelChips (tick t s) b = modelChips s b := (rfl)
@[simp] theorem embRec_tick (t : ℕ) (b : EmbCmd) (c : ℕ) (s : State) : embRec (tick t s) b c = embRec s b c := (rfl)
@[simp] theorem reachable_tick (t : ℕ) (b : ℕ) (s : State) : reachable (tick t s) b = reachable s b := (rfl)
@[simp] theorem tokenEpoch_tick (t : ℕ) (b : ℕ) (c : Option ℕ) (s : State) : tokenEpoch (tick t s) b c = tokenEpoch s b c := (rfl)
@[simp] theorem stepEpoch_tick (t : ℕ) (b : ℕ) (s : State) : stepEpoch (tick t s) b = stepEpoch s b := (rfl)
@[simp] theorem stepLc_tick (t : ℕ) (b : ℕ) (s : State) : stepLc (tick t s) b = stepLc s b := (rfl)
@[simp] theorem spansPoisoned_tick (t : ℕ) (b : List (ℕ × ℕ)) (s : State) : spansPoisoned (tick t s) b = spansPoisoned s b := (rfl)
@[simp] theorem expertOf_tick (t : ℕ) (b : ExuRec) (s : State) : expertOf (tick t s) b = expertOf s b := (rfl)
@[simp] theorem openExchanges_tick (t : ℕ) (b : ℕ) (c : ℕ) (s : State) : openExchanges (tick t s) b c = openExchanges s b c := (rfl)
@[simp] theorem exchangeOf_tick (t : ℕ) (b : ℕ) (c : ℕ) (d : ℕ) (s : State) : exchangeOf (tick t s) b c d = exchangeOf s b c d := (rfl)
@[simp] theorem queueOf_tick (t : ℕ) (b : ExuRec) (s : State) : queueOf (tick t s) b = queueOf s b := (rfl)
@[simp] theorem embTable_tick (t : ℕ) (b : ℕ) (c : ℕ) (d : ℕ) (s : State) : embTable (tick t s) b c d = embTable s b c d := (rfl)
@[simp] theorem embStateAt_tick (t : ℕ) (b : ℕ) (c : ℕ) (d : ℕ) (s : State) : embStateAt (tick t s) b c d = embStateAt s b c d := (rfl)
@[simp] theorem rowReach_tick (t : ℕ) (b : ℕ) (c : EmbTable) (d : ℕ) (s : State) : rowReach (tick t s) b c d = rowReach s b c d := (rfl)
@[simp] theorem rowValues_tick (t : ℕ) (b : EmbTable) (c : ℕ) (s : State) : rowValues (tick t s) b c = rowValues s b c := (rfl)
@[simp] theorem gatherGen_tick (t : ℕ) (b : ℕ) (c : ℕ) (d : ℕ) (e : Option ℕ) (s : State) : gatherGen (tick t s) b c d e = gatherGen s b c d e := (rfl)
@[simp] theorem poolRows_tick (t : ℕ) (b : EmbTable) (c : ExuRec) (d : List ℕ) (s : State) : poolRows (tick t s) b c d = poolRows s b c d := (rfl)
@[simp] theorem embBusy_tick (t : ℕ) (b : ℕ) (c : ℕ) (s : State) : embBusy (tick t s) b c = embBusy s b c := (rfl)
@[simp] theorem tableIdx_tick (t : ℕ) (b : ℕ) (c : ℕ) (s : State) : tableIdx (tick t s) b c = tableIdx s b c := (rfl)
@[simp] theorem servesCheck_tick (t : ℕ) (b : Hdr) (s : State) : servesCheck (tick t s) b = servesCheck s b := (rfl)
@[simp] theorem runningPlates_tick (t : ℕ) (b : ExuRec) (s : State) : runningPlates (tick t s) b = runningPlates s b := (rfl)
@[simp] theorem hasPage_tick (t : ℕ) (b : ℕ) (c : ℕ) (d : ℕ) (s : State) : hasPage (tick t s) b c d = hasPage s b c d := (rfl)
@[simp] theorem pageEvicted_tick (t : ℕ) (b : ℕ) (c : KvGeom) (d : ℕ) (e : ℕ) (s : State) : pageEvicted (tick t s) b c d e = pageEvicted s b c d e := (rfl)
@[simp] theorem wordFrames_tick (t : ℕ) (b : KvGeom) (c : ℕ) (s : State) : wordFrames (tick t s) b c = wordFrames s b c := (rfl)
@[simp] theorem shortOf_tick (t : ℕ) (a : ℕ) (b : ℕ) (s : State) : shortOf a b (tick t s) = shortOf a b s := (rfl)
@[simp] theorem nextPositions_tick (t : ℕ) (b : Request) (s : State) : nextPositions (tick t s) b = nextPositions s b := (rfl)
@[simp] theorem workCount_tick (t : ℕ) (b : ℕ × WorkKind) (s : State) : workCount (tick t s) b = workCount s b := (rfl)
@[simp] theorem tableFits_tick (t : ℕ) (b : List (ℕ × WorkKind)) (s : State) : tableFits (tick t s) b = tableFits s b := (rfl)
@[simp] theorem workEpoch_tick (t : ℕ) (b : ℕ) (c : ℕ × WorkKind) (s : State) : workEpoch (tick t s) b c = workEpoch s b c := (rfl)
@[simp] theorem workOk_tick (t : ℕ) (b : ℕ) (c : List (ℕ × WorkKind)) (s : State) : workOk (tick t s) b c = workOk s b c := (rfl)
@[simp] theorem askGen_tick (t : ℕ) (b : GenBody) (s : State) : askGen (tick t s) b = askGen s b := (rfl)
@[simp] theorem awaitsStop_tick (t : ℕ) (b : ℕ) (s : State) : awaitsStop (tick t s) b = awaitsStop s b := (rfl)
@[simp] theorem treeFrames_tick (t : ℕ) (b : ℕ) (c : ℕ) (d : ℕ) (e : ℕ) (s : State) : treeFrames (tick t s) b c d e = treeFrames s b c d e := (rfl)
@[simp] theorem stepServes_tick (t : ℕ) (b : ℕ) (s : State) : stepServes (tick t s) b = stepServes s b := (rfl)
@[simp] theorem cancelTarget_tick (t : ℕ) (b : ℕ) (c : ℕ) (s : State) : cancelTarget (tick t s) b c = cancelTarget s b c := (rfl)
@[simp] theorem endPlate_tick (t : ℕ) (b : ℕ) (c : ℕ) (d : ℕ) (s : State) : endPlate (tick t s) b c d = endPlate s b c d := (rfl)
@[simp] theorem dvaCtx_tick (t : ℕ) (b : ℕ) (c : ℕ) (d : ℕ) (s : State) : dvaCtx (tick t s) b c d = dvaCtx s b c d := (rfl)
@[simp] theorem stepKv_tick (t : ℕ) (b : ℕ) (s : State) : stepKv (tick t s) b = stepKv s b := (rfl)
@[simp] theorem placeOf_tick (t : ℕ) (b : ℕ) (c : ℕ) (d : ℕ) (e : ℕ) (f : ℕ) (g : Bool) (s : State) : placeOf (tick t s) b c d e f g = placeOf s b c d e f g := (rfl)
@[simp] theorem kvSeq_tick (t : ℕ) (b : ℕ) (c : ℕ) (s : State) : kvSeq (tick t s) b c = kvSeq s b c := (rfl)
@[simp] theorem readPlace_tick (t : ℕ) (b : ℕ) (c : ℕ) (d : ℕ) (e : ℕ) (f : ℕ) (s : State) : readPlace (tick t s) b c d e f = readPlace s b c d e f := (rfl)
@[simp] theorem jobChan_tick (t : ℕ) (b : ℕ) (c : ℕ) (s : State) : jobChan (tick t s) b c = jobChan s b c := (rfl)
@[simp] theorem headTile_tick (t : ℕ) (b : ℕ) (s : State) : headTile (tick t s) b = headTile s b := (rfl)
@[simp] theorem chanRemotes_tick (t : ℕ) (b : ℕ) (s : State) : chanRemotes (tick t s) b = chanRemotes s b := (rfl)
@[simp] theorem srcPlaces_tick (t : ℕ) (b : TileJob) (s : State) : srcPlaces (tick t s) b = srcPlaces s b := (rfl)
@[simp] theorem dstPlaces_tick (t : ℕ) (b : TileJob) (s : State) : dstPlaces (tick t s) b = dstPlaces s b := (rfl)
@[simp] theorem farReads_tick (t : ℕ) (b : TileJob) (s : State) : farReads (tick t s) b = farReads s b := (rfl)
@[simp] theorem chanPkt_tick (t : ℕ) (b : ℕ) (c : TileJob) (d : ℕ) (s : State) : chanPkt (tick t s) b c d = chanPkt s b c d := (rfl)
@[simp] theorem farChips_tick (t : ℕ) (b : TileJob) (s : State) : farChips (tick t s) b = farChips s b := (rfl)
@[simp] theorem t2Zero_tick (t : ℕ) (b : ℕ) (c : ℕ) (d : ℕ) (s : State) : t2Zero (tick t s) b c d = t2Zero s b c d := (rfl)
@[simp] theorem partPoisoned_tick (t : ℕ) (b : ℕ) (c : List Place) (s : State) : partPoisoned (tick t s) b c = partPoisoned s b c := (rfl)
@[simp] theorem touches_tick (t : ℕ) (b : TileJob) (c : ℕ) (s : State) : touches (tick t s) b c = touches s b c := (rfl)
@[simp] theorem tileBlocked_tick (t : ℕ) (b : TileJob) (s : State) : tileBlocked (tick t s) b = tileBlocked s b := (rfl)
@[simp] theorem stuckTiles_tick (t : ℕ) (b : ℕ) (s : State) : stuckTiles (tick t s) b = stuckTiles s b := (rfl)
@[simp] theorem peerCopy_tick (t : ℕ) (b : Manifest) (c : ℕ) (d : ℕ → Bool) (s : State) : peerCopy (tick t s) b c d = peerCopy s b c d := (rfl)
@[simp] theorem areaOf_tick (t : ℕ) (b : ℕ) (s : State) : areaOf (tick t s) b = areaOf s b := (rfl)
@[simp] theorem bundleAt_tick (t : ℕ) (b : Epoch) (c : ℕ) (s : State) : bundleAt (tick t s) b c = bundleAt s b c := (rfl)
@[simp] theorem shardAt_tick (t : ℕ) (b : Epoch) (c : ℕ) (s : State) : shardAt (tick t s) b c = shardAt s b c := (rfl)
@[simp] theorem shardOfFrame_tick (t : ℕ) (b : ℕ) (s : State) : shardOfFrame (tick t s) b = shardOfFrame s b := (rfl)
@[simp] theorem embFrame_tick (t : ℕ) (b : Epoch) (c : ℕ) (s : State) : embFrame (tick t s) b c = embFrame s b c := (rfl)
@[simp] theorem readLine_tick (t : ℕ) (b : ℕ) (c : ℕ) (s : State) : readLine (tick t s) b c = readLine s b c := (rfl)
@[simp] theorem frameHeld_tick (t : ℕ) (b : ℕ) (s : State) : frameHeld (tick t s) b = frameHeld s b := (rfl)
@[simp] theorem accessedFrames_tick (t : ℕ) (s : State) : accessedFrames (tick t s) = accessedFrames s := (rfl)
@[simp] theorem dropGranted_tick (t : ℕ) (b : ℕ) (s : State) : dropGranted (tick t s) b = dropGranted s b := (rfl)
@[simp] theorem erasing_tick (t : ℕ) (b : ℕ) (s : State) : erasing (tick t s) b = erasing s b := (rfl)
@[simp] theorem invasive_tick (t : ℕ) (s : State) : invasive (tick t s) = invasive s := (rfl)
@[simp] theorem areaRuns_tick (t : ℕ) (s : State) : areaRuns (tick t s) = areaRuns s := (rfl)
@[simp] theorem freeModel_tick (t : ℕ) (s : State) : freeModel (tick t s) = freeModel s := (rfl)
@[simp] theorem mayEvict_tick (t : ℕ) (b : ℕ) (s : State) : mayEvict (tick t s) b = mayEvict s b := (rfl)
@[simp] theorem targetChunks_tick (t : ℕ) (b : ℕ) (s : State) : targetChunks (tick t s) b = targetChunks s b := (rfl)
@[simp] theorem liveFrames_tick (t : ℕ) (b : Part) (s : State) : liveFrames (tick t s) b = liveFrames s b := (rfl)
@[simp] theorem spareFrames_tick (t : ℕ) (b : ℕ) (s : State) : spareFrames (tick t s) b = spareFrames s b := (rfl)
@[simp] theorem reclaimChoice_tick (t : ℕ) (b : ℕ) (s : State) : reclaimChoice (tick t s) b = reclaimChoice s b := (rfl)
@[simp] theorem liveModel_tick (t : ℕ) (s : State) : liveModel (tick t s) = liveModel s := (rfl)
@[simp] theorem groupOfId_tick (t : ℕ) (b : ℕ) (s : State) : groupOfId (tick t s) b = groupOfId s b := (rfl)
@[simp] theorem boundGroup_tick (t : ℕ) (b : ℕ) (c : ℕ) (s : State) : boundGroup (tick t s) b c = boundGroup s b c := (rfl)
@[simp] theorem createBad_tick (t : ℕ) (b : Hdr) (c : CollGroupBody) (s : State) : createBad (tick t s) b c = createBad s b c := (rfl)
@[simp] theorem stageBad_tick (t : ℕ) (b : Hdr) (c : CollGroupBody) (s : State) : stageBad (tick t s) b c = stageBad s b c := (rfl)
@[simp] theorem flowSeq_tick (t : ℕ) (b : ℕ) (c : ℕ) (s : State) : flowSeq (tick t s) b c = flowSeq s b c := (rfl)
@[simp] theorem joinOf_tick (t : ℕ) (b : Group) (s : State) : joinOf (tick t s) b = joinOf s b := (rfl)
@[simp] theorem collRead_tick (t : ℕ) (b : ℕ) (c : ℕ) (d : Bool) (e : ℕ) (f : ℕ) (s : State) : collRead (tick t s) b c d e f = collRead s b c d e f := (rfl)
@[simp] theorem headOp_tick (t : ℕ) (b : ℕ) (s : State) : headOp (tick t s) b = headOp s b := (rfl)
@[simp] theorem collPkt_tick (t : ℕ) (b : ℕ) (c : CollOp) (s : State) : collPkt (tick t s) b c = collPkt s b c := (rfl)
@[simp] theorem crossTargets_tick (t : ℕ) (b : Group) (s : State) : crossTargets (tick t s) b = crossTargets s b := (rfl)
@[simp] theorem ownSeg_tick (t : ℕ) (b : Group) (c : CollOp) (d : ℕ) (s : State) : ownSeg (tick t s) b c d = ownSeg s b c d := (rfl)
@[simp] theorem sourceOk_tick (t : ℕ) (b : Group) (c : CollOp) (s : State) : sourceOk (tick t s) b c = sourceOk s b c := (rfl)
@[simp] theorem groupFuel_tick (t : ℕ) (b : ℕ) (s : State) : groupFuel (tick t s) b = groupFuel s b := (rfl)
@[simp] theorem collCame_tick (t : ℕ) (a : ℕ) (b : CollPkt) (s : State) : collCame a b (tick t s) = collCame a b s := (rfl)
@[simp] theorem cellMode_tick (t : ℕ) (b : ℕ) (c : ℕ) (s : State) : cellMode (tick t s) b c = cellMode s b c := (rfl)
@[simp] theorem cellFlags_tick (t : ℕ) (b : ℕ) (c : ℕ) (s : State) : cellFlags (tick t s) b c = cellFlags s b c := (rfl)
@[simp] theorem bankByte_tick (t : ℕ) (b : ℕ) (c : ℕ) (d : ℕ) (s : State) : bankByte (tick t s) b c d = bankByte s b c d := (rfl)
@[simp] theorem plateLayer_tick (t : ℕ) (b : ℕ) (c : ℕ) (s : State) : plateLayer (tick t s) b c = plateLayer s b c := (rfl)
@[simp] theorem plateTable_tick (t : ℕ) (b : ℕ) (c : ℕ) (s : State) : plateTable (tick t s) b c = plateTable s b c := (rfl)
@[simp] theorem islId_tick (t : ℕ) (b : ℕ) (c : ℕ) (s : State) : islId (tick t s) b c = islId s b c := (rfl)
@[simp] theorem spanPoisoned_tick (t : ℕ) (b : ℕ) (c : Span) (s : State) : spanPoisoned (tick t s) b c = spanPoisoned s b c := (rfl)
@[simp] theorem dotSpans_tick (t : ℕ) (b : ℕ) (c : ℕ) (d : DotOp) (s : State) : dotSpans (tick t s) b c d = dotSpans s b c d := (rfl)
@[simp] theorem rowLive_tick (t : ℕ) (b : ProofRow) (s : State) : rowLive (tick t s) b = rowLive s b := (rfl)
@[simp] theorem sharesOf_tick (t : ℕ) (b : List ProofRow) (s : State) : sharesOf (tick t s) b = sharesOf s b := (rfl)
@[simp] theorem scaleSpan_tick (t : ℕ) (b : ℕ) (c : ℕ) (s : State) : scaleSpan (tick t s) b c = scaleSpan s b c := (rfl)
@[simp] theorem proofScale_tick (t : ℕ) (b : ℕ) (c : ℕ) (d : ℕ) (e : ProofOp) (f : ℕ) (g : ℕ) (s : State) : proofScale (tick t s) b c d e f g = proofScale s b c d e f g := (rfl)
@[simp] theorem proofQ_tick (t : ℕ) (b : ℕ) (c : ℕ) (d : ProofOp) (e : ℕ) (f : ℕ) (s : State) : proofQ (tick t s) b c d e f = proofQ s b c d e f := (rfl)
@[simp] theorem proofSpans_tick (t : ℕ) (b : ℕ) (c : ℕ) (d : ℕ) (e : ProofOp) (f : ℕ) (s : State) : proofSpans (tick t s) b c d e f = proofSpans s b c d e f := (rfl)
@[simp] theorem tileAt_tick (t : ℕ) (b : ℕ) (c : ℕ) (s : State) : tileAt (tick t s) b c = tileAt s b c := (rfl)
@[simp] theorem keptOn_tick (t : ℕ) (b : ℕ) (c : ℕ) (s : State) : keptOn (tick t s) b c = keptOn s b c := (rfl)
@[simp] theorem orderedTiles_tick (t : ℕ) (b : ℕ) (s : State) : orderedTiles (tick t s) b = orderedTiles s b := (rfl)
@[simp] theorem layerAct_tick (t : ℕ) (b : ℕ) (c : ℕ) (d : List (ℕ × ProofTile)) (s : State) : layerAct (tick t s) b c d = layerAct s b c d := (rfl)
@[simp] theorem nextAct_tick (t : ℕ) (b : ℕ) (s : State) : nextAct (tick t s) b = nextAct s b := (rfl)
@[simp] theorem rungNs_tick (t : ℕ) (b : ℕ) (c : ProofTile) (d : ℕ) (e : Bool) (s : State) : rungNs (tick t s) b c d e = rungNs s b c d e := (rfl)
@[simp] theorem actNs_tick (t : ℕ) (b : ℕ) (c : ProofAct) (s : State) : actNs (tick t s) b c = actNs s b c := (rfl)
@[simp] theorem layerTiles_tick (t : ℕ) (b : ℕ) (c : ℕ) (s : State) : layerTiles (tick t s) b c = layerTiles s b c := (rfl)
@[simp] theorem epiStages_tick (t : ℕ) (b : ℕ) (c : ℕ) (d : EpiOp) (e : ℕ) (f : Word) (s : State) : epiStages (tick t s) b c d e f = epiStages s b c d e f := (rfl)
@[simp] theorem masked_tick (t : ℕ) (b : AttnRow) (c : ℕ) (s : State) : masked (tick t s) b c = masked s b c := (rfl)
@[simp] theorem massPos_tick (t : ℕ) (b : ℕ × WorkKind) (s : State) : massPos (tick t s) b = massPos s b := (rfl)
@[simp] theorem routeEnd_tick (t : ℕ) (b : ℕ) (c : ℕ) (d : ℕ) (s : State) : routeEnd (tick t s) b c d = routeEnd s b c d := (rfl)
@[simp] theorem takesPart_tick (t : ℕ) (b : ℕ) (c : StepOp) (s : State) : takesPart (tick t s) b c = takesPart s b c := (rfl)
@[simp] theorem liveWork_tick (t : ℕ) (b : ℕ × WorkKind) (s : State) : liveWork (tick t s) b = liveWork s b := (rfl)
@[simp] theorem cleanQueue_tick (t : ℕ) (b : List Queued) (s : State) : cleanQueue (tick t s) b = cleanQueue s b := (rfl)
@[simp] theorem needsRecompute_tick (t : ℕ) (b : ℕ × WorkKind) (s : State) : needsRecompute (tick t s) b = needsRecompute s b := (rfl)
@[simp] theorem nextStep_tick (t : ℕ) (b : ℕ) (s : State) : nextStep (tick t s) b = nextStep s b := (rfl)
@[simp] theorem recomputing_tick (t : ℕ) (b : ℕ) (s : State) : recomputing (tick t s) b = recomputing s b := (rfl)
@[simp] theorem dropRun_tick (t : ℕ) (b : ℕ) (s : State) : dropRun (tick t s) b = dropRun s b := (rfl)
@[simp] theorem workHeld_tick (t : ℕ) (b : Queued) (s : State) : workHeld (tick t s) b = workHeld s b := (rfl)
@[simp] theorem targetsMet_tick (t : ℕ) (b : ℕ) (c : ℕ) (s : State) : targetsMet (tick t s) b c = targetsMet s b c := (rfl)
@[simp] theorem slotTaken_tick (t : ℕ) (b : ℕ) (s : State) : slotTaken (tick t s) b = slotTaken s b := (rfl)
@[simp] theorem workReq_tick (t : ℕ) (b : ℕ × WorkKind) (s : State) : workReq (tick t s) b = workReq s b := (rfl)
@[simp] theorem queuedLc_tick (t : ℕ) (b : Queued) (s : State) : queuedLc (tick t s) b = queuedLc s b := (rfl)
@[simp] theorem entLeft_tick (t : ℕ) (b : ℕ) (c : ℕ) (s : State) : entLeft (tick t s) b c = entLeft s b c := (rfl)
@[simp] theorem entitled_tick (t : ℕ) (b : ℕ) (s : State) : entitled (tick t s) b = entitled s b := (rfl)
@[simp] theorem proofTurn_tick (t : ℕ) (b : ℕ) (c : Queued) (s : State) : proofTurn (tick t s) b c = proofTurn s b c := (rfl)
@[simp] theorem stepRank_tick (t : ℕ) (b : Queued) (s : State) : stepRank (tick t s) b = stepRank s b := (rfl)
@[simp] theorem workSpan_tick (t : ℕ) (b : ℕ × WorkKind) (s : State) : workSpan (tick t s) b = workSpan s b := (rfl)
@[simp] theorem workPositions_tick (t : ℕ) (b : Request) (c : ℕ × WorkKind) (s : State) : workPositions (tick t s) b c = workPositions s b c := (rfl)
@[simp] theorem clampWork_tick (t : ℕ) (b : ℕ × WorkKind) (s : State) : clampWork (tick t s) b = clampWork s b := (rfl)
@[simp] theorem attnPlace_tick (t : ℕ) (b : ℕ) (c : ℕ) (s : State) : attnPlace (tick t s) b c = attnPlace s b c := (rfl)
@[simp] theorem bucketOf_tick (t : ℕ) (b : List ℕ) (c : ℕ × WorkKind) (s : State) : bucketOf (tick t s) b c = bucketOf s b c := (rfl)
@[simp] theorem stepBounds_tick (t : ℕ) (b : ℕ) (c : ℕ) (s : State) : stepBounds (tick t s) b c = stepBounds s b c := (rfl)
@[simp] theorem lengthEntry_tick (t : ℕ) (b : ℕ × WorkKind) (s : State) : lengthEntry (tick t s) b = lengthEntry s b := (rfl)
@[simp] theorem ownGroups_tick (t : ℕ) (b : KvGeom) (s : State) : ownGroups (tick t s) b = ownGroups s b := (rfl)
@[simp] theorem headHas_tick (t : ℕ) (b : ℕ) (c : ℕ) (d : KvGeom) (e : ℕ) (f : ℕ) (s : State) : headHas (tick t s) b c d e f = headHas s b c d e f := (rfl)
@[simp] theorem slowest_tick (t : ℕ) (b : ℕ) (s : State) : slowest (tick t s) b = slowest s b := (rfl)
@[simp] theorem overrunLimit_tick (t : ℕ) (b : ℕ) (c : Running) (s : State) : overrunLimit (tick t s) b c = overrunLimit s b c := (rfl)
@[simp] theorem watchdogReached_tick (t : ℕ) (b : ℕ) (c : ℕ) (d : Bool) (s : State) : watchdogReached (tick t s) b c d = watchdogReached s b c d := (rfl)
@[simp] theorem stepOverrun_tick (t : ℕ) (b : ℕ) (c : ℕ) (d : ℕ) (e : Running) (s : State) : stepOverrun (tick t s) b c d e = stepOverrun s b c d e := (rfl)
@[simp] theorem stepLayers_tick (t : ℕ) (b : ℕ) (s : State) : stepLayers (tick t s) b = stepLayers s b := (rfl)
@[simp] theorem detokBytes_tick (t : ℕ) (b : ℕ) (c : ℕ) (d : ℕ) (s : State) : detokBytes (tick t s) b c d = detokBytes s b c d := (rfl)
@[simp] theorem badToken_tick (t : ℕ) (b : ℕ) (c : ℕ) (d : ℕ) (s : State) : badToken (tick t s) b c d = badToken s b c d := (rfl)
@[simp] theorem workRows_tick (t : ℕ) (b : ℕ × WorkKind) (s : State) : workRows (tick t s) b = workRows s b := (rfl)
@[simp] theorem rowShare_tick (t : ℕ) (b : List (ℕ × WorkKind)) (c : ℕ) (d : ℕ) (e : ℕ × WorkKind) (s : State) : rowShare (tick t s) b c d e = rowShare s b c d e := (rfl)
@[simp] theorem promptDone_tick (t : ℕ) (b : ℕ) (s : State) : promptDone (tick t s) b = promptDone s b := (rfl)
@[simp] theorem watchSlices_tick (t : ℕ) (b : ℕ) (c : ℕ) (d : ℕ) (s : State) : watchSlices (tick t s) b c d = watchSlices s b c d := (rfl)
@[simp] theorem raggedOk_tick (t : ℕ) (b : ℕ) (c : KvGeom) (s : State) : raggedOk (tick t s) b c = raggedOk s b c := (rfl)
@[simp] theorem admitOk_tick (t : ℕ) (b : ℕ) (c : ℕ) (d : ℕ) (e : Option Reservation) (f : Option KvGeom) (s : State) : admitOk (tick t s) b c d e f = admitOk s b c d e f := (rfl)
@[simp] theorem jobTaken_tick (t : ℕ) (b : ℕ) (s : State) : jobTaken (tick t s) b = jobTaken s b := (rfl)
@[simp] theorem freeJob_tick (t : ℕ) (s : State) : freeJob (tick t s) = freeJob s := (rfl)
@[simp] theorem freeChans_tick (t : ℕ) (s : State) : freeChans (tick t s) = freeChans s := (rfl)
@[simp] theorem overJobs_tick (t : ℕ) (a : Reservation → ℕ) (s : State) : overJobs a (tick t s) = overJobs a s := (rfl)
@[simp] theorem unfenced_tick (t : ℕ) (s : State) : unfenced (tick t s) = unfenced s := (rfl)
@[simp] theorem sumsHold_tick (t : ℕ) (b : Reservation) (s : State) : sumsHold (tick t s) b = sumsHold s b := (rfl)
@[simp] theorem fullTest_tick (t : ℕ) (s : State) : fullTest (tick t s) = fullTest s := (rfl)
@[simp] theorem admitPre_tick (t : ℕ) (b : Hdr) (s : State) : admitPre (tick t s) b = admitPre s b := (rfl)
@[simp] theorem admitCheck_tick (t : ℕ) (b : Hdr) (c : ℕ) (d : ℕ) (e : Option Reservation) (f : Option KvGeom) (s : State) : admitCheck (tick t s) b c d e f = admitCheck s b c d e f := (rfl)
@[simp] theorem nextJobId_tick (t : ℕ) (b : ℕ) (s : State) : nextJobId (tick t s) b = nextJobId s b := (rfl)
@[simp] theorem tableBytes_tick (t : ℕ) (s : State) : tableBytes (tick t s) = tableBytes s := (rfl)
@[simp] theorem imageContents_tick (t : ℕ) (b : ℕ) (c : PlateImage) (s : State) : imageContents (tick t s) b c = imageContents s b c := (rfl)
@[simp] theorem banksUsed_tick (t : ℕ) (b : ℕ) (s : State) : banksUsed (tick t s) b = banksUsed s b := (rfl)
@[simp] theorem ctrsUsed_tick (t : ℕ) (b : ℕ) (s : State) : ctrsUsed (tick t s) b = ctrsUsed s b := (rfl)
@[simp] theorem sharesFit_tick (t : ℕ) (b : ℕ) (c : ℕ) (s : State) : sharesFit (tick t s) b c = sharesFit s b c := (rfl)
@[simp] theorem islandFree_tick (t : ℕ) (b : ℕ) (c : ℕ) (d : IslRec) (s : State) : islandFree (tick t s) b c d = islandFree s b c d := (rfl)
@[simp] theorem candidate_tick (t : ℕ) (b : ℕ) (c : List (ℕ × IslRec)) (s : State) : candidate (tick t s) b c = candidate s b c := (rfl)
@[simp] theorem placeKey_tick (t : ℕ) (b : ℕ) (c : ℕ) (d : ℕ) (e : List (ℕ × IslRec)) (s : State) : placeKey (tick t s) b c d e = placeKey s b c d e := (rfl)
@[simp] theorem choosePlace_tick (t : ℕ) (b : ℕ) (c : PlateImage) (s : State) : choosePlace (tick t s) b c = choosePlace s b c := (rfl)
@[simp] theorem pickCtrs_tick (t : ℕ) (b : ℕ) (c : ℕ) (s : State) : pickCtrs (tick t s) b c = pickCtrs s b c := (rfl)
@[simp] theorem pickBanks_tick (t : ℕ) (b : ℕ) (c : ℕ) (s : State) : pickBanks (tick t s) b c = pickBanks s b c := (rfl)
@[simp] theorem freePlate_tick (t : ℕ) (s : State) : freePlate (tick t s) = freePlate s := (rfl)
@[simp] theorem lostIsland_tick (t : ℕ) (b : ℕ) (s : State) : lostIsland (tick t s) b = lostIsland s b := (rfl)
@[simp] theorem loadOf_tick (t : ℕ) (b : ℕ) (s : State) : loadOf (tick t s) b = loadOf s b := (rfl)
@[simp] theorem tablesStand_tick (t : ℕ) (b : ℕ) (c : PlateImage) (s : State) : tablesStand (tick t s) b c = tablesStand s b c := (rfl)
@[simp] theorem plateNeeded_tick (t : ℕ) (b : ℕ) (s : State) : plateNeeded (tick t s) b = plateNeeded s b := (rfl)
@[simp] theorem tableOf_tick (t : ℕ) (b : ℕ) (c : ℕ) (s : State) : tableOf (tick t s) b c = tableOf s b c := (rfl)
@[simp] theorem reloadSigner_tick (t : ℕ) (b : Tbl) (s : State) : reloadSigner (tick t s) b = reloadSigner s b := (rfl)
@[simp] theorem modelInUse_tick (t : ℕ) (b : ℕ) (s : State) : modelInUse (tick t s) b = modelInUse s b := (rfl)
@[simp] theorem installOf_tick (t : ℕ) (b : ℕ) (s : State) : installOf (tick t s) b = installOf s b := (rfl)
@[simp] theorem expertsAgree_tick (t : ℕ) (b : ℕ) (c : Manifest) (s : State) : expertsAgree (tick t s) b c = expertsAgree s b c := (rfl)
@[simp] theorem manifestOk_tick (t : ℕ) (b : ℕ) (c : Manifest) (s : State) : manifestOk (tick t s) b c = manifestOk s b c := (rfl)
@[simp] theorem coordHere_tick (t : ℕ) (b : ℕ) (s : State) : coordHere (tick t s) b = coordHere s b := (rfl)
@[simp] theorem otherChips_tick (t : ℕ) (b : ℕ) (s : State) : otherChips (tick t s) b = otherChips s b := (rfl)
@[simp] theorem nextEpoch_tick (t : ℕ) (b : ℕ) (s : State) : nextEpoch (tick t s) b = nextEpoch s b := (rfl)
@[simp] theorem placeEmb_tick (t : ℕ) (b : ℕ) (c : ℕ) (d : ℕ) (e : EmbTable) (s : State) : placeEmb (tick t s) b c d e = placeEmb s b c d e := (rfl)
@[simp] theorem raggedAgrees_tick (t : ℕ) (b : ℕ) (c : Manifest) (s : State) : raggedAgrees (tick t s) b c = raggedAgrees s b c := (rfl)
@[simp] theorem areaRoom_tick (t : ℕ) (b : ℕ) (s : State) : areaRoom (tick t s) b = areaRoom s b := (rfl)
@[simp] theorem staging_tick (t : ℕ) (b : ℕ) (s : State) : staging (tick t s) b = staging s b := (rfl)
@[simp] theorem lateVote_tick (t : ℕ) (b : ℕ) (c : ℕ) (d : Option ℕ) (s : State) : lateVote (tick t s) b c d = lateVote s b c d := (rfl)
@[simp] theorem fromCoord_tick (t : ℕ) (b : ℕ) (c : ℕ) (s : State) : fromCoord (tick t s) b c = fromCoord s b c := (rfl)
@[simp] theorem drainCoord_tick (t : ℕ) (b : Epoch) (s : State) : drainCoord (tick t s) b = drainCoord s b := (rfl)
@[simp] theorem chipServes_tick (t : ℕ) (b : ℕ) (c : ℕ) (s : State) : chipServes (tick t s) b c = chipServes s b c := (rfl)
@[simp] theorem othersJob_tick (t : ℕ) (b : ℕ) (c : ℕ) (s : State) : othersJob (tick t s) b c = othersJob s b c := (rfl)
@[simp] theorem layerRecords_tick (t : ℕ) (b : ℕ) (c : Bool) (s : State) : layerRecords (tick t s) b c = layerRecords s b c := (rfl)
@[simp] theorem tensorBytes_tick (t : ℕ) (b : ℕ) (c : ℕ) (d : ℕ) (s : State) : tensorBytes (tick t s) b c d = tensorBytes s b c d := (rfl)
@[simp] theorem watchBad_tick (t : ℕ) (b : Hdr) (c : WatchBody) (s : State) : watchBad (tick t s) b c = watchBad s b c := (rfl)
@[simp] theorem managerEid_tick (t : ℕ) (b : ℕ) (s : State) : managerEid (tick t s) b = managerEid s b := (rfl)
@[simp] theorem maySign_tick (t : ℕ) (s : State) : maySign (tick t s) = maySign s := (rfl)
@[simp] theorem vfEnabled_tick (t : ℕ) (b : ℕ) (s : State) : vfEnabled (tick t s) b = vfEnabled s b := (rfl)
@[simp] theorem ctxBusy_tick (t : ℕ) (b : ℕ) (s : State) : ctxBusy (tick t s) b = ctxBusy s b := (rfl)
@[simp] theorem sirdoyxRuns_tick (t : ℕ) (s : State) : sirdoyxRuns (tick t s) = sirdoyxRuns s := (rfl)
@[simp] theorem tenantData_tick (t : ℕ) (s : State) : tenantData (tick t s) = tenantData s := (rfl)
@[simp] theorem tokenShape_tick (t : ℕ) (b : UnlockToken) (s : State) : tokenShape (tick t s) b = tokenShape s b := (rfl)
@[simp] theorem logOf_tick (t : ℕ) (b : ℕ) (s : State) : logOf (tick t s) b = logOf s b := (rfl)
@[simp] theorem hasIdentity_tick (t : ℕ) (s : State) : hasIdentity (tick t s) = hasIdentity s := (rfl)
@[simp] theorem certNats_tick (t : ℕ) (s : State) : certNats (tick t s) = certNats s := (rfl)
@[simp] theorem flashOf_tick (t : ℕ) (b : ℕ) (s : State) : flashOf (tick t s) b = flashOf s b := (rfl)
@[simp] theorem measurement_tick (t : ℕ) (b : ℕ) (s : State) : measurement (tick t s) b = measurement s b := (rfl)
@[simp] theorem tapLevel_tick (t : ℕ) (s : State) : tapLevel (tick t s) = tapLevel s := (rfl)
@[simp] theorem drawnBytes_tick (t : ℕ) (a : ℕ) (s : State) : drawnBytes a (tick t s) = drawnBytes a s := (rfl)
@[simp] theorem mayCancel_tick (t : ℕ) (b : LongOp) (s : State) : mayCancel (tick t s) b = mayCancel s b := (rfl)
@[simp] theorem opNamed_tick (t : ℕ) (b : ℕ) (s : State) : opNamed (tick t s) b = opNamed s b := (rfl)
@[simp] theorem opCheckNames_tick (t : ℕ) (b : Hdr) (c : ℕ) (s : State) : opCheckNames (tick t s) b c = opCheckNames s b c := (rfl)
@[simp] theorem testIslands_tick (t : ℕ) (a : List ℕ) (s : State) : testIslands a (tick t s) = testIslands a s := (rfl)
@[simp] theorem fwCheck_tick (t : ℕ) (b : ℕ) (c : Option FwImage) (s : State) : fwCheck (tick t s) b c = fwCheck s b c := (rfl)
@[simp] theorem partUnused_tick (t : ℕ) (b : ℕ) (s : State) : partUnused (tick t s) b = partUnused s b := (rfl)
@[simp] theorem linkVfs_tick (t : ℕ) (b : ℕ) (s : State) : linkVfs (tick t s) b = linkVfs s b := (rfl)
@[simp] theorem openReqs_tick (t : ℕ) (s : State) : openReqs (tick t s) = openReqs s := (rfl)
@[simp] theorem noticeChips_tick (t : ℕ) (s : State) : noticeChips (tick t s) = noticeChips s := (rfl)
@[simp] theorem bootOrder_tick (t : ℕ) (s : State) : bootOrder (tick t s) = bootOrder s := (rfl)
@[simp] theorem resettable_tick (t : ℕ) (s : State) : resettable (tick t s) = resettable s := (rfl)
@[simp] theorem jobResident_tick (t : ℕ) (s : State) : jobResident (tick t s) = jobResident s := (rfl)
@[simp] theorem floorRefused_tick (t : ℕ) (a : ℕ) (s : State) : floorRefused a (tick t s) = floorRefused a s := (rfl)
@[simp] theorem fromRack_tick (t : ℕ) (b : ℕ) (s : State) : fromRack (tick t s) b = fromRack s b := (rfl)
@[simp] theorem fieldIslands_tick (t : ℕ) (b : ℕ) (s : State) : fieldIslands (tick t s) b = fieldIslands s b := (rfl)
@[simp] theorem anyBelow_tick (t : ℕ) (s : State) : anyBelow (tick t s) = anyBelow s := (rfl)
@[simp] theorem sleepReady_tick (t : ℕ) (s : State) : sleepReady (tick t s) = sleepReady s := (rfl)
@[simp] theorem deepReady_tick (t : ℕ) (s : State) : deepReady (tick t s) = deepReady s := (rfl)
@[simp] theorem idPart_tick (t : ℕ) (s : State) : idPart (tick t s) = idPart s := (rfl)
@[simp] theorem idStraps_tick (t : ℕ) (s : State) : idStraps (tick t s) = idStraps s := (rfl)
@[simp] theorem fencedCount_tick (t : ℕ) (s : State) : fencedCount (tick t s) = fencedCount s := (rfl)
@[simp] theorem usableCount_tick (t : ℕ) (s : State) : usableCount (tick t s) = usableCount s := (rfl)
@[simp] theorem idWord_tick (t : ℕ) (b : ℕ) (s : State) : idWord (tick t s) b = idWord s b := (rfl)
@[simp] theorem tagOf_tick (t : ℕ) (b : Ctx) (s : State) : tagOf (tick t s) b = tagOf s b := (rfl)
@[simp] theorem idVfCtx_tick (t : ℕ) (b : Ctx) (s : State) : idVfCtx (tick t s) b = idVfCtx s b := (rfl)
@[simp] theorem cxVf_tick (t : ℕ) (b : Ctx) (s : State) : cxVf (tick t s) b = cxVf s b := (rfl)
@[simp] theorem msixTable_tick (t : ℕ) (b : ℕ) (c : ℕ) (s : State) : msixTable (tick t s) b c = msixTable s b c := (rfl)
@[simp] theorem msixPba_tick (t : ℕ) (b : ℕ) (c : ℕ) (s : State) : msixPba (tick t s) b c = msixPba s b c := (rfl)
@[simp] theorem hiDbCtrl_tick (t : ℕ) (s : State) : hiDbCtrl (tick t s) = hiDbCtrl s := (rfl)
@[simp] theorem hiDbStatus_tick (t : ℕ) (s : State) : hiDbStatus (tick t s) = hiDbStatus s := (rfl)
@[simp] theorem hiPtmCtrl_tick (t : ℕ) (s : State) : hiPtmCtrl (tick t s) = hiPtmCtrl s := (rfl)
@[simp] theorem hiResetStatus_tick (t : ℕ) (s : State) : hiResetStatus (tick t s) = hiResetStatus s := (rfl)
@[simp] theorem hiSetupLock_tick (t : ℕ) (s : State) : hiSetupLock (tick t s) = hiSetupLock s := (rfl)
@[simp] theorem mmCabCh_tick (t : ℕ) (b : ℕ) (s : State) : mmCabCh (tick t s) b = mmCabCh s b := (rfl)
@[simp] theorem mmPart_tick (t : ℕ) (b : ℕ) (c : ℕ) (s : State) : mmPart (tick t s) b c = mmPart s b c := (rfl)
@[simp] theorem mmWord_tick (t : ℕ) (b : ℕ) (s : State) : mmWord (tick t s) b = mmWord s b := (rfl)
@[simp] theorem fbIslStatus_tick (t : ℕ) (b : ℕ) (s : State) : fbIslStatus (tick t s) b = fbIslStatus s b := (rfl)
@[simp] theorem fbPlateStatus_tick (t : ℕ) (b : ℕ) (s : State) : fbPlateStatus (tick t s) b = fbPlateStatus s b := (rfl)
@[simp] theorem fbWord_tick (t : ℕ) (b : ℕ) (s : State) : fbWord (tick t s) b = fbWord s b := (rfl)
@[simp] theorem xnWord_tick (t : ℕ) (b : ℕ) (s : State) : xnWord (tick t s) b = xnWord s b := (rfl)
@[simp] theorem pwState_tick (t : ℕ) (s : State) : pwState (tick t s) = pwState s := (rfl)
@[simp] theorem pwStatus_tick (t : ℕ) (s : State) : pwStatus (tick t s) = pwStatus s := (rfl)
@[simp] theorem pwWord_tick (t : ℕ) (b : ℕ) (s : State) : pwWord (tick t s) b = pwWord s b := (rfl)
@[simp] theorem syStatus_tick (t : ℕ) (s : State) : syStatus (tick t s) = syStatus s := (rfl)
@[simp] theorem tdAddrOnly_tick (t : ℕ) (b : ℕ) (s : State) : tdAddrOnly (tick t s) b = tdAddrOnly s b := (rfl)
@[simp] theorem subchErr_tick (t : ℕ) (b : ℕ) (s : State) : subchErr (tick t s) b = subchErr s b := (rfl)
@[simp] theorem selCtx_tick (t : ℕ) (s : State) : selCtx (tick t s) = selCtx s := (rfl)
@[simp] theorem tdWord_tick (t : ℕ) (b : ℕ) (s : State) : tdWord (tick t s) b = tdWord s b := (rfl)
@[simp] theorem slotRec_tick (t : ℕ) (b : ℕ) (s : State) : slotRec (tick t s) b = slotRec s b := (rfl)
@[simp] theorem cfWord_tick (t : ℕ) (b : ℕ) (s : State) : cfWord (tick t s) b = cfWord s b := (rfl)
@[simp] theorem pf2Word_tick (t : ℕ) (b : ℕ) (s : State) : pf2Word (tick t s) b = pf2Word s b := (rfl)
@[simp] theorem lowFor_tick (t : ℕ) (b : ℕ) (c : ℕ) (d : Dword) (s : State) : lowFor (tick t s) b c d = lowFor s b c d := (rfl)
@[simp] theorem lockedPairVal_tick (t : ℕ) (b : ℕ) (s : State) : lockedPairVal (tick t s) b = lockedPairVal s b := (rfl)
@[simp] theorem reaches_tick (t : ℕ) (b : Func) (c : ℕ) (d : ℕ) (s : State) : reaches (tick t s) b c d = reaches s b c d := (rfl)
@[simp] theorem setupThere_tick (t : ℕ) (b : ℕ) (s : State) : setupThere (tick t s) b = setupThere s b := (rfl)
@[simp] theorem adminAddr_tick (t : ℕ) (b : ℕ) (s : State) : adminAddr (tick t s) b = adminAddr s b := (rfl)
@[simp] theorem bar2Address_tick (t : ℕ) (b : ℕ) (s : State) : bar2Address (tick t s) b = bar2Address s b := (rfl)
@[simp] theorem bar2Byte_tick (t : ℕ) (b : ℕ) (c : ℕ) (s : State) : bar2Byte (tick t s) b c = bar2Byte s b c := (rfl)
@[simp] theorem bar2Reaches_tick (t : ℕ) (b : ℕ) (c : ℕ) (s : State) : bar2Reaches (tick t s) b c = bar2Reaches s b c := (rfl)

end Sys2Proof.Machine
end

