-- ==== Sys2Proof/Laws/Reads.lean ====
section
/-! SUPPORT. What the readings of the state give after an update of one entry: of another part of the state, of
another entry, and of the entry itself. -/
namespace Sys2Proof.Machine

@[simp] theorem partOf_modCtx (k : Nat) (f : Ctx → Ctx) (s : State) (j : Nat) : partOf (modCtx k f s) j = partOf s j := (rfl)
@[simp] theorem chanOf_modCtx (k : Nat) (f : Ctx → Ctx) (s : State) (j : Nat) : chanOf (modCtx k f s) j = chanOf s j := (rfl)
@[simp] theorem portOf_modCtx (k : Nat) (f : Ctx → Ctx) (s : State) (j : Nat) : portOf (modCtx k f s) j = portOf s j := (rfl)
@[simp] theorem jobAt_modCtx (k : Nat) (f : Ctx → Ctx) (s : State) (j : Nat) : jobAt (modCtx k f s) j = jobAt s j := (rfl)
@[simp] theorem plateOf_modCtx (k : Nat) (f : Ctx → Ctx) (s : State) (j : Nat) : plateOf (modCtx k f s) j = plateOf s j := (rfl)
@[simp] theorem seqOf_modCtx (k : Nat) (f : Ctx → Ctx) (s : State) (j : Nat) : seqOf (modCtx k f s) j = seqOf s j := (rfl)
@[simp] theorem modelOf_modCtx (k : Nat) (f : Ctx → Ctx) (s : State) (j : Nat) : modelOf (modCtx k f s) j = modelOf s j := (rfl)
@[simp] theorem fieldSt_modCtx (k : Nat) (f : Ctx → Ctx) (s : State) (j : Nat) : fieldSt (modCtx k f s) j = fieldSt s j := (rfl)
@[simp] theorem islOf_modCtx (k : Nat) (f : Ctx → Ctx) (s : State) (j : Nat) : islOf (modCtx k f s) j = islOf s j := (rfl)
@[simp] theorem ownLoc_modCtx (k : Nat) (f : Ctx → Ctx) (s : State) : ownLoc (modCtx k f s) = ownLoc s := (rfl)
@[simp] theorem hostRuns_modCtx (k : Nat) (f : Ctx → Ctx) (s : State) : hostRuns (modCtx k f s) = hostRuns s := (rfl)
@[simp] theorem regsAnswer_modCtx (k : Nat) (f : Ctx → Ctx) (s : State) : regsAnswer (modCtx k f s) = regsAnswer s := (rfl)
@[simp] theorem sirdoyxRuns_modCtx (k : Nat) (f : Ctx → Ctx) (s : State) : sirdoyxRuns (modCtx k f s) = sirdoyxRuns s := (rfl)
@[simp] theorem ctxOf_modPart (k : Nat) (f : Part → Part) (s : State) (j : Nat) : ctxOf (modPart k f s) j = ctxOf s j := (rfl)
@[simp] theorem ctxHere_modPart (k : Nat) (f : Part → Part) (s : State) (j : Nat) : ctxHere (modPart k f s) j = ctxHere s j := (rfl)
@[simp] theorem chanOf_modPart (k : Nat) (f : Part → Part) (s : State) (j : Nat) : chanOf (modPart k f s) j = chanOf s j := (rfl)
@[simp] theorem portOf_modPart (k : Nat) (f : Part → Part) (s : State) (j : Nat) : portOf (modPart k f s) j = portOf s j := (rfl)
@[simp] theorem jobAt_modPart (k : Nat) (f : Part → Part) (s : State) (j : Nat) : jobAt (modPart k f s) j = jobAt s j := (rfl)
@[simp] theorem plateOf_modPart (k : Nat) (f : Part → Part) (s : State) (j : Nat) : plateOf (modPart k f s) j = plateOf s j := (rfl)
@[simp] theorem seqOf_modPart (k : Nat) (f : Part → Part) (s : State) (j : Nat) : seqOf (modPart k f s) j = seqOf s j := (rfl)
@[simp] theorem modelOf_modPart (k : Nat) (f : Part → Part) (s : State) (j : Nat) : modelOf (modPart k f s) j = modelOf s j := (rfl)
@[simp] theorem fieldSt_modPart (k : Nat) (f : Part → Part) (s : State) (j : Nat) : fieldSt (modPart k f s) j = fieldSt s j := (rfl)
@[simp] theorem islOf_modPart (k : Nat) (f : Part → Part) (s : State) (j : Nat) : islOf (modPart k f s) j = islOf s j := (rfl)
@[simp] theorem ownLoc_modPart (k : Nat) (f : Part → Part) (s : State) : ownLoc (modPart k f s) = ownLoc s := (rfl)
@[simp] theorem hostRuns_modPart (k : Nat) (f : Part → Part) (s : State) : hostRuns (modPart k f s) = hostRuns s := (rfl)
@[simp] theorem regsAnswer_modPart (k : Nat) (f : Part → Part) (s : State) : regsAnswer (modPart k f s) = regsAnswer s := (rfl)
@[simp] theorem sirdoyxRuns_modPart (k : Nat) (f : Part → Part) (s : State) : sirdoyxRuns (modPart k f s) = sirdoyxRuns s := (rfl)
@[simp] theorem ctxOf_modChan (k : Nat) (f : Chan → Chan) (s : State) (j : Nat) : ctxOf (modChan k f s) j = ctxOf s j := (rfl)
@[simp] theorem ctxHere_modChan (k : Nat) (f : Chan → Chan) (s : State) (j : Nat) : ctxHere (modChan k f s) j = ctxHere s j := (rfl)
@[simp] theorem partOf_modChan (k : Nat) (f : Chan → Chan) (s : State) (j : Nat) : partOf (modChan k f s) j = partOf s j := (rfl)
@[simp] theorem portOf_modChan (k : Nat) (f : Chan → Chan) (s : State) (j : Nat) : portOf (modChan k f s) j = portOf s j := (rfl)
@[simp] theorem jobAt_modChan (k : Nat) (f : Chan → Chan) (s : State) (j : Nat) : jobAt (modChan k f s) j = jobAt s j := (rfl)
@[simp] theorem plateOf_modChan (k : Nat) (f : Chan → Chan) (s : State) (j : Nat) : plateOf (modChan k f s) j = plateOf s j := (rfl)
@[simp] theorem seqOf_modChan (k : Nat) (f : Chan → Chan) (s : State) (j : Nat) : seqOf (modChan k f s) j = seqOf s j := (rfl)
@[simp] theorem modelOf_modChan (k : Nat) (f : Chan → Chan) (s : State) (j : Nat) : modelOf (modChan k f s) j = modelOf s j := (rfl)
@[simp] theorem fieldSt_modChan (k : Nat) (f : Chan → Chan) (s : State) (j : Nat) : fieldSt (modChan k f s) j = fieldSt s j := (rfl)
@[simp] theorem islOf_modChan (k : Nat) (f : Chan → Chan) (s : State) (j : Nat) : islOf (modChan k f s) j = islOf s j := (rfl)
@[simp] theorem ownLoc_modChan (k : Nat) (f : Chan → Chan) (s : State) : ownLoc (modChan k f s) = ownLoc s := (rfl)
@[simp] theorem hostRuns_modChan (k : Nat) (f : Chan → Chan) (s : State) : hostRuns (modChan k f s) = hostRuns s := (rfl)
@[simp] theorem regsAnswer_modChan (k : Nat) (f : Chan → Chan) (s : State) : regsAnswer (modChan k f s) = regsAnswer s := (rfl)
@[simp] theorem sirdoyxRuns_modChan (k : Nat) (f : Chan → Chan) (s : State) : sirdoyxRuns (modChan k f s) = sirdoyxRuns s := (rfl)
@[simp] theorem ctxOf_modPort (k : Nat) (f : Port → Port) (s : State) (j : Nat) : ctxOf (modPort k f s) j = ctxOf s j := (rfl)
@[simp] theorem ctxHere_modPort (k : Nat) (f : Port → Port) (s : State) (j : Nat) : ctxHere (modPort k f s) j = ctxHere s j := (rfl)
@[simp] theorem partOf_modPort (k : Nat) (f : Port → Port) (s : State) (j : Nat) : partOf (modPort k f s) j = partOf s j := (rfl)
@[simp] theorem chanOf_modPort (k : Nat) (f : Port → Port) (s : State) (j : Nat) : chanOf (modPort k f s) j = chanOf s j := (rfl)
@[simp] theorem jobAt_modPort (k : Nat) (f : Port → Port) (s : State) (j : Nat) : jobAt (modPort k f s) j = jobAt s j := (rfl)
@[simp] theorem plateOf_modPort (k : Nat) (f : Port → Port) (s : State) (j : Nat) : plateOf (modPort k f s) j = plateOf s j := (rfl)
@[simp] theorem seqOf_modPort (k : Nat) (f : Port → Port) (s : State) (j : Nat) : seqOf (modPort k f s) j = seqOf s j := (rfl)
@[simp] theorem modelOf_modPort (k : Nat) (f : Port → Port) (s : State) (j : Nat) : modelOf (modPort k f s) j = modelOf s j := (rfl)
@[simp] theorem fieldSt_modPort (k : Nat) (f : Port → Port) (s : State) (j : Nat) : fieldSt (modPort k f s) j = fieldSt s j := (rfl)
@[simp] theorem islOf_modPort (k : Nat) (f : Port → Port) (s : State) (j : Nat) : islOf (modPort k f s) j = islOf s j := (rfl)
@[simp] theorem ownLoc_modPort (k : Nat) (f : Port → Port) (s : State) : ownLoc (modPort k f s) = ownLoc s := (rfl)
@[simp] theorem hostRuns_modPort (k : Nat) (f : Port → Port) (s : State) : hostRuns (modPort k f s) = hostRuns s := (rfl)
@[simp] theorem regsAnswer_modPort (k : Nat) (f : Port → Port) (s : State) : regsAnswer (modPort k f s) = regsAnswer s := (rfl)
@[simp] theorem sirdoyxRuns_modPort (k : Nat) (f : Port → Port) (s : State) : sirdoyxRuns (modPort k f s) = sirdoyxRuns s := (rfl)
@[simp] theorem ctxOf_modJob (k : Nat) (f : Job → Job) (s : State) (j : Nat) : ctxOf (modJob k f s) j = ctxOf s j := (rfl)
@[simp] theorem ctxHere_modJob (k : Nat) (f : Job → Job) (s : State) (j : Nat) : ctxHere (modJob k f s) j = ctxHere s j := (rfl)
@[simp] theorem partOf_modJob (k : Nat) (f : Job → Job) (s : State) (j : Nat) : partOf (modJob k f s) j = partOf s j := (rfl)
@[simp] theorem chanOf_modJob (k : Nat) (f : Job → Job) (s : State) (j : Nat) : chanOf (modJob k f s) j = chanOf s j := (rfl)
@[simp] theorem portOf_modJob (k : Nat) (f : Job → Job) (s : State) (j : Nat) : portOf (modJob k f s) j = portOf s j := (rfl)
@[simp] theorem plateOf_modJob (k : Nat) (f : Job → Job) (s : State) (j : Nat) : plateOf (modJob k f s) j = plateOf s j := (rfl)
@[simp] theorem seqOf_modJob (k : Nat) (f : Job → Job) (s : State) (j : Nat) : seqOf (modJob k f s) j = seqOf s j := (rfl)
@[simp] theorem modelOf_modJob (k : Nat) (f : Job → Job) (s : State) (j : Nat) : modelOf (modJob k f s) j = modelOf s j := (rfl)
@[simp] theorem fieldSt_modJob (k : Nat) (f : Job → Job) (s : State) (j : Nat) : fieldSt (modJob k f s) j = fieldSt s j := (rfl)
@[simp] theorem islOf_modJob (k : Nat) (f : Job → Job) (s : State) (j : Nat) : islOf (modJob k f s) j = islOf s j := (rfl)
@[simp] theorem ownLoc_modJob (k : Nat) (f : Job → Job) (s : State) : ownLoc (modJob k f s) = ownLoc s := (rfl)
@[simp] theorem hostRuns_modJob (k : Nat) (f : Job → Job) (s : State) : hostRuns (modJob k f s) = hostRuns s := (rfl)
@[simp] theorem regsAnswer_modJob (k : Nat) (f : Job → Job) (s : State) : regsAnswer (modJob k f s) = regsAnswer s := (rfl)
@[simp] theorem sirdoyxRuns_modJob (k : Nat) (f : Job → Job) (s : State) : sirdoyxRuns (modJob k f s) = sirdoyxRuns s := (rfl)
@[simp] theorem ctxOf_modPlate (k : Nat) (f : Plate → Plate) (s : State) (j : Nat) : ctxOf (modPlate k f s) j = ctxOf s j := (rfl)
@[simp] theorem ctxHere_modPlate (k : Nat) (f : Plate → Plate) (s : State) (j : Nat) : ctxHere (modPlate k f s) j = ctxHere s j := (rfl)
@[simp] theorem partOf_modPlate (k : Nat) (f : Plate → Plate) (s : State) (j : Nat) : partOf (modPlate k f s) j = partOf s j := (rfl)
@[simp] theorem chanOf_modPlate (k : Nat) (f : Plate → Plate) (s : State) (j : Nat) : chanOf (modPlate k f s) j = chanOf s j := (rfl)
@[simp] theorem portOf_modPlate (k : Nat) (f : Plate → Plate) (s : State) (j : Nat) : portOf (modPlate k f s) j = portOf s j := (rfl)
@[simp] theorem jobAt_modPlate (k : Nat) (f : Plate → Plate) (s : State) (j : Nat) : jobAt (modPlate k f s) j = jobAt s j := (rfl)
@[simp] theorem seqOf_modPlate (k : Nat) (f : Plate → Plate) (s : State) (j : Nat) : seqOf (modPlate k f s) j = seqOf s j := (rfl)
@[simp] theorem modelOf_modPlate (k : Nat) (f : Plate → Plate) (s : State) (j : Nat) : modelOf (modPlate k f s) j = modelOf s j := (rfl)
@[simp] theorem fieldSt_modPlate (k : Nat) (f : Plate → Plate) (s : State) (j : Nat) : fieldSt (modPlate k f s) j = fieldSt s j := (rfl)
@[simp] theorem islOf_modPlate (k : Nat) (f : Plate → Plate) (s : State) (j : Nat) : islOf (modPlate k f s) j = islOf s j := (rfl)
@[simp] theorem ownLoc_modPlate (k : Nat) (f : Plate → Plate) (s : State) : ownLoc (modPlate k f s) = ownLoc s := (rfl)
@[simp] theorem hostRuns_modPlate (k : Nat) (f : Plate → Plate) (s : State) : hostRuns (modPlate k f s) = hostRuns s := (rfl)
@[simp] theorem regsAnswer_modPlate (k : Nat) (f : Plate → Plate) (s : State) : regsAnswer (modPlate k f s) = regsAnswer s := (rfl)
@[simp] theorem sirdoyxRuns_modPlate (k : Nat) (f : Plate → Plate) (s : State) : sirdoyxRuns (modPlate k f s) = sirdoyxRuns s := (rfl)
@[simp] theorem ctxOf_modReq (k : Nat) (f : Request → Request) (s : State) (j : Nat) : ctxOf (modReq k f s) j = ctxOf s j := (rfl)
@[simp] theorem ctxHere_modReq (k : Nat) (f : Request → Request) (s : State) (j : Nat) : ctxHere (modReq k f s) j = ctxHere s j := (rfl)
@[simp] theorem partOf_modReq (k : Nat) (f : Request → Request) (s : State) (j : Nat) : partOf (modReq k f s) j = partOf s j := (rfl)
@[simp] theorem chanOf_modReq (k : Nat) (f : Request → Request) (s : State) (j : Nat) : chanOf (modReq k f s) j = chanOf s j := (rfl)
@[simp] theorem portOf_modReq (k : Nat) (f : Request → Request) (s : State) (j : Nat) : portOf (modReq k f s) j = portOf s j := (rfl)
@[simp] theorem jobAt_modReq (k : Nat) (f : Request → Request) (s : State) (j : Nat) : jobAt (modReq k f s) j = jobAt s j := (rfl)
@[simp] theorem plateOf_modReq (k : Nat) (f : Request → Request) (s : State) (j : Nat) : plateOf (modReq k f s) j = plateOf s j := (rfl)
@[simp] theorem seqOf_modReq (k : Nat) (f : Request → Request) (s : State) (j : Nat) : seqOf (modReq k f s) j = seqOf s j := (rfl)
@[simp] theorem modelOf_modReq (k : Nat) (f : Request → Request) (s : State) (j : Nat) : modelOf (modReq k f s) j = modelOf s j := (rfl)
@[simp] theorem fieldSt_modReq (k : Nat) (f : Request → Request) (s : State) (j : Nat) : fieldSt (modReq k f s) j = fieldSt s j := (rfl)
@[simp] theorem islOf_modReq (k : Nat) (f : Request → Request) (s : State) (j : Nat) : islOf (modReq k f s) j = islOf s j := (rfl)
@[simp] theorem ownLoc_modReq (k : Nat) (f : Request → Request) (s : State) : ownLoc (modReq k f s) = ownLoc s := (rfl)
@[simp] theorem hostRuns_modReq (k : Nat) (f : Request → Request) (s : State) : hostRuns (modReq k f s) = hostRuns s := (rfl)
@[simp] theorem regsAnswer_modReq (k : Nat) (f : Request → Request) (s : State) : regsAnswer (modReq k f s) = regsAnswer s := (rfl)
@[simp] theorem sirdoyxRuns_modReq (k : Nat) (f : Request → Request) (s : State) : sirdoyxRuns (modReq k f s) = sirdoyxRuns s := (rfl)
@[simp] theorem ctxOf_modSeq (k : Nat) (f : Seq → Seq) (s : State) (j : Nat) : ctxOf (modSeq k f s) j = ctxOf s j := (rfl)
@[simp] theorem ctxHere_modSeq (k : Nat) (f : Seq → Seq) (s : State) (j : Nat) : ctxHere (modSeq k f s) j = ctxHere s j := (rfl)
@[simp] theorem partOf_modSeq (k : Nat) (f : Seq → Seq) (s : State) (j : Nat) : partOf (modSeq k f s) j = partOf s j := (rfl)
@[simp] theorem chanOf_modSeq (k : Nat) (f : Seq → Seq) (s : State) (j : Nat) : chanOf (modSeq k f s) j = chanOf s j := (rfl)
@[simp] theorem portOf_modSeq (k : Nat) (f : Seq → Seq) (s : State) (j : Nat) : portOf (modSeq k f s) j = portOf s j := (rfl)
@[simp] theorem jobAt_modSeq (k : Nat) (f : Seq → Seq) (s : State) (j : Nat) : jobAt (modSeq k f s) j = jobAt s j := (rfl)
@[simp] theorem plateOf_modSeq (k : Nat) (f : Seq → Seq) (s : State) (j : Nat) : plateOf (modSeq k f s) j = plateOf s j := (rfl)
@[simp] theorem modelOf_modSeq (k : Nat) (f : Seq → Seq) (s : State) (j : Nat) : modelOf (modSeq k f s) j = modelOf s j := (rfl)
@[simp] theorem fieldSt_modSeq (k : Nat) (f : Seq → Seq) (s : State) (j : Nat) : fieldSt (modSeq k f s) j = fieldSt s j := (rfl)
@[simp] theorem islOf_modSeq (k : Nat) (f : Seq → Seq) (s : State) (j : Nat) : islOf (modSeq k f s) j = islOf s j := (rfl)
@[simp] theorem ownLoc_modSeq (k : Nat) (f : Seq → Seq) (s : State) : ownLoc (modSeq k f s) = ownLoc s := (rfl)
@[simp] theorem hostRuns_modSeq (k : Nat) (f : Seq → Seq) (s : State) : hostRuns (modSeq k f s) = hostRuns s := (rfl)
@[simp] theorem regsAnswer_modSeq (k : Nat) (f : Seq → Seq) (s : State) : regsAnswer (modSeq k f s) = regsAnswer s := (rfl)
@[simp] theorem sirdoyxRuns_modSeq (k : Nat) (f : Seq → Seq) (s : State) : sirdoyxRuns (modSeq k f s) = sirdoyxRuns s := (rfl)
@[simp] theorem ctxOf_modModel (k : Nat) (f : Model → Model) (s : State) (j : Nat) : ctxOf (modModel k f s) j = ctxOf s j := (rfl)
@[simp] theorem ctxHere_modModel (k : Nat) (f : Model → Model) (s : State) (j : Nat) : ctxHere (modModel k f s) j = ctxHere s j := (rfl)
@[simp] theorem partOf_modModel (k : Nat) (f : Model → Model) (s : State) (j : Nat) : partOf (modModel k f s) j = partOf s j := (rfl)
@[simp] theorem chanOf_modModel (k : Nat) (f : Model → Model) (s : State) (j : Nat) : chanOf (modModel k f s) j = chanOf s j := (rfl)
@[simp] theorem portOf_modModel (k : Nat) (f : Model → Model) (s : State) (j : Nat) : portOf (modModel k f s) j = portOf s j := (rfl)
@[simp] theorem jobAt_modModel (k : Nat) (f : Model → Model) (s : State) (j : Nat) : jobAt (modModel k f s) j = jobAt s j := (rfl)
@[simp] theorem plateOf_modModel (k : Nat) (f : Model → Model) (s : State) (j : Nat) : plateOf (modModel k f s) j = plateOf s j := (rfl)
@[simp] theorem seqOf_modModel (k : Nat) (f : Model → Model) (s : State) (j : Nat) : seqOf (modModel k f s) j = seqOf s j := (rfl)
@[simp] theorem fieldSt_modModel (k : Nat) (f : Model → Model) (s : State) (j : Nat) : fieldSt (modModel k f s) j = fieldSt s j := (rfl)
@[simp] theorem islOf_modModel (k : Nat) (f : Model → Model) (s : State) (j : Nat) : islOf (modModel k f s) j = islOf s j := (rfl)
@[simp] theorem ownLoc_modModel (k : Nat) (f : Model → Model) (s : State) : ownLoc (modModel k f s) = ownLoc s := (rfl)
@[simp] theorem hostRuns_modModel (k : Nat) (f : Model → Model) (s : State) : hostRuns (modModel k f s) = hostRuns s := (rfl)
@[simp] theorem regsAnswer_modModel (k : Nat) (f : Model → Model) (s : State) : regsAnswer (modModel k f s) = regsAnswer s := (rfl)
@[simp] theorem sirdoyxRuns_modModel (k : Nat) (f : Model → Model) (s : State) : sirdoyxRuns (modModel k f s) = sirdoyxRuns s := (rfl)
@[simp] theorem ctxOf_modOp (k : Nat) (f : LongOp → LongOp) (s : State) (j : Nat) : ctxOf (modOp k f s) j = ctxOf s j := (rfl)
@[simp] theorem ctxHere_modOp (k : Nat) (f : LongOp → LongOp) (s : State) (j : Nat) : ctxHere (modOp k f s) j = ctxHere s j := (rfl)
@[simp] theorem partOf_modOp (k : Nat) (f : LongOp → LongOp) (s : State) (j : Nat) : partOf (modOp k f s) j = partOf s j := (rfl)
@[simp] theorem chanOf_modOp (k : Nat) (f : LongOp → LongOp) (s : State) (j : Nat) : chanOf (modOp k f s) j = chanOf s j := (rfl)
@[simp] theorem portOf_modOp (k : Nat) (f : LongOp → LongOp) (s : State) (j : Nat) : portOf (modOp k f s) j = portOf s j := (rfl)
@[simp] theorem jobAt_modOp (k : Nat) (f : LongOp → LongOp) (s : State) (j : Nat) : jobAt (modOp k f s) j = jobAt s j := (rfl)
@[simp] theorem plateOf_modOp (k : Nat) (f : LongOp → LongOp) (s : State) (j : Nat) : plateOf (modOp k f s) j = plateOf s j := (rfl)
@[simp] theorem seqOf_modOp (k : Nat) (f : LongOp → LongOp) (s : State) (j : Nat) : seqOf (modOp k f s) j = seqOf s j := (rfl)
@[simp] theorem modelOf_modOp (k : Nat) (f : LongOp → LongOp) (s : State) (j : Nat) : modelOf (modOp k f s) j = modelOf s j := (rfl)
@[simp] theorem fieldSt_modOp (k : Nat) (f : LongOp → LongOp) (s : State) (j : Nat) : fieldSt (modOp k f s) j = fieldSt s j := (rfl)
@[simp] theorem islOf_modOp (k : Nat) (f : LongOp → LongOp) (s : State) (j : Nat) : islOf (modOp k f s) j = islOf s j := (rfl)
@[simp] theorem ownLoc_modOp (k : Nat) (f : LongOp → LongOp) (s : State) : ownLoc (modOp k f s) = ownLoc s := (rfl)
@[simp] theorem hostRuns_modOp (k : Nat) (f : LongOp → LongOp) (s : State) : hostRuns (modOp k f s) = hostRuns s := (rfl)
@[simp] theorem regsAnswer_modOp (k : Nat) (f : LongOp → LongOp) (s : State) : regsAnswer (modOp k f s) = regsAnswer s := (rfl)
@[simp] theorem sirdoyxRuns_modOp (k : Nat) (f : LongOp → LongOp) (s : State) : sirdoyxRuns (modOp k f s) = sirdoyxRuns s := (rfl)
@[simp] theorem ctxOf_modField (k : Nat) (f : Field → Field) (s : State) (j : Nat) : ctxOf (modField k f s) j = ctxOf s j := (rfl)
@[simp] theorem ctxHere_modField (k : Nat) (f : Field → Field) (s : State) (j : Nat) : ctxHere (modField k f s) j = ctxHere s j := (rfl)
@[simp] theorem partOf_modField (k : Nat) (f : Field → Field) (s : State) (j : Nat) : partOf (modField k f s) j = partOf s j := (rfl)
@[simp] theorem chanOf_modField (k : Nat) (f : Field → Field) (s : State) (j : Nat) : chanOf (modField k f s) j = chanOf s j := (rfl)
@[simp] theorem portOf_modField (k : Nat) (f : Field → Field) (s : State) (j : Nat) : portOf (modField k f s) j = portOf s j := (rfl)
@[simp] theorem jobAt_modField (k : Nat) (f : Field → Field) (s : State) (j : Nat) : jobAt (modField k f s) j = jobAt s j := (rfl)
@[simp] theorem plateOf_modField (k : Nat) (f : Field → Field) (s : State) (j : Nat) : plateOf (modField k f s) j = plateOf s j := (rfl)
@[simp] theorem seqOf_modField (k : Nat) (f : Field → Field) (s : State) (j : Nat) : seqOf (modField k f s) j = seqOf s j := (rfl)
@[simp] theorem modelOf_modField (k : Nat) (f : Field → Field) (s : State) (j : Nat) : modelOf (modField k f s) j = modelOf s j := (rfl)
@[simp] theorem islOf_modField (k : Nat) (f : Field → Field) (s : State) (j : Nat) : islOf (modField k f s) j = islOf s j := (rfl)
@[simp] theorem ownLoc_modField (k : Nat) (f : Field → Field) (s : State) : ownLoc (modField k f s) = ownLoc s := (rfl)
@[simp] theorem hostRuns_modField (k : Nat) (f : Field → Field) (s : State) : hostRuns (modField k f s) = hostRuns s := (rfl)
@[simp] theorem regsAnswer_modField (k : Nat) (f : Field → Field) (s : State) : regsAnswer (modField k f s) = regsAnswer s := (rfl)
@[simp] theorem sirdoyxRuns_modField (k : Nat) (f : Field → Field) (s : State) : sirdoyxRuns (modField k f s) = sirdoyxRuns s := (rfl)
@[simp] theorem ctxOf_modGroup (k : Nat) (f : Group → Group) (s : State) (j : Nat) : ctxOf (modGroup k f s) j = ctxOf s j := (rfl)
@[simp] theorem ctxHere_modGroup (k : Nat) (f : Group → Group) (s : State) (j : Nat) : ctxHere (modGroup k f s) j = ctxHere s j := (rfl)
@[simp] theorem partOf_modGroup (k : Nat) (f : Group → Group) (s : State) (j : Nat) : partOf (modGroup k f s) j = partOf s j := (rfl)
@[simp] theorem chanOf_modGroup (k : Nat) (f : Group → Group) (s : State) (j : Nat) : chanOf (modGroup k f s) j = chanOf s j := (rfl)
@[simp] theorem portOf_modGroup (k : Nat) (f : Group → Group) (s : State) (j : Nat) : portOf (modGroup k f s) j = portOf s j := (rfl)
@[simp] theorem jobAt_modGroup (k : Nat) (f : Group → Group) (s : State) (j : Nat) : jobAt (modGroup k f s) j = jobAt s j := (rfl)
@[simp] theorem plateOf_modGroup (k : Nat) (f : Group → Group) (s : State) (j : Nat) : plateOf (modGroup k f s) j = plateOf s j := (rfl)
@[simp] theorem seqOf_modGroup (k : Nat) (f : Group → Group) (s : State) (j : Nat) : seqOf (modGroup k f s) j = seqOf s j := (rfl)
@[simp] theorem modelOf_modGroup (k : Nat) (f : Group → Group) (s : State) (j : Nat) : modelOf (modGroup k f s) j = modelOf s j := (rfl)
@[simp] theorem fieldSt_modGroup (k : Nat) (f : Group → Group) (s : State) (j : Nat) : fieldSt (modGroup k f s) j = fieldSt s j := (rfl)
@[simp] theorem islOf_modGroup (k : Nat) (f : Group → Group) (s : State) (j : Nat) : islOf (modGroup k f s) j = islOf s j := (rfl)
@[simp] theorem ownLoc_modGroup (k : Nat) (f : Group → Group) (s : State) : ownLoc (modGroup k f s) = ownLoc s := (rfl)
@[simp] theorem hostRuns_modGroup (k : Nat) (f : Group → Group) (s : State) : hostRuns (modGroup k f s) = hostRuns s := (rfl)
@[simp] theorem regsAnswer_modGroup (k : Nat) (f : Group → Group) (s : State) : regsAnswer (modGroup k f s) = regsAnswer s := (rfl)
@[simp] theorem sirdoyxRuns_modGroup (k : Nat) (f : Group → Group) (s : State) : sirdoyxRuns (modGroup k f s) = sirdoyxRuns s := (rfl)
@[simp] theorem ctxOf_emit (o : Output) (s : State) (j : Nat) : ctxOf (emit o s) j = ctxOf s j := (rfl)
@[simp] theorem ctxHere_emit (o : Output) (s : State) (j : Nat) : ctxHere (emit o s) j = ctxHere s j := (rfl)
@[simp] theorem partOf_emit (o : Output) (s : State) (j : Nat) : partOf (emit o s) j = partOf s j := (rfl)
@[simp] theorem chanOf_emit (o : Output) (s : State) (j : Nat) : chanOf (emit o s) j = chanOf s j := (rfl)
@[simp] theorem portOf_emit (o : Output) (s : State) (j : Nat) : portOf (emit o s) j = portOf s j := (rfl)
@[simp] theorem jobAt_emit (o : Output) (s : State) (j : Nat) : jobAt (emit o s) j = jobAt s j := (rfl)
@[simp] theorem plateOf_emit (o : Output) (s : State) (j : Nat) : plateOf (emit o s) j = plateOf s j := (rfl)
@[simp] theorem seqOf_emit (o : Output) (s : State) (j : Nat) : seqOf (emit o s) j = seqOf s j := (rfl)
@[simp] theorem modelOf_emit (o : Output) (s : State) (j : Nat) : modelOf (emit o s) j = modelOf s j := (rfl)
@[simp] theorem fieldSt_emit (o : Output) (s : State) (j : Nat) : fieldSt (emit o s) j = fieldSt s j := (rfl)
@[simp] theorem islOf_emit (o : Output) (s : State) (j : Nat) : islOf (emit o s) j = islOf s j := (rfl)
@[simp] theorem ownLoc_emit (o : Output) (s : State) : ownLoc (emit o s) = ownLoc s := (rfl)
@[simp] theorem hostRuns_emit (o : Output) (s : State) : hostRuns (emit o s) = hostRuns s := (rfl)
@[simp] theorem regsAnswer_emit (o : Output) (s : State) : regsAnswer (emit o s) = regsAnswer s := (rfl)
@[simp] theorem sirdoyxRuns_emit (o : Output) (s : State) : sirdoyxRuns (emit o s) = sirdoyxRuns s := (rfl)
@[simp] theorem ctxOf_advanceDraw (s : State) (j : Nat) : ctxOf (advanceDraw s) j = ctxOf s j := (rfl)
@[simp] theorem ctxHere_advanceDraw (s : State) (j : Nat) : ctxHere (advanceDraw s) j = ctxHere s j := (rfl)
@[simp] theorem partOf_advanceDraw (s : State) (j : Nat) : partOf (advanceDraw s) j = partOf s j := (rfl)
@[simp] theorem chanOf_advanceDraw (s : State) (j : Nat) : chanOf (advanceDraw s) j = chanOf s j := (rfl)
@[simp] theorem portOf_advanceDraw (s : State) (j : Nat) : portOf (advanceDraw s) j = portOf s j := (rfl)
@[simp] theorem jobAt_advanceDraw (s : State) (j : Nat) : jobAt (advanceDraw s) j = jobAt s j := (rfl)
@[simp] theorem plateOf_advanceDraw (s : State) (j : Nat) : plateOf (advanceDraw s) j = plateOf s j := (rfl)
@[simp] theorem seqOf_advanceDraw (s : State) (j : Nat) : seqOf (advanceDraw s) j = seqOf s j := (rfl)
@[simp] theorem modelOf_advanceDraw (s : State) (j : Nat) : modelOf (advanceDraw s) j = modelOf s j := (rfl)
@[simp] theorem fieldSt_advanceDraw (s : State) (j : Nat) : fieldSt (advanceDraw s) j = fieldSt s j := (rfl)
@[simp] theorem islOf_advanceDraw (s : State) (j : Nat) : islOf (advanceDraw s) j = islOf s j := (rfl)
@[simp] theorem ownLoc_advanceDraw (s : State) : ownLoc (advanceDraw s) = ownLoc s := (rfl)
@[simp] theorem hostRuns_advanceDraw (s : State) : hostRuns (advanceDraw s) = hostRuns s := (rfl)
@[simp] theorem regsAnswer_advanceDraw (s : State) : regsAnswer (advanceDraw s) = regsAnswer s := (rfl)
@[simp] theorem sirdoyxRuns_advanceDraw (s : State) : sirdoyxRuns (advanceDraw s) = sirdoyxRuns s := (rfl)
@[simp] theorem partOf_modSetup (k : Nat) (f : Ctx → Ctx) (s : State) (j : Nat) : partOf (modSetup k f s) j = partOf s j := (rfl)
@[simp] theorem chanOf_modSetup (k : Nat) (f : Ctx → Ctx) (s : State) (j : Nat) : chanOf (modSetup k f s) j = chanOf s j := (rfl)
@[simp] theorem portOf_modSetup (k : Nat) (f : Ctx → Ctx) (s : State) (j : Nat) : portOf (modSetup k f s) j = portOf s j := (rfl)
@[simp] theorem jobAt_modSetup (k : Nat) (f : Ctx → Ctx) (s : State) (j : Nat) : jobAt (modSetup k f s) j = jobAt s j := (rfl)
@[simp] theorem plateOf_modSetup (k : Nat) (f : Ctx → Ctx) (s : State) (j : Nat) : plateOf (modSetup k f s) j = plateOf s j := (rfl)
@[simp] theorem seqOf_modSetup (k : Nat) (f : Ctx → Ctx) (s : State) (j : Nat) : seqOf (modSetup k f s) j = seqOf s j := (rfl)
@[simp] theorem modelOf_modSetup (k : Nat) (f : Ctx → Ctx) (s : State) (j : Nat) : modelOf (modSetup k f s) j = modelOf s j := (rfl)
@[simp] theorem fieldSt_modSetup (k : Nat) (f : Ctx → Ctx) (s : State) (j : Nat) : fieldSt (modSetup k f s) j = fieldSt s j := (rfl)
@[simp] theorem islOf_modSetup (k : Nat) (f : Ctx → Ctx) (s : State) (j : Nat) : islOf (modSetup k f s) j = islOf s j := (rfl)
@[simp] theorem ownLoc_modSetup (k : Nat) (f : Ctx → Ctx) (s : State) : ownLoc (modSetup k f s) = ownLoc s := (rfl)
@[simp] theorem hostRuns_modSetup (k : Nat) (f : Ctx → Ctx) (s : State) : hostRuns (modSetup k f s) = hostRuns s := (rfl)
@[simp] theorem regsAnswer_modSetup (k : Nat) (f : Ctx → Ctx) (s : State) : regsAnswer (modSetup k f s) = regsAnswer s := (rfl)
@[simp] theorem sirdoyxRuns_modSetup (k : Nat) (f : Ctx → Ctx) (s : State) : sirdoyxRuns (modSetup k f s) = sirdoyxRuns s := (rfl)

@[simp] theorem ctxOf_modCtx_self (k : Nat) (f : Ctx → Ctx) (s : State) (h : (mget s.ctxs k).isSome = true) : ctxOf (modCtx k f s) k = f (ctxOf s k) := by
  obtain ⟨x, hx⟩ := Option.isSome_iff_exists.1 h
  simp [ctxOf, modCtx, mgetD, hx]
@[simp] theorem ctxOf_modCtx_ne (k j : Nat) (f : Ctx → Ctx) (s : State) (h : j ≠ k) : ctxOf (modCtx k f s) j = ctxOf s j := by
  simp [ctxOf, modCtx, mgetD, mget_mmod_ne _ _ _ _ h]

@[simp] theorem partOf_modPart_self (k : Nat) (f : Part → Part) (s : State) (h : (mget s.mem.parts k).isSome = true) : partOf (modPart k f s) k = f (partOf s k) := by
  obtain ⟨x, hx⟩ := Option.isSome_iff_exists.1 h
  simp [partOf, modPart, mgetD, hx]
@[simp] theorem partOf_modPart_ne (k j : Nat) (f : Part → Part) (s : State) (h : j ≠ k) : partOf (modPart k f s) j = partOf s j := by
  simp [partOf, modPart, mgetD, mget_mmod_ne _ _ _ _ h]

@[simp] theorem jobAt_modJob_self (k : Nat) (f : Job → Job) (s : State) (h : (mget s.srv.jobs k).isSome = true) : jobAt (modJob k f s) k = f (jobAt s k) := by
  obtain ⟨x, hx⟩ := Option.isSome_iff_exists.1 h
  simp [jobAt, modJob, mgetD, hx]
@[simp] theorem jobAt_modJob_ne (k j : Nat) (f : Job → Job) (s : State) (h : j ≠ k) : jobAt (modJob k f s) j = jobAt s j := by
  simp [jobAt, modJob, mgetD, mget_mmod_ne _ _ _ _ h]

@[simp] theorem plateOf_modPlate_self (k : Nat) (f : Plate → Plate) (s : State) (h : (mget s.fab.plates k).isSome = true) : plateOf (modPlate k f s) k = f (plateOf s k) := by
  obtain ⟨x, hx⟩ := Option.isSome_iff_exists.1 h
  simp [plateOf, modPlate, mgetD, hx]
@[simp] theorem plateOf_modPlate_ne (k j : Nat) (f : Plate → Plate) (s : State) (h : j ≠ k) : plateOf (modPlate k f s) j = plateOf s j := by
  simp [plateOf, modPlate, mgetD, mget_mmod_ne _ _ _ _ h]

@[simp] theorem seqOf_modSeq_self (k : Nat) (f : Seq → Seq) (s : State) (h : (mget s.srv.seqs k).isSome = true) : seqOf (modSeq k f s) k = f (seqOf s k) := by
  obtain ⟨x, hx⟩ := Option.isSome_iff_exists.1 h
  simp [seqOf, modSeq, mgetD, hx]
@[simp] theorem seqOf_modSeq_ne (k j : Nat) (f : Seq → Seq) (s : State) (h : j ≠ k) : seqOf (modSeq k f s) j = seqOf s j := by
  simp [seqOf, modSeq, mgetD, mget_mmod_ne _ _ _ _ h]

@[simp] theorem portOf_modPort_self (k : Nat) (f : Port → Port) (s : State) : portOf (modPort k f s) k = f (portOf s k) := by
  simp [portOf, modPort, mupd]
@[simp] theorem portOf_modPort_ne (k j : Nat) (f : Port → Port) (s : State) (h : j ≠ k) : portOf (modPort k f s) j = portOf s j := by
  simp [portOf, modPort, mupd, mgetD_mset_ne _ _ _ _ _ h]

@[simp] theorem fieldSt_modField_self (k : Nat) (f : Field → Field) (s : State) : fieldSt (modField k f s) k = f (fieldSt s k) := by
  simp [fieldSt, modField, mupd]
@[simp] theorem fieldSt_modField_ne (k j : Nat) (f : Field → Field) (s : State) (h : j ≠ k) : fieldSt (modField k f s) j = fieldSt s j := by
  simp [fieldSt, modField, mupd, mgetD_mset_ne _ _ _ _ _ h]

@[simp] theorem ctxOf_modSetup_self (k : Nat) (f : Ctx → Ctx) (s : State) : ctxOf (modSetup k f s) k = f (ctxOf s k) := by
  simp [ctxOf, modSetup, mupd]
@[simp] theorem ctxOf_modSetup_ne (k j : Nat) (f : Ctx → Ctx) (s : State) (h : j ≠ k) : ctxOf (modSetup k f s) j = ctxOf s j := by
  simp [ctxOf, modSetup, mupd, mgetD_mset_ne _ _ _ _ _ h]

@[simp] theorem chanOf_modChan_self (k : Nat) (f : Chan → Chan) (s : State) : chanOf (modChan k f s) k = f (chanOf s k) := by
  simp [chanOf, modChan]
@[simp] theorem chanOf_modChan_ne (k j : Nat) (f : Chan → Chan) (s : State) (h : j ≠ k) : chanOf (modChan k f s) j = chanOf s j := by
  simp [chanOf, modChan, mgetD_mset_ne _ _ _ _ _ h]
@[simp] theorem modelOf_modModel_self (k : Nat) (f : Model → Model) (s : State) : modelOf (modModel k f s) k = (modelOf s k).map f := by
  simp [modelOf, modModel]
@[simp] theorem modelOf_modModel_ne (k j : Nat) (f : Model → Model) (s : State) (h : j ≠ k) : modelOf (modModel k f s) j = modelOf s j := by
  simp [modelOf, modModel, mget_mmod_ne _ _ _ _ h]
@[simp] theorem islOf_modIsl_self (k : Nat) (f : Isl → Isl) (s : State) (h : islValid k = true) : islOf (modIsl k f s) k = f (islOf s k) := by
  simp [islOf, modIsl, h, mupd]
@[simp] theorem islOf_modIsl_ne (k j : Nat) (f : Isl → Isl) (s : State) (h : j ≠ k) : islOf (modIsl k f s) j = islOf s j := by
  unfold islOf modIsl
  split
  · simp [mupd, mgetD_mset_ne _ _ _ _ _ h]
  · rfl

/-- A context that is present has an entry of the context table. -/
theorem isSome_of_ctxHere {s : State} {c : Nat} (h : ctxHere s c = true) : (mget s.ctxs c).isSome = true := by
  unfold ctxHere ctxOf mgetD at h
  cases hm : mget s.ctxs c with
  | none => rw [hm] at h; exact absurd h (by decide)
  | some x => rfl

/-- A partition that is present has an entry of the partition table. -/
theorem isSome_of_partOf {s : State} {p : Nat} (h : (partOf s p).present = true) : (mget s.mem.parts p).isSome = true := by
  unfold partOf mgetD at h
  cases hm : mget s.mem.parts p with
  | none => rw [hm] at h; exact absurd h (by decide)
  | some x => rfl

/-- A job that is present has an entry of the job table. -/
theorem isSome_of_jobAt {s : State} {i : Nat} (h : (jobAt s i).present = true) : (mget s.srv.jobs i).isSome = true := by
  unfold jobAt mgetD at h
  cases hm : mget s.srv.jobs i with
  | none => rw [hm] at h; exact absurd h (by decide)
  | some x => rfl

end Sys2Proof.Machine
end

