-- ==== Sys2Proof/WellFormed.lean ====
section
/-! DEFINITION. Which operands a command or event of the table can carry: every field within the width that its layout gives it,
and every number that names a unit within the units there are. A value that a field can hold and the spec calls malformed is
well-formed here: its command has a meaning, and that meaning refuses it by the status the spec names. -/
namespace Sys2Proof

/-! ## Field checks -/

/-- n fits in w bits. -/
def fits (w n : Nat) : Bool := decide (n < 2 ^ w)

/-- Each number of a list fits in w bits. -/
def allFit (w : Nat) (l : List Nat) : Bool := l.all (fits w)

/-- A context: a VF, or the admin context (R279). -/
def ctxOk (c : Nat) : Bool := decide (c < 512) || c == adminCtx

/-- An island ID (R29). -/
def islandOk (n : Nat) : Bool := decide (n < 2048)

/-- A Dovetail port (R30). -/
def dovetailOk (p : Nat) : Bool := decide (p < 4)

/-- A Xaene port (R334). -/
def portOk (p : Nat) : Bool := decide (p < 15)

/-- A LOCATION (R25). -/
def locOk (n : Nat) : Bool := fits 7 n

/-- Device time is a 64-bit count (R304). -/
def timeOk (t : Nat) : Bool := fits 64 t

/-- Whatever an option holds passes p. -/
def optAll {α : Type} (p : α → Bool) : Option α → Bool
  | some a => p a
  | none => true

/-! ## Records -/

/-- A descriptor header (Table 12.6) on one of the rings 0 to 7 of a context. -/
def Hdr.wf (h : Hdr) : Bool :=
  ctxOk h.ctx && decide (h.ring < 8) && fits 2 h.cls && fits 15 h.flags && fits 16 h.job && fits 16 h.modelCtx
    && fits 64 h.reqId && fits 64 h.deadline && fits 16 h.epochSel && fits 16 h.layerTag && fits 16 h.opTag

/-- A GENERATE body (Table 12.7). -/
def GenBody.wf (b : GenBody) : Bool :=
  fits 32 b.seq && fits 32 b.promptLen && fits 64 b.promptAddr && fits 32 b.maxOutput && fits 8 b.outRing && fits 8 b.specWindow
    && fits 64 b.stopAddr && fits 64 b.auxAddr && fits 32 b.auxBytes

/-- A SCORE body (Table 12.8). -/
def ScoreBody.wf (b : ScoreBody) : Bool :=
  fits 32 b.promptLen && fits 64 b.promptAddr && fits 64 b.auxAddr && fits 32 b.auxBytes && fits 64 b.resultAddr && fits 32 b.resultBytes

/-- An EMBED_GATHER body (Table 12.8). -/
def EmbedBody.wf (b : EmbedBody) : Bool :=
  fits 32 b.tableId && fits 32 b.bagCount && fits 64 b.bagAddr && fits 64 b.idsAddr && fits 64 b.resultAddr && fits 32 b.resultBytes

/-- A tile descriptor (Table 8.5). -/
def TileDesc.wf (d : TileDesc) : Bool :=
  fits 8 d.op && fits 8 d.format && fits 2 d.srcKind && fits 2 d.dstKind && fits 3 d.channel && fits 16 d.rows && fits 16 d.cols
    && fits 64 d.srcAddr && fits 64 d.dstAddr && fits 32 d.srcStride && fits 32 d.dstStride && fits 11 d.sigIsland
    && fits 8 d.sigCounter && fits 32 d.sigInc && fits 16 d.layerId && fits 16 d.operatorId

/-- A body of COLL_GROUP_CREATE (Table 15.1). -/
def CollGroupBody.wf (b : CollGroupBody) : Bool :=
  fits 32 b.groupId && fits 16 b.groupKey && fits 8 b.members && fits 8 b.rank && fits 64 b.memberAddr && optAll (allFit 8) b.memberList
    && fits 8 b.mode && fits 8 b.chunkLog2 && fits 8 b.depth && fits 8 b.stagePlate && fits 32 b.stageOffset && fits 32 b.stageBytes

/-- A body of a collective operation (Table 15.4). -/
def CollBody.wf (b : CollBody) : Bool :=
  fits 8 b.type && fits 8 b.redop && fits 16 b.nvalues && fits 32 b.count && fits 64 b.src && fits 64 b.dst && decide (b.values.length ≤ 4)
    && fits 11 b.sigIsland && fits 8 b.sigCounter && fits 32 b.rowLen && fits 32 b.sigInc

/-- A TENSOR_WATCH body (R429). -/
def WatchBody.wf (b : WatchBody) : Bool :=
  fits 32 b.symbolId && fits 8 b.stepKind && fits 8 b.plate && fits 64 b.fromSeq && fits 64 b.bufAddr && fits 32 b.bufBytes && fits 64 b.expiry

/-- An EXU record (Table 7.4). -/
def ExuRec.wf (r : ExuRec) : Bool :=
  locOk r.src && locOk r.dst && locOk r.leg && fits 16 r.fseq && fits 16 r.tag && fits 16 r.epoch && fits 8 r.choice && fits 8 r.round
    && fits 16 r.layer && fits 16 r.expert && fits 8 r.home && fits 16 r.count && fits 32 r.exchange && fits 32 r.slot && fits 32 r.gen && fits 16 r.modelCtx

/-- A Xaene request packet (Table 14.5). -/
def Pkt.wf (p : Pkt) : Bool :=
  locOk p.src && locOk p.dst && fits 3 p.vc && fits 16 p.flow && fits 16 p.fseq && fits 16 p.length && fits 16 p.tag && fits 16 p.modelCtx
    && fits 16 p.epoch && fits 64 p.addr && fits 8 p.op && fits 8 p.size && decide (p.payload.length = p.length)

/-- A Xaene response packet (Table 14.5). -/
def RespPkt.wf (p : RespPkt) : Bool := locOk p.src && fits 16 p.flow && fits 16 p.fseq && decide (p.payload.length ≤ 4096)

/-- A flit (Table 14.2). -/
def FlitRec.wf (f : FlitRec) : Bool :=
  fits 12 f.seq && fits 4 f.kind && fits 12 f.ack && fits 3 f.vc && fits 12 f.credits && decide (f.body.length = 244) && fits 32 f.crc
    && fits 3 f.bodyVc

/-- A collective packet (R362 to R367). -/
def CollPkt.wf (p : CollPkt) : Bool := locOk p.src && fits 16 p.flow && fits 32 p.opNo && fits 8 p.opcode && fits 8 p.type && fits 8 p.redop

/-- What a JOIN reports (R357). -/
def JoinParams.wf (p : JoinParams) : Bool := locOk p.src && fits 16 p.groupId && allFit 8 p.members

/-- A function of the device (R275). -/
def Func.wf : Func → Bool
  | .vf n => decide (n < 512)
  | _ => true

/-! ## Commands and events -/

/-- The operands of a command or event fit their fields. -/
def Instr.wf : Instr → Bool
  | .generate t h b => timeOk t && h.wf && b.wf
  | .score t h b => timeOk t && h.wf && b.wf
  | .embedGather t h b _ => timeOk t && h.wf && b.wf
  | .tileMove t h d => timeOk t && h.wf && d.wf
  | .embRowUpdate t h table row _ => timeOk t && h.wf && fits 32 table && fits 64 row
  | .embGenCommit t h table => timeOk t && h.wf && fits 32 table
  | .kvMigrate t h seq target targetVf _ => timeOk t && h.wf && fits 32 seq && fits 8 target && fits 16 targetVf
  | .jobAdmit t h ra rs _ ka _ => timeOk t && h.wf && fits 64 ra && fits 32 rs && fits 64 ka
  | .jobEnd t h => timeOk t && h.wf
  | .jobTeardown t h => timeOk t && h.wf
  | .plateLoad t h a n => timeOk t && h.wf && fits 64 a && fits 32 n
  | .plateUnload t h p => timeOk t && h.wf && fits 8 p
  | .tableReload t h table a n => timeOk t && h.wf && fits 32 table && fits 64 a && fits 32 n
  | .seqEnd t h seq => timeOk t && h.wf && fits 32 seq
  | .modelCreate t h uuid => timeOk t && h.wf && fits 128 uuid
  | .modelDestroy t h => timeOk t && h.wf
  | .epochInstall t h itag coord a n d => timeOk t && h.wf && fits 64 itag && fits 8 coord && fits 64 a && fits 32 n && fits 64 d
  | .detokLoad t h a n _ => timeOk t && h.wf && fits 64 a && fits 32 n
  | .ctxCreate t h vf part => timeOk t && h.wf && fits 16 vf && fits 8 part
  | .ctxDestroy t h vf => timeOk t && h.wf && fits 16 vf
  | .partCreate t h part ptag size low high => timeOk t && h.wf && fits 8 part && fits 16 ptag && fits 32 size && fits 32 low && fits 32 high
  | .partResize t h target size low high => timeOk t && h.wf && fits 8 target && fits 32 size && fits 32 low && fits 32 high
  | .selfTest t h scope variant => timeOk t && h.wf && fits 8 scope && fits 8 variant
  | .scrubPass t h part => timeOk t && h.wf && fits 8 part
  | .fwStage t h a n slot _ => timeOk t && h.wf && fits 64 a && fits 32 n && fits 8 slot
  | .secureErase t h part => timeOk t && h.wf && fits 8 part
  | .opSuspend t h op => timeOk t && h.wf && fits 64 op
  | .opResume t h op => timeOk t && h.wf && fits 64 op
  | .opCancel t h op => timeOk t && h.wf && fits 64 op
  | .opQuery t h op => timeOk t && h.wf && fits 64 op
  | .reqCancel t h target => timeOk t && h.wf && fits 64 target
  | .collGroupCreate t h b => timeOk t && h.wf && b.wf
  | .collGroupDestroy t h => timeOk t && h.wf
  | .barrier t h b => timeOk t && h.wf && b.wf
  | .reduceSmall t h b => timeOk t && h.wf && b.wf
  | .allReduce t h b => timeOk t && h.wf && b.wf
  | .allGather t h b => timeOk t && h.wf && b.wf
  | .reduceScatter t h b => timeOk t && h.wf && b.wf
  | .traceSetup t h base k kinds head => timeOk t && h.wf && fits 64 base && fits 8 k && fits 32 kinds && fits 64 head
  | .counterFilter t h set layer op job => timeOk t && h.wf && fits 8 set && fits 16 layer && fits 16 op && fits 16 job
  | .layerReport t h a n => timeOk t && h.wf && fits 64 a && fits 32 n
  | .tensorWatch t h b => timeOk t && h.wf && b.wf
  | .watchCancel t h target => timeOk t && h.wf && fits 64 target
  | .stopBlockReturn t _ _ => timeOk t
  | .stopBlockTimeout t _ => timeOk t
  | .prefixLookupDone t _ prompt _ => timeOk t && optAll (allFit 32) prompt
  | .stepDispatch t plate _ _ => timeOk t && decide (plate < 64)
  | .stepBoundary t plate _ _ => timeOk t && decide (plate < 64)
  | .stepWatchdog t plate => timeOk t && decide (plate < 64)
  | .deadlineMarginTimer t _ => timeOk t
  | .beAllocationResume t part => timeOk t && fits 8 part
  | .dovetailTransfer t isl port _ _ _ => timeOk t && islandOk isl && dovetailOk port
  | .counterIncrement t isl ctr inc => timeOk t && islandOk isl && decide (ctr < 64) && fits 32 inc
  | .dovetailRecalibration t isl port _ _ _ _ _ _ _ => timeOk t && islandOk isl && dovetailOk port
  | .islandBringUp t isl _ _ _ => timeOk t && islandOk isl
  | .islandBringUpTimeout t isl _ _ => timeOk t && islandOk isl
  | .fllLock t isl => timeOk t && islandOk isl
  | .droop t isl => timeOk t && islandOk isl
  | .droopRelease t isl _ => timeOk t && islandOk isl
  | .plateLoadVerified t _ _ => timeOk t
  | .islandConfigAck t _ isl => timeOk t && islandOk isl
  | .islandConfigTimeout t _ isl _ _ => timeOk t && islandOk isl
  | .plateResident t _ => timeOk t
  | .plateRemoval t plate => timeOk t && decide (plate < 64)
  | .reloadPayloadWritten t job table => timeOk t && fits 16 job && fits 32 table
  | .reloadVerified t job table _ _ _ _ => timeOk t && fits 16 job && fits 32 table
  | .lineCheckFail t line err again => timeOk t && fits 36 line && fits 288 err && fits 288 again.1 && fits 288 again.2
  | .frameRestored t frame _ _ => timeOk t && fits 25 frame
  | .restoreFailed t frame => timeOk t && fits 25 frame
  | .retrainSlice t subch _ _ => timeOk t && decide (subch < 384)
  | .subchannelRetry t subch _ => timeOk t && decide (subch < 384)
  | .tilePieceComplete t ch _ _ => timeOk t && decide (ch < 64)
  | .cabinetDrawerGrant t => timeOk t
  | .eviction t part => timeOk t && fits 8 part
  | .ageSample t _ => timeOk t
  | .reclaimResume t _ => timeOk t
  | .resizeRetagDone t _ => timeOk t
  | .frameMigration t part frame => timeOk t && fits 8 part && fits 25 frame
  | .invalidationAck t datu frame => timeOk t && fits 8 datu && fits 25 frame
  | .dropGrantRequest t src seq group _ => timeOk t && locOk src && fits 32 seq && fits 8 group
  | .kvDrop t src seq page _ => timeOk t && locOk src && fits 32 seq && fits 8 page.1 && fits 32 page.2
  | .sequencePublication t src ctx seq root mc epoch =>
      timeOk t && locOk src && ctxOk ctx && fits 32 seq && fits 64 root && fits 16 mc && fits 16 epoch
  | .migrateCopyDone t _ handle => timeOk t && fits 32 handle
  | .manifestVerified t _ m => timeOk t && optAll (fun x => allFit 64 x.2) m
  | .areaAllocated t _ => timeOk t
  | .shardFetched t mc shard _ copies => timeOk t && fits 16 mc && fits 32 shard && copies.all (fits 32)
  | .installDeadline t mc => timeOk t && fits 16 mc
  | .prepared t mc src itag _ coord => timeOk t && fits 16 mc && locOk src && fits 64 itag && fits 8 coord
  | .no t mc src _ => timeOk t && fits 16 mc && locOk src
  | .installCommit t mc src epoch => timeOk t && fits 16 mc && locOk src && fits 16 epoch
  | .committedReply t mc src => timeOk t && fits 16 mc && locOk src
  | .release t mc src => timeOk t && fits 16 mc && locOk src
  | .releaseAck t mc src => timeOk t && fits 16 mc && locOk src
  | .abort t mc src _ => timeOk t && fits 16 mc && locOk src
  | .installQueryTimer t mc => timeOk t && fits 16 mc
  | .installQuery t mc src => timeOk t && fits 16 mc && locOk src
  | .committedReplyTimeout t mc => timeOk t && fits 16 mc
  | .coordinatorUnreachable t mc _ => timeOk t && fits 16 mc
  | .epochDrained t mc epoch src => timeOk t && fits 16 mc && fits 16 epoch && locOk src
  | .epochFree t mc epoch => timeOk t && fits 16 mc && fits 16 epoch
  | .dispatch t r => timeOk t && r.wf
  | .close t r => timeOk t && r.wf
  | .exuReturn t r => timeOk t && r.wf
  | .gather t r => timeOk t && r.wf
  | .pooled t r => timeOk t && r.wf
  | .gone t r => timeOk t && r.wf
  | .update t r => timeOk t && r.wf
  | .commit t r => timeOk t && r.wf
  | .settle t r => timeOk t && r.wf
  | .done t r => timeOk t && r.wf
  | .read t p => timeOk t && p.wf
  | .write t p => timeOk t && p.wf
  | .atomic t p => timeOk t && p.wf
  | .resp t p => timeOk t && p.wf
  | .restoringReissue t flow fseq => timeOk t && fits 16 flow && fits 16 fseq
  | .remoteResend t flow fseq => timeOk t && fits 16 flow && fits 16 fseq
  | .remoteTimeout t flow fseq => timeOk t && fits 16 flow && fits 16 fseq
  | .fabricFaultResend t _ => timeOk t
  | .fabricFaultAck t eid _ => timeOk t && fits 8 eid
  | .claim t src mc amount => timeOk t && locOk src && fits 16 mc && fits 16 amount
  | .claimAnswer t src job _ => timeOk t && locOk src && fits 16 job
  | .claimTimeout t job => timeOk t && fits 16 job
  | .resetNotice t src => timeOk t && locOk src
  | .join t p => timeOk t && p.wf
  | .abandon t gid src => timeOk t && fits 16 gid && locOk src
  | .fault t gid src => timeOk t && fits 16 gid && locOk src
  | .collectiveChunk t gid p => timeOk t && fits 16 gid && p.wf
  | .switchStateReport t sw reach => timeOk t && decide (sw < 8) && reach.all (fun e => locOk e.1)
  | .flit t port f => timeOk t && portOk port && f.wf
  | .nak t port ack => timeOk t && portOk port && fits 16 ack
  | .tag t port _ => timeOk t && portOk port
  | .replayRetrain t port => timeOk t && portOk port
  | .fecLockLoss t port => timeOk t && portOk port
  | .portTrainingDone t port failed partner pp _ _ => timeOk t && portOk port && failed.all (fun l => decide (l < 4)) && locOk partner && fits 8 pp
  | .laneRetry t port passed => timeOk t && portOk port && passed.all (fun l => decide (l < 4))
  | .linkRekey t port => timeOk t && portOk port
  | .poll t => timeOk t
  | .summaryReadReturn t link words => timeOk t && decide (link < 2) && optAll (fun (l : List Dword) => decide (l.length = 8)) words
  | .fetchaddComplete t link _ => timeOk t && decide (link < 2)
  | .doorbellBlockRead t ctx tails heads => timeOk t && ctxOk ctx && allFit 32 tails && allFit 32 heads
  | .hostReadError t _ => timeOk t
  | .hostWriteError t _ => timeOk t
  | .coalTimer t ctx ring => timeOk t && ctxOk ctx && decide (8 ≤ ring ∧ ring < 18)
  | .ptmDialogue t _ master => timeOk t && fits 64 master
  | .traceDrop t ctx _ => timeOk t && ctxOk ctx
  | .watchExpiry t ctx id => timeOk t && ctxOk ctx && fits 64 id
  | .schedulingWindow t => timeOk t
  | .backgroundInterval t activity _ _ _ _ _ fwd => timeOk t && decide (activity < 10) && fwd.all islandOk
  | .guardBandLower t field => timeOk t && decide (field < 4)
  | .railReading t _ => timeOk t
  | .thermalModelUpdate t fits' _ => timeOk t && decide (fits'.length ≤ 4)
  | .sensor105 t field => timeOk t && decide (field < 4)
  | .thermtrip t => timeOk t
  | .thermtripRelease t => timeOk t
  | .idleEntry t => timeOk t
  | .stateEntry t => timeOk t
  | .stateExit t step => timeOk t && fits 8 step
  | .exitStepTimeout t step => timeOk t && fits 8 step
  | .pwrwarnNAssert t => timeOk t
  | .pwrwarnClear t => timeOk t
  | .leaseExpiry t => timeOk t
  | .coolantStop t => timeOk t
  | .clockStopTimeout t => timeOk t
  | .completionWriteTimeout t => timeOk t
  | .coolantRestored t => timeOk t
  | .beaconLost t => timeOk t
  | .beaconReturn t => timeOk t
  | .wakeN t => timeOk t
  | .sidebandAddressMatch t addr _ => timeOk t && fits 7 addr
  | .pmeTurnOff t => timeOk t
  | .setCap t eid cap flags => timeOk t && fits 8 eid && fits 16 cap && fits 8 flags
  | .heartbeat t eid => timeOk t && fits 8 eid
  | .setState t eid req => timeOk t && fits 8 eid && fits 8 req
  | .advisoryAck t eid mask => timeOk t && fits 8 eid && fits 8 mask
  | .cofferSnapshot t eid nonce => timeOk t && fits 8 eid && fits 256 nonce
  | .cofferRelease t _ eid => timeOk t && fits 8 eid
  | .getVersion t => timeOk t
  | .getCapabilities t => timeOk t
  | .negotiateAlgorithms t hash asym kem => timeOk t && fits 32 hash && fits 32 asym && fits 32 kem
  | .getDigests t => timeOk t
  | .getCertificate t slot off len => timeOk t && fits 8 slot && fits 16 off && fits 16 len
  | .challenge t slot nonce => timeOk t && fits 8 slot && fits 256 nonce
  | .getMeasurements t index => timeOk t && fits 8 index
  | .keyExchange t kem session => timeOk t && fits 32 kem && fits 32 session
  | .finish t session _ => timeOk t && fits 32 session
  | .endSession t session => timeOk t && fits 32 session
  | .ideKm t session stream _ => timeOk t && fits 32 session && fits 8 stream
  | .getNonce t => timeOk t
  | .nonceExpiry t => timeOk t
  | .unlock t tok => timeOk t && fits 8 tok.level && fits 8 tok.signer && fits 16 tok.lifetime
  | .relock t _ => timeOk t
  | .unlockLifetimeEnd t => timeOk t
  | .provision t _ => timeOk t
  | .deploy t keys => timeOk t && decide (keys.length ≤ 8)
  | .keyAdd t slot _ _ _ => timeOk t && fits 8 slot
  | .keyRevoke t slot _ signer _ => timeOk t && fits 8 slot && fits 8 signer
  | .retire t _ signer _ => timeOk t && fits 8 signer
  | .logRead t log first => timeOk t && fits 8 log && fits 32 first
  | .certWrite t chain => timeOk t && decide (chain.length ≤ 32768)
  | .pfLevelWrite t _ => timeOk t
  | .setupLock t _ => timeOk t
  | .contextEnable t ctx => timeOk t && ctxOk ctx
  | .contextDisable t ctx => timeOk t && ctxOk ctx
  | .ringSetupWrite t ctx off _ => timeOk t && ctxOk ctx && decide (off < 0x220)
  | .contextReset t ctx => timeOk t && ctxOk ctx
  | .hiDbCtrlWrite t _ => timeOk t
  | .pairLoWrite t f off _ => timeOk t && f.wf && fits 24 off
  | .pairHiWrite t f off _ => timeOk t && f.wf && fits 24 off
  | .pairLoRead t f off => timeOk t && f.wf && fits 24 off
  | .pairHiRead t f off => timeOk t && f.wf && fits 24 off
  | .misalignedAccess t f _ off bytes _ => timeOk t && f.wf && fits 24 off && decide (1 ≤ bytes ∧ bytes ≤ 8)
  | .registerWrite t f off bytes _ => timeOk t && f.wf && fits 24 off && decide (1 ≤ bytes ∧ bytes ≤ 8)
  | .requestRun t => timeOk t
  | .requestSleep t => timeOk t
  | .requestDeep t => timeOk t
  | .requestOff t => timeOk t
  | .pwCapWrite t _ => timeOk t
  | .pwFloorWrite t _ => timeOk t
  | .pwPhaseWrite t _ => timeOk t
  | .pwOpWrite t n _ => timeOk t && decide (n < 5)
  | .fbSchedCtrlWrite t _ => timeOk t
  | .xnVcWeightWrite t _ => timeOk t
  | .portDisable t port _ => timeOk t && portOk port
  | .mmCabHiRsvWrite t _ => timeOk t
  | .tdAddrOnlyWrite t n _ => timeOk t && decide (n < 16)
  | .advisoryClear t _ => timeOk t
  | .bar2Read t off _ => timeOk t && fits 64 off
  | .bar2Write t off _ => timeOk t && fits 64 off
  | .vfFlr t vf => timeOk t && decide (vf < 512)
  | .vfEnableClear t link => timeOk t && decide (link < 2)
  | .hotReset t cause => timeOk t && decide (1 ≤ cause ∧ cause ≤ 3)
  | .warmReset t straps => timeOk t && fits 17 straps
  | .coldReset t _ straps => timeOk t && fits 17 straps
  | .bootStepTimeout t step => timeOk t && fits 8 step
  | .sequenceFault t rail => timeOk t && fits 8 rail
  | .aonSupplyRemoved t => timeOk t
  | .fatalError t unit _ => timeOk t && fits 8 unit
  | .quiesceMet t _ => timeOk t
  | .vfEnableSet t link num => timeOk t && decide (link < 2) && fits 16 num
  | .secureEraseDone t _ => timeOk t
  | .selfTestDone t _ _ _ => timeOk t
  | .scrubPassDone t _ => timeOk t
  | .fwStageDone t _ => timeOk t
  | .tapInstruction t _ => timeOk t
  | .claimRelease t src mc amount => timeOk t && locOk src && fits 16 mc && fits 16 amount
  | .railSetpointReached t field => timeOk t && decide (field < 4)

end Sys2Proof
end

