-- ==== Sys2Proof/Tests/Slice0.lean ====
section
/-! SUPPORT. Tests: the spec's worked examples, small commands on a small state, well-formedness, and for every statement with
hypotheses a witness: a concrete state and operands that meet the hypotheses of each of its clauses together. The expected values
are the spec's, or follow from its words by hand. -/
set_option Elab.async false

namespace Sys2Proof.Machine

/-- The state in which the command of a fetched descriptor begins. -/
def begun (t : Nat) (h : Hdr) (s : State) : State := releaseRoom h.ctx (compRing h.ring) 1 ((fetched t h s).getD s)
theorem begins_begun {t : Nat} {h : Hdr} {s : State} (a : (fetched t h s).isSome = true) : Begins t h s (begun t h s) := by
  obtain ⟨s0, e⟩ := Option.isSome_iff_exists.1 a
  exact ⟨s0, e, by simp [begun, e]⟩
theorem begins_two {t : Nat} {h : Hdr} {s : State} (a : (fetched t h s).isSome = true) : BeginsTwo t h s ((fetched t h s).getD s) := by
  obtain ⟨s0, e⟩ := Option.isSome_iff_exists.1 a
  simp [BeginsTwo, e]

theorem received_here {t : Nat} {ty : ExuType} {r : ExuRec} {s : State} (h : r.leg = ownLoc s) : Received t ty r s (tick t s) := .inl ⟨h, rfl⟩
theorem arrives_here {t : Nat} {ty : ExuType} {r : ExuRec} {s : State} (h : r.leg = ownLoc s ∧ r.dst = ownLoc s) : Arrives t ty r s (tick t s) :=
  ⟨received_here h.1, h.2⟩

/-- Rings of 64 descriptors and of 256 records; two descriptors of every ring have been fetched. -/
def ctxW : Ctx := {
  present := true, part := 2, enable := true
  rings := (List.range 18).map (fun r => (r, { sizeLog2 := if r < 8 then 6 else 10 }))
  fetching := (List.range 8).map (fun r => (r, 2)), reserved := [(8, 4), (9, 4)] }
/-- A quiet context, not enabled. -/
def ctxQ : Ctx := { ctxW with enable := false, fetching := [], reserved := [] }
def jobW : Job := { present := true, id := 17, ctx := 3, part := 2, mc := 5, resv := { footprint := 1, serve := 100 } }
def epochW : Epoch := { num := 1, base := 0, chunks := 1, layoutId := 0, m := {
  chips := [{}], shards := [{}], embTables := 1, embs := [{ tableId := 9 }] }, emb := [{ table := 9 }] }
def costW : CostEntry := { opcode := 1 }
def plateW : Plate := { state := 2, job := 1, isls := [{ isl := 650, mode := 1, flags := 0, banks := 1, ctrs := [], mask := 0 }]
                        image := { costs := [costW] } }
/-- A chip at work: a context with its partition, a job with its plate, a model context with its epoch. -/
def W : State := { State.reset with
  hi := { numVfs0 := 16, dbEnable := true }
  ctxs := [(3, ctxW), (4, ctxQ), (adminCtx, { ctxW with part := 0xFE })]
  mem := { parts := [(2, { present := true, tag := 7, chunks := [(100, 8)] })] }
  fab := { plates := [(0, plateW)] }
  srv := { jobs := [(1, jobW)] }
  mdl := { ctxs := [(5, { uuid := 1, epochs := [epochW] })] } }
/-- A descriptor of context 3's ring 2, and one of the administrator's. -/
def hC : Hdr := { ctx := 3 }
def hA : Hdr := { ctx := adminCtx }
def hJ : Hdr := { ctx := 3, job := 17 }
def hR : Hdr := { ctx := 3, ring := 1, cls := 1, job := 17, modelCtx := 5 }
/-- W with every port of Xaene up and a second chip that serves the model context. -/
def W2 : State := { W with
  xn := { ports := (List.range 15).map (fun p => (p, { st := 2, width := 2 })) }
  mdl := { ctxs := [(5, { uuid := 1, epochs := [{ epochW with m := { epochW.m with
    chips := [{}, { loc := 1 }]
    experts := [{ layerId := 2, experts := 2, entries := [0, 0x200000#32] }]
    embTables := 3, embs := [{ tableId := 9, shards := [0] }, { tableId := 10, rowBytes := 512, shards := [0] }, { tableId := 11, shards := [2 ^ 41] }] } }] })] }
  exu := { home := [{ mc := 5, job := 1, plate := 0, layer := 2, exchange := 7 }] } }
/-- The entries that map page 0 of context 3 to the first frame of partition 2. -/
def leavesW : List Leaf := [{ ctx := 3, level := 1, vpn := 0, word := 0x9000000000000000#64 }, { ctx := 3, level := 2, vpn := 0, word := 0x9000000000000000#64 },
  { ctx := 3, level := 3, vpn := 0, word := 0xD00000000C800000#64 }]
def layW : LayerRec := { layerId := 2, experts := 2, k := 1, capacity := 1 }
/-- W2 with an MoE layer in its plate's image, a model area and page 0 mapped. -/
def Wl : State := { W2 with
  fab := { plates := [(0, { plateW with image := { plateW.image with layers := [layW] } })] }
  mem := { W2.mem with model := [(0, 8)], leaves := leavesW } }
def exW : ExpertEx := { mc := 5, layer := 2, exchange := 7, closed := true }
def homeW : HomeEx := { mc := 5, job := 1, plate := 0, layer := 2, exchange := 7, chips := [1], width := 2, slots := [{ slot := 0 }] }
def rE : ExuRec := { modelCtx := 5, epoch := 1, layer := 2, exchange := 7 }
def rB : ExuRec := { modelCtx := 5, epoch := 1, layer := 0, exchange := 7, ids := [255] }
def bagW : BagEx := { req := some 1, job := 1, mc := 5, table := 0, exchange := 7, slot := 0, gen := 0, owners := [1, 2], mean := false, ids := 1, row := [1], plate := 64 }
def cmdW : EmbCmd := { cmd := { ctx := 3 }, job := 17, mc := 5, table := 0, exchange := 7, phase := 0, gen := 0, left := [0] }
def hM : Hdr := { ctx := 3, job := 17, modelCtx := 5 }
def hAM : Hdr := { ctx := adminCtx, modelCtx := 6 }
/-- W2 with the model context 6, in the phase of an install that i says. -/
def Wi (i : Install) (o : LongOp) : State := { W2 with
  mdl := { W2.mdl with ctxs := mset W2.mdl.ctxs 6 { uuid := 2, install := i } }
  ops := { live := [(4, o)], next := 5 } }
def oI (c : Nat) : LongOp := { cmd := { ctx := adminCtx }, kind := .epochInstall 6, code := c }
def manW : Manifest := { size := 5632, uuid := 2, chips := [{}], shards := [{}], sections := [(256, 16), (512, 128), (0, 0), (0, 0)] }
def manS : Manifest := { manW with shards := [{ size := 0, digest := Config.digest [] }] }
def imgW : PlateImage := { uuid := 1, rects := [{}], records := [{ entries := List.replicate 64 0 }], costs := [costW]
                           sections := [(4096, 1024), (0, 0), (0, 0), (0, 0), (8192, 64), (0, 0), (0, 0), (0, 0)] }
/-- W2 with operation 4 live. -/
def Wo (o : LongOp) : State := { W2 with ops := { live := [(4, o)], next := 5 } }
def oA (k : OpKind) (c : Nat) : LongOp := { cmd := { ctx := adminCtx }, kind := k, code := c }
/-- W with table 3 in job 17. -/
def Wt (x : Tbl) : State := { W with srv := { jobs := [(1, { jobW with tables := [x] })] } }
def lookW : TableImage := .lookup true 9 0 1 [16] false
def tblW (r : Option Reload) : Tbl := { id := 3, kind := 1, size := 16384, bound := [(0, 0)], reload := r }
/-- A tile of one unit between two host buffers, and W with the channel 0 that holds q. -/
def tileW : TileDesc := { srcKind := 3, dstKind := 3 }
def tjW (d : TileDesc) : TileJob := { d := d, job := 1, posted := false, lc := false, deadline := 0, cmd := { ctx := 3 }, ctx := 3, plate := 64 }
def Wc (q : List TileJob) : State := { W with mem := { W.mem with chans := [(0, { cls := 2, job := 1, held := 1, queue := q })] } }
/-- W2 with one collective group, bound to ring 4 of context 3. -/
def grpW (st : Nat) (l : List CollOp) : Group := {
  id := 9, key := 0, ctx := 3, queue := 0, job := 1, rank := 0, members := [0, 1], mode := 0, chunkLog2 := 16, depth := 2
  stagePlate := 0xFF, stageOffset := 0, stageBytes := 0, st := st, opsPending := l }
def Wg (st : Nat) (l : List CollOp) : State := { W2 with
  ctxs := [(3, { ctxW with queues := [(0, 0)] }), (adminCtx, ctxW)]
  coll := { groups := [(0, grpW st l)] } }
def hG : Hdr := { ctx := 3, ring := 4 }
def hGM : Hdr := { ctx := 3, ring := 7, job := 17, modelCtx := 5 }
def opW : CollOp := { opNo := 0, opcode := 0x72, b := {}, cmd := { ctx := 3 }, posted := false, lc := false }
def geoW : KvGeom := { headChips := [0, 0xFF, 0xFF, 0xFF, 0xFF, 0xFF, 0xFF, 0xFF] }
/-- W with a decode step of request 1 queued on the plate, and with a step running on it. -/
def reqW : Request := { op := .generate, st := .decode, h := hR, detect := 0 }
def qW : Queued := { kind := 0, seq := 1, at' := 0, work := [(1, .decode)] }
def runW : Running := { kind := 0, seq := 1, dispatch := 0, tgen := 0, work := [(1, .decode)], lc := false }
def Ws (q : Plate) : State := { W with fab := { W.fab with plates := [(0, q)] }, srv := { W.srv with reqs := [(1, reqW)], nextReq := 2 } }
/-- A packet that reaches the first line of partition 2. -/
def pkW : Pkt := { addr := 209715200, tag := 7, size := 12, length := 4, payload := [1, 2, 3, 4] }
def remW (r : Bool) : Remote := { ty := 1, pkt := { pkW with dst := 1, flow := 64, fseq := 5 }, sentAt := 0, job := 17, restoring := r }
def Wr (r : Bool) : State := { W2 with xn := { W2.xn with remotes := [remW r] } }
/-- W2 with port 14 as p. -/
def Wp (p : Port) : State := { W2 with xn := { W2.xn with ports := mset W2.xn.ports 14 p } }
def hT : Hdr := { ctx := 3, ring := 3 }
def hTJ : Hdr := { ctx := 3, ring := 3, job := 17 }
/-- W with context 3 as x. -/
def Wx (x : Ctx) : State := { W with ctxs := [(3, x), (adminCtx, { ctxW with part := 0xFE })] }
def watchW : Watch := { reqId := 8, irq := false, job := 17, b := {}, bytes := 4, due := 9 }
/-- W2 with a ready group whose staging stands on plate 0. -/
def Wg1 : State := { Wg 1 [] with
  coll := { groups := [(0, { grpW 1 [] with stagePlate := 0 })] }
  mem := { (Wg 1 []).mem with leaves := leavesW } }
theorem of_none {α : Type} {x : Option α} {P : α → Prop} (h : x.isNone = true) : ∀ q, x = some q → P q := by cases x <;> simp_all
theorem none_waits {l : List (Nat × Work)} {f : Nat × Work → Option Request} (h : l.all (fun k => (f k).all (fun r => !r.waitingBe)) = true) :
    ∀ k r, k ∈ l → f k = some r → r.waitingBe = false := by
  intro k r hk hr
  have := List.all_eq_true.1 h k hk
  simpa [hr] using this
/-- A posted or host tile whose first piece has its drawer. -/
def tjB (d : TileDesc) (posted : Bool) : TileJob := { tjW d with begun := true, posted := posted }
def dataW : List Byte := List.replicate (pieceBytes tileW 0) 0
/-- Wl with an epoch of one shard that holds the byte 0; its frame 0 is poisoned and under restoration. -/
def epochS : Epoch := { epochW with m := { epochW.m with shards := [{ size := 1, digest := Config.digest [0] }] } }
def Wsh : State := { Wl with
  mem := { Wl.mem with poisonFrames := [0], restoring := [0] }
  mdl := { ctxs := [(5, { uuid := 1, epochs := [epochS] })] } }
/-- W with a record of the expert unit out that is not answered. -/
def Wo1 : State := { W2 with xn := { W2.xn with exuOut := [{ ty := .dispatch, pkt := rE, hop := 1, job := 1, sentAt := 0 }] } }
/-- A chunk of an operation of group 9 that is not answered, and W2 with the group and its operation. -/
def coW : CollOut := { gid := 9, pkt := { stage := 2 }, dst := 1, vc := 3, job := 17, layer := 0xFFFF, operator := 0xFFFF, sentAt := 0 }
def Wco : State := { Wg 1 [opW] with xn := { (Wg 1 [opW]).xn with collOut := [coW] } }
/-- A flit whose CRC holds. -/
def goodF (f : FlitRec) : FlitRec := { f with crc := crc32 (flitBytes f) }
/-- W without background budget. -/
def Wnb : State := { W with fab := { W.fab with bg := 0 } }
/-- A sequence of chip 1 published to this one. -/
def pubW : Pub := { src := 1, ctx := 3, seq := 65536, root := 0, mc := 5, epoch := 1 }
def Wpub : State := { W with srv := { W.srv with jobs := [(1, { jobW with kv := some geoW })], pubs := [pubW] } }
theorem pair_of_some {α β : Type} {x : Option (α × β)} (h : x.isSome = true) : x = some ((x.get h).1, (x.get h).2) := by simp

/-! ## The spec's worked examples -/

/-- The state after one command. -/
def after (c : Instr) (s : State) : State := match exec c s with | .next u => u | _ => s
/-- The kinds and statuses of the completion records sent, newest first. -/
def recsOf (s : State) : List (RecKind × Status) := s.out.filterMap (fun o => match o with | .record r => some (r.kind, r.status) | _ => none)

-- R30's example: the island at global column 27, row 18 is 1,639.
theorem test_island_number : islAt 27 18 = some 1639 ∧ gcol 1639 = 27 ∧ grow 1639 = 18 := by decide
-- The GFA example of chapter 1 (chip 3 of board 5 in rack 1) and that of chapter 20 (chip 5 of board 3 in rack 1).
theorem test_gfa_location : ownLoc { State.reset with id := { rack := 1, board := 5, slot := 3 } } = 0xD6A4C0000000 / 2 ^ 41 ∧
    ownLoc { State.reset with id := { rack := 1, board := 3, slot := 5 } } = 0xBA0000000000 / 2 ^ 41 := by decide
-- The price of chapter 1: a = 2,000, b = 180, c = 2,600 and d = 4, 280 prompt tokens and 30 output tokens.
theorem test_price : priceOf (2000, 180, 2600, 4) 280 30 310 = 131640 := by decide
-- The example of chapter 14: chip 5 reaches chip 2 on XP_4, and chip 2 reaches chip 5 on XP_2.
theorem test_mesh_port : meshPort { State.reset with id := { slot := 5 } } 2 = 4 ∧ meshPort { State.reset with id := { slot := 2 } } 5 = 2 := by decide
-- The FP4 codes of the example of chapter 4.
theorem test_fp4_codes : [0x3, 0xC, 0x1, 0x7].map (fun c => toFp32 (ofFp4 c)) = [0x3FC00000, 0xC0000000, 0x3F000000, 0x40C00000] := by decide +kernel

/-- The three blocks of the ACC96 example of chapter 4; w is B1's weight scale. -/
def blocksW (w : Nat) : List Block :=
  let p := fun (a b s : Nat) => ({ w := ofFp4 a, a := ofFp4 b, scale := s } : Pair)
  let (_, d, f) := blockParams 2
  [blockSum d f 0x7F [p 3 6 0x82, p 0xC 1 0x82, p 5 5 0x82], blockSum d f w [p 1 1 0x7F, p 2 3 0x7F], blockSum d f 0xA7 [p 7 7 0x7F, p 0xE 1 0x7F]]
def accOf (l : List Block) : Word × Nat := let q := l.foldl (fun q b => takeFlags b q) ({} : Acc); (toFp32 (accValue q), q.events)
-- B0, B1, B2: 0x5608_0000 and one window-loss event.
theorem test_acc96 : accOf (blocksW 0x6B) = (0x56080000, 1) := by decide +kernel
-- B2, B0, B1: the same value and the same single event.
theorem test_acc96_other_order : accOf [(blocksW 0x6B).getD 2 {}, (blocksW 0x6B).getD 0 {}, (blocksW 0x6B).getD 1 {}] = (0x56080000, 1) := by decide +kernel
-- With B1's weight scale 0x6F the spread fits the window: no event.
theorem test_acc96_no_event : (accOf (blocksW 0x6F)).2 = 0 := by decide +kernel

-- Chapter 5: ROT_SEED 1 gives word 0 as 0x0000_0000_4082_2041; elements 0, 6, 13, 17, 23 and 30 are negated.
theorem test_rotation_word : xorshift 1 = 0x40822041 := by decide +kernel
theorem test_rotation_signs : (List.range 64).filter (signBit 1) = [0, 6, 13, 17, 23, 30] := by decide +kernel
-- Chapter 5: the charges of the FP8 rung, of the kept reference, and 768 cycles of a Proof at 2^-6 from 8.
theorem test_charges : [chargeFp8 4096 16 1000, chargeFp8 4096 8 1000, chargeKept 16 1000, chargeKept 8 1000] = [2098, 1049, 132, 66] := by decide
theorem test_proof_charge : chargeProof 4096 6 8 1 1000 = ceilDiv (256 * 768) 1000 := by decide

-- R144 and the variance example of chapter 6: mean 16,777,220 and sigma 0x404A_62C2.
theorem test_mean : meanRow [0x4B800000, 0x4B800001, 0x4B800003, 0x4B800004] = 0x4B800002 := by decide +kernel
theorem test_rms : rmsRow [0xC0800000, 0xC0000000, 0x40000000, 0x40800000] 0 = 0x404A62C2 := by decide +kernel
-- R143's example: rows of -3.0 × 2^120 have rms 0x7C40_0000, also with epsilon 2^-10, and the output is -0.5.
theorem test_rms_large : rmsRow (List.replicate 64 0xFC400000) 0 = 0x7C400000 ∧ rmsRow (List.replicate 64 0xFC400000) 0x3A800000 = 0x7C400000 ∧
    rmsNorm (List.replicate 64 0xFC400000) (List.replicate 64 0x3F000000) 0 = List.replicate 64 0xBF000000 := by decide +kernel
/-- The tanh table of chapter 6; only segment 166 is filled in. -/
def tanhW : TableImage := .fn true 0 2 0 0x41000000 0 0 0 0 0 0x3F800000
  (List.replicate 166 (0, 0, 0) ++ [(0x3F5C652D, 0x3B048374, 0xB7642C7B)] ++ List.replicate 857 (0, 0, 0)) false
theorem test_function_table : tableOk 0 16384 tanhW = true ∧ evalTable tanhW 0x41180000 = 0x3F800000 ∧ evalTable tanhW 0xFF800000 = 0xBF800000 := by decide +kernel
-- x = -1.3: about -0.861725.
theorem test_function_segment : flt (evalTable tanhW 0xBFA66666) 0xBF5C99FE = true ∧ flt 0xBF5C9A40 (evalTable tanhW 0xBFA66666) = true := by decide +kernel

-- Chapter 7: the hash of token 7 and its choices among 4,096 and 1,000 experts.
theorem test_kx_hash : kxHash 7 0x200000000 = 0xED90125B5F779F4E := by decide
theorem test_expert_choice : chooseExperts { experts := 4096, k := 1, seeds := [0x200000000] } 7 0 = [3801] ∧
    chooseExperts { experts := 1000, k := 1, seeds := [0x200000000] } 7 0 = [927] := by decide +kernel
-- R181's example: row 0x1234 lies at 0x5C20_0006_8B80.
theorem test_row_address : rowAddr { rowBits := 16, shardBits := 3, seed := 0xF0, rowBytes := 128
                                     shards := [0, 0, 0, 0, 0, 0, 0x5C2000000000, 0] } 0 0x1234 = 0x5C2000068B80 := by decide
-- Chapter 8: 0x12_3456_7800 lies on package M5, channel 0, subchannel 1.
theorem test_subchannel : subchannelOf State.reset 0x1234567800 = 24 * 5 + 1 := by decide
-- Chapter 9: page 15 of layer 17, group 2, sequence 5.
theorem test_kv_address : kvDva { layers := 61, kBytes := 512, vBytes := 512 } 5 2 17 15 = 0x01000015220F0000 ∧
    pagePos { layers := 61, kBytes := 512, vBytes := 512 } = 64 := by decide
-- Chapter 9: block 3's SCORE of 5,200 becomes 6,595 with m = 0.42.
theorem test_block_score : nextScore 5200 0x3ED70A3D = 6595 := by decide +kernel
-- R98: a line of mode PM is corrected from one flipped bit, of its data or of its code, and not from two in one 64-bit word.
theorem test_line_code : [2 ^ 17, 2 ^ 255, 2 ^ 256, 2 ^ 287, 3].map (fun e => checkLine 0 (readLine W 6553600 e)) =
    [some true, some true, some true, some true, none] := by decide +kernel

-- Chapter 12: word 0 reads 0x82, and the FetchAdd subtracts it; contexts 1 and 7 are then read.
theorem test_fetch_add : (after (.summaryReadReturn 800 0 (some [0x82, 0, 0, 0, 0, 0, 0, 0]))
    { W with hi := { W.hi with polling := true, pollLinks := [0] } }).out = [.fetchAdd 0 0 0xFFFFFFFFFFFFFF7E] := by decide +kernel
theorem test_poll_contexts : (after (.fetchaddComplete 1600 0 true)
    { W with hi := { W.hi with polling := true, pollWords := [(0, 0x82), (1, 0)] } }).hi.pollFound = [1, 7] := by decide +kernel

/-! ## The setup example of chapter 20 -/

/-- Chip 5 of board 3 in rack 1. -/
def setupW : State := { State.reset with id := { rack := 1, board := 3, slot := 5 } }
def lockedW : State := { setupW with hi := { setupW.hi with lock := true }, pw := { setupW.pw with floor := 0x708 } }
theorem test_identity : [0, 4, 8].map (readWord setupW .pf) = [0x09600010, 0x600, 0x4D5D] := by decide +kernel
theorem test_eid_write : (after (.registerWrite 0 .pf 0xC0008 4 0x2120) setupW).sec.fmEid = 0x21 ∧
    (after (.registerWrite 0 .pf 0xC0008 4 0x2120) setupW).sec.rmEid = 0x20 := by decide +kernel
theorem test_reserve_write : readWord (after (.registerWrite 0 .pf 0x40000 4 0x600) setupW) .pf 0x40000 = 0x600 := by decide +kernel
theorem test_pair_write : (after (.registerWrite 0 .pf 0x1000C 4 0x10) (after (.registerWrite 0 .pf 0x10008 4 0x20000040) setupW)).hi.summary
    = 0x1020000040 := by decide +kernel
theorem test_polling_write : readWord (after (.registerWrite 0 .pf 0x10000 4 0x80000004) setupW) .pf 0x10000 = 0x80000004 := by decide +kernel
theorem test_lock_write : readWord (after (.registerWrite 0 .pf 0x10038 4 0x80000000) setupW) .pf 0x10038 = 0x80000000 := by decide +kernel
theorem test_locked_floor : [0xA000C, 0x10038].map (readWord (after (.registerWrite 0 .pf 0xA000C 4 0x640) lockedW) .pf) = [0x708, 0xC0000000] := by decide +kernel
theorem test_violation_clear : readWord (after (.registerWrite 0 .pf 0x10038 4 0x40000000)
    { lockedW with hi := { lockedW.hi with violation := true } }) .pf 0x10038 = 0x80000000 := by decide +kernel

/-! ## Requests and commands on a small state -/

-- R284, R491: a GENERATE that passes writes ACCEPT; a malformed one writes DECLINE and nothing more.
theorem test_generate_accepted : recsOf (after (.generate 0 hR { promptLen := 2 }) W) = [(.accept, .complete)] := by decide +kernel
theorem test_generate_malformed : recsOf (after (.generate 0 hR { promptLen := 0 }) W) = [(.decline, .malformed)] := by decide +kernel
-- R299: an administrator's command on another context's ring is denied; a reserved bit is MALFORMED_DESCRIPTOR.
theorem test_admin_denied : recsOf (after (.ctxCreate 0 hC 15 2) W) = [(.final, .accessDenied)] := by decide +kernel
theorem test_reserved_bit : recsOf (after (.ctxCreate 0 { hA with bodyRsvd := true } 15 2) W) = [(.final, .malformed)] := by decide +kernel
theorem test_context_made : recsOf (after (.ctxCreate 0 hA 15 2) W) = [(.final, .complete)] ∧
    ctxPart (after (.ctxCreate 0 hA 15 2) W) 15 = 2 := by decide +kernel
-- R346: a WRITE packet stores its payload; a READ with another tenant's TAG is DENIED.
theorem test_write_packet : readDram (after (.write 0 pkW) W) 209715200 5 = [1, 2, 3, 4, 0] := by decide +kernel
theorem test_read_denied : targetCheck W { pkW with tag := 8 } false false false 4 = some .denied := by decide +kernel
-- A dispatch is not a refusal even where nothing waits for it.
theorem test_empty_join : (after (.join 0 { groupId := 8, modelCtx := 5 }) W).coll.earlyJoins = [{ groupId := 8, modelCtx := 5 }] := by decide +kernel
-- Table 16.1: a coolant stop halts the device and freezes the Coffer.
theorem test_coolant_stop : (after (.coolantStop 5) State.reset).pw.st = .halted ∧ (after (.coolantStop 5) State.reset).cof.frozen = true := by decide +kernel
-- R410: DEPLOY without a key in slot 2 is refused, and the lifecycle stays.
theorem test_deploy_refused : (after (.deploy 0 []) { W with sec := { W.sec with life := .provisioned } }).sec.life = .provisioned := by decide +kernel
-- The block's step takes the command at the front of its queue.
theorem test_step : step { W with pending := [.poll 0, .poll 1] } = exec (.poll 0) { W with pending := [.poll 1] } := by rfl

/-! ## Well-formedness -/

theorem test_well_formed : ([.generate 0 hR {}, .ctxCreate 0 hA 511 63, .read 0 { pkW with length := 4 }, .tapInstruction 0 .bypass, .registerWrite 0 (.vf 511) 0 8 0,
    .flit 0 14 { body := List.replicate 244 0 }, .dispatch 0 rE, .counterIncrement 0 2047 63 1] : List Instr).all Instr.wf = true := by decide +kernel
theorem test_ill_formed_numbers : [fits 4 16, allFit 4 [1, 16], ctxOk 512, islandOk 2048, dovetailOk 4, portOk 15, locOk 128, Sys2Proof.timeOk (2 ^ 64),
    optAll (fits 1) (some 2), Func.wf (.vf 512)].any id = false := by decide +kernel
theorem test_ill_formed_commands : ([.ctxCreate (2 ^ 64) hA 1 2, .ctxCreate 0 { hA with ring := 8 } 1 2, .ctxCreate 0 hA 65536 2, .ctxCreate 0 hA 1 256,
    .opQuery 0 hC (2 ^ 64), .stepWatchdog 0 64, .beAllocationResume 0 256, .counterIncrement 0 2048 0 1, .counterIncrement 0 0 64 1,
    .counterIncrement 0 0 0 (2 ^ 32), .lineCheckFail 0 (2 ^ 36) 0 (0, 0), .retrainSlice 0 384 true true, .sensor105 0 4, .bar2Read 0 (2 ^ 64) 1,
    .flit 0 15 {}, .replayRetrain 0 15, .registerWrite 0 .pf (2 ^ 24) 4 0, .registerWrite 0 .pf 0 9 0, .eviction 0 256, .claimTimeout 0 65536,
    .generate 0 { hR with ctx := 512 } {}, .read 0 { pkW with length := 5 }, .dispatch 0 { rE with src := 128 }] : List Instr).any Instr.wf = false := by decide +kernel

-- For each record, the default is well-formed and one value too wide in each checked field is not.
theorem test_ill_formed_Hdr : Hdr.wf {} = true ∧ ([{ ctx := 512 }, { ring := 8 }, { cls := 4 }, { flags := 32768 }, { job := 65536 },
    { modelCtx := 65536 }, { reqId := 18446744073709551616 }, { deadline := 18446744073709551616 }, { epochSel := 65536 },
    { layerTag := 65536 }, { opTag := 65536 }] : List Hdr).any Hdr.wf = false := by decide +kernel
theorem test_ill_formed_GenBody : GenBody.wf {} = true ∧ ([{ seq := 4294967296 }, { promptLen := 4294967296 },
    { promptAddr := 18446744073709551616 }, { maxOutput := 4294967296 }, { outRing := 256 }, { specWindow := 256 },
    { stopAddr := 18446744073709551616 }, { auxAddr := 18446744073709551616 },
    { auxBytes := 4294967296 }] : List GenBody).any GenBody.wf = false := by decide +kernel
theorem test_ill_formed_ScoreBody : ScoreBody.wf {} = true ∧ ([{ promptLen := 4294967296 }, { promptAddr := 18446744073709551616 },
    { auxAddr := 18446744073709551616 }, { auxBytes := 4294967296 }, { resultAddr := 18446744073709551616 },
    { resultBytes := 4294967296 }] : List ScoreBody).any ScoreBody.wf = false := by decide +kernel
theorem test_ill_formed_EmbedBody : EmbedBody.wf {} = true ∧ ([{ tableId := 4294967296 }, { bagCount := 4294967296 },
    { bagAddr := 18446744073709551616 }, { idsAddr := 18446744073709551616 }, { resultAddr := 18446744073709551616 },
    { resultBytes := 4294967296 }] : List EmbedBody).any EmbedBody.wf = false := by decide +kernel
theorem test_ill_formed_TileDesc : TileDesc.wf {} = true ∧ ([{ op := 256 }, { format := 256 }, { srcKind := 4 }, { dstKind := 4 },
    { channel := 8 }, { rows := 65536 }, { cols := 65536 }, { srcAddr := 18446744073709551616 }, { dstAddr := 18446744073709551616 },
    { srcStride := 4294967296 }, { dstStride := 4294967296 }, { sigIsland := 2048 }, { sigCounter := 256 }, { sigInc := 4294967296 },
    { layerId := 65536 }, { operatorId := 65536 }] : List TileDesc).any TileDesc.wf = false := by decide +kernel
theorem test_ill_formed_CollGroupBody : CollGroupBody.wf {} = true ∧ ([{ groupId := 4294967296 }, { groupKey := 65536 },
    { members := 256 }, { rank := 256 }, { memberAddr := 18446744073709551616 }, { memberList := some [256] }, { mode := 256 },
    { chunkLog2 := 256 }, { depth := 256 }, { stagePlate := 256 }, { stageOffset := 4294967296 },
    { stageBytes := 4294967296 }] : List CollGroupBody).any CollGroupBody.wf = false := by decide +kernel
theorem test_ill_formed_CollBody : CollBody.wf {} = true ∧ ([{ type := 256 }, { redop := 256 }, { nvalues := 65536 },
    { count := 4294967296 }, { src := 18446744073709551616 }, { dst := 18446744073709551616 }, { values := List.replicate 5 0 },
    { sigIsland := 2048 }, { sigCounter := 256 }, { rowLen := 4294967296 },
    { sigInc := 4294967296 }] : List CollBody).any CollBody.wf = false := by decide +kernel
theorem test_ill_formed_WatchBody : WatchBody.wf {} = true ∧ ([{ symbolId := 4294967296 }, { stepKind := 256 }, { plate := 256 },
    { fromSeq := 18446744073709551616 }, { bufAddr := 18446744073709551616 }, { bufBytes := 4294967296 },
    { expiry := 18446744073709551616 }] : List WatchBody).any WatchBody.wf = false := by decide +kernel
theorem test_ill_formed_ExuRec : ExuRec.wf {} = true ∧ ([{ src := 128 }, { dst := 128 }, { leg := 128 }, { fseq := 65536 },
    { count := 65536 }, { tag := 65536 }, { epoch := 65536 }, { choice := 256 }, { round := 256 }, { layer := 65536 },
    { expert := 65536 }, { home := 256 }, { exchange := 4294967296 }, { slot := 4294967296 }, { gen := 4294967296 },
    { modelCtx := 65536 }] : List ExuRec).any ExuRec.wf = false := by decide +kernel
theorem test_ill_formed_Pkt : Pkt.wf {} = true ∧ ([{ src := 128 }, { dst := 128 }, { vc := 8 }, { flow := 65536 }, { fseq := 65536 },
    { length := 65536 }, { tag := 65536 }, { modelCtx := 65536 }, { epoch := 65536 }, { addr := 18446744073709551616 }, { op := 256 },
    { size := 256 }, { payload := [0] }] : List Pkt).any Pkt.wf = false := by decide +kernel
theorem test_ill_formed_RespPkt : RespPkt.wf {} = true ∧ ([{ src := 128 }, { flow := 65536 }, { fseq := 65536 },
    { payload := List.replicate 4097 0 }] : List RespPkt).any RespPkt.wf = false := by decide +kernel
theorem test_ill_formed_FlitRec : let f : FlitRec := { body := List.replicate 244 0 }
    f.wf = true ∧ ([{}, { f with seq := 4096 }, { f with kind := 16 }, { f with ack := 4096 }, { f with vc := 8 },
      { f with credits := 4096 }, { f with crc := 4294967296 },
      { f with bodyVc := 8 }] : List FlitRec).any FlitRec.wf = false := by decide +kernel
theorem test_ill_formed_CollPkt : CollPkt.wf {} = true ∧ ([{ src := 128 }, { flow := 65536 }, { opNo := 4294967296 }, { opcode := 256 },
    { type := 256 }, { redop := 256 }] : List CollPkt).any CollPkt.wf = false := by decide +kernel
theorem test_ill_formed_JoinParams : JoinParams.wf {} = true ∧ ([{ src := 128 }, { groupId := 65536 },
    { members := [256] }] : List JoinParams).any JoinParams.wf = false := by decide +kernel

/-! ## Witnesses -/

theorem witness_ContextCommandsComplete :
    (∃ (t : Nat) (h : Hdr) (vf : _) (part : _) (s : State) (s1 : State), Begins t h s s1 ∧ shapeCheck s1 h infoAdmin false = none ∧
      vf ≤ 511 ∧ part ≤ 63 ∧ invasive s1 = false ∧ erasing s1 part = false ∧ ctxCount s1 < 512 ∧ ctxHere s1 vf = false ∧
      vfEnabled s1 vf = true ∧ (partOf s1 part).present = true) ∧
    (∃ (t : Nat) (h : Hdr) (vf : _) (s : State) (s1 : State), Begins t h s s1 ∧ shapeCheck s1 h infoAdmin false = none ∧ vf ≤ 511 ∧
      ctxHere s1 vf = true ∧ ctxBusy s1 vf = false) ∧
    (∃ (c : _) (s : State), (ctxOf s c).enable = false ∧ enableOk c (ctxOf s c) = true ∧ (ctxOf s c).late = []) ∧
    (∃ (c : _) (s : State), (ctxOf s c).enable = false ∧ enableOk c (ctxOf s c) = false ∧ (c ≤ 511 ∨ c = adminCtx)) ∧
    (∃ (c : _) (s : State), ctxHere s c = true) ∧
    (∃ (c : _) (s : State), ctxHere s c = true ∧ (ctxOf s c).resetBusy = false ∧
      reqKeys s (fun r => r.st != .detected && r.h.ctx == c) = [] ∧ ((∀ e ∈ s.ops.live, e.2.cmd.ctx ≠ c))) ∧
    (∃ (c : _) (s : State), ctxHere s c = true ∧ (ctxOf s c).resetBusy = false) :=
  ⟨⟨0, hA, 15, 2, W, _, begins_begun (by decide +kernel), by decide +kernel⟩,
   ⟨0, hA, 4, W, _, begins_begun (by decide +kernel), by decide +kernel⟩,
   ⟨4, W, by decide +kernel⟩,
   ⟨511, W, by decide +kernel⟩,
   ⟨3, W, by decide +kernel⟩,
   ⟨3, W, by decide +kernel⟩,
   ⟨3, W, by decide +kernel⟩⟩

theorem witness_PollStepsComplete :
    (∃ (s : State), s.hi.dbEnable = true ∧ hostRuns s = true ∧ s.hi.polling = false) ∧
    (∃ (s : State), s.hi.dbEnable = true ∧ hostRuns s = true ∧ s.hi.polling = true) ∧
    (∃ (l : _) (ws : _) (s : State), s.hi.pollLinks = [l] ∧ s.hi.pollWords = [] ∧ ((∀ w ∈ ws.take 8, w ≠ 0)) ∧ ws ≠ []) ∧
    (∃ (l : _) (s : State), l ∈ s.hi.pollLinks ∧ s.hi.pollWords ≠ []) ∧
    (∃ (l : _) (e : _) (ws : _) (s : State), s.hi.pollWords = e :: ws ∧ e.1 / 8 = l ∧ ws ≠ []) ∧
    (∃ (l : _) (e : _) (ws : _) (s : State), s.hi.pollWords = e :: ws ∧ e.1 / 8 = l ∧ ws ≠ []) ∧
    (∃ (t : Nat) (c : _) (r : _) (n : _) (s : State), ctxHere s c = true ∧ (ctxOf s c).enable = true ∧ ringThere (ctxOf s c) 0 = true ∧
      r = 0 ∧ 0 ∉ (ctxOf s c).ringErr ∧
      (waitingDescs { ctxOf s c with tail := mset (ctxOf s c).tail 0 (n % 2 ^ 32) } 0 ≤ ringSize (ctxOf s c) 0) ∧
      drainCtx c (takeTail c 0 n (tick t s)) = takeTail c 0 n (tick t s) ∧ s.hi.pollCtxs.filter (· != c) ≠ []) :=
  ⟨⟨W, by decide +kernel⟩,
   ⟨({ W with hi := { W.hi with polling := true } }), by decide +kernel⟩,
   ⟨0, [1], ({ W with hi := { W.hi with polling := true, pollLinks := [0] } }), by decide +kernel⟩,
   ⟨1, ({ W with hi := { W.hi with polling := true, pollLinks := [0, 1], pollWords := [(0, 1)] } }), by decide +kernel⟩,
   ⟨0, ((7, 1)), ([(8, 1)]), ({ W with hi := { W.hi with polling := true, pollWords := [(7, 1), (8, 1)] } }), by decide +kernel⟩,
   ⟨1, ((8, 1)), ([(9, 1)]), ({ W with hi := { W.hi with polling := true, pollWords := [(8, 1), (9, 1)] } }), by decide +kernel⟩,
   ⟨0, 3, 0, 64, ({ W with hi := { W.hi with polling := true, pollCtxs := [3, 4] } }), by decide +kernel⟩⟩

theorem witness_RequestsAreAccepted :
    (∃ (t : Nat) (h : Hdr) (b : _) (s : State) (s1 : State) (r : _), BeginsTwo t h s s1 ∧
      (r = ({ op := .generate, st := .detected, h := h, detect := s1.time, gen := b } : Request)) ∧
      shapeCheck s1 h (infoReq 7) (genBad s1 h b) = none ∧ requestNames s1 h = none ∧ bit h.flags 2 = false ∧
      seqCheck s1 h (askGen s1 b) b.seq = none ∧ epochCheck s1 h = none ∧ gateCheck s1 h .generate = none ∧
      roomCheck s1 h (askGen s1 b) r = none) ∧
    (∃ (t : Nat) (h : Hdr) (b : _) (s : State) (s1 : State) (s2 : State), BeginsTwo t h s s1 ∧
      s2 = readHost h.ctx b.stopAddr 576 h.job h.layerTag h.opTag s1 ∧ shapeCheck s1 h (infoReq 7) (genBad s1 h b) = none ∧
      requestNames s1 h = none ∧ bit h.flags 2 = true ∧ seqCheck s2 h (askGen s2 b) b.seq = none ∧ epochCheck s2 h = none) ∧
    (∃ (t : Nat) (k : _) (r : _) (b : _) (s : State) (s1 : State) (q : _),
      (s1 = { tick t s with srv := { s.srv with reqs := mdel s.srv.reqs k } }) ∧
      (q = ({ op := .generate, st := .detected, h := r.h, detect := r.detect, gen := r.gen, stops := b.tokens, strings := b.strings, detok := if b.strings.isEmpty then none else (newestDetok s1 r.h.modelCtx).map (·.gen) } : Request)) ∧
      mget s.srv.reqs k = some r ∧ r.st = .detected ∧ seqCheck s1 r.h (askGen s1 r.gen) r.gen.seq = none ∧ epochCheck s1 r.h = none ∧
      stopBad b = false ∧ ((b.strings = [] ∨ (newestDetok s1 r.h.modelCtx).isSome = true)) ∧ gateCheck s1 r.h .generate = none ∧
      roomCheck s1 r.h (askGen s1 r.gen) q = none) ∧
    (∃ (t : Nat) (h : Hdr) (b : _) (s : State) (s1 : State) (a : _) (g : _) (r : _), BeginsTwo t h s s1 ∧
      (a = ({ op := .score, prompt := b.promptLen, maxOut := 0, window := 0, seq := none } : Ask)) ∧
      (g = ({ promptLen := b.promptLen, promptAddr := b.promptAddr, auxAddr := b.auxAddr, auxBytes := b.auxBytes, maxOutput := 0 } : GenBody)) ∧
      (r = ({ op := .score, st := .detected, h := h, detect := s1.time, gen := g, resultAddr := b.resultAddr, resultBytes := b.resultBytes } : Request)) ∧
      shapeCheck s1 h (infoReq 0) (scoreBad b) = none ∧ requestNames s1 h = none ∧ seqCheck s1 h a 0 = none ∧ epochCheck s1 h = none ∧
      gateCheck s1 h .score = none ∧ roomCheck s1 h a r = none) ∧
    (∃ (t : Nat) (h : Hdr) (b : _) (s : State) (s1 : State) (a : _) (r : _) (idx : _) (e : _), BeginsTwo t h s s1 ∧
      (a = ({ op := .embed, prompt := 0, maxOut := 0, window := 0, seq := none } : Ask)) ∧
      (r = ({ op := .embed, st := .detected, h := h, detect := s1.time, emb := b, resultAddr := b.resultAddr, resultBytes := b.resultBytes, bagsLeft := b.bagCount } : Request)) ∧
      shapeCheck s1 h (infoReq 0) (embedBad b) = none ∧ requestNames s1 h = none ∧ epochCheck s1 h = none ∧
      tableIdx s1 h.modelCtx b.tableId = some (idx, e) ∧ gateCheck s1 h .embed = none ∧ roomCheck s1 h a r = none ∧
      tableIdx (takeReqState s1.srv.nextReq (acceptReq h a r s1)) h.modelCtx b.tableId = some (idx, e)) :=
  ⟨⟨0, hR, ({ promptLen := 2 }), W, _, _, begins_two (by decide +kernel), rfl, by decide +kernel⟩,
   ⟨0, ({ hR with flags := 4 }), ({ stopAddr := 64 }), W, _, _, begins_two (by decide +kernel), rfl, by decide +kernel⟩,
   ⟨0, 1, ({ op := .generate, st := .detected, h := hR, detect := 0 }), ({ tokenCount := 1, lens := [], tokens := [5] }),
     ({ W with srv := { W.srv with reqs := [(1, { op := .generate, st := .detected, h := hR, detect := 0 })], nextReq := 2 } }), _, _,
     rfl, rfl, by decide +kernel⟩,
   ⟨0, hR, ({ promptLen := 1 }), W, _, _, _, _, begins_two (by decide +kernel), rfl, rfl, rfl, by decide +kernel⟩,
   ⟨0, hR, ({ tableId := 9 }), W, _, _, _, 0, ({ tableId := 9 }), begins_two (by decide +kernel), rfl, rfl, by decide +kernel⟩⟩

theorem witness_RequestsEnd :
    (∃ (t : Nat) (h : Hdr) (k : _) (s : State) (s1 : State), Begins t h s s1 ∧
      (shapeCheck s1 h { rings := [0, 2] } false (cancel := true) = none) ∧ cancelTarget s1 h.ctx k = none) ∧
    (∃ (t : Nat) (h : Hdr) (k : _) (s : State) (s1 : State) (n : _) (r : _), Begins t h s s1 ∧
      (shapeCheck s1 h { rings := [0, 2] } false (cancel := true) = none) ∧ cancelTarget s1 h.ctx k = some (n, r)) ∧
    (∃ (t : Nat) (k : _) (r : _) (s : State), mget s.srv.reqs k = some r ∧ r.st = .detected ∧ r.h.cls = 0 ∧
      r.detect + 8000 ≤ max s.time t) ∧
    (∃ (t : Nat) (k : _) (r : _) (s : State), mget s.srv.reqs k = some r ∧ r.h.cls = 0 ∧ r.h.deadline ≤ max s.time t + 20000 ∧
      r.st = .running ∧ r.recorded = none ∧ r.op = .generate) ∧
    (∃ (t : Nat) (h : Hdr) (i : _) (g : _) (s : State) (s1 : State), Begins t h s s1 ∧ shapeCheck s1 h infoCmd false = none ∧ i < 65536 ∧
      (seqOf s1 i).st = 2 ∧ (seqOf s1 i).gen = g ∧ (seqOf s1 i).ctx = h.ctx ∧ (seqOf s1 i).migrating = false) ∧
    (∃ (t : Nat) (k : _) (r : _) (toks : _) (s : State) (s1 : State),
      (s1 = modReq k (fun r => { r with st := if r.op = .score then .running else .prefill }) (takePrompt k r toks (tick t s))) ∧
      mget s.srv.reqs k = some r ∧ r.st = .accepted ∧ r.hasSeq = true ∧ toks.length = r.gen.promptLen) ∧
    (∃ (t : Nat) (p : _) (k : _) (n : _) (r : _) (l : _) (s : State) (s1 : State),
      ensurePositions k (nextPositions s r) (tick t s) = some s1 ∧ (partOf s p).waiting = (k, n) :: l ∧ mget s.srv.reqs k = some r) :=
  ⟨⟨0, hC, 8, W, _, begins_begun (by decide +kernel), by decide +kernel⟩,
   ⟨0, hC, 8,
     ({ W with srv := { W.srv with reqs := [(1, { op := .generate, st := .running, h := { hR with cls := 0, ring := 0, deadline := 20000, reqId := 8 }, detect := 0 })], nextReq := 2 } }),
     _, 1, ({ op := .generate, st := .running, h := { hR with cls := 0, ring := 0, deadline := 20000, reqId := 8 }, detect := 0 }),
     begins_begun (by decide +kernel), by decide +kernel⟩,
   ⟨8000, 1, ({ op := .generate, st := .detected, h := { hR with cls := 0, ring := 0, deadline := 20000, reqId := 8 }, detect := 0 }),
     ({ W with srv := { W.srv with reqs := [(1, { op := .generate, st := .detected, h := { hR with cls := 0, ring := 0, deadline := 20000, reqId := 8 }, detect := 0 })], nextReq := 2 } }),
     by decide +kernel⟩,
   ⟨0, 1, ({ op := .generate, st := .running, h := { hR with cls := 0, ring := 0, deadline := 20000, reqId := 8 }, detect := 0 }),
     ({ W with srv := { W.srv with reqs := [(1, { op := .generate, st := .running, h := { hR with cls := 0, ring := 0, deadline := 20000, reqId := 8 }, detect := 0 })], nextReq := 2 } }),
     by decide +kernel⟩,
   ⟨0, hC, 65535, 2, ({ W with srv := { W.srv with seqs := [(65535, { gen := 2, st := 2, ctx := 3 })] } }), _,
     begins_begun (by decide +kernel), by decide +kernel⟩,
   ⟨0, 1, ({ op := .generate, st := .accepted, h := hR, detect := 0, hasSeq := true }), [7],
     ({ W with srv := { W.srv with reqs := [(1, { op := .generate, st := .accepted, h := hR, detect := 0, hasSeq := true })], nextReq := 2 } }),
     _, rfl, by decide +kernel⟩,
   ⟨0, 2, 1, 1, ({ op := .generate, st := .prefill, h := hR, detect := 0, hasSeq := true }), [],
     ({ W with mem := { W.mem with parts := [(2, { present := true, tag := 7, chunks := [(100, 8)], waiting := [(1, 1)] })] }, srv := { W.srv with reqs := [(1, { op := .generate, st := .prefill, h := hR, detect := 0, hasSeq := true })], nextReq := 2 } }),
     _, Option.eq_some_of_isSome (by decide +kernel), by decide +kernel⟩⟩

theorem witness_ExpertRecordsTakeEffect :
    (∃ (t : Nat) (r : ExuRec) (s : State) (s1 : State), Arrives t .dispatch r s s1) ∧
    (∃ (t : Nat) (r : ExuRec) (s : State) (s1 : State) (p : _) (l : LayerRec) (j : _) (x : ExpertEx), Arrives t .dispatch r s s1 ∧
      layerOf s1 r.modelCtx r.layer = some (p, l, j) ∧ s1.exu.expert = [x] ∧ sameEx x r = true ∧ x.closed = true ∧ s1.exu.waiting = [] ∧
      mgetD x.accepted r.expert 0 < l.capacity) ∧
    (∃ (t : Nat) (r : ExuRec) (s : State) (s1 : State) (p : _) (l : LayerRec) (j : _) (x : ExpertEx), Arrives t .dispatch r s s1 ∧
      layerOf s1 r.modelCtx r.layer = some (p, l, j) ∧ s1.exu.expert = [x] ∧ sameEx x r = true ∧ x.closed = true ∧ s1.exu.waiting = [] ∧
      l.capacity ≤ mgetD x.accepted r.expert 0) ∧
    (∃ (t : Nat) (r : ExuRec) (s : State) (s1 : State), Received t .dispatch r s s1 ∧ r.dst ≠ ownLoc s ∧ reachable s1 r.dst = true) ∧
    (∃ (t : Nat) (r : ExuRec) (s : State) (s1 : State), Received t .dispatch r s s1 ∧ r.dst ≠ ownLoc s ∧ reachable s1 r.dst = false) ∧
    (∃ (r : ExuRec) (s : State) (a : RespPkt), r.leg ≠ ownLoc s ∧ mget s.xn.executed (execKey (legPkt .dispatch r) r.fseq) = some a ∧
      r.resend = true) ∧
    (∃ (t : Nat) (r : ExuRec) (s : State) (s1 : State), Arrives t .close r s s1 ∧ r.gather = false ∧ r.toHome = false) ∧
    (∃ (t : Nat) (r : ExuRec) (s : State) (s1 : State) (x : HomeEx), Arrives t .close r s s1 ∧ r.gather = false ∧ r.toHome = true ∧
      s1.exu.home = [x] ∧ sameHome x r = true ∧ (returnsDone { x with closes := x.closes ++ [(r.src, r.count)] } = false)) ∧
    (∃ (t : Nat) (r : ExuRec) (s : State) (s1 : State) (x : HomeEx), Arrives t .close r s s1 ∧ r.gather = false ∧ r.toHome = true ∧
      s1.exu.home = [x] ∧ sameHome x r = true ∧ (returnsDone { x with closes := x.closes ++ [(r.src, r.count)] } = true)) ∧
    (∃ (t : Nat) (r : ExuRec) (s : State) (s1 : State) (i : _), Arrives t .close r s s1 ∧ r.gather = true ∧ r.toHome = false ∧
      servingJob s1 r.modelCtx = some i) ∧
    (∃ (t : Nat) (r : ExuRec) (s : State) (s1 : State), Received t .close r s s1 ∧ r.dst ≠ ownLoc s ∧ reachable s1 r.dst = true) ∧
    (∃ (t : Nat) (r : ExuRec) (s : State) (s1 : State), Arrives t .ret r s s1) ∧
    (∃ (t : Nat) (r : ExuRec) (s : State) (s1 : State) (x : HomeEx) (l : List (Nat × Nat)) (v : SlotVal), Arrives t .ret r s s1 ∧
      readSlot s1 x r.slot = some (l, v) ∧ s1.exu.home = [x] ∧ sameHome x r = true ∧ x.slots.any (fun w => w.slot == r.slot) = true ∧
      r.status = .complete ∧ spansPoisoned s1 l = false ∧ returnsDone (noteReturn r false x) = false) ∧
    (∃ (t : Nat) (r : ExuRec) (s : State) (s1 : State), Received t .ret r s s1 ∧ r.dst ≠ ownLoc s ∧ reachable s1 r.dst = true) ∧
    (∃ (t : Nat) (r : ExuRec) (s : State) (s1 : State), Arrives t .gather r s s1) ∧
    (∃ (t : Nat) (r : ExuRec) (s : State) (s1 : State) (i : _) (e : EmbTable) (l : List Nat), Arrives t .gather r s s1 ∧
      l = r.ids.map (fun id => rowAddr e (genSlot e r.gen) id % 2 ^ 41) ∧ servingJob s1 r.modelCtx = some i ∧
      embTable s1 r.modelCtx r.epoch r.layer = some e ∧ l.all (rowReach s1 r.modelCtx e) = true ∧ ((∀ a ∈ l,
      (linesOf a e.rowBytes).any (linePoisoned s1) = false))) ∧
    (∃ (t : Nat) (r : ExuRec) (s : State) (s1 : State) (b : BagEx) (l : List Nat), Arrives t .pooled r s s1 ∧ s1.exu.bags = [b] ∧
      sameBag b r = true ∧ b.owners = r.src :: l ∧ l ≠ [] ∧ r.src ∉ l ∧ r.status = .complete) ∧
    (∃ (t : Nat) (r : ExuRec) (s : State) (s1 : State) (b : BagEx) (k : _), Arrives t .pooled r s s1 ∧ s1.exu.bags = [b] ∧
      sameBag b r = true ∧ b.owners = [r.src] ∧ r.status = .complete ∧ b.req = some k) :=
  ⟨⟨0, ({ rE with expert := 0 }), W2, _, arrives_here (by decide +kernel)⟩,
   ⟨0, rE, ({ Wl with exu := { expert := [exW] } }), _, 0, layW, 1, exW, arrives_here (by decide +kernel), by decide +kernel⟩,
   ⟨0, rE, ({ Wl with exu := { expert := [{ exW with accepted := [(0, 1)] }] } }), _, 0, layW, 1, ({ exW with accepted := [(0, 1)] }),
     arrives_here (by decide +kernel), by decide +kernel⟩,
   ⟨0, ({ rE with dst := 1 }), W2, _, received_here (by decide +kernel), by decide +kernel⟩,
   ⟨0, ({ rE with dst := 1 }), W, _, received_here (by decide +kernel), by decide +kernel⟩,
   ⟨({ rE with leg := 1, fseq := 65535, resend := true }),
     ({ W2 with xn := { W2.xn with executed := [(execKey (legPkt .dispatch { rE with leg := 1 }) 65535, { fseq := 65535 })] } }),
     ({ fseq := 65535 }), by decide +kernel⟩,
   ⟨0, rE, W2, _, arrives_here (by decide +kernel), by decide +kernel⟩,
   ⟨0, ({ rE with toHome := true }), ({ Wl with exu := { home := [homeW] } }), _, homeW, arrives_here (by decide +kernel),
     by decide +kernel⟩,
   ⟨0, ({ rE with toHome := true, src := 1 }), ({ Wl with exu := { home := [homeW] } }), _, homeW, arrives_here (by decide +kernel),
     by decide +kernel⟩,
   ⟨0, ({ rB with gather := true }), W2, _, 1, arrives_here (by decide +kernel), by decide +kernel⟩,
   ⟨0, ({ rE with dst := 1 }), W2, _, received_here (by decide +kernel), by decide +kernel⟩,
   ⟨0, rE, W2, _, arrives_here (by decide +kernel)⟩,
   ⟨0, rE, ({ Wl with exu := { home := [homeW] } }), _, homeW, _, _, arrives_here (by decide +kernel), pair_of_some (by decide +kernel),
     by decide +kernel⟩,
   ⟨0, ({ rE with dst := 1 }), W2, _, received_here (by decide +kernel), by decide +kernel⟩,
   ⟨0, rB, W2, _, arrives_here (by decide +kernel)⟩,
   ⟨0, rB, Wl, _, 1, ({ tableId := 9, shards := [0] }), _, arrives_here (by decide +kernel), rfl, by decide +kernel⟩,
   ⟨0, ({ rB with src := 1 }), ({ W2 with exu := { bags := [bagW] } }), _, bagW, [2], arrives_here (by decide +kernel),
     by decide +kernel⟩,
   ⟨0, ({ rB with src := 1 }), ({ W2 with exu := { bags := [{ bagW with owners := [1] }] } }), _, ({ bagW with owners := [1] }), 1,
     arrives_here (by decide +kernel), by decide +kernel⟩⟩

theorem witness_EmbeddingUpdatesComplete :
    (∃ (t : Nat) (h : Hdr) (tb : Nat) (row : _) (s : State) (s1 : State) (idx : _) (e : EmbTable), Begins t h s s1 ∧
      (shapeCheck s1 h { rings := [2], job := true, mc := true } false = none) ∧ jobCheck s1 h = none ∧ servesCheck s1 h = none ∧
      tableIdx s1 h.modelCtx tb = some (idx, e) ∧ row < 2 ^ e.rowBits ∧ (twoSlot e && embBusy s1 h.modelCtx idx) = false) ∧
    (∃ (t : Nat) (h : Hdr) (tb : Nat) (row : _) (s : State) (s1 : State) (idx : _) (e : EmbTable), Begins t h s s1 ∧
      (shapeCheck s1 h { rings := [2], job := true, mc := true } false = none) ∧ jobCheck s1 h = none ∧ servesCheck s1 h = none ∧
      tableIdx s1 h.modelCtx tb = some (idx, e) ∧ row < 2 ^ e.rowBits ∧ twoSlot e = true ∧ embBusy s1 h.modelCtx idx = true) ∧
    (∃ (t : Nat) (h : Hdr) (tb : Nat) (s : State) (s1 : State) (idx : _) (e : EmbTable) (st : EmbState), Begins t h s s1 ∧
      st = embStateAt s1 h.modelCtx (newestNum s1 h.modelCtx) idx ∧
      (shapeCheck s1 h { rings := [2], job := true, mc := true } false = none) ∧ jobCheck s1 h = none ∧ servesCheck s1 h = none ∧
      tableIdx s1 h.modelCtx tb = some (idx, e) ∧ embBusy s1 h.modelCtx idx = false ∧ twoSlot e = true ∧
      ((st.issued = true ∨ st.staged ≠ [])) ∧ (modelChips s1 h.modelCtx).all (reachable s1) = true) ∧
    (∃ (t : Nat) (h : Hdr) (tb : Nat) (s : State) (s1 : State) (idx : _) (e : EmbTable) (st : EmbState), Begins t h s s1 ∧
      st = embStateAt s1 h.modelCtx (newestNum s1 h.modelCtx) idx ∧
      (shapeCheck s1 h { rings := [2], job := true, mc := true } false = none) ∧ jobCheck s1 h = none ∧ servesCheck s1 h = none ∧
      tableIdx s1 h.modelCtx tb = some (idx, e) ∧ embBusy s1 h.modelCtx idx = false ∧ ((twoSlot e = false ∨ (st.issued = false ∧
      st.staged = [])))) ∧
    (∃ (t : Nat) (r : ExuRec) (s : State) (s1 : State) (row : _) (l : _) (e : EmbTable) (a : _) (i : _), Arrives t .update r s s1 ∧
      a = rowAddr e 0 row % 2 ^ 41 ∧ servingJob s1 r.modelCtx = some i ∧ r.ids = row :: l ∧
      embTable s1 r.modelCtx r.epoch r.layer = some e ∧ twoSlot e = false ∧ rowReach s1 r.modelCtx e a = true) ∧
    (∃ (t : Nat) (r : ExuRec) (s : State) (s1 : State) (row : _) (l : _) (e : EmbTable) (i : _), Arrives t .update r s s1 ∧
      servingJob s1 r.modelCtx = some i ∧ r.ids = row :: l ∧ embTable s1 r.modelCtx r.epoch r.layer = some e ∧ twoSlot e = true ∧
      (embStateAt s1 r.modelCtx r.epoch r.layer).unsettled = true) ∧
    (∃ (t : Nat) (r : ExuRec) (s : State) (s1 : State) (tb : EmbTable) (st : EmbState), Arrives t .commit r s s1 ∧
      st = embStateAt s1 r.modelCtx r.epoch r.layer ∧ embTable s1 r.modelCtx r.epoch r.layer = some tb ∧ r.gen < 2 ^ 32 ∧
      st.gen < 2 ^ 32 ∧ (st.gen + 1) % 2 ^ 32 = r.gen ∧ st.unsettled = false) ∧
    (∃ (t : Nat) (r : ExuRec) (s : State) (s1 : State) (tb : EmbTable), Arrives t .settle r s s1 ∧
      embTable s1 r.modelCtx r.epoch r.layer = some tb ∧ (embStateAt s1 r.modelCtx r.epoch r.layer).staged = []) ∧
    (∃ (t : Nat) (r : ExuRec) (s : State) (s1 : State) (tb : EmbTable) (st : EmbState) (q : _), Arrives t .settle r s s1 ∧
      st = embStateAt s1 r.modelCtx r.epoch r.layer ∧ embTable s1 r.modelCtx r.epoch r.layer = some tb ∧ st.staged = [q] ∧
      rowReach s1 r.modelCtx tb (rowAddr tb ((st.gen + 1) % 2) q.1 % 2 ^ 41) = true) ∧
    (∃ (t : Nat) (r : ExuRec) (s : State) (s1 : State) (c : EmbCmd), Arrives t .done r s s1 ∧ embCmdOf s1 r = some c ∧ c.phase = 0 ∧
      c.left = [r.src] ∧ r.status = .complete) ∧
    (∃ (t : Nat) (r : ExuRec) (s : State) (s1 : State) (c : EmbCmd), Arrives t .done r s s1 ∧ embCmdOf s1 r = some c ∧ c.phase = 2 ∧
      c.left = [r.src] ∧ r.status = .complete) ∧
    (∃ (t : Nat) (r : ExuRec) (s : State) (s1 : State) (c : EmbCmd), Arrives t .done r s s1 ∧ embCmdOf s1 r = some c ∧ c.phase = 0 ∧
      r.status ≠ .complete) ∧
    (∃ (t : Nat) (r : ExuRec) (s : State) (s1 : State) (c : EmbCmd), Arrives t .gone r s s1 ∧ s1.exu.home = [] ∧ s1.exu.bags = [] ∧
      embCmdOf s1 r = some c ∧ c.phase = 0) ∧
    (∃ (t : Nat) (r : ExuRec) (s : State) (s1 : State) (x : HomeEx), Arrives t .gone r s s1 ∧ s1.exu.home = [x] ∧ sameHome x r = true) :=
  ⟨⟨0, hM, 9, 255, W2, _, 0, ({ tableId := 9, shards := [0] }), begins_begun (by decide +kernel), by decide +kernel⟩,
   ⟨0, hM, 10, 255,
     ({ Wl with mdl := { Wl.mdl with ctxs := [(5, { uuid := 1, epochs := ((modelOf Wl 5).elim [] (·.epochs)).map (fun e => { e with emb := [{ table := 1, unsettled := true }] }) })] } }),
     _, 1, ({ tableId := 10, rowBytes := 512, shards := [0] }), begins_begun (by decide +kernel), by decide +kernel⟩,
   ⟨0, hM, 10,
     ({ Wl with mdl := { Wl.mdl with ctxs := [(5, { uuid := 1, epochs := ((modelOf Wl 5).elim [] (·.epochs)).map (fun e => { e with emb := [{ table := 1, issued := true }] }) })] } }),
     _, 1, ({ tableId := 10, rowBytes := 512, shards := [0] }), _, begins_begun (by decide +kernel), rfl, by decide +kernel⟩,
   ⟨0, hM, 9, W2, _, 0, ({ tableId := 9, shards := [0] }), _, begins_begun (by decide +kernel), rfl, by decide +kernel⟩,
   ⟨0, rB, Wl, _, 255, [], ({ tableId := 9, shards := [0] }), _, 1, arrives_here (by decide +kernel), rfl, by decide +kernel⟩,
   ⟨0, ({ rB with layer := 1 }),
     ({ Wl with mdl := { Wl.mdl with ctxs := [(5, { uuid := 1, epochs := ((modelOf Wl 5).elim [] (·.epochs)).map (fun e => { e with emb := [{ table := 1, unsettled := true }] }) })] } }),
     _, 255, [], ({ tableId := 10, rowBytes := 512, shards := [0] }), 1, arrives_here (by decide +kernel), by decide +kernel⟩,
   ⟨0, ({ rB with layer := 1, gen := 0 }),
     ({ Wl with mdl := { Wl.mdl with ctxs := [(5, { uuid := 1, epochs := ((modelOf Wl 5).elim [] (·.epochs)).map (fun e => { e with emb := [{ table := 1, gen := 2 ^ 32 - 1 }] }) })] } }),
     _, ({ tableId := 10, rowBytes := 512, shards := [0] }), _, arrives_here (by decide +kernel), rfl, by decide +kernel⟩,
   ⟨0, rB, W2, _, ({ tableId := 9, shards := [0] }), arrives_here (by decide +kernel), by decide +kernel⟩,
   ⟨0, ({ rB with layer := 1 }),
     ({ Wl with mdl := { Wl.mdl with ctxs := [(5, { uuid := 1, epochs := ((modelOf Wl 5).elim [] (·.epochs)).map (fun e => { e with emb := [{ table := 1, staged := [(255, [1])] }] }) })] } }),
     _, ({ tableId := 10, rowBytes := 512, shards := [0] }), _, ((255, [1])), arrives_here (by decide +kernel), rfl, by decide +kernel⟩,
   ⟨0, rB, ({ Wl with mdl := { Wl.mdl with embCmds := [cmdW] } }), _, cmdW, arrives_here (by decide +kernel), by decide +kernel⟩,
   ⟨0, rB, ({ Wl with mdl := { Wl.mdl with embCmds := [{ cmdW with phase := 2 }] } }), _, ({ cmdW with phase := 2 }),
     arrives_here (by decide +kernel), by decide +kernel⟩,
   ⟨0, ({ rB with status := .malformed }), ({ Wl with mdl := { Wl.mdl with embCmds := [cmdW] } }), _, cmdW,
     arrives_here (by decide +kernel), by decide +kernel⟩,
   ⟨0, rB, ({ { Wl with mdl := { Wl.mdl with embCmds := [cmdW] } } with exu := {} }), _, cmdW, arrives_here (by decide +kernel),
     by decide +kernel⟩,
   ⟨0, rE, ({ Wl with exu := { home := [homeW] } }), _, homeW, arrives_here (by decide +kernel), by decide +kernel⟩⟩

theorem witness_ModelContextsChange :
    (∃ (t : Nat) (h : Hdr) (s : State) (s1 : State), Begins t h s s1 ∧
      (shapeCheck s1 h { rings := [2], admin := true, mc := true } false = none) ∧ h.modelCtx ≠ 0 ∧ modelOf s1 h.modelCtx = none ∧
      s1.mdl.ctxs.length < 64) ∧
    (∃ (t : Nat) (h : Hdr) (s : State) (s1 : State) (m : Model), Begins t h s s1 ∧
      (shapeCheck s1 h { rings := [2], admin := true, mc := true } false = none) ∧ modelOf s1 h.modelCtx = some m ∧
      modelInUse s1 h.modelCtx = false ∧ m.install.active = false) ∧
    (∃ (t : Nat) (h : Hdr) (size : _) (d : DetokImage) (s : State) (s1 : State) (m : Model), Begins t h s s1 ∧
      (shapeCheck s1 h { rings := [2], admin := true, mc := true } false = none) ∧ modelOf s1 h.modelCtx = some m ∧ m.detoks.length < 2 ∧
      d.magicOk = true ∧ d.format = 1 ∧ d.size = size ∧ size % 256 = 0 ∧ size ≤ 2 ^ 26 ∧ slotOk s1 d.signer 3 7 = true ∧
      d.digestOk = true ∧ d.sigOk = true ∧ detokOk d = true ∧ d.uuid = m.uuid) ∧
    (∃ (t : Nat) (h : Hdr) (i : _) (g : _) (target : _) (ans : MigrateAns) (s : State) (s1 : State), BeginsTwo t h s s1 ∧
      (shapeCheck s1 h { rings := [2], job := true } (decide (127 < target)) = none) ∧ jobCheck s1 h = none ∧ s1.pw.pending = false ∧
      i < 65536 ∧ (seqOf s1 i).st = 2 ∧ (seqOf s1 i).gen = g ∧ (seqOf s1 i).ctx = h.ctx ∧ (seqOf s1 i).job = jobIdx h.job ∧
      (seqOf s1 i).migrating = false ∧ target ≠ ownLoc s1 ∧ chipServes s1 (seqOf s1 i).mc target = true ∧ routed s1 target = true ∧
      ans.gone = false ∧ ans.ctxExists = true ∧ ans.tag = (partOf s1 (ctxPart s1 h.ctx)).tag ∧ ans.jobOk = true ∧
      ans.newestEpoch = (seqOf s1 i).epoch ∧ ans.roomOk = true) ∧
    (∃ (t : Nat) (op : _) (s : State) (o : LongOp) (j : _) (i : _) (target : _) (vf : _), mget s.ops.live op = some o ∧
      o.kind = .kvMigrate j i target vf ∧ o.code = 0x80 ∧ opHeld (tick t s) o = false ∧ target / 8 ≠ ownLoc s / 8) :=
  ⟨⟨0, hAM, W, _, begins_begun (by decide +kernel), by decide +kernel⟩,
   ⟨0, hAM, (Wi {} (oI 0x20)), _, ({ uuid := 2 }), begins_begun (by decide +kernel), by decide +kernel⟩,
   ⟨0, hAM, 5376, ({ size := 5376, uuid := 2, offsets := [0, 1], pool := [65] }), (Wi {} (oI 0x20)), _, ({ uuid := 2 }),
     begins_begun (by decide +kernel), by decide +kernel⟩,
   ⟨0, hJ, 65535, 2, 1, ({ tag := 7, newestEpoch := 1 }),
     ({ W2 with srv := { W2.srv with seqs := [(65535, { gen := 2, st := 2, ctx := 3, job := 1, mc := 5, epoch := 1 })] } }), _,
     begins_two (by decide +kernel), by decide +kernel⟩,
   ⟨0, 4, (Wi {} { cmd := {}, kind := .kvMigrate 1 7 8 3, code := 0x80 }), ({ cmd := {}, kind := .kvMigrate 1 7 8 3, code := 0x80 }), 1,
     7, 8, 3, by decide +kernel⟩⟩

theorem witness_InstallsProceedAtAChip :
    (∃ (t : Nat) (h : Hdr) (coord : _) (s : State) (s1 : State), BeginsTwo t h s s1 ∧
      (shapeCheck s1 h { rings := [2], admin := true, flags := 3, mc := true } (decide (127 < coord)) false true = none) ∧
      mcCheck s1 h = none ∧ s1.pw.pending = false ∧ (installOf s1 h.modelCtx).active = false) ∧
    (∃ (t : Nat) (op : _) (s : State) (o : LongOp) (mc : _), mget s.ops.live op = some o ∧ o.kind = .epochInstall mc ∧ o.code = 0x20 ∧
      opHeld (tick t s) o = false ∧ (installOf s mc).op = op ∧ (installOf s mc).st = 1) ∧
    (∃ (t : Nat) (op : _) (dir : List Nat) (s : State) (o : LongOp) (mc : _) (m : Manifest) (s1 : State) (s2 : State),
      (s1 = modInstall mc (fun x => { x with m := some m, dir := dir }) (tick t s)) ∧
      s2 = tally mc (readHost o.cmd.ctx (installOf s mc).dirAddr (8 * m.shards.length) 0 0 0 s1) ∧ mget s.ops.live op = some o ∧
      o.kind = .epochInstall mc ∧ o.code = 0x20 ∧ opHeld (tick t s) o = false ∧ (installOf s mc).op = op ∧ (installOf s mc).st = 1 ∧
      m.magicOk = true ∧ m.format = 1 ∧ m.size = (installOf s mc).manifestSize ∧ m.size % 256 = 0 ∧ m.size ≤ 2 ^ 28 ∧
      slotOk s m.signer 3 7 = true ∧ m.digestOk = true ∧ m.sigOk = true ∧ manifestOk (tick t s) mc m = true ∧
      hasChip m (installOf s mc).coord = true ∧ hasChip m (ownLoc s) = true) ∧
    (∃ (t : Nat) (op : _) (s : State) (o : LongOp) (mc : _), mget s.ops.live op = some o ∧ o.kind = .epochInstall mc ∧ o.code = 0x21 ∧
      opHeld (tick t s) o = false ∧ (installOf s mc).op = op) ∧
    (∃ (t : Nat) (mc : _) (i : _) (d : List Byte) (copies : List Nat) (s : State) (m : Manifest) (q : ShardSt) (s1 : State),
      (installOf s mc).m = some m ∧ (installOf s mc).shards.find? (fun q => q.idx == i && q.fetching && !q.verified) = some q ∧
      shardGood (m.shards.getD i {}) d = true ∧
      (s1 = tryVote mc (writeShard ((installOf s mc).base * 2097152 + (m.shards.getD i {}).offset) (m.shards.getD i {}).lmode d (modShard mc i (fun q => { q with verified := true, fetching := false }) (modInstall mc (fun x => { x with copies := dedup' (x.copies ++ copies) }) (tick t s))))) ∧
      staging (tick t s) mc = true) ∧
    (∃ (t : Nat) (mc : _) (i : _) (copies : List Nat) (s : State) (m : Manifest) (q : ShardSt) (s1 : State),
      (s1 = startShard mc i (modShard mc i (fun q => { q with attempts := q.attempts + 1, fetching := false }) (modInstall mc (fun x => { x with copies := dedup' (x.copies ++ copies) }) (tick t s)))) ∧
      staging (tick t s) mc = true ∧ (installOf s mc).m = some m ∧
      (installOf s mc).shards.find? (fun q => q.idx == i && q.fetching && !q.verified) = some q ∧ q.attempts < 3) ∧
    (∃ (t : Nat) (mc : _) (i : _) (copies : List Nat) (s : State) (m : Manifest) (q : ShardSt) (s1 : State),
      (s1 = voteNo mc .accessDenied (modInstall mc (fun x => { x with copies := dedup' (x.copies ++ copies) }) (tick t s))) ∧
      staging (tick t s) mc = true ∧ (installOf s mc).m = some m ∧
      (installOf s mc).shards.find? (fun q => q.idx == i && q.fetching && !q.verified) = some q ∧ 3 ≤ q.attempts) ∧
    (∃ (t : Nat) (mc : _) (s : State), (installOf s mc).active = true ∧ (installOf s mc).deadline ≤ max s.time t ∧ coordHere s mc = true ∧
      (installOf s mc).st = 1) ∧
    (∃ (t : Nat) (mc : _) (s : State), (installOf s mc).active = true ∧ (installOf s mc).deadline ≤ max s.time t ∧
      coordHere s mc = false ∧ (installOf s mc).st = 1) ∧
    (∃ (mc : _) (src : _) (s : State), fromCoord s mc src = true ∧ (installOf s mc).st = 2) ∧
    (∃ (mc : _) (src : _) (s : State), fromCoord s mc src = true ∧ (installOf s mc).st = 3) ∧
    (∃ (mc : _) (src : _) (s : State), fromCoord s mc src = true ∧
      ((installOf s mc).st = 1 ∨ (installOf s mc).st = 2 ∨ (installOf s mc).st = 3)) :=
  ⟨⟨0, ({ hAM with modelCtx := 6, flags := 3, deadline := 9 }), 127, (Wi {} { cmd := {}, kind := .scrub 2, code := 0x50 }), _,
    begins_two (by decide +kernel), by decide +kernel⟩,
   ⟨0, 4, (Wi { active := true, op := 4, deadline := 9, st := 1 } (oI 0x20)), (oI 0x20), 6, by decide +kernel⟩,
   ⟨0, 4, [], (Wi { active := true, op := 4, deadline := 9, st := 1, manifestSize := 5632 } (oI 0x20)), (oI 0x20), 6, manW, _, _, rfl,
     rfl, by decide +kernel⟩,
   ⟨0, 4, (Wi { active := true, op := 4, deadline := 9, st := 1 } (oI 0x21)), (oI 0x21), 6, by decide +kernel⟩,
   ⟨0, 6, 0, [], [],
     (Wi { active := true, op := 4, deadline := 9, st := 1, m := some manS, shards := [{ idx := 0, fetching := true }] } (oI 0x22)), manS,
     ({ idx := 0, fetching := true }), _, rfl, rfl, by simp [shardGood, shardBytes, cleanShard, manS], rfl, by decide +kernel⟩,
   ⟨0, 6, 0, [],
     (Wi { active := true, op := 4, deadline := 9, st := 1, m := some manW, shards := [{ idx := 0, fetching := true, attempts := 2 }] } (oI 0x22)),
     manW, ({ idx := 0, fetching := true, attempts := 2 }), _, rfl, by decide +kernel⟩,
   ⟨0, 6, 0, [],
     (Wi { active := true, op := 4, deadline := 9, st := 1, m := some manW, shards := [{ idx := 0, fetching := true, attempts := 3 }] } (oI 0x22)),
     manW, ({ idx := 0, fetching := true, attempts := 3 }), _, rfl, by decide +kernel⟩,
   ⟨9, 6, (Wi { active := true, op := 4, deadline := 9, st := 1 } (oI 0x22)), by decide +kernel⟩,
   ⟨9, 6, (Wi { active := true, op := 4, deadline := 9, st := 1, coord := 1 } (oI 0x22)), by decide +kernel⟩,
   ⟨6, 1, (Wi { active := true, op := 4, deadline := 9, st := 2, coord := 1 } (oI 0x23)), by decide +kernel⟩,
   ⟨6, 1, (Wi { active := true, op := 4, deadline := 9, st := 3, coord := 1 } (oI 0x24)), by decide +kernel⟩,
   ⟨6, 1, (Wi { active := true, op := 4, deadline := 9, st := 3, coord := 1 } (oI 0x24)), by decide +kernel⟩⟩

theorem witness_InstallMessagesAreTaken :
    (∃ (t : Nat) (mc : _) (src : _) (tg : _) (s : State), lateVote (tick t s) mc src (some tg) = false) ∧
    (∃ (t : Nat) (mc : _) (src : _) (s : State), lateVote (tick t s) mc src none = false) ∧
    (∃ (mc : _) (src : _) (s : State), (installOf s mc).active = true ∧ coordHere s mc = true ∧ (installOf s mc).st = 3 ∧
      src ∉ (installOf s mc).replies) ∧
    (∃ (mc : _) (src : _) (s : State) (m : Model), modelOf s mc = some m ∧ coordHere s mc = true ∧ m.install.st = 4 ∧
      src ∉ m.install.acks) ∧
    (∃ (t : Nat) (mc : _) (s : State), (installOf s mc).active = true ∧ coordHere s mc = false ∧
      ((installOf s mc).st = 2 ∨ (installOf s mc).st = 3) ∧ (installOf s mc).heard + 10000000 ≤ max s.time t) ∧
    (∃ (mc : _) (s : State) (m : Model), modelOf s mc = some m ∧ coordHere s mc = false) ∧
    (∃ (t : Nat) (mc : _) (s : State), (installOf s mc).active = true ∧ coordHere s mc = true ∧ (installOf s mc).st = 3 ∧
      (installOf s mc).committedAt + 100000000 ≤ max s.time t) ∧
    (∃ (t : Nat) (mc : _) (s : State) (v : State), v = releaseInstall mc (tick t s) ∧ (installOf s mc).active = true ∧
      coordHere s mc = false ∧ routed (tick t s) (installOf s mc).coord = false ∧ (installOf s mc).st = 3 ∧
      ((∀ e ∈ (modelOf v mc).elim [] (·.epochs), e.reported = none))) ∧
    (∃ (t : Nat) (mc : _) (s : State) (v : State), v = abortInstall mc .resetAborted (tick t s) ∧ (installOf s mc).active = true ∧
      coordHere s mc = false ∧ (installOf s mc).heard + 5000000000 ≤ max s.time t ∧ ((∀ e ∈ (modelOf v mc).elim [] (·.epochs),
      e.reported = none))) ∧
    (∃ (mc : _) (n : _) (src : _) (s : State) (e : Epoch), epochOf s mc n = some e ∧ src ≠ ownLoc s ∧ e.drained.contains src = false) ∧
    (∃ (mc : _) (n : _) (s : State) (e : Epoch), epochOf s mc n = some e ∧ e.superseded = true) :=
  ⟨⟨0, 6, 1, 0, W2, by decide +kernel⟩,
   ⟨0, 6, 1, W2, by decide +kernel⟩,
   ⟨6, 1, (Wi { active := true, op := 4, deadline := 9, st := 3 } (oI 0x24)), by decide +kernel⟩,
   ⟨6, 1, (Wi { st := 4 } (oI 0x24)), ({ uuid := 2, install := { st := 4 } }), by decide +kernel⟩,
   ⟨10000000, 6, (Wi { active := true, op := 4, deadline := 9, st := 2, coord := 1 } (oI 0x23)), by decide +kernel⟩,
   ⟨6, (Wi { coord := 1 } (oI 0x23)), ({ uuid := 2, install := { coord := 1 } }), by decide +kernel⟩,
   ⟨100000000, 6, (Wi { active := true, op := 4, deadline := 9, st := 3 } (oI 0x24)), by decide +kernel⟩,
   ⟨0, 6, ({ Wi { active := true, op := 4, deadline := 9, st := 3, coord := 127 } (oI 0x24) with xn := {} }), _, rfl, by decide +kernel⟩,
   ⟨5000000000, 6, (Wi { active := true, op := 4, deadline := 9, st := 2, coord := 1 } (oI 0x23)), _, rfl, by decide +kernel⟩,
   ⟨5, 1, 1, W, epochW, by decide +kernel⟩,
   ⟨5, 1, ({ W with mdl := { ctxs := [(5, { uuid := 1, epochs := [{ epochW with superseded := true }] })] } }),
     ({ epochW with superseded := true }), by decide +kernel⟩⟩

theorem witness_JobsAreAdmittedAndEnd :
    (∃ (t : Nat) (h : Hdr) (ra : _) (rs : _) (resv : _) (ka : _) (kv : _) (s : State) (s1 : State) (s2 : State) (i : _), Begins t h s s1 ∧
      s2 = readAdmit h ra rs resv ka s1 ∧ admitPre s1 h = none ∧ admitCheck s2 h rs ka resv kv = none ∧ freeJob s2 = some i) ∧
    (∃ (mc : _) (n : _) (s : State) (i : _), servingJob s mc = some i ∧ n ≤ unclaimed (jobAt s i)) ∧
    (∃ (mc : _) (n : _) (s : State) (i : _), servingJob s mc = some i ∧ unclaimed (jobAt s i) < n) ∧
    (∃ (src : _) (id : _) (s : State) (j : _), mget s.srv.jobs (jobIdx id) = some j ∧ j.pendingAdmit = true ∧ j.id = id ∧
      j.asked = [src]) ∧
    (∃ (src : _) (id : _) (s : State) (j : _), mget s.srv.jobs (jobIdx id) = some j ∧ j.pendingAdmit = true ∧ j.id = id ∧ src ∈ j.asked) ∧
    (∃ (t : Nat) (id : _) (s : State) (j : _), mget s.srv.jobs (jobIdx id) = some j ∧ j.pendingAdmit = true ∧ j.id = id ∧
      j.askTime + 5000000 ≤ max s.time t) ∧
    (∃ (mc : _) (s : State) (i : _) (j : _), servingJob s mc = some i ∧ mget s.srv.jobs i = some j) ∧
    (∃ (t : Nat) (h : Hdr) (s : State) (s1 : State), Begins t h s s1 ∧ (shapeCheck s1 h { rings := [2], job := true } false = none) ∧
      jobCheck s1 h = none ∧ (jobAt s1 (jobIdx h.job)).frozen = false) ∧
    (∃ (t : Nat) (h : Hdr) (s : State) (s1 : State), Begins t h s s1 ∧ (shapeCheck s1 h { rings := [2], job := true } false = none) ∧
      jobCheck s1 h = none ∧ (jobAt s1 (jobIdx h.job)).frozen = true ∧ (jobAt s1 (jobIdx h.job)).torn = false) ∧
    (∃ (t : Nat) (h : Hdr) (s : State) (s1 : State), Begins t h s s1 ∧
      (shapeCheck s1 h { rings := [2], admin := true, job := true } false = none) ∧ jobLive s1 h.job = true ∧
      (jobAt s1 (jobIdx h.job)).torn = false) :=
  ⟨⟨0, ({ hC with modelCtx := 5 }), 0, 256, (some {}), 0, none, W, _, _, 0, begins_begun (by decide +kernel), rfl, by decide +kernel⟩,
   ⟨5, 100, W, 1, by decide +kernel⟩,
   ⟨5, 101, W, 1, by decide +kernel⟩,
   ⟨1, 17, ({ W2 with srv := { jobs := [(1, { jobW with pendingAdmit := true, asked := [1] })] } }),
     ({ jobW with pendingAdmit := true, asked := [1] }), by decide +kernel⟩,
   ⟨1, 17, ({ W2 with srv := { jobs := [(1, { jobW with pendingAdmit := true, asked := [1] })] } }),
     ({ jobW with pendingAdmit := true, asked := [1] }), by decide +kernel⟩,
   ⟨5000000, 17, ({ W2 with srv := { jobs := [(1, { jobW with pendingAdmit := true, asked := [1] })] } }),
     ({ jobW with pendingAdmit := true, asked := [1] }), by decide +kernel⟩,
   ⟨5, W, 1, jobW, by decide +kernel⟩,
   ⟨0, hJ, W, _, begins_begun (by decide +kernel), by decide +kernel⟩,
   ⟨0, hJ, ({ W with srv := { jobs := [(1, { jobW with frozen := true })] } }), _, begins_begun (by decide +kernel), by decide +kernel⟩,
   ⟨0, ({ hA with job := 17 }), W, _, begins_begun (by decide +kernel), by decide +kernel⟩⟩

theorem witness_PlatesLoadAndUnload :
    (∃ (t : Nat) (h : Hdr) (s : State) (s1 : State), BeginsTwo t h s s1 ∧ (shapeCheck s1 h { rings := [2], job := true } false = none) ∧
      jobCheck s1 h = none ∧ s1.pw.pending = false ∧ (jobAt s1 (jobIdx h.job)).torn = false) ∧
    (∃ (t : Nat) (op : _) (s : State) (i : _) (size : _) (p : _) (m : PlateImage), loadOf (tick t s) op = some (i, size, p, 0x10) ∧
      m.magicOk = true ∧ m.format = 1 ∧ m.size = size ∧ imageSizeOk size = true ∧ slotOk s m.signer 3 7 = true ∧ m.digestOk = true ∧
      m.sigOk = true ∧ imageContents (tick t s) i m = none) ∧
    (∃ (t : Nat) (op : _) (s : State) (i : _) (size : _) (p : _), loadOf (tick t s) op = some (i, size, p, 0x10)) ∧
    (∃ (t : Nat) (op : _) (n : _) (s : State) (i : _) (size : _) (p : _) (s1 : State),
      (s1 = modPlate p (fun q => { q with isls := q.isls.map (fun x => if x.isl == n then { x with acked := true } else x) }) (billWrite op i n (tick t s))) ∧
      loadOf (tick t s) op = some (i, size, p, 0x12) ∧ (plateOf s p).isls.any (fun x => x.isl == n && !x.acked) = true ∧
      islBusy s n = false ∧ lostIsland (tick t s) p = false) ∧
    (∃ (t : Nat) (op : _) (n : _) (s : State) (i : _) (size : _) (p : _) (x : _), loadOf (tick t s) op = some (i, size, p, 0x12) ∧
      (plateOf s p).isls.find? (fun x => x.isl == n && !x.acked) = some x ∧ lostIsland (tick t s) p = false ∧ x.retried = false) ∧
    (∃ (t : Nat) (op : _) (n : _) (fwd : Bool) (s : State) (i : _) (size : _) (p : _) (x : _) (s1 : State),
      s1 = fence n fwd (coffer 3 3 .configTimeout n (jobAt s i).id 0 0 (billWrite op i n (tick t s))) ∧ loadOf (tick t s) op = some (i,
      size, p, 0x12) ∧ (plateOf s p).isls.find? (fun x => x.isl == n && !x.acked) = some x ∧ lostIsland (tick t s) p = false ∧
      x.retried = true ∧ (mget s1.ops.live op).isSome = true) ∧
    (∃ (t : Nat) (op : _) (n : _) (s : State) (i : _) (size : _) (p : _), loadOf (tick t s) op = some (i, size, p, 0x12) ∧
      (plateOf s p).isls.any (fun x => x.isl == n && !x.acked) = true ∧ islBusy s n = false ∧ lostIsland (tick t s) p = true) ∧
    (∃ (t : Nat) (op : _) (s : State) (i : _) (size : _) (p : _), loadOf (tick t s) op = some (i, size, p, 0x13) ∧
      lostIsland (tick t s) p = false ∧ tablesStand (tick t s) i (plateOf s p).image = none) ∧
    (∃ (t : Nat) (h : Hdr) (p : _) (s : State) (s1 : State) (q : _), Begins t h s s1 ∧
      (shapeCheck s1 h { rings := [2], job := true } false = none) ∧ jobCheck s1 h = none ∧ mget s1.fab.plates p = some q ∧ q.state = 2 ∧
      q.job = jobIdx h.job) ∧
    (∃ (t : Nat) (p : _) (s : State) (q : _), mget s.fab.plates p = some q ∧ q.state = 3 ∧ q.running = none ∧
      q.queue.any (·.proof) = false ∧ plateNeeded (tick t s) p = false) :=
  ⟨⟨0, hJ, W, _, begins_two (by decide +kernel), by decide +kernel⟩,
   ⟨0, 4, (Wo (oA (.plateLoad 1 0 65536 64) 0x10)), 1, 65536, 64, imgW, by decide +kernel⟩,
   ⟨0, 4, (Wo (oA (.plateLoad 1 0 65536 64) 0x10)), 1, 65536, 64, by decide +kernel⟩,
   ⟨0, 4, 650, (Wo (oA (.plateLoad 1 0 65536 0) 0x12)), 1, 65536, 0, _, rfl, by decide +kernel⟩,
   ⟨0, 4, 650, (Wo (oA (.plateLoad 1 0 65536 0) 0x12)), 1, 65536, 0,
     ({ isl := 650, mode := 1, flags := 0, banks := 1, ctrs := [], mask := 0 }), by decide +kernel⟩,
   ⟨0, 4, 650, false,
     ({ Wo (oA (.plateLoad 1 0 65536 0) 0x12) with fab := { plates := [(0, { plateW with state := 1, isls := [{ isl := 650, mode := 1, flags := 0, banks := 1, ctrs := [], mask := 0, retried := true }] })] } }),
     1, 65536, 0, ({ isl := 650, mode := 1, flags := 0, banks := 1, ctrs := [], mask := 0, retried := true }), _, rfl, by decide +kernel⟩,
   ⟨0, 4, 650, ({ Wo (oA (.plateLoad 1 0 65536 0) 0x12) with fab := { W.fab with isl := [(650, { state := 2 })] } }), 1, 65536, 0,
     by decide +kernel⟩,
   ⟨0, 4, (Wo (oA (.plateLoad 1 0 65536 0) 0x13)), 1, 65536, 0, by decide +kernel⟩,
   ⟨0, hJ, 0, W, _, plateW, begins_begun (by decide +kernel), by decide +kernel⟩,
   ⟨0, 0, ({ W with fab := { W.fab with plates := [(0, { plateW with state := 3 })] } }), ({ plateW with state := 3 }),
     by decide +kernel⟩⟩

theorem witness_TableReloadsComplete :
    (∃ (t : Nat) (h : Hdr) (tb : _) (size : _) (s : State) (s1 : State) (x : Tbl), Begins t h s s1 ∧
      (shapeCheck s1 h { rings := [2], job := true } false = none) ∧ jobCheck s1 h = none ∧ (jobAt s1 (jobIdx h.job)).torn = false ∧
      tableOf s1 (jobIdx h.job) tb = some x ∧ size = x.size + 4691 ∧ x.reload = none) ∧
    (∃ (t : Nat) (id : _) (tb : _) (payload : TableImage) (s : State) (x : Tbl) (r : Reload), tableOf (tick t s) (jobIdx id) tb = some x ∧
      x.reload = some r ∧ r.verifying = true ∧
      (match payload with | .fn m _ _ _ _ _ _ _ _ _ _ _ _ => m | .lookup m _ _ _ _ _ => m) = true ∧
      slotOk s (reloadSigner (tick t s) x) 3 7 = true ∧ tableOk x.kind x.size payload = true) ∧
    (∃ (t : Nat) (id : _) (tb : _) (payload : TableImage) (s : State) (x : Tbl) (r : Reload), tableOf (tick t s) (jobIdx id) tb = some x ∧
      x.reload = some r ∧ r.verifying = true ∧
      (match payload with | .fn m _ _ _ _ _ _ _ _ _ _ _ _ => m | .lookup m _ _ _ _ _ => m) = true ∧
      slotOk s (reloadSigner (tick t s) x) 3 7 = true) :=
  ⟨⟨0, hJ, 3, 21075, (Wt (tblW none)), _, (tblW none), begins_begun (by decide +kernel), by decide +kernel⟩,
   ⟨0, 17, 3, lookW, (Wt (tblW (some { cmd := {}, verifying := true }))), (tblW (some { cmd := {}, verifying := true })),
     ({ cmd := {}, verifying := true }), by decide +kernel⟩,
   ⟨0, 17, 3, lookW, (Wt (tblW (some { cmd := {}, verifying := true }))), (tblW (some { cmd := {}, verifying := true })),
     ({ cmd := {}, verifying := true }), by decide +kernel⟩⟩

theorem witness_PartitionsAreMadeAndResized :
    (∃ (t : Nat) (h : Hdr) (p : _) (tg : _) (size : _) (low : _) (high : _) (w : _) (s : State) (s1 : State), Begins t h s s1 ∧
      shapeCheck s1 h infoAdmin false = none ∧ p ≤ 63 ∧ invasive s1 = false ∧ erasing s1 p = false ∧ (partOf s1 p).present = false ∧
      tg ≠ 0 ∧ watermarks size low high = some w ∧ size ≤ runLen (freeRuns s1)) ∧
    (∃ (t : Nat) (h : Hdr) (x : _) (size : _) (low : _) (high : _) (w : _) (s : State) (s1 : State), BeginsTwo t h s s1 ∧
      (shapeCheck s1 h { rings := [2], admin := true, flags := 1 } false = none) ∧ x ≤ 63 ∧ (partOf s1 x).present = true ∧
      watermarks size low high = some w ∧ invasive s1 = false ∧ s1.pw.pending = false ∧
      opsWith s1 (fun k => match k with | .partResize y _ _ _ _ _ _ _ => y == x | _ => false) = []) ∧
    (∃ (t : Nat) (op : _) (s : State) (o : LongOp) (x : _) (size : _) (low : _) (high : _) (cons : _) (cur : _) (l0 : _) (h0 : _) (s1 : State),
      s1 = zeroChunks 0 o.runs (tick t s) ∧ mget s.ops.live op = some o ∧ o.kind = .partResize x size low high cons cur l0 h0 ∧
      o.code = 0x32 ∧ x ≤ 63 ∧ size < runLen (targetChunks s1 x) + runLen o.runs) ∧
    (∃ (t : Nat) (op : _) (s : State) (o : LongOp) (x : _) (size : _) (low : _) (high : _) (cons : _) (cur : _) (l0 : _) (h0 : _) (s1 : State),
      s1 = zeroChunks 0 o.runs (tick t s) ∧ mget s.ops.live op = some o ∧ o.kind = .partResize x size low high cons cur l0 h0 ∧
      o.code = 0x32 ∧ x ≤ 63 ∧ runLen (targetChunks s1 x) + runLen o.runs ≤ size) ∧
    (∃ (t : Nat) (p : _) (a : _) (b : _) (s : State), (partOf s p).objs.any (fun o => o.frames.contains a) = true ∧
      partRunning (tick t s) p = false ∧ a ∉ s.mem.poisonFrames ∧
      (findFrames (tick t s) { partOf s p with chunks := cutRun (a / 32) (partOf s p).chunks } (lmodeOf s (a / 32)) 1 = some [b]) ∧
      opsWith (tick t s) (fun k => match k with | .partResize x _ _ _ _ _ _ _ => x == p | _ => false) = []) :=
  ⟨⟨0, hA, 63, 1, 1, 0, 0, ((0, 1)), W, _, begins_begun (by decide +kernel), by decide +kernel⟩,
   ⟨0, ({ hA with flags := 1 }), 2, 1, 32, 32, ((32, 32)), W, _, begins_two (by decide +kernel), by decide +kernel⟩,
   ⟨0, 4, (Wo { oA (.partResize 2 8 1 32 true 8 1 32) 0x32 with runs := [(108, 1)] }),
     ({ oA (.partResize 2 8 1 32 true 8 1 32) 0x32 with runs := [(108, 1)] }), 2, 8, 1, 32, true, 8, 1, 32, _, rfl, by decide +kernel⟩,
   ⟨0, 4, (Wo { oA (.partResize 2 9 1 32 true 8 1 32) 0x32 with runs := [(108, 1)] }),
     ({ oA (.partResize 2 9 1 32 true 8 1 32) 0x32 with runs := [(108, 1)] }), 2, 9, 1, 32, true, 8, 1, 32, _, rfl, by decide +kernel⟩,
   ⟨0, 2, 3200, 3232,
     ({ W with mem := { W.mem with parts := [(2, { present := true, tag := 7, chunks := [(100, 8)], objs := [{ id := 1, kind := .treeNodes, cls := .held, frames := [3200] }] })] } }),
     by decide +kernel⟩⟩

theorem witness_LongOperationsAreControlled :
    (∃ (t : Nat) (h : Hdr) (n : _) (s : State) (s1 : State) (o : LongOp), Begins t h s s1 ∧ opCheckNames s1 h n = none ∧
      opNamed s1 n = some o ∧ maySuspend o.code = true) ∧
    (∃ (t : Nat) (h : Hdr) (n : _) (s : State) (s1 : State) (o : LongOp), Begins t h s s1 ∧ opCheckNames s1 h n = none ∧
      opNamed s1 n = some o) ∧
    (∃ (t : Nat) (h : Hdr) (n : _) (s : State) (s1 : State) (o : LongOp), Begins t h s s1 ∧ opCheckNames s1 h n = none ∧
      opNamed s1 n = some o ∧ mayCancel s1 o = true) ∧
    (∃ (t : Nat) (h : Hdr) (n : _) (s : State) (s1 : State) (o : LongOp), Begins t h s s1 ∧ opCheckNames s1 h n = none ∧
      opNamed s1 n = some o) ∧
    (∃ (t : Nat) (op : _) (s : State) (o : LongOp) (x : _), mget s.ops.live op = some o ∧ o.kind = .secureErase x ∧ o.code = 0x70 ∧
      opHeld (tick t s) o = false ∧ partUnused s x = true) ∧
    (∃ (t : Nat) (op : _) (s : State) (o : LongOp), mget s.ops.live op = some o ∧ o.code = 0x41 ∧ opHeld (tick t s) o = false ∧
      s.srv.jobs.any (fun j => j.2.present || j.2.pendingAdmit) = false) :=
  ⟨⟨0, hC, (3 * 2 ^ 54 + 4), (Wo { cmd := { ctx := 3 }, kind := .kvMigrate 1 7 1 3, code := 0x80 }), _,
    ({ cmd := { ctx := 3 }, kind := .kvMigrate 1 7 1 3, code := 0x80 }), begins_begun (by decide +kernel), by decide +kernel⟩,
   ⟨0, hC, (3 * 2 ^ 54 + 4), (Wo { cmd := { ctx := 3 }, kind := .kvMigrate 1 7 1 3, code := 0x80 }), _,
     ({ cmd := { ctx := 3 }, kind := .kvMigrate 1 7 1 3, code := 0x80 }), begins_begun (by decide +kernel), by decide +kernel⟩,
   ⟨0, hC, (3 * 2 ^ 54 + 4), (Wo { cmd := { ctx := 3 }, kind := .kvMigrate 1 7 1 3, code := 0x80 }), _,
     ({ cmd := { ctx := 3 }, kind := .kvMigrate 1 7 1 3, code := 0x80 }), begins_begun (by decide +kernel), by decide +kernel⟩,
   ⟨0, hC, (3 * 2 ^ 54 + 4), (Wo { cmd := { ctx := 3 }, kind := .kvMigrate 1 7 1 3, code := 0x80 }), _,
     ({ cmd := { ctx := 3 }, kind := .kvMigrate 1 7 1 3, code := 0x80 }), begins_begun (by decide +kernel), by decide +kernel⟩,
   ⟨0, 4, (Wo (oA (.secureErase 9) 0x70)), (oA (.secureErase 9) 0x70), 9, by decide +kernel⟩,
   ⟨0, 4, ({ Wo (oA (.selfTest 0 true) 0x41) with srv := {} }), (oA (.selfTest 0 true) 0x41), by decide +kernel⟩⟩

theorem witness_LongOperationsRun :
    (∃ (t : Nat) (h : Hdr) (sc : _) (s : State) (s1 : State), BeginsTwo t h s s1 ∧ shapeCheck s1 h infoAdmin false = none ∧ sc ≤ 1 ∧
      s1.pw.pending = false) ∧
    (∃ (t : Nat) (h : Hdr) (sc : _) (s : State) (s1 : State) (s2 : State), BeginsTwo t h s s1 ∧
      s2 = beginOp h (.selfTest sc false) 0x40 s1 ∧ shapeCheck s1 h infoAdmin false = none ∧ sc ≤ 1 ∧ s1.pw.pending = false) ∧
    (∃ (t : Nat) (op : _) (s : State) (o : LongOp) (sc : _) (f : _), mget s.ops.live op = some o ∧ o.kind = .selfTest sc f ∧
      o.code ≠ 0x41 ∧ opHeld (tick t s) o = false) ∧
    (∃ (t : Nat) (h : Hdr) (p : _) (s : State) (s1 : State), BeginsTwo t h s s1 ∧ shapeCheck s1 h infoAdmin false = none ∧ ((p ≤ 63 ∧
      (partOf s1 p).present = true) ∨ p = 0xFE ∨ p = 0xFF) ∧ s1.pw.pending = false) ∧
    (∃ (t : Nat) (op : _) (s : State) (o : LongOp) (p : _), mget s.ops.live op = some o ∧ o.kind = .scrub p ∧
      opHeld (tick t s) o = false) ∧
    (∃ (t : Nat) (h : Hdr) (addr : _) (size : _) (slot : _) (x : FwImage) (s : State) (s1 : State) (s2 : State), BeginsTwo t h s s1 ∧
      s2 = readHost h.ctx addr size 0 h.layerTag h.opTag (beginOp h (.fwStage slot size x.svn x.minSvn x.build x.digest) 0x60 s1) ∧
      shapeCheck s1 h infoAdmin false = none ∧ slot ≤ 1 ∧ s1.pw.pending = false ∧ slot ≠ s1.id.fwSlot ∧ fwCheck s2 size (some x) = none) ∧
    (∃ (t : Nat) (op : _) (s : State) (o : LongOp) (slot : _) (size : _) (svn : _) (ms : _) (bd : _) (dg : _),
      mget s.ops.live op = some o ∧ o.kind = .fwStage slot size svn ms bd dg ∧ opHeld (tick t s) o = false) ∧
    (∃ (t : Nat) (h : Hdr) (p : _) (s : State) (s1 : State), BeginsTwo t h s s1 ∧ shapeCheck s1 h infoAdmin false = none ∧ p ≤ 63 ∧
      (partOf s1 p).present = true ∧ s1.pw.pending = false) ∧
    (∃ (t : Nat) (op : _) (s : State) (o : LongOp) (p : _), mget s.ops.live op = some o ∧ o.kind = .secureErase p ∧ o.code = 0x71 ∧
      opHeld (tick t s) o = false) :=
  ⟨⟨0, hA, 1, W, _, begins_two (by decide +kernel), by decide +kernel⟩,
   ⟨0, hA, 1, W, _, _, begins_two (by decide +kernel), rfl, by decide +kernel⟩,
   ⟨0, 4, (Wo (oA (.selfTest 1 false) 0x40)), (oA (.selfTest 1 false) 0x40), 1, false, by decide +kernel⟩,
   ⟨0, hA, 0xFF, W, _, begins_two (by decide +kernel), by decide +kernel⟩,
   ⟨0, 4, (Wo (oA (.scrub 2) 0x50)), (oA (.scrub 2) 0x50), 2, by decide +kernel⟩,
   ⟨0, hA, 0, 5120, 1, {}, W, _, _, begins_two (by decide +kernel), rfl, by decide +kernel⟩,
   ⟨0, 4, (Wo (oA (.fwStage 1 5120 0 0 1 0) 0x62)), (oA (.fwStage 1 5120 0 0 1 0) 0x62), 1, 5120, 0, 0, 1, 0, by decide +kernel⟩,
   ⟨0, hA, 2, W, _, begins_two (by decide +kernel), by decide +kernel⟩,
   ⟨0, 4, (Wo (oA (.secureErase 2) 0x71)), (oA (.secureErase 2) 0x71), 2, by decide +kernel⟩⟩

theorem witness_TilesAndPagesMove :
    (∃ (t : Nat) (h : Hdr) (d : TileDesc) (s : State) (s1 : State) (n : _), Begins t h s s1 ∧
      (shapeCheck s1 h { rings := [2], job := true } (tileBad true d) = none) ∧ jobCheck s1 h = none ∧
      jobChan s1 (jobIdx h.job) d.channel = some n ∧ tileFault s1 (jobIdx h.job) (jobAt s1 (jobIdx h.job)).ctx 64 d = none) ∧
    (∃ (t : Nat) (h : Hdr) (d : TileDesc) (s : State) (s1 : State) (n : _), Begins t h s s1 ∧
      (shapeCheck s1 h { rings := [2], job := true } (tileBad true d) = none) ∧ jobCheck s1 h = none ∧
      jobChan s1 (jobIdx h.job) d.channel = some n ∧ tileFault s1 (jobIdx h.job) (jobAt s1 (jobIdx h.job)).ctx 64 d = some .denied) ∧
    (∃ (t : Nat) (ch : _) (data : List Byte) (s : State) (j : TileJob) (got : _), PieceReady ch j data (tick t s) ∧
      gather (tick t s) j data = some got ∧ mayLand j (tick t s) = true) ∧
    (∃ (t : Nat) (ch : _) (data : List Byte) (s : State) (j : TileJob), PieceReady ch j data (tick t s) ∧ mayLand j (tick t s) = true ∧
      j.posted = true) ∧
    (∃ (t : Nat) (ch : _) (data : List Byte) (s : State) (j : TileJob), PieceReady ch j data (tick t s) ∧ mayLand j (tick t s) = true ∧
      j.posted = false) ∧
    (∃ (t : Nat) (ch : _) (data : List Byte) (s : State) (j : TileJob), PieceReady ch j data (tick t s) ∧
      (srcPlaces (tick t s) j ++ dstPlaces (tick t s) j).contains .none = true) ∧
    (∃ (t : Nat) (ch : _) (data : List Byte) (s : State) (j : TileJob), PieceReady ch j data (tick t s) ∧
      (srcPlaces (tick t s) j ++ dstPlaces (tick t s) j).contains .none = false ∧
      (srcPlaces (tick t s) j ++ dstPlaces (tick t s) j).contains .recompute = true) ∧
    (∃ (t : Nat) (s : State), s.mem.lastAge + s.mem.agePeriod * 100000 ≤ max s.time t ∧ s.mem.poisonFrames = []) ∧
    (∃ (p : _) (s : State), freeFrames s (partOf s p) < (partOf s p).low) ∧
    (∃ (i : _) (s : State), i < 65536 ∧ (seqOf s i).st = 0) ∧
    (∃ (t : Nat) (g : _) (i : _) (gr : _) (pg : _) (s : State), i < 65536 ∧ (seqOf s i).st ≠ 0 ∧ (seqOf s i).gen = g ∧
      (pageOf (seqOf s i) gr pg).isSome = true ∧ dropGranted (tick t s) i = true) ∧
    (∃ (t : Nat) (src : _) (q : _) (s : State) (x : Pub) (geo : KvGeom), src ≠ ownLoc s ∧ pubOf s src (q % 65536) = some x ∧
      pubGeom (tick t s) x = some geo) ∧
    (∃ (src : _) (s : State), src ≠ ownLoc s) ∧
    (∃ (src : _) (q : _) (s : State), pubOf s src (q % 65536) = none) ∧
    (∃ (src : _) (q : _) (s : State) (x : Pub), pubOf s src (q % 65536) = some x ∧ x.seq = q) :=
  ⟨⟨0, hJ, tileW, (Wc []), _, 0, begins_begun (by decide +kernel), by decide +kernel⟩,
   ⟨0, hJ, ({ tileW with dstKind := 1, dstAddr := 2 ^ 56 }), (Wc []), _, 0, begins_begun (by decide +kernel), by decide +kernel⟩,
   ⟨0, 0, dataW, (Wc [tjB tileW true]), (tjB tileW true), _, by unfold PieceReady; decide +kernel,
     Option.eq_some_of_isSome (by decide +kernel), by decide +kernel⟩,
   ⟨0, 0, dataW, (Wc [tjB tileW true]), (tjB tileW true), by unfold PieceReady; decide +kernel, by decide +kernel⟩,
   ⟨0, 0, dataW, (Wc [tjB tileW false]), (tjB tileW false), by unfold PieceReady; decide +kernel, by decide +kernel⟩,
   ⟨0, 0, dataW, (Wc [tjB { tileW with dstKind := 0 } true]), (tjB { tileW with dstKind := 0 } true),
     by unfold PieceReady; decide +kernel, by decide +kernel⟩,
   ⟨0, 0, [],
     ({ Wc [{ tjB { tileW with srcKind := 1, srcAddr := 2 ^ 56 } true with kv := 3 }] with srv := { W.srv with jobs := [(1, { jobW with kv := some geoW })], seqs := [(0, { gen := 2, st := 1, ctx := 3, job := 1, pages := [{ group := 0, page := 0, dropped := true }] })] } }),
     ({ tjB { tileW with srcKind := 1, srcAddr := 2 ^ 56 } true with kv := 3 }), by unfold PieceReady; decide +kernel, by decide +kernel⟩,
   ⟨1000000, W, by decide +kernel⟩,
   ⟨2, ({ W with mem := { W.mem with parts := [(2, { present := true, chunks := [(100, 1)], low := 33 })] } }), by decide +kernel⟩,
   ⟨65535, W, by decide +kernel⟩,
   ⟨0, 2, 65535, 0, 0,
     ({ W with srv := { W.srv with jobs := [(1, { jobW with kv := some geoW })], seqs := [(65535, { gen := 2, st := 1, ctx := 3, job := 1, pages := [{ group := 0, page := 0 }] })] } }),
     by decide +kernel⟩,
   ⟨0, 1, 65536, Wpub, pubW, geoW, by decide +kernel⟩,
   ⟨1, W, by decide +kernel⟩,
   ⟨1, 7, W, by decide +kernel⟩,
   ⟨1, 65536, Wpub, pubW, by decide +kernel⟩⟩

theorem witness_MemoryErrorsAreHandled :
    (∃ (l : _) (e : Nat) (s : State) (c : Bool), l < memChunks s * 65536 ∧ checkLine (lmodeOf s (l / 65536)) (readLine s l e) = some c) ∧
    (∃ (t : Nat) (l : _) (e : Nat) (e1 : _) (e2 : _) (s : State) (c : Bool) (s1 : State),
      s1 = countSub (subchannelOf (tick t s) (l * 32)) (fun c => (c.1, c.2.1 + 1, c.2.2)) (tick t s) ∧ l < memChunks s * 65536 ∧
      checkLine (lmodeOf s (l / 65536)) (readLine s l e) = none ∧
      ((checkLine (lmodeOf s (l / 65536)) (readLine s l e1) = some c ∨ (checkLine (lmodeOf s (l / 65536)) (readLine s l e1) = none ∧
      checkLine (lmodeOf s (l / 65536)) (readLine s l e2) = some c)))) ∧
    (∃ (l : _) (e : Nat) (e1 : _) (e2 : _) (s : State), l < memChunks s * 65536 ∧ ((∀ x ∈ [e, e1, e2],
      checkLine (lmodeOf s (l / 65536)) (readLine s l x) = none))) ∧
    (∃ (f : _) (s : State), f ∈ s.mem.poisonFrames ∧ f ∉ s.mem.restoring ∧ chunkKind s (f / 32) ≠ 2 ∧ frameHeld s f = false) ∧
    (∃ (f : _) (s : State), f ∈ s.mem.poisonFrames ∧ f ∉ s.mem.restoring ∧ chunkKind s (f / 32) ≠ 2 ∧ frameHeld s f = false) ∧
    (∃ (t : Nat) (f : _) (d : List Byte) (s : State) (mc : _) (e : Epoch) (i : _), shardOfFrame (tick t s) f = some (mc, e, i) ∧
      shardGood (e.m.shards.getD i {}) d = true ∧ f ∈ s.mem.poisonFrames ∧ f ∈ s.mem.restoring ∧ embFrame (tick t s) e f = false) ∧
    (∃ (t : Nat) (f : _) (s : State) (mc : _) (e : Epoch) (i : _) (s1 : State), shardOfFrame (tick t s) f = some (mc, e, i) ∧
      (s1 = { tick t s with mem := { s.mem with restoreTries := mset s.mem.restoreTries f (mgetD s.mem.restoreTries f 0 + 1) } }) ∧
      f ∈ s.mem.poisonFrames ∧ f ∈ s.mem.restoring) ∧
    (∃ (t : Nat) (f : _) (s : State) (mc : _) (e : Epoch) (i : _) (s1 : State), shardOfFrame (tick t s) f = some (mc, e, i) ∧
      (s1 = eventRec adminCtx 3 (mc + 65536 * e.num) i (modEpoch mc e.num (fun e => { e with failed := true }) (coffer 4 3 .restoreFailed 0 0 mc (f * 65536) { tick t s with mem := { s.mem with restoring := s.mem.restoring.filter (· != f) } }))) ∧
      f ∈ s.mem.restoring) ∧
    (∃ (t : Nat) (n : _) (s : State), n < 384 ∧ bgFits (tick t s) (bgCtl (n / 24)) 2000 = true) ∧
    (∃ (t : Nat) (n : _) (s : State), n < 384 ∧ bgFits (tick t s) (bgCtl (n / 24)) 2000 = false) ∧
    (∃ (t : Nat) (n : _) (s : State), n < 384 ∧ bgFits (tick t s) (bgCtl (n / 24)) 2000 = true ∧ mget s.mem.offline n = none) ∧
    (∃ (n : _) (k : _) (s : State), mget s.mem.offline n = some k) ∧
    (∃ (n : _) (k : _) (s : State), mget s.mem.offline n = some k ∧ k < 2) ∧
    (∃ (n : _) (k : _) (s : State), mget s.mem.offline n = some k ∧ 2 ≤ k) :=
  ⟨⟨(memChunks W * 65536 - 1), 1, W, true, by decide +kernel⟩,
   ⟨0, (memChunks W * 65536 - 1), 3, 3, 1, W, true, _, rfl, by decide +kernel⟩,
   ⟨(memChunks W * 65536 - 1), 3, 3, 3, W, by decide +kernel⟩,
   ⟨7, ({ W with mem := { W.mem with poisonFrames := [7] } }), by decide +kernel⟩,
   ⟨7, ({ W with mem := { W.mem with poisonFrames := [7] } }), by decide +kernel⟩,
   ⟨0, 0, [0], Wsh, 5, epochS, 0, rfl, by simp [shardGood, shardBytes, cleanShard, epochS], by decide +kernel⟩,
   ⟨0, 0, Wsh, 5, epochS, 0, _, rfl, rfl, by decide +kernel⟩,
   ⟨0, 0, Wsh, 5, epochS, 0, _, rfl, rfl, by decide +kernel⟩,
   ⟨0, 383, W, by decide +kernel⟩,
   ⟨0, 383, Wnb, by decide +kernel⟩,
   ⟨0, 383, W, by decide +kernel⟩,
   ⟨0, 2, ({ W with mem := { W.mem with offline := [(0, 2)] } }), by decide +kernel⟩,
   ⟨0, 1, ({ W with mem := { W.mem with offline := [(0, 1)] } }), by decide +kernel⟩,
   ⟨0, 2, ({ W with mem := { W.mem with offline := [(0, 2)] } }), by decide +kernel⟩⟩

theorem witness_GroupsAndCollectivesRun :
    (∃ (t : Nat) (h : Hdr) (b : CollGroupBody) (s : State) (s0 : _) (s1 : State) (g : _) (q : Group), Begins t h s s0 ∧
      s1 = readHost h.ctx b.memberAddr b.members h.job h.layerTag h.opTag s0 ∧
      g = (firstFrom (fun n => (mget s1.coll.groups n).isNone) 256 0).getD 0 ∧
      (q = ({ id := b.groupId, key := b.groupKey, ctx := h.ctx, queue := h.ring - 4, job := jobIdx h.job, rank := b.rank, members := b.memberList.getD [], mode := b.mode, chunkLog2 := b.chunkLog2, depth := b.depth, stagePlate := b.stagePlate, stageOffset := b.stageOffset, stageBytes := b.stageBytes, joined := [ownLoc s1], cmd := cmdOf h } : Group)) ∧
      (shapeCheck s0 h { rings := [4, 5, 6, 7], job := true, mc := true } false = none) ∧ jobCheck s0 h = none ∧
      (jobAt s0 (jobIdx h.job)).mc = h.modelCtx ∧ boundGroup s1 h.ctx h.ring = none ∧ createBad s1 h b = false ∧ stageBad s1 h b = false ∧
      s1.coll.groups.length < 256 ∧ (b.memberList.getD []).all (routed s1) = true ∧ s1.coll.earlyJoins = []) ∧
    (∃ (t : Nat) (h : Hdr) (s : State) (s1 : State) (g : _), Begins t h s s1 ∧ shapeCheck s1 h infoColl false = none ∧
      boundGroup s1 h.ctx h.ring = some g) ∧
    (∃ (t : Nat) (h : Hdr) (b : CollBody) (s : State) (s1 : State) (g : _) (o : CollOp), Begins t h s s1 ∧
      (o = ({ opNo := 0, opcode := 0x72, b := b, cmd := cmdOf h, posted := false, lc := false, layer := h.layerTag, operator := h.opTag } : CollOp)) ∧
      boundGroup s1 h.ctx h.ring = some g ∧ shapeCheck s1 h infoColl (collBad false 0x72 b) = none ∧ opCheck s1 g o = none) ∧
    (∃ (t : Nat) (h : Hdr) (b : CollBody) (s : State) (s1 : State) (g : _) (o : CollOp), Begins t h s s1 ∧
      (o = ({ opNo := 0, opcode := 0x73, b := b, cmd := cmdOf h, posted := false, lc := false, layer := h.layerTag, operator := h.opTag } : CollOp)) ∧
      boundGroup s1 h.ctx h.ring = some g ∧ shapeCheck s1 h infoColl (collBad false 0x73 b) = none ∧ opCheck s1 g o = none) ∧
    (∃ (t : Nat) (h : Hdr) (b : CollBody) (s : State) (s1 : State) (g : _) (o : CollOp), Begins t h s s1 ∧
      (o = ({ opNo := 0, opcode := 0x74, b := b, cmd := cmdOf h, posted := false, lc := false, layer := h.layerTag, operator := h.opTag } : CollOp)) ∧
      boundGroup s1 h.ctx h.ring = some g ∧ shapeCheck s1 h infoColl (collBad false 0x74 b) = none ∧ opCheck s1 g o = none) ∧
    (∃ (t : Nat) (h : Hdr) (b : CollBody) (s : State) (s1 : State) (g : _) (o : CollOp), Begins t h s s1 ∧
      (o = ({ opNo := 0, opcode := 0x75, b := b, cmd := cmdOf h, posted := false, lc := false, layer := h.layerTag, operator := h.opTag } : CollOp)) ∧
      boundGroup s1 h.ctx h.ring = some g ∧ shapeCheck s1 h infoColl (collBad false 0x75 b) = none ∧ opCheck s1 g o = none) ∧
    (∃ (t : Nat) (h : Hdr) (b : CollBody) (s : State) (s1 : State) (g : _) (o : CollOp), Begins t h s s1 ∧
      (o = ({ opNo := 0, opcode := 0x76, b := b, cmd := cmdOf h, posted := false, lc := false, layer := h.layerTag, operator := h.opTag } : CollOp)) ∧
      boundGroup s1 h.ctx h.ring = some g ∧ shapeCheck s1 h infoColl (collBad false 0x76 b) = none ∧ opCheck s1 g o = none) ∧
    (∃ (t : Nat) (p : JoinParams) (s : State), groupOfId (tick t s) p.groupId = none ∧ (servingJob (tick t s) p.modelCtx).isSome = true) ∧
    (∃ (t : Nat) (p : JoinParams) (s : State) (g : _) (q : Group), groupOfId (tick t s) p.groupId = some (g, q)) ∧
    (∃ (t : Nat) (n : _) (s : State) (g : _) (q : Group), groupOfId (tick t s) n = some (g, q) ∧ q.st = 1) ∧
    (∃ (t : Nat) (n : _) (src : _) (s : State) (g : _) (q : Group), groupOfId (tick t s) n = some (g, q) ∧
      q.members.contains src = true) ∧
    (∃ (t : Nat) (n : _) (s : State) (g : _) (q : Group), groupOfId (tick t s) n = some (g, q) ∧ q.st = 2) ∧
    (∃ (t : Nat) (n : _) (p : CollPkt) (s : State) (g : _) (q : Group), collCame n p (tick t s) = false ∧
      groupOfId (tick t s) n = some (g, q) ∧ q.st = 1) ∧
    (∃ (p : CollPkt) (s : State) (r : RespPkt), p.resend = true ∧ mget s.xn.executed (execKey (collHead p) p.fseq) = some r) ∧
    (∃ (t : Nat) (p : RespPkt) (s : State) (o : CollOut) (g : _) (q : Group) (h : CollOp) (s1 : State),
      (s1 = sendBulk g (sendChunks q h q.rank).length (modHead g (fun h => { h with answered := min h.sent (h.answered + 1) }) (activity (jobAt s (jobIdx o.job)).ctx .xnRx (jobAt s (jobIdx o.job)).id o.layer o.operator (msgBytes (.resp p)) { tick t s with xn := { s.xn with collOut := s.xn.collOut.filter (fun x => !(x == o)) } }))) ∧
      0x200 ≤ p.flow ∧ p.flow < 0x300 ∧
      s.xn.collOut.find? (fun o => !o.held && o.dst == p.src && o.pkt.flow == p.flow && o.pkt.fseq == p.fseq) = some o ∧
      p.status ≠ .gone ∧ 2 ≤ o.pkt.stage ∧ groupOfId s o.gid = some (g, q) ∧ mget s.coll.groups g = some q ∧ headOp s g = some h ∧
      h.opNo = o.pkt.opNo) ∧
    (∃ (p : RespPkt) (s : State) (o : CollOut), 0x200 ≤ p.flow ∧ p.flow < 0x300 ∧
      s.xn.collOut.find? (fun o => !o.held && o.dst == p.src && o.pkt.flow == p.flow && o.pkt.fseq == p.fseq) = some o ∧
      p.status = .gone) ∧
    (∃ (p : RespPkt) (s : State) (q : Group), 0x200 ≤ p.flow ∧ p.flow < 0x300 ∧ s.xn.collOut = [] ∧
      mget s.coll.groups (p.flow - 0x200) = some q ∧ q.st = 0 ∧ p.status = .gone) ∧
    (∃ (p : RespPkt) (s : State), p.flow < 0x40 ∧ ((∀ r ∈ s.xn.remotes, covers p r = false))) ∧
    (∃ (p : RespPkt), 0x100 ≤ p.flow ∧ p.flow < 0x200) ∧
    (∃ (p : RespPkt), 0x300 ≤ p.flow ∧ p.flow < 0x400) :=
  ⟨⟨0, hGM, ({ memberList := some [0, 1] }), W2, _, _, _, _, begins_begun (by decide +kernel), rfl, rfl, rfl, by decide +kernel⟩,
   ⟨0, hG, (Wg 1 []), _, 0, begins_begun (by decide +kernel), by decide +kernel⟩,
   ⟨0, hG, {}, Wg1, _, 0, _, begins_begun (by decide +kernel), rfl, by decide +kernel⟩,
   ⟨0, hG, ({ nvalues := 8, values := List.replicate 8 1 }), Wg1, _, 0, _, begins_begun (by decide +kernel), rfl, by decide +kernel⟩,
   ⟨0, hG, ({ count := 1 }), Wg1, _, 0, _, begins_begun (by decide +kernel), rfl, by decide +kernel⟩,
   ⟨0, hG, ({ count := 1 }), Wg1, _, 0, _, begins_begun (by decide +kernel), rfl, by decide +kernel⟩,
   ⟨0, hG, ({ count := 1 }), Wg1, _, 0, _, begins_begun (by decide +kernel), rfl, by decide +kernel⟩,
   ⟨0, ({ groupId := 8, modelCtx := 5 }), (Wg 0 []), by decide +kernel⟩,
   ⟨0, ({ groupId := 9 }), (Wg 0 []), 0, (grpW 0 []), by decide +kernel⟩,
   ⟨0, 9, (Wg 1 []), 0, (grpW 1 []), by decide +kernel⟩,
   ⟨0, 9, 1, (Wg 1 []), 0, (grpW 1 []), by decide +kernel⟩,
   ⟨0, 9, (Wg 2 []), 0, (grpW 2 []), by decide +kernel⟩,
   ⟨0, 9, {}, (Wg 1 []), 0, (grpW 1 []), by decide +kernel⟩,
   ⟨({ src := 1, flow := 0x2FF, fseq := 65535, resend := true }),
     ({ W with xn := { W.xn with executed := [((65536 + 0x2FF) * 65536 + 65535, { fseq := 65535 })] } }), ({ fseq := 65535 }),
     by decide +kernel⟩,
   ⟨0, ({ src := 1, flow := 0x200 }), Wco, coW, 0, (grpW 1 [opW]), opW, _, rfl, by decide +kernel⟩,
   ⟨({ src := 1, flow := 0x200, status := .gone }), Wco, coW, by decide +kernel⟩,
   ⟨({ flow := 0x200, status := .gone }), (Wg 0 []), (grpW 0 []), by decide +kernel⟩,
   ⟨{}, W, by decide +kernel⟩,
   ⟨({ flow := 0x100 }), by decide +kernel⟩,
   ⟨({ flow := 0x300 }), by decide +kernel⟩⟩

theorem witness_TelemetryCommandsComplete :
    (∃ (t : Nat) (h : Hdr) (k : _) (s : State) (s1 : State), Begins t h s s1 ∧ shapeCheck s1 h infoTd false = none ∧ 8 ≤ k ∧ k ≤ 20) ∧
    (∃ (t : Nat) (h : Hdr) (s : State) (s1 : State), Begins t h s s1 ∧ shapeCheck s1 h infoTd false = none) ∧
    (∃ (t : Nat) (h : Hdr) (set : _) (l : _) (o : _) (j : _) (s : State) (s1 : State), Begins t h s s1 ∧
      shapeCheck s1 h infoTd false = none ∧ set ≤ 3 ∧ ((ctxOf s1 h.ctx).addrOnly = false ∨ (l = 0xFFFF ∧ o = 0xFFFF)) ∧
      (j = 0xFFFF ∨ othersJob s1 h.ctx j = false)) ∧
    (∃ (t : Nat) (h : Hdr) (n : _) (s : State) (s1 : State) (all : List (List Nat)) (fit : List (List Nat)), Begins t h s s1 ∧
      all = layerRecords s1 (jobIdx h.job) (ctxOf s1 h.ctx).addrOnly ∧ fit = all.take (n / 64) ∧
      (shapeCheck s1 h { rings := [3], job := true } false = none) ∧ jobCheck s1 h = none) ∧
    (∃ (t : Nat) (h : Hdr) (b : WatchBody) (s : State) (s1 : State) (n : _) (k : _), Begins t h s s1 ∧
      (shapeCheck s1 h { rings := [3], job := true } false = none) ∧ 1 ≤ b.expiry ∧ b.expiry ≤ 60000 ∧ jobCheck s1 h = none ∧
      (ctxOf s1 h.ctx).addrOnly = false ∧ watchBad s1 h b = false ∧ (ctxOf s1 h.ctx).watches.length < 4 ∧
      tensorBytes s1 b.plate b.stepKind b.symbolId = some (n, k)) ∧
    (∃ (t : Nat) (h : Hdr) (id : _) (s : State) (s1 : State) (w : Watch), Begins t h s s1 ∧ shapeCheck s1 h infoTd false = none ∧
      (ctxOf s1 h.ctx).watches.find? (fun w => w.reqId == id) = some w) ∧
    (∃ (t : Nat) (c : _) (id : _) (s : State) (w : Watch),
      (ctxOf s c).watches.find? (fun w => w.reqId == id && decide (w.due ≤ max s.time t)) = some w) ∧
    (∃ (c : _) (s : State) (r : TraceRing), (ctxOf s c).trace = some r ∧ r.dropped < 2 ^ 32 - 1) :=
  ⟨⟨0, hT, 20, W, _, begins_begun (by decide +kernel), by decide +kernel⟩,
   ⟨0, hT, W, _, begins_begun (by decide +kernel), by decide +kernel⟩,
   ⟨0, hT, 3, 0, 0, 17, W, _, begins_begun (by decide +kernel), by decide +kernel⟩,
   ⟨0, hTJ, 64, W, _, _, _, begins_begun (by decide +kernel), rfl, rfl, by decide +kernel⟩,
   ⟨0, hTJ, ({ symbolId := 4, bufBytes := 104, expiry := 60000 }),
     ({ W with fab := { W.fab with plates := [(0, { plateW with image := { symbols := [{ symbolId := 4, holds := [(0, 650, 0, 32)] }], costs := [costW] } })] } }),
     _, 32, 1, begins_begun (by decide +kernel), by decide +kernel⟩,
   ⟨0, hT, 8, (Wx { ctxW with watches := [watchW] }), _, watchW, begins_begun (by decide +kernel), by decide +kernel⟩,
   ⟨9, 3, 8, (Wx { ctxW with watches := [watchW] }), watchW, by decide +kernel⟩,
   ⟨3, (Wx { ctxW with trace := some { base := 0, sizeLog2 := 8, kinds := 0, headAddr := 0, dropped := 4294967294 } }),
     ({ base := 0, sizeLog2 := 8, kinds := 0, headAddr := 0, dropped := 4294967294 }), by decide +kernel⟩⟩

theorem witness_CofferAndAdvisoriesAnswer :
    (∃ (a : _), a < 10 ∧ a ≠ 2 ∧ a ≠ 3 ∧ a ≠ 6) ∧
    (∃ (eid : _) (s : State), managerEid s eid = true) ∧
    (∃ (eid : _) (s : State), managerEid s eid = true ∧ (s.pw.st = .run ∨ s.pw.st = .idle) ∧ s.cof.frozen = true ∧ s.cof.cause = 2 ∧
      s.cof.recs = []) ∧
    (∃ (s : State), (s.pw.st = .run ∨ s.pw.st = .idle) ∧ s.cof.frozen = true) ∧
    (∃ (s : State), regsAnswer s = true ∧ s.pw.st ≠ .run ∧ s.pw.st ≠ .idle) :=
  ⟨⟨9, by decide +kernel⟩,
   ⟨0, W, by decide +kernel⟩,
   ⟨0, ({ W with cof := { frozen := true, cause := 2 } }), by decide +kernel⟩,
   ⟨({ W with cof := { frozen := true, cause := 1, drops := 3 } }), by decide +kernel⟩,
   ⟨({ W with pw := { W.pw with st := .sleep } }), by decide +kernel⟩⟩

theorem witness_StepsRunAndEnd :
    (∃ (t : Nat) (p : _) (plan : List QStep) (s : State) (s1 : State) (s2 : State) (s3 : State) (s4 : State) (q : Queued) (w : Queued) (b : Queued),
      s1 = markRecompute p (queuePlan plan (tick t s)) ∧ eligible s1 p = some q ∧ (w = { q with work := q.work.map (clampWork s1) }) ∧
      s2 = ensureWork w.work s1 ∧ ((∀ k r, k ∈ w.work → workReq s2 k = some r → r.waitingBe = false)) ∧ oneBucket p w s2 = (b, s3) ∧
      headWork p b.work s3 = some s4 ∧ outranked s1 p q = false ∧ q.proof = false) ∧
    (∃ (t : Nat) (p : _) (plan : List QStep) (s : State) (s1 : State) (q : Queued), s1 = markRecompute p (queuePlan plan (tick t s)) ∧
      eligible s1 p = some q ∧ outranked s1 p q = false ∧ q.proof = true) ∧
    (∃ (t : Nat) (p : _) (plan : List QStep) (s : State) (s1 : State), s1 = markRecompute p (queuePlan plan (tick t s)) ∧ ((∀ q,
      eligible s1 p = some q → outranked s1 p q = true))) ∧
    (∃ (t : Nat) (p : _) (s : State) (q : Plate) (r : Running), mget s.fab.plates p = some q ∧ q.running = some r ∧
      watchdogReached (tick t s) p (max s.time t - r.dispatch) r.proof = false) ∧
    (∃ (t : Nat) (p : _) (s : State) (q : Plate) (r : Running), mget s.fab.plates p = some q ∧ q.running = some r ∧
      watchdogReached (tick t s) p (max s.time t - r.dispatch) r.proof = true) :=
  ⟨⟨0, 0, [], (Ws { plateW with queue := [qW] }), _, _, _, _, _, _, _, rfl, Option.eq_some_of_isSome (by decide +kernel), rfl, rfl,
    none_waits (by decide +kernel), (Prod.eta _).symm, Option.eq_some_of_isSome (by decide +kernel), by decide +kernel⟩,
   ⟨0, 0, [],
     ({ Ws { plateW with queue := [{ qW with proof := true }] } with srv := { jobs := [(1, { jobW with proofs := [0] })], reqs := [(1, reqW)], nextReq := 2 } }),
     _, _, rfl, Option.eq_some_of_isSome (by decide +kernel), by decide +kernel⟩,
   ⟨0, 0, [], W, _, rfl, of_none (by decide +kernel)⟩,
   ⟨0, 0, (Ws { plateW with isls := [], running := some runW }), ({ plateW with isls := [], running := some runW }), runW,
     by decide +kernel⟩,
   ⟨1000000000, 0, (Ws { plateW with isls := [], running := some runW }), ({ plateW with isls := [], running := some runW }), runW,
     by decide +kernel⟩⟩

theorem witness_IslandsAndDovetailsRespond :
    (∃ (e : _), 2 ≤ e) ∧
    (∃ (n : _) (e : _) (pl : Nat) (k : Nat) (s : State) (i : PIsl), (plateOf s pl).isls[k]? = some i ∧ 2 ≤ e ∧ i.isl = n) ∧
    (∃ (n : _) (k : Nat), islValid n = true ∧ k < 64) ∧
    (∃ (t : Nat) (n : _) (p : _) (s : State) (m : _), neighbour n p = some m ∧ bgFits (tick t s) (bgIsl n) 1 = true ∧
      bgFits (tick t s) (bgIsl m) 1 = true) ∧
    (∃ (t : Nat) (n : _) (p : _) (c : _) (s : State) (m : _), neighbour n p = some m ∧
      (mgetD (islOf s n).lanes (laneKey p c) {}).calTime + 60000000000 ≤ max s.time t ∧ bgFits (tick t s) (bgIsl n) 1 = true ∧
      bgFits (tick t s) (bgIsl m) 1 = true) ∧
    (∃ (t : Nat) (n : _) (s : State), bgFits (tick t s) (bgIsl n) 1 = false) ∧
    (∃ (t : Nat) (n : _) (s : State), islValid n = true ∧ fenced (tick t s) n = false ∧ n ∉ s.td.fences ∧ platesOn (tick t s) n = [] ∧
      s.fab.beaconOk = true) ∧
    (∃ (t : Nat) (n : _) (sw : List LaneSweep) (s : State), islValid n = true ∧ fenced (tick t s) n = false ∧ n ∉ s.td.fences ∧
      platesOn (tick t s) n = [] ∧ s.fab.beaconOk = true ∧ fenced (bringUp n sw (tick t s)) n = false) ∧
    (∃ (t : Nat) (n : _) (s : State), islValid n = true ∧ fenced (tick t s) n = false ∧ n ∉ s.td.fences ∧ platesOn (tick t s) n = [] ∧
      s.fab.beaconOk = false) ∧
    (∃ (t : Nat) (n : _) (s : State), islValid n = true ∧ fenced (tick t s) n = false) ∧
    (∃ (t : Nat) (n : _) (s : State), s.fab.beaconOk = true ∧ fenced (tick t s) n = false) ∧
    (∃ (n : _) (s : State), islValid n = true ∧ (islOf s n).stretched = true) ∧
    (∃ (s : State), s.fab.beaconOk = false) :=
  ⟨⟨2, by decide +kernel⟩,
   ⟨650, 2, 0, 0, W, _, Option.eq_some_of_isSome (by decide +kernel), by decide +kernel⟩,
   ⟨2003, 63, by decide +kernel⟩,
   ⟨0, 19, 1, W, _, Option.eq_some_of_isSome (by decide +kernel), by decide +kernel⟩,
   ⟨60000000000, 448, 2, 7, W, _, Option.eq_some_of_isSome (by decide +kernel), by decide +kernel⟩,
   ⟨0, 0, Wnb, by decide +kernel⟩,
   ⟨0, 2003, W, by decide +kernel⟩,
   ⟨0, 2003, [], W, by decide +kernel⟩,
   ⟨0, 0, ({ W with fab := { W.fab with beaconOk := false } }), by decide +kernel⟩,
   ⟨0, 0, W, by decide +kernel⟩,
   ⟨0, 0, W, by decide +kernel⟩,
   ⟨1, ({ W with fab := { W.fab with isl := [(1, { stretched := true })] } }), by decide +kernel⟩,
   ⟨({ W with fab := { W.fab with beaconOk := false } }), by decide +kernel⟩⟩

theorem witness_RemoteAccessesComplete :
    (∃ (t : Nat) (p : Pkt) (s : State), p.dst = ownLoc s ∧ p.resend = false ∧ 2 ≤ p.size ∧ p.size ≤ 12 ∧
      p.addr % alignAt (tick t s) p.addr = 0 ∧ 2 ^ p.size % alignAt (tick t s) p.addr = 0 ∧ modeBad (tick t s) p (2 ^ p.size) = false ∧
      targetCheck (tick t s) p false false false (2 ^ p.size) = none) ∧
    (∃ (t : Nat) (p : Pkt) (s : State) (st : _), targetCheck (tick t s) p false false false (2 ^ p.size) = some st ∧ p.dst = ownLoc s ∧
      p.resend = false ∧ 2 ≤ p.size ∧ p.size ≤ 12 ∧ p.addr % alignAt (tick t s) p.addr = 0 ∧ 2 ^ p.size % alignAt (tick t s) p.addr = 0 ∧
      modeBad (tick t s) p (2 ^ p.size) = false) ∧
    (∃ (t : Nat) (p : Pkt) (s : State), p.dst = ownLoc s ∧ p.resend = false ∧ 1 ≤ p.payload.length ∧ p.payload.length ≤ 4096 ∧
      p.length = p.payload.length ∧ p.addr % alignAt (tick t s) p.addr = 0 ∧ p.payload.length % alignAt (tick t s) p.addr = 0 ∧
      modeBad (tick t s) p p.payload.length = false ∧ targetCheck (tick t s) p true false false p.payload.length = none ∧
      ((p.payload.length = 8 → entryHere (tick t s) (p.addr % 2 ^ 41) = none))) ∧
    (∃ (p : Pkt) (s : State), p.dst = ownLoc s ∧ p.resend = false) ∧
    (∃ (t : Nat) (p : Pkt) (s : State) (m : _),
      atomicOp p.op (2 ^ p.size) (leNat (readDram s (p.addr % 2 ^ 41) (2 ^ p.size))) (leNat (p.payload.take (2 ^ p.size))) (leNat ((p.payload.drop (2 ^ p.size)).take (2 ^ p.size))) = some m ∧
      p.dst = ownLoc s ∧ p.resend = false ∧ (p.size = 2 ∨ p.size = 3) ∧ p.op ≠ 7 ∧
      ((p.op ≠ 6 ∨ entryHere (tick t s) (p.addr % 2 ^ 41) = none)) ∧
      p.payload.length = (if p.op = 5 then 2 * 2 ^ p.size else 2 ^ p.size) ∧ p.addr % 2 ^ p.size = 0 ∧
      lmodeOf s (p.addr % 2 ^ 41 / 2097152) = 0 ∧ targetCheck (tick t s) p true false false (2 ^ p.size) = none ∧
      (atomicOp p.op (2 ^ p.size) 0 0 0).isSome = true) ∧
    (∃ (t : Nat) (p : Pkt) (s : State) (r : RespPkt) (c : Instr), p.dst = ownLoc s ∧ p.resend = true ∧
      mget s.xn.executed (execKey p p.fseq) = some r ∧ c ∈ [Instr.read t p, .write t p, .atomic t p]) ∧
    (∃ (t : Nat) (fl : _) (fs : _) (s : State) (r : Remote), pickRemote (tick t s) fl fs 10000 true = some r) ∧
    (∃ (t : Nat) (fl : _) (fs : _) (s : State) (r : Remote) (m : _), (m = remoteMsg r { r.pkt with resend := true }) ∧
      pickRemote (tick t s) fl fs 10000 false = some r ∧ r.resent = false) ∧
    (∃ (t : Nat) (fl : _) (fs : _) (s : State) (o : _) (m : _), pickExu (tick t s) fl fs 10000 = some o ∧
      (m = XnMsg.exu o.ty { o.pkt with resend := true }) ∧ pickRemote (tick t s) fl fs 10000 false = none ∧ o.resent = false) ∧
    (∃ (t : Nat) (fl : _) (fs : _) (s : State) (o : CollOut) (m : _), (m = XnMsg.coll o.gid { o.pkt with resend := true }) ∧
      pickRemote (tick t s) fl fs 10000 false = none ∧ pickExu (tick t s) fl fs 10000 = none ∧ pickColl (tick t s) fl fs 10000 = some o ∧
      o.resent = false) ∧
    (∃ (t : Nat) (fl : _) (fs : _) (s : State) (r : Remote), pickRemote (tick t s) fl fs 20000 false = some r ∧ 0x40 ≤ fl) ∧
    (∃ (t : Nat) (fl : _) (fs : _) (s : State) (r : Remote), pickRemote (tick t s) fl fs 20000 false = some r ∧ fl < 0x40) ∧
    (∃ (t : Nat) (fl : _) (fs : _) (s : State) (o : _), pickExu (tick t s) fl fs 20000 = some o ∧
      pickRemote (tick t s) fl fs 20000 false = none) ∧
    (∃ (t : Nat) (fl : _) (fs : _) (s : State) (g : _) (q : Group) (o : CollOut), pickRemote (tick t s) fl fs 20000 false = none ∧
      pickExu (tick t s) fl fs 20000 = none ∧ pickColl (tick t s) fl fs 20000 = some o ∧ groupOfId s o.gid = some (g, q)) ∧
    (∃ (i : _) (f : _) (s : State), mget s.xn.faults i = some f) ∧
    (∃ (s : State), s.sec.fmEid ≠ 0) ∧
    (∃ (src : _) (s : State) (i : _) (j : Job) (r : RemoteEntry), s.srv.jobs = [(i, j)] ∧ j.present = true ∧ j.resv.remotes = [r] ∧
      r.loc = src ∧ s.coll.groups = []) ∧
    (∃ (src : _) (s : State) (i : _) (j : Job) (g : _) (q : Group), s.srv.jobs = [(i, j)] ∧ j.present = true ∧ s.coll.groups = [(g, q)] ∧
      q.job = i ∧ q.members.contains src = true ∧ q.st = 1) ∧
    (∃ (src : _) (s : State), ((∀ e ∈ s.srv.jobs, e.2.present = false)) ∧ ((∀ e ∈ s.coll.groups, e.2.members.contains src = false))) ∧
    (∃ (sw : _) (n : _) (s : State), sw < 8 ∧ n < 128 ∧ sw * 128 + n ∉ s.xn.unreach) ∧
    (∃ (sw : _) (reach : List (Nat × Bool)), sw < 8 ∧ reach.length = 1 ∧ ((∀ e ∈ reach, e.1 < 128 ∧ e.2 = true))) :=
  ⟨⟨0, pkW, W, by decide +kernel⟩,
   ⟨0, ({ pkW with tag := 8 }), W, _, Option.eq_some_of_isSome (by decide +kernel), by decide +kernel⟩,
   ⟨0, pkW, W, by decide +kernel⟩,
   ⟨pkW, W, by decide +kernel⟩,
   ⟨0, ({ pkW with size := 2, op := 1 }), W, _, Option.eq_some_of_isSome (by decide +kernel), by decide +kernel⟩,
   ⟨0, ({ pkW with resend := true, fseq := 65535 }), ({ W with xn := { W.xn with executed := [(65535, { fseq := 65535 })] } }),
     ({ fseq := 65535 }), (.read 0 { pkW with resend := true, fseq := 65535 }), by decide +kernel⟩,
   ⟨10000, 64, 5, (Wr true), (remW true), by decide +kernel⟩,
   ⟨10000, 64, 5, (Wr false), (remW false), _, rfl, by decide +kernel⟩,
   ⟨10000, (msgFlow (.exu .dispatch rE)), 0, Wo1, _, _, Option.eq_some_of_isSome (by decide +kernel), rfl, by decide +kernel⟩,
   ⟨10000, 0x200, 0, Wco, coW, _, rfl, by decide +kernel⟩,
   ⟨20000, 64, 5, (Wr false), (remW false), by decide +kernel⟩,
   ⟨20000, 3, 5, ({ W2 with xn := { W2.xn with remotes := [{ remW false with pkt := { (remW false).pkt with flow := 3 } }] } }),
     ({ remW false with pkt := { (remW false).pkt with flow := 3 } }), by decide +kernel⟩,
   ⟨20000, (msgFlow (.exu .dispatch rE)), 0, Wo1, _, Option.eq_some_of_isSome (by decide +kernel), by decide +kernel⟩,
   ⟨20000, 0x200, 0, Wco, 0, (grpW 1 [opW]), coW, by decide +kernel⟩,
   ⟨0, ({ cause := 0, lost := 1, job := 17, mc := 5, time := 0, completed := 0 }),
     ({ W with xn := { W.xn with faults := [(0, { cause := 0, lost := 1, job := 17, mc := 5, time := 0, completed := 0 })] } }),
     by decide +kernel⟩,
   ⟨({ W with sec := { W.sec with fmEid := 8 } }), by decide +kernel⟩,
   ⟨1, ({ W with srv := { W.srv with jobs := [(1, { jobW with resv := { jobW.resv with remotes := [{ loc := 1 }] } })] } }), 1,
     ({ jobW with resv := { jobW.resv with remotes := [{ loc := 1 }] } }), ({ loc := 1 }), by decide +kernel⟩,
   ⟨1, (Wg 1 []), 1, jobW, 0, (grpW 1 []), by decide +kernel⟩,
   ⟨1, ({ W with srv := {} }), by decide +kernel⟩,
   ⟨7, 127, W, by decide +kernel⟩,
   ⟨7, ([(127, true)]), by decide +kernel⟩⟩

theorem witness_PortsFollowTheirLinks :
    (∃ (t : Nat) (p : _) (f : FlitRec) (s : State) (s1 : State),
      s1 = takeAck p f.ack (takeCredit p f.vc f.respPool f.credits (countGlobal (47 + p) 256 (tick t s))) ∧ portUp (tick t s) p = true ∧
      p < 15 ∧ flitGood f = true ∧ f.kind = 0 ∧ f.seq = (portOf s1 p).rxNext ∧ (portOf s1 p).enc = false) ∧
    (∃ (t : Nat) (p : _) (f : FlitRec) (s : State) (s1 : State),
      s1 = takeAck p f.ack (takeCredit p f.vc f.respPool f.credits (countGlobal (47 + p) 256 (tick t s))) ∧ portUp (tick t s) p = true ∧
      p < 15 ∧ flitGood f = true ∧ f.kind = 0 ∧ f.seq = (portOf s1 p).rxNext ∧ (portOf s1 p).enc = true) ∧
    (∃ (t : Nat) (p : _) (f : FlitRec) (s : State) (s1 : State),
      s1 = takeAck p f.ack (takeCredit p f.vc f.respPool f.credits (countGlobal (47 + p) 256 (tick t s))) ∧ portUp (tick t s) p = true ∧
      p < 15 ∧ flitGood f = true ∧ f.kind = 0 ∧ f.seq ≠ (portOf s1 p).rxNext) ∧
    (∃ (t : Nat) (p : _) (f : FlitRec) (s : State), portUp (tick t s) p = true ∧ p < 15 ∧ flitGood f = true ∧ f.kind = 1) ∧
    (∃ (t : Nat) (p : _) (f : FlitRec) (s : State), portUp (tick t s) p = true ∧ p < 15 ∧ flitGood f = true ∧ f.kind = 2) ∧
    (∃ (t : Nat) (p : _) (f : FlitRec) (s : State), portUp (tick t s) p = true ∧ p < 15 ∧ flitGood f = false) ∧
    (∃ (t : Nat) (p : _) (s : State), portUp (tick t s) p = true) ∧
    (∃ (t : Nat) (p : _) (s : State), portUp (tick t s) p = true ∧ (portOf s p).enc = true) ∧
    (∃ (t : Nat) (p : _) (s : State), portUp (tick t s) p = true ∧ (portOf s p).enc = true ∧ (portOf s p).tagFail = false) ∧
    (∃ (t : Nat) (p : _) (s : State), portUp (tick t s) p = true ∧ (portOf s p).enc = true ∧ (portOf s p).tagFail = true) ∧
    (∃ (t : Nat) (p : _) (s : State), portUp (tick t s) p = true ∧
      8 ≤ ((portOf s p).replays.filter (fun r => decide (max s.time t ≤ r + 1000000))).length) ∧
    (∃ (t : Nat) (p : _) (s : State), portUp (tick t s) p = true) ∧
    (∃ (t : Nat) (p : _) (failed : List Nat) (pa : _) (pp : _) (eo : _) (pe : _) (s : State) (s1 : State),
      (s1 = modPort p (fun p => { p with laneFail := failed, peer := pa }) (tick t s)) ∧ p < 15 ∧ (portOf s p).disable = false ∧
      (portOf s p).st ≠ 2 ∧ partnerOk s1 p pa pp = true ∧ widthOf failed ≠ 0 ∧ (((portOf s p).encReq || pe) = false ∨ eo = true)) ∧
    (∃ (p : _) (passed : List Nat) (s : State) (left : List Nat), left = (portOf s p).laneFail.filter (fun l => !passed.contains l) ∧
      p < 15 ∧ (portOf s p).laneFail ≠ [] ∧ (portOf s p).disable = false ∧ (portOf s p).miswire = false ∧ (portOf s p).st = 2 ∧
      widthOf left ≠ 0) ∧
    (∃ (p : _) (passed : List Nat) (s : State) (left : List Nat), left = (portOf s p).laneFail.filter (fun l => !passed.contains l) ∧
      p < 15 ∧ (portOf s p).laneFail ≠ [] ∧ (portOf s p).disable = false ∧ (portOf s p).miswire = false ∧ (portOf s p).st = 0 ∧
      widthOf left ≠ 0) ∧
    (∃ (p : _) (s : State), (portOf s p).enc = true) ∧
    (∃ (p : _) (s : State), p < 15 ∧ regsAnswer s = true) ∧
    (∃ (v : Word) (s : State), regsAnswer s = true ∧ s.hi.lock = false ∧ [bits v.toNat 5 0, bits v.toNat 11 6, bits v.toNat 17 12,
      bits v.toNat 23 18, bits v.toNat 29 24].all (fun w => decide (1 ≤ w)) = true ∧
      70 * (bits v.toNat 5 0 + bits v.toNat 11 6 + bits v.toNat 17 12 + bits v.toNat 23 18 + bits v.toNat 29 24) ≤ (bits v.toNat 5 0 + bits v.toNat 11 6) * 100) :=
  ⟨⟨0, 14, (goodF {}), W2, _, rfl, by decide +kernel⟩,
   ⟨0, 14, (goodF {}), (Wp { st := 2, width := 2, enc := true }), _, rfl, by decide +kernel⟩,
   ⟨0, 14, (goodF { seq := 1 }), W2, _, rfl, by decide +kernel⟩,
   ⟨0, 14, (goodF { kind := 1 }), W2, by decide +kernel⟩,
   ⟨0, 14, (goodF { kind := 2 }), W2, by decide +kernel⟩,
   ⟨0, 0, ({ fecOk := false }), W2, by decide +kernel⟩,
   ⟨0, 14, W2, by decide +kernel⟩,
   ⟨0, 14, (Wp { st := 2, width := 2, enc := true }), by decide +kernel⟩,
   ⟨0, 14, (Wp { st := 2, width := 2, enc := true }), by decide +kernel⟩,
   ⟨0, 14, (Wp { st := 2, width := 2, enc := true, tagFail := true }), by decide +kernel⟩,
   ⟨1000000, 14, (Wp { st := 2, width := 2, replays := List.replicate 8 0 }), by decide +kernel⟩,
   ⟨0, 14, W2, by decide +kernel⟩,
   ⟨0, 0, [0], 1, 6, true, true, W, _, rfl, by decide +kernel⟩,
   ⟨14, [1], (Wp { st := 2, width := 1, laneFail := [0, 1] }), _, rfl, by decide +kernel⟩,
   ⟨14, [1], (Wp { st := 0, width := 1, laneFail := [0, 1] }), _, rfl, by decide +kernel⟩,
   ⟨14, (Wp { st := 2, width := 2, enc := true }), by decide +kernel⟩,
   ⟨14, W, by decide +kernel⟩,
   ⟨0x0220A79F#32, W, by decide +kernel⟩⟩

theorem witness_CapsAndClocksFollow :
    (∃ (v : Word) (s : State), regsAnswer s = true ∧ wattsOk (v.toNat % 4096) = true) ∧
    (∃ (v : Word) (s : State), regsAnswer s = true ∧ wattsOk (v.toNat % 4096) = false) ∧
    (∃ (s : State), regsAnswer s = true ∧ s.hi.lock = false) ∧
    (∃ (v : Word) (s : State), regsAnswer s = true ∧ v.toNat % 8 ≤ 4) ∧
    (∃ (v : Word) (s : State), regsAnswer s = true ∧ v.toNat % 128 ≤ 96) ∧
    (∃ (c : _) (s : State), fromRack s s.sec.rmEid = true ∧ wattsOk c = true ∧ s.pw.floor ≤ c) ∧
    (∃ (eid : _) (s : State), fromRack s eid = true) ∧
    (∃ (t : Nat) (s : State), s.pw.lease = true ∧ s.pw.leaseEnd ≤ max s.time t) ∧
    (∃ (s : State), s.pw.pwrwarn = false ∧ s.pw.st = .run) ∧
    (∃ (s : State), s.srv.jobs = [] ∧ s.ops.live = []) ∧
    (∃ (t : Nat) (n : _) (s : State), n < 4 ∧ (fieldSt s n).droopGuard ≠ 0 ∧
      (fieldSt s n).lastDroopWindow + 600000000000 ≤ max s.time t) ∧
    (∃ (s : State), s.pw.integrating = false) ∧
    (∃ (n : _), n < 4) :=
  ⟨⟨0x640#32, W, by decide +kernel⟩,
   ⟨0#32, W, by decide +kernel⟩,
   ⟨W, by decide +kernel⟩,
   ⟨4#32, W, by decide +kernel⟩,
   ⟨96#32, W, by decide +kernel⟩,
   ⟨0x640, ({ W with sec := { W.sec with rmEid := 9 } }), by decide +kernel⟩,
   ⟨9, ({ W with sec := { W.sec with rmEid := 9 } }), by decide +kernel⟩,
   ⟨2000000000, ({ W with pw := { W.pw with lease := true, leaseEnd := 2000000000 } }), by decide +kernel⟩,
   ⟨W, by decide +kernel⟩,
   ⟨({ W with srv := {} }), by decide +kernel⟩,
   ⟨600000000000, 3, ({ W with fab := { W.fab with fields := [(3, { droopGuard := 5 })] } }), by decide +kernel⟩,
   ⟨W, by decide +kernel⟩,
   ⟨3, by decide +kernel⟩⟩

theorem witness_ThermalEventsProtect :
    (∃ (t : Nat) (fits : List ThermFit) (sensors : List Nat) (s : State) (w : State) (v : State),
      w = forEach (fun f s => match fits[f]? with | some x => fitField f x (sensors.getD f 0) s | none => s) (List.range 4) (tick t s) ∧
      (v = { w with pw := { w.pw with tjMax := sat 16 (sensors.foldl max 0) } })) ∧
    (∃ (n : _), n < 4) ∧
    (∃ (s : State), s.pw.thermtrip = false ∧ s.pw.aonUp = true ∧ s.pw.st ≠ .off) ∧
    (∃ (s : State), s.pw.tripLatch = true ∧ s.pw.coldWaits = false) ∧
    (∃ (s : State), s.pw.tripLatch = true ∧ s.pw.coldWaits = true) ∧
    (∃ (v : Word) (s : State), regsAnswer s = true ∧ 10 ≤ v.toNat % 128 ∧ v.toNat % 128 ≤ 100 ∧ jobResident s = false) ∧
    (∃ (v : Word) (s : State), regsAnswer s = true ∧ (v.toNat % 128 < 10 ∨ 100 < v.toNat % 128)) :=
  ⟨⟨0, [], [], W, _, _, rfl, rfl⟩,
   ⟨3, by decide +kernel⟩,
   ⟨W, by decide +kernel⟩,
   ⟨({ W with pw := { W.pw with tripLatch := true } }), by decide +kernel⟩,
   ⟨({ W with pw := { W.pw with tripLatch := true, coldWaits := true } }), by decide +kernel⟩,
   ⟨100#32, ({ W with srv := {} }), by decide +kernel⟩,
   ⟨9#32, W, by decide +kernel⟩⟩

theorem witness_PowerStatesChange :
    (∃ (s : State), regsAnswer s = true) ∧
    (∃ (s : State), regsAnswer s = true ∧ s.pw.st = .run) ∧
    (∃ (eid : _) (s : State), fromRack s eid = true ∧ s.pw.thermtrip = false ∧ s.pw.aonUp = true ∧ s.sec.failedBoot = false ∧
      s.pw.resetHeld = false ∧ s.pw.st = .run) ∧
    (∃ (t : Nat) (s : State), s.pw.st = .run ∧ jobResident (tick t s) = false ∧ s.ops.live = [] ∧
      s.pw.lastBusy + 1000000 ≤ max s.time t) ∧
    (∃ (t : Nat) (s : State), s.pw.pending = true ∧ (s.pw.st = .run ∨ s.pw.st = .idle) ∧ s.pw.target = .sleep ∧
      sleepReady (tick t s) = true) ∧
    (∃ (t : Nat) (s : State), s.pw.pending = true ∧ (s.pw.st = .run ∨ s.pw.st = .sleep) ∧ s.pw.target = .off ∧
      deepReady (tick t s) = true) ∧
    (∃ (s : State), s.pw.st = .exiting ∧ s.pw.exitStep = 0 ∧ s.pw.coolant = true ∧ s.pw.coolantOk1s = true) ∧
    (∃ (s : State), s.pw.st = .exiting ∧ s.pw.exitStep = 2) ∧
    (∃ (s : State), s.pw.st = .exiting ∧ s.pw.exitStep = 3) ∧
    (∃ (k : _) (s : State), s.pw.st = .exiting ∧ k = s.pw.exitStep + 1 ∧ k ≤ 4 ∧ s.pw.exitRetried = false) ∧
    (∃ (k : _) (s : State), s.pw.st = .exiting ∧ k = s.pw.exitStep + 1 ∧ k ≤ 4 ∧ s.pw.exitRetried = true) ∧
    (∃ (s : State), s.pw.aonUp = true ∧ s.pw.resetHeld = false ∧ s.pw.thermtrip = false) ∧
    (∃ (s : State), (s.pw.st = .sleep ∨ s.pw.st = .deep)) ∧
    (∃ (s : State), hostRuns s = true) :=
  ⟨⟨W, by decide +kernel⟩,
   ⟨W, by decide +kernel⟩,
   ⟨9, ({ W with sec := { W.sec with rmEid := 9 } }), by decide +kernel⟩,
   ⟨1000000, State.reset, by decide +kernel⟩,
   ⟨0, ({ State.reset with pw := { State.reset.pw with pending := true, target := .sleep } }), by decide +kernel⟩,
   ⟨0, ({ State.reset with pw := { State.reset.pw with pending := true, target := .off, pmeOff := true } }), by decide +kernel⟩,
   ⟨({ State.reset with pw := { State.reset.pw with st := .exiting } }), by decide +kernel⟩,
   ⟨({ State.reset with pw := { State.reset.pw with st := .exiting, exitStep := 2 } }), by decide +kernel⟩,
   ⟨({ State.reset with pw := { State.reset.pw with st := .exiting, exitStep := 3 } }), by decide +kernel⟩,
   ⟨4, ({ State.reset with pw := { State.reset.pw with st := .exiting, exitStep := 3 } }), by decide +kernel⟩,
   ⟨1, ({ State.reset with pw := { State.reset.pw with st := .exiting, exitRetried := true } }), by decide +kernel⟩,
   ⟨W, by decide +kernel⟩,
   ⟨({ State.reset with pw := { State.reset.pw with st := .deep } }), by decide +kernel⟩,
   ⟨W, by decide +kernel⟩⟩

theorem witness_CoolantStopsHalt :
    (∃ (s : State), s.pw.st = .run ∧ s.pw.aonUp = true ∧ s.srv.jobs = [] ∧ s.srv.reqs = []) ∧
    (∃ (t : Nat) (s : State) (s1 : State) (s2 : State) (s3 : _),
      (s1 = freezeCoffer 3 (coffer 7 3 .coolantStop 0 0 0 0 { tick t s with pw := { s.pw with coolant := false, coolantOk1s := false } })) ∧
      (s2 = forEach (fun k s => declineWaiting k .coolantStop s) (reqKeys (stopSteps { s1 with pw := { s1.pw with stopAt := s1.time } }) (fun r => r.st == .detected)) (stopSteps { s1 with pw := { s1.pw with stopAt := s1.time } })) ∧
      s3 = powerEvent 3 (portsDown (railsOff (forEach (fun i s => if (jobAt s i).pendingAdmit then failAdmit i .coolantStop s else if (jobAt s i).present then teardownJob false i .coolantStop s else s) (List.range 16) s2))) ∧
      (s.pw.st = .run ∨ s.pw.st = .idle) ∧ s.pw.aonUp = true) ∧
    (∃ (s : State), (s.pw.st = .sleep ∨ s.pw.st = .deep) ∧ s.pw.aonUp = true) ∧
    (∃ (s : State), s.pw.st = .halted ∧ s.pw.coolant = false) ∧
    (∃ (t : Nat) (s : State), s.pw.st = .halted ∧ s.pw.stopAt + 5000000 ≤ max s.time t) :=
  ⟨⟨({ W with srv := {} }), by decide +kernel⟩,
   ⟨0, W, _, _, _, rfl, rfl, rfl, by decide +kernel⟩,
   ⟨({ State.reset with pw := { State.reset.pw with st := .sleep } }), by decide +kernel⟩,
   ⟨({ State.reset with pw := { State.reset.pw with st := .halted, coolant := false } }), by decide +kernel⟩,
   ⟨5000000, ({ State.reset with pw := { State.reset.pw with st := .halted } }), by decide +kernel⟩⟩

theorem witness_MailboxCommandsComplete :
    (∃ (s : State), MailboxTakes 1 s) ∧
    (∃ (t : Nat) (s : State), s.sec.nonceAt + 600000000000 ≤ max s.time t) ∧
    (∃ (t : Nat) (k : UnlockToken) (s : State), MailboxTakes 2 s ∧ s.sec.life = .deployed ∧ s.pw.st = .run ∧ tokenShape s k = true ∧
      k.signer = 2 ∧ slotOk s 2 2 2 = true ∧ k.sigOk = true ∧ k.deviceIdOk = true ∧ nonceOk (tick t s) k.nonce = true ∧
      ((k.level = 3 → tenantData (tick t s) = false))) ∧
    (∃ (s : State), MailboxTakes 3 s ∧ s.sec.life = .unlocked) ∧
    (∃ (t : Nat) (s : State), s.sec.life = .unlocked ∧ s.sec.unlockEnd ≤ max s.time t) ∧
    (∃ (s : State), MailboxTakes 4 s ∧ s.sec.life = .blank ∧ slotOk s 1 1 1 = true) ∧
    (∃ (keys : List (Option Digest)) (s : State), MailboxTakes 5 s ∧ s.sec.life = .provisioned ∧ (keys.getD 2 none).isSome = true ∧
      ((keys.take 8).drop 3).any (·.isSome) = true) ∧
    (∃ (t : Nat) (n : _) (nonce : _) (s : State), MailboxTakes 6 s ∧ 3 ≤ n ∧ n ≤ 7 ∧ mget s.sec.slots n = none ∧ slotOk s 2 2 2 = true ∧
      nonceOk (tick t s) nonce = true) ∧
    (∃ (t : Nat) (n : _) (nonce : _) (s : State), MailboxTakes 7 s ∧ n ≤ 7 ∧ slotOk s n 0 7 = true ∧ slotOk s (revoker n) 1 2 = true ∧
      nonceOk (tick t s) nonce = true) ∧
    (∃ (t : Nat) (nonce : _) (sg : _) (s : State), MailboxTakes 8 s ∧ retireOk (tick t s) nonce sg true = true ∧ s.srv.jobs = []) ∧
    (∃ (n : _) (s : State), MailboxTakes 9 s ∧ 6 ≤ n ∧ n ≤ 8) ∧
    (∃ (s : State), MailboxTakes 10 s ∧ s.sec.life = .provisioned) :=
  ⟨⟨W, by unfold MailboxTakes; decide +kernel⟩,
   ⟨600000000000, W, by decide +kernel⟩,
   ⟨0, ({ level := 3, nonce := 77, lifetime := 86400 }), ({ W with sec := { W.sec with nonce := some 77 } }),
     by unfold MailboxTakes; decide +kernel, by decide +kernel⟩,
   ⟨({ W with sec := { W.sec with life := .unlocked } }), by unfold MailboxTakes; decide +kernel, by decide +kernel⟩,
   ⟨9, ({ W with sec := { W.sec with life := .unlocked, unlockEnd := 9 } }), by decide +kernel⟩,
   ⟨({ W with sec := { W.sec with life := .blank } }), by unfold MailboxTakes; decide +kernel, by decide +kernel⟩,
   ⟨([none, none, some 3, some 4]), ({ W with sec := { W.sec with life := .provisioned } }), by unfold MailboxTakes; decide +kernel,
     by decide +kernel⟩,
   ⟨0, 7, 77, ({ W with sec := { W.sec with nonce := some 77 } }), by unfold MailboxTakes; decide +kernel, by decide +kernel⟩,
   ⟨0, 0, 77, ({ W with sec := { W.sec with nonce := some 77 } }), by unfold MailboxTakes; decide +kernel, by decide +kernel⟩,
   ⟨0, 77, 2, ({ W with srv := {}, sec := { W.sec with nonce := some 77 } }), by unfold MailboxTakes; decide +kernel, by decide +kernel⟩,
   ⟨8, W, by unfold MailboxTakes; decide +kernel, by decide +kernel⟩,
   ⟨({ W with sec := { W.sec with life := .provisioned } }), by unfold MailboxTakes; decide +kernel, by decide +kernel⟩⟩

theorem witness_SpdmAndTapAnswer :
    (∃ (s : State), sirdoyxRuns s = true) ∧
    (∃ (hash : _) (s : State), sirdoyxRuns s = true ∧ s.sec.life ≠ .retired ∧ bit hash 5 = true) ∧
    (∃ (s : State), sirdoyxRuns s = true ∧ s.sec.life ≠ .retired) ∧
    (∃ (s : State), sirdoyxRuns s = true ∧ s.sec.life ≠ .retired ∧ hasIdentity s = true) ∧
    (∃ (i : _) (s : State), sirdoyxRuns s = true ∧ s.sec.life ≠ .retired ∧ 1 ≤ i ∧ i ≤ 8) ∧
    (∃ (n : _) (s : State), sirdoyxRuns s = true ∧ s.sec.life ≠ .retired ∧ hasIdentity s = true ∧ n ∉ s.sec.sessions ∧
      n ∉ s.sec.handshakes) ∧
    (∃ (n : _) (s : State), sirdoyxRuns s = true ∧ s.sec.life ≠ .retired ∧ n ∈ s.sec.handshakes) ∧
    (∃ (n : _) (s : State), sirdoyxRuns s = true ∧ s.sec.life ≠ .retired ∧ n ∈ s.sec.sessions) ∧
    (∃ (n : _) (s : State), sirdoyxRuns s = true ∧ s.sec.life ≠ .retired ∧ n ∈ s.sec.sessions) ∧
    (∃ (op : _) (s : State), s.pw.st ≠ .off ∧ s.pw.aonUp = true ∧ tapNeeds op ≤ tapLevel s) ∧
    (∃ (op : _) (s : State), s.pw.st ≠ .off ∧ s.pw.aonUp = true ∧ tapLevel s < tapNeeds op ∧ isTransaction op = false) ∧
    (∃ (v : Word) (s : State), regsAnswer s = true ∧ sirdoyxRuns s = true ∧ s.sec.life = .deployed ∧ v.toNat % 4 ≤ 1) :=
  ⟨⟨W, by decide +kernel⟩,
   ⟨0x20, W, by decide +kernel⟩,
   ⟨W, by decide +kernel⟩,
   ⟨W, by decide +kernel⟩,
   ⟨8, W, by decide +kernel⟩,
   ⟨1, W, by decide +kernel⟩,
   ⟨1, ({ W with sec := { W.sec with handshakes := [1] } }), by decide +kernel⟩,
   ⟨1, ({ W with sec := { W.sec with sessions := [1] } }), by decide +kernel⟩,
   ⟨1, ({ W with sec := { W.sec with sessions := [1] } }), by decide +kernel⟩,
   ⟨.dbgRead, ({ W with sec := { W.sec with level := 2 } }), by decide +kernel⟩,
   ⟨.extest, ({ W with sec := { W.sec with level := 2 } }), by decide +kernel⟩,
   ⟨1#32, W, by decide +kernel⟩⟩

theorem witness_RegisterWritesTakeEffect :
    (∃ (v : Word) (s : State), regsAnswer s = true ∧ bit v.toNat 31 = true) ∧
    (∃ (t : Nat) (c : _) (r : _) (s : State), regsAnswer s = true ∧ setupThere (tick t s) c = true ∧ (ctxOf s c).enable = false ∧
      r < 18) ∧
    (∃ (t : Nat) (c : _) (r : _) (s : State), regsAnswer s = true ∧ setupThere (tick t s) c = true ∧ (ctxOf s c).enable = true ∧ r < 18) ∧
    (∃ (v : Word) (s : State), regsAnswer s = true ∧ s.hi.lock = false ∧ 1 ≤ v.toNat % 512 ∧ v.toNat % 512 ≤ 256 ∧
      (bit v.toNat 30 = false ∨ 16 ≤ v.toNat % 512)) ∧
    (∃ (v : Word) (s : State), regsAnswer s = true ∧ (v.toNat % 512 = 0 ∨ 256 < v.toNat % 512)) ∧
    (∃ (v : Word) (s : State), regsAnswer s = true ∧ s.hi.lock = false ∧ 256 ≤ v.toNat % 4096 ∧ v.toNat % 4096 ≤ 2048 ∧
      sumReserves s + v.toNat % 4096 ≤ 7168 + s.mem.hiRsv) ∧
    (∃ (n : _) (s : State), regsAnswer s = true ∧ n < 16) ∧
    (∃ (s : State), regsAnswer s = true) ∧
    (∃ (s : State), regsAnswer s = true ∧ s.pw.memRdy = true) ∧
    (∃ (s : State), regsAnswer s = true ∧ s.pw.memRdy = true) :=
  ⟨⟨0x80000000#32, W, by decide +kernel⟩,
   ⟨0, 4, 17, W, by decide +kernel⟩,
   ⟨0, 3, 17, W, by decide +kernel⟩,
   ⟨0x40000010#32, W, by decide +kernel⟩,
   ⟨257#32, W, by decide +kernel⟩,
   ⟨2048#32, W, by decide +kernel⟩,
   ⟨15, W, by decide +kernel⟩,
   ⟨W, by decide +kernel⟩,
   ⟨W, by decide +kernel⟩,
   ⟨W, by decide +kernel⟩⟩

theorem witness_AccessesReachTheirRegisters :
    (∃ (t : Nat) (f : Func) (off : _) (s : State), reaches (tick t s) f off 4 = true ∧ aligned off 4 = true) ∧
    (∃ (t : Nat) (f : Func) (off : _) (s : State), reaches (tick t s) f off 8 = true ∧ aligned off 8 = true ∧ ¬ (f = .pf ∧
      lockedPair off = true)) ∧
    (∃ (t : Nat) (f : Func) (off : _) (s : State), reaches (tick t s) f off 4 = true ∧ aligned off 4 = true) ∧
    (∃ (t : Nat) (c : _) (r : _) (s : State), c < 512 ∧ reaches (tick t s) (.vf c) (0x200 + 16 * r) 4 = true ∧ r < 18 ∧
      (ctxOf s c).enable = false) ∧
    (∃ (t : Nat) (f : Func) (off : _) (s : State), reaches (tick t s) f off 4 = true ∧ aligned off 4 = true ∧ pairLo f off = true) ∧
    (∃ (t : Nat) (f : Func) (off : _) (s : State) (v : Word), reaches (tick t s) f off 4 = true ∧ aligned off 4 = true ∧
      pairLo f off = false ∧ pairHi f off = true ∧ mget s.hi.latched (pairKey (fnNo f) (off - 4)) = some v) ∧
    (∃ (off : _) (n : _), aligned off n = false) :=
  ⟨⟨0, .pf, 0xFFFFFC, W, by decide +kernel⟩,
   ⟨0, .pf, 0x10020, W, by decide +kernel⟩,
   ⟨0, (.vf 3), 0xFFFC, W, by decide +kernel⟩,
   ⟨0, 4, 17, W, by decide +kernel⟩,
   ⟨0, .pf, 0x100010, W, by decide +kernel⟩,
   ⟨0, (.vf 3), 0x14, ({ W with hi := { W.hi with latched := [(pairKey (fnNo (.vf 3)) 0x10, 9#32)] } }), 9#32, by decide +kernel⟩,
   ⟨2, 4, by decide +kernel⟩⟩

theorem witness_ResetsRestore :
    (∃ (vf : _) (s : State), vfEnabled s vf = true ∧ ctxHere s vf = false) ∧
    (∃ (vf : _) (s : State), vfEnabled s vf = true ∧ ctxHere s vf = true) ∧
    (∃ (s : State), s.id.bifurcated = false ∧ s.hi.numVfs0 = 0 ∧ s.hi.polling = false ∧ s.ctxs.all (fun e => e.1 == adminCtx) = true) ∧
    (∃ (t : Nat) (vf : _) (s : State) (v : _), v = endPoll (resetFunc (fnOf vf) (dropCtx vf (flrCtx vf (tick t s)))) ∧
      (linkVfs (tick t s) 0).filter (fun v => ctxHere s v || vfEnabled (tick t s) v) = [vf] ∧ ctxHere s vf = true) ∧
    (∃ (s : State), s.id.bifurcated = false ∧ s.hi.numVfs0 = 0) ∧
    (∃ (c : _) (s : State), resettable s = true ∧ s.sec.failedBoot = false ∧ s.hi.fatalPending = false ∧ (c = 1 ∨ c = 2 ∨ c = 3)) ∧
    (∃ (s : State), resettable s = true) ∧
    (∃ (s : State), ¬ (s.pw.resetHeld = true ∧ s.pw.aonUp = true) ∧ ¬ (s.pw.tripLatch = true ∧ s.pw.aonUp = true)) ∧
    (∃ (s : State), s.pw.resetHeld = false ∧ s.pw.tripLatch = true ∧ s.pw.aonUp = true) ∧
    (∃ (s : State), s.sec.failedBoot = false ∧ s.pw.st = .off ∧ s.pw.bootRetried = false) ∧
    (∃ (s : State), s.sec.failedBoot = false ∧ s.pw.st = .off ∧ s.pw.bootRetried = true) :=
  ⟨⟨15, W, by decide +kernel⟩,
   ⟨3, W, by decide +kernel⟩,
   ⟨State.reset, by decide +kernel⟩,
   ⟨0, 0, ({ State.reset with hi := { State.reset.hi with numVfs0 := 1 }, ctxs := [(0, ctxQ)] }), _, rfl, by decide +kernel⟩,
   ⟨State.reset, by decide +kernel⟩,
   ⟨3, W, by decide +kernel⟩,
   ⟨W, by decide +kernel⟩,
   ⟨W, by decide +kernel⟩,
   ⟨({ W with pw := { W.pw with tripLatch := true } }), by decide +kernel⟩,
   ⟨({ W with pw := { W.pw with st := .off } }), by decide +kernel⟩,
   ⟨({ W with pw := { W.pw with st := .off, bootRetried := true } }), by decide +kernel⟩⟩

theorem witness_HostErrorsHaveTheirEffects :
    (∃ (c : _) (r : Nat) (s : State), mgetD (ctxOf s c).fetching r 0 ≠ 0) ∧
    (∃ (k : _) (s : State) (r : Request), mget s.srv.reqs k = some r ∧ r.st = .detected) ∧
    (∃ (k : _) (s : State) (r : Request), mget s.srv.reqs k = some r ∧ r.st ≠ .detected) ∧
    (∃ (t : Nat) (h : Hdr) (s : State) (s1 : State), Begins (max s.time t) h (tick t s) s1) ∧
    (∃ (r : Nat), 8 ≤ r ∧ r ≤ 17) ∧
    (∃ (k : _) (s : State) (r : Request), mget s.srv.reqs k = some r) ∧
    (∃ (t : Nat) (c : _) (r : Nat) (s : State), ctxHere s c = true ∧ (mgetD (ctxOf s c).rings r {}).coalTime ≠ 0 ∧
      mgetD (ctxOf s c).unsignalled r 0 ≠ 0 ∧
      mgetD (ctxOf s c).unsignalledAt r 0 + (mgetD (ctxOf s c).rings r {}).coalTime * 1000 ≤ max s.time t) ∧
    (∃ (s : State), s.hi.ptmEnable = true ∧ s.hi.ptmSet = false ∧ enabledCtxs s = []) ∧
    (∃ (s : State), s.hi.ptmEnable = true ∧ s.hi.ptmSet = true) ∧
    (∃ (s : State), s.hi.ptmEnable = true ∧ s.hi.ptmFails < 2) :=
  ⟨⟨3, 7, W, by decide +kernel⟩,
   ⟨1,
     ({ W with srv := { W.srv with reqs := [(1, { op := .generate, st := .detected, h := { hR with cls := 0, ring := 0, deadline := 20000, reqId := 8 }, detect := 0 })], nextReq := 2 } }),
     ({ op := .generate, st := .detected, h := { hR with cls := 0, ring := 0, deadline := 20000, reqId := 8 }, detect := 0 }),
     by decide +kernel⟩,
   ⟨1,
     ({ W with srv := { W.srv with reqs := [(1, { op := .generate, st := .running, h := { hR with cls := 0, ring := 0, deadline := 20000, reqId := 8 }, detect := 0 })], nextReq := 2 } }),
     ({ op := .generate, st := .running, h := { hR with cls := 0, ring := 0, deadline := 20000, reqId := 8 }, detect := 0 }),
     by decide +kernel⟩,
   ⟨0, hC, W, _, begins_begun (by decide +kernel)⟩,
   ⟨17, by decide +kernel⟩,
   ⟨1,
     ({ W with srv := { W.srv with reqs := [(1, { op := .generate, st := .running, h := { hR with cls := 0, ring := 0, deadline := 20000, reqId := 8 }, detect := 0 })], nextReq := 2 } }),
     ({ op := .generate, st := .running, h := { hR with cls := 0, ring := 0, deadline := 20000, reqId := 8 }, detect := 0 }),
     by decide +kernel⟩,
   ⟨2000, 3, 9, (Wx { ctxW with rings := mset ctxW.rings 9 { sizeLog2 := 10, coalTime := 2 }, unsignalled := [(9, 1)] }),
     by decide +kernel⟩,
   ⟨({ State.reset with hi := { State.reset.hi with ptmEnable := true } }), by decide +kernel⟩,
   ⟨({ W with hi := { W.hi with ptmEnable := true, ptmSet := true } }), by decide +kernel⟩,
   ⟨({ W with hi := { W.hi with ptmEnable := true, ptmFails := 1 } }), by decide +kernel⟩⟩

theorem witness_EmptyQueueIdles :
    ∃ (s : State), s.pending = [] :=
  ⟨W, by decide +kernel⟩

theorem witness_MemoryStaysCanonical :
    ∃ (s : State) (u : State), step s = .next u ∧ s.memOk = true :=
  ⟨({ { W with mem := { W.mem with dram := [(209715200, 1)] } } with pending := [.write 0 { pkW with size := 2 }] }), _, rfl,
    by decide +kernel⟩

theorem witness_LockStaysSet :
    ∃ (c : Instr) (s : State) (u : State), exec c s = .next u ∧ s.hi.lock = true ∧ clearsLock c = false :=
  ⟨(.setupLock 0 0), ({ W with hi := { W.hi with lock := true } }), _, rfl, by decide +kernel⟩

theorem witness_LockFreezesItsFields :
    (∃ (c : Instr) (s : State) (u : State), exec c s = .next u ∧ s.hi.lock = true ∧ hostWrites c = true ∧ clearsLock c = false) ∧
    (∃ (t : Nat) (a : Nat) (b : Nat) (c : Nat) (d : Nat) (e : Nat) (s : State), s.hi.lock = true ∧ regsAnswer (tick t s) = true ∧ 1 ≤ a ∧
      a < 64 ∧ 1 ≤ b ∧ b < 64 ∧ 1 ≤ c ∧ c < 64 ∧ 1 ≤ d ∧ d < 64 ∧ 1 ≤ e ∧ e < 64 ∧ 70 * (a + b + c + d + e) ≤ 100 * (a + b)) :=
  ⟨⟨(.hiDbCtrlWrite 0 0x10#32), ({ W with hi := { W.hi with lock := true } }), _, rfl, by decide +kernel⟩,
   ⟨0, 63, 63, 52, 1, 1, ({ W with hi := { W.hi with lock := true } }), by decide +kernel⟩⟩

theorem witness_WeightsFollowTheirRules :
    (∃ (t : Nat) (a : Nat) (b : Nat) (c : Nat) (d : Nat) (e : Nat) (s : State), s.hi.lock = false ∧ regsAnswer (tick t s) = true ∧ 1 ≤ a ∧
      a < 64 ∧ 1 ≤ b ∧ b < 64 ∧ 1 ≤ c ∧ c < 64 ∧ 1 ≤ d ∧ d < 64 ∧ 1 ≤ e ∧ e < 64 ∧ 70 * (a + b + c + d + e) ≤ 100 * (a + b)) ∧
    (∃ (t : Nat) (a : Nat) (b : Nat) (c : Nat) (d : Nat) (e : Nat) (s : State), regsAnswer (tick t s) = true ∧ a < 64 ∧ b < 64 ∧ c < 64 ∧
      d < 64 ∧ e < 64 ∧ ((a = 0 ∨ b = 0 ∨ c = 0 ∨ d = 0 ∨ e = 0 ∨ 100 * (a + b) < 70 * (a + b + c + d + e)))) :=
  ⟨⟨0, 63, 63, 52, 1, 1, W, by decide +kernel⟩,
   ⟨0, 63, 63, 53, 1, 1, W, by decide +kernel⟩⟩

theorem witness_IslandsStandInOneGrid :
    (∃ (f : _) (r : _) (c : _), f < 4 ∧ r < 15 ∧ c < 20) ∧
    (∃ (n : _), islValid n = true) ∧
    (∃ (x : _) (y : _), x < 40 ∧ y < 30) ∧
    (∃ (n : _) (m : _), islValid n = true ∧ islValid m = true) ∧
    (∃ (n : _), islValid n = true) :=
  ⟨⟨3, 14, 19, by decide +kernel⟩,
   ⟨2003, by decide +kernel⟩,
   ⟨39, 29, by decide +kernel⟩,
   ⟨0, 2003, by decide +kernel⟩,
   ⟨0, by decide +kernel⟩⟩

theorem witness_TimeNeverRunsBackward :
    (∃ (c : Instr) (s : State) (u : State), ((∀ t ok m, c = .ptmDialogue t ok m → s.hi.ptmSet = true)) ∧ exec c s = .next u ∧
      restartsTime c = false) ∧
    (∃ (s : State), s.hi.ptmEnable = true ∧ s.hi.ptmSet = false ∧ enabledCtxs s = []) :=
  ⟨⟨(.poll 5), W, _, (by intro _ _ _ h; cases h), rfl, by decide +kernel⟩,
   ⟨({ State.reset with hi := { State.reset.hi with ptmEnable := true } }), by decide +kernel⟩⟩

theorem witness_LifecycleFollowsItsTable :
    ∃ (c : Instr) (s : State) (u : State), exec c s = .next u :=
  ⟨(.poll 5), W, _, rfl⟩

theorem witness_OwedRecordsAreWritten :
    (∃ (d : Cmd) (s : State), ctxHere s d.ctx = true ∧ ringThere (ctxOf s d.ctx) d.ring = true ∧ d.ring ∉ (ctxOf s d.ctx).ringErr ∧
      (ctxOf s d.ctx).resetBusy = false) ∧
    (∃ (c : _) (s : State), ctxHere s c = true ∧ ringRoom (ctxOf s c) 9 = 0) ∧
    (∃ (c : _) (s : State), ctxHere s c = true ∧ ringRoom (ctxOf s c) 9 ≠ 0 ∧ ringThere (ctxOf s c) 9 = true ∧ 9 ∉ (ctxOf s c).ringErr) :=
  ⟨⟨({ ctx := 3, ring := 9 }), W, by decide +kernel⟩,
   ⟨3, (Wx { ctxW with reserved := [(9, 1024)] }), by decide +kernel⟩,
   ⟨3, W, by decide +kernel⟩⟩

theorem witness_StoresStayInTheirSpan :
    (∃ (t : Nat) (p : Pkt) (s : State) (u : State) (b : _), exec (.write t p) s = .next u ∧ s.memOk = true ∧
      ((b < p.addr % 2 ^ 41 ∨ p.addr % 2 ^ 41 + p.payload.length ≤ b))) ∧
    (∃ (t : Nat) (p : Pkt) (s : State) (u : State) (b : _), exec (.atomic t p) s = .next u ∧ s.memOk = true ∧
      ((b < p.addr % 2 ^ 41 ∨ p.addr % 2 ^ 41 + (if p.op = 7 then p.payload.length else 2 ^ p.size) ≤ b))) ∧
    (∃ (t : Nat) (off : _) (data : List Byte) (s : State) (u : State) (b : _), exec (.bar2Write t off data) s = .next u ∧ s.memOk = true ∧
      ((∀ i, i < data.length → bar2Address s (off + i) ≠ some b))) ∧
    (∃ (t : Nat) (frame : _) (ok : _) (data : Option (List Byte)) (s : State) (u : State) (b : _),
      exec (.frameRestored t frame ok data) s = .next u ∧ s.memOk = true ∧ ((b < frame * 65536 ∨ frame * 65536 + 65536 ≤ b))) ∧
    (∃ (t : Nat) (a : _) (d : List Byte) (s : State) (u : State) (b : _), exec (.tapInstruction t (.writeMem a d)) s = .next u ∧
      s.memOk = true ∧ ((b < a ∨ a + d.length ≤ b))) ∧
    (∃ (t : Nat) (isl : _) (port : _) (ctl : _) (err : _) (p : _) (k : _) (a : _) (l : List Byte) (s : State) (u : State) (b : _),
      exec (.dovetailTransfer t isl port ctl err (.write p k a l)) s = .next u ∧ s.memOk = true ∧ ((∀ i,
      i < l.length → bankKey s p k (a + i) ≠ some b))) :=
  ⟨⟨0, pkW, W, _, 209715204, rfl, by decide +kernel⟩,
   ⟨0, ({ pkW with size := 2 }), W, _, 209715199, rfl, by decide +kernel⟩,
   ⟨0, 0, [1], W, _, 5, rfl, by decide +kernel⟩,
   ⟨0, 3200, true, none, ({ W with mem := { W.mem with poisonFrames := [3200] } }), _, 209780736, rfl, by decide +kernel⟩,
   ⟨0, 4096, [1], W, _, 4097, rfl, by decide +kernel⟩,
   ⟨0, 650, 0, false, 0, 0, 0, 0, [1], W, _, ((bankKey W 0 0 0).getD 0 + 1), rfl, by decide +kernel⟩⟩

theorem witness_RowsSpreadEvenly :
    (∃ (e : EmbTable) (r : _), 8 ≤ e.rowBits ∧ e.rowBits ≤ 40 ∧ e.shardBits ≤ 7 ∧ e.shardBits < e.rowBits ∧ r < 2 ^ e.rowBits) ∧
    (∃ (e : EmbTable) (k : _) (j : _), 8 ≤ e.rowBits ∧ e.rowBits ≤ 40 ∧ e.shardBits ≤ 7 ∧ e.shardBits < e.rowBits ∧ k < 2 ^ e.shardBits ∧
      j < 2 ^ (e.rowBits - e.shardBits)) ∧
    (∃ (e : EmbTable) (k : _), 8 ≤ e.rowBits ∧ e.rowBits ≤ 40 ∧ e.shardBits ≤ 7 ∧ e.shardBits < e.rowBits ∧ k < 2 ^ e.shardBits) :=
  ⟨⟨({ rowBits := 40, shardBits := 7, seed := 2 ^ 64 - 1 }), (2 ^ 40 - 1), by decide +kernel⟩,
   ⟨({ rowBits := 40, shardBits := 7 }), 127, (2 ^ 33 - 1), by decide +kernel⟩,
   ⟨({ rowBits := 40, shardBits := 7 }), 127, by decide +kernel⟩⟩

theorem witness_WindowNeverOverflows :
    ∃ (l : List Block), l.length ≤ 2 ^ 24 :=
  ⟨([{ sum := some (-7, 100) }, { sum := some (1, -100), lossy := true }]), by decide +kernel⟩

end Sys2Proof.Machine
end

section
/-! SUPPORT. The proofs of O46 and O47: every command answers a next state and leaves the queue as it was, so as many steps
as commands wait empty it. -/
namespace Sys2Proof.Machine

/-! ## Every command answers, and none touches the queue

No arm of `exec` answers anything but `.next`, and each state it answers is built from operations whose frame lemmas
(Sys2Proof/Laws/) give the queue. What is left to a command is to follow the branches of its own definition. -/

/-- Every read error of the host has an answer that keeps the queue; that of a command's buffer ends its descriptor. -/
theorem hostReadError_keepsQueue (t : Nat) (w : HostReadWhat) (s : State) :
    Answers (.hostReadError t w) s (fun u => u.pending = s.pending) := by
  cases w with
  | cmdBuffer h => exact ⟨_, rfl, command_pending t h _ _ fun s => by simp⟩
  | _ => exact ⟨_, rfl, by simp⟩

/-- The fits of the four fields, applied one after another, keep the queue whether or not a field has one. -/
theorem thermalModelUpdate_keepsQueue (t : Nat) (fits : List ThermFit) (sensors : List Nat) (s : State) :
    Answers (.thermalModelUpdate t fits sensors) s (fun u => u.pending = s.pending) := by
  refine ⟨_, rfl, ?_⟩
  simp only [setEmergency_frame, keepFloors_frame]
  exact forEach_pending _ _ _ fun f s => by split <;> simp

/-- Settles O46, command by command: each arm answers a next state, and each branch of it keeps the queue. -/
theorem everyCommandAnswers : Obligations.EveryCommandAnswers := by
  intro c s
  cases c with
  -- A fetched descriptor that owes one record: its checks, then its effect.
  | jobEnd | jobTeardown | modelCreate | modelDestroy | ctxCreate | ctxDestroy | partCreate | opQuery | reqCancel |
  collGroupDestroy | traceSetup | counterFilter | layerReport | tensorWatch | watchCancel =>
    refine ⟨_, rfl, command_pending _ _ _ _ fun s => ?_⟩
    repeat' split
    all_goals simp
  -- The same, where the effect names intermediate states.
  | tileMove | embRowUpdate | embGenCommit | jobAdmit | plateUnload | tableReload | seqEnd | detokLoad | collGroupCreate =>
    refine ⟨_, rfl, command_pending _ _ _ _ fun s => ?_⟩
    dsimp only
    repeat' split
    all_goals simp
  -- A fetched descriptor that may owe two records.
  | plateLoad | selfTest | scrubPass | secureErase =>
    refine ⟨_, rfl, command2_pending _ _ _ _ fun s => ?_⟩
    repeat' split
    all_goals simp
  | generate | score | embedGather | kvMigrate | epochInstall | partResize | fwStage =>
    refine ⟨_, rfl, command2_pending _ _ _ _ fun s => ?_⟩
    dsimp only
    repeat' split
    all_goals simp
  -- An event whose next state is chosen by branches.
  | stopBlockTimeout | prefixLookupDone | stepDispatch | stepBoundary | stepWatchdog | deadlineMarginTimer |
  dovetailRecalibration | plateLoadVerified | islandConfigAck | plateResident | lineCheckFail | frameRestored | restoreFailed |
  subchannelRetry | frameMigration | sequencePublication | migrateCopyDone | areaAllocated | epochFree | remoteTimeout | claim |
  join | abandon | fault | collectiveChunk | summaryReadReturn | fetchaddComplete | doorbellBlockRead | hostWriteError |
  watchExpiry | stateEntry | logRead | quiesceMet | secureEraseDone | selfTestDone | scrubPassDone | fwStageDone |
  claimRelease =>
    refine ⟨_, rfl, ?_⟩
    repeat' split
    all_goals simp
  | stopBlockReturn | islandConfigTimeout | reloadVerified | manifestVerified =>
    refine ⟨_, rfl, ?_⟩
    dsimp only
    repeat' split
    all_goals simp
  -- An event whose branches each answer by themselves.
  | restoringReissue | remoteResend | fabricFaultResend | flit | tag | portTrainingDone | laneRetry =>
    simp only [exec, execRestoringReissue, execRemoteResend, execFabricFaultResend, execFlit,
      execTag, execPortTrainingDone, execLaneRetry]
    repeat' split
    all_goals exact ⟨_, rfl, by simp⟩
  | hostReadError t w => exact hostReadError_keepsQueue t w s
  | thermalModelUpdate t fits sensors => exact thermalModelUpdate_keepsQueue t fits sensors s
  | provision t ok =>
    refine ⟨_, rfl, mailbox_pending _ _ _ _ fun s => ?_⟩
    split <;> simp
  -- Every other command is one expression over operations that keep the queue.
  | _ => exact ⟨_, rfl, by simp⟩

/-! ## The queue drains -/

/-- A step takes the command at the front off the queue and leaves the rest. -/
theorem step_pops_front {c : Instr} {rest : List Instr} {s : State} (h : s.pending = c :: rest) :
    ∃ u, step s = .next u ∧ u.pending = rest := by
  obtain ⟨u, hu, hq⟩ := everyCommandAnswers c { s with pending := rest }
  exact ⟨u, by simp only [step, h, hu], hq⟩

theorem run_succ_of_step {n : Nat} {s u : State} (h : step s = .next u) : run (n + 1) s = run n u := by
  simp only [run, h]

/-- As many steps as commands wait in the queue l leave it empty. -/
theorem run_empties_queue (l : List Instr) : ∀ s : State, s.pending = l → ∃ u, run l.length s = .next u ∧ u.pending = [] := by
  induction l with
  | nil => exact fun s hs => ⟨s, rfl, hs⟩
  | cons c rest ih =>
    intro s hs
    obtain ⟨u, hstep, hu⟩ := step_pops_front hs
    obtain ⟨v, hrun, hv⟩ := ih u hu
    exact ⟨v, (run_succ_of_step hstep).trans hrun, hv⟩

/-- Settles O47, by induction on the queue. -/
theorem queueDrains : Obligations.QueueDrains :=
  fun s => run_empties_queue s.pending s rfl

end Sys2Proof.Machine
end

section
/-! SUPPORT. The proof of O32: what an access of the host does, by its width and alignment, and how the halves of a pair are
held and latched (R5, R6). -/
namespace Sys2Proof.Machine

variable {f : Func} {off n : Nat} {s : State}

/-! ## Writes -/

theorem lo32_zeroExtend (v : Word) : BitVec.ofNat 32 (lo32 (v.zeroExtend 64).toNat) = v := by
  apply BitVec.eq_of_toNat_eq
  simp [lo32]
  omega

theorem accessWrite_word (hr : reaches s f off 4 = true) (ha : aligned off 4 = true) (v : Dword) :
    accessWrite f off 4 v s = write32 f off (BitVec.ofNat 32 (lo32 v.toNat)) s := by
  simp [accessWrite, hr, ha]

/-- A write of a half of a pair is a 32-bit write of that half. -/
theorem accessWrite_half (hr : reaches s f off 4 = true) (ha : aligned off 4 = true) (v : Word) :
    accessWrite f off 4 (v.zeroExtend 64) s = write32 f off v s := by
  rw [accessWrite_word hr ha, lo32_zeroExtend]

/-- A 64-bit write outside the write-locked pairs is the write of its low half and then of its high half (R5). -/
theorem accessWrite_dword (hr : reaches s f off 8 = true) (ha : aligned off 8 = true)
    (hl : ¬ (f = .pf ∧ lockedPair off = true)) (v : Dword) :
    accessWrite f off 8 v s =
      write32 f (off + 4) (BitVec.ofNat 32 (hi32 v.toNat)) (write32 f off (BitVec.ofNat 32 (lo32 v.toNat)) s) := by
  simp [accessWrite, hr, ha, hl]

theorem accessWrite_misaligned (ha : aligned off n = false) (f : Func) (v : Dword) (s : State) : accessWrite f off n v s = s := by
  simp [accessWrite, ha]

/-! ## Reads -/

theorem readOut_word (hr : reaches s f off 4 = true) (ha : aligned off 4 = true) :
    readOut f off 4 s = emit (.regRead f (BitVec.ofNat 64 (read32 f off s).1.toNat)) (read32 f off s).2 := by
  simp [readOut, accessRead, hr, ha]

theorem readOut_misaligned (hr : reaches s f off n = true) (ha : aligned off n = false) :
    readOut f off n s = emit (.regRead f 0) s := by
  simp [readOut, accessRead, hr, ha]

/-- A read of the low half of a pair keeps the high half for the next read (R6). -/
theorem readOut_pairLo (hr : reaches s f off 4 = true) (ha : aligned off 4 = true) (hp : pairLo f off = true) :
    readOut f off 4 s = emit (.regRead f (BitVec.ofNat 64 (readWord s f off).toNat)) { s with hi := { s.hi with
      latched := mset s.hi.latched (pairKey (fnNo f) off) (readWord s f (off + 4)) } } := by
  simp [readOut_word hr ha, read32, hp]

/-- A read of the high half of a pair takes the half that was kept for it (R6). -/
theorem readOut_pairHi_latched {v : Word} (hr : reaches s f off 4 = true) (ha : aligned off 4 = true)
    (hl : pairLo f off = false) (hh : pairHi f off = true)
    (hv : mget s.hi.latched (pairKey (fnNo f) (off - 4)) = some v) :
    readOut f off 4 s = emit (.regRead f (BitVec.ofNat 64 v.toNat)) { s with hi := { s.hi with
      latched := mdel s.hi.latched (pairKey (fnNo f) (off - 4)) } } := by
  simp [readOut_word hr ha, read32, hl, hh, hv]

/-! ## The ring bases of a VF -/

theorem aligned_ringBase (r : Nat) : aligned (0x200 + 16 * r) 4 = true := by
  simp [aligned]
  omega

/-- The low half of a ring's base, in the setup page of a context that is not enabled, is held (R6, R280). -/
theorem setupWrite_ringBase {c r : Nat} (hc : c < 512) (hr : r < 18) (he : (ctxOf s c).enable = false) (v : Word) :
    setupWrite c (0x100 + 16 * r) v s = holdLo (fnOf c) (0x200 + 16 * r) v s := by
  have hne : c ≠ adminCtx := by unfold adminCtx; omega
  have hlo : setupLo (0x100 + 16 * r) = true := by simp [setupLo, within]; omega
  have hoff : setupBase c + (0x100 + 16 * r) = 0x200 + 16 * r := by simp only [setupBase, if_neg hne]; omega
  have h0 : 0x100 + 16 * r ≠ 0 := by omega
  have h4 : 0x100 + 16 * r ≠ 4 := by omega
  simp only [setupWrite, setupGuard, if_neg h0, if_neg h4, hlo, he, hoff, if_true, Bool.false_eq_true, if_false]

theorem write32_ringBase {c r : Nat} (hc : c < 512) (hr : r < 18) (he : (ctxOf s c).enable = false) (v : Word) :
    write32 (.vf c) (0x200 + 16 * r) v s = holdLo (fnOf c) (0x200 + 16 * r) v s := by
  have hpage : within (0x200 + 16 * r) 0x100 0x220 = true := by simp [within]; omega
  have hrel : 0x200 + 16 * r - 0x100 = 0x100 + 16 * r := by omega
  simp only [write32, hpage, hrel, if_true, setupWrite_ringBase hc hr he]

end Sys2Proof.Machine

namespace Sys2Proof.Machine

/-- Settles O32: each access is the one that the lemmas above give for its width and alignment, on the state after the tick. -/
theorem accessesReachTheirRegisters : Obligations.AccessesReachTheirRegisters := by
  refine ⟨?word, ?dword, ?half, ?ringBase, ?readLo, ?readHi, ?misaligned⟩
  case word =>
    intro t f off v s hr ha
    exact congrArg Host.Outcome.next (accessWrite_word hr ha v)
  case dword =>
    intro t f off v s hr ha hl
    exact congrArg Host.Outcome.next (accessWrite_dword hr ha hl v)
  case half =>
    intro t f off v s hr ha
    exact ⟨congrArg Host.Outcome.next (accessWrite_half hr ha v), congrArg Host.Outcome.next (accessWrite_half hr ha v)⟩
  case ringBase =>
    intro t c r v s hc hreach hr he
    have he' : (ctxOf (tick t s) c).enable = false := he
    have hw := accessWrite_half hreach (aligned_ringBase r) v
    rw [write32_ringBase hc hr he'] at hw
    exact congrArg Host.Outcome.next hw
  case readLo =>
    intro t f off s hr ha hp
    exact congrArg Host.Outcome.next (readOut_pairLo hr ha hp)
  case readHi =>
    intro t f off s v hr ha hl hh hv
    exact congrArg Host.Outcome.next (readOut_pairHi_latched hr ha hl hh hv)
  case misaligned =>
    intro t f off n v s ha
    exact ⟨congrArg Host.Outcome.next (accessWrite_misaligned ha f v _),
      fun hr => congrArg Host.Outcome.next (readOut_misaligned hr ha)⟩

end Sys2Proof.Machine
end

section
/-! SUPPORT. The proof of O56: the records written to a ring and the room kept for them (R284, R299, R302), and the bytes of what
the device writes and sends (R4). -/
namespace Sys2Proof.Machine

/-! ## What a context's entry says of the records it owes -/

/-- The parts of a context's entry on which the records it owes rest: its presence, WRITTEN, RESERVED and a reset under way. -/
def recordBooks (x : Ctx) : Bool × NMap Nat × NMap Nat × Bool := (x.present, x.written, x.reserved, x.resetBusy)

/-- A change of a context that keeps its books keeps those of every context. -/
theorem recordBooks_modCtx {f : Ctx → Ctx} (d : Nat) (s : State) (c : Nat)
    (hf : ∀ x, recordBooks (f x) = recordBooks x := by exact fun _ => rfl) :
    recordBooks (ctxOf (modCtx d f s) c) = recordBooks (ctxOf s c) := by
  by_cases h : c = d
  · subst h
    cases hm : mget s.ctxs c <;> simp [ctxOf, modCtx, mgetD, hm, hf]
  · rw [ctxOf_modCtx_ne _ _ _ _ h]

theorem recordBooks_countPage (d i n : Nat) (s : State) (c : Nat) :
    recordBooks (ctxOf (countPage d i n s) c) = recordBooks (ctxOf s c) :=
  recordBooks_modCtx d s c

theorem recordBooks_countHostWr (d job layer op n : Nat) (s : State) (c : Nat) :
    recordBooks (ctxOf (countHostWr d job layer op n s) c) = recordBooks (ctxOf s c) :=
  recordBooks_modCtx d s c

theorem recordBooks_countFinal (d : Nat) (st : Status) (flags : Nat) (s : State) (c : Nat) :
    recordBooks (ctxOf (countFinal d st flags s) c) = recordBooks (ctxOf s c) := by
  simp only [countFinal, recordBooks_countPage]
  repeat' split
  all_goals simp only [recordBooks_countPage]

theorem ctxOf_signalVector (d v : Nat) (s : State) (c : Nat) : ctxOf (signalVector d v s) c = ctxOf s c := by
  simp [ctxOf]

theorem recordBooks_signalRing (d r : Nat) (s : State) (c : Nat) :
    recordBooks (ctxOf (signalRing d r s) c) = recordBooks (ctxOf s c) := by
  rw [signalRing, ctxOf_signalVector]
  exact recordBooks_modCtx d s c

theorem recordBooks_afterRecord (d r : Nat) (irq : Bool) (s : State) (c : Nat) :
    recordBooks (ctxOf (afterRecord d r irq s) c) = recordBooks (ctxOf s c) := by
  unfold afterRecord
  dsimp only
  split
  · rw [recordBooks_signalRing]
    exact recordBooks_modCtx d s c
  · exact recordBooks_modCtx d s c

/-! ## A record at the next entry of its ring -/

theorem mem_out_signalVector {o : Output} {s : State} (h : o ∈ s.out) (c v : Nat) : o ∈ (signalVector c v s).out := by
  unfold signalVector
  dsimp only
  split
  · exact h
  · exact List.mem_cons_of_mem _ h

/-- What was sent before a record's interrupt stays sent. -/
theorem mem_out_afterRecord {o : Output} {s : State} (h : o ∈ s.out) (c r : Nat) (irq : Bool) : o ∈ (afterRecord c r irq s).out := by
  unfold afterRecord
  dsimp only
  split
  · exact mem_out_signalVector (by simpa using h) _ _
  · simpa using h

section
variable {c r : Nat} {s : State}

/-- On a ring that is there and not in error, a record goes to the next entry, with the phase of that entry (R282, R299). -/
theorem putRec_writes (hc : ctxHere s c = true) (ht : ringThere (ctxOf s c) r = true) (he : r ∉ (ctxOf s c).ringErr)
    (mk : Nat → Bool → CompRec) (irq : Bool) :
    putRec c r mk irq s = afterRecord c r irq (emit (.record (mk (mgetD (ctxOf s c).written r 0)
        (phaseOf (mgetD (ctxOf s c).written r 0) (mgetD (ctxOf s c).rings r {}).sizeLog2)))
      (countHostWr c 0 0 0 32
        (modCtx c (fun x => { x with written := mset x.written r (mgetD (ctxOf s c).written r 0 + 1) }) s))) := by
  have hp : (ctxOf s c).present = true := hc
  simp [putRec, hp, ht, he]

theorem mem_out_putRec (hc : ctxHere s c = true) (ht : ringThere (ctxOf s c) r = true) (he : r ∉ (ctxOf s c).ringErr)
    (mk : Nat → Bool → CompRec) (irq : Bool) :
    .record (mk (mgetD (ctxOf s c).written r 0) (phaseOf (mgetD (ctxOf s c).written r 0) (mgetD (ctxOf s c).rings r {}).sizeLog2))
      ∈ (putRec c r mk irq s).out := by
  rw [putRec_writes hc ht he]
  exact mem_out_afterRecord List.mem_cons_self _ _ _

/-- Of the books, a record written changes WRITTEN only, by one. -/
theorem recordBooks_putRec (hc : ctxHere s c = true) (ht : ringThere (ctxOf s c) r = true) (he : r ∉ (ctxOf s c).ringErr)
    (mk : Nat → Bool → CompRec) (irq : Bool) :
    recordBooks (ctxOf (putRec c r mk irq s) c) =
      recordBooks { ctxOf s c with written := mset (ctxOf s c).written r (mgetD (ctxOf s c).written r 0 + 1) } := by
  rw [putRec_writes hc ht he, recordBooks_afterRecord, ctxOf_emit, recordBooks_countHostWr,
    ctxOf_modCtx_self _ _ _ (isSome_of_ctxHere hc)]

/-- Room given back while no reset is under way lowers RESERVED of the ring and changes no other field (R284). -/
theorem ctxOf_releaseRoom (hc : ctxHere s c = true) (hb : (ctxOf s c).resetBusy = false) (r n : Nat) :
    ctxOf (releaseRoom c r n s) c =
      { ctxOf s c with reserved := mset (ctxOf s c).reserved r (mgetD (ctxOf s c).reserved r 0 - n) } := by
  have hs := isSome_of_ctxHere hc
  have hs' : ∀ f, (mget (modCtx c f s).ctxs c).isSome = true := fun f => by simp [modCtx, hs]
  simp [releaseRoom, settleReset, hs, hs', hb]

end

/-! ## FINAL and EVENT records -/

/-- The FINAL record of command d, as entry n of its ring with phase p. -/
def finalRec (d : Cmd) (st : Status) (info value : Nat) (s : State) (n : Nat) (p : Bool) : CompRec :=
  { ctx := d.ctx, ring := d.ring, n := n, phase := p, kind := .final, reqId := d.reqId,
    status := st, flags := 0, info := info, value := value, time := s.time }

/-- A FINAL is its record, what it counts and the room given back. -/
theorem final_eq (d : Cmd) (st : Status) (info value : Nat) (s : State) :
    final d st info value s =
      releaseRoom d.ctx d.ring 1 (countFinal d.ctx st 0 (putRec d.ctx d.ring (finalRec d st info value s) d.irq s)) := by
  have hi : (d.irq && (RecKind.final == .final || RecKind.final == .decline)) = d.irq := Bool.and_true _
  simp only [final, owedRec, if_true, hi]
  rfl

section
variable {d : Cmd} {s : State} (hc : ctxHere s d.ctx = true) (ht : ringThere (ctxOf s d.ctx) d.ring = true)
  (he : d.ring ∉ (ctxOf s d.ctx).ringErr)
include hc ht he

/-- The FINAL record of a command is sent, as the next entry of its ring. -/
theorem finalRec_mem_out_final (st : Status) (info value : Nat) :
    .record (finalRec d st info value s (mgetD (ctxOf s d.ctx).written d.ring 0)
      (phaseOf (mgetD (ctxOf s d.ctx).written d.ring 0) (mgetD (ctxOf s d.ctx).rings d.ring {}).sizeLog2))
      ∈ (final d st info value s).out := by
  simp only [final_eq, releaseRoom_frame, countFinal_frame]
  exact mem_out_putRec hc ht he _ _

/-- A FINAL record counts as written and gives back the room that was reserved for it (R284, R299). -/
theorem final_moves_counts (hb : (ctxOf s d.ctx).resetBusy = false) (st : Status) (info value : Nat) :
    mgetD (ctxOf (final d st info value s) d.ctx).written d.ring 0 = mgetD (ctxOf s d.ctx).written d.ring 0 + 1 ∧
    mgetD (ctxOf (final d st info value s) d.ctx).reserved d.ring 0 = mgetD (ctxOf s d.ctx).reserved d.ring 0 - 1 := by
  have hbooks := (recordBooks_countFinal d.ctx st 0 _ d.ctx).trans (recordBooks_putRec hc ht he (finalRec d st info value s) d.irq)
  simp only [recordBooks, Prod.mk.injEq] at hbooks
  obtain ⟨hpresent, hwritten, hreserved, hbusy⟩ := hbooks
  rw [final_eq, ctxOf_releaseRoom (hpresent.trans hc) (hbusy.trans hb)]
  exact ⟨by rw [hwritten, mgetD_mset_self], by rw [mgetD_mset_self, hreserved]⟩

end

/-- An event with no room beyond the reservations is counted and not written (R302). -/
theorem eventRec_without_room {c : Nat} {s : State} (hc : ctxHere s c = true) (hr : ringRoom (ctxOf s c) 9 = 0)
    (code info value : Nat) :
    eventRec c code info value s = modCtx c (fun x => { x with eventLoss := sat 16 (x.eventLoss + 1) }) s := by
  have hp : (ctxOf s c).present = true := hc
  simp [eventRec, hp, hr]

/-- An event with room is a record on ring 9 (R302). -/
theorem eventRec_with_room {c : Nat} {s : State} (hc : ctxHere s c = true) (hr : ringRoom (ctxOf s c) 9 ≠ 0)
    (code info value : Nat) :
    eventRec c code info value s = putRec c 9 (fun n p => {
      ctx := c, ring := 9, n := n, phase := p, kind := .event, reqId := 0, status := .complete,
      code := code, info := info, value := value, time := s.time }) false s := by
  have hp : (ctxOf s c).present = true := hc
  simp [eventRec, hp, hr]

/-! ## The bytes of what is written -/

@[simp] theorem length_leBytes (v n : Nat) : (leBytes v n).length = n := by
  induction n generalizing v with
  | zero => rfl
  | succ n ih => simp [leBytes, ih]

@[simp] theorem drop_leBytes (v : Nat) {n k : Nat} (h : n ≤ k) : (leBytes v n).drop k = [] := by
  simp [h]

theorem length_compBytes (r : CompRec) : (compBytes r).length = 32 := by simp [compBytes]

theorem compBytes_reqId (r : CompRec) : (compBytes r).take 8 = leBytes r.reqId 8 := by simp [compBytes]

theorem compBytes_code (r : CompRec) :
    ((compBytes r).drop 8).take 1 = leBytes (if r.kind = .event then r.code else statusCode r.status) 1 := by
  simp [compBytes]

theorem compBytes_info (r : CompRec) : ((compBytes r).drop 12).take 4 = leBytes r.info 4 := by
  simp [compBytes, List.drop_append]

theorem compBytes_value (r : CompRec) : ((compBytes r).drop 16).take 8 = leBytes r.value 8 := by
  simp [compBytes, List.drop_append]

theorem compBytes_time (r : CompRec) : (compBytes r).drop 24 = leBytes r.time 8 := by
  simp [compBytes, List.drop_append]

theorem length_tokBytes (k : TokRec) : (tokBytes k).length = 16 := by simp [tokBytes]

theorem length_stepBytes (p : StepRec) : (stepBytes p).length = 32 := by simp [stepBytes]

theorem length_statusBytes (c : List Nat) (n : Nat) (e : List Nat) (t : Nat) : (statusBytes c n e t).length = 64 := by
  simp [statusBytes, List.length_flatMap]

/-- The payload of every kind of trace record leaves room for the unused bytes (Table 18.4). -/
theorem length_tracePayload_le (d : TraceKind) : (tracePayload d).length ≤ 48 := by
  cases d <;> simp [tracePayload, length_stepBytes]

theorem length_traceBytes (ph : Bool) (lt ot j t : Nat) (d : TraceKind) : (traceBytes ph lt ot j t d).length = 64 := by
  have hp := length_tracePayload_le d
  simp [traceBytes]
  omega

theorem traceBytes_kind (ph : Bool) (lt ot j t : Nat) (d : TraceKind) :
    (traceBytes ph lt ot j t d).take 1 = leBytes (traceNo d) 1 := by simp [traceBytes]

theorem traceBytes_time (ph : Bool) (lt ot j t : Nat) (d : TraceKind) :
    ((traceBytes ph lt ot j t d).drop 8).take 8 = leBytes t 8 := by simp [traceBytes, List.drop_append]

theorem length_layerBytes (f : List Nat) : (layerBytes f).length = 64 := by simp [layerBytes]

theorem length_exuHead (ty : ExuType) (r : ExuRec) : (exuHead ty r).length = 32 := by simp [exuHead]

theorem exuHead_exchange (ty : ExuType) (r : ExuRec) : ((exuHead ty r).drop 12).take 4 = leBytes r.exchange 4 := by
  simp [exuHead, List.drop_append]

theorem length_pktHead (n : Nat) (p : Pkt) : (pktHead n p).length = 32 := by simp [pktHead]

theorem pktHead_addr (n : Nat) (p : Pkt) : ((pktHead n p).drop 16).take 8 = leBytes (p.addr % 2 ^ 48) 8 := by
  simp [pktHead, List.drop_append]

theorem length_respHead (d vc : Nat) (q : RespPkt) : (respHead d vc q).length = 32 := by simp [respHead]

theorem length_faultBytes (loc : Nat) (f : FabricFault) : (faultBytes loc f).length = 32 := by simp [faultBytes]

/-- Settles O56: the record a FINAL or an EVENT writes and the room it moves, then the layouts, table by table. -/
theorem owedRecordsAreWritten : Obligations.OwedRecordsAreWritten := by
  refine ⟨?final, ?eventLost, ?eventWritten, ?comp, ?host, ?packet⟩
  case final =>
    intro d st info value s hc ht he hb
    exact ⟨⟨_, finalRec_mem_out_final hc ht he st info value, rfl, rfl, rfl, rfl, rfl, rfl, rfl, rfl, rfl, rfl⟩,
      final_moves_counts hc ht he hb st info value⟩
  case eventLost =>
    intro c code info value s hc hr
    rw [eventRec_without_room hc hr, ctxOf_modCtx_self _ _ _ (isSome_of_ctxHere hc)]
    exact ⟨modCtx_out _ _ _, min_comm _ _⟩
  case eventWritten =>
    intro c code info value s hc hr ht he
    rw [eventRec_with_room hc hr]
    exact ⟨_, mem_out_putRec hc ht he _ _, rfl, rfl, rfl, rfl, rfl, rfl⟩
  case comp =>
    exact fun r => ⟨length_compBytes r, compBytes_reqId r, compBytes_code r, compBytes_info r, compBytes_value r, compBytes_time r⟩
  case host =>
    exact fun k p c n e t ph lt ot j d f => ⟨length_tokBytes k, length_stepBytes p, length_statusBytes c n e t,
      length_traceBytes ph lt ot j t d, traceBytes_kind ph lt ot j t d, traceBytes_time ph lt ot j t d, length_layerBytes f⟩
  case packet =>
    exact fun ty r n p d vc q loc f => ⟨length_exuHead ty r, exuHead_exchange ty r, length_pktHead n p, pktHead_addr n p,
      length_respHead d vc q, length_faultBytes loc f⟩

end Sys2Proof.Machine
end

section
/-! SUPPORT. The proof of O53: the one grid in which the islands of the four fields stand (R29, R30). -/
namespace Sys2Proof.Machine

theorem islValid_iff {n : Nat} : islValid n = true ↔ n < 2048 ∧ n / 32 % 16 < 15 ∧ n % 32 < 20 := by
  simp [islValid, and_assoc]

/-- A position's quotients by 20 and 15 give the field, its remainders the place in the field (R30). -/
theorem islAt_nat {x y : Nat} (hx : x < 40) (hy : y < 30) :
    islAt x y = some ((x / 20 + 2 * (y / 15)) * 512 + y % 15 * 32 + x % 20) := by
  have h : 0 ≤ (x : Int) ∧ (x : Int) < 40 ∧ 0 ≤ (y : Int) ∧ (y : Int) < 30 := by omega
  simp [islAt, h]

theorem islAt_eq_none_iff {x y : Int} : islAt x y = none ↔ x < 0 ∨ 40 ≤ x ∨ y < 0 ∨ 30 ≤ y := by
  unfold islAt
  split <;> simp <;> omega

theorem gcol_lt {n : Nat} (h : islValid n = true) : gcol n < 40 := by
  have hv := islValid_iff.1 h
  unfold gcol; omega

theorem grow_lt {n : Nat} (h : islValid n = true) : grow n < 30 := by
  have hv := islValid_iff.1 h
  unfold grow; omega

theorem gcol_of_place {f r c : Nat} (hr : r < 15) (hc : c < 20) : gcol (512 * f + 32 * r + c) = c + 20 * (f % 2) := by
  unfold gcol; omega

theorem grow_of_place {f r c : Nat} (hr : r < 15) (hc : c < 20) : grow (512 * f + 32 * r + c) = r + 15 * (f / 2) := by
  unfold grow; omega

/-- The island at an island's own position is that island. -/
theorem islAt_gcol_grow {n : Nat} (h : islValid n = true) : islAt (gcol n) (grow n) = some n := by
  have hv := islValid_iff.1 h
  rw [islAt_nat (gcol_lt h) (grow_lt h)]
  unfold gcol grow
  congr 1; omega

/-- Every position of the grid holds an island. -/
theorem exists_islAt {x y : Nat} (hx : x < 40) (hy : y < 30) :
    ∃ n, islAt x y = some n ∧ islValid n = true ∧ gcol n = x ∧ grow n = y := by
  have hplace : (x / 20 + 2 * (y / 15)) * 512 + y % 15 * 32 + x % 20 = 512 * (x / 20 + 2 * (y / 15)) + 32 * (y % 15) + x % 20 := by omega
  have hcol := gcol_of_place (f := x / 20 + 2 * (y / 15)) (Nat.mod_lt y (by decide : 0 < 15)) (Nat.mod_lt x (by decide : 0 < 20))
  have hrow := grow_of_place (f := x / 20 + 2 * (y / 15)) (Nat.mod_lt y (by decide : 0 < 15)) (Nat.mod_lt x (by decide : 0 < 20))
  rw [islAt_nat hx hy, hplace]
  exact ⟨_, rfl, islValid_iff.2 (by omega), by omega, by omega⟩

/-- A position holds island m only where it is m's own. -/
theorem islAt_eq_some_iff {x y : Int} {m : Nat} (hm : islValid m = true) :
    islAt x y = some m ↔ (gcol m : Int) = x ∧ (grow m : Int) = y := by
  constructor
  · intro h
    have hin : ¬(x < 0 ∨ 40 ≤ x ∨ y < 0 ∨ 30 ≤ y) := fun ho => by simp [islAt_eq_none_iff.2 ho] at h
    obtain ⟨a, rfl⟩ := Int.eq_ofNat_of_zero_le (a := x) (by omega)
    obtain ⟨b, rfl⟩ := Int.eq_ofNat_of_zero_le (a := y) (by omega)
    obtain ⟨n, hn, -, hcol, hrow⟩ := exists_islAt (x := a) (y := b) (by omega) (by omega)
    obtain rfl : n = m := Option.some.inj (hn.symm.trans h)
    omega
  · rintro ⟨rfl, rfl⟩
    exact islAt_gcol_grow hm

/-! ## The position each port faces -/

theorem neighbour_north (n : Nat) : neighbour n 0 = islAt (gcol n) (grow n - 1) := by simp [neighbour]
theorem neighbour_east (n : Nat) : neighbour n 1 = islAt (gcol n + 1) (grow n) := by simp [neighbour]
theorem neighbour_south (n : Nat) : neighbour n 2 = islAt (gcol n) (grow n + 1) := by simp [neighbour]
theorem neighbour_west (n : Nat) : neighbour n 3 = islAt (gcol n - 1) (grow n) := by simp [neighbour]

/-- Settles O53: a position determines its island, and each port faces the position one row or column away. -/
theorem islandsStandInOneGrid : Obligations.IslandsStandInOneGrid := by
  refine ⟨?place, ?position, ?island, ?faces, ?edge⟩
  case place => exact fun f r c _ hr hc => ⟨gcol_of_place hr hc, grow_of_place hr hc⟩
  case position => exact fun n h => ⟨gcol_lt h, grow_lt h, islAt_gcol_grow h⟩
  case island => exact fun x y hx hy => exists_islAt hx hy
  case faces =>
    intro n m _ hm
    simp only [neighbour_north, neighbour_east, neighbour_south, neighbour_west, islAt_eq_some_iff hm]
    omega
  case edge =>
    intro n h
    have hc := gcol_lt h
    have hr := grow_lt h
    simp only [neighbour_north, neighbour_east, neighbour_south, neighbour_west, islAt_eq_none_iff]
    omega

end Sys2Proof.Machine
end

section
/-! SUPPORT. The proof of O21: what firmware does at the dispatch, the boundary and the watchdog of a step (R47, R76 to R79). -/
namespace Sys2Proof.Machine

/-! ## Dispatch -/

section
variable {p : Nat} {plan : List QStep} {s s1 : State} {t : Nat} {q : Queued} (hs : s1 = markRecompute p (queuePlan plan (tick t s)))
include hs

/-- The eligible step that nothing outranks is dispatched. -/
theorem execStepDispatch_of_first (he : eligible s1 p = some q) (ho : outranked s1 p q = false) (ops : List StepOp) :
    execStepDispatch t p ops plan s = .next (dispatchStep p q ops s1) := by
  subst hs
  simp [execStepDispatch, he, ho]

/-- Where no step is eligible or another plate's goes first, the plan has joined its queues and no step starts. -/
theorem execStepDispatch_of_none (hn : ∀ q, eligible s1 p = some q → outranked s1 p q = true) (ops : List StepOp) :
    execStepDispatch t p ops plan s = .next s1 := by
  subst hs
  cases he : eligible (markRecompute p (queuePlan plan (tick t s))) p with
  | none => simp [execStepDispatch, he]
  | some q => simp [execStepDispatch, he, hn q he]

end

theorem dispatchStep_proof {q : Queued} (hq : q.proof = true) (p : Nat) (ops : List StepOp) (s : State) :
    dispatchStep p q ops s = runProofs p (startStep p q s) := by
  simp [dispatchStep, hq]

/-- A compute step starts once its requests and the sequences of other home chips have their frames: w is its work with the
windows clamped, b what one bucket takes of it. -/
theorem dispatchStep_compute {p : Nat} {q w b : Queued} {s s2 s3 s4 : State} (hq : q.proof = false)
    (hw : w = { q with work := q.work.map (clampWork s) }) (h2 : s2 = ensureWork w.work s)
    (hframes : ∀ k r, k ∈ w.work → workReq s2 k = some r → r.waitingBe = false)
    (h3 : oneBucket p w s2 = (b, s3)) (h4 : headWork p b.work s3 = some s4) (ops : List StepOp) :
    dispatchStep p q ops s = computeStep p b ops s4 := by
  have hwork : q.work.map (clampWork s) = w.work := by rw [hw]
  rw [hq] at hw
  simp only [dispatchStep, hq, Bool.false_eq_true, if_false]
  rw [← hw, hwork, ← h2, if_neg, h3]
  case hnc =>
    rw [Bool.not_eq_true, List.any_eq_false]
    intro k hk
    cases hr : workReq s2 k with
    | none => simp
    | some r => simp [hframes k r hk hr]
  simp only [h4]

/-! ## Boundary and watchdog -/

section
variable {p : Nat} {s : State} {q : Plate} {r : Running} (hp : mget s.fab.plates p = some q) (hr : q.running = some r)
include hp hr

theorem plateOf_running : (plateOf s p).running = some r := by
  simp [plateOf, mgetD, hp, hr]

/-- A step within its limit ends at its boundary, and the plan of the next joins its queues. -/
theorem execStepBoundary_within {t : Nat} (hw : watchdogReached (tick t s) p (max s.time t - r.dispatch) r.proof = false)
    (res : List StepRes) (plan : List QStep) :
    execStepBoundary t p res plan s = .next (queuePlan plan (endStep p r res (tick t s))) := by
  have hw' : watchdogReached (tick t s) p ((tick t s).time - r.dispatch) r.proof = false := hw
  simp only [execStepBoundary, plateOf_tick, plateOf_running hp hr, hw', Bool.false_eq_true, if_false]

/-- A step at its limit is aborted, at its boundary too. -/
theorem execStepBoundary_at_limit {t : Nat} (hw : watchdogReached (tick t s) p (max s.time t - r.dispatch) r.proof = true)
    (res : List StepRes) (plan : List QStep) :
    execStepBoundary t p res plan s = .next (abortStep p r (tick t s)) := by
  have hw' : watchdogReached (tick t s) p ((tick t s).time - r.dispatch) r.proof = true := hw
  simp only [execStepBoundary, plateOf_tick, plateOf_running hp hr, hw', if_true]

theorem execStepWatchdog_at_limit {t : Nat} (hw : watchdogReached (tick t s) p (max s.time t - r.dispatch) r.proof = true) :
    execStepWatchdog t p s = .next (abortStep p r (tick t s)) := by
  have hw' : watchdogReached (tick t s) p ((tick t s).time - r.dispatch) r.proof = true := hw
  simp only [execStepWatchdog, plateOf_tick, plateOf_running hp hr, hw', if_true]

end

/-- Settles O21: the choice of the step, then what its kind does; the boundary and the watchdog by whether the limit is reached. -/
theorem stepsRunAndEnd : Obligations.StepsRunAndEnd := by
  refine ⟨?compute, ?proof, ?none, ?boundary, ?limit⟩
  case compute =>
    intro t p ops plan s s1 s2 s3 s4 q w b hs he ho hq hw h2 hframes h3 h4
    exact (execStepDispatch_of_first hs he ho ops).trans (congrArg Host.Outcome.next (dispatchStep_compute hq hw h2 hframes h3 h4 ops))
  case proof =>
    intro t p ops plan s s1 q hs he ho hq
    exact (execStepDispatch_of_first hs he ho ops).trans (congrArg Host.Outcome.next (dispatchStep_proof hq p ops s1))
  case none => exact fun t p ops plan s s1 hs hn => execStepDispatch_of_none hs hn ops
  case boundary => exact fun t p res plan s q r hp hr hw => execStepBoundary_within hp hr hw res plan
  case limit =>
    exact fun t p s q r hp hr hw => ⟨execStepWatchdog_at_limit hp hr hw, execStepBoundary_at_limit hp hr hw⟩

end Sys2Proof.Machine
end

section
/-! SUPPORT. The proof of O22: Dovetail transfers and calibration, bring-up of an island, and its clock (chapter 2). -/
namespace Sys2Proof.Machine

/-! ## Transfers and arrival counters -/

theorem execDovetailTransfer_uncorrectable {e : Nat} (he : 2 ≤ e) (t n p : Nat) (c : Bool) (x : Xfer) (s : State) :
    execDovetailTransfer t n p c e x s = .next (poisonTransfer n x (tick t s)) := by
  have h0 : e ≠ 0 := by omega
  have h1 : e ≠ 1 := by omega
  simp [execDovetailTransfer, h0, h1]

/-- Bytes of an uncorrectable transfer for this island's banks land as poison, with a Coffer record against the plate's job (R40). -/
theorem poisonTransfer_write {n pl k : Nat} {s : State} {i : PIsl} (hi : (plateOf s pl).isls[k]? = some i) (hn : i.isl = n)
    (a : Nat) (l : List Byte) :
    poisonTransfer n (.write pl k a l) s = poisonBank pl k a l.length (writeBank pl k a l
      (coffer 3 3 .plateError n (jobAt s (plateOf s pl).job).id (jobAt s (plateOf s pl).job).mc 0 s)) := by
  have hc : ∀ ev u j m x, plateOf (coffer 3 3 ev u j m x s) pl = plateOf s pl := fun _ _ _ _ _ => by simp [plateOf]
  simp [poisonTransfer, hc, hi, hn]

theorem execCounterIncrement_eq {n k : Nat} (hn : islValid n = true) (hk : k < 64) (t i : Nat) (s : State) :
    execCounterIncrement t n k i s = .next (addCounter n k i (tick t s)) := by
  simp [execCounterIncrement, hn, hk]

/-! ## Calibration -/

/-- A lane that is due, where both islands have background time left, is billed to both and swept: the tap found sets it, and a sweep
that finds none fails it (R42, R43). -/
theorem execDovetailRecalibration_due {t n p m : Nat} {c tm : Bool} {s : State} (hm : neighbour n p = some m)
    (hdue : tm = true ∨ (mgetD (islOf s n).lanes (laneKey p c) {}).calTime + 60000000000 ≤ max s.time t)
    (hn : bgFits (tick t s) (bgIsl n) 1 = true) (hm' : bgFits (tick t s) (bgIsl m) 1 = true)
    (d : Option Nat) (lh lt fh ft : Bool) :
    execDovetailRecalibration t n p c tm d lh lt fh ft s = .next
      (d.elim (failLane n p m c lh lt fh ft) (fun d => calibrate n p c (min d 127))
        (bgBill (bgIsl m) Config.calibNs (bgBill (bgIsl n) Config.calibNs (tick t s)))) := by
  have hd : (tm || decide ((mgetD (islOf (tick t s) n).lanes (laneKey p c) {}).calTime + 60000000000 ≤ (tick t s).time)) = true := by
    rw [Bool.or_eq_true, decide_eq_true_iff]
    exact hdue
  cases d <;> simp only [execDovetailRecalibration, hm, hd, hn, hm', Bool.and_self, if_true, Option.elim]

/-- Without background time left the lane waits (R27, R28). -/
theorem execDovetailRecalibration_deferred {t n : Nat} {s : State} (hn : bgFits (tick t s) (bgIsl n) 1 = false)
    (p : Nat) (c tm : Bool) (d : Option Nat) (lh lt fh ft : Bool) :
    execDovetailRecalibration t n p c tm d lh lt fh ft s = .next (tick t s) := by
  cases hm : neighbour n p <;> simp [execDovetailRecalibration, hm, hn]

/-! ## Bring-up -/

section
variable {t n : Nat} {s : State} (hv : islValid n = true) (hf : fenced (tick t s) n = false) (hl : n ∉ s.td.fences)
  (hp : platesOn (tick t s) n = [])
include hv hf hl hp

/-- With the beacon, an island that may be brought up is, and it is fenced where its self-test fails (R50). -/
theorem execIslandBringUp_beacon (hb : s.fab.beaconOk = true) (sw : List LaneSweep) (passed fw : Bool) :
    execIslandBringUp t n sw passed fw s = .next (if passed || fenced (bringUp n sw (tick t s)) n then bringUp n sw (tick t s)
      else fence n fw (bringUp n sw (tick t s))) := by
  have hl' : s.td.fences.contains n = false := by simpa using hl
  simp only [execIslandBringUp, hv, hf, hl', hp, hb, tick_td, tick_fab, Bool.not_true, Bool.or_false, List.isEmpty_nil, Bool.false_eq_true, if_false]

/-- Without the beacon it does not leave reset (R34). -/
theorem execIslandBringUp_no_beacon (hb : s.fab.beaconOk = false) (sw : List LaneSweep) (passed fw : Bool) :
    execIslandBringUp t n sw passed fw s =
      .next (beaconFault (modIsl n (fun x => { x with state := 3, fllLock := false, freqCode := 0 }) (tick t s))) := by
  have hl' : s.td.fences.contains n = false := by simpa using hl
  simp only [execIslandBringUp, hv, hf, hl', hp, hb, tick_td, tick_fab, Bool.not_true, Bool.not_false, Bool.or_false, List.isEmpty_nil,
    Bool.false_eq_true, if_false, if_true]

end

theorem execIslandBringUpTimeout_eq {t n : Nat} {s : State} (hv : islValid n = true) (hf : fenced (tick t s) n = false)
    (k : Nat) (fw : Bool) :
    execIslandBringUpTimeout t n k fw s = .next (fence n fw (coffer 3 3 .bringUpTimeout n 0 0 k (tick t s))) := by
  simp only [execIslandBringUpTimeout, hv, hf, Bool.not_false, Bool.and_self, if_true]

/-! ## The clock of an island -/

theorem execFllLock_eq {t n : Nat} {s : State} (hb : s.fab.beaconOk = true) (hf : fenced (tick t s) n = false) :
    execFllLock t n s = .next (applyCodes false (modIsl n (fun x => { x with fllLock := true }) (tick t s))) := by
  simp only [execFllLock, tick_fab, hb, hf, Bool.not_false, Bool.and_self, if_true]

theorem execDroopRelease_eq {n : Nat} {s : State} (hv : islValid n = true) (hs : (islOf s n).stretched = true) (t d : Nat) :
    execDroopRelease t n d s = .next (countGlobal 67 d
      (modField (fieldOf n) (fun f => { f with droopNs := f.droopNs + d }) (modIsl n (fun x => { x with stretched := false }) (tick t s)))) := by
  simp only [execDroopRelease, hv, islOf_tick, hs, Bool.and_self, if_true]

theorem execBeaconReturn_eq {s : State} (hb : s.fab.beaconOk = false) (t : Nat) :
    execBeaconReturn t s = .next (applyCodes false
      { tick t s with fab := { s.fab with beaconOk := true }, pw := { s.pw with oscRdy := true } }) := by
  simp only [execBeaconReturn, tick_fab, tick_pw, hb, Bool.false_eq_true, if_false]

/-- The advisory that is raised stands in the set of those not acknowledged (R433). -/
theorem mem_advisory_advise (cause unit : Nat) (s : State) : cause ∈ (advise cause unit s).td.advisory := by
  have h : (advise cause unit s).td.advisory = if s.td.advisory.contains cause then s.td.advisory else cause :: s.td.advisory := rfl
  rw [h]
  split
  · simpa using ‹s.td.advisory.contains cause = true›
  · exact List.mem_cons_self

/-- Loss of the beacon drops every lock and raises the advisory, and changes nothing of the device beyond (R34). -/
theorem beaconLost_drops_locks (t : Nat) (s : State) : Answers (.beaconLost t) s (fun u =>
    u.fab.beaconOk = false ∧ (∀ e ∈ u.fab.isl, e.2.fllLock = false) ∧ u.pw.oscRdy = false ∧ 1 ∈ u.td.advisory ∧
    changesOnly [.time, .fab, .pw, .td, .out] s u) := by
  refine ⟨_, rfl, rfl, ?locks, rfl, mem_advisory_advise _ _ _, ?rest⟩
  case locks =>
    intro e he
    obtain ⟨x, -, rfl⟩ := List.mem_map.1 he
    rfl
  case rest =>
    intro piece hp
    cases piece with
    | time | fab | pw | td | out => simp at hp
    | _ => rfl

/-- Settles O22, event by event, each by the lemma on it above. -/
theorem islandsAndDovetailsRespond : Obligations.IslandsAndDovetailsRespond := by
  refine ⟨?clean, ?corrected, ?poisoned, ?poisonLands, ?counter, ?calibrated, ?laneFails, ?deferred, ?broughtUp, ?selfTestFails, ?noBeacon,
    ?timeout, ?locks, ?droop, ?droopEnds, ?beaconLost, ?beaconReturns⟩
  case clean => exact fun _ _ _ _ _ _ => rfl
  case corrected => exact fun _ _ _ _ _ _ => rfl
  case poisoned => exact fun t n p c e x s he => execDovetailTransfer_uncorrectable he t n p c x s
  case poisonLands =>
    intro t n p c e pl k a l s i he hi hn
    exact (execDovetailTransfer_uncorrectable he t n p c _ s).trans
      (congrArg Host.Outcome.next (poisonTransfer_write (s := tick t s) hi hn a l))
  case counter => exact fun t n k i s hn hk => execCounterIncrement_eq hn hk t i s
  case calibrated =>
    exact fun t n p c d lh lt fh ft s m hm hn hm' => execDovetailRecalibration_due hm (.inl rfl) hn hm' (some d) lh lt fh ft
  case laneFails =>
    exact fun t n p c lh lt fh ft s m hm hdue hn hm' => execDovetailRecalibration_due hm (.inr hdue) hn hm' none lh lt fh ft
  case deferred => exact fun t n p c tm d lh lt fh ft s hn => execDovetailRecalibration_deferred hn p c tm d lh lt fh ft
  case broughtUp =>
    intro t n sw fw s hv hf hl hp hb
    exact (execIslandBringUp_beacon hv hf hl hp hb sw true fw).trans (by rw [Bool.true_or, if_pos rfl])
  case selfTestFails =>
    intro t n sw fw s hv hf hl hp hb hup
    exact (execIslandBringUp_beacon hv hf hl hp hb sw false fw).trans (by rw [Bool.false_or, hup, if_neg Bool.false_ne_true])
  case noBeacon => exact fun t n sw passed fw s hv hf hl hp hb => execIslandBringUp_no_beacon hv hf hl hp hb sw passed fw
  case timeout => exact fun t n k fw s hv hf => execIslandBringUpTimeout_eq hv hf k fw
  case locks => exact fun t n s hb hf => execFllLock_eq hb hf
  case droop => exact fun _ _ _ => rfl
  case droopEnds => exact fun t n d s hv hs => execDroopRelease_eq hv hs t d
  case beaconLost => exact beaconLost_drops_locks
  case beaconReturns => exact fun t s hb => execBeaconReturn_eq hb t

end Sys2Proof.Machine
end

section
/-! SUPPORT. The proof of O11: the life of a plate from its load to its removal (R73 to R75, Table 3.10). -/
namespace Sys2Proof.Machine

/-! ## The load begins, and its image is verified -/

/-- A PLATE_LOAD that every check passes begins its long operation and reads the image (R73). -/
theorem execPlateLoad_begins {t : Nat} {h : Hdr} {s s1 : State} (hb : BeginsTwo t h s s1)
    (hshape : shapeCheck s1 h { rings := [2], job := true } false = none) (hjob : jobCheck s1 h = none)
    (hpower : s1.pw.pending = false) (htorn : (jobAt s1 (jobIdx h.job)).torn = false) (addr size : Nat) :
    execPlateLoad t h addr size s = .next (endPoll (readHost h.ctx addr size h.job h.layerTag h.opTag
      (beginOp h (.plateLoad (jobIdx h.job) addr size 64) 0x10 s1))) := by
  simp [execPlateLoad, command2_of_begins hb, hshape, hjob, powerCheck, hpower, htorn]

/-- An object that passes the three stages of R489 is not refused. -/
theorem objectCheck_eq_none {s : State} {envelope signed : Bool} {signer lo hi : Nat} {contents : Option Status}
    (he : envelope = true) (hk : slotOk s signer lo hi = true) (hs : signed = true) (hc : contents = none) :
    objectCheck s envelope signer lo hi signed contents = none := by
  simp [objectCheck, he, hk, hs, hc]

section
variable {t op i size p : Nat} {s : State} (hl : loadOf (tick t s) op = some (i, size, p, 0x10))
include hl

/-- An image that no stage refuses is placed. -/
theorem execPlateLoadVerified_places {m : PlateImage}
    (hc : objectCheck (tick t s) (m.magicOk && m.format == 1 && m.size == size && imageSizeOk size) m.signer 3 7
      (m.digestOk && m.sigOk) (imageContents (tick t s) i m) = none) :
    execPlateLoadVerified t op (some m) s = .next (placePlate op i m (tick t s)) := by
  simp only [execPlateLoadVerified, hl, hc, ne_eq, not_true_eq_false, if_false]

/-- A failed read of the image ends the load with MALFORMED_DESCRIPTOR. -/
theorem execPlateLoadVerified_unread : execPlateLoadVerified t op none s = .next (endOp op .malformed 0 (tick t s)) := by
  simp only [execPlateLoadVerified, hl, ne_eq, not_true_eq_false, if_false]

end

/-! ## The islands are written (R74) -/

/-- Island n of plate p has acknowledged. -/
def markAcked (n p : Nat) (s : State) : State :=
  modPlate p (fun q => { q with isls := q.isls.map (fun x => if x.isl == n then { x with acked := true } else x) }) s

/-- The load counts the islands that have acknowledged, and waits to be made resident once all have. -/
def countAcked (op p : Nat) (s : State) : State :=
  modOp op (fun o => { o with progress := acked (plateOf s p), code := if acked (plateOf s p) = (plateOf s p).isls.length then 0x13 else o.code }) s

/-- Island n of plate p has been asked a second time. -/
def markRetried (n p : Nat) (s : State) : State :=
  modPlate p (fun q => { q with isls := q.isls.map (fun y => if y.isl == n then { y with retried := true } else y) }) s

section
variable {t op n i size p : Nat} {s : State} (hl : loadOf (tick t s) op = some (i, size, p, 0x12))
include hl

section
variable (hw : (plateOf s p).isls.any (fun x => x.isl == n && !x.acked) = true) (hb : islBusy s n = false)
include hw hb

/-- An island that had not acknowledged does, between steps of other plates: it is billed and counted. -/
theorem execIslandConfigAck_counts (hi : lostIsland (tick t s) p = false) :
    execIslandConfigAck t op n s = .next (countAcked op p (markAcked n p (billWrite op i n (tick t s)))) := by
  simp only [execIslandConfigAck, hl, plateOf_tick, hw, islBusy_tick, hb, hi, ne_eq, not_true_eq_false, decide_false, Bool.not_true,
    Bool.or_self, Bool.false_eq_true, if_false]
  rfl

/-- Where the plate has lost an island, the load returns to its placement (R51). -/
theorem execIslandConfigAck_replaces (hi : lostIsland (tick t s) p = true) :
    execIslandConfigAck t op n s = .next (replacePlate op i p (tick t s)) := by
  simp only [execIslandConfigAck, hl, plateOf_tick, hw, islBusy_tick, hb, hi, ne_eq, not_true_eq_false, decide_false, Bool.not_true,
    Bool.or_self, Bool.false_eq_true, if_false, if_true]

end

section
variable {x : PIsl} (hf : (plateOf s p).isls.find? (fun x => x.isl == n && !x.acked) = some x) (hi : lostIsland (tick t s) p = false)
include hf hi

/-- An island that is silent for the first time is asked once more. -/
theorem execIslandConfigTimeout_retries (hr : x.retried = false) (passed fwd : Bool) :
    execIslandConfigTimeout t op n passed fwd s = .next (markRetried n p (billWrite op i n (tick t s))) := by
  simp only [execIslandConfigTimeout, hl, plateOf_tick, hf, hi, hr, ne_eq, not_true_eq_false, Bool.not_false, Bool.true_or,
    Bool.false_eq_true, if_false, if_true]
  rfl

/-- One that is silent again and fails its self-test is fenced, and the load returns to its placement without it. -/
theorem execIslandConfigTimeout_fences {fwd : Bool} {s1 : State} (hr : x.retried = true)
    (h1 : s1 = fence n fwd (coffer 3 3 .configTimeout n (jobAt s i).id 0 0 (billWrite op i n (tick t s))))
    (ho : (mget s1.ops.live op).isSome = true) :
    execIslandConfigTimeout t op n false fwd s = .next (replacePlate op i p s1) := by
  have hlive : (mget s1.ops.live op).isNone = false := by
    rw [Option.isNone_eq_false_iff, ho]
  subst h1
  simp only [execIslandConfigTimeout, hl, plateOf_tick, jobAt_tick, hf, hi, hr, hlive, ne_eq, not_true_eq_false, Bool.not_true,
    Bool.or_self, Bool.false_eq_true, if_false]

end

end

/-! ## The plate becomes resident -/

/-- The operation completes with the plate's number, and the log of plates holds the image's digest and the job (R407). -/
theorem makeResident_completes (op i p : Nat) (s : State) : ∃ v, makeResident op i p s = endOp op .complete p v ∧
    v.sec.plateLog = extendLog [(plateOf s p).image.digest.toNat, (jobAt s i).id] s.sec.plateLog :=
  ⟨_, rfl, by simp⟩

theorem execPlateResident_eq {t op i size p : Nat} {s : State} (hl : loadOf (tick t s) op = some (i, size, p, 0x13))
    (hi : lostIsland (tick t s) p = false) (ht : tablesStand (tick t s) i (plateOf s p).image = none) :
    execPlateResident t op s = .next (makeResident op i p (tick t s)) := by
  simp only [execPlateResident, hl, hi, plateOf_tick, ht, ne_eq, not_true_eq_false, Bool.false_eq_true, if_false]

/-! ## The plate drains and is removed (R75) -/

/-- A change of a plate changes the fabric alone, and not the bytes of the islands. -/
theorem changesOnly_modPlate (p : Nat) (f : Plate → Plate) (s : State) : changesOnly [.fab] s (modPlate p f s) := by
  intro piece hp
  cases piece with
  | fab => simp at hp
  | _ => rfl

/-- Plate p drains, and command d waits for its removal. -/
def drainPlate (d : Cmd) (p : Nat) (s : State) : State :=
  modPlate p (fun q => { q with state := 3, unloads := q.unloads ++ [d] }) s

/-- PLATE_UNLOAD of a resident plate of the command's job drains it. -/
theorem execPlateUnload_drains {t : Nat} {h : Hdr} {p : Nat} {s s1 : State} {q : Plate} (hb : Begins t h s s1)
    (hshape : shapeCheck s1 h { rings := [2], job := true } false = none) (hjob : jobCheck s1 h = none)
    (hq : mget s1.fab.plates p = some q) (hst : q.state = 2) (hown : q.job = jobIdx h.job) :
    execPlateUnload t h p s = .next (endPoll (drainPlate (cmdOf h) p s1)) := by
  have hp : plateOf s1 p = q := by simp [plateOf, mgetD, hq]
  simp [execPlateUnload, command_of_begins hb, hshape, hjob, hp, hst, hown, drainPlate]

/-- A DRAINING plate between steps, with no proof step left and no request that needs it, goes. -/
theorem execPlateRemoval_removes {t p : Nat} {s : State} {q : Plate} (hq : mget s.fab.plates p = some q) (hst : q.state = 3)
    (hrun : q.running = none) (hproof : q.queue.any (·.proof) = false) (hneed : plateNeeded (tick t s) p = false) :
    execPlateRemoval t p s = .next (settleJob false q.job (settleAnswers (removePlate false p .complete (tick t s)))) := by
  have hp : plateOf (tick t s) p = q := by simp [plateOf, mgetD, hq]
  simp only [execPlateRemoval, hp, hst, hrun, hproof, hneed, Option.isNone_none, Bool.not_false, Bool.and_self, decide_true, if_true]

/-- Settles O11, phase by phase of the load and the unload, each by the lemma on it above. -/
theorem platesLoadAndUnload : Obligations.PlatesLoadAndUnload := by
  refine ⟨?begins, ?placed, ?unread, ?acked, ?retried, ?fenced, ?replaced, ?resident, ?unload, ?removal⟩
  case begins =>
    exact fun t h addr size s s1 hb hshape hjob hpower htorn => execPlateLoad_begins hb hshape hjob hpower htorn addr size
  case placed =>
    intro t op s i size p m hl hmagic hformat hsize himage hslot hdigest hsig hc
    exact execPlateLoadVerified_places hl
      (objectCheck_eq_none (by simp [hmagic, hformat, hsize, himage]) hslot (by simp [hdigest, hsig]) hc)
  case unread => exact fun t op s i size p hl => execPlateLoadVerified_unread hl
  case acked =>
    rintro t op n s i size p s1 hl hw hb hi rfl
    exact execIslandConfigAck_counts hl hw hb hi
  case retried => exact fun t op n passed fwd s i size p x hl hf hi hr => execIslandConfigTimeout_retries hl hf hi hr passed fwd
  case fenced => exact fun t op n fwd s i size p x s1 hl hf hi hr h1 ho => execIslandConfigTimeout_fences hl hf hi hr h1 ho
  case replaced => exact fun t op n s i size p hl hw hb hi => execIslandConfigAck_replaces hl hw hb hi
  case resident =>
    intro t op s i size p hl hi ht
    obtain ⟨v, hv, hlog⟩ := makeResident_completes op i p (tick t s)
    exact ⟨v, (execPlateResident_eq hl hi ht).trans (congrArg Host.Outcome.next hv), hlog⟩
  case unload =>
    intro t h p s s1 q hb hshape hjob hq hst hown
    exact ⟨_, execPlateUnload_drains hb hshape hjob hq hst hown, by simp [drainPlate, modPlate, hq],
      fun k hk => mget_mmod_ne _ _ _ _ hk, changesOnly_modPlate _ _ _⟩
  case removal => exact fun t p s q hq hst hrun hproof hneed => execPlateRemoval_removes hq hst hrun hproof hneed

end Sys2Proof.Machine
end

section
/-! SUPPORT. The proof of O17: lines that fail their check, frames under test or restoration, and subchannels that do not retrain
(R98, R100, R200, R248, R424, R455, R458). -/
namespace Sys2Proof.Machine

/-! ## Changes of parts of the state, one after another -/

theorem changesOnly_refl (l : List Piece) (s : State) : changesOnly l s s := by
  intro p _
  cases p <;> rfl

/-- A further change of parts in l leaves the change within l. -/
theorem changesOnly.trans {l l' : List Piece} {s u v : State} (h : changesOnly l s u) (h' : changesOnly l' u v)
    (hl : l' ⊆ l := by simp) : changesOnly l s v := by
  intro p hp
  have hsu := h p hp
  have huv := h' p (fun hm => hp (hl hm))
  cases p <;> exact huv.trans hsu

theorem changesOnly_tick {t : Nat} {s : State} : changesOnly [.time] s (tick t s) := by
  intro p hp
  cases p with
  | time => simp at hp
  | _ => rfl

/-- What a command does after its tick changes time besides. -/
theorem changesOnly_tick_trans {l l' : List Piece} {t : Nat} {s u : State} (h : changesOnly l' (tick t s) u)
    (ht : .time ∈ l := by simp) (hl : l' ⊆ l := by simp) : changesOnly l s u :=
  ((changesOnly_refl l s).trans changesOnly_tick (by simpa using ht)).trans h hl

/-- A change of the memory's books leaves its bytes as they are. -/
theorem changesOnly.setMem {l : List Piece} {m : MemSys} {s u : State} (h : changesOnly l s u) (hm : m.dram = u.mem.dram)
    (hl : .mem ∈ l := by simp) : changesOnly l s { u with mem := m } := by
  refine h.trans (l' := [.mem]) ?_ (by simpa using hl)
  intro p hp
  cases p with
  | mem => simp at hp
  | dram => exact hm
  | _ => rfl

theorem changesOnly.countSub {n : Nat} {f : Nat × Nat × Nat → Nat × Nat × Nat} {l : List Piece} {s u : State}
    (h : changesOnly l s u) (hl : .mem ∈ l := by simp) : changesOnly l s (countSub n f u) :=
  h.setMem rfl hl

theorem changesOnly.coffer {source severity unit job mc addr : Nat} {ev : CofferEvent} {l : List Piece} {s u : State}
    (h : changesOnly l s u) (hl : .cof ∈ l := by simp) : changesOnly l s (coffer source severity ev unit job mc addr u) := by
  refine h.trans (l' := [.cof]) ?_ (by simpa using hl)
  intro p hp
  cases p with
  | cof => simp at hp
  | _ => simp [agree]

theorem changesOnly_bgBill {k c : Nat} {s : State} : changesOnly [.fab, .td] s (bgBill k c s) := by
  intro p hp
  cases p with
  | fab => simp at hp
  | td => simp at hp
  | _ => simp [agree]

/-! ## A line that fails its check (R98, R100) -/

/-- The line joins the poisoned lines, counted against its subchannel and with a Coffer record. -/
def poisonLine (line : Nat) (s : State) : State :=
  let n := subchannelOf s (line * 32)
  let s := countSub n (fun c => (c.1, c.2.1, c.2.2 + 1)) s
  coffer 4 3 .linePoisoned (n / 24) 0 0 (line * 32) { s with mem := { s.mem with
    poisonLines := if s.mem.poisonLines.contains line then s.mem.poisonLines else s.mem.poisonLines ++ [line] } }

theorem mem_poisonLine (line : Nat) (s : State) : line ∈ (poisonLine line s).mem.poisonLines := by
  simp only [poisonLine, coffer_frame]
  split
  next h => simpa using h
  next => simp

theorem changesOnly_poisonLine (line : Nat) (s : State) : changesOnly [.mem, .cof] s (poisonLine line s) := by
  refine changesOnly.coffer (changesOnly.setMem (changesOnly.countSub (changesOnly_refl _ s)) ?_)
  rfl

section
variable {t l e e1 e2 : Nat} {s : State} (hl : l < memChunks s * 65536)
include hl

/-- A line that its first read passes, corrected or not, is delivered. -/
theorem execLineCheckFail_delivers {c : Bool} (h : checkLine (lmodeOf s (l / 65536)) (readLine s l e) = some c) :
    execLineCheckFail t l e (e1, e2) s = .next (deliverLine (subchannelOf (tick t s) (l * 32)) c (tick t s)) := by
  simp only [execLineCheckFail, memChunks_tick, lmodeOf_tick, readLine_tick, h, if_neg (not_le.mpr hl)]

/-- One that passes only on a read again is delivered and counted as read again. -/
theorem execLineCheckFail_rereads {c : Bool} (h : checkLine (lmodeOf s (l / 65536)) (readLine s l e) = none)
    (hagain : checkLine (lmodeOf s (l / 65536)) (readLine s l e1) = some c ∨
      (checkLine (lmodeOf s (l / 65536)) (readLine s l e1) = none ∧ checkLine (lmodeOf s (l / 65536)) (readLine s l e2) = some c)) :
    execLineCheckFail t l e (e1, e2) s = .next (deliverLine (subchannelOf (tick t s) (l * 32)) c
      (countSub (subchannelOf (tick t s) (l * 32)) (fun c => (c.1, c.2.1 + 1, c.2.2)) (tick t s))) := by
  rcases hagain with h1 | ⟨h1, h2⟩
  · simp only [execLineCheckFail, memChunks_tick, lmodeOf_tick, readLine_tick, h, h1, if_neg (not_le.mpr hl)]
  · simp only [execLineCheckFail, memChunks_tick, lmodeOf_tick, readLine_tick, h, h1, h2, if_neg (not_le.mpr hl)]

/-- One that no read passes is poisoned, and its frame with it. -/
theorem execLineCheckFail_poisons (h : ∀ x ∈ [e, e1, e2], checkLine (lmodeOf s (l / 65536)) (readLine s l x) = none) :
    execLineCheckFail t l e (e1, e2) s = .next (poisonFrame (l / 2048) (poisonLine l (tick t s))) := by
  have h0 := h e (by simp)
  have h1 := h e1 (by simp)
  have h2 := h e2 (by simp)
  simp only [execLineCheckFail, poisonLine, memChunks_tick, lmodeOf_tick, readLine_tick, h0, h1, h2, if_neg (not_le.mpr hl)]

end

/-! ## A frame is tested (R455) -/

/-- A poisoned frame outside the model areas that nothing holds is tested. -/
theorem execFrameRestored_tests {f : Nat} {s : State} (hp : f ∈ s.mem.poisonFrames) (hr : f ∉ s.mem.restoring)
    (hk : chunkKind s (f / 32) ≠ 2) (hh : frameHeld s f = false) (t : Nat) (ok : Bool) (d : Option (List Byte)) :
    execFrameRestored t f ok d s = .next (testFrame f ok (tick t s)) := by
  simp [execFrameRestored, hp, hr, hk, hh]

theorem testFrame_passes (f : Nat) (s : State) :
    testFrame f true s = retryStalled (reissueTiles (applyHeld f (clearPoison f s))) := by
  simp [testFrame]

/-- The record that a frame failed its test goes out once it is retired. -/
theorem testFrame_fails (f : Nat) (s : State) :
    testFrame f false s = coffer 4 3 .frameRetired (subchannelOf s (f * 65536) / 24) 0 0 (f * 65536) { s with mem := { s.mem with
      retired := if s.mem.retired.contains f then s.mem.retired else s.mem.retired ++ [f]
      restoring := s.mem.restoring.filter (· != f) } } := by
  simp [testFrame]

/-- A frame that fails its test is retired, and no restore of it goes on. -/
theorem testFrame_fails_mem (f : Nat) (s : State) :
    (testFrame f false s).mem = { s.mem with
      retired := if s.mem.retired.contains f then s.mem.retired else s.mem.retired ++ [f]
      restoring := s.mem.restoring.filter (· != f) } := by
  simp [testFrame_fails]

theorem changesOnly_testFrame_fails (f : Nat) (s : State) : changesOnly [.mem, .cof] s (testFrame f false s) := by
  rw [testFrame_fails]
  refine changesOnly.coffer (changesOnly.setMem (changesOnly_refl _ s) ?_)
  rfl

theorem mem_retired_testFrame_fails (f : Nat) (s : State) : f ∈ (testFrame f false s).mem.retired := by
  rw [testFrame_fails_mem]
  dsimp only
  split
  next h => simpa using h
  next => simp

/-! ## A weight frame is restored (R248) -/

section
variable {t f mc i : Nat} {s : State} {e : Epoch} (hr : f ∈ s.mem.restoring) (hsh : shardOfFrame (tick t s) f = some (mc, e, i))
include hr hsh

theorem execFrameRestored_restores (hp : f ∈ s.mem.poisonFrames) (ok : Bool) (d : Option (List Byte)) :
    execFrameRestored t f ok d s = .next (endRestore f mc i e ok d (tick t s)) := by
  have hp' : s.mem.poisonFrames.contains f = true := by simpa using hp
  have hr' : s.mem.restoring.contains f = true := by simpa using hr
  simp only [execFrameRestored, tick_mem, hp', hr', hsh, Bool.not_true, Bool.false_eq_true, if_false, if_true]

theorem execRestoreFailed_fails : execRestoreFailed t f s = .next (failRestore f mc i e (tick t s)) := by
  have hr' : s.mem.restoring.contains f = true := by simpa using hr
  simp only [execRestoreFailed, tick_mem, hr', hsh, Bool.not_true, Bool.false_eq_true, if_false]

end

/-- The rows of the embedding tables depend on the chip's place alone. -/
theorem embFrame_eq_of_id {s u : State} (h : u.id = s.id) (e : Epoch) (f : Nat) : embFrame u e f = embFrame s e f := by
  simp only [embFrame, ownLoc, h]

/-- Data that passes the shard's check is written to the frame, which is then tested; outside embedding tables no event follows. -/
theorem endRestore_good {e : Epoch} {i f : Nat} {d : List Byte} {s : State} (hg : shardGood (e.m.shards.getD i {}) d = true)
    (he : embFrame s e f = false) (mc : Nat) :
    endRestore f mc i e true (some d) s = testFrame f true (rewriteFrame f e (e.m.shards.getD i {}) d s) := by
  have hu : embFrame (testFrame f true (rewriteFrame f e (e.m.shards.getD i {}) d s)) e f = false := by
    rw [embFrame_eq_of_id (s := s) (by simp), he]
  simp only [endRestore, Option.filter_some, hg, if_true, hu, Bool.and_false, Bool.false_eq_true, if_false]

/-- A failed attempt is counted, and another follows until the fourth. -/
theorem endRestore_none (f mc i : Nat) (e : Epoch) (ok : Bool) (s : State) {s1 : State}
    (h1 : s1 = { s with mem := { s.mem with restoreTries := mset s.mem.restoreTries f (mgetD s.mem.restoreTries f 0 + 1) } }) :
    endRestore f mc i e ok none s =
      if mgetD s.mem.restoreTries f 0 < 3 then tryRestore f mc i e s1 else failRestore f mc i e s1 := by
  subst h1
  by_cases h : mgetD s.mem.restoreTries f 0 < 3
  · have h4 : ¬ 4 ≤ mgetD s.mem.restoreTries f 0 + 1 := by omega
    simp only [endRestore, Option.filter_none, if_pos h, if_neg h4]
  · have h4 : 4 ≤ mgetD s.mem.restoreTries f 0 + 1 := by omega
    simp only [endRestore, Option.filter_none, if_neg h, if_pos h4]

/-! ## Subchannels: slices of retraining, and retries offline (R458) -/

/-- Subchannel n is offline and has failed k retries since. -/
def offlineTries (n k : Nat) (s : State) : State :=
  { s with mem := { s.mem with offline := mset s.mem.offline n k } }

@[simp] theorem mget_offlineTries (n k : Nat) (s : State) : mget (offlineTries n k s).mem.offline n = some k :=
  mget_mset_self _ _ _

theorem changesOnly.offlineTries {n k : Nat} {l : List Piece} {s u : State} (h : changesOnly l s u)
    (hl : .mem ∈ l := by simp) : changesOnly l s (offlineTries n k u) :=
  h.setMem rfl hl

/-- A slice that has been retrained: its controller is billed, and the subchannel's count of slices moves on or ends. -/
def sliceDone (n : Nat) (last : Bool) (s : State) : State :=
  let u := bgBill (bgCtl (n / 24)) 2000 s
  { u with mem := { s.mem with slices := if last || decide (64 ≤ mgetD s.mem.slices n 0 + 1) then mdel s.mem.slices n
                                          else mset s.mem.slices n (mgetD s.mem.slices n 0 + 1) } }

theorem changesOnly_sliceDone (n : Nat) (last : Bool) (s : State) : changesOnly [.mem, .fab, .td] s (sliceDone n last s) :=
  ((changesOnly_refl _ s).trans changesOnly_bgBill).setMem (by simp)

theorem bgUsed_sliceDone (n : Nat) (last : Bool) (s : State) :
    mgetD (sliceDone n last s).fab.bgUsed (n / 24) 0 = mgetD s.fab.bgUsed (n / 24) 0 + 2000 := by
  simp [sliceDone, bgBill, bgCtl, madd, mupd]

/-- A slice that its controller has no background time for waits. -/
theorem execRetrainSlice_waits {t n : Nat} {s : State} (hf : bgFits (tick t s) (bgCtl (n / 24)) 2000 = false) (last ok : Bool) :
    execRetrainSlice t n last ok s = .next (tick t s) := by
  simp only [execRetrainSlice, hf, Bool.not_false, Bool.or_true, if_true]

section
variable {t n : Nat} {s : State} (hn : n < 384) (hf : bgFits (tick t s) (bgCtl (n / 24)) 2000 = true)
include hn hf

theorem execRetrainSlice_succeeds (last : Bool) :
    execRetrainSlice t n last true s = .next (sliceDone n last (tick t s)) := by
  simp [execRetrainSlice, sliceDone, hf, not_le.mpr hn]

/-- A subchannel that does not retrain goes offline, with a Coffer record. -/
theorem execRetrainSlice_offline (ho : mget s.mem.offline n = none) (last : Bool) :
    execRetrainSlice t n last false s =
      .next (coffer 4 3 .subchannelOffline (n / 24) 0 0 0 (offlineTries n 0 (sliceDone n last (tick t s)))) := by
  simp [execRetrainSlice, offlineTries, sliceDone, hf, ho, not_le.mpr hn]

end

section
variable {n k : Nat} {s : State} (ho : mget s.mem.offline n = some k)
include ho

theorem execSubchannelRetry_returns (t : Nat) : execSubchannelRetry t n true s =
    .next { tick t s with mem := { s.mem with offline := mdel s.mem.offline n } } := by
  simp [execSubchannelRetry, ho]

/-- A first or second retry that fails leaves the subchannel offline. -/
theorem execSubchannelRetry_again (hk : k < 2) (t : Nat) :
    execSubchannelRetry t n false s = .next (offlineTries n (k + 1) (tick t s)) := by
  have hk' : k + 1 < 3 := by omega
  simp [execSubchannelRetry, offlineTries, ho, hk']

/-- The third one loses it, which is fatal. -/
theorem execSubchannelRetry_lost (hk : 2 ≤ k) (t : Nat) : execSubchannelRetry t n false s =
    .next (fatal (n / 24) false (coffer 4 4 .subchannelLost (n / 24) 0 0 0 (offlineTries n (k + 1) (tick t s)))) := by
  have hk' : ¬ k + 1 < 3 := by omega
  simp [execSubchannelRetry, offlineTries, ho, hk']

end

/-- Settles O17: a line by its reads, a frame by its test or the restore of its shard, a subchannel by its slice or its retry. -/
theorem memoryErrorsAreHandled : Obligations.MemoryErrorsAreHandled := by
  refine ⟨?delivered, ?reread, ?poisoned, ?retired, ?serves, ?restored, ?attemptFails, ?restoreFails, ?trained, ?waits, ?offline,
    ?returns, ?retried, ?lost⟩
  case delivered => exact fun t l e e1 e2 s c hl h => execLineCheckFail_delivers hl h
  case reread =>
    rintro t l e e1 e2 s c s1 hl h hagain rfl
    exact execLineCheckFail_rereads hl h hagain
  case poisoned =>
    intro t l e e1 e2 s hl h
    exact ⟨_, execLineCheckFail_poisons hl h, mem_poisonLine _ _,
      changesOnly_tick_trans (changesOnly_poisonLine _ _)⟩
  case retired =>
    intro t f d s hp hr hk hh
    refine ⟨_, execFrameRestored_tests hp hr hk hh t false d, mem_retired_testFrame_fails _ _, ?_, ?_,
      changesOnly_tick_trans (changesOnly_testFrame_fails _ _)⟩
    · simp [testFrame_fails_mem]
    · simp [testFrame_fails_mem]
  case serves =>
    intro t f d s hp hr hk hh
    exact (execFrameRestored_tests hp hr hk hh t true d).trans (congrArg Host.Outcome.next (testFrame_passes f _))
  case restored =>
    intro t f d s mc e i hp hr hsh hg he
    refine (execFrameRestored_restores hr hsh hp true (some d)).trans (congrArg Host.Outcome.next ?_)
    rw [endRestore_good hg he, testFrame_passes]
  case attemptFails =>
    intro t f ok s mc e i s1 hp hr hsh h1
    exact (execFrameRestored_restores hr hsh hp ok none).trans (congrArg Host.Outcome.next (endRestore_none f mc i e ok (tick t s) h1))
  case restoreFails =>
    rintro t f s mc e i s1 hr hsh rfl
    exact execRestoreFailed_fails hr hsh
  case trained =>
    intro t n s hn hf
    exact ⟨_, execRetrainSlice_succeeds hn hf true, rfl, rfl, bgUsed_sliceDone _ _ _,
      changesOnly_tick_trans (changesOnly_sliceDone _ _ _)⟩
  case waits => exact fun t n last ok s _ hf => execRetrainSlice_waits hf last ok
  case offline =>
    intro t n last s hn hf ho
    exact ⟨_, execRetrainSlice_offline hn hf ho last, by simp,
      (changesOnly_tick_trans (changesOnly_sliceDone _ _ _)).offlineTries.coffer⟩
  case returns =>
    intro t n k s ho
    exact ⟨_, execSubchannelRetry_returns ho t, rfl,
      (changesOnly_tick_trans (changesOnly_refl [] _)).setMem rfl⟩
  case retried =>
    intro t n k s ho hk
    exact ⟨_, execSubchannelRetry_again ho hk t, mget_offlineTries _ _ _,
      (changesOnly_tick_trans (changesOnly_refl [] _)).offlineTries⟩
  case lost =>
    intro t n k s ho hk
    exact ⟨_, execSubchannelRetry_lost ho hk t, by simp⟩

end Sys2Proof.Machine
end

section
/-! SUPPORT. The proof of O60: each block adds at most 2^65 to the window of an ACC96, and moving the anchor up only shrinks
what it holds (R103, R104). -/
namespace Sys2Proof.Machine

/-- A right shift by k brings a value within B·2^k to within B. -/
theorem abs_sar_le {v B : Int} {k : Nat} (h : |v| ≤ B * 2 ^ k) : |sar v k| ≤ B := by
  have hpos : (0 : Int) < 2 ^ k := by positivity
  obtain ⟨hlo, hhi⟩ := abs_le.mp h
  rw [sar, abs_le]
  constructor
  · rw [Int.le_ediv_iff_mul_le hpos]
    linarith
  · exact Int.ediv_le_of_le_mul hpos hhi

/-- A right shift keeps a value within the bounds it is in. -/
theorem abs_sar_le_of_abs_le {v B : Int} (h : |v| ≤ B) (k : Nat) : |sar v k| ≤ B :=
  abs_sar_le (h.trans (le_mul_of_one_le_right ((abs_nonneg v).trans h) (one_le_pow₀ one_le_two)))

/-- The value s·2^e in units of 2^a, as the window takes it in. -/
def inUnits (a s e : Int) : Int := if a ≤ e then s * 2 ^ (e - a).toNat else sar s (a - e).toNat

/-- A block whose leading bit stands at most 64 places above the anchor adds at most 2^65. -/
theorem abs_inUnits_le {a s e : Int} (ha : e + (Nat.log2 s.natAbs : Int) - 64 ≤ a) : |inUnits a s e| ≤ 2 ^ 65 := by
  have hs : |s| ≤ 2 ^ (Nat.log2 s.natAbs + 1) := by
    rw [Int.abs_eq_natAbs]
    exact_mod_cast Nat.lt_log2_self.le
  unfold inUnits
  split
  next hae =>
    calc |s * 2 ^ (e - a).toNat|
        = |s| * 2 ^ (e - a).toNat := by rw [abs_mul, abs_of_pos (by positivity : (0 : Int) < 2 ^ (e - a).toNat)]
      _ ≤ 2 ^ (Nat.log2 s.natAbs + 1) * 2 ^ (e - a).toNat := by gcongr
      _ = 2 ^ (Nat.log2 s.natAbs + 1 + (e - a).toNat) := (pow_add _ _ _).symm
      _ ≤ 2 ^ 65 := pow_le_pow_right₀ one_le_two (by omega)
  next hae =>
    refine abs_sar_le (hs.trans ?_)
    rw [← pow_add]
    exact pow_le_pow_right₀ one_le_two (by omega)

theorem ite_fst_v (c : Prop) [Decidable c] (x y : Acc × Bool) : (if c then x else y).1.v = if c then x.1.v else y.1.v := by
  split <;> rfl

/-- What a block with a sum does to v: what was held is shifted right to the new anchor, and the sum is added in its units. -/
theorem takeBlock_v {s : Int} (hs : s ≠ 0) (e : Int) (lossy : Bool) (q : Acc) :
    ∃ k a, e + (Nat.log2 s.natAbs : Int) - 64 ≤ a ∧ (takeBlock s e lossy q).v = sar q.v k + inUnits a s e := by
  have hsar : sar q.v 0 = q.v := by simp [sar]
  by_cases hset : q.anchored = true
  case neg =>
    refine ⟨0, e + (Nat.log2 s.natAbs : Int) - 64, le_rfl, ?_⟩
    simp [takeBlock, inUnits, hs, hset, hsar, ite_fst_v, apply_ite Acc.v, add_ite]
  by_cases hup : q.a < e + (Nat.log2 s.natAbs : Int) - 64
  case pos =>
    refine ⟨(e + (Nat.log2 s.natAbs : Int) - 64 - q.a).toNat, e + (Nat.log2 s.natAbs : Int) - 64, le_rfl, ?_⟩
    simp [takeBlock, inUnits, hs, hset, hup, ite_fst_v, apply_ite Acc.v, add_ite]
  case neg =>
    refine ⟨0, q.a, not_lt.mp hup, ?_⟩
    simp [takeBlock, inUnits, hs, hset, hup, hsar, ite_fst_v, apply_ite Acc.v, add_ite]

/-- Any block, with a sum or without, moves the bound on v by at most 2^65. -/
theorem abs_takeFlags_v_le (b : Block) {q : Acc} {B : Int} (h : |q.v| ≤ B) : |(takeFlags b q).v| ≤ B + 2 ^ 65 := by
  have hkeep : |q.v| ≤ B + 2 ^ 65 := h.trans (le_add_of_nonneg_right (by positivity))
  obtain ⟨nan, pinf, ninf, sum, lossy⟩ := b
  cases sum with
  | none => exact hkeep
  | some x =>
    obtain ⟨s, e⟩ := x
    by_cases hs : s = 0
    · subst hs
      cases lossy <;> exact hkeep
    · obtain ⟨k, a, ha, hv⟩ := takeBlock_v hs e lossy { q with nan := q.nan || nan, pinf := q.pinf || pinf, ninf := q.ninf || ninf }
      calc |(takeFlags ⟨nan, pinf, ninf, some (s, e), lossy⟩ q).v|
          = |sar q.v k + inUnits a s e| := congrArg _ hv
        _ ≤ |sar q.v k| + |inUnits a s e| := abs_add_le _ _
        _ ≤ B + 2 ^ 65 := add_le_add (abs_sar_le_of_abs_le h k) (abs_inUnits_le ha)

/-- After a list of blocks v has moved by at most 2^65 for each. -/
theorem abs_foldl_takeFlags_v_le (l : List Block) {q : Acc} {B : Int} (h : |q.v| ≤ B) :
    |(l.foldl (fun q b => takeFlags b q) q).v| ≤ B + l.length * 2 ^ 65 := by
  induction l generalizing q B with
  | nil => simpa using h
  | cons b l ih =>
    have hl := ih (abs_takeFlags_v_le b h)
    rw [List.foldl_cons, List.length_cons]
    push_cast
    linarith

/-- Settles O60: 2^24 blocks move v by at most 2^89, from the 0 of the cleared state. -/
theorem windowNeverOverflows : Obligations.WindowNeverOverflows := by
  intro l hl
  have hv := abs_foldl_takeFlags_v_le l (q := {}) (B := 0) (by simp)
  have hlen : (l.length : Int) ≤ 2 ^ 24 := by exact_mod_cast hl
  obtain ⟨hlo, hhi⟩ := abs_le.mp hv
  constructor <;> linarith

end Sys2Proof.Machine
end

section
/-! SUPPORT. The proof of O36: what the records of the Exchange Unit, the updates of embedding tables and the collectives leave
unchanged. -/
namespace Sys2Proof.Machine

/-! ## What the families of commands may change -/

/-- Every part of the state. -/
def allPieces : List Piece :=
  [.pending, .time, .id, .hi, .ctxs, .mem, .fab, .srv, .ops, .mdl, .exu, .coll, .xn, .pw, .sec, .td, .cof, .draws, .out,
    .dram, .scratch, .lock, .life, .mbox, .pst]

/-- The parts outside l, one by one. -/
theorem changesOnly_iff {l : List Piece} {s u : State} : changesOnly l s u ↔ ∀ p ∈ allPieces, p ∉ l → agree s u p :=
  ⟨fun h p _ => h p, fun h p => h p (by cases p <;> decide)⟩

/-- The parts that a descriptor's fetch and the end of its poll may change. -/
def fetchParts : List Piece := [.time, .hi, .ctxs, .td, .out]

/-- The parts that the end of a collective group may change. -/
def groupParts : List Piece := [.time, .hi, .ctxs, .coll, .xn, .td, .out]

/-- The parts that a record's journey, an embedding update or a gather may change. -/
def recordParts : List Piece := [.time, .hi, .ctxs, .mem, .srv, .mdl, .exu, .xn, .td, .cof, .out, .dram]

/-- The parts that a request which has lost its target may change: a plate's poison marks and the groups besides. -/
def lossParts : List Piece := [.time, .hi, .ctxs, .mem, .fab, .srv, .mdl, .exu, .coll, .xn, .td, .cof, .out, .dram]

/-- The parts that may change where a plate's banks are written, its counters signalled or its job torn down. -/
def exchangeParts : List Piece :=
  [.time, .hi, .ctxs, .mem, .fab, .srv, .ops, .mdl, .exu, .coll, .xn, .pw, .td, .cof, .out, .dram, .scratch]

section
variable {s u : State}

theorem changesOnly_fetchParts (h : u.pending = s.pending ∧ u.id = s.id ∧ u.mem = s.mem ∧ u.fab = s.fab ∧ u.srv = s.srv ∧
    u.ops = s.ops ∧ u.mdl = s.mdl ∧ u.exu = s.exu ∧ u.coll = s.coll ∧ u.xn = s.xn ∧ u.pw = s.pw ∧ u.sec = s.sec ∧ u.cof = s.cof ∧
    u.draws = s.draws ∧ u.hi.lock = s.hi.lock) : changesOnly fetchParts s u := by
  simp [changesOnly_iff, allPieces, agree, fetchParts, h]

theorem changesOnly_groupParts (h : u.pending = s.pending ∧ u.id = s.id ∧ u.mem = s.mem ∧ u.fab = s.fab ∧ u.srv = s.srv ∧
    u.ops = s.ops ∧ u.mdl = s.mdl ∧ u.exu = s.exu ∧ u.pw = s.pw ∧ u.sec = s.sec ∧ u.cof = s.cof ∧ u.draws = s.draws ∧
    u.hi.lock = s.hi.lock) : changesOnly groupParts s u := by
  simp [changesOnly_iff, allPieces, agree, groupParts, h]

theorem changesOnly_recordParts (h : u.pending = s.pending ∧ u.id = s.id ∧ u.fab = s.fab ∧ u.ops = s.ops ∧ u.coll = s.coll ∧
    u.pw = s.pw ∧ u.sec = s.sec ∧ u.draws = s.draws ∧ u.hi.lock = s.hi.lock) : changesOnly recordParts s u := by
  simp [changesOnly_iff, allPieces, agree, recordParts, h]

theorem changesOnly_lossParts (h : u.pending = s.pending ∧ u.id = s.id ∧ u.ops = s.ops ∧ u.pw = s.pw ∧ u.sec = s.sec ∧
    u.draws = s.draws ∧ u.hi.lock = s.hi.lock ∧ u.fab.scratch = s.fab.scratch) : changesOnly lossParts s u := by
  simp [changesOnly_iff, allPieces, agree, lossParts, h]

theorem changesOnly_exchangeParts (h : u.pending = s.pending ∧ u.id = s.id ∧ u.sec = s.sec ∧ u.draws = s.draws ∧
    u.hi.lock = s.hi.lock ∧ u.pw.st = s.pw.st) : changesOnly exchangeParts s u := by
  simp [changesOnly_iff, allPieces, agree, exchangeParts, h]

end

theorem changesOnly_forEach {α : Type} {l : List Piece} {g : α → State → State} (hg : ∀ x s, changesOnly l s (g x s)) (xs : List α)
    (s : State) : changesOnly l s (forEach g xs s) := by
  induction xs generalizing s with
  | nil => exact changesOnly_refl l s
  | cons x xs ih => exact (hg x s).trans (ih (g x s)) (List.Subset.refl l)

/-! ## A fetched descriptor -/

section
variable {l : List Piece} {t : Nat} {h : Hdr} {f : State → State} (hf : ∀ s, changesOnly l s (f s)) (hl : fetchParts ⊆ l)
include hf hl

/-- A fetched descriptor's command changes what its effect f changes, and the books of its context and ring. -/
theorem changesOnly_command (s : State) : changesOnly l s (command t h f s) := by
  cases h0 : fetched t h s with
  | none =>
    rw [command_of_not_fetched h0]
    exact (changesOnly_refl l s).trans (changesOnly_fetchParts (by simp)) hl
  | some s0 =>
    have hroom : changesOnly fetchParts s (releaseRoom h.ctx (compRing h.ring) 1 s0) :=
      changesOnly_fetchParts (by simp [fetched_frame h0])
    have hend : ∀ s, changesOnly fetchParts s (endPoll s) := fun s => changesOnly_fetchParts (by simp)
    rw [command_of_begins ⟨s0, h0, rfl⟩]
    exact (((changesOnly_refl l s).trans hroom hl).trans (hf _) (List.Subset.refl l)).trans (hend _) hl

theorem touches_of_command {c : Instr} (hc : ∀ s, exec c s = .next (command t h f s)) : Touches c l :=
  fun s => ⟨_, hc s, changesOnly_command hf hl s⟩

end

/-! ## A record that reaches this chip (R157, R349) -/

/-- What becomes of a record that has come off its leg: its effect f where it is for this chip, else its way on. -/
def onward (ty : ExuType) (r : ExuRec) (f : State → State) (s : State) : State :=
  if r.dst = ownLoc s then f s else if reachable s r.dst then sendLeg 0 0 ty r s else loseExu 0 1 ty r s

/-- A record formed here or new on its flow goes onward, the new one once it is answered; one that has come before is answered again. -/
theorem arrive_eq (ty : ExuType) (r : ExuRec) (f : State → State) (s : State) :
    arrive ty r f s = if r.leg = ownLoc s then onward ty r f s else
      (mget s.xn.executed (execKey (legPkt ty r) r.fseq)).elim (onward ty r f (answer (legPkt ty r) .ok [] [] s))
        (fun a => if r.resend then sendXn r.leg 2 r.lc (.resp a) s else onward ty r f (answer (legPkt ty r) .ok [] [] s)) := by
  unfold arrive legPkt
  dsimp only
  split
  · rfl
  · cases mget s.xn.executed (execKey _ r.fseq) <;> rfl

section
variable {l : List Piece} {f : State → State} (hf : ∀ s, changesOnly l s (f s)) (hl : recordParts ⊆ l)
include hf hl

theorem changesOnly_onward (ty : ExuType) (r : ExuRec) (s : State) : changesOnly l s (onward ty r f s) := by
  unfold onward
  split
  · exact hf s
  · exact (changesOnly_refl l s).trans (changesOnly_recordParts (by simp)) hl

/-- A record changes what its effect changes, or what its answer and its way on change. -/
theorem changesOnly_arrive (ty : ExuType) (r : ExuRec) (s : State) : changesOnly l s (arrive ty r f s) := by
  have hanswer : changesOnly recordParts s (answer (legPkt ty r) .ok [] [] s) := changesOnly_recordParts (by simp)
  have hagain : ∀ a, changesOnly recordParts s (sendXn r.leg 2 r.lc (.resp a) s) := fun a => changesOnly_recordParts (by simp)
  have hnew : changesOnly l s (onward ty r f (answer (legPkt ty r) .ok [] [] s)) :=
    ((changesOnly_refl l s).trans hanswer hl).trans (changesOnly_onward hf hl ty r _) (List.Subset.refl l)
  rw [arrive_eq]
  split
  · exact changesOnly_onward hf hl ty r s
  · cases mget s.xn.executed (execKey (legPkt ty r) r.fseq) with
    | none => exact hnew
    | some a =>
      simp only [Option.elim]
      split
      · exact (changesOnly_refl l s).trans (hagain a) hl
      · exact hnew

theorem touches_of_arrive {c : Instr} {t : Nat} {ty : ExuType} {r : ExuRec}
    (hc : ∀ s, exec c s = .next (arrive ty r f (tick t s))) : Touches c l :=
  fun s => ⟨_, hc s, changesOnly_tick_trans (changesOnly_arrive hf hl ty r _) (hl (by simp [recordParts])) (List.Subset.refl l)⟩

end

/-! ## Commands of embedding tables (R173, R175, R176) -/

theorem touches_embRowUpdate (t : Nat) (h : Hdr) (tb row : Nat) (d : Option (List Byte)) :
    Touches (.embRowUpdate t h tb row d) recordParts := by
  refine touches_of_command (fun s => ?_) (by decide) fun _ => rfl
  dsimp only
  repeat' split
  all_goals exact changesOnly_recordParts (by simp)

theorem touches_embGenCommit (t : Nat) (h : Hdr) (tb : Nat) : Touches (.embGenCommit t h tb) recordParts := by
  refine touches_of_command (fun s => ?_) (by decide) fun _ => rfl
  dsimp only
  repeat' split
  all_goals exact changesOnly_recordParts (by simp)

/-! ## Collectives (R356 to R371) -/

theorem touches_of_hostColl {c : Instr} {t : Nat} {h : Hdr} {opcode : Nat} {b : CollBody}
    (hc : ∀ s, exec c s = .next (hostColl t h opcode b s)) : Touches c exchangeParts :=
  fun s => ⟨_, hc s, changesOnly_exchangeParts (by simp)⟩

/-- A group that is created announces itself, and takes the JOINs that came early one after another. -/
theorem touches_collGroupCreate (t : Nat) (h : Hdr) (b : CollGroupBody) : Touches (.collGroupCreate t h b) exchangeParts := by
  refine touches_of_command (fun s => ?_) (by decide) fun _ => rfl
  dsimp only
  split
  case h_1 => exact changesOnly_exchangeParts (by simp)
  case h_2 =>
    refine .trans ?announced (changesOnly_forEach (fun p s => ?early) _ _) (List.Subset.refl _)
    case announced => exact changesOnly_exchangeParts (by simp)
    case early => exact changesOnly_exchangeParts (by simp)

theorem touches_collGroupDestroy (t : Nat) (h : Hdr) : Touches (.collGroupDestroy t h) groupParts := by
  refine touches_of_command (fun s => ?_) (by decide) fun _ => rfl
  repeat' split
  all_goals exact changesOnly_groupParts (by simp)

theorem touches_join (t : Nat) (p : JoinParams) : Touches (.join t p) exchangeParts := by
  refine fun s => ⟨_, rfl, ?_⟩
  repeat' split
  all_goals exact changesOnly_exchangeParts (by simp)

theorem touches_abandon (t g r : Nat) : Touches (.abandon t g r) groupParts := by
  refine fun s => ⟨_, rfl, ?_⟩
  repeat' split
  all_goals exact changesOnly_groupParts (by simp)

theorem touches_fault (t g r : Nat) : Touches (.fault t g r) exchangeParts := by
  refine fun s => ⟨_, rfl, ?_⟩
  repeat' split
  all_goals exact changesOnly_exchangeParts (by simp)

theorem touches_collectiveChunk (t g : Nat) (p : CollPkt) : Touches (.collectiveChunk t g p) exchangeParts := by
  refine fun s => ⟨_, rfl, ?_⟩
  repeat' split
  all_goals exact changesOnly_exchangeParts (by simp)

/-! ## Responses, and what has lost its target (R347, R349) -/

theorem touches_resp (t : Nat) (p : RespPkt) : Touches (.resp t p) exchangeParts := by
  refine fun s => ⟨_, rfl, ?_⟩
  repeat' split
  all_goals exact changesOnly_exchangeParts (by simp)

theorem touches_remoteTimeout (t flow fseq : Nat) : Touches (.remoteTimeout t flow fseq) lossParts := by
  refine fun s => ⟨_, rfl, ?_⟩
  repeat' split
  all_goals exact changesOnly_lossParts (by simp)

/-- Settles O36: a descriptor's command and a record's arrival by their effect, an event by its branches. -/
theorem theExchangeFrame : Obligations.TheExchangeFrame := by
  have hl : recordParts ⊆ exchangeParts := by decide
  have hs : recordParts ⊆ recordParts := List.Subset.refl _
  refine ⟨touches_embRowUpdate, touches_embGenCommit, touches_collGroupCreate, touches_collGroupDestroy, ?barrier, ?reduceSmall,
    ?allReduce, ?allGather, ?reduceScatter, ?dispatch, ?close, ?exuReturn, ?gather, ?pooled, ?gone, ?update, ?commit, ?settle, ?done,
    touches_resp, touches_remoteTimeout, touches_join, touches_abandon, touches_fault, touches_collectiveChunk⟩
  case barrier | reduceSmall | allReduce | allGather | reduceScatter => exact fun t h b => touches_of_hostColl fun _ => rfl
  case dispatch | close | exuReturn | pooled =>
    refine fun t r => touches_of_arrive (fun s => ?_) hl fun _ => rfl
    exact changesOnly_exchangeParts (by simp)
  case gather | gone | update | commit | settle | done =>
    refine fun t r => touches_of_arrive (fun s => ?_) hs fun _ => rfl
    exact changesOnly_recordParts (by simp)

end Sys2Proof.Machine
end

section
/-! SUPPORT. The proof of O59: the mix of R170 is a bijection on the rows of a table, so its shards hold equally many rows. -/
namespace Sys2Proof.Machine

/-! ## The mix, step by step -/

/-- x with its upper part folded over its lower part. -/
def foldShift (c x : Nat) : Nat := x ^^^ (x / 2 ^ c)

/-- x times the constant of R170, of b bits. -/
def mulMix (b x : Nat) : Nat := x * (0xB5A73C19E64D2F07 % 2 ^ b) % 2 ^ b

/-- What row r of table e becomes under the mix. -/
def mixRow (e : EmbTable) (r : Nat) : Nat :=
  foldShift (ceilDiv e.rowBits 2) (mulMix e.rowBits (foldShift (ceilDiv e.rowBits 2) (r ^^^ (e.seed % 2 ^ e.rowBits))))

theorem placeRow_eq (e : EmbTable) (r : Nat) :
    placeRow e r = (mixRow e r / 2 ^ (e.rowBits - e.shardBits), mixRow e r % 2 ^ (e.rowBits - e.shardBits)) := rfl

section
variable {b c : Nat}

theorem mapsTo_foldShift : Set.MapsTo (foldShift c) (Set.Iio (2 ^ b)) (Set.Iio (2 ^ b)) :=
  fun _ hx => Nat.xor_lt_two_pow hx ((Nat.div_le_self _ _).trans_lt hx)

/-- Folding at half the width or above undoes itself: the part that is folded is not changed. -/
theorem foldShift_foldShift (hbc : b ≤ 2 * c) {x : Nat} (hx : x < 2 ^ b) : foldShift c (foldShift c x) = x := by
  have htop : x >>> c >>> c = 0 := by
    rw [← Nat.shiftRight_add, Nat.shiftRight_eq_div_pow]
    exact Nat.div_eq_of_lt (hx.trans_le (Nat.pow_le_pow_right two_pos (by omega)))
  simp only [foldShift, ← Nat.shiftRight_eq_div_pow, Nat.shiftRight_xor_distrib, htop, Nat.xor_zero, Nat.xor_assoc, Nat.xor_self]

theorem injOn_foldShift (hbc : b ≤ 2 * c) : Set.InjOn (foldShift c) (Set.Iio (2 ^ b)) :=
  Set.LeftInvOn.injOn fun _ hx => foldShift_foldShift hbc hx

theorem mapsTo_mulMix (x : Nat) : mulMix b x < 2 ^ b := Nat.mod_lt _ (by positivity)

/-- The constant is odd, so the product loses nothing. -/
theorem injOn_mulMix : Set.InjOn (mulMix b) (Set.Iio (2 ^ b)) := by
  have hodd : Nat.Coprime (2 ^ b) 0xB5A73C19E64D2F07 := Nat.Coprime.pow_left b (by norm_num)
  intro x hx y hy hxy
  have hmod : x * 0xB5A73C19E64D2F07 ≡ y * 0xB5A73C19E64D2F07 [MOD 2 ^ b] := by
    simpa only [Nat.ModEq, mulMix, Nat.mul_mod_mod] using hxy
  exact (Nat.ModEq.cancel_right_of_coprime hodd hmod).eq_of_lt_of_lt hx hy

end

section
variable (e : EmbTable)

theorem mixRow_lt (r : Nat) : mixRow e r < 2 ^ e.rowBits := mapsTo_foldShift (mapsTo_mulMix _)

theorem injOn_mixRow : Set.InjOn (mixRow e) (Set.Iio (2 ^ e.rowBits)) := by
  have hhalf : e.rowBits ≤ 2 * ceilDiv e.rowBits 2 := by unfold ceilDiv; omega
  have hseed : Set.MapsTo (· ^^^ (e.seed % 2 ^ e.rowBits)) (Set.Iio (2 ^ e.rowBits)) (Set.Iio (2 ^ e.rowBits)) :=
    fun _ hx => Nat.xor_lt_two_pow hx (Nat.mod_lt _ (by positivity))
  have hin := (injOn_foldShift hhalf).comp (Nat.xor_left_injective.injOn) hseed
  have hmul := injOn_mulMix.comp hin (mapsTo_foldShift.comp hseed)
  exact (injOn_foldShift hhalf).comp hmul fun _ _ => mapsTo_mulMix _

/-- Every value of the width is the mix of a row. -/
theorem exists_mixRow_eq {x : Nat} (hx : x < 2 ^ e.rowBits) : ∃ r, r < 2 ^ e.rowBits ∧ mixRow e r = x := by
  have h := Finset.surjOn_of_injOn_of_card_le (s := Finset.range (2 ^ e.rowBits)) (t := Finset.range (2 ^ e.rowBits)) (mixRow e)
    (fun r _ => by simpa using mixRow_lt e r) (by simpa using injOn_mixRow e) le_rfl
  simpa using h (by simpa using hx)

end

/-! ## Places -/

section
variable {e : EmbTable} {k j : Nat}

theorem two_pow_shardBits_mul (hs : e.shardBits < e.rowBits) : 2 ^ e.shardBits * 2 ^ (e.rowBits - e.shardBits) = 2 ^ e.rowBits := by
  rw [← pow_add, Nat.add_sub_cancel' hs.le]

/-- A row stands in slot j of shard k just where the mix gives it the number of that slot, counted over all shards. -/
theorem placeRow_eq_iff (hj : j < 2 ^ (e.rowBits - e.shardBits)) (r : Nat) :
    placeRow e r = (k, j) ↔ mixRow e r = k * 2 ^ (e.rowBits - e.shardBits) + j := by
  rw [placeRow_eq, Prod.mk.injEq]
  constructor
  · rintro ⟨rfl, rfl⟩
    exact (Nat.div_add_mod' _ _).symm
  · intro h
    rw [h, Nat.add_comm]
    exact ⟨by rw [Nat.add_mul_div_right _ _ (by positivity), Nat.div_eq_of_lt hj, Nat.zero_add],
      by rw [Nat.add_mul_mod_self_right, Nat.mod_eq_of_lt hj]⟩

/-- Each slot of each shard holds a row. -/
theorem exists_placeRow_eq (hs : e.shardBits < e.rowBits) (hk : k < 2 ^ e.shardBits) (hj : j < 2 ^ (e.rowBits - e.shardBits)) :
    ∃ r, r < 2 ^ e.rowBits ∧ placeRow e r = (k, j) := by
  have hx : k * 2 ^ (e.rowBits - e.shardBits) + j < 2 ^ e.rowBits := by
    calc k * 2 ^ (e.rowBits - e.shardBits) + j
        < k * 2 ^ (e.rowBits - e.shardBits) + 2 ^ (e.rowBits - e.shardBits) := by omega
      _ = (k + 1) * 2 ^ (e.rowBits - e.shardBits) := by ring
      _ ≤ 2 ^ e.shardBits * 2 ^ (e.rowBits - e.shardBits) := Nat.mul_le_mul_right _ hk
      _ = 2 ^ e.rowBits := two_pow_shardBits_mul hs
  obtain ⟨r, hr, hmix⟩ := exists_mixRow_eq e hx
  exact ⟨r, hr, (placeRow_eq_iff hj r).2 hmix⟩

end

/-- No two rows stand in one slot. -/
theorem placeRow_injOn (e : EmbTable) : Set.InjOn (placeRow e) (Set.Iio (2 ^ e.rowBits)) := by
  intro r hr q hq h
  rw [placeRow_eq, placeRow_eq, Prod.mk.injEq] at h
  refine injOn_mixRow e hr hq ?_
  rw [← Nat.div_add_mod' (mixRow e r), h.1, h.2, Nat.div_add_mod']

/-- The rows of a shard stand in its slots, one in each. -/
theorem length_rows_of_shard {e : EmbTable} {k : Nat} (hs : e.shardBits < e.rowBits) (hk : k < 2 ^ e.shardBits) :
    ((List.range (2 ^ e.rowBits)).filter (fun r => (placeRow e r).1 == k)).length = 2 ^ (e.rowBits - e.shardBits) := by
  have hcard : ((List.range (2 ^ e.rowBits)).filter (fun r => (placeRow e r).1 == k)).length =
      ((Finset.range (2 ^ e.rowBits)).filter (fun r => (placeRow e r).1 = k)).card := by
    rw [← List.toFinset_card_of_nodup (List.nodup_range.filter _)]
    congr 1
    ext r
    simp
  rw [hcard, ← Finset.card_range (2 ^ (e.rowBits - e.shardBits))]
  refine Finset.card_bij (fun r _ => (placeRow e r).2) ?inRange ?injective ?surjective
  case inRange => exact fun r _ => Finset.mem_range.2 (Nat.mod_lt _ (by positivity))
  case injective =>
    intro r hr q hq h
    obtain ⟨hr, hrk⟩ := Finset.mem_filter.1 hr
    obtain ⟨hq, hqk⟩ := Finset.mem_filter.1 hq
    exact placeRow_injOn e (Finset.mem_range.1 hr) (Finset.mem_range.1 hq) (Prod.ext (hrk.trans hqk.symm) h)
  case surjective =>
    intro j hj
    obtain ⟨r, hr, hp⟩ := exists_placeRow_eq hs hk (Finset.mem_range.1 hj)
    exact ⟨r, Finset.mem_filter.2 ⟨Finset.mem_range.2 hr, congrArg Prod.fst hp⟩, congrArg Prod.snd hp⟩

/-- Settles O59: the place as the pseudocode has it, then one row for each slot, and so as many rows in a shard as it has slots. -/
theorem rowsSpreadEvenly : Obligations.RowsSpreadEvenly := by
  refine ⟨?place, ?slot, ?shard⟩
  case place =>
    intro e r _ _ _ _ _ c x0 x1 x2 x
    have hx : mixRow e r = x := by
      simp only [x, x2, x1, x0, c, mixRow, foldShift, mulMix, ceilDiv, Nat.shiftRight_eq_div_pow]
      rfl
    have hp : placeRow e r = (x >>> (e.rowBits - e.shardBits), x % 2 ^ (e.rowBits - e.shardBits)) := by
      rw [placeRow_eq, hx, Nat.shiftRight_eq_div_pow]
    refine ⟨hp, ?_⟩
    simp only [rowAddr, hp, Nat.zero_mul, Nat.zero_add]
  case slot =>
    intro e k j _ _ _ hs hk hj
    obtain ⟨r, hr, hp⟩ := exists_placeRow_eq hs hk hj
    exact ⟨r, hr, hp, fun q hq hpq => placeRow_injOn e hq hr (hpq.trans hp.symm)⟩
  case shard => exact fun e k _ _ _ hs hk => length_rows_of_shard hs hk

end Sys2Proof.Machine
end

section
/-! SUPPORT. The proof of O5: where a record of the Exchange Unit acts, what an expert accepts, and what a returned row or a pooled
partial adds to (R157 to R166, R171). -/
namespace Sys2Proof.Machine

/-! ## A record comes off its leg (R157, R161, R349) -/

section
variable {t : Nat} {ty : ExuType} {r : ExuRec} {s s1 : State}

@[simp] theorem ownLoc_answer (p : Pkt) (st : RespStatus) (d : List Byte) (l : List Nat) (s : State) :
    ownLoc (answer p st d l s) = ownLoc s := by
  simp [ownLoc]

theorem ownLoc_of_received (hr : Received t ty r s s1) : ownLoc s1 = ownLoc s := by
  obtain ⟨-, rfl⟩ | ⟨-, -, rfl⟩ := hr <;> simp

/-- A record that has been received goes onward from the state in which it was. -/
theorem arrive_of_received (hr : Received t ty r s s1) (f : State → State) : arrive ty r f (tick t s) = onward ty r f s1 := by
  obtain ⟨hleg, rfl⟩ | ⟨hleg, hnew, rfl⟩ := hr
  · simp only [arrive_eq, ownLoc_tick, hleg, if_true]
  · simp only [arrive_eq, ownLoc_tick, tick_xn, hleg, hnew, if_false, Option.elim]

/-- At the chip it is for, a record takes effect. -/
theorem arrive_of_arrives (ha : Arrives t ty r s s1) (f : State → State) : arrive ty r f (tick t s) = f s1 := by
  obtain ⟨hr, hdst⟩ := ha
  rw [arrive_of_received hr, onward, if_pos (hdst.trans (ownLoc_of_received hr).symm)]

theorem next_arrive {f : State → State} {u : State} (ha : Arrives t ty r s s1) (h : f s1 = u) :
    (.next (arrive ty r f (tick t s)) : Host.Outcome State Fault Refusal) = .next u := by
  rw [arrive_of_arrives ha, h]

section
variable (hr : Received t ty r s s1) (hdst : r.dst ≠ ownLoc s)
include hr hdst

theorem arrive_relays (hreach : reachable s1 r.dst = true) (f : State → State) :
    arrive ty r f (tick t s) = sendLeg 0 0 ty r s1 := by
  rw [arrive_of_received hr, onward, if_neg (by rwa [ownLoc_of_received hr]), if_pos hreach]

theorem arrive_loses (hreach : reachable s1 r.dst = false) (f : State → State) :
    arrive ty r f (tick t s) = loseExu 0 1 ty r s1 := by
  rw [arrive_of_received hr, onward, if_neg (by rwa [ownLoc_of_received hr]), if_neg (by simp [hreach])]

end

/-- A copy sent again is only answered again. -/
theorem arrive_again {a : RespPkt} (hleg : r.leg ≠ ownLoc s) (ha : mget s.xn.executed (execKey (legPkt ty r) r.fseq) = some a)
    (hresend : r.resend = true) (f : State → State) : arrive ty r f (tick t s) = sendXn r.leg 2 r.lc (.resp a) (tick t s) := by
  simp only [arrive_eq, ownLoc_tick, tick_xn, hleg, ha, hresend, if_false, if_true, Option.elim]

end

/-! ## The expert chip (R159) -/

section
variable {r : ExuRec} {x : ExpertEx} {s : State}

theorem expertOf_singleton (hx : s.exu.expert = [x]) (hr : sameEx x r = true) : expertOf s r = some x := by
  simp [expertOf, hx, hr]

theorem modExpert_singleton (hx : s.exu.expert = [x]) (hr : sameEx x r = true) (f : ExpertEx → ExpertEx) :
    modExpert r f s = { s with exu := { s.exu with expert := [f x] } } := by
  simp [modExpert, hx, hr]

/-- An exchange that has closed its last round closes none. -/
theorem closeRounds_of_closed (hx : expertOf s r = some x) (hc : x.closed = true) (n : Nat) : closeRounds r n s = s := by
  cases n with
  | zero => rfl
  | succ n =>
    unfold closeRounds
    rw [hx]
    cases layerOf s r.modelCtx r.layer with
    | none => rfl
    | some v => cases placement s r.modelCtx r.epoch r.layer <;> simp [hc]

theorem retryWaiting_of_nil (hw : s.exu.waiting = []) : retryWaiting s = s := by
  simp [retryWaiting, hw, retryFuel]

/-- Below its capacity an expert accepts the record. -/
theorem takeDispatch_accepts {l : LayerRec} (h : mgetD x.accepted r.expert 0 < l.capacity) :
    (takeDispatch l r x).acceptedRecs = x.acceptedRecs ++ [r] ∧ (takeDispatch l r x).rejects = x.rejects ∧
      mgetD (takeDispatch l r x).accepted r.expert 0 = sat 16 (mgetD x.accepted r.expert 0 + 1) := by
  simp only [takeDispatch, if_pos h, mgetD_mset_self, and_self]

/-- At its capacity it rejects the record. -/
theorem takeDispatch_rejects {l : LayerRec} (h : l.capacity ≤ mgetD x.accepted r.expert 0) :
    (takeDispatch l r x).acceptedRecs = x.acceptedRecs ∧ (takeDispatch l r x).rejects = x.rejects ++ [r] ∧
      (takeDispatch l r x).accepted = x.accepted := by
  simp only [takeDispatch, if_neg (not_lt.2 h), and_self]

/-- Neither renames or closes the exchange. -/
theorem takeDispatch_keeps (l : LayerRec) (q : ExuRec) (x : ExpertEx) :
    sameEx (takeDispatch l q x) = sameEx x ∧ (takeDispatch l q x).closed = x.closed := by
  unfold takeDispatch
  dsimp only
  split <;> exact ⟨rfl, rfl⟩

/-- A DISPATCH for the one exchange here, whose rounds have closed, is taken into it and lets nothing else happen. -/
theorem expertRec_dispatch_closed {p j : Nat} {l : LayerRec} (hl : layerOf s r.modelCtx r.layer = some (p, l, j))
    (hx : s.exu.expert = [x]) (hr : sameEx x r = true) (hc : x.closed = true) :
    expertRec (false, r) s = { s with exu := { s.exu with expert := [takeDispatch l r x] } } := by
  obtain ⟨hsame, hclosed⟩ := takeDispatch_keeps l r x
  have htake : modExpert r (takeRec false l r) s = { s with exu := { s.exu with expert := [takeDispatch l r x] } } :=
    modExpert_singleton hx hr _
  simp only [expertRec, hl, expertOf_singleton hx hr, Option.isSome_some, if_true, htake]
  exact closeRounds_of_closed (expertOf_singleton rfl ((congrFun hsame r).trans hr)) (hclosed.trans hc) 5

end

/-- Where the one exchange here has closed its rounds and nothing waits, a DISPATCH changes that exchange alone. -/
theorem answers_dispatch_closed {t p j : Nat} {r : ExuRec} {l : LayerRec} {x : ExpertEx} {s s1 : State} {P : ExpertEx → Prop}
    (ha : Arrives t .dispatch r s s1) (hl : layerOf s1 r.modelCtx r.layer = some (p, l, j)) (hx : s1.exu.expert = [x])
    (hr : sameEx x r = true) (hc : x.closed = true) (hw : s1.exu.waiting = []) (hP : P (takeDispatch l r x)) :
    Answers (.dispatch t r) s (fun u => ∃ y, u.exu.expert = [y] ∧ P y) := by
  have hu : retryWaiting (expertRec (false, r) s1) = { s1 with exu := { s1.exu with expert := [takeDispatch l r x] } } := by
    rw [expertRec_dispatch_closed hl hx hr hc, retryWaiting_of_nil]
    exact hw
  exact ⟨_, next_arrive ha hu, takeDispatch l r x, rfl, hP⟩

/-! ## The home chip (R164, R166) -/

section
variable {r : ExuRec} {x y : HomeEx} {s : State}

/-- Two exchanges at home bear one name. -/
def sameName (x y : HomeEx) : Prop := x.mc = y.mc ∧ x.layer = y.layer ∧ x.exchange = y.exchange

theorem modHome_singleton (hx : s.exu.home = [x]) (hy : sameName x y) : modHome y s = { s with exu := { s.exu with home := [y] } } := by
  obtain ⟨hmc, hlayer, hexchange⟩ := hy
  simp [modHome, hx, hmc, hlayer, hexchange]

theorem sameHome_of_sameName (hy : sameName x y) : sameHome y r = sameHome x r := by
  obtain ⟨hmc, hlayer, hexchange⟩ := hy
  simp [sameHome, hmc, hlayer, hexchange]

/-- The one exchange at home takes a record and becomes y; it combines once its returns are done. -/
theorem atHome_singleton {f : HomeEx → State → State} (hx : s.exu.home = [x]) (hr : sameHome x r = true) (hy : sameName x y)
    (hf : (f x s).exu.home = [y]) : atHome r f s = if returnsDone y then combine y (f x s) else f x s := by
  simp [atHome, hx, hf, hr, sameHome_of_sameName hy]

/-- A return CLOSE joins those that the one exchange at home holds. -/
theorem closeRec_return (hg : r.gather = false) (ht : r.toHome = true) (hx : s.exu.home = [x]) (hr : sameHome x r = true)
    (hy : y = { x with closes := x.closes ++ [(r.src, r.count)] }) :
    closeRec r s = if returnsDone y then combine y { s with exu := { s.exu with home := [y] } }
      else { s with exu := { s.exu with home := [y] } } := by
  have hname : sameName x y := by subst hy; exact ⟨rfl, rfl, rfl⟩
  have hmod : modHome y s = { s with exu := { s.exu with home := [y] } } := modHome_singleton hx hname
  simp only [closeRec, hg, ht, Bool.false_eq_true, if_false, if_true]
  rw [atHome_singleton (y := y) hx hr hname] <;> rw [← hy, hmod]

theorem writeSpans_exu (l : List (Nat × Nat)) (d : List Byte) (u : Exu) (s : State) :
    writeSpans l d { s with exu := u } = { writeSpans l d s with exu := u } := by
  induction l generalizing d s with
  | nil => rfl
  | cons a l ih => exact ih (d.drop a.2) (writeDram a.1 (d.take a.2) s)

/-- A row that may be read and is no poison is added into its slot, where it stays until every return is done. -/
theorem atHome_addReturn {l : List (Nat × Nat)} {v : SlotVal} (hx : s.exu.home = [x]) (hr : sameHome x r = true)
    (hslot : x.slots.any (fun w => w.slot == r.slot) = true) (hread : readSlot s x r.slot = some (l, v))
    (hst : r.status = .complete) (hp : spansPoisoned s l = false) (hdone : returnsDone (noteReturn r false x) = false) :
    atHome r (addReturn r) s = { putSlot l x.width { row := List.zipWith fadd v.row r.row, word := markWord r v.word } s with
      exu := { s.exu with home := [noteReturn r false x] } } := by
  have hadd : addReturn r x s = { putSlot l x.width { row := List.zipWith fadd v.row r.row, word := markWord r v.word } s with
      exu := { s.exu with home := [noteReturn r false x] } } := by
    have hmod := modHome_singleton (y := noteReturn r false x) hx ⟨rfl, rfl, rfl⟩
    simp [addReturn, hslot, hread, hst, hp, hmod, putSlot, writeSpans_exu]
  rw [atHome_singleton (y := noteReturn r false x) hx hr ⟨rfl, rfl, rfl⟩ (by rw [hadd]), hadd, hdone]
  rfl

end

/-! ## Gathers and bags (R171) -/

section
variable {r : ExuRec} {b : BagEx} {s : State}

/-- An owner pools its rows and sends them home. -/
theorem gatherRec_pools {i : Nat} {e : EmbTable} {l : List Nat} {s2 : State} (hj : servingJob s r.modelCtx = some i)
    (he : embTable s r.modelCtx r.epoch r.layer = some e) (hl : l = r.ids.map (fun id => rowAddr e (genSlot e r.gen) id % 2 ^ 41))
    (hreach : l.all (rowReach s r.modelCtx e) = true) (hp : ∀ a ∈ l, (linesOf a e.rowBytes).any (linePoisoned s) = false)
    (h2 : s2 = forEach (fun a u => countDram false a e.rowBytes (jobAt s i).ctx (jobAt s i).id 0xFFFF 0xFFFF u) l s) :
    gatherRec r s = modGather i r (fun x => { x with pooled := x.pooled + 1 }) (sendExu i r.home .pooled (poolRows s2 e r l) s2) := by
  have hbad : l.filter (fun a => (linesOf a e.rowBytes).any (linePoisoned s)) = [] :=
    List.filter_eq_nil_iff.2 fun a ha => by simp [hp a ha]
  subst h2
  simp only [gatherRec, hj, he, ← hl, hreach, hbad, Bool.not_true, Bool.false_eq_true, if_false, List.any_nil]

theorem owners_without_sender {q : Nat} {l : List Nat} (hn : q ∉ l) : (q :: l).filter (fun o => o != q) = l := by
  rw [List.filter_cons_of_neg (by simp), List.filter_eq_self]
  exact fun o ho => by simpa using ne_of_mem_of_not_mem ho hn

section
variable {l : List Nat} {b2 : BagEx} (hb : s.exu.bags = [b]) (hr : sameBag b r = true) (ho : b.owners = r.src :: l)
  (hn : r.src ∉ l) (hst : r.status = .complete) (h2 : b2 = { b with row := List.zipWith fadd b.row r.row, owners := l })
include hb hr ho hn hst h2

/-- A pooled row is added into its bag, which waits for the other owners. -/
theorem takePooled_waits (hl : l ≠ []) : takePooled r s = { s with exu := { s.exu with bags := [b2] } } := by
  subst h2
  simp [takePooled, hb, hr, ho, hst, owners_without_sender hn, hl]

/-- The last owner's row ends the bag, and with it the gather of its request. -/
theorem takePooled_ends (hl : l = []) {k : Nat} (hk : b.req = some k) :
    takePooled r s = settleAnswers (finishGather k { s with exu := { s.exu with bags := [b2] } }) := by
  subst h2 hl
  simp [takePooled, hb, hr, ho, hst, hk]

end

end

/-- Settles O5: a record comes off its leg, and at the chip it is for acts as the lemma on its type says. -/
theorem expertRecordsTakeEffect : Obligations.ExpertRecordsTakeEffect := by
  refine ⟨?dispatch, ?accepted, ?rejected, ?dispatchRelayed, ?dispatchLost, ?again, ?close, ?returnClose, ?combines, ?gatherClose,
    ?closeRelayed, ?ret, ?added, ?retRelayed, ?gather, ?pools, ?bagWaits, ?bagEnds⟩
  case dispatch | ret | gather => exact fun t r s s1 ha => next_arrive ha rfl
  case accepted =>
    exact fun t r s s1 p l j x ha hl hx hr hc hw hcap => answers_dispatch_closed ha hl hx hr hc hw (takeDispatch_accepts hcap)
  case rejected =>
    exact fun t r s s1 p l j x ha hl hx hr hc hw hcap => answers_dispatch_closed ha hl hx hr hc hw (takeDispatch_rejects hcap)
  case dispatchRelayed | closeRelayed | retRelayed =>
    exact fun t r s s1 hr hdst hreach => congrArg Host.Outcome.next (arrive_relays hr hdst hreach _)
  case dispatchLost => exact fun t r s s1 hr hdst hreach => congrArg Host.Outcome.next (arrive_loses hr hdst hreach _)
  case again => exact fun t r s a hleg ha hresend => congrArg Host.Outcome.next (arrive_again hleg ha hresend _)
  case close => exact fun t r s s1 ha hg ht => next_arrive ha (by simp [closeRec, hg, ht])
  case returnClose | combines =>
    intro t r s s1 x ha hg ht hx hr hdone
    refine next_arrive ha ?_
    rw [closeRec_return hg ht hx hr rfl, hdone]
    rfl
  case gatherClose => exact fun t r s s1 i ha hg ht hj => next_arrive ha (by simp [closeRec, hg, ht, hj])
  case added =>
    intro t r s s1 x l v ha hx hr hslot hread hst hp hdone
    exact ⟨_, next_arrive ha (atHome_addReturn hx hr hslot hread hst hp hdone), rfl, rfl⟩
  case pools => exact fun t r s s1 i e l ha hj he hl hreach hp => next_arrive ha (gatherRec_pools hj he hl hreach hp rfl)
  case bagWaits =>
    exact fun t r s s1 b l ha hb hr ho hl hn hst => ⟨_, next_arrive ha (takePooled_waits hb hr ho hn hst rfl hl), rfl, rfl⟩
  case bagEnds =>
    exact fun t r s s1 b k ha hb hr ho hst hk => next_arrive ha (takePooled_ends hb hr ho (by simp) hst rfl rfl hk)

end Sys2Proof.Machine
end

section
/-! SUPPORT. The proof of O6: the commands on rows and generations of embedding tables, and the records that carry them out
(R161, R173 to R177). -/
namespace Sys2Proof.Machine

theorem reachAll_of_all {l : List Nat} {s : State} (hl : l.all (reachable s) = true) (i : Nat) (f : State → State) :
    reachAll i l f s = f s := by
  have hnone : l.find? (fun d => !reachable s d) = none := by
    rw [List.find?_eq_none]
    exact fun d hd => by simp [List.all_eq_true.1 hl d hd]
  simp only [reachAll, hnone]

/-! ## The commands (R173, R175, R176) -/

section
variable {t : Nat} {h : Hdr} {tb row idx : Nat} {e : EmbTable} {s s1 : State} (hb : Begins t h s s1)
  (hshape : shapeCheck s1 h { rings := [2], job := true, mc := true } false = none) (hjob : jobCheck s1 h = none)
  (hserves : servesCheck s1 h = none) (htb : tableIdx s1 h.modelCtx tb = some (idx, e))
include hb hshape hjob hserves htb

theorem execEmbRowUpdate_sends (hrow : row < 2 ^ e.rowBits) (hfree : (twoSlot e && embBusy s1 h.modelCtx idx) = false)
    {d : List Byte} {c : EmbCmd} {x : Nat} {s2 : State}
    (h2 : nextEmbEx h.modelCtx idx (countHostRd h.ctx h.job h.layerTag h.opTag e.rowBytes s1) = (x, s2))
    (hc : c = { cmd := cmdOf h, job := h.job, mc := h.modelCtx, table := idx, exchange := x, epoch := newestNum s1 h.modelCtx, phase := 0,
                gen := (embStateAt s1 h.modelCtx (newestNum s1 h.modelCtx) idx).gen, left := [rowOwner e row],
                layerTag := h.layerTag, opTag := h.opTag }) :
    execEmbRowUpdate t h tb row (some d) s = .next (endPoll (sendExu (jobIdx h.job) (rowOwner e row) .update
      { embRec s2 c c.gen with ids := [row], bytes := d.take e.rowBytes, count := 1 } (addEmbCmd c s2))) := by
  have hn : ∀ u, u.mdl = s1.mdl → newestNum u h.modelCtx = newestNum s1 h.modelCtx := fun u hu => by simp [newestNum, modelOf, hu]
  have hg : ∀ u, u.mdl = s1.mdl → embStateAt u = embStateAt s1 := fun u hu => by
    funext mc n i
    simp [embStateAt, epochOf, modelOf, hu]
  subst hc
  simp only [execEmbRowUpdate, command_of_begins hb, hshape, hjob, hserves, htb, hfree, not_le.2 hrow, firstOf_cons_none, firstOf_nil,
    if_false, Bool.false_eq_true, h2, hn, hg, countHostRd_frame]

theorem execEmbRowUpdate_busy (hrow : row < 2 ^ e.rowBits) (htwo : twoSlot e = true) (hbusy : embBusy s1 h.modelCtx idx = true)
    (d : Option (List Byte)) : execEmbRowUpdate t h tb row d s = .next (endPoll (final (cmdOf h) .busy 0 0 s1)) := by
  simp [execEmbRowUpdate, command_of_begins hb, hshape, hjob, hserves, htb, htwo, hbusy, not_le.2 hrow]

section
variable (hfree : embBusy s1 h.modelCtx idx = false) {st : EmbState} (hst : st = embStateAt s1 h.modelCtx (newestNum s1 h.modelCtx) idx)
include hfree hst

theorem execEmbGenCommit_sends (htwo : twoSlot e = true) (hstaged : st.issued = true ∨ st.staged ≠ [])
    (hreach : (modelChips s1 h.modelCtx).all (reachable s1) = true) {c : EmbCmd} {x : Nat} {s2 : State}
    (h2 : nextEmbEx h.modelCtx idx s1 = (x, s2))
    (hc : c = { cmd := cmdOf h, job := h.job, mc := h.modelCtx, table := idx, exchange := x, epoch := newestNum s1 h.modelCtx, phase := 1,
                gen := (st.gen + 1) % 2 ^ 32, left := modelChips s1 h.modelCtx, layerTag := h.layerTag, opTag := h.opTag }) :
    execEmbGenCommit t h tb s = .next (endPoll (forEach (fun d s => sendExu (jobIdx h.job) d .commit (embRec s c c.gen) s)
      (modelChips s1 h.modelCtx) (addEmbCmd c s2))) := by
  have hs2 : reachable s2 = reachable s1 := by cases h2; rfl
  have hsome : (!st.issued && st.staged.isEmpty) = false := by
    rcases hstaged with h | h <;> simp [h]
  have hall : (modelChips s1 h.modelCtx).all (reachable s2) = true := by rwa [hs2]
  subst hst hc
  simp only [execEmbGenCommit, command_of_begins hb, hshape, hjob, hserves, htb, hfree, htwo, hsome, firstOf_cons_none, firstOf_nil,
    if_false, Bool.false_eq_true, h2, Bool.not_true, Bool.or_self, hall, if_true, reachAll_of_all hall]

theorem execEmbGenCommit_nothing (hnone : twoSlot e = false ∨ (st.issued = false ∧ st.staged = [])) :
    execEmbGenCommit t h tb s = .next (endPoll (final (cmdOf h) .complete st.gen 0 s1)) := by
  have hnone' : (!twoSlot e || (!st.issued && st.staged.isEmpty)) = true := by
    rcases hnone with h | ⟨hi, hs⟩
    · simp [h]
    · simp [hi, hs]
  subst hst
  simp only [execEmbGenCommit, command_of_begins hb, hshape, hjob, hserves, htb, hfree, hnone', firstOf_cons_none, firstOf_nil, if_false,
    Bool.false_eq_true, if_true]

end

end

/-! ## The owner of a row, and the chips of the model context (R174 to R177) -/

section
variable {r : ExuRec} {s : State} {e : EmbTable} (he : embTable s r.modelCtx r.epoch r.layer = some e)
include he

section
variable {row i : Nat} {l : List Nat} (hj : servingJob s r.modelCtx = some i) (hids : r.ids = row :: l)
include hj hids

/-- A row of a table with one slot is written at once. -/
theorem updateRec_writes {a : Nat} (hone : twoSlot e = false) (ha : a = rowAddr e 0 row % 2 ^ 41)
    (hreach : rowReach s r.modelCtx e a = true) : updateRec r s = sendDone r .complete (writeDram a r.bytes s) := by
  subst ha
  simp only [updateRec, hj, hids, he, hone, hreach, Bool.false_and, Bool.false_eq_true, if_false, Bool.not_true]

theorem updateRec_unsettled (htwo : twoSlot e = true) (hu : (embStateAt s r.modelCtx r.epoch r.layer).unsettled = true) :
    updateRec r s = sendDone r .busy s := by
  simp only [updateRec, hj, hids, he, htwo, hu, Bool.and_self, if_true]

end

section
variable {st : EmbState} (hst : st = embStateAt s r.modelCtx r.epoch r.layer)
include hst

/-- The generation after the one in force is applied. -/
theorem commitRec_next (hlt : st.gen < 2 ^ 32) (hnext : (st.gen + 1) % 2 ^ 32 = r.gen) (hu : st.unsettled = false) :
    commitRec r s = applyGen st.gen ((shardChips e).contains (ownLoc s)) (some (r.home, r.exchange)) r s := by
  have hne : st.gen ≠ r.gen := by omega
  subst hst
  simp only [commitRec, he, hne, hnext, hu, if_false, if_true, Bool.false_eq_true]

/-- The staged rows are copied into the other slot, where the chip may reach them all. -/
theorem settleRec_copies
    (hreach : st.staged.all (fun q => rowReach s r.modelCtx e (rowAddr e ((st.gen + 1) % 2) q.1 % 2 ^ 41)) = true) :
    settleRec r s = sendDone r .complete (modEmb r.modelCtx r.epoch r.layer
      (fun x => { x with staged := [], issued := false, unsettled := false })
      (forEach (fun q s => writeDram (rowAddr e ((st.gen + 1) % 2) q.1 % 2 ^ 41) q.2 s) st.staged s)) := by
  subst hst
  simp only [settleRec, he, hreach, Bool.not_true, Bool.false_eq_true, if_false]

end

end

/-! ## The issuing chip (R161, R176) -/

section
variable {r : ExuRec} {s : State} {c : EmbCmd} (hc : embCmdOf s r = some c)
include hc

/-- The last answer that a phase waits for begins the next. -/
theorem doneRec_last (hphase : c.phase ≠ 3) (hleft : c.left = [r.src]) (hst : r.status = .complete) :
    doneRec r s = nextPhase c s := by
  simp [doneRec, hc, hphase, hleft, hst]

theorem doneRec_refused (hphase : c.phase ≠ 3) (hst : r.status ≠ .complete) : doneRec r s = undoEmb c r.status s := by
  simp [doneRec, hc, hphase, hst]

theorem goneRec_command (hhome : s.exu.home = []) (hbags : s.exu.bags = []) (hphase : c.phase ≠ 3) :
    goneRec r s = undoEmb c .fabricTargetLost s := by
  simp [goneRec, hc, hhome, hbags, loseEmb, hphase]

end

theorem nextPhase_update {c : EmbCmd} (hphase : c.phase = 0) (s : State) :
    nextPhase c s = final c.cmd .complete 0 0 (dropEmbCmd c (modEmb c.mc c.epoch c.table (fun x => { x with issued := true }) s)) := by
  simp [nextPhase, hphase]

theorem nextPhase_settled {c : EmbCmd} (hphase : c.phase = 2) (s : State) : nextPhase c s = final c.cmd .complete c.gen 0
    (dropEmbCmd c (modEmb c.mc c.epoch c.table (fun x => { x with issued := false, unsettled := false }) s)) := by
  simp [nextPhase, hphase]

/-- An update that does not succeed stages nothing and ends. -/
theorem undoEmb_update {c : EmbCmd} (hphase : c.phase = 0) (st : Status) (s : State) :
    undoEmb c st s = dropEmbCmd c (final c.cmd st 0 0 s) := by
  simp [undoEmb, hphase]

theorem goneRec_exchange {r : ExuRec} {x : HomeEx} {s : State} (hx : s.exu.home = [x]) (hr : sameHome x r = true) :
    goneRec r s = lostTarget (jobIdx x.job) 2 r.src { s with exu := { s.exu with home := [] } } := by
  simp [goneRec, hx, hr]

/-- Settles O6: the two commands by their checks, each record by the lemma on it above. -/
theorem embeddingUpdatesComplete : Obligations.EmbeddingUpdatesComplete := by
  refine ⟨?updateSent, ?updateBusy, ?commitSent, ?commitNothing, ?written, ?unsettled, ?applied, ?nothingStaged, ?settled, ?updateDone,
    ?commitDone, ?refused, ?commandGone, ?exchangeGone⟩
  case updateSent =>
    intro t h tb row d s s1 idx e hb hshape hjob hserves htb hrow hfree
    exact ⟨_, execEmbRowUpdate_sends hb hshape hjob hserves htb hrow hfree rfl rfl, _, _, _, rfl, rfl, rfl⟩
  case updateBusy =>
    exact fun t h tb row d s s1 idx e hb hshape hjob hserves htb hrow htwo hbusy =>
      execEmbRowUpdate_busy hb hshape hjob hserves htb hrow htwo hbusy d
  case commitSent =>
    intro t h tb s s1 idx e st hb hshape hjob hserves htb hfree hst htwo hstaged hreach
    exact ⟨_, execEmbGenCommit_sends hb hshape hjob hserves htb hfree hst htwo hstaged hreach rfl rfl, _, _, _, rfl, rfl, rfl⟩
  case commitNothing =>
    intro t h tb s s1 idx e st hb hshape hjob hserves htb hfree hst hnone
    exact ⟨_, execEmbGenCommit_nothing hb hshape hjob hserves htb hfree hst hnone, rfl⟩
  case written =>
    exact fun t r s s1 row l e a i ha hj hids he hone haddr hreach => next_arrive ha (updateRec_writes he hj hids hone haddr hreach)
  case unsettled =>
    exact fun t r s s1 row l e i ha hj hids he htwo hu => next_arrive ha (updateRec_unsettled he hj hids htwo hu)
  case applied =>
    exact fun t r s s1 tb st ha he hst _ hlt hnext hu => next_arrive ha (commitRec_next he hst hlt hnext hu)
  case nothingStaged =>
    intro t r s s1 tb ha he hnil
    refine next_arrive ha ((settleRec_copies he rfl (by simp [hnil])).trans ?_)
    rw [hnil]
    rfl
  case settled =>
    intro t r s s1 tb st q ha he hst hq hreach
    refine next_arrive ha ((settleRec_copies he hst (by simpa [hq] using hreach)).trans ?_)
    rw [hq]
    rfl
  case updateDone =>
    exact fun t r s s1 c ha hc hphase hleft hst =>
      next_arrive ha ((doneRec_last hc (by omega) hleft hst).trans (nextPhase_update hphase s1))
  case commitDone =>
    exact fun t r s s1 c ha hc hphase hleft hst =>
      next_arrive ha ((doneRec_last hc (by omega) hleft hst).trans (nextPhase_settled hphase s1))
  case refused =>
    exact fun t r s s1 c ha hc hphase hst =>
      next_arrive ha ((doneRec_refused hc (by omega) hst).trans (undoEmb_update hphase r.status s1))
  case commandGone =>
    exact fun t r s s1 c ha hhome hbags hc hphase =>
      next_arrive ha ((goneRec_command hc hhome hbags (by omega)).trans (undoEmb_update hphase _ s1))
  case exchangeGone => exact fun t r s s1 x ha hx hr => next_arrive ha (goneRec_exchange hx hr)

end Sys2Proof.Machine
end

section
/-! SUPPORT. The proof of O13: a partition is made out of free chunks, a border moves through CHECK, RECLAIM and RETAG, and a frame
moves out of a chunk that is to be taken (R202 to R204, R487). -/
namespace Sys2Proof.Machine

/-! ## PART_CREATE (R487) -/

/-- Partition p is q. -/
def setPart (p : Nat) (q : Part) (s : State) : State := { s with mem := { s.mem with parts := mset s.mem.parts p q } }

theorem partOf_setPart_self (p : Nat) (q : Part) (s : State) : partOf (setPart p q s) p = q := by
  simp [partOf, setPart]

theorem partOf_setPart_ne {p k : Nat} (h : k ≠ p) (q : Part) (s : State) : partOf (setPart p q s) k = partOf s k :=
  mgetD_mset_ne _ _ _ _ _ h

theorem changesOnly.setPart {p : Nat} {q : Part} {l : List Piece} {s u : State} (h : changesOnly l s u)
    (hl : .mem ∈ l := by simp) : changesOnly l s (setPart p q u) :=
  h.setMem rfl hl

theorem changesOnly_zeroChunks (m : Nat) (l : List (Nat × Nat)) (s : State) : changesOnly [.mem, .dram] s (zeroChunks m l s) := by
  intro piece hp
  cases piece with
  | mem | dram => simp at hp
  | _ => rfl

/-- A PART_CREATE that every check passes makes the partition out of zeroed chunks that were free. -/
theorem execPartCreate_makes {t : Nat} {h : Hdr} {p tg size low high : Nat} {w : Nat × Nat} {s s1 : State} (hb : Begins t h s s1)
    (hshape : shapeCheck s1 h infoAdmin false = none) (hp : p ≤ 63) (hinv : invasive s1 = false) (herase : erasing s1 p = false)
    (hnew : (partOf s1 p).present = false) (htag : tg ≠ 0) (hw : watermarks size low high = some w)
    (hroom : size ≤ runLen (freeRuns s1)) :
    execPartCreate t h p tg size low high s = .next (endPoll (final (cmdOf h) .complete 0 0
      (setPart p { present := true, tag := tg, chunks := takeRuns size (freeRuns s1), low := w.1, high := w.2, holdsData := true }
        (zeroChunks 0 (takeRuns size (freeRuns s1)) s1)))) := by
  have hnum : decide (63 < p) = false := decide_eq_false (not_lt.2 hp)
  have hfits : decide (runLen (freeRuns s1) < size) = false := decide_eq_false (not_lt.2 hroom)
  have htag' : (tg == 0) = false := by simpa using htag
  simp only [execPartCreate, command_of_begins hb, hnum, hshape, hinv, herase, hnew, htag', hw, hfits, Option.isNone_some,
    Bool.or_self, failIf_false, firstOf_cons_none, firstOf_nil, Option.getD_some]
  rfl

/-! ## PART_RESIZE (R202) -/

/-- A partition's number is not the one that names the model space. -/
theorem ne_modelSpace {x : Nat} (hx : x ≤ 63) : x ≠ 0xFF := by omega

/-- A PART_RESIZE of a partition that every check passes begins its long operation in CHECK. -/
theorem execPartResize_checks {t : Nat} {h : Hdr} {x size low high : Nat} {w : Nat × Nat} {s s1 : State} (hb : BeginsTwo t h s s1)
    (hshape : shapeCheck s1 h { rings := [2], admin := true, flags := 1 } false = none) (hx : x ≤ 63)
    (hp : (partOf s1 x).present = true) (hw : watermarks size low high = some w) (hinv : invasive s1 = false)
    (hpower : s1.pw.pending = false)
    (hone : opsWith s1 (fun k => match k with | .partResize y _ _ _ _ _ _ _ => y == x | _ => false) = []) :
    execPartResize t h x size low high s = .next (endPoll (checkResize s1.ops.next x size (bit h.flags 0)
      (beginOp h (.partResize x size w.1 w.2 (bit h.flags 0) (runLen (targetChunks s1 x)) (partOf s1 x).low (partOf s1 x).high)
        0x30 s1))) := by
  simp only [execPartResize, command2_of_begins hb, hx, ne_modelSpace hx, hshape, hp, hw, hinv, powerCheck, hpower, decide_true,
    Bool.true_or, Bool.not_true, Bool.and_false, Bool.false_and, Option.isNone_some, Bool.or_self, failIf_false, firstOf_cons_none,
    Option.getD_some, if_false]
  generalize hl : opsWith s1 _ = l
  obtain rfl : l = [] := hl.symm.trans hone
  rfl

/-! ## RETAG ends (R202) -/

theorem mmod_mmod {α : Type} (m : NMap α) (k : Nat) (f g : α → α) : mmod (mmod m k f) k g = mmod m k (fun x => g (f x)) := by
  induction m with
  | nil => rfl
  | cons e m ih =>
    obtain ⟨k', v⟩ := e
    by_cases hk : k' = k
    · simp [mmod, hk]
    · simp [mmod, hk, ih]

theorem modPart_modPart (p : Nat) (f g : Part → Part) (s : State) :
    modPart p g (modPart p f s) = modPart p (fun q => g (f q)) s := by
  simp only [modPart, mmod_mmod]

/-- The chunks taken are zeroed; a partition that grows to its target gets them; it has its new watermarks (log entry
68), no target any more, and the operation completes. -/
theorem retagDone_part {op x size low high cur l0 h0 : Nat} {cons : Bool} {o : LongOp} {s s1 : State} (ho : mget s.ops.live op = some o)
    (hk : o.kind = .partResize x size low high cons cur l0 h0) (hc : o.code = 0x32) (hx : x ≤ 63)
    (h1 : s1 = zeroChunks 0 o.runs s) :
    retagDone op s = endOp op .complete 0 (modPart x (fun p => { p with low := low, high := high, target := none })
      (if runLen (targetChunks s1 x) + runLen o.runs ≤ size then modTarget x (fun l => l ++ o.runs) s1 else s1)) := by
  subst h1
  simp only [retagDone, ho, hk, hc, setTarget, ne_modelSpace hx, modPart_modPart, decide_eq_true_eq, ne_eq, not_true_eq_false,
    if_false]

/-! ## A frame moves (R203) -/

/-- Between steps, and with no resize of its partition under way, a frame of an object moves to the frame found for it. -/
theorem execFrameMigration_moves {t p a b : Nat} {s : State} (hobj : (partOf s p).objs.any (fun o => o.frames.contains a) = true)
    (hrun : partRunning (tick t s) p = false) (hclean : a ∉ s.mem.poisonFrames)
    (hto : findFrames (tick t s) { partOf s p with chunks := cutRun (a / 32) (partOf s p).chunks } (lmodeOf s (a / 32)) 1 = some [b])
    (hno : opsWith (tick t s) (fun k => match k with | .partResize x _ _ _ _ _ _ _ => x == p | _ => false) = []) :
    execFrameMigration t p a s = .next (moveFrame p a b (tick t s)) := by
  have hclean' : s.mem.poisonFrames.contains a = false := by simpa using hclean
  simp only [execFrameMigration, partOf_tick, lmodeOf_tick, tick_mem, hobj, hrun, hclean', hto, Bool.not_true, Bool.or_self,
    Bool.false_eq_true, if_false]
  generalize hl : opsWith (tick t s) _ = l
  obtain rfl : l = [] := hl.symm.trans hno
  rfl

/-- Settles O13: the two commands by their checks, RETAG by whether the partition grows, each by the lemma on it above. -/
theorem partitionsAreMadeAndResized : Obligations.PartitionsAreMadeAndResized := by
  refine ⟨?makes, ?checks, ?resumes, ?shrinks, ?grows, ?moves⟩
  case makes =>
    intro t h p tg size low high w s s1 hb hshape hp hinv herase hnew htag hw hroom
    exact ⟨_, execPartCreate_makes hb hshape hp hinv herase hnew htag hw hroom, partOf_setPart_self _ _ _,
      fun q hq => partOf_setPart_ne hq _ _, rfl, (changesOnly_zeroChunks _ _ _).setPart⟩
  case checks =>
    exact fun t h x size low high w s s1 hb hshape hx hp hw hinv hpower hone =>
      execPartResize_checks hb hshape hx hp hw hinv hpower hone
  case resumes => exact fun t op s => rfl
  case shrinks =>
    intro t op s o x size low high cons cur l0 h0 s1 ho hk hc hx h1 hlt
    have hretag := retagDone_part (s := tick t s) ho hk hc hx h1
    rw [if_neg (not_le.2 hlt)] at hretag
    exact congrArg Host.Outcome.next hretag
  case grows =>
    intro t op s o x size low high cons cur l0 h0 s1 ho hk hc hx h1 hle
    have hretag := retagDone_part (s := tick t s) ho hk hc hx h1
    rw [if_pos hle] at hretag
    exact congrArg Host.Outcome.next hretag
  case moves => exact fun t p a b s hobj hrun hclean hto hno => execFrameMigration_moves hobj hrun hclean hto hno

end Sys2Proof.Machine
end

section
/-! SUPPORT. The proof of O16: a tile's way through its channel (R100, R187, R189, R192), the ages and evictions of frames (R195,
R196), acknowledged invalidations (R211), and the drops and publications of KV (R212, R221). -/
namespace Sys2Proof.Machine

/-! ## TILE_MOVE (R187) -/

/-- The tile that a host command queues for job i on channel n. -/
def hostTile (h : Hdr) (d : TileDesc) (n : Nat) (s : State) : TileJob :=
  { d := { d with layerId := h.layerTag, operatorId := h.opTag }, job := jobIdx h.job, posted := false, lc := (chanOf s n).cls == 1
    deadline := h.deadline, cmd := cmdOf h, ctx := h.ctx, kv := (jobAt s (jobIdx h.job)).ctx, plate := 64 }

section
variable {t n : Nat} {h : Hdr} {d : TileDesc} {s s1 : State} (hb : Begins t h s s1)
  (hshape : shapeCheck s1 h { rings := [2], job := true } (tileBad true d) = none) (hjob : jobCheck s1 h = none)
  (hchan : jobChan s1 (jobIdx h.job) d.channel = some n)
include hb hshape hjob hchan

/-- A tile without a fault joins the queue of its channel. -/
theorem execTileMove_queues (hf : tileFault s1 (jobIdx h.job) (jobAt s1 (jobIdx h.job)).ctx 64 d = none) :
    execTileMove t h d s = .next (endPoll (queueTile n (hostTile h d n s1) s1)) := by
  simp only [execTileMove, command_of_begins hb, hshape, hjob, hchan, hf, Option.isNone_some, failIf_false, firstOf_cons_none,
    firstOf_nil]
  rfl

/-- One with an end where the job may not reach completes with ACCESS_DENIED. -/
theorem execTileMove_denied (hf : tileFault s1 (jobIdx h.job) (jobAt s1 (jobIdx h.job)).ctx 64 d = some .denied) :
    execTileMove t h d s = .next (endPoll (final (cmdOf h) .accessDenied 0 0 s1)) := by
  simp only [execTileMove, command_of_begins hb, hshape, hjob, hchan, hf, Option.isNone_some, failIf_false, firstOf_cons_none,
    firstOf_cons_some]

end

/-! ## The piece at hand (R100, R189) -/

/-- A piece that has begun does not begin again. -/
theorem beginPiece_of_begun {n : Nat} {j : TileJob} {s : State} (hh : headTile s n = some j) (hb : j.begun = true) :
    beginPiece n s = s := by
  simp only [beginPiece, hh, hb, Bool.or_true, if_true]

theorem mayLand_iff {j : TileJob} {s : State} : mayLand j s = true ↔
    (srcPlaces s j ++ dstPlaces s j).contains .none = false ∧ (srcPlaces s j ++ dstPlaces s j).contains .recompute = false ∧
      partPoisoned s j.d.format (dstPlaces s j) = false := by
  simp only [mayLand, Bool.and_eq_true, Bool.not_eq_true', and_assoc]

/-- Some unit of the piece comes from the host. -/
def fromHost (s : State) (j : TileJob) : Bool := (srcPlaces s j).any (fun p => match p with | .host _ => true | _ => false)

section
variable {ch : Nat} {j : TileJob} {data : List Byte} {s : State} (hr : PieceReady ch j data s)
include hr

theorem headTile_of_ready : headTile s ch = some j := hr.1

/-- A piece that is ready moves on by what its places allow: denied, held, stopped by poison, or landed. -/
theorem movePiece_of_ready (poisoned : Bool) : movePiece ch data poisoned s =
    if (srcPlaces s j ++ dstPlaces s j).contains .none then denyTile ch .accessDenied s
    else if (srcPlaces s j ++ dstPlaces s j).contains .recompute || partPoisoned s j.d.format (dstPlaces s j) then holdTile ch s
    else if poisoned then poisonTile ch s
    else (gather s j data).elim (poisonTile ch s) (fun got => landPiece ch j got s) := by
  obtain ⟨hhead, hbegun, hsent, hremotes, hdata⟩ := hr
  have hgiven : (fromHost s j && data.length != pieceBytes j.d j.doneBytes) = false := by
    rw [Bool.and_eq_false_imp]
    intro hhost
    simp [hdata hhost]
  have hgo : (!j.begun || j.sent || !(chanRemotes s ch).isEmpty ||
      (fromHost s j && data.length != pieceBytes j.d j.doneBytes)) = false := by
    simp [hgiven, hbegun, hsent, hremotes]
  unfold movePiece
  rw [hhead]
  refine (if_neg (ne_true_of_eq_false hgo)).trans ?_
  cases gather s j data <;> rfl

/-- A piece that may land does, with what its source gave. -/
theorem movePiece_lands {got : List (List Byte)} (hl : mayLand j s = true) (hg : gather s j data = some got) :
    movePiece ch data false s = landPiece ch j got s := by
  obtain ⟨hnone, hre, hpart⟩ := mayLand_iff.1 hl
  simp only [movePiece_of_ready hr, hnone, hre, hpart, hg, Bool.or_self, Bool.false_eq_true, if_false, Option.elim]

/-- One whose source is poison stops. -/
theorem movePiece_poisoned (hl : mayLand j s = true) : movePiece ch data true s = poisonTile ch s := by
  obtain ⟨hnone, hre, hpart⟩ := mayLand_iff.1 hl
  simp only [movePiece_of_ready hr, hnone, hre, hpart, Bool.or_self, Bool.false_eq_true, if_false, if_true]

/-- A posted tile is then held until its source is restored. -/
theorem poisonTile_of_posted (hp : j.posted = true) : poisonTile ch s = holdTile ch s := by
  simp only [poisonTile, headTile_of_ready hr, hp, if_true]

/-- A host command's tile completes with MEMORY_UNCORRECTABLE instead (log entry 66). -/
theorem poisonTile_of_host (hp : j.posted = false) : poisonTile ch s = failTile ch .memoryUncorrectable (fun _ s => s) s := by
  simp only [poisonTile, headTile_of_ready hr, hp, Bool.false_eq_true, if_false]

theorem movePiece_denied (hn : (srcPlaces s j ++ dstPlaces s j).contains .none = true) (poisoned : Bool) :
    movePiece ch data poisoned s = denyTile ch .accessDenied s := by
  simp only [movePiece_of_ready hr, hn, if_true]

theorem movePiece_awaits_recompute (hn : (srcPlaces s j ++ dstPlaces s j).contains .none = false)
    (hre : (srcPlaces s j ++ dstPlaces s j).contains .recompute = true) (poisoned : Bool) :
    movePiece ch data poisoned s = holdTile ch s := by
  simp only [movePiece_of_ready hr, hn, hre, Bool.true_or, Bool.false_eq_true, if_false, if_true]

end

/-- The event moves a piece that is ready to where movePiece takes it, and pieces begin on the channels that can. -/
theorem execTilePieceComplete_moves {t ch : Nat} {j : TileJob} {data : List Byte} {poisoned : Bool} {s u : State}
    (hr : PieceReady ch j data (tick t s)) (hu : movePiece ch data poisoned (tick t s) = u) :
    execTilePieceComplete t ch data poisoned s = .next (beginAll u) := by
  obtain ⟨hhead, hbegun, -⟩ := hr
  rw [execTilePieceComplete, beginPiece_of_begun hhead hbegun, hu]

/-! ## Ages and evictions (R195, R196) -/

/-- Where no frame is poisoned, no drop is asked for again. -/
theorem askPoisoned_of_clean {s : State} (hp : s.mem.poisonFrames = []) : askPoisoned s = s := by
  have hnone : ∀ l : List Nat, l.any (fun f => s.mem.poisonFrames.contains f) = false := by simp [hp]
  simp only [askPoisoned, hnone, Bool.and_false, Bool.false_and, List.filter_false, List.map_nil]
  rw [List.flatMap_eq_nil_iff.2 fun _ _ => rfl, forEach]

/-- The state once ages have been sampled, acc being the frames of this chip that other chips have accessed. -/
def sampleAges (acc : List Nat) (s : State) : State :=
  clearAccess { s with mem := { s.mem with
    lastAge := s.time
    ages := forEach (fun f m => if (accessedFrames s ++ acc).contains f then mdel m f else mset m f (min 255 (mgetD s.mem.ages f 0 + 1)))
      (s.mem.parts.flatMap (fun p => p.2.objs.flatMap (·.frames))) s.mem.ages } }

theorem changesOnly_sampleAges (acc : List Nat) (s : State) : changesOnly [.mem] s (sampleAges acc s) :=
  (changesOnly_refl _ s).setMem rfl

/-- A sample that is due ages the frames. -/
theorem execAgeSample_samples {t : Nat} {s : State} (hdue : s.mem.lastAge + s.mem.agePeriod * 100000 ≤ max s.time t)
    (hp : s.mem.poisonFrames = []) (acc : List Nat) : execAgeSample t acc s = .next (sampleAges acc (tick t s)) := by
  have hlate : ¬ (tick t s).time < s.mem.lastAge + s.mem.agePeriod * 100000 := not_lt.2 hdue
  have hclean : askPoisoned (sampleAges acc (tick t s)) = sampleAges acc (tick t s) := askPoisoned_of_clean hp
  simp only [execAgeSample, tick_mem, if_neg hlate]
  exact congrArg Host.Outcome.next hclean

theorem execEviction_evicts {p : Nat} {s : State} (hlow : freeFrames s (partOf s p) < (partOf s p).low) (t : Nat) :
    execEviction t p s = .next (evictUntil p (partOf s p).high (partOf s p).objs.length (tick t s)) := by
  simp only [execEviction, partOf_tick, freeFrames_tick, if_neg (not_le.2 hlow)]

/-! ## Invalidations (R211) -/

/-- DATU d acknowledges frame f to one invalidation. -/
def ackInval (d f : Nat) (v : Inval) : Inval := if v.frame == f then { v with waiting := v.waiting.filter (· != d) } else v

/-- The invalidations that still wait once d has acknowledged f. -/
def invalsLeft (d f : Nat) (l : List Inval) : List Inval := (l.map (ackInval d f)).filter (fun v => !v.waiting.isEmpty)

theorem not_mem_waiting_ackInval {d f : Nat} {v : Inval} (hf : (ackInval d f v).frame = f) : d ∉ (ackInval d f v).waiting := by
  unfold ackInval at hf ⊢
  split at hf
  next hv => simp [hv]
  next hv => exact absurd (beq_iff_eq.2 hf) hv

theorem ackInval_of_other {d f : Nat} {v : Inval} (hf : v.frame ≠ f) : ackInval d f v = v :=
  if_neg (by simpa using hf)

/-- What still waits, waits for some DATU, and of frame f no longer for d. -/
theorem waits_of_mem_invalsLeft {d f : Nat} {l : List Inval} {v : Inval} (hv : v ∈ invalsLeft d f l) :
    v.waiting ≠ [] ∧ (v.frame = f → d ∉ v.waiting) := by
  obtain ⟨hmap, hwait⟩ := List.mem_filter.1 hv
  obtain ⟨w, -, rfl⟩ := List.mem_map.1 hmap
  exact ⟨by simpa using hwait, not_mem_waiting_ackInval⟩

/-- The invalidations of other frames are as they were. -/
theorem mem_invalsLeft_of_other {d f : Nat} {l : List Inval} {v : Inval} (hv : v ∈ l) (hf : v.frame ≠ f) (hw : v.waiting ≠ []) :
    v ∈ invalsLeft d f l :=
  List.mem_filter.2 ⟨List.mem_map.2 ⟨v, hv, ackInval_of_other hf⟩, by simpa using hw⟩

/-- Frame f no longer waits for DATU d. -/
def endWait (d f : Nat) (s : State) : State := { s with mem := { s.mem with invals := invalsLeft d f s.mem.invals } }

theorem changesOnly_endWait (d f : Nat) (s : State) : changesOnly [.mem] s (endWait d f s) :=
  (changesOnly_refl _ s).setMem rfl

theorem changesOnly_modSeq (i : Nat) (f : Seq → Seq) (s : State) : changesOnly [.srv] s (modSeq i f s) := by
  intro piece hp
  cases piece with
  | srv => simp at hp
  | _ => rfl

/-- An acknowledgement takes its wait away, and frees the entries of the ending sequences that wait for no other (R230). -/
theorem execInvalidationAck_eq (t d f : Nat) (s : State) : ∃ done, execInvalidationAck t d f s =
    .next (forEach (fun i s => modSeq i (fun q => if q.st = 3 then { q with st := 0 } else q) s) done
      (endWait d f (tick t s))) := ⟨_, rfl⟩

/-- Besides the invalidations, an acknowledgement changes the entries of sequences alone. -/
theorem execInvalidationAck_acks (t d f : Nat) (s : State) : Answers (.invalidationAck t d f) s (fun u =>
    u.mem.invals = invalsLeft d f s.mem.invals ∧ changesOnly [.time, .mem, .srv] s u) := by
  obtain ⟨done, hu⟩ := execInvalidationAck_eq t d f s
  exact ⟨_, hu, by simp [endWait],
    (changesOnly_tick_trans (changesOnly_endWait d f _)).trans (changesOnly_forEach (fun i s => changesOnly_modSeq i _ s) _ _)⟩

/-! ## Drops of KV pages (R221) -/

/-- The two halves of a sequence handle. -/
theorem handle_mod {g i : Nat} (hi : i < 65536) : (g * 65536 + i) % 65536 = i := by omega
theorem handle_div {g i : Nat} (hi : i < 65536) : (g * 65536 + i) / 65536 = g := by omega

section
variable {t g i gr pg : Nat} {s : State} (hi : i < 65536)
include hi

/-- Of an entry that is free, no drop is granted. -/
theorem execDropGrantRequest_refuses (hst : (seqOf s i).st = 0) (src : Nat) :
    execDropGrantRequest t src (g * 65536 + i) gr pg s =
      .next (sendXn src 0 false (.dropGrant (g * 65536 + i) gr pg false) (tick t s)) := by
  simp [execDropGrantRequest, handle_mod hi, hst]

/-- The drop of a page that the sequence has is granted, and the page marked. -/
theorem execDropGrantRequest_grants (hst : (seqOf s i).st ≠ 0) (hg : (seqOf s i).gen = g)
    (hpage : (pageOf (seqOf s i) gr pg).isSome = true) (hok : dropGranted (tick t s) i = true) (src : Nat) :
    execDropGrantRequest t src (g * 65536 + i) gr pg s =
      .next (sendXn src 0 false (.dropGrant (g * 65536 + i) gr pg true) (dropKv i gr pg (tick t s))) := by
  have hlive : ((seqOf s i).st != 0) = true := by simpa using hst
  simp [execDropGrantRequest, handle_mod hi, handle_div hi, hlive, hg, hpage, hok]

end

/-- A page that this head chip holds for another's sequence goes: its translations, its entry, its frames. -/
theorem loseForeign_of_pub {home i gr pg : Nat} {s : State} {x : Pub} {geo : KvGeom} (hx : pubOf s home i = some x)
    (hgeo : pubGeom s x = some geo) : loseForeign home i gr pg s =
      forEach (fun pn s => freeLoose pn ((x.pages.filter (fun k => k.group == gr && k.page == pg)).filterMap (·.shared))
        (freeObjs pn (fun k => k == .kv home i gr pg) s)) (s.mem.parts.map (·.1))
      (modPub home i (fun x => { x with pages := x.pages.filter (fun k => !(k.group == gr && k.page == pg)) })
        (clearLeaves (headCtx home x.ctx) (pageVpns geo i gr pg) s)) := by
  simp only [loseForeign, hx, hgeo]
  rfl

section
variable {src : Nat} {s : State} (hsrc : src ≠ ownLoc s)
include hsrc

theorem execKvDrop_loses (t q : Nat) (page : Nat × Nat) :
    execKvDrop t src q page true s = .next (loseForeign src (q % 65536) page.1 page.2 (tick t s)) := by
  simp only [execKvDrop, ownLoc_tick, if_neg hsrc, if_true]

theorem execKvDrop_unwants (t q : Nat) (page : Nat × Nat) :
    execKvDrop t src q page false s = .next (unwant src (q % 65536) page.1 page.2 (tick t s)) := by
  simp only [execKvDrop, ownLoc_tick, if_neg hsrc, Bool.false_eq_true, if_false]

end

/-! ## Publications (R212) -/

/-- Of a sequence that was not published here, nothing is given up. -/
theorem freeForeign_of_none {home i : Nat} {s : State} (hx : pubOf s home i = none) : freeForeign home i s = s := by
  simp only [freeForeign, hx]

/-- A publication has been added. -/
def addPub (x : Pub) (s : State) : State := { s with srv := { s.srv with pubs := s.srv.pubs ++ [x] } }

theorem changesOnly_addPub (x : Pub) (s : State) : changesOnly [.srv] s (addPub x s) := by
  intro piece hp
  cases piece with
  | srv => simp at hp
  | _ => rfl

section
variable {src q : Nat} {s : State}

theorem execSequencePublication_adds (hx : pubOf s src (q % 65536) = none) (t c root mc e : Nat) :
    execSequencePublication t src c q root mc e s =
      .next (addPub { src := src, ctx := c, seq := q, root := root, mc := mc, epoch := e } (tick t s)) := by
  have hfree : freeForeign src (q % 65536) (tick t s) = tick t s := freeForeign_of_none hx
  simp only [execSequencePublication, pubOf_tick, hx, Option.filter_none, hfree]
  rfl

/-- A sequence published again has its new root and epoch. -/
theorem execSequencePublication_renews {x : Pub} (hx : pubOf s src (q % 65536) = some x) (hq : x.seq = q) (t c root mc e : Nat) :
    execSequencePublication t src c q root mc e s =
      .next (modPub src (q % 65536) (fun p => { p with ctx := c, root := root, mc := mc, epoch := e }) (tick t s)) := by
  have hsame : (x.seq == q) = true := by simpa using hq
  simp only [execSequencePublication, pubOf_tick, hx, Option.filter_some, hsame, if_true]

end

/-- Settles O16: a tile by its checks and its piece's places, then event by event, each by the lemma on it above. -/
theorem tilesAndPagesMove : Obligations.TilesAndPagesMove := by
  refine ⟨?queued, ?refused, ?landed, ?held, ?failed, ?denied, ?recompute, ?drawer, ?aged, ?evicted, ?invalidated, ?noDrop, ?dropped,
    ?lost, ?kept, ?published, ?renewed⟩
  case queued => exact fun t h d s s1 n hb hshape hjob hchan hf => execTileMove_queues hb hshape hjob hchan hf
  case refused => exact fun t h d s s1 n hb hshape hjob hchan hf => execTileMove_denied hb hshape hjob hchan hf
  case landed => exact fun t ch data s j got hr hl hg => execTilePieceComplete_moves hr (movePiece_lands hr hl hg)
  case held =>
    exact fun t ch data s j hr hl hp =>
      execTilePieceComplete_moves hr ((movePiece_poisoned hr hl).trans (poisonTile_of_posted hr hp))
  case failed =>
    exact fun t ch data s j hr hl hp =>
      execTilePieceComplete_moves hr ((movePiece_poisoned hr hl).trans (poisonTile_of_host hr hp))
  case denied => exact fun t ch data p s j hr hn => execTilePieceComplete_moves hr (movePiece_denied hr hn p)
  case recompute =>
    exact fun t ch data p s j hr hn hre => execTilePieceComplete_moves hr (movePiece_awaits_recompute hr hn hre p)
  case drawer => exact fun t s => rfl
  case aged =>
    intro t acc s hdue hp
    exact ⟨_, execAgeSample_samples hdue hp acc, rfl, rfl, rfl, changesOnly_tick_trans (changesOnly_sampleAges _ _)⟩
  case evicted => exact fun t p s hlow => execEviction_evicts hlow t
  case invalidated =>
    intro t d f s
    obtain ⟨u, hu, hinvals, hrest⟩ := execInvalidationAck_acks t d f s
    refine ⟨u, hu, ?_, ?_, hrest⟩ <;> rw [hinvals]
    · exact fun v => waits_of_mem_invalsLeft
    · exact fun v => mem_invalsLeft_of_other
  case noDrop => exact fun t src g i gr pg s hi hst => execDropGrantRequest_refuses hi hst src
  case dropped => exact fun t src g i gr pg s hi hst hg hpage hok => execDropGrantRequest_grants hi hst hg hpage hok src
  case lost =>
    intro t src q gr pg s x geo hsrc hx hgeo
    exact (execKvDrop_loses hsrc t q (gr, pg)).trans (congrArg Host.Outcome.next (loseForeign_of_pub (s := tick t s) hx hgeo))
  case kept => exact fun t src q gr pg s hsrc => ⟨_, execKvDrop_unwants hsrc t q (gr, pg), rfl⟩
  case published =>
    intro t src c q root mc e s hx
    exact ⟨_, execSequencePublication_adds hx t c root mc e, rfl, changesOnly_tick_trans (changesOnly_addPub _ _)⟩
  case renewed => exact fun t src c q root mc e s x hx hq => ⟨_, execSequencePublication_renews hx hq t c root mc e, rfl⟩

end Sys2Proof.Machine
end

section
/-! SUPPORT. The proof of O37: what the tiles, the errors of device memory, the care of frames and the borders of partitions leave
unchanged (R187, R189, R195, R196, R200, R202 to R204, R211, R212, R221, R248, R455, R487). -/
namespace Sys2Proof.Machine

/-! ## What the families of commands may change -/

/-- The parts that poison and a fatal error may change: those of a record's journey, and FAULT_N in pw. -/
def faultParts : List Piece := [.time, .hi, .ctxs, .mem, .srv, .mdl, .exu, .xn, .pw, .td, .cof, .out, .dram]

/-- The parts that a border which moves may change, or a frame which moves out of its way. -/
def borderParts : List Piece := [.time, .hi, .ctxs, .mem, .srv, .ops, .mdl, .xn, .td, .out, .dram]

/-- The parts that a dropped page may change. -/
def dropParts : List Piece := [.time, .ctxs, .mem, .srv, .xn, .td, .out]

section
variable {s u : State}

theorem changesOnly_faultParts (h : u.pending = s.pending ∧ u.id = s.id ∧ u.fab = s.fab ∧ u.ops = s.ops ∧ u.coll = s.coll ∧
    u.sec = s.sec ∧ u.draws = s.draws ∧ u.hi.lock = s.hi.lock ∧ u.pw.st = s.pw.st) : changesOnly faultParts s u := by
  simp [changesOnly_iff, allPieces, agree, faultParts, h]

theorem changesOnly_borderParts (h : u.pending = s.pending ∧ u.id = s.id ∧ u.fab = s.fab ∧ u.exu = s.exu ∧ u.coll = s.coll ∧
    u.pw = s.pw ∧ u.sec = s.sec ∧ u.cof = s.cof ∧ u.draws = s.draws ∧ u.hi.lock = s.hi.lock) : changesOnly borderParts s u := by
  simp [changesOnly_iff, allPieces, agree, borderParts, h]

theorem changesOnly_dropParts (h : u.pending = s.pending ∧ u.id = s.id ∧ u.hi = s.hi ∧ u.fab = s.fab ∧ u.ops = s.ops ∧
    u.mdl = s.mdl ∧ u.exu = s.exu ∧ u.coll = s.coll ∧ u.pw = s.pw ∧ u.sec = s.sec ∧ u.cof = s.cof ∧ u.draws = s.draws ∧
    u.mem.dram = s.mem.dram) : changesOnly dropParts s u := by
  simp [changesOnly_iff, allPieces, agree, dropParts, h]

/-- Where time is among the parts of l, the tick does not count. -/
theorem changesOnly_of_tick {l : List Piece} (ht : .time ∈ l) {t : Nat} (h : changesOnly l (tick t s) u) : changesOnly l s u :=
  changesOnly_tick_trans h ht (List.Subset.refl l)

end

/-! ## A fetched descriptor that may owe two records -/

theorem command2_of_not_fetched {t : Nat} {h : Hdr} {s : State} (hn : fetched t h s = none) (f : State → State) :
    command2 t h f s = tick t s := by
  simp [command2, hn]

section
variable {l : List Piece} {t : Nat} {h : Hdr} {f : State → State} (hf : ∀ s, changesOnly l s (f s)) (hl : fetchParts ⊆ l)
include hf hl

/-- Like a command that owes one record, it changes what its effect f changes, and the books of its context and ring. -/
theorem changesOnly_command2 (s : State) : changesOnly l s (command2 t h f s) := by
  cases h0 : fetched t h s with
  | none =>
    rw [command2_of_not_fetched h0]
    exact changesOnly_of_tick (hl (by decide)) (changesOnly_refl l _)
  | some s0 =>
    have hfetch : changesOnly fetchParts s s0 := changesOnly_fetchParts (by simp [fetched_frame h0])
    have hend : changesOnly fetchParts (f s0) (endPoll (f s0)) := changesOnly_fetchParts (by simp)
    rw [command2_of_begins h0]
    exact (((changesOnly_refl l s).trans hfetch hl).trans (hf s0) (List.Subset.refl l)).trans hend hl

theorem touches_of_command2 {c : Instr} (hc : ∀ s, exec c s = .next (command2 t h f s)) : Touches c l :=
  fun s => ⟨_, hc s, changesOnly_command2 hf hl s⟩

end

/-! ## Tiles (R187 to R189) -/

/-- A tile is refused by its checks, finds no channel, or joins its channel's queue. -/
theorem touches_tileMove (t : Nat) (h : Hdr) (d : TileDesc) : Touches (.tileMove t h d) recordParts := by
  refine touches_of_command (fun s => ?_) (by decide) fun _ => rfl
  dsimp only
  repeat' split
  all_goals exact changesOnly_recordParts (by simp)

/-- A piece may land in a plate's banks, and the tile it ends may signal the plate. -/
theorem touches_tilePieceComplete (t ch : Nat) (data : List Byte) (poisoned : Bool) :
    Touches (.tilePieceComplete t ch data poisoned) exchangeParts :=
  fun s => ⟨_, rfl, changesOnly_exchangeParts (by simp)⟩

theorem touches_cabinetDrawerGrant (t : Nat) : Touches (.cabinetDrawerGrant t) recordParts :=
  fun s => ⟨_, rfl, changesOnly_recordParts (by simp)⟩

/-! ## Errors of device memory (R98, R100, R248, R455, R457) -/

theorem changesOnly_deliverLine (n : Nat) (corrected : Bool) (s : State) : changesOnly [.mem] s (deliverLine n corrected s) := by
  unfold deliverLine
  split
  · exact (changesOnly_refl _ s).countSub
  · exact changesOnly_refl _ s

theorem changesOnly_poisonFrame (f : Nat) (s : State) : changesOnly faultParts s (poisonFrame f s) :=
  changesOnly_faultParts (by simp)

theorem changesOnly_fatal (unit : Nat) (hostFailed : Bool) (s : State) : changesOnly faultParts s (fatal unit hostFailed s) :=
  changesOnly_faultParts (by simp)

theorem touches_lineCheckFail (t line err : Nat) (again : Nat × Nat) : Touches (.lineCheckFail t line err again) faultParts := by
  refine fun s => ⟨_, rfl, changesOnly_of_tick (t := t) (by decide) ?_⟩
  generalize tick t s = s
  have hcounted : ∀ f, changesOnly faultParts s (countSub (subchannelOf s (line * 32)) f s) :=
    fun f => (changesOnly_refl _ s).countSub (by decide)
  have hdelivered : ∀ c u, changesOnly faultParts s u → changesOnly faultParts s (deliverLine (subchannelOf s (line * 32)) c u) :=
    fun c u h => h.trans (changesOnly_deliverLine _ c u) (by decide)
  split
  case isTrue => exact changesOnly_refl _ s
  case isFalse =>
    split
    case h_1 => exact hdelivered _ _ (changesOnly_refl _ s)
    case h_2 => exact hdelivered _ _ (hcounted _)
    case h_3 => exact hdelivered _ _ (hcounted _)
    case h_4 =>
      have hmarked : changesOnly faultParts s (poisonLine line s) :=
        (changesOnly_refl _ s).trans (changesOnly_poisonLine line s) (by decide)
      exact hmarked.trans (changesOnly_poisonFrame (line / 2048) (poisonLine line s)) (List.Subset.refl _)

/-- A frame stays as it is, is tested, or is restored first. -/
theorem touches_frameRestored (t f : Nat) (ok : Bool) (data : Option (List Byte)) :
    Touches (.frameRestored t f ok data) recordParts := by
  refine fun s => ⟨_, rfl, ?_⟩
  repeat' split
  all_goals exact changesOnly_recordParts (by simp)

theorem touches_restoreFailed (t f : Nat) : Touches (.restoreFailed t f) recordParts := by
  refine fun s => ⟨_, rfl, ?_⟩
  repeat' split
  all_goals exact changesOnly_recordParts (by simp)

/-- Slice after slice bills the controller; a subchannel that does not retrain goes offline, with a Coffer record (R200). -/
theorem touches_retrainSlice (t n : Nat) (last ok : Bool) : Touches (.retrainSlice t n last ok) [.time, .mem, .fab, .td, .cof] := by
  refine fun s => ⟨_, rfl, changesOnly_of_tick (t := t) (by decide) ?_⟩
  generalize tick t s = s
  have hdone : changesOnly [.time, .mem, .fab, .td, .cof] s (sliceDone n last s) :=
    (changesOnly_refl _ s).trans (changesOnly_sliceDone n last s)
  split
  case isTrue => exact changesOnly_refl _ s
  case isFalse =>
    dsimp only
    split
    case isTrue => exact hdone
    case isFalse => exact hdone.offlineTries.coffer

/-- A retry brings the subchannel back, leaves it offline, or is the third to fail, which is fatal (R458). -/
theorem touches_subchannelRetry (t n : Nat) (ok : Bool) : Touches (.subchannelRetry t n ok) faultParts := by
  refine fun s => ⟨_, rfl, changesOnly_of_tick (t := t) (by decide) ?_⟩
  generalize tick t s = s
  have hoffline : ∀ k, changesOnly faultParts s (offlineTries n k s) := fun k => (changesOnly_refl _ s).offlineTries (by decide)
  split
  case h_1 => exact changesOnly_refl _ s
  case h_2 k _ =>
    split
    case isTrue => exact (changesOnly_refl _ s).setMem rfl (by decide)
    case isFalse =>
      dsimp only
      split
      case isTrue => exact hoffline (k + 1)
      case isFalse => exact ((hoffline (k + 1)).coffer (by decide)).trans (changesOnly_fatal _ _ _) (List.Subset.refl _)

/-! ## Ages and evictions (R195, R196) -/

/-- Ages are the memory's; a head chip may ask its home chips for drops besides. -/
theorem touches_ageSample (t : Nat) (acc : List Nat) : Touches (.ageSample t acc) [.time, .mem, .xn, .td, .out] := by
  refine fun s => ⟨_, rfl, changesOnly_of_tick (t := t) (by decide) ?_⟩
  generalize tick t s = s
  have hasked : ∀ u, changesOnly [.mem, .xn, .td, .out] u (askPoisoned u) := fun u => by
    simp [changesOnly_iff, allPieces, agree]
  split
  case isTrue => exact changesOnly_refl _ s
  case isFalse => exact ((changesOnly_refl _ s).trans (changesOnly_sampleAges acc s)).trans (hasked _)

theorem touches_eviction (t p : Nat) : Touches (.eviction t p) [.time, .hi, .ctxs, .mem, .srv, .xn, .td, .out] := by
  refine fun s => ⟨_, rfl, changesOnly_of_tick (t := t) (by decide) ?_⟩
  generalize tick t s = s
  split
  case isTrue => exact changesOnly_refl _ s
  case isFalse => simp [changesOnly_iff, allPieces, agree]

/-! ## Partitions (R202 to R204, R487) -/

/-- A partition that is made takes chunks, which are zeroed. -/
theorem touches_partCreate (t : Nat) (h : Hdr) (p tag size low high : Nat) :
    Touches (.partCreate t h p tag size low high) [.time, .hi, .ctxs, .mem, .td, .out, .dram] := by
  refine touches_of_command (fun s => ?_) (by decide) fun _ => rfl
  have hfinal : ∀ st u, changesOnly fetchParts u (final (cmdOf h) st 0 0 u) := fun st u => changesOnly_fetchParts (by simp)
  dsimp only
  split
  case h_1 st _ => exact (changesOnly_refl _ s).trans (hfinal st s) (by decide)
  case h_2 =>
    refine .trans ?made (hfinal .complete _) (by decide)
    exact ((changesOnly_refl _ s).trans (changesOnly_zeroChunks 0 (takeRuns size (freeRuns s)) s)).setPart

/-- A resize is refused, or begins its operation in CHECK, at whose end it may complete. -/
theorem touches_partResize (t : Nat) (h : Hdr) (p size low high : Nat) :
    Touches (.partResize t h p size low high) [.time, .hi, .ctxs, .mem, .fab, .srv, .ops, .mdl, .xn, .pw, .td, .out, .dram] := by
  refine touches_of_command2 (fun s => ?_) (by decide) fun _ => rfl
  dsimp only
  split
  all_goals simp [changesOnly_iff, allPieces, agree]

theorem changesOnly_reclaim (op : Nat) (s : State) : changesOnly borderParts s (reclaim op s) :=
  changesOnly_borderParts (by simp)

theorem touches_reclaimResume (t op : Nat) : Touches (.reclaimResume t op) borderParts :=
  fun s => ⟨_, rfl, changesOnly_of_tick (t := t) (by decide) (changesOnly_reclaim op _)⟩

/-- RETAG zeroes the chunks it takes and completes the operation. -/
theorem touches_resizeRetagDone (t op : Nat) :
    Touches (.resizeRetagDone t op) [.time, .hi, .ctxs, .mem, .fab, .srv, .ops, .pw, .td, .out, .dram] :=
  fun s => ⟨_, rfl, by simp [changesOnly_iff, allPieces, agree]⟩

/-- A frame that moves lets the resizes of its partition that wait go on, one after another. -/
theorem touches_frameMigration (t p f : Nat) : Touches (.frameMigration t p f) borderParts := by
  refine fun s => ⟨_, rfl, changesOnly_of_tick (t := t) (by decide) ?_⟩
  generalize tick t s = s
  have hmoved : ∀ b, changesOnly borderParts s (moveFrame p f b s) := fun b => changesOnly_borderParts (by simp)
  split
  case isTrue => exact changesOnly_refl _ s
  case isFalse =>
    split
    case h_1 b _ => exact (hmoved b).trans (changesOnly_forEach changesOnly_reclaim _ _) (List.Subset.refl _)
    case h_2 => exact changesOnly_refl _ s

/-! ## Invalidations, drops and publications (R211, R212, R221) -/

theorem touches_invalidationAck (t d f : Nat) : Touches (.invalidationAck t d f) [.time, .mem, .srv] := by
  intro s
  obtain ⟨u, hu, -, hrest⟩ := execInvalidationAck_acks t d f s
  exact ⟨u, hu, hrest⟩

theorem changesOnly_dropKv (i g p : Nat) (s : State) : changesOnly dropParts s (dropKv i g p s) := changesOnly_dropParts (by simp)

/-- The home chip answers, once it has marked the page of a drop that it grants. -/
theorem touches_dropGrantRequest (t src q g p : Nat) : Touches (.dropGrantRequest t src q g p) dropParts := by
  refine fun s => ⟨_, rfl, changesOnly_of_tick (t := t) (by decide) ?_⟩
  generalize tick t s = s
  have hanswered : ∀ m u, changesOnly dropParts u (sendXn src 0 false m u) := fun m u => changesOnly_dropParts (by simp)
  refine .trans ?marked (hanswered _ _) (List.Subset.refl _)
  split
  case isTrue => exact changesOnly_dropKv _ g p s
  case isFalse => exact changesOnly_refl _ s

/-- The page goes as its owner's grant says, or is no longer asked for. -/
theorem touches_kvDrop (t src q : Nat) (page : Nat × Nat) (granted : Bool) : Touches (.kvDrop t src q page granted) dropParts := by
  refine fun s => ⟨_, rfl, changesOnly_of_tick (t := t) (by decide) ?_⟩
  generalize tick t s = s
  split
  case isTrue =>
    split
    case isTrue => exact changesOnly_dropKv _ _ _ s
    case isFalse => exact changesOnly_refl _ s
  case isFalse =>
    split
    case isTrue => exact changesOnly_dropParts (by simp)
    case isFalse => exact changesOnly_dropParts (by simp)

theorem changesOnly_freeForeign (home i : Nat) (s : State) : changesOnly [.mem, .srv] s (freeForeign home i s) := by
  simp [changesOnly_iff, allPieces, agree]

/-- A publication renews the entry it names, or takes the place of what the chip held under its number. -/
theorem touches_sequencePublication (t src c q root mc e : Nat) :
    Touches (.sequencePublication t src c q root mc e) [.time, .mem, .srv] := by
  refine fun s => ⟨_, rfl, changesOnly_of_tick (t := t) (by decide) ?_⟩
  generalize tick t s = s
  split
  case h_1 => simp [changesOnly_iff, allPieces, agree]
  case h_2 => exact ((changesOnly_refl _ s).trans (changesOnly_freeForeign src _ s)).trans (changesOnly_addPub _ _)

/-- Settles O37, command by command: a descriptor's by its effect, an event by its branches. -/
theorem theMemoryFrame : Obligations.TheMemoryFrame :=
  ⟨touches_tileMove, touches_partCreate, touches_partResize, touches_lineCheckFail, touches_frameRestored, touches_restoreFailed,
    touches_retrainSlice, touches_subchannelRetry, touches_tilePieceComplete, touches_cabinetDrawerGrant, touches_eviction,
    touches_ageSample, touches_reclaimResume, touches_resizeRetagDone, touches_frameMigration, touches_invalidationAck,
    touches_dropGrantRequest, touches_kvDrop, touches_sequencePublication⟩

end Sys2Proof.Machine
end

section
/-! SUPPORT. The proof of O7: the commands on model contexts and their tables of detokenisation, and the migration of a sequence
(R231, R233, R254, R255, R265, R266). -/
namespace Sys2Proof.Machine

/-! ## What joins the tables of models -/

/-- Model context k stands in the table as m. -/
def addModel (k : Nat) (m : Model) (s : State) : State := { s with mdl := { s.mdl with ctxs := mset s.mdl.ctxs k m } }

theorem modelOf_addModel_self (k : Nat) (m : Model) (s : State) : modelOf (addModel k m s) k = some m := by
  simp [modelOf, addModel]

theorem modelOf_addModel_ne {k j : Nat} (h : j ≠ k) (m : Model) (s : State) : modelOf (addModel k m s) j = modelOf s j :=
  mget_mset_ne _ _ _ _ h

theorem changesOnly_addModel (k : Nat) (m : Model) (s : State) : changesOnly [.mdl] s (addModel k m s) := by
  simp [changesOnly_iff, allPieces, agree, addModel]

/-- Table d joins those of model context k as generation g, with an entry of the log of tables (R407). -/
def addDetok (k g : Nat) (d : DetokImage) (s : State) : State :=
  let s := modModel k (fun m => { m with detoks := m.detoks ++ [{ gen := g, image := d }], nextDetok := g + 1 }) s
  { s with sec := { s.sec with tableLog := extendLog [d.digest.toNat, k, g] s.sec.tableLog } }

theorem modelOf_addDetok {k : Nat} {m : Model} {s : State} (hm : modelOf s k = some m) (g : Nat) (d : DetokImage) :
    modelOf (addDetok k g d s) k = some { m with detoks := m.detoks ++ [{ gen := g, image := d }], nextDetok := g + 1 } := by
  have hself := modelOf_modModel_self k (fun m => { m with detoks := m.detoks ++ [{ gen := g, image := d }], nextDetok := g + 1 }) s
  rw [hm] at hself
  exact hself

/-! ## The commands on a model context (R231, R233, R265, R266) -/

section
variable {t : Nat} {h : Hdr} {s s1 : State} (hb : Begins t h s s1)
  (hshape : shapeCheck s1 h { rings := [2], admin := true, mc := true } false = none)
include hb hshape

theorem execModelCreate_adds (hmc : h.modelCtx ≠ 0) (hnew : modelOf s1 h.modelCtx = none) (hroom : s1.mdl.ctxs.length < 64) (uuid : Nat) :
    execModelCreate t h uuid s =
      .next (endPoll (final (cmdOf h) .complete 0 0 (addModel h.modelCtx { uuid := uuid } s1))) := by
  have hfits : decide (64 ≤ s1.mdl.ctxs.length) = false := decide_eq_false (not_le.2 hroom)
  simp [execModelCreate, command_of_begins hb, hshape, beq_false_of_ne hmc, hnew, hfits, addModel]

variable {m : Model} (hm : modelOf s1 h.modelCtx = some m)
include hm

theorem execModelDestroy_drops (hfree : modelInUse s1 h.modelCtx = false) (hidle : m.install.active = false) :
    ∃ w, w = dropModelAreas h.modelCtx s1 ∧ execModelDestroy t h s =
      .next (endPoll (final (cmdOf h) .complete 0 0 { w with mdl := { w.mdl with ctxs := mdel w.mdl.ctxs h.modelCtx } })) :=
  ⟨_, rfl, by simp [execModelDestroy, command_of_begins hb, hshape, mcCheck, installOf, hm, hfree, hidle]⟩

/-- A table that every check passes is the context's next generation; those that no request reads go. -/
theorem execDetokLoad_adds {addr size : Nat} {d : DetokImage} (hroom : m.detoks.length < 2)
    (henv : (d.magicOk && d.format == 1 && d.size == size && size % 256 == 0 && decide (size ≤ 2 ^ 26)) = true)
    (hslot : slotOk s1 d.signer 3 7 = true) (hsig : (d.digestOk && d.sigOk) = true) (hok : detokOk d = true) (huuid : d.uuid = m.uuid) :
    execDetokLoad t h addr size (some d) s = .next (endPoll (final (cmdOf h) .complete 0 0 (freeDetoks h.modelCtx
      (addDetok h.modelCtx m.nextDetok d (readHost h.ctx addr size h.job h.layerTag h.opTag s1))))) := by
  have hread : modelOf (readHost h.ctx addr size h.job h.layerTag h.opTag s1) h.modelCtx = some m := by simpa [modelOf] using hm
  have hslot' : slotOk (readHost h.ctx addr size h.job h.layerTag h.opTag s1) d.signer 3 7 = true := by simpa [slotOk] using hslot
  have hcontents : failIf (!detokOk d || d.uuid != m.uuid) .malformed = none := by simp [hok, huuid]
  have hc := objectCheck_eq_none henv hslot' hsig hcontents
  simp only [execDetokLoad, command_of_begins hb, hshape, mcCheck, hm, hread, not_le.2 hroom, Option.elim_some, hc, Option.isNone_some,
    decide_false, failIf_false, firstOf_cons_none, firstOf_nil, addDetok]

end

/-! ## A sequence migrates (R254, R255) -/

/-- Sequence i of generation g may migrate by command h: it is idle, of the command's context and job, and does not migrate already. -/
structure MayMigrate (h : Hdr) (g i : Nat) (s : State) : Prop where
  idle : (seqOf s i).st = 2
  gen : (seqOf s i).gen = g
  ctx : (seqOf s i).ctx = h.ctx
  job : (seqOf s i).job = jobIdx h.job
  still : (seqOf s i).migrating = false

/-- The target of sequence i's migration is another chip that serves its model and can be reached, and its answer refuses nothing. -/
structure TargetTakes (h : Hdr) (i target : Nat) (ans : MigrateAns) (s : State) : Prop where
  other : target ≠ ownLoc s
  serves : chipServes s (seqOf s i).mc target = true
  routed : routed s target = true
  there : ans.gone = false
  ctx : ans.ctxExists = true
  tag : ans.tag = (partOf s (ctxPart s h.ctx)).tag
  job : ans.jobOk = true
  epoch : ans.newestEpoch = (seqOf s i).epoch
  room : ans.roomOk = true

/-- The sequence is marked as migrating, the operation begins, and the target is told. -/
theorem execKvMigrate_begins {t : Nat} {h : Hdr} {i g target : Nat} {ans : MigrateAns} {s s1 : State} (hb : BeginsTwo t h s s1)
    (hshape : shapeCheck s1 h { rings := [2], job := true } (decide (127 < target)) = none) (hjob : jobCheck s1 h = none)
    (hpower : s1.pw.pending = false) (hi : i < 65536) (hq : MayMigrate h g i s1) (ht : TargetTakes h i target ans s1) (vf : Nat) :
    execKvMigrate t h (g * 65536 + i) target vf ans s = .next (endPoll (sendXn target 4 false (.migrate (g * 65536 + i))
      (modSeq i (fun q => { q with migrating := true }) (beginOp h (.kvMigrate (jobIdx h.job) i target vf) 0x80 s1)))) := by
  simp [execKvMigrate, command2_of_begins hb, handle_mod hi, handle_div hi, hshape, hjob, powerCheck, hpower, hq.idle, hq.gen, hq.ctx,
    hq.job, hq.still, beq_false_of_ne ht.other, ht.serves, ht.routed, ht.there, ht.ctx, ht.tag, ht.job, ht.epoch, ht.room]

/-- Where source and target are on two boards, no page passes: the sequence ends here and the operation gives its new handle. -/
theorem execMigrateCopyDone_switches {t op new j i target vf : Nat} {s : State} {o : LongOp} (ho : mget s.ops.live op = some o)
    (hk : o.kind = .kvMigrate j i target vf) (hcode : o.code = 0x80) (hheld : opHeld (tick t s) o = false)
    (hboard : target / 8 ≠ ownLoc s / 8) :
    execMigrateCopyDone t op new s =
      .next (endOp op .complete new (endSeq i (modSeq i (fun q => { q with cachePfx := false }) (tick t s)))) := by
  have ho' : mget (tick t s).ops.live op = some o := ho
  have hboard' : target / 8 ≠ ownLoc (tick t s) / 8 := hboard
  simp only [execMigrateCopyDone, ho', hk, hcode, hheld, if_neg hboard', ne_eq, not_true_eq_false, Bool.false_eq_true, or_self, if_false]

/-- Settles O7, command by command, each by the lemma on it above. -/
theorem modelContextsChange : Obligations.ModelContextsChange := by
  refine ⟨?create, ?destroy, ?detok, ?migrate, ?switch⟩
  case create =>
    intro t h uuid s s1 hb hshape hmc hnew hroom
    exact ⟨_, execModelCreate_adds hb hshape hmc hnew hroom uuid, modelOf_addModel_self _ _ _,
      fun k hk => modelOf_addModel_ne hk _ _, changesOnly_addModel _ _ _⟩
  case destroy =>
    intro t h s s1 m hb hshape hm hfree hidle
    obtain ⟨w, hw, hexec⟩ := execModelDestroy_drops hb hshape hm hfree hidle
    exact ⟨_, hexec, w, hw, rfl⟩
  case detok =>
    intro t h addr size d s s1 m hb hshape hm hroom hmagic hformat hsize hunit hmax hslot hdigest hsig hok huuid
    have henv : (d.magicOk && d.format == 1 && d.size == size && size % 256 == 0 && decide (size ≤ 2 ^ 26)) = true := by
      simp [hmagic, hformat, hsize, hunit]
      exact hmax
    refine ⟨_, execDetokLoad_adds hb hshape hm hroom henv hslot (by simp [hdigest, hsig]) hok huuid, _, rfl, ?_, ?_⟩
    · exact modelOf_addDetok (by simpa [modelOf] using hm) m.nextDetok d
    · simp [addDetok]
  case migrate =>
    intro t h i g target vf ans s s1 hb hshape hjob hpower hi hst hg hctx hown hmig hother hserves hrouted hgone hexists htag hjobOk
      hepoch hroom
    exact execKvMigrate_begins hb hshape hjob hpower hi ⟨hst, hg, hctx, hown, hmig⟩
      ⟨hother, hserves, hrouted, hgone, hexists, htag, hjobOk, hepoch, hroom⟩ vf
  case switch =>
    exact fun t op new s o j i target vf ho hk hcode hheld hboard => execMigrateCopyDone_switches ho hk hcode hheld hboard

end Sys2Proof.Machine
end

section
/-! SUPPORT. The proof of O8: an install at the chip that stages it, from its manifest to its end (R238 to R242, Table 10.6). -/
namespace Sys2Proof.Machine

/-! ## The install of a model context -/

theorem installOf_of_mdl {s u : State} (h : u.mdl = s.mdl) (mc : Nat) : installOf u mc = installOf s mc := by
  simp [installOf, modelOf, h]

theorem installOf_modInstall {mc : Nat} {s : State} (h : (modelOf s mc).isSome = true) (f : Install → Install) :
    installOf (modInstall mc f s) mc = f (installOf s mc) := by
  obtain ⟨m, hm⟩ := Option.isSome_iff_exists.1 h
  simp [installOf, modInstall, hm]

theorem isSome_modelOf_modInstall (mc : Nat) (f : Install → Install) (s : State) :
    (modelOf (modInstall mc f s) mc).isSome = (modelOf s mc).isSome := by
  simp [modInstall]

/-- A chip that holds a manifest for a model context holds the context. -/
theorem isSome_modelOf_of_manifest {mc : Nat} {m : Manifest} {s : State} (h : (installOf s mc).m = some m) :
    (modelOf s mc).isSome = true := by
  cases hm : modelOf s mc with
  | none => simp [installOf, hm] at h
  | some _ => rfl

/-! ## The install begins (R238) -/

/-- The install that EPOCH_INSTALL opens as operation n; votes that came before it are kept. -/
def newInstall (h : Hdr) (tg coord ms da n heard : Nat) (x : Install) : Install :=
  { installTag := tg, coord := coord, op := n, active := true, deadline := h.deadline, dirAddr := da, manifestSize := ms,
    consent := bit h.flags 0, keepSource := bit h.flags 1, early := x.early, earlyNo := x.earlyNo, heard := heard }

/-- The operation begins, the manifest is read, and the install's record is STAGING. -/
def openInstall (h : Hdr) (tg coord ma ms da : Nat) (s : State) : State :=
  let n := s.ops.next
  let s := readHost h.ctx ma ms h.job h.layerTag h.opTag (beginOp h (.epochInstall h.modelCtx) 0x20 s)
  writeInstall h.modelCtx 1 (modInstall h.modelCtx (newInstall h tg coord ms da n s.time) s)

section
variable {t : Nat} {h : Hdr} {coord : Nat} {s s1 : State} (hmc : mcCheck s1 h = none)
include hmc

theorem isSome_modelOf_of_mcCheck : (modelOf s1 h.modelCtx).isSome = true := by
  cases hm : modelOf s1 h.modelCtx with
  | none => simp [mcCheck, hm] at hmc
  | some _ => rfl

theorem installOf_openInstall (tg coord ma ms da : Nat) : installOf (openInstall h tg coord ma ms da s1) h.modelCtx =
    { newInstall h tg coord ms da s1.ops.next s1.time (installOf s1 h.modelCtx) with st := 1, time := s1.time } := by
  have hsome := isSome_modelOf_of_mcCheck hmc
  have hmdl : (readHost h.ctx ma ms h.job h.layerTag h.opTag (beginOp h (.epochInstall h.modelCtx) 0x20 s1)).mdl = s1.mdl := by simp
  have hread : (modelOf (readHost h.ctx ma ms h.job h.layerTag h.opTag (beginOp h (.epochInstall h.modelCtx) 0x20 s1)) h.modelCtx).isSome
      = true := by
    rwa [modelOf, hmdl]
  simp only [openInstall, writeInstall]
  rw [installOf_modInstall (by rwa [isSome_modelOf_modInstall]), installOf_modInstall hread, installOf_of_mdl hmdl]
  simp

/-- An EPOCH_INSTALL that every check passes opens its install. -/
theorem execEpochInstall_opens (hb : BeginsTwo t h s s1)
    (hshape : shapeCheck s1 h { rings := [2], admin := true, flags := 3, mc := true } (decide (127 < coord)) false true = none)
    (hpower : s1.pw.pending = false) (hidle : (installOf s1 h.modelCtx).active = false) (tg ma ms da : Nat) :
    execEpochInstall t h tg coord ma ms da s = .next (endPoll (openInstall h tg coord ma ms da s1)) := by
  simp only [execEpochInstall, command2_of_begins hb, hshape, hmc, powerCheck, hpower, hidle, failIf_false, firstOf_cons_none,
    firstOf_nil]
  rfl

end

/-! ## The manifest is verified, and the area allocated (R234, R239) -/

section
variable {t op mc : Nat} {s : State} {o : LongOp} (ho : mget s.ops.live op = some o) (hk : o.kind = .epochInstall mc)
  (hheld : opHeld (tick t s) o = false) (hop : (installOf s mc).op = op)
include ho hk hheld hop

section
variable (hcode : o.code = 0x20) (hst : (installOf s mc).st = 1)
include hcode hst

/-- A manifest that could not be read is a vote of no. -/
theorem execManifestVerified_unread : execManifestVerified t op none s = .next (voteNo mc .malformed (tick t s)) := by
  simp only [execManifestVerified, tick_ops, ho, hk, hcode, hheld, installOf_tick, hop, hst, ne_eq, not_true_eq_false, Bool.false_eq_true,
    or_self, if_false]

/-- A manifest that no check refuses is the install's; votes that came before it are counted, and the area is taken unless they end
the install. -/
theorem execManifestVerified_takes {m : Manifest} {dir : List Nat} {s2 : State}
    (henv : (m.magicOk && m.format == 1 && m.size == (installOf s mc).manifestSize && m.size % 256 == 0 && decide (m.size ≤ 2 ^ 28)) = true)
    (hslot : slotOk s m.signer 3 7 = true) (hsig : (m.digestOk && m.sigOk) = true) (hok : manifestOk (tick t s) mc m = true)
    (hcoord : hasChip m (installOf s mc).coord = true) (hown : hasChip m (ownLoc s) = true)
    (h2 : s2 = tally mc (readHost o.cmd.ctx (installOf s mc).dirAddr (8 * m.shards.length) 0 0 0
      (modInstall mc (fun x => { x with m := some m, dir := dir }) (tick t s)))) :
    execManifestVerified t op (some (m, dir)) s = .next (if (installOf s2 mc).active then takeArea mc s2 else s2) := by
  subst h2
  have hc : objectCheck (tick t s) _ m.signer 3 7 (m.digestOk && m.sigOk) none = none := objectCheck_eq_none henv hslot hsig rfl
  simp only [execManifestVerified, tick_ops, ho, hk, hcode, hheld, installOf_tick, hop, hst, hc, hok, hcoord, ownLoc_tick, hown, ne_eq,
    not_true_eq_false, Bool.false_eq_true, Bool.not_true, Bool.or_self, or_self, if_false]

end

theorem execAreaAllocated_takes (hcode : o.code = 0x21) : execAreaAllocated t op s = .next (takeArea mc (tick t s)) := by
  simp only [execAreaAllocated, tick_ops, ho, hk, hcode, hheld, installOf_tick, hop, Bool.not_false, and_self, if_true]

end

/-! ## Shards are fetched (R240) -/

/-- The copies at other chips that are known to be verified by now join those of the install. -/
def noteCopies (mc : Nat) (copies : List Nat) (s : State) : State :=
  modInstall mc (fun x => { x with copies := dedup' (x.copies ++ copies) }) s

/-- Once a shard's attempt has been taken in, shards that wait are fetched, while the install stages still. -/
def goOn (mc : Nat) (s : State) : State := if staging s mc then startWaiting mc s else s

theorem execShardFetched_staging {t mc : Nat} {s : State} (hs : staging (tick t s) mc = true) (i : Nat) (d : Option (List Byte))
    (copies : List Nat) :
    execShardFetched t mc i d copies s = .next (goOn mc (shardAttempt mc i d (noteCopies mc copies (tick t s)))) := by
  simp only [execShardFetched, hs, Bool.not_true, Bool.false_eq_true, if_false]
  rfl

section
variable {mc i : Nat} {s : State} {m : Manifest} {q : ShardSt} (hm : (installOf s mc).m = some m)
  (hq : (installOf s mc).shards.find? (fun q => q.idx == i && q.fetching && !q.verified) = some q)
include hm hq

/-- Bytes that the manifest's record vouches for are written at the shard's place, and the chip may vote. -/
theorem shardAttempt_good {d : List Byte} (hd : shardGood (m.shards.getD i {}) d = true) :
    shardAttempt mc i (some d) s = tryVote mc (writeShard ((installOf s mc).base * 2097152 + (m.shards.getD i {}).offset)
      (m.shards.getD i {}).lmode d (modShard mc i (fun q => { q with verified := true, fetching := false }) s)) := by
  simp only [shardAttempt, hm, hq, Option.filter_some, hd, if_true]

/-- Up to the third failure the shard is fetched again. -/
theorem shardAttempt_retries (hn : q.attempts < 3) :
    shardAttempt mc i none s = startShard mc i (modShard mc i (fun q => { q with attempts := q.attempts + 1, fetching := false }) s) := by
  simp only [shardAttempt, hm, hq, Option.filter_none, not_le.2 hn, if_false]

/-- The fourth failure is a vote of no. -/
theorem shardAttempt_gives_up (hn : 3 ≤ q.attempts) : shardAttempt mc i none s = voteNo mc .accessDenied s := by
  simp only [shardAttempt, hm, hq, Option.filter_none, hn, if_true]

end

/-- Noting copies changes no other part of the install. -/
theorem installOf_noteCopies {mc : Nat} {m : Manifest} {s : State} (hm : (installOf s mc).m = some m) (copies : List Nat) (t : Nat) :
    installOf (noteCopies mc copies (tick t s)) mc =
      { installOf s mc with copies := dedup' ((installOf s mc).copies ++ copies) } :=
  installOf_modInstall (s := tick t s) (isSome_modelOf_of_manifest hm) _

/-! ## The deadline passes (R240, R241) -/

section
variable {t mc : Nat} {s : State} (hact : (installOf s mc).active = true) (hdue : (installOf s mc).deadline ≤ max s.time t)
  (hst : (installOf s mc).st = 1)
include hact hdue hst

theorem execInstallDeadline_coordinator (hc : coordHere s mc = true) :
    execInstallDeadline t mc s = .next (abortAll mc .epochUnavailable (tick t s)) := by
  have hdue' : ¬ (tick t s).time < (installOf s mc).deadline := not_lt.2 hdue
  simp only [execInstallDeadline, installOf_tick, coordHere_tick, hact, hst, hc, hdue', Bool.not_true, decide_false, Bool.or_self,
    Bool.false_eq_true, if_false, true_or, if_true]

theorem execInstallDeadline_participant (hc : coordHere s mc = false) :
    execInstallDeadline t mc s = .next (voteNo mc .epochUnavailable (tick t s)) := by
  have hdue' : ¬ (tick t s).time < (installOf s mc).deadline := not_lt.2 hdue
  simp only [execInstallDeadline, installOf_tick, coordHere_tick, hact, hst, hc, hdue', Bool.not_true, decide_false, Bool.or_self,
    Bool.false_eq_true, if_false, if_true]

end

/-! ## Messages of the coordinator (Table 10.6) -/

section
variable {t mc src : Nat} {s : State} (hfrom : fromCoord s mc src = true)
include hfrom

/-- COMMIT at a chip that is PREPARED: the record is COMMITTED with the epoch's number, and the chip replies. -/
theorem execInstallCommit_commits (hst : (installOf s mc).st = 2) (e : Nat) :
    execInstallCommit t mc src e s = .next (sendXn src 0 false (.committed mc) (installPhase mc 0x24
      (modInstall mc (fun x => { x with epoch := e, heard := max s.time t }) (writeInstall mc 3 (tick t s))))) := by
  have htime : (tick t s).time = max s.time t := rfl
  simp only [execInstallCommit, fromCoord_tick, installOf_tick, hfrom, hst, beq_self_eq_true, Bool.and_self, if_true, htime]

theorem execRelease_releases (hst : (installOf s mc).st = 3) :
    execRelease t mc src s = .next (releaseInstall mc (sendXn src 0 false (.releaseAck mc) (tick t s))) := by
  simp only [execRelease, fromCoord_tick, installOf_tick, hfrom, hst, beq_self_eq_true, Bool.and_self, if_true]

theorem execAbort_aborts (hst : (installOf s mc).st = 1 ∨ (installOf s mc).st = 2 ∨ (installOf s mc).st = 3) (st : Status) :
    execAbort t mc src st s = .next (abortInstall mc st (tick t s)) := by
  have hopen : ((installOf s mc).st == 1 || (installOf s mc).st == 2 || (installOf s mc).st == 3 || (installOf s mc).ownNo) = true := by
    rcases hst with h | h | h <;> simp [h]
  simp only [execAbort, fromCoord_tick, installOf_tick, hfrom, hopen, Bool.and_self, if_true]

end

/-- Settles O8, event by event, each by the lemma on it above. -/
theorem installsProceedAtAChip : Obligations.InstallsProceedAtAChip := by
  refine ⟨?opens, ?unread, ?verified, ?allocated, ?good, ?retried, ?givenUp, ?deadlineHere, ?deadlineThere, ?commit, ?release, ?abort⟩
  case opens =>
    intro t h tg coord ma ms da s s1 hb hshape hmc hpower hidle
    have hi := installOf_openInstall hmc tg coord ma ms da
    exact ⟨_, execEpochInstall_opens hmc hb hshape hpower hidle tg ma ms da, by simp [hi, newInstall]⟩
  case unread => exact fun t op s o mc ho hk hcode hheld hop hst => execManifestVerified_unread ho hk hheld hop hcode hst
  case verified =>
    rintro t op dir s o mc m s1 s2 ho hk hcode hheld hop hst hmagic hformat hsize hunit hmax hslot hdigest hsig hok hcoord hown rfl h2
    have henv : (m.magicOk && m.format == 1 && m.size == (installOf s mc).manifestSize && m.size % 256 == 0 && decide (m.size ≤ 2 ^ 28))
        = true := by
      simp only [hmagic, hformat, hunit, decide_eq_true hmax, ← hsize, beq_self_eq_true, Bool.and_self]
    exact execManifestVerified_takes ho hk hheld hop hcode hst henv hslot (by simp [hdigest, hsig]) hok hcoord hown h2
  case allocated => exact fun t op s o mc ho hk hcode hheld hop => execAreaAllocated_takes ho hk hheld hop hcode
  case good =>
    rintro t mc i d copies s m q s1 hs hm hq hd rfl
    have hi := installOf_noteCopies hm copies t
    have hgood := shardAttempt_good (s := noteCopies mc copies (tick t s)) (by rw [hi]; exact hm) (by rw [hi]; exact hq) hd
    rw [hi] at hgood
    exact (execShardFetched_staging hs i _ copies).trans (congrArg (fun u => Host.Outcome.next (goOn mc u)) hgood)
  case retried =>
    rintro t mc i copies s m q s1 hs hm hq hn rfl
    have hi := installOf_noteCopies hm copies t
    have hretry := shardAttempt_retries (s := noteCopies mc copies (tick t s)) (by rw [hi]; exact hm) (by rw [hi]; exact hq) hn
    exact (execShardFetched_staging hs i _ copies).trans (congrArg (fun u => Host.Outcome.next (goOn mc u)) hretry)
  case givenUp =>
    rintro t mc i copies s m q s1 hs hm hq hn rfl
    have hi := installOf_noteCopies hm copies t
    have hno := shardAttempt_gives_up (s := noteCopies mc copies (tick t s)) (by rw [hi]; exact hm) (by rw [hi]; exact hq) hn
    exact (execShardFetched_staging hs i _ copies).trans (congrArg (fun u => Host.Outcome.next (goOn mc u)) hno)
  case deadlineHere => exact fun t mc s hact hdue hc hst => execInstallDeadline_coordinator hact hdue hst hc
  case deadlineThere => exact fun t mc s hact hdue hc hst => execInstallDeadline_participant hact hdue hst hc
  case commit => exact fun t mc src e s hfrom hst => execInstallCommit_commits hfrom hst e
  case release => exact fun t mc src s hfrom hst => execRelease_releases hfrom hst
  case abort => exact fun t mc src st s hfrom hst => execAbort_aborts hfrom hst st

end Sys2Proof.Machine
end

section
/-! SUPPORT. The proof of O9: the messages between the chips of an install, what follows when one stays out, and the freeing of an
epoch that is superseded (R238, R241 to R243, R247, R249, Tables 10.6 and 10.8). -/
namespace Sys2Proof.Machine

/-! ## The coordinator counts votes and replies (R241, R242) -/

theorem execPrepared_counts {t mc src tg : Nat} {s : State} (hl : lateVote (tick t s) mc src (some tg) = false) (d : Digest) (co : Nat) :
    execPrepared t mc src tg d co s =
      .next (tally mc (modInstall mc (fun x => { x with early := x.early ++ [(src, tg, d, co)] }) (tick t s))) := by
  simp only [execPrepared, hl, Bool.false_eq_true, if_false]

theorem execNo_counts {t mc src : Nat} {s : State} (hl : lateVote (tick t s) mc src none = false) (st : Status) :
    execNo t mc src st s = .next (tally mc (modInstall mc (fun x => { x with earlyNo := x.earlyNo ++ [(src, st)] }) (tick t s))) := by
  simp only [execNo, hl, Bool.false_eq_true, if_false]

section
variable {t mc : Nat} {s : State} (hact : (installOf s mc).active = true) (hc : coordHere s mc = true) (hst : (installOf s mc).st = 3)
include hact hc hst

theorem execCommittedReply_counts (src : Nat) : execCommittedReply t mc src s = .next (tryRelease mc (modInstall mc
    (fun x => { x with replies := if x.replies.contains src then x.replies else src :: x.replies }) (tick t s))) := by
  simp only [execCommittedReply, installOf_tick, coordHere_tick, hact, hc, hst, beq_self_eq_true, Bool.and_self, if_true]

/-- A COMMITTED reply that is missing 100 ms after COMMIT aborts the install. -/
theorem execCommittedReplyTimeout_aborts (hdue : (installOf s mc).committedAt + 100000000 ≤ max s.time t) :
    execCommittedReplyTimeout t mc s = .next (abortAll mc .resetAborted (tick t s)) := by
  have hdue' : (installOf s mc).committedAt + 100000000 ≤ (tick t s).time := hdue
  simp only [execCommittedReplyTimeout, installOf_tick, coordHere_tick, hact, hc, hst, hdue', decide_true, beq_self_eq_true, Bool.and_self,
    if_true]

end

/-- The coordinator notes that chip src has acknowledged RELEASE, once. -/
def noteAck (mc src : Nat) (s : State) : State :=
  modInstall mc (fun x => { x with acks := if x.acks.contains src then x.acks else src :: x.acks }) s

theorem installOf_noteAck {mc src : Nat} {m : Model} {s : State} (hm : modelOf s mc = some m) (hnew : src ∉ m.install.acks) :
    (installOf (noteAck mc src s) mc).acks = src :: m.install.acks := by
  have hi : installOf s mc = m.install := by simp [installOf, hm]
  rw [noteAck, installOf_modInstall (by simp [hm]), hi]
  simp [hnew]

theorem changesOnly_noteAck (mc src : Nat) (s : State) : changesOnly [.mdl] s (noteAck mc src s) := by
  simp [changesOnly_iff, allPieces, agree, noteAck]

theorem execReleaseAck_notes {mc : Nat} {s : State} (hc : coordHere s mc = true) (hst : (installOf s mc).st = 4) (t src : Nat) :
    execReleaseAck t mc src s = .next (noteAck mc src (tick t s)) := by
  simp only [execReleaseAck, installOf_tick, coordHere_tick, hc, hst, beq_self_eq_true, Bool.and_self, if_true, noteAck]

/-! ## A participant asks, and the coordinator answers (R243, Table 10.8) -/

theorem execInstallQueryTimer_asks {t mc : Nat} {s : State} (hact : (installOf s mc).active = true) (hc : coordHere s mc = false)
    (hst : (installOf s mc).st = 2 ∨ (installOf s mc).st = 3) (hdue : (installOf s mc).heard + 10000000 ≤ max s.time t) :
    execInstallQueryTimer t mc s = .next (sendXn (installOf s mc).coord 0 false (.query mc) (tick t s)) := by
  have hdue' : (installOf s mc).heard + 10000000 ≤ (tick t s).time := hdue
  have hopen : ((installOf s mc).st == 2 || (installOf s mc).st == 3 || (installOf s mc).ownNo) = true := by
    rcases hst with h | h <;> simp [h]
  simp only [execInstallQueryTimer, installOf_tick, coordHere_tick, hact, hc, hopen, hdue', decide_true, Bool.not_false, Bool.and_self,
    if_true]

/-- A chip that does not coordinate answers with its state alone. -/
theorem execInstallQuery_answers {mc : Nat} {m : Model} {s : State} (hm : modelOf s mc = some m) (hc : coordHere s mc = false)
    (t src : Nat) : execInstallQuery t mc src s = .next (sendXn src 0 false (.stateAnswer mc m.install.st) (tick t s)) := by
  have hi : installOf s mc = m.install := by simp [installOf, hm]
  have hc' : ∀ msg, coordHere (sendXn src 0 false msg (tick t s)) mc = false := fun msg => by
    simpa [coordHere, ownLoc, installOf, modelOf] using hc
  simp only [execInstallQuery, modelOf_tick, hm, installOf_tick, hi, hc', Option.isNone_some, Bool.not_false, Bool.false_eq_true, if_false,
    if_true]

/-! ## The coordinator cannot be reached (R249, Table 10.8) -/

section
variable {t mc : Nat} {s : State} (hact : (installOf s mc).active = true) (hc : coordHere s mc = false)
include hact hc

/-- Where another chip has released, a chip that is COMMITTED releases. -/
theorem coordLost_releases (hroute : routed (tick t s) (installOf s mc).coord = false) (hst : (installOf s mc).st = 3) :
    coordLost mc true (tick t s) = releaseInstall mc (tick t s) := by
  simp [coordLost, hact, hc, hroute, hst]

/-- Where none has, the install ends after 5 s of silence. -/
theorem coordLost_aborts (hdue : (installOf s mc).heard + 5000000000 ≤ max s.time t) :
    coordLost mc false (tick t s) = abortInstall mc .resetAborted (tick t s) := by
  have hdue' : (installOf s mc).heard + 5000000000 ≤ (tick t s).time := hdue
  simp [coordLost, hact, hc, hdue']

end

/-- Where no drain has been reported, nothing is left but to resolve the install. -/
theorem execCoordinatorUnreachable_resolves {t mc : Nat} {any : Bool} {s v : State} (hv : coordLost mc any (tick t s) = v)
    (hnone : ∀ e ∈ (modelOf v mc).elim [] (·.epochs), e.reported = none) : execCoordinatorUnreachable t mc any s = .next v := by
  have hnil : ((modelOf v mc).elim [] (·.epochs)).filterMap (fun e => if e.superseded && e.reported.isSome then some e.num else none) = [] :=
    List.filterMap_eq_nil_iff.2 fun e he => by simp [hnone e he]
  simp only [execCoordinatorUnreachable, hv, hnil, forEach]

/-! ## A superseded epoch drains (R247) -/

theorem execEpochDrained_notes {src : Nat} {s : State} (hsrc : src ≠ ownLoc s) (t mc n : Nat) :
    execEpochDrained t mc n src s = .next (noteDrained mc n src (tick t s)) := by
  simp only [execEpochDrained, ownLoc_tick, if_neg hsrc]

/-- The coordinator's order frees the epoch's area, and an install that waited for it may vote. -/
theorem execEpochFree_frees {mc n : Nat} {e : Epoch} {s : State} (he : epochOf s mc n = some e) (hs : e.superseded = true) (t : Nat) :
    execEpochFree t mc n s = .next (tryVote mc (freeEpochArea mc n (tick t s))) := by
  simp only [execEpochFree, epochOf_tick, he, hs, if_true]

/-- Settles O9, message by message, each by the lemma on it above. -/
theorem installMessagesAreTaken : Obligations.InstallMessagesAreTaken := by
  refine ⟨?prepared, ?no, ?committed, ?acknowledged, ?asks, ?answers, ?timeout, ?released, ?aborted, ?drained, ?freed⟩
  case prepared => exact fun t mc src tg d co s hl => execPrepared_counts hl d co
  case no => exact fun t mc src st s hl => execNo_counts hl st
  case committed => exact fun t mc src s hact hc hst _ => execCommittedReply_counts hact hc hst src
  case acknowledged =>
    intro t mc src s m hm hc hst hnew
    have hst' : (installOf s mc).st = 4 := by simpa [installOf, hm] using hst
    exact ⟨_, execReleaseAck_notes hc hst' t src, installOf_noteAck (s := tick t s) hm hnew,
      changesOnly_tick_trans (changesOnly_noteAck mc src _)⟩
  case asks => exact fun t mc s hact hc hst hdue => execInstallQueryTimer_asks hact hc hst hdue
  case answers => exact fun t mc src s m hm hc => execInstallQuery_answers hm hc t src
  case timeout => exact fun t mc s hact hc hst hdue => execCommittedReplyTimeout_aborts hact hc hst hdue
  case released =>
    rintro t mc s v hact hc hroute hst rfl hnone
    exact execCoordinatorUnreachable_resolves (coordLost_releases hact hc hroute hst) hnone
  case aborted =>
    rintro t mc s v hact hc hdue rfl hnone
    exact execCoordinatorUnreachable_resolves (coordLost_aborts hact hc hdue) hnone
  case drained => exact fun t mc n src s e _ hsrc _ => execEpochDrained_notes hsrc t mc n
  case freed => exact fun t mc n s e he hs => execEpochFree_frees he hs t

end Sys2Proof.Machine
end

section
/-! SUPPORT. The proof of O38: what the commands of models, plates and Dovetail leave unchanged (R34 to R54, R73 to R75, R81, R82,
R231 to R255, R265). -/
namespace Sys2Proof.Machine

/-! ## What the families of commands may change -/

/-- The parts that the end of a long operation may change. -/
def opEndParts : List Piece := [.hi, .ctxs, .fab, .srv, .ops, .pw, .td, .out]

/-- The parts that a plate which leaves its islands and is placed again may change. -/
def placeParts : List Piece := [.hi, .ctxs, .fab, .srv, .ops, .mdl, .xn, .pw, .td, .out, .scratch]

/-- The parts that an install which ends without an epoch may change. -/
def abortParts : List Piece := [.time, .hi, .ctxs, .mem, .fab, .srv, .ops, .mdl, .xn, .pw, .td, .out, .dram]

/-- The parts that an install which releases its epoch may change: the log of weights in sec among them. -/
def releaseParts : List Piece := [.time, .hi, .ctxs, .fab, .srv, .ops, .mdl, .xn, .pw, .sec, .td, .out]

/-- The parts that staging, a vote or a drain may change, with the ends that follow from them. -/
def installParts : List Piece := [.time, .hi, .ctxs, .mem, .fab, .srv, .ops, .mdl, .xn, .pw, .sec, .td, .out, .dram]

/-- The parts that a manifest may change: those of staging, and the Coffer where its signature fails. -/
def manifestParts : List Piece := [.time, .hi, .ctxs, .mem, .fab, .srv, .ops, .mdl, .xn, .pw, .sec, .td, .cof, .out, .dram]

section
variable {s u : State}

theorem changesOnly_abortParts (h : u.pending = s.pending ∧ u.id = s.id ∧ u.exu = s.exu ∧ u.coll = s.coll ∧ u.sec = s.sec ∧
    u.cof = s.cof ∧ u.draws = s.draws ∧ u.fab.scratch = s.fab.scratch ∧ u.hi.lock = s.hi.lock ∧ u.pw.st = s.pw.st) :
    changesOnly abortParts s u := by
  simp [changesOnly_iff, allPieces, agree, abortParts, h]

theorem changesOnly_releaseParts (h : u.pending = s.pending ∧ u.id = s.id ∧ u.mem = s.mem ∧ u.exu = s.exu ∧ u.coll = s.coll ∧
    u.cof = s.cof ∧ u.draws = s.draws ∧ u.fab.scratch = s.fab.scratch ∧ u.hi.lock = s.hi.lock ∧ u.sec.life = s.sec.life ∧
    u.sec.mboxBuf = s.sec.mboxBuf ∧ u.pw.st = s.pw.st) : changesOnly releaseParts s u := by
  simp [changesOnly_iff, allPieces, agree, releaseParts, h]

theorem changesOnly_installParts (h : u.pending = s.pending ∧ u.id = s.id ∧ u.exu = s.exu ∧ u.coll = s.coll ∧ u.cof = s.cof ∧
    u.draws = s.draws ∧ u.fab.scratch = s.fab.scratch ∧ u.hi.lock = s.hi.lock ∧ u.sec.life = s.sec.life ∧
    u.sec.mboxBuf = s.sec.mboxBuf ∧ u.pw.st = s.pw.st) : changesOnly installParts s u := by
  simp [changesOnly_iff, allPieces, agree, installParts, h]

end

theorem changesOnly_ite {p : Prop} [Decidable p] {l : List Piece} {s u v : State} (hu : changesOnly l s u) (hv : changesOnly l s v) :
    changesOnly l s (if p then u else v) := by
  split
  case isTrue => exact hu
  case isFalse => exact hv

/-! ## The operations that the commands share -/

section
variable (s : State)

theorem changesOnly_final (c : Cmd) (st : Status) (info value : Nat) : changesOnly fetchParts s (final c st info value s) :=
  changesOnly_fetchParts (by simp)

theorem changesOnly_refuseOp (h : Hdr) (st : Status) : changesOnly fetchParts s (refuseOp h st s) := changesOnly_fetchParts (by simp)

theorem changesOnly_readHost (c a n job layer op : Nat) : changesOnly fetchParts s (readHost c a n job layer op s) :=
  changesOnly_fetchParts (by simp)

theorem changesOnly_beginOp (h : Hdr) (k : OpKind) (code : Nat) : changesOnly [.hi, .ctxs, .ops, .td, .out] s (beginOp h k code s) := by
  simp [changesOnly_iff, allPieces, agree]

theorem changesOnly_endOp (op : Nat) (st : Status) (info : Nat) : changesOnly opEndParts s (endOp op st info s) := by
  simp [changesOnly_iff, allPieces, agree, opEndParts]

theorem changesOnly_sendXn (d vc : Nat) (lc : Bool) (m : XnMsg) : changesOnly [.xn, .td, .out] s (sendXn d vc lc m s) := by
  simp [changesOnly_iff, allPieces, agree]

theorem changesOnly_modInstall (mc : Nat) (f : Install → Install) : changesOnly [.mdl] s (modInstall mc f s) := by
  simp [changesOnly_iff, allPieces, agree]

theorem changesOnly_modTable (i id : Nat) (f : Tbl → Tbl) : changesOnly [.srv] s (modTable i id f s) := by
  simp [changesOnly_iff, allPieces, agree]

theorem changesOnly_modIsl (n : Nat) (f : Isl → Isl) : changesOnly [.fab] s (modIsl n f s) := by
  simp [changesOnly_iff, allPieces, agree]

theorem changesOnly_applyCodes (b : Bool) : changesOnly [.fab] s (applyCodes b s) := by
  simp [changesOnly_iff, allPieces, agree]

theorem changesOnly_fence (n : Nat) (fw : Bool) : changesOnly exchangeParts s (fence n fw s) := changesOnly_exchangeParts (by simp)

end

/-! ## Model contexts and their tables (R231, R233, R265) -/

theorem touches_modelCreate (t : Nat) (h : Hdr) (uuid : Nat) :
    Touches (.modelCreate t h uuid) [.time, .hi, .ctxs, .mdl, .td, .out] := by
  refine touches_of_command (fun s => ?_) (by decide) fun _ => rfl
  split
  case h_1 => exact (changesOnly_refl _ s).trans (changesOnly_final s _ _ _ _) (by decide)
  case h_2 =>
    exact ((changesOnly_refl _ s).trans (changesOnly_addModel _ _ s)).trans (changesOnly_final _ _ _ _ _) (by decide)

/-- What the context's areas and epochs hold goes with it. -/
theorem touches_modelDestroy (t : Nat) (h : Hdr) :
    Touches (.modelDestroy t h) [.time, .hi, .ctxs, .mem, .srv, .mdl, .td, .out, .dram] := by
  refine touches_of_command (fun s => ?_) (by decide) fun _ => rfl
  dsimp only
  split
  case h_1 => exact (changesOnly_refl _ s).trans (changesOnly_final s _ _ _ _) (by decide)
  case h_2 => simp [changesOnly_iff, allPieces, agree]

theorem changesOnly_addDetok (k g : Nat) (d : DetokImage) (s : State) : changesOnly [.mdl, .sec] s (addDetok k g d s) := by
  simp [changesOnly_iff, allPieces, agree, addDetok]

theorem changesOnly_freeDetoks (k : Nat) (s : State) : changesOnly [.mdl] s (freeDetoks k s) := by
  simp [changesOnly_iff, allPieces, agree]

/-- The table is read, and refused or added; a signature that fails leaves a Coffer record. -/
theorem touches_detokLoad (t : Nat) (h : Hdr) (addr size : Nat) (image : Option DetokImage) :
    Touches (.detokLoad t h addr size image) [.time, .hi, .ctxs, .mdl, .sec, .td, .cof, .out] := by
  refine touches_of_command (fun s => ?_) (by decide) fun _ => rfl
  have hfinal : ∀ st u, changesOnly [.time, .hi, .ctxs, .mdl, .sec, .td, .cof, .out] s u →
      changesOnly [.time, .hi, .ctxs, .mdl, .sec, .td, .cof, .out] s (final (cmdOf h) st 0 0 u) :=
    fun st u hu => hu.trans (changesOnly_final u _ _ _ _) (by decide)
  have hread : changesOnly [.time, .hi, .ctxs, .mdl, .sec, .td, .cof, .out] s (readHost h.ctx addr size h.job h.layerTag h.opTag s) :=
    (changesOnly_refl _ s).trans (changesOnly_readHost s _ _ _ _ _ _) (by decide)
  split
  case h_1 => exact hfinal _ _ (changesOnly_refl _ s)
  case h_2 =>
    cases image with
    | none => exact hfinal _ _ hread
    | some d =>
      dsimp only
      split
      case h_1 => exact hfinal _ _ (changesOnly_ite hread.coffer hread)
      case h_2 => exact hfinal _ _ ((hread.trans (changesOnly_addDetok _ _ d _)).trans (changesOnly_freeDetoks _ _))

/-! ## Sequences migrate (R254, R255) -/

theorem touches_kvMigrate (t : Nat) (h : Hdr) (q target vf : Nat) (ans : MigrateAns) :
    Touches (.kvMigrate t h q target vf ans) [.time, .hi, .ctxs, .srv, .ops, .xn, .td, .out] := by
  refine touches_of_command2 (fun s => ?_) (by decide) fun _ => rfl
  dsimp only
  split
  case h_1 => exact (changesOnly_refl _ s).trans (changesOnly_refuseOp s _ _) (by decide)
  case h_2 =>
    exact (((changesOnly_refl _ s).trans (changesOnly_beginOp s _ _ _) (by decide)).trans (changesOnly_modSeq _ _ _)).trans
      (changesOnly_sendXn _ _ _ _ _)

theorem changesOnly_passPages (pn i target new : Nat) (s : State) : changesOnly [.mem, .srv] s (passPages pn i target new s) := by
  simp [changesOnly_iff, allPieces, agree]

theorem changesOnly_endSeq (i : Nat) (s : State) :
    changesOnly [.hi, .ctxs, .mem, .srv, .xn, .td, .out, .dram] s (endSeq i s) := by
  simp [changesOnly_iff, allPieces, agree]

/-- Pages may pass to the target's sequence; then the source's ends, and the operation with it. -/
theorem touches_migrateCopyDone (t op new : Nat) :
    Touches (.migrateCopyDone t op new) [.time, .hi, .ctxs, .mem, .fab, .srv, .ops, .xn, .pw, .td, .out, .dram] := by
  refine fun s => ⟨_, rfl, changesOnly_of_tick (t := t) (by decide) ?_⟩
  generalize tick t s = s
  split
  case h_2 => exact changesOnly_refl _ s
  case h_1 =>
    split
    case h_2 => exact changesOnly_refl _ s
    case h_1 =>
      have hended : ∀ i u, changesOnly [.time, .hi, .ctxs, .mem, .fab, .srv, .ops, .xn, .pw, .td, .out, .dram] u
          (endOp op .complete new (endSeq i (modSeq i (fun q => { q with cachePfx := false }) u))) := fun i u =>
        (((changesOnly_refl _ u).trans (changesOnly_modSeq i _ u)).trans (changesOnly_endSeq i _)).trans (changesOnly_endOp _ op _ new)
          (by decide)
      refine changesOnly_ite (changesOnly_refl _ s) (.trans (changesOnly_ite ?passed (changesOnly_refl _ s)) (hended _ _)
        (List.Subset.refl _))
      case passed => exact (changesOnly_refl _ s).trans (changesOnly_passPages _ _ _ _ s)

/-! ## Plates (R73 to R75) -/

theorem changesOnly_placePlate (op i : Nat) (m : PlateImage) (s : State) : changesOnly opEndParts s (placePlate op i m s) := by
  simp [changesOnly_iff, allPieces, agree, opEndParts]

theorem changesOnly_replacePlate (op i p : Nat) (s : State) : changesOnly placeParts s (replacePlate op i p s) := by
  simp [changesOnly_iff, allPieces, agree, placeParts]

theorem changesOnly_clearPlate (p : Nat) (s : State) : changesOnly placeParts s (clearPlate p s) := by
  simp [changesOnly_iff, allPieces, agree, placeParts]

theorem changesOnly_billWrite (op i n : Nat) (s : State) : changesOnly [.fab, .srv, .ops] s (billWrite op i n s) := by
  simp [changesOnly_iff, allPieces, agree]

theorem changesOnly_modOp (op : Nat) (f : LongOp → LongOp) (s : State) : changesOnly [.ops] s (modOp op f s) := by
  simp [changesOnly_iff, allPieces, agree]

theorem touches_plateLoad (t : Nat) (h : Hdr) (addr size : Nat) :
    Touches (.plateLoad t h addr size) [.time, .hi, .ctxs, .ops, .td, .out] := by
  refine touches_of_command2 (fun s => ?_) (by decide) fun _ => rfl
  split
  case h_1 => exact (changesOnly_refl _ s).trans (changesOnly_refuseOp s _ _) (by decide)
  case h_2 =>
    exact ((changesOnly_refl _ s).trans (changesOnly_beginOp s _ _ _) (by decide)).trans (changesOnly_readHost _ _ _ _ _ _ _) (by decide)

theorem touches_plateUnload (t : Nat) (h : Hdr) (p : Nat) : Touches (.plateUnload t h p) [.time, .hi, .ctxs, .fab, .td, .out] := by
  refine touches_of_command (fun s => ?_) (by decide) fun _ => rfl
  dsimp only
  split
  case h_1 => exact (changesOnly_refl _ s).trans (changesOnly_final s _ _ _ _) (by decide)
  case h_2 => exact (changesOnly_refl _ s).trans (changesOnly_modPlate _ _ s)

/-- The load ends with the stage that refused its image, or the plate is placed. -/
theorem touches_plateLoadVerified (t op : Nat) (image : Option PlateImage) :
    Touches (.plateLoadVerified t op image) [.time, .hi, .ctxs, .fab, .srv, .ops, .pw, .td, .cof, .out] := by
  refine fun s => ⟨_, rfl, changesOnly_of_tick (t := t) (by decide) ?_⟩
  generalize tick t s = s
  have hended : ∀ st u, changesOnly [.time, .hi, .ctxs, .fab, .srv, .ops, .pw, .td, .cof, .out] s u →
      changesOnly [.time, .hi, .ctxs, .fab, .srv, .ops, .pw, .td, .cof, .out] s (endOp op st 0 u) :=
    fun st u hu => hu.trans (changesOnly_endOp u op st 0) (by decide)
  split
  case h_2 => exact changesOnly_refl _ s
  case h_1 i _ _ _ _ =>
    refine changesOnly_ite (changesOnly_refl _ s) ?_
    cases image with
    | none => exact hended _ _ (changesOnly_refl _ s)
    | some m =>
      dsimp only
      split
      case h_1 => exact hended _ _ (changesOnly_ite (changesOnly_refl _ s).coffer (changesOnly_refl _ s))
      case h_2 => exact (changesOnly_refl _ s).trans (changesOnly_placePlate op i m s) (by decide)

/-- An island that has been written is billed and counted, or the load returns to its placement. -/
theorem touches_islandConfigAck (t op n : Nat) : Touches (.islandConfigAck t op n) (.time :: placeParts) := by
  refine fun s => ⟨_, rfl, changesOnly_of_tick (t := t) (by decide) ?_⟩
  generalize tick t s = s
  split
  case h_2 => exact changesOnly_refl _ s
  case h_1 i _ p _ _ =>
    refine changesOnly_ite (changesOnly_refl _ s) (changesOnly_ite ?replaced ?counted)
    case replaced => exact (changesOnly_refl _ s).trans (changesOnly_replacePlate op i p s) (by decide)
    case counted =>
      exact (((changesOnly_refl _ s).trans (changesOnly_billWrite op i n s) (by decide)).trans (changesOnly_modPlate p _ _)
        (by decide)).trans (changesOnly_modOp op _ _) (by decide)

/-- An island that stays silent is written again, or fenced, and the load returns to its placement without it. -/
theorem touches_islandConfigTimeout (t op n : Nat) (passed fw : Bool) :
    Touches (.islandConfigTimeout t op n passed fw) exchangeParts := by
  refine fun s => ⟨_, rfl, changesOnly_of_tick (t := t) (by decide) ?_⟩
  generalize tick t s = s
  split
  case h_2 => exact changesOnly_refl _ s
  case h_1 i _ p _ _ =>
    dsimp only
    split
    case h_1 => exact changesOnly_refl _ s
    case h_2 =>
      have hplaced : ∀ u, changesOnly exchangeParts s u → changesOnly exchangeParts s (replacePlate op i p u) :=
        fun u hu => hu.trans (changesOnly_replacePlate op i p u) (by decide)
      have hbilled : changesOnly exchangeParts s (billWrite op i n s) :=
        (changesOnly_refl _ s).trans (changesOnly_billWrite op i n s) (by decide)
      have hfenced : ∀ id, changesOnly exchangeParts s (fence n fw (coffer 3 3 .configTimeout n id 0 0 (billWrite op i n s))) :=
        fun id => (hbilled.coffer (by decide)).trans (changesOnly_fence _ n fw) (List.Subset.refl _)
      exact changesOnly_ite (changesOnly_refl _ s) (changesOnly_ite (hplaced _ (changesOnly_refl _ s))
        (changesOnly_ite (hbilled.trans (changesOnly_modPlate p _ _) (by decide)) (changesOnly_ite (hfenced _) (hplaced _ (hfenced _)))))

theorem touches_plateResident (t op : Nat) : Touches (.plateResident t op)
    [.time, .hi, .ctxs, .fab, .srv, .ops, .mdl, .xn, .pw, .sec, .td, .draws, .out, .scratch] := by
  refine fun s => ⟨_, rfl, changesOnly_of_tick (t := t) (by decide) ?_⟩
  generalize tick t s = s
  split
  case h_2 => exact changesOnly_refl _ s
  case h_1 i _ p _ _ =>
    refine changesOnly_ite (changesOnly_refl _ s) (changesOnly_ite ?replaced ?stands)
    case replaced => exact (changesOnly_refl _ s).trans (changesOnly_replacePlate op i p s) (by decide)
    case stands =>
      split
      case h_1 =>
        exact ((changesOnly_refl _ s).trans (changesOnly_clearPlate p s) (by decide)).trans (changesOnly_endOp _ _ _ _) (by decide)
      case h_2 => simp [changesOnly_iff, allPieces, agree]

/-- The plate's last request may end its job, which takes all that the job holds. -/
theorem touches_plateRemoval (t p : Nat) : Touches (.plateRemoval t p)
    [.time, .hi, .ctxs, .mem, .fab, .srv, .mdl, .exu, .coll, .xn, .pw, .td, .out, .dram, .scratch] := by
  refine fun s => ⟨_, rfl, changesOnly_of_tick (t := t) (by decide) ?_⟩
  generalize tick t s = s
  refine changesOnly_ite ?removed (changesOnly_refl _ s)
  case removed => simp [changesOnly_iff, allPieces, agree]

/-! ## Table reloads (R81, R82) -/

theorem touches_tableReload (t : Nat) (h : Hdr) (table addr size : Nat) :
    Touches (.tableReload t h table addr size) [.time, .hi, .ctxs, .srv, .td, .out] := by
  refine touches_of_command (fun s => ?_) (by decide) fun _ => rfl
  dsimp only
  split
  case h_1 => exact (changesOnly_refl _ s).trans (changesOnly_final s _ _ _ _) (by decide)
  case h_2 =>
    exact ((changesOnly_refl _ s).trans (changesOnly_readHost s _ _ _ _ _ _) (by decide)).trans (changesOnly_modTable _ _ _ _)

theorem touches_reloadPayloadWritten (t job table : Nat) : Touches (.reloadPayloadWritten t job table) [.time, .srv] :=
  fun s => ⟨_, rfl, changesOnly_of_tick (t := t) (by decide) ((changesOnly_refl _ _).trans (changesOnly_modTable _ _ _ _))⟩

theorem changesOnly_armReload (i : Nat) (x : Tbl) (payload : TableImage) (digest : Digest) (s : State) :
    changesOnly [.hi, .ctxs, .fab, .srv, .sec, .td, .out] s (armReload i x payload digest s) := by
  simp [changesOnly_iff, allPieces, agree]

theorem touches_reloadVerified (t job table : Nat) (payload : TableImage) (digest : Digest) (digestOk sigOk : Bool) :
    Touches (.reloadVerified t job table payload digest digestOk sigOk) [.time, .hi, .ctxs, .fab, .srv, .sec, .td, .out] := by
  refine fun s => ⟨_, rfl, changesOnly_of_tick (t := t) (by decide) ?_⟩
  generalize tick t s = s
  dsimp only
  split
  case h_1 => exact changesOnly_refl _ s
  case h_2 x _ =>
    split
    case h_1 => exact changesOnly_refl _ s
    case h_2 r _ =>
      refine changesOnly_ite (changesOnly_refl _ s) ?_
      split
      case h_1 =>
        exact ((changesOnly_refl _ s).trans (changesOnly_modTable s _ _ _)).trans (changesOnly_final _ _ _ _ _) (by decide)
      case h_2 => exact (changesOnly_refl _ s).trans (changesOnly_armReload _ x payload digest s)

/-! ## Dovetail, islands and their clocks (R34 to R54) -/

theorem changesOnly_takeTransfer (n : Nat) (x : Xfer) (s : State) : changesOnly [.fab, .scratch] s (takeTransfer n x s) := by
  simp [changesOnly_iff, allPieces, agree]

theorem changesOnly_countCorrected (n p : Nat) (c : Bool) (s : State) : changesOnly [.fab] s (countCorrected n p c s) := by
  simp [changesOnly_iff, allPieces, agree]

theorem changesOnly_poisonTransfer (n : Nat) (x : Xfer) (s : State) :
    changesOnly [.fab, .cof, .scratch] s (poisonTransfer n x s) := by
  simp [changesOnly_iff, allPieces, agree]

theorem touches_dovetailTransfer (t n p : Nat) (c : Bool) (e : Nat) (x : Xfer) :
    Touches (.dovetailTransfer t n p c e x) [.time, .fab, .cof, .scratch] := by
  refine fun s => ⟨_, rfl, changesOnly_of_tick (t := t) (by decide) ?_⟩
  generalize tick t s = s
  refine changesOnly_ite ?clean (changesOnly_ite ?corrected ?poisoned)
  case clean => exact (changesOnly_refl _ s).trans (changesOnly_takeTransfer n x s)
  case corrected => exact ((changesOnly_refl _ s).trans (changesOnly_countCorrected n p c s)).trans (changesOnly_takeTransfer n x _)
  case poisoned => exact (changesOnly_refl _ s).trans (changesOnly_poisonTransfer n x s)

/-- A counter that reaches a step's mark may let the plate's step begin. -/
theorem touches_counterIncrement (t n k i : Nat) : Touches (.counterIncrement t n k i) exchangeParts :=
  fun s => ⟨_, rfl, changesOnly_of_tick (t := t) (by decide) (changesOnly_ite (changesOnly_exchangeParts (by simp)) (changesOnly_refl _ _))⟩

theorem changesOnly_calibrate (n p : Nat) (c : Bool) (d : Nat) (s : State) : changesOnly [.fab] s (calibrate n p c d s) := by
  simp [changesOnly_iff, allPieces, agree]

/-- A lane that fails may fence an island, and so end the plates on it. -/
theorem changesOnly_failLane (n p m : Nat) (c lh lt fh ft : Bool) (s : State) :
    changesOnly exchangeParts s (failLane n p m c lh lt fh ft s) := changesOnly_exchangeParts (by simp)

theorem touches_dovetailRecalibration (t n p : Nat) (c tm : Bool) (d : Option Nat) (lh lt fh ft : Bool) :
    Touches (.dovetailRecalibration t n p c tm d lh lt fh ft) exchangeParts := by
  refine fun s => ⟨_, rfl, changesOnly_of_tick (t := t) (by decide) ?_⟩
  generalize tick t s = s
  have hbilled : ∀ a b, changesOnly exchangeParts s (bgBill a Config.calibNs (bgBill b Config.calibNs s)) := fun a b =>
    ((changesOnly_refl _ s).trans changesOnly_bgBill (by decide)).trans changesOnly_bgBill (by decide)
  split
  case h_1 => exact changesOnly_refl _ s
  case h_2 m _ =>
    refine changesOnly_ite ?due (changesOnly_refl _ s)
    case due =>
      cases d with
      | some d => exact (hbilled _ _).trans (changesOnly_calibrate n p c _ _) (by decide)
      | none => exact (hbilled _ _).trans (changesOnly_failLane n p m c lh lt fh ft _) (List.Subset.refl _)

theorem touches_islandBringUp (t n : Nat) (sw : List LaneSweep) (passed fw : Bool) :
    Touches (.islandBringUp t n sw passed fw) exchangeParts := by
  refine fun s => ⟨_, rfl, changesOnly_of_tick (t := t) (by decide) ?_⟩
  generalize tick t s = s
  have hup : changesOnly exchangeParts s (bringUp n sw s) := changesOnly_exchangeParts (by simp)
  refine changesOnly_ite (changesOnly_refl _ s) (changesOnly_ite ?noBeacon (changesOnly_ite hup ?fails))
  case noBeacon => exact changesOnly_exchangeParts (by simp)
  case fails => exact hup.trans (changesOnly_fence _ n fw) (List.Subset.refl _)

theorem touches_islandBringUpTimeout (t n k : Nat) (fw : Bool) : Touches (.islandBringUpTimeout t n k fw) exchangeParts :=
  fun s => ⟨_, rfl, changesOnly_of_tick (t := t) (by decide) (changesOnly_ite
    (((changesOnly_refl _ _).coffer (by decide)).trans (changesOnly_fence _ n fw) (List.Subset.refl _)) (changesOnly_refl _ _))⟩

theorem touches_fllLock (t n : Nat) : Touches (.fllLock t n) [.time, .fab] :=
  fun s => ⟨_, rfl, changesOnly_of_tick (t := t) (by decide) (changesOnly_ite
    (((changesOnly_refl _ _).trans (changesOnly_modIsl _ n _)).trans (changesOnly_applyCodes _ _)) (changesOnly_refl _ _))⟩

theorem touches_droop (t n : Nat) : Touches (.droop t n) [.time, .fab] :=
  fun s => ⟨_, rfl, changesOnly_of_tick (t := t) (by decide) ((changesOnly_refl _ _).trans (changesOnly_modIsl _ _ _))⟩

theorem touches_droopRelease (t n d : Nat) : Touches (.droopRelease t n d) [.time, .fab, .td] := by
  refine fun s => ⟨_, rfl, changesOnly_of_tick (t := t) (by decide) ?_⟩
  generalize tick t s = s
  refine changesOnly_ite ?released (changesOnly_refl _ s)
  case released => simp [changesOnly_iff, allPieces, agree]

theorem touches_beaconLost (t : Nat) : Touches (.beaconLost t) [.time, .fab, .pw, .td, .out] := by
  intro s
  obtain ⟨u, hu, -, -, -, -, hrest⟩ := beaconLost_drops_locks t s
  exact ⟨u, hu, hrest⟩

theorem touches_beaconReturn (t : Nat) : Touches (.beaconReturn t) [.time, .fab, .pw] := by
  refine fun s => ⟨_, rfl, changesOnly_of_tick (t := t) (by decide) ?_⟩
  generalize tick t s = s
  refine changesOnly_ite (changesOnly_refl _ s) ?returns
  case returns => simp [changesOnly_iff, allPieces, agree]

/-! ## Installs (R238 to R243, Table 10.6) -/

theorem changesOnly_abortInstall (mc : Nat) (st : Status) (s : State) :
    changesOnly [.time, .hi, .ctxs, .mem, .fab, .srv, .ops, .mdl, .pw, .td, .out, .dram] s (abortInstall mc st s) := by
  simp [changesOnly_iff, allPieces, agree]

theorem changesOnly_abortAll (mc : Nat) (st : Status) (s : State) : changesOnly abortParts s (abortAll mc st s) :=
  changesOnly_abortParts (by simp)

theorem changesOnly_voteNo (mc : Nat) (st : Status) (s : State) : changesOnly abortParts s (voteNo mc st s) :=
  changesOnly_abortParts (by simp)

theorem changesOnly_releaseInstall (mc : Nat) (s : State) : changesOnly releaseParts s (releaseInstall mc s) :=
  changesOnly_releaseParts (by simp)

theorem changesOnly_tryRelease (mc : Nat) (s : State) : changesOnly releaseParts s (tryRelease mc s) :=
  changesOnly_releaseParts (by simp)

theorem changesOnly_tryVote (mc : Nat) (s : State) : changesOnly installParts s (tryVote mc s) := changesOnly_installParts (by simp)

theorem changesOnly_tally (mc : Nat) (s : State) : changesOnly installParts s (tally mc s) := changesOnly_installParts (by simp)

theorem changesOnly_takeArea (mc : Nat) (s : State) : changesOnly installParts s (takeArea mc s) := changesOnly_installParts (by simp)

theorem changesOnly_shardAttempt (mc i : Nat) (d : Option (List Byte)) (s : State) :
    changesOnly installParts s (shardAttempt mc i d s) := changesOnly_installParts (by simp)

theorem changesOnly_startWaiting (mc : Nat) (s : State) : changesOnly installParts s (startWaiting mc s) :=
  changesOnly_installParts (by simp)

theorem touches_epochInstall (t : Nat) (h : Hdr) (tg coord ma ms da : Nat) :
    Touches (.epochInstall t h tg coord ma ms da) [.time, .hi, .ctxs, .ops, .mdl, .td, .out] := by
  refine touches_of_command2 (fun s => ?_) (by decide) fun _ => rfl
  dsimp only
  split
  case h_1 => exact (changesOnly_refl _ s).trans (changesOnly_refuseOp s _ _) (by decide)
  case h_2 =>
    have hread := ((changesOnly_refl [.time, .hi, .ctxs, .ops, .mdl, .td, .out] s).trans
      (changesOnly_beginOp s h (.epochInstall h.modelCtx) 0x20) (by decide)).trans
      (changesOnly_readHost _ h.ctx ma ms h.job h.layerTag h.opTag) (by decide)
    exact (hread.trans (changesOnly_modInstall _ _ _)).trans (changesOnly_modInstall _ _ _)

/-- The votes that came before the manifest are counted, and the area is taken unless they have ended the install. -/
theorem changesOnly_takeManifest (mc : Nat) (m : Manifest) (dir : List Nat) (c a : Nat) (s0 : State) {s : State}
    (h : changesOnly manifestParts s0 s) :
    changesOnly manifestParts s0
      (let u := tally mc (readHost c a (8 * m.shards.length) 0 0 0 (modInstall mc (fun x => { x with m := some m, dir := dir }) s))
       if (installOf u mc).active then takeArea mc u else u) := by
  have htallied := ((h.trans (changesOnly_modInstall s mc (fun x => { x with m := some m, dir := dir })) (by decide)).trans
    (changesOnly_readHost _ c a (8 * m.shards.length) 0 0 0) (by decide)).trans (changesOnly_tally mc _) (by decide)
  exact changesOnly_ite (htallied.trans (changesOnly_takeArea mc _) (by decide)) htallied

/-- The manifest is refused, with a Coffer record where its signature fails, or taken. -/
theorem touches_manifestVerified (t op : Nat) (m : Option (Manifest × List Nat)) :
    Touches (.manifestVerified t op m) manifestParts := by
  refine fun s => ⟨_, rfl, changesOnly_of_tick (t := t) (by decide) ?_⟩
  generalize tick t s = s
  have hs : changesOnly manifestParts s s := changesOnly_refl _ s
  have hno : ∀ mc st u, changesOnly manifestParts s u → changesOnly manifestParts s (voteNo mc st u) :=
    fun mc st u hu => hu.trans (changesOnly_voteNo mc st u) (by decide)
  have hset : ∀ mc f, changesOnly manifestParts s (modInstall mc f s) :=
    fun mc f => hs.trans (changesOnly_modInstall s mc f) (by decide)
  split
  case h_2 => exact hs
  case h_1 o _ =>
    split
    case h_2 => exact hs
    case h_1 mc _ =>
      refine changesOnly_ite hs ?_
      cases m with
      | none => exact hno _ _ _ hs
      | some e =>
        obtain ⟨m, dir⟩ := e
        dsimp only
        split
        case h_1 => exact hno _ _ _ (changesOnly_ite (hs.coffer (by decide)) hs)
        case h_2 =>
          refine changesOnly_ite (hno _ _ _ (hset _ _)) (changesOnly_ite ?elsewhere ?taken)
          case elsewhere => exact hs.trans (changesOnly_abortInstall mc _ s) (by decide)
          case taken => exact changesOnly_takeManifest mc m dir _ _ _ hs

theorem touches_areaAllocated (t op : Nat) : Touches (.areaAllocated t op) installParts := by
  refine fun s => ⟨_, rfl, changesOnly_of_tick (t := t) (by decide) ?_⟩
  generalize tick t s = s
  split
  case h_2 => exact changesOnly_refl _ s
  case h_1 =>
    split
    case h_2 => exact changesOnly_refl _ s
    case h_1 mc _ => exact changesOnly_ite (changesOnly_takeArea mc s) (changesOnly_refl _ s)

theorem touches_shardFetched (t mc i : Nat) (d : Option (List Byte)) (copies : List Nat) :
    Touches (.shardFetched t mc i d copies) installParts := by
  refine fun s => ⟨_, rfl, changesOnly_of_tick (t := t) (by decide) ?_⟩
  generalize tick t s = s
  have hattempt := ((changesOnly_refl installParts s).trans
    (changesOnly_modInstall s mc (fun x => { x with copies := dedup' (x.copies ++ copies) })) (by decide)).trans
    (changesOnly_shardAttempt mc i d _) (List.Subset.refl _)
  exact changesOnly_ite (changesOnly_refl _ s)
    (changesOnly_ite (hattempt.trans (changesOnly_startWaiting mc _) (List.Subset.refl _)) hattempt)

theorem touches_installDeadline (t mc : Nat) : Touches (.installDeadline t mc) abortParts :=
  fun s => ⟨_, rfl, changesOnly_of_tick (t := t) (by decide) (changesOnly_ite (changesOnly_refl _ _)
    (changesOnly_ite (changesOnly_ite (changesOnly_abortAll mc _ _) (changesOnly_refl _ _))
      (changesOnly_ite (changesOnly_voteNo mc _ _) (changesOnly_refl _ _))))⟩

/-- A vote that comes too late is noted; one that is not is counted. -/
theorem changesOnly_count (mc src : Nat) (late : Bool) (f : Install → Install) (s : State) :
    changesOnly installParts s (if late then noteVote mc src s else tally mc (modInstall mc f s)) :=
  changesOnly_ite ((changesOnly_refl _ s).trans (changesOnly_modInstall s mc _) (by decide))
    (((changesOnly_refl _ s).trans (changesOnly_modInstall s mc f) (by decide)).trans (changesOnly_tally mc _) (List.Subset.refl _))

theorem touches_prepared (t mc src tg : Nat) (d : Digest) (co : Nat) : Touches (.prepared t mc src tg d co) installParts :=
  fun s => ⟨_, rfl, changesOnly_of_tick (t := t) (by decide) (changesOnly_count mc src _ _ _)⟩

theorem touches_no (t mc src : Nat) (st : Status) : Touches (.no t mc src st) installParts :=
  fun s => ⟨_, rfl, changesOnly_of_tick (t := t) (by decide) (changesOnly_count mc src _ _ _)⟩

theorem touches_installCommit (t mc src e : Nat) : Touches (.installCommit t mc src e) [.time, .ops, .mdl, .xn, .td, .out] := by
  refine fun s => ⟨_, rfl, changesOnly_of_tick (t := t) (by decide) ?_⟩
  generalize tick t s = s
  refine changesOnly_ite ?committed (changesOnly_refl _ s)
  case committed =>
    exact ((((changesOnly_refl _ s).trans (changesOnly_modInstall s mc _)).trans (changesOnly_modInstall _ mc _)).trans
      (changesOnly_modOp _ _ _)).trans (changesOnly_sendXn _ _ _ _ _)

theorem touches_committedReply (t mc src : Nat) : Touches (.committedReply t mc src) releaseParts :=
  fun s => ⟨_, rfl, changesOnly_of_tick (t := t) (by decide) (changesOnly_ite
    (((changesOnly_refl _ _).trans (changesOnly_modInstall _ mc _) (by decide)).trans (changesOnly_tryRelease mc _) (List.Subset.refl _))
    (changesOnly_refl _ _))⟩

theorem touches_release (t mc src : Nat) : Touches (.release t mc src) releaseParts := by
  refine fun s => ⟨_, rfl, changesOnly_of_tick (t := t) (by decide) ?_⟩
  generalize tick t s = s
  have hacked : changesOnly releaseParts s (sendXn src 0 false (.releaseAck mc) s) :=
    (changesOnly_refl _ s).trans (changesOnly_sendXn s _ _ _ _) (by decide)
  exact changesOnly_ite (hacked.trans (changesOnly_releaseInstall mc _) (List.Subset.refl _))
    (changesOnly_ite hacked (changesOnly_refl _ s))

theorem touches_releaseAck (t mc src : Nat) : Touches (.releaseAck t mc src) [.time, .mdl] :=
  fun s => ⟨_, rfl, changesOnly_of_tick (t := t) (by decide) (changesOnly_ite
    ((changesOnly_refl _ _).trans (changesOnly_noteAck mc src _)) (changesOnly_refl _ _))⟩

theorem touches_abort (t mc src : Nat) (st : Status) :
    Touches (.abort t mc src st) [.time, .hi, .ctxs, .mem, .fab, .srv, .ops, .mdl, .pw, .td, .out, .dram] :=
  fun s => ⟨_, rfl, changesOnly_of_tick (t := t) (by decide) (changesOnly_ite (changesOnly_abortInstall mc st _) (changesOnly_refl _ _))⟩

/-! ## Queries, and chips that stay out (R243, R249, Table 10.8) -/

theorem touches_installQueryTimer (t mc : Nat) : Touches (.installQueryTimer t mc) [.time, .xn, .td, .out] :=
  fun s => ⟨_, rfl, changesOnly_of_tick (t := t) (by decide) (changesOnly_ite
    ((changesOnly_refl _ _).trans (changesOnly_sendXn _ _ _ _ _)) (changesOnly_refl _ _))⟩

/-- The state is sent, and after it RELEASE or ABORT where the chip that asks has not had it. -/
theorem touches_installQuery (t mc src : Nat) : Touches (.installQuery t mc src) [.time, .xn, .td, .out] := by
  refine fun s => ⟨_, rfl, changesOnly_of_tick (t := t) (by decide) ?_⟩
  generalize tick t s = s
  have hstate : ∀ m, changesOnly [.time, .xn, .td, .out] s (sendXn src 0 false m s) :=
    fun m => (changesOnly_refl _ s).trans (changesOnly_sendXn s _ _ _ _)
  have hmore : ∀ m m', changesOnly [.time, .xn, .td, .out] s (sendXn src 0 false m' (sendXn src 0 false m s)) :=
    fun m m' => (hstate m).trans (changesOnly_sendXn _ _ _ _ _)
  exact changesOnly_ite (changesOnly_refl _ s) (changesOnly_ite (hstate _)
    (changesOnly_ite (hmore _ _) (changesOnly_ite (hmore _ _) (hstate _))))

theorem touches_committedReplyTimeout (t mc : Nat) : Touches (.committedReplyTimeout t mc) abortParts :=
  fun s => ⟨_, rfl, changesOnly_of_tick (t := t) (by decide) (changesOnly_ite (changesOnly_abortAll mc _ _) (changesOnly_refl _ _))⟩

/-! ## Superseded epochs (R247) -/

theorem changesOnly_tryFree (mc n : Nat) (s : State) : changesOnly installParts s (tryFree mc n s) := changesOnly_installParts (by simp)

theorem changesOnly_noteDrained (mc n src : Nat) (s : State) : changesOnly installParts s (noteDrained mc n src s) :=
  changesOnly_installParts (by simp)

theorem changesOnly_reportDrain (mc n : Nat) (s : State) : changesOnly installParts s (reportDrain mc n s) :=
  changesOnly_installParts (by simp)

theorem changesOnly_coordLost (mc : Nat) (any : Bool) (s : State) : changesOnly installParts s (coordLost mc any s) :=
  changesOnly_installParts (by simp)

/-- The install is resolved, and each drain that was reported to the lost coordinator is reported anew. -/
theorem touches_coordinatorUnreachable (t mc : Nat) (any : Bool) : Touches (.coordinatorUnreachable t mc any) installParts := by
  refine fun s => ⟨_, rfl, changesOnly_of_tick (t := t) (by decide) ?_⟩
  generalize tick t s = s
  exact (changesOnly_coordLost mc any s).trans (changesOnly_forEach (fun n s =>
    (changesOnly_reportDrain mc n s).trans (changesOnly_tryFree mc n _) (List.Subset.refl _)) _ _) (List.Subset.refl _)

theorem touches_epochDrained (t mc n src : Nat) : Touches (.epochDrained t mc n src) installParts :=
  fun s => ⟨_, rfl, changesOnly_of_tick (t := t) (by decide)
    (changesOnly_ite (changesOnly_reportDrain mc n _) (changesOnly_noteDrained mc n src _))⟩

theorem touches_epochFree (t mc n : Nat) : Touches (.epochFree t mc n) installParts := by
  refine fun s => ⟨_, rfl, changesOnly_of_tick (t := t) (by decide) ?_⟩
  generalize tick t s = s
  have hfreed : changesOnly installParts s (freeEpochArea mc n s) := changesOnly_installParts (by simp)
  split
  case h_2 => exact changesOnly_refl _ s
  case h_1 => exact changesOnly_ite (hfreed.trans (changesOnly_tryVote mc _) (List.Subset.refl _)) (changesOnly_refl _ s)

/-- Settles O38, command by command: a descriptor's by its effect, an event by its branches. -/
theorem theModelFrame : Obligations.TheModelFrame :=
  ⟨touches_kvMigrate, touches_plateLoad, touches_plateUnload, touches_tableReload, touches_modelCreate, touches_modelDestroy,
    touches_epochInstall, touches_detokLoad, touches_dovetailTransfer, touches_counterIncrement, touches_dovetailRecalibration,
    touches_islandBringUp, touches_islandBringUpTimeout, touches_fllLock, touches_droop, touches_droopRelease,
    touches_plateLoadVerified, touches_islandConfigAck, touches_islandConfigTimeout, touches_plateResident, touches_plateRemoval,
    touches_reloadPayloadWritten, touches_reloadVerified, touches_migrateCopyDone, touches_manifestVerified, touches_areaAllocated,
    touches_shardFetched, touches_installDeadline, touches_prepared, touches_no, touches_installCommit, touches_committedReply,
    touches_release, touches_releaseAck, touches_abort, touches_installQueryTimer, touches_installQuery,
    touches_committedReplyTimeout, touches_coordinatorUnreachable, touches_epochDrained, touches_epochFree, touches_beaconLost,
    touches_beaconReturn⟩

end Sys2Proof.Machine
end

section
/-! SUPPORT. The proofs of O44, O45 and O58: one step of the block, and where it begins. -/
namespace Sys2Proof.Machine

/-- Settles O44: taking the front off the queue is all that a step does besides. -/
theorem stepRunsFront : Obligations.StepRunsFront := fun _ _ _ => rfl

/-- Settles O45. -/
theorem emptyQueueIdles : Obligations.EmptyQueueIdles := by
  intro s hs
  simp only [step, hs]

/-- Settles O58: each is the default of its field of State. -/
theorem resetLeavesTheSpecsValues : Obligations.ResetLeavesTheSpecsValues :=
  ⟨rfl, rfl, rfl, rfl, rfl, rfl, rfl, rfl, rfl, rfl, rfl, rfl⟩

end Sys2Proof.Machine
end

section
/-! SUPPORT. The proof of O40: what the long operations and the telemetry leave unchanged (R298, R299, R327 to R329, R404,
R422 to R440). -/
-- Elaborated in order: the stacks of parallel threads would count toward the limit on memory.
set_option Elab.async false
namespace Sys2Proof.Machine

/-! ## The operations that the commands share -/

/-- What changes the parts of l' changes no others than those of a longer list. -/
theorem changesOnly.mono {l l' : List Piece} {s u : State} (h : changesOnly l' s u) (hl : l' ⊆ l) : changesOnly l s u :=
  (changesOnly_refl l s).trans h hl

/-- The parts that the exit from IDLE may change, with what a change of the emergency brings. -/
def leaveIdleParts : List Piece := [.time, .hi, .ctxs, .mem, .fab, .srv, .mdl, .exu, .xn, .pw, .td, .cof, .out, .dram, .pst]

/-- The parts that a self-test which begins may change. -/
def testParts : List Piece := [.time, .hi, .ctxs, .mem, .fab, .srv, .ops, .mdl, .exu, .xn, .pw, .td, .cof, .out, .dram, .pst]

section
variable (s : State)

theorem changesOnly_leaveIdle : changesOnly leaveIdleParts s (leaveIdle s) := by
  simp [changesOnly_iff, allPieces, agree, leaveIdleParts]

theorem changesOnly_takeTest (op : Nat) : changesOnly [.fab, .ops] s (takeTest op s) := by
  simp [changesOnly_iff, allPieces, agree]

theorem changesOnly_modFlash (n : Nat) (f : FlashSlot → FlashSlot) : changesOnly [.sec] s (modFlash n f s) := by
  simp [changesOnly_iff, allPieces, agree]

theorem changesOnly_kickOp (n : Nat) :
    changesOnly [.hi, .ctxs, .mem, .fab, .srv, .ops, .mdl, .xn, .pw, .sec, .td, .out, .dram] s (kickOp n s) := by
  simp [changesOnly_iff, allPieces, agree]

theorem changesOnly_cancelOp (n : Nat) :
    changesOnly [.hi, .ctxs, .mem, .fab, .srv, .ops, .mdl, .xn, .pw, .td, .out, .dram, .scratch] s (cancelOp n s) := by
  simp [changesOnly_iff, allPieces, agree]

theorem changesOnly_erasePart (p : Nat) : changesOnly [.mem, .srv, .dram] s (erasePart p s) := by
  simp [changesOnly_iff, allPieces, agree]

theorem changesOnly_failUnit (u : FailedUnit) : changesOnly exchangeParts s (failUnit u s) := changesOnly_exchangeParts (by simp)

theorem changesOnly_modCtx (c : Nat) (f : Ctx → Ctx) : changesOnly [.ctxs] s (modCtx c f s) := by
  simp [changesOnly_iff, allPieces, agree]

theorem changesOnly_endWatch (c : Nat) (w : Watch) (st : Status) : changesOnly fetchParts s (endWatch c w st s) :=
  changesOnly_fetchParts (by simp)

theorem changesOnly_dropTrace (c : Nat) (reqs : List Nat) : changesOnly [.ctxs, .srv] s (dropTrace c reqs s) := by
  simp [changesOnly_iff, allPieces, agree]

theorem changesOnly_advise (cause unit : Nat) : changesOnly [.td, .out] s (advise cause unit s) := by
  simp [changesOnly_iff, allPieces, agree]

theorem changesOnly_predict (x : PatinaSample) (fwd : List Nat) : changesOnly exchangeParts s (predict x fwd s) :=
  changesOnly_exchangeParts (by simp)

theorem changesOnly_releaseCoffer : changesOnly [.cof] s (releaseCoffer s) := by simp [changesOnly_iff, allPieces, agree]

theorem changesOnly_freezeCoffer (cause : Nat) : changesOnly [.cof] s (freezeCoffer cause s) := by
  simp [changesOnly_iff, allPieces, agree]

theorem changesOnly_sendRecords (n : Nat) (l : List CofferRec) : changesOnly [.out] s (sendRecords n l s) := by
  simp [changesOnly_iff, allPieces, agree]

theorem changesOnly_sendMgmt (m : Mgmt) : changesOnly [.out] s (sendMgmt m s) := by simp [changesOnly_iff, allPieces, agree]

end

/-! ## Operations begin (R298, R299) -/

/-- A background test waits; another takes its islands at once, which ends IDLE. -/
theorem touches_selfTest (t : Nat) (h : Hdr) (scope variant : Nat) : Touches (.selfTest t h scope variant) testParts := by
  refine touches_of_command2 (fun s => ?_) (by decide) fun _ => rfl
  split
  case h_1 => exact (changesOnly_refuseOp s _ _).mono (by decide)
  case h_2 =>
    have hbegun : ∀ k code, changesOnly testParts s (beginOp h k code s) := fun k code => (changesOnly_beginOp s h k code).mono (by decide)
    refine changesOnly_ite ?waits ?runs
    case waits => exact (hbegun _ _).trans (changesOnly_modOp _ _ _) (by decide)
    case runs =>
      exact ((hbegun _ _).trans (changesOnly_takeTest _ _) (by decide)).trans (changesOnly_leaveIdle _) (by decide)

theorem touches_scrubPass (t : Nat) (h : Hdr) (p : Nat) : Touches (.scrubPass t h p) [.time, .hi, .ctxs, .ops, .td, .out] := by
  refine touches_of_command2 (fun s => ?_) (by decide) fun _ => rfl
  split
  case h_1 => exact (changesOnly_refuseOp s _ _).mono (by decide)
  case h_2 => exact (changesOnly_beginOp s _ _ _).mono (by decide)

theorem touches_secureErase (t : Nat) (h : Hdr) (p : Nat) : Touches (.secureErase t h p) [.time, .hi, .ctxs, .ops, .td, .out] := by
  refine touches_of_command2 (fun s => ?_) (by decide) fun _ => rfl
  split
  case h_1 => exact (changesOnly_refuseOp s _ _).mono (by decide)
  case h_2 => exact ((changesOnly_beginOp s _ _ _).mono (by decide)).trans (changesOnly_modOp _ _ _)

/-- The image is read; the operation ends with what its check finds, or the slot's old image is invalid from now on (R404). -/
theorem touches_fwStage (t : Nat) (h : Hdr) (addr size slot : Nat) (image : Option FwImage) :
    Touches (.fwStage t h addr size slot image) [.time, .hi, .ctxs, .fab, .srv, .ops, .pw, .sec, .td, .out] := by
  refine touches_of_command2 (fun s => ?_) (by decide) fun _ => rfl
  split
  case h_1 => exact (changesOnly_refuseOp s _ _).mono (by decide)
  case h_2 =>
    have hread : ∀ k code, changesOnly [.time, .hi, .ctxs, .fab, .srv, .ops, .pw, .sec, .td, .out] s
        (readHost h.ctx addr size 0 h.layerTag h.opTag (beginOp h k code s)) := fun k code =>
      ((changesOnly_beginOp s h k code).mono (by decide)).trans (changesOnly_readHost _ _ _ _ _ _ _) (by decide)
    dsimp only
    split
    case h_1 => exact (hread _ _).trans (changesOnly_endOp _ _ _ _) (by decide)
    case h_2 => exact ((hread _ _).trans (changesOnly_modFlash _ _ _)).trans (changesOnly_modOp _ _ _)

/-! ## Operations are controlled (R327, R328) -/

/-- A control command is refused, or acts on the operation that it names and completes. -/
theorem changesOnly_controlOp {l : List Piece} {f : Nat → State → State} (hf : ∀ n s, changesOnly l s (f n s)) (hl : fetchParts ⊆ l)
    (t : Nat) (h : Hdr) (op : Nat) (refuse : State → LongOp → Bool) (s : State) :
    changesOnly l s (controlOp t h op refuse f s) := by
  refine changesOnly_command (fun s => ?_) hl s
  split
  case h_1 => exact (changesOnly_final s _ _ _ _).mono hl
  case h_2 => exact (hf _ s).trans (changesOnly_final _ _ _ _ _) hl

theorem touches_opSuspend (t : Nat) (h : Hdr) (op : Nat) : Touches (.opSuspend t h op) [.time, .hi, .ctxs, .ops, .td, .out] :=
  fun s => ⟨_, rfl, changesOnly_controlOp (fun n s => (changesOnly_modOp n _ s).mono (by decide)) (by decide) _ _ _ _ s⟩

/-- An operation that goes on does at once what its phase waited for. -/
theorem touches_opResume (t : Nat) (h : Hdr) (op : Nat) : Touches (.opResume t h op)
    [.time, .hi, .ctxs, .mem, .fab, .srv, .ops, .mdl, .xn, .pw, .sec, .td, .out, .dram] :=
  fun s => ⟨_, rfl, changesOnly_controlOp (fun n s =>
    ((changesOnly_modOp n _ s).mono (by decide)).trans (changesOnly_kickOp _ n) (by decide)) (by decide) _ _ _ _ s⟩

theorem touches_opCancel (t : Nat) (h : Hdr) (op : Nat) : Touches (.opCancel t h op)
    [.time, .hi, .ctxs, .mem, .fab, .srv, .ops, .mdl, .xn, .pw, .td, .out, .dram, .scratch] :=
  fun s => ⟨_, rfl, changesOnly_controlOp (fun n s => (changesOnly_cancelOp s n).mono (by decide)) (by decide) _ _ _ _ s⟩

theorem touches_opQuery (t : Nat) (h : Hdr) (op : Nat) : Touches (.opQuery t h op) fetchParts := by
  refine touches_of_command (fun s => ?_) (by decide) fun _ => rfl
  split
  case h_1 | h_2 | h_3 => exact changesOnly_final s _ _ _ _

/-! ## Operations come to their quiesce point, and to their end (R298, R328, R404) -/

/-- An erase or a background test that has waited runs: the test ends IDLE. -/
theorem touches_quiesceMet (t op : Nat) : Touches (.quiesceMet t op) testParts := by
  refine fun s => ⟨_, rfl, changesOnly_of_tick (t := t) (by decide) ?_⟩
  generalize tick t s = s
  have hs : changesOnly testParts s s := changesOnly_refl _ s
  have hset : ∀ f, changesOnly testParts s (modOp op f s) := fun f => (changesOnly_modOp op f s).mono (by decide)
  split
  case h_2 => exact hs
  case h_1 =>
    refine changesOnly_ite hs (changesOnly_ite ?erase (changesOnly_ite (changesOnly_ite hs ?test) hs))
    case test => exact (hset _).trans (changesOnly_leaveIdle _) (by decide)
    case erase =>
      split
      case h_1 => exact changesOnly_ite (hset _) hs
      case h_2 => exact hs

/-- The partition's chunks are zeroed, the Coffer has a record of it, and the operation completes. -/
theorem touches_secureEraseDone (t op : Nat) : Touches (.secureEraseDone t op)
    [.time, .hi, .ctxs, .mem, .fab, .srv, .ops, .pw, .td, .cof, .out, .dram] := by
  refine fun s => ⟨_, rfl, changesOnly_of_tick (t := t) (by decide) ?_⟩
  generalize tick t s = s
  split
  case h_2 => exact changesOnly_refl _ s
  case h_1 =>
    split
    case h_2 => exact changesOnly_refl _ s
    case h_1 p _ =>
      refine changesOnly_ite (changesOnly_refl _ s) ?erased
      case erased => exact ((changesOnly_erasePart s p).mono (by decide)).coffer.trans (changesOnly_endOp _ _ _ _) (by decide)

theorem touches_selfTestDone (t op : Nat) (units : List FailedUnit) (tested : Nat) :
    Touches (.selfTestDone t op units tested) exchangeParts := by
  refine fun s => ⟨_, rfl, changesOnly_of_tick (t := t) (by decide) ?_⟩
  generalize tick t s = s
  split
  case h_2 => exact changesOnly_refl _ s
  case h_1 =>
    split
    case h_2 => exact changesOnly_refl _ s
    case h_1 =>
      refine changesOnly_ite (changesOnly_refl _ s) ?failed
      case failed => exact (changesOnly_forEach (fun u s => changesOnly_failUnit s u) units s).trans (changesOnly_endOp _ _ _ _) (by decide)

theorem touches_scrubPassDone (t op : Nat) : Touches (.scrubPassDone t op) [.time, .hi, .ctxs, .fab, .srv, .ops, .pw, .td, .out] := by
  refine fun s => ⟨_, rfl, changesOnly_of_tick (t := t) (by decide) ?_⟩
  generalize tick t s = s
  split
  case h_2 => exact changesOnly_refl _ s
  case h_1 =>
    split
    case h_2 => exact changesOnly_refl _ s
    case h_1 => exact changesOnly_ite (changesOnly_refl _ s) ((changesOnly_endOp s _ _ _).mono (by decide))

theorem touches_fwStageDone (t op : Nat) : Touches (.fwStageDone t op)
    [.time, .hi, .ctxs, .fab, .srv, .ops, .pw, .sec, .td, .out] := by
  refine fun s => ⟨_, rfl, changesOnly_of_tick (t := t) (by decide) ?_⟩
  generalize tick t s = s
  split
  case h_2 => exact changesOnly_refl _ s
  case h_1 =>
    split
    case h_2 => exact changesOnly_refl _ s
    case h_1 =>
      refine changesOnly_ite (changesOnly_refl _ s) ?staged
      case staged => exact ((changesOnly_modFlash s _ _).mono (by decide)).trans (changesOnly_endOp _ _ _ _) (by decide)

/-! ## Traces, filters, reports and watches (R422 to R431) -/

theorem touches_traceSetup (t : Nat) (h : Hdr) (base size kinds head : Nat) : Touches (.traceSetup t h base size kinds head) fetchParts := by
  refine touches_of_command (fun s => ?_) (by decide) fun _ => rfl
  split
  case h_1 => exact changesOnly_final s _ _ _ _
  case h_2 => exact ((changesOnly_modCtx s h.ctx _).mono (by decide)).trans (changesOnly_final _ _ _ _ _)

theorem touches_counterFilter (t : Nat) (h : Hdr) (set layer operator job : Nat) :
    Touches (.counterFilter t h set layer operator job) fetchParts := by
  refine touches_of_command (fun s => ?_) (by decide) fun _ => rfl
  split
  case h_1 => exact changesOnly_final s _ _ _ _
  case h_2 => exact ((changesOnly_modCtx s h.ctx _).mono (by decide)).trans (changesOnly_final _ _ _ _ _)

/-- The records go out one after another, each counted as bytes written to the host. -/
theorem touches_layerReport (t : Nat) (h : Hdr) (addr bytes : Nat) : Touches (.layerReport t h addr bytes) fetchParts := by
  refine touches_of_command (fun s => ?_) (by decide) fun _ => rfl
  split
  case h_1 => exact changesOnly_final s _ _ _ _
  case h_2 =>
    refine .trans (changesOnly_forEach (fun r s => ?sent) _ s) (changesOnly_final _ _ _ _ _)
    case sent => exact changesOnly_fetchParts (by simp)

theorem touches_tensorWatch (t : Nat) (h : Hdr) (b : WatchBody) : Touches (.tensorWatch t h b) fetchParts := by
  refine touches_of_command (fun s => ?_) (by decide) fun _ => rfl
  split
  case h_1 => exact changesOnly_final s _ _ _ _
  case h_2 => exact (changesOnly_modCtx s h.ctx _).mono (by decide)

/-- A watch that the command names ends, whether or not there is one. -/
theorem touches_watchCancel (t : Nat) (h : Hdr) (target : Nat) : Touches (.watchCancel t h target) fetchParts := by
  refine touches_of_command (fun s => ?_) (by decide) fun _ => rfl
  split
  case h_1 => exact changesOnly_final s _ _ _ _
  case h_2 =>
    refine .trans ?ended (changesOnly_final _ _ _ _ _)
    split
    case h_1 w _ => exact changesOnly_endWatch s _ w _
    case h_2 => exact changesOnly_refl _ s

theorem touches_watchExpiry (t c req : Nat) : Touches (.watchExpiry t c req) fetchParts := by
  refine fun s => ⟨_, rfl, changesOnly_of_tick (t := t) (by decide) ?_⟩
  generalize tick t s = s
  split
  case h_1 w _ => exact changesOnly_endWatch s c w _
  case h_2 => exact changesOnly_refl _ s

theorem touches_traceDrop (t c : Nat) (req : Option Nat) : Touches (.traceDrop t c req) [.time, .ctxs, .srv] :=
  fun s => ⟨_, rfl, changesOnly_of_tick (t := t) (by decide) ((changesOnly_dropTrace _ c _).mono (by decide))⟩

/-! ## Background work, advisories and the Coffer (R433 to R440) -/

/-- The parts that background work may change: those of a fence and of the exit from IDLE. -/
def backgroundParts : List Piece :=
  [.time, .hi, .ctxs, .mem, .fab, .srv, .ops, .mdl, .exu, .coll, .xn, .pw, .td, .cof, .out, .dram, .scratch, .pst]

theorem touches_backgroundInterval (t a : Nat) (finished : Bool) (degr : List (Nat × Nat × Nat)) (charge cycles : List Nat)
    (ind : List Nat × List Nat) (fwd : List Nat) :
    Touches (.backgroundInterval t a finished degr charge cycles ind fwd) backgroundParts := by
  refine fun s => ⟨_, rfl, changesOnly_of_tick (t := t) (by decide) ?_⟩
  generalize tick t s = s
  have htd : ∀ (x : Telem) u, changesOnly backgroundParts s u → changesOnly backgroundParts s { u with td := x } := fun x u hu =>
    hu.trans (l' := [.td]) (by simp [changesOnly_iff, allPieces, agree]) (by decide)
  have hwoken : ∀ u, changesOnly backgroundParts s u →
      changesOnly backgroundParts s (if a = 2 || a = 3 || a = 6 then leaveIdle u else u) := fun u hu =>
    changesOnly_ite (hu.trans (changesOnly_leaveIdle u) (by decide)) hu
  have hround := hwoken _ (htd { s.td with lastRound := mset s.td.lastRound a s.time } s (changesOnly_refl _ s))
  refine changesOnly_ite (changesOnly_refl _ s) (changesOnly_ite ?deferred (changesOnly_ite ?predicted hround))
  case deferred => exact (htd _ _ hround).trans (changesOnly_advise _ _ _) (by decide)
  case predicted => exact hround.trans (changesOnly_predict _ _ fwd) (by decide)

theorem touches_advisoryAck (t eid mask : Nat) : Touches (.advisoryAck t eid mask) [.time, .td] := by
  refine fun s => ⟨_, rfl, changesOnly_of_tick (t := t) (by decide) ?_⟩
  generalize tick t s = s
  refine changesOnly_ite ?cleared (changesOnly_refl _ s)
  case cleared => simp [changesOnly_iff, allPieces, agree]

/-- The Coffer freezes, is sent with a signature, which takes a draw, and is released where the snapshot alone froze it (R440). -/
theorem touches_cofferSnapshot (t eid nonce : Nat) : Touches (.cofferSnapshot t eid nonce) [.time, .cof, .draws, .out] := by
  refine fun s => ⟨_, rfl, changesOnly_of_tick (t := t) (by decide) ?_⟩
  generalize tick t s = s
  have hcof : ∀ (x : Coffer) u, changesOnly [.time, .cof, .draws, .out] s u → changesOnly [.time, .cof, .draws, .out] s { u with cof := x } :=
    fun x u hu => hu.trans (l' := [.cof]) (by simp [changesOnly_iff, allPieces, agree])
  have hdraw : ∀ u, changesOnly [.draws] u (advanceDraw u) := fun u => by simp [changesOnly_iff, allPieces, agree]
  have hfrozen := hcof { (freezeCoffer 1 s).cof with snapNonce := some nonce } _ ((changesOnly_freezeCoffer s 1).mono (by decide))
  have hsigned : ∀ n l m u, changesOnly [.time, .cof, .draws, .out] s u →
      changesOnly [.time, .cof, .draws, .out] s (advanceDraw (sendMgmt m (sendRecords n l u))) := fun n l m u hu =>
    ((hu.trans (changesOnly_sendRecords u n l)).trans (changesOnly_sendMgmt _ m)).trans (hdraw _)
  have hsent := fun n l m x => hcof x _ (hsigned n l m _ hfrozen)
  exact changesOnly_ite (changesOnly_refl _ s) (changesOnly_ite ((hsent _ _ _ _).trans (changesOnly_releaseCoffer _)) (hsent _ _ _ _))

/-- A release acts by message, or by a register write, which is an error outside RUN and IDLE (R439). -/
theorem touches_cofferRelease (t : Nat) (byMessage : Bool) (eid : Nat) : Touches (.cofferRelease t byMessage eid) [.time, .td, .cof] := by
  refine fun s => ⟨_, rfl, changesOnly_ite ?message ?register⟩
  case message =>
    exact changesOnly_of_tick (by decide) (changesOnly_ite ((changesOnly_releaseCoffer _).mono (by decide)) (changesOnly_refl _ _))
  case register => simp [changesOnly_iff, allPieces, agree]

/-- Settles O40, command by command: a descriptor's by its effect, an event by its branches. -/
theorem theOperationFrame : Obligations.TheOperationFrame :=
  ⟨touches_selfTest, touches_scrubPass, touches_fwStage, touches_secureErase, touches_opSuspend, touches_opResume, touches_opCancel,
    touches_opQuery, touches_traceSetup, touches_counterFilter, touches_layerReport, touches_tensorWatch, touches_watchCancel,
    touches_traceDrop, touches_watchExpiry, touches_backgroundInterval, touches_advisoryAck, touches_cofferSnapshot,
    touches_cofferRelease, touches_quiesceMet, touches_secureEraseDone, touches_selfTestDone, touches_scrubPassDone,
    touches_fwStageDone⟩

end Sys2Proof.Machine
end

section
/-! SUPPORT. The proof of O35: what requests, contexts, jobs, steps, polls and failed accesses of the host leave unchanged (R76 to
R79, R253, R278 to R305, R308 to R310, R443). -/
set_option Elab.async false
namespace Sys2Proof.Machine

/-! ## What the families of commands may change -/

/-- The parts that a request which is accepted may change. -/
def acceptParts : List Piece := [.time, .hi, .ctxs, .mem, .srv, .mdl, .exu, .xn, .pw, .td, .out, .dram]

/-- The parts that the frames of a sequence may change: those it gives back, and those it takes for new positions. -/
def seqParts : List Piece := [.time, .hi, .ctxs, .mem, .srv, .xn, .td, .out, .dram]

/-- The parts that a request which ends may change. -/
def reqEndParts : List Piece := [.time, .hi, .ctxs, .mem, .srv, .mdl, .exu, .xn, .td, .out, .dram]

/-- The parts that a request at its prompt or its deadline may change: the plates' queues and the count of faults besides. -/
def promptParts : List Piece := [.time, .hi, .ctxs, .mem, .fab, .srv, .mdl, .exu, .xn, .td, .out, .dram]

/-- The parts that a failed read may change: a shard's, a request's or a descriptor's. -/
def readErrorParts : List Piece := [.time, .hi, .ctxs, .mem, .fab, .srv, .ops, .mdl, .exu, .xn, .pw, .sec, .td, .out, .dram]

section
variable {s u : State}

theorem changesOnly_acceptParts (h : u.pending = s.pending ∧ u.id = s.id ∧ u.fab = s.fab ∧ u.ops = s.ops ∧ u.coll = s.coll ∧
    u.sec = s.sec ∧ u.cof = s.cof ∧ u.draws = s.draws ∧ u.hi.lock = s.hi.lock ∧ u.pw.st = s.pw.st) : changesOnly acceptParts s u := by
  simp [changesOnly_iff, allPieces, agree, acceptParts, h]

theorem changesOnly_seqParts (h : u.pending = s.pending ∧ u.id = s.id ∧ u.fab = s.fab ∧ u.ops = s.ops ∧ u.mdl = s.mdl ∧
    u.exu = s.exu ∧ u.coll = s.coll ∧ u.pw = s.pw ∧ u.sec = s.sec ∧ u.cof = s.cof ∧ u.draws = s.draws ∧ u.hi.lock = s.hi.lock) :
    changesOnly seqParts s u := by
  simp [changesOnly_iff, allPieces, agree, seqParts, h]

theorem changesOnly_reqEndParts (h : u.pending = s.pending ∧ u.id = s.id ∧ u.fab = s.fab ∧ u.ops = s.ops ∧ u.coll = s.coll ∧
    u.pw = s.pw ∧ u.sec = s.sec ∧ u.cof = s.cof ∧ u.draws = s.draws ∧ u.hi.lock = s.hi.lock) : changesOnly reqEndParts s u := by
  simp [changesOnly_iff, allPieces, agree, reqEndParts, h]

theorem changesOnly_promptParts (h : u.pending = s.pending ∧ u.id = s.id ∧ u.ops = s.ops ∧ u.coll = s.coll ∧ u.pw = s.pw ∧
    u.sec = s.sec ∧ u.cof = s.cof ∧ u.draws = s.draws ∧ u.hi.lock = s.hi.lock ∧ u.fab.scratch = s.fab.scratch) :
    changesOnly promptParts s u := by
  simp [changesOnly_iff, allPieces, agree, promptParts, h]

theorem changesOnly_readErrorParts (h : u.pending = s.pending ∧ u.id = s.id ∧ u.coll = s.coll ∧ u.cof = s.cof ∧ u.draws = s.draws ∧
    u.hi.lock = s.hi.lock ∧ u.fab.scratch = s.fab.scratch ∧ u.sec.life = s.sec.life ∧ u.sec.mboxBuf = s.sec.mboxBuf ∧
    u.pw.st = s.pw.st) : changesOnly readErrorParts s u := by
  simp [changesOnly_iff, allPieces, agree, readErrorParts, h]

end

/-! ## The operations that the commands share -/

section
variable (s : State)

theorem changesOnly_endPoll : changesOnly fetchParts s (endPoll s) := changesOnly_fetchParts (by simp)

theorem changesOnly_declineReq (h : Hdr) (op : ReqOp) (st : Status) :
    changesOnly [.time, .hi, .ctxs, .srv, .td, .out] s (declineReq h op st s) := by
  simp [changesOnly_iff, allPieces, agree]

theorem changesOnly_declineWaiting (k : Nat) (st : Status) :
    changesOnly [.time, .hi, .ctxs, .srv, .td, .out] s (declineWaiting k st s) := by
  simp [changesOnly_iff, allPieces, agree]

/-- A request that passes its checks is accepted, its state set up and its prompt read. -/
theorem changesOnly_readPrompt_acceptReq (h h' : Hdr) (b : GenBody) (a : Ask) (r : Request) (k : Nat) :
    changesOnly acceptParts s (readPrompt h b (takeReqState k (acceptReq h' a r s))) :=
  changesOnly_acceptParts (by simp)

theorem changesOnly_decideGen (h : Hdr) (b : GenBody) (stop : Option StopBlock) (d : Nat) :
    changesOnly acceptParts s (decideGen h b stop d s) := by
  unfold decideGen
  dsimp only
  split
  case h_1 => exact (changesOnly_declineReq s _ _ _).mono (by decide)
  case h_2 => exact changesOnly_readPrompt_acceptReq s _ _ _ _ _ _

theorem changesOnly_setReqs (m : NMap Request) (n : Nat) :
    changesOnly [.srv] s { s with srv := { s.srv with reqs := m, nextReq := n } } := by
  simp [changesOnly_iff, allPieces, agree]

theorem changesOnly_modReq (k : Nat) (f : Request → Request) : changesOnly [.srv] s (modReq k f s) := by
  simp [changesOnly_iff, allPieces, agree]

theorem changesOnly_modJob (i : Nat) (f : Job → Job) : changesOnly [.srv] s (modJob i f s) := by
  simp [changesOnly_iff, allPieces, agree]

theorem changesOnly_endReq (silent : Bool) (k : Nat) (st : Status) : changesOnly reqEndParts s (endReq silent k st s) :=
  changesOnly_reqEndParts (by simp)

theorem changesOnly_hostRingsError (c : Nat) : changesOnly [.ctxs, .td, .out] s (hostRingsError c s) := by
  simp [changesOnly_iff, allPieces, agree]

theorem changesOnly_ringError (c r : Nat) : changesOnly [.ctxs, .td, .out] s (ringError c r s) := by
  simp [changesOnly_iff, allPieces, agree]

end

/-! ## Requests arrive (R264, R296, R297, R491) -/

/-- A GENERATE is declined, decided at once, or waits for its stop block. -/
theorem touches_generate (t : Nat) (h : Hdr) (b : GenBody) : Touches (.generate t h b) acceptParts := by
  refine touches_of_command2 (fun s => ?_) (by decide) fun _ => rfl
  have hread : changesOnly acceptParts s (readHost h.ctx b.stopAddr 576 h.job h.layerTag h.opTag s) :=
    (changesOnly_readHost s _ _ _ _ _ _).mono (by decide)
  split
  case h_1 => exact (changesOnly_declineReq s _ _ _).mono (by decide)
  case h_2 =>
    refine changesOnly_ite (changesOnly_decideGen s h b none _) ?_
    dsimp only
    split
    case h_1 => exact hread.trans (changesOnly_declineReq _ _ _ _) (by decide)
    case h_2 => exact hread.trans (changesOnly_setReqs _ _ _) (by decide)

theorem touches_score (t : Nat) (h : Hdr) (b : ScoreBody) : Touches (.score t h b) acceptParts := by
  refine touches_of_command2 (fun s => ?_) (by decide) fun _ => rfl
  dsimp only
  split
  case h_1 => exact (changesOnly_declineReq s _ _ _).mono (by decide)
  case h_2 => exact changesOnly_readPrompt_acceptReq s _ _ _ _ _ _

/-- The gather of an accepted EMBED_GATHER begins at once. -/
theorem touches_embedGather (t : Nat) (h : Hdr) (b : EmbedBody) (bags : Option (List Bag)) :
    Touches (.embedGather t h b bags) faultParts := by
  refine touches_of_command2 (fun s => ?_) (by decide) fun _ => rfl
  dsimp only
  split
  case h_1 => exact (changesOnly_declineReq s _ _ _).mono (by decide)
  case h_2 =>
    split
    case h_1 => exact changesOnly_faultParts (by simp)
    case h_2 => exact changesOnly_faultParts (by simp)

/-- The request that awaited its stop block leaves the table, to be decided or declined. -/
theorem touches_stopBlockReturn (t k : Nat) (block : Option StopBlock) : Touches (.stopBlockReturn t k block) acceptParts := by
  refine fun s => ⟨_, rfl, changesOnly_of_tick (t := t) (by decide) ?_⟩
  generalize tick t s = s
  split
  case h_1 => exact changesOnly_refl _ s
  case h_2 r _ =>
    have hleft : changesOnly acceptParts s { s with srv := { s.srv with reqs := mdel s.srv.reqs k } } :=
      (changesOnly_setReqs s _ s.srv.nextReq).mono (by decide)
    have hdeclined : ∀ st, changesOnly acceptParts s
        (declineReq r.h .generate st { s with srv := { s.srv with reqs := mdel s.srv.reqs k } }) :=
      fun st => hleft.trans (changesOnly_declineReq _ _ _ _) (by decide)
    cases block with
    | some b => exact hleft.trans (changesOnly_decideGen _ _ _ (some b) _) (List.Subset.refl _)
    | none =>
      dsimp only
      split
      case h_1 => exact hdeclined _
      case h_2 => exact hdeclined _

theorem touches_stopBlockTimeout (t k : Nat) : Touches (.stopBlockTimeout t k) [.time, .hi, .ctxs, .srv, .td, .out] := by
  refine fun s => ⟨_, rfl, changesOnly_of_tick (t := t) (by decide) ?_⟩
  generalize tick t s = s
  split
  case h_1 => exact changesOnly_refl _ s
  case h_2 => exact changesOnly_ite (changesOnly_declineWaiting s k _) (changesOnly_refl _ s)

theorem changesOnly_takePrompt (k : Nat) (r : Request) (toks : List Nat) (s : State) :
    changesOnly seqParts s (takePrompt k r toks s) := changesOnly_seqParts (by simp)

theorem changesOnly_ensureOrWait (k n : Nat) (s : State) : changesOnly seqParts s (ensureOrWait k n s) := changesOnly_seqParts (by simp)

theorem changesOnly_queuePlan (plan : List QStep) (s : State) : changesOnly [.fab] s (queuePlan plan s) := by
  simp [changesOnly_iff, allPieces, agree]

/-- The prompt enters the sequence, its positions get frames or wait for them, and its steps are queued. -/
theorem touches_prefixLookupDone (t k : Nat) (prompt : Option (List Nat)) (plan : List QStep) :
    Touches (.prefixLookupDone t k prompt plan) promptParts := by
  refine fun s => ⟨_, rfl, changesOnly_of_tick (t := t) (by decide) ?_⟩
  generalize tick t s = s
  split
  case h_1 => exact changesOnly_refl _ s
  case h_2 r _ =>
    refine changesOnly_ite (changesOnly_refl _ s) ?_
    cases prompt with
    | none => exact (changesOnly_endReq s _ _ _).mono (by decide)
    | some toks =>
      refine changesOnly_ite (changesOnly_refl _ s) ?taken
      case taken =>
        have htaken := ((changesOnly_takePrompt k r toks s).mono (l := promptParts) (by decide)).trans (changesOnly_modReq _ k
          (fun r => { r with st := if r.op = .score then .running else .prefill })) (by decide)
        exact (htaken.trans (changesOnly_ensureOrWait k _ _) (by decide)).trans (changesOnly_queuePlan plan _) (by decide)

/-! ## Requests and sequences end (R253, R297, R317) -/

/-- A request that is cancelled ends by where it stands: before its admission, at its step's boundary, or at once. -/
theorem touches_reqCancel (t : Nat) (h : Hdr) (target : Nat) : Touches (.reqCancel t h target) reqEndParts := by
  refine touches_of_command (fun s => ?_) (by decide) fun _ => rfl
  split
  case h_1 => exact (changesOnly_final s _ _ _ _).mono (by decide)
  case h_2 =>
    split
    case h_1 => exact (changesOnly_final s _ _ _ _).mono (by decide)
    case h_2 k _ _ =>
      have hcancelled : changesOnly reqEndParts s (modReq k (fun r => { r with cancelled := true }) s) :=
        (changesOnly_modReq s k _).mono (by decide)
      exact (changesOnly_ite ((changesOnly_declineWaiting s k _).mono (by decide)) (changesOnly_ite hcancelled
        (changesOnly_endReq s _ k _))).trans (changesOnly_final _ _ _ _ _) (by decide)

theorem touches_seqEnd (t : Nat) (h : Hdr) (q : Nat) : Touches (.seqEnd t h q) seqParts := by
  refine touches_of_command (fun s => ?_) (by decide) fun _ => rfl
  dsimp only
  split
  case h_1 => exact (changesOnly_final s _ _ _ _).mono (by decide)
  case h_2 => exact ((changesOnly_endSeq _ s).mono (by decide)).trans (changesOnly_final _ _ _ _ _) (by decide)

theorem changesOnly_atDeadline (k : Nat) (r : Request) (s : State) : changesOnly promptParts s (atDeadline k r s) :=
  changesOnly_promptParts (by simp)

theorem touches_deadlineMarginTimer (t k : Nat) : Touches (.deadlineMarginTimer t k) promptParts := by
  refine fun s => ⟨_, rfl, changesOnly_of_tick (t := t) (by decide) ?_⟩
  generalize tick t s = s
  split
  case h_1 => exact changesOnly_refl _ s
  case h_2 r _ => exact changesOnly_ite (changesOnly_atDeadline k r s) (changesOnly_refl _ s)

theorem touches_beAllocationResume (t p : Nat) : Touches (.beAllocationResume t p) seqParts :=
  fun s => ⟨_, rfl, changesOnly_seqParts (by simp)⟩

/-! ## Steps (R76 to R79) -/

theorem changesOnly_dispatchStep (p : Nat) (q : Queued) (ops : List StepOp) (s : State) :
    changesOnly exchangeParts s (dispatchStep p q ops s) := changesOnly_exchangeParts (by simp)

theorem changesOnly_abortStep (p : Nat) (r : Running) (s : State) : changesOnly exchangeParts s (abortStep p r s) :=
  changesOnly_exchangeParts (by simp)

theorem changesOnly_endStep (p : Nat) (r : Running) (res : List StepRes) (s : State) :
    changesOnly exchangeParts s (endStep p r res s) := changesOnly_exchangeParts (by simp)

theorem changesOnly_markRecompute (p : Nat) (s : State) : changesOnly [.fab, .srv] s (markRecompute p s) := by
  simp [changesOnly_iff, allPieces, agree]

/-- Steps are queued, and the plate's next is dispatched where it is its turn. -/
theorem touches_stepDispatch (t p : Nat) (ops : List StepOp) (plan : List QStep) : Touches (.stepDispatch t p ops plan) exchangeParts := by
  refine fun s => ⟨_, rfl, changesOnly_of_tick (t := t) (by decide) ?_⟩
  generalize tick t s = s
  have hqueued : changesOnly exchangeParts s (markRecompute p (queuePlan plan s)) :=
    ((changesOnly_queuePlan plan s).mono (by decide)).trans (changesOnly_markRecompute p _) (by decide)
  split
  case h_1 => exact hqueued
  case h_2 q _ => exact changesOnly_ite hqueued (hqueued.trans (changesOnly_dispatchStep p q ops _) (List.Subset.refl _))

/-- A step that has run past its watchdog is aborted, another ends and lets the plan's steps in. -/
theorem touches_stepBoundary (t p : Nat) (res : List StepRes) (plan : List QStep) : Touches (.stepBoundary t p res plan) exchangeParts := by
  refine fun s => ⟨_, rfl, changesOnly_of_tick (t := t) (by decide) ?_⟩
  generalize tick t s = s
  split
  case h_1 => exact changesOnly_refl _ s
  case h_2 r _ =>
    exact changesOnly_ite (changesOnly_abortStep p r s)
      ((changesOnly_endStep p r res s).trans (changesOnly_queuePlan plan _) (by decide))

theorem touches_stepWatchdog (t p : Nat) : Touches (.stepWatchdog t p) exchangeParts := by
  refine fun s => ⟨_, rfl, changesOnly_of_tick (t := t) (by decide) ?_⟩
  generalize tick t s = s
  split
  case h_1 => exact changesOnly_refl _ s
  case h_2 r _ => exact changesOnly_ite (changesOnly_abortStep p r s) (changesOnly_refl _ s)

/-! ## Jobs and claims (R308 to R310) -/

theorem changesOnly_readAdmit (h : Hdr) (addr size : Nat) (resv : Option Reservation) (kv : Nat) (s : State) :
    changesOnly fetchParts s (readAdmit h addr size resv kv s) := changesOnly_fetchParts (by simp)

theorem changesOnly_startAdmit (h : Hdr) (r : Reservation) (kv : Option KvGeom) (i : Nat) (s : State) :
    changesOnly leaveIdleParts s (startAdmit h r kv i s) := by
  simp [changesOnly_iff, allPieces, agree, leaveIdleParts]

theorem changesOnly_finishAdmit (i : Nat) (s : State) : changesOnly leaveIdleParts s (finishAdmit i s) := by
  simp [changesOnly_iff, allPieces, agree, leaveIdleParts]

theorem changesOnly_failAdmit (i : Nat) (st : Status) (s : State) :
    changesOnly [.time, .hi, .ctxs, .mem, .srv, .xn, .td, .out] s (failAdmit i st s) := by
  simp [changesOnly_iff, allPieces, agree]

/-- The reservation is read once its first checks pass; then the job is refused, or its admission begins. -/
theorem touches_jobAdmit (t : Nat) (h : Hdr) (addr size : Nat) (resv : Option Reservation) (kvAddr : Nat) (kv : Option KvGeom) :
    Touches (.jobAdmit t h addr size resv kvAddr kv) leaveIdleParts := by
  refine touches_of_command (fun s => ?_) (by decide) fun _ => rfl
  have hread : changesOnly leaveIdleParts s (readAdmit h addr size resv kvAddr s) := (changesOnly_readAdmit h _ _ _ _ s).mono (by decide)
  split
  case h_1 => exact (changesOnly_final s _ _ _ _).mono (by decide)
  case h_2 =>
    dsimp only
    split
    case h_1 | h_2 => exact hread.trans (changesOnly_final _ _ _ _ _) (by decide)
    case h_3 i _ _ => exact hread.trans (changesOnly_startAdmit h _ _ i _) (List.Subset.refl _)

theorem changesOnly_teardownBy (i : Nat) (c : Cmd) (s : State) : changesOnly exchangeParts s (teardownBy i c s) :=
  changesOnly_exchangeParts (by simp)

theorem touches_jobEnd (t : Nat) (h : Hdr) : Touches (.jobEnd t h) exchangeParts := by
  refine touches_of_command (fun s => ?_) (by decide) fun _ => rfl
  dsimp only
  split
  case h_1 => exact (changesOnly_final s _ _ _ _).mono (by decide)
  case h_2 => exact changesOnly_ite (changesOnly_teardownBy _ _ s) (changesOnly_exchangeParts (by simp))

theorem touches_jobTeardown (t : Nat) (h : Hdr) : Touches (.jobTeardown t h) exchangeParts := by
  refine touches_of_command (fun s => ?_) (by decide) fun _ => rfl
  dsimp only
  split
  case h_1 => exact (changesOnly_final s _ _ _ _).mono (by decide)
  case h_2 => exact changesOnly_teardownBy _ _ s

/-- A claim that fits is noted; the answer goes out either way. -/
theorem touches_claim (t src mc amount : Nat) : Touches (.claim t src mc amount) [.time, .srv, .xn, .td, .out] := by
  refine fun s => ⟨_, rfl, changesOnly_of_tick (t := t) (by decide) ?_⟩
  generalize tick t s = s
  have hanswered : ∀ m u, changesOnly [.time, .srv, .xn, .td, .out] s u →
      changesOnly [.time, .srv, .xn, .td, .out] s (sendXn src 0 false m u) := fun m u hu => hu.trans (changesOnly_sendXn u _ _ _ _)
  split
  case h_2 => exact hanswered _ _ (changesOnly_refl _ s)
  case h_1 i _ =>
    exact changesOnly_ite (hanswered _ _ ((changesOnly_modJob s i _).mono (by decide))) (hanswered _ _ (changesOnly_refl _ s))

/-- A claim that is refused fails the admission, the last that is granted finishes it. -/
theorem touches_claimAnswer (t src job : Nat) (granted : Bool) : Touches (.claimAnswer t src job granted) leaveIdleParts := by
  refine fun s => ⟨_, rfl, changesOnly_of_tick (t := t) (by decide) ?_⟩
  generalize tick t s = s
  have hset : ∀ f, changesOnly leaveIdleParts s (modJob (jobIdx job) f s) := fun f => (changesOnly_modJob s _ f).mono (by decide)
  exact changesOnly_ite (changesOnly_refl _ s) (changesOnly_ite ((hset _).trans (changesOnly_failAdmit _ _ _) (by decide))
    (changesOnly_ite ((hset _).trans (changesOnly_finishAdmit _ _) (List.Subset.refl _)) (hset _)))

theorem touches_claimTimeout (t job : Nat) : Touches (.claimTimeout t job) [.time, .hi, .ctxs, .mem, .srv, .xn, .td, .out] :=
  fun s => ⟨_, rfl, changesOnly_of_tick (t := t) (by decide) (changesOnly_ite (changesOnly_failAdmit _ _ _) (changesOnly_refl _ _))⟩

theorem touches_claimRelease (t src mc amount : Nat) : Touches (.claimRelease t src mc amount) [.time, .srv] := by
  refine fun s => ⟨_, rfl, changesOnly_of_tick (t := t) (by decide) ?_⟩
  generalize tick t s = s
  split
  case h_1 => exact (changesOnly_modJob s _ _).mono (by decide)
  case h_2 => exact changesOnly_refl _ s

/-! ## Contexts (R279, R280, R443) -/

theorem touches_ctxCreate (t : Nat) (h : Hdr) (vf p : Nat) : Touches (.ctxCreate t h vf p) [.time, .hi, .ctxs, .mem, .td, .out] := by
  refine touches_of_command (fun s => ?_) (by decide) fun _ => rfl
  split
  case h_1 => exact (changesOnly_final s _ _ _ _).mono (by decide)
  case h_2 => simp [changesOnly_iff, allPieces, agree]

theorem touches_ctxDestroy (t : Nat) (h : Hdr) (vf : Nat) : Touches (.ctxDestroy t h vf) [.time, .hi, .ctxs, .mem, .td, .out] := by
  refine touches_of_command (fun s => ?_) (by decide) fun _ => rfl
  split
  case h_1 => exact (changesOnly_final s _ _ _ _).mono (by decide)
  case h_2 => simp [changesOnly_iff, allPieces, agree]

theorem touches_contextEnable (t c : Nat) : Touches (.contextEnable t c) [.time, .hi, .ctxs, .ops, .td, .out] :=
  fun s => ⟨_, rfl, by simp [changesOnly_iff, allPieces, agree]⟩

theorem touches_contextDisable (t c : Nat) : Touches (.contextDisable t c) [.time, .ctxs] :=
  fun s => ⟨_, rfl, changesOnly_of_tick (t := t) (by decide) ((changesOnly_modCtx _ c _).mono (by decide))⟩

/-- Requests of the context end, and its long operations owe their records for later. -/
theorem touches_contextReset (t c : Nat) : Touches (.contextReset t c)
    [.time, .hi, .ctxs, .mem, .srv, .ops, .mdl, .exu, .xn, .td, .out, .dram] :=
  fun s => ⟨_, rfl, by simp [changesOnly_iff, allPieces, agree]⟩

/-! ## Polls (R285 to R293) -/

theorem changesOnly_afterSummary (s : State) : changesOnly fetchParts s (afterSummary s) := changesOnly_fetchParts (by simp)

theorem changesOnly_summaryFails (l : Nat) (s : State) : changesOnly fetchParts s (summaryFails l s) := changesOnly_fetchParts (by simp)

theorem touches_poll (t : Nat) : Touches (.poll t) fetchParts := fun s => ⟨_, rfl, changesOnly_fetchParts (by simp)⟩

theorem touches_summaryReadReturn (t l : Nat) (words : Option (List Dword)) : Touches (.summaryReadReturn t l words) fetchParts := by
  refine fun s => ⟨_, rfl, changesOnly_of_tick (t := t) (by decide) ?_⟩
  generalize tick t s = s
  cases words with
  | none => exact changesOnly_summaryFails l s
  | some ws =>
    refine changesOnly_ite (changesOnly_refl _ s) ?sent
    case sent => exact changesOnly_fetchParts (by simp)

theorem touches_fetchaddComplete (t l : Nat) (ok : Bool) : Touches (.fetchaddComplete t l ok) fetchParts := by
  refine fun s => ⟨_, rfl, changesOnly_of_tick (t := t) (by decide) ?_⟩
  generalize tick t s = s
  split
  case h_1 => exact changesOnly_refl _ s
  case h_2 => exact changesOnly_fetchParts (by simp)

/-- Tails, heads and the trace ring's head are taken, and records that were held drain into the room found. -/
theorem touches_doorbellBlockRead (t c : Nat) (tails heads : List Nat) : Touches (.doorbellBlockRead t c tails heads) reqEndParts := by
  refine fun s => ⟨_, rfl, changesOnly_of_tick (t := t) (by decide) ?_⟩
  generalize tick t s = s
  refine changesOnly_ite ?absent ?taken
  case absent => exact changesOnly_reqEndParts (by simp)
  case taken =>
    dsimp only
    split
    case h_1 => exact changesOnly_reqEndParts (by simp)
    case h_2 => exact changesOnly_reqEndParts (by simp)

/-! ## Failed accesses, interrupts and time (R278, R303 to R305) -/

theorem changesOnly_reqBufferFails (k : Nat) (s : State) : changesOnly reqEndParts s (reqBufferFails k s) :=
  changesOnly_reqEndParts (by simp)

theorem touches_hostReadError (t : Nat) (w : HostReadWhat) : Touches (.hostReadError t w) readErrorParts := by
  refine fun s => ⟨_, rfl, changesOnly_of_tick (t := t) (by decide) ?_⟩
  generalize tick t s = s
  cases w with
  | summary l => exact (changesOnly_summaryFails l s).mono (by decide)
  | doorbell c => exact changesOnly_readErrorParts (by simp)
  | descriptor c r => exact changesOnly_readErrorParts (by simp)
  | reqBuffer k => exact (changesOnly_reqBufferFails k s).mono (by decide)
  | cmdBuffer h => exact (changesOnly_command (fun s => changesOnly_final s _ _ _ _) (List.Subset.refl _) s).mono (by decide)
  | installBuffer mc i => exact changesOnly_readErrorParts (by simp)

theorem changesOnly_cmdDestFails (t : Nat) (h : Hdr) (s : State) :
    changesOnly [.time, .hi, .ctxs, .mem, .td, .out] s (cmdDestFails t h s) := by
  unfold cmdDestFails
  split
  case h_1 => simp [changesOnly_iff, allPieces, agree]
  case h_2 =>
    split
    case h_1 w _ => exact (changesOnly_endWatch s _ w _).mono (by decide)
    case h_2 => exact (changesOnly_command (fun s => changesOnly_final s _ _ _ _) (List.Subset.refl _) s).mono (by decide)

theorem touches_hostWriteError (t : Nat) (w : HostWriteWhat) : Touches (.hostWriteError t w) reqEndParts := by
  refine fun s => ⟨_, rfl, changesOnly_of_tick (t := t) (by decide) ?_⟩
  generalize tick t s = s
  cases w with
  | record c r => exact changesOnly_ite ((changesOnly_ringError s c r).mono (by decide)) (changesOnly_refl _ s)
  | reqDest k =>
    dsimp only
    split
    case h_1 => exact changesOnly_refl _ s
    case h_2 => exact (changesOnly_reqBufferFails k s).trans (changesOnly_hostRingsError _ _) (by decide)
  | cmdDest h => exact ((changesOnly_cmdDestFails t h s).mono (by decide)).trans (changesOnly_hostRingsError _ _) (by decide)
  | other c => exact (changesOnly_hostRingsError s c).mono (by decide)

theorem touches_coalTimer (t c r : Nat) : Touches (.coalTimer t c r) [.time, .hi, .ctxs, .out] :=
  fun s => ⟨_, rfl, by simp [changesOnly_iff, allPieces, agree]⟩

theorem touches_ptmDialogue (t : Nat) (ok : Bool) (m : Nat) : Touches (.ptmDialogue t ok m) [.time, .hi, .td, .out] :=
  fun s => ⟨_, rfl, by simp [changesOnly_iff, allPieces, agree]⟩

/-- Settles O35, command by command: a descriptor's by its effect, an event by its branches. -/
theorem theServingFrame : Obligations.TheServingFrame :=
  ⟨touches_generate, touches_score, touches_embedGather, touches_jobAdmit, touches_jobEnd, touches_jobTeardown, touches_seqEnd,
    touches_ctxCreate, touches_ctxDestroy, touches_reqCancel, touches_stopBlockReturn, touches_stopBlockTimeout,
    touches_prefixLookupDone, touches_stepDispatch, touches_stepBoundary, touches_stepWatchdog, touches_deadlineMarginTimer,
    touches_beAllocationResume, touches_claim, touches_claimAnswer, touches_claimTimeout, touches_poll, touches_summaryReadReturn,
    touches_fetchaddComplete, touches_doorbellBlockRead, touches_hostReadError, touches_hostWriteError, touches_coalTimer,
    touches_ptmDialogue, touches_contextEnable, touches_contextDisable, touches_contextReset, touches_claimRelease⟩

end Sys2Proof.Machine
end

section
/-! SUPPORT. The proof of O54: what device time is after a command (R304, R449). -/
set_option Elab.async false
namespace Sys2Proof.Machine

/-! ## How the shared operations move time on

A command or event comes with its time, and the tick takes the later of that and device time; all that follows the tick leaves
time alone. -/

@[simp] theorem tick_time (t : Nat) (s : State) : (tick t s).time = max s.time t := rfl

theorem fetched_time {t : Nat} {h : Hdr} {s u : State} (hu : fetched t h s = some u) : u.time = max s.time t := by
  unfold fetched at hu
  dsimp only at hu
  split at hu
  case isTrue => obtain rfl := Option.some.inj hu; simp
  case isFalse =>
    split at hu
    case isTrue => obtain rfl := Option.some.inj hu; simp
    case isFalse => cases hu

section
variable {f : State → State} (hf : ∀ s, (f s).time = s.time)
include hf

@[simp] theorem command_time (t : Nat) (h : Hdr) (s : State) : (command t h f s).time = max s.time t := by
  cases h0 : fetched t h s with
  | none => rw [command_of_not_fetched h0, tick_time]
  | some s0 => rw [command_of_begins ⟨s0, h0, rfl⟩]; simp [hf, fetched_time h0]

@[simp] theorem command2_time (t : Nat) (h : Hdr) (s : State) : (command2 t h f s).time = max s.time t := by
  cases h0 : fetched t h s with
  | none => rw [command2_of_not_fetched h0, tick_time]
  | some s0 => rw [command2_of_begins h0]; simp [hf, fetched_time h0]

@[simp] theorem regWrite_time (t : Nat) (s : State) : (regWrite t f s).time = max s.time t := by
  simp [regWrite, hf]

theorem le_command_time (t : Nat) (h : Hdr) (s : State) : s.time ≤ (command t h f s).time := by simp [hf]

theorem le_command2_time (t : Nat) (h : Hdr) (s : State) : s.time ≤ (command2 t h f s).time := by simp [hf]

end

@[simp] theorem mailbox_time {f : State → Status × List Byte × State} (hf : ∀ s, (f s).2.2.time = s.time) (t n : Nat) (s : State) :
    (mailbox t n f s).time = max s.time t := by
  simp [mailbox, hf]

theorem le_mailbox_time {f : State → Status × List Byte × State} (hf : ∀ s, (f s).2.2.time = s.time) (t n : Nat) (s : State) :
    s.time ≤ (mailbox t n f s).time := by
  simp [hf]

@[simp] theorem spdm_time (t : Nat) (retired ok : Bool) (name : String) (data : List Nat) (s : State) :
    (spdm t retired ok name data s).time = max s.time t := by
  simp [spdm]

@[simp] theorem session_time (t : Nat) (ok : Bool) (name : String) (data : List Nat) (f : Sec → Sec) (s : State) :
    (session t ok name data f s).time = max s.time t := by
  simp [session]

@[simp] theorem hostColl_time (t : Nat) (h : Hdr) (opcode : Nat) (b : CollBody) (s : State) :
    (hostColl t h opcode b s).time = max s.time t := by
  unfold hostColl
  refine command_time (fun s => ?_) t h s
  dsimp only
  split
  case h_1 => simp
  case h_2 => split <;> simp

@[simp] theorem controlOp_time {f : Nat → State → State} (hf : ∀ n s, (f n s).time = s.time) (t : Nat) (h : Hdr) (op : Nat)
    (refuse : State → LongOp → Bool) (s : State) : (controlOp t h op refuse f s).time = max s.time t := by
  unfold controlOp
  refine command_time (fun s => ?_) t h s
  split
  case h_1 => simp
  case h_2 => simp [hf]

/-- The descriptor whose destination failed, where no tile or watch of it is left, is fetched within the event. -/
theorem le_cmdDestFails_time (t : Nat) (h : Hdr) (s : State) : s.time ≤ (cmdDestFails t h s).time := by
  unfold cmdDestFails
  split
  case h_1 => simp
  case h_2 =>
    split
    case h_1 => simp
    case h_2 => exact le_command_time (f := final (cmdOf h) .malformed 0 0) (fun s => by simp) t h s

/-! ## Every command -/

theorem hostReadError_keepsTime (t : Nat) (w : HostReadWhat) (s : State) :
    Answers (.hostReadError t w) s (fun u => s.time ≤ u.time) := by
  cases w with
  | cmdBuffer h =>
    have hrun : (tick t s).time ≤ (command t h (final (cmdOf h) .malformed 0 0) (tick t s)).time :=
      le_command_time (fun s => by simp) t h _
    exact ⟨_, rfl, (Nat.le_max_left s.time t).trans hrun⟩
  | _ => exact ⟨_, rfl, by simp⟩

theorem hostWriteError_keepsTime (t : Nat) (w : HostWriteWhat) (s : State) :
    Answers (.hostWriteError t w) s (fun u => s.time ≤ u.time) := by
  refine ⟨_, rfl, ?_⟩
  cases w with
  | record c r => simp
  | reqDest k => dsimp only; split <;> simp
  | cmdDest h => simpa using (Nat.le_max_left s.time t).trans (le_cmdDestFails_time t h (tick t s))
  | other c => simp

/-- The fits of the four fields keep time, whether or not a field has one. -/
theorem thermalModelUpdate_keepsTime (t : Nat) (fits : List ThermFit) (sensors : List Nat) (s : State) :
    Answers (.thermalModelUpdate t fits sensors) s (fun u => s.time ≤ u.time) := by
  refine ⟨_, rfl, ?_⟩
  simp only [setEmergency_frame, keepFloors_frame]
  rw [forEach_time _ _ _ fun f s => by split <;> simp]
  exact Nat.le_max_left _ _

/-- The commands that come as descriptors of a ring. -/
def ofRing : Instr → Bool
  | .generate .. | .score .. | .embedGather .. | .tileMove .. | .embRowUpdate .. | .embGenCommit .. | .kvMigrate .. | .jobAdmit ..
  | .jobEnd .. | .jobTeardown .. | .plateLoad .. | .plateUnload .. | .tableReload .. | .seqEnd .. | .modelCreate .. | .modelDestroy ..
  | .epochInstall .. | .detokLoad .. | .ctxCreate .. | .ctxDestroy .. | .partCreate .. | .partResize .. | .selfTest .. | .scrubPass ..
  | .fwStage .. | .secureErase .. | .opSuspend .. | .opResume .. | .opCancel .. | .opQuery .. | .reqCancel .. | .collGroupCreate ..
  | .collGroupDestroy .. | .barrier .. | .reduceSmall .. | .allReduce .. | .allGather .. | .reduceScatter .. | .traceSetup ..
  | .counterFilter .. | .layerReport .. | .tensorWatch .. | .watchCancel .. => true
  | _ => false

/-- A descriptor moves time on by its fetch, and no branch of its effect moves it. -/
theorem exec_keepsTime_of_ofRing (c : Instr) (s : State) (hc : ofRing c = true) : Answers c s (fun u => s.time ≤ u.time) := by
  cases c with
  -- One record is owed: the checks, then the effect.
  | jobEnd | jobTeardown | modelCreate | modelDestroy | ctxCreate | ctxDestroy | partCreate | opQuery | reqCancel |
  collGroupDestroy | traceSetup | counterFilter | layerReport | tensorWatch | watchCancel =>
    refine ⟨_, rfl, le_command_time (fun s => ?_) _ _ _⟩
    repeat' split
    all_goals simp
  -- The same, where the effect names intermediate states.
  | tileMove | embRowUpdate | embGenCommit | jobAdmit | plateUnload | tableReload | seqEnd | detokLoad | collGroupCreate =>
    refine ⟨_, rfl, le_command_time (fun s => ?_) _ _ _⟩
    dsimp only
    repeat' split
    all_goals simp
  -- Two records may be owed.
  | plateLoad | selfTest | scrubPass | secureErase =>
    refine ⟨_, rfl, le_command2_time (fun s => ?_) _ _ _⟩
    repeat' split
    all_goals simp
  | generate | score | embedGather | kvMigrate | epochInstall | partResize | fwStage =>
    refine ⟨_, rfl, le_command2_time (fun s => ?_) _ _ _⟩
    dsimp only
    repeat' split
    all_goals simp
  | barrier | reduceSmall | allReduce | allGather | reduceScatter | opSuspend | opResume | opCancel => exact ⟨_, rfl, by simp⟩
  | _ => cases hc

/-- The messages of other chips and of switches, and what their links bring. -/
def fromLink : Instr → Bool
  | .invalidationAck .. | .dropGrantRequest .. | .kvDrop .. | .sequencePublication .. | .prepared .. | .no .. | .installCommit ..
  | .committedReply .. | .release .. | .releaseAck .. | .abort .. | .installQuery .. | .epochDrained .. | .dispatch .. | .close ..
  | .exuReturn .. | .gather .. | .pooled .. | .gone .. | .update .. | .commit .. | .settle .. | .done .. | .read .. | .write ..
  | .atomic .. | .resp .. | .claim .. | .claimAnswer .. | .claimRelease .. | .resetNotice .. | .join .. | .abandon .. | .fault ..
  | .collectiveChunk .. | .switchStateReport .. | .flit .. | .nak .. | .tag .. => true
  | _ => false

theorem exec_keepsTime_of_fromLink (c : Instr) (s : State) (hc : fromLink c = true) : Answers c s (fun u => s.time ≤ u.time) := by
  cases c with
  -- The next state is chosen by branches.
  | sequencePublication | claim | claimRelease | join | abandon | fault | collectiveChunk =>
    refine ⟨_, rfl, ?_⟩
    repeat' split
    all_goals simp
  -- The branches each answer by themselves.
  | flit | tag =>
    simp only [Answers, exec, execFlit, execTag]
    repeat' split
    all_goals exact ⟨_, rfl, by simp⟩
  | invalidationAck | dropGrantRequest | kvDrop | prepared | no | installCommit | committedReply | release | releaseAck | abort |
  installQuery | epochDrained | dispatch | close | exuReturn | gather | pooled | gone | update | commit | settle | done | read | write |
  atomic | resp | claimAnswer | resetNotice | switchStateReport | nak => exact ⟨_, rfl, by simp⟩
  | _ => cases hc

/-- The accesses of registers and memory by the host, and what Sirdoyx, the TAP and the managers ask for. -/
def byAccess : Instr → Bool
  | .setCap .. | .heartbeat .. | .setState .. | .advisoryAck .. | .cofferSnapshot .. | .cofferRelease .. | .getVersion ..
  | .getCapabilities .. | .negotiateAlgorithms .. | .getDigests .. | .getCertificate .. | .challenge .. | .getMeasurements ..
  | .keyExchange .. | .finish .. | .endSession .. | .ideKm .. | .getNonce .. | .unlock .. | .relock .. | .deploy ..
  | .keyAdd .. | .keyRevoke .. | .retire .. | .certWrite .. | .tapInstruction .. | .pfLevelWrite .. | .setupLock ..
  | .contextEnable .. | .contextDisable .. | .ringSetupWrite .. | .contextReset .. | .hiDbCtrlWrite .. | .pairLoWrite ..
  | .pairHiWrite .. | .pairLoRead .. | .pairHiRead .. | .misalignedAccess .. | .registerWrite .. | .requestRun ..
  | .requestSleep .. | .requestDeep .. | .requestOff .. | .pwCapWrite .. | .pwFloorWrite .. | .pwPhaseWrite .. | .pwOpWrite ..
  | .fbSchedCtrlWrite .. | .xnVcWeightWrite .. | .portDisable .. | .mmCabHiRsvWrite .. | .tdAddrOnlyWrite ..
  | .advisoryClear .. | .bar2Read .. | .bar2Write .. | .provision .. | .logRead .. => true
  | _ => false

theorem exec_keepsTime_of_byAccess (c : Instr) (s : State) (hc : byAccess c = true) : Answers c s (fun u => s.time ≤ u.time) := by
  cases c with
  | provision | logRead =>
    refine ⟨_, rfl, le_mailbox_time (fun s => ?_) _ _ _⟩
    split <;> simp
  | setCap | heartbeat | setState | advisoryAck | cofferSnapshot | cofferRelease | getVersion | getCapabilities |
  negotiateAlgorithms | getDigests | getCertificate | challenge | getMeasurements | keyExchange | finish | endSession | ideKm |
  getNonce | unlock | relock | deploy | keyAdd | keyRevoke | retire | certWrite | tapInstruction | pfLevelWrite | setupLock |
  contextEnable | contextDisable | ringSetupWrite | contextReset | hiDbCtrlWrite | pairLoWrite | pairHiWrite | pairLoRead |
  pairHiRead | misalignedAccess | registerWrite | requestRun | requestSleep | requestDeep | requestOff | pwCapWrite |
  pwFloorWrite | pwPhaseWrite | pwOpWrite | fbSchedCtrlWrite | xnVcWeightWrite | portDisable | mmCabHiRsvWrite |
  tdAddrOnlyWrite | advisoryClear | bar2Read | bar2Write => exact ⟨_, rfl, by simp⟩
  | _ => cases hc

/-- A command moves time on by its fetch or its tick, unless it boots the device anew or is the first PTM dialogue that succeeds. -/
theorem exec_keepsTime (c : Instr) (s : State) (hc : restartsTime c = false)
    (hptm : ∀ t ok m, c = .ptmDialogue t ok m → s.hi.ptmSet = true) : Answers c s (fun u => s.time ≤ u.time) := by
  cases c with
  | generate | score | embedGather | tileMove | embRowUpdate | embGenCommit | kvMigrate | jobAdmit | jobEnd | jobTeardown | plateLoad |
  plateUnload | tableReload | seqEnd | modelCreate | modelDestroy | epochInstall | detokLoad | ctxCreate | ctxDestroy | partCreate |
  partResize | selfTest | scrubPass | fwStage | secureErase | opSuspend | opResume | opCancel | opQuery | reqCancel | collGroupCreate |
  collGroupDestroy | barrier | reduceSmall | allReduce | allGather | reduceScatter | traceSetup | counterFilter | layerReport |
  tensorWatch | watchCancel => exact exec_keepsTime_of_ofRing _ s rfl
  | invalidationAck | dropGrantRequest | kvDrop | sequencePublication | prepared | no | installCommit | committedReply | release |
  releaseAck | abort | installQuery | epochDrained | dispatch | close | exuReturn | gather | pooled | gone | update | commit | settle |
  done | read | write | atomic | resp | claim | claimAnswer | claimRelease | resetNotice | join | abandon | fault | collectiveChunk |
  switchStateReport | flit | nak | tag => exact exec_keepsTime_of_fromLink _ s rfl
  | setCap | heartbeat | setState | advisoryAck | cofferSnapshot | cofferRelease | getVersion | getCapabilities |
  negotiateAlgorithms | getDigests | getCertificate | challenge | getMeasurements | keyExchange | finish | endSession | ideKm |
  getNonce | unlock | relock | deploy | keyAdd | keyRevoke | retire | certWrite | tapInstruction | pfLevelWrite | setupLock |
  contextEnable | contextDisable | ringSetupWrite | contextReset | hiDbCtrlWrite | pairLoWrite | pairHiWrite | pairLoRead |
  pairHiRead | misalignedAccess | registerWrite | requestRun | requestSleep | requestDeep | requestOff | pwCapWrite |
  pwFloorWrite | pwPhaseWrite | pwOpWrite | fbSchedCtrlWrite | xnVcWeightWrite | portDisable | mmCabHiRsvWrite |
  tdAddrOnlyWrite | advisoryClear | bar2Read | bar2Write | provision | logRead => exact exec_keepsTime_of_byAccess _ s rfl
  | coldReset | stateEntry | wakeN | thermtripRelease | aonSupplyRemoved => cases hc
  | ptmDialogue t ok m => exact ⟨_, rfl, by simp [hptm t ok m rfl]⟩
  -- An event whose next state is chosen by branches.
  | stopBlockTimeout | prefixLookupDone | stepDispatch | stepBoundary | stepWatchdog | deadlineMarginTimer |
  dovetailRecalibration | plateLoadVerified | islandConfigAck | plateResident | lineCheckFail | frameRestored | restoreFailed |
  subchannelRetry | frameMigration | migrateCopyDone | areaAllocated | epochFree | remoteTimeout | summaryReadReturn |
  fetchaddComplete | doorbellBlockRead | watchExpiry | idleEntry | quiesceMet | secureEraseDone | selfTestDone | scrubPassDone |
  fwStageDone =>
    refine ⟨_, rfl, ?_⟩
    repeat' split
    all_goals simp
  | stopBlockReturn | islandConfigTimeout | reloadVerified | manifestVerified =>
    refine ⟨_, rfl, ?_⟩
    dsimp only
    repeat' split
    all_goals simp
  -- An event whose branches each answer by themselves.
  | restoringReissue | remoteResend | fabricFaultResend | portTrainingDone | laneRetry =>
    simp only [Answers, exec, execRestoringReissue, execRemoteResend, execFabricFaultResend, execPortTrainingDone, execLaneRetry]
    repeat' split
    all_goals exact ⟨_, rfl, by simp⟩
  | hostReadError t w => exact hostReadError_keepsTime t w s
  | hostWriteError t w => exact hostWriteError_keepsTime t w s
  | thermalModelUpdate t fits sensors => exact thermalModelUpdate_keepsTime t fits sensors s
  -- Every other one is one expression over operations that keep time after the tick.
  | _ => exact ⟨_, rfl, by simp⟩

/-- The first dialogue that succeeds with no context enabled sets device time to the master's. -/
theorem ptmDialogue_sets_time {s : State} (t m : Nat) (hen : s.hi.ptmEnable = true) (hset : s.hi.ptmSet = false)
    (hctx : enabledCtxs s = []) :
    Answers (.ptmDialogue t true m) s (fun u => u = { tick t s with time := m, hi := { s.hi with ptmFails := 0, ptmSet := true, sync := true } }) :=
  ⟨_, rfl, by simp [hen, hset, hctx]⟩

/-- Settles O54: time after a command, command by command. -/
theorem timeNeverRunsBackward : Obligations.TimeNeverRunsBackward := by
  refine ⟨fun c s u hc hptm hu => ?later, fun t m s hen hset hctx => ?first⟩
  case later =>
    obtain ⟨v, hv, hle⟩ := exec_keepsTime c s hc hptm
    obtain rfl : v = u := Host.Outcome.next.inj (hv.symm.trans hu)
    exact hle
  case first =>
    obtain ⟨u, hu, rfl⟩ := ptmDialogue_sets_time t m hen hset hctx
    exact ⟨_, hu, rfl, rfl, rfl⟩

end Sys2Proof.Machine
end

section
/-! SUPPORT. The proof of O3: a request whose checks pass is accepted (R171, R264, R296, R297, R491). -/
set_option Elab.async false
namespace Sys2Proof.Machine

/-! ## The decision on a GENERATE -/

/-- The request that a GENERATE is decided as, with what its stop block gives it (R264). -/
def decidedReq (h : Hdr) (b : GenBody) (stop : Option StopBlock) (d : Nat) (s : State) : Request :=
  { op := .generate, st := .detected, h := h, detect := d, gen := b
    stops := stop.elim [] (·.tokens)
    strings := stop.elim [] (·.strings)
    detok := if (stop.elim [] (·.strings)).isEmpty then none else (newestDetok s h.modelCtx).map (·.gen) }

section
variable {h : Hdr} {b : GenBody} {stop : Option StopBlock} {d : Nat} {s : State}

theorem decideGen_of_checks (hpass : firstOf [seqCheck s h (askGen s b) b.seq, epochCheck s h,
      failIf (stop.elim false stopBad) .malformed,
      failIf (!(stop.elim [] (·.strings)).isEmpty && (newestDetok s h.modelCtx).isNone) .resourceExhausted,
      gateCheck s h .generate, roomCheck s h (askGen s b) (decidedReq h b stop d s)] = none) :
    decideGen h b stop d s =
      readPrompt h b (takeReqState s.srv.nextReq (acceptReq h (askGen s b) (decidedReq h b stop d s) s)) := by
  unfold decideGen
  cases stop with
  | none =>
    dsimp only
    split
    case h_1 hst => exact absurd (hst.symm.trans hpass) (by simp)
    case h_2 => rfl
  | some x =>
    dsimp only
    split
    case h_1 hst => exact absurd (hst.symm.trans hpass) (by simp)
    case h_2 => rfl

/-- A stop block, where there is one, must be well formed, and its strings need a detokenisation table. -/
theorem decideGen_accepts (hseq : seqCheck s h (askGen s b) b.seq = none) (hepoch : epochCheck s h = none)
    (hstop : stop.elim false stopBad = false)
    (htable : stop.elim [] (·.strings) = [] ∨ (newestDetok s h.modelCtx).isSome = true)
    (hgate : gateCheck s h .generate = none) (hroom : roomCheck s h (askGen s b) (decidedReq h b stop d s) = none) :
    decideGen h b stop d s =
      readPrompt h b (takeReqState s.srv.nextReq (acceptReq h (askGen s b) (decidedReq h b stop d s) s)) := by
  have hstrings : (!(stop.elim [] (·.strings)).isEmpty && (newestDetok s h.modelCtx).isNone) = false := by
    rcases htable with hnil | hsome
    · simp [hnil]
    · simp [hsome]
  refine decideGen_of_checks ?_
  simp only [hseq, hepoch, hstop, hstrings, hgate, hroom, failIf_false, firstOf_cons_none, firstOf_nil]

end

/-! ## Descriptors of requests -/

section
variable {t : Nat} {h : Hdr} {s s1 : State} (hb : BeginsTwo t h s s1)
include hb

theorem execGenerate_accepts {b : GenBody} (hshape : shapeCheck s1 h (infoReq 7) (genBad s1 h b) = none)
    (hnames : requestNames s1 h = none) (hflag : bit h.flags 2 = false)
    (hseq : seqCheck s1 h (askGen s1 b) b.seq = none) (hepoch : epochCheck s1 h = none) (hgate : gateCheck s1 h .generate = none)
    (hroom : roomCheck s1 h (askGen s1 b) (decidedReq h b none s1.time s1) = none) :
    execGenerate t h b s = .next (endPoll (readPrompt h b (takeReqState s1.srv.nextReq
      (acceptReq h (askGen s1 b) (decidedReq h b none s1.time s1) s1)))) := by
  have hdecide := decideGen_accepts hseq hepoch rfl (.inl rfl) hgate hroom
  simp [execGenerate, command2_of_begins hb, hshape, hnames, hflag, hdecide]

/-- The request that waits for its stop block under the next number (R264). -/
def waitStop (h : Hdr) (b : GenBody) (s : State) : State :=
  { s with srv := { s.srv with
      reqs := mset s.srv.reqs s.srv.nextReq { op := .generate, st := .detected, h := h, detect := s.time, gen := b }
      nextReq := s.srv.nextReq + 1 } }

theorem execGenerate_waits {b : GenBody} {s2 : State} (hshape : shapeCheck s1 h (infoReq 7) (genBad s1 h b) = none)
    (hnames : requestNames s1 h = none) (hflag : bit h.flags 2 = true)
    (h2 : s2 = readHost h.ctx b.stopAddr 576 h.job h.layerTag h.opTag s1)
    (hseq : seqCheck s2 h (askGen s2 b) b.seq = none) (hepoch : epochCheck s2 h = none) :
    execGenerate t h b s = .next (endPoll (waitStop h b s2)) := by
  subst h2
  simp [execGenerate, command2_of_begins hb, hshape, hnames, hflag, hseq, hepoch, waitStop]

theorem execScore_accepts {b : ScoreBody} {a : Ask} {g : GenBody} {r : Request}
    (ha : a = { op := .score, prompt := b.promptLen, maxOut := 0, window := 0, seq := none })
    (hg : g = { promptLen := b.promptLen, promptAddr := b.promptAddr, auxAddr := b.auxAddr, auxBytes := b.auxBytes, maxOutput := 0 })
    (hr : r = { op := .score, st := .detected, h := h, detect := s1.time, gen := g, resultAddr := b.resultAddr,
                resultBytes := b.resultBytes })
    (hshape : shapeCheck s1 h (infoReq 0) (scoreBad b) = none) (hnames : requestNames s1 h = none)
    (hseq : seqCheck s1 h a 0 = none) (hepoch : epochCheck s1 h = none) (hgate : gateCheck s1 h .score = none)
    (hroom : roomCheck s1 h a r = none) :
    execScore t h b s = .next (endPoll (readPrompt h g (takeReqState s1.srv.nextReq (acceptReq h a r s1)))) := by
  subst ha hg hr
  simp [execScore, command2_of_begins hb, hshape, hnames, hseq, hepoch, hgate, hroom]

theorem execEmbedGather_accepts {b : EmbedBody} {bags : Option (List Bag)} {a : Ask} {r : Request} {idx : Nat} {e : EmbTable}
    (ha : a = { op := .embed, prompt := 0, maxOut := 0, window := 0, seq := none })
    (hr : r = { op := .embed, st := .detected, h := h, detect := s1.time, emb := b, resultAddr := b.resultAddr,
                resultBytes := b.resultBytes, bagsLeft := b.bagCount })
    (hshape : shapeCheck s1 h (infoReq 0) (embedBad b) = none) (hnames : requestNames s1 h = none)
    (hepoch : epochCheck s1 h = none) (htable : tableIdx s1 h.modelCtx b.tableId = some (idx, e))
    (hgate : gateCheck s1 h .embed = none) (hroom : roomCheck s1 h a r = none)
    (htable' : tableIdx (takeReqState s1.srv.nextReq (acceptReq h a r s1)) h.modelCtx b.tableId = some (idx, e)) :
    execEmbedGather t h b bags s = .next (endPoll (startGather s1.srv.nextReq h b idx e bags
      (takeReqState s1.srv.nextReq (acceptReq h a r s1)))) := by
  subst ha hr
  simp [execEmbedGather, command2_of_begins hb, hshape, hnames, hepoch, htable, hgate, hroom, htable']

end

/-- The stop block has been read: its request leaves the table and is decided (R264). -/
theorem execStopBlockReturn_decides {t k : Nat} {r : Request} {s : State} (hr : mget s.srv.reqs k = some r) (hst : r.st = .detected)
    (x : StopBlock) : execStopBlockReturn t k (some x) s =
      .next (decideGen r.h r.gen (some x) r.detect { tick t s with srv := { s.srv with reqs := mdel s.srv.reqs k } }) := by
  simp [execStopBlockReturn, awaitsStop, hr, hst]

/-- Settles O3, a descriptor or a stop block's return at a time. -/
theorem requestsAreAccepted : Obligations.RequestsAreAccepted := by
  refine ⟨?generate, ?waits, ?stopBlock, ?score, ?embed⟩
  case generate =>
    rintro t h b s s1 r hb hshape hnames hflag hseq hepoch hgate rfl hroom
    exact execGenerate_accepts hb hshape hnames hflag hseq hepoch hgate hroom
  case waits =>
    rintro t h b s s1 s2 hb hshape hnames hflag rfl hseq hepoch
    refine ⟨_, execGenerate_waits hb hshape hnames hflag rfl hseq hepoch, ?_, ?_, ?_⟩
    · simp [waitStop]
    · simp [waitStop]
    · simp [waitStop, readHost, emit]
  case stopBlock =>
    rintro t k r x s s1 q hr hst rfl rfl hseq hepoch hstop htable hgate hroom
    exact (execStopBlockReturn_decides hr hst x).trans
      (congrArg Host.Outcome.next (decideGen_accepts (stop := some x) hseq hepoch hstop htable hgate hroom))
  case score =>
    intro t h b s s1 a g r hb ha hg hr hshape hnames hseq hepoch hgate hroom
    exact execScore_accepts hb ha hg hr hshape hnames hseq hepoch hgate hroom
  case embed =>
    intro t h b bags s s1 a r idx e hb ha hr hshape hnames hepoch htable hgate hroom htable'
    exact execEmbedGather_accepts hb ha hr hshape hnames hepoch htable hgate hroom htable'

end Sys2Proof.Machine
end

section
/-! SUPPORT. The proof of O34: failed accesses of the host, interrupts after a time, and PTM dialogues (R278, R303 to R305). -/
set_option Elab.async false
namespace Sys2Proof.Machine

/-! ## Failed reads and writes (R278) -/

/-- Time that has passed already passes no second time. -/
theorem tick_tick_max (t : Nat) (s : State) : tick (max s.time t) (tick t s) = tick t (tick t s) := by
  simp [tick]

/-- A fetch takes of its time no more than the tick. -/
theorem fetched_after_tick (t : Nat) (h : Hdr) (s : State) : fetched (max s.time t) h (tick t s) = fetched t h (tick t s) := by
  unfold fetched
  rw [tick_tick_max]

section
variable {k : Nat} {r : Request} {s : State} (hr : mget s.srv.reqs k = some r)
include hr

theorem reqBufferFails_declines (hst : r.st = .detected) : reqBufferFails k s = declineWaiting k .malformed s := by
  simp [reqBufferFails, hr, hst]

theorem reqBufferFails_ends (hst : r.st ≠ .detected) : reqBufferFails k s = endReq false k .malformed s := by
  simp [reqBufferFails, hr, hst]

end

/-- The buffer of a command could not be read: the command, if it has been fetched, ends with MALFORMED_DESCRIPTOR. -/
theorem execHostReadError_cmdBuffer {t : Nat} {h : Hdr} {s s1 : State} (hb : Begins (max s.time t) h (tick t s) s1) :
    execHostReadError t (.cmdBuffer h) s = .next (endPoll (final (cmdOf h) .malformed 0 0 s1)) := by
  obtain ⟨s0, h0, rfl⟩ := hb
  rw [fetched_after_tick] at h0
  exact congrArg _ (command_of_begins ⟨s0, h0, rfl⟩ _)

theorem execHostWriteError_record {r : Nat} (h8 : 8 ≤ r) (h17 : r ≤ 17) (t c : Nat) (s : State) :
    execHostWriteError t (.record c r) s = .next (ringError c r (tick t s)) := by
  simp [execHostWriteError, h8, h17]

theorem execHostWriteError_reqDest {t k : Nat} {r : Request} {s : State} (hr : mget s.srv.reqs k = some r) :
    execHostWriteError t (.reqDest k) s = .next (hostRingsError r.h.ctx (reqBufferFails k (tick t s))) := by
  simp [execHostWriteError, hr]

/-! ## Interrupts and time (R303 to R305) -/

/-- Records that have stood unsignalled for the ring's COAL_TIME are signalled. -/
theorem execCoalTimer_signals {t c r : Nat} {s : State} (hc : ctxHere s c = true) (hset : (mgetD (ctxOf s c).rings r {}).coalTime ≠ 0)
    (hn : mgetD (ctxOf s c).unsignalled r 0 ≠ 0)
    (hdue : mgetD (ctxOf s c).unsignalledAt r 0 + (mgetD (ctxOf s c).rings r {}).coalTime * 1000 ≤ max s.time t) :
    execCoalTimer t c r s = .next (signalRing c r (tick t s)) := by
  have hp : (ctxOf s c).present = true := hc
  have hdue' : decide (mgetD (ctxOf s c).unsignalledAt r 0 + (mgetD (ctxOf s c).rings r {}).coalTime * 1000 ≤ (tick t s).time) = true :=
    decide_eq_true hdue
  simp only [execCoalTimer, ctxOf_tick, hp, bne_iff_ne.2 hset, bne_iff_ne.2 hn, hdue', Bool.and_self, if_true]

/-- The host interface with other books of its PTM dialogues. -/
theorem changesOnly_setPtm {s : State} (t m : Nat) {x : HostIf} (hx : x.lock = s.hi.lock) :
    changesOnly [.time, .hi] s { tick t s with time := m, hi := x } := by
  simp [changesOnly_iff, allPieces, agree, hx]

/-- After the first success a dialogue keeps SYNC while the master's time is within 1 µs (R304). -/
theorem execPtmDialogue_follows {t m : Nat} {s : State} (hen : s.hi.ptmEnable = true) (hset : s.hi.ptmSet = true) :
    execPtmDialogue t true m s = .next { tick t s with hi := { s.hi with
      ptmFails := 0, ptmSet := true, sync := decide (apart (max s.time t) m ≤ 1000) } } := by
  simp only [execPtmDialogue, tick_hi, tick_time, hen, hset, Bool.not_true, Bool.false_and, Bool.false_eq_true, if_false]
  rfl

/-- A first or second failure in a row is counted, and SYNC stands (R305). -/
theorem execPtmDialogue_fails {t m : Nat} {s : State} (hen : s.hi.ptmEnable = true) (hn : s.hi.ptmFails < 2) :
    execPtmDialogue t false m s = .next { tick t s with hi := { s.hi with ptmFails := s.hi.ptmFails + 1 } } := by
  have h3 : s.hi.ptmFails + 1 < 3 := by omega
  have hne : s.hi.ptmFails + 1 ≠ 3 := by omega
  simp [execPtmDialogue, hen, h3, hne]

/-- Settles O34, an error, a timer or a dialogue at a time. -/
theorem hostErrorsHaveTheirEffects : Obligations.HostErrorsHaveTheirEffects := by
  refine ⟨fun t c r s _ => rfl, ?declined, ?ended, fun t h s s1 hb => execHostReadError_cmdBuffer hb,
    fun t c r s h8 h17 => execHostWriteError_record h8 h17 t c s, fun t k s r hr => execHostWriteError_reqDest hr, fun t c s => rfl,
    fun t c r s hc hset hn hdue => execCoalTimer_signals hc hset hn hdue, ?first, ?follows, ?fails⟩
  case declined => exact fun t k s r hr hst => congrArg _ (reqBufferFails_declines (s := tick t s) hr hst)
  case ended => exact fun t k s r hr hst => congrArg _ (reqBufferFails_ends (s := tick t s) hr hst)
  case first =>
    intro t m s hen hset hctx
    obtain ⟨u, hu, rfl⟩ := ptmDialogue_sets_time t m hen hset hctx
    exact ⟨_, hu, rfl, rfl, rfl, changesOnly_setPtm t m rfl⟩
  case follows =>
    intro t m s hen hset
    exact ⟨_, execPtmDialogue_follows hen hset, rfl, rfl, rfl, changesOnly_setPtm t _ rfl⟩
  case fails =>
    intro t m s hen hn
    exact ⟨_, execPtmDialogue_fails hen hn, rfl, rfl, rfl, changesOnly_setPtm t _ rfl⟩

end Sys2Proof.Machine
end

section
/-! SUPPORT. The proof of O2: the steps of a poll (R287, R473, Table 12.5). -/
set_option Elab.async false
namespace Sys2Proof.Machine

/-! ## A poll goes on, or waits -/

/-- While FetchAdds are out, the blocks are not read yet. -/
theorem afterSummary_of_words {s : State} (hw : s.hi.pollWords ≠ []) : afterSummary s = s := by
  simp [afterSummary, hw]

/-- While blocks are to be read, the poll goes no further. -/
theorem endPoll_of_blocks {s : State} (hc : s.hi.pollCtxs ≠ []) : endPoll s = s := by
  simp [endPoll, hc]

theorem execPoll_starts {s : State} (hen : s.hi.dbEnable = true) (hrun : hostRuns s = true) (hidle : s.hi.polling = false) (t : Nat) :
    execPoll t s = .next (startPoll (tick t s)) := by
  simp [execPoll, hen, hrun, hidle]

/-- A period that runs out within a poll is noted. -/
theorem execPoll_late {s : State} (hen : s.hi.dbEnable = true) (hrun : hostRuns s = true) (hbusy : s.hi.polling = true) (t : Nat) :
    execPoll t s = .next { tick t s with hi := { s.hi with pollLate := true } } := by
  simp [execPoll, hen, hrun, hbusy]

/-! ## Summary lines and their FetchAdds (R286, R293) -/

/-- What is sent for each element goes out in the elements' order, newest first. -/
theorem forEach_emit {α : Type} (f : α → Output) (l : List α) (s : State) :
    forEach (fun x s => emit (f x) s) l s = { s with out := (l.map f).reverse ++ s.out } := by
  induction l generalizing s with
  | nil => rfl
  | cons x l ih => rw [forEach, ih]; simp [emit]

/-- Of a line none of whose eight words is zero, every word is set. -/
theorem zip_range_filter_of_ne_zero {ws : List Dword} (hws : ∀ w ∈ ws.take 8, w ≠ 0) :
    ((List.range 8).zip ws).filter (fun e => e.2 != 0) = (List.range 8).zip ws := by
  rw [List.filter_eq_self]
  intro e he
  obtain ⟨i, hi, rfl⟩ := List.mem_iff_getElem.1 he
  have hlen : i < 8 ∧ i < ws.length := by simpa using hi
  have hmem : ws[i] ∈ ws.take 8 := List.mem_take_iff_getElem.2 ⟨i, by omega, rfl⟩
  simpa using hws _ hmem

/-- Each word that has bits set brings a FetchAdd of its negation, and waits for it. -/
theorem execSummaryReadReturn_adds {t l : Nat} {ws : List Dword} {s : State} (hl : s.hi.pollLinks = [l]) (hw : s.hi.pollWords = [])
    (hset : ∀ w ∈ ws.take 8, w ≠ 0) (hne : ws ≠ []) :
    execSummaryReadReturn t l (some ws) s = .next { tick t s with
      out := (((List.range 8).zip ws).map (fun e => Output.fetchAdd l e.1 (0 - e.2))).reverse ++ s.out
      hi := { s.hi with pollLinks := [], pollWords := ((List.range 8).zip ws).map (fun e => (l * 8 + e.1, e.2)) } } := by
  have hwords : ((List.range 8).zip ws).map (fun e => (l * 8 + e.1, e.2)) ≠ [] := by simp [hne]
  simp only [execSummaryReadReturn, zip_range_filter_of_ne_zero hset, forEach_emit (fun e : Nat × Dword => Output.fetchAdd l e.1 (0 - e.2))]
  rw [afterSummary_of_words (by simpa [hw] using hne)]
  simp [hl, hw]

/-- A line that cannot be read brings FULL_SCAN, with at least 4 µs (R293). -/
theorem execSummaryReadReturn_fails {l : Nat} {s : State} (hl : l ∈ s.hi.pollLinks) (hw : s.hi.pollWords ≠ []) (t : Nat) :
    execSummaryReadReturn t l none s = .next (fallBack { tick t s with hi := { s.hi with
      summaryErr := true, pollLinks := s.hi.pollLinks.filter (· != l) } }) := by
  simp only [execSummaryReadReturn, summaryFails]
  rw [afterSummary_of_words (by simpa [fallBack] using hw)]
  simp [hl]

section
variable {l : Nat} {e : Nat × Dword} {ws : List (Nat × Dword)} {s : State} (hw : s.hi.pollWords = e :: ws) (he : e.1 / 8 = l)
  (hne : ws ≠ [])
include hw he hne

/-- A FetchAdd that completes gives the VFs whose bits its word had set (R286). -/
theorem execFetchaddComplete_finds (t : Nat) : execFetchaddComplete t l true s = .next { tick t s with hi := { s.hi with
    pollWords := ws, pollFound := s.hi.pollFound ++ wordVfs e.1 e.2 } } := by
  have hfind : s.hi.pollWords.find? (fun x => x.1 / 8 == l) = some e := by simp [hw, he]
  simp only [execFetchaddComplete, tick_hi, hfind, if_true]
  rw [afterSummary_of_words (by simpa [hw] using hne)]
  simp [hw]

/-- One that fails gives them too, and brings FULL_SCAN (R293). -/
theorem execFetchaddComplete_fails (t : Nat) : execFetchaddComplete t l false s = .next (fallBack { tick t s with hi := { s.hi with
    atomicErr := true, pollWords := ws, pollFound := s.hi.pollFound ++ wordVfs e.1 e.2 } }) := by
  have hfind : s.hi.pollWords.find? (fun x => x.1 / 8 == l) = some e := by simp [hw, he]
  simp only [execFetchaddComplete, tick_hi, hfind, Bool.false_eq_true, if_false]
  rw [afterSummary_of_words (by simpa [fallBack, hw] using hne)]
  simp [hw]

end

/-! ## Doorbell blocks (R285, R292) -/

/-- A TAIL within the ring's length of CONSUMED is taken. -/
theorem takeTail_of_room {c r n : Nat} {s : State} (hc : ctxHere s c = true) (ht : ringThere (ctxOf s c) r = true)
    (he : r ∉ (ctxOf s c).ringErr)
    (hroom : waitingDescs { ctxOf s c with tail := mset (ctxOf s c).tail r (n % 2 ^ 32) } r ≤ ringSize (ctxOf s c) r) :
    takeTail c r n s = modCtx c (fun x => { x with tail := mset x.tail r (n % 2 ^ 32) }) s := by
  have hself : ctxOf (modCtx c (fun x => { x with tail := mset x.tail r (n % 2 ^ 32) }) s) c =
      { ctxOf s c with tail := mset (ctxOf s c).tail r (n % 2 ^ 32) } := ctxOf_modCtx_self _ _ _ (isSome_of_ctxHere hc)
  have hok : (ctxOf s c).ringErr.contains r = false := by simpa using he
  simp only [takeTail, ht, hok, hself, Bool.not_true, Bool.or_self, Bool.false_eq_true, if_false]
  exact if_neg (not_lt.2 hroom)

/-- A block with the TAIL of ring 0 alone: what is held drains, and while other blocks are to be read the poll goes no further. -/
theorem execDoorbellBlockRead_takes {c n : Nat} {s : State} (hc : ctxHere s c = true) (hen : (ctxOf s c).enable = true)
    (t : Nat) (hdrain : drainCtx c (takeTail c 0 n (tick t s)) = takeTail c 0 n (tick t s))
    (hmore : s.hi.pollCtxs.filter (· != c) ≠ []) :
    ∃ v, v = takeTail c 0 n (tick t s) ∧
      execDoorbellBlockRead t c [n] [] s = .next { v with hi := { v.hi with pollCtxs := v.hi.pollCtxs.filter (· != c) } } := by
  refine ⟨_, rfl, ?_⟩
  have hzip : (List.range 8).zip [n] = [(0, n)] := rfl
  simp only [execDoorbellBlockRead, ctxHere_tick, ctxOf_tick, hc, hen, Bool.not_true, Bool.or_self, Bool.false_eq_true, if_false, hzip,
    forEach, List.zip_nil_right, List.getElem?_nil, hdrain]
  rw [endPoll_of_blocks (by simpa using hmore)]

/-- Settles O2, a step of Table 12.5 at a time. -/
theorem pollStepsComplete : Obligations.PollStepsComplete := by
  refine ⟨?starts, ?late, ?summary, ?summaryFails, ?found, ?foundFails, ?tails⟩
  case starts => exact fun t s hen hrun hidle => ⟨_, execPoll_starts hen hrun hidle t, rfl⟩
  case late => exact fun t s hen hrun hbusy => ⟨_, execPoll_late hen hrun hbusy t, rfl⟩
  case summary => exact fun t l ws s hl hw hset hne => ⟨_, execSummaryReadReturn_adds hl hw hset hne, rfl, rfl, rfl⟩
  case summaryFails => exact fun t l s hl hw => ⟨_, execSummaryReadReturn_fails hl hw t, rfl, rfl, rfl, by simp [fallBack]⟩
  case found => exact fun t l e ws s hw he hne => ⟨_, execFetchaddComplete_finds hw he hne t, rfl, rfl, rfl⟩
  case foundFails => exact fun t l e ws s hw he hne => ⟨_, execFetchaddComplete_fails hw he hne t, rfl, rfl, rfl, rfl, rfl⟩
  case tails =>
    rintro t c r n s hc hen ht rfl herr hroom hdrain hmore
    obtain ⟨v, rfl, hv⟩ := execDoorbellBlockRead_takes hc hen t hdrain hmore
    have htail := takeTail_of_room (s := tick t s) hc ht herr hroom
    refine ⟨_, hv, ?_, by simp⟩
    have hself := ctxOf_modCtx_self c (fun x => { x with tail := mset x.tail 0 (n % 2 ^ 32) }) (tick t s) (isSome_of_ctxHere hc)
    rw [htail]
    exact (congrArg (fun x : Ctx => mgetD x.tail 0 0) hself).trans (mgetD_mset_self _ _ _ _)

end Sys2Proof.Machine
end

section
/-! SUPPORT. The proof of O1: contexts are created, destroyed, enabled, disabled and reset (R279, R280, R443). -/
set_option Elab.async false
namespace Sys2Proof.Machine

/-! ## CTX_CREATE and CTX_DESTROY (R279) -/

/-- Entry c of the context table is x. -/
def setCtx (c : Nat) (x : Ctx) (s : State) : State := { s with ctxs := mset s.ctxs c x }

theorem ctxOf_setCtx_self (c : Nat) (x : Ctx) (s : State) : ctxOf (setCtx c x s) c = x := by simp [ctxOf, setCtx]

theorem ctxOf_setCtx_ne {c d : Nat} (h : d ≠ c) (x : Ctx) (s : State) : ctxOf (setCtx c x s) d = ctxOf s d :=
  mgetD_mset_ne _ _ _ _ _ h

section
variable {t : Nat} {h : Hdr} {vf : Nat} {s s1 : State} (hb : Begins t h s s1) (hshape : shapeCheck s1 h infoAdmin false = none)
  (hvf : vf ≤ 511)
include hb hshape hvf

/-- The context of a VF that is enabled and has none is bound to its partition; the registers of the VF keep what they hold. -/
theorem execCtxCreate_binds {p : Nat} (hp : p ≤ 63) (hinv : invasive s1 = false) (herase : erasing s1 p = false)
    (hroom : ctxCount s1 < 512) (hnew : ctxHere s1 vf = false) (hen : vfEnabled s1 vf = true) (hpart : (partOf s1 p).present = true) :
    execCtxCreate t h vf p s = .next (endPoll (final (cmdOf h) .complete 0 0
      (setCtx vf { setupOnly (ctxOf s1 vf) with present := true, part := p } (modPart p (fun x => { x with holdsData := true }) s1)))) := by
  have hnum : (decide (511 < vf) || decide (63 < p)) = false := by simp [hvf, hp]
  have hfits : (decide (512 ≤ ctxCount s1) || ctxHere s1 vf) = false := by simp [hroom, hnew]
  simp only [execCtxCreate, command_of_begins hb, hnum, hshape, hinv, herase, hfits, hen, hpart, Bool.not_true, Bool.or_self, failIf_false,
    firstOf_cons_none, firstOf_nil, ctxOf_modPart, setCtx]

/-- A context with no job, sequence, request, operation or record left is dropped. -/
theorem execCtxDestroy_drops (hc : ctxHere s1 vf = true) (hfree : ctxBusy s1 vf = false) :
    execCtxDestroy t h vf s = .next (endPoll (final (cmdOf h) .complete 0 0 (dropCtx vf s1))) := by
  have hnum : decide (511 < vf) = false := by simp [hvf]
  simp only [execCtxDestroy, command_of_begins hb, hnum, hshape, hc, hfree, Bool.not_true, failIf_false, firstOf_cons_none, firstOf_nil]

end

theorem ctxs_dropCtx (c : Nat) (s : State) : (dropCtx c s).ctxs =
    if setupOnly (ctxOf s c) = {} then mdel s.ctxs c else mset s.ctxs c (setupOnly (ctxOf s c)) := rfl

theorem ne_of_mem_leaves_dropCtx {c : Nat} {s : State} {l : Leaf} (hl : l ∈ (dropCtx c s).mem.leaves) : l.ctx ≠ c := by
  have hmem : l ∈ s.mem.leaves.filter (fun l => l.ctx != c) := hl
  simpa using (List.mem_filter.1 hmem).2

/-! ## Enabling and disabling (R280) -/

/-- With no record held back, only the room of the operations that a reset has passed is reserved anew. -/
theorem ctxOf_resumeLate {c : Nat} {s : State} (hc : ctxHere s c = true) (hlate : (ctxOf s c).late = []) :
    ∃ n, ctxOf (resumeLate c s) c = { ctxOf s c with late := [], reserved := madd (ctxOf s c).reserved 9 n } := by
  refine ⟨(s.ops.live.filter (fun o => o.2.late && o.2.cmd.ctx == c)).length, ?_⟩
  simp only [resumeLate, hlate, forEach, List.length_nil, Nat.add_zero]
  exact ctxOf_modCtx_self _ _ _ (isSome_of_ctxHere hc)

theorem ctxOf_resumeLate_ne {c d : Nat} {s : State} (hd : d ≠ c) (hlate : (ctxOf s c).late = []) :
    ctxOf (resumeLate c s) d = ctxOf s d := by
  simp only [resumeLate, hlate, forEach]
  exact ctxOf_modCtx_ne _ _ _ _ hd

theorem enableCtx_enables {c : Nat} {s : State} (hoff : (ctxOf s c).enable = false) (hok : enableOk c (ctxOf s c) = true) :
    enableCtx c s = resumeLate c (modCtx c (fun x => { x with enable := true }) s) := by
  simp [enableCtx, hoff, hok]

theorem enableCtx_refuses {c : Nat} {s : State} (hoff : (ctxOf s c).enable = false) (hbad : enableOk c (ctxOf s c) = false)
    (hc : c ≤ 511 ∨ c = adminCtx) : enableCtx c s = modSetup c (fun x => { x with cfgErr := true }) s := by
  simp [enableCtx, hoff, hbad, hc]

theorem ctxHere_of_enableOk {c : Nat} {s : State} (hok : enableOk c (ctxOf s c) = true) : ctxHere s c = true := by
  unfold enableOk at hok
  simp only [Bool.and_eq_true] at hok
  exact hok.1.1.1.1

/-! ## Resetting (R443) -/

/-- The context is no longer enabled, and what its setup page held is dropped (R6). -/
def beginReset (c : Nat) (s : State) : State := dropHeld c (modCtx c (fun x => { x with enable := false, resetBusy := true }) s)

theorem resetCtx_runs {c : Nat} {s : State} (hc : ctxHere s c = true) (hbusy : (ctxOf s c).resetBusy = false) :
    resetCtx c s = settleReset c (lateOps c (abortReqs c (beginReset c s))) := by
  simp [resetCtx, hc, hbusy, beginReset]

/-- A context without requests has none to abort. -/
theorem abortReqs_of_none {c : Nat} {s : State} (hr : reqKeys s (fun r => r.st != .detected && r.h.ctx == c) = []) :
    abortReqs c s = s := by
  simp [abortReqs, hr, forEach]

/-- A context without long operations owes no record later. -/
theorem ctxs_lateOps_of_none {c : Nat} {s : State} (ho : ∀ e ∈ s.ops.live, e.2.cmd.ctx ≠ c) : (lateOps c s).ctxs = s.ctxs := by
  have hnone : s.ops.live.filter (fun o => o.2.cmd.ctx == c && !o.2.late) = [] := by
    refine List.filter_eq_nil_iff.2 fun e he => ?_
    simp [ho e he]
  simp [lateOps, hnone]

/-- A reset of a context with nothing to abort changes the table of contexts at its entry alone. -/
theorem ctxs_beginReset_of_none {c : Nat} {s : State} (hr : reqKeys s (fun r => r.st != .detected && r.h.ctx == c) = [])
    (ho : ∀ e ∈ s.ops.live, e.2.cmd.ctx ≠ c) : (lateOps c (abortReqs c (beginReset c s))).ctxs =
      mmod s.ctxs c (fun x => { x with enable := false, resetBusy := true }) := by
  have hr' : reqKeys (beginReset c s) (fun r => r.st != .detected && r.h.ctx == c) = [] := hr
  rw [abortReqs_of_none hr', ctxs_lateOps_of_none (s := beginReset c s) ho]
  rfl

/-- A reset that waits for records still owed leaves the rings, one that does not clears them. -/
theorem ctxOf_settleReset {c : Nat} {s : State} {x : Ctx} (hc : (mget s.ctxs c).isSome = true)
    (hx : ctxOf s c = { x with enable := false, resetBusy := true }) (hbusy : x.resetBusy = false) :
    ctxOf (settleReset c s) c =
      if quiesced x then { clearRings x with enable := false } else { x with enable := false, resetBusy := true } := by
  have hq : quiesced { x with enable := false, resetBusy := true } = quiesced x := rfl
  rw [settleReset, ctxOf_modCtx_self _ _ _ hc, hx]
  simp only [hq, Bool.true_and]
  split
  case isTrue => simp [clearRings, hbusy]
  case isFalse => rfl

/-- Settles O1, a command or register access at a time. -/
theorem contextCommandsComplete : Obligations.ContextCommandsComplete := by
  refine ⟨?create, ?destroy, ?enable, ?refused, ?disable, ?reset, ?resetRuns⟩
  case create =>
    intro t h vf p s s1 hb hshape hvf hp hinv herase hroom hnew hen hpart
    refine ⟨_, execCtxCreate_binds hb hshape hvf hp hinv herase hroom hnew hen hpart, ?_, ?_, ?_, fun c hc => ctxOf_setCtx_ne hc _ _, rfl⟩
    · simp only [ctxHere, ctxOf_setCtx_self]
    · simp only [ctxPart, ctxOf_setCtx_self]
    · simp only [ctxOf_setCtx_self, setupOnly]
  case destroy =>
    intro t h vf s s1 hb hshape hvf hc hfree
    exact ⟨_, execCtxDestroy_drops hb hshape hvf hc hfree, ctxs_dropCtx vf s1, fun l hl => ne_of_mem_leaves_dropCtx hl⟩
  case enable =>
    intro t c s hoff hok hlate
    have hc := ctxHere_of_enableOk hok
    have hself : ctxOf (modCtx c (fun x => { x with enable := true }) (tick t s)) c = { ctxOf s c with enable := true } :=
      ctxOf_modCtx_self _ _ _ (isSome_of_ctxHere hc)
    have hlate' : (ctxOf (modCtx c (fun x => { x with enable := true }) (tick t s)) c).late = [] := by rw [hself]; exact hlate
    have hc' : ctxHere (modCtx c (fun x => { x with enable := true }) (tick t s)) c = true := by rw [ctxHere, hself]; exact hc
    obtain ⟨n, hn⟩ := ctxOf_resumeLate hc' hlate'
    refine ⟨_, congrArg Host.Outcome.next (enableCtx_enables (s := tick t s) hoff hok), ?_, ?_, fun d hd => ?_, by simp⟩
    · rw [hn, hself]
    · rw [hn, hself]
    · rw [ctxOf_resumeLate_ne hd hlate', ctxOf_modCtx_ne _ _ _ _ hd, ctxOf_tick]
  case refused =>
    intro t c s hoff hbad hc
    refine ⟨_, congrArg Host.Outcome.next (enableCtx_refuses (s := tick t s) hoff hbad hc), ?_, ?_⟩
    · rw [ctxOf_modSetup_self]; exact hoff
    · rw [ctxOf_modSetup_self]
  case disable =>
    exact fun t c s hc => ⟨_, rfl, ctxOf_modCtx_self c _ (tick t s) (isSome_of_ctxHere hc), fun d hd => ctxOf_modCtx_ne c d _ (tick t s) hd⟩
  case reset =>
    intro t c s hc hbusy hr ho
    have hctxs := ctxs_beginReset_of_none (s := tick t s) hr ho
    have hentry : ∀ d, ctxOf (lateOps c (abortReqs c (beginReset c (tick t s)))) d =
        ctxOf (modCtx c (fun x => { x with enable := false, resetBusy := true }) s) d := fun d => by rw [ctxOf, hctxs]; rfl
    have hthere : (mget (lateOps c (abortReqs c (beginReset c (tick t s)))).ctxs c).isSome = true := by
      simpa [hctxs] using isSome_of_ctxHere hc
    have hself := (hentry c).trans (ctxOf_modCtx_self c _ s (isSome_of_ctxHere hc))
    refine ⟨_, congrArg Host.Outcome.next (resetCtx_runs (s := tick t s) hc hbusy), ctxOf_settleReset hthere hself hbusy, fun d hd => ?_⟩
    rw [settleReset, ctxOf_modCtx_ne _ _ _ _ hd, hentry, ctxOf_modCtx_ne _ _ _ _ hd]
  case resetRuns => exact fun t c s hc hbusy => congrArg Host.Outcome.next (resetCtx_runs (s := tick t s) hc hbusy)

end Sys2Proof.Machine
end

section
/-! SUPPORT. The proof of O10: jobs are admitted, claim shares of other chips, and end (R308 to R310, Tables 13.1, 13.2). -/
-- Elaborated in order: the stacks of parallel threads would count toward the limit on memory.
set_option Elab.async false
namespace Sys2Proof.Machine

/-! ## Admission (R308) -/

/-- JOB_ADMIT that passes the checks before and after its buffers are read begins the admission at a free index. -/
theorem execJobAdmit_begins {t : Nat} {h : Hdr} {addr size kvAddr i : Nat} {resv : Option Reservation} {kv : Option KvGeom}
    {s s1 s2 : State} (hb : Begins t h s s1) (hpre : admitPre s1 h = none) (h2 : s2 = readAdmit h addr size resv kvAddr s1)
    (hcheck : admitCheck s2 h size kvAddr resv kv = none) (hfree : freeJob s2 = some i) :
    execJobAdmit t h addr size resv kvAddr kv s =
      .next (endPoll (startAdmit h (resv.getD {}) (if kvAddr = 0 then none else kv) i s2)) := by
  subst h2
  simp only [execJobAdmit, command_of_begins hb, hpre, hcheck, hfree]

/-! ## Claims at the serving job (R309) -/

/-- The serving job notes n of its share as claimed by chip src. -/
def noteClaim (src n i : Nat) (s : State) : State := modJob i (fun j => { j with claimed := j.claimed ++ [(src, n)] }) s

section
variable {t mc n i : Nat} {s : State} (hi : servingJob s mc = some i)
include hi

theorem execClaim_grants (hn : n ≤ unclaimed (jobAt s i)) (src : Nat) :
    execClaim t src mc n s = .next (sendXn src 0 false (.claimAnswer true) (noteClaim src n i (tick t s))) := by
  simp only [execClaim, servingJob_tick, hi, jobAt_tick, if_pos hn, noteClaim]

theorem execClaim_refuses (hn : unclaimed (jobAt s i) < n) (src : Nat) :
    execClaim t src mc n s = .next (sendXn src 0 false (.claimAnswer false) (tick t s)) := by
  simp only [execClaim, servingJob_tick, hi, jobAt_tick, if_neg (Nat.not_le.2 hn)]

theorem execClaimRelease_returns (src : Nat) : execClaimRelease t src mc n s =
    .next (modJob i (fun j => { j with claimed := j.claimed.erase (src, n) }) (tick t s)) := by
  simp only [execClaimRelease, servingJob_tick, hi]

end

/-! ## The answers to a job that waits for its claims (R309) -/

/-- Chip src has answered job i. -/
def noteAnswer (src i : Nat) (s : State) : State := modJob i (fun j => { j with asked := j.asked.erase src }) s

/-- Chip src has granted job i its claim. -/
def noteGrant (src i : Nat) (s : State) : State :=
  modJob i (fun j => { j with asked := j.asked.erase src, granted := grantFirst src (j.resv.remotes.zip j.granted) }) s

theorem jobAt_of_mget {s : State} {i : Nat} {j : Job} (hj : mget s.srv.jobs i = some j) : jobAt s i = j := by
  rw [jobAt, mgetD, hj, Option.getD_some]

section
variable {t id : Nat} {s : State} {j : Job} (hj : mget s.srv.jobs (jobIdx id) = some j) (hpending : j.pendingAdmit = true)
  (hid : j.id = id)
include hj hpending hid

/-- The grant that no other chip's answer is awaited after admits the job. -/
theorem execClaimAnswer_admits {src : Nat} (hasked : j.asked = [src]) : execClaimAnswer t src id true s =
    .next (finishAdmit (jobIdx id) (noteGrant src (jobIdx id) (tick t s))) := by
  have hsome : (mget (tick t s).srv.jobs (jobIdx id)).isSome = true := by rw [tick_srv, hj, Option.isSome_some]
  have hlast : (jobAt (noteGrant src (jobIdx id) (tick t s)) (jobIdx id)).asked.isEmpty = true := by
    rw [noteGrant, jobAt_modJob_self _ _ _ hsome, jobAt_tick, jobAt_of_mget hj]
    simp [hasked]
  rw [noteGrant] at hlast ⊢
  simp [execClaimAnswer, jobAt_of_mget hj, hpending, hid, hasked, hlast]

theorem execClaimAnswer_fails {src : Nat} (hasked : src ∈ j.asked) : execClaimAnswer t src id false s =
    .next (failAdmit (jobIdx id) .resourceExhausted (noteAnswer src (jobIdx id) (tick t s))) := by
  simp [execClaimAnswer, jobAt_of_mget hj, hpending, hid, hasked, noteAnswer]

/-- A job whose claims are not all answered within 5 ms is refused. -/
theorem execClaimTimeout_fails (hdue : j.askTime + 5000000 ≤ max s.time t) : execClaimTimeout t id s =
    .next (failAdmit (jobIdx id) .resourceExhausted (tick t s)) := by
  have hdue' : j.askTime + 5000000 ≤ (tick t s).time := hdue
  simp only [execClaimTimeout, jobAt_tick, jobAt_of_mget hj, hpending, hid, beq_self_eq_true, decide_eq_true hdue', Bool.and_self, if_true]

end

/-! ## The two ends of a job (R310) -/

/-- Command c waits for the teardown of job i. -/
def noteTeardown (i : Nat) (c : Cmd) (s : State) : State := modJob i (fun j => { j with teardowns := j.teardowns ++ [c] }) s

theorem torn_noteTeardown (i : Nat) (c : Cmd) (s : State) : (jobAt (noteTeardown i c s) i).torn = (jobAt s i).torn := by
  unfold noteTeardown
  cases hj : mget s.srv.jobs i with
  | none => simp [jobAt, modJob, mgetD, hj]
  | some j => rw [jobAt_modJob_self i _ s (by rw [hj, Option.isSome_some])]

/-- The command that finds no teardown under way begins one. -/
theorem teardownBy_begins {i : Nat} {c : Cmd} {s : State} (htorn : (jobAt s i).torn = false) :
    teardownBy i c s = teardownJob false i .jobTornDown (noteTeardown i c s) := by
  have htorn' : (jobAt (noteTeardown i c s) i).torn = false := (torn_noteTeardown i c s).trans htorn
  rw [noteTeardown] at htorn' ⊢
  simp only [teardownBy, htorn', Bool.false_eq_true, if_false]

/-- Job i takes no more work, and command c waits for its end. -/
def noteEnd (i : Nat) (c : Cmd) (s : State) : State := modJob i (fun j => { j with draining := true, ends := j.ends ++ [c] }) s

section
variable {t : Nat} {h : Hdr} {s s1 : State} (hb : Begins t h s s1)
include hb

section
variable (hshape : shapeCheck s1 h { rings := [2], job := true } false = none) (hjob : jobCheck s1 h = none)
include hshape hjob

theorem execJobEnd_drains (hfrozen : (jobAt s1 (jobIdx h.job)).frozen = false) : execJobEnd t h s =
    .next (endPoll (settleJob false (jobIdx h.job) (drainJob (jobIdx h.job) (noteEnd (jobIdx h.job) (cmdOf h) s1)))) := by
  simp only [execJobEnd, command_of_begins hb, hshape, hjob, firstOf_cons_none, firstOf_nil, hfrozen, Bool.false_eq_true, if_false, noteEnd]

/-- The plates of a frozen job cannot drain: JOB_END tears it down. -/
theorem execJobEnd_tears_down (hfrozen : (jobAt s1 (jobIdx h.job)).frozen = true) (htorn : (jobAt s1 (jobIdx h.job)).torn = false) :
    execJobEnd t h s = .next (endPoll (teardownJob false (jobIdx h.job) .jobTornDown (noteTeardown (jobIdx h.job) (cmdOf h) s1))) := by
  simp only [execJobEnd, command_of_begins hb, hshape, hjob, firstOf_cons_none, firstOf_nil, hfrozen, if_true, teardownBy_begins htorn]

end

theorem execJobTeardown_tears_down (hshape : shapeCheck s1 h { rings := [2], admin := true, job := true } false = none)
    (hlive : jobLive s1 h.job = true) (htorn : (jobAt s1 (jobIdx h.job)).torn = false) : execJobTeardown t h s =
    .next (endPoll (teardownJob false (jobIdx h.job) .jobTornDown (noteTeardown (jobIdx h.job) (cmdOf h) s1))) := by
  simp only [execJobTeardown, command_of_begins hb, hshape, hlive, Bool.not_true, failIf_false, firstOf_cons_none, firstOf_nil,
    teardownBy_begins htorn]

end

/-- Settles O10, a command or a message of Table 13.2 at a time. -/
theorem jobsAreAdmittedAndEnd : Obligations.JobsAreAdmittedAndEnd := by
  refine ⟨?begun, ?granted, ?refused, ?admitted, ?failed, ?timeout, ?released, ?drained, ?frozenEnd, ?teardown⟩
  case begun =>
    exact fun t h ra rs resv ka kv s s1 s2 i hb hpre h2 hcheck hfree => execJobAdmit_begins hb hpre h2 hcheck hfree
  case granted => exact fun t src mc n s i hi hn => ⟨_, execClaim_grants hi hn src, rfl⟩
  case refused => exact fun t src mc n s i hi hn => execClaim_refuses hi hn src
  case admitted => exact fun t src id s j hj hpending hid hasked => execClaimAnswer_admits hj hpending hid hasked
  case failed => exact fun t src id s j hj hpending hid hasked => execClaimAnswer_fails hj hpending hid hasked
  case timeout => exact fun t id s j hj hpending hid hdue => execClaimTimeout_fails hj hpending hid hdue
  case released =>
    intro t src mc n s i j hi hj
    refine ⟨_, execClaimRelease_returns hi src, ?_, fun k hk => mget_mmod_ne _ _ _ _ hk,
      changesOnly_of_tick (by decide) ((changesOnly_modJob _ _ _).mono (by decide))⟩
    exact (mget_mmod_self s.srv.jobs i _).trans (by rw [hj, Option.map_some])
  case drained => exact fun t h s s1 hb hshape hjob hfrozen => execJobEnd_drains hb hshape hjob hfrozen
  case frozenEnd => exact fun t h s s1 hb hshape hjob hfrozen htorn => execJobEnd_tears_down hb hshape hjob hfrozen htorn
  case teardown => exact fun t h s s1 hb hshape hlive htorn => execJobTeardown_tears_down hb hshape hlive htorn

end Sys2Proof.Machine
end

section
/-! SUPPORT. The proof of O14: long operations are suspended, resumed, cancelled and queried, and come to their quiesce points
(R327, R328, R418, Table 13.5). -/
set_option Elab.async false
namespace Sys2Proof.Machine

/-! ## The control commands (R327) -/

section
variable {t : Nat} {h : Hdr} {n : Nat} {s s1 : State} {o : LongOp} (hb : Begins t h s s1)
  (hcheck : opCheckNames s1 h n = none) (hn : opNamed s1 n = some o)
include hb hcheck hn

/-- A control command whose checks pass acts on the operation that it names, and completes. -/
theorem controlOp_acts {refuse : State → LongOp → Bool} (hpass : refuse s1 o = false) (f : Nat → State → State) :
    controlOp t h n refuse f s = endPoll (final (cmdOf h) .complete 0 0 (f (n % 2 ^ 54) s1)) := by
  simp only [controlOp, command_of_begins hb, hcheck, hn, Option.elim_some, hpass, failIf_false, firstOf_cons_none, firstOf_nil]

theorem execOpQuery_answers : execOpQuery t h n s = .next (endPoll (final (cmdOf h) .complete o.code o.progress s1)) := by
  simp only [execOpQuery, command_of_begins hb, hcheck, hn]

end

/-- The operation that an ID names is live under the ID's count (R298). -/
theorem mget_of_opNamed {s : State} {n : Nat} {o : LongOp} (hn : opNamed s n = some o) : mget s.ops.live (n % 2 ^ 54) = some o := by
  unfold opNamed at hn
  split at hn
  case h_1 q hq =>
    split at hn
    case isTrue => rw [hq, hn]
    case isFalse => exact absurd hn (by simp)
  case h_2 => exact absurd hn (by simp)

theorem mget_modOp_self {s : State} {n : Nat} {o : LongOp} (ho : mget s.ops.live n = some o) (f : LongOp → LongOp) :
    mget (modOp n f s).ops.live n = some (f o) :=
  (mget_mmod_self s.ops.live n f).trans (by rw [ho, Option.map_some])

theorem mget_modOp_ne {n k : Nat} (hk : k ≠ n) (f : LongOp → LongOp) (s : State) :
    mget (modOp n f s).ops.live k = mget s.ops.live k :=
  mget_mmod_ne s.ops.live n k f hk

/-! ## The quiesce points (R327, R328) -/

section
variable {t op : Nat} {s : State} {o : LongOp} (ho : mget s.ops.live op = some o) (hheld : opHeld (tick t s) o = false)
include ho hheld

/-- An erase whose partition is unused goes on to zero it. -/
theorem execQuiesceMet_erases {x : Nat} (hk : o.kind = .secureErase x) (hcode : o.code = 0x70) (hunused : partUnused s x = true) :
    execQuiesceMet t op s = .next (modOp op (fun o => { o with code := 0x71, waiting := false }) (tick t s)) := by
  have hunused' : partUnused (tick t s) x = true := hunused
  simp only [execQuiesceMet, tick_ops, ho, hheld, hk, hcode, hunused', Bool.false_eq_true, if_false, if_true]

/-- A full self-test runs once no job is resident or being admitted, which ends IDLE. -/
theorem execQuiesceMet_tests (hcode : o.code = 0x41) (hidle : s.srv.jobs.any (fun j => j.2.present || j.2.pendingAdmit) = false) :
    execQuiesceMet t op s = .next (leaveIdle (modOp op (fun o => { o with code := 0x42, waiting := false }) (tick t s))) := by
  have h70 : ¬ (0x41 : Nat) = 0x70 := by decide
  simp only [execQuiesceMet, tick_ops, tick_srv, ho, hheld, hcode, hidle, Bool.false_eq_true, if_neg h70, if_false, if_true]

end

/-- Settles O14, a command or a quiesce point at a time. -/
theorem longOperationsAreControlled : Obligations.LongOperationsAreControlled := by
  refine ⟨?suspend, ?resume, ?cancel, ?query, ?erase, ?test⟩
  case suspend =>
    intro t h n s s1 o hb hcheck hn hmay
    exact ⟨_, congrArg Host.Outcome.next (controlOp_acts hb hcheck hn (by rw [hmay, Bool.not_true]) _),
      mget_modOp_self (mget_of_opNamed hn) _, fun k hk => mget_modOp_ne hk _ s1, changesOnly_modOp _ _ _⟩
  case resume =>
    exact fun t h n s s1 o hb hcheck hn => ⟨_, congrArg Host.Outcome.next (controlOp_acts hb hcheck hn rfl _), rfl⟩
  case cancel =>
    intro t h n s s1 o hb hcheck hn hmay
    exact ⟨_, congrArg Host.Outcome.next (controlOp_acts hb hcheck hn (by rw [hmay, Bool.not_true]) _), rfl⟩
  case query => exact fun t h n s s1 o hb hcheck hn => ⟨_, execOpQuery_answers hb hcheck hn, rfl⟩
  case erase =>
    intro t op s o x ho hk hcode hheld hunused
    exact ⟨_, execQuiesceMet_erases ho hheld hk hcode hunused, mget_modOp_self ho _,
      changesOnly_of_tick (by decide) ((changesOnly_modOp _ _ _).mono (by decide))⟩
  case test => exact fun t op s o ho hcode hheld hidle => execQuiesceMet_tests ho hheld hcode hidle

end Sys2Proof.Machine
end

section
/-! SUPPORT. The proof of O15: self-tests, scrubs, firmware stages and erases begin and complete (R210, R328, R329, R404, R418,
Table 13.5). -/
set_option Elab.async false
namespace Sys2Proof.Machine

/-! ## Operations begin (R298) -/

/-- The operation that begins takes the next count. -/
theorem next_beginOp (h : Hdr) (k : OpKind) (code : Nat) (s : State) : (beginOp h k code s).ops.next = s.ops.next + 1 := by
  simp [beginOp]

section
variable {t : Nat} {h : Hdr} {s s1 : State} (hb : BeginsTwo t h s s1) (hshape : shapeCheck s1 h infoAdmin false = none)
  (hpower : s1.pw.pending = false)
include hb hshape hpower

section
variable {scope : Nat} (hscope : scope ≤ 1)
include hscope

/-- A full self-test waits until no job is resident (R328). -/
theorem execSelfTest_waits : execSelfTest t h scope 1 s =
    .next (endPoll (modOp s1.ops.next (fun o => { o with waiting := true }) (beginOp h (.selfTest scope true) 0x41 s1))) := by
  simp [execSelfTest, command2_of_begins hb, hshape, powerCheck, hpower, Nat.not_lt.2 hscope, next_beginOp]

/-- An online self-test takes its first islands at once, which ends IDLE (R328). -/
theorem execSelfTest_runs {s2 : State} (h2 : s2 = beginOp h (.selfTest scope false) 0x40 s1) :
    execSelfTest t h scope 0 s = .next (endPoll (leaveIdle (takeTest (s2.ops.next - 1) s2))) := by
  subst h2
  simp [execSelfTest, command2_of_begins hb, hshape, powerCheck, hpower, Nat.not_lt.2 hscope]

end

/-- What SCRUB_PASS may name: a partition there is, or one of two codes for more than one. -/
theorem execScrubPass_begins {p : Nat} (hp : (p ≤ 63 ∧ (partOf s1 p).present = true) ∨ p = 0xFE ∨ p = 0xFF) :
    execScrubPass t h p s = .next (endPoll (beginOp h (.scrub p) 0x50 s1)) := by
  have hbody : (decide (63 < p) && p != 0xFE && p != 0xFF) = false := by
    rcases hp with ⟨hle, _⟩ | rfl | rfl
    · rw [decide_eq_false (Nat.not_lt.2 hle), Bool.false_and, Bool.false_and]
    · rfl
    · rfl
  have hthere : (p != 0xFF && p != 0xFE && !(partOf s1 p).present) = false := by
    rcases hp with ⟨_, hpres⟩ | rfl | rfl
    · rw [hpres, Bool.not_true, Bool.and_false]
    · rfl
    · rfl
  simp only [execScrubPass, command2_of_begins hb, hbody, hshape, hthere, powerCheck, hpower, failIf_false, firstOf_cons_none, firstOf_nil]

/-- An image that VERIFY does not refuse is being written, to the slot that firmware does not run from (R404). -/
theorem execFwStage_writes {addr size slot : Nat} {x : FwImage} {s2 : State} (hslot : slot ≤ 1) (hother : slot ≠ s1.id.fwSlot)
    (h2 : s2 = readHost h.ctx addr size 0 h.layerTag h.opTag (beginOp h (.fwStage slot size x.svn x.minSvn x.build x.digest) 0x60 s1))
    (hverify : fwCheck s2 size (some x) = none) :
    execFwStage t h addr size slot (some x) s = .next (endPoll (modOp (s2.ops.next - 1) (fun o => { o with code := 0x62, progress := size })
      (modFlash slot (fun f => { f with valid := false }) s2))) := by
  subst h2
  simp only [execFwStage, command2_of_begins hb, decide_eq_false (Nat.not_lt.2 hslot), hshape, powerCheck, hpower,
    beq_false_of_ne hother, failIf_false, firstOf_cons_none, firstOf_nil, Option.getD_some, hverify]

/-- An erase waits until the partition is unused (R327). -/
theorem execSecureErase_waits {p : Nat} (hp : p ≤ 63) (hpres : (partOf s1 p).present = true) :
    execSecureErase t h p s =
      .next (endPoll (modOp s1.ops.next (fun o => { o with waiting := true }) (beginOp h (.secureErase p) 0x70 s1))) := by
  simp only [execSecureErase, command2_of_begins hb, decide_eq_false (Nat.not_lt.2 hp), hshape, hpres, Bool.not_true, powerCheck, hpower,
    failIf_false, firstOf_cons_none, firstOf_nil]

end

/-! ## Operations complete (R298) -/

section
variable {t op : Nat} {s : State} {o : LongOp} (ho : mget s.ops.live op = some o) (hheld : opHeld (tick t s) o = false)
include ho hheld

/-- A test that does not wait for its start ends with the units that failed handled, and counted (R329). -/
theorem execSelfTestDone_completes {scope : Nat} {full : Bool} (hk : o.kind = .selfTest scope full) (hcode : o.code ≠ 0x41)
    (units : List FailedUnit) (tested : Nat) : execSelfTestDone t op units tested s =
      .next (endOp op .complete (sat 16 units.length + 65536 * sat 16 tested) (forEach failUnit units (tick t s))) := by
  simp only [execSelfTestDone, tick_ops, ho, hk, hcode, hheld, decide_false, Bool.or_self, Bool.false_eq_true, if_false]

theorem execScrubPassDone_completes {p : Nat} (hk : o.kind = .scrub p) :
    execScrubPassDone t op s = .next (endOp op .complete 0 (tick t s)) := by
  simp only [execScrubPassDone, tick_ops, ho, hk, hheld, Bool.false_eq_true, if_false]

/-- The slot holds the staged image, which the next boot may take (R404). -/
theorem execFwStageDone_completes {slot size svn minSvn build : Nat} {digest : Digest}
    (hk : o.kind = .fwStage slot size svn minSvn build digest) : execFwStageDone t op s =
      .next (endOp op .complete 0 (modFlash slot (fun _ =>
        { valid := true, svn := svn, minSvn := minSvn, build := build, digest := digest, bootOk := true }) (tick t s))) := by
  simp only [execFwStageDone, tick_ops, ho, hk, hheld, Bool.false_eq_true, if_false]

theorem execSecureEraseDone_completes {p : Nat} (hk : o.kind = .secureErase p) (hcode : o.code = 0x71) :
    execSecureEraseDone t op s = .next (endOp op .complete 0 (coffer 0 0 .erased p 0 0 0 (erasePart p (tick t s)))) := by
  simp only [execSecureEraseDone, tick_ops, ho, hk, hcode, hheld, bne_self_eq_false, Bool.or_self, Bool.false_eq_true, if_false]

end

/-- Settles O15, operation by operation. -/
theorem longOperationsRun : Obligations.LongOperationsRun := by
  refine ⟨?waits, ?runs, ?tested, ?scrub, ?scrubbed, ?stage, ?staged, ?erase, ?erased⟩
  case waits => exact fun t h sc s s1 hb hshape hsc hpower => execSelfTest_waits hb hshape hpower hsc
  case runs => exact fun t h sc s s1 s2 hb hshape hsc hpower h2 => execSelfTest_runs hb hshape hpower hsc h2
  case tested => exact fun t op us n s o sc f ho hk hcode hheld => execSelfTestDone_completes ho hheld hk hcode us n
  case scrub => exact fun t h p s s1 hb hshape hp hpower => execScrubPass_begins hb hshape hpower hp
  case scrubbed => exact fun t op s o p ho hk hheld => execScrubPassDone_completes ho hheld hk
  case stage =>
    exact fun t h addr size slot x s s1 s2 hb hshape hslot hpower hother h2 hverify =>
      execFwStage_writes hb hshape hpower hslot hother h2 hverify
  case staged => exact fun t op s o slot size svn ms bd dg ho hk hheld => execFwStageDone_completes ho hheld hk
  case erase => exact fun t h p s s1 hb hshape hp hpres hpower => execSecureErase_waits hb hshape hpower hp hpres
  case erased => exact fun t op s o p ho hk hcode hheld => execSecureEraseDone_completes ho hheld hk hcode

end Sys2Proof.Machine
end

section
/-! SUPPORT. The proof of O26: the thermal model, hot sensors and trips, the board's supplies, and the background reservation
(R330, R394 to R396, R481, R482). -/
set_option Elab.async false
namespace Sys2Proof.Machine

/-! ## A sensor at 105 °C (R396) -/

/-- The islands of field n run at half their clocks. -/
def halveField (n : Nat) (s : State) : State :=
  forEach (fun n s => modIsl n (fun x => { x with halved := true }) s) (allIslands.filter (fun m => fieldOf m == n)) s

theorem pw_halveField (n : Nat) (s : State) : (halveField n s).pw = s.pw := by simp [halveField]

/-- The thermal emergency begins; that of the cap stands as it was. -/
theorem execSensor105_halves {n : Nat} (hn : n < 4) (t : Nat) (s : State) : execSensor105 t n s =
    .next (setEmergency s.pw.capEmergency true (coffer 8 3 .sensor105 n 0 0 0 (modField n (fun x => { x with belowF := true })
      (halveField n (tick t s))))) := by
  have hpw : (coffer 8 3 .sensor105 n 0 0 0 (modField n (fun x => { x with belowF := true }) (halveField n (tick t s)))).pw = s.pw := by
    simp [pw_halveField]
  rw [← hpw]
  simp only [execSensor105, if_neg (Nat.not_le.2 hn), halveField]

/-! ## A trip, and its release (R396, R482) -/

/-- What a trip does to the power state: every clock stops, and nothing is ready. -/
def tripped (p : Power) : Power :=
  { p with thermtrip := true, tripLatch := true, clocksStopped := true, regPg := false, oscRdy := false, memRdy := false, logicRdy := false }

theorem frozen_freezeCoffer (cause : Nat) (s : State) : (freezeCoffer cause s).cof.frozen = true := by
  unfold freezeCoffer
  cases hf : s.cof.frozen with
  | false => rfl
  | true =>
    rw [Bool.not_true, if_neg Bool.false_ne_true]
    split
    case isTrue => exact hf
    case isFalse => exact hf

/-- A change of the power part that keeps the power state changes that part alone. -/
theorem changesOnly.setPw {l : List Piece} {p : Power} {s u : State} (h : changesOnly l s u) (hp : p.st = u.pw.st)
    (hl : .pw ∈ l := by simp) : changesOnly l s { u with pw := p } := by
  refine h.trans (l' := [.pw]) ?_ (by simpa using hl)
  intro q hq
  cases q with
  | pw => simp at hq
  | pst => exact hp
  | _ => rfl

/-- The Coffer records the trip and freezes (Table 18.9). -/
def tripCoffer (s : State) : State := freezeCoffer 4 (coffer 8 4 .thermtrip 0 0 0 0 s)

theorem execThermtrip_trips {s : State} (htrip : s.pw.thermtrip = false) (haon : s.pw.aonUp = true) (hst : s.pw.st ≠ .off) (t : Nat) :
    execThermtrip t s = .next { tripCoffer (tick t s) with pw := tripped s.pw } := by
  simp [execThermtrip, tripCoffer, tripped, htrip, haon, hst]

theorem changesOnly_tripCoffer (t : Nat) (s : State) : changesOnly [.time, .pw, .cof] s (tripCoffer (tick t s)) :=
  ((changesOnly_tick.mono (by decide)).coffer).trans (changesOnly_freezeCoffer _ _)

/-- The trip's latch is released, and no cold reset waits for it any more. -/
def releaseTrip (s : State) : State := { s with pw := { s.pw with tripLatch := false, coldWaits := false } }

/-- A cold reset that waited for the release runs (R482). -/
theorem execThermtripRelease_eq {s : State} (hlatch : s.pw.tripLatch = true) (t : Nat) : execThermtripRelease t s =
    .next (if s.pw.coldWaits then coldBoot false (strapsOf s.id) (releaseTrip (tick t s)) else releaseTrip (tick t s)) := by
  simp [execThermtripRelease, hlatch, releaseTrip]

/-- What a sequence fault does to the power state: the device is held in reset, and nothing is ready (R481). -/
def heldInReset (p : Power) : Power :=
  { p with resetHeld := true, faultN := true, regPg := false, oscRdy := false, memRdy := false, logicRdy := false, aonUp := true }

/-- A sequence fault is recorded in the Coffer. -/
theorem execSequenceFault_eq (t r : Nat) (s : State) :
    execSequenceFault t r s = .next (coffer 2 4 .sequenceFault r 0 0 0 { tick t s with pw := heldInReset s.pw }) := rfl

/-! ## The background reservation (R330) -/

section
variable {v : Word} {s : State}

/-- With no job resident, every share from 10 to 100 is taken, from the next window on. -/
theorem writeSchedCtrl_takes (hlo : 10 ≤ v.toNat % 128) (hhi : v.toNat % 128 ≤ 100) (hjob : jobResident s = false) :
    writeSchedCtrl v s = { s with fab := { s.fab with bgNext := v.toNat % 128 } } := by
  simp [writeSchedCtrl, hlo, hhi, hjob]

theorem writeSchedCtrl_refuses (hout : v.toNat % 128 < 10 ∨ 100 < v.toNat % 128) :
    writeSchedCtrl v s = { s with fab := { s.fab with schedCfgErr := true } } := by
  have hno : ¬ (10 ≤ v.toNat % 128 ∧ v.toNat % 128 ≤ 100) := by omega
  simp only [writeSchedCtrl, decide_eq_false hno, Bool.false_and, Bool.false_eq_true, if_false]

end

/-- Registers that answer take a write. -/
theorem regWrite_of_regsAnswer {s : State} (hr : regsAnswer s = true) (t : Nat) (f : State → State) : regWrite t f s = f (tick t s) :=
  if_pos hr

/-- A change of the fabric that keeps the islands' bytes, besides that of the time. -/
theorem changesOnly_tick_setFab {t : Nat} {s : State} {x : Fabric} (hx : x.scratch = s.fab.scratch) :
    changesOnly [.time, .fab] s { tick t s with fab := x } := by
  intro p hp
  cases p with
  | time | fab => simp at hp
  | scratch => exact hx
  | _ => rfl

/-- Settles O26, event by event. -/
theorem thermalEventsProtect : Obligations.ThermalEventsProtect := by
  refine ⟨?model, ?sensor, ?trip, ?release, ?coldBoot, ?sequence, ?aon, ?taken, ?refused⟩
  -- The update is by definition the statement's two steps, one after the other.
  case model =>
    rintro t fits sensors s w v rfl rfl
    rfl
  case sensor => exact fun t n s hn => execSensor105_halves hn t s
  case trip =>
    intro t s htrip haon hst
    exact ⟨_, execThermtrip_trips htrip haon hst t, rfl, frozen_freezeCoffer 4 _,
      (changesOnly_tripCoffer t s).setPw (by simp [tripCoffer, tripped])⟩
  case release =>
    intro t s hlatch hwaits
    refine ⟨_, execThermtripRelease_eq hlatch t, ?_⟩
    rw [hwaits, if_neg Bool.false_ne_true]
    exact ⟨rfl, (changesOnly_tick.mono (by decide)).setPw rfl⟩
  case coldBoot =>
    intro t s hlatch hwaits
    refine (execThermtripRelease_eq hlatch t).trans ?_
    rw [hwaits, if_pos rfl]
    rfl
  case sequence =>
    intro t r s
    have hheld : changesOnly [.time, .pw, .cof] s { tick t s with pw := heldInReset s.pw } :=
      (changesOnly_tick.mono (by decide)).setPw rfl
    exact ⟨_, execSequenceFault_eq t r s, by simp [heldInReset], hheld.coffer⟩
  case aon => exact fun t s => ⟨_, rfl, rfl, rfl, rfl, rfl⟩
  case taken =>
    intro t v s hr hlo hhi hjob
    exact ⟨_, congrArg Host.Outcome.next ((regWrite_of_regsAnswer hr t _).trans (writeSchedCtrl_takes hlo hhi hjob)), rfl,
      changesOnly_tick_setFab rfl⟩
  case refused =>
    intro t v s hr hout
    exact ⟨_, congrArg Host.Outcome.next ((regWrite_of_regsAnswer hr t _).trans (writeSchedCtrl_refuses hout)), rfl,
      changesOnly_tick_setFab rfl⟩

end Sys2Proof.Machine
end

section
/-! SUPPORT. The operations that store into device memory, island memory or the mailbox buffer, or that run another which does: each
keeps the memories in their canonical form. -/
set_option Elab.async false
namespace Sys2Proof.Machine

/-! ## The form, and what keeps it -/

/-- Memory m' has its canonical form, though m had not. -/
def mended (m m' : List Host.Cell) : Bool := !Memory.wf m && Memory.wf m'

/-- m' has its canonical form wherever m has: said as an equation, so that simp follows a chain of operations of any length. -/
@[simp] abbrev KeepsForm (m m' : List Host.Cell) : Prop := Memory.wf m' = (Memory.wf m || mended m m')

theorem keepsForm_of {m m' : List Host.Cell} (h : Memory.wf m = true → Memory.wf m' = true) : KeepsForm m m' := by
  unfold KeepsForm mended
  cases hm : Memory.wf m with
  | true => simp [h hm]
  | false => simp

theorem keepsForm_refl (m : List Host.Cell) : KeepsForm m m := keepsForm_of id

theorem KeepsForm.trans {l m n : List Host.Cell} (hlm : KeepsForm l m) (hmn : KeepsForm m n) : KeepsForm l n :=
  keepsForm_of fun hl => by simp [hmn, hlm, hl]

@[simp] theorem mended_self (m : List Host.Cell) : mended m m = false := by simp [mended]

@[simp] theorem wf_ite (c : Prop) [Decidable c] (m m' : List Host.Cell) :
    Memory.wf (if c then m else m') = if c then Memory.wf m else Memory.wf m' := by
  split <;> rfl

@[simp] theorem cwrite_keepsForm (m : List Host.Cell) (a : Nat) (v : Byte) : KeepsForm m (cwrite m a v) := keepsForm_of (wf_cwrite m a v)
@[simp] theorem cwrites_keepsForm (m : List Host.Cell) (a : Nat) (l : List Byte) : KeepsForm m (cwrites m a l) := keepsForm_of (wf_cwrites l m a)
@[simp] theorem filter_keepsForm (m : List Host.Cell) (p : Host.Cell → Bool) : KeepsForm m (m.filter p) := keepsForm_of (wf_filter m p)

@[simp] theorem forEach_dram_keepsForm {α : Type} (g : α → State → State) (h : ∀ x s, KeepsForm s.mem.dram (g x s).mem.dram) (l : List α) (s : State) :
    KeepsForm s.mem.dram (forEach g l s).mem.dram := by
  refine keepsForm_of fun hs => ?_
  induction l generalizing s with
  | nil => exact hs
  | cons x l ih => exact ih (g x s) (by simp [h, hs])

@[simp] theorem forEach_scratch_keepsForm {α : Type} (g : α → State → State) (h : ∀ x s, KeepsForm s.fab.scratch (g x s).fab.scratch) (l : List α) (s : State) :
    KeepsForm s.fab.scratch (forEach g l s).fab.scratch := by
  refine keepsForm_of fun hs => ?_
  induction l generalizing s with
  | nil => exact hs
  | cons x l ih => exact ih (g x s) (by simp [h, hs])

section
variable {α : Type} {g : α → State → State} (l : List α) (s : State)

theorem forEach_dram_kept (h : ∀ x s, Memory.wf s.mem.dram = true → Memory.wf (g x s).mem.dram = true) :
    KeepsForm s.mem.dram (forEach g l s).mem.dram := forEach_dram_keepsForm g (fun x s => keepsForm_of (h x s)) l s

theorem forEach_scratch_kept (h : ∀ x s, Memory.wf s.fab.scratch = true → Memory.wf (g x s).fab.scratch = true) :
    KeepsForm s.fab.scratch (forEach g l s).fab.scratch := forEach_scratch_keepsForm g (fun x s => keepsForm_of (h x s)) l s

end

@[simp] theorem secAfter_mboxBuf (x : Sec) : (secAfter x).mboxBuf = [] := rfl
@[simp] theorem secReload_mboxBuf (x : Sec) : (secReload x).mboxBuf = [] := rfl

/-! ## Frames and their pools -/

@[simp] theorem zeroChunks_keepsForm (m : Nat) (l : List (Nat × Nat)) (s : State) :
    KeepsForm s.mem.dram (zeroChunks m l s).mem.dram :=
  keepsForm_of fun h => by simp [zeroChunks, h]

@[simp] theorem readyFrames_keepsForm (m : Nat) (frames : List Nat) (s : State) :
    KeepsForm s.mem.dram (readyFrames m frames s).mem.dram :=
  keepsForm_of fun h => by simp [readyFrames, h]

@[simp] theorem addObj_keepsForm (pn : Nat) (kind : ObjKind) (cls : ObjClass) (m : Nat) (frames : List Nat) (s : State) :
    KeepsForm s.mem.dram (addObj pn kind cls m frames s).mem.dram :=
  keepsForm_of fun h => by simp [addObj, h]

@[simp] theorem growObj_keepsForm (pn id m : Nat) (frames : List Nat) (s : State) :
    KeepsForm s.mem.dram (growObj pn id m frames s).mem.dram :=
  keepsForm_of fun h => by simp [growObj, h]

@[simp] theorem writeDram_keepsForm (a : Nat) (l : List Byte) (s : State) : KeepsForm s.mem.dram (writeDram a l s).mem.dram :=
  keepsForm_of fun h => by simp [writeDram, h]

/-! ## Sequences, requests and their pages -/

@[simp] theorem copyFrame_keepsForm (a b : Nat) (s : State) : KeepsForm s.mem.dram (copyFrame a b s).mem.dram :=
  keepsForm_of (wf_copyFrame a b s)

@[simp] theorem moveFrame_keepsForm (pn a b : Nat) (s : State) : KeepsForm s.mem.dram (moveFrame pn a b s).mem.dram :=
  keepsForm_of fun h => by simp [moveFrame, h]

@[simp] theorem moveAll_keepsForm (pn : Nat) (l : List (Nat × Nat)) (s : State) : KeepsForm s.mem.dram (moveAll pn l s).mem.dram := by
  induction l generalizing s with
  | nil => exact keepsForm_refl _
  | cons x l ih => exact keepsForm_of fun h => by simp [moveAll, ih, h]

theorem makeFrames_keepsForm {p m n : Nat} {k : Nat} {s : State} {r : List Nat × State} (h : makeFrames p m n k s = some r) :
    KeepsForm s.mem.dram r.2.mem.dram := by
  refine keepsForm_of fun hs => ?_
  induction k generalizing s with
  | zero =>
    unfold makeFrames at h
    split at h
    case h_1 => cases h; exact hs
    case h_2 => simp at h
  | succ k ih =>
    unfold makeFrames at h
    split at h
    case h_1 => cases h; exact hs
    case h_2 =>
      split at h
      case h_1 hk _ => cases hk; exact ih h (by simp [hs])
      case h_2 => cases h

theorem takeFrames_keepsForm {lc : Bool} {p m n : Nat} {s : State} {r : List Nat × State} (h : takeFrames lc p m n s = some r) :
    KeepsForm s.mem.dram r.2.mem.dram := by
  unfold takeFrames at h
  split at h
  case h_1 hmake => cases h; exact makeFrames_keepsForm hmake
  case h_2 =>
    split at h
    case isTrue => cases h
    case isFalse =>
      split at h
      case h_2 => cases h
      case h_1 => exact keepsForm_of fun hs => by simp [makeFrames_keepsForm h, hs]

theorem allocate_keepsForm {lc : Bool} {p : Nat} {kind : ObjKind} {cls : ObjClass} {m n : Nat} {s u : State}
    (h : allocate lc p kind cls m n s = some u) : KeepsForm s.mem.dram u.mem.dram := by
  unfold allocate at h
  split at h
  case isTrue => cases h; exact keepsForm_refl _
  case isFalse =>
    obtain ⟨r, hr, rfl⟩ := Option.map_eq_some_iff.1 h
    exact keepsForm_of fun hs => by split <;> simp [takeFrames_keepsForm hr, hs]

theorem growTree_keepsForm {p i base : Nat} {g : KvGeom} {s u : State} (h : growTree p i base g s = some u) :
    KeepsForm s.mem.dram u.mem.dram := by
  have hgrown := allocate_keepsForm h
  exact keepsForm_of fun hs => by simp [hgrown, hs]

@[simp] theorem keepBlocks_keepsForm (a : ℕ) (b : ℕ) (c : KvGeom) (s : State) :
    KeepsForm s.mem.dram (keepBlocks a b c s).mem.dram := by
  unfold keepBlocks
  refine keepsForm_of fun hs => ?_
  dsimp only
  split
  case isFalse => exact hs
  case isTrue =>
    split
    case h_1 hgrown => simp [growTree_keepsForm hgrown, hs]
    case h_2 => exact hs

@[simp] theorem endSeq_keepsForm (i : Nat) (s : State) :
    KeepsForm s.mem.dram (endSeq i s).mem.dram := by
  unfold endSeq
  dsimp only
  repeat' split
  all_goals exact keepsForm_of fun h => by simp [h]

@[simp] theorem leaveSeq_keepsForm (r : Request) (s : State) : KeepsForm s.mem.dram (leaveSeq r s).mem.dram :=
  keepsForm_of fun h => by simp [leaveSeq, h]

@[simp] theorem dropReq_keepsForm (k : Nat) (r : Request) (s : State) : KeepsForm s.mem.dram (dropReq k r s).mem.dram :=
  keepsForm_of fun h => by simp [dropReq, h]

@[simp] theorem endReq_keepsForm (silent : Bool) (k : Nat) (st : Status) (s : State) :
    KeepsForm s.mem.dram (endReq silent k st s).mem.dram := by
  unfold endReq
  dsimp only
  repeat' split
  all_goals exact keepsForm_of fun h => by simp [h]

@[simp] theorem settleFinishing_keepsForm (k : Nat) (s : State) :
    KeepsForm s.mem.dram (settleFinishing k s).mem.dram := by
  unfold settleFinishing
  repeat' split
  all_goals exact keepsForm_of fun h => by simp [h]

@[simp] theorem drainCtx_keepsForm (c : Nat) (s : State) : KeepsForm s.mem.dram (drainCtx c s).mem.dram :=
  keepsForm_of fun h => by simp [drainCtx, h]

@[simp] theorem endReqs_keepsForm (silent : Bool) (p : Request → Bool) (st : Status) (s : State) :
    KeepsForm s.mem.dram (endReqs silent p st s).mem.dram :=
  keepsForm_of fun h => by simp [endReqs, h]

/-! ## Long operations, groups and jobs -/

@[simp] theorem clearPlate_keepsForm (p : Nat) (s : State) : KeepsForm s.fab.scratch (clearPlate p s).fab.scratch :=
  keepsForm_of fun h => by simp [clearPlate, h]

@[simp] theorem removePlate_keepsForm (silent : Bool) (p : Nat) (st : Status) (s : State) :
    KeepsForm s.fab.scratch (removePlate silent p st s).fab.scratch :=
  keepsForm_of fun h => by simp [removePlate, h]

@[simp] theorem releaseJobParts_keepsForm (silent : Bool) (i : Nat) (st : Status) (s : State) :
    KeepsForm s.mem.dram (releaseJobParts silent i st s).mem.dram ∧ KeepsForm s.fab.scratch (releaseJobParts silent i st s).fab.scratch :=
  ⟨keepsForm_of fun h => by simp [releaseJobParts, h], keepsForm_of fun h => by simp [releaseJobParts, h]⟩

@[simp] theorem releaseJob_keepsForm (silent : Bool) (i : Nat) (s : State) :
    KeepsForm s.mem.dram (releaseJob silent i s).mem.dram ∧ KeepsForm s.fab.scratch (releaseJob silent i s).fab.scratch :=
  ⟨keepsForm_of fun h => by simp [releaseJob, h], keepsForm_of fun h => by simp [releaseJob, h]⟩

@[simp] theorem settleJob_keepsForm (silent : Bool) (i : Nat) (s : State) :
    KeepsForm s.mem.dram (settleJob silent i s).mem.dram ∧ KeepsForm s.fab.scratch (settleJob silent i s).fab.scratch :=
  ⟨keepsForm_of fun h => by simp [settleJob, h], keepsForm_of fun h => by simp [settleJob, h]⟩

@[simp] theorem endLoads_keepsForm (i : Nat) (st : Status) (s : State) : KeepsForm s.fab.scratch (endLoads i st s).fab.scratch :=
  forEach_scratch_keepsForm _ (fun n s => keepsForm_of fun h => by (repeat' split) <;> simp [h]) _ s

@[simp] theorem teardownJob_keepsForm (silent : Bool) (i : Nat) (st : Status) (s : State) :
    KeepsForm s.mem.dram (teardownJob silent i st s).mem.dram ∧ KeepsForm s.fab.scratch (teardownJob silent i st s).fab.scratch :=
  ⟨keepsForm_of fun h => by simp [teardownJob, h], keepsForm_of fun h => by simp [teardownJob, h]⟩

@[simp] theorem freezeJob_keepsForm (i cause lost : Nat) (st : Status) (s : State) :
    KeepsForm s.mem.dram (freezeJob i cause lost st s).mem.dram :=
  keepsForm_of fun h => by simp [freezeJob, h]

/-! ## Admission -/

@[simp] theorem acceptReq_keepsForm (h : Hdr) (a : Ask) (r : Request) (s : State) :
    KeepsForm s.mem.dram (acceptReq h a r s).mem.dram := by
  unfold acceptReq
  dsimp only
  repeat' split
  all_goals exact keepsForm_of fun h => by simp [h]

@[simp] theorem rerunJob_keepsForm (i : Nat) (st : Status) (n : Nat) (s : State) :
    KeepsForm s.mem.dram (rerunJob i st n s).mem.dram := by
  induction n generalizing i st s with
  | zero => exact keepsForm_refl _
  | succ n ih =>
    unfold rerunJob
    repeat' split
    all_goals exact keepsForm_of fun h => by simp [ih, h]

@[simp] theorem rerunAll_keepsForm (st : Status) (s : State) : KeepsForm s.mem.dram (rerunAll st s).mem.dram :=
  keepsForm_of fun h => by simp [rerunAll, h]

/-! ## Islands and plates -/

@[simp] theorem plateFatal_keepsForm (i unit : Nat) (s : State) :
    KeepsForm s.mem.dram (plateFatal i unit s).mem.dram ∧ KeepsForm s.fab.scratch (plateFatal i unit s).fab.scratch :=
  ⟨keepsForm_of fun h => by simp [plateFatal, h], keepsForm_of fun h => by simp [plateFatal, h]⟩

@[simp] theorem addCounter_keepsForm (n c inc : Nat) (s : State) :
    KeepsForm s.mem.dram (addCounter n c inc s).mem.dram ∧ KeepsForm s.fab.scratch (addCounter n c inc s).fab.scratch := by
  unfold addCounter
  dsimp only
  repeat' split
  all_goals exact ⟨keepsForm_of fun h => by simp [h], keepsForm_of fun h => by simp [h]⟩

@[simp] theorem signalCtr_keepsForm (p idx ctr inc : Nat) (s : State) :
    KeepsForm s.mem.dram (signalCtr p idx ctr inc s).mem.dram ∧ KeepsForm s.fab.scratch (signalCtr p idx ctr inc s).fab.scratch := by
  unfold signalCtr
  repeat' split
  all_goals exact ⟨keepsForm_of fun h => by simp [h], keepsForm_of fun h => by simp [h]⟩

@[simp] theorem putBank_keepsForm (p idx a : Nat) (b : Byte) (s : State) :
    KeepsForm s.fab.scratch (putBank p idx a b s).fab.scratch := by
  unfold putBank
  dsimp only
  repeat' split
  all_goals exact keepsForm_of fun h => by simp [h]

@[simp] theorem putBanks_keepsForm (p idx a : Nat) (l : List Byte) (s : State) :
    KeepsForm s.fab.scratch (putBanks p idx a l s).fab.scratch :=
  keepsForm_of (wf_putBanks p idx l a s)

@[simp] theorem writeBank_keepsForm (p idx a : Nat) (l : List Byte) (s : State) :
    KeepsForm s.fab.scratch (writeBank p idx a l s).fab.scratch :=
  keepsForm_of fun h => by simp [writeBank, h]

@[simp] theorem landBank_keepsForm (p idx a layer op : Nat) (l : List Byte) (s : State) :
    KeepsForm s.fab.scratch (landBank p idx a layer op l s).fab.scratch :=
  keepsForm_of fun h => by simp [landBank, h]

@[simp] theorem fenceOne_keepsForm (n : Nat) (fwd : Bool) (s : State) :
    KeepsForm s.mem.dram (fenceOne n fwd s).mem.dram ∧ KeepsForm s.fab.scratch (fenceOne n fwd s).fab.scratch :=
  ⟨keepsForm_of fun h => by simp [fenceOne, h], keepsForm_of fun h => by simp [fenceOne, h]⟩

@[simp] theorem fence_keepsForm (n : Nat) (fwd : Bool) (s : State) :
    KeepsForm s.mem.dram (fence n fwd s).mem.dram ∧ KeepsForm s.fab.scratch (fence n fwd s).fab.scratch :=
  ⟨keepsForm_of fun h => by simp [fence, h], keepsForm_of fun h => by simp [fence, h]⟩

@[simp] theorem cellError_keepsForm (n : Nat) (fwd : Bool) (s : State) :
    KeepsForm s.mem.dram (cellError n fwd s).mem.dram ∧ KeepsForm s.fab.scratch (cellError n fwd s).fab.scratch :=
  ⟨keepsForm_of fun h => by simp [cellError, h], keepsForm_of fun h => by simp [cellError, h]⟩

/-! ## Clocks and emergencies -/

@[simp] theorem controlPass_keepsForm (forced : Bool) (s : State) : KeepsForm s.mem.dram (controlPass forced s).mem.dram :=
  keepsForm_of fun h => by simp [controlPass, h]

@[simp] theorem setEmergency_keepsForm (cap therm : Bool) (s : State) : KeepsForm s.mem.dram (setEmergency cap therm s).mem.dram :=
  keepsForm_of fun h => by simp [setEmergency, h]

@[simp] theorem capMoves_keepsForm (old : Nat) (s : State) : KeepsForm s.mem.dram (capMoves old s).mem.dram :=
  keepsForm_of fun h => by simp [capMoves, h]

@[simp] theorem leaveIdle_keepsForm (s : State) : KeepsForm s.mem.dram (leaveIdle s).mem.dram :=
  keepsForm_of fun h => by simp [leaveIdle, h]

/-! ## Remote accesses and ports -/

@[simp] theorem writePkt_keepsForm (p : Pkt) (s : State) :
    KeepsForm s.mem.dram (writePkt p s).mem.dram := by
  unfold writePkt
  dsimp only
  repeat' split
  all_goals exact keepsForm_of fun h => by simp [h]

@[simp] theorem atomicPkt_keepsForm (p : Pkt) (s : State) :
    KeepsForm s.mem.dram (atomicPkt p s).mem.dram := by
  unfold atomicPkt
  dsimp only
  repeat' split
  all_goals exact keepsForm_of fun h => by simp [h]

@[simp] theorem lostTarget_keepsForm (i cause loc : Nat) (s : State) : KeepsForm s.mem.dram (lostTarget i cause loc s).mem.dram :=
  keepsForm_of fun h => by simp [lostTarget, h]

@[simp] theorem issueRemote_keepsForm (i : Nat) (r : Remote) (s : State) :
    KeepsForm s.mem.dram (issueRemote i r s).mem.dram := by
  unfold issueRemote
  dsimp only
  repeat' split
  all_goals exact keepsForm_of fun h => by simp [h]

@[simp] theorem completeRemote_keepsForm (p : RespPkt) (r : Remote) (s : State) :
    KeepsForm s.mem.dram (completeRemote p r s).mem.dram ∧ KeepsForm s.fab.scratch (completeRemote p r s).fab.scratch :=
  ⟨keepsForm_of fun h => by simp [completeRemote, h], keepsForm_of fun h => by simp [completeRemote, h]⟩

@[simp] theorem settleRemote_keepsForm (p : RespPkt) (r : Remote) (s : State) :
    KeepsForm s.mem.dram (settleRemote p r s).mem.dram ∧ KeepsForm s.fab.scratch (settleRemote p r s).fab.scratch := by
  unfold settleRemote
  dsimp only
  repeat' split
  all_goals exact ⟨keepsForm_of fun h => by simp [h], keepsForm_of fun h => by simp [h]⟩

@[simp] theorem respWith_dram_keepsForm {f : RespPkt → Remote → State → State} (hf : ∀ p r s, KeepsForm s.mem.dram (f p r s).mem.dram)
    (p : RespPkt) (s : State) : KeepsForm s.mem.dram (respWith f p s).mem.dram := by
  unfold respWith
  exact keepsForm_of fun h => by dsimp only; split <;> simp [hf, h]

@[simp] theorem respWith_scratch_keepsForm {f : RespPkt → Remote → State → State}
    (hf : ∀ p r s, KeepsForm s.fab.scratch (f p r s).fab.scratch) (p : RespPkt) (s : State) :
    KeepsForm s.fab.scratch (respWith f p s).fab.scratch := by
  unfold respWith
  exact keepsForm_of fun h => by dsimp only; split <;> simp [hf, h]

@[simp] theorem respRemote_keepsForm (p : RespPkt) (s : State) :
    KeepsForm s.mem.dram (respRemote p s).mem.dram ∧ KeepsForm s.fab.scratch (respRemote p s).fab.scratch :=
  ⟨keepsForm_of fun h => by simp [respRemote, h], keepsForm_of fun h => by simp [respRemote, h]⟩

theorem newFault_rerunAll_keepsForm (cause lost job mc n : Nat) (st : Status) (s : State) :
    KeepsForm s.mem.dram (newFault cause lost job mc n (rerunAll st s)).mem.dram := by
  simp

@[simp] theorem evalCapacity_keepsForm (s : State) : KeepsForm s.mem.dram (evalCapacity s).mem.dram := by
  rw [evalCapacity]
  split
  case isTrue => exact keepsForm_refl _
  case isFalse => exact newFault_rerunAll_keepsForm _ _ _ _ _ _ _

@[simp] theorem stopPort_keepsForm (n st : Nat) (s : State) : KeepsForm s.mem.dram (stopPort n st s).mem.dram :=
  keepsForm_of fun h => by simp [stopPort, h]

@[simp] theorem portComesUp_keepsForm (n width : Nat) (enc : Bool) (s : State) :
    KeepsForm s.mem.dram (portComesUp n width enc s).mem.dram :=
  keepsForm_of fun h => by simp [portComesUp, h]

@[simp] theorem writePortCtrl_keepsForm (port : Nat) (v : Word) (s : State) :
    KeepsForm s.mem.dram (writePortCtrl port v s).mem.dram :=
  keepsForm_of fun h => by simp [writePortCtrl, h]

/-! ## The Exchange Unit -/

@[simp] theorem loseExu_keepsForm (i cause : Nat) (ty : ExuType) (r : ExuRec) (s : State) :
    KeepsForm s.mem.dram (loseExu i cause ty r s).mem.dram := by
  unfold loseExu
  repeat' split
  all_goals exact keepsForm_of fun h => by simp [h]

@[simp] theorem sendExu_keepsForm (i dst : Nat) (ty : ExuType) (r : ExuRec) (s : State) :
    KeepsForm s.mem.dram (sendExu i dst ty r s).mem.dram :=
  keepsForm_of fun h => by simp [sendExu, h]

@[simp] theorem respExu_keepsForm (p : RespPkt) (s : State) : KeepsForm s.mem.dram (respExu p s).mem.dram :=
  keepsForm_of fun h => by simp [respExu, h]

@[simp] theorem reachAll_dram_keepsForm {f : State → State} (hf : ∀ s, KeepsForm s.mem.dram (f s).mem.dram) (i : Nat) (l : List Nat)
    (s : State) : KeepsForm s.mem.dram (reachAll i l f s).mem.dram := by
  unfold reachAll
  split <;> simp [hf]

@[simp] theorem reachAll_scratch_keepsForm {f : State → State} (hf : ∀ s, KeepsForm s.fab.scratch (f s).fab.scratch) (i : Nat)
    (l : List Nat) (s : State) : KeepsForm s.fab.scratch (reachAll i l f s).fab.scratch := by
  unfold reachAll
  split <;> simp [hf]

@[simp] theorem writeSpans_keepsForm (l : List (Nat × Nat)) (d : List Byte) (s : State) :
    KeepsForm s.mem.dram (writeSpans l d s).mem.dram := by
  induction l generalizing d s with
  | nil => exact keepsForm_refl _
  | cons e l ih => exact keepsForm_of fun h => by simp [writeSpans, ih, h]

@[simp] theorem putSlot_keepsForm (l : List (Nat × Nat)) (width : Nat) (v : SlotVal) (s : State) :
    KeepsForm s.mem.dram (putSlot l width v s).mem.dram :=
  keepsForm_of fun h => by simp [putSlot, h]

@[simp] theorem moeDispatch_keepsForm (p layer : Nat) (toks : List MoeToken) (s : State) :
    KeepsForm s.mem.dram (moeDispatch p layer toks s).mem.dram ∧ KeepsForm s.fab.scratch (moeDispatch p layer toks s).fab.scratch := by
  unfold moeDispatch
  dsimp only
  split
  case h_2 => exact ⟨keepsForm_refl _, keepsForm_refl _⟩
  case h_1 =>
    refine ⟨reachAll_dram_keepsForm (fun s => keepsForm_of fun h => ?_) _ _ s,
      reachAll_scratch_keepsForm (fun s => keepsForm_of fun h => ?_) _ _ s⟩
    all_goals
      split
      case isTrue => simp [h]
      case isFalse =>
        simp (disch := first | (intros; simp; done) | (intro t s; refine keepsForm_of fun h => ?_; split <;> simp [h])) [h]

@[simp] theorem closeRounds_keepsForm (r : ExuRec) (n : Nat) (s : State) :
    KeepsForm s.mem.dram (closeRounds r n s).mem.dram ∧ KeepsForm s.fab.scratch (closeRounds r n s).fab.scratch := by
  induction n generalizing r s with
  | zero => exact ⟨keepsForm_refl _, keepsForm_refl _⟩
  | succ n ih =>
    unfold closeRounds
    dsimp only
    repeat' split
    all_goals exact ⟨keepsForm_of fun h => by simp [ih, h], keepsForm_of fun h => by simp [ih, h]⟩

@[simp] theorem expertRec_keepsForm (e : Bool × ExuRec) (s : State) :
    KeepsForm s.mem.dram (expertRec e s).mem.dram ∧ KeepsForm s.fab.scratch (expertRec e s).fab.scratch := by
  unfold expertRec
  dsimp only
  repeat' split
  all_goals exact ⟨keepsForm_of fun h => by simp [h], keepsForm_of fun h => by simp [h]⟩

@[simp] theorem retryFuel_keepsForm (n : Nat) (s : State) :
    KeepsForm s.mem.dram (retryFuel n s).mem.dram ∧ KeepsForm s.fab.scratch (retryFuel n s).fab.scratch := by
  induction n generalizing s with
  | zero => exact ⟨keepsForm_refl _, keepsForm_refl _⟩
  | succ n ih => exact ⟨keepsForm_of fun h => by simp [retryFuel, ih, h], keepsForm_of fun h => by simp [retryFuel, ih, h]⟩

@[simp] theorem retryWaiting_keepsForm (s : State) :
    KeepsForm s.mem.dram (retryWaiting s).mem.dram ∧ KeepsForm s.fab.scratch (retryWaiting s).fab.scratch :=
  ⟨keepsForm_of fun h => by simp [retryWaiting, h], keepsForm_of fun h => by simp [retryWaiting, h]⟩

@[simp] theorem addReturn_keepsForm (r : ExuRec) (x : HomeEx) (s : State) :
    KeepsForm s.mem.dram (addReturn r x s).mem.dram ∧ KeepsForm s.fab.scratch (addReturn r x s).fab.scratch := by
  unfold addReturn
  dsimp only
  repeat' split
  all_goals exact ⟨keepsForm_of fun h => by simp [h], keepsForm_of fun h => by simp [h]⟩

@[simp] theorem settleSlot_keepsForm (k : Nat) (w : SlotRow) (word : Nat) (s : State) :
    KeepsForm s.mem.dram (settleSlot k w word s).mem.dram := by
  unfold settleSlot
  dsimp only
  repeat' split
  all_goals exact keepsForm_of fun h => by simp [h]

@[simp] theorem combine_keepsForm (x : HomeEx) (s : State) :
    KeepsForm s.mem.dram (combine x s).mem.dram ∧ KeepsForm s.fab.scratch (combine x s).fab.scratch := by
  unfold combine
  dsimp only
  split
  case h_1 => exact ⟨keepsForm_of fun h => by simp [h], keepsForm_of fun h => by simp [h]⟩
  case h_2 =>
    split
    all_goals exact ⟨keepsForm_of fun h => by split <;> simp [h], keepsForm_of fun h => by split <;> simp [h]⟩

section
variable {f : HomeEx → State → State} (r : ExuRec) (s : State)

@[simp] theorem atHome_dram_keepsForm (hf : ∀ x s, KeepsForm s.mem.dram (f x s).mem.dram) : KeepsForm s.mem.dram (atHome r f s).mem.dram := by
  unfold atHome
  refine keepsForm_of fun h => ?_
  split
  case h_1 => exact h
  case h_2 => dsimp only; (repeat' split) <;> simp [hf, h]

@[simp] theorem atHome_scratch_keepsForm (hf : ∀ x s, KeepsForm s.fab.scratch (f x s).fab.scratch) :
    KeepsForm s.fab.scratch (atHome r f s).fab.scratch := by
  unfold atHome
  refine keepsForm_of fun h => ?_
  split
  case h_1 => exact h
  case h_2 => dsimp only; (repeat' split) <;> simp [hf, h]

end

@[simp] theorem landRows_keepsForm (p layer isl a : Nat) (l : List ExuRec) (s : State) :
    KeepsForm s.fab.scratch (landRows p layer isl a l s).fab.scratch := by
  induction l generalizing a s with
  | nil => exact keepsForm_refl _
  | cons r l ih =>
    unfold landRows
    exact keepsForm_of fun h => by simp [ih, h]

@[simp] theorem expertRows_keepsForm (p layer exchange queue isl dst : Nat) (s : State) :
    KeepsForm s.fab.scratch (expertRows p layer exchange queue isl dst s).fab.scratch := by
  unfold expertRows
  repeat' split
  all_goals exact keepsForm_of fun h => by simp [h]

@[simp] theorem expertReturn_keepsForm (p layer exchange home slot choice isl addr : Nat) (s : State) :
    KeepsForm s.mem.dram (expertReturn p layer exchange home slot choice isl addr s).mem.dram := by
  unfold expertReturn
  dsimp only
  repeat' split
  all_goals exact keepsForm_of fun h => by simp [h]

@[simp] theorem expertDone_keepsForm (p layer exchange : Nat) (s : State) :
    KeepsForm s.mem.dram (expertDone p layer exchange s).mem.dram ∧ KeepsForm s.fab.scratch (expertDone p layer exchange s).fab.scratch := by
  unfold expertDone
  dsimp only
  repeat' split
  all_goals exact ⟨keepsForm_of fun h => by simp [h], keepsForm_of fun h => by simp [h]⟩

@[simp] theorem gatherOut_keepsForm (i idx epoch : Nat) (req : Option Nat) (lc : Bool) (e : EmbTable) (bags : List Bag)
    (mk : Nat → BagEx → BagEx) (p : Option Nat) (s : State) :
    KeepsForm s.mem.dram (gatherOut i idx epoch req lc e bags mk p s).mem.dram :=
  reachAll_dram_keepsForm (fun s => keepsForm_of fun h => by simp [h]) _ _ s

@[simp] theorem finishGather_keepsForm (k : Nat) (s : State) :
    KeepsForm s.mem.dram (finishGather k s).mem.dram := by
  unfold finishGather
  dsimp only
  repeat' split
  all_goals exact keepsForm_of fun h => by simp [h]

@[simp] theorem finishBag_keepsForm (b : BagEx) (s : State) :
    KeepsForm s.mem.dram (finishBag b s).mem.dram ∧ KeepsForm s.fab.scratch (finishBag b s).fab.scratch :=
  ⟨keepsForm_of fun h => by simp [finishBag, h], keepsForm_of fun h => by simp [finishBag, h]⟩

@[simp] theorem takePooled_keepsForm (r : ExuRec) (s : State) :
    KeepsForm s.mem.dram (takePooled r s).mem.dram ∧ KeepsForm s.fab.scratch (takePooled r s).fab.scratch := by
  unfold takePooled
  dsimp only
  repeat' split
  all_goals exact ⟨keepsForm_of fun h => by simp [h], keepsForm_of fun h => by simp [h]⟩

@[simp] theorem modGather_keepsForm (i : Nat) (r : ExuRec) (f : GatherEx → GatherEx) (s : State) :
    KeepsForm s.mem.dram (modGather i r f s).mem.dram :=
  keepsForm_of fun h => by simp [modGather, h]

@[simp] theorem gatherRec_keepsForm (r : ExuRec) (s : State) :
    KeepsForm s.mem.dram (gatherRec r s).mem.dram := by
  unfold gatherRec
  dsimp only
  repeat' split
  all_goals exact keepsForm_of fun h => by simp [h]

@[simp] theorem retryStalled_keepsForm (s : State) : KeepsForm s.mem.dram (retryStalled s).mem.dram :=
  keepsForm_of fun h => by simp [retryStalled, h]

@[simp] theorem closeRec_keepsForm (r : ExuRec) (s : State) :
    KeepsForm s.mem.dram (closeRec r s).mem.dram ∧ KeepsForm s.fab.scratch (closeRec r s).fab.scratch := by
  unfold closeRec
  repeat' split
  all_goals exact ⟨keepsForm_of fun h => by simp [h], keepsForm_of fun h => by simp [h]⟩

@[simp] theorem postGather_keepsForm (p idx : Nat) (bags : List Bag) (isl ctr inc dst : Nat) (s : State) :
    KeepsForm s.mem.dram (postGather p idx bags isl ctr inc dst s).mem.dram ∧ KeepsForm s.fab.scratch (postGather p idx bags isl ctr inc
      dst s).fab.scratch := by
  unfold postGather
  dsimp only
  repeat' split
  all_goals exact ⟨keepsForm_of fun h => by simp [h], keepsForm_of fun h => by simp [h]⟩

@[simp] theorem updateRec_keepsForm (r : ExuRec) (s : State) :
    KeepsForm s.mem.dram (updateRec r s).mem.dram := by
  unfold updateRec
  dsimp only
  repeat' split
  all_goals exact keepsForm_of fun h => by simp [h]

@[simp] theorem settleRec_keepsForm (r : ExuRec) (s : State) :
    KeepsForm s.mem.dram (settleRec r s).mem.dram := by
  unfold settleRec
  dsimp only
  repeat' split
  all_goals exact keepsForm_of fun h => by simp [h]

@[simp] theorem startSettle_keepsForm (c : EmbCmd) (s : State) :
    KeepsForm s.mem.dram (startSettle c s).mem.dram := by
  unfold startSettle
  dsimp only
  repeat' split
  all_goals exact keepsForm_of fun h => by simp [h]

@[simp] theorem nextPhase_keepsForm (c : EmbCmd) (s : State) : KeepsForm s.mem.dram (nextPhase c s).mem.dram :=
  keepsForm_of fun h => by simp [nextPhase, h]

@[simp] theorem doneRec_keepsForm (r : ExuRec) (s : State) :
    KeepsForm s.mem.dram (doneRec r s).mem.dram := by
  unfold doneRec
  dsimp only
  repeat' split
  all_goals exact keepsForm_of fun h => by simp [h]

@[simp] theorem goneRec_keepsForm (r : ExuRec) (s : State) :
    KeepsForm s.mem.dram (goneRec r s).mem.dram := by
  unfold goneRec
  dsimp only
  repeat' split
  all_goals exact keepsForm_of fun h => by simp [h]

/-! ## Requests -/

theorem growTo_keepsForm {lc : Bool} {k p : Nat} {kind : ObjKind} {cls : ObjClass} {m n : Nat} {s u : State}
    (h : growTo lc k p kind cls m n s = some u) : KeepsForm s.mem.dram u.mem.dram := by
  obtain ⟨v, hv, rfl⟩ := Option.map_eq_some_iff.1 h
  simp [allocate_keepsForm hv]

@[simp] theorem growWords_keepsForm (lc : Bool) (k p i n : Nat) (geo : KvGeom) (s : State) :
    KeepsForm s.mem.dram (growWords lc k p i n geo s).mem.dram := by
  unfold growWords
  cases hg : growTo lc k p (.blockState (ownLoc s) i) .held 0 (wordFrames s geo n) s with
  | none => exact keepsForm_refl _
  | some u => exact growTo_keepsForm hg

@[simp] theorem storeTokens_keepsForm (i n : Nat) (s : State) : KeepsForm s.mem.dram (storeTokens i n s).mem.dram := by
  unfold storeTokens
  dsimp only
  split
  case h_1 => exact keepsForm_refl _
  case h_2 => exact forEach_dram_keepsForm _ (fun e s => keepsForm_of fun h => by split <;> simp [h]) _ s

theorem tryEach_keepsForm {α : Type} {f : α → State → Option State}
    (hf : ∀ x s u, f x s = some u → KeepsForm s.mem.dram u.mem.dram) {l : List α} {s u : State} (h : tryEach f l s = some u) :
    KeepsForm s.mem.dram u.mem.dram := by
  refine keepsForm_of fun hs => ?_
  induction l generalizing s with
  | nil => cases h; exact hs
  | cons x l ih =>
    obtain ⟨v, hv, hu⟩ := Option.bind_eq_some_iff.1 h
    exact ih hu (by simp [hf x s v hv, hs])

theorem freshPage_keepsForm {p i : Nat} {geo : KvGeom} {lc : Bool} {g chip q : Nat} {s u : State}
    (h : freshPage p i geo lc g chip q s = some u) : KeepsForm s.mem.dram u.mem.dram := by
  unfold freshPage at h
  split at h
  case isTrue => cases h; simp
  case isFalse =>
    obtain ⟨v, hv, rfl⟩ := Option.map_eq_some_iff.1 h
    simp [allocate_keepsForm hv]

theorem freshPages_keepsForm {p i : Nat} {geo : KvGeom} {lc : Bool} {ps : List Nat} {s u : State}
    (h : freshPages p i geo lc ps s = some u) : KeepsForm s.mem.dram u.mem.dram := by
  refine tryEach_keepsForm (fun e s u hu => ?_) h
  split at hu
  case isTrue => cases hu; exact keepsForm_refl _
  case isFalse => exact freshPage_keepsForm hu

theorem ensurePositions_keepsForm {k n : Nat} {s u : State} (h : ensurePositions k n s = some u) :
    KeepsForm s.mem.dram u.mem.dram := by
  unfold ensurePositions at h
  split at h
  case h_1 => cases h; exact keepsForm_refl _
  case h_2 =>
    dsimp only at h
    split at h
    case isTrue => cases h; exact keepsForm_refl _
    case isFalse =>
      obtain ⟨s1, h1, h⟩ := Option.bind_eq_some_iff.1 h
      split at h
      case h_1 => cases h; exact keepsForm_of fun hs => by simp [growTo_keepsForm h1, hs]
      case h_2 =>
        obtain ⟨s2, h2, h⟩ := Option.bind_eq_some_iff.1 h
        obtain ⟨s3, h3, h⟩ := Option.bind_eq_some_iff.1 h
        obtain ⟨s4, h4, rfl⟩ := Option.map_eq_some_iff.1 h
        exact keepsForm_of fun hs => by
          simp [freshPages_keepsForm h4, growTo_keepsForm h3, growTo_keepsForm h2, growTo_keepsForm h1, hs]

@[simp] theorem ensureOrWait_keepsForm (k n : Nat) (s : State) : KeepsForm s.mem.dram (ensureOrWait k n s).mem.dram := by
  unfold ensureOrWait
  split
  case h_1 hroom => simp [ensurePositions_keepsForm hroom]
  case h_2 => exact keepsForm_of fun h => by (repeat' split) <;> simp [h]

@[simp] theorem resumeWaiting_keepsForm (p n : Nat) (s : State) : KeepsForm s.mem.dram (resumeWaiting p n s).mem.dram := by
  refine keepsForm_of fun h => ?_
  induction n generalizing s with
  | zero => exact h
  | succ n ih =>
    unfold resumeWaiting
    split
    case h_1 => exact h
    case h_2 =>
      split
      case h_1 => exact ih _ (by simp [h])
      case h_2 =>
        split
        case h_1 => exact h
        case h_2 hroom => exact ih _ (by simp [ensurePositions_keepsForm hroom, h])

@[simp] theorem takeReqState_keepsForm (k : Nat) (s : State) : KeepsForm s.mem.dram (takeReqState k s).mem.dram := by
  unfold takeReqState
  split
  case h_1 => exact keepsForm_refl _
  case h_2 r _ =>
    cases hg : growTo (isLc r) k (ctxPart s r.h.ctx) (reqObj k) .held 0 1 s with
    | none => simp
    | some u => simp [growTo_keepsForm hg]

@[simp] theorem decideGen_keepsForm (h : Hdr) (b : GenBody) (stop : Option StopBlock) (d : Nat) (s : State) :
    KeepsForm s.mem.dram (decideGen h b stop d s).mem.dram := by
  unfold decideGen
  dsimp only
  repeat' split
  all_goals exact keepsForm_of fun h => by simp [h]

@[simp] theorem startGather_keepsForm (k : Nat) (h : Hdr) (b : EmbedBody) (idx : Nat) (e : EmbTable) (bags : Option (List Bag)) (s :
    State) :
    KeepsForm s.mem.dram (startGather k h b idx e bags s).mem.dram := by
  unfold startGather
  dsimp only
  repeat' split
  all_goals exact keepsForm_of fun h => by simp [h]

theorem copyPage_keepsForm {p i : Nat} {geo : KvGeom} {lc : Bool} {pg q : Nat} {s u : State} (h : copyPage p i geo lc pg q s = some u) :
    KeepsForm s.mem.dram u.mem.dram := by
  obtain ⟨v, hv, rfl⟩ := Option.map_eq_some_iff.1 h
  exact (freshPages_keepsForm hv).trans (forEach_dram_kept _ v fun g s h => by dsimp only; split <;> simp [h])

@[simp] theorem takeHit_keepsForm (k i : Nat) (r : Request) (geo : KvGeom) (ns : List Node) (s : State) :
    KeepsForm s.mem.dram (takeHit k i r geo ns s).mem.dram := by
  refine keepsForm_of fun h => ?_
  unfold takeHit
  lift_lets
  intro p tp bp full pageAt shared
  have hshared : Memory.wf shared.mem.dram = true := by
    rw [forEach_dram_kept _ s fun q s h => by split <;> simp [h], h]
    rfl
  have hcopied : ∀ u, (pageAt full).bind (fun pg => copyPage p i geo (isLc r) pg full shared) = some u → Memory.wf u.mem.dram = true := by
    intro u hu
    obtain ⟨pg, -, hu⟩ := Option.bind_eq_some_iff.1 hu
    simp [copyPage_keepsForm hu, hshared]
  dsimp only
  split
  case isTrue => split <;> simp [hshared]
  case isFalse =>
    split
    case h_1 hu => split <;> simp [hcopied _ hu]
    case h_2 => split <;> simp [hshared]

@[simp] theorem takePrompt_keepsForm (k : Nat) (r : Request) (toks : List Nat) (s : State) :
    KeepsForm s.mem.dram (takePrompt k r toks s).mem.dram := by
  unfold takePrompt
  dsimp only
  repeat' split
  all_goals exact keepsForm_of fun h => by simp [h]

@[simp] theorem atDeadline_keepsForm (k : Nat) (r : Request) (s : State) :
    KeepsForm s.mem.dram (atDeadline k r s).mem.dram := by
  unfold atDeadline
  dsimp only
  repeat' split
  all_goals exact keepsForm_of fun h => by simp [h]

/-! ## Tiles -/

@[simp] theorem loseTile_keepsForm (n cause loc : Nat) (s : State) :
    KeepsForm s.mem.dram (loseTile n cause loc s).mem.dram := by
  unfold loseTile
  repeat' split
  all_goals exact keepsForm_of fun h => by simp [h]

section
variable {f : TileJob → State → State} (n : Nat) (st : Status) (s : State)

@[simp] theorem failTile_dram_keepsForm (hf : ∀ j s, KeepsForm s.mem.dram (f j s).mem.dram) :
    KeepsForm s.mem.dram (failTile n st f s).mem.dram := by
  unfold failTile
  exact keepsForm_of fun h => by (repeat' split) <;> simp [hf, h]

@[simp] theorem failTile_scratch_keepsForm (hf : ∀ j s, KeepsForm s.fab.scratch (f j s).fab.scratch) :
    KeepsForm s.fab.scratch (failTile n st f s).fab.scratch := by
  unfold failTile
  exact keepsForm_of fun h => by (repeat' split) <;> simp [hf, h]

end

@[simp] theorem denyTile_keepsForm (n : Nat) (st : Status) (s : State) :
    KeepsForm s.mem.dram (denyTile n st s).mem.dram ∧ KeepsForm s.fab.scratch (denyTile n st s).fab.scratch :=
  ⟨keepsForm_of fun h => by simp [denyTile, h], keepsForm_of fun h => by simp [denyTile, h]⟩

@[simp] theorem endTile_keepsForm (j : TileJob) (s : State) :
    KeepsForm s.mem.dram (endTile j s).mem.dram ∧ KeepsForm s.fab.scratch (endTile j s).fab.scratch := by
  unfold endTile
  repeat' split
  all_goals exact ⟨keepsForm_of fun h => by simp [h], keepsForm_of fun h => by simp [h]⟩

@[simp] theorem beginPiece_keepsForm (n : Nat) (s : State) :
    KeepsForm s.mem.dram (beginPiece n s).mem.dram := by
  unfold beginPiece
  dsimp only
  repeat' split
  all_goals exact keepsForm_of fun h => by simp [h]

@[simp] theorem beginAll_keepsForm (s : State) : KeepsForm s.mem.dram (beginAll s).mem.dram :=
  keepsForm_of fun h => by simp [beginAll, h]

@[simp] theorem queueTile_keepsForm (n : Nat) (j : TileJob) (s : State) : KeepsForm s.mem.dram (queueTile n j s).mem.dram :=
  keepsForm_of fun h => by simp [queueTile, h]

@[simp] theorem postTile_keepsForm (p : Nat) (deadline : Nat) (d : TileDesc) (s : State) :
    KeepsForm s.mem.dram (postTile p deadline d s).mem.dram ∧ KeepsForm s.fab.scratch (postTile p deadline d s).fab.scratch := by
  unfold postTile
  dsimp only
  repeat' split
  all_goals exact ⟨keepsForm_of fun h => by simp [h], keepsForm_of fun h => by simp [h]⟩

@[simp] theorem writeUnit_keepsForm (fmt : Nat) (layer op : Nat) (pl : Place) (data : List Byte) (s : State) :
    KeepsForm s.mem.dram (writeUnit fmt layer op pl data s).mem.dram ∧ KeepsForm s.fab.scratch (writeUnit fmt layer op pl data
      s).fab.scratch := by
  unfold writeUnit
  dsimp only
  repeat' split
  all_goals exact ⟨keepsForm_of fun h => by simp [h], keepsForm_of fun h => by simp [h]⟩

@[simp] theorem writeFar_keepsForm (n : Nat) (j : TileJob) (l : List (Place × List Byte)) (s : State) :
    KeepsForm s.mem.dram (writeFar n j l s).mem.dram :=
  keepsForm_of fun h => by simp [writeFar, h]

@[simp] theorem touchPages_keepsForm (n : Nat) (j : TileJob) (kind : Nat) (at' : Nat → Nat) (s : State) :
    KeepsForm s.mem.dram (touchPages n j kind at' s).mem.dram := by
  unfold touchPages
  split
  case isTrue => exact keepsForm_refl _
  case isFalse => exact forEach_dram_kept _ s fun v s h => by dsimp only; (repeat' split) <;> simp [h]

@[simp] theorem finishPiece_keepsForm (n : Nat) (s : State) :
    KeepsForm s.mem.dram (finishPiece n s).mem.dram ∧ KeepsForm s.fab.scratch (finishPiece n s).fab.scratch := by
  unfold finishPiece
  dsimp only
  repeat' split
  all_goals exact ⟨keepsForm_of fun h => by simp [h], keepsForm_of fun h => by simp [h]⟩

@[simp] theorem landPiece_keepsForm (n : Nat) (j : TileJob) (got : List (List Byte)) (s : State) :
    KeepsForm s.mem.dram (landPiece n j got s).mem.dram ∧ KeepsForm s.fab.scratch (landPiece n j got s).fab.scratch := by
  unfold landPiece
  dsimp only
  repeat' split
  all_goals exact ⟨keepsForm_of fun h => by simp [h], keepsForm_of fun h => by simp [h]⟩

@[simp] theorem movePiece_keepsForm (n : Nat) (data : List Byte) (poisoned : Bool) (s : State) :
    KeepsForm s.mem.dram (movePiece n data poisoned s).mem.dram ∧ KeepsForm s.fab.scratch (movePiece n data poisoned s).fab.scratch := by
  unfold movePiece
  dsimp only
  repeat' split
  all_goals exact ⟨keepsForm_of fun h => by simp [h], keepsForm_of fun h => by simp [h]⟩

@[simp] theorem settleTile_keepsForm (n : Nat) (p : RespPkt) (rs : List Remote) (s : State) :
    KeepsForm s.mem.dram (settleTile n p rs s).mem.dram ∧ KeepsForm s.fab.scratch (settleTile n p rs s).fab.scratch := by
  unfold settleTile
  dsimp only
  repeat' split
  all_goals exact ⟨keepsForm_of fun h => by simp [h], keepsForm_of fun h => by simp [h]⟩

@[simp] theorem respTile_keepsForm (p : RespPkt) (s : State) :
    KeepsForm s.mem.dram (respTile p s).mem.dram ∧ KeepsForm s.fab.scratch (respTile p s).fab.scratch :=
  ⟨keepsForm_of fun h => by simp [respTile, h], keepsForm_of fun h => by simp [respTile, h]⟩

@[simp] theorem reissueTiles_keepsForm (s : State) : KeepsForm s.mem.dram (reissueTiles s).mem.dram :=
  keepsForm_of fun h => by simp [reissueTiles, h]

/-! ## Poison, restoration and ages -/

@[simp] theorem fatal_keepsForm (unit : Nat) (hostFailed : Bool) (s : State) :
    KeepsForm s.mem.dram (fatal unit hostFailed s).mem.dram :=
  keepsForm_of fun h => by simp [fatal, h]

@[simp] theorem poisonSeq_keepsForm (i : Nat) (s : State) : KeepsForm s.mem.dram (poisonSeq i s).mem.dram :=
  keepsForm_of fun h => by simp [poisonSeq, h]

@[simp] theorem poisonObj_keepsForm (pn : Nat) (o : PoolObj) (s : State) :
    KeepsForm s.mem.dram (poisonObj pn o s).mem.dram := by
  unfold poisonObj
  repeat' split
  all_goals exact keepsForm_of fun h => by simp [h]

@[simp] theorem failRestore_keepsForm (f mc idx : Nat) (e : Epoch) (s : State) :
    KeepsForm s.mem.dram (failRestore f mc idx e s).mem.dram :=
  keepsForm_of fun h => by simp [failRestore, h]

@[simp] theorem tryRestore_keepsForm (f mc idx : Nat) (e : Epoch) (s : State) :
    KeepsForm s.mem.dram (tryRestore f mc idx e s).mem.dram := by
  unfold tryRestore
  dsimp only
  repeat' split
  all_goals exact keepsForm_of fun h => by simp [h]

@[simp] theorem beginRestore_keepsForm (f : Nat) (s : State) :
    KeepsForm s.mem.dram (beginRestore f s).mem.dram := by
  unfold beginRestore
  dsimp only
  repeat' split
  all_goals exact keepsForm_of fun h => by simp [h]

@[simp] theorem poisonFrame_keepsForm (f : Nat) (s : State) :
    KeepsForm s.mem.dram (poisonFrame f s).mem.dram := by
  unfold poisonFrame
  dsimp only
  repeat' split
  all_goals exact keepsForm_of fun h => by simp [h]

@[simp] theorem rewriteFrame_keepsForm (f : Nat) (e : Epoch) (r : ShardRec) (data : List Byte) (s : State) :
    KeepsForm s.mem.dram (rewriteFrame f e r data s).mem.dram := by
  unfold rewriteFrame
  refine forEach_dram_kept _ s fun i s h => ?_
  dsimp only
  split
  case isTrue => exact h
  case isFalse => split <;> exact wf_writeDram _ _ _ h

@[simp] theorem applyHeld_keepsForm (f : Nat) (s : State) : KeepsForm s.mem.dram (applyHeld f s).mem.dram :=
  keepsForm_of fun h => by simp [applyHeld, h]

@[simp] theorem testFrame_keepsForm (f : Nat) (ok : Bool) (s : State) : KeepsForm s.mem.dram (testFrame f ok s).mem.dram :=
  keepsForm_of fun h => by simp [testFrame, h]

@[simp] theorem endRestore_keepsForm (f mc idx : Nat) (e : Epoch) (ok : Bool) (data : Option (List Byte)) (s : State) :
    KeepsForm s.mem.dram (endRestore f mc idx e ok data s).mem.dram := by
  unfold endRestore
  dsimp only
  repeat' split
  all_goals exact keepsForm_of fun h => by simp [h]

/-! ## Borders of partitions -/

@[simp] theorem freeEpochArea_keepsForm (mc n : Nat) (s : State) :
    KeepsForm s.mem.dram (freeEpochArea mc n s).mem.dram := by
  unfold freeEpochArea
  dsimp only
  repeat' split
  all_goals exact keepsForm_of fun h => by simp [h]

@[simp] theorem dropModelAreas_keepsForm (mc : Nat) (s : State) :
    KeepsForm s.mem.dram (dropModelAreas mc s).mem.dram := by
  unfold dropModelAreas
  repeat' split
  all_goals exact keepsForm_of fun h => by simp [h]

@[simp] theorem reclaimModel_keepsForm (op size : Nat) (consent : Bool) (n : Nat) (s : State) :
    KeepsForm s.mem.dram (reclaimModel op size consent n s).mem.dram := by
  induction n generalizing op size consent s with
  | zero => exact keepsForm_refl _
  | succ n ih =>
    unfold reclaimModel
    dsimp only
    repeat' split
    all_goals exact keepsForm_of fun h => by simp [ih, h]

@[simp] theorem reclaim_keepsForm (op : Nat) (s : State) :
    KeepsForm s.mem.dram (reclaim op s).mem.dram := by
  unfold reclaim
  dsimp only
  repeat' split
  all_goals exact keepsForm_of fun h => by simp [h]

@[simp] theorem checkResize_keepsForm (op target size : Nat) (consent : Bool) (s : State) :
    KeepsForm s.mem.dram (checkResize op target size consent s).mem.dram :=
  keepsForm_of fun h => by simp [checkResize, h]

@[simp] theorem retagDone_keepsForm (op : Nat) (s : State) :
    KeepsForm s.mem.dram (retagDone op s).mem.dram := by
  unfold retagDone
  dsimp only
  repeat' split
  all_goals exact keepsForm_of fun h => by simp [h]

@[simp] theorem cancelResize_keepsForm (target : Nat) (runs : List (Nat × Nat)) (s : State) :
    KeepsForm s.mem.dram (cancelResize target runs s).mem.dram :=
  keepsForm_of fun h => by simp [cancelResize, h]

/-! ## Collectives -/

@[simp] theorem collWrite_keepsForm (i plate : Nat) (posted : Bool) (a : Nat) (data : List Byte) (s : State) :
    KeepsForm s.mem.dram (collWrite i plate posted a data s).mem.dram ∧
      KeepsForm s.fab.scratch (collWrite i plate posted a data s).fab.scratch :=
  ⟨forEach_dram_kept _ s fun e s h => by split <;> simp [h], forEach_scratch_kept _ s fun e s h => by split <;> simp [h]⟩

@[simp] theorem closeOp_keepsForm (i : Nat) (o : CollOp) (s : State) :
    KeepsForm s.mem.dram (closeOp i o s).mem.dram ∧ KeepsForm s.fab.scratch (closeOp i o s).fab.scratch := by
  unfold closeOp
  repeat' split
  all_goals exact ⟨keepsForm_of fun h => by simp [h], keepsForm_of fun h => by simp [h]⟩

@[simp] theorem sendColl_keepsForm (g dst vc : Nat) (p : CollPkt) (s : State) :
    KeepsForm s.mem.dram (sendColl g dst vc p s).mem.dram := by
  unfold sendColl
  dsimp only
  repeat' split
  all_goals exact keepsForm_of fun h => by simp [h]

@[simp] theorem faultGroup_keepsForm (g : Nat) (s : State) :
    KeepsForm s.mem.dram (faultGroup g s).mem.dram ∧ KeepsForm s.fab.scratch (faultGroup g s).fab.scratch := by
  unfold faultGroup
  dsimp only
  repeat' split
  all_goals exact ⟨keepsForm_of fun h => by simp [h], keepsForm_of fun h => by simp [h]⟩

@[simp] theorem raiseFault_keepsForm (g : Nat) (s : State) :
    KeepsForm s.mem.dram (raiseFault g s).mem.dram ∧ KeepsForm s.fab.scratch (raiseFault g s).fab.scratch := by
  unfold raiseFault
  repeat' split
  all_goals exact ⟨keepsForm_of fun h => by simp [h], keepsForm_of fun h => by simp [h]⟩

@[simp] theorem deliverSmall_keepsForm (q : Group) (o : CollOp) (r : List Dword) (s : State) :
    KeepsForm s.mem.dram (deliverSmall q o r s).mem.dram ∧ KeepsForm s.fab.scratch (deliverSmall q o r s).fab.scratch :=
  ⟨keepsForm_of fun h => by simp [deliverSmall, h], keepsForm_of fun h => by simp [deliverSmall, h]⟩

@[simp] theorem sendBulk_keepsForm (g : Nat) (n : Nat) (s : State) :
    KeepsForm s.mem.dram (sendBulk g n s).mem.dram := by
  induction n generalizing g s with
  | zero => exact keepsForm_refl _
  | succ n ih =>
    unfold sendBulk
    dsimp only
    repeat' split
    all_goals exact keepsForm_of fun h => by simp [ih, h]

@[simp] theorem deliverBulk_keepsForm (q : Group) (o : CollOp) (s : State) :
    KeepsForm s.mem.dram (deliverBulk q o s).mem.dram ∧ KeepsForm s.fab.scratch (deliverBulk q o s).fab.scratch :=
  ⟨keepsForm_of fun h => by simp [deliverBulk, h], keepsForm_of fun h => by simp [deliverBulk, h]⟩

@[simp] theorem poisonOp_keepsForm (g : Nat) (s : State) :
    KeepsForm s.mem.dram (poisonOp g s).mem.dram ∧ KeepsForm s.fab.scratch (poisonOp g s).fab.scratch := by
  unfold poisonOp
  dsimp only
  repeat' split
  all_goals exact ⟨keepsForm_of fun h => by simp [h], keepsForm_of fun h => by simp [h]⟩

@[simp] theorem stageChunk_keepsForm (g : Nat) (data : List Byte) (s : State) :
    KeepsForm s.fab.scratch (stageChunk g data s).fab.scratch := by
  unfold stageChunk
  dsimp only
  repeat' split
  all_goals exact keepsForm_of fun h => by simp [h]

@[simp] theorem startOp_keepsForm (g : Nat) (s : State) :
    KeepsForm s.mem.dram (startOp g s).mem.dram ∧ KeepsForm s.fab.scratch (startOp g s).fab.scratch := by
  unfold startOp
  split
  case h_2 => exact ⟨keepsForm_refl _, keepsForm_refl _⟩
  case h_1 q o _ _ =>
    refine ⟨keepsForm_of fun h => ?_, keepsForm_of fun h => ?_⟩
    all_goals
      split
      case isTrue => simp [h]
      case isFalse =>
        split
        case isFalse => simp [h]
        case isTrue =>
          simp (disch := intro m s; refine keepsForm_of fun h => ?_; split <;> simp [h]) [h]

@[simp] theorem takePkt_keepsForm (g : Nat) (p : CollPkt) (s : State) :
    KeepsForm s.mem.dram (takePkt g p s).mem.dram ∧ KeepsForm s.fab.scratch (takePkt g p s).fab.scratch := by
  unfold takePkt
  dsimp only
  repeat' split
  all_goals exact ⟨keepsForm_of fun h => by simp [h], keepsForm_of fun h => by simp [h]⟩

@[simp] theorem takeEarly_keepsForm (g : Nat) (n : Nat) (s : State) :
    KeepsForm s.mem.dram (takeEarly g n s).mem.dram ∧ KeepsForm s.fab.scratch (takeEarly g n s).fab.scratch := by
  induction n generalizing g s with
  | zero => exact ⟨keepsForm_refl _, keepsForm_refl _⟩
  | succ n ih =>
    unfold takeEarly
    dsimp only
    repeat' split
    all_goals exact ⟨keepsForm_of fun h => by simp [ih, h], keepsForm_of fun h => by simp [ih, h]⟩

@[simp] theorem stepSmall_keepsForm (g : Nat) (s : State) :
    KeepsForm s.mem.dram (stepSmall g s).2.mem.dram ∧ KeepsForm s.fab.scratch (stepSmall g s).2.fab.scratch := by
  unfold stepSmall
  dsimp only
  repeat' split
  all_goals exact ⟨keepsForm_of fun h => by simp [h], keepsForm_of fun h => by simp [h]⟩

@[simp] theorem runGroup_keepsForm (g n : Nat) (s : State) :
    KeepsForm s.mem.dram (runGroup g n s).mem.dram ∧ KeepsForm s.fab.scratch (runGroup g n s).fab.scratch := by
  induction n generalizing g s with
  | zero => exact ⟨keepsForm_refl _, keepsForm_refl _⟩
  | succ n ih =>
    unfold runGroup
    dsimp only
    repeat' split
    all_goals exact ⟨keepsForm_of fun h => by simp [ih, h], keepsForm_of fun h => by simp [ih, h]⟩

@[simp] theorem enterOp_keepsForm (g : Nat) (o : CollOp) (s : State) :
    KeepsForm s.mem.dram (enterOp g o s).mem.dram ∧ KeepsForm s.fab.scratch (enterOp g o s).fab.scratch := by
  unfold enterOp
  dsimp only
  repeat' split
  all_goals exact ⟨keepsForm_of fun h => by simp [h], keepsForm_of fun h => by simp [h]⟩

@[simp] theorem settleJoin_keepsForm (g : Nat) (s : State) :
    KeepsForm s.mem.dram (settleJoin g s).mem.dram ∧ KeepsForm s.fab.scratch (settleJoin g s).fab.scratch := by
  unfold settleJoin
  dsimp only
  repeat' split
  all_goals exact ⟨keepsForm_of fun h => by simp [h], keepsForm_of fun h => by simp [h]⟩

@[simp] theorem takeJoin_keepsForm (g : Nat) (p : JoinParams) (s : State) :
    KeepsForm s.mem.dram (takeJoin g p s).mem.dram ∧ KeepsForm s.fab.scratch (takeJoin g p s).fab.scratch := by
  unfold takeJoin
  repeat' split
  all_goals exact ⟨keepsForm_of fun h => by simp [h], keepsForm_of fun h => by simp [h]⟩

@[simp] theorem postColl_keepsForm (p : Nat) (lc : Bool) (key opcode : Nat) (b : CollBody) (s : State) :
    KeepsForm s.mem.dram (postColl p lc key opcode b s).mem.dram ∧ KeepsForm s.fab.scratch (postColl p lc key opcode b s).fab.scratch := by
  unfold postColl
  dsimp only
  repeat' split
  all_goals exact ⟨keepsForm_of fun h => by simp [h], keepsForm_of fun h => by simp [h]⟩

@[simp] theorem loseColl_keepsForm (cause : Nat) (o : CollOut) (s : State) :
    KeepsForm s.mem.dram (loseColl cause o s).mem.dram := by
  unfold loseColl
  dsimp only
  repeat' split
  all_goals exact keepsForm_of fun h => by simp [h]

@[simp] theorem chunkAnswered_keepsForm (g : Nat) (o : CollOut) (s : State) :
    KeepsForm s.mem.dram (chunkAnswered g o s).mem.dram ∧ KeepsForm s.fab.scratch (chunkAnswered g o s).fab.scratch := by
  unfold chunkAnswered
  dsimp only
  repeat' split
  all_goals exact ⟨keepsForm_of fun h => by simp [h], keepsForm_of fun h => by simp [h]⟩

@[simp] theorem respColl_keepsForm (p : RespPkt) (s : State) :
    KeepsForm s.mem.dram (respColl p s).mem.dram ∧ KeepsForm s.fab.scratch (respColl p s).fab.scratch := by
  unfold respColl
  dsimp only
  repeat' split
  all_goals exact ⟨keepsForm_of fun h => by simp [h], keepsForm_of fun h => by simp [h]⟩

@[simp] theorem loseRemote_keepsForm (r : Remote) (s : State) : KeepsForm s.mem.dram (loseRemote r s).mem.dram :=
  keepsForm_of fun h => by simp [loseRemote, h]

/-! ## The operations of a step -/

@[simp] theorem putOut_keepsForm (p k a : Nat) (from' : List Span) (l : List Byte) (s : State) :
    KeepsForm s.fab.scratch (putOut p k a from' l s).fab.scratch :=
  keepsForm_of fun h => by simp [putOut, h]

@[simp] theorem putWords_keepsForm (p k a : Nat) (from' : List Span) (l : List Word) (s : State) :
    KeepsForm s.fab.scratch (putWords p k a from' l s).fab.scratch :=
  keepsForm_of fun h => by simp [putWords, h]

@[simp] theorem runDot_keepsForm (p k : Nat) (o : DotOp) (s : State) : KeepsForm s.fab.scratch (runDot p k o s).fab.scratch :=
  keepsForm_of fun h => by simp [runDot, h]

@[simp] theorem putQuant_keepsForm (p k layer fmt dst row stride : Nat) (last : Bool) (from' : List Span) (x : List Word) (s :
    State) :
    KeepsForm s.fab.scratch (putQuant p k layer fmt dst row stride last from' x s).fab.scratch :=
  keepsForm_of fun h => by simp [putQuant, h]

@[simp] theorem runActivate_keepsForm (p k : Nat) (a : ActRow) (s : State) :
    KeepsForm s.fab.scratch (runActivate p k a s).fab.scratch := by
  unfold runActivate
  dsimp only
  repeat' split
  all_goals exact keepsForm_of fun h => by simp [h]

@[simp] theorem markRow_keepsForm (p n : Nat) (g : ProofRow) (s : State) :
    KeepsForm s.fab.scratch (markRow p n g s).fab.scratch := by
  unfold markRow
  dsimp only
  repeat' split
  all_goals exact keepsForm_of fun h => by simp [h]

@[simp] theorem replayRows_keepsForm (p k rung : Nat) (l : LayerRec) (o : ProofOp) (rows : List Nat) (s : State) :
    KeepsForm s.fab.scratch (replayRows p k rung l o rows s).fab.scratch :=
  keepsForm_of fun h => by simp [replayRows, h]

@[simp] theorem replayTile_keepsForm (p k rung : Nat) (l : LayerRec) (o : ProofOp) (tried paid : List ProofRow) (s : State) :
    KeepsForm s.fab.scratch (replayTile p k rung l o tried paid s).fab.scratch :=
  keepsForm_of fun h => by simp [replayTile, h]

@[simp] theorem payShare_keepsForm (p : Nat) (g : ProofRow) (c : Nat) (s : State) :
    KeepsForm s.fab.scratch (payShare p g c s).2.fab.scratch := by
  unfold payShare
  dsimp only
  repeat' split
  all_goals simp

@[simp] theorem payShares_keepsForm (p : Nat) (cost : Nat → Nat) (rows l : List ProofRow) (s : State) :
    KeepsForm s.fab.scratch (payShares p cost rows l s).2.fab.scratch := by
  induction l generalizing s with
  | nil => exact keepsForm_refl _
  | cons g l ih => exact keepsForm_of fun h => by simp [payShares, ih, h]

@[simp] theorem chargedProof_keepsForm (p n : Nat) (t : ProofTile) (s : State) :
    KeepsForm s.fab.scratch (chargedProof p n t s).fab.scratch :=
  keepsForm_of fun h => by simp [chargedProof, h]

@[simp] theorem climb_keepsForm (p n rung stage : Nat) (t : ProofTile) (s : State) :
    KeepsForm s.fab.scratch (climb p n rung stage t s).fab.scratch :=
  keepsForm_of fun h => by simp [climb, h]

@[simp] theorem payLayer_keepsForm (p layer rung : Nat) (gs : List ProofRow) (s : State) :
    KeepsForm s.fab.scratch (payLayer p layer rung gs s).fab.scratch :=
  keepsForm_of fun h => by simp [payLayer, h]

@[simp] theorem layerTile_keepsForm (p n rung : Nat) (t : ProofTile) (s : State) :
    KeepsForm s.fab.scratch (layerTile p n rung t s).fab.scratch :=
  keepsForm_of fun h => by simp [layerTile, h]

@[simp] theorem layerAgain_keepsForm (p n : Nat) (t : ProofTile) (s : State) :
    KeepsForm s.fab.scratch (layerAgain p n t s).fab.scratch :=
  keepsForm_of fun h => by simp [layerAgain, h]

@[simp] theorem onTile_keepsForm {f : ProofTile → State → State} (hf : ∀ t s, KeepsForm s.fab.scratch (f t s).fab.scratch) (p n : Nat)
    (s : State) : KeepsForm s.fab.scratch (onTile p n f s).fab.scratch := by
  unfold onTile
  split
  case h_1 => exact hf _ s
  case h_2 => exact keepsForm_refl _

@[simp] theorem doAct_keepsForm (p : Nat) (a : ProofAct) (s : State) : KeepsForm s.fab.scratch (doAct p a s).fab.scratch := by
  cases a <;> simp [doAct]

@[simp] theorem runWork_keepsForm (p n b : Nat) (s : State) : KeepsForm s.fab.scratch (runWork p n b s).fab.scratch := by
  induction n generalizing b s with
  | zero => exact keepsForm_refl _
  | succ n ih =>
    unfold runWork
    repeat' split
    all_goals exact keepsForm_of fun h => by simp [ih, h]

@[simp] theorem runProofs_keepsForm (p : Nat) (s : State) : KeepsForm s.fab.scratch (runProofs p s).fab.scratch :=
  keepsForm_of fun h => by simp [runProofs, h]

@[simp] theorem runEpilogue_keepsForm (p k : Nat) (e : EpiOp) (s : State) :
    KeepsForm s.fab.scratch (runEpilogue p k e s).fab.scratch :=
  keepsForm_of fun h => by simp [runEpilogue, h]

@[simp] theorem runAttention_keepsForm (p k src dst width v n : Nat) (chunks : List (Nat × Nat)) (a : AttnRow) (s : State) :
    KeepsForm s.fab.scratch (runAttention p k src dst width v n chunks a s).fab.scratch :=
  keepsForm_of fun h => by simp [runAttention, h]

@[simp] theorem runSend_keepsForm (p k route src dst n : Nat) (s : State) :
    KeepsForm s.fab.scratch (runSend p k route src dst n s).fab.scratch := by
  unfold runSend
  repeat' split
  all_goals exact keepsForm_of fun h => by simp [h]

@[simp] theorem runSignal_keepsForm (p k route ctr inc : Nat) (s : State) :
    KeepsForm s.mem.dram (runSignal p k route ctr inc s).mem.dram ∧ KeepsForm s.fab.scratch (runSignal p k route ctr inc s).fab.scratch := by
  unfold runSignal
  repeat' split
  all_goals exact ⟨keepsForm_of fun h => by simp [h], keepsForm_of fun h => by simp [h]⟩

@[simp] theorem postKv_keepsForm (p n : Nat) (d : TileDesc) (read : Bool) (k : KvRows) (s : State) :
    KeepsForm s.mem.dram (postKv p n d read k s).mem.dram ∧ KeepsForm s.fab.scratch (postKv p n d read k s).fab.scratch := by
  induction n generalizing d k s with
  | zero => exact ⟨keepsForm_refl _, keepsForm_refl _⟩
  | succ n ih =>
    unfold postKv
    dsimp only
    repeat' split
    all_goals exact ⟨keepsForm_of fun h => by simp [ih, h], keepsForm_of fun h => by simp [ih, h]⟩

@[simp] theorem rowsOut_keepsForm (p k a n : Nat) (rows : List (Option Nat)) (s : State) :
    KeepsForm s.mem.dram (rowsOut p k a n rows s).mem.dram :=
  keepsForm_of fun h => by simp [rowsOut, h]

@[simp] theorem runCellFault_keepsForm (p k a n : Nat) (fwd : Bool) (s : State) :
    KeepsForm s.mem.dram (runCellFault p k a n fwd s).mem.dram ∧ KeepsForm s.fab.scratch (runCellFault p k a n fwd s).fab.scratch :=
  ⟨keepsForm_of fun h => by simp [runCellFault, h], keepsForm_of fun h => by simp [runCellFault, h]⟩

@[simp] theorem runOp_keepsForm (p : Nat) (o : StepOp) (s : State) :
    KeepsForm s.mem.dram (runOp p o s).mem.dram ∧ KeepsForm s.fab.scratch (runOp p o s).fab.scratch := by
  unfold runOp
  dsimp only
  repeat' split
  all_goals exact ⟨keepsForm_of fun h => by simp [h], keepsForm_of fun h => by simp [h]⟩

@[simp] theorem runOps_keepsForm (p : Nat) (ops : List StepOp) (s : State) :
    KeepsForm s.mem.dram (runOps p ops s).mem.dram ∧ KeepsForm s.fab.scratch (runOps p ops s).fab.scratch :=
  ⟨forEach_dram_kept _ s fun o s h => by split <;> simp [h], forEach_scratch_kept _ s fun o s h => by split <;> simp [h]⟩

/-! ## Steps -/

@[simp] theorem ensureWork_keepsForm (l : List (Nat × WorkKind)) (s : State) : KeepsForm s.mem.dram (ensureWork l s).mem.dram :=
  forEach_dram_kept l s fun w s h => by (repeat' split) <;> simp [h]

@[simp] theorem writeLengths_keepsForm (p : Nat) (q : Queued) (s : State) :
    KeepsForm s.fab.scratch (writeLengths p q s).fab.scratch := by
  unfold writeLengths
  repeat' split
  all_goals exact keepsForm_of fun h => by simp [h]

@[simp] theorem headWords_keepsForm (p home i n : Nat) (geo : KvGeom) (s : State) :
    KeepsForm s.mem.dram (headWords p home i n geo s).mem.dram := by
  unfold headWords
  cases hg : allocate false p (.blockState home i) .held 0 (wordFrames s geo n - heldBy s p (.blockState home i)) s with
  | none => exact keepsForm_refl _
  | some u => exact allocate_keepsForm hg

@[simp] theorem computeStep_keepsForm (p : Nat) (q : Queued) (ops : List StepOp) (s : State) :
    KeepsForm s.mem.dram (computeStep p q ops s).mem.dram ∧ KeepsForm s.fab.scratch (computeStep p q ops s).fab.scratch :=
  ⟨keepsForm_of fun h => by simp [computeStep, h], keepsForm_of fun h => by simp [computeStep, h]⟩

theorem headPage_keepsForm {p home i : Nat} {geo : KvGeom} {g q : Nat} {s u : State} (h : headPage p home i geo g q s = some u) :
    KeepsForm s.mem.dram u.mem.dram := by
  unfold headPage at h
  split at h
  case h_1 => cases h
  case h_2 =>
    obtain ⟨v, hv, rfl⟩ := Option.map_eq_some_iff.1 h
    simp [allocate_keepsForm hv]

theorem headFrames_keepsForm {p : Nat} {w : Nat × WorkKind} {s u : State} (h : headFrames p w s = some u) :
    KeepsForm s.mem.dram u.mem.dram := by
  unfold headFrames at h
  split at h
  case h_2 => cases h; exact keepsForm_refl _
  case h_1 =>
    obtain ⟨v, hv, rfl⟩ := Option.map_eq_some_iff.1 h
    have hpages := tryEach_keepsForm (fun e s u hu => ?page) hv
    case page =>
      split at hu
      case isTrue => cases hu; exact keepsForm_refl _
      case isFalse => exact headPage_keepsForm hu
    exact keepsForm_of fun hs => by split at hpages <;> simp [hpages, hs]

theorem headWork_keepsForm {p : Nat} {l : List (Nat × WorkKind)} {s u : State} (h : headWork p l s = some u) :
    KeepsForm s.mem.dram u.mem.dram :=
  tryEach_keepsForm (fun _ _ _ => headFrames_keepsForm) h

@[simp] theorem dispatchStep_keepsForm (p : Nat) (q : Queued) (ops : List StepOp) (s : State) :
    KeepsForm s.mem.dram (dispatchStep p q ops s).mem.dram ∧ KeepsForm s.fab.scratch (dispatchStep p q ops s).fab.scratch := by
  unfold dispatchStep
  split
  case isTrue => exact ⟨keepsForm_of fun h => by simp [h], keepsForm_of fun h => by simp [h]⟩
  case isFalse =>
    dsimp only
    split
    case isTrue => exact ⟨keepsForm_of fun h => by simp [h], keepsForm_of fun h => by simp [h]⟩
    case isFalse =>
      split
      case h_1 hu =>
        exact ⟨keepsForm_of fun h => by simp [headWork_keepsForm hu, h], keepsForm_of fun h => by simp [headWork_frame hu, h]⟩
      case h_2 => exact ⟨keepsForm_of fun h => by simp [h], keepsForm_of fun h => by simp [h]⟩

@[simp] theorem setPending_keepsForm (k i tok : Nat) (s : State) :
    KeepsForm s.mem.dram (setPending k i tok s).mem.dram := by
  unfold setPending
  dsimp only
  repeat' split
  all_goals exact keepsForm_of fun h => by simp [h]

@[simp] theorem applyVerify_keepsForm (i a : Nat) (toks : List Nat) (s : State) :
    KeepsForm s.mem.dram (applyVerify i a toks s).mem.dram := by
  unfold applyVerify
  dsimp only
  repeat' split
  all_goals exact keepsForm_of fun h => by simp [h]

@[simp] theorem takeTokens_keepsForm (k i a : Nat) (verify : Bool) (toks : List (Nat × Word)) (s : State) :
    KeepsForm s.mem.dram (takeTokens k i a verify toks s).mem.dram := by
  unfold takeTokens
  dsimp only
  repeat' split
  all_goals exact keepsForm_of fun h => by simp [h]

@[simp] theorem requestWork_keepsForm (p kind k it : Nat) (w : WorkKind) (res : StepRes) (s : State) :
    KeepsForm s.mem.dram (requestWork p kind k it w res s).mem.dram := by
  unfold requestWork
  dsimp only
  repeat' split
  all_goals exact keepsForm_of fun h => by simp [h]

@[simp] theorem boundaryWork_keepsForm (p kind it : Nat) (w : Nat × WorkKind) (res : StepRes) (s : State) :
    KeepsForm s.mem.dram (boundaryWork p kind it w res s).mem.dram := by
  unfold boundaryWork
  repeat' split
  all_goals exact keepsForm_of fun h => by simp [h]

@[simp] theorem abortStep_keepsForm (p : Nat) (r : Running) (s : State) :
    KeepsForm s.mem.dram (abortStep p r s).mem.dram ∧ KeepsForm s.fab.scratch (abortStep p r s).fab.scratch :=
  ⟨keepsForm_of fun h => by simp [abortStep, h], keepsForm_of fun h => by simp [abortStep, h]⟩

@[simp] theorem serveStep_keepsForm (p : Nat) (r : Running) (res : List StepRes) (s : State) :
    KeepsForm s.mem.dram (serveStep p r res s).mem.dram :=
  keepsForm_of fun h => by simp [serveStep, h]

@[simp] theorem endStep_keepsForm (p : Nat) (r : Running) (res : List StepRes) (s : State) :
    KeepsForm s.mem.dram (endStep p r res s).mem.dram ∧ KeepsForm s.fab.scratch (endStep p r res s).fab.scratch :=
  ⟨keepsForm_of fun h => by simp [endStep, h], keepsForm_of fun h => by simp [endStep, h]⟩

/-! ## Jobs -/

@[simp] theorem finishAdmit_keepsForm (i : Nat) (s : State) : KeepsForm s.mem.dram (finishAdmit i s).mem.dram :=
  keepsForm_of fun h => by simp [finishAdmit, h]

@[simp] theorem startAdmit_keepsForm (h : Hdr) (r : Reservation) (kv : Option KvGeom) (i : Nat) (s : State) :
    KeepsForm s.mem.dram (startAdmit h r kv i s).mem.dram :=
  keepsForm_of fun h => by simp [startAdmit, h]

@[simp] theorem teardownBy_keepsForm (i : Nat) (c : Cmd) (s : State) :
    KeepsForm s.mem.dram (teardownBy i c s).mem.dram ∧ KeepsForm s.fab.scratch (teardownBy i c s).fab.scratch :=
  ⟨keepsForm_of fun h => by simp [teardownBy, h], keepsForm_of fun h => by simp [teardownBy, h]⟩

/-! ## Plates -/

@[simp] theorem replacePlate_keepsForm (op i p : Nat) (s : State) : KeepsForm s.fab.scratch (replacePlate op i p s).fab.scratch :=
  keepsForm_of fun h => by simp [replacePlate, h]

/-! ## Dovetail -/

@[simp] theorem poisonTransfer_keepsForm (n : Nat) (x : Xfer) (s : State) :
    KeepsForm s.fab.scratch (poisonTransfer n x s).fab.scratch := by
  unfold poisonTransfer
  dsimp only
  repeat' split
  all_goals exact keepsForm_of fun h => by simp [h]

@[simp] theorem takeTransfer_keepsForm (n : Nat) (x : Xfer) (s : State) :
    KeepsForm s.fab.scratch (takeTransfer n x s).fab.scratch := by
  unfold takeTransfer
  repeat' split
  all_goals exact keepsForm_of fun h => by simp [h]

@[simp] theorem failLane_keepsForm (n port m : Nat) (control loopHere loopThere fwdHere fwdThere : Bool) (s : State) :
    KeepsForm s.mem.dram (failLane n port m control loopHere loopThere fwdHere fwdThere s).mem.dram ∧ KeepsForm s.fab.scratch (failLane
      n port m control loopHere loopThere fwdHere fwdThere s).fab.scratch :=
  ⟨keepsForm_of fun h => by simp [failLane, h], keepsForm_of fun h => by simp [failLane, h]⟩

@[simp] theorem sweepLane_keepsForm (n key : Nat) (w : LaneSweep) (s : State) :
    KeepsForm s.mem.dram (sweepLane n key w s).mem.dram ∧ KeepsForm s.fab.scratch (sweepLane n key w s).fab.scratch := by
  unfold sweepLane
  repeat' split
  all_goals exact ⟨keepsForm_of fun h => by simp [h], keepsForm_of fun h => by simp [h]⟩

@[simp] theorem bringUp_keepsForm (n : Nat) (sweeps : List LaneSweep) (s : State) :
    KeepsForm s.mem.dram (bringUp n sweeps s).mem.dram ∧ KeepsForm s.fab.scratch (bringUp n sweeps s).fab.scratch :=
  ⟨keepsForm_of fun h => by simp [bringUp, h], keepsForm_of fun h => by simp [bringUp, h]⟩

/-! ## Models and installs -/

@[simp] theorem freeArea_keepsForm (mc : Nat) (s : State) :
    KeepsForm s.mem.dram (freeArea mc s).mem.dram := by
  unfold freeArea
  repeat' split
  all_goals exact keepsForm_of fun h => by simp [h]

@[simp] theorem abortInstall_keepsForm (mc : Nat) (st : Status) (s : State) :
    KeepsForm s.mem.dram (abortInstall mc st s).mem.dram :=
  keepsForm_of fun h => by simp [abortInstall, h]

@[simp] theorem abortAll_keepsForm (mc : Nat) (st : Status) (s : State) : KeepsForm s.mem.dram (abortAll mc st s).mem.dram :=
  keepsForm_of fun h => by simp [abortAll, h]

@[simp] theorem voteNo_keepsForm (mc : Nat) (st : Status) (s : State) : KeepsForm s.mem.dram (voteNo mc st s).mem.dram :=
  keepsForm_of fun h => by simp [voteNo, h]

@[simp] theorem copySpan_keepsForm (a b n : Nat) (s : State) : KeepsForm s.mem.dram (copySpan a b n s).mem.dram :=
  keepsForm_of (wf_copySpan a b n s)

@[simp] theorem fillSlots_keepsForm (base : Nat) (m : Manifest) (s : State) : KeepsForm s.mem.dram (fillSlots base m s).mem.dram :=
  forEach_dram_kept _ s fun e s h => by
    rw [forEach_dram_kept _ s fun w s h => by dsimp only; split <;> simp [h]]
    simp [h]

@[simp] theorem tryVote_keepsForm (mc : Nat) (s : State) :
    KeepsForm s.mem.dram (tryVote mc s).mem.dram := by
  unfold tryVote
  dsimp only
  repeat' split
  all_goals exact keepsForm_of fun h => by simp [h]

@[simp] theorem tally_keepsForm (mc : Nat) (s : State) :
    KeepsForm s.mem.dram (tally mc s).mem.dram := by
  unfold tally
  dsimp only
  repeat' split
  all_goals exact keepsForm_of fun h => by simp [h]

@[simp] theorem makeRun_keepsForm (mc n : Nat) (n' : Nat) (s : State) :
    KeepsForm s.mem.dram (makeRun mc n n' s).mem.dram := by
  induction n' generalizing mc n s with
  | zero => exact keepsForm_refl _
  | succ n ih =>
    unfold makeRun
    repeat' split
    all_goals exact keepsForm_of fun h => by simp [ih, h]

@[simp] theorem setModes_keepsForm (base : Nat) (m : Manifest) (s : State) : KeepsForm s.mem.dram (setModes base m s).mem.dram :=
  forEach_dram_kept _ s fun x s h => by split <;> simp [h]

@[simp] theorem takeArea_keepsForm (mc : Nat) (s : State) :
    KeepsForm s.mem.dram (takeArea mc s).mem.dram := by
  unfold takeArea
  dsimp only
  repeat' split
  all_goals exact keepsForm_of fun h => by simp [h]

@[simp] theorem writeShard_keepsForm (a lmode : Nat) (data : List Byte) (s : State) :
    KeepsForm s.mem.dram (writeShard a lmode data s).mem.dram :=
  keepsForm_of fun h => by simp [writeShard, h]

@[simp] theorem shardAttempt_keepsForm (mc idx : Nat) (data : Option (List Byte)) (s : State) :
    KeepsForm s.mem.dram (shardAttempt mc idx data s).mem.dram := by
  unfold shardAttempt
  dsimp only
  repeat' split
  all_goals exact keepsForm_of fun h => by simp [h]

@[simp] theorem tryFree_keepsForm (mc n : Nat) (s : State) :
    KeepsForm s.mem.dram (tryFree mc n s).mem.dram := by
  unfold tryFree
  dsimp only
  repeat' split
  all_goals exact keepsForm_of fun h => by simp [h]

@[simp] theorem noteDrained_keepsForm (mc n src : Nat) (s : State) : KeepsForm s.mem.dram (noteDrained mc n src s).mem.dram :=
  keepsForm_of fun h => by simp [noteDrained, h]

@[simp] theorem reportDrain_keepsForm (mc n : Nat) (s : State) :
    KeepsForm s.mem.dram (reportDrain mc n s).mem.dram := by
  unfold reportDrain
  dsimp only
  repeat' split
  all_goals exact keepsForm_of fun h => by simp [h]

@[simp] theorem coordLost_keepsForm (mc : Nat) (anyReleased : Bool) (s : State) :
    KeepsForm s.mem.dram (coordLost mc anyReleased s).mem.dram :=
  keepsForm_of fun h => by simp [coordLost, h]

/-! ## Background work -/

@[simp] theorem fenceWorn_keepsForm (fwd : List Nat) (s : State) :
    KeepsForm s.mem.dram (fenceWorn fwd s).mem.dram ∧ KeepsForm s.fab.scratch (fenceWorn fwd s).fab.scratch :=
  ⟨forEach_dram_kept _ s fun n s h => by split <;> simp [h], forEach_scratch_kept _ s fun n s h => by split <;> simp [h]⟩

@[simp] theorem predict_keepsForm (x : PatinaSample) (fwd : List Nat) (s : State) :
    KeepsForm s.mem.dram (predict x fwd s).mem.dram ∧ KeepsForm s.fab.scratch (predict x fwd s).fab.scratch :=
  ⟨keepsForm_of fun h => by simp [predict, h], keepsForm_of fun h => by simp [predict, h]⟩

/-! ## Contexts -/

@[simp] theorem abortReqs_keepsForm (c : Nat) (s : State) : KeepsForm s.mem.dram (abortReqs c s).mem.dram :=
  forEach_dram_kept _ s fun k s h => by split <;> simp [h]

@[simp] theorem resetCtx_keepsForm (c : Nat) (s : State) : KeepsForm s.mem.dram (resetCtx c s).mem.dram :=
  keepsForm_of fun h => by simp [resetCtx, h]

@[simp] theorem reqBufferFails_keepsForm (k : Nat) (s : State) :
    KeepsForm s.mem.dram (reqBufferFails k s).mem.dram := by
  unfold reqBufferFails
  repeat' split
  all_goals exact keepsForm_of fun h => by simp [h]

@[simp] theorem shardFails_keepsForm (mc shard : Nat) (s : State) : KeepsForm s.mem.dram (shardFails mc shard s).mem.dram :=
  keepsForm_of fun h => by simp [shardFails, h]

/-! ## Sirdoyx and the TAP -/

@[simp] theorem mboxEnd_keepsForm (n : Nat) (st : Status) (out : List Byte) (s : State) :
    KeepsForm s.sec.mboxBuf (mboxEnd n st out s).sec.mboxBuf :=
  keepsForm_of fun h => by simp [mboxEnd, h]

@[simp] theorem mailbox_keepsForm {f : State → Status × List Byte × State}
    (hf : ∀ s, KeepsForm s.sec.mboxBuf (f s).2.2.sec.mboxBuf) (t n : Nat) (s : State) :
    KeepsForm s.sec.mboxBuf (mailbox t n f s).sec.mboxBuf := by
  unfold mailbox
  dsimp only
  (repeat' split)
  all_goals exact keepsForm_of fun h => by simp [hf, h]

@[simp] theorem zeroMemory_keepsForm (s : State) : KeepsForm s.mem.dram (zeroMemory s).mem.dram := keepsForm_of fun _ => wf_zeroMemory s

@[simp] theorem tapAccess_keepsForm (op : TapOp) (s : State) :
    KeepsForm s.mem.dram (tapAccess op s).mem.dram ∧ KeepsForm s.fab.scratch (tapAccess op s).fab.scratch := by
  unfold tapAccess
  dsimp only
  repeat' split
  all_goals exact ⟨keepsForm_of fun h => by simp [h], keepsForm_of fun h => by simp [h]⟩

@[simp] theorem tapRun_keepsForm (op : TapOp) (s : State) :
    KeepsForm s.mem.dram (tapRun op s).mem.dram ∧ KeepsForm s.fab.scratch (tapRun op s).fab.scratch := by
  unfold tapRun
  dsimp only
  repeat' split
  all_goals exact ⟨keepsForm_of fun h => by simp [h], keepsForm_of fun h => by simp [h]⟩

/-! ## Long operations that go on -/

@[simp] theorem cancelOp_keepsForm (n : Nat) (s : State) :
    KeepsForm s.mem.dram (cancelOp n s).mem.dram ∧ KeepsForm s.fab.scratch (cancelOp n s).fab.scratch := by
  unfold cancelOp
  repeat' split
  all_goals exact ⟨keepsForm_of fun h => by simp [h], keepsForm_of fun h => by simp [h]⟩

@[simp] theorem kickOp_keepsForm (n : Nat) (s : State) :
    KeepsForm s.mem.dram (kickOp n s).mem.dram := by
  unfold kickOp
  repeat' split
  all_goals exact keepsForm_of fun h => by simp [h]

@[simp] theorem kickAll_keepsForm (s : State) : KeepsForm s.mem.dram (kickAll s).mem.dram :=
  keepsForm_of fun h => by simp [kickAll, h]

@[simp] theorem failUnit_keepsForm (u : FailedUnit) (s : State) :
    KeepsForm s.mem.dram (failUnit u s).mem.dram ∧ KeepsForm s.fab.scratch (failUnit u s).fab.scratch := by
  unfold failUnit
  dsimp only
  repeat' split
  all_goals exact ⟨keepsForm_of fun h => by simp [h], keepsForm_of fun h => by simp [h]⟩

@[simp] theorem erasePart_keepsForm (p : Nat) (s : State) : KeepsForm s.mem.dram (erasePart p s).mem.dram :=
  keepsForm_of fun h => by simp [erasePart, h]

/-! ## Resets -/

@[simp] theorem flrCtx_keepsForm (c : Nat) (s : State) :
    KeepsForm s.mem.dram (flrCtx c s).mem.dram ∧ KeepsForm s.fab.scratch (flrCtx c s).fab.scratch := by
  unfold flrCtx
  refine ⟨keepsForm_of fun h => ?_, keepsForm_of fun h => ?_⟩
  all_goals
    simp (disch := first | (intros; simp; done) | (intro x s; refine keepsForm_of fun h => ?_; (repeat' split) <;> simp [h])) [h]

@[simp] theorem resolveInstall_keepsForm (mc : Nat) (s : State) : KeepsForm s.mem.dram (resolveInstall mc s).mem.dram :=
  keepsForm_of fun h => by simp [resolveInstall, h]

@[simp] theorem resolveOp_keepsForm (n : Nat) (s : State) :
    KeepsForm s.mem.dram (resolveOp n s).mem.dram := by
  unfold resolveOp
  repeat' split
  all_goals exact keepsForm_of fun h => by simp [h]

@[simp] theorem resolveOps_keepsForm (s : State) : KeepsForm s.mem.dram (resolveOps s).mem.dram :=
  keepsForm_of fun h => by simp [resolveOps, h]

@[simp] theorem setupReset_keepsForm (hi : HostIf) (s : State) : KeepsForm s.mem.dram (setupReset hi s).mem.dram ∧
    KeepsForm s.fab.scratch (setupReset hi s).fab.scratch ∧ KeepsForm s.sec.mboxBuf (setupReset hi s).sec.mboxBuf :=
  ⟨keepsForm_of fun h => by simp [setupReset, h], keepsForm_of fun _ => rfl, keepsForm_of fun _ => rfl⟩

@[simp] theorem bigReset_keepsForm (lastType : Nat) (fatal : Bool) (s : State) :
    KeepsForm s.mem.dram (bigReset lastType fatal s).mem.dram ∧ KeepsForm s.fab.scratch (bigReset lastType fatal s).fab.scratch ∧
      KeepsForm s.sec.mboxBuf (bigReset lastType fatal s).sec.mboxBuf :=
  ⟨keepsForm_of fun h => by simp [bigReset, h], keepsForm_of fun h => by simp [bigReset, h], keepsForm_of fun h => by simp [bigReset,
    h]⟩

@[simp] theorem wipeTenants_keepsForm (s : State) : KeepsForm s.mem.dram (wipeTenants s).mem.dram :=
  forEach_dram_kept _ s fun p s h => by split <;> simp [h]

@[simp] theorem warmReset_keepsForm (straps : Nat) (s : State) : KeepsForm s.mem.dram (warmReset straps s).mem.dram ∧
    KeepsForm s.fab.scratch (warmReset straps s).fab.scratch ∧ KeepsForm s.sec.mboxBuf (warmReset straps s).sec.mboxBuf :=
  ⟨keepsForm_of fun h => by simp [warmReset, h], keepsForm_of fun h => by simp [warmReset, h], keepsForm_of fun _ => by simp [warmReset]⟩

@[simp] theorem afterPowerLoss_keepsForm (keepCoffer : Bool) (s : State) : KeepsForm s.mem.dram (afterPowerLoss keepCoffer s).mem.dram ∧
    KeepsForm s.fab.scratch (afterPowerLoss keepCoffer s).fab.scratch ∧
    KeepsForm s.sec.mboxBuf (afterPowerLoss keepCoffer s).sec.mboxBuf :=
  ⟨keepsForm_of fun _ => rfl, keepsForm_of fun _ => rfl, keepsForm_of fun _ => rfl⟩

@[simp] theorem coldBoot_keepsForm (fromOff : Bool) (straps : Nat) (s : State) :
    KeepsForm s.mem.dram (coldBoot fromOff straps s).mem.dram ∧ KeepsForm s.fab.scratch (coldBoot fromOff straps s).fab.scratch ∧
      KeepsForm s.sec.mboxBuf (coldBoot fromOff straps s).sec.mboxBuf :=
  ⟨keepsForm_of fun h => by simp [coldBoot, h], keepsForm_of fun h => by simp [coldBoot, h], keepsForm_of fun h => by simp [coldBoot,
    h]⟩

/-! ## Power -/

@[simp] theorem writeCap_keepsForm (v : Word) (s : State) : KeepsForm s.mem.dram (writeCap v s).mem.dram :=
  keepsForm_of fun h => by simp [writeCap, h]

@[simp] theorem setFloor_keepsForm (w : Nat) (s : State) : KeepsForm s.mem.dram (setFloor w s).mem.dram :=
  keepsForm_of fun h => by simp [setFloor, h]

@[simp] theorem writeFloor_keepsForm (v : Word) (s : State) : KeepsForm s.mem.dram (writeFloor v s).mem.dram := by
  simp only [writeFloor, lockedWrite]
  repeat' split
  all_goals simp

@[simp] theorem writePhase_keepsForm (v : Word) (s : State) : KeepsForm s.mem.dram (writePhase v s).mem.dram :=
  keepsForm_of fun h => by simp [writePhase, h]

@[simp] theorem writeOp_keepsForm (n : Nat) (v : Word) (s : State) :
    KeepsForm s.mem.dram (writeOp n v s).mem.dram := by
  unfold writeOp
  dsimp only
  repeat' split
  all_goals exact keepsForm_of fun h => by simp [h]

@[simp] theorem wake_keepsForm (s : State) :
    KeepsForm s.mem.dram (wake s).mem.dram ∧ KeepsForm s.fab.scratch (wake s).fab.scratch ∧ KeepsForm s.sec.mboxBuf (wake s).sec.mboxBuf :=
  ⟨keepsForm_of fun h => by simp [wake, h], keepsForm_of fun h => by simp [wake, h], keepsForm_of fun h => by simp [wake, h]⟩

@[simp] theorem requestRun_keepsForm (s : State) : KeepsForm s.mem.dram (requestRun s).mem.dram :=
  keepsForm_of fun h => by simp [requestRun, h]

@[simp] theorem requestOf_keepsForm (req : Nat) (s : State) : KeepsForm s.mem.dram (requestOf req s).mem.dram :=
  keepsForm_of fun h => by simp [requestOf, h]

@[simp] theorem writeReq_keepsForm (req : Nat) (s : State) : KeepsForm s.mem.dram (writeReq req s).mem.dram :=
  keepsForm_of fun h => by simp [writeReq, h]

@[simp] theorem downPort_keepsForm (n : Nat) (s : State) : KeepsForm s.mem.dram (downPort n s).mem.dram :=
  keepsForm_of fun h => by simp [downPort, h]

@[simp] theorem portsDown_keepsForm (s : State) : KeepsForm s.mem.dram (portsDown s).mem.dram :=
  keepsForm_of fun h => by simp [portsDown, h]

@[simp] theorem enterDeep_keepsForm (s : State) :
    KeepsForm s.mem.dram (enterDeep s).mem.dram ∧ KeepsForm s.fab.scratch (enterDeep s).fab.scratch ∧ KeepsForm s.sec.mboxBuf (enterDeep
      s).sec.mboxBuf :=
  ⟨keepsForm_of fun h => by simp [enterDeep, h], keepsForm_of fun h => by simp [enterDeep, h], keepsForm_of fun h => by simp
    [enterDeep, h]⟩

@[simp] theorem leaveLow_keepsForm (s : State) : KeepsForm s.mem.dram (leaveLow s).mem.dram :=
  keepsForm_of fun h => by simp [leaveLow, h]

/-! ## Registers -/

@[simp] theorem setupWrite_keepsForm (ctx rel : Nat) (v : Word) (s : State) :
    KeepsForm s.mem.dram (setupWrite ctx rel v s).mem.dram :=
  keepsForm_of fun h => by simp [setupWrite, h]

@[simp] theorem writeHi_keepsForm (rel : Nat) (v : Word) (s : State) :
    KeepsForm s.mem.dram (writeHi rel v s).mem.dram ∧ KeepsForm s.fab.scratch (writeHi rel v s).fab.scratch ∧ KeepsForm s.sec.mboxBuf
      (writeHi rel v s).sec.mboxBuf :=
  ⟨keepsForm_of fun h => by simp [writeHi, h], keepsForm_of fun h => by simp [writeHi, h], keepsForm_of fun h => by simp [writeHi, h]⟩

@[simp] theorem writeXn_keepsForm (rel : Nat) (v : Word) (s : State) : KeepsForm s.mem.dram (writeXn rel v s).mem.dram :=
  keepsForm_of fun h => by simp [writeXn, h]

@[simp] theorem writeStateReq_keepsForm (v : Word) (s : State) : KeepsForm s.mem.dram (writeStateReq v s).mem.dram :=
  keepsForm_of fun h => by simp [writeStateReq, h]

@[simp] theorem writePw_keepsForm (rel : Nat) (v : Word) (s : State) : KeepsForm s.mem.dram (writePw rel v s).mem.dram :=
  keepsForm_of fun h => by simp [writePw, h]

@[simp] theorem writeMboxCmd_keepsForm (v : Word) (s : State) : KeepsForm s.sec.mboxBuf (writeMboxCmd v s).sec.mboxBuf :=
  keepsForm_of fun h => by simp [writeMboxCmd, h]

@[simp] theorem writeSy_keepsForm (rel : Nat) (v : Word) (s : State) : KeepsForm s.sec.mboxBuf (writeSy rel v s).sec.mboxBuf :=
  keepsForm_of fun h => by simp [writeSy, h]

@[simp] theorem pfWrite_keepsForm (off : Nat) (v : Word) (s : State) :
    KeepsForm s.mem.dram (pfWrite off v s).mem.dram ∧ KeepsForm s.fab.scratch (pfWrite off v s).fab.scratch ∧ KeepsForm s.sec.mboxBuf
      (pfWrite off v s).sec.mboxBuf :=
  ⟨keepsForm_of fun h => by simp [pfWrite, h], keepsForm_of fun h => by simp [pfWrite, h], keepsForm_of fun h => by simp [pfWrite, h]⟩

@[simp] theorem write32_keepsForm (f : Func) (off : Nat) (v : Word) (s : State) :
    KeepsForm s.mem.dram (write32 f off v s).mem.dram ∧ KeepsForm s.fab.scratch (write32 f off v s).fab.scratch ∧ KeepsForm
      s.sec.mboxBuf (write32 f off v s).sec.mboxBuf := by
  unfold write32
  repeat' split
  all_goals exact ⟨keepsForm_of fun h => by simp [h], keepsForm_of fun h => by simp [h], keepsForm_of fun h => by simp [h]⟩

@[simp] theorem accessWrite_keepsForm (f : Func) (off n : Nat) (v : Dword) (s : State) :
    KeepsForm s.mem.dram (accessWrite f off n v s).mem.dram ∧ KeepsForm s.fab.scratch (accessWrite f off n v s).fab.scratch ∧ KeepsForm
      s.sec.mboxBuf (accessWrite f off n v s).sec.mboxBuf :=
  ⟨keepsForm_of fun h => by simp [accessWrite, h], keepsForm_of fun h => by simp [accessWrite, h], keepsForm_of fun h => by simp
    [accessWrite, h]⟩

@[simp] theorem bar2Store_keepsForm (off : Nat) (l : List Byte) (s : State) : KeepsForm s.mem.dram (bar2Store off l s).mem.dram :=
  keepsForm_of (wf_bar2Store l off s)

end Sys2Proof.Machine
end

section
/-! SUPPORT. The proof of O48: every command keeps the memories in their canonical form. -/
set_option Elab.async false
namespace Sys2Proof.Machine

/-! ## How a command is carried out -/

theorem memOk_iff {s : State} : s.memOk = true ↔
    Memory.wf s.mem.dram = true ∧ Memory.wf s.fab.scratch = true ∧ Memory.wf s.sec.mboxBuf = true := by
  simp [State.memOk, and_assoc]

@[simp] theorem once_keepsForm {f : State → State} (hf : ∀ s, KeepsForm s.mem.dram (f s).mem.dram) (p : Pkt) (s : State) :
    KeepsForm s.mem.dram (once p f s).mem.dram := by
  unfold once
  (repeat' split)
  all_goals simp [hf]

/-- A fetch keeps the memories (R284). -/
theorem fetched_memory {t : Nat} {h : Hdr} {s u : State} (hu : fetched t h s = some u) :
    u.mem = s.mem ∧ u.fab = s.fab ∧ u.sec = s.sec := by simp [fetched_frame hu]

section
variable {f : State → State} (hf : ∀ s, s.memOk = true → (f s).memOk = true)
include hf

theorem memOk_command (t : Nat) (h : Hdr) {s : State} (hs : s.memOk = true) : (command t h f s).memOk = true := by
  unfold command
  split
  case h_1 => simpa [State.memOk] using hs
  case h_2 u hu =>
    have hbegun : (f (releaseRoom h.ctx (compRing h.ring) 1 u)).memOk = true := hf _ (by simpa [State.memOk, fetched_memory hu] using hs)
    simpa [State.memOk] using hbegun

theorem memOk_command2 (t : Nat) (h : Hdr) {s : State} (hs : s.memOk = true) : (command2 t h f s).memOk = true := by
  unfold command2
  split
  case h_1 => simpa [State.memOk] using hs
  case h_2 u hu =>
    have hbegun : (f u).memOk = true := hf u (by simpa [State.memOk, fetched_memory hu] using hs)
    simpa [State.memOk] using hbegun

theorem memOk_arrive (ty : ExuType) (r : ExuRec) {s : State} (hs : s.memOk = true) : (arrive ty r f s).memOk = true := by
  have honward : ∀ u, u.memOk = true → (onward ty r f u).memOk = true := fun u hu => by
    unfold onward
    split
    case isTrue => exact hf u hu
    case isFalse => split <;> simp_all [State.memOk]
  rw [arrive_eq]
  split
  case isTrue => exact honward s hs
  case isFalse =>
    cases mget s.xn.executed (execKey (legPkt ty r) r.fseq) with
    | none => exact honward _ (by simpa [State.memOk] using hs)
    | some a =>
      dsimp only [Option.elim]
      split
      · simpa [State.memOk] using hs
      · exact honward _ (by simpa [State.memOk] using hs)

theorem memOk_regWrite (t : Nat) {s : State} (hs : s.memOk = true) : (regWrite t f s).memOk = true := by
  unfold regWrite
  dsimp only
  split
  case isTrue => exact hf _ (by simpa [State.memOk] using hs)
  case isFalse => simpa [State.memOk] using hs

end

theorem memOk_forEach {α : Type} {g : α → State → State} (hg : ∀ x s, s.memOk = true → (g x s).memOk = true) (l : List α) {s : State}
    (hs : s.memOk = true) : (forEach g l s).memOk = true := by
  induction l generalizing s with
  | nil => exact hs
  | cons x l ih => exact ih (hg x s hs)

theorem memOk_controlOp {f : Nat → State → State} (hf : ∀ n s, s.memOk = true → (f n s).memOk = true) (t : Nat) (h : Hdr) (op : Nat)
    (refuse : State → LongOp → Bool) {s : State} (hs : s.memOk = true) : (controlOp t h op refuse f s).memOk = true := by
  refine memOk_command (fun s hs => ?_) t h hs
  split
  case h_1 => simpa [State.memOk] using hs
  case h_2 => simpa [State.memOk] using hf _ s hs

theorem memOk_mailbox {f : State → Status × List Byte × State} (hf : ∀ s, s.memOk = true → (f s).2.2.memOk = true) (t n : Nat)
    {s : State} (hs : s.memOk = true) : (mailbox t n f s).memOk = true := by
  have htick : (tick t s).memOk = true := by simpa [State.memOk] using hs
  have hrun := hf _ htick
  unfold mailbox
  dsimp only
  repeat' split
  all_goals simp_all [State.memOk]

/-- Command c answers a state whose memories have their canonical form, from every state whose memories have it. -/
def KeepsMemory (c : Instr) : Prop := ∀ s : State, s.memOk = true → Answers c s (fun u => u.memOk = true)

theorem memOk_hostColl (t : Nat) (h : Hdr) (opcode : Nat) (b : CollBody) {s : State} (hs : s.memOk = true) :
    (hostColl t h opcode b s).memOk = true := by
  refine memOk_command (fun s hs => ?_) t h hs
  dsimp only
  (repeat' split) <;> simp_all [State.memOk]

/-! ## Commands whose change over a list has branches of its own -/

theorem thermalModelUpdate_keepsMemory (t : Nat) (fits : List ThermFit) (sensors : List Nat) :
    KeepsMemory (.thermalModelUpdate t fits sensors) := by
  intro s h
  obtain ⟨hd, hs, hb⟩ := memOk_iff.1 h
  refine ⟨_, rfl, ?_⟩
  simp (disch := first | (intro f s; split <;> simp; done) | assumption) [State.memOk, hd, hs, hb]

theorem vfEnableClear_keepsMemory (t link : Nat) : KeepsMemory (.vfEnableClear t link) := by
  intro s h
  obtain ⟨hd, hs, hb⟩ := memOk_iff.1 h
  refine ⟨_, rfl, ?_⟩
  simp (disch := first | (intros; simp; done) | (intro x s; refine keepsForm_of fun h => ?_; (repeat' split) <;> simp [h]))
    [State.memOk, hd, hs, hb]

theorem coolantStop_keepsMemory (t : Nat) : KeepsMemory (.coolantStop t) := by
  intro s h
  obtain ⟨hd, hs, hb⟩ := memOk_iff.1 h
  refine ⟨_, rfl, ?_⟩
  simp (disch := first | (intros; simp; done) | (intro x s; refine keepsForm_of fun h => ?_; (repeat' split) <;> simp [h]))
    [State.memOk, hd, hs, hb]

theorem retire_keepsMemory (t nonce signer : Nat) (ok : Bool) : KeepsMemory (.retire t nonce signer ok) := by
  refine fun s h => ⟨_, rfl, memOk_mailbox (fun s h => ?_) _ _ h⟩
  obtain ⟨hd, hs, hb⟩ := memOk_iff.1 h
  unfold checked
  split
  case h_1 => exact h
  case h_2 =>
    simp (disch := first | (intros; simp; done) | (intro x s; refine keepsForm_of fun h => ?_; (repeat' split) <;> simp [h]))
      [State.memOk, hd, hs, hb]

theorem hostReadError_keepsMemory (t : Nat) (w : HostReadWhat) : KeepsMemory (.hostReadError t w) := by
  intro s h
  cases w with
  | cmdBuffer d => exact ⟨_, rfl, memOk_command (fun s h => by simpa [State.memOk] using h) _ _ (by simpa [State.memOk] using h)⟩
  | _ =>
    obtain ⟨hd, hs, hb⟩ := memOk_iff.1 h
    exact ⟨_, rfl, by simp [State.memOk, hd, hs, hb]⟩

/-! ## Every command -/

theorem keepsMemory_of_ofRing (c : Instr) (hc : ofRing c = true) : KeepsMemory c := by
  intro s h
  cases c with
  -- One record is owed: the checks, then the effect.
  | jobEnd | jobTeardown | modelCreate | modelDestroy | ctxCreate | ctxDestroy | partCreate | opQuery | reqCancel |
  collGroupDestroy | traceSetup | counterFilter | layerReport | tensorWatch | watchCancel =>
    refine ⟨_, rfl, memOk_command (fun s h => ?_) _ _ h⟩
    obtain ⟨hd, hs, hb⟩ := memOk_iff.1 h
    repeat' split
    all_goals simp [State.memOk, hd, hs, hb]
  -- The same, where the effect names intermediate states.
  | tileMove | embRowUpdate | embGenCommit | jobAdmit | plateUnload | tableReload | seqEnd | detokLoad | collGroupCreate =>
    refine ⟨_, rfl, memOk_command (fun s h => ?_) _ _ h⟩
    obtain ⟨hd, hs, hb⟩ := memOk_iff.1 h
    dsimp only
    repeat' split
    all_goals simp [State.memOk, hd, hs, hb]
  -- Two records may be owed.
  | plateLoad | selfTest | scrubPass | secureErase =>
    refine ⟨_, rfl, memOk_command2 (fun s h => ?_) _ _ h⟩
    obtain ⟨hd, hs, hb⟩ := memOk_iff.1 h
    repeat' split
    all_goals simp [State.memOk, hd, hs, hb]
  | generate | score | embedGather | kvMigrate | epochInstall | partResize | fwStage =>
    refine ⟨_, rfl, memOk_command2 (fun s h => ?_) _ _ h⟩
    obtain ⟨hd, hs, hb⟩ := memOk_iff.1 h
    dsimp only
    repeat' split
    all_goals simp [State.memOk, hd, hs, hb]
  | opSuspend | opResume | opCancel => exact ⟨_, rfl, memOk_controlOp (fun n s h => by simp_all [State.memOk]) _ _ _ _ h⟩
  | barrier | reduceSmall | allReduce | allGather | reduceScatter => exact ⟨_, rfl, memOk_hostColl _ _ _ _ h⟩
  | _ => cases hc

theorem keepsMemory_of_fromLink (c : Instr) (hc : fromLink c = true) : KeepsMemory c := by
  intro s h
  obtain ⟨hd, hs, hb⟩ := memOk_iff.1 h
  cases c with
  -- The next state is chosen by branches.
  | sequencePublication | claim | claimRelease | join | abandon | fault | collectiveChunk =>
    refine ⟨_, rfl, ?_⟩
    repeat' split
    all_goals simp [State.memOk, hd, hs, hb]
  -- The branches each answer by themselves.
  | flit | tag =>
    simp only [Answers, exec, execFlit, execTag]
    repeat' split
    all_goals exact ⟨_, rfl, by simp [State.memOk, hd, hs, hb]⟩
  | dispatch | close | exuReturn | gather | pooled | gone | update | commit | settle | done =>
    exact ⟨_, rfl, memOk_arrive (fun s h => by simp_all [State.memOk]) _ _ (by simpa [State.memOk] using h)⟩
  | invalidationAck | dropGrantRequest | kvDrop | prepared | no | installCommit | committedReply | release | releaseAck | abort |
  installQuery | epochDrained | read | write | atomic | resp | claimAnswer | resetNotice | switchStateReport | nak => exact ⟨_, rfl, by simp [State.memOk, hd, hs, hb]⟩
  | _ => cases hc

theorem keepsMemory_of_byAccess (c : Instr) (hc : byAccess c = true) : KeepsMemory c := by
  intro s h
  cases c with
  | provision | logRead =>
    refine ⟨_, rfl, memOk_mailbox (fun s h => ?_) _ _ h⟩
    split <;> simp_all [State.memOk]
  | ringSetupWrite =>
    refine ⟨_, rfl, memOk_regWrite (fun s h => ?_) _ h⟩
    split <;> simp_all [State.memOk]
  | requestRun | requestSleep | requestDeep | requestOff | pwCapWrite | pwFloorWrite | pwPhaseWrite | pwOpWrite =>
    exact ⟨_, rfl, memOk_regWrite (fun s h => by simp_all [State.memOk]) _ h⟩
  | portDisable =>
    refine ⟨_, rfl, ?_⟩
    split
    case isTrue => exact memOk_regWrite (fun s h => by simp_all [State.memOk]) _ h
    case isFalse => simpa [State.memOk] using h
  | retire => exact retire_keepsMemory _ _ _ _ s h
  | setCap | heartbeat | setState | advisoryAck | cofferSnapshot | cofferRelease | getVersion | getCapabilities |
  negotiateAlgorithms | getDigests | getCertificate | challenge | getMeasurements | keyExchange | finish | endSession | ideKm |
  getNonce | unlock | relock | deploy | keyAdd | keyRevoke | certWrite | tapInstruction | pfLevelWrite | setupLock |
  contextEnable | contextDisable | contextReset | hiDbCtrlWrite | pairLoWrite | pairHiWrite | pairLoRead |
  pairHiRead | misalignedAccess | registerWrite | fbSchedCtrlWrite | xnVcWeightWrite | mmCabHiRsvWrite | tdAddrOnlyWrite |
  advisoryClear | bar2Read | bar2Write =>
    obtain ⟨hd, hs, hb⟩ := memOk_iff.1 h
    exact ⟨_, rfl, by simp [State.memOk, hd, hs, hb]⟩
  | _ => cases hc

/-- The events and timers inside the block that answer by the branches of their definitions. -/
theorem keepsMemory (c : Instr) : KeepsMemory c := by
  intro s h
  obtain ⟨hd, hs, hb⟩ := memOk_iff.1 h
  cases c with
  | generate | score | embedGather | tileMove | embRowUpdate | embGenCommit | kvMigrate | jobAdmit | jobEnd | jobTeardown | plateLoad |
  plateUnload | tableReload | seqEnd | modelCreate | modelDestroy | epochInstall | detokLoad | ctxCreate | ctxDestroy | partCreate |
  partResize | selfTest | scrubPass | fwStage | secureErase | opSuspend | opResume | opCancel | opQuery | reqCancel | collGroupCreate |
  collGroupDestroy | barrier | reduceSmall | allReduce | allGather | reduceScatter | traceSetup | counterFilter | layerReport |
  tensorWatch | watchCancel => exact keepsMemory_of_ofRing _ rfl s h
  | invalidationAck | dropGrantRequest | kvDrop | sequencePublication | prepared | no | installCommit | committedReply | release |
  releaseAck | abort | installQuery | epochDrained | dispatch | close | exuReturn | gather | pooled | gone | update | commit | settle |
  done | read | write | atomic | resp | claim | claimAnswer | claimRelease | resetNotice | join | abandon | fault | collectiveChunk |
  switchStateReport | flit | nak | tag => exact keepsMemory_of_fromLink _ rfl s h
  | setCap | heartbeat | setState | advisoryAck | cofferSnapshot | cofferRelease | getVersion | getCapabilities |
  negotiateAlgorithms | getDigests | getCertificate | challenge | getMeasurements | keyExchange | finish | endSession | ideKm |
  getNonce | unlock | relock | deploy | keyAdd | keyRevoke | retire | certWrite | tapInstruction | pfLevelWrite | setupLock |
  contextEnable | contextDisable | ringSetupWrite | contextReset | hiDbCtrlWrite | pairLoWrite | pairHiWrite | pairLoRead |
  pairHiRead | misalignedAccess | registerWrite | requestRun | requestSleep | requestDeep | requestOff | pwCapWrite |
  pwFloorWrite | pwPhaseWrite | pwOpWrite | fbSchedCtrlWrite | xnVcWeightWrite | portDisable | mmCabHiRsvWrite |
  tdAddrOnlyWrite | advisoryClear | bar2Read | bar2Write | provision | logRead => exact keepsMemory_of_byAccess _ rfl s h
  | thermalModelUpdate => exact thermalModelUpdate_keepsMemory _ _ _ s h
  | vfEnableClear => exact vfEnableClear_keepsMemory _ _ s h
  | coolantStop => exact coolantStop_keepsMemory _ s h
  | hostReadError => exact hostReadError_keepsMemory _ _ s h
  | coordinatorUnreachable =>
    exact ⟨_, rfl, memOk_forEach (fun n s h => by simp_all [State.memOk]) _ (by simp [State.memOk, hd, hs, hb])⟩
  -- An event whose next state is chosen by branches.
  | stopBlockTimeout | prefixLookupDone | stepDispatch | stepBoundary | stepWatchdog | deadlineMarginTimer |
  dovetailRecalibration | plateLoadVerified | islandConfigAck | plateResident | lineCheckFail | frameRestored | restoreFailed |
  subchannelRetry | frameMigration | migrateCopyDone | areaAllocated | epochFree | remoteTimeout | summaryReadReturn |
  fetchaddComplete | doorbellBlockRead | hostWriteError | watchExpiry | stateEntry | idleEntry | quiesceMet | secureEraseDone |
  selfTestDone | scrubPassDone | fwStageDone =>
    refine ⟨_, rfl, ?_⟩
    repeat' split
    all_goals simp [State.memOk, hd, hs, hb]
  | stopBlockReturn | islandConfigTimeout | reloadVerified | manifestVerified =>
    refine ⟨_, rfl, ?_⟩
    dsimp only
    repeat' split
    all_goals simp [State.memOk, hd, hs, hb]
  -- An event whose branches each answer by themselves.
  | restoringReissue | remoteResend | fabricFaultResend | portTrainingDone | laneRetry =>
    simp only [Answers, exec, execRestoringReissue, execRemoteResend, execFabricFaultResend, execPortTrainingDone, execLaneRetry]
    repeat' split
    all_goals exact ⟨_, rfl, by simp [State.memOk, hd, hs, hb]⟩
  -- Every other one is one expression over operations that keep the form.
  | _ => exact ⟨_, rfl, by simp [State.memOk, hd, hs, hb]⟩

/-- Settles O48: an idle step changes nothing, another runs the command at the front. -/
theorem memoryStaysCanonical : Obligations.MemoryStaysCanonical := by
  intro s u hs hu
  cases hq : s.pending with
  | nil =>
    simp only [step, hq] at hu
    cases hu
    exact hs
  | cons c rest =>
    simp only [step, hq] at hu
    obtain ⟨v, hv, hok⟩ := keepsMemory c { s with pending := rest } hs
    cases hv.symm.trans hu
    exact hok

end Sys2Proof.Machine
end

section
/-! SUPPORT. The proofs of O49 and O52: the memories at reset, and the two rules of the arbitration weights. -/
set_option Elab.async false
namespace Sys2Proof.Machine

/-! ## The arbitration weights (R338) -/

/-- The fields of a word of XN_VC_WEIGHT. -/
theorem weightFields {a b c d e : Nat} (ha : a < 64) (hb : b < 64) (hc : c < 64) (hd : d < 64) (he : e < 64) :
    let v := (BitVec.ofNat 32 (a + 64 * b + 4096 * c + 262144 * d + 16777216 * e)).toNat
    bits v 5 0 = a ∧ bits v 11 6 = b ∧ bits v 17 12 = c ∧ bits v 23 18 = d ∧ bits v 29 24 = e := by
  simp only [bits, BitVec.toNat_ofNat]
  refine ⟨?_, ?_, ?_, ?_, ?_⟩ <;> norm_num <;> omega

/-- Weights that keep both rules are taken while the registers are not locked. -/
theorem writeVcWeight_takes {v : Word} {s : State} (hl : s.hi.lock = false)
    (hpos : [bits v.toNat 5 0, bits v.toNat 11 6, bits v.toNat 17 12, bits v.toNat 23 18, bits v.toNat 29 24].all (fun w => decide (1 ≤ w)) = true)
    (hsum : 70 * (bits v.toNat 5 0 + bits v.toNat 11 6 + bits v.toNat 17 12 + bits v.toNat 23 18 + bits v.toNat 29 24) ≤
      (bits v.toNat 5 0 + bits v.toNat 11 6) * 100) :
    writeVcWeight v s = { s with xn := { s.xn with
      w1 := bits v.toNat 5 0, w2 := bits v.toNat 11 6, w3 := bits v.toNat 17 12, w4 := bits v.toNat 23 18, w5 := bits v.toNat 29 24 } } := by
  simp only [writeVcWeight, lockedWrite, hpos, hsum, hl, decide_true, Bool.and_true, Bool.not_false, Bool.or_true, if_true]

/-- Weights that break a rule are refused, locked or not. -/
theorem writeVcWeight_refuses {v : Word} (s : State)
    (hbad : bits v.toNat 5 0 = 0 ∨ bits v.toNat 11 6 = 0 ∨ bits v.toNat 17 12 = 0 ∨ bits v.toNat 23 18 = 0 ∨ bits v.toNat 29 24 = 0 ∨
      100 * (bits v.toNat 5 0 + bits v.toNat 11 6) <
        70 * (bits v.toNat 5 0 + bits v.toNat 11 6 + bits v.toNat 17 12 + bits v.toNat 23 18 + bits v.toNat 29 24)) :
    writeVcWeight v s = { s with xn := { s.xn with cfgErr := true } } := by
  have hok : ([bits v.toNat 5 0, bits v.toNat 11 6, bits v.toNat 17 12, bits v.toNat 23 18, bits v.toNat 29 24].all (fun w => decide (1 ≤ w)) &&
      decide (70 * (bits v.toNat 5 0 + bits v.toNat 11 6 + bits v.toNat 17 12 + bits v.toNat 23 18 + bits v.toNat 29 24) ≤
        (bits v.toNat 5 0 + bits v.toNat 11 6) * 100)) = false := by
    simp only [List.all_cons, List.all_nil, Bool.and_true, Bool.and_eq_false_iff, decide_eq_false_iff_not]
    omega
  simp only [writeVcWeight, lockedWrite, hok, Bool.not_false, Bool.true_or, if_true, Bool.false_eq_true, if_false]

/-- Settles O52: the word's five fields are the weights, and the two rules decide which of the two writes it is. -/
theorem weightsFollowTheirRules : Obligations.WeightsFollowTheirRules := by
  unfold Obligations.WeightsFollowTheirRules
  refine ⟨fun t a b c d e s hl hr ha1 ha hb1 hb hc1 hc hd1 hd he1 he hsum => ?_, fun t a b c d e s hr ha hb hc hd he hbad => ?_⟩
  · obtain ⟨fa, fb, fc, fd, fe⟩ := weightFields ha hb hc hd he
    have hpos : [a, b, c, d, e].all (fun w => decide (1 ≤ w)) = true := by simp [ha1, hb1, hc1, hd1, he1]
    have htaken := writeVcWeight_takes (s := tick t s) hl (by rwa [fa, fb, fc, fd, fe]) (by rw [fa, fb, fc, fd, fe]; omega)
    rw [fa, fb, fc, fd, fe] at htaken
    exact congrArg Host.Outcome.next ((if_pos hr).trans htaken)
  · obtain ⟨fa, fb, fc, fd, fe⟩ := weightFields ha hb hc hd he
    exact congrArg Host.Outcome.next ((if_pos hr).trans (writeVcWeight_refuses _ (by rwa [fa, fb, fc, fd, fe])))

/-- Settles O49: nothing is listed at reset, and an empty list is canonical. -/
theorem memoryIsCanonicalAtReset : Obligations.MemoryIsCanonicalAtReset := by
  unfold Obligations.MemoryIsCanonicalAtReset
  have hdram : State.reset.mem.dram = [] := rfl
  have hscratch : State.reset.fab.scratch = [] := rfl
  have hmbox : State.reset.sec.mboxBuf = [] := rfl
  exact ⟨rfl, hdram, hscratch, hmbox⟩

end Sys2Proof.Machine
end

section
/-! SUPPORT. The proof of O39: what the commands of the fabric leave unchanged. -/
set_option Elab.async false
namespace Sys2Proof.Machine

/-! ## What the families of the fabric's commands may change -/

/-- The parts that a read of this chip's memory, or remote work sent again, may change. -/
def accessParts : List Piece := [.time, .ctxs, .xn, .td, .out]

/-- The parts that a flit, or a NAK of one, may change. -/
def linkParts : List Piece := [.time, .xn, .td, .out]

/-- The parts that a port which stops or is controlled may change, with what waited for its targets. -/
def portParts : List Piece := [.time, .hi, .ctxs, .mem, .srv, .mdl, .exu, .xn, .td, .out, .dram]

section
variable {s u : State}

theorem changesOnly_accessParts (h : u.pending = s.pending ∧ u.id = s.id ∧ u.hi = s.hi ∧ u.mem = s.mem ∧ u.fab = s.fab ∧ u.srv = s.srv ∧
    u.ops = s.ops ∧ u.mdl = s.mdl ∧ u.exu = s.exu ∧ u.coll = s.coll ∧ u.pw = s.pw ∧ u.sec = s.sec ∧ u.cof = s.cof ∧
    u.draws = s.draws) : changesOnly accessParts s u := by
  simp [changesOnly_iff, allPieces, agree, accessParts, h]

theorem changesOnly_linkParts (h : u.pending = s.pending ∧ u.id = s.id ∧ u.hi = s.hi ∧ u.ctxs = s.ctxs ∧ u.mem = s.mem ∧ u.fab = s.fab ∧
    u.srv = s.srv ∧ u.ops = s.ops ∧ u.mdl = s.mdl ∧ u.exu = s.exu ∧ u.coll = s.coll ∧ u.pw = s.pw ∧ u.sec = s.sec ∧ u.cof = s.cof ∧
    u.draws = s.draws) : changesOnly linkParts s u := by
  simp [changesOnly_iff, allPieces, agree, linkParts, h]

theorem changesOnly_portParts (h : u.pending = s.pending ∧ u.id = s.id ∧ u.fab = s.fab ∧ u.ops = s.ops ∧ u.coll = s.coll ∧
    u.pw = s.pw ∧ u.sec = s.sec ∧ u.cof = s.cof ∧ u.draws = s.draws ∧ u.hi.lock = s.hi.lock) : changesOnly portParts s u := by
  simp [changesOnly_iff, allPieces, agree, portParts, h]

end

/-! ## Remote reads, writes and atomics (R342, R346), and what is sent again (R347, R349, R351) -/

theorem touches_read (t : Nat) (p : Pkt) : Touches (.read t p) accessParts := by
  refine fun s => ⟨_, rfl, ?_⟩
  split
  all_goals exact changesOnly_accessParts (by simp)

/-- A WRITE may end a window, whose requests then go on (R342). -/
theorem touches_write (t : Nat) (p : Pkt) : Touches (.write t p) [.time, .ctxs, .mem, .srv, .xn, .td, .out, .dram] := by
  refine fun s => ⟨_, rfl, ?_⟩
  split
  all_goals simp [changesOnly_iff, allPieces, agree]

theorem touches_atomic (t : Nat) (p : Pkt) : Touches (.atomic t p) [.time, .ctxs, .mem, .xn, .td, .out, .dram] := by
  refine fun s => ⟨_, rfl, ?_⟩
  split
  all_goals simp [changesOnly_iff, allPieces, agree]

theorem touches_restoringReissue (t flow fseq : Nat) : Touches (.restoringReissue t flow fseq) accessParts := by
  intro s
  simp only [exec, execRestoringReissue]
  split
  all_goals exact ⟨_, rfl, changesOnly_accessParts (by simp)⟩

theorem touches_remoteResend (t flow fseq : Nat) : Touches (.remoteResend t flow fseq) accessParts := by
  intro s
  simp only [exec, execRemoteResend]
  repeat' split
  all_goals exact ⟨_, rfl, changesOnly_accessParts (by simp)⟩

theorem touches_fabricFaultResend (t index : Nat) : Touches (.fabricFaultResend t index) [.time, .out] := by
  intro s
  simp only [exec, execFabricFaultResend]
  split
  all_goals exact ⟨_, rfl, by simp [changesOnly_iff, allPieces, agree]⟩

theorem touches_fabricFaultAck (t eid index : Nat) : Touches (.fabricFaultAck t eid index) [.time, .xn] := by
  refine fun s => ⟨_, rfl, ?_⟩
  simp [changesOnly_iff, allPieces, agree]

/-- Each pair of a report changes the reachability table alone. -/
theorem touches_switchStateReport (t switch : Nat) (reach : List (Nat × Bool)) :
    Touches (.switchStateReport t switch reach) [.time, .xn] := by
  refine fun s => ⟨_, rfl, changesOnly_of_tick (t := t) (by decide) ?_⟩
  split
  · exact changesOnly_refl _ _
  · exact changesOnly_forEach (fun e s => by simp [changesOnly_iff, allPieces, agree]) _ _

/-- A chip about to reset ends the collectives of its groups, and then freezes the jobs that depend on it. -/
theorem touches_resetNotice (t src : Nat) :
    Touches (.resetNotice t src) [.time, .hi, .ctxs, .mem, .srv, .mdl, .exu, .coll, .xn, .td, .cof, .out, .dram] := by
  refine fun s => ⟨_, rfl, changesOnly_of_tick (by decide) (.trans (changesOnly_forEach (fun e s => ?_) _ _)
    (changesOnly_forEach (fun i s => ?_) _ _) (List.Subset.refl _))⟩
  · split
    all_goals simp [changesOnly_iff, allPieces, agree]
  · simp [changesOnly_iff, allPieces, agree]

/-! ## Flits, tags and ports (R334 to R338, R354, R355) -/

theorem touches_flit (t port : Nat) (f : FlitRec) : Touches (.flit t port f) linkParts := by
  intro s
  simp only [exec, execFlit]
  repeat' split
  all_goals exact ⟨_, rfl, changesOnly_linkParts (by simp)⟩

theorem touches_nak (t port ack : Nat) : Touches (.nak t port ack) linkParts := by
  refine fun s => ⟨_, rfl, ?_⟩
  split
  all_goals exact changesOnly_linkParts (by simp)

theorem touches_tag (t port : Nat) (ok : Bool) : Touches (.tag t port ok) recordParts := by
  intro s
  simp only [exec, execTag]
  repeat' split
  all_goals exact ⟨_, rfl, changesOnly_recordParts (by simp)⟩

theorem touches_replayRetrain (t port : Nat) : Touches (.replayRetrain t port) portParts := by
  refine fun s => ⟨_, rfl, ?_⟩
  repeat' split
  all_goals exact changesOnly_portParts (by simp)

theorem touches_fecLockLoss (t port : Nat) : Touches (.fecLockLoss t port) portParts := by
  refine fun s => ⟨_, rfl, ?_⟩
  repeat' split
  all_goals exact changesOnly_portParts (by simp)

theorem touches_portTrainingDone (t port : Nat) (failed : List Nat) (partner partnerPort : Nat) (encOk partnerEnc : Bool) :
    Touches (.portTrainingDone t port failed partner partnerPort encOk partnerEnc) recordParts := by
  intro s
  simp only [exec, execPortTrainingDone]
  repeat' split
  all_goals exact ⟨_, rfl, changesOnly_recordParts (by simp)⟩

theorem touches_laneRetry (t port : Nat) (passed : List Nat) : Touches (.laneRetry t port passed) portParts := by
  intro s
  simp only [exec, execLaneRetry]
  repeat' split
  all_goals exact ⟨_, rfl, changesOnly_portParts (by simp)⟩

theorem touches_linkRekey (t port : Nat) : Touches (.linkRekey t port) [.time, .xn] := by
  refine fun s => ⟨_, rfl, ?_⟩
  split
  all_goals simp [changesOnly_iff, allPieces, agree]

theorem touches_xnVcWeightWrite (t : Nat) (v : Word) : Touches (.xnVcWeightWrite t v) [.time, .hi, .xn] := by
  refine fun s => ⟨_, rfl, ?_⟩
  simp [changesOnly_iff, allPieces, agree, regWrite]

theorem touches_portDisable (t port : Nat) (v : Word) : Touches (.portDisable t port v) portParts := by
  refine fun s => ⟨_, rfl, ?_⟩
  split
  all_goals exact changesOnly_portParts (by simp [regWrite])

/-- Settles O39: each command by its branches, a list of chips or groups one after another. -/
theorem theFabricFrame : Obligations.TheFabricFrame :=
  ⟨touches_read, touches_write, touches_atomic, touches_restoringReissue, touches_remoteResend, touches_fabricFaultResend,
    touches_fabricFaultAck, touches_resetNotice, touches_switchStateReport, touches_flit, touches_nak, touches_tag,
    touches_replayRetrain, touches_fecLockLoss, touches_portTrainingDone, touches_laneRetry, touches_linkRekey, touches_xnVcWeightWrite,
    touches_portDisable⟩

end Sys2Proof.Machine
end

section
/-! SUPPORT. The proof of O57: each store stays in its span. -/
set_option Elab.async false
namespace Sys2Proof.Machine

/-! ## Stores within a span -/

/-- A memory in canonical form comes out of the change in canonical form, and no byte outside p is another. -/
def StoresIn (p : Nat → Prop) (m m' : List Host.Cell) : Prop :=
  Memory.wf m = true → Memory.wf m' = true ∧ ∀ b, ¬ p b → cread m' b = cread m b

/-- The n addresses from a on. -/
def inSpan (a n b : Nat) : Prop := a ≤ b ∧ b < a + n

theorem not_inSpan_of_outside {a n b : Nat} (h : b < a ∨ a + n ≤ b) : ¬ inSpan a n b := by
  unfold inSpan
  omega

section
variable {p : Nat → Prop}

theorem StoresIn.of_eq {m m' : List Host.Cell} (h : m' = m) : StoresIn p m m' := fun hm => ⟨h ▸ hm, fun _ _ => by rw [h]⟩

theorem StoresIn.refl (m : List Host.Cell) : StoresIn p m m := .of_eq rfl

theorem StoresIn.trans {l m n : List Host.Cell} (hlm : StoresIn p l m) (hmn : StoresIn p m n) : StoresIn p l n := by
  intro hl
  obtain ⟨hm, hlm⟩ := hlm hl
  obtain ⟨hn, hmn⟩ := hmn hm
  exact ⟨hn, fun b hb => (hmn b hb).trans (hlm b hb)⟩

theorem storesIn_cwrite {a : Nat} (ha : p a) (m : List Host.Cell) (v : Byte) : StoresIn p m (cwrite m a v) :=
  fun hm => ⟨wf_cwrite m a v hm, fun b hb => cread_cwrite_ne m a b v hm fun e => hb (e ▸ ha)⟩

theorem storesIn_cwrites {a : Nat} {l : List Byte} (hl : ∀ i, i < l.length → p (a + i)) (m : List Host.Cell) :
    StoresIn p m (cwrites m a l) := by
  refine fun hm => ⟨wf_cwrites l m a hm, fun b hb => cread_cwrites_outside l m a b hm ?_⟩
  by_contra hin
  have hba : a + (b - a) = b := by omega
  exact hb (hba ▸ hl (b - a) (by omega))

theorem storesIn_writeDram {a : Nat} {l : List Byte} (hl : ∀ i, i < l.length → p (a + i)) (s : State) :
    StoresIn p s.mem.dram (writeDram a l s).mem.dram := storesIn_cwrites hl _

end

theorem inSpan_of_le {n k : Nat} (a : Nat) (h : k ≤ n) : ∀ i, i < k → inSpan a n (a + i) := by
  intro i hi
  unfold inSpan
  omega

/-! ## Remote WRITE and ATOMIC (R346) -/

/-- A packet that has come before stores nothing. -/
theorem storesIn_once {p : Nat → Prop} {f : State → State} {s : State} (hf : StoresIn p s.mem.dram (f s).mem.dram) (k : Pkt) :
    StoresIn p s.mem.dram (once k f s).mem.dram := by
  unfold once
  split
  · split
    · exact .of_eq (by simp)
    · exact hf
  · exact hf

/-- A page table entry is no store of bytes; other writes store the payload. -/
theorem storesIn_writePkt (k : Pkt) (s : State) :
    StoresIn (inSpan (k.addr % 2 ^ 41) k.payload.length) s.mem.dram (writePkt k s).mem.dram := by
  unfold writePkt
  dsimp only
  split
  · exact .of_eq (by simp)
  · rw [(answer_frame ..).2.2.2.2.2.1]
    split
    · exact .of_eq (by simp)
    · exact .trans (.of_eq (by simp)) (storesIn_writeDram (inSpan_of_le _ le_rfl) _)

theorem length_bytesOfWords (l : List Word) : (bytesOfWords l).length = 4 * l.length := by
  simp [bytesOfWords, List.length_flatMap, List.map_const', Nat.mul_comm]

/-- The sum that op 7 stores is no longer than the payload. -/
theorem length_bytesOfWords_zipWith_le (m l : List Byte) : (bytesOfWords (List.zipWith fadd (wordsOf m) (wordsOf l))).length ≤ l.length := by
  have hwords : (wordsOf l).length = l.length / 4 := by simp [wordsOf, unpackElems]
  rw [length_bytesOfWords, List.length_zipWith, hwords]
  omega

/-- Op 7 stores at most its payload, another operation its operand's size. -/
theorem storesIn_atomicPkt {k : Pkt} {n : Nat} (hsum : k.op = 7 → k.payload.length ≤ n) (hop : k.op ≠ 7 → 2 ^ k.size ≤ n) (s : State) :
    StoresIn (inSpan (k.addr % 2 ^ 41) n) s.mem.dram (atomicPkt k s).mem.dram := by
  have hstore : ∀ l : List Byte, l.length ≤ n → ∀ m,
      StoresIn (inSpan (k.addr % 2 ^ 41) n) s.mem.dram (writeDram (k.addr % 2 ^ 41) l (countTarget true k m s)).mem.dram :=
    fun l hl m => .trans (.of_eq (by simp)) (storesIn_writeDram (inSpan_of_le _ hl) _)
  unfold atomicPkt
  dsimp only
  split
  next => exact .of_eq (by simp)
  next =>
    split
    next h7 =>
      split
      · exact .of_eq (by simp)
      · rw [(answer_frame ..).2.2.2.2.2.1]
        exact hstore _ ((length_bytesOfWords_zipWith_le _ _).trans (hsum h7)) _
    next h7 =>
      split
      · exact .of_eq (by simp)
      · split
        · exact .of_eq (by simp)
        · rw [(answer_frame ..).2.2.2.2.2.1]
          exact hstore _ ((length_leBytes _ _).le.trans (hop h7)) _

section
variable {t : Nat} {k : Pkt} {s u : State}

theorem storesIn_execWrite (h : exec (.write t k) s = .next u) :
    StoresIn (inSpan (k.addr % 2 ^ 41) k.payload.length) s.mem.dram u.mem.dram := by
  cases h
  split
  · exact storesIn_once (s := tick t s) (storesIn_writePkt k _) k
  · exact .refl _

theorem storesIn_execAtomic {n : Nat} (hsum : k.op = 7 → k.payload.length ≤ n) (hop : k.op ≠ 7 → 2 ^ k.size ≤ n)
    (h : exec (.atomic t k) s = .next u) : StoresIn (inSpan (k.addr % 2 ^ 41) n) s.mem.dram u.mem.dram := by
  cases h
  split
  · exact storesIn_once (s := tick t s) (storesIn_atomicPkt hsum hop _) k
  · exact .refl _

end

/-! ## BAR2 (R461) -/

/-- What the addresses behind BAR2 depend on is kept. -/
def SameBar2 (s u : State) : Prop := u.mem.parts = s.mem.parts ∧ u.mem.lmode = s.mem.lmode

theorem SameBar2.bar2Address_eq {s u : State} (h : SameBar2 s u) (o : Nat) : bar2Address u o = bar2Address s o := by
  obtain ⟨hparts, hlmode⟩ := h
  have hadmin : adminAddr u o = adminAddr s o := by simp only [adminAddr, partOf, hparts]
  have hmode : ∀ n, lmodeOf u n = lmodeOf s n := fun n => by simp only [lmodeOf, hlmode]
  simp only [bar2Address, hadmin, hmode]

theorem storesIn_bar2Store {p : Nat → Prop} (l : List Byte) : ∀ (o : Nat) (s : State),
    (∀ i a, i < l.length → bar2Address s (o + i) = some a → p a) → StoresIn p s.mem.dram (bar2Store o l s).mem.dram := by
  induction l with
  | nil => exact fun o s _ => .refl _
  | cons b l ih =>
    intro o s hp
    have hlater : ∀ u, SameBar2 s u → StoresIn p u.mem.dram (bar2Store (o + 1) l u).mem.dram := by
      refine fun u hu => ih _ _ fun i a hi ha => hp (i + 1) a (Nat.succ_lt_succ hi) ?_
      rwa [hu.bar2Address_eq, Nat.add_assoc, Nat.add_comm 1 i] at ha
    unfold bar2Store
    split
    next a ha =>
      split
      · exact hlater { s with mem := { s.mem with heldWrites := s.mem.heldWrites ++ [(a, b)] } } ⟨rfl, rfl⟩
      · exact .trans (storesIn_cwrite (hp 0 a (Nat.succ_pos _) ha) _ b) (hlater { s with mem := { s.mem with dram := cwrite s.mem.dram a b } } ⟨rfl, rfl⟩)
    next => exact hlater s ⟨rfl, rfl⟩

/-- Wholly written lines lose their poison and nothing else. -/
theorem bar2Clean_keeps (off n : Nat) (s : State) :
    (bar2Clean off n s).mem.dram = s.mem.dram ∧ SameBar2 s (bar2Clean off n s) := by
  unfold bar2Clean
  induction List.range n generalizing s with
  | nil => exact ⟨rfl, rfl, rfl⟩
  | cons i l ih =>
    simp only [forEach]
    split
    · split
      · exact ih _
      · exact ih s
    · exact ih s

theorem storesIn_execBar2Write {t off : Nat} {data : List Byte} {s u : State} (h : exec (.bar2Write t off data) s = .next u) :
    StoresIn (fun b => ∃ i, i < data.length ∧ bar2Address s (off + i) = some b) s.mem.dram u.mem.dram := by
  cases h
  split
  · rw [show ∀ s, (bar2Advise off data.length s).mem.dram = s.mem.dram from fun s => by simp [bar2Advise]]
    obtain ⟨hdram, hclean⟩ := bar2Clean_keeps off data.length (bar2Count true off data.length (tick t s))
    have hcount : (bar2Count true off data.length (tick t s)).mem = s.mem := by simp
    have hsame : SameBar2 s (bar2Clean off data.length (bar2Count true off data.length (tick t s))) :=
      ⟨hclean.1.trans (by rw [hcount]), hclean.2.trans (by rw [hcount])⟩
    exact .trans (.of_eq (hdram.trans (by rw [hcount])))
      (storesIn_bar2Store data off _ fun i a hi ha => ⟨i, hi, (hsame.bar2Address_eq _).symm.trans ha⟩)
  · exact .refl _

/-! ## A frame is restored (R248) -/

/-- The bytes of the frame alone are stored, while no tile or gather comes to wait. -/
def StoresFrame (f : Nat) (s u : State) : Prop :=
  StoresIn (inSpan (f * 65536) 65536) s.mem.dram u.mem.dram ∧ u.mem.chans = s.mem.chans ∧ u.exu.stalled = s.exu.stalled

theorem StoresFrame.trans {f : Nat} {s u v : State} (hsu : StoresFrame f s u) (huv : StoresFrame f u v) : StoresFrame f s v :=
  ⟨hsu.1.trans huv.1, huv.2.1.trans hsu.2.1, huv.2.2.trans hsu.2.2⟩

theorem StoresFrame.of_eq {f : Nat} {s u : State} (hmem : u.mem.dram = s.mem.dram) (hchans : u.mem.chans = s.mem.chans)
    (hexu : u.exu.stalled = s.exu.stalled) : StoresFrame f s u := ⟨.of_eq hmem, hchans, hexu⟩

theorem storesFrame_forEach {α : Type} {f : Nat} {g : α → State → State} {l : List α} (hg : ∀ x ∈ l, ∀ s, StoresFrame f s (g x s))
    (s : State) : StoresFrame f s (forEach g l s) := by
  induction l generalizing s with
  | nil => exact .of_eq rfl rfl rfl
  | cons x l ih =>
    exact (hg x List.mem_cons_self s).trans (ih (fun y hy => hg y (List.mem_cons_of_mem x hy)) (g x s))

/-- Data that passed its shard's check is written line by line, each line in the frame. -/
theorem storesFrame_rewriteFrame (f : Nat) (e : Epoch) (r : ShardRec) (data : List Byte) (s : State) :
    StoresFrame f s (rewriteFrame f e r data s) := by
  refine storesFrame_forEach (fun i hi s => ?_) s
  have hin : ∀ l : List Byte, ∀ j, j < (l.take 32).length → inSpan (f * 65536) 65536 ((f * 2048 + i) * 32 + j) := by
    intro l j hj
    have hi' : i < 2048 := List.mem_range.mp hi
    have hj' : j < 32 := hj.trans_le (List.length_take_le ..)
    unfold inSpan
    omega
  dsimp only
  split
  · exact .of_eq rfl rfl rfl
  · split
    · exact ⟨storesIn_writeDram (hin _) s, rfl, rfl⟩
    · exact ⟨storesIn_writeDram (hin _) { s with mem := { s.mem with scales := _ } }, rfl, rfl⟩

/-- The writes that waited for the frame are made in it. -/
theorem storesFrame_applyHeld (f : Nat) (s : State) : StoresFrame f s (applyHeld f s) := by
  have hfreed : StoresFrame f s { s with mem := { s.mem with heldWrites := s.mem.heldWrites.filter (fun w => w.1 / 65536 != f) } } :=
    .of_eq rfl rfl rfl
  refine hfreed.trans (storesFrame_forEach (fun w hw s => ?_) _)
  have hf : w.1 / 65536 = f := by simpa using (List.mem_filter.mp hw).2
  refine ⟨storesIn_writeDram (fun i hi => ?_) s, rfl, rfl⟩
  have h0 : i = 0 := by simpa using hi
  unfold inSpan
  omega

/-- No tile is queued, and no gather waits. -/
def Unwaited (s : State) : Prop := s.mem.chans = [] ∧ s.exu.stalled = []

theorem StoresFrame.unwaited {f : Nat} {s u : State} (h : StoresFrame f s u) (hs : Unwaited s) : Unwaited u :=
  ⟨h.2.1.trans hs.1, h.2.2.trans hs.2⟩

section
variable {s : State} (hs : Unwaited s)
include hs

theorem dram_retryStalled_of_unwaited : (retryStalled s).mem.dram = s.mem.dram := by
  simp [retryStalled, hs.2, forEach]

theorem reissueTiles_of_unwaited : reissueTiles s = s := by
  simp [reissueTiles, beginAll, hs.1, forEach]

theorem storesIn_testFrame (f : Nat) (ok : Bool) : StoresIn (inSpan (f * 65536) 65536) s.mem.dram (testFrame f ok s).mem.dram := by
  cases ok with
  | true =>
    have hheld : StoresFrame f s (applyHeld f (clearPoison f s)) :=
      .trans (.of_eq (u := clearPoison f s) rfl rfl rfl) (storesFrame_applyHeld f _)
    rw [testFrame_passes, reissueTiles_of_unwaited (hheld.unwaited hs), dram_retryStalled_of_unwaited (hheld.unwaited hs)]
    exact hheld.1
  | false => exact .of_eq (by simp [testFrame_fails_mem])

/-- A restore that fails ends the requests of the tiles that wait for it: of none here. -/
theorem dram_failRestore_of_unwaited (f mc idx : Nat) (e : Epoch) : (failRestore f mc idx e s).mem.dram = s.mem.dram := by
  unfold failRestore
  have hstuck : ∀ u : State, u.mem.chans = s.mem.chans → stuckTiles u f = [] := fun u hu => by simp [stuckTiles, hu, hs.1]
  dsimp only
  rw [hstuck _ (by simp)]
  exact (dram_retryStalled_of_unwaited ⟨by simp [dedup', forEach, hs.1], by simp [dedup', forEach, hs.2]⟩).trans (by simp [dedup', forEach])

theorem dram_tryRestore_of_unwaited (f mc idx : Nat) (e : Epoch) : (tryRestore f mc idx e s).mem.dram = s.mem.dram := by
  unfold tryRestore
  dsimp only
  split
  · simp
  · split
    · simp
    · exact dram_failRestore_of_unwaited hs ..

theorem storesIn_endRestore (f mc idx : Nat) (e : Epoch) (ok : Bool) (data : Option (List Byte)) :
    StoresIn (inSpan (f * 65536) 65536) s.mem.dram (endRestore f mc idx e ok data s).mem.dram := by
  unfold endRestore
  dsimp only
  split
  next d _ =>
    have hwritten := storesFrame_rewriteFrame f e (e.m.shards.getD idx {}) d s
    have htested := hwritten.1.trans (storesIn_testFrame (hwritten.unwaited hs) f ok)
    split
    · exact htested.trans (.of_eq (by simp))
    · exact htested
  next =>
    have hcounted : ∀ l, Unwaited { s with mem := { s.mem with restoreTries := l } } := fun _ => hs
    split
    · exact .of_eq (dram_failRestore_of_unwaited (hcounted _) ..)
    · exact .of_eq (dram_tryRestore_of_unwaited (hcounted _) ..)

theorem storesIn_execFrameRestored {t f : Nat} {ok : Bool} {data : Option (List Byte)} {u : State}
    (h : exec (.frameRestored t f ok data) s = .next u) : StoresIn (inSpan (f * 65536) 65536) s.mem.dram u.mem.dram := by
  have htick : Unwaited (tick t s) := hs
  cases h
  split
  · exact .refl _
  · split
    · split
      · exact storesIn_endRestore htick f _ _ _ ok data
      · exact storesIn_testFrame htick f ok
    · split
      · exact .refl _
      · exact storesIn_testFrame htick f ok

end

/-! ## The TAP (R414) -/

theorem storesIn_execTapInstruction_writeMem {t a : Nat} {d : List Byte} {s u : State}
    (h : exec (.tapInstruction t (.writeMem a d)) s = .next u) : StoresIn (inSpan a d.length) s.mem.dram u.mem.dram := by
  cases h
  simp only [tapRun, isTransaction, tapAccess, if_true]
  repeat' split
  case isTrue.isTrue => exact storesIn_writeDram (inSpan_of_le _ le_rfl) (tick t s)
  all_goals exact .refl _

theorem storesIn_execTapInstruction_writeScratch {t k a : Nat} {d : List Byte} {s u : State}
    (h : exec (.tapInstruction t (.writeScratch k a d)) s = .next u) :
    StoresIn (inSpan (k * 2 ^ 21 + a) d.length) s.fab.scratch u.fab.scratch := by
  cases h
  simp only [tapRun, isTransaction, tapAccess, if_true]
  repeat' split
  case isTrue.isTrue => exact storesIn_cwrites (inSpan_of_le _ le_rfl) _
  all_goals exact .refl _

/-! ## Dovetail (R34) -/

theorem storesIn_writeBank {q : Nat → Prop} {p k a : Nat} {l : List Byte} {s : State}
    (hq : ∀ i b, i < l.length → bankKey s p k (a + i) = some b → q b) : StoresIn q s.fab.scratch (writeBank p k a l s).fab.scratch :=
  fun hs => ⟨wf_writeBank p k a l s hs, fun b hb => writeBank_outside p k a b l s hs fun i hi he => hb (hq i b hi he)⟩

theorem bankKey_eq_of_plates {s u : State} (h : u.fab.plates = s.fab.plates) (p k a : Nat) : bankKey u p k a = bankKey s p k a := by
  simp only [bankKey, plateOf, h]

/-- Corrected errors are counted in lanes and islands alone. -/
theorem countCorrected_keeps (n port : Nat) (control : Bool) (s : State) :
    (countCorrected n port control s).fab.plates = s.fab.plates ∧ (countCorrected n port control s).fab.scratch = s.fab.scratch := by
  have hisl : ∀ m f (s : State), (modIsl m f s).fab.plates = s.fab.plates := fun m f s => by
    unfold modIsl
    split <;> rfl
  unfold countCorrected
  dsimp only
  split
  · simp [hisl, modLane]
  · simp [hisl]

theorem storesIn_execDovetailTransfer_write {t isl port err p k a : Nat} {ctl : Bool} {l : List Byte} {s u : State}
    (h : exec (.dovetailTransfer t isl port ctl err (.write p k a l)) s = .next u) :
    StoresIn (fun b => ∃ i, i < l.length ∧ bankKey s p k (a + i) = some b) s.fab.scratch u.fab.scratch := by
  have hbank : ∀ v : State, v.fab.plates = s.fab.plates →
      StoresIn (fun b => ∃ i, i < l.length ∧ bankKey s p k (a + i) = some b) v.fab.scratch (writeBank p k a l v).fab.scratch :=
    fun v hv => storesIn_writeBank fun i b hi he => ⟨i, hi, (bankKey_eq_of_plates hv p k _).symm.trans he⟩
  have htake : ∀ v : State, v.fab.plates = s.fab.plates → v.fab.scratch = s.fab.scratch →
      StoresIn (fun b => ∃ i, i < l.length ∧ bankKey s p k (a + i) = some b) s.fab.scratch (takeTransfer isl (.write p k a l) v).fab.scratch := by
    intro v hv hscratch
    refine .trans (.of_eq hscratch) ?_
    unfold takeTransfer
    dsimp only
    repeat' split
    case isTrue => exact hbank v hv
    all_goals exact .refl _
  cases h
  split
  · exact htake (tick t s) rfl rfl
  · split
    · obtain ⟨hplates, hscratch⟩ := countCorrected_keeps isl port ctl (tick t s)
      exact htake _ hplates hscratch
    · unfold poisonTransfer
      dsimp only
      generalize hv : coffer 3 3 _ _ _ _ _ (tick t s) = v
      have hfab : v.fab = s.fab := by simp [← hv]
      refine .trans (.of_eq (congrArg Fabric.scratch hfab)) ?_
      repeat' split
      case isTrue => exact (hbank v (congrArg Fabric.plates hfab)).trans (.of_eq rfl)
      all_goals exact .refl _

/-- Settles O57: each store by the span it is made in. -/
theorem storesStayInTheirSpan : Obligations.StoresStayInTheirSpan := by
  have hdram : ∀ {s : State}, s.memOk = true → Memory.wf s.mem.dram = true := fun h => (memOk_iff.mp h).1
  have hscratch : ∀ {s : State}, s.memOk = true → Memory.wf s.fab.scratch = true := fun h => (memOk_iff.mp h).2.1
  refine ⟨?write, ?atomic, ?bar2, ?frame, ?tapMem, ?tapScratch, ?dovetail⟩
  case write =>
    intro t k s u b hm h hb
    exact (storesIn_execWrite h (hdram hm)).2 b (not_inSpan_of_outside hb)
  case atomic =>
    intro t k s u b hm h hb
    exact (storesIn_execAtomic (fun h7 => (if_pos h7).ge) (fun h7 => (if_neg h7).ge) h (hdram hm)).2 b (not_inSpan_of_outside hb)
  case bar2 =>
    intro t off data s u b hm h hb
    exact (storesIn_execBar2Write h (hdram hm)).2 b fun ⟨i, hi, he⟩ => hb i hi he
  case frame =>
    intro t f ok data s u b hm hchans hstalled h hb
    exact (storesIn_execFrameRestored ⟨hchans, hstalled⟩ h (hdram hm)).2 b (not_inSpan_of_outside hb)
  case tapMem =>
    intro t a d s u b hm h hb
    exact (storesIn_execTapInstruction_writeMem h (hdram hm)).2 b (not_inSpan_of_outside hb)
  case tapScratch =>
    intro t k a d s u b hm h hb
    exact (storesIn_execTapInstruction_writeScratch h (hscratch hm)).2 b (not_inSpan_of_outside hb)
  case dovetail =>
    intro t isl port ctl err p k a l s u b hm h hb
    exact (storesIn_execDovetailTransfer_write h (hscratch hm)).2 b fun ⟨i, hi, he⟩ => hb i hi he

end Sys2Proof.Machine
end

section
/-! SUPPORT. The proof of O23: remote accesses, their second sending, and what is lost. -/
set_option Elab.async false
namespace Sys2Proof.Machine

/-! ## Remote accesses are carried out once (R342, R346) -/

section
variable {p : Pkt} {f : State → State} {s : State}

theorem once_of_new (hnew : p.resend = false) : once p f s = f s := by
  unfold once
  rw [hnew]
  split <;> rfl

theorem once_of_answered {r : RespPkt} (hagain : p.resend = true) (hr : mget s.xn.executed (execKey p p.fseq) = some r) :
    once p f s = sendXn p.src p.vc p.lc (.resp r) s := by
  simp only [once, hr, hagain, if_true]

end

section
variable {t : Nat} {p : Pkt} {s : State} (hdst : p.dst = ownLoc s)
include hdst

theorem execRead_of_own : exec (.read t p) s = .next (once p (readPkt p) (tick t s)) := congrArg Host.Outcome.next (if_pos hdst)
theorem execWrite_of_own : exec (.write t p) s = .next (once p (writePkt p) (tick t s)) := congrArg Host.Outcome.next (if_pos hdst)
theorem execAtomic_of_own : exec (.atomic t p) s = .next (once p (atomicPkt p) (tick t s)) := congrArg Host.Outcome.next (if_pos hdst)

end

section
variable {p : Pkt} {s : State} (hlo : 2 ≤ p.size) (hhi : p.size ≤ 12) (haddr : p.addr % alignAt s p.addr = 0)
  (hlen : 2 ^ p.size % alignAt s p.addr = 0) (hmode : modeBad s p (2 ^ p.size) = false)
include hlo hhi haddr hlen hmode

/-- 4 to 4096 bytes that are aligned and of their mode are well formed. -/
theorem read_wellFormed : (decide (2 ^ p.size < 4) || decide (4096 < 2 ^ p.size) || p.addr % alignAt s p.addr != 0 ||
    2 ^ p.size % alignAt s p.addr != 0 || modeBad s p (2 ^ p.size)) = false := by
  have h4 : ¬ 2 ^ p.size < 4 := Nat.not_lt.mpr (Nat.pow_le_pow_right (n := 2) (by omega) hlo)
  have h4096 : ¬ 4096 < 2 ^ p.size := Nat.not_lt.mpr (Nat.pow_le_pow_right (n := 2) (by omega) hhi)
  simp only [h4, h4096, haddr, hlen, hmode, decide_false, bne_self_eq_false, Bool.or_self]

theorem readPkt_ok (hcheck : targetCheck s p false false false (2 ^ p.size) = none) :
    readPkt p s = answer p .ok (readDram s (p.addr % 2 ^ 41) (2 ^ p.size)) (codesAt s (p.addr % 2 ^ 41) (2 ^ p.size))
      (countTarget false p (2 ^ p.size) s) := by
  simp only [readPkt, read_wellFormed hlo hhi haddr hlen hmode, hcheck]

theorem readPkt_refused {st : RespStatus} (hcheck : targetCheck s p false false false (2 ^ p.size) = some st) :
    readPkt p s = answer p st [] [] s := by
  simp only [readPkt, read_wellFormed hlo hhi haddr hlen hmode, hcheck]

end

/-- A WRITE of 1 to 4096 bytes that the checks pass, and that is no page table entry, is stored. -/
theorem writePkt_ok {p : Pkt} {s : State} (hlo : 1 ≤ p.payload.length) (hhi : p.payload.length ≤ 4096) (hlen : p.length = p.payload.length)
    (haddr : p.addr % alignAt s p.addr = 0) (hgrain : p.payload.length % alignAt s p.addr = 0)
    (hmode : modeBad s p p.payload.length = false) (hcheck : targetCheck s p true false false p.payload.length = none)
    (hentry : p.payload.length = 8 → entryHere s (p.addr % 2 ^ 41) = none) :
    writePkt p s = answer p .ok [] [] (writeDram (p.addr % 2 ^ 41) p.payload
      (putCodes (p.addr % 2 ^ 41 / 32) p.codes (countTarget true p p.payload.length s))) := by
  have h0 : (p.payload.length == 0) = false := by simpa using Nat.pos_iff_ne_zero.mp hlo
  have h4096 : ¬ 4096 < p.payload.length := by omega
  have hnone : (if p.payload.length = 8 then entryHere s (p.addr % 2 ^ 41) else none) = none := by
    split
    next h8 => exact hentry h8
    next => rfl
  simp only [writePkt, h0, h4096, hlen, haddr, hgrain, hmode, decide_false, bne_self_eq_false, Bool.or_self, hcheck, hnone]

/-- An ATOMIC on one operand that the checks pass, and that is no page table entry's, stores its result and answers the old value. -/
theorem atomicPkt_ok {p : Pkt} {s : State} {m : Nat} (hsize : p.size = 2 ∨ p.size = 3) (h7 : p.op ≠ 7)
    (hentry : p.op ≠ 6 ∨ entryHere s (p.addr % 2 ^ 41) = none)
    (hlen : p.payload.length = (if p.op = 5 then 2 * 2 ^ p.size else 2 ^ p.size)) (haddr : p.addr % 2 ^ p.size = 0)
    (hpm : lmodeOf s (p.addr % 2 ^ 41 / 2097152) = 0) (hcheck : targetCheck s p true false false (2 ^ p.size) = none)
    (hop : atomicOp p.op (2 ^ p.size) (leNat (readDram s (p.addr % 2 ^ 41) (2 ^ p.size))) (leNat (p.payload.take (2 ^ p.size)))
      (leNat ((p.payload.drop (2 ^ p.size)).take (2 ^ p.size))) = some m)
    (hknown : (atomicOp p.op (2 ^ p.size) 0 0 0).isSome = true) :
    atomicPkt p s = answer p .ok (readDram s (p.addr % 2 ^ 41) (2 ^ p.size)) []
      (writeDram (p.addr % 2 ^ 41) (leBytes m (2 ^ p.size)) (countTarget true p (2 ^ p.size) s)) := by
  have hnone : (if p.op = 6 ∧ p.size = 3 ∧ p.payload.length = 8 then entryHere s (p.addr % 2 ^ 41) else none) = none := by
    split
    next h6 => exact hentry.resolve_left fun h => h h6.1
    next => rfl
  have hsize' : (p.size != 2 && p.size != 3) = false := by
    obtain h | h := hsize
    all_goals simp [h]
  have hknown' : (atomicOp p.op (2 ^ p.size) 0 0 0).isNone = false := by simpa using hknown
  have hlen' : (p.payload.length != (if p.op = 5 then 2 * 2 ^ p.size else 2 ^ p.size)) = false := by simp only [hlen, bne_self_eq_false]
  simp only [atomicPkt, hnone, if_neg h7, hsize', hlen', haddr, hpm, hknown', bne_self_eq_false, beq_self_eq_true, Bool.not_true,
    Bool.or_self, hcheck, hop]

/-! ## What is sent again, and what is lost (R347, R349, R351)

A flow and a number name the packet of a step or tile mover first, then one of the Exchange Unit, then one of a collective. -/

section
variable {t flow fseq : Nat} {s : State}

theorem execRemoteResend_remote {r : Remote} (hr : pickRemote (tick t s) flow fseq 10000 false = some r) (hfirst : r.resent = false) :
    exec (.remoteResend t flow fseq) s = .next (resendXn r.port r.pkt.dst r.pkt.vc r.pkt.lc (remoteMsg r { r.pkt with resend := true })
      (activity (jobAt s (jobIdx r.job)).ctx .xnTx (jobAt s (jobIdx r.job)).id r.layer r.operator
        (msgBytes (remoteMsg r { r.pkt with resend := true })) (modRemote r (fun r => { r with resent := true }) (tick t s)))) := by
  simp only [exec, execRemoteResend, hr, hfirst, Bool.false_eq_true, if_false, jobAt_tick]

theorem execRemoteResend_exu {o : ExuOut} (hr : pickRemote (tick t s) flow fseq 10000 false = none)
    (ho : pickExu (tick t s) flow fseq 10000 = some o) (hfirst : o.resent = false) :
    exec (.remoteResend t flow fseq) s = .next (resendXn o.port o.hop 2 o.pkt.lc (.exu o.ty { o.pkt with resend := true })
      (activity (jobAt s (jobIdx o.job)).ctx .xnTx (jobAt s (jobIdx o.job)).id (exuTags s o.ty o.pkt).1 (exuTags s o.ty o.pkt).2
        (msgBytes (.exu o.ty { o.pkt with resend := true }))
        { tick t s with xn := { s.xn with exuOut := s.xn.exuOut.map (fun x => if x == o then { x with resent := true } else x) } })) := by
  simp only [exec, execRemoteResend, hr, ho, hfirst, Bool.false_eq_true, if_false]
  rfl

theorem execRemoteResend_coll {o : CollOut} (hr : pickRemote (tick t s) flow fseq 10000 false = none)
    (hx : pickExu (tick t s) flow fseq 10000 = none) (ho : pickColl (tick t s) flow fseq 10000 = some o) (hfirst : o.resent = false) :
    exec (.remoteResend t flow fseq) s = .next (resendXn o.port o.dst o.vc o.pkt.lc (.coll o.gid { o.pkt with resend := true })
      (activity (jobAt s (jobIdx o.job)).ctx .xnTx (jobAt s (jobIdx o.job)).id o.layer o.operator
        (msgBytes (.coll o.gid { o.pkt with resend := true }))
        { tick t s with xn := { s.xn with collOut := s.xn.collOut.map (fun x => if x == o then { x with resent := true } else x) } })) := by
  simp only [exec, execRemoteResend, hr, hx, ho, hfirst, Bool.false_eq_true, if_false]
  rfl

theorem execRemoteTimeout_remote {r : Remote} (hr : pickRemote (tick t s) flow fseq 20000 false = some r) :
    exec (.remoteTimeout t flow fseq) s = .next (if flow < 0x40 then
      beginAll (releaseFlow r.pkt.dst flow (loseTile flow 0 r.pkt.dst (tick t s))) else loseRemote r (tick t s)) := by
  simp only [exec, execRemoteTimeout, hr]

theorem execRemoteTimeout_exu {o : ExuOut} (hr : pickRemote (tick t s) flow fseq 20000 false = none)
    (ho : pickExu (tick t s) flow fseq 20000 = some o) :
    exec (.remoteTimeout t flow fseq) s = .next (releaseFlow o.hop flow (loseExu (jobIdx o.job) 0 o.ty o.pkt
      { tick t s with xn := { s.xn with exuOut := s.xn.exuOut.filter (fun x => !(x == o)) } })) := by
  simp only [exec, execRemoteTimeout, hr, ho]
  rfl

theorem execRemoteTimeout_coll {o : CollOut} (hr : pickRemote (tick t s) flow fseq 20000 false = none)
    (hx : pickExu (tick t s) flow fseq 20000 = none) (ho : pickColl (tick t s) flow fseq 20000 = some o) :
    exec (.remoteTimeout t flow fseq) s = .next (releaseFlow o.dst flow (loseColl 0 o (tick t s))) := by
  simp only [exec, execRemoteTimeout, hr, hx, ho]

end

/-- The packet of a group's collective that is lost ends the group's operations first. -/
theorem loseColl_of_group {o : CollOut} {g : Nat} {q : Group} {s : State} (hg : groupOfId s o.gid = some (g, q)) (cause : Nat) :
    loseColl cause o s = lostTarget (jobIdx o.job) cause o.dst (endCollOps false g .fabricTargetLost
      { s with xn := { s.xn with collOut := s.xn.collOut.filter (fun x => !(x == o)) } }) := by
  have hg' : groupOfId { s with xn := { s.xn with collOut := s.xn.collOut.filter (fun x => !(x == o)) } } o.gid = some (g, q) := hg
  simp only [loseColl, hg']

/-! ## A chip about to reset (R451) -/

/-- The jobs that run on this chip and depend on chip src. -/
def jobsLost (src : Nat) (s : State) : List Nat := (s.srv.jobs.filter (fun j => j.2.present && dependsOn s j.1 src)).map (·.1)

/-- A member that resets ends the operations of a group that stands, and the creation of one that does not. -/
def endMembersGroup (e : Nat × Group) (s : State) : State :=
  if e.2.st = 0 then failCreate e.1 .fabricTargetLost s else endCollOps false e.1 .fabricTargetLost s

theorem execResetNotice_eq (t src : Nat) (s : State) :
    exec (.resetNotice t src) s = .next (forEach (fun i s => freezeJob i 2 src .resetAborted s) (jobsLost src s)
      (forEach endMembersGroup (s.coll.groups.filter (fun e => e.2.members.contains src)) (tick t s))) := rfl

section
variable {src i : Nat} {j : Job} {s : State} (hjobs : s.srv.jobs = [(i, j)])
include hjobs

theorem jobAt_of_one : jobAt s i = j := by simp [jobAt, hjobs, mgetD, mget]

theorem jobsLost_of_one (hp : j.present = true) (hd : dependsOn s i src = true) : jobsLost src s = [i] := by
  simp [jobsLost, hjobs, hp, hd]

theorem dependsOn_of_remote {r : RemoteEntry} (hr : j.resv.remotes = [r]) (hsrc : r.loc = src) : dependsOn s i src = true := by
  simp [dependsOn, jobAt_of_one hjobs, hr, hsrc]

end

theorem dependsOn_of_group {src i g : Nat} {q : Group} {s : State} (hg : s.coll.groups = [(g, q)]) (hjob : q.job = i)
    (hmem : q.members.contains src = true) : dependsOn s i src = true := by
  simp [dependsOn, hg, hjob, List.contains_iff_mem.mp hmem]

/-- Without a job that runs and without a group of the chip nothing is lost. -/
theorem execResetNotice_idle {src : Nat} {s : State} (hjobs : ∀ e ∈ s.srv.jobs, e.2.present = false)
    (hgroups : ∀ e ∈ s.coll.groups, e.2.members.contains src = false) (t : Nat) :
    exec (.resetNotice t src) s = .next (tick t s) := by
  have hj : jobsLost src s = [] := by
    rw [jobsLost, List.map_eq_nil_iff, List.filter_eq_nil_iff]
    exact fun e he => by simp [hjobs e he]
  have hg : s.coll.groups.filter (fun e => e.2.members.contains src) = [] := by
    rw [List.filter_eq_nil_iff]
    exact fun e he => by rw [hgroups e he]; exact Bool.false_ne_true
  rw [execResetNotice_eq, hj, hg]
  rfl

/-! ## Messages of the fabric manager and of switches (R342, R349) -/

theorem execFabricFaultResend_of_fault {i : Nat} {f : FabricFault} {s : State} (hf : mget s.xn.faults i = some f) (t : Nat) :
    exec (.fabricFaultResend t i) s = .next (sendFault f (tick t s)) := by
  simp only [exec, execFabricFaultResend, tick_xn, hf]

/-- The manager's acknowledgement ends the fault's resending. -/
theorem execFabricFaultAck_of_manager {s : State} (hfm : s.sec.fmEid ≠ 0) (t i : Nat) :
    exec (.fabricFaultAck t s.sec.fmEid i) s = .next { tick t s with xn := { s.xn with faults := mdel s.xn.faults i } } :=
  congrArg Host.Outcome.next (if_pos ⟨rfl, hfm⟩)

section
variable {sw n : Nat} {s : State} (hsw : sw < 8) (hn : n < 128)
include hsw hn

/-- A port that a switch no longer reaches is noted once. -/
theorem execSwitchStateReport_lost (hnew : sw * 128 + n ∉ s.xn.unreach) (t : Nat) :
    exec (.switchStateReport t sw [(n, false)]) s = .next { tick t s with xn := { s.xn with unreach := (sw * 128 + n) :: s.xn.unreach } } := by
  have hsw' : ¬ 8 ≤ sw := by omega
  have hnew' : s.xn.unreach.contains (sw * 128 + n) = false := by simpa using hnew
  simp [exec, execSwitchStateReport, hsw', hn, forEach, hnew]

/-- A port that it reaches again is struck. -/
theorem execSwitchStateReport_found (t : Nat) : exec (.switchStateReport t sw [(n, true)]) s =
    .next { tick t s with xn := { s.xn with unreach := s.xn.unreach.filter (fun k => k != sw * 128 + n) } } := by
  have hsw' : ¬ 8 ≤ sw := by omega
  simp [exec, execSwitchStateReport, hsw', hn, forEach]

end

/-- Settles O23: each packet by what is outstanding or kept of it, each notice by the jobs and groups it names. -/
theorem remoteAccessesComplete : Obligations.RemoteAccessesComplete := by
  refine ⟨?readOk, ?readRefused, ?write, ?atomic, ?atomicOk, ?again, ?reissue, fun t fl fs s r m hr h hm => hm ▸ execRemoteResend_remote hr h,
    fun t fl fs s o m hr ho h hm => hm ▸ execRemoteResend_exu hr ho h, fun t fl fs s o m hr hx ho h hm => hm ▸ execRemoteResend_coll hr hx ho h,
    ?lost, ?lostTile, fun t fl fs s o hr ho => execRemoteTimeout_exu hr ho, ?lostColl,
    fun t i f s hf => execFabricFaultResend_of_fault hf t, ?ack, ?resetRemote, ?resetGroup,
    fun t src s hj hg => execResetNotice_idle hj hg t, fun t sw n s hsw hn hnew => execSwitchStateReport_lost hsw hn hnew t, ?found⟩
  case readOk =>
    intro t p s hdst hnew hlo hhi haddr hlen hmode hcheck
    rw [execRead_of_own hdst, once_of_new hnew, readPkt_ok hlo hhi haddr hlen hmode hcheck]
  case readRefused =>
    intro t p s st hdst hnew hlo hhi haddr hlen hmode hcheck
    rw [execRead_of_own hdst, once_of_new hnew, readPkt_refused hlo hhi haddr hlen hmode hcheck]
  case write =>
    intro t p s hdst hnew hlo hhi hlen haddr hgrain hmode hcheck hentry
    rw [execWrite_of_own hdst, once_of_new hnew, writePkt_ok hlo hhi hlen haddr hgrain hmode hcheck hentry]
  case atomic =>
    intro t p s hdst hnew
    rw [execAtomic_of_own hdst, once_of_new hnew]
  case atomicOk =>
    intro t p s m hdst hnew hsize h7 hentry hlen haddr hpm hcheck hop hknown
    rw [execAtomic_of_own hdst, once_of_new hnew, atomicPkt_ok (s := tick t s) hsize h7 hentry hlen haddr hpm hcheck hop hknown]
    rfl
  case again =>
    intro t p s r c hdst hagain hr hc
    simp only [List.mem_cons, List.not_mem_nil, or_false] at hc
    obtain rfl | rfl | rfl := hc
    · rw [execRead_of_own hdst, once_of_answered (s := tick t s) hagain hr]
    · rw [execWrite_of_own hdst, once_of_answered (s := tick t s) hagain hr]
    · rw [execAtomic_of_own hdst, once_of_answered (s := tick t s) hagain hr]
  case reissue =>
    intro t fl fs s r hr
    simp only [exec, execRestoringReissue, hr]
    rfl
  case lost =>
    intro t fl fs s r hr hfl
    rw [execRemoteTimeout_remote hr, if_neg (by omega)]
  case lostTile =>
    intro t fl fs s r hr hfl
    rw [execRemoteTimeout_remote hr, if_pos hfl]
  case lostColl =>
    intro t fl fs s g q o hr hx ho hg
    rw [execRemoteTimeout_coll hr hx ho, loseColl_of_group (s := tick t s) hg]
    rfl
  case ack =>
    refine fun t i s hfm => ⟨_, execFabricFaultAck_of_manager hfm t i, rfl, ?_⟩
    simp [changesOnly_iff, allPieces, agree]
  case resetRemote =>
    intro t src s i j r hjobs hp hr hsrc hgroups
    rw [execResetNotice_eq, jobsLost_of_one hjobs hp (dependsOn_of_remote hjobs hr hsrc), hgroups]
    rfl
  case resetGroup =>
    intro t src s i j g q hjobs hp hgroups hjob hmem hst
    have hended : endMembersGroup (g, q) (tick t s) = endCollOps false g .fabricTargetLost (tick t s) := if_neg (by simp [hst])
    have hmember : [(g, q)].filter (fun e => e.2.members.contains src) = [(g, q)] := List.filter_eq_self.mpr (by simpa using hmem)
    rw [execResetNotice_eq, jobsLost_of_one hjobs hp (dependsOn_of_group hgroups hjob hmem), hgroups, hmember, ← hended]
    rfl
  case found =>
    intro t sw reach s hsw hlen hreach
    obtain ⟨⟨n, up⟩, rfl⟩ := List.length_eq_one_iff.mp hlen
    obtain ⟨hn, rfl⟩ := hreach _ List.mem_cons_self
    refine ⟨_, execSwitchStateReport_found hsw hn t, ?_, fun k hk => (List.mem_filter.mp hk).1, ?_⟩
    · simp
    · simp [changesOnly_iff, allPieces, agree]

end Sys2Proof.Machine
end

section
/-! SUPPORT. The proof of O24: what a port does with what its link brings it. -/
set_option Elab.async false
namespace Sys2Proof.Machine

/-! ## What a link brings (R334 to R336, R338) -/

/-- The state after a good flit's credits are taken. -/
def creditTaken (t p : Nat) (f : FlitRec) (s : State) : State :=
  takeCredit p f.vc f.respPool f.credits (countGlobal (47 + p) 256 (tick t s))

/-- What a good flit does once its credits are taken: another flit, an acknowledgement or a NAK. -/
def takeGood (p : Nat) (f : FlitRec) (s : State) : State :=
  if f.kind = 2 then replay p f.ack s
  else if f.kind != 0 then takeAck p f.ack s
  else if f.seq = (portOf (takeAck p f.ack s) p).rxNext then takeFlit p f (takeAck p f.ack s)
  else sendNak p (takeAck p f.ack s)

section
variable {t p : Nat} {f : FlitRec} {s : State} (hup : portUp (tick t s) p = true) (hp : p < 15)
include hup hp

theorem execFlit_good (hgood : flitGood f = true) : exec (.flit t p f) s = .next (takeGood p f (creditTaken t p f s)) := by
  have hp' : ¬ 15 ≤ p := by omega
  simp only [exec, execFlit, hup, hp', hgood, Bool.not_true, decide_false, Bool.or_self, Bool.false_eq_true, if_false, takeGood,
    creditTaken]
  repeat' split
  case isFalse.isFalse.isTrue hseq => exact (congrArg Host.Outcome.next (if_pos hseq)).symm
  case isFalse.isFalse.isFalse hseq => exact (congrArg Host.Outcome.next (if_neg hseq)).symm
  all_goals rfl

theorem execFlit_bad (hbad : flitGood f = false) :
    exec (.flit t p f) s = .next (sendNak p (countGlobal (47 + p) 256 (tick t s))) := by
  have hp' : ¬ 15 ≤ p := by omega
  simp only [exec, execFlit, hup, hp', hbad, Bool.not_true, decide_false, Bool.or_self, Bool.not_false, Bool.false_eq_true, if_false, if_true]

end

section
variable {p : Nat} {f : FlitRec} {s s1 : State}

theorem takeGood_data (hkind : f.kind = 0) (h1 : s1 = takeAck p f.ack s) :
    takeGood p f s = if f.seq = (portOf s1 p).rxNext then takeFlit p f s1 else sendNak p s1 := by
  subst h1
  simp [takeGood, hkind]

theorem takeGood_ack (hkind : f.kind = 1) : takeGood p f s = takeAck p f.ack s := by simp [takeGood, hkind]

theorem takeGood_nak (hkind : f.kind = 2) : takeGood p f s = replay p f.ack s := if_pos hkind

/-- A flit that is taken in the clear gives its credit back at once. -/
theorem takeFlit_clear (henc : (portOf s p).enc = false) : takeFlit p f s = returnCredits p [(f.bodyVc, f.bodyResp)]
    (modPort p (fun p => { p with rxNext := (p.rxNext + 1) % 4096, discarding := false }) s) := by
  simp only [takeFlit, portOf_modPort_self, henc, Bool.false_eq_true, if_false]

/-- A flit of an encrypted block owes its credit until the block's tag. -/
theorem takeFlit_encrypted (henc : (portOf s p).enc = true) :
    takeFlit p f s = modPort p (fun p => { p with rxBlock := p.rxBlock + 1, rxOwed := p.rxOwed ++ [(f.bodyVc, f.bodyResp)] })
      (modPort p (fun p => { p with rxNext := (p.rxNext + 1) % 4096, discarding := false }) s) := by
  simp only [takeFlit, portOf_modPort_self, henc, if_true]

end

/-! ## Tags (R355) -/

section
variable {t p : Nat} {s : State} (hup : portUp (tick t s) p = true) (henc : (portOf s p).enc = true)
include hup henc

theorem execTag_ok : exec (.tag t p true) s = .next (pumpPort p (returnCredits p (portOf s p).rxOwed (modPort p (fun p =>
    { p with rxNext := (p.rxNext + 1) % 4096, rxBlock := 0, rxOwed := [], tagFail := false, discarding := false }) (tick t s)))) := by
  simp only [exec, execTag, hup, portOf_tick, henc, Bool.not_true, Bool.or_self, Bool.false_eq_true, if_false, if_true]

theorem execTag_failed : exec (.tag t p false) s = .next (if (portOf s p).tagFail then stopPort p 0 (coffer 1 3 .portDown p 0 0 0 (tick t s))
    else sendNak p (modPort p (fun p =>
      { p with tagFail := true, rxNext := (p.rxNext + 4096 - p.rxBlock) % 4096, rxBlock := 0, rxOwed := [] }) (tick t s))) := by
  simp only [exec, execTag, hup, portOf_tick, henc, Bool.not_true, Bool.or_self, Bool.false_eq_true, if_false]
  split <;> rfl

end

/-! ## Training (R335, R336) -/

/-- A port of eight replays within a millisecond trains again. -/
theorem execReplayRetrain_retrains {t p : Nat} {s : State} (hup : portUp (tick t s) p = true)
    (hmany : 8 ≤ ((portOf s p).replays.filter (fun r => decide (max s.time t ≤ r + 1000000))).length) :
    exec (.replayRetrain t p) s = .next (stopPort p 1 (modPort p (fun p => { p with replays := [] }) (tick t s))) :=
  congrArg Host.Outcome.next (if_pos (Bool.and_eq_true_iff.mpr ⟨hup, decide_eq_true hmany⟩))

theorem execPortTrainingDone_up {t p pa pp : Nat} {failed : List Nat} {eo pe : Bool} {s s1 : State} (hp : p < 15)
    (hdis : (portOf s p).disable = false) (hst : (portOf s p).st ≠ 2)
    (h1 : s1 = modPort p (fun p => { p with laneFail := failed, peer := pa }) (tick t s)) (hpartner : partnerOk s1 p pa pp = true)
    (hwidth : widthOf failed ≠ 0) (henc : ((portOf s p).encReq || pe) = false ∨ eo = true) :
    exec (.portTrainingDone t p failed pa pp eo pe) s = .next (portComesUp p (widthOf failed) ((portOf s p).encReq || pe) s1) := by
  subst h1
  have hp' : ¬ 15 ≤ p := by omega
  have hst' : ((portOf s p).st == 2) = false := by simpa using hst
  have henc' : (((portOf s p).encReq || pe) && !eo) = false := by
    obtain h | rfl := henc
    · simp [h]
    · simp
  simp only [exec, execPortTrainingDone, portOf_tick, hp', hdis, hst', hpartner, if_neg hwidth, henc', decide_false, Bool.or_self,
    Bool.not_true, Bool.false_eq_true, if_false]

/-- Lanes that pass leave the list of those that failed: a port that is up changes its width, one that is not trains again. -/
theorem execLaneRetry_eq {t p : Nat} {passed left : List Nat} {s : State} (hp : p < 15) (hfail : (portOf s p).laneFail ≠ [])
    (hdis : (portOf s p).disable = false) (hwire : (portOf s p).miswire = false) (hst : (portOf s p).st ≠ 1)
    (hleft : left = (portOf s p).laneFail.filter (fun l => !passed.contains l)) (hwidth : widthOf left ≠ 0) :
    exec (.laneRetry t p passed) s = .next (if (portOf s p).st = 2 then
      pumpPort p (evalCapacity (modPort p (fun p => { p with width := widthOf left }) (modPort p (fun p => { p with laneFail := left }) (tick t s))))
      else stopPort p 1 (modPort p (fun p => { p with laneFail := left }) (tick t s))) := by
  subst hleft
  have hp' : ¬ 15 ≤ p := by omega
  have hst' : ((portOf s p).st == 1) = false := by simpa using hst
  have hfail' : (portOf s p).laneFail.isEmpty = false := by simpa using hfail
  simp only [exec, execLaneRetry, portOf_tick, hp', hfail', hdis, hwire, hst', if_neg hwidth, decide_false, Bool.or_self,
    Bool.false_eq_true, if_false]
  split <;> rfl

/-- Settles O24: a flit by its kind and its place in order, an event of a port by the port's registers. -/
theorem portsFollowTheirLinks : Obligations.PortsFollowTheirLinks := by
  refine ⟨?clear, ?encrypted, ?outOfOrder, ?ackOnly, ?nakFlit, fun t p f s hup hp hbad => execFlit_bad hup hp hbad,
    fun t p a s hup => congrArg Host.Outcome.next (if_pos hup), fun t p s hup henc => execTag_ok hup henc, ?tagFirst, ?tagSecond,
    fun t p s hup hmany => execReplayRetrain_retrains hup hmany, fun t p s hup => congrArg Host.Outcome.next (if_pos hup),
    fun t p failed pa pp eo pe s s1 hp hdis hst h1 hpartner hwidth henc => execPortTrainingDone_up hp hdis hst h1 hpartner hwidth henc,
    ?narrowed, ?retrained, fun t p s henc => congrArg Host.Outcome.next (if_pos henc), ?disable, ?weights⟩
  case clear =>
    intro t p f s s1 hup hp hgood hkind h1 hseq henc
    rw [execFlit_good hup hp hgood, takeGood_data (s := creditTaken t p f s) hkind h1, if_pos hseq, takeFlit_clear henc]
  case encrypted =>
    intro t p f s s1 hup hp hgood hkind h1 hseq henc
    rw [execFlit_good hup hp hgood, takeGood_data (s := creditTaken t p f s) hkind h1, if_pos hseq, takeFlit_encrypted henc]
  case outOfOrder =>
    intro t p f s s1 hup hp hgood hkind h1 hseq
    rw [execFlit_good hup hp hgood, takeGood_data (s := creditTaken t p f s) hkind h1, if_neg hseq]
  case ackOnly =>
    intro t p f s hup hp hgood hkind
    rw [execFlit_good hup hp hgood, takeGood_ack hkind]
    rfl
  case nakFlit =>
    intro t p f s hup hp hgood hkind
    rw [execFlit_good hup hp hgood, takeGood_nak hkind]
    rfl
  case tagFirst =>
    intro t p s hup henc hfirst
    rw [execTag_failed hup henc, if_neg (by simp [hfirst])]
  case tagSecond =>
    intro t p s hup henc hsecond
    rw [execTag_failed hup henc, if_pos hsecond]
  case narrowed =>
    intro t p passed s left hp hfail hdis hwire hst hleft hwidth
    rw [execLaneRetry_eq hp hfail hdis hwire (by omega) hleft hwidth, if_pos hst]
  case retrained =>
    intro t p passed s left hp hfail hdis hwire hst hleft hwidth
    rw [execLaneRetry_eq hp hfail hdis hwire (by omega) hleft hwidth, if_neg (by omega)]
  case disable =>
    intro t p v s hp hr
    exact congrArg Host.Outcome.next ((if_pos hp).trans (regWrite_of_regsAnswer hr t _))
  case weights =>
    intro t v s hr hl hpos hsum
    refine ⟨_, congrArg Host.Outcome.next ((regWrite_of_regsAnswer hr t _).trans (writeVcWeight_takes hl hpos hsum)), rfl, ?_⟩
    simp [changesOnly_iff, allPieces, agree]

end Sys2Proof.Machine
end

section
/-! SUPPORT. The proof of O41: what SPDM, the Sirdoyx mailbox, the debug levels and the TAP leave unchanged (R406, R411 to R418). -/
set_option Elab.async false
namespace Sys2Proof.Machine

/-! ## The operations that the commands share -/

/-- A change of the security part that keeps the lifecycle state and the mailbox buffer changes that part alone. -/
theorem changesOnly.setSec {l : List Piece} {x : Sec} {s u : State} (h : changesOnly l s u) (hlife : x.life = u.sec.life := by rfl)
    (hbuf : x.mboxBuf = u.sec.mboxBuf := by rfl) (hl : .sec ∈ l := by simp) : changesOnly l s { u with sec := x } := by
  refine h.trans (l' := [.sec]) ?_ (by simpa using hl)
  intro p hp
  cases p with
  | sec => simp at hp
  | life => exact hlife
  | mbox => exact hbuf
  | _ => rfl

/-- The same, where the lifecycle state moves too. -/
theorem changesOnly.setLife {l : List Piece} {x : Sec} {s u : State} (h : changesOnly l s u) (hbuf : x.mboxBuf = u.sec.mboxBuf := by rfl)
    (hl : .sec ∈ l ∧ .life ∈ l := by simp) : changesOnly l s { u with sec := x } := by
  refine h.trans (l' := [.sec, .life]) ?_ (by simpa using hl)
  intro p hp
  cases p with
  | sec | life => simp at hp
  | mbox => exact hbuf
  | _ => rfl

theorem changesOnly.advanceDraw {l : List Piece} {s u : State} (h : changesOnly l s u) (hl : .draws ∈ l := by simp) :
    changesOnly l s (advanceDraw u) :=
  h.trans (l' := [.draws]) (by simp [changesOnly_iff, allPieces, agree]) (by simpa using hl)

theorem changesOnly.emit {l : List Piece} {o : Output} {s u : State} (h : changesOnly l s u) (hl : .out ∈ l := by simp) :
    changesOnly l s (emit o u) :=
  h.trans (l' := [.out]) (by simp [changesOnly_iff, allPieces, agree]) (by simpa using hl)

theorem changesOnly.useNonce {l : List Piece} {s u : State} (h : changesOnly l s u) (hl : .sec ∈ l := by simp) :
    changesOnly l s (useNonce u) :=
  h.setSec (hl := hl)

/-- A register write changes what its effect f changes, and time. -/
theorem changesOnly_regWrite {l : List Piece} {f : State → State} (hf : ∀ s, changesOnly l s (f s)) (ht : .time ∈ l) (t : Nat) (s : State) :
    changesOnly l s (regWrite t f s) :=
  changesOnly_of_tick ht (changesOnly_ite (hf _) (changesOnly_refl l _))

theorem changesOnly_mboxEnd (n : Nat) (st : Status) (out : List Byte) (s : State) : changesOnly [.sec, .mbox] s (mboxEnd n st out s) := by
  intro p hp
  cases p with
  | sec | mbox => simp at hp
  | _ => rfl

/-- A mailbox command changes what its effect f changes, time, and the mailbox. -/
theorem changesOnly_mailbox {l : List Piece} {f : State → Status × List Byte × State} (hf : ∀ s, changesOnly l s (f s).2.2)
    (hl : [.time, .sec, .mbox] ⊆ l) (t n : Nat) (s : State) : changesOnly l s (mailbox t n f s) := by
  refine changesOnly_of_tick (hl (by decide)) (t := t) ?_
  unfold mailbox
  generalize tick t s = s
  have hend : ∀ st out u, changesOnly l s u → changesOnly l s (mboxEnd n st out u) := fun st out u hu =>
    hu.trans (changesOnly_mboxEnd n st out u) fun _ hp => hl (List.mem_cons_of_mem _ hp)
  exact changesOnly_ite (changesOnly_refl l s) (changesOnly_ite (hend _ _ _ (changesOnly_refl l s)) (hend _ _ _ (hf s)))

theorem changesOnly_checked {l : List Piece} {c : Option Status} {f : State → State} {s : State} (hf : changesOnly l s (f s)) :
    changesOnly l s (checked c f s).2.2 := by
  cases c with
  | some st => exact changesOnly_refl l s
  | none => exact hf

/-- The lapse of an unlock is the lifecycle's move back to DEPLOYED, with a record of it. -/
theorem changesOnly_lapse (s : State) : changesOnly [.sec, .cof, .life] s (lapse s) :=
  have hs := changesOnly_refl [.sec, .cof, .life] s
  changesOnly_ite hs.setLife.coffer hs

theorem changesOnly_spdm (t : Nat) (retired ok : Bool) (name : String) (data : List Nat) (s : State) :
    changesOnly [.time, .out] s (spdm t retired ok name data s) :=
  changesOnly_of_tick (t := t) (by decide) (changesOnly_ite (changesOnly_refl _ _)
    (changesOnly_ite ((changesOnly_sendMgmt _ _).mono (by decide)) ((changesOnly_sendMgmt _ _).mono (by decide))))

/-- A session message changes the sessions by f besides its answer. -/
theorem changesOnly_session {l : List Piece} (hl : [.time, .sec, .out] ⊆ l) {f : Sec → Sec} (t : Nat) (ok : Bool) (name : String)
    (data : List Nat) (s : State) (hlife : ∀ x, (f x).life = x.life := by exact fun _ => rfl)
    (hbuf : ∀ x, (f x).mboxBuf = x.mboxBuf := by exact fun _ => rfl) : changesOnly l s (session t ok name data f s) := by
  have hanswer := (changesOnly_spdm t false ok name data s).mono (l := l) fun _ hp => hl (by revert hp; simp; tauto)
  exact changesOnly_ite (hanswer.setSec (hlife _) (hbuf _) (hl (by decide))) hanswer

theorem touches_of_mailbox {l : List Piece} {t n : Nat} {f : State → Status × List Byte × State} (hf : ∀ s, changesOnly l s (f s).2.2)
    (hl : [.time, .sec, .mbox] ⊆ l) {c : Instr} (hc : ∀ s, exec c s = .next (mailbox t n f s)) : Touches c l :=
  fun s => ⟨_, hc s, changesOnly_mailbox hf hl t n s⟩

/-- A mailbox command that passes a check and then acts by f. -/
theorem touches_of_checked {l : List Piece} {t n : Nat} {k : State → Option Status} {f : State → State} (hf : ∀ s, changesOnly l s (f s))
    (hl : [.time, .sec, .mbox] ⊆ l) {c : Instr} (hc : ∀ s, exec c s = .next (mailbox t n (fun s => checked (k s) f s) s)) :
    Touches c l :=
  touches_of_mailbox (fun s => changesOnly_checked (hf s)) hl hc

/-! ## SPDM (R406, R408) -/

theorem touches_getVersion (t : Nat) : Touches (.getVersion t) [.time, .out] := fun s => ⟨_, rfl, changesOnly_spdm _ _ _ _ _ s⟩

theorem touches_getCapabilities (t : Nat) : Touches (.getCapabilities t) [.time, .draws, .out] :=
  fun s => ⟨_, rfl, ((changesOnly_spdm _ _ _ _ _ s).mono (by decide)).advanceDraw⟩

theorem touches_negotiateAlgorithms (t hash asym kem : Nat) : Touches (.negotiateAlgorithms t hash asym kem) [.time, .out] :=
  fun s => ⟨_, rfl, changesOnly_spdm _ _ _ _ _ s⟩

theorem touches_getDigests (t : Nat) : Touches (.getDigests t) [.time, .out] := fun s => ⟨_, rfl, changesOnly_spdm _ _ _ _ _ s⟩

theorem touches_getCertificate (t slot offset length : Nat) : Touches (.getCertificate t slot offset length) [.time, .out] :=
  fun s => ⟨_, rfl, changesOnly_spdm _ _ _ _ _ s⟩

theorem touches_challenge (t slot nonce : Nat) : Touches (.challenge t slot nonce) [.time, .draws, .out] :=
  fun s => ⟨_, rfl, ((changesOnly_spdm _ _ _ _ _ s).mono (by decide)).advanceDraw⟩

theorem touches_getMeasurements (t index : Nat) : Touches (.getMeasurements t index) [.time, .out] :=
  fun s => ⟨_, rfl, changesOnly_spdm _ _ _ _ _ s⟩

theorem touches_keyExchange (t kem sess : Nat) : Touches (.keyExchange t kem sess) [.time, .sec, .draws, .out] :=
  fun s => ⟨_, rfl, (changesOnly_session (l := [.time, .sec, .draws, .out]) (by decide) t _ _ _ s).advanceDraw⟩

/-- The handshake is over, whether or not the session opens. -/
theorem touches_finish (t sess : Nat) (ok : Bool) : Touches (.finish t sess ok) [.time, .sec, .out] := by
  refine fun s => ⟨_, rfl, changesOnly_ite ?ended ?still⟩
  case ended => exact (changesOnly_session (List.Subset.refl _) t _ _ _ s).setSec
  case still => exact changesOnly_session (List.Subset.refl _) t _ _ _ s

theorem touches_endSession (t sess : Nat) : Touches (.endSession t sess) [.time, .sec, .out] :=
  fun s => ⟨_, rfl, changesOnly_session (List.Subset.refl _) t _ _ _ s⟩

theorem touches_ideKm (t sess stream key : Nat) : Touches (.ideKm t sess stream key) [.time, .sec, .out] :=
  fun s => ⟨_, rfl, changesOnly_session (List.Subset.refl _) t _ _ _ s⟩

/-! ## The mailbox (R415, R418) -/

theorem touches_getNonce (t : Nat) : Touches (.getNonce t) [.time, .sec, .draws, .mbox] := by
  refine touches_of_mailbox (fun s => ?_) (by decide) fun _ => rfl
  exact (changesOnly_refl [.time, .sec, .draws, .mbox] s).setSec.advanceDraw

theorem touches_nonceExpiry (t : Nat) : Touches (.nonceExpiry t) [.time, .sec] :=
  fun s => ⟨_, rfl, changesOnly_of_tick (t := t) (by decide)
    (changesOnly_ite (changesOnly_refl [.time, .sec] _).useNonce (changesOnly_refl _ _))⟩

/-- UNLOCK is refused by a check, the third of which spends the nonce, or unlocks with a record of it. -/
theorem touches_unlock (t : Nat) (k : UnlockToken) : Touches (.unlock t k) [.time, .sec, .cof, .life, .mbox] := by
  refine touches_of_mailbox (fun s => ?_) (by decide) fun _ => rfl
  have hs := changesOnly_refl [.time, .sec, .cof, .life, .mbox] s
  unfold unlockRun
  repeat' split
  case isTrue => exact hs
  case isTrue => exact hs
  case isTrue => exact hs
  case isTrue => exact hs
  case isTrue => exact hs.useNonce
  case isTrue => exact hs
  case isFalse => exact hs.setLife.useNonce.coffer

theorem touches_relock (t : Nat) (byMailbox : Bool) : Touches (.relock t byMailbox) [.time, .sec, .cof, .life, .mbox] := by
  have hlapse : ∀ s, changesOnly [.time, .sec, .cof, .life, .mbox] s (lapse s) := fun s => (changesOnly_lapse s).mono (by decide)
  refine fun s => ⟨_, rfl, changesOnly_ite ?mailbox (changesOnly_ite ?register ?held)⟩
  case mailbox => exact changesOnly_mailbox (fun s => changesOnly_checked (hlapse s)) (by decide) _ _ s
  case register => exact changesOnly_of_tick (by decide) (hlapse _)
  case held => exact changesOnly_of_tick (by decide) (changesOnly_refl _ _)

theorem touches_unlockLifetimeEnd (t : Nat) : Touches (.unlockLifetimeEnd t) [.time, .sec, .cof, .life] :=
  fun s => ⟨_, rfl, changesOnly_of_tick (t := t) (by decide)
    (changesOnly_ite ((changesOnly_lapse _).mono (by decide)) (changesOnly_refl _ _))⟩

theorem touches_provision (t : Nat) (sigOk : Bool) : Touches (.provision t sigOk) [.time, .sec, .cof, .draws, .life, .mbox] := by
  refine touches_of_mailbox (fun s => ?_) (by decide) fun _ => rfl
  have hs := changesOnly_refl [.time, .sec, .cof, .draws, .life, .mbox] s
  split
  case isTrue => exact hs
  case isFalse => exact hs.setLife.advanceDraw.advanceDraw.coffer

/-- The keys of DEPLOY change the key slots alone. -/
theorem changesOnly_deployKeys (keys : List (Option Digest)) (s : State) : changesOnly [.sec] s (deployKeys keys s) := by
  refine changesOnly_forEach (fun n s => ?_) _ s
  split
  case h_1 => exact (changesOnly_refl _ s).setSec
  case h_2 => exact changesOnly_refl _ s

theorem touches_deploy (t : Nat) (keys : List (Option Digest)) : Touches (.deploy t keys) [.time, .sec, .cof, .life, .mbox] := by
  refine touches_of_checked (fun s => ?_) (by decide) fun _ => rfl
  have hkeys : changesOnly [.time, .sec, .cof, .life, .mbox] s (deployKeys keys s) := (changesOnly_deployKeys keys s).mono (by decide)
  exact hkeys.setLife.coffer

theorem touches_keyAdd (t slot : Nat) (key : Digest) (nonce : Nat) (sigOk : Bool) :
    Touches (.keyAdd t slot key nonce sigOk) [.time, .sec, .cof, .mbox] := by
  refine touches_of_checked (fun s => ?_) (by decide) fun _ => rfl
  exact (changesOnly_refl [.time, .sec, .cof, .mbox] s).setSec.useNonce.coffer

theorem touches_keyRevoke (t slot nonce signer : Nat) (sigOk : Bool) :
    Touches (.keyRevoke t slot nonce signer sigOk) [.time, .sec, .cof, .mbox] := by
  refine touches_of_checked (fun s => ?_) (by decide) fun _ => rfl
  exact (changesOnly_refl [.time, .sec, .cof, .mbox] s).setSec.useNonce.coffer

/-- The parts that RETIRE may change: those of a job's teardown, and Sirdoyx's. -/
def retireParts : List Piece := [.time, .hi, .ctxs, .mem, .fab, .srv, .ops, .mdl, .exu, .coll, .xn, .pw, .sec, .td, .cof, .out, .dram,
  .scratch, .life, .mbox]

theorem changesOnly_teardownJob (silent : Bool) (i : Nat) (st : Status) (s : State) :
    changesOnly exchangeParts s (teardownJob silent i st s) :=
  changesOnly_exchangeParts (by simp)

theorem changesOnly_zeroMemory (s : State) : changesOnly [.mem, .dram] s (zeroMemory s) := by
  intro p hp
  cases p with
  | mem | dram => simp at hp
  | _ => rfl

/-- The jobs end one after another; then memory is zeroed and the seed blown, with a record of it. -/
theorem touches_retire (t nonce signer : Nat) (sigOk : Bool) : Touches (.retire t nonce signer sigOk) retireParts := by
  refine touches_of_checked (fun s => ?_) (by decide) fun _ => rfl
  have hjobs : changesOnly retireParts s (forEach (fun i s => if (jobAt s i).present then teardownJob false i .jobTornDown s else s)
      (List.range 16) s) :=
    changesOnly_forEach (fun i s => changesOnly_ite ((changesOnly_teardownJob _ _ _ s).mono (by decide)) (changesOnly_refl _ s)) _ s
  dsimp only
  generalize forEach _ (List.range 16) s = u at hjobs ⊢
  have hlife := hjobs.setLife (x := { u.sec with life := .retired, level := 3, pfLevel := 0, unlockEnd := 0, tokenDigest := 0, seedBlown := true })
    (hl := by decide)
  exact ((hlife.trans (changesOnly_zeroMemory _) (by decide)).useNonce (by decide)).coffer (by decide)

theorem touches_logRead (t log first : Nat) : Touches (.logRead t log first) [.time, .sec, .draws, .mbox] := by
  refine touches_of_mailbox (fun s => ?_) (by decide) fun _ => rfl
  have hs := changesOnly_refl [.time, .sec, .draws, .mbox] s
  split
  case isTrue => exact hs
  case isFalse => exact hs.setSec.advanceDraw.advanceDraw

theorem touches_certWrite (t : Nat) (chain : List Byte) : Touches (.certWrite t chain) [.time, .sec, .mbox] := by
  refine touches_of_checked (fun s => ?_) (by decide) fun _ => rfl
  exact (changesOnly_refl [.time, .sec, .mbox] s).setSec

/-! ## Debug levels and the TAP (R412, R414) -/

theorem changesOnly_writeDebug (v : Word) (s : State) : changesOnly [.time, .sec, .cof, .life] s (writeDebug v s) := by
  have hs := changesOnly_refl [.time, .sec, .cof, .life] s
  exact changesOnly_ite hs (changesOnly_ite ((changesOnly_lapse s).mono (by decide)) (changesOnly_ite (hs.setSec) hs))

theorem touches_pfLevelWrite (t : Nat) (v : Word) : Touches (.pfLevelWrite t v) [.time, .sec, .cof, .life] :=
  fun s => ⟨_, rfl, changesOnly_regWrite (changesOnly_writeDebug v) (by decide) t s⟩

/-- The parts that a TAP instruction or a debug transaction may change. -/
def tapParts : List Piece := [.time, .mem, .fab, .sec, .draws, .out, .dram, .scratch]

theorem changesOnly_tapAccess (op : TapOp) (s : State) : changesOnly tapParts s (tapAccess op s) := by
  have hs := changesOnly_refl tapParts s
  cases op with
  | readDebug n => exact changesOnly_ite ((hs.emit (by decide)).advanceDraw (by decide)) hs
  | haltCore | runCore => exact changesOnly_ite (hs.setSec (hl := by decide)) hs
  | readMem | readScratch => exact changesOnly_ite (hs.emit (by decide)) hs
  | writeMem => exact changesOnly_ite (by simp [changesOnly_iff, allPieces, agree, tapParts]) hs
  | writeScratch => exact changesOnly_ite (by simp [changesOnly_iff, allPieces, agree, tapParts]) hs
  | _ => exact hs

theorem changesOnly_tapRun (op : TapOp) (s : State) : changesOnly tapParts s (tapRun op s) := by
  have hs := changesOnly_refl tapParts s
  have haccess := changesOnly_tapAccess op s
  cases op with
  | idcode => exact (hs.setSec (hl := by decide)).emit (by decide)
  | other => exact hs.setSec (hl := by decide)
  | bypass | samplePreload | extest | clamp | highz | dbgRead | dbgFull => exact hs.setSec (hl := by decide)
  | readDebug | haltCore | runCore | stepCore | readMem | writeMem | readScratch | writeScratch => exact haccess

theorem touches_tapInstruction (t : Nat) (op : TapOp) : Touches (.tapInstruction t op) tapParts := by
  refine fun s => ⟨_, rfl, changesOnly_of_tick (t := t) (by decide) ?_⟩
  generalize tick t s = s
  have hs := changesOnly_refl tapParts s
  exact changesOnly_ite hs (changesOnly_ite (changesOnly_tapRun op s) (changesOnly_ite hs (hs.setSec (hl := by decide))))

/-- Settles O41, command by command: a mailbox command by its checks, another by its branches. -/
theorem theSecurityFrame : Obligations.TheSecurityFrame :=
  ⟨touches_getVersion, touches_getCapabilities, touches_negotiateAlgorithms, touches_getDigests, touches_getCertificate,
    touches_challenge, touches_getMeasurements, touches_keyExchange, touches_finish, touches_endSession, touches_ideKm, touches_getNonce,
    touches_nonceExpiry, touches_unlock, touches_relock, touches_unlockLifetimeEnd, touches_provision, touches_deploy, touches_keyAdd,
    touches_keyRevoke, touches_retire, touches_logRead, touches_certWrite, touches_pfLevelWrite, touches_tapInstruction⟩

end Sys2Proof.Machine
end

section
/-! SUPPORT. The proof of O42: what windows, readings, caps, power states, coolant and thermal events and the resets leave
unchanged (R27, R312, R372 to R396, R441 to R457, R479 to R482). -/
set_option Elab.async false
namespace Sys2Proof.Machine

/-! ## What the families of events may change -/

/-- The parts that a change of the caps or of an emergency may change. -/
def capParts : List Piece := [.time, .hi, .ctxs, .mem, .fab, .srv, .mdl, .exu, .xn, .pw, .td, .cof, .out, .dram]

/-- The parts that the start of a scheduling window may change: operations and the books of background work besides. -/
def windowParts : List Piece := [.time, .hi, .ctxs, .mem, .fab, .srv, .ops, .mdl, .exu, .xn, .pw, .td, .out, .dram]

/-- The parts that the operations which go on may change. -/
def kickParts : List Piece := [.hi, .ctxs, .mem, .fab, .srv, .ops, .mdl, .xn, .pw, .sec, .td, .out, .dram]

/-- The parts that a request for a power state may change: one withdrawn lets operations go on. -/
def requestParts : List Piece := [.time, .hi, .ctxs, .mem, .fab, .srv, .ops, .mdl, .xn, .pw, .sec, .td, .out, .dram, .pst]

/-- The parts that an exit from a low state may change. -/
def exitParts : List Piece :=
  [.time, .hi, .ctxs, .mem, .fab, .srv, .ops, .mdl, .exu, .xn, .pw, .sec, .td, .cof, .out, .dram, .lock, .pst]

/-- The parts that a coolant stop may change. -/
def coolantParts : List Piece :=
  [.time, .hi, .ctxs, .mem, .fab, .srv, .ops, .mdl, .exu, .coll, .xn, .pw, .td, .cof, .out, .dram, .scratch, .pst]

/-- The parts that a cold boot may change: all but the queue, the draws and what has been sent. -/
def bootParts : List Piece := [.time, .id, .hi, .ctxs, .mem, .fab, .srv, .ops, .mdl, .exu, .coll, .xn, .pw, .sec, .td, .cof, .dram,
  .scratch, .lock, .life, .mbox, .pst]

/-- The parts that a loss of the supplies may change: all that a cold boot may, but the ID block. -/
def lossOfPowerParts : List Piece := [.time, .hi, .ctxs, .mem, .fab, .srv, .ops, .mdl, .exu, .coll, .xn, .pw, .sec, .td, .cof, .dram,
  .scratch, .lock, .life, .mbox, .pst]

/-- The parts that the entry into a low state may change. -/
def entryParts : List Piece := [.time, .hi, .ctxs, .mem, .fab, .srv, .ops, .mdl, .exu, .coll, .xn, .pw, .sec, .td, .cof, .out, .dram,
  .scratch, .lock, .life, .mbox, .pst]

/-- The parts that a hot or warm reset may change: all but the queue and the draws. -/
def resetParts : List Piece := [.time, .id, .hi, .ctxs, .mem, .fab, .srv, .ops, .mdl, .exu, .coll, .xn, .pw, .sec, .td, .cof, .out, .dram,
  .scratch, .lock, .life, .mbox, .pst]

section
variable {s u : State}

theorem changesOnly_capParts (h : u.pending = s.pending ∧ u.id = s.id ∧ u.ops = s.ops ∧ u.coll = s.coll ∧ u.sec = s.sec ∧
    u.draws = s.draws ∧ u.fab.scratch = s.fab.scratch ∧ u.hi.lock = s.hi.lock ∧ u.pw.st = s.pw.st) : changesOnly capParts s u := by
  simp [changesOnly_iff, allPieces, agree, capParts, h]

theorem changesOnly_exitParts (h : u.pending = s.pending ∧ u.id = s.id ∧ u.coll = s.coll ∧ u.draws = s.draws ∧
    u.fab.scratch = s.fab.scratch ∧ u.sec.life = s.sec.life ∧ u.sec.mboxBuf = s.sec.mboxBuf) : changesOnly exitParts s u := by
  simp [changesOnly_iff, allPieces, agree, exitParts, h]

theorem changesOnly_bootParts (h : u.pending = s.pending ∧ u.draws = s.draws ∧ u.out = s.out) : changesOnly bootParts s u := by
  simp [changesOnly_iff, allPieces, agree, bootParts, h]

theorem changesOnly_lossOfPowerParts (h : u.pending = s.pending ∧ u.id = s.id ∧ u.draws = s.draws ∧ u.out = s.out) :
    changesOnly lossOfPowerParts s u := by
  simp [changesOnly_iff, allPieces, agree, lossOfPowerParts, h]

theorem changesOnly_entryParts (h : u.pending = s.pending ∧ u.id = s.id ∧ u.draws = s.draws) : changesOnly entryParts s u := by
  simp [changesOnly_iff, allPieces, agree, entryParts, h]

theorem changesOnly_resetParts (h : u.pending = s.pending ∧ u.draws = s.draws) : changesOnly resetParts s u := by
  simp [changesOnly_iff, allPieces, agree, resetParts, h]

/-- A change of the power part changes that part and the power state alone. -/
theorem changesOnly.setPst {l : List Piece} {p : Power} (h : changesOnly l s u) (hl : .pw ∈ l ∧ .pst ∈ l := by decide) :
    changesOnly l s { u with pw := p } := by
  refine h.trans (l' := [.pw, .pst]) ?_ (by simpa using hl)
  intro q hq
  cases q with
  | pw | pst => simp at hq
  | _ => rfl

/-- A change of the fabric that keeps the islands' bytes changes the fabric alone. -/
theorem changesOnly.setFab {l : List Piece} {x : Fabric} (h : changesOnly l s u) (hx : x.scratch = u.fab.scratch := by rfl)
    (hl : .fab ∈ l := by decide) : changesOnly l s { u with fab := x } := by
  refine h.trans (l' := [.fab]) ?_ (by simpa using hl)
  intro q hq
  cases q with
  | fab => simp at hq
  | scratch => exact hx
  | _ => rfl

/-- A change of the host interface that keeps the lock changes that part alone. -/
theorem changesOnly.setHi {l : List Piece} {x : HostIf} (h : changesOnly l s u) (hx : x.lock = u.hi.lock := by rfl)
    (hl : .hi ∈ l := by decide) : changesOnly l s { u with hi := x } := by
  refine h.trans (l' := [.hi]) ?_ (by simpa using hl)
  intro q hq
  cases q with
  | hi => simp at hq
  | lock => exact hx
  | _ => rfl

end

/-! ## The operations that the events share -/

section
variable (s : State)

theorem changesOnly_controlPass (forced : Bool) : changesOnly promptParts s (controlPass forced s) := changesOnly_promptParts (by simp)

theorem changesOnly_setEmergency (cap therm : Bool) : changesOnly capParts s (setEmergency cap therm s) := changesOnly_capParts (by simp)

theorem changesOnly_capMoves (old : Nat) : changesOnly capParts s (capMoves old s) := changesOnly_capParts (by simp)

theorem changesOnly_keepFloors (floors : List Nat) : changesOnly [.fab] s (keepFloors floors s) := by
  simp [changesOnly_iff, allPieces, agree]

theorem changesOnly_powerEvent (cause : Nat) : changesOnly [.out] s (powerEvent cause s) := by simp [changesOnly_iff, allPieces, agree]

theorem changesOnly_modField (f : Nat) (g : Field → Field) : changesOnly [.fab] s (modField f g s) := by
  simp [changesOnly_iff, allPieces, agree]

theorem changesOnly_kickAll : changesOnly kickParts s (kickAll s) := by simp [changesOnly_iff, allPieces, agree, kickParts]

theorem changesOnly_railsOff : changesOnly [.fab] s (railsOff s) := by simp [changesOnly_iff, allPieces, agree]

theorem changesOnly_portsDown : changesOnly portParts s (portsDown s) := changesOnly_portParts (by simp)

theorem changesOnly_bringAll : changesOnly [.fab, .pw, .cof] s (bringAll s) := by simp [changesOnly_iff, allPieces, agree]

theorem changesOnly_stopSteps : changesOnly coolantParts s (stopSteps s) := by simp [changesOnly_iff, allPieces, agree, coolantParts]

/-- The exit begins with the four indicators clear. -/
theorem changesOnly_startExit : changesOnly [.pw, .pst] s (startExit s) := (changesOnly_refl _ s).setPst

end

section
variable {l : List Piece} {s u : State} (h : changesOnly l s u)
include h

theorem changesOnly.controlPass {forced : Bool} (hl : promptParts ⊆ l := by decide) : changesOnly l s (controlPass forced u) :=
  h.trans (changesOnly_controlPass u forced) hl

theorem changesOnly.setEmergency {cap therm : Bool} (hl : capParts ⊆ l := by decide) : changesOnly l s (setEmergency cap therm u) :=
  h.trans (changesOnly_setEmergency u cap therm) hl

theorem changesOnly.capMoves {old : Nat} (hl : capParts ⊆ l := by decide) : changesOnly l s (capMoves old u) :=
  h.trans (changesOnly_capMoves u old) hl

theorem changesOnly.keepFloors {floors : List Nat} (hl : [.fab] ⊆ l := by decide) : changesOnly l s (keepFloors floors u) :=
  h.trans (changesOnly_keepFloors u floors) hl

theorem changesOnly.powerEvent {cause : Nat} (hl : [.out] ⊆ l := by decide) : changesOnly l s (powerEvent cause u) :=
  h.trans (changesOnly_powerEvent u cause) hl

theorem changesOnly.modField {f : Nat} {g : Field → Field} (hl : [.fab] ⊆ l := by decide) : changesOnly l s (modField f g u) :=
  h.trans (changesOnly_modField u f g) hl

theorem changesOnly.forEach {α : Type} {g : α → State → State} {xs : List α} (hg : ∀ x s, changesOnly l s (g x s)) :
    changesOnly l s (forEach g xs u) :=
  h.trans (changesOnly_forEach hg xs u) (List.Subset.refl l)

end

/-! ## Windows, readings and heat (R27, R312, R382 to R384, R394 to R396) -/

/-- Entitlements, the waiting tests and the floors of the window, one after another, and then the control pass. -/
theorem touches_schedulingWindow (t : Nat) : Touches (.schedulingWindow t) windowParts := by
  refine fun s => ⟨_, rfl, changesOnly_of_tick (t := t) (by decide) ?_⟩
  generalize tick t s = s
  refine .controlPass (.setPw (.keepFloors (.forEach (.forEach (.forEach (.setFab (changesOnly_refl _ s)) ?job) ?test) ?droop)) (by rfl) (by decide))
  case job =>
    exact fun i s => changesOnly.mono (l' := [.fab, .srv]) (by simp [changesOnly_iff, allPieces, agree]) (by decide)
  case test =>
    exact fun e s => changesOnly.mono (l' := [.fab, .ops, .td]) (by simp [changesOnly_iff, allPieces, agree]) (by decide)
  case droop =>
    exact fun f s => changesOnly.mono (l' := [.fab]) (by simp [changesOnly_iff, allPieces, agree]) (by decide)

theorem touches_guardBandLower (t field : Nat) : Touches (.guardBandLower t field) promptParts := by
  refine fun s => ⟨_, rfl, changesOnly_of_tick (t := t) (by decide) ?_⟩
  have hs := changesOnly_refl promptParts (tick t s)
  exact changesOnly_ite hs (.controlPass (.modField hs))

theorem touches_railReading (t : Nat) (readings : List (Nat × Option Nat)) : Touches (.railReading t readings) capParts := by
  refine fun s => ⟨_, rfl, changesOnly_of_tick (t := t) (by decide) ?_⟩
  have hread : ∀ e s, changesOnly capParts s (takeReading e s) := fun e s => changesOnly_capParts (by simp)
  have hint : ∀ u, changesOnly capParts (tick t s) u → changesOnly capParts (tick t s) (integrate u) := fun u hu =>
    hu.trans (changesOnly_capParts (by simp)) (List.Subset.refl _)
  exact .controlPass (hint _ (.setPw (.forEach (changesOnly_refl _ _) hread) (by rfl) (by decide)))

theorem changesOnly_fitField (f : Nat) (x : ThermFit) (hot : Nat) (s : State) : changesOnly [.fab, .pw] s (fitField f x hot s) := by
  simp [changesOnly_iff, allPieces, agree]

/-- The fields are fitted one after another; the floors and the emergency follow. -/
theorem touches_thermalModelUpdate (t : Nat) (fits : List ThermFit) (sensors : List Nat) :
    Touches (.thermalModelUpdate t fits sensors) capParts := by
  refine fun s => ⟨_, rfl, changesOnly_of_tick (t := t) (by decide) ?_⟩
  refine .setEmergency (.keepFloors (.setPw (.forEach (changesOnly_refl _ _) fun f s => ?fit) (by rfl) (by decide)))
  case fit =>
    split
    case h_1 => exact (changesOnly_fitField _ _ _ s).mono (by decide)
    case h_2 => exact changesOnly_refl _ s

theorem touches_sensor105 (t field : Nat) : Touches (.sensor105 t field) capParts := by
  refine fun s => ⟨_, rfl, changesOnly_of_tick (t := t) (by decide) ?_⟩
  have hs := changesOnly_refl capParts (tick t s)
  exact changesOnly_ite hs (.setEmergency (.coffer (.modField (.forEach hs fun n s => (changesOnly_modIsl s n _).mono (by decide))) (by decide)))

theorem touches_thermtrip (t : Nat) : Touches (.thermtrip t) [.time, .pw, .cof] :=
  fun s => ⟨_, rfl, changesOnly_ite (changesOnly_tick.mono (by decide)) (.setPw (changesOnly_tripCoffer t s) (by rfl))⟩

theorem touches_railSetpointReached (t field : Nat) : Touches (.railSetpointReached t field) promptParts := by
  refine fun s => ⟨_, rfl, changesOnly_of_tick (t := t) (by decide) ?_⟩
  have hs := changesOnly_refl promptParts (tick t s)
  exact changesOnly_ite hs (.controlPass (.modField hs))

/-! ## Caps and floors (R385 to R391) -/

theorem touches_pwrwarnNAssert (t : Nat) : Touches (.pwrwarnNAssert t) capParts := by
  refine fun s => ⟨_, rfl, changesOnly_of_tick (t := t) (by decide) ?_⟩
  have hs := changesOnly_refl capParts (tick t s)
  have hwarned := changesOnly.powerEvent (cause := 0) (changesOnly.coffer (source := 7) (severity := 1) (ev := .pwrwarn) (unit := 0)
    (job := 0) (mc := 0) (addr := 0) (hs.setPw (p := { s.pw with pwrwarn := true, pwrwarnCap := true }) (by rfl) (by decide)) (by decide))
  exact changesOnly_ite hs (changesOnly_ite hwarned (.controlPass (.capMoves hwarned)))

theorem touches_pwrwarnClear (t : Nat) : Touches (.pwrwarnClear t) capParts :=
  fun s => ⟨_, rfl, changesOnly_of_tick (t := t) (by decide) (.capMoves (.setPw (changesOnly_refl _ _) (by rfl) (by decide)))⟩

theorem touches_leaseExpiry (t : Nat) : Touches (.leaseExpiry t) capParts := by
  refine fun s => ⟨_, rfl, changesOnly_of_tick (t := t) (by decide) ?_⟩
  have hs := changesOnly_refl capParts (tick t s)
  exact changesOnly_ite hs (.capMoves (.powerEvent (.coffer (.setPw hs (by rfl) (by decide)) (by decide))))

theorem touches_setCap (t eid cap flags : Nat) : Touches (.setCap t eid cap flags) capParts := by
  refine fun s => ⟨_, rfl, changesOnly_of_tick (t := t) (by decide) ?_⟩
  have hs := changesOnly_refl capParts (tick t s)
  exact changesOnly_ite hs (.capMoves (.setPw hs (by rfl) (by decide)))

theorem touches_heartbeat (t eid : Nat) : Touches (.heartbeat t eid) [.time, .pw] := by
  refine fun s => ⟨_, rfl, changesOnly_of_tick (t := t) (by decide) ?_⟩
  have hs := changesOnly_refl [.time, .pw] (tick t s)
  exact changesOnly_ite (.setPw hs (by rfl)) hs

theorem changesOnly_pwRefuse (s : State) : changesOnly [.pw] s (pwRefuse s) := .setPw (changesOnly_refl _ s) (by rfl)

theorem touches_pwCapWrite (t : Nat) (v : Word) : Touches (.pwCapWrite t v) capParts := by
  refine fun s => ⟨_, rfl, changesOnly_regWrite (fun s => changesOnly_ite ?refused ?taken) (by decide) t s⟩
  case refused => exact (changesOnly_pwRefuse s).mono (by decide)
  case taken => exact .capMoves (.setPw (changesOnly_refl _ s) (by rfl) (by decide))

theorem changesOnly_violate (s : State) : changesOnly [.hi] s (violate s) := .setHi (changesOnly_refl _ s)

/-- A write of a write-locked field changes what its effect f changes, or sets VIOLATION. -/
theorem changesOnly_lockedWrite {l : List Piece} {refused changes : Bool} {f : State → State} {s : State}
    (hf : changesOnly l s (f s)) (hl : .hi ∈ l) : changesOnly l s (lockedWrite refused changes f s) :=
  changesOnly_ite hf (changesOnly_ite ((changesOnly_violate s).mono (by simpa using hl)) (changesOnly_refl l s))

theorem changesOnly_setFloor (w : Nat) (s : State) : changesOnly capParts s (setFloor w s) :=
  changesOnly_ite ((changesOnly_pwRefuse s).mono (by decide)) (.capMoves (.keepFloors (.setPw (changesOnly_refl _ s) (by rfl) (by decide))))

theorem touches_pwFloorWrite (t : Nat) (v : Word) : Touches (.pwFloorWrite t v) capParts :=
  fun s => ⟨_, rfl, changesOnly_regWrite (fun s => changesOnly_lockedWrite (changesOnly_setFloor _ s) (by decide)) (by decide) t s⟩

/-- The parts that a change of the phase or of an operating point may change. -/
def pointParts : List Piece := [.time, .hi, .ctxs, .mem, .fab, .srv, .mdl, .exu, .xn, .pw, .td, .out, .dram]

theorem touches_pwPhaseWrite (t : Nat) (v : Word) : Touches (.pwPhaseWrite t v) pointParts := by
  refine fun s => ⟨_, rfl, changesOnly_regWrite (fun s => changesOnly_ite ?refused ?taken) (by decide) t s⟩
  case refused => exact (changesOnly_pwRefuse s).mono (by decide)
  case taken => exact .controlPass (.setPw (changesOnly_refl _ s) (by rfl) (by decide))

theorem touches_pwOpWrite (t n : Nat) (v : Word) : Touches (.pwOpWrite t n v) pointParts := by
  refine fun s => ⟨_, rfl, changesOnly_regWrite (fun s => changesOnly_ite ?refused ?taken) (by decide) t s⟩
  case refused => exact (changesOnly_pwRefuse s).mono (by decide)
  case taken =>
    split
    case h_6 => exact changesOnly_refl _ s
    all_goals exact .controlPass (.setPw (changesOnly_refl _ s) (by rfl) (by decide))

theorem touches_fbSchedCtrlWrite (t : Nat) (v : Word) : Touches (.fbSchedCtrlWrite t v) [.time, .fab] := by
  refine fun s => ⟨_, rfl, changesOnly_regWrite (fun s => ?_) (by decide) t s⟩
  have hs := changesOnly_refl [.time, .fab] s
  exact changesOnly_ite (.setFab hs) (.setFab hs)

/-! ## Power states (R372 to R381) -/

theorem changesOnly_requestRun (s : State) : changesOnly requestParts s (requestRun s) := by
  have hs := changesOnly_refl requestParts s
  have hwithdrawn : changesOnly requestParts s (if s.pw.pending then kickAll { s with pw := { s.pw with pending := false, target := .run } } else s) :=
    changesOnly_ite (.trans (.setPst hs) (changesOnly_kickAll _) (by decide)) hs
  have hexit := hwithdrawn.trans (changesOnly_startExit _) (by decide)
  exact changesOnly_ite hexit (changesOnly_ite hexit hwithdrawn)

theorem changesOnly_requestLow (target : PState) (s : State) : changesOnly [.pw] s (requestLow target s) :=
  changesOnly_ite (changesOnly_refl _ s) (.setPw (changesOnly_refl _ s) (by rfl))

/-- A request code asks for RUN, for a low state, or for nothing. -/
theorem changesOnly_requestOf (req : Nat) (s : State) : changesOnly requestParts s (requestOf req s) := by
  have hlow : ∀ target, changesOnly requestParts s (requestLow target s) := fun target => (changesOnly_requestLow target s).mono (by decide)
  exact changesOnly_ite (changesOnly_requestRun s) (changesOnly_ite (hlow _) (changesOnly_ite (hlow _)
    (changesOnly_ite (hlow _) (changesOnly_refl _ s))))

theorem changesOnly_writeReq (req : Nat) (s : State) : changesOnly requestParts s (writeReq req s) := by
  refine changesOnly_ite (.trans (l' := requestParts) (.setPst (changesOnly_refl _ s)) (changesOnly_requestOf _ _) (by decide)) ?refused
  case refused => exact (changesOnly_pwRefuse s).mono (by decide)

theorem touches_requestRun (t : Nat) : Touches (.requestRun t) requestParts :=
  fun s => ⟨_, rfl, changesOnly_regWrite (changesOnly_writeReq 0) (by decide) t s⟩

theorem touches_requestSleep (t : Nat) : Touches (.requestSleep t) requestParts :=
  fun s => ⟨_, rfl, changesOnly_regWrite (changesOnly_writeReq 2) (by decide) t s⟩

theorem touches_requestDeep (t : Nat) : Touches (.requestDeep t) requestParts :=
  fun s => ⟨_, rfl, changesOnly_regWrite (changesOnly_writeReq 3) (by decide) t s⟩

theorem touches_requestOff (t : Nat) : Touches (.requestOff t) requestParts :=
  fun s => ⟨_, rfl, changesOnly_regWrite (changesOnly_writeReq 4) (by decide) t s⟩

theorem touches_setState (t eid req : Nat) : Touches (.setState t eid req) requestParts :=
  fun s => ⟨_, rfl, changesOnly_of_tick (t := t) (by decide) (changesOnly_ite (changesOnly_requestOf req _) (changesOnly_refl _ _))⟩

theorem touches_idleEntry (t : Nat) : Touches (.idleEntry t) [.time, .pw, .pst] := by
  refine fun s => ⟨_, rfl, changesOnly_of_tick (t := t) (by decide) ?_⟩
  have hs := changesOnly_refl [.time, .pw, .pst] (tick t s)
  exact changesOnly_ite hs (.setPst hs)

/-- Each low state is entered where its conditions hold; SLEEP keeps what DEEP and OFF lose. -/
theorem touches_stateEntry (t : Nat) : Touches (.stateEntry t) entryParts := by
  refine fun s => ⟨_, rfl, changesOnly_of_tick (t := t) (by decide) ?_⟩
  generalize tick t s = s
  have hs := changesOnly_refl entryParts s
  refine changesOnly_ite hs ?_
  split
  case h_1 => exact changesOnly_ite (changesOnly_entryParts (by simp)) hs
  case h_2 => exact changesOnly_ite (changesOnly_entryParts (by simp)) hs
  case h_3 => exact changesOnly_ite (changesOnly_entryParts (by simp)) hs
  case h_4 => exact hs

theorem changesOnly_leaveLow (s : State) : changesOnly exitParts s (leaveLow s) := changesOnly_exitParts (by simp)

theorem touches_stateExit (t step : Nat) : Touches (.stateExit t step) exitParts := by
  refine fun s => ⟨_, rfl, changesOnly_of_tick (t := t) (by decide) ?_⟩
  have hs := changesOnly_refl exitParts (tick t s)
  refine changesOnly_ite hs (changesOnly_ite (.setPst (.setPst hs)) (changesOnly_ite (.setPst (.setPst hs)) (changesOnly_ite (.setPst (.setPst hs)) ?_)))
  exact .trans (.setPst hs) (changesOnly_leaveLow _) (by decide)

theorem touches_exitStepTimeout (t step : Nat) : Touches (.exitStepTimeout t step) [.time, .pw, .cof] := by
  refine fun s => ⟨_, rfl, changesOnly_of_tick (t := t) (by decide) ?_⟩
  have hs := changesOnly_refl [.time, .pw, .cof] (tick t s)
  exact changesOnly_ite hs (changesOnly_ite (.setPw hs (by rfl)) (.coffer (.setPw hs (by rfl))))

theorem changesOnly_coldBoot (fromOff : Bool) (straps : Nat) (s : State) : changesOnly bootParts s (coldBoot fromOff straps s) :=
  changesOnly_bootParts (by simp)

theorem touches_wakeN (t : Nat) : Touches (.wakeN t) bootParts := by
  refine fun s => ⟨_, rfl, changesOnly_of_tick (t := t) (by decide) ?_⟩
  have hs := changesOnly_refl bootParts (tick t s)
  exact changesOnly_ite (changesOnly_ite ((changesOnly_startExit _).mono (by decide)) (changesOnly_ite (changesOnly_coldBoot _ _ _) hs)) hs

theorem touches_sidebandAddressMatch (t addr : Nat) (setStateRun : Bool) :
    Touches (.sidebandAddressMatch t addr setStateRun) [.time, .pw, .pst] :=
  fun s => ⟨_, rfl, changesOnly_of_tick (t := t) (by decide)
    (changesOnly_ite ((changesOnly_startExit _).mono (by decide)) (changesOnly_refl _ _))⟩

theorem touches_pmeTurnOff (t : Nat) : Touches (.pmeTurnOff t) [.time, .pw, .out] := by
  refine fun s => ⟨_, rfl, changesOnly_of_tick (t := t) (by decide) ?_⟩
  have hs := changesOnly_refl [.time, .pw, .out] (tick t s)
  exact changesOnly_ite (.emit (.setPw hs (by rfl))) hs

/-! ## The coolant stop (R392, R393) -/

/-- The order of Table 16.8: the steps, the requests, the jobs, and then rails and ports. -/
theorem touches_coolantStop (t : Nat) : Touches (.coolantStop t) coolantParts := by
  refine fun s => ⟨_, rfl, changesOnly_of_tick (t := t) (by decide) ?_⟩
  generalize tick t s = s
  have hs : changesOnly coolantParts s { s with pw := { s.pw with coolant := false, coolantOk1s := false } } :=
    .setPst (changesOnly_refl _ s)
  have hcof := hs.coffer (source := 7) (severity := 3) (ev := .coolantStop) (unit := 0) (job := 0) (mc := 0) (addr := 0) (by decide)
  have hstop : ∀ u, changesOnly coolantParts s u → changesOnly coolantParts s (stopSteps u) := fun u hu =>
    hu.trans (changesOnly_stopSteps u) (by decide)
  have hdown : ∀ u, changesOnly coolantParts s u → changesOnly coolantParts s (portsDown (railsOff u)) := fun u hu =>
    (hu.trans (changesOnly_railsOff u) (by decide)).trans (changesOnly_portsDown _) (by decide)
  refine changesOnly_ite hs (changesOnly_ite hcof (.setPst (.powerEvent (hdown _ (.forEach (.forEach (hstop _ (.setPst ?frozen)) ?waits) ?jobs)))))
  case frozen => exact hcof.trans (changesOnly_freezeCoffer _ _) (by decide)
  case waits => exact fun k s => (changesOnly_declineWaiting s k _).mono (by decide)
  case jobs =>
    exact fun i s => changesOnly_ite ((changesOnly_failAdmit i _ s).mono (by decide))
      (changesOnly_ite ((changesOnly_teardownJob _ i _ s).mono (by decide)) (changesOnly_refl _ s))

theorem touches_clockStopTimeout (t : Nat) : Touches (.clockStopTimeout t) [.time, .pw, .cof] := by
  refine fun s => ⟨_, rfl, changesOnly_of_tick (t := t) (by decide) ?_⟩
  have hs := changesOnly_refl [.time, .pw, .cof] (tick t s)
  exact changesOnly_ite (.coffer (.setPw hs (by rfl))) hs

/-- Each request that is still open is noted in the Coffer and ends silently. -/
theorem touches_completionWriteTimeout (t : Nat) : Touches (.completionWriteTimeout t) recordParts := by
  refine fun s => ⟨_, rfl, changesOnly_of_tick (t := t) (by decide) ?_⟩
  have hs := changesOnly_refl recordParts (tick t s)
  refine changesOnly_ite (.forEach hs fun e s => ?_) hs
  exact .trans (.coffer (changesOnly_refl _ s) (by decide)) (changesOnly_endReq _ true e.1 _) (by decide)

theorem touches_coolantRestored (t : Nat) : Touches (.coolantRestored t) [.time, .pw] :=
  fun s => ⟨_, rfl, changesOnly_of_tick (t := t) (by decide) (.setPw (changesOnly_refl _ _) (by rfl))⟩

/-! ## Supplies and resets (R441 to R457, R481, R482) -/

theorem touches_thermtripRelease (t : Nat) : Touches (.thermtripRelease t) bootParts := by
  refine fun s => ⟨_, rfl, changesOnly_of_tick (t := t) (by decide) ?_⟩
  have hs := changesOnly_refl bootParts (tick t s)
  exact changesOnly_ite hs (changesOnly_ite (.trans (.setPst hs) (changesOnly_coldBoot _ _ _) (by decide)) (.setPst hs))

theorem touches_sequenceFault (t rail : Nat) : Touches (.sequenceFault t rail) [.time, .pw, .cof] :=
  fun s => ⟨_, rfl, changesOnly_of_tick (t := t) (by decide) (.coffer (.setPw (changesOnly_refl _ _) (by rfl)))⟩

theorem touches_aonSupplyRemoved (t : Nat) : Touches (.aonSupplyRemoved t) lossOfPowerParts :=
  fun s => ⟨_, rfl, .setPst (changesOnly_lossOfPowerParts (by simp))⟩

theorem changesOnly_warmReset (straps : Nat) (s : State) : changesOnly resetParts s (warmReset straps s) := changesOnly_resetParts (by simp)

theorem touches_hotReset (t cause : Nat) : Touches (.hotReset t cause) resetParts := by
  refine fun s => ⟨_, rfl, changesOnly_of_tick (t := t) (by decide) ?_⟩
  exact changesOnly_ite (changesOnly_refl _ _) (changesOnly_ite (changesOnly_warmReset _ _) (changesOnly_resetParts (by simp)))

theorem touches_warmReset (t straps : Nat) : Touches (.warmReset t straps) resetParts :=
  fun s => ⟨_, rfl, changesOnly_of_tick (t := t) (by decide) (changesOnly_ite (changesOnly_warmReset _ _) (changesOnly_refl _ _))⟩

/-- A cold reset is held by a sequence fault, waits for the trip's latch, or boots. -/
theorem touches_coldReset (t : Nat) (fromOff : Bool) (straps : Nat) : Touches (.coldReset t fromOff straps) bootParts := by
  refine fun s => ⟨_, rfl, changesOnly_of_tick (t := t) (by decide) ?_⟩
  exact changesOnly_ite (changesOnly_refl _ _) (changesOnly_ite (changesOnly_bootParts ⟨rfl, rfl, rfl⟩) (changesOnly_coldBoot _ _ _))

/-- A boot step is retried, and then the boot has failed. -/
theorem touches_bootStepTimeout (t step : Nat) : Touches (.bootStepTimeout t step) [.time, .pw, .sec, .cof] := by
  refine fun s => ⟨_, rfl, changesOnly_of_tick (t := t) (by decide) ?_⟩
  have hs := changesOnly_refl [.time, .pw, .sec, .cof] (tick t s)
  have hfailed : changesOnly [.time, .pw, .sec, .cof] (tick t s) { tick t s with sec := { s.sec with failedBoot := true } } := .setSec hs
  exact changesOnly_ite hs (changesOnly_ite (.setPw hs (by rfl)) (.coffer (hfailed.setPw (by rfl))))

theorem touches_fatalError (t unit : Nat) (hostFailed : Bool) : Touches (.fatalError t unit hostFailed) faultParts :=
  fun s => ⟨_, rfl, changesOnly_of_tick (t := t) (by decide) (changesOnly_fatal _ _ _)⟩

theorem changesOnly_flrCtx (c : Nat) (s : State) : changesOnly exchangeParts s (flrCtx c s) := changesOnly_exchangeParts (by simp)

theorem changesOnly_resetFunc (fn : Nat) (s : State) : changesOnly [.hi] s (resetFunc fn s) := .setHi (changesOnly_refl _ s)

theorem touches_vfFlr (t vf : Nat) : Touches (.vfFlr t vf) exchangeParts := by
  refine fun s => ⟨_, rfl, changesOnly_of_tick (t := t) (by decide) ?_⟩
  have hs := changesOnly_refl exchangeParts (tick t s)
  have hctx := changesOnly_ite (p := ctxHere (tick t s) vf = true) (changesOnly_flrCtx vf (tick t s)) hs
  exact changesOnly_ite hs (.trans (hctx.trans (changesOnly_endPoll _) (by decide)) (changesOnly_resetFunc _ _) (by decide))

/-- Each VF's context is reset and destroyed; then NumVFs of the link is 0. -/
theorem touches_vfEnableClear (t link : Nat) : Touches (.vfEnableClear t link) exchangeParts := by
  refine fun s => ⟨_, rfl, changesOnly_of_tick (t := t) (by decide) ?_⟩
  generalize tick t s = s
  have hvf : ∀ vf s, changesOnly exchangeParts s (resetFunc (fnOf vf) (if ctxHere s vf then dropCtx vf (flrCtx vf s) else s)) := fun vf s =>
    .trans (changesOnly_ite (.trans (changesOnly_flrCtx vf s) (l' := exchangeParts) (changesOnly_exchangeParts (by simp)) (by decide))
      (changesOnly_refl _ s)) (changesOnly_resetFunc _ _) (by decide)
  have hall := (changesOnly_forEach hvf ((linkVfs s link).filter (fun v => ctxHere s v || vfEnabled s v)) s).trans
    (changesOnly_endPoll _) (by decide)
  exact changesOnly_ite (.setHi hall) (changesOnly_ite (.setHi hall) hall)

theorem touches_vfEnableSet (t link num : Nat) : Touches (.vfEnableSet t link num) [.time, .hi] := by
  refine fun s => ⟨_, rfl, changesOnly_of_tick (t := t) (by decide) ?_⟩
  have hs := changesOnly_refl [.time, .hi] (tick t s)
  exact changesOnly_ite (.setHi hs) (changesOnly_ite (.setHi hs) hs)

/-- Settles O42, event by event: each by the operations it applies one after another. -/
theorem thePowerFrame : Obligations.ThePowerFrame :=
  ⟨touches_schedulingWindow, touches_guardBandLower, touches_railReading, touches_thermalModelUpdate, touches_sensor105,
    touches_thermtrip, touches_thermtripRelease, touches_idleEntry, touches_stateEntry, touches_stateExit, touches_exitStepTimeout,
    touches_pwrwarnNAssert, touches_pwrwarnClear, touches_leaseExpiry, touches_coolantStop, touches_clockStopTimeout,
    touches_completionWriteTimeout, touches_coolantRestored, touches_wakeN, touches_sidebandAddressMatch, touches_pmeTurnOff,
    touches_setCap, touches_heartbeat, touches_setState, touches_requestRun, touches_requestSleep, touches_requestDeep,
    touches_requestOff, touches_pwCapWrite, touches_pwFloorWrite, touches_pwPhaseWrite, touches_pwOpWrite, touches_fbSchedCtrlWrite,
    touches_vfFlr, touches_vfEnableClear, touches_hotReset, touches_warmReset, touches_coldReset, touches_bootStepTimeout,
    touches_sequenceFault, touches_aonSupplyRemoved, touches_fatalError, touches_vfEnableSet, touches_railSetpointReached⟩

end Sys2Proof.Machine
end

section
/-! SUPPORT. The proof of O43: what the accesses of registers and of the BAR2 window leave unchanged (R5 to R9, R191, R276, R280, R428,
R433, R461, R469). -/
set_option Elab.async false
namespace Sys2Proof.Machine

/-! ## The operations that the accesses share -/

/-- The parts that a write of a ring setup page may change: those of a context's reset. -/
def setupParts : List Piece := [.time, .hi, .ctxs, .mem, .srv, .ops, .mdl, .exu, .xn, .td, .out, .dram]

section
variable (s : State)

theorem changesOnly_setupWrite (ctx rel : Nat) (v : Word) : changesOnly setupParts s (setupWrite ctx rel v s) := by
  simp [changesOnly_iff, allPieces, agree, setupParts]

/-- The lock sets, and the halves held of the write-locked pairs go. -/
theorem changesOnly_writeSetupLock (v : Word) : changesOnly [.hi, .lock] s (writeSetupLock v s) := by
  simp [changesOnly_iff, allPieces, agree]

/-- A write reaches the registers of every block, and by the reset register every part but the queue and the draws. -/
theorem changesOnly_accessWrite (f : Func) (off n : Nat) (v : Dword) : changesOnly resetParts s (accessWrite f off n v s) :=
  changesOnly_resetParts (by simp)

/-- A read latches or releases the half of a pair, and its value goes to the host (R6). -/
theorem changesOnly_readOut (f : Func) (off n : Nat) : changesOnly [.hi, .out] s (readOut f off n s) := by
  simp [changesOnly_iff, allPieces, agree]

theorem changesOnly_setAddrOnly (vf : Nat) (on : Bool) : changesOnly [.ctxs, .td] s (setAddrOnly vf on s) := by
  simp [changesOnly_iff, allPieces, agree]

theorem changesOnly_clearAdvisories (mask : Nat) : changesOnly [.td] s (clearAdvisories mask s) := by
  simp [changesOnly_iff, allPieces, agree]

theorem changesOnly_bar2Count (write : Bool) (off n : Nat) : changesOnly [.td] s (bar2Count write off n s) := by
  simp [changesOnly_iff, allPieces, agree]

theorem changesOnly_bar2Advise (off n : Nat) : changesOnly [.td, .out] s (bar2Advise off n s) := by
  simp [changesOnly_iff, allPieces, agree]

theorem changesOnly_bar2Store (off : Nat) (data : List Byte) : changesOnly [.mem, .dram] s (bar2Store off data s) := by
  simp [changesOnly_iff, allPieces, agree]

theorem changesOnly_bar2Clean (off n : Nat) : changesOnly [.mem] s (bar2Clean off n s) := by
  simp [changesOnly_iff, allPieces, agree]

theorem changesOnly_writeDbCtrl (v : Word) : changesOnly [.hi] s (writeDbCtrl v s) := by
  have hs := changesOnly_refl [.hi] s
  exact changesOnly_ite (.setHi hs) (.setHi (changesOnly_lockedWrite (.setHi hs) (by decide)))

theorem changesOnly_writeHiRsv (v : Word) : changesOnly [.hi, .mem] s (writeHiRsv v s) := by
  have hs := changesOnly_refl [.hi, .mem] s
  exact changesOnly_lockedWrite (changesOnly_ite (.setMem hs (by rfl)) (.setMem hs (by rfl))) (by decide)

end

/-! ## Writes -/

theorem touches_setupLock (t : Nat) (v : Word) : Touches (.setupLock t v) [.time, .hi, .lock] :=
  fun s => ⟨_, rfl, changesOnly_regWrite (fun s => (changesOnly_writeSetupLock s v).mono (by decide)) (by decide) t s⟩

theorem touches_ringSetupWrite (t ctx off : Nat) (v : Word) : Touches (.ringSetupWrite t ctx off v) setupParts :=
  fun s => ⟨_, rfl, changesOnly_regWrite (fun s => changesOnly_ite (changesOnly_setupWrite s ctx off v) (changesOnly_refl _ s))
    (by decide) t s⟩

theorem touches_hiDbCtrlWrite (t : Nat) (v : Word) : Touches (.hiDbCtrlWrite t v) [.time, .hi] :=
  fun s => ⟨_, rfl, changesOnly_regWrite (fun s => (changesOnly_writeDbCtrl s v).mono (by decide)) (by decide) t s⟩

theorem touches_mmCabHiRsvWrite (t : Nat) (v : Word) : Touches (.mmCabHiRsvWrite t v) [.time, .hi, .mem] :=
  fun s => ⟨_, rfl, changesOnly_regWrite (fun s => (changesOnly_writeHiRsv s v).mono (by decide)) (by decide) t s⟩

/-- The 32 bits of a word act on their contexts one after another. -/
theorem touches_tdAddrOnlyWrite (t n : Nat) (v : Word) : Touches (.tdAddrOnlyWrite t n v) [.time, .ctxs, .td] := by
  refine fun s => ⟨_, rfl, changesOnly_ite (changesOnly_regWrite (fun s => ?_) (by decide) t s) (changesOnly_tick.mono (by decide))⟩
  exact changesOnly_forEach (fun b s => (changesOnly_setAddrOnly s _ _).mono (by decide)) _ s

theorem touches_advisoryClear (t : Nat) (v : Word) : Touches (.advisoryClear t v) [.time, .td] :=
  fun s => ⟨_, rfl, changesOnly_regWrite (fun s => (changesOnly_clearAdvisories s _).mono (by decide)) (by decide) t s⟩

theorem touches_registerWrite (t : Nat) (f : Func) (off bytes : Nat) (v : Dword) : Touches (.registerWrite t f off bytes v) resetParts :=
  fun s => ⟨_, rfl, changesOnly_of_tick (by decide) (changesOnly_accessWrite (tick t s) f off bytes v)⟩

theorem touches_pairLoWrite (t : Nat) (f : Func) (off : Nat) (v : Word) : Touches (.pairLoWrite t f off v) resetParts :=
  fun s => ⟨_, rfl, changesOnly_of_tick (by decide) (changesOnly_accessWrite (tick t s) f off 4 (v.zeroExtend 64))⟩

theorem touches_pairHiWrite (t : Nat) (f : Func) (off : Nat) (v : Word) : Touches (.pairHiWrite t f off v) resetParts :=
  fun s => ⟨_, rfl, changesOnly_of_tick (by decide) (changesOnly_accessWrite (tick t s) f off 4 (v.zeroExtend 64))⟩

/-! ## Reads -/

theorem touches_pairLoRead (t : Nat) (f : Func) (off : Nat) : Touches (.pairLoRead t f off) [.time, .hi, .out] :=
  fun s => ⟨_, rfl, changesOnly_of_tick (by decide) ((changesOnly_readOut (tick t s) f off 4).mono (by decide))⟩

theorem touches_pairHiRead (t : Nat) (f : Func) (off : Nat) : Touches (.pairHiRead t f off) [.time, .hi, .out] :=
  fun s => ⟨_, rfl, changesOnly_of_tick (by decide) ((changesOnly_readOut (tick t s) f off 4).mono (by decide))⟩

theorem touches_misalignedAccess (t : Nat) (f : Func) (isWrite : Bool) (off bytes : Nat) (v : Dword) :
    Touches (.misalignedAccess t f isWrite off bytes v) resetParts :=
  fun s => ⟨_, rfl, changesOnly_of_tick (t := t) (by decide) (changesOnly_ite (changesOnly_accessWrite (tick t s) f off bytes v)
    ((changesOnly_readOut (tick t s) f off bytes).mono (by decide)))⟩

/-! ## The BAR2 window (R276) -/

/-- A read is counted and answered; one that meets no memory is an advisory. -/
theorem touches_bar2Read (t off n : Nat) : Touches (.bar2Read t off n) [.time, .td, .draws, .out] := by
  refine fun s => ⟨_, rfl, changesOnly_of_tick (t := t) (by decide) ?_⟩
  have hcount := (changesOnly_bar2Count (tick t s) false off n).mono (l := [.time, .td, .draws, .out]) (by decide)
  exact changesOnly_ite (hcount.trans (changesOnly_bar2Advise _ off n)).emit.advanceDraw (changesOnly_refl _ _)

/-- A write is counted, lands, and heals the poisoned lines it covers. -/
theorem touches_bar2Write (t off : Nat) (data : List Byte) : Touches (.bar2Write t off data) [.time, .mem, .td, .out, .dram] := by
  refine fun s => ⟨_, rfl, changesOnly_of_tick (t := t) (by decide) ?_⟩
  have hcount := (changesOnly_bar2Count (tick t s) true off data.length).mono (l := [.time, .mem, .td, .out, .dram]) (by decide)
  have hstored := (hcount.trans (changesOnly_bar2Clean _ off data.length)).trans (changesOnly_bar2Store _ off data)
  exact changesOnly_ite (hstored.trans (changesOnly_bar2Advise _ off data.length)) (changesOnly_refl _ _)

/-- Settles O43, access by access. -/
theorem theRegisterFrame : Obligations.TheRegisterFrame :=
  ⟨touches_setupLock, touches_ringSetupWrite, touches_hiDbCtrlWrite, touches_pairLoWrite, touches_pairHiWrite, touches_pairLoRead,
    touches_pairHiRead, touches_misalignedAccess, touches_registerWrite, touches_mmCabHiRsvWrite, touches_tdAddrOnlyWrite,
    touches_advisoryClear, touches_bar2Read, touches_bar2Write⟩

end Sys2Proof.Machine
end

section
/-! SUPPORT. The proof of O55: which commands move the lifecycle state, and from where to where (R410, R411). -/
set_option Elab.async false
namespace Sys2Proof.Machine

/-! ## The commands that move neither the setup lock nor the lifecycle state

Every command's frame (O35 to O43) says whether it may touch the one or the other; those that may are few. -/

/-- The commands whose frame has the setup lock or the lifecycle state. -/
def movesLockOrLife : Instr → Bool
  | .unlock .. | .relock .. | .unlockLifetimeEnd .. | .provision .. | .deploy .. | .retire .. | .pfLevelWrite ..
  | .thermtripRelease .. | .stateEntry .. | .stateExit .. | .wakeN .. | .hotReset .. | .warmReset .. | .coldReset ..
  | .aonSupplyRemoved .. | .setupLock .. | .pairLoWrite .. | .pairHiWrite .. | .misalignedAccess .. | .registerWrite .. => true
  | _ => false

/-- Whatever the state, c leaves the setup lock and the lifecycle state as they are. -/
def KeepsLockAndLife (c : Instr) : Prop := ∀ s, Answers c s (fun u => u.hi.lock = s.hi.lock ∧ u.sec.life = s.sec.life)

theorem KeepsLockAndLife.of {c : Instr} {l : List Piece} (h : Touches c l) (hl : .lock ∉ l ∧ .life ∉ l := by decide) :
    KeepsLockAndLife c := by
  intro s
  obtain ⟨u, hu, hframe⟩ := h s
  exact ⟨u, hu, hframe .lock hl.1, hframe .life hl.2⟩

/-- Each command by its frame. -/
theorem keepsLockAndLife (c : Instr) (hc : movesLockOrLife c = false) : KeepsLockAndLife c := by
  obtain ⟨-, -, -, -, -, -, -, -, -, hdispatch, hclose, hexuReturn, hgather, hpooled, hgone, hupdate, hcommit, hsettle, hdone, -⟩ :=
    theExchangeFrame
  cases c with
  | generate => exact .of (touches_generate _ _ _) | score => exact .of (touches_score _ _ _)
  | embedGather => exact .of (touches_embedGather _ _ _ _) | jobAdmit => exact .of (touches_jobAdmit _ _ _ _ _ _ _)
  | jobEnd => exact .of (touches_jobEnd _ _) | jobTeardown => exact .of (touches_jobTeardown _ _)
  | seqEnd => exact .of (touches_seqEnd _ _ _) | ctxCreate => exact .of (touches_ctxCreate _ _ _ _)
  | ctxDestroy => exact .of (touches_ctxDestroy _ _ _) | reqCancel => exact .of (touches_reqCancel _ _ _)
  | stopBlockReturn => exact .of (touches_stopBlockReturn _ _ _) | stopBlockTimeout => exact .of (touches_stopBlockTimeout _ _)
  | prefixLookupDone => exact .of (touches_prefixLookupDone _ _ _ _) | stepDispatch => exact .of (touches_stepDispatch _ _ _ _)
  | stepBoundary => exact .of (touches_stepBoundary _ _ _ _) | stepWatchdog => exact .of (touches_stepWatchdog _ _)
  | deadlineMarginTimer => exact .of (touches_deadlineMarginTimer _ _) | beAllocationResume => exact .of (touches_beAllocationResume _ _)
  | claim => exact .of (touches_claim _ _ _ _) | claimAnswer => exact .of (touches_claimAnswer _ _ _ _)
  | claimTimeout => exact .of (touches_claimTimeout _ _) | poll => exact .of (touches_poll _)
  | summaryReadReturn => exact .of (touches_summaryReadReturn _ _ _) | fetchaddComplete => exact .of (touches_fetchaddComplete _ _ _)
  | doorbellBlockRead => exact .of (touches_doorbellBlockRead _ _ _ _) | hostReadError => exact .of (touches_hostReadError _ _)
  | hostWriteError => exact .of (touches_hostWriteError _ _) | coalTimer => exact .of (touches_coalTimer _ _ _)
  | ptmDialogue => exact .of (touches_ptmDialogue _ _ _) | contextEnable => exact .of (touches_contextEnable _ _)
  | contextDisable => exact .of (touches_contextDisable _ _) | contextReset => exact .of (touches_contextReset _ _)
  | claimRelease => exact .of (touches_claimRelease _ _ _ _) | embRowUpdate => exact .of (touches_embRowUpdate _ _ _ _ _)
  | embGenCommit => exact .of (touches_embGenCommit _ _ _) | collGroupCreate => exact .of (touches_collGroupCreate _ _ _)
  | collGroupDestroy => exact .of (touches_collGroupDestroy _ _) | dispatch => exact .of (hdispatch _ _) | close => exact .of (hclose _ _)
  | exuReturn => exact .of (hexuReturn _ _) | gather => exact .of (hgather _ _) | pooled => exact .of (hpooled _ _)
  | gone => exact .of (hgone _ _) | update => exact .of (hupdate _ _) | commit => exact .of (hcommit _ _)
  | settle => exact .of (hsettle _ _) | done => exact .of (hdone _ _) | resp => exact .of (touches_resp _ _)
  | remoteTimeout => exact .of (touches_remoteTimeout _ _ _) | join => exact .of (touches_join _ _)
  | abandon => exact .of (touches_abandon _ _ _) | fault => exact .of (touches_fault _ _ _)
  | collectiveChunk => exact .of (touches_collectiveChunk _ _ _) | tileMove => exact .of (touches_tileMove _ _ _)
  | partCreate => exact .of (touches_partCreate _ _ _ _ _ _ _) | partResize => exact .of (touches_partResize _ _ _ _ _ _)
  | lineCheckFail => exact .of (touches_lineCheckFail _ _ _ _) | frameRestored => exact .of (touches_frameRestored _ _ _ _)
  | restoreFailed => exact .of (touches_restoreFailed _ _) | retrainSlice => exact .of (touches_retrainSlice _ _ _ _)
  | subchannelRetry => exact .of (touches_subchannelRetry _ _ _) | tilePieceComplete => exact .of (touches_tilePieceComplete _ _ _ _)
  | cabinetDrawerGrant => exact .of (touches_cabinetDrawerGrant _) | eviction => exact .of (touches_eviction _ _)
  | ageSample => exact .of (touches_ageSample _ _) | reclaimResume => exact .of (touches_reclaimResume _ _)
  | resizeRetagDone => exact .of (touches_resizeRetagDone _ _) | frameMigration => exact .of (touches_frameMigration _ _ _)
  | invalidationAck => exact .of (touches_invalidationAck _ _ _) | dropGrantRequest => exact .of (touches_dropGrantRequest _ _ _ _ _)
  | kvDrop => exact .of (touches_kvDrop _ _ _ _ _) | sequencePublication => exact .of (touches_sequencePublication _ _ _ _ _ _ _)
  | kvMigrate => exact .of (touches_kvMigrate _ _ _ _ _ _) | plateLoad => exact .of (touches_plateLoad _ _ _ _)
  | plateUnload => exact .of (touches_plateUnload _ _ _) | tableReload => exact .of (touches_tableReload _ _ _ _ _)
  | modelCreate => exact .of (touches_modelCreate _ _ _) | modelDestroy => exact .of (touches_modelDestroy _ _)
  | epochInstall => exact .of (touches_epochInstall _ _ _ _ _ _ _) | detokLoad => exact .of (touches_detokLoad _ _ _ _ _)
  | dovetailTransfer => exact .of (touches_dovetailTransfer _ _ _ _ _ _)
  | counterIncrement => exact .of (touches_counterIncrement _ _ _ _)
  | dovetailRecalibration => exact .of (touches_dovetailRecalibration _ _ _ _ _ _ _ _ _ _)
  | islandBringUp => exact .of (touches_islandBringUp _ _ _ _ _)
  | islandBringUpTimeout => exact .of (touches_islandBringUpTimeout _ _ _ _) | fllLock => exact .of (touches_fllLock _ _)
  | droop => exact .of (touches_droop _ _) | droopRelease => exact .of (touches_droopRelease _ _ _)
  | plateLoadVerified => exact .of (touches_plateLoadVerified _ _ _) | islandConfigAck => exact .of (touches_islandConfigAck _ _ _)
  | islandConfigTimeout => exact .of (touches_islandConfigTimeout _ _ _ _ _) | plateResident => exact .of (touches_plateResident _ _)
  | plateRemoval => exact .of (touches_plateRemoval _ _) | reloadPayloadWritten => exact .of (touches_reloadPayloadWritten _ _ _)
  | reloadVerified => exact .of (touches_reloadVerified _ _ _ _ _ _ _) | migrateCopyDone => exact .of (touches_migrateCopyDone _ _ _)
  | manifestVerified => exact .of (touches_manifestVerified _ _ _) | areaAllocated => exact .of (touches_areaAllocated _ _)
  | shardFetched => exact .of (touches_shardFetched _ _ _ _ _) | installDeadline => exact .of (touches_installDeadline _ _)
  | prepared => exact .of (touches_prepared _ _ _ _ _ _) | no => exact .of (touches_no _ _ _ _)
  | installCommit => exact .of (touches_installCommit _ _ _ _) | committedReply => exact .of (touches_committedReply _ _ _)
  | release => exact .of (touches_release _ _ _) | releaseAck => exact .of (touches_releaseAck _ _ _)
  | abort => exact .of (touches_abort _ _ _ _) | installQueryTimer => exact .of (touches_installQueryTimer _ _)
  | installQuery => exact .of (touches_installQuery _ _ _) | committedReplyTimeout => exact .of (touches_committedReplyTimeout _ _)
  | coordinatorUnreachable => exact .of (touches_coordinatorUnreachable _ _ _) | epochDrained => exact .of (touches_epochDrained _ _ _ _)
  | epochFree => exact .of (touches_epochFree _ _ _) | beaconLost => exact .of (touches_beaconLost _)
  | beaconReturn => exact .of (touches_beaconReturn _) | read => exact .of (touches_read _ _) | write => exact .of (touches_write _ _)
  | atomic => exact .of (touches_atomic _ _) | restoringReissue => exact .of (touches_restoringReissue _ _ _)
  | remoteResend => exact .of (touches_remoteResend _ _ _) | fabricFaultResend => exact .of (touches_fabricFaultResend _ _)
  | fabricFaultAck => exact .of (touches_fabricFaultAck _ _ _) | resetNotice => exact .of (touches_resetNotice _ _)
  | switchStateReport => exact .of (touches_switchStateReport _ _ _) | flit => exact .of (touches_flit _ _ _)
  | nak => exact .of (touches_nak _ _ _) | tag => exact .of (touches_tag _ _ _) | replayRetrain => exact .of (touches_replayRetrain _ _)
  | fecLockLoss => exact .of (touches_fecLockLoss _ _) | portTrainingDone => exact .of (touches_portTrainingDone _ _ _ _ _ _ _)
  | laneRetry => exact .of (touches_laneRetry _ _ _) | linkRekey => exact .of (touches_linkRekey _ _)
  | xnVcWeightWrite => exact .of (touches_xnVcWeightWrite _ _) | portDisable => exact .of (touches_portDisable _ _ _)
  | selfTest => exact .of (touches_selfTest _ _ _ _) | scrubPass => exact .of (touches_scrubPass _ _ _)
  | fwStage => exact .of (touches_fwStage _ _ _ _ _ _) | secureErase => exact .of (touches_secureErase _ _ _)
  | opSuspend => exact .of (touches_opSuspend _ _ _) | opResume => exact .of (touches_opResume _ _ _)
  | opCancel => exact .of (touches_opCancel _ _ _) | opQuery => exact .of (touches_opQuery _ _ _)
  | traceSetup => exact .of (touches_traceSetup _ _ _ _ _ _) | counterFilter => exact .of (touches_counterFilter _ _ _ _ _ _)
  | layerReport => exact .of (touches_layerReport _ _ _ _) | tensorWatch => exact .of (touches_tensorWatch _ _ _)
  | watchCancel => exact .of (touches_watchCancel _ _ _) | traceDrop => exact .of (touches_traceDrop _ _ _)
  | watchExpiry => exact .of (touches_watchExpiry _ _ _) | backgroundInterval => exact .of (touches_backgroundInterval _ _ _ _ _ _ _ _)
  | advisoryAck => exact .of (touches_advisoryAck _ _ _) | cofferSnapshot => exact .of (touches_cofferSnapshot _ _ _)
  | cofferRelease => exact .of (touches_cofferRelease _ _ _) | quiesceMet => exact .of (touches_quiesceMet _ _)
  | secureEraseDone => exact .of (touches_secureEraseDone _ _) | selfTestDone => exact .of (touches_selfTestDone _ _ _ _)
  | scrubPassDone => exact .of (touches_scrubPassDone _ _) | fwStageDone => exact .of (touches_fwStageDone _ _)
  | getVersion => exact .of (touches_getVersion _) | getCapabilities => exact .of (touches_getCapabilities _)
  | negotiateAlgorithms => exact .of (touches_negotiateAlgorithms _ _ _ _) | getDigests => exact .of (touches_getDigests _)
  | getCertificate => exact .of (touches_getCertificate _ _ _ _) | challenge => exact .of (touches_challenge _ _ _)
  | getMeasurements => exact .of (touches_getMeasurements _ _) | keyExchange => exact .of (touches_keyExchange _ _ _)
  | finish => exact .of (touches_finish _ _ _) | endSession => exact .of (touches_endSession _ _)
  | ideKm => exact .of (touches_ideKm _ _ _ _) | getNonce => exact .of (touches_getNonce _)
  | nonceExpiry => exact .of (touches_nonceExpiry _) | keyAdd => exact .of (touches_keyAdd _ _ _ _ _)
  | keyRevoke => exact .of (touches_keyRevoke _ _ _ _ _) | logRead => exact .of (touches_logRead _ _ _)
  | certWrite => exact .of (touches_certWrite _ _) | tapInstruction => exact .of (touches_tapInstruction _ _)
  | schedulingWindow => exact .of (touches_schedulingWindow _) | guardBandLower => exact .of (touches_guardBandLower _ _)
  | railReading => exact .of (touches_railReading _ _) | thermalModelUpdate => exact .of (touches_thermalModelUpdate _ _ _)
  | sensor105 => exact .of (touches_sensor105 _ _) | thermtrip => exact .of (touches_thermtrip _)
  | idleEntry => exact .of (touches_idleEntry _) | exitStepTimeout => exact .of (touches_exitStepTimeout _ _)
  | pwrwarnNAssert => exact .of (touches_pwrwarnNAssert _) | pwrwarnClear => exact .of (touches_pwrwarnClear _)
  | leaseExpiry => exact .of (touches_leaseExpiry _) | coolantStop => exact .of (touches_coolantStop _)
  | clockStopTimeout => exact .of (touches_clockStopTimeout _) | completionWriteTimeout => exact .of (touches_completionWriteTimeout _)
  | coolantRestored => exact .of (touches_coolantRestored _) | sidebandAddressMatch => exact .of (touches_sidebandAddressMatch _ _ _)
  | pmeTurnOff => exact .of (touches_pmeTurnOff _) | setCap => exact .of (touches_setCap _ _ _ _)
  | heartbeat => exact .of (touches_heartbeat _ _) | setState => exact .of (touches_setState _ _ _)
  | requestRun => exact .of (touches_requestRun _) | requestSleep => exact .of (touches_requestSleep _)
  | requestDeep => exact .of (touches_requestDeep _) | requestOff => exact .of (touches_requestOff _)
  | pwCapWrite => exact .of (touches_pwCapWrite _ _) | pwFloorWrite => exact .of (touches_pwFloorWrite _ _)
  | pwPhaseWrite => exact .of (touches_pwPhaseWrite _ _) | pwOpWrite => exact .of (touches_pwOpWrite _ _ _)
  | fbSchedCtrlWrite => exact .of (touches_fbSchedCtrlWrite _ _) | vfFlr => exact .of (touches_vfFlr _ _)
  | vfEnableClear => exact .of (touches_vfEnableClear _ _) | bootStepTimeout => exact .of (touches_bootStepTimeout _ _)
  | sequenceFault => exact .of (touches_sequenceFault _ _) | fatalError => exact .of (touches_fatalError _ _ _)
  | vfEnableSet => exact .of (touches_vfEnableSet _ _ _) | railSetpointReached => exact .of (touches_railSetpointReached _ _)
  | ringSetupWrite => exact .of (touches_ringSetupWrite _ _ _ _) | hiDbCtrlWrite => exact .of (touches_hiDbCtrlWrite _ _)
  | pairLoRead => exact .of (touches_pairLoRead _ _ _) | pairHiRead => exact .of (touches_pairHiRead _ _ _)
  | mmCabHiRsvWrite => exact .of (touches_mmCabHiRsvWrite _ _) | tdAddrOnlyWrite => exact .of (touches_tdAddrOnlyWrite _ _ _)
  | advisoryClear => exact .of (touches_advisoryClear _ _) | bar2Read => exact .of (touches_bar2Read _ _ _)
  | bar2Write => exact .of (touches_bar2Write _ _ _)
  | barrier | reduceSmall | allReduce | allGather | reduceScatter => exact .of (touches_of_hostColl fun _ => rfl)
  | _ => cases hc

/-! ## A lapse of the unlock at most -/

/-- The lifecycle state stays, or an unlock lapses: UNLOCKED becomes DEPLOYED (Table 17.6). -/
def LapsesAtMost (s u : State) : Prop := u.sec.life = s.sec.life ∨ s.sec.life = .unlocked ∧ u.sec.life = .deployed

theorem LapsesAtMost.trans {s u v : State} (h : LapsesAtMost s u) (h' : LapsesAtMost u v) : LapsesAtMost s v := by
  obtain hsame | ⟨hs, hu⟩ := h
  · simpa only [LapsesAtMost, hsame] using h'
  · obtain hsame' | ⟨hu', -⟩ := h'
    · exact .inr ⟨hs, hsame'.trans hu⟩
    · rw [hu] at hu'; cases hu'

/-- What comes before and keeps the lifecycle state does not count. -/
theorem LapsesAtMost.of_eq {s s' u : State} (h : LapsesAtMost s' u) (hs : s'.sec.life = s.sec.life) : LapsesAtMost s u :=
  .trans (.inl hs) h

theorem LapsesAtMost.ite {p : Prop} [Decidable p] {s u v : State} (hu : LapsesAtMost s u) (hv : LapsesAtMost s v) :
    LapsesAtMost s (if p then u else v) := by
  split
  case isTrue => exact hu
  case isFalse => exact hv

theorem lapsesAtMost_lapse (s : State) : LapsesAtMost s (lapse s) := by
  unfold lapse
  split
  case isTrue hu => exact .inr ⟨hu, by simp⟩
  case isFalse => exact .inl rfl

/-- A reload of Sirdoyx's firmware lets an unlock lapse (Tables 17.6, 19.2). -/
theorem life_secReload (x : Sec) : (secReload x).life = x.life ∨ x.life = .unlocked ∧ (secReload x).life = .deployed := by
  cases hx : x.life with
  | unlocked => exact .inr ⟨rfl, by simp [secReload, secAfter, hx]⟩
  | _ => exact .inl (by simp [secReload, secAfter, hx])

/-! ## Resets, boots and the low states -/

theorem life_bigReset (lastType : Nat) (fatal : Bool) (s : State) : (bigReset lastType fatal s).sec.life = s.sec.life := by
  simp [bigReset, bringIfRunning, setupReset, secAfter]

theorem lapsesAtMost_warmReset (straps : Nat) (s : State) : LapsesAtMost s (warmReset straps s) := by
  have hlife := life_secReload (bigReset 4 s.hi.fatalPending s).sec
  simpa [LapsesAtMost, warmReset, life_bigReset] using hlife

theorem lapsesAtMost_afterPowerLoss (keepCoffer : Bool) (s : State) : LapsesAtMost s (afterPowerLoss keepCoffer s) := life_secReload s.sec

theorem life_coldBoot (fromOff : Bool) (straps : Nat) (s : State) : (coldBoot fromOff straps s).sec.life = (secReload s.sec).life := by
  simp [coldBoot, bringIfRunning, afterPowerLoss]

theorem lapsesAtMost_coldBoot (fromOff : Bool) (straps : Nat) (s : State) : LapsesAtMost s (coldBoot fromOff straps s) := by
  rw [LapsesAtMost, life_coldBoot]
  exact life_secReload s.sec

theorem lapsesAtMost_enterDeep (s : State) : LapsesAtMost s (enterDeep s) :=
  (lapsesAtMost_lapse s).trans (.inl (by simp [enterDeep, setupReset, secAfter]))

/-! ## Register writes -/

section
variable {P : State → Prop} {s : State} {v : Word}

/-- A write to the PF reaches one block of its registers, or nothing. -/
theorem pfWrite_induct {off : Nat} (hnone : P s) (hHi : ∀ rel, off = 0x10000 + rel → P (writeHi rel v s)) (hMm : ∀ rel, P (writeMm rel v s))
    (hFb : ∀ rel, P (writeFb rel v s)) (hXn : ∀ rel, P (writeXn rel v s)) (hPw : ∀ rel, P (writePw rel v s))
    (hSy : ∀ rel, P (writeSy rel v s)) (hTd : ∀ rel, P (writeTd rel v s)) : P (pfWrite off v s) := by
  unfold pfWrite
  repeat' split
  case isTrue => exact hnone
  case isTrue => exact hHi _ (by omega)
  case isTrue => exact hnone
  case isTrue => exact hMm _
  case isTrue => exact hFb _
  case isTrue => exact hXn _
  case isTrue => exact hPw _
  case isTrue => exact hSy _
  case isTrue => exact hTd _
  case isFalse => exact hnone

/-- A write of a word reaches the PF's registers, an MSI-X table, the setup page of a context, or nothing. -/
theorem write32_induct {f : Func} {off : Nat} (hnone : P s) (hpf : f = .pf → P (pfWrite off v s))
    (hmsix : ∀ fn rel, P (writeMsix fn rel v s)) (hsetup : ∀ c rel, P (setupWrite c rel v s)) : P (write32 f off v s) := by
  cases f with
  | pf => exact hpf rfl
  | pf2 =>
    simp only [write32]
    split
    case isTrue => exact hmsix _ _
    case isFalse => exact hnone
  | vf n =>
    simp only [write32]
    repeat' split
    case isTrue => exact hsetup _ _
    case isTrue => exact hmsix _ _
    case isFalse => exact hnone

end

/-- An access is no more than the writes of its words, one after another, or of a write-locked pair as a whole. -/
theorem accessWrite_rel {R : State → State → Prop} {f : Func} {off n : Nat} {v : Dword} (hrefl : ∀ s, R s s)
    (htrans : ∀ s u w, R s u → R u w → R s w)
    (hword : ∀ off' v s, off' % 4 = 0 → (off' = off ∨ off' % 8 = 4 ∧ off' = off + 4) → R s (write32 f off' v s))
    (hpair : ∀ lo hi s, lockedPair off = true → R s (lockedWrite false (pairVal (if off = 0x10008 then 6 else 7) lo hi != lockedPairVal s off)
      (fun s => dropLo 0 off (setLockedPair off lo hi s)) s)) (s : State) : R s (accessWrite f off n v s) := by
  unfold accessWrite
  dsimp only
  split
  case isTrue => exact hrefl s
  case isFalse haccess =>
    have haligned : aligned off n = true := by
      cases ha : aligned off n
      · simp [ha] at haccess
      · rfl
    split
    case isTrue h4 =>
      subst h4
      have hoff : off % 4 = 0 := by simpa [aligned] using haligned
      exact hword off _ s hoff (.inl rfl)
    case isFalse =>
      split
      case isFalse => exact hrefl s
      case isTrue h8 =>
        subst h8
        have hoff : off % 8 = 0 := by simpa [aligned] using haligned
        split
        case isTrue hp => exact hpair _ _ s hp.2
        case isFalse =>
          exact htrans _ _ _ (hword off _ s (by omega) (.inl rfl)) (hword (off + 4) _ _ (by omega) (.inr ⟨by omega, rfl⟩))

theorem lapsesAtMost_writeHi (rel : Nat) (v : Word) (s : State) : LapsesAtMost s (writeHi rel v s) := by
  unfold writeHi
  repeat' split
  case isTrue.isTrue => exact lapsesAtMost_warmReset _ s
  all_goals exact .inl (by simp)

theorem lapsesAtMost_writeDebug (v : Word) (s : State) : LapsesAtMost s (writeDebug v s) :=
  .ite (.inl rfl) (.ite (lapsesAtMost_lapse s) (.ite (.inl rfl) (.inl rfl)))

theorem lapsesAtMost_writeSy (rel : Nat) (v : Word) (s : State) : LapsesAtMost s (writeSy rel v s) :=
  .ite (lapsesAtMost_writeDebug v s) (.inl (by simp))

theorem lapsesAtMost_write32 (f : Func) (off : Nat) (v : Word) (s : State) : LapsesAtMost s (write32 f off v s) := by
  refine write32_induct (.inl rfl) (fun _ => ?pf) (fun fn rel => .inl (by simp)) (fun c rel => .inl (by simp))
  case pf =>
    exact pfWrite_induct (.inl rfl) (fun rel _ => lapsesAtMost_writeHi rel v s) (fun _ => .inl (by simp)) (fun _ => .inl (by simp))
      (fun _ => .inl (by simp)) (fun _ => .inl (by simp)) (fun rel => lapsesAtMost_writeSy rel v s) (fun _ => .inl (by simp))

theorem lapsesAtMost_accessWrite (f : Func) (off n : Nat) (v : Dword) (s : State) : LapsesAtMost s (accessWrite f off n v s) :=
  accessWrite_rel (fun _ => .inl rfl) (fun _ _ _ => .trans) (fun off v s _ _ => lapsesAtMost_write32 f off v s)
    (fun lo hi s _ => .inl (by simp)) s

/-! ## The commands that move the lifecycle state -/

/-- A mailbox command leaves the lifecycle state where its effect does, or as it was. -/
theorem life_mailbox (t n : Nat) (f : State → Status × List Byte × State) (s : State) :
    (mailbox t n f s).sec.life = s.sec.life ∨ (mailbox t n f s).sec.life = (f (tick t s)).2.2.sec.life := by
  unfold mailbox
  dsimp only
  repeat' split
  case isTrue => exact .inl rfl
  case isTrue => exact .inl rfl
  case isFalse => exact .inr rfl

/-- Where a command's check is passed, its effect holds. -/
theorem life_checked {c : Option Status} {f : State → State} (s : State) :
    (checked c f s).2.2.sec.life = s.sec.life ∨ c = none ∧ (checked c f s).2.2.sec.life = (f s).sec.life := by
  cases c with
  | some st => exact .inl rfl
  | none => exact .inr ⟨rfl, rfl⟩

/-- UNLOCK leads to UNLOCKED, from DEPLOYED or from UNLOCKED. -/
theorem life_unlockRun (k : UnlockToken) (s : State) : (unlockRun k s).2.2.sec.life = s.sec.life ∨
    (s.sec.life = .deployed ∨ s.sec.life = .unlocked) ∧ (unlockRun k s).2.2.sec.life = .unlocked := by
  by_cases h : s.sec.life = .deployed ∨ s.sec.life = .unlocked
  case neg =>
    have hno : (!(s.sec.life == .deployed || s.sec.life == .unlocked)) = true := by simpa using h
    exact .inl (by simp only [unlockRun, if_pos hno])
  case pos =>
    unfold unlockRun
    repeat' split
    case isTrue => exact .inl rfl
    case isTrue => exact .inl rfl
    case isTrue => exact .inl rfl
    case isTrue => exact .inl rfl
    case isTrue => exact .inl rfl
    case isTrue => exact .inl rfl
    case isFalse => exact .inr ⟨h, by simp⟩

/-- Where the answer of a command is P's, what it answers is. -/
theorem Answers.of_exec {c : Instr} {s u : State} {P : State → Prop} (h : Answers c s P) (hu : exec c s = .next u) : P u := by
  obtain ⟨v, hv, hp⟩ := h
  obtain rfl := Host.Outcome.next.inj (hv.symm.trans hu)
  exact hp

/-- A mailbox command changes the lifecycle state as Table 17.6 gives where its effect f does. -/
theorem lifeChange_of_mailbox {c : Instr} {t n : Nat} {f : State → Status × List Byte × State} {s u : State}
    (hc : exec c s = .next (mailbox t n f s)) (hu : exec c s = .next u)
    (hf : (f (tick t s)).2.2.sec.life = s.sec.life ∨ lifeChange c s.sec.life (f (tick t s)).2.2.sec.life) :
    u.sec.life = s.sec.life ∨ lifeChange c s.sec.life u.sec.life := by
  obtain rfl := Host.Outcome.next.inj (hc.symm.trans hu)
  obtain hsame | heff := life_mailbox t n f s
  · exact .inl hsame
  · simpa only [heff] using hf

theorem LapsesAtMost.lifeChange {c : Instr} {s u : State} (h : LapsesAtMost s u) :
    u.sec.life = s.sec.life ∨ lifeChange c s.sec.life u.sec.life := by
  obtain hsame | ⟨hs, hu⟩ := h
  · exact .inl hsame
  · rw [hs, hu]; exact .inr trivial

/-- RETIRE is taken with a valid signature only, of a part that is PROVISIONED, DEPLOYED or UNLOCKED (Table 17.6). -/
theorem retireOk_life {s : State} {nonce signer : Nat} {sigOk : Bool} (h : retireOk s nonce signer sigOk = true) :
    sigOk = true ∧ (s.sec.life = .provisioned ∨ s.sec.life = .deployed ∨ s.sec.life = .unlocked) := by
  have hsig : sigOk = true := by
    cases sigOk
    · simp [retireOk] at h
    · rfl
  refine ⟨hsig, ?_⟩
  cases hl : s.sec.life with
  | provisioned => exact .inl rfl
  | deployed => exact .inr (.inl rfl)
  | unlocked => exact .inr (.inr rfl)
  | blank | retired => simp [retireOk, hl] at h

theorem failIf_eq_none {b : Bool} {st : Status} : failIf b st = none ↔ b = false := by
  cases b <;> simp [failIf]

section
variable {t : Nat} {s u : State}

theorem lifeChange_unlock {k : UnlockToken} (hu : exec (.unlock t k) s = .next u) :
    u.sec.life = s.sec.life ∨ lifeChange (.unlock t k) s.sec.life u.sec.life := by
  refine lifeChange_of_mailbox rfl hu ?_
  obtain hsame | ⟨hfrom, hto⟩ := life_unlockRun k (tick t s)
  · exact .inl hsame
  · rw [hto]
    obtain hd | hun := hfrom
    · exact .inr (by rw [show s.sec.life = .deployed from hd]; exact ⟨t, k, rfl⟩)
    · exact .inl hun.symm

theorem lifeChange_provision {sigOk : Bool} (hu : exec (.provision t sigOk) s = .next u) :
    u.sec.life = s.sec.life ∨ lifeChange (.provision t sigOk) s.sec.life u.sec.life := by
  refine lifeChange_of_mailbox rfl hu ?_
  split
  case isTrue => exact .inl rfl
  case isFalse hpass =>
    simp only [Bool.or_eq_true, not_or, bne_iff_ne, ne_eq, not_not, Bool.not_eq_true, Bool.not_eq_false'] at hpass
    obtain ⟨⟨hblank, -⟩, hsig⟩ := hpass
    exact .inr (by simp [show s.sec.life = .blank from hblank, hsig, lifeChange])

theorem lifeChange_deploy {keys : List (Option Digest)} (hu : exec (.deploy t keys) s = .next u) :
    u.sec.life = s.sec.life ∨ lifeChange (.deploy t keys) s.sec.life u.sec.life := by
  refine lifeChange_of_mailbox rfl hu ?_
  obtain hsame | ⟨hpass, heff⟩ := life_checked (tick t s)
  · exact .inl hsame
  · simp only [failIf_eq_none, Bool.or_eq_false_iff, bne_eq_false_iff_eq] at hpass
    rw [heff, show s.sec.life = .provisioned from hpass.1.1]
    exact .inr (by simp [lifeChange])

theorem lifeChange_retire {nonce signer : Nat} {sigOk : Bool} (hu : exec (.retire t nonce signer sigOk) s = .next u) :
    u.sec.life = s.sec.life ∨ lifeChange (.retire t nonce signer sigOk) s.sec.life u.sec.life := by
  refine lifeChange_of_mailbox rfl hu ?_
  obtain hsame | ⟨hpass, heff⟩ := life_checked (tick t s)
  · exact .inl hsame
  · rw [failIf_eq_none, Bool.not_eq_false'] at hpass
    obtain ⟨hsig, hlife⟩ := retireOk_life hpass
    have hto : ∀ l, l = .provisioned ∨ l = .deployed ∨ l = .unlocked → lifeChange (.retire t nonce signer sigOk) l .retired := by
      rintro _ (rfl | rfl | rfl)
      all_goals exact ⟨t, nonce, signer, by rw [hsig]⟩
    exact .inr (by rw [heff]; simpa using hto _ hlife)

end

/-! ## What the events that may let an unlock lapse do -/

/-- The commands that let an unlock lapse at most: the resets and boots, the low states, the register writes and the lapse itself. -/
def mayLapse : Instr → Bool
  | .relock .. | .unlockLifetimeEnd .. | .pfLevelWrite .. | .thermtripRelease .. | .stateEntry .. | .stateExit .. | .wakeN .. | .hotReset ..
  | .warmReset .. | .coldReset .. | .aonSupplyRemoved .. | .setupLock .. | .pairLoWrite .. | .pairHiWrite .. | .misalignedAccess ..
  | .registerWrite .. => true
  | _ => false

theorem lapsesAtMost_wake (s : State) : LapsesAtMost s (wake s) :=
  .ite (.inl rfl) (.ite (lapsesAtMost_coldBoot _ _ s) (.inl rfl))

/-- Entering SLEEP keeps the lifecycle state; DEEP and OFF let an unlock lapse (Table 17.10). -/
theorem lapsesAtMost_stateEntry (t : Nat) (s : State) : Answers (.stateEntry t) s (LapsesAtMost s) := by
  refine ⟨_, rfl, .ite (.inl rfl) ?_⟩
  split
  case h_1 => exact .ite (.inl (by simp [inState])) (.inl rfl)
  case h_2 => exact .ite (lapsesAtMost_enterDeep (tick t s)) (.inl rfl)
  case h_3 => exact .ite (lapsesAtMost_afterPowerLoss false (tick t s)) (.inl rfl)
  case h_4 => exact .inl rfl

theorem lapsesAtMost_of_mayLapse (c : Instr) (hc : mayLapse c = true) (s : State) : Answers c s (LapsesAtMost s) := by
  have hlapse : ∀ t, LapsesAtMost s (lapse (tick t s)) := fun t => lapsesAtMost_lapse (tick t s)
  have hboot : ∀ fromOff straps u, u.sec.life = s.sec.life → LapsesAtMost s (coldBoot fromOff straps u) := fun fromOff straps u hu =>
    (lapsesAtMost_coldBoot fromOff straps u).of_eq hu
  have hwarm : ∀ t straps, LapsesAtMost s (warmReset straps (tick t s)) := fun t straps => lapsesAtMost_warmReset straps (tick t s)
  have hwrite : ∀ t f off n v, LapsesAtMost s (accessWrite f off n v (tick t s)) := fun t f off n v =>
    lapsesAtMost_accessWrite f off n v (tick t s)
  cases c with
  | relock t byMailbox =>
    refine ⟨_, rfl, .ite ?mailbox (.ite (hlapse t) (.inl rfl))⟩
    case mailbox =>
      obtain hsame | heff := life_mailbox t 3 (fun s => checked (failIf (s.sec.life != .unlocked) .accessDenied) lapse s) s
      · exact .inl hsame
      · obtain hsame | ⟨-, hrun⟩ := life_checked (c := failIf ((tick t s).sec.life != .unlocked) .accessDenied) (f := lapse) (tick t s)
        · exact .inl (heff.trans hsame)
        · simpa only [LapsesAtMost, heff, hrun] using hlapse t
  | unlockLifetimeEnd t => exact ⟨_, rfl, .ite (hlapse t) (.inl rfl)⟩
  | pfLevelWrite t v => exact ⟨_, rfl, .ite (lapsesAtMost_writeDebug v (tick t s)) (.inl rfl)⟩
  | thermtripRelease t => exact ⟨_, rfl, .ite (.inl rfl) (.ite (hboot _ _ _ rfl) (.inl rfl))⟩
  | stateEntry t => exact lapsesAtMost_stateEntry t s
  | stateExit t step => exact ⟨_, rfl, .inl (by simp)⟩
  | wakeN t => exact ⟨_, rfl, .ite (lapsesAtMost_wake (tick t s)) (.inl rfl)⟩
  | hotReset t cause => exact ⟨_, rfl, .ite (.inl rfl) (.ite (hwarm t _) (.inl (life_bigReset _ _ (tick t s))))⟩
  | warmReset t straps => exact ⟨_, rfl, .ite (hwarm t _) (.inl rfl)⟩
  | coldReset t fromOff straps => exact ⟨_, rfl, .ite (.inl rfl) (.ite (.inl rfl) (hboot _ _ _ rfl))⟩
  | aonSupplyRemoved t => exact ⟨_, rfl, lapsesAtMost_afterPowerLoss false (tick t s)⟩
  | setupLock t v => exact ⟨_, rfl, .inl (by simp [regWrite])⟩
  | pairLoWrite t f off v | pairHiWrite t f off v => exact ⟨_, rfl, hwrite t f off 4 _⟩
  | misalignedAccess t f isWrite off bytes v => exact ⟨_, rfl, .ite (hwrite t f off bytes v) (.inl (by simp))⟩
  | registerWrite t f off bytes v => exact ⟨_, rfl, hwrite t f off bytes v⟩
  | _ => cases hc

/-- Settles O55: a command keeps the lifecycle state by its frame, lets an unlock lapse, or is one of the four that Table 17.6 names. -/
theorem lifecycleFollowsItsTable : Obligations.LifecycleFollowsItsTable := by
  intro c s u hu
  cases c with
  | unlock t k => exact lifeChange_unlock hu
  | provision t ok => exact lifeChange_provision hu
  | deploy t keys => exact lifeChange_deploy hu
  | retire t nonce signer ok => exact lifeChange_retire hu
  | relock | unlockLifetimeEnd | pfLevelWrite | thermtripRelease | stateEntry | stateExit | wakeN | hotReset | warmReset | coldReset |
  aonSupplyRemoved | setupLock | pairLoWrite | pairHiWrite | misalignedAccess | registerWrite =>
    exact ((lapsesAtMost_of_mayLapse _ rfl s).of_exec hu).lifeChange
  | _ => exact .inl ((keepsLockAndLife _ rfl s).of_exec hu).2

end Sys2Proof.Machine
end

section
/-! SUPPORT. The proof of O50: no command but a reset, a boot, the entry into OFF and the exit from DEEP clears LOCK (R469). -/
set_option Elab.async false
namespace Sys2Proof.Machine

/-- LOCK, once set, is set still. -/
def LockStays (s u : State) : Prop := s.hi.lock = true → u.hi.lock = true

theorem LockStays.of_eq {s u : State} (h : u.hi.lock = s.hi.lock) : LockStays s u := fun hs => h.trans hs

/-- A write of HI_SETUP_LOCK leaves LOCK set; it clears VIOLATION at most. -/
theorem writeSetupLock_of_locked {s : State} (hs : s.hi.lock = true) (v : Word) :
    writeSetupLock v s = if bit v.toNat 30 then { s with hi := { s.hi with violation := false } } else s := by
  unfold writeSetupLock
  cases bit v.toNat 30 <;> simp [hs]

theorem lockStays_writeSetupLock (v : Word) (s : State) : LockStays s (writeSetupLock v s) := by
  intro hs
  rw [writeSetupLock_of_locked hs]
  split
  case isTrue => exact hs
  case isFalse => exact hs

/-- Of the HI block's registers, the reset register at 0x30 alone may clear LOCK. -/
theorem lockStays_writeHi {rel : Nat} (hreset : rel ≠ 0x30) (v : Word) (s : State) : LockStays s (writeHi rel v s) := by
  by_cases hsetup : rel = 0x38
  case pos =>
    subst hsetup
    exact lockStays_writeSetupLock v s
  case neg =>
    refine .of_eq ?_
    simp only [writeHi, if_neg hreset, if_neg hsetup]
    repeat' split
    all_goals simp

theorem lockStays_write32 {f : Func} {off : Nat} (hreset : f = .pf → off ≠ 0x10030) (v : Word) (s : State) :
    LockStays s (write32 f off v s) := by
  refine write32_induct (fun hs => hs) (fun hf => ?pf) (fun fn rel => .of_eq (by simp)) (fun c rel => .of_eq (by simp))
  case pf =>
    exact pfWrite_induct (fun hs => hs) (fun rel hoff => lockStays_writeHi (fun h => hreset hf (by omega)) v s)
      (fun _ => .of_eq (by simp)) (fun _ => .of_eq (by simp)) (fun _ => .of_eq (by simp)) (fun _ => .of_eq (by simp))
      (fun _ => .of_eq (by simp)) (fun _ => .of_eq (by simp))

/-- A write to another offset than the reset register's: the upper half of an 8-byte write stands at 4 modulo 8, the register does not. -/
theorem lockStays_accessWrite {f : Func} {off : Nat} (hreset : (f == .pf && off == 0x10030) = false) (n : Nat) (v : Dword) (s : State) :
    LockStays s (accessWrite f off n v s) := by
  have hoff : f = .pf → off ≠ 0x10030 := by
    rintro rfl rfl
    exact absurd hreset (by decide)
  refine accessWrite_rel (fun _ hs => hs) (fun _ _ _ h h' hs => h' (h hs)) (fun off' v s _ hoff' => ?word) (fun lo hi s _ => .of_eq (by simp)) s
  case word =>
    refine lockStays_write32 (fun hf => ?_) v s
    obtain rfl | ⟨hupper, -⟩ := hoff'
    · exact hoff hf
    · omega

/-- Settles O50: a command keeps LOCK by its frame, sets it, or is a register write elsewhere than at the reset register. -/
theorem lockStaysSet : Obligations.LockStaysSet := by
  intro c s u hs hc hu
  have hframe : ∀ {l}, Touches c l → .lock ∉ l → u.hi.lock = true := fun h hl => by
    obtain ⟨v, hv, hframe⟩ := h s
    obtain rfl := Host.Outcome.next.inj (hv.symm.trans hu)
    exact (hframe .lock hl).trans hs
  have hwrite : ∀ {v}, exec c s = .next v → LockStays s v → u.hi.lock = true := fun hv hstays => by
    obtain rfl := Host.Outcome.next.inj (hv.symm.trans hu)
    exact hstays hs
  cases c with
  | unlock => exact hframe (touches_unlock _ _) (by decide)
  | relock => exact hframe (touches_relock _ _) (by decide)
  | unlockLifetimeEnd => exact hframe (touches_unlockLifetimeEnd _) (by decide)
  | provision => exact hframe (touches_provision _ _) (by decide)
  | deploy => exact hframe (touches_deploy _ _) (by decide)
  | retire => exact hframe (touches_retire _ _ _ _) (by decide)
  | pfLevelWrite => exact hframe (touches_pfLevelWrite _ _) (by decide)
  | setupLock t v =>
    refine hwrite rfl ?_
    unfold regWrite
    dsimp only
    split
    case isTrue => exact lockStays_writeSetupLock v (tick t s)
    case isFalse => exact fun hs => hs
  | registerWrite t f off n v => exact hwrite rfl (lockStays_accessWrite hc n v (tick t s))
  | pairLoWrite t f off v | pairHiWrite t f off v => exact hwrite rfl (lockStays_accessWrite hc 4 _ (tick t s))
  | misalignedAccess t f isWrite off n v =>
    refine hwrite rfl ?_
    split
    case isTrue => exact lockStays_accessWrite hc n v (tick t s)
    case isFalse => exact .of_eq (by simp)
  | stateEntry | stateExit | wakeN | thermtripRelease | hotReset | warmReset | coldReset | aonSupplyRemoved => cases hc
  | _ => exact ((keepsLockAndLife _ rfl s).of_exec hu).1.trans hs

end Sys2Proof.Machine
end

section
/-! SUPPORT. The proof of O29: what each command of the Sirdoyx mailbox does once its checks let it pass (R401, R405, R411, R415, R418). -/
set_option Elab.async false
namespace Sys2Proof.Machine

/-! ## A command that the mailbox takes (R418) -/

/-- The mailbox command runs: it ends with what its effect f answers. -/
theorem mailbox_of_takes {n : Nat} {s : State} (h : MailboxTakes n s) (t : Nat) (f : State → Status × List Byte × State) :
    mailbox t n f s = mboxEnd n (f (tick t s)).1 (f (tick t s)).2.1 (f (tick t s)).2.2 := by
  obtain ⟨hruns, hcmd, hlen⟩ := h
  have hfree : ¬((!sirdoyxRuns (tick t s) || ((tick t s).sec.mboxBusy && (tick t s).sec.mboxCmd != n)) = true) := by
    simpa [hruns] using hcmd
  exact (if_neg hfree).trans (if_neg (Nat.not_lt.mpr hlen))

/-- A command that passes its check ends COMPLETE, without output, in the state its effect leaves. -/
theorem mailbox_checked_of_takes {n : Nat} {s : State} (h : MailboxTakes n s) (t : Nat) {c : State → Option Status}
    (hc : c (tick t s) = none) (f : State → State) :
    mailbox t n (fun s => checked (c s) f s) s = mboxEnd n .complete [] (f (tick t s)) := by
  rw [mailbox_of_takes h, hc]
  rfl

/-- A mailbox command whose check passes answers what holds of the state its effect leaves, the mailbox showing COMPLETE. -/
theorem answers_of_checked {n t : Nat} {s : State} {i : Instr} {c : State → Option Status} {f : State → State} {P : State → Prop}
    (hi : exec i s = .next (mailbox t n (fun s => checked (c s) f s) s)) (h : MailboxTakes n s) (hc : c (tick t s) = none)
    (hP : P (mboxEnd n .complete [] (f (tick t s)))) : Answers i s P :=
  ⟨_, hi, by rw [mailbox_checked_of_takes h t hc]; exact hP⟩

/-- The same for a command whose effect f answers COMPLETE with an output of its own. -/
theorem answers_of_mailbox {n t : Nat} {s u : State} {i : Instr} {out : List Byte} {f : State → Status × List Byte × State} {P : State → Prop}
    (hi : exec i s = .next (mailbox t n f s)) (h : MailboxTakes n s) (hf : f (tick t s) = (.complete, out, u))
    (hP : P (mboxEnd n .complete out u)) : Answers i s P :=
  ⟨_, hi, by rw [mailbox_of_takes h, hf]; exact hP⟩

/-- A command that ends without output leaves the mailbox buffer as it was. -/
theorem changesOnly.mboxEnd_nil {l : List Piece} {n : Nat} {st : Status} {s u : State} (h : changesOnly l s u) (hl : .sec ∈ l := by simp) :
    changesOnly l s (mboxEnd n st [] u) :=
  h.setSec (hl := hl)

@[simp] theorem mboxEnd_mboxResult (n : Nat) (st : Status) (out : List Byte) (s : State) :
    (mboxEnd n st out s).sec.mboxResult = statusCode st := rfl

@[simp] theorem mboxEnd_sec_keeps (n : Nat) (st : Status) (out : List Byte) (s : State) :
    (mboxEnd n st out s).sec.level = s.sec.level ∧ (mboxEnd n st out s).sec.unlockEnd = s.sec.unlockEnd ∧
      (mboxEnd n st out s).sec.nonce = s.sec.nonce ∧ (mboxEnd n st out s).sec.slots = s.sec.slots ∧
      (mboxEnd n st out s).sec.seedFused = s.sec.seedFused ∧ (mboxEnd n st out s).sec.seedBlown = s.sec.seedBlown ∧
      (mboxEnd n st out s).sec.logOut = s.sec.logOut ∧ (mboxEnd n st out s).sec.cert = s.sec.cert :=
  ⟨rfl, rfl, rfl, rfl, rfl, rfl, rfl, rfl⟩

/-! ## The nonce (R415) -/

theorem getNonce_ends {t : Nat} {s : State} (h : MailboxTakes 1 s) :
    exec (.getNonce t) s = .next (mboxEnd 1 .complete (leBytes (Config.draw s.draws % 2 ^ 256) 32)
      (advanceDraw { tick t s with sec := { s.sec with nonce := some (Config.draw s.draws % 2 ^ 256), nonceAt := max s.time t } })) :=
  congrArg Host.Outcome.next (mailbox_of_takes h t _)

theorem nonceExpiry_spends {t : Nat} {s : State} (h : s.sec.nonceAt + 600000000000 ≤ max s.time t) :
    exec (.nonceExpiry t) s = .next (useNonce (tick t s)) :=
  congrArg Host.Outcome.next (if_pos h)

/-! ## The unlock (R411, R415, R416) -/

/-- The effect of a token that passes every check of Table 17.9. -/
def unlocked (k : UnlockToken) (s : State) : State :=
  coffer 1 0 .unlock k.level 0 0 0 (useNonce { s with sec := { s.sec with
    life := .unlocked, level := k.level, unlockEnd := s.time + 1000000000 * k.lifetime, tokenDigest := k.digest } })

theorem changesOnly_unlocked (k : UnlockToken) (s : State) : changesOnly [.sec, .cof, .life] s (unlocked k s) :=
  ((changesOnly_refl [.sec, .cof, .life] s).setLife).useNonce.coffer

/-- A token that passes the checks of Table 17.9 unlocks the part. -/
theorem unlockRun_accepts {k : UnlockToken} {s : State} (hlife : s.sec.life = .deployed) (hst : s.pw.st = .run) (hshape : tokenShape s k = true)
    (hsigner : k.signer = 2) (hslot : slotOk s 2 2 2 = true) (hsig : k.sigOk = true) (hid : k.deviceIdOk = true)
    (hnonce : nonceOk s k.nonce = true) (htenant : k.level = 3 → tenantData s = false) :
    unlockRun k s = (.complete, [], unlocked k s) := by
  have hdata : ¬(k.level = 3 ∧ tenantData s = true) := fun ⟨h3, ht⟩ => by simp [htenant h3] at ht
  simp [unlockRun, unlocked, hlife, hst, hshape, hsigner, hslot, hsig, hid, hnonce, hdata]

theorem unlock_completes {t : Nat} {k : UnlockToken} {s : State} (h : MailboxTakes 2 s) (hlife : s.sec.life = .deployed) (hst : s.pw.st = .run)
    (hshape : tokenShape s k = true) (hsigner : k.signer = 2) (hslot : slotOk s 2 2 2 = true) (hsig : k.sigOk = true)
    (hid : k.deviceIdOk = true) (hnonce : nonceOk (tick t s) k.nonce = true) (htenant : k.level = 3 → tenantData (tick t s) = false) :
    Answers (.unlock t k) s (fun u => u.sec.life = .unlocked ∧ u.sec.level = k.level ∧ u.sec.unlockEnd = max s.time t + 1000000000 * k.lifetime ∧
      u.sec.nonce = none ∧ u.sec.mboxResult = 0 ∧ changesOnly [.time, .sec, .cof, .life] s u) := by
  have hframe : changesOnly [.time, .sec, .cof, .life] s (mboxEnd 2 .complete [] (unlocked k (tick t s))) :=
    changesOnly_of_tick (by decide) (((changesOnly_unlocked k (tick t s)).mono (by decide)).mboxEnd_nil)
  refine answers_of_mailbox rfl h (unlockRun_accepts hlife hst hshape hsigner hslot hsig hid hnonce htenant) ⟨?_, ?_, ?_, ?_, rfl, hframe⟩ <;>
    simp [unlocked, useNonce]

theorem relock_completes {t : Nat} {s : State} (h : MailboxTakes 3 s) (hlife : s.sec.life = .unlocked) :
    Answers (.relock t true) s (fun u => u.sec.life = .deployed ∧ u.sec.level = 0 ∧ u.sec.mboxResult = 0) := by
  refine answers_of_checked (c := fun s => failIf (s.sec.life != .unlocked) .accessDenied) (f := lapse) rfl h (by simp [hlife]) ⟨?_, ?_, rfl⟩ <;>
    simp [lapse, hlife]

theorem unlockLifetimeEnd_lapses {t : Nat} {s : State} (h : s.sec.unlockEnd ≤ max s.time t) :
    exec (.unlockLifetimeEnd t) s = .next (lapse (tick t s)) :=
  congrArg Host.Outcome.next (if_pos h)

/-! ## The life cycle (R405, R411) -/

theorem provision_completes {t : Nat} {s : State} (h : MailboxTakes 4 s) (hlife : s.sec.life = .blank) (hslot : slotOk s 1 1 1 = true) :
    Answers (.provision t true) s (fun u =>
      u.sec.life = .provisioned ∧ u.sec.level = 3 ∧ u.sec.seedFused = true ∧ u.sec.mboxResult = 0 ∧ u.draws = s.draws + 2) := by
  have hpass : ¬((s.sec.life != .blank || !slotOk (tick t s) 1 1 1 || !true) = true) := by simp [hlife, hslot]
  refine answers_of_mailbox rfl h (if_neg hpass) ⟨?_, ?_, ?_, rfl, ?_⟩ <;> simp [advanceDraw]

/-- What DEPLOY writes to the key slots depends on the slots alone. -/
theorem deployKeys_slots_congr (keys : List (Option Digest)) {s u : State} (h : s.sec.slots = u.sec.slots) :
    (deployKeys keys s).sec.slots = (deployKeys keys u).sec.slots := by
  unfold deployKeys
  generalize [2, 3, 4, 5, 6, 7] = l
  induction l generalizing s u with
  | nil => exact h
  | cons n l ih =>
    refine ih ?_
    dsimp only
    cases keys.getD n none with
    | none => exact h
    | some d => exact congrArg (mset · n { digest := some d }) h

theorem deploy_completes {t : Nat} {keys : List (Option Digest)} {s : State} (h : MailboxTakes 5 s) (hlife : s.sec.life = .provisioned)
    (hkey : (keys.getD 2 none).isSome = true) (hcontent : ((keys.take 8).drop 3).any (·.isSome) = true) :
    Answers (.deploy t keys) s (fun u =>
      u.sec.life = .deployed ∧ u.sec.level = 0 ∧ u.sec.slots = (deployKeys keys s).sec.slots ∧ u.sec.mboxResult = 0) := by
  have hsigner : (keys.getD 2 none).isNone = false := by simpa [Option.isNone_eq_false_iff] using hkey
  have hall : ((keys.take 8).drop 3).all (·.isNone) = false := by
    rw [List.all_eq_not_any_not]
    simpa [Option.not_isNone] using hcontent
  refine answers_of_checked rfl h (by simp only [tick_sec, hlife, hsigner, hall]; rfl) ⟨?_, ?_, ?_, rfl⟩
  · simp
  · simp
  · simpa using deployKeys_slots_congr keys (tick_sec t s ▸ rfl)

theorem retire_completes {t nonce signer : Nat} {s : State} (h : MailboxTakes 8 s) (hok : retireOk (tick t s) nonce signer true = true) :
    Answers (.retire t nonce signer true) s (fun u =>
      u.sec.life = .retired ∧ u.sec.seedBlown = true ∧ u.mem.dram = [] ∧ u.sec.mboxResult = 0) := by
  refine answers_of_checked rfl h (by simp [hok]) ⟨?_, ?_, ?_, rfl⟩
  · simp [useNonce]
  · simp [useNonce]
  · simp [zeroMemory, useNonce]

/-! ## Keys (R401) -/

theorem keyAdd_completes {t n : Nat} {key : Digest} {nonce : Nat} {s : State} (h : MailboxTakes 6 s) (hlow : 3 ≤ n) (hhigh : n ≤ 7)
    (hempty : mget s.sec.slots n = none) (hslot : slotOk s 2 2 2 = true) (hnonce : nonceOk (tick t s) nonce = true) :
    Answers (.keyAdd t n key nonce true) s (fun u =>
      u.sec.slots = mset s.sec.slots n { digest := some key } ∧ u.sec.nonce = none ∧ u.sec.mboxResult = 0) := by
  have hrange : ¬7 < n ∧ ¬n < 3 := by omega
  refine answers_of_checked rfl h (by simp [hrange, mgetD, hempty, hslot, hnonce]) ⟨?_, ?_, rfl⟩ <;> simp [useNonce]

theorem keyRevoke_completes {t n nonce : Nat} {s : State} (h : MailboxTakes 7 s) (hn : n ≤ 7) (hkey : slotOk s n 0 7 = true)
    (hsigner : slotOk s (revoker n) 1 2 = true) (hnonce : nonceOk (tick t s) nonce = true) :
    Answers (.keyRevoke t n nonce (revoker n) true) s (fun u =>
      u.sec.slots = mmod s.sec.slots n (fun k => { k with revoked := true }) ∧ u.sec.nonce = none ∧ u.sec.mboxResult = 0) := by
  refine answers_of_checked rfl h (by simp [Nat.not_lt.mpr hn, hkey, hsigner, hnonce]) ⟨?_, ?_, rfl⟩ <;> simp [useNonce]

/-! ## The logs and the certificate (R405, R407) -/

theorem logRead_completes {t n first : Nat} {s : State} (h : MailboxTakes 9 s) (hlow : 6 ≤ n) (hhigh : n ≤ 8) :
    Answers (.logRead t n first) s (fun u =>
      u.sec.logOut = (((logOf s n).entries.reverse.drop first).take 64, (logOf s n).wrapped) ∧ u.sec.mboxResult = 0) := by
  have hlog : ¬((decide (n < 6) || decide (8 < n)) = true) := by simp; omega
  exact answers_of_mailbox rfl h (if_neg hlog) ⟨rfl, rfl⟩

theorem certWrite_completes {t : Nat} {chain : List Byte} {s : State} (h : MailboxTakes 10 s) (hlife : s.sec.life = .provisioned) :
    Answers (.certWrite t chain) s (fun u => u.sec.cert = chain ∧ u.sec.mboxResult = 0) :=
  answers_of_checked rfl h (by simp [hlife]) ⟨rfl, rfl⟩

/-! ## The obligation -/

/-- Settles O29: a command that the mailbox takes ends with what its effect answers, and each effect's checks pass. -/
theorem mailboxCommandsComplete : Obligations.MailboxCommandsComplete :=
  ⟨fun _ _ => getNonce_ends,
   fun _ _ => nonceExpiry_spends,
   fun _ _ _ => unlock_completes,
   fun _ _ => relock_completes,
   fun _ _ _ => unlockLifetimeEnd_lapses,
   fun _ _ => provision_completes,
   fun _ _ _ => deploy_completes,
   fun _ _ _ _ _ => keyAdd_completes,
   fun _ _ _ _ => keyRevoke_completes,
   fun _ _ _ _ h hok _ => retire_completes h hok,
   fun _ _ _ _ => logRead_completes,
   fun _ _ _ => certWrite_completes⟩

end Sys2Proof.Machine
end

section
/-! SUPPORT. The proof of O30: the answers of SPDM (R406 to R408) and what the test port takes (R412, R414). -/
set_option Elab.async false
namespace Sys2Proof.Machine

/-! ## SPDM -/

section
variable {t : Nat} {s : State} {name : String} {data : List Nat}

/-- A request that a part of any life answers (Table 17.5). -/
theorem spdm_of_runs (hruns : sirdoyxRuns s = true) : spdm t true true name data s = sendMgmt (.spdm name data) (tick t s) := by
  simp [spdm, hruns]

/-- A request that a retired part does not answer. -/
theorem spdm_of_lives (hruns : sirdoyxRuns s = true) (hlife : s.sec.life ≠ .retired) (retired : Bool) {ok : Bool} (hok : ok = true) :
    spdm t retired ok name data s = sendMgmt (.spdm name data) (tick t s) := by
  simp [spdm, hruns, hlife, hok]

/-- A session message that succeeds changes the sessions by f and is answered. -/
theorem session_of_lives (hruns : sirdoyxRuns s = true) (hlife : s.sec.life ≠ .retired) {ok : Bool} (hok : ok = true) (f : Sec → Sec) :
    session t ok name data f s = { sendMgmt (.spdm name data) (tick t s) with sec := f s.sec } := by
  unfold session
  rw [spdm_of_lives hruns hlife false hok]
  simp [hok, hruns, hlife]

end

/-- A number filtered out of a list is not in it. -/
theorem not_mem_filter_ne (n : Nat) (l : List Nat) : n ∉ l.filter (fun k => k != n) := by simp

section
variable {t n : Nat} {s : State} (hruns : sirdoyxRuns s = true) (hlife : s.sec.life ≠ .retired)
include hruns hlife

theorem keyExchange_answers (hid : hasIdentity s = true) (hnew : n ∉ s.sec.sessions) (hfresh : n ∉ s.sec.handshakes) :
    Answers (.keyExchange t 2 n) s (fun u => u.sec.handshakes = n :: s.sec.handshakes ∧
      u.out = .mgmt (.spdm "KEY_EXCHANGE_RSP" [n, Config.draw s.draws]) :: s.out ∧ changesOnly [.time, .sec, .draws, .out] s u) := by
  refine ⟨_, rfl, ?_, ?_, (changesOnly_session (by decide) t _ _ _ s).advanceDraw⟩
  all_goals rw [session_of_lives hruns hlife (by simp [hid, hnew])]
  · simp [hfresh]
  · rfl

theorem finish_opens (hopen : n ∈ s.sec.handshakes) : Answers (.finish t n true) s (fun u =>
    u.sec.sessions = n :: s.sec.sessions ∧ n ∉ u.sec.handshakes ∧ u.out = .mgmt (.spdm "FINISH_RSP" [n]) :: s.out) := by
  have hsession := session_of_lives (t := t) (name := "FINISH_RSP") (data := [n]) hruns hlife
    (ok := true && s.sec.handshakes.contains n) (by simpa using hopen) (fun x => { x with sessions := n :: x.sessions })
  have hstill := (congrArg sirdoyxRuns hsession).trans (hruns : _ = true)
  refine ⟨_, congrArg Host.Outcome.next (if_pos hstill), ?_, not_mem_filter_ne n _, ?_⟩
  · exact congrArg (·.sec.sessions) hsession
  · exact congrArg (·.out) hsession

theorem endSession_closes (hopen : n ∈ s.sec.sessions) : Answers (.endSession t n) s (fun u =>
    n ∉ u.sec.sessions ∧ u.out = .mgmt (.spdm "END_SESSION_ACK" [n]) :: s.out) :=
  ⟨_, congrArg Host.Outcome.next (session_of_lives hruns hlife (by simpa using hopen) _), not_mem_filter_ne n _, rfl⟩

theorem ideKm_programs {st k : Nat} (hopen : n ∈ s.sec.sessions) : Answers (.ideKm t n st k) s (fun u =>
    mget u.sec.ideStreams st = some k ∧ u.out = .mgmt (.spdm "IDE_KM" [st]) :: s.out) :=
  ⟨_, congrArg Host.Outcome.next (session_of_lives hruns hlife (by simpa using hopen) _), mget_mset_self _ _ _, rfl⟩

end

/-! ## The test port (R414) -/

/-- A part that is not OFF answers at the test port. -/
theorem tap_answers {t : Nat} {s : State} (hst : s.pw.st ≠ .off) (haon : s.pw.aonUp = true) :
    ¬((decide ((tick t s).pw.st = .off) || !(tick t s).pw.aonUp) = true) := by
  simp [hst, haon]

section
variable {t : Nat} {op : TapOp} {s : State} (hst : s.pw.st ≠ .off) (haon : s.pw.aonUp = true)
include hst haon

theorem tapInstruction_takes (hlevel : tapNeeds op ≤ tapLevel s) : exec (.tapInstruction t op) s = .next (tapRun op (tick t s)) := by
  have hanswers := tap_answers (t := t) hst haon
  exact congrArg Host.Outcome.next ((if_neg hanswers).trans (if_pos hlevel))

theorem tapInstruction_bypasses (hlevel : tapLevel s < tapNeeds op) (hinstr : isTransaction op = false) :
    Answers (.tapInstruction t op) s (fun u => u.sec = { s.sec with tapIr := .bypass } ∧ changesOnly [.time, .sec] s u) := by
  have hanswers := tap_answers (t := t) hst haon
  have hframe : changesOnly [.time, .sec] s { tick t s with sec := { s.sec with tapIr := .bypass } } :=
    changesOnly_of_tick (t := t) (by decide) (changesOnly_refl [.time, .sec] _).setSec
  exact ⟨_, congrArg Host.Outcome.next ((if_neg hanswers).trans ((if_neg (Nat.not_le.mpr hlevel)).trans (if_neg (by simp [hinstr])))), rfl, hframe⟩

end

/-! ## The PF's debug level (R412) -/

theorem pfLevelWrite_takes {t : Nat} {v : Word} {s : State} (hregs : regsAnswer s = true) (hruns : sirdoyxRuns s = true)
    (hlife : s.sec.life = .deployed) (hlevel : v.toNat % 4 ≤ 1) :
    Answers (.pfLevelWrite t v) s (fun u =>
      u.sec = { s.sec with pfLevel := v.toNat % 4, level := v.toNat % 4 } ∧ changesOnly [.time, .sec] s u) := by
  have hwrite : writeDebug v (tick t s) = { tick t s with sec := { s.sec with pfLevel := v.toNat % 4, level := v.toNat % 4 } } := by
    simp [writeDebug, hruns, hlife, hlevel]
  refine ⟨_, congrArg Host.Outcome.next ((regWrite_of_regsAnswer hregs _ _).trans hwrite), rfl, ?_⟩
  exact changesOnly_of_tick (t := t) (by decide) (changesOnly_refl [.time, .sec] _).setSec

/-! ## The obligation -/

/-- Settles O30: each request is answered by the SPDM message it names, each instruction of the TAP by its level. -/
theorem spdmAndTapAnswer : Obligations.SpdmAndTapAnswer :=
  ⟨fun _ _ hruns => ⟨congrArg Host.Outcome.next (spdm_of_runs hruns), congrArg Host.Outcome.next (congrArg advanceDraw (spdm_of_runs hruns))⟩,
   fun _ _ _ hruns hlife hhash => congrArg Host.Outcome.next (spdm_of_lives hruns hlife false (by simp [hhash])),
   fun _ _ _ _ hruns hlife => ⟨congrArg Host.Outcome.next (spdm_of_lives hruns hlife false rfl), congrArg Host.Outcome.next (spdm_of_lives hruns hlife false rfl)⟩,
   fun _ _ _ hruns hlife hid => congrArg Host.Outcome.next (congrArg advanceDraw (spdm_of_lives hruns hlife false (by simp [hid]))),
   fun _ _ _ hruns hlife hlow hhigh => congrArg Host.Outcome.next (spdm_of_lives hruns hlife _ (by simp [hlow, hhigh])),
   fun _ _ _ => keyExchange_answers,
   fun _ _ _ => finish_opens,
   fun _ _ _ => endSession_closes,
   fun _ _ _ _ _ hruns hlife => ideKm_programs hruns hlife,
   fun _ _ _ => tapInstruction_takes,
   fun _ _ _ => tapInstruction_bypasses,
   fun _ _ _ => pfLevelWrite_takes⟩

end Sys2Proof.Machine
end

section
/-! SUPPORT. The proof of O25: the caps, the lease and PWRWARN_N, and what runs the control pass (R382 to R391, R479). -/
set_option Elab.async false
namespace Sys2Proof.Machine

/-! ## The registers of the caps and the operating points (R383, R385) -/

section
variable {t : Nat} {v : Word} {s : State} (hregs : regsAnswer s = true)
include hregs

/-- A register write whose command is f has f's effect at the time given. -/
theorem next_regWrite (f : State → State) : (.next (regWrite t f s) : Host.Outcome State Fault Refusal) = .next (f (tick t s)) :=
  congrArg Host.Outcome.next (regWrite_of_regsAnswer hregs t f)

theorem pwCapWrite_takes (hw : wattsOk (v.toNat % 4096) = true) : exec (.pwCapWrite t v) s = .next (capMoves (effCap s) { tick t s with pw :=
    { s.pw with cap := max (v.toNat % 4096) s.pw.floor, capClamp := s.pw.capClamp || decide (v.toNat % 4096 < s.pw.floor) } }) :=
  (next_regWrite hregs (writeCap v)).trans (congrArg _ (if_neg (by simp [hw])))

theorem pwCapWrite_refuses (hw : wattsOk (v.toNat % 4096) = false) :
    Answers (.pwCapWrite t v) s (fun u => u.pw = { s.pw with cfgErr := true } ∧ changesOnly [.time, .pw] s u) := by
  have hrefuse : writeCap v (tick t s) = pwRefuse (tick t s) := if_pos (by simp [hw])
  refine ⟨_, (next_regWrite hregs _).trans (congrArg _ hrefuse), rfl, changesOnly_of_tick (t := t) (by decide) ?_⟩
  exact (changesOnly_refl [.time, .pw] _).setPw (by rfl) (by decide)

theorem pwFloorWrite_takes (hlock : s.hi.lock = false) : exec (.pwFloorWrite t v) s = .next (setFloor (v.toNat % 4096) (tick t s)) :=
  (next_regWrite hregs (writeFloor v)).trans (congrArg _ (if_pos (by simp [hlock])))

theorem pwPhaseWrite_takes (hphase : v.toNat % 8 ≤ 4) :
    exec (.pwPhaseWrite t v) s = .next (controlPass false { tick t s with pw := { s.pw with phase := v.toNat % 8 } }) :=
  (next_regWrite hregs (writePhase v)).trans (congrArg _ (if_neg (Nat.not_lt.mpr hphase)))

theorem pwOpWrite_takes (hcode : v.toNat % 128 ≤ 96) :
    exec (.pwOpWrite t 0 v) s = .next (controlPass false { tick t s with pw := { s.pw with op0 := v.toNat % 128 } }) ∧
    exec (.pwOpWrite t 4 v) s = .next (controlPass false { tick t s with pw := { s.pw with op4 := v.toNat % 128 } }) :=
  ⟨(next_regWrite hregs (writeOp 0 v)).trans (congrArg _ (if_neg (Nat.not_lt.mpr hcode))),
   (next_regWrite hregs (writeOp 4 v)).trans (congrArg _ (if_neg (Nat.not_lt.mpr hcode)))⟩

end

/-! ## The rack manager and the board (R385, R389, R391) -/

/-- A rack cap at the floor or above is taken as it is, whatever its flags. -/
theorem setCap_takes {t c f : Nat} {s : State} (hrack : fromRack s s.sec.rmEid = true) (hw : wattsOk c = true) (hfloor : s.pw.floor ≤ c) :
    exec (.setCap t s.sec.rmEid c f) s =
      .next (capMoves (effCap s) { tick t s with pw := { s.pw with rackCap := c, rackEmergency := false } }) := by
  have hpass : ¬((!fromRack (tick t s) s.sec.rmEid || !wattsOk c) = true) := by
    have hrack' : fromRack (tick t s) s.sec.rmEid = true := hrack
    simp [hrack', hw]
  have hlow : decide (c < (tick t s).pw.floor) = false := by simpa using hfloor
  refine congrArg Host.Outcome.next ((if_neg hpass).trans ?_)
  simp only [hlow, Bool.false_and, Bool.or_false, Bool.false_eq_true, if_false]
  rfl

theorem heartbeat_grants {t eid : Nat} {s : State} (hrack : fromRack s eid = true) : Answers (.heartbeat t eid) s (fun u =>
    u.pw = { s.pw with lease := true, hadLease := true, leaseEnd := max s.time t + 2000000000 } ∧ changesOnly [.time, .pw] s u) :=
  ⟨_, congrArg Host.Outcome.next (if_pos hrack), rfl,
   changesOnly_of_tick (t := t) (by decide) ((changesOnly_refl [.time, .pw] _).setPw (by rfl) (by decide))⟩

theorem leaseExpiry_lowers {t : Nat} {s : State} (hlease : s.pw.lease = true) (hend : s.pw.leaseEnd ≤ max s.time t) :
    exec (.leaseExpiry t) s = .next (capMoves (effCap s) (powerEvent 5 (coffer 7 1 .leaseExpiry 0 0 0 0
      { tick t s with pw := { s.pw with lease := false, leaseExpired := true, rackCap := s.pw.floor, rackEmergency := false } }))) := by
  have hdue : ¬((!(tick t s).pw.lease || decide ((tick t s).time < (tick t s).pw.leaseEnd)) = true) := by
    have hover : ¬(max s.time t < s.pw.leaseEnd) := Nat.not_lt.mpr hend
    simp [hlease, hover, -sup_lt_iff]
  exact congrArg Host.Outcome.next (if_neg hdue)

theorem pwrwarnNAssert_binds {t : Nat} {s : State} (hfirst : s.pw.pwrwarn = false) (hst : s.pw.st = .run) :
    exec (.pwrwarnNAssert t) s = .next (controlPass true (capMoves (effCap s) (powerEvent 0 (coffer 7 1 .pwrwarn 0 0 0 0
      { tick t s with pw := { s.pw with pwrwarn := true, pwrwarnCap := true } })))) := by
  have hnew : ¬((tick t s).pw.pwrwarn = true) := by simp [hfirst]
  exact congrArg Host.Outcome.next ((if_neg hnew).trans (if_neg (by simp [powerEvent, hst])))

/-! ## What runs the control pass (R382, R384, R479) -/

/-- The fabric differs in its fields alone. -/
def OnlyFields (s u : State) : Prop := ∃ fs, u.fab = { s.fab with fields := fs }

theorem onlyFields_refl (s : State) : OnlyFields s s := ⟨_, rfl⟩

theorem OnlyFields.trans {s u v : State} (h : OnlyFields s u) (h' : OnlyFields u v) : OnlyFields s v := by
  obtain ⟨fs, hu⟩ := h
  obtain ⟨gs, hv⟩ := h'
  exact ⟨gs, by rw [hv, hu]⟩

/-- A change of the power registers is none of the fabric. -/
theorem OnlyFields.setPw {s u : State} (h : OnlyFields s u) (p : Power) : OnlyFields s { u with pw := p } := h

theorem onlyFields_modField (n : Nat) (f : Field → Field) (s : State) : OnlyFields s (modField n f s) := ⟨_, rfl⟩

theorem onlyFields_forEach {α : Type} {g : α → State → State} (hg : ∀ x s, OnlyFields s (g x s)) (l : List α) (s : State) :
    OnlyFields s (forEach g l s) := by
  induction l generalizing s with
  | nil => exact onlyFields_refl s
  | cons x l ih => exact (hg x s).trans (ih _)

theorem onlyFields_keepFloors (floors : List Nat) (s : State) : OnlyFields s (keepFloors floors s) := by
  refine onlyFields_forEach (fun f s => ?_) _ s
  dsimp only
  split
  · exact onlyFields_modField _ _ s
  · exact onlyFields_refl s

theorem onlyFields_droopWindow (f : Nat) (s : State) : OnlyFields s (droopWindow f s) := by
  refine OnlyFields.trans ?_ (onlyFields_modField f _ _)
  split
  · exact onlyFields_modField _ _ s
  · exact onlyFields_refl s

/-- With no job and no operation live, a window begins with its background share, nothing used and no entitlement. -/
theorem schedulingWindow_begins {t : Nat} {s : State} (hjobs : s.srv.jobs = []) (hops : s.ops.live = []) :
    ∃ v, exec (.schedulingWindow t) s = .next (controlPass false v) ∧ v.fab.bg = s.fab.bgNext ∧ v.fab.bgUsed = [] ∧
      v.fab.windowStart = max s.time t ∧ v.fab.entitle = [] := by
  have hexec : ∃ v, exec (.schedulingWindow t) s = .next (controlPass false v) ∧
      OnlyFields { tick t s with fab := { s.fab with bg := s.fab.bgNext, bgUsed := [], windowStart := max s.time t, entitle := [] } } v := by
    refine ⟨_, rfl, ?_⟩
    simp only [tick_srv, tick_ops, hjobs, List.filter_nil, List.map_nil, forEach, hops]
    refine OnlyFields.setPw ?_ _
    refine OnlyFields.trans ?_ (onlyFields_keepFloors _ _)
    exact onlyFields_forEach onlyFields_droopWindow _ _
  obtain ⟨v, hv, fs, hfab⟩ := hexec
  exact ⟨v, hv, by rw [hfab], by rw [hfab], by rw [hfab], by rw [hfab]⟩

theorem guardBandLower_lowers {t n : Nat} {s : State} (hn : n < 4) (hguard : (fieldSt s n).droopGuard ≠ 0)
    (hquiet : (fieldSt s n).lastDroopWindow + 600000000000 ≤ max s.time t) : exec (.guardBandLower t n) s = .next (controlPass false
      (modField n (fun x => { x with droopGuard := x.droopGuard - 5, lastDroopWindow := max s.time t }) (tick t s))) := by
  have hdue : ¬((decide (4 ≤ n) || decide ((fieldSt (tick t s) n).droopGuard = 0) ||
      decide ((tick t s).time < (fieldSt (tick t s) n).lastDroopWindow + 600000000000)) = true) := by
    have hquiet' : ¬(max s.time t < (fieldSt s n).lastDroopWindow + 600000000000) := Nat.not_lt.mpr hquiet
    simp [hn, hguard, hquiet', -sup_lt_iff]
  exact congrArg Host.Outcome.next (if_neg hdue)

/-- The reading of one rail is P's, and cap control runs. -/
theorem railReading_controls {t r w : Nat} {s : State} (hint : s.pw.integrating = false) :
    ∃ v, exec (.railReading t [(r, some w)]) s = .next (controlPass false v) ∧ v.pw.rails = mset s.pw.rails r (w, 0) ∧
      v.pw.power = sat 16 (sumOf (fun r => railWatts r.2) v.pw.rails) ∧ changesOnly [.time, .pw] s v := by
  have hstill (p : Nat) (u : State) (hu : u.pw.integrating = false) : integrate (takePower p u) = takePower p u :=
    if_pos (by simp [takePower, hu])
  refine ⟨_, congrArg (fun u => Host.Outcome.next (controlPass false u)) (hstill _ _ hint), rfl, rfl, ?_⟩
  exact changesOnly_of_tick (t := t) (by decide)
    (((changesOnly_refl [.time, .pw] _).setPw (by rfl) (by decide)).setPw (by rfl) (by decide))

theorem railSetpointReached_applies {t n : Nat} {s : State} (hn : n < 4) :
    exec (.railSetpointReached t n) s = .next (controlPass false (modField n (fun x => { x with railMv := x.setpoint }) (tick t s))) :=
  congrArg Host.Outcome.next (if_neg (Nat.not_le.mpr hn))

/-! ## The obligation -/

/-- Settles O25: each cause passes its guard and its effect is the one stated. -/
theorem capsAndClocksFollow : Obligations.CapsAndClocksFollow :=
  ⟨fun _ _ _ => pwCapWrite_takes,
   fun _ _ _ => pwCapWrite_refuses,
   fun _ _ _ => pwFloorWrite_takes,
   fun _ _ _ => pwPhaseWrite_takes,
   fun _ _ _ => pwOpWrite_takes,
   fun _ _ _ _ => setCap_takes,
   fun _ _ _ => heartbeat_grants,
   fun _ _ => leaseExpiry_lowers,
   fun _ _ => pwrwarnNAssert_binds,
   fun _ _ => rfl,
   fun _ _ => schedulingWindow_begins,
   fun _ _ _ => guardBandLower_lowers,
   fun _ _ _ _ => railReading_controls,
   fun _ _ _ => railSetpointReached_applies⟩

end Sys2Proof.Machine
end

section
/-! SUPPORT. The proof of O27: requests, entries, exits and wakes of the power states (R372 to R374, R377 to R381). -/
set_option Elab.async false
namespace Sys2Proof.Machine

/-- A change of the power registers that keeps the power state, besides that of the time. -/
theorem changesOnly_tick_setPw {t : Nat} {s : State} {p : Power} (hst : p.st = s.pw.st := by rfl) :
    changesOnly [.time, .pw] s { tick t s with pw := p } :=
  changesOnly_of_tick (t := t) (by decide) ((changesOnly_refl [.time, .pw] _).setPw hst (by decide))

/-! ## Requests (R374) -/

/-- A request for a low state, from a state that is neither that state nor OFF, is pending. -/
theorem requestLow_pends {target : PState} {s : State} (h : ¬((decide (s.pw.st = target) || decide (s.pw.st = .off)) = true)) :
    requestLow target s = { s with pw := { s.pw with pending := true, target := target } } := if_neg h

section
variable {t : Nat} {s : State} (hregs : regsAnswer s = true)
include hregs

theorem requestRun_writes : exec (.requestRun t) s = .next (requestRun { tick t s with pw := { s.pw with req := 0 } }) :=
  next_regWrite hregs (writeReq 0)

theorem requestLow_writes (hst : s.pw.st = .run) :
    Answers (.requestSleep t) s (fun u => u.pw = { s.pw with req := 2, pending := true, target := .sleep } ∧ changesOnly [.time, .pw] s u) ∧
    Answers (.requestDeep t) s (fun u => u.pw = { s.pw with req := 3, pending := true, target := .deep } ∧ changesOnly [.time, .pw] s u) ∧
    Answers (.requestOff t) s (fun u => u.pw = { s.pw with req := 4, pending := true, target := .off } ∧ changesOnly [.time, .pw] s u) :=
  ⟨⟨_, (next_regWrite hregs (writeReq 2)).trans (congrArg _ (requestLow_pends (by simp [hst]))), rfl, changesOnly_tick_setPw⟩,
   ⟨_, (next_regWrite hregs (writeReq 3)).trans (congrArg _ (requestLow_pends (by simp [hst]))), rfl, changesOnly_tick_setPw⟩,
   ⟨_, (next_regWrite hregs (writeReq 4)).trans (congrArg _ (requestLow_pends (by simp [hst]))), rfl, changesOnly_tick_setPw⟩⟩

end

theorem setState_pends {t eid : Nat} {s : State} (hrack : fromRack s eid = true) (htrip : s.pw.thermtrip = false) (haon : s.pw.aonUp = true)
    (hboot : s.sec.failedBoot = false) (hheld : s.pw.resetHeld = false) (hst : s.pw.st = .run) :
    Answers (.setState t eid 2) s (fun u => u.pw = { s.pw with pending := true, target := .sleep } ∧ changesOnly [.time, .pw] s u) := by
  have hrack' : fromRack (tick t s) eid = true := hrack
  have htaken : (fromRack (tick t s) eid && !(tick t s).pw.thermtrip && (tick t s).pw.aonUp && !(tick t s).sec.failedBoot &&
      !(tick t s).pw.resetHeld) = true := by
    simp [hrack', htrip, haon, hboot, hheld]
  exact ⟨_, congrArg Host.Outcome.next ((if_pos htaken).trans (requestLow_pends (by simp [hst]))), rfl, changesOnly_tick_setPw⟩

/-! ## Entries (R373, R374) -/

theorem idleEntry_enters {t : Nat} {s : State} (hst : s.pw.st = .run) (hjobs : jobResident (tick t s) = false) (hops : s.ops.live = [])
    (hquiet : s.pw.lastBusy + 1000000 ≤ max s.time t) :
    Answers (.idleEntry t) s (fun u => u.pw = { s.pw with st := .idle } ∧ changesOnly [.time, .pw, .pst] s u) := by
  have hquiet' : ¬(max s.time t < s.pw.lastBusy + 1000000) := Nat.not_lt.mpr hquiet
  refine ⟨_, congrArg Host.Outcome.next (if_neg ?_), rfl, ?_⟩
  · simp [hst, hjobs, hops, hquiet', -sup_lt_iff]
  · intro p hp
    cases p with
    | time | pw | pst => simp at hp
    | _ => rfl

/-- A pending request, in a state that a request may be met in, is met as its target says. -/
theorem stateEntry_guard {s : State} (hpend : s.pw.pending = true) (hst : s.pw.st = .run ∨ s.pw.st = .idle ∨ s.pw.st = .sleep) :
    ¬((!s.pw.pending || !(s.pw.st == .run || s.pw.st == .idle || s.pw.st == .sleep || s.pw.st == .deep)) = true) := by
  rcases hst with hst | hst | hst <;> simp [hpend, hst]

theorem stateEntry_sleep {t : Nat} {s : State} (hpend : s.pw.pending = true) (hst : s.pw.st = .run ∨ s.pw.st = .idle)
    (htarget : s.pw.target = .sleep) (hready : sleepReady (tick t s) = true) :
    exec (.stateEntry t) s = .next (inState .sleep (portsDown (railsOff (tick t s)))) := by
  have hshallow : (s.pw.st != .deep) = true := by rcases hst with hst | hst <;> simp [hst]
  refine congrArg Host.Outcome.next ((if_neg (stateEntry_guard (s := tick t s) hpend (by tauto))).trans ?_)
  simp only [tick_pw, htarget, hready, hshallow, Bool.and_self, if_true]

theorem stateEntry_off {t : Nat} {s : State} (hpend : s.pw.pending = true) (hst : s.pw.st = .run ∨ s.pw.st = .sleep)
    (htarget : s.pw.target = .off) (hready : deepReady (tick t s) = true) :
    exec (.stateEntry t) s = .next (inState .off (afterPowerLoss false (tick t s))) := by
  refine congrArg Host.Outcome.next ((if_neg (stateEntry_guard (s := tick t s) hpend (by tauto))).trans ?_)
  simp only [tick_pw, htarget, hready, if_true]

/-! ## Exits (R380) -/

/-- The step that the exit is at goes on; step 1 only once the coolant has been back for 1 s. -/
theorem stateExit_guard {s : State} {k : Nat} (hst : s.pw.st = .exiting) (hk : k = s.pw.exitStep + 1) (hlast : k ≤ 4)
    (hcool : k = 1 → s.pw.coolant = true ∧ s.pw.coolantOk1s = true) :
    ¬((s.pw.st != .exiting || k != s.pw.exitStep + 1 || decide (4 < k) || (k == 1 && !(s.pw.coolant && s.pw.coolantOk1s))) = true) := by
  have hlast' : ¬4 < k := by omega
  simp only [hst, ← hk, bne_self_eq_false, Bool.false_or, hlast', decide_false, Bool.and_eq_true, beq_iff_eq, not_and]
  intro h1
  simp [hcool h1]

theorem stateExit_first {t : Nat} {s : State} (hst : s.pw.st = .exiting) (hstep : s.pw.exitStep = 0) (hcool : s.pw.coolant = true)
    (hcool1 : s.pw.coolantOk1s = true) : Answers (.stateExit t 1) s (fun u =>
      u.pw = { s.pw with exitStep := 1, exitRetried := false, regPg := true } ∧ changesOnly [.time, .pw] s u) :=
  ⟨_, congrArg Host.Outcome.next (if_neg (stateExit_guard (s := tick t s) (k := 1) hst (by simp [hstep]) (by decide) fun _ => ⟨hcool, hcool1⟩)),
   rfl, changesOnly_tick_setPw⟩

theorem stateExit_third {t : Nat} {s : State} (hst : s.pw.st = .exiting) (hstep : s.pw.exitStep = 2) :
    Answers (.stateExit t 3) s (fun u => u.pw.memRdy = true ∧ u.pw.exitStep = 3 ∧ changesOnly [.time, .pw] s u) :=
  ⟨_, congrArg Host.Outcome.next (if_neg (stateExit_guard (s := tick t s) (k := 3) hst (by simp [hstep]) (by decide) (by simp))),
   rfl, rfl, changesOnly_tick_setPw⟩

theorem stateExit_last {t : Nat} {s : State} (hst : s.pw.st = .exiting) (hstep : s.pw.exitStep = 3) :
    exec (.stateExit t 4) s = .next (leaveLow { tick t s with pw := { s.pw with exitStep := 4, exitRetried := false } }) :=
  congrArg Host.Outcome.next (if_neg (stateExit_guard (s := tick t s) (k := 4) hst (by simp [hstep]) (by decide) (by simp)))

section
variable {t k : Nat} {s : State} (hst : s.pw.st = .exiting) (hk : k = s.pw.exitStep + 1) (hlast : k ≤ 4)
include hst hk hlast

/-- The step that times out is the one that the exit is at. -/
theorem exitStepTimeout_guard : ¬(((tick t s).pw.st != .exiting || k != (tick t s).pw.exitStep + 1 || decide (4 < k)) = true) := by
  simp [hst, ← hk, hlast]

theorem exitStepTimeout_retries (hfirst : s.pw.exitRetried = false) :
    Answers (.exitStepTimeout t k) s (fun u => u.pw = { s.pw with exitRetried := true } ∧ changesOnly [.time, .pw] s u) :=
  ⟨_, congrArg Host.Outcome.next ((if_neg (exitStepTimeout_guard hst hk hlast)).trans (if_pos (by simp [hfirst]))), rfl, changesOnly_tick_setPw⟩

theorem exitStepTimeout_faults (hagain : s.pw.exitRetried = true) :
    Answers (.exitStepTimeout t k) s (fun u => u.pw = { s.pw with faultN := true, exitStep := 9 } ∧ changesOnly [.time, .pw, .cof] s u) :=
  ⟨_, congrArg Host.Outcome.next ((if_neg (exitStepTimeout_guard hst hk hlast)).trans (if_neg (by simp [hagain]))), by simp,
   ((changesOnly_tick_setPw).mono (by decide)).coffer⟩

end

/-! ## Wakes (R378, R379) -/

theorem wakeN_wakes {t : Nat} {s : State} (haon : s.pw.aonUp = true) (hheld : s.pw.resetHeld = false) (htrip : s.pw.thermtrip = false) :
    exec (.wakeN t) s = .next (wake (tick t s)) :=
  congrArg Host.Outcome.next (if_pos (by simp [haon, hheld, htrip]))

theorem sidebandAddressMatch_wakes {t : Nat} {s : State} (hst : s.pw.st = .sleep ∨ s.pw.st = .deep) :
    exec (.sidebandAddressMatch t (0x48 + s.id.slot) true) s = .next (startExit (tick t s)) :=
  congrArg Host.Outcome.next (if_pos (by simpa using hst))

theorem pmeTurnOff_acks {t : Nat} {s : State} (hhost : hostRuns s = true) :
    Answers (.pmeTurnOff t) s (fun u => u.pw = { s.pw with pmeOff := true } ∧ u.out = .pmeAck :: s.out ∧ changesOnly [.time, .pw, .out] s u) := by
  have htaken : (hostRuns (tick t s) || (tick t s).pw.st == .sleep) = true := by simp [hhost]
  exact ⟨_, congrArg Host.Outcome.next (if_pos htaken), rfl, rfl, ((changesOnly_tick_setPw).mono (by decide)).emit⟩

/-! ## The obligation -/

/-- Settles O27: each command passes its guard, and what follows is the state given. -/
theorem powerStatesChange : Obligations.PowerStatesChange :=
  ⟨fun _ _ => requestRun_writes,
   fun _ _ => requestLow_writes,
   fun _ _ _ => setState_pends,
   fun _ _ => idleEntry_enters,
   fun _ _ => stateEntry_sleep,
   fun _ _ => stateEntry_off,
   fun _ _ => stateExit_first,
   fun _ _ => stateExit_third,
   fun _ _ => stateExit_last,
   fun _ _ _ => exitStepTimeout_retries,
   fun _ _ _ => exitStepTimeout_faults,
   fun _ _ => wakeN_wakes,
   fun _ _ => sidebandAddressMatch_wakes,
   fun _ _ => pmeTurnOff_acks⟩

end Sys2Proof.Machine
end

section
/-! SUPPORT. The proof of O28: the order of Table 16.8 and what HALTED holds (R392, R393). -/
set_option Elab.async false
namespace Sys2Proof.Machine

/-! ## A stop with no work in hand -/

/-- A step that changes nothing at any of the numbers changes nothing in all. -/
theorem forEach_of_fixed {α σ : Type} {g : α → σ → σ} {s : σ} (hg : ∀ x, g x s = s) (l : List α) : forEach g l s = s := by
  induction l with
  | nil => rfl
  | cons x l ih => simp only [forEach, hg x, ih]

/-- No job and no request is held. -/
def NoWork (s : State) : Prop := s.srv.jobs = [] ∧ s.srv.reqs = []

theorem NoWork.of_srv {s u : State} (h : NoWork s) (hu : u.srv = s.srv) : NoWork u := by
  obtain ⟨hjobs, hreqs⟩ := h
  exact ⟨hu ▸ hjobs, hu ▸ hreqs⟩

theorem NoWork.markTraceLoss {s : State} (h : NoWork s) (reqs : List Nat) : NoWork (markTraceLoss reqs s) := by
  obtain ⟨hjobs, hreqs⟩ := h
  exact ⟨hjobs, by simp [Machine.markTraceLoss, hreqs, mmap]⟩

theorem NoWork.dropTrace {s : State} (h : NoWork s) (c : Nat) (reqs : List Nat) : NoWork (dropTrace c reqs s) := by
  unfold Machine.dropTrace
  split
  · exact h
  · exact NoWork.markTraceLoss (h.of_srv (by simp)) reqs

theorem NoWork.traceEvent {s : State} (h : NoWork s) (c lt ot job : Nat) (k : TraceKind) (reqs : List Nat) :
    NoWork (traceEvent c lt ot job k reqs s) := by
  have hloss : NoWork (putLoss c s) := h.of_srv (by simp)
  unfold Machine.traceEvent
  split
  · exact h
  · split
    · exact h
    · dsimp only
      split
      · exact hloss
      · split
        · exact hloss.dropTrace c reqs
        · exact hloss.of_srv (by simp)

/-- Stopping the steps leaves a part without work without work. -/
theorem NoWork.stopSteps {s : State} (h : NoWork s) : NoWork (stopSteps s) := by
  suffices hall : ∀ l s, NoWork s → NoWork (forEach (fun p s => match (plateOf s p).running with
      | some r => recordStep p r false true (modPlate p (fun q => { q with running := none }) (countStep p (s.time - r.dispatch) s))
      | none => s) l s) from hall _ s h
  intro l
  induction l with
  | nil => exact fun _ h => h
  | cons p l ih =>
    intro s h
    refine ih _ ?_
    dsimp only
    split
    · exact NoWork.traceEvent (h.of_srv (by simp)) _ _ _ _ _ _
    · exact h

@[simp] theorem stopSteps_pw (s : State) : (stopSteps s).pw = { s.pw with clocksStopped := true } := by
  unfold stopSteps
  dsimp only
  rw [forEach_pw]
  intro p s
  split <;> simp

/-! ## The stop (R392) -/

/-- The stop's first part: its record is written and the Coffer freezes. -/
def coolantLost (t : Nat) (s : State) : State :=
  freezeCoffer 3 (coffer 7 3 .coolantStop 0 0 0 0 { tick t s with pw := { s.pw with coolant := false, coolantOk1s := false } })

/-- Requests that wait are declined. -/
def declineAllWaiting (s : State) : State :=
  forEach (fun k s => declineWaiting k .coolantStop s) (reqKeys s (fun r => r.st == .detected)) s

/-- Every job is torn down, and one that waits for its claims is refused. -/
def endAllJobs (s : State) : State :=
  forEach (fun i s => if (jobAt s i).pendingAdmit then failAdmit i .coolantStop s
    else if (jobAt s i).present then teardownJob false i .coolantStop s else s) (List.range 16) s

/-- The device halts, its indicators clear. -/
def halt (s : State) : State :=
  { s with pw := { s.pw with st := .halted, regPg := false, oscRdy := false, memRdy := false, logicRdy := false } }

/-- From RUN or IDLE a stop runs Table 16.8 to its end. -/
theorem coolantStop_halts {t : Nat} {s s1 : State} (hst : s.pw.st = .run ∨ s.pw.st = .idle) (haon : s.pw.aonUp = true)
    (h1 : s1 = coolantLost t s) :
    exec (.coolantStop t) s = .next (halt (powerEvent 3 (portsDown (railsOff (endAllJobs (declineAllWaiting
      (stopSteps { s1 with pw := { s1.pw with stopAt := s1.time } }))))))) := by
  have hpowered : ¬((decide (s.pw.st = .off) || decide (s.pw.st = .halted) || !s.pw.aonUp) = true) := by
    rcases hst with hst | hst <;> simp [hst, haon]
  have hawake : ¬((decide (s.pw.st = .sleep) || decide (s.pw.st = .deep)) = true) := by
    rcases hst with hst | hst <;> simp [hst]
  subst h1
  change execCoolantStop t s = _
  simp only [execCoolantStop, halt, endAllJobs, declineAllWaiting, coolantLost, tick_pw, if_neg hpowered, if_neg hawake]

theorem declineAllWaiting_of_noWork {s : State} (h : NoWork s) : declineAllWaiting s = s := by
  obtain ⟨-, hreqs⟩ := h
  simp [declineAllWaiting, reqKeys, hreqs, forEach]

theorem endAllJobs_of_noWork {s : State} (h : NoWork s) : endAllJobs s = s := by
  obtain ⟨hjobs, -⟩ := h
  exact forEach_of_fixed (fun i => by simp [jobAt, hjobs, mgetD, mget]) _

theorem coolantLost_frozen (t : Nat) (s : State) : (coolantLost t s).cof.frozen = true := frozen_freezeCoffer 3 _

theorem coolantLost_keeps (t : Nat) (s : State) : (coolantLost t s).srv = s.srv ∧ (coolantLost t s).time = max s.time t ∧
    (coolantLost t s).pw = { s.pw with coolant := false, coolantOk1s := false } := by
  simp [coolantLost]

/-- A stop with no work in hand halts the device at once. -/
theorem coolantStop_idle {t : Nat} {s : State} (hst : s.pw.st = .run) (haon : s.pw.aonUp = true) (hjobs : s.srv.jobs = []) (hreqs : s.srv.reqs = []) :
    Answers (.coolantStop t) s (fun u => u.pw.st = .halted ∧ u.pw.coolant = false ∧ u.pw.coolantOk1s = false ∧ u.pw.clocksStopped = true ∧
      u.pw.stopAt = max s.time t ∧ u.cof.frozen = true) := by
  refine ⟨_, coolantStop_halts (.inl hst) haon rfl, ?_⟩
  obtain ⟨hsrv, htime, hpw⟩ := coolantLost_keeps t s
  have hfrozen := coolantLost_frozen t s
  generalize coolantLost t s = s1 at hsrv htime hpw hfrozen ⊢
  have hwork : NoWork (stopSteps { s1 with pw := { s1.pw with stopAt := s1.time } }) :=
    NoWork.stopSteps (NoWork.of_srv (s := s) ⟨hjobs, hreqs⟩ hsrv)
  rw [declineAllWaiting_of_noWork hwork, endAllJobs_of_noWork hwork]
  simp [halt, powerEvent, hpw, htime, hfrozen]

theorem coolantStop_asleep {t : Nat} {s : State} (hst : s.pw.st = .sleep ∨ s.pw.st = .deep) (haon : s.pw.aonUp = true) :
    exec (.coolantStop t) s = .next (coffer 7 3 .coolantStop 0 0 0 0 { tick t s with pw := { s.pw with coolant := false, coolantOk1s := false } }) := by
  have hpowered : ¬((decide (s.pw.st = .off) || decide (s.pw.st = .halted) || !s.pw.aonUp) = true) := by
    rcases hst with hst | hst <;> simp [hst, haon]
  have hasleep : (decide (s.pw.st = .sleep) || decide (s.pw.st = .deep)) = true := by simpa using hst
  exact congrArg Host.Outcome.next ((if_neg hpowered).trans (if_pos hasleep))

/-! ## What HALTED holds (R392, R393) -/

theorem clockStopTimeout_stops {t : Nat} {s : State} (hst : s.pw.st = .halted) (hcool : s.pw.coolant = false) :
    exec (.clockStopTimeout t) s = .next (coffer 2 3 .coolantStop 3 0 0 0 { tick t s with pw := { s.pw with clocksStopped := true } }) :=
  congrArg Host.Outcome.next (if_pos (by simp [hst, hcool]))

theorem completionWriteTimeout_records {t : Nat} {s : State} (hst : s.pw.st = .halted) (hlate : s.pw.stopAt + 5000000 ≤ max s.time t) :
    exec (.completionWriteTimeout t) s = .next (forEach (fun e s => endReq true e.1 .coolantStop
      (coffer 7 3 .unwritten 0 e.2.h.job e.2.h.modelCtx e.2.h.reqId s)) (openReqs (tick t s)) (tick t s)) :=
  congrArg Host.Outcome.next (if_pos (by simp [hst, hlate, -le_sup_iff]))

theorem coolantRestored_notes (t : Nat) (s : State) : Answers (.coolantRestored t) s (fun u =>
    u.pw = { s.pw with coolant := true, coolantOk1s := true, coolantAt := max s.time t } ∧ changesOnly [.time, .pw] s u) :=
  ⟨_, rfl, rfl, changesOnly_tick_setPw⟩

/-! ## The obligation -/

/-- Settles O28: the stop runs Table 16.8; with no work in hand the registers it leaves are read off its parts. -/
theorem coolantStopsHalt : Obligations.CoolantStopsHalt := by
  refine ⟨fun _ _ => coolantStop_idle, ?_, fun _ _ => coolantStop_asleep, fun _ _ => clockStopTimeout_stops,
    fun _ _ => completionWriteTimeout_records, coolantRestored_notes⟩
  intro t s s1 s2 s3 hst haon h1 h2 h3
  subst h3 h2
  rw [coolantStop_halts hst haon h1]
  simp only [halt, endAllJobs, declineAllWaiting]

end Sys2Proof.Machine
end

section
/-! SUPPORT. The proof of O19: the telemetry commands of ring 3, and an event that finds no room (R422, R425, R426, R429 to R431). -/
set_option Elab.async false
namespace Sys2Proof.Machine

/-! ## Traces and filters (R422, R426) -/

section
variable {t : Nat} {h : Hdr} {s s1 : State} (hb : Begins t h s s1) (hshape : shapeCheck s1 h infoTd false = none)
include hb hshape

/-- A trace ring of an allowed size is set up. -/
theorem traceSetup_sets {base k kinds ha : Nat} (hlow : 8 ≤ k) (hhigh : k ≤ 20) : Completes (.traceSetup t h base k kinds ha) h s (fun v =>
    v = modCtx h.ctx (fun x => { x with trace := some { base := base, sizeLog2 := k, kinds := kinds, headAddr := ha } }) s1) := by
  have hsize : (k != 0 && (decide (k < 8) || decide (20 < k))) = false := by simp [Nat.not_lt.mpr hlow, Nat.not_lt.mpr hhigh]
  have hne : k ≠ 0 := by omega
  refine ⟨_, congrArg Host.Outcome.next (command_of_begins hb _ |>.trans ?_), rfl⟩
  simp only [hsize, hshape, if_neg hne]

/-- A size of 0 ends tracing. -/
theorem traceSetup_removes {base kinds ha : Nat} : Completes (.traceSetup t h base 0 kinds ha) h s (fun v =>
    v = modCtx h.ctx (fun x => { x with trace := none }) s1) := by
  refine ⟨_, congrArg Host.Outcome.next (command_of_begins hb _ |>.trans ?_), rfl⟩
  simp only [bne_self_eq_false, Bool.false_and, hshape, if_true]

theorem counterFilter_arms {set l o j : Nat} (hset : set ≤ 3) (htags : (ctxOf s1 h.ctx).addrOnly = false ∨ (l = 0xFFFF ∧ o = 0xFFFF))
    (hjob : j = 0xFFFF ∨ othersJob s1 h.ctx j = false) : Completes (.counterFilter t h set l o j) h s (fun v =>
      v = modCtx h.ctx (fun x => { x with filters := mset x.filters set { armed := true, job := j, layer := l, operator := o, counts := [] } }) s1) := by
  have hnum : decide (3 < set) = false := decide_eq_false (Nat.not_lt.mpr hset)
  have htags' : ((ctxOf s1 h.ctx).addrOnly && (l != 0xFFFF || o != 0xFFFF)) = false := by
    rcases htags with hall | ⟨rfl, rfl⟩
    · simp [hall]
    · simp
  have hjob' : (j != 0xFFFF && othersJob s1 h.ctx j) = false := by
    rcases hjob with rfl | hown
    · simp
    · simp [hown]
  refine ⟨_, congrArg Host.Outcome.next (command_of_begins hb _ |>.trans ?_), rfl⟩
  simp only [hnum, hshape, htags', hjob', failIf_false, firstOf_cons_none, firstOf_nil]

end

/-! ## Layer reports (R425) -/

/-- One record of a layer report is written at its place. -/
def writeLayerRecord (h : Hdr) (addr : Nat) (e : List Nat × Nat) (s : State) : State :=
  emit (.layerRecord h.ctx (addr + 64 * e.2) e.1) (countHostWr h.ctx h.job h.layerTag h.opTag 64 s)

theorem changesOnly_writeLayerRecord (h : Hdr) (addr : Nat) (e : List Nat × Nat) (s : State) :
    changesOnly [.ctxs, .td, .out] s (writeLayerRecord h addr e s) := by
  simp [writeLayerRecord, changesOnly_iff, allPieces, agree]

/-- The records leave in order, the last of them at the head of what the device has sent. -/
theorem out_writeLayerRecords (h : Hdr) (addr : Nat) (l : List (List Nat × Nat)) (s : State) :
    (forEach (writeLayerRecord h addr) l s).out = (l.map (fun e => Output.layerRecord h.ctx (addr + 64 * e.2) e.1)).reverse ++ s.out := by
  induction l generalizing s with
  | nil => rfl
  | cons e l ih => simp [forEach, ih, writeLayerRecord, emit]

theorem layerReport_writes {t : Nat} {h : Hdr} {a n : Nat} {s s1 : State} {all fit : List (List Nat)} (hb : Begins t h s s1)
    (hshape : shapeCheck s1 h { rings := [3], job := true } false = none) (hjob : jobCheck s1 h = none)
    (hall : all = layerRecords s1 (jobIdx h.job) (ctxOf s1 h.ctx).addrOnly) (hfit : fit = all.take (n / 64)) :
    CompletesWith (.layerReport t h a n) h s (64 * fit.length) all.length (fun v =>
      v.out = ((fit.zip (List.range fit.length)).map (fun e => Output.layerRecord h.ctx (a + 64 * e.2) e.1)).reverse ++ s1.out ∧
      changesOnly [.ctxs, .td, .out] s1 v) := by
  subst hfit hall
  refine ⟨forEach (writeLayerRecord h a) _ s1, congrArg Host.Outcome.next (command_of_begins hb _ |>.trans ?_),
    out_writeLayerRecords h a _ s1, changesOnly_forEach (changesOnly_writeLayerRecord h a) _ s1⟩
  simp only [hshape, hjob, firstOf_cons_none, firstOf_nil]
  rfl

/-! ## Watches (R429, R431) -/

section
variable {t : Nat} {h : Hdr} {s s1 : State} (hb : Begins t h s s1)
include hb

theorem tensorWatch_adds {b : WatchBody} {n k : Nat} (hshape : shapeCheck s1 h { rings := [3], job := true } false = none)
    (hlow : 1 ≤ b.expiry) (hhigh : b.expiry ≤ 60000) (hjob : jobCheck s1 h = none) (hnames : (ctxOf s1 h.ctx).addrOnly = false)
    (hgood : watchBad s1 h b = false) (hroom : (ctxOf s1 h.ctx).watches.length < 4)
    (hbytes : tensorBytes s1 b.plate b.stepKind b.symbolId = some (n, k)) :
    Starts (.tensorWatch t h b) s (fun v => v = modCtx h.ctx (fun x => { x with watches := x.watches ++ [{ reqId := h.reqId, irq := h.irq, job := h.job, b := b, bytes := n, due := s1.time + 1000000 * b.expiry, layerTag := h.layerTag, opTag := h.opTag }] }) s1) := by
  have hexpiry : (b.expiry == 0 || decide (60000 < b.expiry)) = false := by
    simp [Nat.not_lt.mpr hhigh, Nat.one_le_iff_ne_zero.mp hlow]
  have hfour : decide (4 ≤ (ctxOf s1 h.ctx).watches.length) = false := decide_eq_false (Nat.not_le.mpr hroom)
  refine ⟨_, congrArg Host.Outcome.next (command_of_begins hb _ |>.trans ?_), rfl⟩
  simp only [hexpiry, hshape, hjob, hnames, hgood, hfour, failIf_false, firstOf_cons_none, firstOf_nil, hbytes, Option.elim_some]

theorem watchCancel_ends {id : Nat} {w : Watch} (hshape : shapeCheck s1 h infoTd false = none)
    (hw : (ctxOf s1 h.ctx).watches.find? (fun w => w.reqId == id) = some w) :
    Completes (.watchCancel t h id) h s (fun v => v = endWatch h.ctx w .cancelled s1) := by
  refine ⟨_, congrArg Host.Outcome.next (command_of_begins hb _ |>.trans ?_), rfl⟩
  simp only [hshape, hw]

end

theorem watchExpiry_ends {t c id : Nat} {s : State} {w : Watch}
    (hw : (ctxOf s c).watches.find? (fun w => w.reqId == id && decide (w.due ≤ max s.time t)) = some w) :
    exec (.watchExpiry t c id) s = .next (endWatch c w .complete (tick t s)) := by
  have hw' : (ctxOf (tick t s) c).watches.find? (fun w => w.reqId == id && decide (w.due ≤ (tick t s).time)) = some w := hw
  change execWatchExpiry t c id s = _
  simp only [execWatchExpiry, hw']

/-! ## An event that finds no room (R426) -/

/-- A context with a trace ring is in the table. -/
theorem isSome_of_trace {s : State} {c : Nat} {r : TraceRing} (h : (ctxOf s c).trace = some r) : (mget s.ctxs c).isSome = true := by
  cases hx : mget s.ctxs c with
  | none => simp [ctxOf, mgetD, hx] at h
  | some x => rfl

/-- The dropped event is counted, with the time of the first and of the last of its run. -/
theorem trace_dropTrace {s : State} {c : Nat} {r : TraceRing} (reqs : List Nat) (h : (ctxOf s c).trace = some r) :
    (ctxOf (dropTrace c reqs s) c).trace = some { r with
      dropped := sat 32 (r.dropped + 1), dropFirst := if r.dropped = 0 then s.time else r.dropFirst, dropLast := s.time } := by
  have hsome := isSome_of_trace h
  have hself := ctxOf_modCtx_self c (fun x => { x with trace := x.trace.map (fun r =>
    { r with dropped := sat 32 (r.dropped + 1), dropFirst := if r.dropped = 0 then s.time else r.dropFirst, dropLast := s.time }) }) s hsome
  simp only [dropTrace, h]
  change (ctxOf (countPage c 21 1 _) c).trace = _
  unfold countPage
  rw [ctxOf_modCtx_self _ _ _ (by simpa [modCtx] using hsome), hself, h]
  rfl

theorem traceDrop_counts {t c : Nat} {s : State} {r : TraceRing} (h : (ctxOf s c).trace = some r) (hroom : r.dropped < 2 ^ 32 - 1) :
    Answers (.traceDrop t c none) s (fun u => (ctxOf u c).trace = some { r with
      dropped := r.dropped + 1, dropFirst := if r.dropped = 0 then max s.time t else r.dropFirst, dropLast := max s.time t } ∧
      changesOnly [.time, .ctxs, .srv] s u) := by
  refine ⟨_, rfl, ?_, ?_⟩
  · have hsat : sat 32 (r.dropped + 1) = r.dropped + 1 := min_eq_left hroom
    have hdrop := trace_dropTrace (s := tick t s) [] h
    rwa [hsat] at hdrop
  · exact changesOnly_of_tick (t := t) (by decide) ((changesOnly_dropTrace _ c _).mono (by decide))

/-! ## The obligation -/

/-- Settles O19: each command's checks pass and its effect is the one stated. -/
theorem telemetryCommandsComplete : Obligations.TelemetryCommandsComplete :=
  ⟨fun _ _ _ _ _ _ _ _ hb hshape => traceSetup_sets hb hshape,
   fun _ _ _ _ _ _ _ hb hshape => traceSetup_removes hb hshape,
   fun _ _ _ _ _ _ _ _ hb hshape => counterFilter_arms hb hshape,
   fun _ _ _ _ _ _ _ _ => layerReport_writes,
   fun _ _ _ _ _ _ _ hb => tensorWatch_adds hb,
   fun _ _ _ _ _ _ hb => watchCancel_ends hb,
   fun _ _ _ _ _ => watchExpiry_ends,
   fun _ _ _ _ => traceDrop_counts⟩

end Sys2Proof.Machine
end

section
/-! SUPPORT. The proof of O18: groups and their joins, the operations on them, and what other members' messages do (R356 to R371). -/
set_option Elab.async false
namespace Sys2Proof.Machine

/-! ## Creation (R357) -/

/-- JOIN goes to every other member of a group. -/
def announceGroup (q : Group) (s : State) : State :=
  forEach (fun m s => if m = ownLoc s then s else countSeq m (joinOf s q).flow
    (sendXn m 0 false (.join { joinOf s q with fseq := flowSeq s m (joinOf s q).flow }) s)) q.members s

@[simp] theorem announceGroup_keeps (q : Group) (s : State) :
    (announceGroup q s).ctxs = s.ctxs ∧ (announceGroup q s).coll = s.coll := by
  constructor
  · exact forEach_ctxs _ _ _ fun m s => by dsimp only; split <;> simp
  · exact forEach_coll _ _ _ fun m s => by dsimp only; split <;> simp

theorem changesOnly_announceGroup (q : Group) (s : State) : changesOnly [.xn, .td, .out] s (announceGroup q s) := by
  refine changesOnly_forEach (fun m s => ?_) _ s
  dsimp only
  split
  · exact changesOnly_refl _ s
  · simp [changesOnly_iff, allPieces, agree]

/-- The group that COLL_GROUP_CREATE describes. -/
def createdGroup (h : Hdr) (b : CollGroupBody) (s : State) : Group :=
  { id := b.groupId, key := b.groupKey, ctx := h.ctx, queue := h.ring - 4, job := jobIdx h.job, rank := b.rank
    members := b.memberList.getD [], mode := b.mode, chunkLog2 := b.chunkLog2, depth := b.depth
    stagePlate := b.stagePlate, stageOffset := b.stageOffset, stageBytes := b.stageBytes, joined := [ownLoc s], cmd := cmdOf h }

/-- Group q stands under number g, and its queue is bound to it. -/
def standGroup (g : Nat) (q : Group) (s : State) : State :=
  modCtx q.ctx (fun x => { x with queues := mset x.queues q.queue g }) { s with coll := { s.coll with groups := mset s.coll.groups g q } }

theorem changesOnly_standGroup (g : Nat) (q : Group) (s : State) : changesOnly [.ctxs, .coll] s (standGroup g q s) := by
  simp [standGroup, changesOnly_iff, allPieces, agree]

/-- The JOINs of a group that have come early are taken, and no longer wait. -/
def takeEarlyJoins (g gid : Nat) (s : State) : State :=
  forEach (fun p s => takeJoin g p s) (s.coll.earlyJoins.filter (fun p => p.groupId == gid))
    { s with coll := { s.coll with earlyJoins := s.coll.earlyJoins.filter (fun p => p.groupId != gid) } }

theorem takeEarlyJoins_of_none (g gid : Nat) {s : State} (h : s.coll.earlyJoins = []) : takeEarlyJoins g gid s = s := by
  simp only [takeEarlyJoins, h, List.filter_nil, forEach]
  rw [← h]

/-- With no early JOIN to take, a group that passes its checks stands, and its JOINs go out. -/
theorem collGroupCreate_stands {t : Nat} {h : Hdr} {b : CollGroupBody} {s s0 s1 : State} {g : Nat} {q : Group} (hb : Begins t h s s0)
    (hshape : shapeCheck s0 h { rings := [4, 5, 6, 7], job := true, mc := true } false = none) (hjob : jobCheck s0 h = none)
    (hmc : (jobAt s0 (jobIdx h.job)).mc = h.modelCtx) (hs1 : s1 = readHost h.ctx b.memberAddr b.members h.job h.layerTag h.opTag s0)
    (hfree : boundGroup s1 h.ctx h.ring = none) (hgood : createBad s1 h b = false) (hstage : stageBad s1 h b = false)
    (hroom : s1.coll.groups.length < 256) (hrouted : (b.memberList.getD []).all (routed s1) = true) (hearly : s1.coll.earlyJoins = [])
    (hg : g = (firstFrom (fun n => (mget s1.coll.groups n).isNone) 256 0).getD 0) (hq : q = createdGroup h b s1) :
    Starts (.collGroupCreate t h b) s (fun v => mget v.coll.groups g = some q ∧
      v.ctxs = (modCtx h.ctx (fun x => { x with queues := mset x.queues (h.ring - 4) g }) s1).ctxs ∧
      v.coll.earlyJoins = [] ∧ changesOnly [.ctxs, .coll, .xn, .td, .out] s1 v) := by
  have hmc' : ((jobAt s0 (jobIdx h.job)).mc != h.modelCtx) = false := by simp [hmc]
  have hfull : decide (256 ≤ s1.coll.groups.length) = false := decide_eq_false (Nat.not_le.mpr hroom)
  have hlost : (b.memberList.getD []).any (fun m => !routed s1 m) = false := by
    rw [List.any_eq_not_all_not]
    simpa using hrouted
  have hearly' : (announceGroup q (standGroup g q s1)).coll.earlyJoins = [] := by simp [standGroup, hearly]
  have hframe : changesOnly [.ctxs, .coll, .xn, .td, .out] s1 (announceGroup q (standGroup g q s1)) :=
    ((changesOnly_standGroup g q s1).mono (by decide)).trans (changesOnly_announceGroup q _) (by decide)
  refine ⟨announceGroup q (standGroup g q s1), congrArg Host.Outcome.next (command_of_begins hb _ |>.trans ?_), ?_, ?_, hearly', hframe⟩
  · rw [← takeEarlyJoins_of_none g b.groupId hearly']
    subst hg hq
    simp only [hshape, hjob, hmc', failIf_false, firstOf_cons_none, firstOf_nil, Option.isSome_none, Bool.false_eq_true, if_false, ← hs1,
      hfree, hgood, Bool.or_self, hstage, hfull, hlost, takeEarlyJoins, announceGroup, standGroup, createdGroup]
  · simp [standGroup]
  · simp [standGroup, hq, createdGroup, modCtx]

theorem collGroupDestroy_ends {t : Nat} {h : Hdr} {s s1 : State} {g : Nat} (hb : Begins t h s s1)
    (hshape : shapeCheck s1 h infoColl false = none) (hg : boundGroup s1 h.ctx h.ring = some g) :
    Completes (.collGroupDestroy t h) h s (fun v => v = endGroup false g s1) := by
  refine ⟨_, congrArg Host.Outcome.next (command_of_begins hb _ |>.trans ?_), rfl⟩
  simp only [hshape, hg, Option.isNone_some, failIf_false, firstOf_cons_none, firstOf_nil]

/-! ## Operations (R361, R364, R366) -/

/-- The operation that a host's descriptor asks for. -/
def hostOp (h : Hdr) (opcode : Nat) (b : CollBody) : CollOp :=
  { opNo := 0, opcode := opcode, b := b, cmd := cmdOf h, posted := false, lc := false, layer := h.layerTag, operator := h.opTag }

/-- An operation whose checks pass enters the group of its queue. -/
theorem hostColl_enters {t : Nat} {h : Hdr} {opcode : Nat} {b : CollBody} {s s1 : State} {g : Nat} {o : CollOp} {c : Instr}
    (hc : exec c s = .next (hostColl t h opcode b s)) (hb : Begins t h s s1) (ho : o = hostOp h opcode b)
    (hg : boundGroup s1 h.ctx h.ring = some g) (hshape : shapeCheck s1 h infoColl (collBad false opcode b) = none)
    (hcheck : opCheck s1 g o = none) : exec c s = .next (endPoll (enterOp g o s1)) := by
  subst ho
  refine hc.trans (congrArg Host.Outcome.next (command_of_begins hb _ |>.trans ?_))
  unfold hostOp at hcheck ⊢
  simp only [hshape, hg, hcheck, Option.isNone_some, failIf_false, firstOf_cons_none, firstOf_nil]

/-! ## Messages of the other members (R357, R360, R362) -/

section
variable {t n : Nat} {s : State} {g : Nat} {q : Group}

theorem join_waits {p : JoinParams} (hnew : groupOfId (tick t s) p.groupId = none) (hserves : (servingJob (tick t s) p.modelCtx).isSome = true) :
    Answers (.join t p) s (fun u => u.coll.earlyJoins = s.coll.earlyJoins ++ [p] ∧ changesOnly [.time, .coll] s u) := by
  have hserves' : (servingJob (tick t s) p.modelCtx).isNone = false := by simpa [Option.isNone_eq_false_iff] using hserves
  refine ⟨{ tick t s with coll := { s.coll with earlyJoins := s.coll.earlyJoins ++ [p] } }, ?_, rfl, ?_⟩
  · change execJoin t p s = _
    simp only [execJoin, hnew, hserves', Bool.false_eq_true, if_false]
    rfl
  · exact changesOnly_of_tick (t := t) (by decide) (by simp [changesOnly_iff, allPieces, agree])

theorem join_counts {p : JoinParams} (hg : groupOfId (tick t s) p.groupId = some (g, q)) :
    exec (.join t p) s = .next (takeJoin g p (tick t s)) := by
  change execJoin t p s = _
  simp only [execJoin, hg]

theorem abandon_ends {src : Nat} (hg : groupOfId (tick t s) n = some (g, q)) (hst : q.st = 1) : exec (.abandon t n src) s =
    .next (modGroup g (fun q => { q with st := 3 }) (endCollOps false g .cancelled (tick t s))) := by
  change execAbandon t n src s = _
  simp [execAbandon, hg, hst]

theorem abandon_keepsFault {src : Nat} (hg : groupOfId (tick t s) n = some (g, q)) (hst : q.st = 2) : exec (.abandon t n src) s =
    .next (modGroup g (fun q => { q with st := 2 }) (endCollOps false g .cancelled (tick t s))) := by
  change execAbandon t n src s = _
  simp [execAbandon, hg, hst]

theorem fault_ends {src : Nat} (hg : groupOfId (tick t s) n = some (g, q)) (hsrc : q.members.contains src = true) :
    exec (.fault t n src) s = .next (faultGroup g (tick t s)) := by
  change execFault t n src s = _
  simp only [execFault, hg, hsrc, if_true]

theorem collectiveChunk_runs {p : CollPkt} (hnew : collCame n p (tick t s) = false) (hg : groupOfId (tick t s) n = some (g, q)) (hst : q.st = 1) :
    exec (.collectiveChunk t n p) s = .next (runGroup g (groupFuel (tick t s) g) (joinPkt n p (tick t s))) := by
  change execCollectiveChunk t n p s = _
  simp only [execCollectiveChunk, hnew, Bool.false_eq_true, if_false, hg, hst, if_true]

theorem collectiveChunk_answersAgain {p : CollPkt} {r : RespPkt} (hagain : p.resend = true)
    (hdone : mget s.xn.executed (execKey (collHead p) p.fseq) = some r) :
    exec (.collectiveChunk t n p) s = .next (sendXn p.src (collHead p).vc p.lc (.resp r) (tick t s)) := by
  have hcame : collCame n p (tick t s) = true := by simp [collCame, hagain, hdone]
  change execCollectiveChunk t n p s = _
  simp only [execCollectiveChunk, hcame, if_true, tick_xn, hdone]

end

/-! ## Responses (R347, R349, R371) -/

section
variable {t : Nat} {p : RespPkt} {s : State}

theorem resp_exu (hlow : 0x100 ≤ p.flow) (hhigh : p.flow < 0x200) : exec (.resp t p) s = .next (respExu p (tick t s)) := by
  change execResp t p s = _
  simp only [execResp, if_neg (show ¬p.flow < 0x40 by omega), if_neg (show ¬p.flow < 0x100 by omega), if_pos hhigh]

theorem resp_coll (hlow : 0x200 ≤ p.flow) (hhigh : p.flow < 0x300) : exec (.resp t p) s = .next (respColl p (tick t s)) := by
  change execResp t p s = _
  simp only [execResp, if_neg (show ¬p.flow < 0x40 by omega), if_neg (show ¬p.flow < 0x100 by omega), if_neg (show ¬p.flow < 0x200 by omega), if_pos hhigh]

theorem resp_remote (hlow : 0x300 ≤ p.flow) (hhigh : p.flow < 0x400) : exec (.resp t p) s = .next (respRemote p (tick t s)) := by
  change execResp t p s = _
  simp only [execResp, if_neg (show ¬p.flow < 0x40 by omega), if_neg (show ¬p.flow < 0x100 by omega), if_neg (show ¬p.flow < 0x200 by omega),
    if_neg (show ¬p.flow < 0x300 by omega), if_pos hhigh]

/-- A response that no request of a tile awaits is late. -/
theorem resp_late (hflow : p.flow < 0x40) (hnone : ∀ r ∈ s.xn.remotes, covers p r = false) :
    exec (.resp t p) s = .next (lateResp (tick t s)) := by
  have hempty : ((tick t s).xn.remotes.filter (covers p)).isEmpty = true := by
    simpa [List.filter_eq_nil_iff] using hnone
  exact congrArg Host.Outcome.next ((if_pos hflow).trans (if_pos hempty))

/-- What a response takes from the outstanding packet that it answers, and counts. -/
def collAnswered (p : RespPkt) (o : CollOut) (s : State) : State :=
  activity (jobAt s (jobIdx o.job)).ctx .xnRx (jobAt s (jobIdx o.job)).id o.layer o.operator (msgBytes (.resp p))
    { s with xn := { s.xn with collOut := s.xn.collOut.filter (fun x => !(x == o)) } }

/-- Taking a packet from those outstanding leaves the groups as they are. -/
theorem groupOfId_collAnswered (p : RespPkt) (o : CollOut) (s : State) (n : Nat) : groupOfId (collAnswered p o s) n = groupOfId s n := rfl

theorem respColl_gone {o : CollOut} (hgone : p.status = .gone)
    (ho : s.xn.collOut.find? (fun o => !o.held && o.dst == p.src && o.pkt.flow == p.flow && o.pkt.fseq == p.fseq) = some o) :
    respColl p s = releaseFlow p.src p.flow (loseColl 2 o (collAnswered p o s)) := by
  simp only [respColl, ho, hgone, if_true, collAnswered]

theorem respColl_frees {o : CollOut} {g : Nat} {q : Group} (hthere : p.status ≠ .gone)
    (ho : s.xn.collOut.find? (fun o => !o.held && o.dst == p.src && o.pkt.flow == p.flow && o.pkt.fseq == p.fseq) = some o)
    (hg : groupOfId s o.gid = some (g, q)) :
    respColl p s = releaseFlow p.src p.flow (chunkAnswered g o (collAnswered p o s)) := by
  have hg' := (groupOfId_collAnswered p o s o.gid).trans hg
  unfold collAnswered at hg' ⊢
  simp only [respColl, ho, hthere, if_false, hg']

/-- A chunk of the running operation frees a slot of its sender, and the operation goes on. -/
theorem chunkAnswered_runs {u : State} {o : CollOut} {g : Nat} {q : Group} {h : CollOp} (hbulk : 2 ≤ o.pkt.stage) (hq : mget s.coll.groups g = some q)
    (hhead : headOp s g = some h) (hop : h.opNo = o.pkt.opNo)
    (hu : u = sendBulk g (sendChunks q h q.rank).length (modHead g (fun h => { h with answered := min h.sent (h.answered + 1) }) s)) :
    chunkAnswered g o s = runGroup g (groupFuel u g) u := by
  have hmine : (decide (o.pkt.stage < 2) || h.opNo != o.pkt.opNo) = false := by simp [hop, Nat.not_lt.mpr hbulk, -Nat.not_lt]
  simp only [chunkAnswered, hq, hhead, hmine, Bool.false_eq_true, if_false, hu]

theorem respColl_endsCreate {q : Group} (hnone : s.xn.collOut = []) (hq : mget s.coll.groups (p.flow - 0x200) = some q) (hst : q.st = 0)
    (hgone : p.status = .gone) : respColl p s = failCreate (p.flow - 0x200) .fabricTargetLost s := by
  simp only [respColl, hnone, List.find?_nil, hq, hst, hgone, and_self, if_true]

end

/-! ## The obligation -/

/-- Settles O18: each command's checks pass, each message finds its group, and the effects are those stated. -/
theorem groupsAndCollectivesRun : Obligations.GroupsAndCollectivesRun := by
  refine ⟨fun _ _ _ _ _ _ _ _ => collGroupCreate_stands, fun _ _ _ _ _ => collGroupDestroy_ends,
    fun _ _ _ _ _ _ _ => hostColl_enters rfl, fun _ _ _ _ _ _ _ => hostColl_enters rfl, fun _ _ _ _ _ _ _ => hostColl_enters rfl,
    fun _ _ _ _ _ _ _ => hostColl_enters rfl, fun _ _ _ _ _ _ _ => hostColl_enters rfl,
    fun _ _ _ => join_waits, fun _ _ _ _ _ => join_counts, fun _ _ _ _ _ _ => abandon_ends, fun _ _ _ _ _ _ => fault_ends,
    fun _ _ _ _ _ _ => abandon_keepsFault, fun _ _ _ _ _ _ => collectiveChunk_runs, fun _ _ _ _ _ => collectiveChunk_answersAgain,
    ?answered, ?gone, ?create, fun _ _ _ => resp_late, fun _ _ _ => resp_exu, fun _ _ _ => resp_remote⟩
  case answered =>
    intro t p s o g q h s1 hlow hhigh ho hthere hbulk hg hq hhead hop hs1
    have hruns := chunkAnswered_runs (s := collAnswered p o (tick t s)) hbulk hq hhead hop hs1
    rw [resp_coll hlow hhigh, respColl_frees hthere (s := tick t s) ho hg, hruns]
  case gone =>
    intro t p s o hlow hhigh ho hgone
    rw [resp_coll hlow hhigh, respColl_gone hgone (s := tick t s) ho]
    rfl
  case create =>
    intro t p s q hlow hhigh hnone hq hst hgone
    rw [resp_coll hlow hhigh, respColl_endsCreate (s := tick t s) hnone hq hst hgone]

end Sys2Proof.Machine
end

section
/-! SUPPORT. The proof of O51: what each operation that a register write may set off leaves of the fields of Table 20.9 (R469, R470). -/
set_option Elab.async false
namespace Sys2Proof.Machine

/-! ## The frozen fields -/

/-- The frozen fields of the host interface stay. -/
@[simp] abbrev HiKept (s u : State) : Prop :=
  u.hi.fullScan = s.hi.fullScan ∧ u.hi.period = s.hi.period ∧ u.hi.summary = s.hi.summary ∧ u.hi.adminDb = s.hi.adminDb

/-- The frozen fields of memory stay. -/
@[simp] abbrev MemKept (s u : State) : Prop := u.mem.hiRsv = s.mem.hiRsv ∧ u.mem.agePeriod = s.mem.agePeriod

/-- Whether each port asks for encryption. -/
def encReqs (ports : NMap Port) (n : Nat) : Bool := (mgetD ports n {}).encReq

/-- The frozen fields of Xaene stay. -/
@[simp] abbrev XnKept (s u : State) : Prop :=
  encReqs u.xn.ports = encReqs s.xn.ports ∧ u.xn.w1 = s.xn.w1 ∧ u.xn.w2 = s.xn.w2 ∧ u.xn.w3 = s.xn.w3 ∧ u.xn.w4 = s.xn.w4 ∧
  u.xn.w5 = s.xn.w5 ∧ u.xn.sidebandFault = s.xn.sidebandFault

/-- The frozen fields of power stay. -/
@[simp] abbrev PwKept (s u : State) : Prop := u.pw.anyMatch = s.pw.anyMatch ∧ u.pw.floor = s.pw.floor ∧ u.pw.ramp = s.pw.ramp

/-- The endpoints of the managers stay. -/
@[simp] abbrev SecKept (s u : State) : Prop := u.sec.fmEid = s.sec.fmEid ∧ u.sec.rmEid = s.sec.rmEid

/-- Every field of Table 20.9 stays, in the five parts of the state that hold them. -/
@[simp] abbrev FrozenKept (s u : State) : Prop := HiKept s u ∧ MemKept s u ∧ XnKept s u ∧ PwKept s u ∧ SecKept s u

/-- The frozen fields that an operation moves none of are those of the five parts. -/
theorem frozenSame_iff (s u : State) : frozenSame s u ↔ FrozenKept s u := by
  simp only [frozenSame, FrozenKept, HiKept, MemKept, XnKept, PwKept, SecKept, funext_iff, encReqs, portOf, and_assoc]

section
variable {α : Type} {g : α → State → State} (l : List α) (s : State)

@[simp] theorem forEach_hiKept (h : ∀ x s, HiKept s (g x s)) : HiKept s (forEach g l s) := by
  induction l generalizing s with
  | nil => simp [forEach]
  | cons x l ih => simp [forEach, ih, h]

@[simp] theorem forEach_memKept (h : ∀ x s, MemKept s (g x s)) : MemKept s (forEach g l s) := by
  induction l generalizing s with
  | nil => simp [forEach]
  | cons x l ih => simp [forEach, ih, h]

@[simp] theorem forEach_xnKept (h : ∀ x s, XnKept s (g x s)) : XnKept s (forEach g l s) := by
  induction l generalizing s with
  | nil => simp [forEach]
  | cons x l ih => simp [forEach, ih, h]

@[simp] theorem forEach_pwKept (h : ∀ x s, PwKept s (g x s)) : PwKept s (forEach g l s) := by
  induction l generalizing s with
  | nil => simp [forEach]
  | cons x l ih => simp [forEach, ih, h]

@[simp] theorem forEach_secKept (h : ∀ x s, SecKept s (g x s)) : SecKept s (forEach g l s) := by
  induction l generalizing s with
  | nil => simp [forEach]
  | cons x l ih => simp [forEach, ih, h]

end

/-- A change of one port that leaves its request for encryption leaves every port's. -/
theorem encReqs_mupd {f : Port → Port} (h : ∀ p, (f p).encReq = p.encReq) (ports : NMap Port) (n : Nat) :
    encReqs (mupd ports n {} f) = encReqs ports := by
  funext k
  by_cases hk : k = n
  · subst hk
    simp [encReqs, mupd, mgetD, h]
  · simp [encReqs, mupd, mgetD, mget_mset_ne _ _ _ _ hk]

@[simp] theorem modPort_kept {f : Port → Port} (h : ∀ p, (f p).encReq = p.encReq) (n : Nat) (s : State) : XnKept s (modPort n f s) := by
  simp [modPort, encReqs_mupd h]

/-! ## What the operations that a write sets off leave of the frozen fields, callees first -/

@[simp] theorem signalVector_kept (c v : Nat) (s : State) : HiKept s (signalVector c v s) := by
  simp only [signalVector]
  repeat' split
  all_goals simp

@[simp] theorem signalRing_kept (c r : Nat) (s : State) : HiKept s (signalRing c r s) := by simp [signalRing]

@[simp] theorem afterRecord_kept (c r : Nat) (irqFinal : Bool) (s : State) : HiKept s (afterRecord c r irqFinal s) := by
  simp only [afterRecord]
  repeat' split
  all_goals simp

@[simp] theorem dropHeld_kept (c : Nat) (s : State) : HiKept s (dropHeld c s) := by simp [dropHeld]

@[simp] theorem putRec_kept (c r : Nat) (mk : Nat → Bool → CompRec) (irqFinal : Bool) (s : State) : HiKept s (putRec c r mk irqFinal s) := by
  simp only [putRec]
  repeat' split
  all_goals simp

@[simp] theorem owedRec_kept (d : Cmd) (k : RecKind) (st : Status) (flags info value : Nat) (s : State) :
    HiKept s (owedRec d k st flags info value s) := by simp [owedRec]

@[simp] theorem final_kept (d : Cmd) (st : Status) (info value : Nat) (s : State) : HiKept s (final d st info value s) := by simp [final]

@[simp] theorem eventRec_kept (c code info value : Nat) (s : State) : HiKept s (eventRec c code info value s) := by
  simp only [eventRec]
  repeat' split
  all_goals simp

@[simp] theorem violate_kept (s : State) : HiKept s (violate s) := by simp [violate]

@[simp] theorem zeroChunks_kept (m : Nat) (l : List (Nat × Nat)) (s : State) : MemKept s (zeroChunks m l s) := by simp [zeroChunks]

@[simp] theorem modPart_kept (p : Nat) (f : Part → Part) (s : State) : MemKept s (modPart p f s) := by simp [modPart]

@[simp] theorem readyFrames_kept (m : Nat) (frames : List Nat) (s : State) : MemKept s (readyFrames m frames s) := by
  simp only [readyFrames]
  repeat' split
  all_goals simp

@[simp] theorem addObj_kept (pn : Nat) (kind : ObjKind) (cls : ObjClass) (m : Nat) (frames : List Nat) (s : State) :
    MemKept s (addObj pn kind cls m frames s) := by simp [addObj]

@[simp] theorem growObj_kept (pn id m : Nat) (frames : List Nat) (s : State) : MemKept s (growObj pn id m frames s) := by simp [growObj]

@[simp] theorem freeObjs_kept (pn : Nat) (p : ObjKind → Bool) (s : State) : MemKept s (freeObjs pn p s) := by simp [freeObjs]

@[simp] theorem setClass_kept (pn : Nat) (p : ObjKind → Bool) (c : ObjClass) (s : State) : MemKept s (setClass pn p c s) := by simp [setClass]

@[simp] theorem dropHiDrawer_kept (s : State) : MemKept s (dropHiDrawer s) := by simp [dropHiDrawer]

@[simp] theorem newFlit_kept (n kind vc : Nat) (resp : Bool) (k : Nat) (s : State) : XnKept s (newFlit n kind vc resp k s) := by
  simp only [newFlit]
  repeat' split
  all_goals simp

@[simp] theorem closeBlock_kept (n : Nat) (s : State) : XnKept s (closeBlock n s) := by
  simp only [closeBlock]
  repeat' split
  all_goals simp

@[simp] theorem sendFlits_kept (n : Nat) (k : Nat) (s : State) : XnKept s (sendFlits n k s) := by
  induction k generalizing n s with
  | zero => simp [sendFlits]
  | succ k ih =>
    simp [sendFlits, ih]

@[simp] theorem fillBlock_kept (n : Nat) (k : Nat) (s : State) : XnKept s (fillBlock n k s) := by
  induction k generalizing n s with
  | zero => simp [fillBlock]
  | succ k ih =>
    simp only [fillBlock]
    repeat' split
    all_goals simp [ih]

@[simp] theorem startPkt_kept (n : Nat) (w : WaitPkt) (s : State) : XnKept s (startPkt n w s) := by simp [startPkt]

@[simp] theorem servePort_kept (n : Nat) (k : Nat) (s : State) : XnKept s (servePort n k s) := by
  induction k generalizing n s with
  | zero => simp [servePort]
  | succ k ih =>
    simp only [servePort]
    repeat' split
    all_goals simp [ih]

@[simp] theorem pumpPort_kept (n : Nat) (s : State) : XnKept s (pumpPort n s) := by simp [pumpPort]

@[simp] theorem joinPort_kept (n : Nat) (ws : List WaitPkt) (s : State) : XnKept s (joinPort n ws s) := by simp [joinPort]

@[simp] theorem sendBy_kept (n dst vc : Nat) (lc : Bool) (due : Nat) (m : XnMsg) (s : State) :
    XnKept s (sendBy n dst vc lc due m s) := by simp [sendBy]

@[simp] theorem sendXn_kept (dst vc : Nat) (lc : Bool) (m : XnMsg) (s : State) : XnKept s (sendXn dst vc lc m s) := by
  simp only [sendXn]
  repeat' split
  all_goals simp

@[simp] theorem editLeaves_kept (f : Leaf → Option Leaf) (s : State) : MemKept s (editLeaves f s) := by simp [editLeaves]

@[simp] theorem onLeaves_kept (c : Nat) (vpns : List Nat) (f : Leaf → Option Leaf) (s : State) : MemKept s (onLeaves c vpns f s) := by simp [onLeaves]

@[simp] theorem clearLeaves_kept (c : Nat) (vpns : List Nat) (s : State) : MemKept s (clearLeaves c vpns s) := by simp [clearLeaves]

@[simp] theorem dropLeaves_kept (c : Nat) (vpns : List Nat) (s : State) : MemKept s (dropLeaves c vpns s) := by simp [dropLeaves]

@[simp] theorem invalidateFor_kept (seq : Option Nat) (frames chips : List Nat) (s : State) :
    MemKept s (invalidateFor seq frames chips s) ∧ XnKept s (invalidateFor seq frames chips s) := by
  simp only [invalidateFor]
  repeat' split
  all_goals simp

@[simp] theorem invalidate_kept (frames chips : List Nat) (s : State) :
    MemKept s (invalidate frames chips s) ∧ XnKept s (invalidate frames chips s) := by simp [invalidate]

@[simp] theorem trimTree_kept (pn : Nat) (s : State) : MemKept s (trimTree pn s) := by simp [trimTree]

@[simp] theorem freeLoose_kept (pn : Nat) (pgs : List Nat) (s : State) : MemKept s (freeLoose pn pgs s) := by simp [freeLoose]

@[simp] theorem freeTreePages_kept (pn : Nat) (before : List Node) (s : State) : MemKept s (freeTreePages pn before s) := by simp [freeTreePages]

@[simp] theorem removeNodes_kept (pn : Nat) (p : Node → Bool) (s : State) : MemKept s (removeNodes pn p s) := by simp [removeNodes]

@[simp] theorem losePage_kept (drop : Bool) (i g p : Nat) (s : State) : MemKept s (losePage drop i g p s) ∧ XnKept s (losePage drop i g p s) := by
  simp only [losePage]
  repeat' split
  all_goals simp

@[simp] theorem askDrop_kept (pn : Nat) (o : PoolObj) (s : State) : MemKept s (askDrop pn o s) ∧ XnKept s (askDrop pn o s) := by
  simp only [askDrop]
  repeat' split
  all_goals simp

@[simp] theorem dropKv_kept (i g p : Nat) (s : State) : MemKept s (dropKv i g p s) ∧ XnKept s (dropKv i g p s) := by simp [dropKv]

@[simp] theorem evictObj_kept (pn : Nat) (o : PoolObj) (s : State) :
    HiKept s (evictObj pn o s) ∧ MemKept s (evictObj pn o s) ∧ XnKept s (evictObj pn o s) := by
  simp only [evictObj]
  repeat' split
  all_goals simp

theorem makeFrames_kept {pn m n k : Nat} {s : State} {r : List Nat × State} (h : makeFrames pn m n k s = some r) :
    HiKept s r.2 ∧ MemKept s r.2 ∧ XnKept s r.2 := by
  induction k generalizing s with
  | zero =>
    unfold makeFrames at h
    split at h
    · cases h
      simp
    · cases h
  | succ k ih =>
    unfold makeFrames at h
    split at h
    · cases h
      simp
    · split at h
      case h_1 hfuel _ =>
        cases hfuel
        simpa using ih h
      case h_2 => cases h

@[simp] theorem copyFrame_kept (a b : Nat) (s : State) : MemKept s (copyFrame a b s) := by simp [copyFrame]

@[simp] theorem remap_kept (a b : Nat) (s : State) : MemKept s (remap a b s) := by simp [remap]

@[simp] theorem moveFrame_kept (pn a b : Nat) (s : State) : MemKept s (moveFrame pn a b s) ∧ XnKept s (moveFrame pn a b s) := by simp [moveFrame]

@[simp] theorem moveAll_kept (pn : Nat) (l : List (Nat × Nat)) (s : State) : MemKept s (moveAll pn l s) ∧ XnKept s (moveAll pn l s) := by
  induction l generalizing s with
  | nil => simp [moveAll]
  | cons e l ih => simp [moveAll, ih]

theorem takeFrames_kept {lc : Bool} {pn m n : Nat} {s : State} {r : List Nat × State} (h : takeFrames lc pn m n s = some r) :
    HiKept s r.2 ∧ MemKept s r.2 ∧ XnKept s r.2 := by
  unfold takeFrames at h
  split at h
  case h_1 hr =>
    cases h
    exact makeFrames_kept hr
  case h_2 =>
    repeat' split at h
    case isTrue => cases h
    case h_1 => simpa using makeFrames_kept h
    case h_2 => cases h

theorem allocate_kept {lc : Bool} {pn m n : Nat} {kind : ObjKind} {cls : ObjClass} {s u : State}
    (h : allocate lc pn kind cls m n s = some u) : HiKept s u ∧ MemKept s u ∧ XnKept s u := by
  unfold allocate at h
  split at h
  case isTrue =>
    cases h
    simp
  case isFalse =>
    obtain ⟨r, hr, rfl⟩ := Option.map_eq_some_iff.mp h
    have hkept := takeFrames_kept hr
    split <;> simpa using hkept

@[simp] theorem handPages_kept (pn i base : Nat) (s : State) : MemKept s (handPages pn i base s) := by simp [handPages]

theorem growTree_kept {pn i base : Nat} {g : KvGeom} {s u : State} (h : growTree pn i base g s = some u) :
    HiKept s u ∧ MemKept s u ∧ XnKept s u := by
  simpa using allocate_kept h

@[simp] theorem keepBlocks_kept (pn i : Nat) (g : KvGeom) (s : State) :
    HiKept s (keepBlocks pn i g s) ∧ MemKept s (keepBlocks pn i g s) ∧ XnKept s (keepBlocks pn i g s) := by
  simp only [keepBlocks]
  repeat' split
  case h_1 hgrown => simpa using growTree_kept hgrown
  all_goals simp

@[simp] theorem endSeq_kept (i : Nat) (s : State) : HiKept s (endSeq i s) ∧ MemKept s (endSeq i s) ∧ XnKept s (endSeq i s) := by
  simp only [endSeq]
  repeat' split
  all_goals simp

@[simp] theorem freeDrawer_kept (k : Nat) (s : State) : MemKept s (freeDrawer k s) := by
  simp only [freeDrawer]
  repeat' split
  all_goals simp

@[simp] theorem leaveSeq_kept (r : Request) (s : State) : HiKept s (leaveSeq r s) ∧ MemKept s (leaveSeq r s) ∧ XnKept s (leaveSeq r s) := by
  simp only [leaveSeq]
  repeat' split
  all_goals simp

@[simp] theorem dropReq_kept (k : Nat) (r : Request) (s : State) :
    HiKept s (dropReq k r s) ∧ MemKept s (dropReq k r s) ∧ XnKept s (dropReq k r s) := by simp [dropReq]

@[simp] theorem endReq_kept (silent : Bool) (k : Nat) (st : Status) (s : State) :
    HiKept s (endReq silent k st s) ∧ MemKept s (endReq silent k st s) ∧ XnKept s (endReq silent k st s) := by
  simp only [endReq]
  repeat' split
  all_goals simp

@[simp] theorem unmark_kept (k : OpKind) (s : State) : PwKept s (unmark k s) := by
  simp only [unmark]
  repeat' split
  all_goals simp

@[simp] theorem endOp_kept (n : Nat) (st : Status) (info : Nat) (s : State) : HiKept s (endOp n st info s) ∧ PwKept s (endOp n st info s) := by
  simp only [endOp]
  repeat' split
  all_goals simp

@[simp] theorem newFault_kept (cause lost job mc done : Nat) (s : State) : XnKept s (newFault cause lost job mc done s) := by simp [newFault]

@[simp] theorem rerunJob_kept (i : Nat) (st : Status) (k : Nat) (s : State) :
    HiKept s (rerunJob i st k s) ∧ MemKept s (rerunJob i st k s) ∧ XnKept s (rerunJob i st k s) := by
  induction k generalizing i st s with
  | zero => simp [rerunJob]
  | succ k ih =>
    simp only [rerunJob]
    repeat' split
    all_goals simp [ih]

@[simp] theorem rerunAll_kept (st : Status) (s : State) :
    HiKept s (rerunAll st s) ∧ MemKept s (rerunAll st s) ∧ XnKept s (rerunAll st s) := by simp [rerunAll]

/-- The state in which LC traffic is served first or not, capacity is short or not, and the jobs are scaled so (R353). -/
def withCapacity (first short : Bool) (jobs : NMap Job) (s : State) : State :=
  let s := { s with xn := { s.xn with lcFirst := first } }
  { s with xn := { s.xn with capacityShort := short }, srv := { s.srv with jobs := jobs } }

@[simp] theorem withCapacity_kept (first short : Bool) (jobs : NMap Job) (s : State) :
    HiKept s (withCapacity first short jobs s) ∧ MemKept s (withCapacity first short jobs s) ∧ XnKept s (withCapacity first short jobs s) := by
  simp [withCapacity]

/-- Capacity suffices, or the supply tests are rerun and a fault is reported. -/
theorem evalCapacity_induct {P : State → Prop} (s : State) (hroom : ∀ first jobs, P (withCapacity first false jobs s))
    (hlost : ∀ first jobs n, P (newFault 3 0xFF 0 0 n (rerunAll .fabricTargetLost (withCapacity first true jobs s)))) :
    P (evalCapacity s) := by
  rw [evalCapacity]
  split
  · exact hroom _ _
  · exact hlost _ _ _

@[simp] theorem evalCapacity_kept (s : State) : HiKept s (evalCapacity s) ∧ MemKept s (evalCapacity s) ∧ XnKept s (evalCapacity s) :=
  evalCapacity_induct (P := fun u => HiKept s u ∧ MemKept s u ∧ XnKept s u) s (fun _ _ => by simp) (fun _ _ _ => by simp)

theorem XnKept.trans {s u v : State} (h : XnKept s u) (h' : XnKept u v) : XnKept s v := by simp_all

@[simp] theorem rerouteWaiting_kept (n : Nat) (s : State) : XnKept s (rerouteWaiting n s) := by
  have hleft : XnKept s (modPort n (fun p => { p with waitq := [] }) s) := by simp
  refine hleft.trans (forEach_xnKept _ _ fun w s => ?_)
  split <;> simp

@[simp] theorem stopPort_kept (n st : Nat) (s : State) : HiKept s (stopPort n st s) ∧ MemKept s (stopPort n st s) ∧ XnKept s (stopPort n st s) := by
  simp [stopPort]

@[simp] theorem fetchPeer_kept (mc epoch mode loc a n : Nat) (s : State) : XnKept s (fetchPeer mc epoch mode loc a n s) := by simp [fetchPeer]

@[simp] theorem fetchCopy_kept (mc tag epoch : Nat) (e : Nat × ShardRec) (s : State) : XnKept s (fetchCopy mc tag epoch e s) := by simp [fetchCopy]

@[simp] theorem freeEpochArea_kept (mc n : Nat) (s : State) : MemKept s (freeEpochArea mc n s) := by
  simp only [freeEpochArea]
  repeat' split
  all_goals simp

@[simp] theorem dropModelAreas_kept (mc : Nat) (s : State) : MemKept s (dropModelAreas mc s) := by
  simp only [dropModelAreas]
  repeat' split
  all_goals simp

@[simp] theorem modTarget_kept (target : Nat) (f : List (Nat × Nat) → List (Nat × Nat)) (s : State) : MemKept s (modTarget target f s) := by
  simp only [modTarget]
  repeat' split
  all_goals simp

@[simp] theorem takeEmpty_kept (op target size : Nat) (s : State) : MemKept s (takeEmpty op target size s) := by
  simp only [takeEmpty]
  repeat' split
  all_goals simp

@[simp] theorem reclaimPart_kept (op target size : Nat) (k : Nat) (s : State) :
    HiKept s (reclaimPart op target size k s) ∧ MemKept s (reclaimPart op target size k s) ∧ XnKept s (reclaimPart op target size k s) := by
  induction k generalizing op target size s with
  | zero => simp [reclaimPart]
  | succ k ih =>
    simp only [reclaimPart]
    repeat' split
    all_goals simp [ih]

@[simp] theorem reclaimModel_kept (op size : Nat) (consent : Bool) (k : Nat) (s : State) : MemKept s (reclaimModel op size consent k s) := by
  induction k generalizing op size consent s with
  | zero => simp [reclaimModel]
  | succ k ih =>
    simp only [reclaimModel]
    repeat' split
    all_goals simp [ih]

@[simp] theorem reclaim_kept (op : Nat) (s : State) : HiKept s (reclaim op s) ∧ MemKept s (reclaim op s) ∧ XnKept s (reclaim op s) := by
  simp only [reclaim]
  repeat' split
  all_goals simp

@[simp] theorem controlPass_kept (forced : Bool) (s : State) :
    HiKept s (controlPass forced s) ∧ MemKept s (controlPass forced s) ∧ XnKept s (controlPass forced s) := by
  simp only [controlPass]
  repeat' split
  all_goals simp

@[simp] theorem setEmergency_kept (cap therm : Bool) (s : State) :
    HiKept s (setEmergency cap therm s) ∧ MemKept s (setEmergency cap therm s) ∧ XnKept s (setEmergency cap therm s) ∧
      PwKept s (setEmergency cap therm s) := by
  simp [setEmergency]

@[simp] theorem capMoves_kept (old : Nat) (s : State) :
    HiKept s (capMoves old s) ∧ MemKept s (capMoves old s) ∧ XnKept s (capMoves old s) ∧ PwKept s (capMoves old s) := by
  simp only [capMoves]
  repeat' split
  all_goals simp

@[simp] theorem toChips_kept (mc : Nat) (msg : XnMsg) (s : State) : XnKept s (toChips mc msg s) := by simp [toChips]

@[simp] theorem freeArea_kept (mc : Nat) (s : State) : MemKept s (freeArea mc s) := by
  simp only [freeArea]
  repeat' split
  all_goals simp

@[simp] theorem endInstall_kept (mc : Nat) (st : Status) (s : State) :
    HiKept s (endInstall mc st s) ∧ PwKept s (endInstall mc st s) := by simp [endInstall]

@[simp] theorem abortInstall_kept (mc : Nat) (st : Status) (s : State) :
    HiKept s (abortInstall mc st s) ∧ MemKept s (abortInstall mc st s) ∧ PwKept s (abortInstall mc st s) := by simp [abortInstall]

@[simp] theorem abortAll_kept (mc : Nat) (st : Status) (s : State) :
    HiKept s (abortAll mc st s) ∧ MemKept s (abortAll mc st s) ∧ XnKept s (abortAll mc st s) ∧ PwKept s (abortAll mc st s) := by simp [abortAll]

@[simp] theorem voteNo_kept (mc : Nat) (st : Status) (s : State) :
    HiKept s (voteNo mc st s) ∧ MemKept s (voteNo mc st s) ∧ XnKept s (voteNo mc st s) ∧ PwKept s (voteNo mc st s) := by
  simp only [voteNo]
  repeat' split
  all_goals simp

@[simp] theorem bindEpoch_kept (mc : Nat) (s : State) : SecKept s (bindEpoch mc s) := by
  simp only [bindEpoch]
  repeat' split
  all_goals simp

@[simp] theorem releaseInstall_kept (mc : Nat) (s : State) :
    HiKept s (releaseInstall mc s) ∧ PwKept s (releaseInstall mc s) ∧ SecKept s (releaseInstall mc s) := by simp [releaseInstall]

@[simp] theorem tryRelease_kept (mc : Nat) (s : State) :
    HiKept s (tryRelease mc s) ∧ XnKept s (tryRelease mc s) ∧ PwKept s (tryRelease mc s) ∧ SecKept s (tryRelease mc s) := by
  simp only [tryRelease]
  repeat' split
  all_goals simp

@[simp] theorem tryCommit_kept (mc : Nat) (s : State) :
    HiKept s (tryCommit mc s) ∧ XnKept s (tryCommit mc s) ∧ PwKept s (tryCommit mc s) ∧ SecKept s (tryCommit mc s) := by
  simp only [tryCommit]
  repeat' split
  all_goals simp

@[simp] theorem copySpan_kept (a b n : Nat) (s : State) : MemKept s (copySpan a b n s) := by simp [copySpan]

@[simp] theorem fillSlots_kept (base : Nat) (m : Manifest) (s : State) : MemKept s (fillSlots base m s) :=
  forEach_memKept _ s fun e s => forEach_memKept _ s fun w s => by dsimp only; split <;> simp

@[simp] theorem tryVote_kept (mc : Nat) (s : State) : FrozenKept s (tryVote mc s) := by
  simp only [tryVote]
  repeat' split
  all_goals simp

@[simp] theorem makeRun_kept (mc n : Nat) (k : Nat) (s : State) : MemKept s (makeRun mc n k s) := by
  induction k generalizing mc n s with
  | zero => simp [makeRun]
  | succ k ih =>
    simp only [makeRun]
    repeat' split
    all_goals simp [ih]

@[simp] theorem setModes_kept (base : Nat) (m : Manifest) (s : State) : MemKept s (setModes base m s) :=
  forEach_memKept _ s fun x s => by split <;> simp

@[simp] theorem startShard_kept (mc idx : Nat) (s : State) : XnKept s (startShard mc idx s) := by
  simp only [startShard]
  repeat' split
  all_goals simp

@[simp] theorem startWaiting_kept (mc : Nat) (s : State) : XnKept s (startWaiting mc s) := by simp [startWaiting]

@[simp] theorem takeArea_kept (mc : Nat) (s : State) : FrozenKept s (takeArea mc s) := by
  simp only [takeArea]
  repeat' split
  all_goals simp

@[simp] theorem resumeLate_kept (c : Nat) (s : State) : HiKept s (resumeLate c s) := by simp [resumeLate]

@[simp] theorem enableCtx_kept (ctx : Nat) (s : State) : HiKept s (enableCtx ctx s) := by
  simp only [enableCtx]
  repeat' split
  all_goals simp

@[simp] theorem abortReqs_kept (c : Nat) (s : State) : HiKept s (abortReqs c s) ∧ MemKept s (abortReqs c s) ∧ XnKept s (abortReqs c s) :=
  ⟨forEach_hiKept _ s fun k s => by split <;> simp, forEach_memKept _ s fun k s => by split <;> simp,
    forEach_xnKept _ s fun k s => by split <;> simp⟩

@[simp] theorem resetCtx_kept (c : Nat) (s : State) : HiKept s (resetCtx c s) ∧ MemKept s (resetCtx c s) ∧ XnKept s (resetCtx c s) := by
  simp only [resetCtx]
  repeat' split
  all_goals simp

@[simp] theorem lapse_kept (s : State) : SecKept s (lapse s) := by
  simp only [lapse]
  repeat' split
  all_goals simp

@[simp] theorem mboxEnd_kept (n : Nat) (st : Status) (out : List Byte) (s : State) : SecKept s (mboxEnd n st out s) := by simp [mboxEnd]

@[simp] theorem writeDebug_kept (v : Word) (s : State) : SecKept s (writeDebug v s) := by
  simp only [writeDebug]
  repeat' split
  all_goals simp

@[simp] theorem kickOp_kept (n : Nat) (s : State) : FrozenKept s (kickOp n s) := by
  simp only [kickOp]
  repeat' split
  all_goals simp

@[simp] theorem kickAll_kept (s : State) : FrozenKept s (kickAll s) := by simp [kickAll]

@[simp] theorem pwRefuse_kept (s : State) : PwKept s (pwRefuse s) := by simp [pwRefuse]

@[simp] theorem writeCap_kept (v : Word) (s : State) :
    HiKept s (writeCap v s) ∧ MemKept s (writeCap v s) ∧ XnKept s (writeCap v s) ∧ PwKept s (writeCap v s) := by
  simp only [writeCap]
  repeat' split
  all_goals simp

@[simp] theorem writePhase_kept (v : Word) (s : State) :
    HiKept s (writePhase v s) ∧ MemKept s (writePhase v s) ∧ XnKept s (writePhase v s) ∧ PwKept s (writePhase v s) := by
  simp only [writePhase]
  repeat' split
  all_goals simp

@[simp] theorem writeOp_kept (n : Nat) (v : Word) (s : State) :
    HiKept s (writeOp n v s) ∧ MemKept s (writeOp n v s) ∧ XnKept s (writeOp n v s) ∧ PwKept s (writeOp n v s) := by
  simp only [writeOp]
  repeat' split
  all_goals simp

@[simp] theorem startExit_kept (s : State) : PwKept s (startExit s) := by simp [startExit]

@[simp] theorem requestRun_kept (s : State) : FrozenKept s (requestRun s) := by
  simp only [requestRun]
  repeat' split
  all_goals simp

@[simp] theorem requestLow_kept (target : PState) (s : State) : PwKept s (requestLow target s) := by
  simp only [requestLow]
  repeat' split
  all_goals simp

@[simp] theorem requestOf_kept (req : Nat) (s : State) : FrozenKept s (requestOf req s) := by
  simp only [requestOf]
  repeat' split
  all_goals simp

@[simp] theorem writeReq_kept (req : Nat) (s : State) : FrozenKept s (writeReq req s) := by
  simp only [writeReq]
  repeat' split
  all_goals simp

@[simp] theorem holdLo_kept (fn off : Nat) (v : Word) (s : State) : HiKept s (holdLo fn off v s) := by simp [holdLo]

@[simp] theorem dropLo_kept (fn off : Nat) (s : State) : HiKept s (dropLo fn off s) := by simp [dropLo]

@[simp] theorem writeCxCtrl_kept (ctx : Nat) (v : Word) (s : State) : HiKept s (writeCxCtrl ctx v s) := by
  simp only [writeCxCtrl]
  repeat' split
  all_goals simp

/-- A write that a setup page's guard lets through or refuses. -/
@[simp] theorem setupGuard_kept {f : State → State} (h : ∀ s, HiKept s (f s)) (ctx : Nat) (s : State) : HiKept s (setupGuard ctx f s) := by
  unfold setupGuard
  split
  · simp
  · exact h s

@[simp] theorem setupWrite_kept (ctx rel : Nat) (v : Word) (s : State) :
    HiKept s (setupWrite ctx rel v s) ∧ MemKept s (setupWrite ctx rel v s) ∧ XnKept s (setupWrite ctx rel v s) := by
  simp only [setupWrite]
  repeat' split
  all_goals simp

@[simp] theorem writeDbStatus_kept (v : Word) (s : State) : HiKept s (writeDbStatus v s) := by simp [writeDbStatus]

@[simp] theorem writePtmCtrl_kept (v : Word) (s : State) : HiKept s (writePtmCtrl v s) := by simp [writePtmCtrl]

@[simp] theorem sendPending_kept (fn v : Nat) (s : State) : HiKept s (sendPending fn v s) := by
  simp only [sendPending]
  repeat' split
  all_goals simp

@[simp] theorem writeMsix_kept (fn rel : Nat) (v : Word) (s : State) : HiKept s (writeMsix fn rel v s) := by simp [writeMsix]

@[simp] theorem writePwStatus_kept (v : Word) (s : State) : PwKept s (writePwStatus v s) := by simp [writePwStatus]

@[simp] theorem writeMboxCmd_kept (v : Word) (s : State) : SecKept s (writeMboxCmd v s) := by
  simp only [writeMboxCmd]
  repeat' split
  all_goals simp

/-! ## Writes while LOCK is set (R469 to R471) -/

theorem FrozenKept.trans {s u v : State} (h : FrozenKept s u) (h' : FrozenKept u v) : FrozenKept s v := by simp_all

theorem FrozenKept.ite {p : Prop} [Decidable p] {s u v : State} (hu : FrozenKept s u) (hv : FrozenKept s v) : FrozenKept s (if p then u else v) := by
  split
  · exact hu
  · exact hv

/-- With LOCK set, a write-locked field changes at most where its own rule refuses the write (R471). -/
theorem FrozenKept.lockedWrite {refused changes : Bool} {f : State → State} {s : State} (hl : s.hi.lock = true)
    (h : refused = true → FrozenKept s (f s)) : FrozenKept s (lockedWrite refused changes f s) := by
  cases refused with
  | true => exact h rfl
  | false =>
    have hlocked : Machine.lockedWrite false changes f s = if changes then violate s else s := by simp [Machine.lockedWrite, hl]
    rw [hlocked]
    exact .ite (by simp [violate]) (by simp)

/-- A field whose every value its own rule takes stands while LOCK is set. -/
theorem FrozenKept.lockedWrite_false {changes : Bool} {f : State → State} {s : State} (hl : s.hi.lock = true) :
    FrozenKept s (Machine.lockedWrite false changes f s) :=
  .lockedWrite hl (by simp)

/-- A field whose rule refuses some values stands, and a refusal moves none (R471). -/
theorem FrozenKept.lockedWrite_checked {ok changes : Bool} {f g : State → State} {s : State} (hl : s.hi.lock = true)
    (h : FrozenKept s (g s)) : FrozenKept s (Machine.lockedWrite (!ok) changes (fun s => if ok then f s else g s) s) :=
  .lockedWrite hl fun hrefused => by rw [if_neg (by simpa using hrefused)]; exact h

/-- A read changes what is latched and what is put out. -/
@[simp] theorem read32_kept (f : Func) (off : Nat) (s : State) : HiKept s (read32 f off s).2 := by
  simp only [read32]
  repeat' split
  all_goals simp

@[simp] theorem accessRead_kept (f : Func) (off n : Nat) (s : State) : HiKept s (accessRead f off n s).2 := by
  simp only [accessRead]
  repeat' split
  all_goals simp

@[simp] theorem readOut_kept (f : Func) (off n : Nat) (s : State) : HiKept s (readOut f off n s) := by
  simp only [readOut]
  split <;> simp

section
variable {s : State} (hl : s.hi.lock = true)
include hl

theorem writeDbCtrl_keepsFrozen (v : Word) : FrozenKept s (writeDbCtrl v s) :=
  have henable : ∀ u : State, FrozenKept u { u with hi := { u.hi with dbEnable := bit v.toNat 31 } } := fun u => by simp
  .ite (by simp) (.trans (.lockedWrite_false hl) (henable _))

theorem lockedLo_keepsFrozen (off : Nat) (v : Word) : FrozenKept s (lockedLo off v s) := .lockedWrite_false hl

theorem lockedHi_keepsFrozen (off : Nat) (v : Word) : FrozenKept s (lockedHi off v s) := .lockedWrite_false hl

theorem writeSetupLock_keepsFrozen (v : Word) : FrozenKept s (writeSetupLock v s) := by
  rw [writeSetupLock_of_locked hl]
  exact .ite (by simp) (by simp)

theorem writeHi_keepsFrozen {rel : Nat} (hreset : rel ≠ 0x30) (v : Word) : FrozenKept s (writeHi rel v s) :=
  .ite (writeDbCtrl_keepsFrozen hl v) <| .ite (by simp [writeDbStatus]) <| .ite (lockedLo_keepsFrozen hl _ v) <|
  .ite (lockedHi_keepsFrozen hl _ v) <| .ite (by simp [writePtmCtrl]) <| by
    rw [if_neg hreset]
    exact .ite (writeSetupLock_keepsFrozen hl v) <| .ite (by simp) <| .ite (by simp) (by simp)

theorem writeHiRsv_keepsFrozen (v : Word) : FrozenKept s (writeHiRsv v s) := .lockedWrite_checked hl (by simp)

theorem writeAgePeriod_keepsFrozen (v : Word) : FrozenKept s (writeAgePeriod v s) := .lockedWrite_checked hl (by simp)

theorem writeMm_keepsFrozen (rel : Nat) (v : Word) : FrozenKept s (writeMm rel v s) :=
  .ite (writeHiRsv_keepsFrozen hl v) <| .ite (by simp) <| .ite (writeAgePeriod_keepsFrozen hl v) (by simp)

theorem writePortCtrl_keepsFrozen (port : Nat) (v : Word) : FrozenKept s (writePortCtrl port v s) := by
  have hset : ∀ u, FrozenKept u (modPort port (fun p => { p with disable := bit v.toNat 31 }) u) := fun u => by simp
  have hdisable : ∀ {changes f}, FrozenKept s (modPort port (fun p => { p with disable := bit v.toNat 31 }) (lockedWrite false changes f s)) :=
    .trans (.lockedWrite_false hl) (hset _)
  have hstop : ∀ u, FrozenKept u (stopPort port 0 u) := fun u => by simp
  have htrain : ∀ u, FrozenKept u (modPort port (fun p => { p with st := 1 }) u) := fun u => by simp
  exact .ite (.ite hdisable (hdisable.trans (hstop _))) (.ite (hdisable.trans (htrain _)) hdisable)

theorem writeVcWeight_keepsFrozen (v : Word) : FrozenKept s (writeVcWeight v s) := .lockedWrite_checked hl (by simp)

theorem writeXn_keepsFrozen (rel : Nat) (v : Word) : FrozenKept s (writeXn rel v s) :=
  .ite (writePortCtrl_keepsFrozen hl _ v) <| .ite (writeVcWeight_keepsFrozen hl v) <| .ite (by simp) <|
  .ite (.lockedWrite_false hl) (by simp)

theorem writeStateReq_keepsFrozen (v : Word) : FrozenKept s (writeStateReq v s) :=
  .trans (.lockedWrite_false hl) (writeReq_kept _ _)

theorem writeFloor_keepsFrozen (v : Word) : FrozenKept s (writeFloor v s) := by
  refine .lockedWrite hl fun hrefused => ?_
  rw [setFloor, if_pos hrefused]
  simp

theorem writeRamp_keepsFrozen (v : Word) : FrozenKept s (writeRamp v s) := .lockedWrite_checked hl (by simp)

theorem writePw_keepsFrozen (rel : Nat) (v : Word) : FrozenKept s (writePw rel v s) :=
  .ite (writeStateReq_keepsFrozen hl v) <| .ite (by simp) <| .ite (writeFloor_keepsFrozen hl v) <| .ite (writeRamp_keepsFrozen hl v) <|
  .ite (by simp) <| .ite (by simp) <| .ite (by simp) (by simp)

theorem writeSy_keepsFrozen (rel : Nat) (v : Word) : FrozenKept s (writeSy rel v s) :=
  .ite (by simp) <| .ite (.lockedWrite_false hl) <| .ite (by simp) <| .ite (by simp) <| .ite (by simp) <| .ite (by simp) (by simp)

/-! ## The accesses of the host -/

theorem write32_keepsFrozen {f : Func} {off : Nat} (hreset : f = .pf → off ≠ 0x10030) (v : Word) : FrozenKept s (write32 f off v s) := by
  refine write32_induct (by simp) (fun hf => ?pf) (fun fn rel => by simp) (fun c rel => by simp)
  case pf =>
    exact pfWrite_induct (by simp) (fun rel hoff => writeHi_keepsFrozen hl (fun h => hreset hf (by omega)) v)
      (fun rel => writeMm_keepsFrozen hl rel v) (fun _ => by simp) (fun rel => writeXn_keepsFrozen hl rel v)
      (fun rel => writePw_keepsFrozen hl rel v) (fun rel => writeSy_keepsFrozen hl rel v) (fun _ => by simp)

end

/-- Outside the reset register an access leaves the frozen fields and LOCK: its upper half finds LOCK set as its lower half did. -/
theorem accessWrite_keepsFrozen {f : Func} {off : Nat} (hreset : (f == .pf && off == 0x10030) = false) (n : Nat) (v : Dword) {s : State}
    (hs : s.hi.lock = true) : FrozenKept s (accessWrite f off n v s) := by
  have hoff : f = .pf → off ≠ 0x10030 := by
    rintro rfl rfl
    exact absurd hreset (by decide)
  refine (accessWrite_rel (R := fun s u => s.hi.lock = true → FrozenKept s u ∧ u.hi.lock = true) (fun _ hs => ⟨by simp, hs⟩)
    (fun _ _ _ h h' hs => ⟨.trans (h hs).1 (h' (h hs).2).1, (h' (h hs).2).2⟩) (fun off' v s _ hoff' hs => ?word)
    (fun lo hi s _ hs => ⟨.lockedWrite_false hs, by simp [hs]⟩) s hs).1
  case word =>
    have hnot : f = .pf → off' ≠ 0x10030 := fun hf => by
      obtain rfl | ⟨hupper, -⟩ := hoff'
      · exact hoff hf
      · omega
    exact ⟨write32_keepsFrozen hs hnot v, lockStays_write32 hnot v s hs⟩

/-- A register's own command leaves what its write does, where the registers answer. -/
theorem regWrite_keepsFrozen {f : State → State} {t : Nat} {s : State} (h : FrozenKept (tick t s) (f (tick t s))) :
    FrozenKept s (regWrite t f s) := by
  have htick : FrozenKept s (tick t s) := by simp
  exact .ite (htick.trans h) htick

/-! ## A write of XN_VC_WEIGHT while LOCK is set (R470) -/

/-- Weights that keep both rules but not the present ones set VIOLATION. -/
theorem writeVcWeight_of_locked {v : Word} {s : State} (hl : s.hi.lock = true)
    (hpos : [bits v.toNat 5 0, bits v.toNat 11 6, bits v.toNat 17 12, bits v.toNat 23 18, bits v.toNat 29 24].all (fun w => decide (1 ≤ w)) = true)
    (hsum : 70 * (bits v.toNat 5 0 + bits v.toNat 11 6 + bits v.toNat 17 12 + bits v.toNat 23 18 + bits v.toNat 29 24) ≤
      (bits v.toNat 5 0 + bits v.toNat 11 6) * 100) :
    writeVcWeight v s = if bits v.toNat 5 0 = s.xn.w1 ∧ bits v.toNat 11 6 = s.xn.w2 ∧ bits v.toNat 17 12 = s.xn.w3 ∧
      bits v.toNat 23 18 = s.xn.w4 ∧ bits v.toNat 29 24 = s.xn.w5 then s else violate s := by
  simp only [writeVcWeight, lockedWrite, hpos, hsum, hl, decide_true, Bool.and_true, Bool.not_true, Bool.or_false, Bool.false_eq_true, if_false]
  split
  case isTrue hmoved => rw [if_neg (by simpa using hmoved)]
  case isFalse hsame => rw [if_pos (by simpa using hsame)]

/-- Settles O51: with LOCK set each write-locked field stands; the other fields that a register write may move are not of Table 20.9. -/
theorem lockFreezesItsFields : Obligations.LockFreezesItsFields := by
  refine ⟨fun c s u hs hwrites hc hu => ?fields, fun t a b c d e s hl hr ha1 ha hb1 hb hc1 hc hd1 hd he1 he hsum => ?weights⟩
  case weights =>
    obtain ⟨fa, fb, fc, fd, fe⟩ := weightFields ha hb hc hd he
    have hpos : [a, b, c, d, e].all (fun w => decide (1 ≤ w)) = true := by simp [ha1, hb1, hc1, hd1, he1]
    have hlocked := writeVcWeight_of_locked (s := tick t s) hl (by rwa [fa, fb, fc, fd, fe]) (by rw [fa, fb, fc, fd, fe]; omega)
    rw [fa, fb, fc, fd, fe] at hlocked
    exact congrArg Host.Outcome.next ((if_pos hr).trans hlocked)
  case fields =>
    have hof : ∀ {v}, exec c s = .next v → FrozenKept s v → frozenSame s u := fun hv hkept => by
      obtain rfl := Host.Outcome.next.inj (hv.symm.trans hu)
      exact (frozenSame_iff _ _).2 hkept
    have hlt : ∀ t, (tick t s).hi.lock = true := fun _ => hs
    have htick : ∀ t, FrozenKept s (tick t s) := fun t => by simp
    cases c with
    | registerWrite t f off n v => exact hof rfl ((htick t).trans (accessWrite_keepsFrozen hc n v (hlt t)))
    | pairLoWrite t f off v | pairHiWrite t f off v => exact hof rfl ((htick t).trans (accessWrite_keepsFrozen hc 4 _ (hlt t)))
    | misalignedAccess t f isWrite off n v =>
      exact hof rfl (.ite ((htick t).trans (accessWrite_keepsFrozen hc n v (hlt t))) (by simp))
    | ringSetupWrite t ctx off v => exact hof rfl (regWrite_keepsFrozen (.ite (by simp) (by simp)))
    | hiDbCtrlWrite t v => exact hof rfl (regWrite_keepsFrozen (writeDbCtrl_keepsFrozen (hlt t) v))
    | xnVcWeightWrite t v => exact hof rfl (regWrite_keepsFrozen (writeVcWeight_keepsFrozen (hlt t) v))
    | mmCabHiRsvWrite t v => exact hof rfl (regWrite_keepsFrozen (writeHiRsv_keepsFrozen (hlt t) v))
    | tdAddrOnlyWrite t n v => exact hof rfl (.ite (regWrite_keepsFrozen (by simp)) (htick t))
    | advisoryClear t v => exact hof rfl (regWrite_keepsFrozen (by simp))
    | portDisable t port v => exact hof rfl (.ite (regWrite_keepsFrozen (writePortCtrl_keepsFrozen (hlt t) port v)) (htick t))
    | pwFloorWrite t v => exact hof rfl (regWrite_keepsFrozen (writeFloor_keepsFrozen (hlt t) v))
    | setupLock t v => exact hof rfl (regWrite_keepsFrozen (writeSetupLock_keepsFrozen (hlt t) v))
    | pwCapWrite | pwPhaseWrite | pwOpWrite | fbSchedCtrlWrite | pfLevelWrite => exact hof rfl (regWrite_keepsFrozen (by simp))
    | _ => cases hwrites

end Sys2Proof.Machine
end
